-- ==== Sys2Proof/Word.lean ====
section
/-!
DEFINITION. The words of the EH-7260 model: bytes, byte strings, and their plainest readings (R5, R6).
-/

namespace Sys2Proof

/-- One byte. -/
abbrev Byte := BitVec 8

/-- A byte string; byte 0 is at its lowest address (R6). -/
abbrev Bytes := List Byte

/-- A 16-bit word. -/
abbrev W16 := BitVec 16

/-- A 32-bit word (a register, a stack entry of an Idnel core). -/
abbrev W32 := BitVec 32

/-- A 64-bit word. -/
abbrev W64 := BitVec 64

/-- A 128-bit block. -/
abbrev W128 := BitVec 128

end Sys2Proof
end

