-- ==== Sys2Proof/Syntax.lean ====
section
/-!
DEFINITION. The commands of the EH-7260 model: one constructor for each row of spec/opcode_table.json, in the table's order, with what the
environment supplies as operands: addresses and values written, data that arrives, and outcomes of units outside the model.
-/

namespace Sys2Proof

/-- A command: an instruction slot of a core, a lane request's turn, a register access, a host, fabric, pair or management event, a timer. -/
inductive Instr where
  /-- SQ_DOORBELL (R54): Write of a submission tail to HIF_SQ_DB_n, making descriptors available or recording the tail, or counting a bad tail in DB_ERRORS. -/
  | sqDoorbell (fn ring tail : Nat)
  /-- CQ_DOORBELL (R57): Write of a completion head to HIF_CQ_DB_n, consuming written completions or counting a bad head in DB_ERRORS. -/
  | cqDoorbell (fn ring head : Nat)
  /-- RING_ENABLE (R52): Write of ENABLE = 1 to HIF_RING_CTL_n, which starts the pair or leaves it REFUSED. -/
  | ringEnable (fn ring ctl : Nat)
  /-- RING_DISABLE (R53): Write of ENABLE = 0 to HIF_RING_CTL_n, which stops fetch and sets DRAINING, or leaves REFUSED. -/
  | ringDisable (fn ring ctl : Nat)
  /-- FETCH_ISSUE (R56): The host interface starts a descriptor fetch once descriptors are available and the completion ring has a free slot, reserving a completion slot. -/
  | fetchIssue (fn ring : Nat)
  /-- DESCRIPTOR_ACCEPT (R46): Fetch data arrives intact, the descriptor is stamped and checked, and becomes a token or an immediate error completion. -/
  | descriptorAccept (fn ring : Nat) (data : List Byte) (rec : Nat)
  /-- FETCH_FAIL (R13): A fetch ends with no intact data, accepting no slot and freeing the reserved completion slots. -/
  | fetchFail (fn ring : Nat)
  /-- MOD_TIME_EXPIRY (R58): MOD_TIME ticks pass since the first unsignalled IRQ completion and the ring's vector fires. -/
  | modTimeExpiry (fn ring : Nat)
  /-- FN_CREATE (R39): HIF_FN_CMD CREATE gives a VF its requested pool shares whole or not at all. -/
  | fnCreate
  /-- FN_RESIZE (R39): HIF_FN_CMD RESIZE changes a function's four shares in one update or refuses. -/
  | fnResize
  /-- FN_DESTROY (R43): HIF_FN_CMD DESTROY returns an idle VF's shares to the free pools. -/
  | fnDestroy
  /-- FN_RESET (R43): HIF_FN_CMD RESET starts a function level reset of a created VF with cause 4. -/
  | fnReset
  /-- FN_CMD_COMPLETE (R40): The function command's update finishes and HIF_FN_CMD_STATUS leaves BUSY. -/
  | fnCmdComplete
  /-- POOL_SNAP (R41): A read of HIF_POOL_SNAP latches the free counts and the selected function's shares. -/
  | poolSnap
  /-- FN_SEL_WRITE (R286): A write to HIF_FN_SEL selects the function and reloads the host-region staging copies. -/
  | fnSelWrite (value : Nat)
  /-- VF_FLR (R60): An FLR written to a VF's Device Control starts its function level reset with cause 1. -/
  | vfFlr (fn : Nat)
  /-- PF_FLR (R60): An FLR of the PF resets every function concurrently with cause 2. -/
  | pfFlr
  /-- VF_ENABLE_CLEAR (R60): Clearing VF Enable resets every VF with cause 3. -/
  | vfEnableClear
  /-- VF_D3HOT (R60): A VF moving to D3hot performs its function level reset with cause 5. -/
  | vfD3hot (fn : Nat)
  /-- RESET_DRAIN_TIMEOUT (R62): At 1,500 µs after the stamp, cores still running the function's commands are context-reset and lane operations stopped. -/
  | resetDrainTimeout (fn : Nat)
  /-- RESET_REPORT_WRITE (R65): After the drain the function's keys are invalidated, work metered, the report written header last, rings cleared and reset DONE signalled. -/
  | resetReportWrite (fn : Nat)
  /-- LINK_DOWN (R35): A PCIe link-down or hot reset ends service as a loss of main power, with fencing if a partner is in STANDBY. -/
  | linkDown
  /-- PERST_ASSERT (R517): Assertion of PERST_N with main power present is handled as a link-down. -/
  | perstAssert
  /-- DOE_IDE_KM (R33): An IDE_KM message through the PF's DOE mailbox programs IDE stream keys. -/
  | doeIdeKm (stream : Nat) (key : List Byte)
  /-- PIN_TRANSLATE (R87): Command 0x1001 translates a PIN block between formats and keys. -/
  | pinTranslate (core : Nat) (input : List Byte) (fault : Nat)
  /-- PIN_VERIFY_OFFSET (R89): Command 0x1002 verifies a PIN by the decimalisation-table offset method. -/
  | pinVerifyOffset (core : Nat) (input : List Byte) (fault : Nat)
  /-- PIN_VERIFY_PVV (R90): Command 0x1003 verifies a PIN by the PIN verification value method. -/
  | pinVerifyPvv (core : Nat) (input : List Byte) (fault : Nat)
  /-- CVV_GENERATE (R91): Command 0x1101 computes a card verification value. -/
  | cvvGenerate (core : Nat) (input : List Byte) (fault : Nat)
  /-- CVV_VERIFY (R91): Command 0x1102 verifies a card verification value. -/
  | cvvVerify (core : Nat) (input : List Byte) (fault : Nat)
  /-- ARQC_VERIFY (R92): Command 0x1201 verifies an ARQC and optionally generates an ARPC. -/
  | arqcVerify (core : Nat) (input : List Byte) (fault : Nat)
  /-- MAC_GENERATE (R95): Command 0x1301 computes a MAC over the input message. -/
  | macGenerate (core : Nat) (input : List Byte) (fault : Nat)
  /-- MAC_VERIFY (R95): Command 0x1302 verifies a MAC over the input message. -/
  | macVerify (core : Nat) (input : List Byte) (fault : Nat)
  /-- DUKPT_PIN_TRANSLATE (R96): Command 0x1401 derives a DUKPT key and translates a PIN block. -/
  | dukptPinTranslate (core : Nat) (input : List Byte) (fault : Nat)
  /-- DUKPT_MAC_VERIFY (R96): Command 0x1402 derives a DUKPT key and verifies a MAC. -/
  | dukptMacVerify (core : Nat) (input : List Byte) (fault : Nat)
  /-- DUKPT_DECRYPT (R96): Command 0x1403 derives a DUKPT key and deciphers data in CBC. -/
  | dukptDecrypt (core : Nat) (input : List Byte) (fault : Nat)
  /-- FF1_TOKENIZE (R98): Command 0x1501 enciphers part of a string by FF1. -/
  | ff1Tokenize (core : Nat) (input : List Byte) (fault : Nat)
  /-- FF1_DETOKENIZE (R98): Command 0x1502 deciphers part of a string by FF1. -/
  | ff1Detokenize (core : Nat) (input : List Byte) (fault : Nat)
  /-- KEY_IMPORT (R100): Command 0x1601 rewraps a key block under the function's LMK. -/
  | keyImport (core : Nat) (input : List Byte) (fault : Nat)
  /-- KEY_EXPORT (R100): Command 0x1602 exports a key block under a K1 protection key. -/
  | keyExport (core fault : Nat)
  /-- KEY_TRANSLATE (R100): Command 0x1603 translates a key block between protection keys. -/
  | keyTranslate (core : Nat) (input : List Byte) (fault : Nat)
  /-- KEY_GENERATE (R141): Command 0x1604 generates a symmetric key as an LMK block and optional export copy. -/
  | keyGenerate (core : Nat) (input : List Byte) (fault : Nat)
  /-- TR34_IMPORT (R154): Command 0x1605 imports a key from a one-pass TR-34 token. -/
  | tr34Import (core : Nat) (input : List Byte) (fault : Nat)
  /-- BULK_REENCRYPT (R102): Command 0x1701 re-enciphers bulk data from one mode and key to another. -/
  | bulkReencrypt (core : Nat) (input listIn listOut : List Byte) (moved fault : Nat)
  /-- RAW_BLOCK (R105): Command 0x1801 enciphers or deciphers independent blocks. -/
  | rawBlock (core : Nat) (input listIn listOut : List Byte) (fault : Nat)
  /-- RANDOM_GENERATE (R106): Command 0x1901 writes random bytes from the function's DRBG instance. -/
  | randomGenerate (core fault : Nat)
  /-- CUSTOM (R107): Command 0x2000–0x20FF runs the function's approved program in the named slot. -/
  | custom (core : Nat)
  /-- OFFICER_ENROL (R344): Command 0x3001 enrols an officer under dual control. -/
  | officerEnrol (core : Nat) (input : List Byte) (fault : Nat)
  /-- RECORD_VALID_WRITE (R378): Once a record's body write has completed, its VALID word is written. -/
  | recordValidWrite
  /-- OFFICER_REVOKE (R345): Command 0x3002 revokes an officer under dual control. -/
  | officerRevoke (core : Nat) (input : List Byte) (fault : Nat)
  /-- ATTEST (R353): Command 0x3005 returns a signed attestation report. -/
  | attest (core : Nat) (input : List Byte) (fault : Nat)
  /-- REJOIN_SEND (R370): Command 0x3020 wraps LMKs and ledger mirror for a recovering partner and sends the package. -/
  | rejoinSend (core : Nat) (input : List Byte) (fault : Nat)
  /-- LMK_KEM_BEGIN (R149): Command 0x3101 opens an ML-KEM LMK ceremony and returns a signed encapsulation key. -/
  | lmkKemBegin (core : Nat) (input : List Byte) (vf fault : Nat)
  /-- LMK_KEM_FINISH (R150): Command 0x3102 decapsulates, unwraps, checks and installs an LMK. -/
  | lmkKemFinish (core : Nat) (input : List Byte) (num : Nat) (ct wrapped kcv : List Byte) (fault : Nat)
  /-- LMK_COMP_BEGIN (R151): Command 0x3103 opens a component LMK ceremony. -/
  | lmkCompBegin (core : Nat) (input : List Byte) (vf fault : Nat)
  /-- LMK_COMP_ADD (R151): Command 0x3104 adds one officer's component to the accumulator. -/
  | lmkCompAdd (core : Nat) (input : List Byte) (num : Nat) (ct wrapped kcv : List Byte) (officer : Nat) (sig : List Byte) (fault : Nat)
  /-- LMK_COMP_FINISH (R151): Command 0x3105 checks the combined key and installs the LMK. -/
  | lmkCompFinish (core : Nat) (input : List Byte) (num : Nat) (kcv : List Byte) (fault : Nat)
  /-- LMK_RETIRE (R148): Command 0x3106 empties the PREVIOUS LMK slot. -/
  | lmkRetire (core : Nat) (input : List Byte) (vf fault : Nat)
  /-- LMK_UNBIND (R148): Command 0x3107 empties both LMK slots, invalidates the VF's keys and frees its ledger slots. -/
  | lmkUnbind (core : Nat) (input : List Byte) (vf fault : Nat)
  /-- CEREMONY_ABORT (R153): Command 0x3108 ends a ceremony and zeroizes its buffer. -/
  | ceremonyAbort (core : Nat) (input : List Byte) (num fault : Nat)
  /-- CEREMONY_TIMEOUT (R153): 3,600 s after its BEGIN a ceremony closes and its buffer is zeroized. -/
  | ceremonyTimeout (num : Nat)
  /-- KEY_MARK_SENSITIVE (R140): Command 0x3110 enters a K1 key in the sensitive-key list and rewraps it with a 0X block. -/
  | keyMarkSensitive (core : Nat) (input : List Byte) (vf : Nat) (block : List Byte) (fault : Nat)
  /-- KEY_PAIR_GENERATE (R148): Command 0x3111 generates an RSA or ECC key pair for a VF. -/
  | keyPairGenerate (core : Nat) (input : List Byte) (vf alg usage mode expo kvn p q e fault : Nat)
  /-- BUDGET_RELEASE (R146): Command 0x3112 frees named budget ledger slots. -/
  | budgetRelease (core : Nat) (input : List Byte) (slots : List Nat) (fault : Nat)
  /-- TAMPER_SET_CLASS (R327): Command 0x3201 sets a monitor's response and disagreement classes. -/
  | tamperSetClass (core : Nat) (input : List Byte) (fault : Nat)
  /-- TAMPER_ENC_BURN (R327): Command 0x3202 burns ENC_USE in OTP once, in PROVISIONED. -/
  | tamperEncBurn (core : Nat) (input : List Byte) (fault : Nat)
  /-- PROG_KEY_SET (R366): Command 0x3301 sets a VF's program-signing key and revokes its approvals. -/
  | progKeySet (core : Nat) (input : List Byte) (fault : Nat)
  /-- PROG_APPROVE (R367): Command 0x3302 approves a program image for a function and slot. -/
  | progApprove (core : Nat) (input : List Byte) (fault : Nat)
  /-- PROG_REVOKE (R368): Command 0x3303 removes program approvals. -/
  | progRevoke (core : Nat) (input : List Byte) (fn slot fault : Nat)
  /-- AUDIT_EXPORT (R388): Command 0x3401 closes the Shutter, reads and signs a range of log records. -/
  | auditExport (core : Nat) (input : List Byte) (limit fault : Nat)
  /-- SHUTTER_REOPEN (R386): The Shutter reopens at the end of the read or after 50 ms, staged records are written and PF vector 6 fires. -/
  | shutterReopen
  /-- AUDIT_CLEAR (R390): Command 0x3402 starts a new log with LOG_CLEAR after checking LAST_SEQ and HEAD. -/
  | auditClear (core : Nat) (input : List Byte) (fault : Nat)
  /-- EPOCH_SET (R375): Command 0x3501 sets device time under dual control. -/
  | epochSet (core : Nat) (input : List Byte) (fault : Nat)
  /-- PAIR_BIND (R423): Command 0x3601 binds the device to its partner. -/
  | pairBind (core : Nat) (input : List Byte) (fault : Nat)
  /-- PAIR_UNBIND (R423): Command 0x3602 removes the pair binding. -/
  | pairUnbind (core : Nat) (input : List Byte) (fault : Nat)
  /-- KEY_MISS_START (R127): A key miss takes a miss table entry, possibly after waiting for one, and requests the directory entry. -/
  | keyMissStart (id : Nat)
  /-- KEY_DIR_ARRIVAL (R125): A key directory entry arrives and is checked against the handle's GEN and KIND before the key block read. -/
  | keyDirArrival (id : Nat) (data : List Byte)
  /-- KEY_BLOCK_ARRIVAL (R129): The last key block byte arrives and the block is checked and unwrapped in twin mode. -/
  | keyBlockArrival (id : Nat) (data : List Byte)
  /-- KEY_INSTALL (R127): The unwrapped key is installed, evicting LRU entries, and every waiter is handed back or signalled. -/
  | keyInstall (id : Nat)
  /-- KEY_FETCH_TIMEOUT (R128): The key-fetch timeout expires and every waiter of the miss completes with 0x0402. -/
  | keyFetchTimeout (id : Nat)
  /-- KEY_FETCH_FAIL (R129): A key fetch read is refused or still fails after retries, ending the miss with 0x0209. -/
  | keyFetchFail (id : Nat)
  /-- VAULT_BLOB_ARRIVAL (R115): A vault blob read arrives and is checked before the LMK set is loaded or treated as empty. -/
  | vaultBlobArrival (fn slot : Nat) (data : List Byte)
  /-- KEY_DIR_WRITE (R119): A write to KST_DIR_BASE or KST_DIR_CTL invalidates every working-key entry of the function. -/
  | keyDirWrite (fn reg value : Nat)
  /-- KEY_SLOT_DROP (R132): A lane drops the expanded-key slots of an invalidated store index after it arrives. -/
  | keySlotDrop (lane index : Nat)
  /-- KST_CTL_WRITE (R120): A write to KST_CTL sets FETCH_TIMEOUT and sets FETCH_RSV or refuses it with SETUP_CONFLICT. -/
  | kstCtlWrite (value : Nat)
  /-- MISS_WINDOW_END (R119): A 1,000-tick miss window ends and the function's miss count restarts. -/
  | missWindowEnd (fn : Nat)
  /-- BUDGET_SLOT_EXPIRY (R146): One minute after its expiry a budget ledger slot is freed. -/
  | budgetSlotExpiry (slot : Nat)
  /-- ENCIPHER (R161): Block lane request OP 0 enciphers each block under the key. -/
  | encipher (lane core fault : Nat) (data : List Byte)
  /-- DECIPHER (R161): Block lane request OP 1 deciphers each block under the key. -/
  | decipher (lane core fault : Nat) (data : List Byte)
  /-- DES_E1 (R161): Block lane request OP 2 enciphers single DES with the left key half. -/
  | desE1 (lane core fault : Nat) (data : List Byte)
  /-- KEYSTREAM (R161): Block lane request OP 4 XORs counter-mode keystream into data. -/
  | keystream (lane core fault : Nat) (data : List Byte)
  /-- SUBKEY (R165): Block lane request OP 5 fills the port's subkey register with E(K, 0). -/
  | subkey (lane core fault : Nat)
  /-- GHASH (R161): Block lane request OP 6 absorbs data into the port's GHASH accumulator. -/
  | ghash (lane core fault : Nat) (data : List Byte)
  /-- TAG_COMPARE (R171): Block lane request OP 7 compares a GCM tag and releases or zeroizes quarantine. -/
  | tagCompare (lane core fault : Nat)
  /-- TAG (R161): Block lane request OP 8 computes a GCM tag to the block stack. -/
  | tag (lane core fault : Nat)
  /-- SHA_256 (R183): Hash lane request computes SHA-256 in a whole-message or phased context. -/
  | sha256 (lane core fault : Nat) (data : List Byte)
  /-- SHA_384 (R183): Hash lane request computes SHA-384. -/
  | sha384 (lane core fault : Nat) (data : List Byte)
  /-- SHA_512 (R183): Hash lane request computes SHA-512. -/
  | sha512 (lane core fault : Nat) (data : List Byte)
  /-- SHA3_256 (R183): Hash lane request computes SHA3-256. -/
  | sha3256 (lane core fault : Nat) (data : List Byte)
  /-- SHA3_384 (R183): Hash lane request computes SHA3-384. -/
  | sha3384 (lane core fault : Nat) (data : List Byte)
  /-- SHA3_512 (R183): Hash lane request computes SHA3-512. -/
  | sha3512 (lane core fault : Nat) (data : List Byte)
  /-- SHAKE128 (R183): Hash lane request computes SHAKE128 output. -/
  | shake128 (lane core fault : Nat) (data : List Byte)
  /-- SHAKE256 (R183): Hash lane request computes SHAKE256 output. -/
  | shake256 (lane core fault : Nat) (data : List Byte)
  /-- SLH_DSA_256F_SIGN (R184): Hash lane request signs with SLH-DSA-SHAKE-256f under a device key. -/
  | slhDsa256fSign (lane core fault : Nat) (data : List Byte)
  /-- SLH_DSA_256S_SIGN (R185): Hash lane request signs with SLH-DSA-SHAKE-256s on all hash lanes. -/
  | slhDsa256sSign (lane core fault : Nat) (data : List Byte)
  /-- SLH_DSA_256F_VERIFY (R184): Hash lane request verifies an SLH-DSA-SHAKE-256f signature. -/
  | slhDsa256fVerify (lane core fault : Nat) (data : List Byte)
  /-- SLH_DSA_256S_VERIFY (R184): Hash lane request verifies an SLH-DSA-SHAKE-256s signature. -/
  | slhDsa256sVerify (lane core fault : Nat) (data : List Byte)
  /-- RSA_PRIVATE (R189): Modular lane OP 0x01 performs an RSA private operation by CRT. -/
  | rsaPrivate (lane core fault : Nat) (data : List Byte)
  /-- RSA_PUBLIC (R188): Modular lane OP 0x02 performs an RSA public operation. -/
  | rsaPublic (lane core fault : Nat) (data : List Byte)
  /-- ECDSA_SIGN (R188): Modular lane OP 0x03 signs a digest by ECDSA. -/
  | ecdsaSign (lane core fault : Nat) (data : List Byte)
  /-- ECDSA_VERIFY (R188): Modular lane OP 0x04 verifies an ECDSA signature. -/
  | ecdsaVerify (lane core fault : Nat) (data : List Byte)
  /-- ECDH (R188): Modular lane OP 0x05 computes an ECDH shared secret into the key store. -/
  | ecdh (lane core fault : Nat) (data : List Byte)
  /-- RSA_KEY_PAIR (R188): Modular lane OP 0x06 generates an RSA key pair. -/
  | rsaKeyPair (lane core fault p q e : Nat)
  /-- EC_KEY_PAIR (R188): Modular lane OP 0x07 generates an EC key pair. -/
  | ecKeyPair (lane core fault : Nat)
  /-- ML_KEM_KEYGEN (R190): Lattice lane operation 1 generates an ML-KEM key pair. -/
  | mlKemKeygen (lane core fault : Nat)
  /-- ML_KEM_ENCAPS (R190): Lattice lane operation 2 encapsulates to an ML-KEM key. -/
  | mlKemEncaps (lane core fault : Nat) (data : List Byte)
  /-- ML_KEM_DECAPS (R190): Lattice lane operation 3 decapsulates an ML-KEM ciphertext. -/
  | mlKemDecaps (lane core fault : Nat) (data : List Byte)
  /-- LANE_OP_COMPLETE (R158): A lane operation ends and its status and result go back to the issuing core's port. -/
  | laneOpComplete (lane core : Nat)
  /-- LANE_SPARE_SWAP (R177): A spare lane takes a fenced lane's logical number with empty key slots. -/
  | laneSpareSwap (lane : Nat)
  /-- HASH_LANE_WAKE (R461): A sleeping hash lane wakes after a request reaches its queue. -/
  | hashLaneWake (lane : Nat)
  /-- NOP (R203): Instruction 0x00 does nothing. -/
  | opNop (core : Nat)
  /-- LIT8 (R192): Instruction 0x01 pushes a sign-extended 8-bit immediate, fusing with a following branch or access;
  `next` is the opcode byte after it. -/
  | opLit8 (core imm next : Nat)
  /-- LIT16 (R193): Instruction 0x02 pushes a 16-bit immediate, zero-extended unless fused with a branch; `next` is the
  opcode byte after it. -/
  | opLit16 (core imm next : Nat)
  /-- LIT32 (R192): Instruction 0x03 pushes a 32-bit immediate. -/
  | opLit32 (core imm : Nat)
  /-- DUP (R203): Instruction 0x08 duplicates the top of the data stack. -/
  | opDup (core : Nat)
  /-- DROP (R203): Instruction 0x09 drops the top of the data stack. -/
  | opDrop (core : Nat)
  /-- SWAP (R203): Instruction 0x0A swaps the top two entries. -/
  | opSwap (core : Nat)
  /-- OVER (R203): Instruction 0x0B copies the second entry to the top. -/
  | opOver (core : Nat)
  /-- ROT (R203): Instruction 0x0C rotates the top three entries. -/
  | opRot (core : Nat)
  /-- NIP (R203): Instruction 0x0D removes the second entry. -/
  | opNip (core : Nat)
  /-- TUCK (R203): Instruction 0x0E copies the top below the second entry. -/
  | opTuck (core : Nat)
  /-- PICK (R203): Instruction 0x0F copies entry n to the top. -/
  | opPick (core : Nat)
  /-- DEPTH (R203): Instruction 0x10 pushes the data stack depth. -/
  | opDepth (core : Nat)
  /-- TOR (R203): Instruction 0x11 moves the top to the return stack. -/
  | opTor (core : Nat)
  /-- FROMR (R203): Instruction 0x12 moves the return stack top to the data stack. -/
  | opFromr (core : Nat)
  /-- RFETCH (R203): Instruction 0x13 copies the return stack top to the data stack. -/
  | opRfetch (core : Nat)
  /-- RDROP (R203): Instruction 0x14 drops the return stack top. -/
  | opRdrop (core : Nat)
  /-- ADD (R203): Instruction 0x18 adds modulo 2^32. -/
  | opAdd (core : Nat)
  /-- SUB (R203): Instruction 0x19 subtracts modulo 2^32. -/
  | opSub (core : Nat)
  /-- ADDC (R203): Instruction 0x1A adds with carry in and out. -/
  | opAddc (core : Nat)
  /-- SUBB (R203): Instruction 0x1B subtracts with borrow in and out. -/
  | opSubb (core : Nat)
  /-- MUL (R203): Instruction 0x1C multiplies, keeping the low word. -/
  | opMul (core : Nat)
  /-- UMUL (R203): Instruction 0x1D gives the unsigned 64-bit product. -/
  | opUmul (core : Nat)
  /-- DIVU (R203): Instruction 0x1E divides unsigned, faulting on a zero divisor. -/
  | opDivu (core : Nat)
  /-- NEG (R203): Instruction 0x1F negates. -/
  | opNeg (core : Nat)
  /-- AND (R203): Instruction 0x20 ANDs the top two entries. -/
  | opAnd (core : Nat)
  /-- OR (R203): Instruction 0x21 ORs the top two entries. -/
  | opOr (core : Nat)
  /-- XOR (R203): Instruction 0x22 XORs the top two entries. -/
  | opXor (core : Nat)
  /-- NOT (R203): Instruction 0x23 inverts the top. -/
  | opNot (core : Nat)
  /-- SHL (R203): Instruction 0x24 shifts left. -/
  | opShl (core : Nat)
  /-- SHR (R203): Instruction 0x25 shifts right logically. -/
  | opShr (core : Nat)
  /-- SAR (R203): Instruction 0x26 shifts right arithmetically. -/
  | opSar (core : Nat)
  /-- ROL (R203): Instruction 0x27 rotates left. -/
  | opRol (core : Nat)
  /-- INC (R203): Instruction 0x28 adds 1. -/
  | opInc (core : Nat)
  /-- DEC (R203): Instruction 0x29 subtracts 1. -/
  | opDec (core : Nat)
  /-- EQ (R203): Instruction 0x2A compares for equality. -/
  | opEq (core : Nat)
  /-- LTU (R203): Instruction 0x2B compares unsigned less-than. -/
  | opLtu (core : Nat)
  /-- LTS (R203): Instruction 0x2C compares signed less-than. -/
  | opLts (core : Nat)
  /-- ZEQ (R203): Instruction 0x2D tests for zero. -/
  | opZeq (core : Nat)
  /-- SEL (R203): Instruction 0x2E selects one of two values in constant time. -/
  | opSel (core : Nat)
  /-- BSWAP (R203): Instruction 0x30 reverses byte order. -/
  | opBswap (core : Nat)
  /-- EXTB (R203): Instruction 0x31 extracts a byte. -/
  | opExtb (core : Nat)
  /-- INSB (R203): Instruction 0x32 inserts a byte. -/
  | opInsb (core : Nat)
  /-- CLZ (R203): Instruction 0x33 counts leading zeros. -/
  | opClz (core : Nat)
  /-- POPC (R203): Instruction 0x34 counts one bits. -/
  | opPopc (core : Nat)
  /-- BRA (R207): Instruction 0x40 branches PC-relative. -/
  | opBra (core : Nat)
  /-- BZ (R207): Instruction 0x41 branches if the flag is zero. -/
  | opBz (core : Nat)
  /-- BNZ (R207): Instruction 0x42 branches if the flag is nonzero. -/
  | opBnz (core : Nat)
  /-- CALL (R207): Instruction 0x43 calls PC-relative, pushing the return address. -/
  | opCall (core : Nat)
  /-- JMP (R207): Instruction 0x44 jumps to an absolute core address. -/
  | opJmp (core : Nat)
  /-- RET (R203): Instruction 0x45 returns to the address on the return stack. -/
  | opRet (core : Nat)
  /-- NEXT (R207): Instruction 0x46 decrements the loop count and branches while nonzero. -/
  | opNext (core : Nat)
  /-- LD (R205): Instruction 0x50 loads a word through a banked address with a two-slot delay. -/
  | opLd (core : Nat)
  /-- LOAD_LANDING (R205): A pending load value is written into its stack position at the end of the second slot, after any wait for data. -/
  | loadLanding (core : Nat) (data : List Byte) (hostCycles : Nat)
  /-- ST (R198): Instruction 0x51 stores a word through a banked address. -/
  | opSt (core : Nat)
  /-- LDB (R205): Instruction 0x52 loads a byte through a banked address. -/
  | opLdb (core : Nat)
  /-- STB (R198): Instruction 0x53 stores a byte through a banked address. -/
  | opStb (core : Nat)
  /-- LDL (R205): Instruction 0x54 loads a word from a full core address. -/
  | opLdl (core : Nat)
  /-- STL (R198): Instruction 0x55 stores a word to a full core address. -/
  | opStl (core : Nat)
  /-- LDLB (R205): Instruction 0x56 loads a byte from a full core address. -/
  | opLdlb (core : Nat)
  /-- STLB (R198): Instruction 0x57 stores a byte to a full core address. -/
  | opStlb (core : Nat)
  /-- LDS (R208): Instruction 0x58 loads a word through stream pointer S0 or S1 and advances IDX. -/
  | opLds (core : Nat)
  /-- STS (R208): Instruction 0x59 stores a word through a stream pointer. -/
  | opSts (core : Nat)
  /-- LDSB (R208): Instruction 0x5A loads a byte through a stream pointer. -/
  | opLdsb (core : Nat)
  /-- STSB (R208): Instruction 0x5B stores a byte through a stream pointer. -/
  | opStsb (core : Nat)
  /-- BNKR (R198): Instruction 0x5C pushes BNK. -/
  | opBnkr (core : Nat)
  /-- BNKW (R198): Instruction 0x5D sets BNK for later slots. -/
  | opBnkw (core : Nat)
  /-- SRR (R203): Instruction 0x5E reads a special register. -/
  | opSrr (core : Nat)
  /-- SRW (R203): Instruction 0x5F writes a special register. -/
  | opSrw (core : Nat)
  /-- BLD (R210): Instruction 0x60 loads 16 bytes onto the block stack. -/
  | opBld (core : Nat) (data : List Byte) (hostCycles : Nat)
  /-- BST (R210): Instruction 0x61 stores the block stack top as 16 bytes. -/
  | opBst (core : Nat)
  /-- BDUP (R203): Instruction 0x62 duplicates the block stack top. -/
  | opBdup (core : Nat)
  /-- BDROP (R203): Instruction 0x63 drops the block stack top. -/
  | opBdrop (core : Nat)
  /-- BXCH (R203): Instruction 0x64 exchanges the top two block entries. -/
  | opBxch (core : Nat)
  /-- BXOR (R203): Instruction 0x65 XORs the top two block entries. -/
  | opBxor (core : Nat)
  /-- BZERO (R203): Instruction 0x66 pushes a zero block. -/
  | opBzero (core : Nat)
  /-- BPUSH (R210): Instruction 0x67 packs four words into a block entry. -/
  | opBpush (core : Nat)
  /-- BPOP (R210): Instruction 0x68 unpacks a block entry into four words. -/
  | opBpop (core : Nat)
  /-- BINC (R203): Instruction 0x69 increments the low 32 bits of the block top. -/
  | opBinc (core : Nat)
  /-- BEQ (R203): Instruction 0x6A compares two block entries in constant time. -/
  | opBeq (core : Nat)
  /-- BMASK (R203): Instruction 0x6B keeps the leftmost n bytes of the block top. -/
  | opBmask (core : Nat)
  /-- ASK (R212): Instruction 0x70 waits for a token and returns with the pane swapped and the command set up. -/
  | opAsk (core : Nat) (sgIn sgOut : List Byte)
  /-- ISSUE (R214): Instruction 0x71 sends one request to a lane or the mover port. -/
  | opIssue (core : Nat)
  /-- AWAIT (R217): Instruction 0x72 waits for the oldest request on a port and pushes its status and result. -/
  | opAwait (core : Nat)
  /-- AWAIT_TIMEOUT (R218): An AWAIT timeout expires first and the request is abandoned with TIMEOUT. -/
  | awaitTimeout (core : Nat)
  /-- RELEASE (R221): Instruction 0x73 waits for the command's stores and requests, clears lane state and hands the result to the Gate. -/
  | opRelease (core : Nat)
  /-- KRES (R219): Instruction 0x74 resolves a key handle, reserves uses and pins it, or parks on a miss. -/
  | opKres (core : Nat) (host : List Byte)
  /-- RAND (R220): Instruction 0x75 writes random bytes from the function's DRBG or waits in the Lift. -/
  | opRand (core : Nat)
  /-- TIME (R203): Instruction 0x76 pushes device time. -/
  | opTime (core : Nat)
  /-- TICK (R203): Instruction 0x77 pushes the tick counter's low 32 bits. -/
  | opTick (core : Nat)
  /-- FENCE (R199): Instruction 0x78 waits for the core's stores and mover requests to be acknowledged. -/
  | opFence (core : Nat)
  /-- PRUN (R233): Instruction 0x79 enters program mode at the image entry with its budget. -/
  | opPrun (core : Nat)
  /-- ICACHE_FILL (R201): An instruction cache miss is filled from cluster scratch. -/
  | icacheFill (core : Nat)
  /-- PROG_IMAGE_FETCH (R231): A program image fetch completes and the image is checked and installed or the command fails. -/
  | progImageFetch (cluster fn slot : Nat) (entry image : List Byte) (fail : Bool)
  /-- PROG_BASE_WRITE (R231): A write to HIF_PROG_BASE drops every installed image of the function. -/
  | progBaseWrite (fn value : Nat)
  /-- DISPATCH_DECISION (R238): Slalom picks a token for a core in ASK, by critical, urgent, class, weight and affinity order. -/
  | dispatchDecision (core : Nat)
  /-- AGE_SCAN (R242): Every 16 ticks Slalom ages waiting tokens, promoting them or moving them to the urgent list. -/
  | ageScan
  /-- GATE_INPUT (R247): A RELEASE hand-over reaches the Gate and the token is released in flow order or held. -/
  | gateInput (core : Nat)
  /-- LIFT_RELEASE (R252): Entries fall due in the Lift and are released in due-tick order. -/
  | liftRelease
  /-- DEADLINE_COMMIT (R259): A DEADLINE expiry commits 80 ns after its edge and the token is completed or marked EXPIRED. -/
  | deadlineCommit
  /-- CRITICAL_WAKE_SCAN (R262): At each tick Slalom counts untaken critical tokens and wakes sleeping clusters. -/
  | criticalWakeScan
  /-- CLUSTER_SLEEP (R263): An idle cluster enters sleep once its conditions hold for SLEEP_IDLE ticks. -/
  | clusterSleep (cluster : Nat)
  /-- CLUSTER_WAKE_DONE (R460): A waking cluster's cores reach ASK and AWAKE is set. -/
  | clusterWakeDone (cluster : Nat)
  /-- TOKEN_SEL_WRITE (R236): A write to SLM_TOKEN_SEL copies a token record into SLM_TOKEN_DATA. -/
  | tokenSelWrite (value : Nat)
  /-- LIFT_QUOTA_WRITE (R255): A write to SLM_LIFT_QUOTA sets the quotas or sets CONFLICT. -/
  | liftQuotaWrite (value : Nat)
  /-- MOV_TAIL_WRITE (R271): A write to MOV_CH_TAIL_n starts a channel on its queued descriptors. -/
  | movTailWrite (chan value : Nat)
  /-- MOVER_READ_ARRIVAL (R275): Source beat data arrives into the holding register and destination beats are written. -/
  | moverReadArrival (chan : Nat) (data : List Byte)
  /-- MOVER_BUS_ERROR (R276): A failed access is placed in the Lift for retry or the channel halts with BUS_ERROR. -/
  | moverBusError (chan : Nat)
  /-- MOVER_BURST_DONE (R275): A burst completes, the next starts, and at a descriptor's end STAT is written. -/
  | moverBurstDone (chan : Nat)
  /-- MOV_ABORT (R278): MOV_CH_CTL ABORT stops a channel after its current burst and skips its queue. -/
  | movAbort (chan : Nat)
  /-- MOV_RESUME (R279): MOV_CH_CTL RESUME makes a halted channel take its next descriptor. -/
  | movResume (chan : Nat)
  /-- MOV_BULK_MAP_WRITE (R269): A write to MOV_BULK_MAP dedicates channels or is refused with SETUP_CONFLICT. -/
  | movBulkMapWrite (value : Nat)
  /-- CREDIT_RESERVE (R280): A PORT burst resolves its route and reserves credit for the whole burst, after any wait. -/
  | creditReserve (chan : Nat)
  /-- PANE_HR_COMMIT (R286): A write to PANE_HR_ATTR_n commits a host region or refuses an overlap. -/
  | paneHrCommit (region value : Nat)
  /-- PANE_LOAD_DONE (R290): A pane finishes loading into the shadow with its overlap check, READY or REFUSED. -/
  | paneLoadDone (m : Nat)
  /-- PANE_VIO_NEXT (R293): A read of PANE_VIO_NEXT moves the oldest violation report into the data registers. -/
  | paneVioNext
  /-- RCT_CUTOFF (R299): A run of equal samples reaches the repetition count cutoff: a health failure. -/
  | rctCutoff (src : Nat)
  /-- APT_WINDOW_END (R299): An adaptive proportion window ends, passing or failing, and held seeds are released or discarded. -/
  | aptWindowEnd (src : Nat) (window : List Byte)
  /-- EST_BLOCK_END (R300): A 2^20-sample estimator block ends, latching its values and judging MINENT. -/
  | estBlockEnd (src ones agree1 agree2 agree3 agree4 n00 n01 n10 n11 : Nat)
  /-- SEED_ARRIVAL (R298): A seed crosses the sill link into the seed queue or is discarded on a CRC failure. -/
  | seedArrival (src : Nat) (crcOk : Bool)
  /-- DRBG_GENERATE (R307): A generate request runs on the shared AES engine once it is free. -/
  | drbgGenerate
  /-- SOURCE_RETEST_START (R301): 1 s after its failure a COOLING source begins its retest. -/
  | sourceRetestStart (src : Nat)
  /-- ENT_SWITCH (R302): ENT_CTL SWITCH moves selection to the other WARM source. -/
  | entSwitch
  /-- ENT_RETEST_A (R301): ENT_CTL RETEST_A starts a retest of a FAILED source A. -/
  | entRetestA
  /-- ENT_RETEST_B (R301): ENT_CTL RETEST_B starts a retest of a FAILED source B. -/
  | entRetestB
  /-- TAMPER_SAMPLE (R321): A sampled monitor samples both detectors and fires its response on a new alarm. -/
  | tamperSample (mon det1 det2 value : Nat) (sensed : List Nat)
  /-- TAMPER_COMPARATOR_EDGE (R319): A continuous monitor's comparator changes state, firing its response on a new alarm. -/
  | tamperComparatorEdge (mon det1 det2 value : Nat) (glitch : Bool)
  /-- DISAGREEMENT_WINDOW_CLOSE (R320): A detector disagreement held for its window becomes a disagreement alarm. -/
  | disagreementWindowClose (mon value : Nat)
  /-- LOCK_ORDER (R329): A LOCK order over the sill link puts the service die in LOCKED under R24. -/
  | lockOrder
  /-- ERASE_ORDER (R330): An ERASE order zeroizes the key store, lanes, DRBGs and movers and enters RECOVERY. -/
  | eraseOrder
  /-- LOCKED_CLOSING_COMPLETIONS (R24): A device leaving ACTIVE without a partner completes accepted descriptors with 0x0801 once its running operations end. -/
  | lockedClosingCompletions
  /-- PWRFAIL_HOLD_EXPIRY (R322): PWRFAIL_N asserted 50 ms with supplies in window writes a RECORD entry and re-arms the low threshold. -/
  | pwrfailHoldExpiry
  /-- UNLOCK_NEW_CHALLENGE (R340): TMP_UNLOCK_CMD NEW_CHALLENGE draws a fresh unlock challenge. -/
  | unlockNewChallenge
  /-- UNLOCK_GO (R340): TMP_UNLOCK_CMD GO starts the unlock and reads the request record. -/
  | unlockGo
  /-- UNLOCK_COMPLETE (R340): The unlock record's checks and signatures finish, clearing LOCK or setting a failure RESULT. -/
  | unlockComplete (data : List Byte) (fail : Bool)
  /-- CRES_LOW (R524): CRES below 2.4 V for 10 ms with main power sends a health report of KIND 12. -/
  | cresLow (below : Bool)
  /-- CHAL_ISSUE (R350): LCY_CHAL_CTL ISSUE draws a challenge into a slot and sets it LIVE. -/
  | chalIssue (slot : Nat)
  /-- CHALLENGE_EXPIRY (R350): A challenge slot becomes EXPIRED 300 s after its issue tick. -/
  | challengeExpiry (slot : Nat)
  /-- PROVISION (R360): Request OP 0x0011 moves BLANK to PROVISIONED and burns the payload. -/
  | provision (data : List Byte) (fail : Bool)
  /-- DEPLOY (R356): Request OP 0x0012 moves PROVISIONED to DEPLOYED with the initial officers. -/
  | deploy (data : List Byte) (fail : Bool)
  /-- RETURN (R356): Request OP 0x0013 moves DEPLOYED to RETURNED. -/
  | lifecycleReturn (data : List Byte) (fail : Bool)
  /-- REDEPLOY (R356): Request OP 0x0014 moves RETURNED to DEPLOYED. -/
  | redeploy (data : List Byte) (fail : Bool)
  /-- RETIRE (R356): Request OP 0x0015 moves the device to RETIRED. -/
  | retire (data : List Byte) (fail : Bool)
  /-- DEBUG_OPEN (R364): Request OP 0x0030 opens internal debug or boundary scan under a grant. -/
  | debugOpen (data : List Byte) (fail : Bool)
  /-- DEBUG_CLOSE (R365): Request OP 0x0031 closes an open debug grant. -/
  | debugClose (data : List Byte) (fail : Bool)
  /-- DEBUG_LIFE_EXPIRY (R365): An open debug grant closes at the end of its LIFE. -/
  | debugLifeExpiry
  /-- REJOIN_BEGIN (R369): Request OP 0x0020 generates an ML-KEM key pair and writes a signed rejoin offer. -/
  | rejoinBegin (data : List Byte) (fail : Bool)
  /-- REJOIN_FINISH (R371): Request OP 0x0021 installs the rejoin package, draws a new KEEP_HALF and leaves RECOVERY. -/
  | rejoinFinish (data : List Byte) (fail : Bool)
  /-- INJECT (R483): Request OP 0x0040 arms an injection point for a number of events. -/
  | inject (data : List Byte) (fail : Bool)
  /-- TOKEN_HOLD_EXPIRY (R358): The 1 s HOLD after TOKEN_INVALID ends and GO is accepted again. -/
  | tokenHoldExpiry
  /-- REJOIN_PACKAGE_EXPIRY (R370): A held rejoin package is discarded 3,600 s after receipt. -/
  | rejoinPackageExpiry
  /-- MINUTE_EDGE (R395): At each minute edge the latch holder latches the meters of its load's functions. -/
  | minuteEdge
  /-- RECEIPT_SIGNED (R396): A receipt's signature completes and the receipt is mirrored to the partner or written. -/
  | receiptSigned
  /-- RCPT_HEAD_WRITE (R397): A write to MTR_RCPT_HEAD frees receipt ring slots. -/
  | rcptHeadWrite (head : Nat)
  /-- METER_ADD (R392): A meter addition arrives over the sill link and is applied in keep RAM. -/
  | meterAdd
  /-- DATA_FRAME (R404): A DATA frame is taken at ingress, checked, then forwarded or delivered to its VC user. -/
  | dataFrame (port : Nat) (frame : List Byte)
  /-- READ_ID (R412): Probe OP 1 returns the device identity, address and port states. -/
  | readId (port : Nat) (frame : List Byte)
  /-- ASSIGN (R412): Probe OP 2 assigns a fabric address to the named device. -/
  | assign (port : Nat) (frame : List Byte)
  /-- PROBE_RELEASE (R412): Probe OP 3 releases the named device's address. -/
  | probeRelease (port : Nat) (frame : List Byte)
  /-- ROUTE_WRITE (R412): Probe OP 4 writes route table entries. -/
  | routeWrite (port : Nat) (frame : List Byte)
  /-- ROUTE_READ (R412): Probe OP 5 returns route table entries. -/
  | routeRead (port : Nat) (frame : List Byte)
  /-- PORT_READ (R412): Probe OP 6 returns the ports' error and drop counts. -/
  | portRead (port : Nat) (frame : List Byte)
  /-- PROBE_REPLY (R412): A PROBE_REPLY frame is forwarded back or delivered to the management receive queue. -/
  | probeReply (port : Nat) (frame : List Byte)
  /-- AUDIT_FRAME (R409): An AUDIT frame arrives and the receiver checks the credit sums. -/
  | auditFrame (port : Nat) (frame : List Byte)
  /-- AUDIT_PERIOD_TIMER (R409): Every AUDIT_PERIOD ticks each UP port sends an AUDIT frame per VC. -/
  | auditPeriodTimer
  /-- SYNC_REQ (R419): A SYNC_REQ arrives and the neighbour answers with SYNC_RSP. -/
  | syncReq (port : Nat) (frame : List Byte)
  /-- SYNC_RSP (R420): A SYNC_RSP arrives and the follower computes delay and offset and slews. -/
  | syncRsp (port : Nat) (frame : List Byte)
  /-- SYNC_PERIOD_TIMER (R419): Every SYNC_PERIOD ticks a follower sends SYNC_REQ upstream. -/
  | syncPeriodTimer
  /-- NEIGHBOR (R417): A NEIGHBOR frame records the neighbour's address and queues ATTACH. -/
  | neighbor (port : Nat) (frame : List Byte)
  /-- LINK_ACK (R401): An ACK control block frees acknowledged frames from the replay buffer. -/
  | linkAck (port : Nat) (block : List Byte)
  /-- LINK_NAK (R401): A NAK control block resends a frame from the replay buffer. -/
  | linkNak (port : Nat) (block : List Byte)
  /-- LINK_CREDIT (R407): A CREDIT control block returns credits to the sender. -/
  | linkCredit (port : Nat) (block : List Byte)
  /-- LINK_IDLE (R402): An IDLE control block shows the link alive. -/
  | linkIdle (port : Nat) (block : List Byte)
  /-- LINK_ACK_TIMEOUT (R401): 10 µs without acknowledgement or 8 NAKs of a frame put the port into RETRAIN. -/
  | linkAckTimeout (port : Nat)
  /-- RETRAIN_DONE (R402): A retrain ends, both ends exchange sequence numbers and resend, or the port goes DOWN. -/
  | retrainDone (port : Nat) (ok : Bool) (peerSeq : Nat) (occ : List Nat)
  /-- PORT_TRAIN_DONE (R400): Port training ends at 112 or 56 Gbit/s, or fails; on UP credits reset and NEIGHBOR is sent. -/
  | portTrainDone (port : Nat) (ok : Bool) (peerSeq : Nat) (occ : List Nat)
  /-- TRAIN_RETRY_TIMER (R400): A port failed at both rates tries training again every 100 ms. -/
  | trainRetryTimer (port : Nat)
  /-- PORT_LEAVE_UP (R418): A port leaves UP, queues DOWN and its queued frames are rerouted. -/
  | portLeaveUp (port : Nat)
  /-- REPLAY_DISCARD_TIMER (R402): A port out of UP for 1 ms discards its replay buffer and counts LOST. -/
  | replayDiscardTimer (port : Nat)
  /-- PORT_SILENCE (R418): A port silent for 1 s queues DETACH; with all ports silent the device releases its address. -/
  | portSilence (port : Nat)
  /-- ADDR_SET (R410): PHL_ADDR SET assigns the device's own address. -/
  | addrSet (value : Nat)
  /-- ADDR_RELEASE (R410): PHL_ADDR RELEASE clears the device's address. -/
  | addrRelease (value : Nat)
  /-- PORT_RETRAIN (R401): PHL_PORT_CTL RETRAIN forces a retrain of an UP port. -/
  | portRetrain (port value : Nat)
  /-- PORT_ENABLE_WRITE (R400): A write of PHL_PORT_CTL ENABLE lets a port train or takes it DOWN. -/
  | portEnableWrite (port value : Nat)
  /-- MTX_SEND (R413): PHL_MTX_CMD SEND sends the staged management frame. -/
  | mtxSend
  /-- MRX_NEXT (R413): A read of PHL_MRX_NEXT moves the oldest received management frame into the read registers. -/
  | mrxNext
  /-- EVT_NEXT (R418): A read of PHL_EVT_NEXT moves the oldest fabric event into the data registers. -/
  | evtNext
  /-- ENTDAA (R421): I3C CCC ENTDAA assigns the dynamic address. -/
  | entdaa (addr : Nat)
  /-- RSTDAA (R421): I3C CCC RSTDAA drops the dynamic address. -/
  | rstdaa
  /-- SETNEWDA (R421): I3C CCC SETNEWDA changes the dynamic address. -/
  | setnewda (addr : Nat)
  /-- GETPID (R421): I3C CCC GETPID returns the provisioned ID. -/
  | getpid
  /-- GETBCR (R421): I3C CCC GETBCR returns the BCR. -/
  | getbcr
  /-- GETDCR (R421): I3C CCC GETDCR returns the DCR. -/
  | getdcr
  /-- GETSTATUS (R421): I3C CCC GETSTATUS returns target status. -/
  | getstatus
  /-- ENEC (R421): I3C CCC ENEC enables events such as IBIs. -/
  | enec (events : Nat)
  /-- DISEC (R421): I3C CCC DISEC disables events. -/
  | disec (events : Nat)
  /-- GETMWL (R421): I3C CCC GETMWL returns the maximum write length. -/
  | getmwl
  /-- SETMWL (R421): I3C CCC SETMWL sets the maximum write length. -/
  | setmwl (len : Nat)
  /-- GETMRL (R421): I3C CCC GETMRL returns the maximum read length. -/
  | getmrl
  /-- SETMRL (R421): I3C CCC SETMRL sets the maximum read length. -/
  | setmrl (len : Nat)
  /-- SET_ENDPOINT_ID (R422): MCTP control message Set Endpoint ID assigns the endpoint ID. -/
  | setEndpointId (inst eid : Nat)
  /-- GET_ENDPOINT_ID (R422): MCTP control message Get Endpoint ID returns the endpoint ID. -/
  | getEndpointId (inst : Nat)
  /-- GET_MCTP_VERSION_SUPPORT (R422): MCTP control message returns supported versions. -/
  | getMctpVersionSupport (inst : Nat)
  /-- GET_MESSAGE_TYPE_SUPPORT (R422): MCTP control message returns supported message types. -/
  | getMessageTypeSupport (inst : Nat)
  /-- GET_ENDPOINT_UUID (R422): MCTP control message returns the UUID formed from the identity. -/
  | getEndpointUuid (inst : Nat)
  /-- I3C_PRIVATE_READ (R422): A private read by the bus owner takes the oldest queued MCTP message. -/
  | i3cPrivateRead
  /-- HEALTH_REPORT_PERIODIC (R450): Every 1 s the device sends a periodic health report. -/
  | healthReportPeriodic
  /-- KNOCK_TIMER (R428): Every 20 µs a bound device sends a KNOCK on both paths. -/
  | knockTimer
  /-- RENEW_TIMER (R433): Every 50 µs a holder sends RENEW for each latch it holds. -/
  | renewTimer
  /-- KNOCK (R429): A KNOCK message arrives, is validated and updates the partner's state view. -/
  | knock (path port : Nat) (data : List Byte)
  /-- RENEW (R433): A RENEW arrives and a current standby extends its lease view and answers GRANT. -/
  | renew (path port : Nat) (data : List Byte)
  /-- GRANT (R433): A GRANT arrives and the holder extends its lease end. -/
  | grant (path port : Nat) (data : List Byte)
  /-- KNOCK_RELEASE (R446): A RELEASE knock arrives and the partner takes the handed-over latch once the stream is applied. -/
  | knockRelease (path port : Nat) (data : List Byte)
  /-- TAKEN (R446): A TAKEN knock arrives and ends a handover with DONE. -/
  | taken (path port : Nat) (data : List Byte)
  /-- PATH_SILENCE (R430): 60 µs without a valid message on a path is a path fault, and on both paths a unit fault. -/
  | pathSilence (path : Nat)
  /-- TX_CHECK_TIMEOUT (R431): A transmitter silent for 60 µs fails its check; failing both ends eligibility and fences latches. -/
  | txCheckTimeout (path : Nat)
  /-- LEASE_EXPIRY_FENCE (R434): A holder that could not extend its lease fences the latch at E. -/
  | leaseExpiryFence (latch : Nat)
  /-- LATCH_TAKE (R443): A standby takes a latch at V + 25 µs and begins the takeover steps. -/
  | latchTake (latch : Nat)
  /-- TAKEOVER_SLOT_ARRIVAL (R443): A read completion slot arrives during takeover and is repaired if it lacks its completion. -/
  | takeoverSlotArrival (mseq : Nat) (data : List Byte)
  /-- REPLAY_DESCRIPTOR_ARRIVAL (R444): A journaled descriptor arrives for replay and becomes a token or completes with 0x0802 or 0x0803. -/
  | replayDescriptorArrival (mseq : Nat) (data : List Byte) (rec : Nat)
  /-- ALONE_WAIT_EXPIRY (R436): After ALONE_WAIT with no knock from the partner a device takes an unheld latch. -/
  | aloneWaitExpiry (latch : Nat)
  /-- PAIR_KEY_EXCHANGE (R427): The pair transport key is established by ML-KEM on the management VC. -/
  | pairKeyExchange (data : List Byte)
  /-- MIRROR_JOURNAL (R438): A JOURNAL record arrives and is applied to the partner's journal. -/
  | mirrorJournal
  /-- MIRROR_METER (R440): A METER record arrives, retires its journal entry and advances flow release. -/
  | mirrorMeter
  /-- MIRROR_STATE (R442): A STATE record arrives and its effect and security record are applied. -/
  | mirrorState
  /-- MIRROR_RING (R438): A RING record arrives with a ring pair's configuration. -/
  | mirrorRing
  /-- MIRROR_FN_RESET (R64): An FN_RESET record arrives and the partner clears or finishes the function's reset. -/
  | mirrorFnReset
  /-- MIRROR_RECEIPT (R397): A RECEIPT record arrives and is held for the partner's receipt write. -/
  | mirrorReceipt
  /-- MIRROR_HEAD (R438): A HEAD record arrives with the partner's audit chain head. -/
  | mirrorHead
  /-- MIRROR_ACK (R441): An ACK record arrives and releases tokens and receipts it covers. -/
  | mirrorAck
  /-- MIRROR_HANDOVER (R446): A HANDOVER record arrives naming the last MSEQ of the handed-over load. -/
  | mirrorHandover
  /-- MIRROR_RESYNC (R448): A RESYNC record arrives with a segment of the snapshot. -/
  | mirrorResync
  /-- MIRROR_REJOIN (R370): A REJOIN record arrives at a recovering device and is held as the package. -/
  | mirrorRejoin (src : Nat) (data : List Byte)
  /-- MIRROR_RESEND_TIMER (R439): MIRROR_TMO without progress resends unacknowledged records. -/
  | mirrorResendTimer
  /-- HANDOVER_GO (R446): PAR_HANDOVER GO starts a planned handover of the named latches. -/
  | handoverGo (value : Nat)
  /-- HANDOVER_DRAIN_EXPIRY (R446): At DRAIN the holder fences the latch and sends HANDOVER and RELEASE. -/
  | handoverDrainExpiry
  /-- HANDOVER_TIMEOUT (R446): No TAKEN within 1 ms of RELEASE ends the handover with TIMEOUT. -/
  | handoverTimeout
  /-- SELF_TEST_RUN (R449): A standby device runs a known-answer test on a unit. -/
  | selfTestRun (kind unit : Nat) (fail : Bool)
  /-- MAIN_POWER_PRESENT (R451): 1 ms after PWRFAIL_N deasserts with supplies in window, main power is present and START begins. -/
  | mainPowerPresent
  /-- MAIN_POWER_LOST (R453): A main supply leaves its window, the service die stops and the guard die enters GUARD. -/
  | mainPowerLost (backup secretKept ledgerKept : Bool)
  /-- PWRFAIL_ASSERT (R454): PWRFAIL_N asserts and staging and held records move to the keep RAM buffer. -/
  | pwrfailAssert
  /-- PWRFAIL_DEASSERT (R516): PWRFAIL_N deasserts, starting the 1 ms wait for main power. -/
  | pwrfailDeassert
  /-- START_STEP_DONE (R467): A start step ends, writes its ledger outcome and lets dependent steps begin. -/
  | startStepDone (step unit : Nat) (ok : Bool)
  /-- HELD_REPORT_TIMER (R468): A held start sends a KIND 11 health report every 1 s. -/
  | heldReportTimer
  /-- KEEP_SCRUB (R481): Every 10 ms the guard die scrubs keep RAM, correcting words. -/
  | keepScrub (corrected : Nat) (bad meters : List Nat)
  /-- KEEP_WORD_RESTORE (R481): An uncorrectable keep RAM word is restored from the partner's ledger mirror. -/
  | keepWordRestore (word : Nat)
  /-- FLASH_GO (R470): PWR_FLASH_CMD GO reads a firmware image from host memory for writing to a slot. -/
  | flashGo (slot : Nat)
  /-- FLASH_WRITE_COMPLETE (R470): The image check and slot write finish and RESULT is set. -/
  | flashWriteComplete (data : List Byte) (fail flashErr : Bool)
  /-- LEDGER_RETEST (R471): PWR_LEDGER_CTL RETEST marks every unit for retest at the next start. -/
  | ledgerRetest
  /-- GPIO_CTL_WRITE (R525): A write to PWR_GPIO_CTL selects GPIO3's function or is refused with CONFLICT. -/
  | gpioCtlWrite (value : Nat)
  /-- PPS_PULSE (R527): At each whole second of device time PPS_OUT pulses high for 10 µs. -/
  | ppsPulse
  /-- CORRECTED_COUNT_SECOND (R477): Each second an INTEGRITY record carries each detector's corrected count. -/
  | correctedCountSecond
  /-- SILL_LANE_REMAP_DONE (R480): A failing sill link lane is replaced by a spare lane. -/
  | sillLaneRemapDone (dir lane : Nat)
  /-- CORE_SPARE_SWAP (R482): A spare core takes a fenced core's logical number. -/
  | coreSpareSwap (cluster : Nat)
  /-- DBG_ERR_NEXT (R477): A read of DBG_ERR_NEXT moves the oldest error report into the data registers. -/
  | dbgErrNext
  /-- CNT_FREEZE (R494): CNT_CTL FREEZE stops or restarts every counter. -/
  | cntFreeze (value : Nat)
  /-- CNT_CLEAR (R494): CNT_CTL CLEAR sets every counter and OVF to 0. -/
  | cntClear (value : Nat)
  /-- SAMPLE_COUNT_EXPIRY (R496): A core's sample count reaches 0, the completing slot is sampled and the count reloads. -/
  | sampleCountExpiry (core opcode pre latency cause : Nat)
  /-- SAMPLE_BLOCK_DUMP (R498): A buffer at 2,048 entries is written to the next free sample ring slot. -/
  | sampleBlockDump (cluster : Nat)
  /-- SPLIT_LOW_READ (R503): A 32-bit read of a 64-bit register's low word latches its high word; and a read of `width` bytes of any register. -/
  | splitLowRead (fn off width : Nat)
  /-- SPLIT_LOW_WRITE (R503): A 32-bit write of a 64-bit register's low word is held until the high word is written. -/
  | splitLowWrite (fn off value : Nat)
  /-- REGISTER_WRITE (R503): A write to a register with no behaviour of its own stores the value within its access type. -/
  | registerWrite (fn off width value : Nat)
  /-- PROGRAM_BUDGET_EXHAUSTED (R233): A program's BUDGET counts down to 0 and the core faults with kind 10. -/
  | programBudgetExhausted (core : Nat)
  /-- ILLEGAL_OPCODE (R203): A slot holding an undefined opcode value faults with kind 1. -/
  | illegalOpcode (core opcode : Nat)
  /-- INSTRUCTION_FETCH_REFUSED (R196): An instruction fetch from a non-executable address faults with kind 8. -/
  | instructionFetchRefused (core : Nat)
  /-- STORE_ACKNOWLEDGE (R199): A posted store reaches cluster or shared scratch, frees its store buffer entry and counts toward FENCE and RELEASE. -/
  | storeAcknowledge (core : Nat)
  /-- PROGRAM_FETCH_TIMEOUT (R231): A program image fetch misses its key-fetch timeout and the command completes with 0x0402. -/
  | programFetchTimeout (cluster fn slot : Nat)
  /-- GUARD_DIE_POWER_UP (R336): The guard die first receives power from the backup cells on an unpowered device, arms its monitors and enters GUARD. -/
  | guardDiePowerUp
  /-- VF_ENABLE_SET (R33): The manager sets SR-IOV VF Enable and the VFs appear in configuration space. -/
  | vfEnableSet
  /-- READ_CLEAR_ACCESS (R507): A read of an RC field returns its count and clears it. -/
  | readClearAccess (fn off : Nat)
  /-- PROBE_UNKNOWN_OP (R412): A PROBE with an undefined OP arrives and is answered with status UNKNOWN_OP. -/
  | probeUnknownOp (port : Nat) (frame : List Byte)
  /-- MSIX_VECTOR_UNMASK (R58): Unmasking an MSI-X vector with its pending bit set sends the pending message. -/
  | msixVectorUnmask (fn vec : Nat)
deriving DecidableEq, Repr

end Sys2Proof
end

