-- ==== Sys2Proof/Decode.lean ====
section
/-!
DEFINITION. Command words. The rows of spec/opcode_table.json give no bits: a command comes to the block as a register access, a frame, an
event or a timer, never as a word.
-/

namespace Sys2Proof

/-- The command that a table word spells: none, since no row gives bits. -/
def decodeTableWord (_nbits _w : Nat) : Option Instr := none

end Sys2Proof
end

