-- ==== Sys2Proof/Machine/Bits.lean ====
section
/-!
DEFINITION. Byte-string, byte-order and bit-field helpers used by every block (R5: little-endian structures; R6: cryptographic byte strings).
-/

namespace Sys2Proof.Machine

/-- Little-endian value of a byte string (R5). -/
def leNat : Bytes → Nat
  | [] => 0
  | b :: bs => b.toNat + 256 * leNat bs

/-- `n` little-endian bytes of a number (R5). -/
def leBytes : Nat → Nat → Bytes
  | 0, _ => []
  | n + 1, v => BitVec.ofNat 8 v :: leBytes n (v / 256)

/-- Big-endian value of a byte string (R6). -/
def beNat (bs : Bytes) : Nat := leNat bs.reverse

/-- `n` big-endian bytes of a number (R6). -/
def beBytes (n v : Nat) : Bytes := (leBytes n v).reverse

/-- `n` zero bytes. -/
def zeroBytes (n : Nat) : Bytes := List.replicate n 0

/-- The `n` bytes from offset `off`, reading 0 past the end. -/
def slice (bs : Bytes) (off n : Nat) : Bytes :=
  let p := (bs.drop off).take n
  p ++ zeroBytes (n - p.length)

/-- The little-endian field of `n` bytes at offset `off` (R5). -/
def leAt (bs : Bytes) (off n : Nat) : Nat := leNat (slice bs off n)

/-- The big-endian field of `n` bytes at offset `off` (R6). -/
def beAt (bs : Bytes) (off n : Nat) : Nat := beNat (slice bs off n)

/-- Bits `hi..lo` of a number. -/
def bitsOf (v hi lo : Nat) : Nat := (v >>> lo) % 2 ^ (hi + 1 - lo)

/-- Bit `i` of a number. -/
def bitOf (v i : Nat) : Bool := v.testBit i

/-- A Boolean as a number. -/
def b2n (b : Bool) : Nat := if b then 1 else 0

/-- Bytes padded with zeros, or cut, to exactly `n`. -/
def padTo (n : Nat) (bs : Bytes) : Bytes := slice bs 0 n

/-- The bytes of a string of ASCII characters. -/
def ascii (s : String) : Bytes := s.toList.map fun c => BitVec.ofNat 8 c.toNat

/-- Bytewise exclusive or, as long as the shorter operand. -/
def xorBytes : Bytes → Bytes → Bytes
  | a :: as, b :: bs => (a ^^^ b) :: xorBytes as bs
  | _, _ => []

/-- Overwrite `bs` with `d` at offset `off` (bytes that would fall past the end are dropped). -/
def patch (bs : Bytes) (off : Nat) (d : Bytes) : Bytes :=
  (bs.take off ++ d ++ bs.drop (off + d.length)).take bs.length

/-- A string cut into pieces of `n` bytes, with fuel for its length. -/
def chunksAux (n : Nat) : Nat → Bytes → List Bytes
  | 0, _ => []
  | _ + 1, [] => []
  | k + 1, bs => bs.take n :: chunksAux n k (bs.drop n)

/-- A string cut into pieces of `n` bytes; the last may be shorter. -/
def chunks (n : Nat) (bs : Bytes) : List Bytes := chunksAux n bs.length bs

/-- Bytes joined from pieces. -/
def joinBytes (l : List Bytes) : Bytes := l.foldr (· ++ ·) []

/-- A counter that stops at `m` (a saturating count). -/
def satAdd (m v d : Nat) : Nat := min m (v + d)

/-- Set or clear bit `i` of a number used as a bit map. -/
def setBit (v i : Nat) (b : Bool) : Nat :=
  if b then v ||| (1 <<< i) else if v.testBit i then v - 1 <<< i else v

/-- The number of one bits among the low `n` bits. -/
def popcount : Nat → Nat → Nat
  | 0, _ => 0
  | n + 1, v => b2n (v.testBit n) + popcount n v

/-- Ceiling division. -/
def cdiv (a b : Nat) : Nat := (a + b - 1) / b

/-- Two's-complement reading of an `n`-bit number. -/
def signedOf (n v : Nat) : Int := if v < 2 ^ (n - 1) then (v : Int) else (v : Int) - (2 ^ n : Nat)

/-- Reverse the low `k` bits of `i` (R191, R208). -/
def bitrev : Nat → Nat → Nat
  | 0, _ => 0
  | k + 1, i => (i % 2) * 2 ^ k + bitrev k (i / 2)

end Sys2Proof.Machine
end

