-- ==== Sys2Proof/Machine/Hash.lean ====
section
/-!
DEFINITION. The hash functions of the hash lanes (R183): Keccak-f[1600] with SHA-3 and SHAKE, SHA-2, and the CRC-32C of records (R377).
The spec names the standards (FIPS 180-4, FIPS 202) and does not restate them: PRESUMED, log entry 2.
-/

namespace Sys2Proof.Machine

/-! ### Keccak -/

/-- Lane `(x, y)` of a Keccak state held as 25 words. -/
def kLane (a : List W64) (x y : Nat) : W64 := a.getD (x % 5 + 5 * (y % 5)) 0

/-- A Keccak state built lane by lane. -/
def kBuild (f : Nat → Nat → W64) : List W64 := (List.range 25).map fun i => f (i % 5) (i / 5)

/-- The rotation offsets of the rho step, by lane index x + 5y. -/
def kRho : List Nat :=
  [0, 1, 62, 28, 27, 36, 44, 6, 55, 20, 3, 10, 43, 25, 39, 41, 45, 15, 21, 8, 18, 2, 61, 56, 14]

/-- The round constants of the iota step. -/
def kIota : List W64 :=
  [0x0000000000000001, 0x0000000000008082, 0x800000000000808A, 0x8000000080008000, 0x000000000000808B, 0x0000000080000001] ++
  [0x8000000080008081, 0x8000000000008009, 0x000000000000008A, 0x0000000000000088, 0x0000000080008009, 0x000000008000000A] ++
  [0x000000008000808B, 0x800000000000008B, 0x8000000000008089, 0x8000000000008003, 0x8000000000008002, 0x8000000000000080] ++
  [0x000000000000800A, 0x800000008000000A, 0x8000000080008081, 0x8000000000008080, 0x0000000080000001, 0x8000000080008008]

/-- One Keccak round. -/
def kRound (a : List W64) (rc : W64) : List W64 :=
  let c := (List.range 5).map fun x => kLane a x 0 ^^^ kLane a x 1 ^^^ kLane a x 2 ^^^ kLane a x 3 ^^^ kLane a x 4
  let d := (List.range 5).map fun x => c.getD ((x + 4) % 5) 0 ^^^ (c.getD ((x + 1) % 5) 0).rotateLeft 1
  let t := kBuild fun x y => kLane a x y ^^^ d.getD x 0
  let p := kBuild fun x y =>
    let x' := (x + 3 * y) % 5
    (kLane t x' x).rotateLeft (kRho.getD (x' + 5 * x) 0)
  let q := kBuild fun x y => kLane p x y ^^^ (~~~ kLane p (x + 1) y &&& kLane p (x + 2) y)
  match q with
  | h :: r => (h ^^^ rc) :: r
  | [] => []

/-- Keccak-f[1600]. -/
def keccakF (a : List W64) : List W64 := kIota.foldl kRound a

/-- Absorb one rate block into a Keccak state. -/
def kAbsorb (a : List W64) (blk : Bytes) : List W64 :=
  keccakF ((List.range 25).map fun i => a.getD i 0 ^^^ BitVec.ofNat 64 (leAt blk (8 * i) 8))

/-- The bytes of a Keccak state. -/
def kBytes (a : List W64) : Bytes := joinBytes (a.map fun w => leBytes 8 w.toNat)

/-- Squeeze `n` bytes at rate `r`, with fuel. -/
def kSqueeze (r : Nat) : Nat → Nat → List W64 → Bytes
  | 0, _, _ => []
  | k + 1, n, a =>
    if n ≤ r then (kBytes a).take n else (kBytes a).take r ++ kSqueeze r k (n - r) (keccakF a)

/-- Pad a message to the rate: the suffix byte, zeros, and the final 0x80. -/
def kPad (r : Nat) (suffix : Byte) (m : Bytes) : Bytes :=
  let padded := m ++ [suffix] ++ zeroBytes ((r - (m.length + 1) % r) % r)
  padded.dropLast ++ [padded.getLastD 0 ||| 0x80]

/-- The sponge: rate `r` bytes, domain suffix, `n` output bytes. -/
def sponge (r : Nat) (suffix : Byte) (n : Nat) (m : Bytes) : Bytes :=
  kSqueeze r (n / r + 1) n ((chunks r (kPad r suffix m)).foldl kAbsorb (List.replicate 25 0))

/-- SHAKE256. -/
def shake256 (n : Nat) (m : Bytes) : Bytes := sponge 136 0x1F n m
/-- SHAKE128. -/
def shake128 (n : Nat) (m : Bytes) : Bytes := sponge 168 0x1F n m
/-- SHA3-256. -/
def sha3_256 (m : Bytes) : Bytes := sponge 136 0x06 32 m
/-- SHA3-384. -/
def sha3_384 (m : Bytes) : Bytes := sponge 104 0x06 48 m
/-- SHA3-512. -/
def sha3_512 (m : Bytes) : Bytes := sponge 72 0x06 64 m

/-! ### SHA-2 -/

/-- Integer root by bits: the largest `r` below `2^(k)` above the accumulator with `r^e ≤ v`. -/
def rootBits (e v : Nat) : Nat → Nat → Nat
  | 0, acc => acc
  | k + 1, acc => rootBits e v k (if (acc + 2 ^ k) ^ e ≤ v then acc + 2 ^ k else acc)

/-- The first 80 primes. -/
def primes80 : List Nat :=
  [2, 3, 5, 7, 11, 13, 17, 19, 23, 29, 31, 37, 41, 43, 47, 53, 59, 61, 67, 71] ++
  [73, 79, 83, 89, 97, 101, 103, 107, 109, 113, 127, 131, 137, 139, 149, 151, 157, 163, 167, 173] ++
  [179, 181, 191, 193, 197, 199, 211, 223, 227, 229, 233, 239, 241, 251, 257, 263, 269, 271, 277, 281] ++
  [283, 293, 307, 311, 313, 317, 331, 337, 347, 349, 353, 359, 367, 373, 379, 383, 389, 397, 401, 409]

/-- The first 64 fraction bits of the cube roots of the first 80 primes (the SHA-512 constants). -/
def shaK : List Nat := primes80.map fun p => rootBits 3 (p * 2 ^ 192) 68 0 % 2 ^ 64

/-- The first 64 fraction bits of the square roots of the first 16 primes. -/
def shaH : List Nat := (primes80.take 16).map fun p => rootBits 2 (p * 2 ^ 128) 68 0 % 2 ^ 64

/-- The shape of a SHA-2 function: word width and rotation amounts. -/
structure Sha2 (w : Nat) where
  k : List (BitVec w)
  s0 : Nat × Nat × Nat
  s1 : Nat × Nat × Nat
  l0 : Nat × Nat × Nat
  l1 : Nat × Nat × Nat

/-- Three rotations combined. -/
def rot3 {w : Nat} (x : BitVec w) (r : Nat × Nat × Nat) : BitVec w :=
  x.rotateRight r.1 ^^^ x.rotateRight r.2.1 ^^^ x.rotateRight r.2.2

/-- Two rotations and a shift combined. -/
def rot2s {w : Nat} (x : BitVec w) (r : Nat × Nat × Nat) : BitVec w :=
  x.rotateRight r.1 ^^^ x.rotateRight r.2.1 ^^^ (x >>> r.2.2)

/-- The message schedule, newest word first, grown by `n` words. -/
def sha2Sched {w : Nat} (p : Sha2 w) : Nat → List (BitVec w) → List (BitVec w)
  | 0, ws => ws
  | n + 1, ws =>
    sha2Sched p n ((rot2s (ws.getD 1 0) p.l1 + ws.getD 6 0 + rot2s (ws.getD 14 0) p.l0 + ws.getD 15 0) :: ws)

/-- One SHA-2 round on the eight working words. -/
def sha2Round {w : Nat} (p : Sha2 w) (v : List (BitVec w)) (kw : BitVec w × BitVec w) : List (BitVec w) :=
  let a := v.getD 0 0; let b := v.getD 1 0; let c := v.getD 2 0; let d := v.getD 3 0
  let e := v.getD 4 0; let f := v.getD 5 0; let g := v.getD 6 0; let h := v.getD 7 0
  let t1 := h + rot3 e p.s1 + ((e &&& f) ^^^ (~~~ e &&& g)) + kw.1 + kw.2
  let t2 := rot3 a p.s0 + ((a &&& b) ^^^ (a &&& c) ^^^ (b &&& c))
  [t1 + t2, a, b, c, d + t1, e, f, g]

/-- Compress one block into the chaining words. -/
def sha2Block {w : Nat} (p : Sha2 w) (h : List (BitVec w)) (blk : Bytes) : List (BitVec w) :=
  let ws0 := (List.range 16).map fun i => BitVec.ofNat w (beAt blk (w / 8 * i) (w / 8))
  let ws := (sha2Sched p (p.k.length - 16) ws0.reverse).reverse
  let v := (p.k.zip ws).foldl (sha2Round p) h
  (h.zip v).map fun x => x.1 + x.2

/-- Pad a message for SHA-2 with a `lb`-byte length field and `bl`-byte blocks. -/
def sha2Pad (bl lb : Nat) (m : Bytes) : Bytes :=
  m ++ [0x80] ++ zeroBytes ((bl - (m.length + 1 + lb) % bl) % bl) ++ beBytes lb (8 * m.length)

/-- The parameters of SHA-256. -/
def sha256P : Sha2 32 :=
  ⟨(shaK.take 64).map fun k => BitVec.ofNat 32 (k / 2 ^ 32), (2, 13, 22), (6, 11, 25), (7, 18, 3), (17, 19, 10)⟩

/-- The parameters of SHA-512 and SHA-384. -/
def sha512P : Sha2 64 :=
  ⟨shaK.map fun k => BitVec.ofNat 64 k, (28, 34, 39), (14, 18, 41), (1, 8, 7), (19, 61, 6)⟩

/-- Run SHA-2 from the given chaining words. -/
def sha2Run {w : Nat} (p : Sha2 w) (h0 : List (BitVec w)) (m : Bytes) : Bytes :=
  let h := (chunks (w * 2) (sha2Pad (w * 2) (w / 4) m)).foldl (sha2Block p) h0
  joinBytes (h.map fun x => beBytes (w / 8) x.toNat)

/-- SHA-256. -/
def sha256 (m : Bytes) : Bytes := sha2Run sha256P ((shaH.take 8).map fun h => BitVec.ofNat 32 (h / 2 ^ 32)) m
/-- SHA-512. -/
def sha512 (m : Bytes) : Bytes := sha2Run sha512P ((shaH.take 8).map fun h => BitVec.ofNat 64 h) m
/-- SHA-384. -/
def sha384 (m : Bytes) : Bytes := (sha2Run sha512P ((shaH.drop 8).map fun h => BitVec.ofNat 64 h) m).take 48

/-! ### CRC-32C -/

/-- One bit of the reflected CRC with the given polynomial. -/
def crcBit {w : Nat} (poly c : BitVec w) : BitVec w :=
  if c.getLsbD 0 then (c >>> 1) ^^^ poly else c >>> 1

/-- One byte of CRC-32C. -/
def crc32cByte (c : W32) (b : Byte) : W32 :=
  (List.range 8).foldl (fun c _ => crcBit 0x82F63B78 c) (c ^^^ b.zeroExtend 32)

/-- CRC-32C over a byte string (R377). -/
def crc32c (m : Bytes) : W32 := ~~~ m.foldl crc32cByte 0xFFFFFFFF

/-- CRC-16/CCITT (polynomial 0x1021, initial value 0xFFFF) over a byte string (R428). -/
def crc16ccitt (m : Bytes) : W16 :=
  m.foldl (fun c b => (List.range 8).foldl
    (fun c _ => if c.getLsbD 15 then (c <<< 1) ^^^ 0x1021 else c <<< 1) (c ^^^ BitVec.ofNat 16 (256 * b.toNat))) 0xFFFF

end Sys2Proof.Machine
end

