-- ==== Sys2Proof/Machine/Cipher.lean ====
section
/-!
DEFINITION. The block ciphers and modes of the block lanes (R159-R165): AES, DES and TDES, counter mode, GHASH, CMAC, AES key wrap, CBC.
The spec names the standards and does not restate them: PRESUMED, log entry 2.
-/

namespace Sys2Proof.Machine

/-! ### AES (FIPS 197) -/

/-- Multiply by x in GF(2^8). -/
def xtime (b : Byte) : Byte := if b.getLsbD 7 then (b <<< 1) ^^^ 0x1B else b <<< 1

/-- Multiplication in GF(2^8), over the low `n` bits of the first factor. -/
def gmulAux : Nat → Byte → Byte → Byte → Byte
  | 0, _, _, acc => acc
  | n + 1, a, b, acc => if a = 0 then acc else gmulAux n (a >>> 1) (xtime b) (if a.getLsbD 0 then acc ^^^ b else acc)

/-- Multiplication in GF(2^8). -/
def gmul (a b : Byte) : Byte := gmulAux 8 a b 0

/-- The multiplicative inverse in GF(2^8), 0 for 0: a to the power 254. -/
def ginv (a : Byte) : Byte :=
  let a2 := gmul a a; let a3 := gmul a2 a; let a12 := gmul (gmul a3 a3) (gmul a3 a3)
  let a15 := gmul a12 a3
  let sq := fun b => gmul b b
  gmul (sq (sq (sq (sq a15)))) (gmul a12 a2)

/-- The AES S-box. -/
def sboxOf (a : Byte) : Byte :=
  let b := ginv a
  b ^^^ b.rotateLeft 1 ^^^ b.rotateLeft 2 ^^^ b.rotateLeft 3 ^^^ b.rotateLeft 4 ^^^ 0x63

/-- The inverse S-box. -/
def invSboxOf (a : Byte) : Byte :=
  ginv (a.rotateLeft 1 ^^^ a.rotateLeft 3 ^^^ a.rotateLeft 6 ^^^ 0x05)

/-- The S-box as a table, a row of 16 bytes for each high digit (FIPS 197 figure 7). -/
def sboxRows : List Nat :=
  [0x637C777BF26B6FC53001672BFED7AB76, 0xCA82C97DFA5947F0ADD4A2AF9CA472C0,
   0xB7FD9326363FF7CC34A5E5F171D83115, 0x04C723C31896059A071280E2EB27B275,
   0x09832C1A1B6E5AA0523BD6B329E32F84, 0x53D100ED20FCB15B6ACBBE394A4C58CF,
   0xD0EFAAFB434D338545F9027F503C9FA8, 0x51A3408F929D38F5BCB6DA2110FFF3D2,
   0xCD0C13EC5F974417C4A77E3D645D1973, 0x60814FDC222A908846EEB814DE5E0BDB,
   0xE0323A0A4906245CC2D3AC629195E479, 0xE7C8376D8DD54EA96C56F4EA657AAE08,
   0xBA78252E1CA6B4C6E8DD741F4BBD8B8A, 0x703EB5664803F60E613557B986C11D9E,
   0xE1F8981169D98E949B1E87E9CE5528DF, 0x8CA1890DBFE6426841992D0FB054BB16]
/-- The inverse S-box as a table (FIPS 197 figure 14). -/
def invSboxRows : List Nat :=
  [0x52096AD53036A538BF40A39E81F3D7FB, 0x7CE339829B2FFF87348E4344C4DEE9CB,
   0x547B9432A6C2233DEE4C950B42FAC34E, 0x082EA16628D924B2765BA2496D8BD125,
   0x72F8F66486689816D4A45CCC5D65B692, 0x6C704850FDEDB9DA5E154657A78D9D84,
   0x90D8AB008CBCD30AF7E45805B8B34506, 0xD02C1E8FCA3F0F02C1AFBD0301138A6B,
   0x3A9111414F67DCEA97F2CFCEF0B4E673, 0x96AC7422E7AD3585E2F937E81C75DF6E,
   0x47F11A711D29C5896FB7620EAA18BE1B, 0xFC563E4BC6D279209ADBC0FE78CD5AF4,
   0x1FDDA8338807C731B11210592780EC5F, 0x60517FA919B54A0D2DE57A9F93C99CEF,
   0xA0E03B4DAE2AF5B0C8EBBB3C83539961, 0x172B047EBA77D626E169146355210C7D]

/-- Byte `a` of a table of 16 rows. -/
def rowByte (t : List Nat) (a : Nat) : Byte := BitVec.ofNat 8 (t.getD (a / 16) 0 >>> (8 * (15 - a % 16)))
/-- S-box lookup. -/
def sbox (a : Byte) : Byte := rowByte sboxRows a.toNat
/-- Inverse S-box lookup. -/
def invSbox (a : Byte) : Byte := rowByte invSboxRows a.toNat

/-- The AES key schedule grown word by word (words newest first). -/
def aesExpand (nk : Nat) : Nat → Nat → Byte → List Bytes → List Bytes
  | 0, _, _, ws => ws
  | n + 1, i, rc, ws =>
    let t := ws.getD 0 []
    let prev := ws.getD (nk - 1) []
    if i % nk = 0 then
      let r := (t.drop 1 ++ t.take 1).map sbox
      aesExpand nk n (i + 1) (xtime rc) (xorBytes prev (xorBytes r [rc, 0, 0, 0]) :: ws)
    else
      let t' := if nk > 6 ∧ i % nk = 4 then t.map sbox else t
      aesExpand nk n (i + 1) rc (xorBytes prev t' :: ws)

/-- The round keys of an AES key of 16, 24 or 32 bytes, 16 bytes each. -/
def aesRoundKeys (key : Bytes) : List Bytes :=
  let nk := key.length / 4
  let ws := (aesExpand nk (4 * (nk + 7) - nk) nk 1 (chunks 4 key).reverse).reverse
  chunks 16 (joinBytes ws)

/-- The ShiftRows step. -/
def shiftRows : Bytes → Bytes
  | [a0, a1, a2, a3, b0, b1, b2, b3, c0, c1, c2, c3, d0, d1, d2, d3] => [a0, b1, c2, d3, b0, c1, d2, a3, c0, d1, a2, b3, d0, a1, b2, c3]
  | _ => zeroBytes 16
/-- The inverse ShiftRows step. -/
def invShiftRows : Bytes → Bytes
  | [a0, a1, a2, a3, b0, b1, b2, b3, c0, c1, c2, c3, d0, d1, d2, d3] => [a0, d1, c2, b3, b0, a1, d2, c3, c0, b1, a2, d3, d0, c1, b2, a3]
  | _ => zeroBytes 16

/-- Every byte of a block held as a number, doubled in GF(2^8). -/
def doubled (x : Nat) : Nat :=
  let h := (x >>> 7) &&& 0x01010101010101010101010101010101
  ((x &&& 0x7F7F7F7F7F7F7F7F7F7F7F7F7F7F7F7F) <<< 1) ^^^ (h ^^^ (h <<< 1) ^^^ (h <<< 3) ^^^ (h <<< 4))
/-- Every column of a block held as a number, turned by one byte: a, b, c, d to b, c, d, a. -/
def turned (x : Nat) : Nat :=
  ((x &&& 0x00FFFFFF00FFFFFF00FFFFFF00FFFFFF) <<< 8) ^^^ ((x >>> 24) &&& 0x000000FF000000FF000000FF000000FF)
/-- Every column times {03}x^3 + {01}x^2 + {01}x + {02}: a byte of the result is 2a + 3b + c + d. -/
def mixNat (x : Nat) : Nat := doubled x ^^^ turned (doubled x ^^^ x) ^^^ turned (turned (x ^^^ turned x))
/-- Every column times the inverse polynomial, which is {04}x^2 + {05} times the first. -/
def invMixNat (x : Nat) : Nat := mixNat (x ^^^ doubled (doubled (x ^^^ turned (turned x))))
/-- The MixColumns step. -/
def mixColumns (s : Bytes) : Bytes := beBytes 16 (mixNat (beNat s))
/-- The inverse MixColumns step. -/
def invMixColumns (s : Bytes) : Bytes := beBytes 16 (invMixNat (beNat s))

/-- AES on one 16-byte block. -/
def aesEnc (key blk : Bytes) : Bytes :=
  match aesRoundKeys key with
  | [] => blk
  | k0 :: ks =>
    let s := ks.dropLast.foldl (fun s k => xorBytes (mixColumns (shiftRows (s.map sbox))) k) (xorBytes blk k0)
    xorBytes (shiftRows (s.map sbox)) (ks.getLastD [])

/-- Inverse AES on one 16-byte block. -/
def aesDec (key blk : Bytes) : Bytes :=
  match (aesRoundKeys key).reverse with
  | [] => blk
  | k0 :: ks =>
    let s := ks.dropLast.foldl
      (fun s k => invMixColumns (xorBytes ((invShiftRows s).map invSbox) k)) (xorBytes blk k0)
    xorBytes ((invShiftRows s).map invSbox) (ks.getLastD [])

/-! ### DES and TDES (FIPS 46-3, SP 800-67) -/

/-- Permute: output bit i (most significant first) is input bit `t[i]`, 1-based from the most significant of `n` bits. -/
def permBits (t : List Nat) (n v : Nat) : Nat :=
  t.foldl (fun acc p => 2 * acc + b2n (v.testBit (n - p))) 0

/-- DES initial permutation. -/
def desIP : List Nat :=
  [58, 50, 42, 34, 26, 18, 10, 2, 60, 52, 44, 36, 28, 20, 12, 4, 62, 54, 46, 38, 30, 22, 14, 6, 64, 56, 48, 40, 32, 24, 16, 8] ++
  [57, 49, 41, 33, 25, 17, 9, 1, 59, 51, 43, 35, 27, 19, 11, 3, 61, 53, 45, 37, 29, 21, 13, 5, 63, 55, 47, 39, 31, 23, 15, 7]

/-- DES final permutation. -/
def desFP : List Nat :=
  [40, 8, 48, 16, 56, 24, 64, 32, 39, 7, 47, 15, 55, 23, 63, 31, 38, 6, 46, 14, 54, 22, 62, 30, 37, 5, 45, 13, 53, 21, 61, 29] ++
  [36, 4, 44, 12, 52, 20, 60, 28, 35, 3, 43, 11, 51, 19, 59, 27, 34, 2, 42, 10, 50, 18, 58, 26, 33, 1, 41, 9, 49, 17, 57, 25]

/-- DES expansion. -/
def desE : List Nat :=
  [32, 1, 2, 3, 4, 5, 4, 5, 6, 7, 8, 9, 8, 9, 10, 11, 12, 13, 12, 13, 14, 15, 16, 17] ++
  [16, 17, 18, 19, 20, 21, 20, 21, 22, 23, 24, 25, 24, 25, 26, 27, 28, 29, 28, 29, 30, 31, 32, 1]

/-- DES round permutation. -/
def desP : List Nat :=
  [16, 7, 20, 21, 29, 12, 28, 17, 1, 15, 23, 26, 5, 18, 31, 10, 2, 8, 24, 14, 32, 27, 3, 9, 19, 13, 30, 6, 22, 11, 4, 25]

/-- DES permuted choice 1. -/
def desPC1 : List Nat :=
  [57, 49, 41, 33, 25, 17, 9, 1, 58, 50, 42, 34, 26, 18, 10, 2, 59, 51, 43, 35, 27, 19, 11, 3, 60, 52, 44, 36] ++
  [63, 55, 47, 39, 31, 23, 15, 7, 62, 54, 46, 38, 30, 22, 14, 6, 61, 53, 45, 37, 29, 21, 13, 5, 28, 20, 12, 4]

/-- DES permuted choice 2. -/
def desPC2 : List Nat :=
  [14, 17, 11, 24, 1, 5, 3, 28, 15, 6, 21, 10, 23, 19, 12, 4, 26, 8, 16, 7, 27, 20, 13, 2] ++
  [41, 52, 31, 37, 47, 55, 30, 40, 51, 45, 33, 48, 44, 49, 39, 56, 34, 53, 46, 42, 50, 36, 29, 32]

/-- The eight DES S-boxes, 64 hexadecimal digits each in row order. -/
def desS : List Nat :=
  [0xE4D12FB83A6C59070F74E2D1A6CB953841E8D62BFC973A50FC8249175B3EA06D] ++
  [0xF18E6B34972DC05A3D47F28EC01A69B50E7BA4D158C6932FD8A13F42B67C05E9] ++
  [0xA09E63F51DC7B428D709346A285ECBF1D6498F30B12C5AE71AD069874FE3B52C] ++
  [0x7DE3069A1285BC4FD8B56F03472C1AE9A690CB7DF13E52843F06A1D8945BC72E] ++
  [0x2C417AB6853FD0E9EB2C47D150FA3986421BAD78F9C5630EB8C71E2D6F09A453] ++
  [0xC1AF92680D34E75BAF427C9561DE0B389EF528C3704A1DB6432C95FABE17608D] ++
  [0x4B2EF08D3C975A61D0B7491AE35C2F8614BDC37EAF6805926BD814A7950FE23C] ++
  [0xD2846FB1A93E50C71FD8A374C56B0E927B419CE206ADF35821E74A8DFC90356B]

/-- One S-box lookup: box `i`, six input bits. -/
def desSbox (i v : Nat) : Nat :=
  let idx := 16 * (v / 32 * 2 + v % 2) + v / 2 % 16
  (desS.getD i 0 >>> (4 * (63 - idx))) % 16

/-- The DES round function. -/
def desF (r k : Nat) : Nat :=
  let x := permBits desE 32 r ^^^ k
  permBits desP 32 ((List.range 8).foldl (fun acc i => 16 * acc + desSbox i ((x >>> (42 - 6 * i)) % 64)) 0)

/-- Rotate a 28-bit half left. -/
def rot28 (v n : Nat) : Nat := (v * 2 ^ n + v / 2 ^ (28 - n)) % 2 ^ 28

/-- The cumulative rotation before each of the sixteen rounds. -/
def desRots : List Nat := [1, 2, 4, 6, 8, 10, 12, 14, 15, 17, 19, 21, 23, 25, 27, 28]

/-- The sixteen round keys of a 64-bit DES key. -/
def desKeys (k : Nat) : List Nat :=
  let cd := permBits desPC1 64 k
  desRots.map fun r => permBits desPC2 56 (rot28 (cd / 2 ^ 28) r * 2 ^ 28 + rot28 (cd % 2 ^ 28) r)

/-- DES with round keys in the given order. -/
def desRun (ks : List Nat) (blk : Nat) : Nat :=
  let ip := permBits desIP 64 blk
  let lr := ks.foldl (fun (lr : Nat × Nat) k => (lr.2, lr.1 ^^^ desF lr.2 k)) (ip / 2 ^ 32, ip % 2 ^ 32)
  permBits desFP 64 (lr.2 * 2 ^ 32 + lr.1)

/-- Single DES on an 8-byte block. -/
def desEnc (key blk : Bytes) : Bytes := beBytes 8 (desRun (desKeys (beNat key)) (beNat blk))
/-- Inverse single DES on an 8-byte block. -/
def desDec (key blk : Bytes) : Bytes := beBytes 8 (desRun (desKeys (beNat key)).reverse (beNat blk))

/-- The three DES keys of an 8, 16 or 24 byte TDES key. -/
def tdesKeys (key : Bytes) : Bytes × Bytes × Bytes :=
  if key.length ≤ 8 then (key, key, key)
  else if key.length ≤ 16 then (key.take 8, slice key 8 8, key.take 8)
  else (key.take 8, slice key 8 8, slice key 16 8)

/-- TDES (EDE) on an 8-byte block. -/
def tdesEnc (key blk : Bytes) : Bytes :=
  let k := tdesKeys key
  desEnc k.2.2 (desDec k.2.1 (desEnc k.1 blk))
/-- Inverse TDES on an 8-byte block. -/
def tdesDec (key blk : Bytes) : Bytes :=
  let k := tdesKeys key
  desDec k.1 (desEnc k.2.1 (desDec k.2.2 blk))

/-! ### A cipher by algorithm -/

/-- Block size in bytes: 16 for AES, 8 for TDES. -/
def blkSize (aes : Bool) : Nat := if aes then 16 else 8
/-- Encipher one block. -/
def blkEnc (aes : Bool) (key blk : Bytes) : Bytes := if aes then aesEnc key blk else tdesEnc key blk
/-- Decipher one block. -/
def blkDec (aes : Bool) (key blk : Bytes) : Bytes := if aes then aesDec key blk else tdesDec key blk

/-- Independent blocks (ECB). -/
def ecbEnc (aes : Bool) (key d : Bytes) : Bytes := joinBytes ((chunks (blkSize aes) d).map (blkEnc aes key))
/-- Independent blocks deciphered. -/
def ecbDec (aes : Bool) (key d : Bytes) : Bytes := joinBytes ((chunks (blkSize aes) d).map (blkDec aes key))

/-- CBC over a list of blocks. -/
def cbcEncAux (aes : Bool) (key : Bytes) : Bytes → List Bytes → Bytes
  | _, [] => []
  | iv, b :: bs => let c := blkEnc aes key (xorBytes iv b); c ++ cbcEncAux aes key c bs
/-- CBC enciphering. -/
def cbcEnc (aes : Bool) (key iv d : Bytes) : Bytes := cbcEncAux aes key iv (chunks (blkSize aes) d)
/-- CBC deciphering over a list of blocks. -/
def cbcDecAux (aes : Bool) (key : Bytes) : Bytes → List Bytes → Bytes
  | _, [] => []
  | iv, c :: cs => xorBytes iv (blkDec aes key c) ++ cbcDecAux aes key c cs
/-- CBC deciphering. -/
def cbcDec (aes : Bool) (key iv d : Bytes) : Bytes := cbcDecAux aes key iv (chunks (blkSize aes) d)

/-- The last CBC block (a CBC-MAC chain), from an initial block. -/
def cbcMac (aes : Bool) (key iv d : Bytes) : Bytes :=
  (chunks (blkSize aes) d).foldl (fun c b => blkEnc aes key (xorBytes c b)) iv

/-- Counter-mode keystream over blocks: the last four bytes of the counter count up, big-endian, modulo 2^32. -/
def ctrAux (aes : Bool) (key : Bytes) : Bytes → List Bytes → Bytes
  | _, [] => []
  | c, b :: bs =>
    let n := c.length - 4
    xorBytes b (blkEnc aes key c) ++ ctrAux aes key (c.take n ++ beBytes 4 ((beAt c n 4 + 1) % 2 ^ 32)) bs
/-- Counter mode with a 32-bit counter in the last four bytes of the block. -/
def ctrXor (aes : Bool) (key ctr d : Bytes) : Bytes := ctrAux aes key ctr (chunks (blkSize aes) d)

/-! ### GHASH and GCM (SP 800-38D) -/

/-- Multiplication in GF(2^128) by bits of the first factor, most significant first. -/
def gf128Aux (x : W128) : Nat → W128 → W128 → W128
  | 0, _, z => z
  | n + 1, v, z =>
    gf128Aux x n (if v.getLsbD 0 then (v >>> 1) ^^^ (0xE1#128 <<< 120) else v >>> 1)
      (if x.getLsbD n then z ^^^ v else z)
/-- Multiplication in GF(2^128) as GCM defines it. -/
def gf128 (x y : W128) : W128 := gf128Aux x 128 y 0

/-- Absorb data, zero-padded to whole blocks, into a GHASH accumulator. -/
def ghashAbsorb (h acc : W128) (d : Bytes) : W128 :=
  (chunks 16 d).foldl (fun a b => gf128 (a ^^^ BitVec.ofNat 128 (beNat (padTo 16 b))) h) acc

/-- The GCM hash subkey. -/
def gcmH (key : Bytes) : W128 := BitVec.ofNat 128 (beNat (aesEnc key (zeroBytes 16)))

/-- The GCM tag over associated data and ciphertext for a 96-bit nonce. -/
def gcmTag (key iv aad c : Bytes) : Bytes :=
  let h := gcmH key
  let s := ghashAbsorb h (ghashAbsorb h (ghashAbsorb h 0 aad) c) (beBytes 8 (8 * aad.length) ++ beBytes 8 (8 * c.length))
  xorBytes (beBytes 16 s.toNat) (aesEnc key (iv ++ [0, 0, 0, 1]))

/-- GCM enciphering with a 96-bit nonce: ciphertext, then tag. -/
def gcmEnc (key iv aad p : Bytes) : Bytes :=
  let c := ctrXor true key (iv ++ [0, 0, 0, 2]) p
  c ++ gcmTag key iv aad c

/-- GCM deciphering with a 96-bit nonce; none when the tag fails. -/
def gcmDec (key iv aad ct : Bytes) : Option Bytes :=
  let n := ct.length - 16
  let c := ct.take n
  if ct.length < 16 ∨ gcmTag key iv aad c ≠ ct.drop n then none
  else some (ctrXor true key (iv ++ [0, 0, 0, 2]) c)

/-! ### CMAC (SP 800-38B) -/

/-- Doubling in the CMAC field. -/
def cmacDbl (aes : Bool) (b : Bytes) : Bytes :=
  let n := blkSize aes
  let v := beNat b
  let r := if aes then 0x87 else 0x1B
  beBytes n ((2 * v % 2 ^ (8 * n)) ^^^ (if v.testBit (8 * n - 1) then r else 0))

/-- CMAC, full block. -/
def cmac (aes : Bool) (key m : Bytes) : Bytes :=
  let n := blkSize aes
  let k1 := cmacDbl aes (blkEnc aes key (zeroBytes n))
  let blocks := chunks n m
  let last := blocks.getLastD []
  let fin := if last.length = n then xorBytes last k1 else xorBytes (padTo n (last ++ [0x80])) (cmacDbl aes k1)
  blkEnc aes key (xorBytes (cbcMac aes key (zeroBytes n) (joinBytes blocks.dropLast)) fin)

/-! ### AES key wrap (SP 800-38F, RFC 3394) -/

/-- One wrap step. -/
def kwStep (key : Bytes) (st : Bytes × List Bytes) (t : Nat) : Bytes × List Bytes :=
  match st.2 with
  | [] => st
  | r :: rs =>
    let b := aesEnc key (st.1 ++ r)
    (xorBytes (b.take 8) (beBytes 8 t), rs ++ [b.drop 8])
/-- AES key wrap. -/
def kwWrap (key p : Bytes) : Bytes :=
  let r := chunks 8 p
  let st := (List.range (6 * r.length)).foldl (fun st i => kwStep key st (i + 1)) (List.replicate 8 (0xA6 : Byte), r)
  st.1 ++ joinBytes st.2
/-- One unwrap step. -/
def kwUnstep (key : Bytes) (st : Bytes × List Bytes) (t : Nat) : Bytes × List Bytes :=
  let b := aesDec key (xorBytes st.1 (beBytes 8 t) ++ st.2.getLastD [])
  (b.take 8, b.drop 8 :: st.2.dropLast)
/-- AES key unwrap; none when the check value fails. -/
def kwUnwrap (key c : Bytes) : Option Bytes :=
  let r := chunks 8 (c.drop 8)
  let st := ((List.range (6 * r.length)).reverse).foldl (fun st i => kwUnstep key st (i + 1)) (c.take 8, r)
  if st.1 = List.replicate 8 (0xA6 : Byte) then some (joinBytes st.2) else none

/-! ### CTR_DRBG (SP 800-90A) with AES-256 and its derivation function (R307) -/

/-- The working state of a DRBG instance: key and V. -/
structure DrbgState where
  key : Bytes
  v : Bytes
deriving DecidableEq, Repr

/-- Generate `n` blocks, advancing V. -/
def drbgBlocks (key : Bytes) : Nat → Nat → Bytes
  | 0, _ => []
  | n + 1, v => let v' := (v + 1) % 2 ^ 128; aesEnc key (beBytes 16 v') ++ drbgBlocks key n v'

/-- CTR_DRBG_Update with 48 bytes of provided data. -/
def drbgUpdate (st : DrbgState) (d : Bytes) : DrbgState :=
  let t := xorBytes (drbgBlocks st.key 3 (beNat st.v)) (padTo 48 d)
  ⟨t.take 32, t.drop 32⟩

/-- Generate `n` bytes and update the working state. -/
def drbgGenerate (st : DrbgState) (n : Nat) (add : Bytes) : Bytes × DrbgState :=
  let st0 := if add = [] then st else drbgUpdate st add
  let k := cdiv n 16
  let o := (drbgBlocks st0.key k (beNat st0.v)).take n
  (o, drbgUpdate ⟨st0.key, beBytes 16 ((beNat st0.v + k) % 2 ^ 128)⟩ add)

/-- BCC of the derivation function, over the counter block and S. -/
def dfBlock (key s : Bytes) (i : Nat) : Bytes := cbcMac true key (zeroBytes 16) (beBytes 4 i ++ zeroBytes 12 ++ s)

/-- Block_Cipher_df to 48 bytes. -/
def drbgDf (input : Bytes) : Bytes :=
  let s0 := beBytes 4 input.length ++ beBytes 4 48 ++ input ++ [0x80]
  let s := padTo (16 * cdiv s0.length 16) s0
  let k := (List.range 32).map fun i => BitVec.ofNat 8 i
  let t := dfBlock k s 0 ++ dfBlock k s 1 ++ dfBlock k s 2
  let k2 := t.take 32
  let x1 := aesEnc k2 (t.drop 32)
  let x2 := aesEnc k2 x1
  x1 ++ x2 ++ aesEnc k2 x2

/-- Instantiate from entropy, nonce and personalization string. -/
def drbgInstantiate (entropy nonce pers : Bytes) : DrbgState := drbgUpdate ⟨zeroBytes 32, zeroBytes 16⟩ (drbgDf (entropy ++ nonce ++ pers))

/-- Reseed from entropy, without additional input. -/
def drbgReseed (st : DrbgState) (entropy : Bytes) : DrbgState := drbgUpdate st (drbgDf entropy)

end Sys2Proof.Machine
end

