-- ==== Sys2Proof/Machine/Asym.lean ====
section
/-!
DEFINITION. The asymmetric primitives of the modular and lattice lanes and of the hash lanes' signatures: RSA with OAEP and
PKCS #1 v1.5, ECDSA and ECDH over P-256 and P-384, ML-KEM (FIPS 203) and SLH-DSA-SHAKE-256f/s (FIPS 205). The spec names the
standards and does not repeat them (PRESUMED, log entry 2).
-/

namespace Sys2Proof.Machine

/-! ### Modular arithmetic -/

/-- Square and multiply over `n` exponent bits, from the highest. -/
def powBits (b m e : Nat) : Nat → Nat → Nat
  | 0, acc => acc
  | n + 1, acc => powBits b m e n (if e.testBit n then acc * acc % m * b % m else acc * acc % m)

/-- `b ^ e mod m`. -/
def modPow (b e m : Nat) : Nat := if m = 0 then 0 else powBits (b % m) m e (Nat.log2 e + 1) (1 % m)

/-- Inverse modulo a prime. -/
def invPrime (a p : Nat) : Nat := modPow a (p - 2) p

/-! ### RSA (R122, R154, R155, R188, R189) -/

/-- RSA public operation. -/
def rsaPub (n e x : Nat) : Nat := modPow x e n

/-- RSA private operation by CRT. -/
def rsaPriv (p q dp dq qinv x : Nat) : Nat :=
  let m1 := modPow x dp p
  let m2 := modPow x dq q
  let h := qinv * ((m1 + p - m2 % p) % p) % p
  m2 + h * q

/-- Modulus bytes of an RSA ALG. -/
def rsaLen (alg : Nat) : Nat := match alg with | 6 => 256 | 7 => 384 | _ => 512

/-- The private operation with the stored material n, e, p, q, dp, dq, qinv (R122). -/
def rsaPrivMat (alg : Nat) (m : Bytes) (x : Nat) : Nat :=
  let l := rsaLen alg
  let h := l / 2
  let o := l + 4
  rsaPriv (beAt m o h) (beAt m (o + h) h) (beAt m (o + 2 * h) h) (beAt m (o + 3 * h) h) (beAt m (o + 4 * h) h) x

/-- MGF1 with SHA-256. -/
def mgf1 (seed : Bytes) (n : Nat) : Bytes :=
  (joinBytes ((List.range (cdiv n 32)).map fun i => sha256 (seed ++ beBytes 4 i))).take n

/-- RSAES-OAEP decoding with SHA-256 and an empty label. -/
def oaepDecode (em : Bytes) : Option Bytes :=
  let ms := slice em 1 32
  let mdb := em.drop 33
  let seed := xorBytes ms (mgf1 mdb 32)
  let db := xorBytes mdb (mgf1 seed mdb.length)
  let rest := (db.drop 32).dropWhile fun b => b == 0
  if em.getD 0 1 = 0 ∧ db.take 32 = sha256 [] ∧ rest.getD 0 0 = 1 then some (rest.drop 1) else none

/-- The DER prefix of a SHA-256 DigestInfo. -/
def sha256Info : Bytes :=
  [0x30, 0x31, 0x30, 0x0D, 0x06, 0x09, 0x60, 0x86, 0x48, 0x01, 0x65, 0x03, 0x04, 0x02, 0x01, 0x05, 0x00, 0x04, 0x20]

/-- EMSA-PKCS1-v1_5 with SHA-256. -/
def pkcs1Pad (l : Nat) (m : Bytes) : Bytes :=
  let t := sha256Info ++ sha256 m
  [0, 1] ++ List.replicate (l - t.length - 3) 0xFF ++ [0] ++ t

/-- RSASSA-PKCS1-v1_5 verification. -/
def pkcs1Verify (alg : Nat) (pubMat m sig : Bytes) : Bool :=
  let l := rsaLen alg
  let n := beAt pubMat 0 l
  decide (sig.length = l) && decide (beNat sig < n) &&
  decide (beBytes l (rsaPub n (beAt pubMat l 4) (beNat sig)) = pkcs1Pad l m)

/-- RSA private material from two primes and e, none when they make no key of the size (R122). -/
def rsaMaterial (l p q e : Nat) : Option Bytes :=
  let n := p * q
  let d := fun (x : Nat) => (Nat.xgcd e (x - 1)).1 % ((x - 1 : Nat) : Int) |>.toNat
  if Nat.log2 n + 1 ≠ 8 * l ∨ Nat.log2 p + 1 ≠ 4 * l ∨ Nat.log2 q + 1 ≠ 4 * l ∨ Nat.gcd e (p - 1) ≠ 1 ∨ Nat.gcd e (q - 1) ≠ 1 ∨ Nat.gcd p q ≠ 1 then none
  else
    let qinv := ((Nat.xgcd q p).1 % (p : Int)).toNat
    some (beBytes l n ++ beBytes 4 e ++ beBytes (l / 2) p ++ beBytes (l / 2) q ++ beBytes (l / 2) (d p) ++ beBytes (l / 2) (d q) ++
      beBytes (l / 2) qinv)

/-! ### Elliptic curves -/

/-- A short Weierstrass curve with a = -3. -/
structure Curve where
  len : Nat
  p : Nat
  b : Nat
  n : Nat
  gx : Nat
  gy : Nat

/-- P-256. -/
def p256 : Curve where
  len := 32
  p := 2 ^ 256 - 2 ^ 224 + 2 ^ 192 + 2 ^ 96 - 1
  b := 0x5AC635D8AA3A93E7B3EBBD55769886BC651D06B0CC53B0F63BCE3C3E27D2604B
  n := 0xFFFFFFFF00000000FFFFFFFFFFFFFFFFBCE6FAADA7179E84F3B9CAC2FC632551
  gx := 0x6B17D1F2E12C4247F8BCE6E563A440F277037D812DEB33A0F4A13945D898C296
  gy := 0x4FE342E2FE1A7F9B8EE7EB4A7C0F9E162BCE33576B315ECECBB6406837BF51F5

/-- P-384. -/
def p384 : Curve where
  len := 48
  p := 2 ^ 384 - 2 ^ 128 - 2 ^ 96 + 2 ^ 32 - 1
  b := 0xB3312FA7E23EE7E4988E056BE3F82D19181D9C6EFE8141120314088F5013875AC656398D8A2ED19D2A85C8EDD3EC2AEF
  n := 0xFFFFFFFFFFFFFFFFFFFFFFFFFFFFFFFFFFFFFFFFFFFFFFFFC7634D81F4372DDF581A0DB248B0A77AECEC196ACCC52973
  gx := 0xAA87CA22BE8B05378EB1C71EF320AD746E1D3B628BA79B9859F741E082542A385502F25DBF55296C3A545E3872760AB7
  gy := 0x3617DE4A96262C6F5D9E98BF9292DC29F8F41DBD289A147CE9DA3113B5F0B8C00A60B1CE1D7E819D7A431D7C90EA0E5F

/-- The curve of an ALG. -/
def curveOf (alg : Nat) : Curve := if alg = 9 then p256 else p384

/-- A point: none is the point at infinity. -/
abbrev Point := Option (Nat × Nat)

/-- Difference modulo the field prime. -/
def subMod (p a b : Nat) : Nat := (a + p - b % p) % p

/-- The third point of a line of slope `l` through x1, y1 and x2. -/
def chord (c : Curve) (l x1 y1 x2 : Nat) : Point :=
  let x := subMod c.p (subMod c.p (l * l % c.p) x1) x2
  some (x, subMod c.p (l * subMod c.p x1 x % c.p) y1)

/-- Point addition. -/
def ecAdd (c : Curve) : Point → Point → Point
  | none, q => q
  | p, none => p
  | some (x1, y1), some (x2, y2) =>
    if x1 = x2 then
      if (y1 + y2) % c.p = 0 then none
      else chord c (subMod c.p (3 * (x1 * x1)) 3 * invPrime (2 * y1 % c.p) c.p % c.p) x1 y1 x2
    else chord c (subMod c.p y2 y1 * invPrime (subMod c.p x2 x1) c.p % c.p) x1 y1 x2

/-- Double and add over `n` bits. -/
def ecMulAux (c : Curve) (k : Nat) (q : Point) : Nat → Point → Point
  | 0, acc => acc
  | n + 1, acc => let d := ecAdd c acc acc; ecMulAux c k q n (if k.testBit n then ecAdd c d q else d)

/-- Scalar multiplication. -/
def ecMul (c : Curve) (k : Nat) (q : Point) : Point := ecMulAux c k q (Nat.log2 k + 1) none

/-- The generator. -/
def ecG (c : Curve) : Point := some (c.gx, c.gy)

/-- A point lies on the curve. -/
def ecOn (c : Curve) (x y : Nat) : Bool :=
  decide (x < c.p) && decide (y < c.p) && decide (y * y % c.p = subMod c.p (x * x * x + c.b) (3 * x))

/-- The bytes x ‖ y of a point. -/
def ecBytes (c : Curve) (q : Point) : Bytes :=
  match q with
  | some (x, y) => beBytes c.len x ++ beBytes c.len y
  | none => zeroBytes (2 * c.len)

/-- The leftmost bits of a digest as an integer. -/
def digestInt (c : Curve) (d : Bytes) : Nat := if c.len < d.length then beNat (d.take c.len) else beNat d

/-- ECDSA signature r ‖ s with nonce k, none when the nonce does not serve. -/
def ecdsaSign (c : Curve) (d k : Nat) (dig : Bytes) : Option Bytes :=
  match ecMul c (k % c.n) (ecG c) with
  | none => none
  | some (x, _) =>
    let r := x % c.n
    let s := invPrime (k % c.n) c.n * ((digestInt c dig + r * d) % c.n) % c.n
    if r = 0 ∨ s = 0 then none else some (beBytes c.len r ++ beBytes c.len s)

/-- ECDSA verification of digest ‖ r ‖ s under a point. -/
def ecdsaVerify (c : Curve) (pub dig sig : Bytes) : Bool :=
  let x := beAt pub 0 c.len
  let y := beAt pub c.len c.len
  let r := beAt sig 0 c.len
  let s := beAt sig c.len c.len
  if !ecOn c x y ∨ r = 0 ∨ c.n ≤ r ∨ s = 0 ∨ c.n ≤ s then false
  else
    let w := invPrime s c.n
    match ecAdd c (ecMul c (digestInt c dig * w % c.n) (ecG c)) (ecMul c (r * w % c.n) (some (x, y))) with
    | none => false
    | some (vx, _) => decide (vx % c.n = r)

/-- A private scalar from random bytes, 64 bits longer than the order (FIPS 186-5). -/
def ecScalar (c : Curve) (rnd : Bytes) : Nat := beNat rnd % (c.n - 1) + 1

/-! ### ML-KEM (FIPS 203; R190) -/

/-- A parameter set: k, eta1, du, dv (eta2 is 2). -/
structure KemP where
  k : Nat
  eta1 : Nat
  du : Nat
  dv : Nat

/-- ML-KEM-512, -768, -1024 by OP[5:4]. -/
def kemP (set : Nat) : KemP :=
  match set with
  | 1 => ⟨2, 3, 10, 4⟩
  | 2 => ⟨3, 2, 10, 4⟩
  | _ => ⟨4, 2, 11, 5⟩

/-- Bits of a byte string, least significant first. -/
def bitsLe (b : Bytes) : List Nat := b.flatMap fun x => (List.range 8).map fun i => b2n (x.getLsbD i)

/-- The number of a bit list, least significant first. -/
def bitsNat : List Nat → Nat
  | [] => 0
  | b :: bs => b + 2 * bitsNat bs

/-- Split a list into pieces of `n`, with fuel. -/
def pieces {α : Type} (n : Nat) : Nat → List α → List (List α)
  | 0, _ => []
  | f + 1, l => if l.isEmpty then [] else l.take n :: pieces n f (l.drop n)

/-- ByteDecode with `d` bits. -/
def kDecode (d : Nat) (b : Bytes) : List Nat := (pieces d 256 (bitsLe b)).map fun x => bitsNat x % (if d = 12 then 3329 else 2 ^ d)

/-- ByteEncode with `d` bits. -/
def kEncode (d : Nat) (f : List Nat) : Bytes :=
  let bits := f.flatMap fun v => (List.range d).map fun i => b2n (v.testBit i)
  (pieces 8 (32 * d) bits).map fun x => BitVec.ofNat 8 (bitsNat x)

/-- Compress to `d` bits. -/
def kCompress (d x : Nat) : Nat := (2 ^ d * x * 2 + 3329) / (2 * 3329) % 2 ^ d

/-- Decompress from `d` bits. -/
def kDecompress (d y : Nat) : Nat := (3329 * y * 2 + 2 ^ d) / (2 * 2 ^ d)

/-- Rejection sampling of coefficients from triples of bytes. -/
def sampleAux : Bytes → List Nat
  | a :: b :: c :: r =>
    let d1 := a.toNat + 256 * (b.toNat % 16)
    let d2 := b.toNat / 16 + 16 * c.toNat
    (if d1 < 3329 then [d1] else []) ++ (if d2 < 3329 then [d2] else []) ++ sampleAux r
  | _ => []

/-- SampleNTT: a matrix entry from SHAKE128 of the seed and indices. -/
def sampleNtt (seed : Bytes) : List Nat := (sampleAux (shake128 2016 seed)).take 256

/-- SamplePolyCBD. -/
def sampleCbd (eta : Nat) (b : Bytes) : List Nat :=
  (pieces (2 * eta) 256 (bitsLe b)).map fun x => ((x.take eta).sum + 3329 - (x.drop eta).sum) % 3329

/-- The `i`-th working-memory address of an address generator: mode 0 linear, 1 modulo `length`, 2 bit-reversed over `k` bits (R191). -/
def agAddr (mode base stride length k i : Nat) : Nat :=
  match mode with
  | 0 => base + i * stride
  | 1 => base + (i * stride) % length
  | _ => base + stride * bitrev k i

/-- The power of zeta of factor `i`: 17 to 2 BitRev7(i) + 1, ordered by the bit-reversed mode with k = 7 (R191). -/
def kGamma (i : Nat) : Nat := modPow 17 (2 * agAddr 2 0 1 1 7 i + 1) 3329

/-- The butterfly of a pair of working-memory words with factor `z`. -/
def butterfly (z j j' : Nat) (f : List Nat) : List Nat :=
  let a := f.getD j 0
  let t := z * f.getD j' 0 % 3329
  (f.set j ((a + t) % 3329)).set j' ((a + 3329 - t) % 3329)

/-- One layer of the NTT on pairs `len` words apart: the two generators walk the blocks of the layer in modulo mode, offset by offset (R191). -/
def nttLayer (len : Nat) (f : List Nat) : List Nat :=
  (List.range len).foldl (fun f o => (List.range (128 / len)).foldl (fun f b =>
    butterfly (modPow 17 (agAddr 2 0 1 1 7 (128 / len + b)) 3329) (agAddr 1 o (2 * len) 256 1 b) (agAddr 1 (o + len) (2 * len) 256 1 b) f) f) f

/-- Every second coefficient. -/
def evens {α : Type} : List α → List α
  | a :: _ :: r => a :: evens r
  | l => l

/-- The NTT, layer by layer: residues modulo the 128 quadratic factors. -/
def ntt (f : List Nat) : List Nat := [128, 64, 32, 16, 8, 4, 2].foldl (fun f len => nttLayer len f) f

/-- The inverse NTT. -/
def nttInv (f : List Nat) : List Nat :=
  let e := evens f
  let o := evens (f.drop 1)
  let gi := (List.range 128).map fun i => invPrime (kGamma i) 3329
  let at' := fun (l : List Nat) (k : Nat) =>
    (((List.zip l gi).map fun x => x.1 * modPow x.2 k 3329).sum % 3329) * 3303 % 3329
  (List.range 128).flatMap fun k => [at' e k, at' o k]

/-- Sum of polynomials. -/
def kAdd (f g : List Nat) : List Nat := (List.zip f g).map fun x => (x.1 + x.2) % 3329
/-- Difference of polynomials. -/
def kSub (f g : List Nat) : List Nat := (List.zip f g).map fun x => (x.1 + 3329 - x.2) % 3329

/-- Product in the NTT domain. -/
def nttMul (f g : List Nat) : List Nat :=
  (List.range 128).flatMap fun i =>
    let a0 := f.getD (2 * i) 0
    let a1 := f.getD (2 * i + 1) 0
    let b0 := g.getD (2 * i) 0
    let b1 := g.getD (2 * i + 1) 0
    [(a0 * b0 + a1 * b1 % 3329 * kGamma i) % 3329, (a0 * b1 + a1 * b0) % 3329]

/-- Inner product in the NTT domain. -/
def nttDot (f g : List (List Nat)) : List Nat :=
  (List.zip f g).foldl (fun acc x => kAdd acc (nttMul x.1 x.2)) (List.replicate 256 0)

/-- Entry i, j of the matrix. -/
def kMat (rho : Bytes) (i j : Nat) : List Nat := sampleNtt (rho ++ leBytes 1 j ++ leBytes 1 i)

/-- A noise vector: `n` polynomials from counter `c`. -/
def kNoise (eta n c : Nat) (sigma : Bytes) : List (List Nat) :=
  (List.range n).map fun i => sampleCbd eta (shake256 (64 * eta) (sigma ++ leBytes 1 (c + i)))

/-- K-PKE.KeyGen: encryption key and decryption key. -/
def pkeKeygen (P : KemP) (d : Bytes) : Bytes × Bytes :=
  let g := sha3_512 (d ++ leBytes 1 P.k)
  let rho := g.take 32
  let sigma := g.drop 32
  let s := (kNoise P.eta1 P.k 0 sigma).map ntt
  let e := (kNoise P.eta1 P.k P.k sigma).map ntt
  let t := (List.range P.k).map fun i => kAdd (nttDot ((List.range P.k).map (kMat rho i)) s) (e.getD i [])
  (joinBytes (t.map (kEncode 12)) ++ rho, joinBytes (s.map (kEncode 12)))

/-- K-PKE.Encrypt. -/
def pkeEncrypt (P : KemP) (ek m r : Bytes) : Bytes :=
  let t := (pieces 384 P.k (ek.take (384 * P.k))).map (kDecode 12)
  let rho := ek.drop (384 * P.k)
  let y := (kNoise P.eta1 P.k 0 r).map ntt
  let e1 := kNoise 2 P.k P.k r
  let e2 := (kNoise 2 1 (2 * P.k) r).getD 0 []
  let u := (List.range P.k).map fun i =>
    kAdd (nttInv (nttDot ((List.range P.k).map fun j => kMat rho j i) y)) (e1.getD i [])
  let v := kAdd (kAdd (nttInv (nttDot t y)) e2) ((kDecode 1 m).map (kDecompress 1))
  joinBytes (u.map fun f => kEncode P.du (f.map (kCompress P.du))) ++ kEncode P.dv (v.map (kCompress P.dv))

/-- K-PKE.Decrypt. -/
def pkeDecrypt (P : KemP) (dk c : Bytes) : Bytes :=
  let u := (pieces (32 * P.du) P.k (c.take (32 * P.du * P.k))).map fun b => (kDecode P.du b).map (kDecompress P.du)
  let v := (kDecode P.dv (c.drop (32 * P.du * P.k))).map (kDecompress P.dv)
  let s := (pieces 384 P.k dk).map (kDecode 12)
  let w := kSub v (nttInv (nttDot s (u.map ntt)))
  kEncode 1 (w.map (kCompress 1))

/-- ML-KEM key generation from d and z: encapsulation key and decapsulation key. -/
def kemKeygen (set : Nat) (d z : Bytes) : Bytes × Bytes :=
  let x := pkeKeygen (kemP set) d
  (x.1, x.2 ++ x.1 ++ sha3_256 x.1 ++ padTo 32 z)

/-- Encapsulation with message m: ciphertext and shared secret. -/
def kemEncaps (set : Nat) (ek m : Bytes) : Bytes × Bytes :=
  let g := sha3_512 (m ++ sha3_256 ek)
  (pkeEncrypt (kemP set) ek m (g.drop 32), g.take 32)

/-- Decapsulation with implicit rejection. -/
def kemDecaps (set : Nat) (dk c : Bytes) : Bytes :=
  let P := kemP set
  let dkp := dk.take (384 * P.k)
  let ek := slice dk (384 * P.k) (384 * P.k + 32)
  let h := slice dk (768 * P.k + 32) 32
  let z := slice dk (768 * P.k + 64) 32
  let m := pkeDecrypt P dkp c
  let g := sha3_512 (m ++ h)
  if pkeEncrypt P ek m (g.drop 32) = c then g.take 32 else shake256 32 (z ++ c)

/-- Bytes of an encapsulation key. -/
def kemEkLen (set : Nat) : Nat := 384 * (kemP set).k + 32
/-- Bytes of a ciphertext. -/
def kemCtLen (set : Nat) : Nat := 32 * ((kemP set).du * (kemP set).k + (kemP set).dv)

/-- The modulus check of an encapsulation key: every coefficient is below 3,329 (FIPS 203). -/
def kemEkOk (set : Nat) (ek : Bytes) : Bool :=
  let t := ek.take (384 * (kemP set).k)
  decide ((pieces 384 (kemP set).k t).flatMap (fun p => kEncode 12 (kDecode 12 p)) = t)

/-! ### SLH-DSA-SHAKE-256f and -256s (FIPS 205; R184) -/

/-- A parameter set: h, d, h', a, k, message digest bytes. -/
structure SlhP where
  h : Nat
  d : Nat
  hp : Nat
  a : Nat
  k : Nat
  m : Nat

/-- 256f. -/
def slh256f : SlhP := ⟨68, 17, 4, 9, 35, 49⟩
/-- 256s. -/
def slh256s : SlhP := ⟨64, 8, 8, 14, 22, 47⟩

/-- An address. -/
structure Adrs where
  layer : Nat
  tree : Nat
  type : Nat
  w1 : Nat
  w2 : Nat
  w3 : Nat

/-- The 32 bytes of an address. -/
def Adrs.bytes (x : Adrs) : Bytes :=
  beBytes 4 x.layer ++ beBytes 12 x.tree ++ beBytes 4 x.type ++ beBytes 4 x.w1 ++ beBytes 4 x.w2 ++ beBytes 4 x.w3

/-- The tweakable hash F, H or T. -/
def slhT (pks : Bytes) (x : Adrs) (m : Bytes) : Bytes := shake256 32 (pks ++ x.bytes ++ m)

/-- The secret value at an address. -/
def slhPrf (pks sks : Bytes) (x : Adrs) : Bytes := shake256 32 (pks ++ x.bytes ++ sks)

/-- `n` steps of a WOTS+ chain from step `i`. -/
def wotsChain (pks : Bytes) (x : Adrs) : Nat → Nat → Bytes → Bytes
  | 0, _, m => m
  | n + 1, i, m => wotsChain pks x n (i + 1) (slhT pks { x with w3 := i } m)

/-- Base-16 digits of a 32-byte message with its checksum: 67 digits. -/
def wotsDigits (m : Bytes) : List Nat :=
  let d := m.flatMap fun b => [b.toNat / 16, b.toNat % 16]
  let c := (d.map fun x => 15 - x).sum
  d ++ [c / 256 % 16, c / 16 % 16, c % 16]

/-- A WOTS+ secret. -/
def wotsSk (pks sks : Bytes) (x : Adrs) (i : Nat) : Bytes := slhPrf pks sks { x with type := 5, w2 := i, w3 := 0 }

/-- A WOTS+ public key from its chain ends. -/
def wotsCompress (pks : Bytes) (x : Adrs) (ends : List Bytes) : Bytes :=
  slhT pks { x with type := 1, w2 := 0, w3 := 0 } (joinBytes ends)

/-- A WOTS+ public key. -/
def wotsPk (pks sks : Bytes) (x : Adrs) : Bytes :=
  wotsCompress pks x ((List.range 67).map fun i => wotsChain pks { x with type := 0, w2 := i } 15 0 (wotsSk pks sks x i))

/-- A WOTS+ signature. -/
def wotsSign (pks sks : Bytes) (x : Adrs) (m : Bytes) : Bytes :=
  joinBytes ((wotsDigits m).zipIdx.map fun di => wotsChain pks { x with type := 0, w2 := di.2 } di.1 0 (wotsSk pks sks x di.2))

/-- The WOTS+ public key a signature implies. -/
def wotsFromSig (pks : Bytes) (x : Adrs) (sig m : Bytes) : Bytes :=
  wotsCompress pks x ((wotsDigits m).zipIdx.map fun di =>
    wotsChain pks { x with type := 0, w2 := di.2 } (15 - di.1) di.1 (slice sig (32 * di.2) 32))

/-- A node of an XMSS tree at height `z` and index `i`. -/
def xmssNode (pks sks : Bytes) (x : Adrs) : Nat → Nat → Bytes
  | 0, i => wotsPk pks sks { x with w1 := i }
  | z + 1, i =>
    slhT pks { x with type := 2, w1 := 0, w2 := z + 1, w3 := i } (xmssNode pks sks x z (2 * i) ++ xmssNode pks sks x z (2 * i + 1))

/-- Sibling index. -/
def sibling (i : Nat) : Nat := if i % 2 = 0 then i + 1 else i - 1

/-- An XMSS signature by leaf `i`. -/
def xmssSign (P : SlhP) (pks sks : Bytes) (x : Adrs) (m : Bytes) (i : Nat) : Bytes :=
  wotsSign pks sks { x with w1 := i } m ++ joinBytes ((List.range P.hp).map fun j => xmssNode pks sks x j (sibling (i / 2 ^ j)))

/-- Climb a tree from a node with its authentication path. -/
def climb (pks : Bytes) (x : Adrs) (auth : Bytes) : List Nat → Nat → Bytes → Bytes
  | [], _, node => node
  | j :: js, i, node =>
    let a := slice auth (32 * j) 32
    climb pks x auth js (i / 2)
      (slhT pks { x with w2 := j + 1, w3 := i / 2 } (if i % 2 = 0 then node ++ a else a ++ node))

/-- The XMSS root a signature implies. -/
def xmssFromSig (P : SlhP) (pks : Bytes) (x : Adrs) (i : Nat) (sig m : Bytes) : Bytes :=
  climb pks { x with type := 2, w1 := 0 } (sig.drop (67 * 32)) (List.range P.hp) i
    (wotsFromSig pks { x with w1 := i } (sig.take (67 * 32)) m)

/-- The hypertree signature over layers `j` onward. -/
def htSign (P : SlhP) (pks sks : Bytes) : Nat → Nat → Bytes → Nat → Nat → Bytes
  | 0, _, _, _, _ => []
  | n + 1, j, m, tree, leaf =>
    let x : Adrs := ⟨j, tree, 0, 0, 0, 0⟩
    let sig := xmssSign P pks sks x m leaf
    sig ++ htSign P pks sks n (j + 1) (xmssFromSig P pks x leaf sig m) (tree / 2 ^ P.hp) (tree % 2 ^ P.hp)

/-- The hypertree root a signature implies. -/
def htRoot (P : SlhP) (pks : Bytes) : Nat → Nat → Bytes → Bytes → Nat → Nat → Bytes
  | 0, _, _, m, _, _ => m
  | n + 1, j, sig, m, tree, leaf =>
    let l := 32 * (67 + P.hp)
    htRoot P pks n (j + 1) (sig.drop l) (xmssFromSig P pks ⟨j, tree, 0, 0, 0, 0⟩ leaf (sig.take l) m) (tree / 2 ^ P.hp) (tree % 2 ^ P.hp)

/-- A node of a FORS tree. -/
def forsNode (pks sks : Bytes) (x : Adrs) : Nat → Nat → Bytes
  | 0, i => slhT pks { x with type := 3, w2 := 0, w3 := i } (slhPrf pks sks { x with type := 6, w2 := 0, w3 := i })
  | z + 1, i => slhT pks { x with type := 3, w2 := z + 1, w3 := i } (forsNode pks sks x z (2 * i) ++ forsNode pks sks x z (2 * i + 1))

/-- The FORS indices of a digest. -/
def forsIdx (P : SlhP) (md : Bytes) : List Nat :=
  (List.range P.k).map fun i => beNat md / 2 ^ (8 * md.length - P.a * (i + 1)) % 2 ^ P.a

/-- A FORS signature. -/
def forsSign (P : SlhP) (pks sks : Bytes) (x : Adrs) (md : Bytes) : Bytes :=
  joinBytes ((forsIdx P md).zipIdx.map fun e =>
    slhPrf pks sks { x with type := 6, w2 := 0, w3 := e.2 * 2 ^ P.a + e.1 } ++
    joinBytes ((List.range P.a).map fun j => forsNode pks sks x j (e.2 * 2 ^ (P.a - j) + sibling (e.1 / 2 ^ j))))

/-- The FORS public key a signature implies. -/
def forsFromSig (P : SlhP) (pks : Bytes) (x : Adrs) (sig md : Bytes) : Bytes :=
  let l := 32 * (P.a + 1)
  let roots := (forsIdx P md).zipIdx.map fun e =>
    let s := slice sig (l * e.2) l
    let i := e.2 * 2 ^ P.a + e.1
    climb pks { x with type := 3 } (s.drop 32) (List.range P.a) i (slhT pks { x with type := 3, w2 := 0, w3 := i } (s.take 32))
  slhT pks { x with type := 4, w2 := 0, w3 := 0 } (joinBytes roots)

/-- The FORS digest, tree and leaf of a message digest. -/
def slhParts (P : SlhP) (dig : Bytes) : Bytes × Nat × Nat :=
  let n1 := cdiv (P.k * P.a) 8
  let n2 := cdiv (P.h - P.hp) 8
  (dig.take n1, beNat (slice dig n1 n2) % 2 ^ (P.h - P.hp), beNat (slice dig (n1 + n2) (cdiv P.hp 8)) % 2 ^ P.hp)

/-- The public key SEED ‖ ROOT of a 96-byte seed SK.seed ‖ SK.prf ‖ PK.seed. -/
def slhPk (P : SlhP) (seed : Bytes) : Bytes :=
  let pks := slice seed 64 32
  pks ++ xmssNode pks (seed.take 32) ⟨P.d - 1, 0, 0, 0, 0, 0⟩ P.hp 0

/-- The pure form with an empty context string. -/
def slhPure (m : Bytes) : Bytes := [0, 0] ++ m

/-- Deterministic signature by the key of a 96-byte seed. -/
def slhSign (P : SlhP) (seed msg : Bytes) : Bytes :=
  let m := slhPure msg
  let sks := seed.take 32
  let pks := slice seed 64 32
  let root := (slhPk P seed).drop 32
  let r := shake256 32 (slice seed 32 32 ++ pks ++ m)
  let pt := slhParts P (shake256 P.m (r ++ pks ++ root ++ m))
  let x : Adrs := ⟨0, pt.2.1, 3, pt.2.2, 0, 0⟩
  let fs := forsSign P pks sks x pt.1
  r ++ fs ++ htSign P pks sks P.d 0 (forsFromSig P pks x fs pt.1) pt.2.1 pt.2.2

/-- Signature bytes. -/
def slhLen (P : SlhP) : Nat := 32 * (1 + P.k * (P.a + 1) + P.h + P.d * 67)

/-- Verification under a 64-byte public key. -/
def slhVerify (P : SlhP) (pk msg sig : Bytes) : Bool :=
  let m := slhPure msg
  let pks := pk.take 32
  let pt := slhParts P (shake256 P.m (sig.take 32 ++ padTo 64 pk ++ m))
  let x : Adrs := ⟨0, pt.2.1, 3, pt.2.2, 0, 0⟩
  let l := 32 * P.k * (P.a + 1)
  decide (sig.length = slhLen P) &&
  decide (htRoot P pks P.d 0 (sig.drop (32 + l)) (forsFromSig P pks x (slice sig 32 l) pt.1) pt.2.1 pt.2.2 = pk.drop 32)

end Sys2Proof.Machine
end

