-- ==== Sys2Proof/Config.lean ====
section
/-!
DEFINITION. What an implementation fixes and the spec does not state, as uninterpreted constants: no body, so no proof can see a value.
Each is named in the assumption log.
-/

namespace Sys2Proof.Config

/-- The 128-bit device identity, as the device carries it from manufacture (log entry 10). -/
opaque deviceIdent : Bytes
/-- Digest of T_PROV burned at wafer test (log entry 10). -/
opaque tProvDigest : Bytes
/-- Desorwil's PCI vendor ID, 16 bits (R450; log entry 10). -/
opaque vendorId : Nat
/-- Desorwil's MIPI manufacturer ID, 15 bits (R421; log entry 10). -/
opaque mipiId : Nat
/-- Cause byte of a MODE record for an old and a new mode: the spec names the field and lists no codes (log entry 11). -/
opaque modeCause : Nat → Nat → Nat
/-- Bytes of a value the spec leaves open, drawn with the state's counter (log entry 12). -/
opaque freeBytes : Nat → Nat → Bytes
/-- A number the spec leaves open, drawn with the state's counter (log entry 12). -/
opaque freeNat : Nat → Nat
/-- MINENT in units of 1/65,536 bit from the four lag-1 transition counts 00, 01, 10, 11: the spec names a 99 % confidence bound and gives no formula (R300; log entry 13). -/
opaque minent : Nat → Nat → Nat → Nat → Nat
/-- Mirror format version of the running firmware (R429, R447; log entry 10). -/
opaque mirrorFormat : Nat

/-- The MCTP endpoint UUID formed from a device identity: the spec says it is formed from it and not how (R422; log entry 10). -/
opaque uuidOf : Bytes → Bytes

/-- Of a key management command's block operations, by opcode, those under its first K1 key: the spec gives the total, and no count for one key (R68, R143; log entry 42). -/
opaque kbUses : Nat → Nat

/-- Core cycles and block operations that KEY_GENERATE's export copy adds: the spec gives the cost without one (R68; log entry 42). -/
opaque copyCycles : Nat
@[inherit_doc copyCycles] opaque copyOps : Nat

/-- The next value of a linear feedback shift register of a width: the spec gives the width and no polynomial (R324, R496; log entry 44). -/
opaque lfsrNext : Nat → Nat → Nat

/-- The interconnect link that a transfer takes first, by its sender (mover channels 0-63, core p as 64 + p) and dimension order (0 or 1): the spec
gives no layout (R479; log entry 54). -/
opaque xbarLink : Nat → Nat → Nat

/-- With these links fenced, some pair of stops has no route (R479; log entry 54). -/
opaque xbarCut : List Nat → Bool

/-- The bank of shared scratch that holds a word of Slalom's tables in copy 0 or 1 (R478; log entry 54). -/
opaque slmBank : Nat → Nat → Nat

/-- The bank of shared scratch that holds an offset (R475; log entry 54). -/
opaque sharedBank : Nat → Nat

/-- Keccak permutations of an SLH-DSA or ML-KEM request, by its control word and its input's length: the spec counts them and does not say how many an
operation runs (R488; log entry 34). -/
opaque lanePerms : Nat → Nat → Nat

/-- Public keys that the ROM holds: 0 test root, 1 provisioning root, 2 diagnosis root, 3 firmware root (R354, R469; log entry 10). -/
opaque romKey : Nat → Bytes

/-- Certificate chain of the key that signs an attestation report, by life-cycle code and DEPLOY_COUNT: the spec gives no format (R353, R355; log entry 10). -/
opaque certChain : Nat → Nat → Bytes

/-- VERSION, FLOOR and digest of the firmware image a new device carries in slot A (R469; log entry 10). -/
opaque fwVersion : Nat
@[inherit_doc fwVersion] opaque fwFloor : Nat
@[inherit_doc fwVersion] opaque fwDigest : Bytes

end Sys2Proof.Config
end

