-- ==== Sys2Proof/Machine/State.lean ====
section
/-!
DEFINITION. The state of the EH-7260 as plain data, block by block, and the state after reset.
Every field's docstring names the rule of the spec that gives it and its reset value.
-/

namespace Sys2Proof.Machine

/-! ### Common shapes -/

/-- A sparse table from numbers to values: keys strictly rising, no entry equal to the default of the table. The byte memories keep that form (Laws/Memory.lean). -/
abbrev Tab (α : Type) := List (Nat × α)

/-- The operating modes (R37, "Modes and transitions"). -/
inductive Mode where
  /-- GUARD: guard die alone on the backup node. -/
  | guard
  /-- START: the start sequence runs. -/
  | start
  /-- ACTIVE: serving. -/
  | active
  /-- STANDBY: bound, no latch. -/
  | standby
  /-- LOCKED: after a LOCK response. -/
  | locked
  /-- RECOVERY: after an ERASE response or invalid keep RAM. -/
  | recovery
deriving DecidableEq, Repr

/-- Why the model stops: the one fault a block command can end in. No meaning of this model answers with it;
it is kept so that the interface has a fault type. Safe: it never hides an effect. -/
inductive Fault where
  /-- Never raised by the present meanings. Safe. -/
  | unreachable
deriving DecidableEq, Repr

/-- Refusals. -/
inductive Refusal where
  /-- A command of the table that has no meaning in the model yet; raised by the dispatch arm alone. Safe: nothing is claimed of it. -/
  | notModelled (mnemonic : String)
deriving DecidableEq, Repr

/-- What the device sends out of itself, in the order of issue (R34, R57, R422, R428, R439). -/
inductive Out where
  /-- A PCIe memory write of a function: address, bytes, relaxed-ordering and No Snoop attributes (R33, R34, R289). -/
  | write (fn addr : Nat) (data : Bytes) (relaxed noSnoop : Bool)
  /-- A PCIe memory read request of a function: address, length and No Snoop attribute (R56, R270, R289). -/
  | read (fn addr len : Nat) (noSnoop : Bool)
  /-- An MSI-X message of a function's vector: its table address and data (R58). -/
  | msix (fn vec : Nat) (addr data : Nat)
  /-- An AER internal error signalled on the PF: uncorrectable or correctable (R477). -/
  | aer (uncorrectable : Bool)
  /-- A Phitlink frame or control block leaving a port (R401, R403). -/
  | port (p : Nat) (data : Bytes)
  /-- What a port tells its neighbour as the link comes UP: the last link sequence number it has accepted and FREE of each virtual channel
  (R402, R408). -/
  | linkUp (p accepted : Nat) (free : List Nat)
  /-- A knock message leaving the LVDS path (R428). -/
  | knock (data : Bytes)
  /-- A reply or message the management target puts on I3C (R421, R422). -/
  | i3c (data : Bytes)
  /-- An in-band interrupt raised on I3C, with its mandatory data byte (R422). -/
  | ibi (mdb : Nat)
  /-- A pulse on PPS_OUT (R527). -/
  | pps
  /-- A configuration or DOE reply to the host (R33). -/
  | doe (data : Bytes)
  /-- The value a register read returns (R503). -/
  | reg (value : Nat)
deriving DecidableEq, Repr

/-! ### Time (R373, R374, R457) -/

/-- The clocks and device time. -/
structure TimeSt where
  /-- Reference clock count in units of 10 ns since the reference PLL locked (R256, R457). Reset 0; the tick counter is its hundredth. -/
  refCount : Nat
  /-- Slow clock periods counted in GUARD (R374). Reset 0. -/
  slowCount : Nat
  /-- Device time in µs, none while NOT_SET (R373), 64 bits. Reset NOT_SET. -/
  dev : Option Nat
  /-- Fraction of device time, in units of 10^-9 µs (R374). Reset 0. -/
  frac : Nat
  /-- MTR_TIME_STAT.SLEW: present slew in 0.01 ppm, signed 16 bits (MTR_TIME_STAT). Reset 0. -/
  slew : Int
  /-- Latched high word of MTR_TIME_HI (MTR_TIME_LO). Reset 0. -/
  latchHi : Nat
deriving DecidableEq, Repr

/-! ### Host interface: functions, pools, rings (R33-R67) -/

/-- Ring pair states (HIF_RING_STAT_n.STATE). -/
inductive RingState where
  | idle | running | draining | refused
deriving DecidableEq, Repr

/-- One ring pair of a function (R52-R58, R533). -/
structure Ring where
  /-- HIF_SQ_BASE_n, 64 bits, 4 KiB aligned (R533). Reset 0. -/
  sqBase : Nat
  /-- HIF_CQ_BASE_n, 64 bits, 4 KiB aligned (R533). Reset 0. -/
  cqBase : Nat
  /-- HIF_RING_CTL_n.MOD_TIME, 10 bits. Reset 0x000. -/
  modTime : Nat
  /-- HIF_RING_CTL_n.MOD_COUNT, 8 bits. Reset 0x00. -/
  modCount : Nat
  /-- HIF_RING_CTL_n.VECTOR, 3 bits. Reset 0. -/
  vector : Nat
  /-- HIF_RING_CTL_n.CQ_LOG2, 4 bits. Reset 0x6. -/
  cqLog2 : Nat
  /-- HIF_RING_CTL_n.SQ_LOG2, 4 bits. Reset 0x6. -/
  sqLog2 : Nat
  /-- HIF_RING_CTL_n.ENABLE, 1 bit. Reset 0. -/
  enable : Bool
  /-- HIF_RING_STAT_n.STATE, 2 bits. Reset 0 IDLE. -/
  st : RingState
  /-- HIF_RING_STAT_n.DB_ERRORS, 16 bits, read clears (R54, R57). Reset 0x0000. -/
  dbErrors : Nat
  /-- Recorded submission tail, 16 bits (R54, R55). Reset 0. -/
  tail : Nat
  /-- Tick of the last submission doorbell, for the stamp-tick rule of R60. Reset 0. -/
  dbTick : Nat
  /-- Tail as it stood before the first doorbell of that tick (R60). Reset 0. -/
  dbBase : Nat
  /-- Submission head: slot of the oldest fetch outstanding or next to issue (R52, R54). Reset 0. -/
  head : Nat
  /-- Fetches issued and not ended (R56). Reset 0. -/
  inFlight : Nat
  /-- A fetch failed: no fetch until the next doorbell or host region commit (R13). Reset false. -/
  fetchHold : Bool
  /-- Completion tail: slot of the next completion write (R57). Reset 0. -/
  cqTail : Nat
  /-- Consumed position: slot the driver reads next (R57). Reset 0. -/
  cqHead : Nat
  /-- Completions written and not consumed (R56). Reset 0. -/
  unconsumed : Nat
  /-- Completion slots reserved and not written (R56). Reset 0. -/
  reserved : Nat
  /-- PHASE of the next completion write (R57). Reset 1 at enable. -/
  phase : Bool
  /-- IRQ-flagged completions written since the last message (R58). Reset 0. -/
  irqCount : Nat
  /-- Tick of the first of them (R58). Reset none. -/
  irqFirst : Option Nat
deriving DecidableEq, Repr

/-- One MSI-X table entry. -/
structure MsixEntry where
  /-- Message address, 64 bits. Reset 0 (PCIe). -/
  addr : Nat
  /-- Message data, 32 bits. Reset 0 (PCIe). -/
  data : Nat
  /-- Mask bit, 1 bit. Reset 1 as PCIe defines. -/
  mask : Bool
  /-- Pending bit (R58). Reset 0. -/
  pend : Bool
deriving DecidableEq, Repr

/-- An entry of a reset report (R65). -/
structure RptEntry where
  /-- Acceptance number, which orders the entries. -/
  accNo : Nat
  /-- TAG of the descriptor. -/
  tag : Nat
  /-- 0x0901, 0x0902 or 0x0903. -/
  status : Nat
  /-- Ring pair. -/
  ring : Nat
  /-- Submission slot. -/
  slot : Nat
deriving DecidableEq, Repr

/-- A function level reset in progress (R60-R65). -/
structure FnReset where
  /-- Tick of the stamp (R60). -/
  stamp : Nat
  /-- Reference count of the stamp (R60). -/
  stampRef : Nat
  /-- START_TIME field (R65). -/
  startTime : Nat
  /-- CAUSE 1-5 (R65). -/
  cause : Nat
  /-- HIF_RPT_BASE at the stamp (R65). -/
  rptBase : Nat
  /-- RACES at the stamp (R65). -/
  races : Nat
  /-- Report entries gathered (R65). -/
  entries : List RptEntry
  /-- Meter units to add to the reset-abandoned class (R62, R65). -/
  abandoned : Nat
  /-- The drain ended by the 1,500 µs limit (R62). -/
  drained : Bool
deriving DecidableEq, Repr

/-- Reset state word of a function (HIF_FN_RESET_STATE.STATE). -/
inductive RstWord where
  | idle | resetting | done
deriving DecidableEq, Repr

/-- The shares of a function, or the free counts of the four pools (R38). -/
structure Share where
  tokens : Nat
  flows : Nat
  keys : Nat
  dispatch : Nat
deriving DecidableEq, Repr

/-- One host region of a function: base, pages, attributes (R286). -/
structure HostRegion where
  /-- PANE_HR_BASE_n, 64 bits, 4 KiB aligned. Reset 0. -/
  base : Nat
  /-- PANE_HR_PAGES_n. Reset 0. -/
  pages : Nat
  /-- PANE_HR_ATTR_n. Reset 0. -/
  attr : Nat
deriving DecidableEq, Repr

/-- The function-page and per-function state of one function. -/
structure Fn where
  /-- The four ring pairs (R36). -/
  rings : List Ring
  /-- HIF_RPT_BASE, 64 bits (R52, R65). Reset 0. -/
  rptBase : Nat
  /-- MSI-X entries: 16 for the PF, 8 for a VF (R33, R58). -/
  msix : List MsixEntry
  /-- Created by CREATE; the PF from start (R43). Reset false for a VF. -/
  created : Bool
  /-- HIF_FN_OPS, 13 bits (R70, R71). Reset 0x0800 for the PF, 0 for a VF until CREATE. -/
  ops : Nat
  /-- HIF_SVC_STATE.SWITCH_COUNT of the function, 16 bits (R37). Reset 0. -/
  switchCount : Nat
  /-- HIF_FN_RESET_STATE.STATE (R501). Reset IDLE. -/
  rstWord : RstWord
  /-- SEQ of the function's last reset report, 32 bits (R65). Reset 0. -/
  rstSeq : Nat
  /-- The reset in progress (R60). Reset none. -/
  rst : Option FnReset
  /-- Function is in D3hot (R33). Reset false. -/
  d3 : Bool
  /-- Device Control Enable Relaxed Ordering, default 1 as PCIe defines (R33). -/
  relaxed : Bool
  /-- Descriptors accepted and not completed (R46 check 7). Reset 0. -/
  held : Nat
  /-- SLM_FN_RACES, 32 bits, saturating (R258). Reset 0. -/
  races : Nat
  /-- KST_DIR_BASE, 64 bits (R119). Reset 0. -/
  dirBase : Nat
  /-- KST_DIR_CTL.DIR_SIZE, 21 bits (R119). Reset 0. -/
  dirSize : Nat
  /-- KST_MISS_CTL.MISS_THRESH, 16 bits (R119). Reset 0. -/
  missThresh : Nat
  /-- Misses of the present 1,000-tick window (R119). Reset 0. -/
  missCount : Nat
  /-- Start tick of the present window (R119). Reset 0. -/
  missStart : Nat
  /-- The threshold vector has fired in this window (R119). Reset false. -/
  missFired : Bool
  /-- HIF_PROG_BASE, 64 bits (R230). Reset 0. -/
  progBase : Nat
  /-- MTR_RCPT_COPY, 64 bits: BASE and ENABLE (R397). Reset 0. -/
  rcptCopy : Nat
  /-- SLM_HIST_WAIT_b, 177 counts of 32 bits (R265). Reset 0. -/
  histWait : Tab Nat
  /-- SLM_HIST_TOTAL_b, 177 counts of 32 bits (R265). Reset 0. -/
  histTotal : Tab Nat
  /-- Slalom pass value of each class 0-7, 48 bits (R240). Reset 0. -/
  pass : List Nat
  /-- Committed host regions 0-7 (R286). Reset none committed. -/
  regions : List HostRegion
  /-- PANE_FN_STAT.CONFLICT bits of the function (R286). Reset 0. -/
  hrConflict : Nat
  /-- Commit epoch of the function's regions (R290). Reset 0. -/
  epoch : Nat
  /-- Latched high word of a split 64-bit read: register offset and value (R503). Reset none. -/
  latchRd : Option (Nat × Nat)
  /-- Held low word of a split 64-bit write: register offset and value (R503). Reset none. -/
  heldWr : Option (Nat × Nat)
  /-- Reset report writes refused by the host regions, waiting for a commit (R292): channel, address, bytes. Reset empty. -/
  rptHeld : List (Nat × Nat × Bytes)
  /-- KST_FN_BUDGET_SLOTS.LIMIT of the function, 13 bits (R145). Reset 4. -/
  budgetLimit : Nat
  /-- Dispatch units that set the function's stride: its share when its last CREATE, RESIZE or DESTROY read DONE (R240, R264). Reset 1,024 for the PF, 0 for a VF. -/
  units : Nat
deriving DecidableEq, Repr

/-- HIF_FN_CMD in progress: the result that RESULT will read (R40). -/
structure FnCmdPend where
  /-- 1 CREATE, 2 RESIZE, 3 DESTROY, 4 RESET. -/
  op : Nat
  /-- Function it was given for. -/
  fn : Nat
  /-- RESULT when the update is done. -/
  result : Nat
deriving DecidableEq, Repr

/-- A completion released by the Gate or by admission, waiting for its write (R46, R57, R251). -/
structure Rel where
  /-- Function and ring pair. -/
  fn : Nat
  ring : Nat
  /-- The 32 bytes, exactly as they will be written (R49, R440). -/
  bytes : Bytes
  /-- FLAGS[0] of the descriptor. -/
  irq : Bool
  /-- Meter class and units the write adds (R16). -/
  mclass : Nat
  units : Nat
  /-- Token record to free, none for an immediate error completion (R235). -/
  token : Option Nat
  /-- Acceptance number, TAG and slot, for a reset report (R65). -/
  accNo : Nat
  tag : Nat
  slot : Nat
  /-- Reference count of the acceptance (R265). -/
  acceptRef : Nat
  /-- MSEQ of its METER record, whose frame the neighbour's port must accept first (R440); none without a partner. -/
  wait : Option Nat
  /-- The write was refused by the host regions and waits for a commit (R292). -/
  stuck : Bool
deriving DecidableEq, Repr

/-- An IDE stream (R33). -/
structure IdeStream where
  id : Nat
  key : Bytes
deriving DecidableEq, Repr

/-- The host interface. -/
structure Hif where
  /-- Function table: default an uncreated VF at reset values. -/
  fns : Tab Fn
  /-- Shares of every function (R38); default none. -/
  shares : Tab Share
  /-- Free units of the four pools (R38). -/
  free : Share
  /-- SR-IOV VF Enable (R33). Reset 0. -/
  vfEnable : Bool
  /-- HIF_SVC_STATE.MODE as shown; held during a switch-over (R37). Reset 1 START. -/
  svcMode : Mode
  /-- HIF_SVC_STATE.LATCHES as shown (R37). Reset 0. -/
  svcLatches : Nat
  /-- HIF_SVC_STATE.HELD (R37). Reset 0. -/
  svcHeld : Bool
  /-- HIF_FN_SEL, 11 bits. Reset 0. -/
  fnSel : Nat
  /-- HIF_FN_TOKENS, FLOWS, KEYS, DISPATCH. Reset 0. -/
  req : Share
  /-- HIF_FN_CMD_STATUS.RESULT when not BUSY, 4 bits. Reset 0. -/
  cmdResult : Nat
  /-- The function command in progress; RESULT reads 15 BUSY (R40). Reset none. -/
  cmdPend : Option FnCmdPend
  /-- Latched HIF_POOL_FREE registers (R41). Reset: the start values of R38. -/
  snapFree : Share
  /-- Latched HIF_FN_SHARE registers (R41). Reset 0. -/
  snapShare : Share
  /-- HIF_FN_RESET_LAST, 11 bits (R62). Reset 0. -/
  resetLast : Nat
  /-- Acceptance counter, which orders acceptance over the device (R47). Reset 0. -/
  accNo : Nat
  /-- Completions released and not yet written, in release order (R251). Reset empty. -/
  relq : List Rel
  /-- IDE selective streams with keys (R33). Reset none. -/
  ide : List IdeStream
  /-- Staging copies of the selected function's host regions (R286). Reset 0. -/
  hrStage : List HostRegion
  /-- Max Payload Size and Max Read Request Size of Device Control, in bytes (R33, R274). Reset 128 and 512, as PCIe defines. -/
  mps : Nat
  mrrs : Nat
  /-- Configuration space answers: from the end of step 0x08 of a start (R504). A link-down is momentary (log entry 49). Reset false. -/
  linkUp : Bool
deriving DecidableEq, Repr

/-! ### Slalom (R235-R267) -/

/-- Token states (R237). -/
inductive TokState where
  | free | liftNb | ready | urgent | core | parked | liftWait | held | mirror | expired | released
deriving DecidableEq, Repr

/-- A token record (R236), with the descriptor and the result the device holds for it. -/
structure Token where
  /-- STATE (R237). -/
  st : TokState
  /-- FUNC. -/
  func : Nat
  /-- SLOT. -/
  slot : Nat
  /-- FLOW. -/
  flow : Nat
  /-- CLASS, present class. -/
  cls : Nat
  /-- BASE, class given by the descriptor. -/
  base : Nat
  /-- RING. -/
  ring : Nat
  /-- ORDERED. -/
  ordered : Bool
  /-- INHERIT. -/
  inherit : Bool
  /-- ACCEPT: tick of acceptance. -/
  accept : Nat
  /-- Reference count of acceptance (R265). -/
  acceptRef : Nat
  /-- EXPIRE: tick at whose edge the deadline expires. -/
  expire : Option Nat
  /-- DUE: tick at which the Lift releases the token. -/
  due : Option Nat
  /-- SEQ: flow sequence number, 0 unordered. -/
  seq : Nat
  /-- AGE in ticks. -/
  age : Nat
  /-- CAGE in granules. -/
  cage : Nat
  /-- AFF with AFF_VALID. -/
  aff : Option Nat
  /-- PCL. -/
  pcl : Nat
  /-- BOUND. -/
  bound : Bool
  /-- MIRROR: state-changing command. -/
  mirror : Bool
  /-- The 64 descriptor bytes (R44). -/
  desc : Bytes
  /-- Acceptance number (R47). -/
  accNo : Nat
  /-- Order of entry into the token's present list (R241, R244). -/
  entry : Nat
  /-- The token has been dispatched at least once (R259). -/
  dispatched : Bool
  /-- Work units executed before a park or an expiry (R82). -/
  work : Nat
  /-- Result: STATUS, MCLASS, RES_LEN, units (R49). -/
  status : Nat
  mclass : Nat
  resLen : Nat
  units : Nat
  /-- MSEQ of the STATE record whose acknowledgement it waits for (R250, R441). -/
  mseq : Option Nat
  /-- SEQ of its security record, whose VALID write it waits for (R381). -/
  recNo : Option Nat
  /-- Replayed by a taker (R444). -/
  replayed : Bool
  /-- The list it was last dispatched from was the urgent list (R239). -/
  urg : Bool
  /-- Reference counts in which a memory read of the command was outstanding at the host, which its latency leaves out (R17, R265). -/
  hostWait : Nat
deriving DecidableEq, Repr

/-- One entry of the flow table (R246). -/
structure Flow where
  /-- Next number to give, 32 bits. Reset 1. -/
  give : Nat
  /-- Next number to release, 32 bits. Reset 1. -/
  rel : Nat
deriving DecidableEq, Repr

/-- Kinds of Lift entries (R254). -/
inductive LiftKind where
  /-- A token with a not-before time: its record number. -/
  | pace (rec : Nat)
  /-- A token waiting for random output: its record number. -/
  | ent (rec : Nat)
  /-- A mover retry: its channel. -/
  | retry (ch : Nat)
deriving DecidableEq, Repr

/-- An entry of the Lift (R252). -/
structure LiftEntry where
  kind : LiftKind
  /-- Due tick. -/
  due : Nat
  /-- Tick in which the insertion completed. -/
  ins : Nat
deriving DecidableEq, Repr

/-- Sleep states of a cluster (R459, R460). -/
inductive ClState where
  | asleep | waking | awake
deriving DecidableEq, Repr

/-- Slalom and the Gate. -/
structure Slm where
  /-- Token records 0-65,535 (R236); default FREE. -/
  toks : Tab Token
  /-- Flow table keyed fn × 2^18 + flow (R246); default 1, 1. -/
  flows : Tab Flow
  /-- The Lift in order of insertion (R252). Reset empty. -/
  lift : List LiftEntry
  /-- Mover channels whose retries wait for admission, oldest first (R254). Reset empty. -/
  retryWait : List Nat
  /-- Order stamp for list entry. Reset 0. -/
  entryNo : Nat
  /-- SLM_TOKEN_SEL, 16 bits. Reset 0. -/
  tokenSel : Nat
  /-- SLM_TOKEN_DATA_0-7 as copied (32 bytes). Reset 0. -/
  tokenData : Bytes
  /-- SLM_AGE_n.THRESH, n = 0-6, 16 bits each. Reset 0x007D. -/
  ageThresh : List Nat
  /-- SLM_URGENT.THRESH, 16 bits. Reset 0x0271. -/
  urgThresh : Nat
  /-- SLM_LIFT_QUOTA.PACE, 9 bits. Reset 0x080. -/
  qPace : Nat
  /-- SLM_LIFT_QUOTA.ENT, 9 bits. Reset 0x040. -/
  qEnt : Nat
  /-- SLM_LIFT_QUOTA.RETRY, 9 bits. Reset 0x040. -/
  qRetry : Nat
  /-- SLM_LIFT_STAT.CONFLICT, 1 bit. Reset 0. -/
  conflict : Bool
  /-- SLM_LIFT_STAT.LATE, 16 bits, saturating. Reset 0. -/
  late : Nat
  /-- SLM_WAKE_CTL.MIN_AWAKE, 4 bits. Reset 0x2. -/
  minAwake : Nat
  /-- SLM_WAKE_CTL.MARGIN, 12 bits. Reset 0x032. -/
  margin : Nat
  /-- SLM_WAKE_CTL.SLEEP_IDLE, 12 bits. Reset 0x064. -/
  sleepIdle : Nat
  /-- Cluster states behind SLM_CLUSTER_STAT (R460). Reset asleep, so AWAKE and WAKING read 0. -/
  clusters : List ClState
  /-- Tick since which each cluster has been idle (R263). Reset none. -/
  idleSince : List (Option Nat)
  /-- SLM_FORCED_WAKES, 32 bits. Reset 0. -/
  forcedWakes : Nat
  /-- Affinity table: cluster for key fn × 2^32 + KEY0 INDEX, oldest first, at most 4,096 (R241). Reset empty. -/
  affinity : List (Nat × Nat)
  /-- Last scan tick (R242). Reset 0. -/
  lastScan : Nat
  /-- Tick of the last wake scan (R262). Reset 0. -/
  lastWake : Nat
  /-- For each physical core, the last 1,024 ticks as bits, newest in bit 0: set while it held a command (R267). Reset 0. -/
  load : Tab Nat
  /-- Token records whose function has been reset, until its report entry is written (R235): record number and record. Reset empty. -/
  dead : List (Nat × Token)
deriving DecidableEq, Repr

/-! ### Event recorder (R377-R391) -/

/-- A record given its SEQ, DELTA and chain value, and not yet present in MRAM (R378, R386). -/
structure HeldRec where
  /-- SEQ. -/
  seq : Nat
  /-- Bytes +0x00 to +0x3B. -/
  bytes : Bytes
  /-- Chain value after the record (R380). -/
  chain : Bytes
  /-- Append time. -/
  time : Nat
deriving DecidableEq, Repr

/-- A record waiting in the keep RAM record buffer (R29, R385, R391). -/
structure BufRec where
  /-- Catalogue code. -/
  code : Nat
  /-- FUNC. -/
  func : Nat
  /-- Header flags [2] TEST and [0] MIRRORED. -/
  flags : Nat
  /-- BODY bytes. -/
  body : Bytes
  /-- Stamp: device time, or ticks since start with bit 63. -/
  stamp : Nat
deriving DecidableEq, Repr

/-- The event recorder on the guard die. -/
structure Aud where
  /-- MRAM records as stored, 64 bytes each (R377); default never written. -/
  mram : Tab Bytes
  /-- LOG_NO of the present log, 16 bits. Reset: kept; 0 on a new device. -/
  logNo : Nat
  /-- Append index: SEQ of the next record (R391). Reset: kept; 0 on a new device. -/
  next : Nat
  /-- Records present (VALID written) in the present log. Reset: from MRAM; 0 on a new device. -/
  present : Nat
  /-- Chain value after the last record given a SEQ (R380). Reset 32 zero bytes on a new device. -/
  chain : Bytes
  /-- AUD_CHAIN: chain value after the last present record (R380). Reset 32 zero bytes on a new device. -/
  head : Bytes
  /-- Append time of the last record (R379). Reset 0. -/
  lastTime : Nat
  /-- Append time of record 0 of the present log, from which an export counts before the first anchor (R379, R388). Reset: kept; 0. -/
  baseTime : Nat
  /-- Records whose body is written and whose VALID is not, oldest first (R378). Reset empty. -/
  held : List HeldRec
  /-- Shutter staging, at most 4,096 (R386). Reset empty. -/
  staging : List HeldRec
  /-- Shutter closed at this reference count (R386). Reset open. -/
  shutter : Option Nat
  /-- AUD_PEER: the partner's last acknowledged head (R381). Reset 32 zero bytes. -/
  peer : Bytes
  /-- AUD_STAT2.CRC_ERRORS, 12 bits. Reset 0. -/
  crcErrors : Nat
  /-- The first record after a start is a TIME_ANCHOR (R379). Reset true. -/
  anchorDue : Bool
  /-- LOG_WARN appended in this log (R383). Reset false. -/
  warned : Bool
  /-- LOG_FULL appended in this log (R384). Reset false. -/
  fullSaid : Bool
  /-- Keep RAM record buffer, at most 64 entries, in stamp order (R29). Reset: kept; empty. -/
  buf : List BufRec
  /-- RECBUF_OVF, 8 bits, saturating (R29). Reset: kept; 0. -/
  ovf : Nat
  /-- Reference count of the last HEAD record sent to the partner (R438). Reset 0. -/
  headSent : Nat
deriving DecidableEq, Repr

/-! ### Metering (R392-R398) -/

/-- A meter addition on its way over the sill link (R392, R454). -/
structure MeterAdd where
  fn : Nat
  cls : Nat
  units : Nat
deriving DecidableEq, Repr

/-- Receipt chain state of a function (R395-R397). -/
structure RcptState where
  /-- SEQ of the last receipt issued, 64 bits. Reset: kept; 0. -/
  seq : Nat
  /-- MINUTE_LAST of that receipt, 64 bits. Reset: kept; 0. -/
  minute : Nat
  /-- Totals of that receipt, 16. Reset 0. -/
  totals : List Nat
  /-- Digest of that receipt (PREV of the next). Reset 32 zero bytes. -/
  digest : Bytes
  /-- FLAGS gathered for the next receipt. Reset 0. -/
  flags : Nat
  /-- First minute not yet covered by a receipt, none before the first edge. Reset none. -/
  since : Option Nat
deriving DecidableEq, Repr

/-- A receipt built and waiting for its signature, the partner, or its ring write (R396, R397). -/
structure Rcpt where
  fn : Nat
  /-- Bytes +0x00 to +0x157. -/
  body : Bytes
  /-- Signature, none until signed. -/
  sig : Option Bytes
  /-- MSEQ of its mirror record, none until sent (R397). -/
  mseq : Option Nat
deriving DecidableEq, Repr

/-- The meters and the receipt ring. -/
structure Mtr where
  /-- MTR_FN_TOTAL: meters keyed 16 × function + class, 64 bits, kept in keep RAM (R392). Reset 0 on a new device. -/
  total : Tab Nat
  /-- Additions crossing the sill link, oldest first (R392). Reset empty. -/
  adds : List MeterAdd
  /-- Receipt chain state by function (R395). -/
  rcpt : Tab RcptState
  /-- Receipts built and not yet written, oldest first. Reset empty. -/
  waiting : List Rcpt
  /-- Functions whose final receipt is due after DESTROY (R395). Reset empty. -/
  final : List Nat
  /-- Minute of the last edge latched. Reset none. -/
  lastMinute : Option Nat
  /-- MTR_RCPT_BASE, 64 bits. Reset 0. -/
  base : Nat
  /-- MTR_RCPT_CTL.LOG2, 4 bits. Reset 0xB. -/
  log2 : Nat
  /-- MTR_RCPT_CTL.ENABLE. Reset 0. -/
  enable : Bool
  /-- Consumed position (MTR_RCPT_HEAD), 12 bits. Reset 0. -/
  head : Nat
  /-- MTR_RCPT_STAT.TAIL, 12 bits. Reset 0x000. -/
  tail : Nat
  /-- Slots written and not consumed. Reset 0. -/
  used : Nat
  /-- MTR_RCPT_STAT.DEFERRED, 16 bits. Reset 0x0000. -/
  deferred : Nat
  /-- MTR_TIME_STAT.DISCIPLINED. Reset 0. -/
  disciplined : Bool
  /-- The meters were started again at 0: the first receipt of each function sets LEDGER_RESET (R398). Reset: kept; false. -/
  restarted : Bool
deriving DecidableEq, Repr

/-! ### Integrity, faults, injection (R472-R486) -/

/-- An error report of 32 bytes (R477). -/
structure ErrReport where
  time : Nat
  det : Nat
  sev : Nat
  action : Nat
  unit : Nat
  func : Nat
  addr : Nat
  syndrome : Nat
  count : Nat
  test : Bool
deriving DecidableEq, Repr

/-- The armed injection (R483). -/
structure Inj where
  point : Nat
  unit : Nat
  kind : Nat
  left : Nat
  full : Bool
deriving DecidableEq, Repr

/-- The debug and fault block. -/
structure Dbg where
  /-- Error report queue, at most 64 (R477). Reset empty. -/
  errs : List ErrReport
  /-- DBG_ERR_STAT.LOST, 16 bits. Reset 0x0000. -/
  lost : Nat
  /-- DBG_ERR_DATA_0-7, 32 bytes. Reset 0. -/
  data : Bytes
  /-- DBG_ERR_CNT_d.CORR by detector, 16 bits. Reset 0. -/
  corr : Tab Nat
  /-- DBG_ERR_CNT_d.UNCORR by detector, 16 bits. Reset 0. -/
  uncorr : Tab Nat
  /-- Corrected detections of the present second by detector (R477). Reset 0. -/
  secCorr : Tab Nat
  /-- Interconnect links fenced, whose number is XBAR_FENCED (R479; log entry 54). Reset none. -/
  xbarFenced : List Nat
  /-- DBG_FENCE_MISC.SILL_SPARES, 3 bits. Reset 4. -/
  sillSpares : Nat
  /-- Sill link lanes remapped, numbered 64 × direction + lane (R480). Reset none. -/
  sillRemapped : List Nat
  /-- The armed injection behind DBG_INJ_STAT (R483). Reset none. -/
  inj : Option Inj
  /-- A PAIR fault was met: service is ended until main power is lost (R476). Reset false. -/
  pairFault : Bool
  /-- Keep RAM words found uncorrectable and not restored, each with the meter it holds plus 1, or 0 (R481). Reset none. -/
  failedWords : List (Nat × Nat)
  /-- Reference count plus 1 of the last stack parity detection of each physical core (R475). Reset none: 0. -/
  parityAt : Tab Nat
  /-- Physical cores that a run-time detection has condemned, fenced in the next reference period (R475, R482). Reset empty. -/
  fenceDue : List Nat
  /-- Device second whose corrected counts were last recorded (R477). Reset 0. -/
  lastSecond : Nat
deriving DecidableEq, Repr

/-! ### Partner pairs (R423-R450) -/

/-- A mirror record retained until acknowledged (R439). -/
structure MirRec where
  mseq : Nat
  bytes : Bytes
  /-- Times resent (R441). -/
  resent : Nat
deriving DecidableEq, Repr

/-- A journal entry held for the partner's load (R438, R444). -/
structure Journal where
  mseq : Nat
  load : Nat
  fn : Nat
  ring : Nat
  ordered : Bool
  mirror : Bool
  slot : Nat
  accept : Nat
  seq : Nat
  digest : Bytes
  /-- The STATE record of the command was applied (R444). -/
  applied : Bool
  /-- Its descriptor read was issued at a takeover (R443). -/
  asked : Bool
deriving DecidableEq, Repr

/-- A METER record of the partner listed for completion repair (R443). -/
structure MetRec where
  mseq : Nat
  load : Nat
  fn : Nat
  ring : Nat
  cqSlot : Nat
  cpl : Bytes
  /-- Its completion slot was asked for at a takeover (R443). -/
  asked : Bool
deriving DecidableEq, Repr

/-- Ring configuration the partner mirrored (R438 RING). -/
structure RingMirror where
  fn : Nat
  ring : Nat
  sqBase : Nat
  cqBase : Nat
  sqLog2 : Nat
  cqLog2 : Nat
  rptBase : Nat
  enabled : Bool
  /-- Slot and PHASE of the next completion, from the METER records (R440). -/
  cqTail : Nat
  phase : Bool
deriving DecidableEq, Repr

/-- A function reset the partner mirrored (R64). -/
structure RstMirror where
  fn : Nat
  startTime : Nat
  cause : Nat
  /-- HIF_RPT_BASE as the partner mirrored it (R64, R65). -/
  rptBase : Nat
  /-- Reference count of its arrival. -/
  since : Nat
deriving DecidableEq, Repr

/-- Phases of a takeover (R443). -/
inductive TakePhase where
  | none | slots | replay
deriving DecidableEq, Repr

/-- The lease and takeover state of one latch (R433-R443). -/
structure Latch where
  /-- This device holds the latch (PAR_LEASE_l.HOLDER). Reset 0. -/
  holder : Bool
  /-- The latch is fenced here since its last take (R437). Reset false. -/
  fenced : Bool
  /-- Lease end E of a holder, in reference counts (R433). Reset 0. -/
  leaseEnd : Nat
  /-- A standby's view V, in reference counts (R433). Reset 0. -/
  view : Nat
  /-- LREQ of the last RENEW, 32 bits (R429). Reset 0. -/
  lreq : Nat
  /-- Send time of each unanswered RENEW: LREQ and reference count (R433). Reset none. -/
  sent : List (Nat × Nat)
  /-- This device is current for the latch (PAR_STAT.SELF_CUR). Reset 0. -/
  selfCur : Bool
  /-- The partner is marked current (PAR_STAT.P_CUR). Reset 0. -/
  pCur : Bool
  /-- The partner's knocks echoed a cleared PCUR (R435). Reset false. -/
  echoed : Bool
  /-- The partner holds the latch by its last valid knock. Reset false. -/
  pHold : Bool
  /-- Takeover phase (R443). Reset none. -/
  take : TakePhase
  /-- Descriptor fetch for the load is stopped for a handover (R446). Reset false. -/
  stopped : Bool
  /-- Final MSEQ named by the partner's HANDOVER record (R446). Reset none. -/
  handMseq : Option Nat
  /-- A RELEASE knock for the latch arrived (R446). Reset false. -/
  released : Bool
  /-- MSEQ of the last RESYNC record of the snapshot sent to the partner for this latch (R448). Reset none. -/
  resync : Option Nat
  /-- The latch was taken from a device that is lost, not handed over by it (R443 step 5). Reset false. -/
  lost : Bool
deriving DecidableEq, Repr

/-- One knock path (R428-R431). -/
structure Path where
  /-- Last valid SEQ seen under the present key, 32 bits (R430). Reset 0. -/
  lastSeq : Nat
  /-- Last valid SEQ seen of messages with KEYED = 0 since the partner's last unit fault, 32 bits (R429, R430; log entry 25). Reset 0. -/
  openSeq : Nat
  /-- Reference count of the last valid message (R430). Reset 0. -/
  lastAt : Nat
  /-- The path delivers (PAR_STAT.PATH). Reset 0. -/
  ok : Bool
  /-- PAR_PATH_FAULTS count, 16 bits. Reset 0. -/
  faults : Nat
  /-- Reference count of the last message seen leaving this device's transmitter (R431). Reset 0. -/
  txAt : Nat
  /-- The transmit check passes (R431). Reset true. -/
  txOk : Bool
  /-- Invalid messages counted (R430). Reset 0. -/
  invalid : Nat
deriving DecidableEq, Repr

/-- The handover in progress (R446). -/
structure Handover where
  latches : Nat
  /-- Reference count of GO. -/
  start : Nat
  /-- Reference count of the RELEASE knocks, none before DRAIN. -/
  released : Option Nat
deriving DecidableEq, Repr

/-- Partner-pair logic. -/
structure Par where
  /-- PAR_CTL.BOUND, kept in keep RAM (R423). Reset: kept; 0. -/
  bound : Bool
  /-- PARTNER_ID, 16 bytes, kept (R423). Reset: kept; 0. -/
  partnerId : Bytes
  /-- PARTNER_PK, 64 bytes, kept (R423). Reset: kept; 0. -/
  partnerPk : Bytes
  /-- ADDR, 12 bits, kept (R423). Reset: kept; 0. -/
  addr : Nat
  /-- HOME of the PAIR_BIND, kept (R423). Reset: kept; 0. -/
  bindHome : Nat
  /-- PAR_CTL.HOME: home latch in force (R424). Reset: kept; 0. -/
  home : Nat
  /-- R424 has been decided since the bind, start or rejoin. Reset false. -/
  homeChecked : Bool
  /-- PAR_CTL.ALONE_WAIT in ms, 8 bits. Reset 0x64. -/
  aloneWait : Nat
  /-- PAR_CTL.MIRROR_TMO in 10 µs, 8 bits. Reset 0x0A. -/
  mirrorTmo : Nat
  /-- Pair transport key, zeroized by ERASE (R427). Reset none. -/
  key : Option Bytes
  /-- The key before it, under which records already retained are sealed (R427, R442; log entry 25). Reset none. -/
  keyPrev : Option Bytes
  /-- Key generation, 32 bits (R429). Reset 0. -/
  keyGen : Nat
  /-- Knocks sent under the key (R427). Reset 0. -/
  keyUses : Nat
  /-- Knock SEQ, one count for both paths, 32 bits (R429; log entry 25). Reset 1. -/
  seq : Nat
  /-- The partner's last valid message had KEYED = 0: it holds no pair transport key (R427, R429). Reset false. -/
  pOpen : Bool
  /-- The LVDS and fabric paths. -/
  lvds : Path
  fab : Path
  /-- Latches 0 and 1. -/
  l0 : Latch
  l1 : Latch
  /-- PAR_STAT.UNIT_FAULT (R430). Reset 0. -/
  unitFault : Bool
  /-- Partner eligible by its last valid knock (PAR_STAT.P_ELIG). Reset 0. -/
  pElig : Bool
  /-- Partner's MODE by its last valid knock. Reset 0. -/
  pMode : Nat
  /-- Partner's LOG_FULL (R442). Reset 0. -/
  pLogFull : Bool
  /-- Partner's HOME by its last valid knock. Reset 0. -/
  pHome : Nat
  /-- Partner's MFMT (R447). Reset 0. -/
  pMfmt : Nat
  /-- Partner's CONFIRM (R443). Reset 0. -/
  pConfirm : Nat
  /-- Any knock has arrived since the start (R436). Reset none: reference count of the last. -/
  lastAny : Option Nat
  /-- Reference count since which R436 waits. Reset 0. -/
  aloneSince : Nat
  /-- Standby self-test fault without a spare (R449). Reset false. -/
  testFault : Bool
  /-- The last 16 tick differences (R432). Reset empty. -/
  offsets : List Int
  /-- PAR_TICK_OFFSET, 32 bits, signed (R432). Reset 0. -/
  tickOffset : Int
  /-- Next timers: reference counts of the last KNOCK and RENEW sent. Reset 0. -/
  knockAt : Nat
  renewAt : Nat
  /-- PAR_HANDOVER.LATCHES, 2 bits. Reset 0. -/
  hoLatches : Nat
  /-- PAR_HANDOVER.DRAIN, 16 bits. Reset 0x00C8. -/
  drain : Nat
  /-- PAR_HANDOVER_STAT.RESULT, 4 bits. Reset 0. -/
  hoResult : Nat
  /-- Handover in progress; RESULT reads BUSY. Reset none. -/
  handover : Option Handover
  /-- PAR_LOAD_MAP_w: VFs in load 1 (R425). Reset none. -/
  load1 : List Nat
  /-- Mirror stream sent: next MSEQ (R438). Reset 1. -/
  txNext : Nat
  /-- Stream records waiting to be framed by channel 63: MSEQ and remaining bytes (R269, R439). Reset empty. -/
  txq : List (Nat × Bytes)
  /-- Highest MSEQ whose frame the neighbour's port has accepted (R440). Reset 0. -/
  accepted : Nat
  /-- Frame count of the stream, for the nonce (R439). Reset 0. -/
  txFrames : Nat
  /-- Records not acknowledged (R439). Reset empty. -/
  retained : List MirRec
  /-- Highest MSEQ acknowledged (R441). Reset 0. -/
  acked : Nat
  /-- Reference count of the last acknowledgement progress (R439). Reset 0. -/
  progressAt : Nat
  /-- PAR_MIRROR_STAT.RESENDS, 8 bits. Reset 0. -/
  resends : Nat
  /-- PAR_MIRROR_STAT.MAX_ACK in µs, 8 bits. Reset 0. -/
  maxAck : Nat
  /-- Send reference counts of records waiting for an acknowledgement. Reset empty. -/
  sentAt : List (Nat × Nat)
  /-- Highest MSEQ whose completion write is confirmed (R440). Reset 0. -/
  confirm : Nat
  /-- Highest MSEQ of the partner's stream applied (R439). Reset 0. -/
  rxApplied : Nat
  /-- Later records held for a gap (R439). Reset empty. -/
  rxHeld : List (Nat × Bytes)
  /-- Frame count expected next of the partner's stream (R439). Reset 0. -/
  rxFrames : Nat
  /-- Bytes of an incomplete record at the end of the last frame. Reset empty. -/
  rxPart : Bytes
  /-- Journal of the partner's accepted, unretired descriptors (R438). Reset empty. -/
  journal : List Journal
  /-- METER records above the partner's CONFIRM (R443). Reset empty. -/
  meters : List MetRec
  /-- Rings the partner mirrored (R438). Reset empty. -/
  ringMir : List RingMirror
  /-- Function resets the partner mirrored (R64). Reset empty. -/
  rstMir : List RstMirror
  /-- Report bases the partner mirrored, by function (R64, R438). Reset empty. -/
  rptMir : Tab Nat
  /-- Receipts held for the partner, each with the ring slot it goes to (R397). Reset empty. -/
  rcptMir : List (Nat × Bytes)
  /-- Reference count of the last mirror frame from the partner (R434). Reset 0. -/
  mirrorAt : Nat
  /-- Snapshot segments of a RESYNC received (R448). Reset empty. -/
  snapshot : Bytes
  /-- A mirror fault was met; the partner has echoed it (R441). Reset false. -/
  mfault : Bool
  mfaultDone : Bool
  /-- Decapsulation key of a pair key exchange under way (R427). Reset none. -/
  kemDk : Option Bytes
  /-- A rejoin package sent and not acknowledged: its address, bytes, and reference count of the last sending (R370). Reset none. -/
  rejoinTx : Option (Nat × Bytes × Nat)
  /-- Entries replayed and REPLAY_APPLIED of the present takeover (TAKEOVER record). Reset 0. -/
  replayed : Nat
  replayApplied : Nat
deriving DecidableEq, Repr

/-! ### Power and start (R451-R471, R514-R527) -/

/-- A boot ledger entry (R471). -/
structure Ledger where
  /-- Outcome in this start, 0-7. -/
  last : Nat
  /-- Outcome in the previous start. -/
  prev : Nat
  /-- FAILS, 8 bits, saturating. -/
  fails : Nat
deriving DecidableEq, Repr

/-- A firmware slot of the boot flash (R469). -/
structure FwSlot where
  /-- A signed image is present. -/
  present : Bool
  version : Nat
  floor : Nat
  /-- Digest of the image named in the START record. -/
  digest : Bytes
deriving DecidableEq, Repr

/-- Power domains, start sequence and boot flash. -/
structure Pwr where
  /-- Operating mode. Reset START. -/
  mode : Mode
  /-- Main power present (R451). Reset true. -/
  main : Bool
  /-- Every main supply inside its window (R451). Reset true. -/
  supplies : Bool
  /-- PWRFAIL_N asserted since this reference or slow count (R454). Reset none. -/
  pwrfail : Option Nat
  /-- Reference count of the deassertion whose 1 ms wait runs (R451). Reset none. -/
  okSince : Option Nat
  /-- Backup node present (R452). Reset true. -/
  backup : Bool
  /-- Secret and ledger half valid (R455). Reset true. -/
  secretOk : Bool
  ledgerOk : Bool
  /-- A start found keep RAM invalid in DEPLOYED, RETURNED or RETIRED, and no rejoin has ended since: starts end in RECOVERY (R371, R456, R463;
  log entry 53). Reset false. -/
  keepBad : Bool
  /-- PWR_STAT.STEP, 8 bits. Reset 0x01. -/
  step : Nat
  /-- PWR_STAT.HELD. Reset 0. -/
  held : Bool
  /-- PWR_STAT.SLOT. Reset 0. -/
  slot : Nat
  /-- PWR_STAT.KEEP_FORMATTED. Reset 0. -/
  formatted : Bool
  /-- PWR_START_COUNT, 32 bits, kept. Reset: kept; 1 for the start in progress. -/
  startCount : Nat
  /-- PWR_FW_VERSION, 32 bits. Reset: from the image. -/
  fwVersion : Nat
  /-- FLOOR of the running image (R470). Reset 0. -/
  fwFloor : Nat
  /-- Boot ledger, keyed 256 × STEP + UNIT (R471), kept. Default NOT_RUN. -/
  ledger : Tab Ledger
  /-- PWR_LEDGER_SEL.INDEX, 8 bits. Reset 0. -/
  ledgerSel : Nat
  /-- PWR_LEDGER_CTL.RETEST, kept. Reset 0. -/
  retest : Bool
  /-- Mandatory step whose first attempt failed in this start (R468). Reset none. -/
  retried : List Nat
  /-- PWR_FLASH_PTR.BASE, 64 bits. Reset 0. -/
  flashPtr : Nat
  /-- PWR_FLASH_STAT.RESULT, 4 bits. Reset 0. -/
  flashResult : Nat
  /-- Slot a flash write is running for (R470). Reset none. -/
  flashBusy : Option Nat
  /-- The two firmware slots of the boot flash (R469). -/
  slotA : FwSlot
  slotB : FwSlot
  /-- PWR_GPIO_CTL.CONFLICT. Reset 0. -/
  gpioConflict : Bool
  /-- PWR_GPIO_CTL.PPS_EN. Reset 0. -/
  ppsEn : Bool
  /-- PWR_GPIO_CTL.SVC_EN. Reset 0. -/
  svcEn : Bool
  /-- PPS_OUT high until this reference count (R527). Reset none. -/
  ppsUntil : Option Nat
  /-- Last whole second pulsed. Reset none. -/
  ppsSecond : Option Nat
  /-- Reference count since which CRES is below 2.4 V (R524). Reset none. -/
  cresLow : Option Nat
  /-- A KIND 12 report was sent for the present low CRES (R524). Reset false. -/
  cresSaid : Bool
  /-- Reference count of the last periodic health report (R450). Reset 0. -/
  healthAt : Nat
  /-- Reference count of the last held-start report (R468). Reset 0. -/
  heldAt : Nat
  /-- Reference count of the last keep RAM scrub (R481). Reset 0. -/
  scrubAt : Nat
  /-- Hash lanes asleep, bit map (R461). Reset 0. -/
  hashAsleep : Nat
deriving DecidableEq, Repr

/-! ### Movers and panes (R268-R293) -/

/-- A channel descriptor of 32 bytes, parsed (R272). -/
structure MovDesc where
  src : Nat
  dst : Nat
  len : Nat
  srcSp : Nat
  srcW : Nat
  dstSp : Nat
  dstW : Nat
  burst : Nat
  irq : Bool
  func : Nat
  /-- Any reserved field is nonzero. -/
  bad : Bool
  /-- Core and request tag of a mover-port request (R215), none for a queued descriptor. -/
  port : Option (Nat × Nat)
  /-- Word offset of STAT in shared scratch, none for a mover-port request. -/
  statAt : Option Nat
  /-- Host pieces of an aperture range, translated at the ISSUE (R197, R215); none for a plain range. -/
  srcP : List (Nat × Nat)
  dstP : List (Nat × Nat)
  /-- A function reset's stamp dropped the host writes of this waiting mover-port request (R62, R279). -/
  void : Bool
deriving DecidableEq, Repr

/-- A mover channel (R271-R281). -/
structure Chan where
  /-- MOV_CH_QBASE_n: queue offset in shared scratch, bits 23:6. Reset 0. -/
  qbase : Nat
  /-- MOV_CH_QCTL_n.QLOG2, 4 bits. Reset 0x4. -/
  qlog2 : Nat
  /-- Queue head. Reset 0. -/
  head : Nat
  /-- MOV_CH_TAIL_n, 12 bits, write only. Reset 0. -/
  tail : Nat
  /-- MOV_CH_STAT_n.CODE. Reset 14 IDLE. -/
  code : Nat
  /-- MOV_CH_STAT_n.RETRIES. Reset 0. -/
  retries : Nat
  /-- MOV_CH_STAT_n.RESIDUE. Reset 0. -/
  residue : Nat
  /-- Mover-port requests of cores waiting for the channel (R215). Reset empty. -/
  reqs : List MovDesc
  /-- The descriptor running. Reset none. -/
  cur : Option MovDesc
  /-- A source beat is outstanding (R275). Reset false. -/
  asked : Bool
  /-- Bursts of the present transfer completed (R275). Reset 0. -/
  bursts : Nat
  /-- Bytes read of the present transfer. Reset 0. -/
  got : Nat
  /-- Bytes of the present transfer written or skipped. Reset 0. -/
  put : Nat
  /-- The holding register: bytes read and not written, at most 512 (R275). Reset empty. -/
  hold : Bytes
  /-- A retry waits in the Lift or for admission to it (R277). Reset false. -/
  retryWait : Bool
  /-- ABORT requested and not written back (R278). Reset false. -/
  abort : Bool
  /-- Halted after BUS_ERROR or another failure, until RESUME (R277, R279). Reset false. -/
  halted : Bool
  /-- The transfer's remaining host writes are dropped (R279, R224). Reset false. -/
  dropped : Bool
  /-- A mirror burst of channel 63: stream bytes and the highest MSEQ that ends in them (R269, R439). Reset none. -/
  mir : Option (Bytes × Option Nat)
  /-- Port whose credit is reserved for that burst (R280). Reset none. -/
  cred : Option Nat
  /-- The port went down after the reservation (R281). Reset false. -/
  linkDown : Bool
  /-- STAT offsets of queued descriptors whose host writes a function reset's stamp has dropped (R62, R279). Reset empty. -/
  voids : List Nat
  /-- The descriptor that a hardware owner has placed on the channel: a key fetch into KEYSTORE, or a mirror burst into PORT (R271, R272). Reset none. -/
  hw : Option MovDesc
  /-- The miss that the key fetch in `hw` serves, none for a mirror burst. Reset none. -/
  hwMiss : Option Nat
  /-- Key fetches queued on the channel, oldest first: the miss, and the bulk queue's tail when it was queued (R120, R535). Reset empty. -/
  keyq : List (Nat × Nat)
deriving DecidableEq, Repr

/-- Shadow states of a checker (PANE_STATE_m.SHADOW). -/
inductive Shadow where
  | empty | loading | ready | refused
deriving DecidableEq, Repr

/-- The loaded rules of one pane: the function and its host regions at the load (R285). -/
structure Pane where
  func : Nat
  regions : List HostRegion
  epoch : Nat
deriving DecidableEq, Repr

/-- An access checker (R282, R290). -/
structure Checker where
  /-- Pane A and pane B. Reset empty, FUNC 0x7FF. -/
  paneA : Pane
  paneB : Pane
  /-- PANE_STATE_m.ACTIVE: pane B active. Reset 0. -/
  activeB : Bool
  /-- PANE_STATE_m.SHADOW. Reset EMPTY. -/
  shadow : Shadow
  /-- PANE_STATE_m.OLD_COUNT, 7 bits. Reset 0. -/
  oldCount : Nat
deriving DecidableEq, Repr

/-- A violation report of 32 bytes (R293). -/
structure VioReport where
  addr : Nat
  time : Nat
  kind : Nat
  master : Nat
  region : Nat
  cause : Nat
  func : Nat
  paneB : Bool
  space : Nat
  len : Nat
  offset : Nat
deriving DecidableEq, Repr

/-- Movers, checkers and violation reports. -/
structure Mov where
  /-- Channels 0-63; default a channel at reset. -/
  chans : Tab Chan
  /-- MOV_RETRY.COUNT, 3 bits. Reset 0b011. -/
  retryCount : Nat
  /-- MOV_BULK_MAP.CONFLICT. Reset 0. -/
  conflict : Bool
  /-- MOV_BULK_MAP.DED, 16 bits. Reset 0x0000. -/
  ded : Nat
  /-- Checkers 0-207 (cores 0-143, channels 144-207); default at reset. -/
  checkers : Tab Checker
  /-- PANE_FN_STAT.CONFLICT. Reset 0. -/
  paneConflict : Bool
  /-- Violation queue, at most 64 (R293). Reset empty. -/
  vios : List VioReport
  /-- PANE_VIO_STAT.LOST, 16 bits. Reset 0. -/
  vioLost : Nat
  /-- PANE_VIO_DATA_0-7, 32 bytes. Reset 0. -/
  vioData : Bytes
  /-- Shared scratch, 16 MiB, by byte offset; default 0 (R196). -/
  shared : Tab Byte
deriving DecidableEq, Repr

/-! ### Tamper monitors (R318-R341) -/

/-- States of a detector (R319). -/
inductive Det where
  | safe | margin | alarm
deriving DecidableEq, Repr

/-- One alarm source: a monitor's alarm, or its disagreement. -/
structure AlarmSt where
  /-- It has fired and has not re-armed (R323). Reset false. -/
  fired : Bool
  /-- Consecutive samples with both detectors SAFE (R323). Reset 0. -/
  safeRun : Nat
  /-- Clock count since which both have been SAFE, for a continuous monitor (R323). Reset none. -/
  safeSince : Option Nat
deriving DecidableEq, Repr

/-- One monitor (R318, TMP_MON_m). -/
structure Monitor where
  /-- TMP_MON_m.DET1 and DET2. Reset SAFE. -/
  det1 : Det
  det2 : Det
  /-- TMP_MON_m.DIS: a disagreement is present. Reset 0. -/
  dis : Bool
  /-- Consecutive samples in disagreement (R320). Reset 0. -/
  disRun : Nat
  /-- Clock count at which the present disagreement began, continuous monitors (R320). Reset none. -/
  disSince : Option Nat
  /-- TMP_MON_m.CLASS, kept. Reset: the default of R321. -/
  cls : Nat
  /-- TMP_MON_m.DIS_CLASS, kept. Reset 1 LOCK. -/
  disCls : Nat
  /-- TMP_MON_m.COUNT, 16 bits. Reset 0. -/
  count : Nat
  /-- The monitor's alarm and its disagreement alarm. -/
  alarm : AlarmSt
  disAlarm : AlarmSt
  /-- FULL of an injection that forced the last sample (R485). Reset none. -/
  inj : Option Bool
deriving DecidableEq, Repr

/-- The tamper block on the guard die. -/
structure Tmp where
  /-- Monitors 0-17. -/
  mons : List Monitor
  /-- LFSRs of the package mesh (12) and enclosure lines (4), 64 bits each (R324). Seeded at each start. -/
  lfsr : List Nat
  /-- TMP_STAT.LOCK_LATCH, kept. Reset: kept; 0. -/
  lock : Bool
  /-- TMP_STAT.ERASED, kept. Reset: kept; 0. -/
  erased : Bool
  /-- TMP_STAT.LOCK_CAUSE, 6 bits, kept. Reset: kept; 0x3E. -/
  cause : Nat
  /-- TMP_STAT.LOCK_SEQ, 16 bits, kept. Reset: kept; 0. -/
  lockSeq : Nat
  /-- Strongest class applied since the last unlock or rejoin (R332 APPLIED). Reset 0. -/
  applied : Nat
  /-- TMP_CHALLENGE_0-7, 32 bytes. Reset 0. -/
  challenge : Bytes
  /-- Device time noted at the challenge (R340). Reset none. -/
  chalTime : Option Nat
  /-- The draw of a new unlock challenge waits on instance 0 (R317, R340). Reset false. -/
  chalDue : Bool
  /-- TMP_UNLOCK_PTR, 64 bits. Reset 0. -/
  unlockPtr : Nat
  /-- TMP_UNLOCK_STAT.RESULT, 4 bits. Reset 0. -/
  result : Nat
  /-- An unlock runs since GO (R340). Reset false. -/
  busy : Bool
  /-- Append time at GO, for the time test of its approvals (R340, R351). Reset 0. -/
  goTime : Nat
  /-- An alarm of class LOCK or ERASE fired since GO (R340). Reset false. -/
  alarmed : Bool
  /-- LOCK and ERASE orders crossing the sill link to the service die (R329, R330). Reset none. -/
  lockOrder : Bool
  eraseOrder : Bool
  /-- OTP ENC_USE with BURNED (R325). Reset: OTP; not burned. -/
  encUse : Nat
  encBurned : Bool
  /-- The 50 ms PWRFAIL hold has re-armed the low threshold (R322). Reset false. -/
  lowRearmed : Bool
  /-- Tick or slow count of the last battery health report for VBAT_LOW (R321). Reset false. -/
  vbatSaid : Bool
deriving DecidableEq, Repr

/-! ### Custody, life cycle, OTP (R342-R372) -/

/-- Life-cycle states (R354). -/
inductive Lcs where
  | blank | provisioned | deployed | returned | retired
deriving DecidableEq, Repr

/-- An officer table entry (R343). -/
structure Officer where
  /-- 0 EMPTY, 1 ENROLLED, 2 REVOKED as the table of R343 codes them. -/
  state : Nat
  /-- Role: 1 custody, 2 audit as R343 codes them. -/
  role : Nat
  /-- Device time of the enrolment. -/
  time : Nat
  name : Bytes
  pk : Bytes
deriving DecidableEq, Repr

/-- A challenge slot (R350). -/
structure Chal where
  /-- 0 EMPTY, 1 LIVE, 2 USED, 3 EXPIRED (LCY_CHAL_STAT). -/
  state : Nat
  data : Bytes
  /-- Tick of issue. -/
  tick : Nat
deriving DecidableEq, Repr

/-- An OTP transition record REC_k (R359). -/
structure OtpRec where
  intent : Nat
  target : Nat
  done : Nat
deriving DecidableEq, Repr

/-- A program approval (R367). -/
structure Approval where
  fn : Nat
  slot : Nat
  version : Nat
  digest : Bytes
deriving DecidableEq, Repr

/-- A debug grant (R363-R365). -/
structure Grant where
  scope : Nat
  /-- Tick at which LIFE ends. -/
  ends : Nat
  life : Nat
deriving DecidableEq, Repr

/-- A rejoin offer made by this device (R369). -/
structure Rejoin where
  /-- ML-KEM decapsulation key drawn for the offer. -/
  dk : Bytes
  nonce : Bytes
  peer : Nat
deriving DecidableEq, Repr

/-- Custody and life-cycle state. -/
structure Lcy where
  /-- Present life-cycle state, from the OTP scan (R361). Reset BLANK on a new device. -/
  state : Lcs
  /-- OTP REC_0-15 (R359). Reset 0. -/
  recs : List OtpRec
  /-- OTP T_PROV_DIG, burned at wafer test. Reset: from OTP. -/
  tProvDig : Bytes
  /-- Public keys in the ROM: 0 test root, 1 provisioning root, 2 diagnosis root, 3 firmware root (R354, R469). Reset: the ROM's (log entry 10). -/
  rom : List Bytes
  /-- OTP_HALF, 32 bytes (R359). Reset 0. -/
  otpHalf : Bytes
  /-- VID_SEED, 96 bytes. Reset 0. -/
  vidSeed : Bytes
  /-- ID_SEED, 96 bytes. Reset 0. -/
  idSeed : Bytes
  /-- PROV_KEY, 32 bytes. Reset 0. -/
  provKey : Bytes
  /-- T_DIG_1-9. Reset 0. -/
  tDig : List Bytes
  /-- PAYLOAD_CHK, 4 bytes. Reset 0. -/
  payloadChk : Bytes
  /-- The PROVISION payload and its check, staged in the secret half of keep RAM (R360). Reset none. -/
  staged : Option Bytes
  /-- KEEP_HALF in the secret half, 32 bytes (R109). Reset 0. -/
  keepHalf : Bytes
  /-- Device identity, 16 bytes (R353). Reset: from OTP. -/
  ident : Bytes
  /-- RETURNS, REDEPLOYS and DEPLOY_COUNT as LCY_STATE shows them. Reset: from OTP. -/
  returns : Nat
  redeploys : Nat
  deployCount : Nat
  /-- Officer table, 20 entries (R343), kept. Reset: empty. -/
  officers : List Officer
  /-- Challenge slots 0-15 (R350). Reset EMPTY. -/
  chals : List Chal
  /-- LCY_CHAL_CTL.SLOT, 4 bits. Reset 0. -/
  chalSlot : Nat
  /-- LCY_REQ_PTR, 64 bits. Reset 0. -/
  reqPtr : Nat
  /-- LCY_REQ_STAT.RESULT. Reset 0. -/
  reqResult : Nat
  /-- End tick of the HOLD after TOKEN_INVALID (R358). Reset none. -/
  holdEnd : Option Nat
  /-- Program-signing key of each VF (R366), kept; default none. -/
  progKeys : Tab Bytes
  /-- Approval table, at most 1,024 (R367), kept. Reset empty. -/
  approvals : List Approval
  /-- Internal and scan grants open (R365): DBG_STAT. Reset none. -/
  intGrant : Option Grant
  scanGrant : Option Grant
  /-- Offer outstanding (R369). Reset none. -/
  rejoin : Option Rejoin
  /-- Rejoin package held and its receipt tick (R370). Reset none. -/
  package : Option (Bytes × Nat)
  /-- LEDGER_LOST flag of the present RECOVERY (R372). Reset false. -/
  ledgerLost : Bool
deriving DecidableEq, Repr

/-! ### Entropy (R294-R317) -/

/-- States of an entropy source (R301). -/
inductive SrcState where
  | off | startup | warm | selected | cooling | retest | failed
deriving DecidableEq, Repr

/-- One entropy source (R294-R303). -/
structure Source where
  /-- ENT_STAT.STATE_s, 3 bits. Reset 1 STARTUP. -/
  st : SrcState
  /-- Reference count of the last failure (R301). Reset 0. -/
  failAt : Nat
  /-- ENT_SRC_HEALTH_s.RCT_FAILS, 8 bits. Reset 0. -/
  rct : Nat
  /-- ENT_SRC_HEALTH_s.APT_FAILS, 8 bits. Reset 0. -/
  apt : Nat
  /-- ENT_SRC_HEALTH_s.EST_FAILS, 8 bits. Reset 0. -/
  est : Nat
  /-- ENT_SRC_HEALTH_s.RETESTS, 8 bits. Reset 0. -/
  retests : Nat
  /-- ENT_EST_ONES_s, 21 bits. Reset 0. -/
  ones : Nat
  /-- ENT_EST_AGREE_k_s, k = 1-4, 21 bits each. Reset 0. -/
  agree : List Nat
  /-- ENT_EST_MINENT_s, 16 bits. Reset 0. -/
  minent : Nat
  /-- ENT_EST_BLOCK_s, 32 bits. Reset 0. -/
  block : Nat
  /-- Start-up attempts failed (R304). Reset 0. -/
  attempts : Nat
  /-- Raw bytes of the seed being collected, all of them tested (R295, R297). Reset empty. -/
  raw : Bytes
  /-- Finished seeds that have passed R297 and have not crossed the sill link (R298). Reset empty. -/
  held : List Bytes
deriving DecidableEq, Repr

/-- A generate request waiting for the shared AES engine (R307, R310). -/
structure RandReq where
  /-- Core asking. -/
  core : Nat
  /-- Core address and length of the draw (R220). -/
  addr : Nat
  len : Nat
deriving DecidableEq, Repr

/-- A DRBG instance (R304-R312). -/
structure Drbg where
  /-- Working key, 32 bytes; empty until instantiated. Reset empty. -/
  key : Bytes
  /-- Working value V, 16 bytes. Reset empty. -/
  v : Bytes
  /-- ENT_DRBG_STAT_i.COUNT, 17 bits. Reset 0. -/
  count : Nat
  /-- ENT_DRBG_STAT_i.READY. Reset 0. -/
  ready : Bool
  /-- ENT_DRBG_STAT_i.STRETCHED. Reset 0. -/
  stretched : Bool
  /-- ENT_DRBG_STAT_i.HALTED. Reset 0. -/
  halted : Bool
deriving DecidableEq, Repr

/-- The entropy block. -/
structure Ent where
  srcA : Source
  srcB : Source
  /-- ENT_STAT.SEL: the source last selected, 0 A, 1 B. Reset 0. -/
  sel : Nat
  /-- ENT_SWITCHES, 32 bits. Reset 0. -/
  switches : Nat
  /-- Seed queue on the service die, oldest first, at most 32 seeds of 32 bytes (R298). Reset empty. -/
  queue : List Bytes
  /-- Instances 0-15. Reset not instantiated. -/
  drbgs : List Drbg
  /-- Requests waiting for the shared AES engine, oldest first (R307, R310). Reset empty. -/
  reqs : List RandReq
deriving DecidableEq, Repr


/-! ### Management target (R421, R422) -/

/-- The I3C target and its MCTP endpoint. -/
structure I3c where
  /-- Dynamic address, none when not assigned (PHL_I3C_STAT.DA_VALID, DA). Reset none. -/
  da : Option Nat
  /-- MCTP endpoint ID, 8 bits (R422). Reset 0. -/
  eid : Nat
  /-- Queued MCTP messages, at most 16, oldest first (R422). Reset empty. -/
  queue : List Bytes
  /-- Messages dropped on a full queue (R422). Reset 0. -/
  dropped : Nat
  /-- Events enabled by ENEC (IBIs). Reset false. -/
  ibi : Bool
  /-- Maximum write and read lengths. Reset 256 (R421). -/
  mwl : Nat
  mrl : Nat
deriving DecidableEq, Repr

/-! ### Idnel cores (R192-R234) -/

/-- A stream pointer's registers (special registers 0-4, 8-12). -/
structure Stream where
  /-- BASE, 32 bits. Reset 0. -/
  base : Nat
  /-- IDX, 16 bits. Reset 0. -/
  idx : Nat
  /-- STRIDE, 16 bits. Reset 0x0004. -/
  stride : Nat
  /-- LEN, 17 bits. Reset 0x1_0000. -/
  len : Nat
  /-- MODE word: K in [12:8], MODE in [1:0]. Reset 0x0000_0100. -/
  mode : Nat
deriving DecidableEq, Repr

/-- A pin table entry (R157, R219). -/
structure Pin where
  handle : Nat
  /-- Key store index of the head entry. -/
  index : Nat
  /-- Uses reserved and not spent (R143). -/
  resv : Nat
deriving DecidableEq, Repr

/-- A pending data-stack load (R205). -/
structure PLoad where
  /-- Stack position counted from the bottom. -/
  pos : Nat
  /-- The value, none while host data has not arrived. -/
  val : Option Nat
  /-- Bytes of the load: 1 or 4. -/
  size : Nat
  /-- Extra cycles of the region, spent at the landing (R200). -/
  extra : Nat
  /-- Slots ended since the load, its own included; it lands at the end of the second. -/
  age : Nat
  /-- The bytes of the load that the core's own earlier stores, still buffered, give (R199). -/
  own : List (Option Byte)
deriving DecidableEq, Repr

/-- An entry of the store buffer (R200). -/
structure PStore where
  addr : Nat
  data : Bytes
  /-- WIN_OUT in the store's slot (R197). -/
  win : Nat
deriving DecidableEq, Repr

/-- A lane or mover request outstanding on a port (R216, R217). -/
structure CReq where
  port : Nat
  /-- Request tag, unique in the device. -/
  tag : Nat
  /-- DST = 0: the result goes to the block stack. -/
  toStack : Bool
  /-- Status and result once it has ended. -/
  done : Option (Nat × Bytes)
  /-- Reference count at which the result reached the port. -/
  arrived : Nat
deriving DecidableEq, Repr

/-- What a core is doing (R195). -/
inductive CoreSt where
  /-- Out of service: asleep, fenced, or a spare. -/
  | off
  /-- Running instructions. -/
  | run
  /-- Waiting in ASK. -/
  | ask
  /-- Waiting in AWAIT: port, timeout in core cycles, reference count of its first cycle. -/
  | await (port tmo since : Nat)
  /-- RELEASE given: status, result length; waiting for the hand-over to the Gate. -/
  | release (st len : Nat)
  /-- Waiting in KRES for a miss. -/
  | kres
  /-- Waiting in RAND for random output. -/
  | rand
deriving DecidableEq, Repr

/-- A saved context in a park slot (R222). -/
structure Park where
  /-- Token record. -/
  tok : Nat
  cluster : Nat
  ds : List W32
  rs : List W32
  bs : List W128
  pc : Nat
  bnk : Nat
  s0 : Stream
  s1 : Stream
  winIn : Nat
  winOut : Nat
  cyc : Nat
  budget : Nat
  img : Nat
  prog : Bool
  ctxKeep : Nat
  pins : List Pin
  /-- The first CTXKEEP bytes of the command area. -/
  area : Tab Byte
  /-- Input bytes vendor firmware had read. -/
  input : Option Bytes
  /-- Status of a miss that failed while the token waited for it (R127, R129). -/
  kstat : Option Nat
  /-- The resolution that waits has been counted as a miss (R119). -/
  kseen : Bool
  /-- An entry has failed its check in that resolution (R123). -/
  kbad : Bool
  /-- Loads that had not landed when the command parked (R205, R222). -/
  loads : List PLoad
deriving DecidableEq, Repr

/-- One physical core. -/
structure Core where
  st : CoreSt
  /-- Token record of its command. -/
  tok : Option Nat
  /-- A token given by the dispatcher whose ASK or resume has not returned (R212, R223). -/
  given : Option Nat
  /-- A command given to the core, with its park slot if it was parked, whose token has left before ASK returned: its deadline committed, its
  function was reset or its load fenced (R224, R225, R259). Reset none. -/
  late : Option (Token × Option Park)
  /-- The command's function. -/
  func : Nat
  /-- Program counter, 32 bits. Reset 0 at core start. -/
  pc : Nat
  /-- Address after the core's last ASK, to which a parked command's core returns (R213, R222). Reset 0 at core start. -/
  askPc : Nat
  /-- Data stack, top first, at most 976 words. -/
  ds : List W32
  /-- Entries of the data stack held in the 16-entry cache (R204). -/
  cached : Nat
  /-- Return stack, top first, at most 16. -/
  rs : List W32
  /-- Block stack, top first, at most 8. -/
  bs : List W128
  /-- BNK, 16 bits. Reset 0. -/
  bnk : Nat
  s0 : Stream
  s1 : Stream
  /-- WIN_IN and WIN_OUT, 64 bits. Reset 0. -/
  winIn : Nat
  winOut : Nat
  /-- CYC: core cycles since ASK returned. Reset 0. -/
  cyc : Nat
  /-- BUDGET in program mode. Reset 0xFFFF_FFFF. -/
  budget : Nat
  /-- IMG. Reset 0. -/
  img : Nat
  /-- FAULT. Reset 0. -/
  fault : Nat
  /-- FAULT_PC. Reset 0. -/
  faultPc : Nat
  /-- FW_RET. Reset at core start only. -/
  fwRet : Nat
  /-- FW_FAULT. Reset at core start only. -/
  fwFault : Nat
  /-- CTXKEEP. Reset 2,048. -/
  ctxKeep : Nat
  /-- TSTATE.EXPIRED and TSTATE.RESET. Reset 0. -/
  expired : Bool
  reset : Bool
  /-- The load's latch was fenced, or the device left ACTIVE: results are discarded and metered reset-abandoned (R24, R437). -/
  dropped : Bool
  /-- The output aperture is closed (R224-R226). -/
  closed : Bool
  /-- Program mode. Reset firmware mode. -/
  prog : Bool
  /-- PORTS of the running image (R229, R232). -/
  ports : Nat
  /-- Pin table, at most 16. -/
  pins : List Pin
  /-- A literal waiting for the instruction it fuses with, the address of the pair, and that instruction's opcode (R193). Reset none. -/
  fuse : Option (W32 × Nat × Nat)
  /-- The last slot was a literal that decode found not to fuse with the byte after it (R193). Reset false. -/
  lone : Bool
  /-- The present instruction has begun and waits: for stores, for a lane queue or for a request (R195). Reset false. -/
  stall : Bool
  /-- It waits in ISSUE, for a lane queue or a request (R195, R488). Reset false. -/
  issueWait : Bool
  /-- Pending loads. -/
  loads : List PLoad
  /-- Store buffer, at most 8, oldest first. -/
  stores : List PStore
  /-- Outstanding requests, oldest first, at most 32. -/
  reqs : List CReq
  /-- Local memory, 64 KiB; default 0. -/
  mem : Tab Byte
  /-- Scatter or flat buffers of the command: address and length of each piece, input and output. -/
  inList : List (Nat × Nat)
  outList : List (Nat × Nat)
  /-- Input bytes that vendor firmware has read for the command, kept over a park. -/
  input : Option Bytes
  /-- Status of a miss that failed while the command waited for it (R127, R129). -/
  kstat : Option Nat
  /-- The present resolution has been counted as a miss (R119). Reset false. -/
  kseen : Bool
  /-- An entry has failed its check in the present resolution (R123). Reset false. -/
  kbad : Bool
  /-- Result of vendor firmware's command: meter units. -/
  units : Nat
  /-- Slots left before the next sample (R496). Reset 0: reloaded when sampling starts. -/
  sampLeft : Nat
  /-- The core's jitter LFSR (R496). Reset 1. -/
  sampLfsr : Nat
  /-- Slots at which the count reached 0 and whose samples are not yet in the cluster buffer: PC, FUNC, program mode, TICK (R496). Reset empty. -/
  sampDue : List (Nat × Nat × Bool × Nat)
deriving DecidableEq, Repr

/-- An installed program image (R231). -/
structure Image where
  cluster : Nat
  /-- Image slot 0-7 of the program area. -/
  place : Nat
  fn : Nat
  slot : Nat
  digest : Bytes
  /-- Order of last use. -/
  used : Nat
  /-- Dropped, and kept only for a command that was dispatched with it and has not entered it (R231, R368). -/
  stale : Bool
deriving DecidableEq, Repr

/-- A program image fetch in progress (R231). -/
structure ImgFetch where
  cluster : Nat
  fn : Nat
  slot : Nat
  /-- Tick of the first read request. -/
  start : Nat
  /-- Parked tokens waiting for it. -/
  waiters : List Nat
  /-- IMG_PTR and IMG_LEN, once the directory entry has been read (R230). -/
  ptr : Option (Nat × Nat)
  /-- The checked image, while all eight slots of the cluster are in use. -/
  image : Option Bytes
deriving DecidableEq, Repr

/-- The clusters and their cores. -/
structure Cpu where
  /-- Physical cores 0-143; default a core out of service. -/
  cores : Tab Core
  /-- Cluster scratch, keyed cluster × 2^20 + offset; default 0. -/
  scratch : Tab Byte
  /-- Park slots in use, at most 128 per cluster (R222). -/
  parks : List Park
  /-- Installed images. -/
  images : List Image
  imageNo : Nat
  /-- Image fetches in progress. -/
  fetches : List ImgFetch
  /-- Physical core behind each logical core: keyed 8 × cluster + logical; default k of the cluster (R482). -/
  logical : Tab Nat
  /-- Physical cores fenced. -/
  fenced : List Nat
  /-- Clusters whose spare is in service: bit map (DBG_FENCE_CORE.SPARE_USED). Reset 0. -/
  spareUsed : Nat
  /-- Clusters with fewer than 8 cores in service: bit map (CL_SHORT). Reset 0. -/
  short : Nat
  /-- Next request tag. -/
  tagNo : Nat
deriving DecidableEq, Repr
/-! ### Lanes (R156-R191) -/

/-- A request in a lane queue (R156, R161, R182, R214). -/
structure LaneReq where
  /-- Issuing core and request tag. -/
  core : Nat
  tag : Nat
  /-- KEY, ctl (header bits [95:64]), ADDR_IN, ADDR_OUT, LEN and OUT_LEN operands of the ISSUE. -/
  key : Nat
  ctl : Nat
  ain : Nat
  aout : Nat
  len : Nat
  olen : Nat
  /-- Block stack entries sent with the header, in the order of R216. -/
  ops : List W128
  /-- The request runs twinned (R174, R179). -/
  twin : Bool
  /-- Status and stack result once it has run, waiting to go back to the port (R158). -/
  done : Option (Nat × Bytes)
  /-- A failed twin check left it without result: it never ends (R175). -/
  lost : Bool
  /-- WIN_IN and WIN_OUT in the slot of the ISSUE (R197). -/
  winIn : Nat
  winOut : Nat
deriving DecidableEq, Repr

/-- Quarantined output of one request: release address, bytes, and the store index of the key that wrote it (R170). -/
structure Quar where
  addr : Nat
  data : Bytes
  key : Nat
deriving DecidableEq, Repr

/-- What a block lane holds for one core (R165, R170). -/
structure LanePort where
  /-- Subkey register, E(K, 0). Reset empty. -/
  subkey : Option Bytes
  /-- GHASH accumulator. Reset 0. -/
  acc : W128
  /-- Quarantined bytes, oldest first, at most 16 KiB. Reset empty. -/
  quar : List Quar
deriving DecidableEq, Repr

/-- An open hash context (R183): the issuing core, the function OP[5:0], and the message absorbed so far. -/
structure HashCtx where
  core : Nat
  fn : Nat
  msg : Bytes
deriving DecidableEq, Repr

/-- An expanded-key slot of a block lane (R168). -/
structure KSlot where
  /-- Store index of the key store entry it was built from, and the function that owns it. -/
  index : Nat
  func : Nat
  /-- The expanded schedule: algorithm and key bytes of which every round key is a function. -/
  alg : Nat
  key : Bytes
deriving DecidableEq, Repr

/-- An address generator of a lattice lane (R191): mode 0 linear, 1 modulo, 2 bit-reversed. -/
structure AddrGen where
  mode : Nat
  base : Nat
  stride : Nat
  /-- LENGTH in words, 1 to 4,096. -/
  length : Nat
  /-- k, 1 to 8. -/
  k : Nat
deriving DecidableEq, Repr

/-- One logical lane, keyed by its port number 0x00-0x1D (R214). -/
structure Lane where
  /-- Queue, oldest first: 64 requests of a block lane, 32 of a hash lane, 16 of the others (R156). Reset empty. -/
  queue : List LaneReq
  /-- Per-core registers, accumulators and quarantine of a block lane. Reset empty. -/
  ports : Tab LanePort
  /-- Expanded-key slots in use, least recently used first, at most 4,096 (R168). Reset empty. -/
  slots : List KSlot
  /-- Store indices invalidated and on their way to the lane (R132, R169). Reset empty. -/
  drops : List Nat
  /-- Hash context slots 0-63 in use (R183). Reset empty. -/
  ctxs : List (Nat × HashCtx)
  /-- Physical lane that serves the number; none is the lane of the same number (R177). -/
  phys : Option Nat
  /-- Fenced and not (or not yet) replaced (R177, R178). Reset false. -/
  fenced : Bool
  /-- Queue entries and pipeline slots that twinned requests of the partner lanes hold here: core and tag (R176). Reset empty. -/
  held : List (Nat × Nat)
  /-- Core whose single-block request, and core whose multi-block request, a block lane took last (R167). Reset 0. -/
  turn1 : Nat
  turnN : Nat
  /-- Working memory of a modular or lattice lane, words of 8 bytes: 4,096 in a lattice lane (R180, R191; log entry 34). Default 0. Reset empty. -/
  work : Tab Nat
  /-- The two address generators of a lattice lane (R191). Reset linear from 0. -/
  gen0 : AddrGen
  gen1 : AddrGen
deriving DecidableEq, Repr

/-- All lanes. -/
structure Lanes where
  /-- Lanes by port number 0x00-0x1D; default a lane at reset. -/
  lanes : Tab Lane
  /-- LANE_FENCE.BLK_FENCED, HASH_FENCED: physical lanes fenced. Reset 0. -/
  blkFenced : Nat
  hashFenced : Nat
  /-- LANE_FENCE.LAT_FENCED1 and LAT_FENCED0. Reset 0. -/
  latFenced : Nat
  /-- DBG_FENCE_MISC.MOD_FENCED, 4 bits. Reset 0. -/
  modFenced : Nat
  /-- LANE_FENCE.BLK_SPARES, 2 bits. Reset 2. -/
  blkSpares : Nat
  /-- LANE_FENCE.HASH_SPARE. Reset 1. -/
  hashSpare : Bool
  /-- LANE_TWIN_CTL.MISMATCHES, 16 bits. Reset 0. -/
  mismatches : Nat
  /-- LANE_TWIN_CTL.ALL_BLOCK. Reset 0. -/
  allBlock : Bool
  /-- Hash lanes taking no request: a 256s signature runs on all of them, until this reference count (R185). Reset 0. -/
  hashBusy : Nat
  /-- Head entries of the key material that a core's requests wrote to key store entries, by core, newest last (R188, R190; entry choice: log
  entry 34). Reset empty. -/
  keyOut : Tab (List Nat)
deriving DecidableEq, Repr

/-! ### Key store (R109-R155) -/

/-- A key in the store: head entry (R121) and its extensions. -/
structure KEnt where
  /-- FUNC, INDEX, GEN, KIND, ALG of the head entry. -/
  func : Nat
  index : Nat
  gen : Nat
  kind : Nat
  alg : Nat
  /-- USAGE as two characters, first in the high byte of the pair as read in order. -/
  usage : Nat
  /-- MODE, EXPORT and KVN characters. -/
  mode : Nat
  expo : Nat
  kvn : Nat
  /-- CHUNK_LEFT. -/
  chunk : Nat
  /-- LEDGER_SLOT when BUDGETED. -/
  ledger : Option Nat
  /-- EXPIRY in minutes, 0xFFFF_FFFF none. -/
  expiry : Nat
  /-- LMK_GEN. -/
  lmkGen : Nat
  /-- SENS. -/
  sens : Bool
  /-- ORIGIN. -/
  origin : Nat
  /-- KEY, or the material of an asymmetric key over its extensions (R122). -/
  mat : Bytes
  /-- Store indices of the extension entries, in LINK and NEXT order. -/
  ext : List Nat
  /-- Optional blocks carried through export: IDs and contents (R136). -/
  carry : List (Nat × Bytes)
  /-- Order of last use (R131). -/
  used : Nat
  /-- To be invalidated once its pins drop (R125, R133). -/
  doomed : Bool
  /-- KMAC of the head entry, 8 bytes (R121, R123). -/
  kmac : Bytes
  /-- KMAC of each extension entry, in their order (R121, R123). -/
  kmacs : List Bytes
  /-- The detector that a read of one of its entries sets off, 0x09 its ECC or 0x0A its KMAC; 0 while the entries are sound (R121, R123, R475). -/
  bad : Nat
deriving DecidableEq, Repr

/-- One physical LMK slot of a VF (R112-R115). -/
structure LmkSlot where
  /-- The LMK in its set, none when empty or not loaded (R113, R115). -/
  key : Option Bytes
  /-- Role: 0 empty, 1 CURRENT, 2 PREVIOUS. -/
  role : Nat
  /-- LMK generation, 16 bits. -/
  gen : Nat
  /-- OCCUPIED bit in the ledger half of keep RAM (R115). Reset: kept; 0. -/
  occ : Bool
  /-- Vault version counter in the ledger half, 32 bits (R114). Reset: kept; 0. -/
  version : Nat
  /-- The blob of an occupied slot is asked for and has not arrived (R115). -/
  wait : Bool
  /-- KBEK of the set, 32 bytes, empty with no LMK (R113). Reset empty. -/
  kbek : Bytes
  /-- KBAK of the set, 32 bytes, empty with no LMK (R113). Reset empty. -/
  kbak : Bytes
  /-- An entry of the set fails its check (R123). Reset false. -/
  bad : Bool
deriving DecidableEq, Repr

/-- The LMKs of a VF. -/
structure Lmk where
  s0 : LmkSlot
  s1 : LmkSlot
  /-- The sets have been loaded since the start or rejoin (R115). Reset false. -/
  loaded : Bool
  /-- Generation of the function's newest LMK (R112). Reset: kept; 0. -/
  lastGen : Nat
deriving DecidableEq, Repr

/-- Stages of a miss (R127). -/
inductive MissStage where
  | wait | vault | dir | block | install
deriving DecidableEq, Repr

/-- A miss table entry (R127). -/
structure Miss where
  /-- Number that names the miss in the device. -/
  id : Nat
  fn : Nat
  index : Nat
  gen : Nat
  kind : Nat
  stage : MissStage
  /-- Tick of the first read of the miss (R128), none before it. -/
  start : Option Nat
  /-- BLOCK_PTR and BLOCK_LEN of the directory entry. -/
  ptr : Nat
  len : Nat
  /-- The unwrapped key, ready to install, and its budget: 0U count or none (R136). -/
  key : Option KEnt
  /-- Use count of the 0U block. -/
  uses : Option Nat
  /-- Parked token records waiting, and cores waiting in place, each with the GEN it asked for (R125, R127). -/
  toks : List (Nat × Nat)
  cores : List (Nat × Nat)
deriving DecidableEq, Repr

/-- A ceremony (R149-R153). -/
structure Cer where
  num : Nat
  /-- A component ceremony (R151). -/
  comp : Bool
  fn : Nat
  nonce : Bytes
  /-- Decapsulation key in the ceremony buffer. -/
  dk : Bytes
  /-- Tick of the BEGIN (R153). -/
  start : Nat
  /-- Component accumulator (R151). -/
  acc : Bytes
  /-- Officers who have entered a component. -/
  officers : List Nat
  /-- Its ceremony buffer, 0-7 (R113). -/
  buf : Nat
deriving DecidableEq, Repr

/-- A budget ledger slot (R142). -/
structure Budget where
  fn : Nat
  /-- 64-bit identity. -/
  ident : Bytes
  /-- Uses remaining, 40 bits. -/
  left : Nat
  /-- Expiry in minutes, 0xFFFF_FFFF none. -/
  expiry : Nat
deriving DecidableEq, Repr

/-- The key store. -/
structure Kst where
  /-- Working keys by the store index of their head entry, 0x2000-0xFFFFF (R113). Reset none. -/
  keys : List (Nat × KEnt)
  /-- LMKs by VF (R112); default none. -/
  lmks : Tab Lmk
  /-- Vault key of R109, held while the root exists. Reset: derived at start. -/
  vaultKey : Bytes
  /-- Key-store integrity key, 32 bytes, drawn at every start in DEPLOYED (R123, R467 step 0x11). Reset none: empty. -/
  intKey : Bytes
  /-- KST_VAULT_BASE, 64 bits. Reset 0. -/
  vaultBase : Nat
  /-- KST_CTL.FETCH_TIMEOUT, 16 bits. Reset 0x0064. -/
  fetchTimeout : Nat
  /-- KST_CTL.FETCH_RSV. Reset 0. -/
  fetchRsv : Bool
  /-- Miss table and misses waiting for an entry, oldest first (R127). Reset empty. -/
  misses : List Miss
  /-- Number of the next miss. Reset 0. -/
  missNo : Nat
  /-- Open ceremonies, at most 8 (R153). Reset empty. -/
  cers : List Cer
  /-- Number of the next ceremony, 16 bits. Reset 1. -/
  cerNo : Nat
  /-- Sensitive-key list, at most 1,024: VF and identity, kept (R140). Reset: kept; empty. -/
  sens : List (Nat × Bytes)
  /-- Budget ledger by slot 0-4,095, kept (R142). Reset: kept; empty. -/
  ledger : List (Nat × Budget)
  /-- Order stamp of use (R131). Reset 0. -/
  useNo : Nat
deriving DecidableEq, Repr


/-! ### Phitlink fabric (R399-R420) -/

/-- Port states (PHL_PORT_STAT_p.STATE). -/
inductive PortSt where
  | disabled | training | up | retrain | down
deriving DecidableEq, Repr

/-- Credit views of one port and virtual channel (R407). -/
structure Cred where
  /-- Sender view: HELD, RSV, S, C. Reset 0. -/
  held : Nat
  rsv : Nat
  sent : Nat
  back : Nat
  /-- Receiver view: RX, RET, OCC. Reset 0. -/
  rx : Nat
  ret : Nat
  occ : Nat
deriving DecidableEq, Repr

/-- A frame waiting at an egress port or kept for replay (R401, R406). -/
structure PFrame where
  /-- Header and payload; LSEQ is written when it is sent. -/
  bytes : Bytes
  /-- Port whose ingress buffer it holds, none for a frame of this device (R406). -/
  from_ : Option Nat
  /-- Its credit is reserved already (R280). -/
  rsv : Bool
  /-- Highest MSEQ of the mirror records in it (R440). -/
  mseq : Option Nat
  /-- It came from PHL_MTX (R413). -/
  mtx : Bool
  /-- NAKs received for it (R401). -/
  naks : Nat
deriving DecidableEq, Repr

/-- One Phitlink port (R399-R409). -/
structure Port where
  /-- PHL_PORT_STAT_p.STATE. Reset DISABLED. -/
  st : PortSt
  /-- PHL_PORT_CTL_p.ENABLE. Reset 1. -/
  enable : Bool
  /-- PHL_PORT_CTL_p.FORCE_56. Reset 0, or 1 from the boot ledger. -/
  force56 : Bool
  /-- PHL_PORT_STAT_p.SPEED: 56 Gbit/s. Reset 0. -/
  slow : Bool
  /-- PHL_PORT_STAT_p.NEIGHBOR, 12 bits. Reset 0x000. -/
  nb : Nat
  /-- PHL_PORT_STAT_p.NB_VALID. Reset 0. -/
  nbValid : Bool
  /-- PHL_PORT_STAT_p.RETRAINS, 8 bits. Reset 0x00. -/
  retrains : Nat
  /-- PHL_PORT_ERR_p: CRC errors and replays, 16 bits each. Reset 0. -/
  crc : Nat
  replays : Nat
  /-- PHL_PORT_DROP_p: HOPS, NOROUTE, FORMAT, LOST, 8 bits each. Reset 0. -/
  dHops : Nat
  dNoroute : Nat
  dFormat : Nat
  dLost : Nat
  /-- Credit views of VCs 0-3. Reset 0. -/
  cred : List Cred
  /-- Frames waiting for egress, oldest first (R406). Reset empty. -/
  queue : List PFrame
  /-- The next turn between the request and response VCs is the response's (R406). Reset false. -/
  turn : Bool
  /-- Replay buffer: LSEQ and frame, oldest first, at most 32 KiB (R401). Reset empty. -/
  replay : List (Nat × PFrame)
  /-- Next link sequence number to send, 32 bits (R401). Reset 1. -/
  txSeq : Nat
  /-- Last link sequence number accepted (R401). Reset 0. -/
  rxSeq : Nat
  /-- Reference count since which the oldest frame waits for its acknowledgement (R401). Reset 0. -/
  ackAt : Nat
  /-- Reference count of the last valid control block or frame (R418). Reset 0. -/
  heard : Nat
  /-- DETACH is queued for the present silence (R418). Reset false. -/
  silent : Bool
  /-- Reference count at which the port left UP (R402). Reset none. -/
  left : Option Nat
  /-- Trainings at 112 Gbit/s failed (R400). Reset 0. -/
  tries : Nat
  /-- Reference count of the last training failed at both rates (R400). Reset none. -/
  failedAt : Option Nat
deriving DecidableEq, Repr

/-- The fabric block. -/
structure Phl where
  /-- PHL_CTL.CFG_LOCK. Reset 0. -/
  cfgLock : Bool
  /-- PHL_CTL.FM_ADDR, 12 bits. Reset 0x000. -/
  fmAddr : Nat
  /-- PHL_CTL.HOP_LIMIT, 8 bits. Reset 0x20. -/
  hopLimit : Nat
  /-- PHL_ADDR.VALID. Reset 0. -/
  valid : Bool
  /-- PHL_ADDR.CONFLICT. Reset 0. -/
  conflict : Bool
  /-- PHL_ADDR.ADDR, 12 bits. Reset 0x000. -/
  addr : Nat
  /-- Ports 0-7. -/
  ports : List Port
  /-- Route entries by destination, 16 bits (R414). Reset 0x0000. -/
  route : Tab Nat
  /-- PHL_ROUTE_SEL.INDEX, 12 bits. Reset 0x000. -/
  routeSel : Nat
  /-- PHL_AUDIT_CTL.AUDIT_PERIOD, 16 bits. Reset 0x03E8. -/
  auditPeriod : Nat
  /-- PHL_AUDIT_STAT.FAILS, 16 bits. Reset 0. -/
  auditFails : Nat
  /-- PHL_AUDIT_STAT.AUDITS, 16 bits. Reset 0. -/
  audits : Nat
  /-- Tick of the last AUDIT frames. Reset 0. -/
  auditAt : Nat
  /-- Fabric events, at most 64, oldest first. Reset empty. -/
  evts : List Bytes
  /-- PHL_EVT_LOST. Reset 0. -/
  evtLost : Nat
  /-- PHL_EVT_DATA_0-3, 16 bytes. Reset 0. -/
  evtData : Bytes
  /-- PHL_MTX_0-71, 288 bytes, write only. Reset 0. -/
  mtx : Bytes
  /-- PHL_MTX_CMD.BUSY. Reset 0. -/
  mtxBusy : Bool
  /-- Management receive queue, at most 16 frames. Reset empty. -/
  mrx : List Bytes
  /-- PHL_MRX_STAT dropped frames, 8 bits. Reset 0. -/
  mrxDropped : Nat
  /-- PHL_MRX_0-71, 288 bytes. Reset 0. -/
  mrxData : Bytes
  /-- PHL_TIME_CTL.ROLE: 0 none, 1 master, 2 follower. Reset 0. -/
  role : Nat
  /-- PHL_TIME_CTL.UPSTREAM. Reset 0. -/
  upstream : Nat
  /-- PHL_TIME_CTL.SYNC_PERIOD. Reset 0x3E8. -/
  syncPeriod : Nat
  /-- PHL_TIME_STAT.TIME_FAR. Reset 0. -/
  timeFar : Bool
  /-- PHL_TIME_STAT.DISTANCE. Reset 0x3F. -/
  distance : Nat
  /-- PHL_TIME_OFFSET in ns, signed. Reset 0. -/
  offset : Int
  /-- The last 8 exchanges, newest first: delay and offset in units of 1/65,536 µs (R420). Reset empty. -/
  exchanges : List (Int × Int)
  /-- Consecutive exchanges with an offset below 1 µs, and consecutive missed exchanges (R420). Reset 0. -/
  good : Nat
  missed : Nat
  /-- Stamp t1 of the SYNC_REQ not yet answered, in units of 1/65,536 µs (R419). Reset none. -/
  t1 : Option Nat
  /-- Tick of the last SYNC_REQ. Reset 0. -/
  syncAt : Nat
  /-- E2E_SEQ of the next frame of this device, 16 bits (R416). Reset 0. -/
  e2e : Nat
deriving DecidableEq, Repr

/-! ### Performance counters and sampling (R487-R498) -/

/-- A counter: CNT_EVT and CNT_VAL. -/
structure Ctr where
  /-- CNT_EVT.ENABLE. Reset 0. -/
  enable : Bool
  /-- CNT_EVT.CHAIN. Reset 0. -/
  chain : Bool
  /-- CNT_EVT.OVF. Reset 0. -/
  ovf : Bool
  /-- CNT_EVT.OVF_IRQ. Reset 0. -/
  irq : Bool
  /-- CNT_EVT.EVENT, 12 bits. Reset 0x000. -/
  event : Nat
  /-- CNT_VAL.COUNT, 48 bits. Reset 0. -/
  count : Nat
deriving DecidableEq, Repr

/-- A global counter's filter: CNT_GF_SEL_g, CNT_GF_ALO_g, CNT_GF_AHI_g. -/
structure GFilter where
  /-- SHARE. Reset 0. -/
  share : Bool
  /-- PRIV, 2 bits. Reset 0. -/
  priv : Nat
  /-- ADDR_SPACE: 1 host address. Reset 0. -/
  space : Nat
  /-- ADDR_EN. Reset 0. -/
  addrEn : Bool
  /-- MASTER_EN. Reset 0. -/
  masterEn : Bool
  /-- FUNC_EN. Reset 0. -/
  funcEn : Bool
  /-- FUNC, 11 bits. Reset 0x000. -/
  func : Nat
  /-- MASTER, 8 bits. Reset 0x00. -/
  master : Nat
  /-- ALO and AHI, 64 bits. Reset 0. -/
  alo : Nat
  ahi : Nat
deriving DecidableEq, Repr

/-- A cluster's sampling registers and buffer. -/
structure Samp where
  /-- CNT_SAMP_CTL_c.ENABLE. Reset 0. -/
  enable : Bool
  /-- S_IDLE. Reset 0. -/
  sIdle : Bool
  /-- S_PROG. Reset 0. -/
  sProg : Bool
  /-- S_FW. Reset 1. -/
  sFw : Bool
  /-- FUNC_EN. Reset 0. -/
  funcEn : Bool
  /-- FUNC, 11 bits. Reset 0x000. -/
  func : Nat
  /-- CORES, 8 bits. Reset 0xFF. -/
  cores : Nat
  /-- CNT_SAMP_PERIOD_c.PERIOD, 16 bits. Reset 0x1000. -/
  period : Nat
  /-- JITTER, 4 bits. Reset 4. -/
  jitter : Nat
  /-- CNT_SAMP_STAT_c.LOST, 16 bits. Reset 0. -/
  lost : Nat
  /-- Entries in the buffer, oldest first, at most 4,096; FILL counts them. Reset empty. -/
  entries : List Bytes
deriving DecidableEq, Repr

/-- The counter block. -/
structure Cnt where
  /-- CNT_CTL.FREEZE. Reset 0. -/
  freeze : Bool
  /-- CNT_LAT_THRESH, 24 bits. Reset 0x000BB8. -/
  latThresh : Nat
  /-- CNT_WAIT_THRESH, 24 bits. Reset 0x000064. -/
  waitThresh : Nat
  /-- Counters by index, 0-1171. -/
  ctrs : Tab Ctr
  /-- Filters of global counters 0-31. -/
  filters : Tab GFilter
  /-- Sampling of clusters 0-15. -/
  samps : List Samp
  /-- CNT_SAMP_RING.BASE, 64 bits. Reset 0. -/
  base : Nat
  /-- CNT_SAMP_RING.LOG2, 4 bits. Reset 0x2. -/
  log2 : Nat
  /-- Consumed position (CNT_SAMP_HEAD), 10 bits. Reset 0. -/
  head : Nat
  /-- CNT_SAMP_TAIL, 10 bits. Reset 0. -/
  tail : Nat
  /-- Slots written and not consumed. Reset 0. -/
  used : Nat
deriving DecidableEq, Repr

/-! ### The whole state -/

/-- The state of the device. -/
structure State where
  hif : Hif
  slm : Slm
  aud : Aud
  mtr : Mtr
  dbg : Dbg
  par : Par
  pwr : Pwr
  mov : Mov
  tmp : Tmp
  lcy : Lcy
  ent : Ent
  i3c : I3c
  cpu : Cpu
  lanes : Lanes
  kst : Kst
  phl : Phl
  cnt : Cnt
  time : TimeSt
  /-- What the device has sent, in order of issue (the model's own field). Reset empty. -/
  out : List Out
  /-- Counter that the free values are drawn with (the model's own field). Reset 0. -/
  freeCtr : Nat
  /-- Commands waiting, first in, first out. Reset empty. -/
  pending : List Instr
deriving DecidableEq, Repr

/-! ### Reset values -/

/-- A ring pair at reset. -/
def Ring.blank : Ring :=
  ⟨0, 0, 0, 0, 0, 6, 6, false, .idle, 0, 0, 0, 0, 0, 0, false, 0, 0, 0, 0, true, 0, none⟩

/-- A host region not committed. -/
def HostRegion.none : HostRegion := ⟨0, 0, 0⟩

/-- An MSI-X entry at reset. -/
def MsixEntry.blank : MsixEntry := ⟨0, 0, true, false⟩

/-- No share. -/
def Share.zero : Share := ⟨0, 0, 0, 0⟩

/-- A VF before CREATE. -/
def Fn.vf : Fn where
  rings := List.replicate 4 Ring.blank
  rptBase := 0
  msix := List.replicate 8 MsixEntry.blank
  created := false
  ops := 0
  switchCount := 0
  rstWord := .idle
  rstSeq := 0
  rst := none
  d3 := false
  relaxed := true
  held := 0
  races := 0
  dirBase := 0
  dirSize := 0
  missThresh := 0
  missCount := 0
  missStart := 0
  missFired := false
  progBase := 0
  rcptCopy := 0
  histWait := []
  histTotal := []
  pass := List.replicate 8 0
  regions := List.replicate 8 HostRegion.none
  hrConflict := 0
  epoch := 0
  latchRd := none
  heldWr := none
  rptHeld := []
  budgetLimit := 4
  units := 0

/-- The PF at start: created, RANDOM only, 16 vectors. -/
def Fn.pf : Fn := { Fn.vf with created := true, ops := 0x0800, msix := List.replicate 16 MsixEntry.blank, units := 1024 }

/-- A FREE token record: STATE 0 and every other field 0 (R236). -/
def Token.free : Token where
  st := .free
  func := 0
  slot := 0
  flow := 0
  cls := 0
  base := 0
  ring := 0
  ordered := false
  inherit := false
  accept := 0
  acceptRef := 0
  expire := none
  due := none
  seq := 0
  age := 0
  cage := 0
  aff := none
  pcl := 0
  bound := false
  mirror := false
  desc := []
  accNo := 0
  entry := 0
  dispatched := false
  work := 0
  status := 0
  mclass := 0
  resLen := 0
  units := 0
  mseq := none
  recNo := none
  replayed := false
  urg := false
  hostWait := 0

/-- A stream pointer at reset. -/
def Stream.blank : Stream := ⟨0, 0, 4, 0x10000, 0x100⟩

/-- A core out of service, at core-start values. -/
def Core.blank : Core where
  st := .off
  tok := none
  given := none
  late := none
  func := 0
  pc := 0
  askPc := 0
  ds := []
  cached := 0
  rs := []
  bs := []
  bnk := 0
  s0 := Stream.blank
  s1 := Stream.blank
  winIn := 0
  winOut := 0
  cyc := 0
  budget := 0xFFFFFFFF
  img := 0
  fault := 0
  faultPc := 0
  fwRet := 0
  fwFault := 0
  ctxKeep := 2048
  expired := false
  reset := false
  dropped := false
  closed := false
  prog := false
  ports := 0
  pins := []
  fuse := none
  lone := false
  stall := false
  issueWait := false
  loads := []
  stores := []
  reqs := []
  mem := []
  inList := []
  outList := []
  input := none
  kstat := none
  kseen := false
  kbad := false
  units := 0
  sampLeft := 0
  sampLfsr := 1
  sampDue := []

/-- A pane never loaded: FUNC 0x7FF, no regions. -/
def Pane.blank : Pane := ⟨0x7FF, [], 0⟩

/-- A checker at reset (PANE_STATE_m). -/
def Checker.blank : Checker := ⟨Pane.blank, Pane.blank, false, .empty, 0⟩

/-- A mover channel at reset. -/
def Chan.blank : Chan where
  qbase := 0
  qlog2 := 4
  head := 0
  tail := 0
  code := 14
  retries := 0
  residue := 0
  reqs := []
  cur := none
  asked := false
  bursts := 0
  got := 0
  put := 0
  hold := []
  retryWait := false
  abort := false
  halted := false
  dropped := false
  mir := none
  cred := none
  linkDown := false
  voids := []
  hw := none
  hwMiss := none
  keyq := []

/-- A block lane's per-core registers at reset. -/
def LanePort.blank : LanePort := ⟨none, 0, []⟩

/-- A lane at reset. -/
def Lane.blank : Lane := ⟨[], [], [], [], [], none, false, [], 0, 0, [], ⟨0, 0, 1, 1, 1⟩, ⟨0, 0, 1, 1, 1⟩⟩

/-- An LMK slot of a new device. -/
def LmkSlot.blank : LmkSlot := ⟨none, 0, 0, false, 0, false, [], [], false⟩

/-- A VF without LMK. -/
def Lmk.blank : Lmk := ⟨LmkSlot.blank, LmkSlot.blank, false, 0⟩

/-- Credits at reset. -/
def Cred.blank : Cred := ⟨0, 0, 0, 0, 0, 0, 0⟩

/-- A port at reset. -/
def Port.blank : Port where
  st := .disabled
  enable := true
  force56 := false
  slow := false
  nb := 0
  nbValid := false
  retrains := 0
  crc := 0
  replays := 0
  dHops := 0
  dNoroute := 0
  dFormat := 0
  dLost := 0
  cred := List.replicate 4 Cred.blank
  queue := []
  turn := false
  replay := []
  txSeq := 1
  rxSeq := 0
  ackAt := 0
  heard := 0
  silent := false
  left := none
  tries := 0
  failedAt := none

/-- A flow at start: both numbers 1 (R246). -/
def Flow.start : Flow := ⟨1, 1⟩

/-- A counter at reset. -/
def Ctr.blank : Ctr := ⟨false, false, false, false, 0, 0⟩
/-- A filter at reset. -/
def GFilter.blank : GFilter := ⟨false, 0, 0, false, false, false, 0, 0, 0, 0⟩
/-- A cluster's sampling at reset. -/
def Samp.blank : Samp := ⟨false, false, false, true, false, 0, 0xFF, 0x1000, 4, 0, []⟩

/-- The counter block at start, and after an FLR of the PF (R495, R506). -/
def Cnt.start : Cnt where
  freeze := false
  latThresh := 0xBB8
  waitThresh := 0x64
  ctrs := []
  filters := []
  samps := List.replicate 16 Samp.blank
  base := 0
  log2 := 2
  head := 0
  tail := 0
  used := 0

/-- The free pools at start: what the PF does not hold (R38). -/
def Share.startFree : Share := ⟨65536 - 1024, 262144 - 256, 1040384, 65536 - 1024⟩
/-- The PF's share at start (R38). -/
def Share.startPf : Share := ⟨1024, 256, 0, 1024⟩

/-- The host interface at start. -/
def Hif.start : Hif where
  fns := [(0, Fn.pf)]
  shares := [(0, Share.startPf)]
  free := Share.startFree
  vfEnable := false
  svcMode := .start
  svcLatches := 0
  svcHeld := false
  fnSel := 0
  req := Share.zero
  cmdResult := 0
  cmdPend := none
  snapFree := Share.startFree
  snapShare := Share.zero
  resetLast := 0
  accNo := 0
  relq := []
  ide := []
  hrStage := List.replicate 8 HostRegion.none
  mps := 128
  mrrs := 512
  linkUp := false

/-- Slalom at start. -/
def Slm.start : Slm where
  toks := []
  flows := []
  lift := []
  retryWait := []
  entryNo := 0
  tokenSel := 0
  tokenData := List.replicate 32 0
  ageThresh := List.replicate 7 0x7D
  urgThresh := 0x271
  qPace := 0x80
  qEnt := 0x40
  qRetry := 0x40
  conflict := false
  late := 0
  minAwake := 2
  margin := 0x32
  sleepIdle := 0x64
  clusters := List.replicate 16 .asleep
  idleSince := List.replicate 16 none
  forcedWakes := 0
  affinity := []
  lastScan := 0
  lastWake := 0
  load := []
  dead := []

/-- The event recorder of a new device. -/
def Aud.new : Aud where
  mram := []
  logNo := 0
  next := 0
  present := 0
  chain := List.replicate 32 0
  head := List.replicate 32 0
  lastTime := 0
  baseTime := 0
  held := []
  staging := []
  shutter := none
  peer := List.replicate 32 0
  crcErrors := 0
  anchorDue := true
  warned := false
  fullSaid := false
  buf := []
  ovf := 0
  headSent := 0

/-- The meters of a new device. -/
def Mtr.new : Mtr where
  total := []
  adds := []
  rcpt := []
  waiting := []
  final := []
  lastMinute := none
  base := 0
  log2 := 0xB
  enable := false
  head := 0
  tail := 0
  used := 0
  deferred := 0
  disciplined := false
  restarted := false

/-- The fault block at start, before the boot ledger is applied. -/
def Dbg.start : Dbg where
  errs := []
  lost := 0
  data := List.replicate 32 0
  corr := []
  uncorr := []
  secCorr := []
  xbarFenced := []
  sillSpares := 4
  sillRemapped := []
  inj := none
  pairFault := false
  failedWords := []
  parityAt := []
  fenceDue := []
  lastSecond := 0

/-- A knock path at start. -/
def Path.blank : Path := ⟨0, 0, 0, false, 0, 0, true, 0⟩

/-- A latch at start. -/
def Latch.blank : Latch :=
  ⟨false, false, 0, 0, 0, [], false, false, false, false, .none, false, none, false, none, false⟩

/-- The partner-pair logic of a device without a binding. -/
def Par.start : Par where
  bound := false
  partnerId := List.replicate 16 0
  partnerPk := List.replicate 64 0
  addr := 0
  bindHome := 0
  home := 0
  homeChecked := false
  aloneWait := 0x64
  mirrorTmo := 0x0A
  key := none
  keyPrev := none
  keyGen := 0
  keyUses := 0
  seq := 1
  pOpen := false
  lvds := Path.blank
  fab := Path.blank
  l0 := Latch.blank
  l1 := Latch.blank
  unitFault := false
  pElig := false
  pMode := 0
  pLogFull := false
  pHome := 0
  pMfmt := 0
  pConfirm := 0
  lastAny := none
  aloneSince := 0
  testFault := false
  offsets := []
  tickOffset := 0
  knockAt := 0
  renewAt := 0
  hoLatches := 0
  drain := 0xC8
  hoResult := 0
  handover := none
  load1 := []
  txNext := 1
  txq := []
  accepted := 0
  txFrames := 0
  retained := []
  acked := 0
  progressAt := 0
  resends := 0
  maxAck := 0
  sentAt := []
  confirm := 0
  rxApplied := 0
  rxHeld := []
  rxFrames := 0
  rxPart := []
  journal := []
  meters := []
  ringMir := []
  rstMir := []
  rptMir := []
  rcptMir := []
  mirrorAt := 0
  snapshot := []
  mfault := false
  mfaultDone := false
  kemDk := none
  rejoinTx := none
  replayed := 0
  replayApplied := 0

/-- An empty firmware slot. -/
def FwSlot.empty : FwSlot := ⟨false, 0, 0, []⟩

/-- The image in the boot flash of a new device: what it holds is the factory's (R469; log entry 10). -/
def FwSlot.factory : FwSlot := ⟨true, Config.fwVersion, Config.fwFloor, Config.fwDigest⟩

/-- Power and start of a new device at its first start: main power has just become present and step 0x01 runs. -/
def Pwr.new : Pwr where
  mode := .start
  main := true
  supplies := true
  pwrfail := none
  okSince := none
  backup := true
  secretOk := true
  ledgerOk := true
  keepBad := false
  step := 1
  held := false
  slot := 0
  formatted := false
  startCount := 1
  fwVersion := 0
  fwFloor := 0
  ledger := []
  ledgerSel := 0
  retest := false
  retried := []
  flashPtr := 0
  flashResult := 0
  flashBusy := none
  slotA := FwSlot.factory
  slotB := FwSlot.empty
  gpioConflict := false
  ppsEn := false
  svcEn := false
  ppsUntil := none
  ppsSecond := none
  cresLow := none
  cresSaid := false
  healthAt := 0
  heldAt := 0
  scrubAt := 0
  hashAsleep := 0

/-- Movers and checkers at start. -/
def Mov.start : Mov where
  chans := []
  retryCount := 3
  conflict := false
  ded := 0
  checkers := []
  paneConflict := false
  vios := []
  vioLost := 0
  vioData := List.replicate 32 0
  shared := []

/-- An alarm source at rest. -/
def AlarmSt.idle : AlarmSt := ⟨false, 0, none⟩

/-- A monitor with its default class (R321). -/
def Monitor.fresh (cls : Nat) : Monitor := ⟨.safe, .safe, false, 0, none, cls, 1, 0, AlarmSt.idle, AlarmSt.idle, none⟩

/-- The default classes of monitors 0-17 (R321). -/
def defaultClasses : List Nat := [2, 2, 2, 2, 2, 1, 1, 1, 1, 2, 2, 1, 1, 1, 2, 2, 1, 1]

/-- The tamper block of a new device. -/
def Tmp.new : Tmp where
  mons := defaultClasses.map Monitor.fresh
  lfsr := List.replicate 16 1
  lock := false
  erased := false
  cause := 0x3E
  lockSeq := 0
  applied := 0
  challenge := List.replicate 32 0
  chalTime := none
  chalDue := false
  unlockPtr := 0
  result := 0
  busy := false
  goTime := 0
  alarmed := false
  lockOrder := false
  eraseOrder := false
  encUse := 0
  encBurned := false
  lowRearmed := false
  vbatSaid := false

/-- An empty officer entry. -/
def Officer.empty : Officer := ⟨0, 0, 0, [], []⟩
/-- An empty challenge slot. -/
def Chal.empty : Chal := ⟨0, List.replicate 32 0, 0⟩

/-- Custody and life cycle of a new device: BLANK. -/
def Lcy.new : Lcy where
  state := .blank
  recs := List.replicate 16 ⟨0, 0, 0⟩
  tProvDig := Config.tProvDigest
  rom := (List.range 4).map Config.romKey
  otpHalf := List.replicate 32 0
  vidSeed := List.replicate 96 0
  idSeed := List.replicate 96 0
  provKey := List.replicate 32 0
  tDig := List.replicate 9 (List.replicate 32 0)
  payloadChk := List.replicate 4 0
  staged := none
  keepHalf := List.replicate 32 0
  ident := Config.deviceIdent
  returns := 0
  redeploys := 0
  deployCount := 0
  officers := List.replicate 20 Officer.empty
  chals := List.replicate 16 Chal.empty
  chalSlot := 0
  reqPtr := 0
  reqResult := 0
  holdEnd := none
  progKeys := []
  approvals := []
  intGrant := none
  scanGrant := none
  rejoin := none
  package := none
  ledgerLost := false

/-- An entropy source at start. -/
def Source.start : Source := ⟨.startup, 0, 0, 0, 0, 0, 0, [0, 0, 0, 0], 0, 0, 0, [], []⟩

/-- The entropy block at start. -/
def Ent.start : Ent where
  srcA := Source.start
  srcB := Source.start
  sel := 0
  switches := 0
  queue := []
  drbgs := List.replicate 16 ⟨[], [], 0, false, false, false⟩
  reqs := []

/-- The management target at start. -/
def I3c.start : I3c := ⟨none, 0, [], 0, false, 256, 256⟩

/-- The clusters at start. -/
def Cpu.start : Cpu where
  cores := []
  scratch := []
  parks := []
  images := []
  imageNo := 0
  fetches := []
  logical := []
  fenced := []
  spareUsed := 0
  short := 0
  tagNo := 0

/-- The lanes at start. -/
def Lanes.start : Lanes where
  lanes := []
  blkFenced := 0
  hashFenced := 0
  latFenced := 0
  modFenced := 0
  blkSpares := 2
  hashSpare := true
  mismatches := 0
  allBlock := false
  hashBusy := 0
  keyOut := []

/-- The key store of a new device. -/
def Kst.new : Kst where
  keys := []
  lmks := []
  vaultKey := []
  intKey := []
  vaultBase := 0
  fetchTimeout := 0x64
  fetchRsv := false
  misses := []
  missNo := 0
  cers := []
  cerNo := 1
  sens := []
  ledger := []
  useNo := 0

/-- The fabric block at start. -/
def Phl.start : Phl where
  cfgLock := false
  fmAddr := 0
  hopLimit := 0x20
  valid := false
  conflict := false
  addr := 0
  ports := List.replicate 8 Port.blank
  route := []
  routeSel := 0
  auditPeriod := 0x3E8
  auditFails := 0
  audits := 0
  auditAt := 0
  evts := []
  evtLost := 0
  evtData := List.replicate 16 0
  mtx := List.replicate 288 0
  mtxBusy := false
  mrx := []
  mrxDropped := 0
  mrxData := List.replicate 288 0
  role := 0
  upstream := 0
  syncPeriod := 0x3E8
  timeFar := false
  distance := 0x3F
  offset := 0
  exchanges := []
  good := 0
  missed := 0
  t1 := none
  syncAt := 0
  e2e := 0

/-- The clocks at the first start. -/
def TimeSt.start : TimeSt := ⟨0, 0, none, 0, 0, 0⟩

/-- The machine right after reset: a new device whose main power has just become present, at the beginning of its first start (R453, R505). -/
def State.reset : State where
  hif := Hif.start
  slm := Slm.start
  aud := Aud.new
  mtr := Mtr.new
  dbg := Dbg.start
  par := Par.start
  pwr := Pwr.new
  mov := Mov.start
  tmp := Tmp.new
  lcy := Lcy.new
  ent := Ent.start
  i3c := I3c.start
  cpu := Cpu.start
  lanes := Lanes.start
  kst := Kst.new
  phl := Phl.start
  cnt := Cnt.start
  time := TimeSt.start
  out := []
  freeCtr := 0
  pending := []

end Sys2Proof.Machine
end

