-- ==== Sys2Proof/Machine/Ops.lean ====
section
/-!
DEFINITION. The named operations shared by every block: tables, time, outbound traffic, MSI-X, host-region checks, violation
and error reports, health reports, the event recorder's append, mirror records, meter additions, and mode changes.
-/

namespace Sys2Proof.Machine

/-! ### Sparse tables -/

/-- The value of key `k`, or the default. -/
def tget {α : Type} (d : α) : Tab α → Nat → α
  | [], _ => d
  | (k', v) :: t, k => if k' = k then v else tget d t k

/-- Put a value at key `k`, keeping keys rising. -/
def tput {α : Type} : Tab α → Nat → α → Tab α
  | [], k, v => [(k, v)]
  | (k', v') :: t, k, v =>
    if k < k' then (k, v) :: (k', v') :: t
    else if k = k' then (k, v) :: t
    else (k', v') :: tput t k v

/-- Set key `k`, keeping keys rising and dropping an entry equal to the default. -/
def tset {α : Type} [DecidableEq α] (d : α) (t : Tab α) (k : Nat) (v : α) : Tab α :=
  if v = d then t.filter fun e => decide (e.1 ≠ k) else tput t k v

/-- Change the value of key `k`. -/
def tmod {α : Type} [DecidableEq α] (d : α) (t : Tab α) (k : Nat) (f : α → α) : Tab α := tset d t k (f (tget d t k))

/-- The canonical form of a table: keys strictly rising, no entry equal to the default. -/
def twf {α : Type} [DecidableEq α] (d : α) : Tab α → Bool
  | [] => true
  | [(_, v)] => v != d
  | (k, v) :: (k', v') :: t => v != d && decide (k < k') && twf d ((k', v') :: t)

/-- Read `n` bytes of a byte memory. -/
def mread (m : Tab Byte) (a n : Nat) : Bytes := (List.range n).map fun i => tget 0 m (a + i)

/-- Write bytes to a byte memory. -/
def mwrite (m : Tab Byte) (a : Nat) : Bytes → Tab Byte
  | [] => m
  | b :: bs => mwrite (tset 0 m a b) (a + 1) bs

/-! ### Blocks of the state -/

/-- Change the host interface. -/
def modHif (f : Hif → Hif) (s : State) : State := { s with hif := f s.hif }
/-- Change Slalom. -/
def modSlm (f : Slm → Slm) (s : State) : State := { s with slm := f s.slm }
/-- Change the event recorder. -/
def modAud (f : Aud → Aud) (s : State) : State := { s with aud := f s.aud }
/-- Change the meters. -/
def modMtr (f : Mtr → Mtr) (s : State) : State := { s with mtr := f s.mtr }
/-- Change the fault block. -/
def modDbg (f : Dbg → Dbg) (s : State) : State := { s with dbg := f s.dbg }
/-- Change the partner-pair logic. -/
def modPar (f : Par → Par) (s : State) : State := { s with par := f s.par }
/-- Change the power block. -/
def modPwr (f : Pwr → Pwr) (s : State) : State := { s with pwr := f s.pwr }
/-- Change the movers. -/
def modMov (f : Mov → Mov) (s : State) : State := { s with mov := f s.mov }
/-- Change the tamper block. -/
def modTmp (f : Tmp → Tmp) (s : State) : State := { s with tmp := f s.tmp }
/-- Change the custody block. -/
def modLcy (f : Lcy → Lcy) (s : State) : State := { s with lcy := f s.lcy }
/-- Change the entropy block. -/
def modEnt (f : Ent → Ent) (s : State) : State := { s with ent := f s.ent }
/-- Change the management target. -/
def modI3c (f : I3c → I3c) (s : State) : State := { s with i3c := f s.i3c }
/-- Change the clusters. -/
def modCpu (f : Cpu → Cpu) (s : State) : State := { s with cpu := f s.cpu }
/-- Change the lanes. -/
def modLanes (f : Lanes → Lanes) (s : State) : State := { s with lanes := f s.lanes }
/-- Change the key store. -/
def modKst (f : Kst → Kst) (s : State) : State := { s with kst := f s.kst }
/-- Change the fabric block. -/
def modPhl (f : Phl → Phl) (s : State) : State := { s with phl := f s.phl }
/-- Change the counter block. -/
def modCnt (f : Cnt → Cnt) (s : State) : State := { s with cnt := f s.cnt }
/-- Change the clocks. -/
def modTime (f : TimeSt → TimeSt) (s : State) : State := { s with time := f s.time }
/-- The minute of a device time (R376). -/
def minuteOf (v : Nat) : Nat := v / 60000000
/-- Device time is set to `v`: it stands in a minute whose start no edge latched, and the minutes a forward step skips have no edge (R375, R395). -/
def epochPut (v : Nat) (s : State) : State :=
  { s with time := { s.time with dev := some v, frac := 0 }, mtr := { s.mtr with lastMinute := some (minuteOf v) } }
/-- Send something out of the device. -/
def emit (o : Out) (s : State) : State := { s with out := s.out ++ [o] }
/-- Draw the next free value's index. -/
def bumpFree (s : State) : State := { s with freeCtr := s.freeCtr + 1 }

/-! ### Time (R8, R256, R373, R457) -/

/-- The tick counter (R457). -/
def tick (s : State) : Nat := s.time.refCount / 100

/-- A TIME field written by the device: device time, or ticks since start with bit 63 set (R373). -/
def timeField (s : State) : Nat :=
  match s.time.dev with
  | some t => t
  | none => tick s + 2 ^ 63

/-- The append-time base of a record: device time, or ticks while NOT_SET (R379). -/
def appendTime (s : State) : Nat :=
  match s.time.dev with
  | some t => t
  | none => tick s

/-! ### Functions and rings -/

/-- Function `f`. -/
def fnOf (s : State) (f : Nat) : Fn := tget Fn.vf s.hif.fns f
/-- Change function `f`. -/
def modFn (f : Nat) (g : Fn → Fn) (s : State) : State :=
  modHif (fun h => { h with fns := tmod Fn.vf h.fns f g }) s
/-- A write of some register by function `f` discards the low word it held for another (R503). -/
def regWrote (f : Nat) (s : State) : State :=
  if s.pwr.main ∧ s.hif.linkUp ∧ s.pwr.mode ≠ .guard then modFn f (fun x => { x with heldWr := none }) s else s
/-- Ring pair `n` of function `f`. -/
def ringOf (s : State) (f n : Nat) : Ring := (fnOf s f).rings.getD n Ring.blank
/-- Change ring pair `n` of function `f`. -/
def modRing (f n : Nat) (g : Ring → Ring) (s : State) : State :=
  modFn f (fun x => { x with rings := x.rings.modify n g }) s
/-- The share of function `f` (R38). -/
def shareOf (s : State) (f : Nat) : Share := tget Share.zero s.hif.shares f

/-- A ring size from its log2 code: 0 encodes 16 (R52). -/
def ringSize (code : Nat) : Nat := if code = 0 then 65536 else 2 ^ code

/-- The load a VF belongs to (R425). -/
def loadOf (s : State) (f : Nat) : Nat := if f ∈ s.par.load1 then 1 else 0

/-- The LOAD byte of a function's records: its load, or 2 for the PF (R438). -/
def loadByte (s : State) (f : Nat) : Nat := if f = 0 then 2 else loadOf s f

/-- Latch `l`. -/
def latch (s : State) (l : Nat) : Latch := if l = 0 then s.par.l0 else s.par.l1
/-- Change latch `l`. -/
def modLatch (l : Nat) (g : Latch → Latch) (s : State) : State :=
  modPar (fun p => if l = 0 then { p with l0 := g p.l0 } else { p with l1 := g p.l1 }) s

/-- Latches held, 0-2; an unbound device in ACTIVE holds one (R464). -/
def latchCount (s : State) : Nat :=
  if s.par.bound then b2n s.par.l0.holder + b2n s.par.l1.holder
  else if s.pwr.mode = .active then 1 else 0

/-- HIF_SVC_STATE.MODE code (R37). -/
def modeCode : Mode → Nat
  | .guard => 0 | .start => 1 | .active => 2 | .standby => 3 | .locked => 4 | .recovery => 5

/-- LCY_STATE.STATE code (R354). -/
def lcsCode : Lcs → Nat
  | .blank => 0 | .provisioned => 1 | .deployed => 2 | .returned => 3 | .retired => 4

/-- The device serves function `f`: ACTIVE, with the latch of its load, not stopped, not in takeover (R23, R425, R446, R476). -/
def serves (s : State) (f : Nat) : Bool :=
  decide (s.pwr.mode = .active) && s.pwr.main && s.hif.linkUp && !s.dbg.pairFault &&
  (!s.par.bound ||
    (if f = 0 then decide (latchCount s ≠ 0)
     else let l := latch s (loadOf s f)
          l.holder && !l.fenced && !l.stopped && decide (l.take = .none)))

/-! ### MSI-X (R58) -/

/-- Fire vector `v` of function `f`: a masked vector sets its pending bit; nothing is sent while the function is in reset (R62). -/
def fireMsix (f v : Nat) (s : State) : State :=
  let x := fnOf s f
  match x.msix[v]? with
  | none => s
  | some e =>
    if x.rst.isSome || !s.hif.linkUp || !s.pwr.main then s
    else if e.mask then modFn f (fun x => { x with msix := x.msix.modify v fun e => { e with pend := true } }) s
    else emit (.msix f v e.addr e.data) s

/-! ### Counters (R487-R493) -/

/-- Counter `i`. -/
def ctrOf (s : State) (i : Nat) : Ctr := tget Ctr.blank s.cnt.ctrs i
/-- Change counter `i`. -/
def modCtr (i : Nat) (g : Ctr → Ctr) (s : State) : State :=
  modCnt (fun c => { c with ctrs := tmod Ctr.blank c.ctrs i g }) s
/-- Filter of global counter `g`. -/
def filterOf (s : State) (g : Nat) : GFilter := tget GFilter.blank s.cnt.filters g

/-- What happened, and where: the attributes that filters test (R488, R490). -/
structure Ev where
  /-- Event number. -/
  num : Nat
  /-- First counter of the unit and how many it has; none for a global event. -/
  unit : Option (Nat × Nat)
  /-- MASTER code of the unit. -/
  master : Option Nat
  /-- The function whose command caused it. -/
  func : Option Nat
  /-- A core's mode: 1 firmware, 2 program; 0 for no core. -/
  priv : Nat
  /-- Space (1 host) and address. -/
  addr : Option (Nat × Nat)

/-- Add to counter `i`, carrying into the chained counters above it in its unit (R493). -/
def ctrAdd : Nat → Nat → Nat → State → State
  | above, i, n, s =>
    let c := ctrOf s i
    let v := c.count + n
    let s := modCtr i (fun c => { c with count := v % 2 ^ 48, ovf := c.ovf || decide (2 ^ 48 ≤ v) }) s
    if v < 2 ^ 48 then s
    else
      let next := ctrOf s (i + 1)
      match above with
      | a + 1 => if next.chain ∧ next.enable then ctrAdd a (i + 1) (v / 2 ^ 48) s else if c.irq then fireMsix 0 11 s else s
      | 0 => if c.irq then fireMsix 0 11 s else s

/-- A counter counts an event: enabled, of that EVENT, and not chained to one below it in its unit (R488, R493). -/
def ctrTakes (c : Ctr) (num : Nat) (first : Bool) : Bool := c.enable && decide (c.event = num) && (first || !c.chain)

/-- A filter admits an event (R490). -/
def filterAdmits (f : GFilter) (e : Ev) : Bool :=
  (match f.priv with | 0 => true | 1 => decide (e.priv = 1) | 2 => decide (e.priv = 2) | _ => e.func.isNone) &&
  (!f.funcEn || decide (e.func = some f.func)) && (!f.masterEn || decide (e.master = some f.master)) &&
  (!f.addrEn || (match e.addr with | some x => decide (x.1 = f.space) && decide (f.alo ≤ x.2) && decide (x.2 ≤ f.ahi) | none => false))

/-- Count `n` events in the unit's counters and in the global counters whose filters admit them (R488-R493). -/
def countEv (e : Ev) (n : Nat) (s : State) : State :=
  if s.cnt.freeze ∨ n = 0 ∨ s.cnt.ctrs.isEmpty then s
  else
    let s := match e.unit with
      | some u => (List.range u.2).foldl (fun s i => if ctrTakes (ctrOf s (u.1 + i)) e.num (i = 0) then ctrAdd (u.2 - 1 - i) (u.1 + i) n s else s) s
      | none => s
    (List.range 32).foldl (fun s g =>
      if ctrTakes (ctrOf s (1140 + g)) e.num (g = 0) && filterAdmits (filterOf s g) e then ctrAdd (31 - g) (1140 + g) n s else s) s

/-- A global event of a function (R488). -/
def countFn (num f : Nat) (s : State) : State := countEv ⟨num, none, none, some f, 0, none⟩ 1 s

/-- A core event (R488). -/
def countCore (num p n : Nat) (addr : Option (Nat × Nat)) (s : State) : State :=
  let c := tget Core.blank s.cpu.cores p
  countEv ⟨num, some (6 * p, 6), some p, if c.tok.isSome || c.expired || c.reset || c.dropped then some c.func else none,
    if c.prog then 2 else 1, addr⟩ n s

/-- A mover event of channel `n` (R488). -/
def countChan (num n k : Nat) (func : Option Nat) (addr : Option (Nat × Nat)) (s : State) : State :=
  countEv ⟨num, some (996 + 2 * n, 2), some (0xC0 + n), func, 0, addr⟩ k s

/-- A port event (R488). -/
def countPort (num p k : Nat) (s : State) : State :=
  countEv ⟨num, some (1124 + 2 * p, 2), some (0xB8 + p), none, 0, none⟩ k s

/-! ### Health reports (R450) and the MCTP queue (R422) -/

/-- Raise an IBI while a message is queued and IBIs are enabled (R422). -/
def ibiRaise (s : State) : State :=
  if s.i3c.ibi && s.i3c.da.isSome && s.pwr.main && !s.i3c.queue.isEmpty then emit (.ibi 0xAE) s else s

/-- Queue an MCTP message; a full queue drops and counts it (R422). -/
def mctpQueue (m : Bytes) (s : State) : State :=
  if s.i3c.queue.length < 16 then ibiRaise (modI3c (fun c => { c with queue := c.queue ++ [m] }) s)
  else modI3c (fun c => { c with dropped := satAdd 0xFF c.dropped 1 }) s

/-- USED of the log: records given a SEQ, and records in the keep RAM buffer (R383). -/
def logUsed (s : State) : Nat := s.aud.next + s.aud.buf.length

/-- The log is full for commands (R384). -/
def logFull (s : State) : Bool := decide (520192 ≤ logUsed s)

/-- This device is eligible (R426). -/
def eligible (s : State) : Bool :=
  s.par.bound && (decide (s.pwr.mode = .active) || decide (s.pwr.mode = .standby)) && s.par.key.isSome &&
  (s.par.lvds.txOk || s.par.fab.txOk) && !s.par.testFault && !s.dbg.pairFault

/-- The 64-byte body of a health report (R450). -/
def healthBody (kind : Nat) (detail : Bytes) (s : State) : Bytes :=
  [1, BitVec.ofNat 8 kind, BitVec.ofNat 8 (modeCode s.pwr.mode)] ++
  leBytes 1 (latchCount s + 4 * b2n s.par.l0.pCur + 8 * b2n s.par.l1.pCur + 16 * b2n (eligible s) + 32 * b2n (logFull s) +
    64 * b2n s.par.lvds.ok + 128 * b2n s.par.fab.ok) ++
  leBytes 1 (lcsCode s.lcy.state) ++ zeroBytes 3 ++ padTo 16 s.lcy.ident ++ leBytes 8 (timeField s) ++
  leBytes 2 (if s.par.bound then s.par.addr else 0xFFF) ++ padTo 30 detail

/-- Send a health report of the given KIND (R450). -/
def healthReport (kind : Nat) (detail : Bytes) (s : State) : State :=
  mctpQueue ([0x7E] ++ beBytes 2 Config.vendorId ++ healthBody kind detail s) s

/-! ### LOCK in keep RAM (R329) -/

/-- Set LOCK_LATCH with its cause, counting LOCK_SEQ, and order LOCK; a LOCK that is latched takes only a cause it lacks (R329, R334). -/
def lockLatch (cause : Nat) (s : State) : State :=
  modTmp (fun t =>
    let t := { t with cause := if t.cause = 0x3E then cause else t.cause }
    if t.lock then t
    else { t with lock := true, lockSeq := (t.lockSeq + 1) % 65536, lockOrder := t.lockOrder || s.pwr.main, applied := max t.applied 1 }) s

/-! ### Mirror stream (R438, R439) -/

/-- The mirror stream to the partner is running. -/
def streamOn (s : State) : Bool := s.par.bound && s.par.key.isSome && s.par.pElig && s.pwr.main

/-- Queue a mirror record; its MSEQ is the stream's next number (R438). -/
def mirrorSend (type load : Nat) (body : Bytes) (s : State) : State :=
  if streamOn s then
    let n := s.par.txNext
    let len := if type = 6 then 0 else 16 + body.length
    let r := leBytes 1 type ++ leBytes 1 load ++ leBytes 2 len ++ zeroBytes 4 ++ leBytes 8 n ++ body
    modPar (fun p => { p with
      txNext := n + 1, txq := p.txq ++ [(n, r)], retained := p.retained ++ [⟨n, r, 0⟩],
      sentAt := p.sentAt ++ [(n, s.time.refCount)] }) s
  else s

/-- The MSEQ the next mirror record will take, when the stream is running. -/
def nextMseq (s : State) : Option Nat := if streamOn s then some s.par.txNext else none

/-! ### Event recorder (R377-R391) -/

/-- Put a record in the keep RAM record buffer; a full buffer counts an overflow and latches LOCK (R29, R333). -/
def bufPush (r : BufRec) (s : State) : State :=
  if s.aud.buf.length < 64 then modAud (fun a => { a with buf := a.buf ++ [r] }) s
  else lockLatch 63 (modAud (fun a => { a with ovf := satAdd 255 a.ovf 1 }) s)

/-- Bytes +0x00 to +0x3B of a record (R377). -/
def recBytes (seq code flags delta func : Nat) (body : Bytes) : Bytes :=
  let b := leBytes 4 seq ++ leBytes 2 code ++ leBytes 1 flags ++ [0] ++ leBytes 4 delta ++ leBytes 2 func ++ [0, 0] ++ padTo 40 body
  b ++ leBytes 4 (crc32c b).toNat

/-- The chain value after a record (R380). -/
def chainNext (prev bytes : Bytes) : Bytes := shake256 32 (prev ++ bytes.take 56)

/-- Write the body of a record to its MRAM slot, keeping the slot's VALID word as it was (R378). -/
def mramBody (m : Tab Bytes) (n : Nat) (bytes : Bytes) : Tab Bytes :=
  tset [] m n (bytes ++ slice (tget [] m n) 60 4)

/-- Give a record its SEQ, DELTA and chain value and hand it to MRAM, or to staging while the Shutter is closed or draining (R378, R386). -/
def recAssign (code flags func : Nat) (body : Bytes) (s : State) : State :=
  let now := appendTime s
  let fresh := s.aud.anchorDue && s.time.dev.isNone
  let t := if fresh then now else max s.aud.lastTime now
  let delta := if fresh then 0 else min 0xFFFFFFFF (t - s.aud.lastTime)
  let b := recBytes s.aud.next code flags delta func body
  let h : HeldRec := ⟨s.aud.next, b, chainNext s.aud.chain b, t⟩
  modAud (fun a =>
    let a := { a with next := a.next + 1, chain := h.chain, lastTime := t, anchorDue := false }
    if a.shutter.isSome || !a.staging.isEmpty then { a with staging := a.staging ++ [h] }
    else { a with held := a.held ++ [h], mram := mramBody a.mram h.seq b }) s

/-- The TIME_ANCHOR record (R379): absolute append time and the chain value before it. -/
def recAnchor (s : State) : State :=
  recAssign 0x0002 (8 * b2n s.time.dev.isNone) 0 (leBytes 8 (appendTime s) ++ s.aud.chain) s

/-- An anchor comes before the next record: first of a start, SEQ a multiple of 4,096, or a DELTA past 32 bits (R379). -/
def anchorNeeded (s : State) : Bool :=
  s.aud.anchorDue || decide (s.aud.next % 4096 = 0) || decide (0xFFFFFFFF < appendTime s - s.aud.lastTime)

/-- The start's LOG step has passed, or the start is over: records go to MRAM (R391, R467). -/
def logReady (s : State) : Bool :=
  decide (s.pwr.mode ≠ .start) || (let e := tget ⟨0, 0, 0⟩ s.pwr.ledger (256 * 6); decide (e.last = 1) || decide (e.last = 5))

/-- The recorder cannot take the record now: no main power, the start's LOG step to come, the reserve full, or staging full while the Shutter
is closed (R385, R387, R391). -/
def recBlocked (s : State) : Bool :=
  !s.pwr.main || !logReady s || decide (524286 < s.aud.next) ||
  (s.aud.shutter.isSome && decide (4094 < s.aud.staging.length))

/-- A command that would write a record stalls: the Shutter is closed and its staging full (R387). -/
def recStall (s : State) : Bool := s.aud.shutter.isSome && decide (4094 < s.aud.staging.length)

/-- Append a record, without the threshold records. -/
def recAppend (code flags func : Nat) (body : Bytes) (s : State) : State :=
  if recBlocked s then bufPush ⟨code, func, flags, body, timeField s⟩ s
  else
    let s := if anchorNeeded s then recAnchor s else s
    recAssign code flags func body s

/-- Append LOG_WARN once at a USED of 458,752, with PF vector 6 and a health report (R383). -/
def logWarn (s : State) : State :=
  if decide (458752 ≤ logUsed s) && !s.aud.warned then
    let s := modAud (fun a => { a with warned := true }) s
    healthReport 9 [] (fireMsix 0 6 (recAppend 0x0004 0 0 (leBytes 4 (logUsed s)) s))
  else s

/-- Append LOG_FULL once when USED reaches 520,192 (R384). -/
def logFullSay (s : State) : State :=
  if logFull s && !s.aud.fullSaid then
    let s := modAud (fun a => { a with fullSaid := true }) s
    healthReport 9 [] (recAppend 0x0005 0 0 (leBytes 4 (logUsed s)) s)
  else s

/-- Send the chain head to the partner when uncommanded records have moved it, at most once per 100 µs (R438 HEAD). -/
def headMirror (s : State) : State :=
  if streamOn s && decide (s.aud.headSent + 10000 ≤ s.time.refCount) then
    mirrorSend 7 0xFF s.aud.chain (modAud (fun a => { a with headSent := s.time.refCount }) s)
  else s

/-- Write a record of the catalogue (R382), with the threshold records that follow (R383, R384). -/
def audit (code func : Nat) (body : Bytes) (s : State) : State :=
  logFullSay (logWarn (recAppend code 0 func body s))

/-- Write an uncommanded record, and show the moved head to the partner (R385, R438). -/
def auditU (code flags func : Nat) (body : Bytes) (s : State) : State :=
  headMirror (logFullSay (logWarn (recAppend code flags func body s)))

/-- A command that would write a kind C record is refused: the log, or the partner's, is full for commands (R384, R442). -/
def recordRefused (s : State) : Bool := logFull s || (s.par.bound && s.par.pLogFull)

/-! ### Modes (R466) -/

/-- Update the service-state word, unless a takeover or a handover under way holds it (R36, R37). -/
def showSvc (s : State) : State :=
  if s.par.l0.take = .none ∧ s.par.l1.take = .none ∧ s.hif.svcHeld = false then
    modHif (fun h => { h with svcMode := s.pwr.mode, svcLatches := latchCount s }) s
  else s

/-- Update the service-state word, with PF vector 5 where its MODE or LATCHES changes (R37, R58). -/
def svcUpdate (s : State) : State :=
  let t := showSvc s
  if t.hif.svcMode = s.hif.svcMode ∧ t.hif.svcLatches = s.hif.svcLatches then t else fireMsix 0 5 t

/-- Change the mode: a MODE record, PF vector 5 and the service-state word (R466). -/
def setMode (m : Mode) (s : State) : State :=
  if s.pwr.mode = m then svcUpdate s
  else
    let old := modeCode s.pwr.mode
    let s := modPwr (fun p => { p with mode := m }) s
    let s := auditU 0x0011 0 0 (leBytes 1 old ++ leBytes 1 (modeCode m) ++ leBytes 1 (latchCount s) ++
      leBytes 1 (Config.modeCause old (modeCode m))) s
    fireMsix 0 5 (showSvc s)

/-! ### Mover channels -/

/-- Channel `n`. -/
def chan (s : State) (n : Nat) : Chan := tget Chan.blank s.mov.chans n
/-- Change channel `n`. -/
def modChan (n : Nat) (g : Chan → Chan) (s : State) : State :=
  modMov (fun m => { m with chans := tmod Chan.blank m.chans n g }) s

/-! ### Host regions (R283-R289) and violation reports (R293) -/

/-- A region grants reads (R, PR) or writes (W, PW) of host space, in firmware mode and to movers, or in program mode (R284). -/
def regionGrants (r : HostRegion) (prog write : Bool) : Bool :=
  r.attr.testBit ((if write then 2 else 1) + if prog then 3 else 0)

/-- A region is valid and in host space (R284). -/
def regionHost (r : HostRegion) : Bool := r.attr.testBit 0 && decide (bitsOf r.attr 15 14 = 1)

/-- The first host-space region holding byte `a`. -/
def regionAt (rs : List HostRegion) (a : Nat) : Option (Nat × HostRegion) :=
  (rs.zipIdx.find? fun ri => regionHost ri.1 && decide (ri.1.base ≤ a) && decide (a < ri.1.base + 4096 * ri.1.pages)).map
    fun ri => (ri.2, ri.1)

/-- The first forbidden byte from `a` up to but not including `stop`: address, region, cause (R283, R287). -/
def firstForbidden (rs : List HostRegion) (prog write : Bool) (stop : Nat) : Nat → Nat → Option (Nat × Nat × Nat)
  | 0, a => if a < stop then some (a, 0xFF, 1) else none
  | n + 1, a =>
    if stop ≤ a then none
    else match regionAt rs a with
      | none => some (a, 0xFF, 1)
      | some (i, r) =>
        if regionGrants r prog write then firstForbidden rs prog write stop n (r.base + 4096 * r.pages)
        else some (a, 8 + i, 2)

/-- Two valid regions of one space overlap (R288). -/
def regionsOverlap (a b : HostRegion) : Bool :=
  a.attr.testBit 0 && b.attr.testBit 0 && decide (bitsOf a.attr 15 14 = bitsOf b.attr 15 14) &&
  decide (a.base < b.base + 4096 * b.pages) && decide (b.base < a.base + 4096 * a.pages)

/-- A region's format refuses the pane: reserved SPACE, CACHE or ORDER, execute in host space, or a core range past 32 bits (R284). -/
def regionBadFormat (r : HostRegion) : Bool :=
  r.attr.testBit 0 &&
  (decide (1 < bitsOf r.attr 15 14) || decide (bitsOf r.attr 13 12 = 3) || decide (bitsOf r.attr 11 10 = 3) ||
   (decide (bitsOf r.attr 15 14 = 1) && (r.attr.testBit 3 || r.attr.testBit 6)) ||
   (decide (bitsOf r.attr 15 14 = 0) && decide (0x100000000 < r.base + 4096 * r.pages)))

/-- The pane fault of a region list: region index, its BASE and cause 5 OVERLAP or 6 FORMAT (R284, R288, R293). -/
def paneFault (rs : List HostRegion) : Option (Nat × Nat × Nat) :=
  let z := rs.zipIdx
  match z.find? fun ri => regionBadFormat ri.1 with
  | some (r, i) => some (8 + i, r.base, 6)
  | none =>
    ((z.flatMap fun ri => (z.filter fun rj => decide (ri.2 < rj.2)).map fun rj => (ri, rj)).find?
      fun p => regionsOverlap p.1.1 p.2.1).map fun p => (8 + p.2.2, p.2.1.base, 5)

/-- Queue a violation report and raise PF vector 12 (R293). -/
def vioQueue (v : VioReport) (s : State) : State :=
  let s := modMov (fun m =>
    if m.vios.length < 64 then { m with vios := m.vios ++ [v] } else { m with vioLost := satAdd 0xFFFF m.vioLost 1 }) s
  fireMsix 0 12 s

/-- The refusal of a host access by function `f`'s regions: violation report contents, none when allowed. -/
def hostRefusal (s : State) (master f a len : Nat) (write : Bool) : Option VioReport :=
  let rs := (fnOf s f).regions
  match paneFault rs with
  | some (i, b, c) => some ⟨b, timeField s, 5, master, i, c, f, false, 1, len, 0⟩
  | none =>
    (firstForbidden rs false write (a + len) (rs.length + 1) a).map fun x =>
      ⟨x.1, timeField s, if write then 4 else 3, master, x.2.1, x.2.2, f, false, 1, len, x.1 - a⟩

/-- The host interface channel of ring pair `n` of function `f`, as the MASTER of a report (R293, R535). -/
def hifMaster (f n : Nat) : Nat := 0xC0 + (4 * f + n) % 16

/-- A write may carry the relaxed ordering attribute: the region's ORDER is relaxed and the function enables it (R33, R289). -/
def relaxedAt (s : State) (f a : Nat) : Bool :=
  (fnOf s f).relaxed && (match regionAt (fnOf s f).regions a with | some r => decide (bitsOf r.2.attr 13 12 = 0) | none => false)

/-- A request carries the No Snoop attribute: the region's CACHE is non-cacheable (R289). -/
def noSnoopAt (s : State) (f a : Nat) : Bool :=
  match regionAt (fnOf s f).regions a with | some r => decide (bitsOf r.2.attr 11 10 = 2) | none => false

/-- An access is strict: the region's ORDER is strict (R289). -/
def strictAt (s : State) (f a : Nat) : Bool :=
  match regionAt (fnOf s f).regions a with | some r => decide (bitsOf r.2.attr 13 12 = 2) | none => false

/-- The beats of a host transfer, with fuel: at most `lim` bytes each, none across a 4 KiB boundary (R274). -/
def hostBeats (lim : Nat) : Nat → Nat → Nat → List (Nat × Nat)
  | 0, _, _ => []
  | n + 1, a, len =>
    if len = 0 then []
    else
      let k := min len (min (max 1 lim) (4096 - a % 4096))
      (a, k) :: hostBeats lim n (a + k) (len - k)

/-- The longest host read beat: 256 bytes, and Max Read Request Size (R274). -/
def readLim (s : State) : Nat := min 256 s.hif.mrrs
/-- The longest host write beat: 256 bytes, and Max Payload Size (R274). -/
def writeLim (s : State) : Nat := min 256 s.hif.mps

/-- The beats of a host range. -/
def beatsOf (lim a len : Nat) : List (Nat × Nat) := hostBeats lim (len / max 1 lim + len / 4096 + 2) a len

/-- The reads of `len` bytes at `a` for function `f`, beat by beat (R274). -/
def readsOf (s : State) (f a len : Nat) : List Out := (beatsOf (readLim s) a len).map fun b => .read f b.1 b.2 (noSnoopAt s f b.1)

/-- The writes of bytes at `a` for function `f`, beat by beat (R274, R289). -/
def writesOf (s : State) (f a : Nat) (d : Bytes) (relaxed : Bool) : List Out :=
  (beatsOf (writeLim s) a d.length).map fun b =>
    .write f b.1 (slice d (b.1 - a) b.2) (relaxed && relaxedAt s f b.1) (noSnoopAt s f b.1)

/-- Send several things out of the device. -/
def emitAll (l : List Out) (s : State) : State := { s with out := s.out ++ l }

/-- Read host pieces of function `f`, beat by beat. -/
def hostReads (f : Nat) (ps : List (Nat × Nat)) (s : State) : State := ps.foldl (fun s x => emitAll (readsOf s f x.1 x.2) s) s

/-- MOV_CH_STAT of the channel that a hardware owner's work uses, as MASTER; a queued descriptor's own state stays (R271, R273, R535). -/
def chanStat (master code retries residue : Nat) (s : State) : State :=
  if master < 0xC0 then s
  else modChan (master - 0xC0) (fun c =>
    if c.cur.isSome then c else { c with code := code, retries := retries, residue := residue }) s

/-- A hardware owner's data has been delivered: its channel reads DONE, and its bytes and burst are counted (R273, R488, R535). -/
def chanDone (master f len : Nat) (s : State) : State :=
  let n := master - 0xC0
  countChan 0x202 n 1 (some f) none (countChan 0x201 n len (some f) none (chanStat master 0 0 0 s))

/-- A hardware owner's read fails after its retries: BUS_ERROR; the owner reads it and resumes the channel at once (R13, R277). -/
def chanFail (master len : Nat) (s : State) : State := chanStat master 1 s.mov.retryCount len s

/-- A checked host write of function `f`: issued when allowed, else a violation report; the flag says whether it was issued. Structures of up
to 64 bytes are aligned to their size, and leave as one write. -/
def hostWrite (master f a : Nat) (d : Bytes) (relaxed : Bool) (s : State) : Bool × State :=
  match hostRefusal s master f a d.length true with
  | some v => (false, chanStat master 2 0 d.length (vioQueue v s))
  | none => (true, chanDone master f d.length (
      if d.length ≤ 64 then emit (.write f a d (relaxed && relaxedAt s f a) (noSnoopAt s f a)) s else emitAll (writesOf s f a d relaxed) s))

/-- A checked host read request of function `f`: the channel runs until its data arrives. Structures of up to 64 bytes are aligned to their
size, and are read at once. -/
def hostRead (master f a len : Nat) (s : State) : Bool × State :=
  match hostRefusal s master f a len false with
  | some v => (false, chanStat master 2 0 len (vioQueue v s))
  | none => (true, chanStat master 15 0 0 (if len ≤ 64 then emit (.read f a len (noSnoopAt s f a)) s else emitAll (readsOf s f a len) s))

/-! ### Tags (R33, R270) -/

/-- Host reads outstanding: descriptor fetches, vault reads, and channels waiting for a beat or for a key fetch. -/
def tagsUsed (s : State) : Nat :=
  (s.hif.fns.map fun e => (e.2.rings.map fun r => r.inFlight).sum).sum +
  (s.kst.lmks.map fun e => b2n e.2.s0.wait + b2n e.2.s1.wait).sum +
  (s.mov.chans.filter fun c => c.2.asked || c.2.hwMiss.isSome).length

/-- A tag is free for a read of channel `n`: 768 in all, of which 64 are kept for channels 56-63 (R33, R270). -/
def tagFree (s : State) (n : Nat) : Bool := decide (tagsUsed s < if 56 ≤ n then 768 else 704)

/-! ### Error reports (R477) -/

/-- BODY of an INTEGRITY record (R477). -/
def integrityBody (r : ErrReport) : Bytes :=
  leBytes 2 r.det ++ leBytes 1 r.sev ++ leBytes 1 r.action ++ leBytes 2 r.unit ++ zeroBytes 2 ++ leBytes 8 r.addr ++
  leBytes 4 r.syndrome ++ leBytes 4 r.count

/-- The 32 bytes of an error report (R477). -/
def errBytes (r : ErrReport) : Bytes :=
  leBytes 8 r.time ++ leBytes 2 r.det ++ leBytes 1 r.sev ++ leBytes 1 r.action ++ leBytes 2 r.unit ++ leBytes 2 r.func ++
  leBytes 8 r.addr ++ leBytes 4 r.syndrome ++ leBytes 2 r.count ++ leBytes 1 (b2n r.test) ++ [0]

/-- A detection of severity COMMAND, UNIT or PAIR: report, count, INTEGRITY record, AER, and for UNIT and PAIR vector 4 and a health report (R477). -/
def errReport (det sev action unit func addr syndrome : Nat) (test : Bool) (s : State) : State :=
  let r : ErrReport := ⟨timeField s, det, sev, action, unit, func, addr, syndrome, 1, test⟩
  let s := modDbg (fun d =>
    let d := { d with uncorr := tmod 0 d.uncorr det fun n => satAdd 0xFFFF n 1 }
    if d.errs.length < 64 then { d with errs := d.errs ++ [r] } else { d with lost := satAdd 0xFFFF d.lost 1 }) s
  let s := emit (.aer true) (auditU 0x0500 (4 * b2n test) func (integrityBody r) s)
  if 2 ≤ sev then healthReport 7 (leBytes 2 unit) (fireMsix 0 4 s) else s

/-- A corrected detection: counted, with the correctable AER status (R477). -/
def errCorrected (det : Nat) (s : State) : State :=
  emit (.aer false) (modDbg (fun d => { d with
    corr := tmod 0 d.corr det fun n => satAdd 0xFFFF n 1, secCorr := tmod 0 d.secCorr det fun n => n + 1 }) s)

/-! ### Injection (R483-R486) -/

/-- An armed injection of detector `det` meets unit `unit`: whether it fires, its kind, FULL, and the state with the event consumed. -/
def injTake (det unit : Nat) (s : State) : Option (Nat × Bool) × State :=
  match s.dbg.inj with
  | some i =>
    if i.point = det ∧ (i.unit = unit ∨ i.unit = 0xFFFF) ∧ i.left ≠ 0 then
      (some (i.kind, i.full), modDbg (fun d => { d with inj := if i.left = 1 then none else some { i with left := i.left - 1 } }) s)
    else (none, s)
  | none => (none, s)

/-! ### Meters (R392) -/

/-- Send a meter addition over the sill link (R392). -/
def meterAdd (fn cls units : Nat) (s : State) : State :=
  if units = 0 then s else modMtr (fun m => { m with adds := m.adds ++ [⟨fn, cls, units⟩] }) s

/-- A receipt chain at its start (R395). -/
def RcptState.blank : RcptState := ⟨0, 0, List.replicate 16 0, zeroBytes 32, 0, none⟩

/-- Receipt chain of function `f`. -/
def rcptOf (s : State) (f : Nat) : RcptState := tget RcptState.blank s.mtr.rcpt f
/-- Change the receipt chain of function `f`. -/
def modRcpt (f : Nat) (g : RcptState → RcptState) (s : State) : State :=
  modMtr (fun m => { m with rcpt := tmod RcptState.blank m.rcpt f g }) s

/-- Set a FLAGS bit for the next receipt of function `f` (R396). -/
def rcptFlag (bit : Nat) (s : State) (f : Nat) : State := modRcpt f (fun e => { e with flags := setBit e.flags bit true }) s

/-- The functions that are created, the PF among them, in function order. -/
def createdFns (s : State) : List Nat := (s.hif.fns.filter fun e => e.2.created).map fun e => e.1

/-! ### Free values -/

/-- The next free number. -/
def freeNat (s : State) : Nat := Config.freeNat s.freeCtr
/-- The next `n` free bytes. -/
def freeBytes (s : State) (n : Nat) : Bytes := padTo n (Config.freeBytes s.freeCtr n)

end Sys2Proof.Machine
end

