-- ==== Sys2Proof/Machine/Operands.lean ====
section
/-!
DEFINITION. Operand forms: the descriptor's fields (R44), the opcode table (R68-R71, R81, R532), the admission checks (R46),
and the fields of a completion (R49).
-/

namespace Sys2Proof.Machine

/-! ### Descriptor fields (R44) -/

/-- OPCODE. -/
def dOpcode (d : Bytes) : Nat := leAt d 0 2
/-- FLAGS. -/
def dFlags (d : Bytes) : Nat := leAt d 2 2
/-- FLAGS[0] IRQ. -/
def dIrq (d : Bytes) : Bool := (dFlags d).testBit 0
/-- FLAGS[1] ORDERED. -/
def dOrdered (d : Bytes) : Bool := (dFlags d).testBit 1
/-- FLAGS[2] SG_IN. -/
def dSgIn (d : Bytes) : Bool := (dFlags d).testBit 2
/-- FLAGS[3] SG_OUT. -/
def dSgOut (d : Bytes) : Bool := (dFlags d).testBit 3
/-- FLAGS[4] TWIN. -/
def dTwin (d : Bytes) : Bool := (dFlags d).testBit 4
/-- FLOW[17:0]. -/
def dFlow (d : Bytes) : Nat := bitsOf (leAt d 4 4) 17 0
/-- CLASS[20:18]. -/
def dClass (d : Bytes) : Nat := bitsOf (leAt d 4 4) 20 18
/-- DEADLINE[23:0]. -/
def dDeadline (d : Bytes) : Nat := leAt d 8 3
/-- NOT_BEFORE[23:0]. -/
def dNotBefore (d : Bytes) : Nat := leAt d 12 3
/-- KEY0, KEY1 or KEY2. -/
def dKey (d : Bytes) (n : Nat) : Nat := leAt d (16 + 4 * n) 4
/-- IN_LEN. -/
def dInLen (d : Bytes) : Nat := leAt d 28 4
/-- IN_PTR. -/
def dInPtr (d : Bytes) : Nat := leAt d 32 8
/-- OUT_PTR. -/
def dOutPtr (d : Bytes) : Nat := leAt d 40 8
/-- OUT_LEN. -/
def dOutLen (d : Bytes) : Nat := leAt d 48 4
/-- PARAM. -/
def dParam (d : Bytes) : Nat := leAt d 52 4
/-- TAG. -/
def dTag (d : Bytes) : Nat := leAt d 56 8

/-- A reserved bit of the descriptor or of FLAGS is nonzero (R46 check 1). -/
def dReserved (d : Bytes) : Bool :=
  decide (bitsOf (dFlags d) 15 5 ≠ 0) || decide (bitsOf (leAt d 4 4) 31 21 ≠ 0) || decide (leAt d 11 1 ≠ 0) || decide (leAt d 15 1 ≠ 0)

/-! ### The opcode table -/

/-- The management and custody opcodes defined on the manager's rings (R69). -/
def mgmtOps : List Nat :=
  [0x3001, 0x3002, 0x3005, 0x3020] ++
  [0x3101, 0x3102, 0x3103, 0x3104, 0x3105, 0x3106, 0x3107, 0x3108, 0x3110, 0x3111, 0x3112] ++
  [0x3201, 0x3202, 0x3301, 0x3302, 0x3303, 0x3401, 0x3402, 0x3501, 0x3601, 0x3602]

/-- The rows of R68 below CUSTOM: opcode, HIF_FN_OPS bit (R70), meter class (R81), IN_LEN range, OUT_LEN range (R532; none: no limit). -/
def opRows : List (Nat × Nat × Nat × Option (Nat × Nat) × Option (Nat × Nat)) :=
  [(0x1001, 0, 0, some (48, 48), some (8, 65536)), (0x1002, 0, 0, some (72, 72), some (0, 65536)),
   (0x1003, 0, 0, some (56, 56), some (0, 65536)), (0x1101, 1, 1, some (48, 48), some (3, 65536)),
   (0x1102, 1, 1, some (48, 48), some (0, 65536)), (0x1201, 2, 2, some (65, 320), some (0, 65536)),
   (0x1301, 3, 3, some (1, 65536), some (4, 65536)), (0x1302, 3, 3, some (17, 65552), none)] ++
  [(0x1401, 4, 4, some (64, 64), none), (0x1402, 4, 4, some (33, 65568), none),
   (0x1403, 4, 4, some (40, 65568), none), (0x1501, 5, 5, some (5, 132), some (1, 65536)),
   (0x1502, 5, 5, some (5, 132), some (1, 65536)), (0x1601, 6, 6, some (20, 2052), none),
   (0x1602, 6, 6, some (0, 0), none), (0x1603, 6, 6, some (20, 2052), none)] ++
  [(0x1604, 7, 6, some (8, 8), none), (0x1605, 8, 6, some (68, 8196), none), (0x1701, 9, 7, none, none),
   (0x1801, 10, 8, some (1, 16777216), none), (0x1901, 11, 9, some (0, 0), some (1, 0xFFFFFFFF))]

/-- The row of an opcode, CUSTOM included (R68). -/
def opRow (op : Nat) : Option (Nat × Nat × Option (Nat × Nat) × Option (Nat × Nat)) :=
  if 0x2000 ≤ op ∧ op ≤ 0x20FF then some (12, 10, none, none)
  else (opRows.find? fun r => r.1 = op).map fun r => r.2

/-- OPCODE is defined (R46 check 2, R69). -/
def opDefined (op : Nat) : Bool := (opRow op).isSome || decide (op ∈ mgmtOps)

/-- The opcode is permitted to function `f` (R46 check 3, R69-R71). -/
def opPermitted (s : State) (f op : Nat) : Bool :=
  if op ∈ mgmtOps then decide (f = 0)
  else match opRow op with
    | some r => (fnOf s f).ops.testBit r.1
    | none => false

/-- Meter class of an opcode (R81). -/
def opClass (op : Nat) : Nat :=
  match opRow op with
  | some r => r.2.1
  | none => 14

/-- Units of a dispatched command that ends without having processed or generated data (R81, R82). -/
def earlyUnits (op cyc : Nat) : Nat :=
  let c := opClass op
  if c = 10 then cdiv cyc 10000 else if c = 7 ∨ c = 8 ∨ c = 9 then 0 else 1

/-- State-changing commands (R15, R80, R352). -/
def opState (op : Nat) : Bool :=
  decide (0x1601 ≤ op ∧ op ≤ 0x1605) || (decide (op ∈ mgmtOps) && decide (op ≠ 0x3005))

/-- A length lies in an optional range. -/
def inRange (r : Option (Nat × Nat)) (v : Nat) : Bool :=
  match r with
  | none => true
  | some (lo, hi) => decide (lo ≤ v) && decide (v ≤ hi)

/-- IN_LEN and OUT_LEN lie in the opcode's admission range (R46 check 6, R532). The range that a management opcode 0x3xxx has is that of its
body and approvals, which the command itself checks (R347, R351 step 1): admission applies none to it (DESIGN CHOICE, log entry 59). -/
def lenOk (d : Bytes) : Bool :=
  match opRow (dOpcode d) with
  | none => true
  | some r =>
    let bulk := decide (dOpcode d = 0x1701) || decide (dOpcode d = 0x1801)
    let rIn := if bulk && dSgIn d then some (1, 65536) else r.2.2.1
    let rOut := if bulk && dSgOut d then some (1, 65536) else r.2.2.2
    inRange rIn (dInLen d) && inRange rOut (dOutLen d)

/-- Lift entries of one kind (R254). -/
def liftPace (e : LiftEntry) : Bool := match e.kind with | .pace _ => true | _ => false
/-- Entropy-wait entries. -/
def liftEnt (e : LiftEntry) : Bool := match e.kind with | .ent _ => true | _ => false
/-- Retry entries. -/
def liftRetry (e : LiftEntry) : Bool := match e.kind with | .retry _ => true | _ => false

/-- The Lift admits another entry of a kind with the given quota in units of 64 (R254). -/
def liftAdmits (s : State) (kind : LiftEntry → Bool) (quota : Nat) : Bool :=
  decide ((s.slm.lift.filter kind).length < 64 * quota) && decide (s.slm.lift.length < 16384)

/-- The admission checks of R46, in order: 0 when the descriptor becomes a token, else the status of its immediate completion. -/
def admission (s : State) (f : Nat) (d : Bytes) : Nat :=
  if dReserved d then 0x0102
  else if !opDefined (dOpcode d) then 0x0101
  else if !opPermitted s f (dOpcode d) then 0x0301
  else if (shareOf s f).flows ≤ dFlow d then 0x0105
  else if dDeadline d ≠ 0 ∧ dDeadline d ≤ dNotBefore d then 0x0405
  else if !lenOk d then 0x0103
  else if (shareOf s f).tokens ≤ (fnOf s f).held then 0x0501
  else if dNotBefore d ≠ 0 ∧ !liftAdmits s liftPace s.slm.qPace then 0x0502
  else 0

/-! ### The completion (R49) -/

/-- The 32 bytes of a completion. -/
def cplBytes (tag status mclass : Nat) (phase : Bool) (resLen time slot ring : Nat) (replayed : Bool) : Bytes :=
  leBytes 8 tag ++ leBytes 2 status ++ leBytes 2 (mclass + 0x8000 * b2n phase) ++ leBytes 4 resLen ++ leBytes 8 time ++
  leBytes 2 slot ++ leBytes 1 (ring + 0x80 * b2n replayed) ++ zeroBytes 5

end Sys2Proof.Machine
end

