-- ==== Sys2Proof/Machine/Flags.lean ====
section
/-!
DEFINITION. Flags and small computed words of the blocks: token records as software reads them (R236), histogram buckets (R265),
ring positions (R54, R57), and the service-state word (R37).
-/

namespace Sys2Proof.Machine

/-- STATE code of a token (R237). -/
def tokCode : TokState → Nat
  | .free => 0 | .liftNb => 1 | .ready => 2 | .urgent => 3 | .core => 4 | .parked => 5
  | .liftWait => 6 | .held => 7 | .mirror => 8 | .expired => 9 | .released => 10

/-- The 32 bytes of a token record (R236). -/
def tokBytes (t : Token) : Bytes :=
  leBytes 2 t.func ++ leBytes 2 t.slot ++
  leBytes 4 (t.flow + t.cls * 2 ^ 18 + t.base * 2 ^ 21 + t.ring * 2 ^ 24 + b2n t.ordered * 2 ^ 26 + b2n t.inherit * 2 ^ 27 +
    tokCode t.st * 2 ^ 28) ++
  leBytes 4 t.accept ++ leBytes 4 (t.expire.getD 0) ++ leBytes 4 (t.due.getD 0) ++ leBytes 4 t.seq ++ leBytes 4 t.age ++
  leBytes 4 (t.cage % 65536 + t.aff.getD 0 * 2 ^ 16 + b2n t.aff.isSome * 2 ^ 20 + t.pcl * 2 ^ 21 + b2n t.bound * 2 ^ 25 +
    b2n t.mirror * 2 ^ 26)

/-- The bucket index of a latency or waiting time (R265). -/
def histBucket (v : Nat) : Nat :=
  if v < 16 then v
  else if 2 ^ 24 ≤ v then 176
  else
    let e := Nat.log2 v
    let j := ((List.range 8).filter fun j => decide (2 ^ (8 * e + j) ≤ v ^ 8)).length - 1
    16 + 8 * (e - 4) + j

/-- Descriptors between two ring positions. -/
def ringDist (size src dst : Nat) : Nat := (dst + size - src % size) % size

/-- Descriptors available to the device in a ring pair: from the head to the recorded tail (R54). -/
def ringAvail (r : Ring) : Nat := ringDist (ringSize r.sqLog2) r.head r.tail

/-- Free completion slots of a ring pair (R56). -/
def ringFree (r : Ring) : Nat := ringSize r.cqLog2 - r.unconsumed - r.reserved

/-- Entries a completion head doorbell consumes, none when HEAD is out of range (R57). -/
def cqConsumes (r : Ring) (head : Nat) : Option Nat :=
  let size := ringSize r.cqLog2
  if size ≤ head then none
  else
    let d := ringDist size r.cqHead head
    if d = 0 then (if r.unconsumed = size then some size else some 0)
    else if d ≤ r.unconsumed then some d else none

/-- HIF_SVC_STATE of function `f` (R37). -/
def svcWord (s : State) (f : Nat) : Nat :=
  (fnOf s f).switchCount * 2 ^ 16 + b2n s.hif.svcHeld * 2 ^ 8 + s.hif.svcLatches * 2 ^ 6 + modeCode s.hif.svcMode

/-- HIF_RING_CTL_n as software reads it. -/
def ringCtlWord (r : Ring) : Nat :=
  r.modTime * 2 ^ 22 + r.modCount * 2 ^ 14 + r.vector * 2 ^ 11 + r.cqLog2 * 2 ^ 5 + r.sqLog2 * 2 + b2n r.enable

/-- STATE code of a ring pair. -/
def ringCode : RingState → Nat
  | .idle => 0 | .running => 1 | .draining => 2 | .refused => 3

end Sys2Proof.Machine
end

