-- ==== Sys2Proof/Machine/Gate.lean ====
section
/-!
DEFINITION. The shared operations of the Gate, the completion rings, Slalom's lists and the Lift (R46, R51, R56-R58, R235-R254).
-/

namespace Sys2Proof.Machine

/-! ### Tokens -/

/-- Token record `i`. -/
def tok (s : State) (i : Nat) : Token := tget Token.free s.slm.toks i
/-- Change token record `i`. -/
def modTok (i : Nat) (g : Token → Token) (s : State) : State :=
  modSlm (fun m => { m with toks := tmod Token.free m.toks i g }) s
/-- Key of a flow in the flow table. -/
def flowKey (f flow : Nat) : Nat := f * 2 ^ 18 + flow
/-- A flow's entry (R246). -/
def flowOf (s : State) (f flow : Nat) : Flow := tget Flow.start s.slm.flows (flowKey f flow)
/-- Change a flow's entry. -/
def modFlow (f flow : Nat) (g : Flow → Flow) (s : State) : State :=
  modSlm (fun m => { m with flows := tmod Flow.start m.flows (flowKey f flow) g }) s
/-- The next flow number: 0xFFFF_FFFF wraps to 1 (R246). -/
def seqNext (n : Nat) : Nat := if n = 0xFFFFFFFF then 1 else n + 1

/-- Free a token record: every field 0, one accepted descriptor fewer (R235). -/
def freeToken (i : Nat) (s : State) : State :=
  let f := (tok s i).func
  modFn f (fun x => { x with held := x.held - 1 }) (modTok i (fun _ => Token.free) s)

/-- A function reset takes a token out of every list; its record is freed when its report entry is written (R235, R237). -/
def buryToken (i : Nat) (s : State) : State :=
  modSlm (fun m => { m with dead := m.dead ++ [(i, tok s i)] }) (modTok i (fun _ => Token.free) s)

/-- The records of the functions selected that wait for their report entries are freed (R235). -/
def freeDead (sel : Nat → Bool) (s : State) : State :=
  (s.slm.dead.filter fun e => sel e.2.func).foldl (fun s e => modFn e.2.func (fun x => { x with held := x.held - 1 }) s)
    (modSlm (fun m => { m with dead := m.dead.filter fun e => !sel e.2.func }) s)

/-- Token record `i` as the manager reads it: one whose report entry is not written yet is no FREE record (R235, R236). -/
def tokRecord (s : State) (i : Nat) : Token := match s.slm.dead.find? fun e => e.1 = i with | some e => e.2 | none => tok s i

/-- A token on a class ready list of a function (R240, R241). -/
def readyOf (s : State) (f c : Nat) : List (Nat × Token) :=
  s.slm.toks.filter fun it => decide (it.2.st = .ready) && decide (it.2.func = f) && decide (it.2.cls = c)

/-- The pass values of the other functions active in class `c` (R240). -/
def otherPasses (s : State) (f c : Nat) : List Nat :=
  (s.slm.toks.filter fun it => decide (it.2.st = .ready) && decide (it.2.func ≠ f) && decide (it.2.cls = c)).map
    fun it => (fnOf s it.2.func).pass.getD c 0

/-- Token `i` enters a class: a function that had no other token in it has its pass raised to the least pass of the others (R240). -/
def raisePass (i f c : Nat) (s : State) : State :=
  if (readyOf s f c).all fun it => decide (it.1 = i) then
    match (otherPasses s f c).min? with
    | some m => modFn f (fun x => { x with pass := x.pass.modify c (max m) }) s
    | none => s
  else s

/-- Take the next list-entry order stamp. -/
def stampEntry (i : Nat) (s : State) : State :=
  modSlm (fun m => { m with entryNo := m.entryNo + 1 }) (modTok i (fun t => { t with entry := s.slm.entryNo }) s)

/-- Put a token at the tail of its function's ready list in its present class (R239, R241). -/
def enterReady (i : Nat) (s : State) : State :=
  let t := tok s i
  let s := raisePass i t.func t.cls s
  stampEntry i (modTok i (fun t => { t with st := .ready, due := none }) s)

/-- The highest class of the held tokens that wait for token `i` in its flow (R249). -/
def heldClass (s : State) (i : Nat) : Nat :=
  let t := tok s i
  ((s.slm.toks.filter fun it => t.ordered && decide (it.2.st = .held) && it.2.ordered && decide (it.2.func = t.func) &&
    decide (it.2.flow = t.flow) && decide (t.accNo < it.2.accNo)).map fun it => it.2.cls).foldl max 0

/-- A token comes where later held tokens of its flow wait for it: it takes their class (R249). -/
def takeClass (i : Nat) (s : State) : State :=
  if (tok s i).cls < heldClass s i then modTok i (fun t => { t with cls := heldClass s i, inherit := true, cage := 0 }) s else s

/-- A token returns from the Lift or from parking to the tail of the list it left (R239), in the class that it inherits there (R249). -/
def returnToken (i : Nat) (s : State) : State :=
  let s := takeClass i s
  if (tok s i).urg then stampEntry i (modTok i (fun t => { t with st := .urgent, due := none }) s) else enterReady i s

/-! ### The Lift (R252-R254) -/

/-- Insert an entry (R252). -/
def liftInsert (k : LiftKind) (due : Nat) (s : State) : State :=
  modSlm (fun m => { m with lift := m.lift ++ [⟨k, due, tick s⟩] }) s

/-- Withdraw the entries of a kind. -/
def liftDrop (k : LiftKind) (s : State) : State :=
  modSlm (fun m => { m with lift := m.lift.filter fun e => decide (e.kind ≠ k) }) s

/-- Admit waiting mover retries, oldest first, while one can be admitted (R254). -/
def admitRetries : Nat → State → State
  | 0, s => s
  | n + 1, s =>
    match s.slm.retryWait with
    | [] => s
    | ch :: rest =>
      if liftAdmits s liftRetry s.slm.qRetry then
        admitRetries n (liftInsert (.retry ch) (tick s + 2) (modSlm (fun m => { m with retryWait := rest }) s))
      else s

/-- Something left the Lift or a quota rose: waiting retries are admitted (R254). -/
def liftFreed (s : State) : State := admitRetries s.slm.retryWait.length s

/-! ### Completion rings (R56-R58) -/

/-- Fire a ring's vector and restart its moderation count (R58). -/
def ringFire (f n : Nat) (s : State) : State :=
  let v := (ringOf s f n).vector
  fireMsix f v (modRing f n (fun r => { r with irqCount := 0, irqFirst := none }) s)

/-- Count an IRQ-flagged completion and fire at MOD_COUNT (R58). -/
def ringIrq (f n : Nat) (s : State) : State :=
  let t := tick s
  let s := modRing f n (fun r => { r with irqCount := r.irqCount + 1, irqFirst := some (r.irqFirst.getD t) }) s
  let r := ringOf s f n
  if r.modCount ≤ 1 ∨ r.modCount ≤ r.irqCount then ringFire f n s else s

/-- A DRAINING pair with nothing owed and nothing unconsumed becomes IDLE (R53). -/
def ringSettle (f n : Nat) (s : State) : State :=
  modRing f n (fun r =>
    if r.st = .draining ∧ r.reserved = 0 ∧ r.unconsumed = 0 then { r with st := .idle } else r) s

/-- Positions after one completion write (R57). -/
def ringWrote (r : Ring) : Ring :=
  let size := ringSize r.cqLog2
  { r with
    cqTail := (r.cqTail + 1) % size, phase := if r.cqTail + 1 = size then !r.phase else r.phase,
    reserved := r.reserved - 1, unconsumed := r.unconsumed + 1 }

/-- The bytes a completion is written with: TIME is that of the issue (R49); one whose METER record went to the partner is written exactly as
that record holds it (R440; log entry 58). -/
def relBytes (r : Rel) (s : State) : Bytes := if r.wait.isSome then r.bytes else patch r.bytes 16 (leBytes 8 (timeField s))

/-- Latency of a released completion: from acceptance, without the waits for the host's read data (R17, R265). -/
def relLatency (r : Rel) (s : State) : Nat :=
  s.time.refCount - r.acceptRef - (match r.token with | some i => (tok s i).hostWait | none => 0)

/-- Issue a released completion's write, with its meters and interrupt in the same step (R16, R57, R58, R235). -/
def relIssue (r : Rel) (s : State) : Bool × State :=
  let ring := ringOf s r.fn r.ring
  match hostWrite (hifMaster r.fn r.ring) r.fn (ring.cqBase + 32 * ring.cqTail) (relBytes r s) false s with
  | (false, s) => (false, s)
  | (true, s) =>
    let s := modRing r.fn r.ring ringWrote s
    let s := match r.wait with | some m => modPar (fun p => { p with confirm := max p.confirm m }) s | none => s
    let s := countFn 0x402 r.fn (meterAdd r.fn r.mclass r.units s)
    let v := relLatency r s
    let s := if s.cnt.latThresh < v then countFn 0x403 r.fn s else s
    let s := match r.token with | some i => freeToken i s | none => s
    let s := modFn r.fn (fun x => { x with histTotal := tmod 0 x.histTotal (histBucket v) fun n => (n + 1) % 2 ^ 32 }) s
    let s := if r.irq then ringIrq r.fn r.ring s else s
    (true, ringSettle r.fn r.ring s)

/-- A released completion may be issued: its METER record's frame is accepted, it is not held by its host region, and none of its ring waits ahead (R57, R292, R440). -/
def relReady (s : State) (kept : List Rel) (r : Rel) : Bool :=
  (match r.wait with | some m => decide (m ≤ s.par.accepted) || !streamOn s | none => true) && !r.stuck &&
  !(kept.any fun k => decide (k.fn = r.fn) && decide (k.ring = r.ring))

/-- Walk the release stream in order, issuing what may be issued. -/
def relWalk : List Rel → List Rel → State → List Rel × State
  | [], kept, s => (kept, s)
  | r :: rs, kept, s =>
    if relReady s kept r then
      match relIssue r s with
      | (true, s) => relWalk rs kept s
      | (false, s) => relWalk rs (kept ++ [{ r with stuck := true }]) s
    else relWalk rs (kept ++ [r]) s

/-- Issue every released completion that may be issued, in release order (R57, R251). -/
def drainRel (s : State) : State :=
  let ks := relWalk s.hif.relq [] s
  modHif (fun h => { h with relq := ks.1 }) ks.2

/-- Place in the ring that the next released completion of a ring pair will take: slot and phase (R57). -/
def relPlace (s : State) (f n : Nat) : Nat × Bool :=
  let r := ringOf s f n
  let size := ringSize r.cqLog2
  let p := r.cqTail + (s.hif.relq.filter fun k => decide (k.fn = f) && decide (k.ring = n)).length
  (p % size, if p / size % 2 = 0 then r.phase else !r.phase)

/-- The body of a METER record (R440). -/
def meterBody (fn mclass flags units flow seq cqSlot ring : Nat) (ordered : Bool) (cpl : Bytes) : Bytes :=
  leBytes 2 fn ++ leBytes 1 mclass ++ leBytes 1 flags ++ leBytes 4 units ++ leBytes 4 (flow + b2n ordered * 2 ^ 31) ++
  leBytes 4 seq ++ leBytes 2 cqSlot ++ leBytes 1 ring ++ zeroBytes 5 ++ cpl

/-- Release a completion into its ring's stream (R46, R251), with its METER record to a mirrored partner (R440; the PF too: log entry 27). RES_LEN
has 32 bits, and a result may be longer (R49, R102): it holds the low 32 bits of the length (DESIGN CHOICE, log entry 59). -/
def release (f n slot : Nat) (d : Bytes) (status mclass resLen units : Nat) (replayed : Bool) (token : Option Nat)
    (accNo seq acceptRef : Nat) (state : Bool) (s : State) : State :=
  let p := relPlace s f n
  let cpl := cplBytes (dTag d) status mclass p.2 resLen (timeField s) slot n replayed
  let mirrored := streamOn s
  let w := if mirrored then some s.par.txNext else none
  let s := if mirrored then
      mirrorSend 2 (loadByte s f) (meterBody f mclass (2 * b2n state) units (dFlow d) seq p.1 n (dOrdered d) cpl) s
    else s
  let r : Rel := ⟨f, n, cpl, dIrq d, mclass, units, token, accNo, dTag d, slot, acceptRef, w, false⟩
  drainRel (modHif (fun h => { h with relq := h.relq ++ [r] }) s)

/-! ### The Gate (R247-R250) -/

/-- Release token `i` with the result it holds. -/
def releaseToken (i : Nat) (s : State) : State :=
  let t := tok s i
  release t.func t.ring t.slot t.desc t.status t.mclass t.resLen t.units t.replayed (some i) t.accNo t.seq t.acceptRef t.mirror
    (modTok i (fun t => { t with st := .released }) s)

/-- The token's mirror record still waits for the partner, or its security record for its VALID word (R250, R381, R441). -/
def mirrorWaits (s : State) (t : Token) : Bool :=
  t.mirror && ((match t.mseq with | some m => decide (s.par.acked < m) && streamOn s && !s.par.mfaultDone | none => false) ||
    (match t.recNo with | some n => s.aud.held.any fun h => decide (h.seq = n) | none => false))

/-- The turn of token `i` has come: release it, or hold it in MIRROR for the partner (R250). -/
def turnToken (i : Nat) (s : State) : Bool × State :=
  let t := tok s i
  if t.st = .held ∧ mirrorWaits s t then (false, modTok i (fun t => { t with st := .mirror }) s)
  else (true, releaseToken i s)

/-- The flow table's count of a flow's tokens in states 7 to 9 (R246). -/
def flowHeld (s : State) (f flow : Nat) : Nat :=
  (s.slm.toks.filter fun it => decide (it.2.func = f) && decide (it.2.flow = flow) && it.2.ordered &&
    (decide (it.2.st = .held) || decide (it.2.st = .mirror) || decide (it.2.st = .expired))).length

/-- The held or expired token of a flow whose turn it is. -/
def flowHead (s : State) (f flow : Nat) : Option Nat :=
  (s.slm.toks.find? fun it => decide (it.2.func = f) && decide (it.2.flow = flow) && it.2.ordered &&
    (decide (it.2.st = .held) || decide (it.2.st = .expired)) && decide (it.2.seq = (flowOf s f flow).rel)).map fun it => it.1

/-- Release the tokens of a flow whose turn has come, in SEQ order (R247). -/
def flowAdvance : Nat → Nat → Nat → State → State
  | 0, _, _, s => s
  | n + 1, f, flow, s =>
    match flowHead s f flow with
    | none => s
    | some i =>
      match turnToken i s with
      | (false, s) => s
      | (true, s) => flowAdvance n f flow (modFlow f flow (fun x => { x with rel := seqNext x.rel }) s)

/-- Advance a flow as far as it goes: at most every token that waits in it. -/
def flowRun (f flow : Nat) (s : State) : State := flowAdvance (flowHeld s f flow) f flow s

/-- Raise the waiting earlier tokens of an ordered held token's flow to its class (R249). -/
def inheritOne (c : Nat) (s : State) (it : Nat × Token) : State :=
  match it.2.st with
  | .ready => enterReady it.1 (modTok it.1 (fun t => { t with cls := c, inherit := true, cage := 0 }) s)
  | .liftNb | .liftWait => modTok it.1 (fun t => { t with cls := c, inherit := true, cage := 0 }) s
  | .urgent => modTok it.1 (fun t => { t with cls := c, inherit := true }) s
  | _ => s

/-- Inheritance for token `i`, now held (R249). -/
def inherit (i : Nat) (s : State) : State :=
  let t := tok s i
  (s.slm.toks.filter fun it => decide (it.2.func = t.func) && decide (it.2.flow = t.flow) && it.2.ordered &&
    decide (it.2.accNo < t.accNo) && decide (it.2.cls < t.cls)).foldl (inheritOne t.cls) s

/-- A token's outcome is fixed, in state HELD or EXPIRED: an unordered token goes on at once, an ordered one in flow order (R247, R248, R260). -/
def settleToken (i : Nat) (s : State) : State :=
  let t := tok s i
  if t.ordered then
    let s := flowRun t.func t.flow s
    if (tok s i).st = .held ∧ (tok s i).accNo = t.accNo then inherit i s else s
  else (turnToken i s).2

/-- The partner's acknowledgements released tokens waiting in MIRROR (R250, R441). -/
def mirrorRelease : List Nat → State → State
  | [], s => s
  | i :: is, s =>
    let t := tok s i
    if t.st = .mirror ∧ !mirrorWaits s t then
      let s := releaseToken i s
      mirrorRelease is (if t.ordered then flowRun t.func t.flow (modFlow t.func t.flow (fun x => { x with rel := seqNext x.rel }) s) else s)
    else mirrorRelease is s

/-- Release every MIRROR token that waits no longer. -/
def mirrorSettle (s : State) : State :=
  drainRel (mirrorRelease ((s.slm.toks.filter fun it => decide (it.2.st = .mirror)).map fun it => it.1) s)

end Sys2Proof.Machine
end

