-- ==== Sys2Proof/Machine/Accept.lean ====
section
/-!
DEFINITION. Acceptance (R46, R47, R235, R241, R246) and fetch (R55, R56), shared by the host interface and by replay.
-/

namespace Sys2Proof.Machine

/-- The outcome of a meaning. -/
abbrev Res := Host.Outcome State Fault Refusal

/-- Function `f` exists on the link: the PF, or a VF once VF Enable is set (R33). -/
def fnExists (s : State) (f : Nat) : Bool := decide (f = 0) || (decide (f ≤ 1024) && s.hif.vfEnable)

/-- BAR0 registers outside the PWR and LCY blocks take writes (R504). -/
def regsOpen (s : State) : Bool :=
  s.pwr.main && s.hif.linkUp && decide (s.pwr.mode ≠ .guard) && decide (s.pwr.mode ≠ .start)

/-- Function `f`'s own pages take writes: it exists, is not in D3hot, and registers are open (R33, R504). -/
def pageOpen (s : State) (f : Nat) : Bool := fnExists s f && regsOpen s && !(fnOf s f).d3

/-- A descriptor fetch may start on a ring pair (R13, R55, R56), a read tag being free (R270). -/
def mayFetch (s : State) (f n : Nat) : Bool :=
  let r := ringOf s f n
  serves s f && decide (n < 4) && (fnOf s f).rst.isNone && decide (r.st = .running) && !r.fetchHold &&
  decide (r.inFlight < ringAvail r) && decide (1 ≤ ringFree r) && tagFree s ((4 * f + n) % 16)

/-- The affinity key of a function and a key handle (R241). -/
def affKey (f handle : Nat) : Nat := f * 2 ^ 20 + handle % 2 ^ 20

/-- A cluster is awake. -/
def clAwake (s : State) (c : Nat) : Bool := decide (s.slm.clusters.getD c .asleep = .awake)

/-- Tokens bound to or preferring a cluster (R241). -/
def clTokens (s : State) (c : Nat) : Nat :=
  (s.slm.toks.filter fun it => decide (it.2.st ≠ .free) && (decide (it.2.aff = some c) || (it.2.bound && decide (it.2.pcl = c)))).length

/-- The awake cluster with the fewest tokens bound or preferred, the lowest number on a tie (R241; tie rule: log entry 20). -/
def leastCluster (s : State) : Option Nat :=
  (List.range 16).foldl (fun best c =>
    if clAwake s c then
      match best with
      | none => some c
      | some b => if clTokens s c < clTokens s b then some c else some b
    else best) none

/-- Record a cluster for an affinity key; a full table of 4,096 drops its oldest entry (R241; replacement: log entry 20). -/
def affSet (k c : Nat) (s : State) : State :=
  modSlm (fun m =>
    let t := m.affinity.filter fun e => decide (e.1 ≠ k)
    let t := if 4096 ≤ t.length then t.drop 1 else t
    { m with affinity := t ++ [(k, c)] }) s

/-- Look the pair up at admission: the preferred cluster, recording one on a miss (R241). -/
def affLookup (f handle : Nat) (s : State) : Option Nat × State :=
  if handle = 0 then (none, s)
  else match s.slm.affinity.find? fun e => decide (e.1 = affKey f handle) with
    | some e => (some e.2, s)
    | none =>
      match leastCluster s with
      | some c => (some c, affSet (affKey f handle) c s)
      | none => (none, s)

/-- The lowest FREE token record at or after `i`, with fuel (R236; the choice is the operand's, log entry 21). -/
def freeFrom (s : State) : Nat → Nat → Nat
  | 0, i => i
  | n + 1, i => if (tokRecord s (i % 65536)).st = .free then i % 65536 else freeFrom s n (i + 1)

/-- DIGEST of a descriptor (R438). -/
def descDigest (d : Bytes) : Bytes := shake256 8 d

/-- The body of a JOURNAL record (R438). -/
def journalBody (f n slot accept seq : Nat) (d : Bytes) (mirror : Bool) : Bytes :=
  leBytes 2 f ++ leBytes 1 n ++ leBytes 1 (b2n (dOrdered d) + 2 * b2n mirror) ++ leBytes 2 slot ++ zeroBytes 2 ++
  leBytes 4 accept ++ leBytes 4 seq ++ descDigest d

/-- Create the token of a descriptor in record `rec`, with its flow number and expiry (R235, R246, R253). -/
def makeToken (f n slot rec : Nat) (d : Bytes) (seq : Nat) (expire : Option Nat) (replayed : Bool) (s : State) : State :=
  let a := affLookup f (dKey d 0) s
  let s := a.2
  let t : Token := { Token.free with
    st := .liftNb, func := f, slot := slot, flow := dFlow d, cls := dClass d, base := dClass d, ring := n,
    ordered := dOrdered d, accept := tick s, acceptRef := s.time.refCount, expire := expire, seq := seq, aff := a.1,
    mirror := opState (dOpcode d), desc := d, accNo := s.hif.accNo, mclass := opClass (dOpcode d), replayed := replayed }
  let s := modTok rec (fun _ => t) s
  let s := modFn f (fun x => { x with held := x.held + 1 }) (modHif (fun h => { h with accNo := h.accNo + 1 }) s)
  if dNotBefore d ≠ 0 then
    let due := tick s + dNotBefore d
    liftInsert (.pace rec) due (modTok rec (fun t => { t with due := some due }) s)
  else enterReady rec s

/-- Accept a descriptor that arrived for slot `slot` of a ring pair: a token, or an immediate error completion (R13, R46, R47). -/
def acceptDesc (f n slot rec : Nat) (d : Bytes) (s : State) : State :=
  let st := admission s f d
  let s := countFn 0x401 f s
  let ordered := dOrdered d && decide (st = 0)
  let seq := if ordered then (flowOf s f (dFlow d)).give else 0
  let s := if ordered then modFlow f (dFlow d) (fun x => { x with give := seqNext x.give }) s else s
  let s := mirrorSend 1 (loadByte s f) (journalBody f n slot (tick s) seq d (opState (dOpcode d))) s
  if st ≠ 0 then
    release f n slot d st 11 0 1 false none s.hif.accNo 0 s.time.refCount false
      (modHif (fun h => { h with accNo := h.accNo + 1 }) s)
  else
    makeToken f n slot (freeFrom s 65536 rec) d seq (if dDeadline d = 0 then none else some (tick s + dDeadline d)) false s

/-! ### Cores -/

/-- Physical core `p`. -/
def core (s : State) (p : Nat) : Core := tget Core.blank s.cpu.cores p
/-- Change core `p`. -/
def modCore (p : Nat) (g : Core → Core) (s : State) : State :=
  modCpu (fun c => { c with cores := tmod Core.blank c.cores p g }) s
/-- Set core `p`. -/
def setCore (p : Nat) (c : Core) (s : State) : State := modCore p (fun _ => c) s
/-- The core holds a command, its result wanted or not. -/
def coreHolds (c : Core) : Bool := c.tok.isSome || c.expired || c.reset || c.dropped
/-- Cluster of a physical core. -/
def coreCluster (p : Nat) : Nat := p / 9
/-- Physical core behind logical core `k` of cluster `c` (R482). -/
def physOf (s : State) (c k : Nat) : Nat :=
  match s.cpu.logical.find? fun e => e.1 = 8 * c + k with
  | some e => e.2
  | none => 9 * c + k
/-- Logical number of a physical core in its cluster, none for a spare or fenced core. -/
def logicalOf (s : State) (p : Nat) : Option Nat :=
  (List.range 8).find? fun k => decide (physOf s (coreCluster p) k = p) && !(s.cpu.fenced.contains p)
/-- Checker `m`. -/
def checker (s : State) (m : Nat) : Checker := tget Checker.blank s.mov.checkers m
/-- Change checker `m`. -/
def modChecker (m : Nat) (g : Checker → Checker) (s : State) : State :=
  modMov (fun x => { x with checkers := tmod Checker.blank x.checkers m g }) s
/-- The active pane of a checker. -/
def activePane (c : Checker) : Pane := if c.activeB then c.paneB else c.paneA

end Sys2Proof.Machine
end

