-- ==== Sys2Proof/Machine/Entropy.lean ====
section
/-!
DEFINITION. The entropy sources and the random bit service (R294-R317): the shared operations and the block's commands.
-/

namespace Sys2Proof.Machine

/-! ### DRBG instances (R305-R312) -/

/-- An instance that holds no state. -/
def Drbg.blank : Drbg := ⟨[], [], 0, false, false, false⟩

/-- Instance `i`. -/
def drbgOf (s : State) (i : Nat) : Drbg := s.ent.drbgs.getD i Drbg.blank
/-- Change instance `i`. -/
def modDrbg (i : Nat) (g : Drbg → Drbg) (s : State) : State := modEnt (fun e => { e with drbgs := e.drbgs.modify i g }) s
/-- The instance of a function (R308). -/
def instOf (f : Nat) : Nat := f % 16
/-- The instance gives random output. -/
def drbgLive (s : State) (i : Nat) : Bool := (drbgOf s i).ready && !(drbgOf s i).halted

/-- Seed an instance that asks: its working state reseeded, COUNT, STRETCHED and HALTED cleared (R307, R309). -/
def drbgSeed (i : Nat) (seed : Bytes) (s : State) : State :=
  modDrbg i (fun d =>
    let st := drbgReseed ⟨d.key, d.v⟩ seed
    { d with key := st.key, v := st.v, count := 0, stretched := false, halted := false }) s

/-- The instance that asks with the highest count, the lower number on a tie (R309). -/
def seedWinner (s : State) : Option Nat :=
  ((List.range 16).foldl (fun (best : Option (Nat × Nat)) i =>
    let d := drbgOf s i
    if d.ready ∧ 4096 ≤ d.count then
      match best with
      | none => some (i, d.count)
      | some b => if b.2 < d.count then some (i, d.count) else some b
    else best) none).map fun b => b.1

/-- Release an instance's waiters from the Lift, in insertion order, and let cores that wait in place ask again (R314). -/
def entSignal (i : Nat) (s : State) : State :=
  let toks := s.slm.lift.filterMap fun e => match e.kind with | .ent t => if instOf (tok s t).func = i then some t else none | _ => none
  let s := toks.foldl (fun s t => returnToken t (liftDrop (.ent t) s)) s
  let s := liftFreed s
  modCpu (fun c => { c with cores := c.cores.map fun e =>
    if e.2.st = .rand ∧ instOf e.2.func = i ∧ !(s.ent.reqs.any fun r => decide (r.core = e.1)) then (e.1, { e.2 with st := .run }) else e }) s

/-- Give queued seeds to the instances that ask, with fuel (R309, R314). -/
def seedServe : Nat → State → State
  | 0, s => s
  | n + 1, s =>
    match seedWinner s, s.ent.queue with
    | some i, q :: rest =>
      let was := (drbgOf s i).halted
      let s := drbgSeed i q (modEnt (fun e => { e with queue := rest }) s)
      seedServe n (if was then entSignal i s else s)
    | _, _ => s

/-- The personalization string of instance `i` (R307). -/
def drbgPers (s : State) (i : Nat) : Bytes := ascii "EHROS-DRBG" ++ leBytes 1 i ++ padTo 16 s.lcy.ident

/-- Instances instantiated and not yet ready, in pairs (R305). -/
def drbgPairs (s : State) : Nat := (s.ent.drbgs.filter fun d => !d.key.isEmpty).length / 2

/-- The start-up of the instances is not finished (R296, R305). -/
def entStarting (s : State) : Bool := !(s.ent.drbgs.all fun d => d.ready)

/-- Instantiate pairs of instances from three seeds each; all become ready together (R305). -/
def drbgBring : Nat → State → State
  | 0, s => s
  | n + 1, s =>
    if !entStarting s then s
    else match s.ent.queue with
      | s1 :: s2 :: s3 :: rest =>
        let k := drbgPairs s
        let i1 := drbgInstantiate s1 (s2.take 16) (drbgPers s (2 * k))
        let i2 := drbgInstantiate s3 (s2.drop 16) (drbgPers s (2 * k + 1))
        let s := modEnt (fun e => { e with queue := rest }) s
        let s := modDrbg (2 * k) (fun d => { d with key := i1.key, v := i1.v }) s
        let s := modDrbg (2 * k + 1) (fun d => { d with key := i2.key, v := i2.v }) s
        if k + 1 = 8 then
          (List.range 16).foldl (fun s i => entSignal i s)
            (modEnt (fun e => { e with drbgs := e.drbgs.map fun d => { d with ready := true, count := 0 } }) s)
        else drbgBring n s
      | _ => s

/-- Draw `n` bytes from an instance with one generate request; none while it gives no output (R307, R309). -/
def drbgDraw (i n : Nat) (s : State) : Option (Bytes × State) :=
  if !drbgLive s i then none
  else
    let d := drbgOf s i
    let r := drbgGenerate ⟨d.key, d.v⟩ n []
    let c := d.count + 1
    let s := modDrbg i (fun d => { d with
      key := r.2.key, v := r.2.v, count := c, halted := decide (65536 ≤ c),
      stretched := d.stretched || (decide (4096 ≤ c) && s.ent.queue.isEmpty) }) s
    some (r.1, seedServe 32 s)

/-- Draw in requests of at most 4,096 bytes, with fuel. -/
def drbgDrawMany (i : Nat) : Nat → Nat → State → Option (Bytes × State)
  | _, 0, s => some ([], s)
  | 0, _, _ => none
  | fuel + 1, n, s =>
    match drbgDraw i (min n 4096) s with
    | none => none
    | some (b, s) => (drbgDrawMany i fuel (n - min n 4096) s).map fun r => (b ++ r.1, r.2)

/-! ### Device draws that wait (R317) -/

/-- The unlock challenge that waits on instance 0 is drawn, while it gives output (R317, R340). -/
def unlockDraw (s : State) : State :=
  if !s.tmp.chalDue then s
  else match drbgDraw 0 32 s with
    | some (b, s) => modTmp (fun t => { t with challenge := b, chalTime := some (appendTime s), chalDue := false }) s
    | none => s

/-- The status byte of instance `i` (R316). -/
def drbgByte (s : State) (i : Nat) : Byte :=
  let d := drbgOf s i
  if d.halted then 3 else if !d.ready then 0 else if d.stretched then 2 else 1

/-- Byte `n` of the status line at shared scratch 0xFF_FFE0 (R316). -/
def statusByte (s : State) (n : Nat) : Byte :=
  if n < 16 then drbgByte s n
  else if n = 16 then BitVec.ofNat 8 (b2n !(liftAdmits s liftEnt s.slm.qEnt))
  else 0

/-! ### Sources (R294-R303) -/

/-- Source `k`: 0 A, 1 B. -/
def srcOf (s : State) (k : Nat) : Source := if k = 0 then s.ent.srcA else s.ent.srcB
/-- Change source `k`. -/
def modSrc (k : Nat) (g : Source → Source) (s : State) : State :=
  modEnt (fun e => if k = 0 then { e with srcA := g e.srcA } else { e with srcB := g e.srcB }) s
/-- STATE code (R301). -/
def srcCode : SrcState → Nat
  | .off => 0 | .startup => 1 | .warm => 2 | .selected => 3 | .cooling => 4 | .retest => 5 | .failed => 6

/-- An event of a source: ENTROPY record, PF vector 9 and a health report (R301, R302). -/
def entReport (k test : Nat) (inj : Bool) (s : State) : State :=
  let s := auditU 0x0400 (4 * b2n inj) 0 (leBytes 1 k ++ leBytes 1 test ++ leBytes 1 (srcCode (srcOf s k).st)) s
  healthReport 10 (leBytes 1 k ++ leBytes 1 test) (fireMsix 0 9 s)

/-- Move selection to source `k` (R302). -/
def entSelect (k : Nat) (s : State) : State :=
  let s := modSrc k (fun x => { x with st := .selected, raw := [] }) s
  entReport k 6 false (modEnt (fun e => { e with sel := k, switches := (e.switches + 1) % 2 ^ 32 }) s)

/-- Count a failure of test 1, 2 or 3 (ENT_SRC_HEALTH). -/
def srcCount (test : Nat) (x : Source) : Source :=
  match test with
  | 1 => { x with rct := satAdd 0xFF x.rct 1 }
  | 2 => { x with apt := satAdd 0xFF x.apt 1 }
  | _ => { x with est := satAdd 0xFF x.est 1 }

/-- The detector of a test (R475). -/
def testDet (test : Nat) : Nat := 0x14 + test

/-- A health failure or failed start-up test of source `k` (R301, R302, R304). -/
def srcFail (k test : Nat) (inj : Bool) (s : State) : State :=
  let was := (srcOf s k).st
  let s := modSrc k (srcCount test) s
  match was with
  | .off => s
  | .cooling | .failed => s
  | .warm | .selected =>
    let s := modSrc k (fun x => { x with st := .cooling, failAt := s.time.refCount, raw := [], held := [] }) s
    let s := entReport k test inj s
    if was = .selected ∧ (srcOf s (1 - k)).st = .warm then entSelect (1 - k) s else s
  | .startup =>
    let s := modSrc k (fun x => { x with attempts := x.attempts + 1, st := if x.attempts = 0 then .startup else .failed }) s
    entReport k test inj s
  | .retest => entReport k 5 inj (modSrc k (fun x => { x with st := .failed }) s)

/-- The source's start-up test or retest passes (R301, R304). -/
def srcPass (k : Nat) (s : State) : State :=
  let again := decide ((srcOf s k).st = .retest)
  let sel := decide ((srcOf s (1 - k)).st ≠ .selected)
  let s := modSrc k (fun x => { x with st := if sel then .selected else .warm, raw := [], held := [] }) s
  let s := if sel then modEnt (fun e => { e with sel := k }) s else s
  if again then entReport k 4 false s else s

/-- The source feeds the conditioner (R296). -/
def srcFeeds (s : State) (k : Nat) : Bool :=
  decide ((srcOf s k).st = .selected) || (decide ((srcOf s k).st = .warm) && entStarting s)

/-- Raw bytes of a seed (R294). -/
def seedRaw (k : Nat) : Nat := if k = 0 then 100 else 50

/-- Cut raw bytes into seeds: the seeds and what is left (R295). -/
def cutSeeds (n : Nat) : Nat → Bytes → List Bytes × Bytes
  | 0, r => ([], r)
  | f + 1, r => if r.length < n then ([], r) else let x := cutSeeds n f (r.drop n); (shake256 32 (r.take n) :: x.1, x.2)

/-- Finished seeds the guard die still takes: up to 2 held while the seed queue is full, any number before (R298). -/
def heldRoom (s : State) (n : Nat) : Nat := if 32 ≤ s.ent.queue.length then 2 - (s.ent.srcA.held.length + s.ent.srcB.held.length) else n

/-- A tested window of a feeding source goes to the conditioner; with 2 seeds held and the queue full conditioning pauses and keeps no partial
seed (R295-R298). -/
def condition (k : Nat) (w : Bytes) (s : State) : State :=
  if !srcFeeds s k then s
  else
    let c := cutSeeds (seedRaw k) 64 ((srcOf s k).raw ++ w)
    let n := heldRoom s c.1.length
    modSrc k (fun x => { x with raw := if n < c.1.length ∨ (n = 0 ∧ 32 ≤ s.ent.queue.length) then [] else c.2, held := x.held ++ c.1.take n }) s

/-- Ones among the samples of a packed window, earliest in bit 7 (R295). -/
def windowOnes (w : Bytes) : Nat := (w.map fun b => popcount 8 b.toNat).sum

/-- Samples equal to the window's first sample (R299). -/
def aptCount (w : Bytes) : Nat := if (w.getD 0 0).getLsbD 7 then windowOnes w else 8 * w.length - windowOnes w

/-- Adaptive proportion cutoff (R299). -/
def aptCutoff (k : Nat) : Nat := if k = 0 then 827 else 662

/-- The sources run (R296). -/
def srcOn (s : State) (k : Nat) : Bool := s.pwr.main && decide (k < 2) && decide ((srcOf s k).st ≠ .off)

/-! ### Commands -/

/-- RCT_CUTOFF (R299, R301): a run of equal samples reaches the cutoff. -/
def execRctCutoff (src : Nat) (s : State) : Res :=
  .next (if !srcOn s src then s else srcFail src 1 false s)

/-- APT_WINDOW_END (R297, R299): 1,024 samples, packed, end a window. A failure discards the source's seeds; a pass releases them or ends a start-up test. -/
def execAptWindowEnd (src : Nat) (window : List Byte) (s : State) : Res :=
  .next (
    let w := padTo 128 window
    if !srcOn s src then s
    else
      let rct := injTake 0x15 src s
      let apt := injTake 0x16 src rct.2
      let s := apt.2
      if rct.1.isSome then srcFail src 1 true s
      else if apt.1.isSome then srcFail src 2 true s
      else if aptCutoff src ≤ aptCount w then srcFail src 2 false s
      else if (srcOf s src).st = .startup ∨ (srcOf s src).st = .retest then srcPass src s
      else condition src w s)

/-- EST_BLOCK_END (R300): latch the block's values, count it, and judge MINENT against the credited value. -/
def execEstBlockEnd (src ones agree1 agree2 agree3 agree4 n00 n01 n10 n11 : Nat) (s : State) : Res :=
  .next (
    if !srcOn s src then s
    else
      let m := Config.minent n00 n01 n10 n11 % 65536
      let s := modSrc src (fun x => { x with
        ones := ones % 2 ^ 21, agree := [agree1 % 2 ^ 21, agree2 % 2 ^ 21, agree3 % 2 ^ 21, agree4 % 2 ^ 21], minent := m,
        block := (x.block + 1) % 2 ^ 32 }) s
      let inj := injTake 0x17 src s
      let s := inj.2
      if inj.1.isSome then srcFail src 3 true s
      else if 10 * m < (if src = 0 then 4 else 8) * 65536 then srcFail src 3 false s else s)

/-- SEED_ARRIVAL (R297, R298): the oldest finished seed of a source crosses the sill link; a CRC failure discards it. -/
def execSeedArrival (src : Nat) (crcOk : Bool) (s : State) : Res :=
  .next (
    match (srcOf s src).held with
    | [] => s
    | seed :: rest =>
      if !srcOn s src then s
      else if crcOk ∧ 32 ≤ s.ent.queue.length then s
      else
        let s := modSrc src (fun x => { x with held := rest }) s
        if crcOk then unlockDraw (seedServe 32 (drbgBring 8 (modEnt (fun e => { e with queue := e.queue ++ [seed] }) s))) else s)

/-- SOURCE_RETEST_START (R301): 1 s after its failure a COOLING source retests. -/
def execSourceRetestStart (src : Nat) (s : State) : Res :=
  .next (
    let x := srcOf s src
    if srcOn s src ∧ x.st = .cooling ∧ x.failAt + 100000000 ≤ s.time.refCount then
      modSrc src (fun x => { x with st := .retest, retests := satAdd 0xFF x.retests 1 }) s
    else s)

/-- ENT_SWITCH (R302): selection moves to the other source if it is WARM. -/
def execEntSwitch (s : State) : Res :=
  .next (regWrote 0 <|
    let k := s.ent.sel
    if regsOpen s ∧ (srcOf s (1 - k)).st = .warm then
      let s := modSrc k (fun x => if x.st = .selected then { x with st := .warm } else x) s
      entSelect (1 - k) s
    else s)

/-- A write of a RETEST bit starts a retest of a FAILED source (R301). -/
def entRetest (k : Nat) (s : State) : State :=
  if regsOpen s ∧ (srcOf s k).st = .failed then
    modSrc k (fun x => { x with st := .retest, retests := satAdd 0xFF x.retests 1 }) s
  else s

/-- ENT_RETEST_A (R301). -/
def execEntRetestA (s : State) : Res := .next (regWrote 0 <| entRetest 0 s)

/-- ENT_RETEST_B (R301). -/
def execEntRetestB (s : State) : Res := .next (regWrote 0 <| entRetest 1 s)

end Sys2Proof.Machine
end

