-- ==== Sys2Proof/Machine/FabOps.lean ====
section
/-!
DEFINITION. The shared operations of the Phitlink fabric: events, frames and their headers, credits, egress and replay, routing, and
the checks of a frame at ingress (R399-R418).
-/

namespace Sys2Proof.Machine

/-! ### Ports and events -/

/-- Port `p`. -/
def portOf (s : State) (p : Nat) : Port := s.phl.ports.getD p Port.blank
/-- Change port `p`. -/
def modPort8 (p : Nat) (g : Port → Port) (s : State) : State := modPhl (fun x => { x with ports := x.ports.modify p g }) s
/-- The port is UP. -/
def portUp (s : State) (p : Nat) : Bool := decide (p < 8) && decide ((portOf s p).st = .up)
/-- Change the credit views of a port and virtual channel. -/
def modCred (p v : Nat) (g : Cred → Cred) (s : State) : State := modPort8 p (fun x => { x with cred := x.cred.modify v g }) s
/-- Credit views of a port and virtual channel. -/
def credOf (s : State) (p v : Nat) : Cred := (portOf s p).cred.getD v Cred.blank

/-- The fabric runs: main power, any mode but GUARD (R400). -/
def fabOn (s : State) : Bool := s.pwr.main && decide (s.pwr.mode ≠ .guard)

/-- Queue a fabric event and fire PF vector 8; a full queue counts it in PHL_EVT_LOST (events table of the fabric chapter). -/
def phlEvent (kind port vc addr : Nat) (s : State) : State :=
  let e := leBytes 1 kind ++ leBytes 1 port ++ leBytes 1 vc ++ [0] ++ leBytes 2 addr ++ zeroBytes 2 ++ leBytes 8 (timeField s)
  fireMsix 0 8 (modPhl (fun x =>
    if x.evts.length < 64 then { x with evts := x.evts ++ [e] } else { x with evtLost := satAdd 0xFFFFFFFF x.evtLost 1 }) s)

/-! ### Frames (R403, R411) -/

/-- TYPE. -/
def fType (b : Bytes) : Nat := leAt b 0 1
/-- VC. -/
def fVc (b : Bytes) : Nat := leAt b 1 1 % 4
/-- SRCRT. -/
def fSrcrt (b : Bytes) : Bool := (leAt b 1 1).testBit 2
/-- SRC_VALID. -/
def fSrcValid (b : Bytes) : Bool := (leAt b 1 1).testBit 3
/-- DST. -/
def fDst (b : Bytes) : Nat := leAt b 2 2 % 4096
/-- SRC. -/
def fSrc (b : Bytes) : Nat := leAt b 4 2 % 4096
/-- HOPS. -/
def fHops (b : Bytes) : Nat := leAt b 6 1
/-- LEN. -/
def fLen (b : Bytes) : Nat := leAt b 8 2
/-- LSEQ. -/
def fLseq (b : Bytes) : Nat := leAt b 12 4
/-- ROUTE. -/
def fRoute (b : Bytes) : Nat := leAt b 16 8
/-- Payload. -/
def fPayload (b : Bytes) : Bytes := slice b 32 (fLen b)
/-- NH of a source route (R411). -/
def rtNh (r : Nat) : Nat := bitsOf r 57 53
/-- PTR. -/
def rtPtr (r : Nat) : Nat := bitsOf r 52 48
/-- ENTRY_i. -/
def rtEntry (r i : Nat) : Nat := (r / 2 ^ (3 * i)) % 8
/-- A source route of the given fields. -/
def rtMake (nh ptr : Nat) (entries : List Nat) : Nat := nh * 2 ^ 53 + ptr * 2 ^ 48 + entries.foldr (fun e acc => e % 8 + 8 * acc) 0
/-- Entries 0 to NH − 1. -/
def rtEntries (r : Nat) : List Nat := (List.range (rtNh r)).map (rtEntry r)

/-- Credits a frame uses (R404). -/
def fCredits (len : Nat) : Nat := 1 + cdiv len 32

/-- A header and payload. -/
def frame (type vc : Nat) (srcrt srcValid : Bool) (dst src hops e2e route : Nat) (payload : Bytes) : Bytes :=
  leBytes 1 type ++ leBytes 1 (vc + 4 * b2n srcrt + 8 * b2n srcValid) ++ leBytes 2 dst ++ leBytes 2 src ++ leBytes 1 hops ++ [0] ++
  leBytes 2 payload.length ++ leBytes 2 e2e ++ zeroBytes 4 ++ leBytes 8 route ++ zeroBytes 8 ++ payload

/-- A frame as it goes on the wire: LSEQ written, CRC-32C appended (R403). -/
def wire (b : Bytes) (lseq : Nat) : Bytes :=
  let b := patch b 12 (leBytes 4 lseq)
  b ++ leBytes 4 (crc32c b).toNat

/-- Virtual channels a TYPE may use (R403). -/
def vcAllowed (type vc : Nat) : Bool :=
  if type = 1 ∨ type = 4 then true else decide (vc = 3)

/-- The frame is dropped at ingress: TYPE, reserved fields, VC or LEN (R403). -/
def fBad (b : Bytes) : Bool :=
  decide (fType b = 0) || decide (8 < fType b) || decide (leAt b 1 1 / 16 ≠ 0) || decide (leAt b 2 2 / 4096 ≠ 0) ||
  decide (leAt b 4 2 / 4096 ≠ 0) || decide (leAt b 7 1 ≠ 0) || decide (leAt b 24 8 ≠ 0) || decide (256 < fLen b) ||
  !vcAllowed (fType b) (fVc b) || (if fSrcrt b then decide (bitsOf (fRoute b) 63 58 ≠ 0) else decide (fRoute b ≠ 0))

/-- A control block: kind, VC and a 16-bit count, with its CRC-16 (R402; layout: log entry 24). -/
def ctlBlock (kind vc n : Nat) : Bytes :=
  let b := leBytes 1 kind ++ leBytes 1 vc ++ leBytes 2 (n % 65536) ++ zeroBytes 2
  b ++ leBytes 2 (crc16ccitt b).toNat

/-! ### Egress (R401, R406) -/

/-- The queued frame has credit and the replay buffer has room (R401, R406). -/
def mayLeave (x : Port) (f : PFrame) : Bool :=
  let n := fCredits (fLen f.bytes)
  (f.rsv || decide (n ≤ (x.cred.getD (fVc f.bytes) Cred.blank).held)) &&
  decide (((x.replay.map fun r => r.2.bytes.length + 4).sum) + f.bytes.length + 4 ≤ 32768)

/-- The next frame of a VC in queue order, if it may leave. -/
def vcHead (x : Port) (v : Nat) : Option PFrame :=
  match x.queue.find? fun f => fVc f.bytes = v with
  | some f => if mayLeave x f then some f else none
  | none => none

/-- The frame a port sends next: management, then mirror, then request and response in turn (R406). -/
def portNext (x : Port) : Option PFrame :=
  let a := if x.turn then 1 else 0
  ((vcHead x 3).orElse fun _ => vcHead x 2).orElse fun _ => (vcHead x a).orElse fun _ => vcHead x (1 - a)

/-- Return a frame's credits to the neighbour once its buffer units free (R407). -/
def credReturn (p v n : Nat) (s : State) : State :=
  let s := modCred p v (fun c => { c with ret := (c.ret + n) % 2 ^ 32, occ := c.occ - n }) s
  if portUp s p then emit (.port p (ctlBlock 3 v (credOf s p v).ret)) s else s

/-- A frame of this device left its place in a queue: its ingress buffer frees (R406, R407). -/
def frameFree (f : PFrame) (s : State) : State :=
  match f.from_ with
  | some q => credReturn q (fVc f.bytes) (fCredits (fLen f.bytes)) s
  | none => if f.mtx then modPhl (fun x => { x with mtxBusy := false }) s else s

/-- Payload of an AUDIT frame, with S counting the frame's own credits (R409). -/
def auditPayload (v : Nat) (c : Cred) : Bytes :=
  leBytes 4 c.sent ++ leBytes 4 c.back ++ leBytes 4 c.held ++ leBytes 4 c.rsv ++
    leBytes 4 (if v < 2 then 768 else if v = 2 then 384 else 128)

/-- Send frames of a port while one may leave, with fuel (R401, R406, R407). -/
def portPump (p : Nat) : Nat → State → State
  | 0, s => s
  | n + 1, s =>
    let x := portOf s p
    if x.st ≠ .up then s
    else match portNext x with
      | none => s
      | some f =>
        let v := fVc f.bytes
        let k := fCredits (fLen f.bytes)
        let seq := x.txSeq
        let c := x.cred.getD v Cred.blank
        let c := { c with
          held := if f.rsv then c.held else c.held - k, rsv := if f.rsv then c.rsv - k else c.rsv, sent := (c.sent + k) % 2 ^ 32 }
        let g := if fType f.bytes = 4 then { f with bytes := patch f.bytes 32 (auditPayload v c) } else f
        let s := modPort8 p (fun x => { x with
          queue := x.queue.erase f, replay := x.replay ++ [(seq, g)], txSeq := (seq + 1) % 2 ^ 32,
          ackAt := if x.replay.isEmpty then s.time.refCount else x.ackAt, turn := if v = 0 then true else if v = 1 then false else x.turn,
          cred := x.cred.set v c }) s
        portPump p n (frameFree f (emit (.port p (wire g.bytes seq)) (countPort 0x301 p 1 s)))

/-- Queue a frame on a port and send what may leave. -/
def portSend (p : Nat) (f : PFrame) (s : State) : State :=
  let s := modPort8 p (fun x => { x with queue := x.queue ++ [f] }) s
  portPump p ((portOf s p).queue.length) s

/-- A frame of this device. -/
def own (b : Bytes) : PFrame := ⟨b, none, false, none, false, 0⟩

/-! ### Routing (R414, R415) -/

/-- The route entry of an address. -/
def routeAt (s : State) (a : Nat) : Nat := tget 0 s.phl.route a

/-- The egress port of an address, none when neither route is UP (R415); the device's own entry is ignored (R414). -/
def routePort (s : State) (a : Nat) : Option Nat :=
  let e := if s.phl.valid ∧ s.phl.addr = a then 0 else routeAt s a
  if e.testBit 15 ∧ portUp s (bitsOf e 14 12) then some (bitsOf e 14 12)
  else if e.testBit 11 ∧ portUp s (bitsOf e 10 8) then some (bitsOf e 10 8)
  else none

/-- Count a drop on a port (PHL_PORT_DROP_p). -/
def dropFormat (p : Nat) (s : State) : State := modPort8 p (fun x => { x with dFormat := satAdd 0xFF x.dFormat 1 }) s
/-- NOROUTE. -/
def dropNoroute (p : Nat) (s : State) : State := modPort8 p (fun x => { x with dNoroute := satAdd 0xFF x.dNoroute 1 }) s
/-- HOPS. -/
def dropHops (p : Nat) (s : State) : State := modPort8 p (fun x => { x with dHops := satAdd 0xFF x.dHops 1 }) s

/-- Take the next E2E_SEQ. -/
def nextE2e (s : State) : Nat × State := (s.phl.e2e, modPhl (fun x => { x with e2e := (x.e2e + 1) % 65536 }) s)

/-- Send a table-routed frame of this device; without an address or a route nothing leaves (R404, R410, R415). -/
def routedSend (type vc dst : Nat) (payload : Bytes) (mseq : Option Nat) (s : State) : State :=
  if !s.phl.valid then s
  else match routePort s dst with
    | none => s
    | some p =>
      let e := nextE2e s
      portSend p { own (frame type vc false true dst s.phl.addr s.phl.hopLimit e.1 0 payload) with mseq := mseq } e.2

/-- Send a link-local frame on a port (R403). -/
def linkSend (p type vc : Nat) (payload : Bytes) (s : State) : State :=
  portSend p (own (frame type vc false s.phl.valid 0 s.phl.addr 0 0 0 payload)) s

/-- Send NEIGHBOR on a port: identity, address, VALID (R417). -/
def neighborSend (p : Nat) (s : State) : State :=
  linkSend p 7 3 (padTo 16 s.lcy.ident ++ leBytes 2 s.phl.addr ++ leBytes 1 (b2n s.phl.valid) ++ [0]) s

/-- Send NEIGHBOR on every UP port, after an address change (R417). -/
def neighborAll (s : State) : State := (List.range 8).foldl (fun s p => if portUp s p then neighborSend p s else s) s

/-- Change the device's address (R410, R417). -/
def setAddr (valid : Bool) (a : Nat) (s : State) : State := neighborAll (modPhl (fun x => { x with valid := valid, addr := a }) s)

/-! ### Leaving UP (R401, R402, R415, R418) -/

/-- Queue a table-routed frame again from its entry; one without a route is dropped (R415). A source-routed or link-local frame goes too. -/
def reroute (p : Nat) (s : State) (f : PFrame) : State :=
  if fSrcrt f.bytes ∨ (4 ≤ fType f.bytes ∧ fType f.bytes ≤ 7) then frameFree f s
  else match routePort s (fDst f.bytes) with
    | some q => portSend q { f with rsv := false } s
    | none => frameFree f (dropNoroute p s)

/-- A port leaves UP: DOWN is queued, its waiting frames are routed again, channels that hold its credit will end with LINK_DOWN
(R281, R415, R418). -/
def leaveUp (p : Nat) (dst : PortSt) (s : State) : State :=
  if (portOf s p).st ≠ .up then modPort8 p (fun x => { x with st := dst }) s
  else
    let q := (portOf s p).queue
    let s := modPort8 p (fun x => { x with st := dst, left := some s.time.refCount, queue := [] }) s
    let s := modMov (fun m => { m with chans := m.chans.map fun c => if c.2.cred = some p then (c.1, { c.2 with linkDown := true }) else c }) s
    q.foldl (reroute p) (phlEvent 2 p 0xFF 0xFFFF s)

/-- An UP port retrains (R401). -/
def startRetrain (p : Nat) (s : State) : State :=
  if portUp s p then modPort8 p (fun x => { x with retrains := satAdd 0xFF x.retrains 1 }) (leaveUp p .retrain s) else s

/-! ### Ingress (R401, R403, R407, R410) -/

/-- The neighbour is heard. -/
def heard (p : Nat) (s : State) : State := modPort8 p (fun x => { x with heard := s.time.refCount, silent := false }) s

/-- A frame with a good CRC: header and payload, none when short or wrong (R401). -/
def unwire (b : Bytes) : Option Bytes :=
  if b.length < 36 then none
  else
    let h := b.take (b.length - 4)
    if leAt b (b.length - 4) 4 = (crc32c h).toNat then some h else none

/-- Free the ingress buffer of a consumed or dropped frame (R407). -/
def ingressFree (p : Nat) (h : Bytes) (s : State) : State := credReturn p (fVc h) (fCredits (min 256 (fLen h))) s

/-- The link layer and the format check at ingress: the frame when it goes on, and the state (R401, R403, R407, R410). -/
def ingress (p : Nat) (b : Bytes) (s : State) : Option Bytes × State :=
  if !fabOn s ∨ !portUp s p then (none, s)
  else
    let inj := injTake 0x0E p s
    let s := inj.2
    match if inj.1.isSome then none else unwire b with
    | none => (none, emit (.port p (ctlBlock 2 0 ((portOf s p).rxSeq + 1)))
        (errCorrected 0x0E (modPort8 p (fun x => { x with crc := satAdd 0xFFFF x.crc 1 }) s)))
    | some h =>
      if fLseq h ≠ ((portOf s p).rxSeq + 1) % 2 ^ 32 then (none, heard p s)
      else
        let n := fCredits (min 256 (fLen h))
        let s := modPort8 p (fun x => { x with rxSeq := fLseq h }) (heard p s)
        let s := modCred p (fVc h) (fun c => { c with rx := (c.rx + n) % 2 ^ 32, occ := c.occ + n }) s
        let s := emit (.port p (ctlBlock 1 0 (fLseq h))) s
        if fBad h ∨ h.length ≠ 32 + fLen h then (none, ingressFree p h (dropFormat p s))
        else if fSrcValid h ∧ s.phl.valid ∧ fSrc h = s.phl.addr ∧ !(4 ≤ fType h ∧ fType h ≤ 7) then
          (some h, countPort 0x302 p 1 <| phlEvent 6 p 0xFF (fSrc h) (modPhl (fun x => { x with conflict := true }) s))
        else (some h, countPort 0x302 p 1 s)

/-- Where a routed frame goes at this device. -/
inductive Hop where
  /-- It is for this device; the frame with this device's ingress port written into its route. -/
  | here (h : Bytes)
  /-- Out of a port. -/
  | out (p : Nat) (h : Bytes)
  /-- Dropped: 0 without a count, 1 HOPS, 2 NOROUTE. -/
  | drop (why : Nat)

/-- Route a frame that came in on port `p` (R410, R411, R415). -/
def hop (p : Nat) (h : Bytes) (s : State) : Hop :=
  if fSrcrt h then
    let r := fRoute h
    let es := (rtEntries r).set (rtPtr r - 1) p
    if rtPtr r = 0 ∨ rtNh r = 0 ∨ 16 < rtNh r ∨ rtNh r < rtPtr r then .drop 0
    else if rtPtr r = rtNh r then .here (patch h 16 (leBytes 8 (rtMake (rtNh r) (rtPtr r) es)))
    else
      let q := rtEntry r (rtPtr r)
      if portUp s q then .out q (patch h 16 (leBytes 8 (rtMake (rtNh r) (rtPtr r + 1) es))) else .drop 0
  else if s.phl.valid ∧ fDst h = s.phl.addr then .here h
  else if fHops h = 0 then .drop 1
  else match routePort s (fDst h) with
    | some q => .out q (patch h 6 (leBytes 1 (fHops h - 1)))
    | none => .drop 2

/-- Take a routed frame: forward it, drop it, or hand it to its user; a delivered frame's buffer frees (R406, R407, R415). -/
def routed (p : Nat) (b : Bytes) (type : Nat) (user : Bytes → State → State) (s : State) : State :=
  let i := ingress p b s
  match i.1 with
  | none => i.2
  | some h =>
    if fType h ≠ type then ingressFree p h i.2
    else match hop p h i.2 with
      | .here h' => ingressFree p h (user h' i.2)
      | .out q h' => portSend q ⟨h', some p, false, none, false, 0⟩ i.2
      | .drop why => ingressFree p h (if why = 1 then dropHops p i.2 else if why = 2 then dropNoroute p i.2 else i.2)

/-- Take a link-local frame: consumed by the receiving port (R403). -/
def linkLocal (p : Nat) (b : Bytes) (type : Nat) (user : Bytes → State → State) (s : State) : State :=
  let i := ingress p b s
  match i.1 with
  | none => i.2
  | some h => ingressFree p h (if fType h = type then user h i.2 else i.2)

/-! ### Coming UP (R408, R417) -/

/-- TOTAL credits of a virtual channel (R405). -/
def credTotal (v : Nat) : Nat := if v < 2 then 768 else if v = 2 then 384 else 128

/-- Both views when a link comes UP, from the neighbour's occupied units (R408). -/
def credReset (occ : List Nat) (cs : List Cred) : List Cred :=
  (List.range 4).map fun v =>
    let c := cs.getD v Cred.blank
    let o := min (credTotal v) (occ.getD v 0)
    { c with held := credTotal v - o, rsv := 0, sent := o, back := 0, rx := c.occ, ret := 0 }

/-- Frames of the replay buffer after sequence number `seq` are sent again on a link that has come UP; they take credit anew (R402, R408). -/
def upResend (p seq : Nat) (s : State) : State :=
  let x := portOf s p
  let keep := x.replay.filter fun r => !decide ((seq + 2 ^ 32 - r.1) % 2 ^ 32 < 2 ^ 31)
  let use := fun (v : Nat) (c : Cred) =>
    let k := ((keep.filter fun r => fVc r.2.bytes = v).map fun r => fCredits (fLen r.2.bytes)).sum
    { c with held := c.held - k, sent := (c.sent + k) % 2 ^ 32 }
  let s := modPort8 p (fun x => { x with
    replay := keep, replays := satAdd 0xFFFF x.replays keep.length, cred := x.cred.zipIdx.map fun c => use c.2 c.1 }) s
  keep.foldl (fun s r => emit (.port p (wire r.2.bytes r.1)) s) s

/-- What a port advertises as it comes UP: its last accepted number, and TOTAL − OCC of each virtual channel (R402, R408). -/
def linkAdvert (p : Nat) (s : State) : Out :=
  .linkUp p (portOf s p).rxSeq ((List.range 4).map fun v => credTotal v - (credOf s p v).occ)

/-- The port reaches UP: its number and free units are advertised, views reset from the neighbour's occupied units, the replay buffer sent on from the neighbour's last number, UP
queued, NEIGHBOR sent (R402, R408, R417). -/
def reachUp (p peerSeq : Nat) (occ : List Nat) (s : State) : State :=
  let s := emit (linkAdvert p s) s
  let s := modPort8 p (fun x => { x with
    st := .up, left := none, cred := credReset occ x.cred, tries := 0, failedAt := none, heard := s.time.refCount, silent := false,
    ackAt := s.time.refCount, replay := x.replay.map fun r => (r.1, { r.2 with naks := 0 }) }) s
  neighborSend p (phlEvent 4 p 0xFF 0xFFFF (upResend p peerSeq s))

/-- Resend a port's replay buffer (R401, R402). -/
def replaySend (p fromSeq : Nat) (s : State) : State :=
  let fs := (portOf s p).replay.filter fun r => decide ((r.1 + 2 ^ 32 - fromSeq) % 2 ^ 32 < 2 ^ 31)
  let s := countPort 0x303 p fs.length (modPort8 p (fun x => { x with replays := satAdd 0xFFFF x.replays fs.length }) s)
  fs.foldl (fun s r => emit (.port p (wire r.2.bytes r.1)) s) s

/-- Frames up to `seq` are accepted by the neighbour: they leave the replay buffer, and the mirror stream learns of its own (R401, R440). -/
def replayAck (p seq : Nat) (s : State) : State :=
  let x := portOf s p
  let gone := x.replay.filter fun r => decide ((seq + 2 ^ 32 - r.1) % 2 ^ 32 < 2 ^ 31)
  let top := gone.foldl (fun m r => max m (r.2.mseq.getD 0)) s.par.accepted
  let s := modPort8 p (fun x => { x with
    replay := x.replay.filter (fun r => !decide ((seq + 2 ^ 32 - r.1) % 2 ^ 32 < 2 ^ 31)),
    ackAt := if gone.isEmpty then x.ackAt else s.time.refCount }) s
  let s := if gone.any fun r => r.2.mseq.isSome then drainRel (modPar (fun p => { p with accepted := top }) s) else s
  portPump p ((portOf s p).queue.length) s

end Sys2Proof.Machine
end

