-- ==== Sys2Proof/Machine/KeyBlock.lean ====
section
/-!
DEFINITION. X9.143 key blocks (R134-R141): parsing, the header and optional-block rules, unwrapping and wrapping, key check values.
The block's own format and its key derivation are ANSI X9.143's (PRESUMED, log entry 2).
-/

namespace Sys2Proof.Machine

/-! ### Characters -/

/-- Two characters as the 16-bit value of a USAGE or KVN field: the first in the low byte (R121). -/
def chars2 (a b : Char) : Nat := a.toNat + 256 * b.toNat

/-- The value of a hex digit character. -/
def hexVal (b : Byte) : Option Nat :=
  let n := b.toNat
  if 0x30 ≤ n ∧ n ≤ 0x39 then some (n - 0x30)
  else if 0x41 ≤ n ∧ n ≤ 0x46 then some (n - 0x41 + 10)
  else if 0x61 ≤ n ∧ n ≤ 0x66 then some (n - 0x61 + 10)
  else none

/-- An unsigned hex number. -/
def hexNat : Bytes → Nat → Option Nat
  | [], acc => some acc
  | b :: bs, acc => (hexVal b).bind fun d => hexNat bs (16 * acc + d)

/-- Bytes spelled in hex, an even count. -/
def unhex : Bytes → Option Bytes
  | [] => some []
  | [_] => none
  | a :: b :: bs =>
    (hexVal a).bind fun x => (hexVal b).bind fun y => (unhex bs).map fun r => BitVec.ofNat 8 (16 * x + y) :: r

/-- An upper-case hex digit. -/
def hexDigit (n : Nat) : Byte := BitVec.ofNat 8 (if n < 10 then 0x30 + n else 0x41 + n - 10)

/-- Upper-case hex of bytes. -/
def toHex (d : Bytes) : Bytes := d.flatMap fun b => [hexDigit (b.toNat / 16), hexDigit (b.toNat % 16)]

/-- `n` upper-case hex digits of a number. -/
def hexN (n v : Nat) : Bytes := (List.range n).map fun i => hexDigit (v / 16 ^ (n - 1 - i) % 16)

/-- `n` decimal digits of a number. -/
def decN (n v : Nat) : Bytes := (List.range n).map fun i => hexDigit (v / 10 ^ (n - 1 - i) % 10)

/-- A decimal number in characters. -/
def decNat : Bytes → Nat → Option Nat
  | [], acc => some acc
  | b :: bs, acc => if 0x30 ≤ b.toNat ∧ b.toNat ≤ 0x39 then decNat bs (10 * acc + (b.toNat - 0x30)) else none

/-! ### Algorithms (R121, R122, R138, R141) -/

/-- ALG is TDES-2 or TDES-3. -/
def algTdes (a : Nat) : Bool := decide (a = 1) || decide (a = 2)
/-- ALG is AES-128, AES-192 or AES-256. -/
def algAes (a : Nat) : Bool := decide (3 ≤ a) && decide (a ≤ 5)
/-- ALG is RSA. -/
def algRsa (a : Nat) : Bool := decide (6 ≤ a) && decide (a ≤ 8)
/-- ALG is an elliptic curve. -/
def algEcc (a : Nat) : Bool := decide (a = 9) || decide (a = 10)
/-- ALG is symmetric. -/
def algSym (a : Nat) : Bool := algTdes a || algAes a

/-- Key bytes of a symmetric ALG. -/
def algBytes (a : Nat) : Nat :=
  match a with | 1 => 16 | 2 => 24 | 3 => 16 | 4 => 24 | _ => 32

/-- ALG from the header's algorithm character, KIND, and the key or material length (R122, R135). -/
def algOf (c kind len : Nat) : Option Nat :=
  if c = 0x54 ∧ kind = 0 then (if len = 16 then some 1 else if len = 24 then some 2 else none)
  else if c = 0x41 ∧ kind = 0 then (if len = 16 then some 3 else if len = 24 then some 4 else if len = 32 then some 5 else none)
  else if c = 0x52 ∧ kind = 1 then (if len = 900 then some 6 else if len = 1348 then some 7 else if len = 1796 then some 8 else none)
  else if c = 0x52 ∧ kind = 2 then (if len = 260 then some 6 else if len = 388 then some 7 else if len = 516 then some 8 else none)
  else if c = 0x45 ∧ kind = 1 then (if len = 96 then some 9 else if len = 144 then some 10 else none)
  else if c = 0x45 ∧ kind = 2 then (if len = 64 then some 9 else if len = 96 then some 10 else none)
  else none

/-- The header's algorithm character of an ALG. -/
def algChar (a : Nat) : Nat := if algTdes a then 0x54 else if algAes a then 0x41 else if algRsa a then 0x52 else 0x45

/-- Security strength of an ALG in bits (R138). -/
def algStrength (a : Nat) : Nat :=
  match a with
  | 1 => 80 | 2 => 112 | 3 => 128 | 4 => 192 | 5 => 256 | 6 => 112 | 7 => 128 | 8 => 152 | 9 => 128 | 10 => 192 | _ => 0

/-- The 3-byte key check value of a symmetric key (R141). -/
def kcv (alg : Nat) (key : Bytes) : Bytes :=
  if algTdes alg then (tdesEnc key (zeroBytes 8)).take 3 else (cmac true key (zeroBytes 16)).take 3

/-- The content of a KC or KP block (R141). -/
def kcvText (alg : Nat) (key : Bytes) : Bytes :=
  (if algTdes alg then [0x30, 0x30] else [0x30, 0x31]) ++ toHex (kcv alg key)

/-- A KC or KP block agrees with a key (R141). -/
def kcvOk (d : Bytes) (alg : Nat) (key : Bytes) : Bool :=
  let v := d.drop 2
  decide (d.take 2 = (if algTdes alg then [0x30, 0x30] else [0x30, 0x31])) && decide (6 ≤ v.length) && decide (v.length ≤ 32) &&
  decide (v.length % 2 = 0) && decide ((unhex v).map (fun x => x.take 3) = some (kcv alg key))

/-! ### Usages and modes (R137) -/

/-- The rows of R137: usage, algorithms, modes. -/
def usageRows : List (Nat × List Nat × List Char) :=
  [(chars2 'B' '0', [1, 2, 3, 4, 5], ['X', 'N']), (chars2 'C' '0', [1], ['G', 'V', 'C', 'N']),
   (chars2 'D' '0', [1, 2, 3, 4, 5], ['E', 'D', 'B', 'N']), (chars2 'E' '0', [1, 3, 4, 5], ['X', 'N']),
   (chars2 'K' '1', [1, 2, 3, 4, 5], ['E', 'D', 'B', 'N']), (chars2 'K' '2', [6, 7, 8], ['D', 'N']),
   (chars2 'M' '1', [1, 2, 3, 4, 5], ['G', 'V', 'C', 'N'])] ++
  [(chars2 'M' '3', [1], ['G', 'V', 'C', 'N']), (chars2 'M' '6', [1, 2, 3, 4, 5], ['G', 'V', 'C', 'N']),
   (chars2 'P' '0', [1, 2, 3, 4, 5], ['E', 'D', 'B', 'N']), (chars2 'S' '0', [6, 7, 8, 9, 10], ['S', 'V', 'N']),
   (chars2 'V' '1', [1, 2], ['C', 'V', 'N']), (chars2 'V' '2', [1], ['C', 'V', 'N']),
   (chars2 '0' 'F', [3, 4, 5], ['E', 'D', 'B', 'N'])]

/-- A usage with its algorithm and mode is a row of R137; K2 takes a private key. -/
def usageOk (usage alg mode kind : Nat) : Bool :=
  usageRows.any fun r =>
    decide (r.1 = usage) && r.2.1.contains alg && (r.2.2.map Char.toNat).contains mode &&
    (decide (usage ≠ chars2 'K' '2') || decide (kind = 1))

/-! ### Blocks -/

/-- A parsed key block (R135, R136). -/
structure KBlock where
  ver : Nat
  usage : Nat
  algc : Nat
  mode : Nat
  kvn : Nat
  expo : Nat
  ctx : Nat
  /-- Optional blocks: ID as two characters, content. -/
  opts : List (Nat × Bytes)
  /-- The header with its optional blocks, as MACed. -/
  hdr : Bytes
  /-- The hex characters after it. -/
  body : Bytes
deriving DecidableEq, Repr

/-- An optional block's ID. -/
def oid (a b : Char) : Nat := chars2 a b

/-- Parse `n` optional blocks: contents and the rest of the text (R136). -/
def kbOpts : Nat → Bytes → Option (List (Nat × Bytes) × Bytes)
  | 0, t => some ([], t)
  | n + 1, t =>
    let id := leAt t 0 2
    match hexNat (slice t 2 2) 0 with
    | none => none
    | some 0 =>
      match hexNat (slice t 4 2) 0 with
      | none => none
      | some k =>
        match hexNat (slice t 6 (2 * k)) 0 with
        | none => none
        | some l =>
          if l < 6 + 2 * k ∨ t.length < l then none
          else (kbOpts n (t.drop l)).map fun r => ((id, slice t (6 + 2 * k) (l - (6 + 2 * k))) :: r.1, r.2)
    | some l =>
      if l < 4 ∨ t.length < l then none
      else (kbOpts n (t.drop l)).map fun r => ((id, slice t 4 (l - 4)) :: r.1, r.2)

/-- Parse a block whose stated length is that of the text (R135). -/
def kbParse (t : Bytes) : Option KBlock :=
  if t.length < 16 ∨ t.any (fun b => decide (b.toNat < 0x20) || decide (0x7E < b.toNat)) then none
  else
    match decNat (slice t 1 4) 0, decNat (slice t 12 2) 0 with
    | some l, some n =>
      if l ≠ t.length ∨ 16 < n ∨ leAt t 15 1 ≠ 0x30 then none
      else
        match kbOpts n (t.drop 16) with
        | none => none
        | some (os, rest) =>
          some ⟨leAt t 0 1, leAt t 5 2, leAt t 7 1, leAt t 8 1, leAt t 9 2, leAt t 11 1, leAt t 14 1, os,
            t.take (t.length - rest.length), rest⟩
    | _, _ => none

/-- The content of an optional block. -/
def kbOpt (k : KBlock) (id : Nat) : Option Bytes := (k.opts.find? fun o => o.1 = id).map fun o => o.2

/-- The hex number of an optional block of exactly `n` digits: none when absent, some none when malformed. -/
def optHex (k : KBlock) (id n : Nat) : Option (Option Nat) :=
  (kbOpt k id).map fun d => if d.length = n then hexNat d 0 else none

/-- Header and optional-block rules that need no key (R135, R136): version, exportability, key context, proprietary blocks, their contents. -/
def kbHeaderOk (k : KBlock) (underLmk : Bool) : Bool :=
  (decide (k.ver = 0x44) || (decide (k.ver = 0x42) && !underLmk)) &&
  ['E', 'N', 'S'].any (fun c => decide (c.toNat = k.expo)) &&
  (decide (k.ctx = 0x30) || decide (k.ctx = if underLmk then 0x31 else 0x32)) &&
  k.opts.all (fun o => decide (o.1 % 256 < 0x30) || decide (0x39 < o.1 % 256) ||
    [oid '0' 'L', oid '0' 'U', oid '0' 'E', oid '0' 'X'].contains o.1) &&
  decide (optHex k (oid '0' 'L') 4 ≠ some none) && (!underLmk || (kbOpt k (oid '0' 'L')).isSome) &&
  decide (optHex k (oid '0' 'U') 10 ≠ some none) && decide (optHex k (oid '0' 'U') 10 ≠ some (some 0)) &&
  decide (optHex k (oid '0' 'E') 8 ≠ some none) &&
  (match kbOpt k (oid '0' 'X') with | some d => decide (d = [0x30, 0x31]) | none => true)

/-- One key derived by the X9.143 derivation from a protection key: encryption (0) or authentication (1). -/
def kbDerive (alg : Nat) (key : Bytes) (use : Nat) : Bytes :=
  let n := algBytes alg
  let ind := match alg with | 1 => 0 | 2 => 1 | 3 => 2 | 4 => 3 | _ => 4
  let bs := blkSize (algAes alg)
  (joinBytes ((List.range (cdiv n bs)).map fun i =>
    cmac (algAes alg) key (leBytes 1 (i + 1) ++ beBytes 2 use ++ [0] ++ beBytes 2 ind ++ beBytes 2 (8 * n)))).take n

/-- MAC bytes of a version. -/
def kbMacLen (aes : Bool) : Nat := if aes then 16 else 8

/-- The clear key of a block under a protection key of ALG `alg` with its encryption and authentication keys: version, KP, MAC and length
checks (R134-R136). -/
def kbOpenBy (k : KBlock) (alg : Nat) (key kbek kbak : Bytes) : Option Bytes :=
  let aes := algAes alg
  let ml := kbMacLen aes
  if (k.ver = 0x44) ≠ (aes = true) ∨ k.hdr.length % blkSize aes ≠ 0 ∨ k.body.length < 2 * ml + 2 * blkSize aes then none
  else if (match kbOpt k (oid 'K' 'P') with | some d => !kcvOk d alg key | none => false) then none
  else
    match unhex k.body with
    | none => none
    | some b =>
      let mac := b.drop (b.length - ml)
      let enc := b.take (b.length - ml)
      if enc.length % blkSize aes ≠ 0 then none
      else
        let clear := cbcDec aes kbek mac enc
        let bits := beAt clear 0 2
        if cmac aes kbak (k.hdr ++ clear) ≠ mac then none
        else if bits = 0 ∨ bits % 8 ≠ 0 ∨ clear.length < 2 + bits / 8 then none
        else some (slice clear 2 (bits / 8))

/-- The clear key of a block under a protection key whose two keys are derived for the block (R134-R136). -/
def kbOpen (k : KBlock) (alg : Nat) (key : Bytes) : Option Bytes := kbOpenBy k alg key (kbDerive alg key 0) (kbDerive alg key 1)

/-- The checks that need the clear key: algorithm, usage and mode, KC (R135-R137). Answers ALG. -/
def kbAccept (k : KBlock) (kind : Nat) (key : Bytes) : Option Nat :=
  match algOf k.algc kind key.length with
  | none => none
  | some a =>
    if !usageOk k.usage a k.mode kind then none
    else if (match kbOpt k (oid 'K' 'C') with | some d => !(algSym a && kcvOk d a key) | none => false) then none
    else some a

/-- The text of an optional block. -/
def optText (o : Nat × Bytes) : Bytes :=
  let n := 4 + o.2.length
  if n < 256 then leBytes 2 o.1 ++ hexN 2 n ++ o.2
  else leBytes 2 o.1 ++ [0x30, 0x30, 0x30, 0x32] ++ hexN 4 (10 + o.2.length) ++ o.2

/-- Padded length of the key field (R134). -/
def kbFieldLen (alg len : Nat) : Nat :=
  if algTdes alg then 32 else if algAes alg then 48 else 16 * cdiv (2 + len) 16

/-- Random bytes the padding of a key takes (R134). -/
def kbPadLen (alg len : Nat) : Nat := kbFieldLen alg len - 2 - len

/-- A printable character for a PB block. -/
def pbChar (b : Byte) : Byte := hexDigit (b.toNat % 16)

/-- Write a block under the encryption and authentication keys of a protection key (R134): header attributes, optional blocks (a PB block is
added where the version needs it), the key, its random padding, and the PB block's characters. -/
def kbWrapBy (usage mode kvn expo ctx : Nat) (opts : List (Nat × Bytes)) (alg : Nat) (key pad pb : Bytes)
    (palg : Nat) (kbek kbak : Bytes) : Bytes :=
  let aes := algAes palg
  let bs := blkSize aes
  let os := opts.filter fun o => decide (o.1 ≠ oid 'P' 'B')
  let ot := joinBytes (os.map optText)
  let short := (bs - ot.length % bs) % bs
  let n := if short = 0 then 0 else if short < 4 then short + bs else short
  let os2 := if n = 0 then ot else ot ++ optText (oid 'P' 'B', (padTo (n - 4) pb).map pbChar)
  let count := os.length + if n = 0 then 0 else 1
  let clear := beBytes 2 (8 * key.length) ++ key ++ padTo (kbPadLen alg key.length) pad
  let total := 16 + os2.length + 2 * clear.length + 2 * kbMacLen aes
  let hdr := [if aes then 0x44 else 0x42] ++ decN 4 total ++ leBytes 2 usage ++ leBytes 1 (algChar alg) ++ leBytes 1 mode ++
    leBytes 2 kvn ++ leBytes 1 expo ++ decN 2 count ++ leBytes 1 ctx ++ [0x30] ++ os2
  let mac := cmac aes kbak (hdr ++ clear)
  hdr ++ toHex (cbcEnc aes kbek mac clear) ++ toHex mac

/-- Write a block under a protection key whose two keys are derived for the block (R134). -/
def kbWrap (usage mode kvn expo ctx : Nat) (opts : List (Nat × Bytes)) (alg : Nat) (key pad pb : Bytes)
    (palg : Nat) (pkey : Bytes) : Bytes :=
  kbWrapBy usage mode kvn expo ctx opts alg key pad pb palg (kbDerive palg pkey 0) (kbDerive palg pkey 1)

/-- A key outside the store: its attributes and material (R121). -/
def newKey (f index gen kind alg usage mode expo kvn expiry lmkGen : Nat) (sens : Bool) (origin : Nat) (mat : Bytes)
    (carry : List (Nat × Bytes)) : KEnt :=
  ⟨f, index, gen, kind, alg, usage, mode, expo, kvn, 0, none, expiry, lmkGen, sens, origin, mat, [], carry, 0, false, [], [], 0⟩

/-- Optional blocks that a key carries through translation and export: those that the device does not write itself, a KC block in the form
that the device writes (R136, R141). -/
def carryOpts (k : KBlock) (alg : Nat) (key : Bytes) : List (Nat × Bytes) :=
  (k.opts.filter fun o => !([oid '0' 'L', oid '0' 'X', oid 'P' 'B', oid 'K' 'P'].contains o.1)).map fun o =>
    if o.1 = oid 'K' 'C' then (o.1, kcvText alg key) else o

/-- The identity of a key in the budget ledger and the sensitive-key list (R140, R142). -/
def keyIdent (f alg : Nat) (key : Bytes) : Bytes :=
  (shake256 8 (ascii "EHROS-BUD" ++ leBytes 2 f ++ leBytes 1 alg ++ key))

end Sys2Proof.Machine
end

