-- ==== Sys2Proof/Machine/KeyOps.lean ====
section
/-!
DEFINITION. The shared operations of the key store: LMK sets and the vault (R109-R115), entries, pins, eviction and invalidation
(R121-R133), the budget ledger (R142-R146), the sensitive-key list (R140), resolution (R124, R125) and the miss path (R127-R130).
-/

namespace Sys2Proof.Machine

/-! ### Security records of commands, with their mirror records (R15, R438) -/

/-- The 64 bytes of the last record given a SEQ, for a STATE record. -/
def lastRec (s : State) : Bytes :=
  match (s.aud.held ++ s.aud.staging).getLast? with
  | some h => padTo 64 h.bytes
  | none => zeroBytes 64

/-- The reference of a STATE record to its command: function, ring pair, slot; 0xFFFF for none (log entry 31). -/
def stateRef (f ring slot : Nat) : Bytes := leBytes 2 f ++ leBytes 1 ring ++ [0] ++ leBytes 2 slot ++ [0, 0]

/-- Queue a STATE record with effects, a security record (zeros for none) and the chain head (R438; effect bytes: log entry 31). -/
def stateMirror (f : Nat) (ref eff rec_ : Bytes) (s : State) : State :=
  mirrorSend 3 (loadByte s f) (ref ++ leBytes 2 eff.length ++ eff ++ padTo 64 rec_ ++ s.aud.chain) s

/-- A command's STATE record, with a security record or none; the token waits for the acknowledgement (R15, R250). -/
def commandState (tk : Nat) (eff rec_ : Bytes) (s : State) : State :=
  let m := nextMseq s
  let t := tok s tk
  modTok tk (fun t => { t with mseq := m }) (stateMirror t.func (stateRef t.func t.ring t.slot) eff rec_ s)

/-- A command's security record, of function `f`, and its STATE record; the token waits for both (R15, R250, R381). -/
def commandRecord (tk code f : Nat) (body eff : Bytes) (s : State) : State :=
  let n := s.aud.next
  let s := recAppend code 0 f body s
  let r := lastRec s
  let s := modTok tk (fun t => { t with recNo := if n < s.aud.next then some (s.aud.next - 1) else none }) s
  commandState tk eff r (logFullSay (logWarn s))

/-! ### Entries (R121-R123) -/

/-- The key whose head entry is store index `i`. -/
def keyAt (s : State) (i : Nat) : Option KEnt := (s.kst.keys.find? fun e => e.1 = i).map fun e => e.2
/-- Store index of an LMK set entry: 0 LMK, 1 KBEK, 2 KBAK (R113). -/
def lmkEntry (f slot k : Nat) : Nat := 6 * (f - 1) + 3 * slot + k
/-- First store index of a ceremony buffer (R113). -/
def cerEntry (n : Nat) : Nat := 0x1800 + 64 * n
/-- Store index of a device key: 0 vault key, 1 and 2 pair transport keys (R113; order: log entry 41). -/
def deviceEntry (n : Nat) : Nat := 0x1A00 + n
/-- First store index of the pooled working keys (R113). -/
def workEntry : Nat := 0x2000

/-- Bytes +0x00 to +0x37 of a head entry (R121); an asymmetric head holds LINK and LEN in place of the key (R122). -/
def headBytes (e : KEnt) : Bytes :=
  (if algSym e.alg then padTo 32 e.mat else leBytes 32 (e.ext.headD 0 + e.mat.length * 2 ^ 20)) ++
  leBytes 4 (e.index + e.func * 2 ^ 20 + 2 ^ 31) ++ leBytes 4 (e.gen + e.kind * 2 ^ 8 + e.alg * 2 ^ 12 + e.usage * 2 ^ 16) ++
  leBytes 4 (e.mode + e.expo * 2 ^ 8 + e.kvn * 2 ^ 16) ++
  leBytes 4 (e.chunk % 2 ^ 17 + e.ledger.getD 0 * 2 ^ 17 + b2n e.ledger.isSome * 2 ^ 29) ++ leBytes 4 e.expiry ++
  leBytes 4 (e.lmkGen + b2n e.sens * 2 ^ 16 + e.origin * 2 ^ 17)
/-- Bytes +0x00 to +0x37 of the `k`-th extension entry (R121). -/
def extBytes (e : KEnt) (k : Nat) : Bytes := padTo 52 (slice e.mat (52 * k) 52) ++ leBytes 4 (e.ext.getD (k + 1) 0 + e.func * 2 ^ 20)
/-- KMAC of an entry's bytes at store index `i` under the integrity key (R123; the index as 3 bytes, little-endian: log entry 41). -/
def kmacOf (key : Bytes) (i : Nat) (b : Bytes) : Bytes := (cmac true (padTo 32 key) (b ++ leBytes 3 i)).take 8
/-- A key at head entry `i` with its KMACs as the key store writes them (R121, R123). -/
def keySeal (key : Bytes) (i : Nat) (e : KEnt) : KEnt :=
  { e with kmac := kmacOf key i (headBytes e), kmacs := e.ext.zipIdx.map fun x => kmacOf key x.1 (extBytes e x.2) }
/-- The ECC or KMAC check of one of the key's entries fails on a read (R123). -/
def keyBad (s : State) (i : Nat) (e : KEnt) : Bool :=
  let z := keySeal s.kst.intKey i e
  decide (e.bad ≠ 0) || decide (e.kmac ≠ z.kmac) || decide (e.kmacs ≠ z.kmacs)

/-- Change the key at head entry `i`; its KMACs follow (R123). -/
def modKey (i : Nat) (g : KEnt → KEnt) (s : State) : State :=
  modKst (fun k => { k with keys := k.keys.map fun e => if e.1 = i then (e.1, keySeal k.intKey i (g e.2)) else e }) s
/-- Entries a key takes (R122). -/
def keySpan (e : KEnt) : Nat := 1 + e.ext.length
/-- Extension entries a material length needs (R122). -/
def extCount (alg len : Nat) : Nat := if algSym alg then 0 else cdiv len 52
/-- Working-key entries of function `f`. -/
def fnEntries (s : State) (f : Nat) : Nat := ((s.kst.keys.filter fun e => e.2.func = f).map fun e => keySpan e.2).sum
/-- A command holds the entry in its pin table (R126), or as a result of its own (R188, R190). -/
def keyPinned (s : State) (i : Nat) : Bool :=
  (s.lanes.keyOut.any fun e => e.2.contains i) || (s.cpu.cores.any fun c => c.2.pins.any fun q => decide (q.index = i)) ||
  s.cpu.parks.any fun k => k.pins.any fun q => decide (q.index = i)
/-- Mark an entry as just used (R131). -/
def keyTouch (i : Nat) (s : State) : State :=
  modKst (fun k => { k with useNo := k.useNo + 1 }) (modKey i (fun e => { e with used := s.kst.useNo }) s)

/-! ### The budget ledger (R142-R146) -/

/-- Ledger slot `n`. -/
def ledgerAt (s : State) (n : Nat) : Option Budget := (s.kst.ledger.find? fun e => e.1 = n).map fun e => e.2
/-- Change ledger slot `n`. -/
def modLedger (n : Nat) (g : Budget → Budget) (s : State) : State :=
  modKst (fun k => { k with ledger := k.ledger.map fun e => if e.1 = n then (e.1, g e.2) else e }) s
/-- Show a ledger slot to the partner as a key-policy record (R144). -/
def ledgerMirror (n : Nat) (s : State) : State :=
  match ledgerAt s n with
  | some b => stateMirror b.fn (stateRef 0xFFFF 0 0) ([3] ++ leBytes 2 n ++ leBytes 2 b.fn ++ padTo 8 b.ident ++ leBytes 5 b.left ++ leBytes 4 b.expiry) [] s
  | none => s
/-- The least free ledger slot. -/
def ledgerFree (s : State) : Option Nat := (List.range 4096).find? fun n => (ledgerAt s n).isNone
/-- The slot an identity holds. -/
def ledgerOf (s : State) (ident : Bytes) : Option Nat := (s.kst.ledger.find? fun e => e.2.ident = ident).map fun e => e.1

/-- Deduct one chunk of 65,536 uses, or the remainder, for the key at `i` (R144). -/
def chunkTake (i : Nat) (s : State) : State :=
  match keyAt s i with
  | none => s
  | some e =>
    match e.ledger.bind fun n => (ledgerAt s n).map fun b => (n, b) with
    | none => s
    | some (n, b) =>
      let d := min 65536 b.left
      if d = 0 then s
      else ledgerMirror n (modLedger n (fun b => { b with left := b.left - d }) (modKey i (fun e => { e with chunk := e.chunk + d }) s))

/-- Uses reserved and not spent in pin tables, of the keys that draw on ledger slot `n` (R143). -/
def usesHeld (s : State) (n : Nat) : Nat :=
  let mine := fun (q : Pin) => if (keyAt s q.index).any fun e => decide (e.ledger = some n) then q.resv else 0
  (s.cpu.cores.map fun c => (c.2.pins.map mine).sum).sum + (s.cpu.parks.map fun k => (k.pins.map mine).sum).sum

/-- Uses of a budgeted key that nobody has reserved: its chunk and its ledger slot, less the reservations (R124 check 9, R143). -/
def usesLeft (s : State) (e : KEnt) : Nat :=
  match e.ledger with
  | some n => e.chunk + (match ledgerAt s n with | some b => b.left | none => 0) - usesHeld s n
  | none => 0

/-- Spend `n` reserved uses of the key at `i`, chunk by chunk, with fuel: a chunk is deducted before any of its uses, and the next once fewer
than 16,384 are left, so that at most two are out (R143, R144). -/
def usesSpend (i : Nat) : Nat → Nat → State → State
  | 0, _, s => s
  | fuel + 1, n, s =>
    match keyAt s i with
    | none => s
    | some e =>
      if e.ledger.isNone then s
      else if n ≤ e.chunk then
        let s := modKey i (fun e => { e with chunk := e.chunk - n }) s
        if e.chunk - n < 16384 then chunkTake i s else s
      else usesSpend i fuel (n - e.chunk) (chunkTake i (modKey i (fun e => { e with chunk := 0 }) s))

/-! ### Invalidation and eviction (R131-R133) -/

/-- Send a store index to every block lane, which will drop its expanded-key slots (R132). -/
def laneDropAll (i : Nat) (s : State) : State :=
  modLanes (fun l => { l with lanes := l.lanes.map fun e => if e.2.slots.any (fun x => decide (x.index = i)) then (e.1, { e.2 with drops := e.2.drops ++ [i] }) else e }) s

/-- Remove the key at `i`: the uses left in its chunk return to its ledger slot, and the lanes are told (R132, R144). -/
def keyInvalidate (i : Nat) (s : State) : State :=
  match keyAt s i with
  | none => s
  | some e =>
    let s := match e.ledger with
      | some n => if e.chunk = 0 then s else ledgerMirror n (modLedger n (fun b => { b with left := b.left + e.chunk }) s)
      | none => s
    laneDropAll i (modKst (fun k => { k with keys := k.keys.filter fun x => decide (x.1 ≠ i) }) s)

/-- Invalidate the key at `i`, or mark it to go once its pins drop (R125, R126). -/
def keyRetire (i : Nat) (s : State) : State :=
  if keyPinned s i then modKey i (fun e => { e with doomed := true }) s else keyInvalidate i s

/-- Free a budget ledger slot: entries that drew on it go (R146; their going: log entry 41). -/
def ledgerDrop (n : Nat) (s : State) : State :=
  let mine := (s.kst.keys.filter fun e => decide (e.2.ledger = some n)).map fun e => e.1
  let s := modKst (fun k => { k with
    ledger := k.ledger.filter (fun e => decide (e.1 ≠ n)),
    keys := k.keys.map fun e => if e.2.ledger = some n then (e.1, { e.2 with ledger := none, chunk := 0 }) else e }) s
  mine.foldl (fun s i => keyRetire i s) s

/-- The least recently used unpinned key of function `f` (R131). -/
def lruKey (s : State) (f : Nat) : Option Nat :=
  ((s.kst.keys.filter fun e => decide (e.2.func = f) && !keyPinned s e.1).foldl (fun (best : Option (Nat × Nat)) e =>
    match best with
    | none => some (e.1, e.2.used)
    | some b => if e.2.used < b.2 then some (e.1, e.2.used) else some b) none).map fun b => b.1

/-- Evict until function `f` has at most `limit` entries, or has no unpinned key left, with fuel. -/
def evictTo (f limit : Nat) : Nat → State → State
  | 0, s => s
  | n + 1, s =>
    if fnEntries s f ≤ limit then s
    else match lruKey s f with
      | none => s
      | some i => evictTo f limit n (keyInvalidate i s)

/-- A lowered key share evicts unpinned entries in least-recently-used order (R133). -/
def keyShareEvict (f : Nat) (s : State) : State := evictTo f (shareOf s f).keys s.kst.keys.length s

/-- Pins dropped: doomed keys of the function go, and a function over its share is brought back (R125, R133). -/
def keySettle (f : Nat) (s : State) : State :=
  let s := ((s.kst.keys.filter fun e => decide (e.2.func = f) && e.2.doomed && !keyPinned s e.1).map fun e => e.1).foldl
    (fun s i => keyInvalidate i s) s
  keyShareEvict f s

/-- Invalidate every working key of a function (R119, R132). -/
def fnKeysDrop (f : Nat) (s : State) : State :=
  ((s.kst.keys.filter fun e => decide (e.2.func = f)).map fun e => e.1).foldl (fun s i => keyRetire i s) s

/-- Clear a core's pin table: what it had reserved and not spent is free again (R143, R157). -/
def unpinAll (p : Nat) (s : State) : State := keySettle (core s p).func (modCore p (fun c => { c with pins := [] }) s)

/-! ### LMKs and the vault (R109-R115) -/

/-- LMKs of VF `f`. -/
def lmkOf (s : State) (f : Nat) : Lmk := tget Lmk.blank s.kst.lmks f
/-- Change the LMKs of VF `f`. -/
def modLmk (f : Nat) (g : Lmk → Lmk) (s : State) : State := modKst (fun k => { k with lmks := tmod Lmk.blank k.lmks f g }) s
/-- Physical slot `n`. -/
def lmkSlot (l : Lmk) (n : Nat) : LmkSlot := if n = 0 then l.s0 else l.s1
/-- Change physical slot `n`. -/
def modLmkSlot (f n : Nat) (g : LmkSlot → LmkSlot) (s : State) : State :=
  modLmk f (fun l => if n = 0 then { l with s0 := g l.s0 } else { l with s1 := g l.s1 }) s
/-- The VF is bound, by the OCCUPIED bits (R115). -/
def fnBound (s : State) (f : Nat) : Bool := (lmkOf s f).s0.occ || (lmkOf s f).s1.occ
/-- The physical slot whose LMK has generation `g` (R136 0L). -/
def lmkByGen (s : State) (f g : Nat) : Option Nat :=
  let l := lmkOf s f
  if l.s0.key.isSome ∧ l.s0.gen = g then some 0 else if l.s1.key.isSome ∧ l.s1.gen = g then some 1 else none
/-- The CURRENT LMK and its generation (R112). -/
def lmkCurrent (s : State) (f : Nat) : Option (Bytes × Nat) :=
  let l := lmkOf s f
  if l.s0.role = 1 then l.s0.key.map fun k => (k, l.s0.gen) else if l.s1.role = 1 then l.s1.key.map fun k => (k, l.s1.gen) else none
/-- A slot that holds an LMK in a role, with its KBEK and KBAK derived (R113, R152). -/
def setLmk (key : Bytes) (role gen : Nat) (x : LmkSlot) : LmkSlot :=
  { x with key := some key, role := role, gen := gen, kbek := kbDerive 5 key 0, kbak := kbDerive 5 key 1, bad := false }
/-- A slot without its LMK set. -/
def dropLmk (x : LmkSlot) : LmkSlot := { x with key := none, kbek := [], kbak := [], bad := false }
/-- The function's LMK sets leave the key store; the next resolution loads them from the vault again (R115, R123). -/
def lmkUnload (f : Nat) (s : State) : State := modLmk f (fun l => { l with loaded := false, s0 := dropLmk l.s0, s1 := dropLmk l.s1 }) s

/-- The device root (R109). -/
def deviceRoot (s : State) : Bytes := shake256 32 (padTo 32 s.lcy.otpHalf ++ padTo 32 s.lcy.keepHalf ++ ascii "EHROS-ROOT")
/-- The vault key (R109). -/
def rootVaultKey (s : State) : Bytes := shake256 32 (deviceRoot s ++ ascii "EHROS-VAULT")

/-- Bytes +0x00 to +0x1F of a vault blob (R114). -/
def blobHead (f n role version gen : Nat) (nonce : Bytes) : Bytes :=
  leBytes 2 f ++ leBytes 1 n ++ leBytes 1 role ++ leBytes 4 version ++ leBytes 2 gen ++ zeroBytes 6 ++ padTo 12 nonce ++ zeroBytes 4
/-- A vault blob of 128 bytes (R114); an empty slot has role 0 and a zero LMK. -/
def blobBytes (vault : Bytes) (f n role version gen : Nat) (nonce lmk : Bytes) : Bytes :=
  let h := blobHead f n role version gen nonce
  h ++ gcmEnc vault (padTo 12 nonce) h (padTo 32 lmk) ++ zeroBytes 48
/-- Address of a vault blob (R114). -/
def blobAddr (s : State) (f n : Nat) : Nat := s.kst.vaultBase + 256 * (f - 1) + 128 * n
/-- The vault channel of VF `f`, as MASTER (R535). -/
def vaultMaster (f : Nat) : Nat := 0xC0 + (4 * f) % 16

/-- Write the vault blob of a slot that changed: VERSION counts up and OCCUPIED follows (R114, R115). -/
def vaultWrite (f n : Nat) (nonce : Bytes) (s : State) : State :=
  let s := modLmkSlot f n (fun x => { x with version := (x.version + 1) % 2 ^ 32, occ := x.key.isSome }) s
  let x := lmkSlot (lmkOf s f) n
  (hostWrite (vaultMaster f) 0 (blobAddr s f n)
    (blobBytes s.kst.vaultKey f n x.role x.version x.gen nonce (x.key.getD (zeroBytes 32))) false s).2

/-- Empty a physical slot that is occupied, and its blob (R148). -/
def slotEmpty (f n : Nat) (nonce : Bytes) (s : State) : State :=
  if (lmkSlot (lmkOf s f) n).occ then vaultWrite f n nonce (modLmkSlot f n (fun x => { dropLmk x with role := 0 }) s) else s

/-- Unbind a VF: both slots empty, its working keys invalidated, its ledger slots and sensitive-key entries freed (R140, R148). -/
def lmkUnbind (f : Nat) (nonces : Bytes) (s : State) : State :=
  let s := slotEmpty f 1 (nonces.drop 12) (slotEmpty f 0 (nonces.take 12) s)
  let s := ((s.kst.ledger.filter fun e => decide (e.2.fn = f)).map fun e => e.1).foldl (fun s n => ledgerDrop n s) s
  fnKeysDrop f (modKst (fun k => { k with sens := k.sens.filter fun x => decide (x.1 ≠ f) }) s)

/-- Why a vault blob is refused: 1 tag, 2 position, 3 version; 0 when it is good (R115, R382). -/
def blobFault (s : State) (f n : Nat) (b : Bytes) : Nat :=
  if (gcmDec s.kst.vaultKey (slice b 16 12) (slice b 0 32) (slice b 32 48)).isNone then 1
  else if leAt b 0 2 ≠ f ∨ leAt b 2 1 ≠ n then 2
  else if leAt b 4 4 ≠ (lmkSlot (lmkOf s f) n).version then 3
  else 0

/-! ### The sensitive-key list (R140) -/

/-- The identity is in the list. -/
def sensListed (s : State) (f alg : Nat) (key : Bytes) : Bool := s.kst.sens.contains (f, keyIdent f alg key)

/-! ### Key blocks under an LMK -/

/-- How the unwrap of a block under an LMK ends. -/
inductive Unwrap where
  /-- The key, and its 0U count. -/
  | ok (e : KEnt) (uses : Option Nat)
  /-- A check fails: 0x0205. -/
  | bad
  /-- The LMK set that the block names fails its own check: 0x020A (R123). -/
  | set (slot : Nat)

/-- The checks of a parsed block under an LMK set, and the key it makes (R129, R134-R140). ORIGIN reads 0: a block carries none (log entry 60). -/
def lmkOpen (s : State) (f index gen kind g : Nat) (k : KBlock) (x : LmkSlot) : Option (KEnt × Option Nat) :=
  match kbOpenBy k 5 (x.key.getD []) x.kbek x.kbak with
  | none => none
  | some key =>
    match kbAccept k kind key with
    | none => none
    | some alg =>
      if (kbOpt k (oid '0' 'X')).isSome && !sensListed s f alg key then none
      else some (newKey f index gen kind alg k.usage k.mode k.expo k.kvn (((optHex k (oid '0' 'E') 8).bind id).getD 0xFFFFFFFF) g
        (decide (k.usage = chars2 'K' '1') && sensListed s f alg key) 0 key (carryOpts k alg key), (optHex k (oid '0' 'U') 10).bind id)

/-- The LMK slot that a parsed block under an LMK names (R136 0L). -/
def lmkNamed (s : State) (f : Nat) (k : KBlock) : Option (Nat × Nat) :=
  (((optHex k (oid '0' 'L') 4).bind id).bind fun g => (lmkByGen s f g).map fun n => (g, n))

/-- A block under the function's LMK, checked and unwrapped (R123, R129, R134-R140). -/
def lmkUnwrap (s : State) (f index gen kind : Nat) (t : Bytes) : Unwrap :=
  match (kbParse t).bind fun k => if kbHeaderOk k true then (lmkNamed s f k).map fun x => (k, x) else none with
  | none => .bad
  | some (k, g, n) =>
    let x := lmkSlot (lmkOf s f) n
    if x.bad then .set n
    else match lmkOpen s f index gen kind g k x with
      | none => .bad
      | some r => .ok r.1 r.2

/-! ### Installing (R127, R131, R142, R145) -/

/-- The least `n` free store indices of the pooled part, with fuel. -/
def freeEntries (used : List Nat) : Nat → Nat → Nat → List Nat
  | 0, _, _ => []
  | _ + 1, _, 0 => []
  | fuel + 1, i, n + 1 => if used.contains i then freeEntries used fuel (i + 1) (n + 1) else i :: freeEntries used fuel (i + 1) n

/-- Store indices in use. -/
def usedEntries (s : State) : List Nat :=
  (s.kst.keys.flatMap fun e => e.1 :: e.2.ext) ++ s.kst.cers.flatMap fun c => (List.range 64).map fun i => cerEntry c.buf + i
/-- The least ceremony buffer with no entry in use (R113). -/
def cerFree (s : State) : Option Nat :=
  (List.range 8).find? fun b => !((usedEntries s).any fun i => decide (cerEntry b ≤ i) && decide (i < cerEntry b + 64))

/-- Attach a key to its budget (R142, R145): the slot its identity holds, a new slot with the 0U count, or none; none outside when no slot can be had. -/
def budgetAttach (e : KEnt) (uses : Option Nat) (s : State) : Option (KEnt × State) :=
  let id := keyIdent e.func e.alg e.mat
  match ledgerOf s id with
  | some n => some ({ e with ledger := some n }, s)
  | none =>
    match uses with
    | none => some (e, s)
    | some u =>
      if (fnOf s e.func).budgetLimit ≤ (s.kst.ledger.filter fun x => x.2.fn = e.func).length then none
      else match ledgerFree s with
        | none => none
        | some n =>
          some ({ e with ledger := some n },
            modKst (fun k => { k with ledger := k.ledger ++ [(n, ⟨e.func, id, u, e.expiry⟩)] }) s)

/-- Install a key: evict what it needs, attach its budget, and place it; none with 0x020B when no room or no slot (R131, R145). -/
def keyInstall (e : KEnt) (uses : Option Nat) (s : State) : Option State :=
  let n := 1 + extCount e.alg e.mat.length
  let share := (shareOf s e.func).keys
  if share < n then none
  else
    let s := evictTo e.func (share - n) s.kst.keys.length s
    if share < fnEntries s e.func + n then none
    else
      match budgetAttach e uses s with
      | none => none
      | some (e, s) =>
        match freeEntries (usedEntries s) ((usedEntries s).length + n) workEntry n with
        | [] => none
        | i :: ext =>
          some (chunkTake i (keyTouch i (modKst (fun k => { k with keys := k.keys ++ [(i, { e with ext := ext })] }) s)))

/-! ### Resolution (R124, R125) -/

/-- What a command accepts in a key slot: KIND mask, ALG mask, USAGE (0: any), accepted MODE characters (empty: any) (R219). -/
structure KeyReq where
  kinds : Nat
  algs : Nat
  usage : Nat
  modes : List Nat

/-- Fields of a handle (R116). -/
def hKind (h : Nat) : Nat := bitsOf h 31 28
/-- GEN. -/
def hGen (h : Nat) : Nat := bitsOf h 27 20
/-- INDEX. -/
def hIndex (h : Nat) : Nat := bitsOf h 19 0

/-- What a resolution comes to. -/
inductive Resolved where
  /-- The head entry's store index. -/
  | ok (index : Nat)
  /-- The status of the first check that failed. -/
  | fail (status : Nat)
  /-- A miss (check 5). -/
  | miss
  /-- The LMK sets are to be loaded first (check 4). -/
  | load
  /-- The valid entry at this index fails its ECC or KMAC check (R123). -/
  | bad (index : Nat)
  /-- The entry has the handle's INDEX and GEN and another KIND: 0x0203 at check 5, counted as a miss (R119, R125). -/
  | kind

/-- The device minute (R147). -/
def deviceMinute (s : State) : Option Nat := s.time.dev.map fun t => t / 60000000

/-- The valid entry of a function with a handle's INDEX and GEN. -/
def keyFind (s : State) (f index gen : Nat) : Option (Nat × KEnt) :=
  s.kst.keys.find? fun e => decide (e.2.func = f) && decide (e.2.index = index) && decide (e.2.gen = gen) && !e.2.doomed

/-- Checks 6 to 9 on the entry of a hit (R124). -/
def keyChecks (s : State) (e : KEnt) (q : KeyReq) (rsv : Nat) : Nat :=
  if !q.algs.testBit e.alg then 0x0203
  else if (q.usage ≠ 0 ∧ q.usage ≠ e.usage) ∨ (!q.modes.isEmpty && !q.modes.contains e.mode) then 0x0204
  else if e.expiry ≠ 0xFFFFFFFF ∧ s.time.dev.isNone then 0x0404
  else if e.expiry ≠ 0xFFFFFFFF ∧ e.expiry ≤ (deviceMinute s).getD 0 then 0x0207
  else if e.ledger.isSome ∧ usesLeft s e < rsv then 0x0208
  else 0

/-- Resolve a handle under the checks of R124, in their order. -/
def resolve (s : State) (f h : Nat) (q : KeyReq) (rsv : Nat) : Resolved :=
  if hIndex h = 0 ∨ (fnOf s f).dirSize ≤ hIndex h ∨ 3 ≤ hKind h then .fail 0x0201
  else if !q.kinds.testBit (hKind h) then .fail 0x0203
  else if s.lcy.state ≠ .deployed then .fail 0x0306
  else if !fnBound s f then .fail 0x0206
  else if !(lmkOf s f).loaded then .load
  else if (lmkOf s f).s0.key.isNone ∧ (lmkOf s f).s1.key.isNone then .fail 0x0206
  else match keyFind s f (hIndex h) (hGen h) with
    | none => .miss
    | some (i, e) =>
      if keyBad s i e then .bad i
      else if e.kind ≠ hKind h then .kind
      else match keyChecks s e q rsv with
        | 0 => .ok i
        | st => .fail st

/-- An entry has failed its check: reported and invalidated (R123, R475). An error that stands in it came of an injection (R483). -/
def keyFailed (i : Nat) (s : State) : State :=
  let f := match keyAt s i with | some e => e.func | none => 0
  let d := match keyAt s i with | some e => e.bad | none => 0
  keyRetire i (errReport (if d = 0 then 0x0A else d) 1 2 (i % 65536) f i 0 (decide (d ≠ 0)) s)

/-- A read of store index `i` passes the ECC and then the KMAC detector: the detector that an armed injection sets off there, or 0 (R475, R483). -/
def entryHit (i : Nat) (s : State) : Nat × State :=
  match injTake 0x09 (i % 65536) s with
  | (some (0, _), s) => (0, errCorrected 0x09 s)
  | (some _, s) => (0x09, s)
  | (none, s) => match injTake 0x0A (i % 65536) s with
    | (some _, s) => (0x0A, s)
    | (none, s) => (0, s)

/-- A command reads the key at head entry `i`: an injection leaves its error in it (R483). -/
def keyPass (i : Nat) (s : State) : State :=
  match entryHit i s with
  | (0, s) => s
  | (d, s) => modKst (fun k => { k with keys := k.keys.map fun e => if e.1 = i then (e.1, { e.2 with bad := d }) else e }) s

/-- The same of the key that a handle of function `f` names. -/
def handlePass (f h : Nat) (s : State) : State :=
  match keyFind s f (hIndex h) (hGen h) with | some x => keyPass x.1 s | none => s

/-- An LMK set of a function is read: an injection leaves its error in the set (R123, R483). -/
def setPass (f n : Nat) (s : State) : State :=
  (List.range 3).foldl (fun s k => match entryHit (lmkEntry f n k) s with
    | (0, s) => s
    | (_, s) => modLmkSlot f n (fun x => { x with bad := true }) s) s

/-! ### The miss path (R127-R130) -/

/-- Descriptors queued on a channel of the bulk pool, the one that it runs among them (R535; log entry 59). -/
def chanLoad (s : State) (n : Nat) : Nat :=
  let c := chan s n
  c.reqs.length + ringDist (2 ^ c.qlog2) c.head c.tail + c.keyq.length + b2n c.cur.isSome + b2n c.hw.isSome

/-- The channel of a key fetch, as MASTER (R535). -/
def keyChannel (s : State) (id : Nat) : Nat :=
  if s.kst.fetchRsv then 0xC0 + 56 + id % 7
  else
    let free := (List.range 15).filter fun k => !(s.mov.ded.testBit k)
    let cand := if free.isEmpty then [8, 9, 10, 11, 12, 13, 14] else free
    0xC0 + 48 + cand.foldl (fun b k => if chanLoad s (48 + k) < chanLoad s (48 + b) then k else b) (cand.headD 0)

/-- Miss `id`. -/
def missAt (s : State) (id : Nat) : Option Miss := s.kst.misses.find? fun m => m.id = id
/-- Change miss `id`. -/
def modMiss (id : Nat) (g : Miss → Miss) (s : State) : State :=
  modKst (fun k => { k with misses := k.misses.map fun m => if m.id = id then g m else m }) s

/-- Count a miss of the function; at the threshold VF vector 6 fires, once per window (R119). -/
def missCountUp (f : Nat) (s : State) : State :=
  let w := tick s / 1000 * 1000
  let s := modFn f (fun x =>
    let x := if x.missStart = w then x else { x with missStart := w, missCount := 0, missFired := false }
    { x with missCount := x.missCount + 1 }) s
  let x := fnOf s f
  if x.missThresh ≠ 0 ∧ x.missThresh ≤ x.missCount ∧ !x.missFired then
    fireMsix f 6 (modFn f (fun x => { x with missFired := true }) s)
  else s

/-- A core's resolution does not hit at check 5: counted, once (R119). -/
def missSeen (p : Nat) (s : State) : State :=
  if (core s p).kseen then s else modCore p (fun c => { c with kseen := true }) (missCountUp (core s p).func s)

/-- A parked token's resolution does not hit at check 5: counted, once (R119). -/
def missSeenTok (f t : Nat) (s : State) : State :=
  if s.cpu.parks.any fun k => decide (k.tok = t) && !k.kseen then
    modCpu (fun c => { c with parks := c.parks.map fun k => if k.tok = t then { k with kseen := true } else k }) (missCountUp f s)
  else s

/-- A resolution has ended: the next one counts afresh (R119, R123). -/
def kresDone (c : Core) : Core := { c with kstat := none, kseen := false, kbad := false }

/-- Join the miss of a handle, or start one, with a parked token or a core in place (R127). Handle 0 waits for the LMK sets alone. -/
def missEnter (f h : Nat) (park : Option Nat) (p : Nat) (s : State) : State :=
  let add := fun (m : Miss) => match park with
    | some t => { m with toks := m.toks ++ [(t, hGen h)] }
    | none => { m with cores := m.cores ++ [(p, hGen h)] }
  match s.kst.misses.find? fun m => decide (m.fn = f) && decide (m.index = hIndex h) with
  | some m => modMiss m.id add s
  | none =>
    let m : Miss := ⟨s.kst.missNo, f, hIndex h, hGen h, hKind h, .wait, none, 0, 0, none, none, [], []⟩
    modKst (fun k => { k with misses := k.misses ++ [add m], missNo := k.missNo + 1 }) (countFn 0x405 f s)

/-- Remember a failed miss for a parked token, and hand the token back to Slalom (R127). -/
def wakeTok (t : Nat) (st : Option Nat) (s : State) : State :=
  if (tok s t).st = .parked then
    returnToken t (modCpu (fun c => { c with parks := c.parks.map fun k => if k.tok = t then { k with kstat := st.orElse fun _ => k.kstat } else k }) s)
  else s

/-- Signal a core that waits in place for a miss (R127). -/
def wakeCore (p : Nat) (st : Option Nat) (s : State) : State :=
  if (core s p).st = .kres then modCore p (fun c => { c with st := .run, kstat := st }) s else s

/-- End a miss: every waiter of its GEN gets its status (none on an install), the others resolve again (R125, R127, R129). -/
def missEnd (id : Nat) (st : Option Nat) (s : State) : State :=
  match missAt s id with
  | none => s
  | some m =>
    let s := modKst (fun k => { k with misses := k.misses.filter fun x => decide (x.id ≠ id) }) s
    let s := m.toks.foldl (fun s w => wakeTok w.1 (if w.2 = m.gen then st else none) s) s
    m.cores.foldl (fun s w => wakeCore w.1 (if w.2 = m.gen then st else none) s) s

/-- A core's context is reset: it waits for no miss (R127). -/
def missLeave (p : Nat) (s : State) : State :=
  modKst (fun k => { k with misses := k.misses.map fun m => { m with cores := m.cores.filter fun w => decide (w.1 ≠ p) } }) s

/-- A function's vault reads end without data: nothing is awaited. -/
def vaultForget (f : Nat) (s : State) : State :=
  modLmkSlot f 0 (fun x => { x with wait := false }) (modLmkSlot f 1 (fun x => { x with wait := false }) s)

/-- Abandon the misses of a function: their data is discarded, nothing is installed, nobody is told (R130). -/
def missAbandon (f : Nat) (s : State) : State :=
  vaultForget f (modKst (fun k => { k with misses := k.misses.filter fun m => decide (m.fn ≠ f) }) s)

/-- Reference count of a miss's expiry edge (R128, R256). -/
def missEdge (s : State) (m : Miss) : Nat := 100 * (m.start.getD 0 + s.kst.fetchTimeout)
/-- Data stamped now comes after the miss's expiry edge, and is discarded (R128). -/
def missLate (s : State) (m : Miss) : Bool := m.start.isSome && decide (missEdge s m < s.time.refCount)
/-- The channel that runs the key fetch of miss `id`. -/
def fetchChan (s : State) (id : Nat) : Option Nat := (s.mov.chans.find? fun c => decide (c.2.hwMiss = some id)).map fun c => c.1

/-- Ask for the vault blobs of a function's occupied slots; the flag says that no read was refused (R115). -/
def vaultReads (f : Nat) (s : State) : Bool × State :=
  [0, 1].foldl (fun (acc : Bool × State) n =>
    if (lmkSlot (lmkOf acc.2 f) n).occ then
      match hostRead (vaultMaster f) 0 (blobAddr acc.2 f n) 128 acc.2 with
      | (true, s) => (acc.1, modLmkSlot f n (fun x => { x with wait := true }) s)
      | (false, s) => (false, s)
    else acc) (true, s)

/-- A key store ingress beat: 64 bytes, the last one carrying its byte count (R274). -/
def ksIngress (b : Bytes) : List (Bytes × Nat) := (chunks 64 b).map fun x => (padTo 64 x, x.length)
/-- The bytes that the beats of a fetch leave in the miss entry. -/
def ksTaken (l : List (Bytes × Nat)) : Bytes := joinBytes (l.map fun x => x.1.take x.2)

end Sys2Proof.Machine
end

