-- ==== Sys2Proof/Machine/LaneOps.lean ====
section
/-!
DEFINITION. The lanes' queues and per-core state, and what abandons, clears or fences them (R156-R159, R165, R170-R180); used by the
cores and by the lanes' commands.
-/

namespace Sys2Proof.Machine

/-! ### Lanes by port number (R214) -/

/-- Lane on port `n`. -/
def laneOf (s : State) (n : Nat) : Lane := tget Lane.blank s.lanes.lanes n
/-- Change the lane on port `n`. -/
def modLane (n : Nat) (g : Lane → Lane) (s : State) : State :=
  modLanes (fun l => { l with lanes := tmod Lane.blank l.lanes n g }) s
/-- What block lane `n` holds for core `p`. -/
def lanePort (s : State) (n p : Nat) : LanePort := tget LanePort.blank (laneOf s n).ports p
/-- Change what block lane `n` holds for core `p`. -/
def modPort (n p : Nat) (g : LanePort → LanePort) (s : State) : State :=
  modLane n (fun l => { l with ports := tmod LanePort.blank l.ports p g }) s

/-- The port is a block lane's. -/
def isBlock (n : Nat) : Bool := decide (n < 16)
/-- The port is a hash lane's. -/
def isHash (n : Nat) : Bool := decide (16 ≤ n) && decide (n < 24)
/-- The port is a modular lane's. -/
def isMod (n : Nat) : Bool := decide (24 ≤ n) && decide (n < 28)
/-- The port is a lattice lane's. -/
def isLat (n : Nat) : Bool := decide (n = 28) || decide (n = 29)

/-- Queue length of a lane (R156). -/
def laneCap (n : Nat) : Nat := if isBlock n then 64 else if isHash n then 32 else 16
/-- A lane's queue is full; twinned requests of its partner take entries too (R156, R176). -/
def laneFull (s : State) (n : Nat) : Bool := decide (laneCap n ≤ (laneOf s n).queue.length + (laneOf s n).held.length)
/-- The lane that takes a port's requests: a fenced modular or lattice lane's go to the next lane of its kind (R178); none when all are fenced. -/
def laneTaker (s : State) (n : Nat) : Option Nat :=
  if isMod n then ((List.range 4).map fun k => 24 + (n - 24 + k) % 4).find? fun m => !(laneOf s m).fenced
  else if isLat n then [n, 57 - n].find? fun m => !(laneOf s m).fenced
  else some n

/-- Physical lane behind a port, numbered within its kind (R177). -/
def lanePhys (s : State) (n : Nat) : Nat :=
  (laneOf s n).phys.getD (if isBlock n then n else if isHash n then n - 16 else if isMod n then n - 24 else n - 28)

/-- A lane event on port `n` for a core's request (R488). -/
def countLane (num n p k : Nat) (s : State) : State :=
  let ph := lanePhys s n
  let u := if isBlock n then (864 + 4 * ph, 0x90 + ph) else if isHash n then (936 + 4 * ph, 0xA2 + ph)
    else if isMod n then (972 + 4 * ph, 0xAB + ph) else (988 + 4 * ph, 0xAF + ph)
  countEv ⟨num, some (u.1, 4), some u.2, some (core s p).func, 0, none⟩ k s

/-- Lanes take requests: main power, and not LOCKED (R180). -/
def lanesOn (s : State) : Bool := s.pwr.main && decide (s.pwr.mode ≠ .locked) && decide (s.pwr.mode ≠ .guard)

/-! ### A core's requests and lane state -/

/-- Everything a core has on one lane goes; an operation stopped in a modular or lattice lane leaves nothing behind (R165, R172, R226). -/
def laneClear (p : Nat) (keepQueue : Bool) (l : Lane) : Lane :=
  { l with
    held := if keepQueue then l.held else l.held.filter fun x => decide (x.1 ≠ p)
    work := if keepQueue ∨ !(l.queue.any fun r => decide (r.core = p)) then l.work else []
    queue := if keepQueue then l.queue else l.queue.filter fun r => decide (r.core ≠ p)
    ports := tset LanePort.blank l.ports p LanePort.blank
    ctxs := l.ctxs.filter fun c => decide (c.2.core ≠ p) }

/-- Change every lane in the table. -/
def mapLanes (g : Lane → Lane) (s : State) : State :=
  modLanes (fun l => { l with lanes := l.lanes.map fun e => (e.1, g e.2) }) s

/-- The key store entries that a core's results filled are freed (R188, R190; when: log entry 34). -/
def outDrop (p : Nat) (s : State) : State :=
  (tget [] s.lanes.keyOut p).foldl (fun s i => keyInvalidate i s) (modLanes (fun l => { l with keyOut := tset [] l.keyOut p [] }) s)

/-- A result that is key material goes to key store entries from `base` on, never to an address (R188, R190; entry choice: log entry 34). -/
def keyResult (p base kind alg : Nat) (mat : Bytes) (s : State) : State :=
  let n := 1 + extCount alg mat.length
  match freeEntries (usedEntries s) ((usedEntries s).length + n) base n with
  | [] => s
  | i :: ext =>
    let e : KEnt := newKey (core s p).func 0 0 kind alg 0 0 0 0 0xFFFFFFFF 0 false 1 mat []
    keyTouch i (modLanes (fun l => { l with keyOut := tset [] l.keyOut p (tget [] l.keyOut p ++ [i]) })
      (modKst (fun k => { k with keys := k.keys ++ [(i, { e with ext := ext })] }) s))

/-- A core's requests, subkeys, accumulators, contexts and quarantine are abandoned, and its pins returned (R226). -/
def laneAbandon (p : Nat) (s : State) : State := outDrop p (mapLanes (laneClear p false) (unpinAll p s))

/-- What a RELEASE clears in the lanes, with the pin table (R221). -/
def laneRelease (p : Nat) (s : State) : State := outDrop p (mapLanes (laneClear p true) (unpinAll p s))

/-- A request of the core on a lane has not ended; one that a failed twin check or an ERASE lost has (R175, R180, R221). -/
def laneBusy (s : State) (p : Nat) : Bool := s.lanes.lanes.any fun e => e.2.queue.any fun r => decide (r.core = p) && !r.lost

/-- A core has quarantined bytes, an open hash context or a filled subkey register (R222). -/
def laneHolds (s : State) (p : Nat) : Bool :=
  s.lanes.lanes.any fun e =>
    let q := tget LanePort.blank e.2.ports p
    q.subkey.isSome || !q.quar.isEmpty || e.2.ctxs.any fun c => decide (c.2.core = p)

/-- A token waits no longer for a miss or an image (R130, R231). -/
def waitDrop (t : Nat) (s : State) : State :=
  modCpu (fun c => { c with fetches := c.fetches.map fun g => { g with waiters := g.waiters.filter fun w => decide (w ≠ t) } })
    (modKst (fun k => { k with misses := k.misses.map fun m => { m with toks := m.toks.filter fun w => decide (w.1 ≠ t) } }) s)

/-- Free a token's park slot: it waits for nothing more, its unspent uses go back and its pins drop (R130, R143, R225). -/
def parkDrop (t : Nat) (s : State) : State :=
  let s := waitDrop t s
  match s.cpu.parks.find? fun k => k.tok = t with
  | none => s
  | some _ =>
    let s := modCpu (fun c => { c with parks := c.parks.filter fun x => decide (x.tok ≠ t) }) s
    keySettle (tok s t).func s

/-- A token given to core `p` leaves before ASK has returned with it: the core keeps a copy of the command and runs it, its output closed (R224,
R225, R259). -/
def givenLate (p t : Nat) (s : State) : State :=
  let k := s.cpu.parks.find? fun k => k.tok = t
  let s := waitDrop t (modCpu (fun c => { c with parks := c.parks.filter fun x => decide (x.tok ≠ t) }) s)
  modCore p (fun c => { c with given := none, late := some (tok s t, k), func := (tok s t).func, closed := true }) s

/-- Core that holds or was given token `t`. -/
def coreOfTok (s : State) (t : Nat) : Option Nat :=
  (s.cpu.cores.find? fun c => decide (c.2.tok = some t) || decide (c.2.given = some t)).map fun c => c.1

/-! ### Installed images (R231) -/

/-- A command dispatched with an image has not entered it yet (R368). -/
def imageDue (s : State) (g : Image) : Bool :=
  s.cpu.cores.any fun c => decide (coreCluster c.1 = g.cluster) && decide (c.2.func = g.fn) && !c.2.prog && decide (c.2.st ≠ .ask) &&
    (c.2.tok.map fun i => decide (dOpcode (tok s i).desc = 0x2000 + g.slot)) = some true

/-- Drop every installed image of a function (R231); a command dispatched with one still runs it (R368). -/
def imagesDrop (f : Nat) (s : State) : State :=
  modCpu (fun x => { x with images := (x.images.filter fun g => decide (g.fn ≠ f) || imageDue s g).map fun g => if g.fn = f then { g with stale := true } else g }) s

/-! ### The device's own signature keys (R184, R355) -/

/-- The 96-byte seed of a device key: 1 identity, 2 attestation, 3 receipt, 4 export; usable in DEPLOYED alone (R354, R355). -/
def devSeed (s : State) (k : Nat) : Option Bytes :=
  let d := fun (label : String) => some (shake256 96 (padTo 96 s.lcy.idSeed ++ ascii label ++ leBytes 1 s.lcy.deployCount))
  if s.lcy.state ≠ .deployed then none
  else match k with
    | 1 => some (padTo 96 s.lcy.idSeed)
    | 2 => d "EHROS-ATT"
    | 3 => d "EHROS-RCP"
    | 4 => d "EHROS-EXP"
    | _ => none

/-! ### Fencing (R175, R177, R178, R482) -/

/-- Write FAIL into a unit's boot ledger entry (R471, R482). -/
def ledgerFail (step unit : Nat) (s : State) : State :=
  modPwr (fun p => { p with ledger := tmod ⟨0, 0, 0⟩ p.ledger (256 * step + unit) fun e => { e with last := 2, fails := satAdd 0xFF e.fails 1 } }) s

/-- The lane's start step, for its ledger entry (R467). -/
def laneStep (n : Nat) : Nat := if isBlock n then 0x0C else if isHash n then 0x0D else if isMod n then 0x0E else 0x0F

/-- A request waits or runs: it has no result yet (R177). -/
def reqPending (r : LaneReq) : Bool := r.done.isNone && !r.lost

/-- A fenced lane: its requests without result end with FENCED, and nothing it holds survives (R177). -/
def laneStop (l : Lane) : Lane :=
  { l with
    queue := l.queue.map fun r => if reqPending r then { r with done := some (7, []) } else r
    ports := [], slots := [], drops := [], ctxs := [], held := [], work := [], fenced := true }

/-- A modular or lattice lane stops: the next lane of its kind takes its requests, and without one they end with FENCED (R178). -/
def laneYield (n : Nat) (s : State) : State :=
  let q := (laneOf s n).queue
  let s := modLane n laneStop s
  match laneTaker s n with
  | none => s
  | some m =>
    modLane m (fun l => { l with queue := l.queue ++ q.filter reqPending })
      (modLane n (fun l => { l with queue := q.filter fun r => !reqPending r }) s)

/-- Fence the lane on port `n`, reported with detector `det` (R175, R177, R178, R477). -/
def laneFence (n det : Nat) (test : Bool) (s : State) : State :=
  let ph := lanePhys s n
  let unit := if det = 0x0B then n else ph
  let s := errReport det 2 4 unit 0 0 0 test s
  let s := if isMod n ∨ isLat n then laneYield n s else modLane n laneStop s
  let s := modLanes (fun l =>
    if isBlock n then { l with blkFenced := setBit l.blkFenced ph true }
    else if isHash n then { l with hashFenced := setBit l.hashFenced ph true }
    else if isMod n then { l with modFenced := setBit l.modFenced ph true }
    else { l with latFenced := setBit l.latFenced ph true }) s
  ledgerFail (laneStep n) ph s

/-- Partner of a twinned operation (R174). A fenced one is stood in for: lane n XOR 2 of a block or hash lane, the next modular lane in service,
and a lattice lane itself, which runs the operation twice (R177, R178). -/
def lanePartner (s : State) (n : Nat) : Nat :=
  if isMod n then (([1, 2, 3].map fun k => 24 + (n - 24 + k) % 4).find? fun m => !(laneOf s m).fenced).getD n
  else if isLat n then (if (laneOf s (57 - n)).fenced then n else 57 - n)
  else
    let p := Nat.xor n 1
    if (laneOf s p).fenced then Nat.xor n 2 else p

/-- The lanes of a second run (R175). -/
def laneSecond (s : State) (n : Nat) : List Nat :=
  if isLat n then []
  else if isMod n then ([1, 2, 3].map fun k => 24 + (n - 24 + k) % 4).filter fun m => decide (m ≠ lanePartner s n)
  else [Nat.xor n 1, Nat.xor n 2, Nat.xor n 3].filter fun m => decide (m ≠ lanePartner s n)

/-- Erase every lane, as ERASE does; requests deliver nothing (R180). -/
def lanesErase (s : State) : State :=
  (s.lanes.keyOut.map fun e => e.1).foldl (fun s p => outDrop p s)
    (mapLanes (fun l => { l with
      queue := l.queue.map (fun r => { r with lost := true }), ports := [], slots := [], drops := [], ctxs := [], held := [], work := [] }) s)

/-- LOCK: quarantine and hash contexts go, key slots stay (R180). -/
def lanesLock (s : State) : State :=
  mapLanes (fun l => { l with
    ports := (l.ports.map fun e => (e.1, { e.2 with quar := [] })).filter (fun e => decide (e.2 ≠ LanePort.blank)), ctxs := [] }) s

end Sys2Proof.Machine
end

