-- ==== Sys2Proof/Machine/PairOps.lean ====
section
/-!
DEFINITION. The shared operations of partner pairs: knocks (R428-R432), the lease and fencing (R433-R437), the mirror stream in both
directions (R438-R442), takeover (R443, R444) and resync (R448).
-/

namespace Sys2Proof.Machine

/-! ### Identities and nonces -/

/-- This device's identity is the higher of the two, read as little-endian integers (R424, R427, R436; log entry 25). -/
def identHigher (s : State) : Bool := decide (leNat (padTo 16 s.par.partnerId) < leNat (padTo 16 s.lcy.ident))
/-- Direction bit of a sender: 1 for the device with the higher identity (log entry 25). -/
def dirBit (s : State) (mine : Bool) : Nat := b2n (identHigher s = mine)
/-- Nonce of a knock (R429). -/
def knockNonce (s : State) (path : Nat) (mine : Bool) (seq : Nat) : Bytes :=
  beBytes 12 (path * 2 ^ 95 + dirBit s mine * 2 ^ 94 + s.par.keyGen % 2 ^ 32 * 2 ^ 32 + seq % 2 ^ 32)
/-- Nonce of a mirror frame (R439). -/
def frameNonce (s : State) (mine : Bool) (n : Nat) : Bytes :=
  beBytes 12 (dirBit s mine * 2 ^ 95 + s.par.keyGen % 2 ^ 32 * 2 ^ 63 + n % 2 ^ 63)

/-! ### Sending knocks (R428, R429) -/

/-- The 48-byte body of a message. -/
def knockBody (kind l lreq : Nat) (s : State) : Bytes :=
  let p := s.par
  let fl := b2n p.key.isSome + 2 * (b2n p.l0.holder + 2 * b2n p.l1.holder) +
    8 * (b2n (p.l0.holder && p.l0.pCur) + 2 * b2n (p.l1.holder && p.l1.pCur)) + 32 * b2n (eligible s) + 64 * b2n (logFull s) +
    128 * (b2n p.lvds.txOk + 2 * b2n p.fab.txOk) + 512 * p.home
  leBytes 1 kind ++ leBytes 1 (modeCode s.pwr.mode) ++ leBytes 2 fl ++ leBytes 1 Config.mirrorFormat ++ leBytes 1 l ++ [0, 0] ++
  leBytes 4 p.seq ++ leBytes 4 (tick s) ++ leBytes 4 lreq ++ zeroBytes 4 ++ leBytes 8 p.rxApplied ++ leBytes 8 p.confirm ++ zeroBytes 8

/-- The tag of a message on a path: GMAC under the pair key, or zero before it exists (R429). -/
def knockTag (s : State) (path : Nat) (mine : Bool) (body : Bytes) : Bytes :=
  match s.par.key with
  | some k => gcmEnc k (knockNonce s path mine (leAt body 8 4)) body []
  | none => zeroBytes 16

/-- Send a message on both paths (R428). The fabric path's transmitter has sent it when a KNOCK frame has a port to leave by (R431). -/
def knockSend (kind l lreq : Nat) (s : State) : State :=
  let left := s.phl.valid && (routePort s s.par.addr).isSome
  let b := knockBody kind l lreq s
  let m := b ++ knockTag s 0 true b
  let s := emit (.knock (m ++ leBytes 2 (crc16ccitt m).toNat)) s
  let s := routedSend 8 3 s.par.addr (b ++ knockTag s 1 true b) none s
  modPar (fun p => { p with
    seq := (p.seq + 1) % 2 ^ 32, keyUses := p.keyUses + 1,
    lvds := { p.lvds with txAt := s.time.refCount, txOk := true },
    fab := if left then { p.fab with txAt := s.time.refCount, txOk := true } else p.fab }) s

/-! ### Dropping a load's work (R24, R437) -/

/-- Meter reset-abandoned units, and show them to the partner in a METER record without completion (R24, R437). -/
def abandonMeter (f units : Nat) (s : State) : State :=
  if units = 0 then s
  else meterAdd f 13 units (mirrorSend 2 (loadByte s f) (meterBody f 13 1 units 0 0 0 0 false (zeroBytes 32)) s)

/-- Withdraw one token of a load that the device no longer serves: what was executed is metered reset-abandoned, what runs on a core
runs on with its results dropped (R24, R437). -/
def dropToken (s : State) (it : Nat × Token) : State :=
  let i := it.1
  let t := it.2
  match t.st with
  | .free => s
  | .liftNb | .ready | .urgent | .parked | .liftWait =>
    let s := parkDrop i (liftDrop (.ent i) (liftDrop (.pace i) s))
    freeToken i (if t.dispatched then abandonMeter t.func t.work s else s)
  | .core =>
    match coreOfTok s i with
    | none => freeToken i s
    | some p =>
      if (core s p).given = some i then freeToken i (modCore p (fun c => { c with dropped := true }) (givenLate p i s))
      else freeToken i (modCore p (fun c => { c with dropped := true, closed := true, tok := none }) s)
  | .held | .mirror => freeToken i (abandonMeter t.func t.units s)
  | .expired => freeToken i (if t.mclass = 11 then s else abandonMeter t.func t.units s)
  | .released => freeToken i (if t.mclass = 11 ∨ streamOn s then s else abandonMeter t.func t.units s)

/-- The device stops serving the functions selected: nothing more of theirs reaches the host (R24, R437). -/
def dropLoad (sel : Nat → Bool) (s : State) : State :=
  let s := freeDead sel ((s.slm.toks.filter fun it => sel it.2.func).foldl dropToken s)
  let s := modHif (fun h => { h with
    relq := h.relq.filter (fun r => !sel r.fn),
    fns := h.fns.map fun e => if sel e.1 then
      (e.1, { e.2 with rings := e.2.rings.map fun r => { r with inFlight := 0, reserved := 0, irqCount := 0, irqFirst := none }, held := 0 }) else e }) s
  let s := modMov (fun m => { m with chans := m.chans.map fun c =>
    match c.2.cur with | some d => if sel d.func then (c.1, { c.2 with dropped := true }) else c | none => c }) s
  liftFreed s

/-! ### Fencing (R437) -/

/-- Functions of load `l`. -/
def inLoad (s : State) (l f : Nat) : Bool := decide (f ≠ 0) && decide (loadOf s f = l)

/-- A bound device that holds no latch is in STANDBY, eligible or not (R437, R466). -/
def standbyIf (s : State) : State :=
  if latchCount s = 0 ∧ s.par.bound ∧ s.pwr.mode = .active then setMode .standby s else svcUpdate s

/-- Give latch `l` up, with a health report of the fence (R437, R450). -/
def latchDrop (s : State) (l : Nat) : State :=
  if (latch s l).holder then
    healthReport 7 (leBytes 1 l) (modLatch l (fun x => { x with holder := false, fenced := true, sent := [], take := .none }) s)
  else s

/-- Fence latch `l` (R437). -/
def fenceLatch (l : Nat) (s : State) : State :=
  if !(latch s l).holder then s
  else
    let s := latchDrop s l
    standbyIf (dropLoad (inLoad s l) s)

/-- Fence every latch held. -/
def fenceAll (s : State) : State := fenceLatch 1 (fenceLatch 0 s)

/-! ### The end of service (R24, R437, R476) -/

/-- A partner stands ready to take a function's descriptors: it is current for the latch of the function's load (R24, R426); the PF is never
replayed (R425). -/
def partnerTakes (s : State) (f : Nat) : Bool := s.par.bound && decide (f ≠ 0) && (latch s (loadOf s f)).pCur

/-- Without a partner: what runs in cores runs on, its results are discarded, and its descriptor awaits its closing completion (R24). -/
def closeStart (s : State) : State :=
  modCpu (fun c => { c with cores := c.cores.map fun e =>
    (e.1, if e.2.tok.isSome then { e.2 with dropped := true, closed := true } else { e.2 with given := none }) }) s

/-- Latches are given up (R437). -/
def latchesDrop (s : State) : State := [0, 1].foldl latchDrop s

/-- Service ends: the partner takes the accepted descriptors, or they wait for their closing completions (R24, R437, R476). -/
def serviceEnd (s : State) : State := closeStart (dropLoad (partnerTakes s) s)

/-- A PAIR fault has been met: a bound device fences what it holds, an unbound one stops fetching and awaits its closing completions. -/
def pairFaultGo (s : State) : State :=
  if s.dbg.pairFault then s
  else
    let s := modDbg (fun d => { d with pairFault := true }) s
    if s.par.bound then standbyIf (serviceEnd (latchesDrop s)) else closeStart s

/-! ### Tables and transfers that meet an injected error (R475, R478, R479, R483) -/

/-- The second copy of a word of Slalom's tables is read, the first having failed: it gives the word, and the first is rewritten; an error in both is
a PAIR fault (R476, R478). -/
def tableSecond (word : Nat) (s : State) : State :=
  let b := Config.slmBank word 1
  match injTake 0x07 b s with
  | (none, s) => s
  | (some (0, _), s) => errCorrected 0x07 s
  | (some (_, true), s) => pairFaultGo (errReport 0x07 3 (16 * b2n (latchCount s ≠ 0)) b 0 word 0 true s)
  | (some (_, false), s) => errReport 0x07 3 0x20 b 0 word 0 true s

/-- A word of Slalom's tables is read. Its two copies hold the same bits, since every write goes to both: State holds them once. An uncorrectable error
in the copy read fails no command (R478). -/
def tableRead (word : Nat) (s : State) : State :=
  let b := Config.slmBank word 0
  match injTake 0x07 b s with
  | (none, s) => s
  | (some (0, _), s) => errCorrected 0x07 s
  | (some _, s) => tableSecond word (errReport 0x07 1 1 b 0 word 0 true s)

/-- An interconnect link is fenced, and its routes use the other dimension order; a second one that leaves some stops without a route is a PAIR fault
(R475, R479). -/
def xbarFence (l : Nat) (test full : Bool) (s : State) : State :=
  if !full then errReport 0x04 2 0x20 l 0 0 0 test s
  else
    let ls := if s.dbg.xbarFenced.contains l then s.dbg.xbarFenced else s.dbg.xbarFenced ++ [l]
    let s := modDbg (fun d => { d with xbarFenced := ls }) s
    if 2 ≤ ls.length ∧ Config.xbarCut ls then pairFaultGo (errReport 0x04 3 (4 + 16 * b2n (latchCount s ≠ 0)) l 0 0 0 test s)
    else errReport 0x04 2 (4 + 64) l 0 0 0 test s

/-- A transfer goes over link `l`, replayed from the sending stage while errors meet it and a replay is left; then the link is fenced (R475). -/
def xbarTry (l : Nat) : Nat → State → State
  | 0, s => s
  | n + 1, s =>
    match injTake 0x04 l s with
    | (none, s) => s
    | (some (_, full), s) => if n = 0 then xbarFence l true full s else xbarTry l n (errReport 0x04 1 1 l 0 0 0 true s)

/-- The link that a sender's transfers take: that of the first dimension order, or of the other where it is fenced (R479). -/
def xbarRoute (s : State) (sender : Nat) : Nat :=
  if s.dbg.xbarFenced.contains (Config.xbarLink sender 0) then Config.xbarLink sender 1 else Config.xbarLink sender 0

/-- A sender's transfer crosses the interconnect: the first try and 3 replays (R475, R479). -/
def xbarPass (sender : Nat) (s : State) : State := xbarTry (xbarRoute s sender) 4 s

/-! ### Leases (R433-R436) -/

/-- A holder needs its lease: not when its partner is in unit fault, nor once the partner has echoed that it is not current (R435). -/
def leaseNeeded (s : State) (l : Nat) : Bool :=
  let x := latch s l
  x.holder && !s.par.unitFault && !(!x.pCur && x.echoed)

/-! ### The receipt ring (R396, R397) -/

/-- Slots of the receipt ring (MTR_RCPT_CTL.LOG2). -/
def rcptSlots (s : State) : Nat := 2 ^ s.mtr.log2

/-- TAIL advances by one slot. -/
def rcptAdvance (s : State) : State :=
  modMtr (fun m => { m with tail := (m.tail + 1) % 2 ^ m.log2, used := m.used + 1 }) s

/-- Write a receipt into a slot of the ring, MAGIC last (R396, R397; channel: log entry 51). The flag says that it was issued. -/
def rcptPut (slot : Nat) (r : Bytes) (s : State) : Bool × State :=
  let a := s.mtr.base + 65536 * slot
  match hostWrite (hifMaster 0 0) 0 (a + 4) (r.drop 4) false s with
  | (false, s) => (false, s)
  | (true, s) => hostWrite (hifMaster 0 0) 0 a (r.take 4) false s

/-- The copy of a receipt for its tenant (MTR_RCPT_COPY); a refused copy is not tried again. -/
def rcptCopyWrite (f seq : Nat) (r : Bytes) (s : State) : State :=
  let c := (fnOf s f).rcptCopy
  if f = 0 ∨ !c.testBit 0 then s
  else (hostWrite (hifMaster f 0) f (c / 2 ^ 20 * 2 ^ 20 + 65536 * (seq % 16)) r false s).2

/-- A receipt may be written: signed, and acknowledged by the partner while there is one (R397). -/
def rcptReady (s : State) (r : Rcpt) : Bool :=
  r.sig.isSome && (match r.mseq with | some m => decide (m ≤ s.par.acked) || !streamOn s | none => true)

/-- Write the receipts that may be written, oldest first; a refused one and those behind it wait. -/
def rcptRun : List Rcpt → State → State
  | [], s => s
  | r :: rs, s =>
    if !rcptReady s r ∨ !s.mtr.enable then s
    else
      let b := r.body ++ r.sig.getD []
      match rcptPut s.mtr.tail b s with
      | (false, s) => s
      | (true, s) => rcptRun rs (rcptCopyWrite r.fn (leAt r.body 8 8) b (rcptAdvance (modMtr (fun m => { m with waiting := m.waiting.drop 1 }) s)))

/-- Write every receipt that may be written. -/
def rcptSettle (s : State) : State := rcptRun s.mtr.waiting s

/-- A device that takes latch `l` writes the receipts it holds of the load into their slots, while these are not consumed (R397). -/
def rcptTake (l : Nat) (s : State) : State :=
  let mine := fun (x : Nat × Bytes) => inLoad s l (leAt x.2 6 2)
  let s := (s.par.rcptMir.filter mine).foldl (fun s x =>
    if s.mtr.enable ∧ (x.1 + rcptSlots s - s.mtr.head) % rcptSlots s < s.mtr.used then (rcptPut x.1 x.2 s).2 else s) s
  modPar (fun p => { p with rcptMir := p.rcptMir.filter fun x => !mine x }) s

/-! ### Acknowledgements (R439, R441) -/

/-- Records up to `m` are applied by the partner. -/
def ackTo (m : Nat) (s : State) : State :=
  if m ≤ s.par.acked then s
  else
    let now := s.time.refCount
    let worst := ((s.par.sentAt.filter fun e => decide (e.1 ≤ m)).map fun e => cdiv (now - e.2) 100).foldl max 0
    let s := modPar (fun p => { p with
      acked := m, retained := p.retained.filter (fun r => decide (m < r.mseq)), sentAt := p.sentAt.filter (fun e => decide (m < e.1)),
      progressAt := now, maxAck := max p.maxAck (min 255 worst), resends := p.resends }) s
    let s := [0, 1].foldl (fun s l => match (latch s l).resync with
      | some r => if r ≤ m ∧ (latch s l).holder then
          modPar (fun p => { p with mfault := false, mfaultDone := false })
            (modLatch l (fun x => { x with resync := none, pCur := true, echoed := false, leaseEnd := max x.leaseEnd (now + 24997) }) s)
        else s
      | none => s) s
    rcptSettle (mirrorSettle s)

/-- Acknowledge what has been applied (R438 ACK). -/
def sendAck (s : State) : State := mirrorSend 8 0xFF (leBytes 8 s.par.rxApplied) s

/-! ### Sending the stream (R439) -/

/-- Take up to `n` stream bytes: the bytes, the highest MSEQ that ends in them, and what is left. -/
def txTake : Nat → List (Nat × Bytes) → Bytes × Option Nat × List (Nat × Bytes)
  | _, [] => ([], none, [])
  | n, (m, b) :: rest =>
    if n = 0 then ([], none, (m, b) :: rest)
    else if b.length ≤ n then
      let x := txTake (n - b.length) rest
      (b ++ x.1, some (x.2.1.getD m), x.2.2)
    else (b.take n, none, (m, b.drop n) :: rest)

/-- Bytes of a mirror frame's payload: stream bytes and the tag. -/
def mirLen (b : Bytes) : Nat := b.length + 16

/-- Queue every unacknowledged record again (R439). -/
def mirrorResend (s : State) : State :=
  modPar (fun p => { p with
    txq := p.retained.map fun r => (r.mseq, r.bytes), retained := p.retained.map fun r => { r with resent := r.resent + 1 },
    resends := satAdd 0xFF p.resends 1, progressAt := s.time.refCount }) s

/-- Channel 63 ends with LINK_DOWN, with `n` bytes unsent: what is unacknowledged is sent again (R281, R404, R439). -/
def mirrorDown (n : Nat) (s : State) : State :=
  mirrorResend (modMov (fun m => { m with chans := tmod Chan.blank m.chans 63 fun c => { c with code := 4, retries := 0, residue := n } }) s)

/-- The descriptor of a mirror burst: shared scratch to PORT, mirror VC 2 of the partner's address (R269, R272, R274). -/
def mirrorDesc (s : State) (b : Bytes) : MovDesc :=
  ⟨0, s.par.addr % 4096 + 2 * 4096, mirLen b, 2, 6, 4, 6, 8, false, 2047, false, none, none, [], [], false⟩

/-- Channel 63 reserves credit for a mirror burst of up to 240 stream bytes on the route of the moment; it waits without key, records,
route or credit, and without an address it ends with LINK_DOWN (R269, R280, R404, R439). -/
def mirrorReserve (s : State) : State :=
  let c := tget Chan.blank s.mov.chans 63
  if s.par.key.isNone ∨ s.par.txq.isEmpty ∨ c.mir.isSome ∨ c.asked then s
  else if !s.phl.valid then
    let x := txTake 240 s.par.txq
    mirrorDown (mirLen x.1) s
  else match routePort s s.par.addr with
    | none => s
    | some p =>
      let x := txTake 240 s.par.txq
      let k := fCredits (mirLen x.1)
      if (credOf s p 2).held < k then s
      else
        let s := modPar (fun q => { q with txq := x.2.2 }) s
        let s := modCred p 2 (fun y => { y with held := y.held - k, rsv := y.rsv + k }) s
        modMov (fun m => { m with chans := tmod Chan.blank m.chans 63 fun c => { c with
          mir := some (x.1, x.2.1), cred := some p, linkDown := false, hw := some (mirrorDesc s x.1) } }) s

/-- Channel 63 waits for credit on the route of the moment (R280, R488). -/
def mirrorStalls (s : State) : Bool :=
  let c := tget Chan.blank s.mov.chans 63
  if s.par.key.isNone ∨ s.par.txq.isEmpty ∨ c.mir.isSome ∨ c.asked ∨ !s.phl.valid then false
  else match routePort s s.par.addr with
    | none => false
    | some p => decide ((credOf s p 2).held < fCredits (mirLen (txTake 240 s.par.txq).1))

/-- The mirror burst completes: one DATA frame on the mirror channel, or LINK_DOWN when the port went down since (R281, R404, R439). Without a
pair transport key it is given up, and its reserved credit is held again (R26). -/
def mirrorBurst (s : State) : State :=
  let c := tget Chan.blank s.mov.chans 63
  let s' := modMov (fun m => { m with chans := tmod Chan.blank m.chans 63 fun c => { c with
    mir := none, cred := none, linkDown := false, hw := none } }) s
  match c.mir, c.cred, s.par.key with
  | some b, some p, some k =>
    if c.linkDown then
      mirrorDown (mirLen b.1) s'
    else
      let n := s.par.txFrames
      portSend p ⟨frame 1 2 false true s.par.addr s.phl.addr s.phl.hopLimit (n % 65536) 0 (gcmEnc k (frameNonce s true n) [] b.1), none, true,
        b.2, false, 0⟩ (modPar (fun q => { q with txFrames := n + 1 }) s')
  | some b, some p, none =>
    if c.linkDown then s'
    else modCred p 2 (fun y => let k := min y.rsv (fCredits (mirLen b.1)); { y with held := y.held + k, rsv := y.rsv - k }) s'
  | some _, none, _ => s'
  | none, _, _ => s

/-! ### Receiving the stream (R439) -/

/-- Length of the record at the front of stream bytes, none while its header is incomplete (R438; a RECEIPT is 50,216 bytes). -/
def recLen (b : Bytes) : Option Nat :=
  if b.length < 16 then none else some (if leAt b 0 1 = 6 then 50216 else max 16 (leAt b 2 2))

/-- Cut whole records from stream bytes, with fuel. -/
def takeRecs : Nat → Bytes → List (Nat × Bytes) × Bytes
  | 0, b => ([], b)
  | n + 1, b =>
    match recLen b with
    | none => ([], b)
    | some l => if b.length < l then ([], b) else let x := takeRecs n (b.drop l); ((leAt b 8 8, b.take l) :: x.1, x.2)

/-- Insert a record in MSEQ order, once. -/
def heldInsert (r : Nat × Bytes) : List (Nat × Bytes) → List (Nat × Bytes)
  | [] => [r]
  | x :: xs => if r.1 < x.1 then r :: x :: xs else if r.1 = x.1 then x :: xs else x :: heldInsert r xs

/-- The frame count of a frame, from the count expected and the 16 bits it carries in E2E_SEQ (R439; log entry 25). -/
def frameCount (expect e2e : Nat) : Nat :=
  let b := expect / 65536 * 65536 + e2e
  if b + 32768 < expect then b + 65536 else if expect + 32768 < b ∧ 65536 ≤ b then b - 65536 else b

/-- A mirror frame of the partner: its records are held for their turn; one whose tag fails is dropped and counted (R439). -/
def mirrorFrame (h : Bytes) (s : State) : State :=
  match s.par.key with
  | none => s
  | some k =>
    let n := frameCount s.par.rxFrames (leAt h 10 2)
    let inj := injTake 0x10 1 s
    let s := inj.2
    match if inj.1.isSome then none else gcmDec k (frameNonce s false n) [] (fPayload h) with
    | none => errReport 0x10 1 1 1 0 0 0 inj.1.isSome s
    | some b =>
      let part := if n = s.par.rxFrames then s.par.rxPart else []
      let x := takeRecs (b.length + part.length) (part ++ b)
      let held := x.1.foldl (fun acc r => if s.par.rxApplied < r.1 then heldInsert r acc else acc) s.par.rxHeld
      modPar (fun p => { p with
        rxFrames := n + 1, rxPart := x.2, mirrorAt := s.time.refCount,
        rxHeld := if ((held.map fun r => r.2.length).sum) ≤ 262144 then held else p.rxHeld }) s

/-- The next record of the partner's stream, if it has arrived and is of the type. -/
def rxNext (s : State) (type : Nat) : Option Bytes :=
  match s.par.rxHeld with
  | [] => none
  | (m, b) :: _ => if m = s.par.rxApplied + 1 ∧ leAt b 0 1 = type then some b else none

/-- A record of the stream is missing before one that has arrived (R426, R439). -/
def rxGap (s : State) : Bool := s.par.rxHeld.zipIdx.any fun r => decide (r.1.1 ≠ s.par.rxApplied + 1 + r.2)

/-- This device is current for latch `l`: eligible, its stream without a gap, and marked by the holder's last knock (R426). -/
def current (s : State) (l : Nat) : Bool := (latch s l).selfCur && eligible s && !rxGap s

/-- The record has been applied. -/
def rxDone (s : State) : State := modPar (fun p => { p with rxApplied := p.rxApplied + 1, rxHeld := p.rxHeld.drop 1 }) s

/-! ### Effects of STATE records (R438, R442; layout: log entry 31) -/

/-- The 96 bytes of an officer entry (R343). -/
def officerBytes (o : Officer) : Bytes :=
  leBytes 1 o.state ++ leBytes 1 o.role ++ zeroBytes 6 ++ leBytes 8 o.time ++ padTo 16 o.name ++ padTo 64 o.pk
/-- An officer entry from its bytes. -/
def officerOf (b : Bytes) : Officer := ⟨leAt b 0 1, leAt b 1 1, leAt b 8 8, slice b 16 16, slice b 32 64⟩

/-- A 12-byte nonce of this device (R114), or free bytes while no random output is available (log entry 12). -/
def drawNonce (n : Nat) (s : State) : Bytes × State :=
  match drbgDraw 0 n s with
  | some x => x
  | none => (freeBytes s n, bumpFree s)

/-- An LMK as a STATE effect or a RESYNC segment carries it: sealed by AES-256 key wrap under the pair transport key, zeros for none (R14, R442,
R448; wrap: log entry 31). -/
def lmkSeal (s : State) (key : Option Bytes) : Bytes :=
  match key, s.par.key with
  | some k, some t => padTo 40 (kwWrap t (padTo 32 k))
  | _, _ => zeroBytes 40

/-- A sealed LMK opened with the pair transport key, or with the one before it (R427, R442). -/
def lmkUnseal (s : State) (b : Bytes) : Option Bytes :=
  (s.par.key.bind fun t => kwUnwrap t b).orElse fun _ => s.par.keyPrev.bind fun t => kwUnwrap t b

/-- An LMK slot as an effect. -/
def lmkEff (s : State) (f n : Nat) (x : LmkSlot) : Bytes :=
  [1] ++ leBytes 2 f ++ leBytes 1 n ++ leBytes 1 x.role ++ leBytes 2 x.gen ++ lmkSeal s x.key

/-- Apply an LMK slot that the partner mirrored, to the slot and to its vault blob (R114, R442). One that does not open changes nothing. -/
def lmkMirrored (e : Bytes) (s : State) : State :=
  let f := leAt e 1 2
  let n := leAt e 3 1
  let role := leAt e 4 1
  let put := fun (g : LmkSlot → LmkSlot) =>
    let s := modLmk f (fun l => { l with loaded := l.loaded || !(lmkSlot l (1 - n)).occ, lastGen := max l.lastGen (leAt e 5 2) }) (modLmkSlot f n g s)
    let d := drawNonce 12 s
    vaultWrite f n d.1 d.2
  if role = 0 then put fun x => { dropLmk x with role := 0, gen := leAt e 5 2 }
  else match lmkUnseal s (slice e 7 40) with
    | some k => put (setLmk k role (leAt e 5 2))
    | none => s

/-- Apply an effect that the partner mirrored. -/
def applyEffect (e : Bytes) (s : State) : State :=
  let f := leAt e 1 2
  match leAt e 0 1 with
  | 1 => lmkMirrored e s
  | 2 => modKst (fun k => { k with sens := if k.sens.contains (f, slice e 3 8) then k.sens else k.sens ++ [(f, slice e 3 8)] }) s
  | 3 =>
    let n := leAt e 1 2
    modKst (fun k => { k with ledger := (k.ledger.filter fun x => decide (x.1 ≠ n)) ++ [(n, ⟨leAt e 3 2, slice e 5 8, leAt e 13 5, leAt e 18 4⟩)] }) s
  | 4 => modLcy (fun l => { l with officers := l.officers.set (leAt e 1 1) (officerOf (e.drop 2)) }) s
  | 5 => modTmp (fun t => { t with mons := t.mons.modify (leAt e 1 1) fun m => { m with cls := leAt e 2 1, disCls := leAt e 3 1 } }) s
  | 6 =>
    let fn := leAt e 2 2
    let sl := leAt e 4 1
    imagesDrop fn (modLcy (fun l =>
      let rest := l.approvals.filter fun a => !(decide (a.fn = fn) && (decide (a.slot = sl) || decide (sl = 0xFF)))
      { l with approvals := if leAt e 1 1 = 1 then rest ++ [⟨fn, sl, leAt e 5 4, slice e 9 32⟩] else rest }) s)
  | 7 => epochPut (leAt e 1 8) s
  | 8 => imagesDrop f (modLcy (fun l => { l with
      progKeys := tset [] l.progKeys f (slice e 3 64), approvals := l.approvals.filter fun a => decide (a.fn ≠ f) }) s)
  | 9 =>
    let d := drawNonce 24 s
    lmkUnbind f d.1 d.2
  | 10 => ledgerDrop f s
  | _ => s

/-- Bytes of an effect, by its first byte (log entry 31). -/
def effLen (k : Nat) : Nat :=
  match k with
  | 1 => 47 | 2 => 11 | 3 => 22 | 4 => 98 | 5 => 4 | 6 => 41 | 7 => 9 | 8 => 67 | 9 => 3 | 10 => 3 | _ => 0

/-- Apply a command's effects in order, with fuel. -/
def applyEffects : Nat → Bytes → State → State
  | 0, _, s => s
  | n + 1, e, s =>
    match effLen (leAt e 0 1) with
    | 0 => s
    | l => if e.length < l then s else applyEffects n (e.drop l) (applyEffect (e.take l) s)

/-! ### Journal and meters of the partner (R438, R440) -/

/-- A journal entry of a JOURNAL record. -/
def journalOf (b : Bytes) : Journal :=
  ⟨leAt b 8 8, leAt b 1 1, leAt b 16 2, leAt b 18 1, (leAt b 19 1).testBit 0, (leAt b 19 1).testBit 1, leAt b 20 2, leAt b 24 4,
   leAt b 28 4, slice b 32 8, false, false⟩

/-- Add a journal entry; the ring's next slot and the flow's next number follow the partner's (R443 step 6, R444). -/
def journalAdd (j : Journal) (flow : Option Nat) (s : State) : State :=
  let s := modPar (fun p => { p with journal := p.journal ++ [j] }) s
  if j.load = 2 then s
  else
    let s := modRing j.fn j.ring (fun r => { r with head := (j.slot + 1) % ringSize r.sqLog2 }) s
    match flow with
    | some fl => modFlow j.fn fl (fun x => { x with give := seqNext j.seq }) s
    | none => s

/-- Retire the journal entry that a METER record names (R440). -/
def journalRetire (f ring seq slot : Nat) (ordered : Bool) (js : List Journal) : List Journal :=
  match js.find? fun j => decide (j.fn = f) && decide (j.ring = ring) && decide (j.ordered = ordered) &&
      (if ordered then decide (j.seq = seq) else decide (j.slot = slot)) with
  | some j => js.erase j
  | none => js

/-- Apply a METER record: retire, meter, follow the completion ring and the flow (R393, R440). -/
def meterApply (b : Bytes) (s : State) : State :=
  let load := leAt b 1 1
  let f := leAt b 16 2
  let s := if load = 2 then s else meterAdd f (leAt b 18 1) (leAt b 20 4) s
  if (leAt b 19 1).testBit 0 then s
  else
    let fl := leAt b 24 4
    let ordered := fl.testBit 31
    let seq := leAt b 28 4
    let cq := leAt b 32 2
    let n := leAt b 34 1
    let cpl := slice b 40 32
    let s := modPar (fun p => { p with
      journal := journalRetire f n seq (leAt cpl 24 2) ordered p.journal,
      meters := p.meters ++ [⟨leAt b 8 8, load, f, n, cq, cpl, false⟩],
      ringMir := p.ringMir.map fun r => if load = 2 ∧ r.fn = f ∧ r.ring = n then
        { r with cqTail := (cq + 1) % ringSize r.cqLog2, phase := (leAt cpl 10 2).testBit 15 != decide (cq + 1 = ringSize r.cqLog2) } else r }) s
    if load = 2 then s
    else
      let s := if ordered then modFlow f (fl % 2 ^ 18) (fun x => { x with rel := seqNext seq }) s else s
      modRing f n (fun r => { r with
        cqTail := (cq + 1) % ringSize r.cqLog2, unconsumed := r.unconsumed + 1,
        phase := (leAt cpl 10 2).testBit 15 != decide (cq + 1 = ringSize r.cqLog2) }) s

/-- Apply a RING record (R438). -/
def ringApply (b : Bytes) (s : State) : State :=
  let load := leAt b 1 1
  let f := leAt b 16 2
  let n := leAt b 18 1
  let en := decide (leAt b 19 1 = 1)
  let m : RingMirror := ⟨f, n, leAt b 20 8, leAt b 28 8, leAt b 36 1, leAt b 37 1, leAt b 40 8, en, 0, true⟩
  if load = 2 then
    modPar (fun p => { p with ringMir := (p.ringMir.filter fun r => !(decide (r.fn = f) && decide (r.ring = n))) ++ [m] }) s
  else
    modRing f n (fun r =>
      if en then { Ring.blank with
        sqBase := m.sqBase, cqBase := m.cqBase, sqLog2 := m.sqLog2, cqLog2 := m.cqLog2, modTime := r.modTime, modCount := r.modCount,
        vector := r.vector, enable := true, st := .running, tail := r.tail }
      else { r with enable := false, st := .idle }) (modFn f (fun x => { x with rptBase := m.rptBase }) s)

/-! ### Takeover (R443, R444) -/

/-- Entries a takeover of latch `l` replays: its load's, and those of the PF of a lost device, not of one that hands the latch over (R443 step 5). -/
def replayable (s : State) (l : Nat) (j : Journal) : Bool := decide (j.load = l) || (decide (j.load = 2) && (latch s l).lost)

/-- A switch-over of latch `l` has been seen: SWITCH_COUNT of the load's created VFs and of the PF, which sees every switch-over (R37). -/
def switchSeen (l : Nat) (s : State) : State :=
  modHif (fun h => { h with
    fns := h.fns.map fun e =>
      if (decide (e.1 = 0) || inLoad s l e.1) && e.2.created then (e.1, { e.2 with switchCount := (e.2.switchCount + 1) % 65536 }) else e }) s

/-- Step 6: the service word shows the new mode and latches, the PF's vector 5 fires, fetch resumes (R37, R443). -/
def takeFinish (l : Nat) (s : State) : State :=
  let s := switchSeen l (modLatch l (fun x => { x with take := .none, stopped := false }) s)
  let s := auditU 0x0012 0 0 (leBytes 4 s.par.replayed ++ leBytes 4 s.par.replayApplied ++ padTo 16 s.par.partnerId ++ s.aud.peer.take 16) s
  let s := healthReport 4 (leBytes 1 l) (fireMsix 0 5 (showSvc s))
  rcptTake l (((createdFns s).filter (inLoad s l)).foldl (rcptFlag 0) s)

/-- Step 5: ask for the descriptors of the unretired entries, in MSEQ order; with none, finish (R443). -/
def takeReplay (l : Nat) (s : State) : State :=
  let js := s.par.journal.filter (replayable s l)
  if js.isEmpty then takeFinish l s
  else
    let s := modLatch l (fun x => { x with take := .replay }) s
    let s := js.foldl (fun s j =>
      let base := if j.load = 2 then
          (match s.par.ringMir.find? fun r => decide (r.fn = j.fn) && decide (r.ring = j.ring) with | some r => r.sqBase | none => 0)
        else (ringOf s j.fn j.ring).sqBase
      (hostRead (hifMaster j.fn j.ring) j.fn (base + 64 * j.slot) 64 s).2) s
    modPar (fun p => { p with journal := p.journal.map fun j => if replayable s l j then { j with asked := true } else j }) s

/-- Completion ring address of a METER record's slot. -/
def slotAddr (s : State) (m : MetRec) : Nat :=
  (if m.load = 2 then
    (match s.par.ringMir.find? fun r => decide (r.fn = m.fn) && decide (r.ring = m.ring) with | some r => r.cqBase | none => 0)
   else (ringOf s m.fn m.ring).cqBase) + 32 * m.cqSlot

/-- Steps 3 and 4: read the completion slots that the partner has not confirmed; with none, go on to step 5 (R443). -/
def takeSlots (l : Nat) (s : State) : State :=
  let ms := s.par.meters.filter fun m => decide (m.load = l) && decide (s.par.pConfirm < m.mseq)
  if ms.isEmpty then takeReplay l s
  else
    let s := modLatch l (fun x => { x with take := .slots }) s
    let s := ms.foldl (fun s m => (hostRead (hifMaster m.fn m.ring) m.fn (slotAddr s m) 32 s).2) s
    modPar (fun p => { p with meters := p.meters.map fun m => if m.load = l ∧ p.pConfirm < m.mseq then { m with asked := true } else m }) s

/-- Take latch `l` (R434, R436, R443, R446): the device holds it, says so, and begins steps 2 to 6. -/
def takeLatch (l : Nat) (s : State) : State :=
  let now := s.time.refCount
  let s := modLatch l (fun x => { x with
    holder := true, fenced := false, stopped := false, selfCur := false, pCur := false, echoed := false, sent := [], leaseEnd := now + 24997,
    take := .slots, handMseq := none, released := false, resync := none, lost := !(x.released && x.handMseq.isSome) }) s
  let s := modPar (fun p => { p with replayed := 0, replayApplied := 0 }) s
  let s := knockSend 5 l 0 s
  let s := if s.pwr.mode = .standby then setMode .active s else s
  takeSlots l s

/-! ### Resync (R448; segment layout: log entry 25) -/

/-- Segments of the ledger mirror (R370): meters and receipt chains of the functions selected, officers, tamper classes, program keys,
sensitive-key list, budget ledger, approvals. -/
def ledgerSegs (sel : Nat → Bool) (s : State) : List Bytes :=
  ((s.mtr.total.filter fun e => sel (e.1 / 16)).map fun e => [4] ++ leBytes 2 (e.1 / 16) ++ leBytes 1 (e.1 % 16) ++ leBytes 8 e.2) ++
  ((s.mtr.rcpt.filter fun e => sel e.1).map fun e => [5] ++ leBytes 2 e.1 ++ leBytes 8 e.2.seq ++ leBytes 8 e.2.minute ++ padTo 32 e.2.digest ++
    padTo 128 (e.2.totals.flatMap fun v => leBytes 8 v)) ++
  (s.lcy.officers.zipIdx.map fun o => [6, 4] ++ leBytes 1 o.2 ++ officerBytes o.1) ++
  (s.tmp.mons.zipIdx.map fun m => [6, 5] ++ leBytes 1 m.2 ++ leBytes 1 m.1.cls ++ leBytes 1 m.1.disCls) ++
  (s.lcy.progKeys.map fun k => [6, 8] ++ leBytes 2 k.1 ++ padTo 64 k.2) ++
  (s.kst.sens.map fun x => [6, 2] ++ leBytes 2 x.1 ++ padTo 8 x.2) ++
  (s.kst.ledger.map fun x => [6, 3] ++ leBytes 2 x.1 ++ leBytes 2 x.2.fn ++ padTo 8 x.2.ident ++ leBytes 5 x.2.left ++ leBytes 4 x.2.expiry) ++
  (s.lcy.approvals.map fun a => [6, 6, 1] ++ leBytes 2 a.fn ++ leBytes 1 a.slot ++ leBytes 4 a.version ++ padTo 32 a.digest)

/-- Segments of the snapshot for latch `l`: its start, rings, flows, unretired journal, ledger mirror, LMK slots (R448). -/
def snapshotSegs (l : Nat) (s : State) : List Bytes :=
  let fs := (s.hif.fns.filter fun e => inLoad s l e.1).map fun e => e.1
  [[8]] ++ (fs.flatMap fun f => (List.range 4).map fun n => [1] ++ leBytes 2 f ++ leBytes 1 n ++ leBytes 1 (b2n (ringOf s f n).enable) ++
    leBytes 8 (ringOf s f n).sqBase ++ leBytes 8 (ringOf s f n).cqBase ++ leBytes 1 (ringOf s f n).sqLog2 ++
    leBytes 1 (ringOf s f n).cqLog2 ++ [0, 0] ++ leBytes 8 (fnOf s f).rptBase) ++
  ((s.slm.flows.filter fun e => inLoad s l (e.1 / 2 ^ 18)).map fun e =>
    [2] ++ leBytes 2 (e.1 / 2 ^ 18) ++ leBytes 4 (e.1 % 2 ^ 18) ++ leBytes 4 e.2.give ++ leBytes 4 e.2.rel) ++
  ((s.slm.toks.filter fun it => inLoad s l it.2.func && decide (it.2.st ≠ .free) && decide (it.2.st ≠ .released)).map fun it =>
    [3] ++ leBytes 2 it.2.func ++ leBytes 1 it.2.ring ++ leBytes 1 (b2n it.2.ordered + 2 * b2n it.2.mirror) ++ leBytes 2 it.2.slot ++
    zeroBytes 2 ++ leBytes 4 it.2.accept ++ leBytes 4 it.2.seq ++ descDigest it.2.desc) ++
  ledgerSegs (inLoad s l) s ++
  ((s.kst.lmks.filter fun e => inLoad s l e.1).flatMap fun e => [0, 1].filterMap fun n =>
    let x := lmkSlot e.2 n
    x.key.map fun _ => [6] ++ lmkEff s e.1 n x)

/-- Send the snapshot of latch `l` (R448). -/
def resyncSend (l : Nat) (s : State) : State :=
  let segs := snapshotSegs l s ++ [[0]]
  let last := s.par.txNext + segs.length - 1
  modLatch l (fun x => { x with resync := some last }) (segs.foldl (fun s b => mirrorSend 10 l b s) s)

/-- The holder of a latch whose partner is eligible, not current, and of a mirror format it supports, starts a resync (R447, R448). -/
def resyncIf (l : Nat) (s : State) : State :=
  let x := latch s l
  if x.holder ∧ !x.pCur ∧ x.resync.isNone ∧ s.par.pElig ∧ streamOn s ∧
      (s.par.pMfmt = Config.mirrorFormat ∨ s.par.pMfmt + 1 = Config.mirrorFormat) then resyncSend l s
  else s

/-- A receipt chain as a segment gives it. -/
def chainSeg (b : Bytes) (r : RcptState) : RcptState :=
  { r with seq := leAt b 3 8, minute := leAt b 11 8, digest := slice b 19 32, totals := (List.range 16).map fun k => leAt b (51 + 8 * k) 8 }

/-- A snapshot of a load begins: the entries and METER records held of it are of a stream that had a gap (R426, R448). -/
def snapshotStart (load : Nat) (s : State) : State :=
  modPar (fun p => { p with
    journal := p.journal.filter fun j => decide (j.load ≠ load), meters := p.meters.filter fun m => decide (m.load ≠ load) }) s

/-- Apply one segment (R448). -/
def segApply (load mseq : Nat) (b : Bytes) (s : State) : State :=
  match leAt b 0 1 with
  | 1 => ringApply (leBytes 1 4 ++ leBytes 1 load ++ zeroBytes 14 ++ b.drop 1) s
  | 2 => modFlow (leAt b 1 2) (leAt b 3 4) (fun _ => ⟨leAt b 7 4, leAt b 11 4⟩) s
  | 3 => journalAdd { journalOf (zeroBytes 16 ++ b.drop 1) with mseq := mseq, load := load } none s
  | 4 => modMtr (fun m => { m with total := tset 0 m.total (16 * leAt b 1 2 + leAt b 3 1) (leAt b 4 8) }) s
  | 5 => modMtr (fun m => { m with rcpt := tmod RcptState.blank m.rcpt (leAt b 1 2) (chainSeg b) }) s
  | 6 => applyEffect (b.drop 1) s
  | 8 => snapshotStart load s
  | _ => s

/-! ### The rejoin package (R370) -/

/-- Records that carry a package, each of at most 65,519 body bytes. -/
def rejoinCount (b : Bytes) : Nat := max 1 (cdiv b.length 65519)

/-- Send a package as REJOIN records in plain DATA frames on the mirror channel, with MSEQ from 1 (R370, R439). -/
def rejoinSend (dst : Nat) (b : Bytes) (s : State) : State :=
  let recs := joinBytes ((chunks 65519 b).zipIdx.map fun x =>
    leBytes 1 11 ++ leBytes 1 0xFF ++ leBytes 2 (16 + x.1.length) ++ zeroBytes 4 ++ leBytes 8 (x.2 + 1) ++ x.1)
  let s := (chunks 256 recs).foldl (fun s c => routedSend 1 2 dst c none s) s
  modPar (fun p => { p with rejoinTx := some (dst, b, s.time.refCount) }) s

/-- A plain ACK record that covers the package sent (R370). -/
def rejoinAcked (s : State) (h : Bytes) : Bool :=
  match s.par.rejoinTx with
  | some x => decide (fLen h = 24) && decide (leAt (fPayload h) 0 1 = 8) && decide (leAt (fPayload h) 2 2 = 24) &&
      decide (rejoinCount x.2.1 ≤ leAt (fPayload h) 16 8)
  | none => false

/-! ### Receiving knocks (R428-R436) -/

/-- Change the path of a number: 0 LVDS, 1 fabric. -/
def modPath (k : Nat) (g : Path → Path) (s : State) : State :=
  modPar (fun p => if k = 0 then { p with lvds := g p.lvds } else { p with fab := g p.fab }) s
/-- The path of a number. -/
def pathOf (s : State) (k : Nat) : Path := if k = 0 then s.par.lvds else s.par.fab

/-- The message's reserved fields are 0 (R429). -/
def knockClean (b : Bytes) : Bool :=
  decide (leAt b 2 2 / 1024 = 0) && decide (leAt b 6 2 = 0) && decide (leAt b 20 4 = 0) && decide (leAt b 40 8 = 0)

/-- A message is valid on a path (R430; the SEQ of messages without a key is followed apart: log entry 25). -/
def knockValid (s : State) (k : Nat) (b tag : Bytes) : Bool :=
  knockClean b &&
  (if (leAt b 2 2).testBit 0 then decide ((pathOf s k).lastSeq < leAt b 8 4) && s.par.key.isSome && decide (tag = knockTag s k false b)
   else decide ((pathOf s k).openSeq < leAt b 8 4) && decide (tag = zeroBytes 16))

/-- The home conflict is decided at the first keyed knock (R424). -/
def homeDecide (s : State) : State :=
  if s.par.homeChecked then s
  else
    let s := modPar (fun p => { p with homeChecked := true }) s
    if s.par.pHome = s.par.home ∧ identHigher s then
      healthReport 15 [] (modPar (fun p => { p with home := 1 - p.home }) s)
    else s

/-- Both devices find that they hold one latch: the higher identity fences it (R436). -/
def duplicateFence (s : State) : State :=
  [0, 1].foldl (fun s l => if (latch s l).holder ∧ (latch s l).pHold ∧ identHigher s then healthReport 14 (leBytes 1 l) (fenceLatch l s) else s) s

/-- The least difference between the local tick and TICK over the last 16 LVDS messages (R432). -/
def offsetNote (b : Bytes) (s : State) : State :=
  let d := signedOf 32 ((tick s % 2 ^ 32 + 2 ^ 32 - leAt b 12 4) % 2 ^ 32)
  let o := (d :: s.par.offsets).take 16
  modPar (fun p => { p with offsets := o, tickOffset := o.foldl min d }) s

/-- What a keyed message says of its sender (R429). -/
def knockState (b : Bytes) (s : State) : State :=
  let fl := leAt b 2 2
  let cur := fun (l : Nat) (x : Latch) =>
    let c := fl.testBit (3 + l) && !x.holder
    { x with pHold := fl.testBit (1 + l), selfCur := c, view := if c && !x.selfCur then max x.view (s.time.refCount + 25000) else x.view,
             echoed := x.echoed || (x.holder && !x.pCur && decide (s.par.knockAt ≠ 0)) }
  let s := modPar (fun p => { p with
    pElig := fl.testBit 5, pMode := leAt b 1 1, pLogFull := fl.testBit 6, pHome := bitsOf fl 9 9, pMfmt := leAt b 4 1, pConfirm := leAt b 32 8,
    l0 := cur 0 p.l0, l1 := cur 1 p.l1, meters := p.meters.filter fun m => decide (leAt b 32 8 < m.mseq) || m.asked }) s
  let s := ackTo (leAt b 24 8) s
  let s := if s.par.mfault ∧ !s.par.mfaultDone ∧ (s.par.l0.echoed ∨ s.par.l1.echoed) then
      healthReport 6 (leBytes 8 (s.par.acked + 1)) (mirrorSettle (modPar (fun p => { p with mfaultDone := true }) s)) else s
  resyncIf 1 (resyncIf 0 (duplicateFence (homeDecide s)))

/-- A message of the partner on a path: validity, path health and what it says; then its own effect when it is keyed (R430). -/
def knockArrive (k : Nat) (b tag : Bytes) (crcOk : Bool) (effect : State → State) (s : State) : State :=
  if !s.par.bound ∨ !s.pwr.main then s
  else
    let inj := injTake 0x11 k s
    let s := inj.2
    if inj.1.isSome ∨ !crcOk ∨ !knockValid s k b tag then
      errReport 0x11 1 0 k 0 0 0 inj.1.isSome (modPath k (fun p => { p with invalid := p.invalid + 1 }) s)
    else
      let now := s.time.refCount
      let keyed := (leAt b 2 2).testBit 0
      let s := modPath k (fun p => { p with
        lastSeq := if keyed then leAt b 8 4 else p.lastSeq, openSeq := if keyed then p.openSeq else leAt b 8 4, lastAt := now, ok := true }) s
      let s := modPar (fun p => { p with lastAny := some now, unitFault := false, pOpen := !keyed }) s
      let s := if k = 0 then offsetNote b s else s
      if (leAt b 2 2).testBit 0 then effect (knockState b s) else s

/-- A message of one KIND: on the LVDS path its 66 bytes, on the fabric path a KNOCK frame that came in on a port (R428). -/
def knockRow (kind path port : Nat) (data : Bytes) (effect : Bytes → State → State) (s : State) : State :=
  if path = 0 then
    let m := data.take 64
    if leAt data 0 1 ≠ kind then s
    else knockArrive 0 (m.take 48) (m.drop 48) (decide (data.length = 66) && decide (leAt data 64 2 = (crc16ccitt m).toNat)) (effect m) s
  else if leAt data 32 1 ≠ kind then s
  else routed port data 8 (fun h s =>
    let m := fPayload h
    knockArrive 1 (m.take 48) (m.drop 48) (decide (m.length = 64)) (effect m) s) s

end Sys2Proof.Machine
end

