-- ==== Sys2Proof/Machine/Pairs.lean ====
section
/-!
DEFINITION. The commands of partner pairs: knocks and leases, mirror records, takeover and handover (R423-R450).
-/

namespace Sys2Proof.Machine

/-! ### Applying records (R438-R448) -/

/-- Apply a STATE record: its command counts as applied, its effect is taken over, its security record appended as MIRRORED, and the
partner's head kept (R381, R442, R444). -/
def stateApply (b : Bytes) (s : State) : State :=
  let f := leAt b 16 2
  let n := leAt b 18 1
  let slot := leAt b 20 2
  let len := leAt b 24 2
  let sr := slice b (26 + len) 64
  let s := modPar (fun p => { p with
    journal := p.journal.map fun j => if j.fn = f ∧ j.ring = n ∧ j.slot = slot ∧ j.mirror then { j with applied := true } else j }) s
  let s := applyEffects len (slice b 26 len) s
  let s := if leAt sr 4 2 = 0 then s else recAppend (leAt sr 4 2) (leAt sr 6 1 ||| 1) (leAt sr 12 2) (slice sr 16 40) s
  modAud (fun a => { a with peer := slice b (90 + len) 32 }) s

/-- Apply an FN_RESET record: the state held for the function goes, the report that the partner writes is counted here too, its unretired entries stay until the reset is known to be done (R64;
log entry 28). -/
def resetApply (b : Bytes) (s : State) : State :=
  let f := leAt b 16 2
  let s := modPar (fun p => { p with
    meters := p.meters.filter (fun m => decide (m.fn ≠ f)),
    rstMir := (p.rstMir.filter fun r => decide (r.fn ≠ f)) ++ [⟨f, leAt b 24 8, leAt b 18 1, tget 0 p.rptMir f, s.time.refCount⟩] }) s
  let s := modFn f (fun x => { x with rstSeq := (x.rstSeq + 1) % 2 ^ 32 }) s
  modSlm (fun m => { m with flows := m.flows.filter fun e => decide (e.1 / 2 ^ 18 ≠ f) }) s

/-- Apply a RECEIPT record: held for the partner's write, whose slot and TAIL it takes here too; the function's chain goes on from it
(R397, MTR_RCPT_STAT). -/
def receiptApply (b : Bytes) (s : State) : State :=
  let r := b.drop 16
  let f := leAt r 6 2
  let s := rcptAdvance (modPar (fun p => { p with rcptMir := (p.rcptMir.filter fun x => decide (leAt x.2 6 2 ≠ f)) ++ [(s.mtr.tail, r)] }) s)
  modMtr (fun m => { m with rcpt := tmod RcptState.blank m.rcpt f fun x => { x with
    seq := leAt r 8 8, minute := leAt r 24 8, totals := (List.range 16).map (fun k => leAt r (0xD8 + 8 * k) 8), digest := shake256 32 r } }) s

/-- Apply the record at the front of the stream, but for taking a handed-over latch. -/
def applyRec (b : Bytes) (s : State) : State :=
  let load := leAt b 1 1
  let s := rxDone s
  match leAt b 0 1 with
  | 1 => journalAdd (journalOf b) none s
  | 2 => meterApply b s
  | 3 => sendAck (stateApply b s)
  | 4 =>
    modPar (fun p => { p with
      rstMir := p.rstMir.filter (fun r => decide (r.fn ≠ leAt b 16 2)), rptMir := tset 0 p.rptMir (leAt b 16 2) (leAt b 40 8) }) (ringApply b s)
  | 5 => resetApply b s
  | 6 => sendAck (receiptApply b s)
  | 7 => modAud (fun a => { a with peer := slice b 16 32 }) s
  | 8 => ackTo (leAt b 16 8) s
  | 9 => modLatch (leAt b 16 1) (fun x => { x with handMseq := some (leAt b 24 8) }) s
  | 10 => sendAck (segApply load (leAt b 8 8) (b.drop 16) s)
  | _ => s

/-- Apply every record that has arrived in order, with fuel (R443 step 2). -/
def applyAll : Nat → State → State
  | 0, s => s
  | n + 1, s =>
    match s.par.rxHeld with
    | [] => s
    | (m, b) :: _ => if m = s.par.rxApplied + 1 then applyAll n (applyRec b s) else s

/-- Everything that has arrived. -/
def applyArrived (s : State) : State := applyAll s.par.rxHeld.length s

/-- The next record of a type arrives at its turn and is applied. -/
def mirrorRow (type : Nat) (s : State) : State :=
  match rxNext s type with
  | some b => if s.pwr.main then applyRec b s else s
  | none => s

/-- A reset that the partner had under way goes on here from its mirror record, with its START_TIME and report base; the report was counted when
that record came (R64; log entry 28). -/
def resetTake (s : State) (r : RstMirror) : State :=
  modPar (fun p => { p with rstMir := p.rstMir.filter fun x => decide (x.fn ≠ r.fn) })
    (modFn r.fn (fun x => { x with
      rstWord := .resetting, rstSeq := (x.rstSeq + 2 ^ 32 - 1) % 2 ^ 32,
      rst := some ⟨tick s, s.time.refCount, r.startTime, r.cause, r.rptBase, x.races, [], 0, true⟩ }) s)

/-- Take a latch: step 2 first, then the rest; a reset the partner had under way is taken over with it (R64, R443). A RING record after the
reset's says that it has ended. -/
def take (l : Nat) (s : State) : State :=
  let s := applyArrived s
  takeLatch l ((s.par.rstMir.filter fun r => inLoad s l r.fn && decide (s.time.refCount < r.since + 200000)).foldl resetTake s)

/-- A handed-over latch whose RELEASE and stream are there is taken. -/
def handTakeAll (s : State) : State :=
  [0, 1].foldl (fun s l =>
    match (latch s l).handMseq with
    | some m => if (latch s l).released ∧ m ≤ s.par.rxApplied ∧ !(latch s l).holder ∧ eligible s then take l s else s
    | none => s) s

/-! ### Health and knock timers -/

/-- HEALTH_REPORT_PERIODIC (R450). -/
def execHealthReportPeriodic (s : State) : Res :=
  .next (
    if s.pwr.mode ≠ .guard ∧ s.pwr.main ∧ s.pwr.healthAt + 100000000 ≤ s.time.refCount then
      healthReport 1 [] (modPwr (fun p => { p with healthAt := s.time.refCount }) s)
    else s)

/-- KNOCK_TIMER (R428): a KNOCK on both paths every 20 µs. -/
def execKnockTimer (s : State) : Res :=
  .next (
    if s.par.bound ∧ s.pwr.main ∧ s.par.knockAt + 2000 ≤ s.time.refCount then
      knockSend 1 0 0 (modPar (fun p => { p with knockAt := s.time.refCount }) s)
    else s)

/-- One RENEW for a latch held (R433). -/
def renewOne (s : State) (l : Nat) : State :=
  if (latch s l).holder then
    let s := modLatch l (fun x => { x with
      lreq := (x.lreq + 1) % 2 ^ 32, sent := ((x.lreq + 1) % 2 ^ 32, s.time.refCount) :: x.sent.take 7 }) s
    knockSend 2 l (latch s l).lreq s
  else s

/-- RENEW_TIMER (R433): a RENEW for each latch held every 50 µs. -/
def execRenewTimer (s : State) : Res :=
  .next (
    if s.par.bound ∧ s.pwr.main ∧ s.par.renewAt + 5000 ≤ s.time.refCount then
      [0, 1].foldl renewOne (modPar (fun p => { p with renewAt := s.time.refCount }) s)
    else s)

/-! ### Messages of the partner -/

/-- KNOCK (R429, R430): a message arrives on a path and updates the view of the partner. -/
def execKnock (path port : Nat) (data : List Byte) (s : State) : Res := .next (knockRow 1 path port data (fun _ s => s) s)

/-- RENEW (R433): a current standby whose view has not expired extends it and answers GRANT. -/
def execRenew (path port : Nat) (data : List Byte) (s : State) : Res :=
  .next (knockRow 2 path port data (fun m s =>
    let l := leAt m 5 1
    let x := latch s l
    let now := s.time.refCount
    if l < 2 ∧ !x.holder ∧ current s l ∧ now < x.view then
      knockSend 3 l (leAt m 16 4) (modLatch l (fun x => { x with view := max x.view (now + 25000) }) s)
    else s) s)

/-- GRANT (R433): the holder's lease end becomes the send time of that RENEW plus 249.975 µs, if later. -/
def execGrant (path port : Nat) (data : List Byte) (s : State) : Res :=
  .next (knockRow 3 path port data (fun m s =>
    let l := leAt m 5 1
    match (latch s l).sent.find? fun e => e.1 = leAt m 16 4 with
    | some e => if l < 2 ∧ (latch s l).holder then modLatch l (fun x => { x with leaseEnd := max x.leaseEnd (e.2 + 24997) }) s else s
    | none => s) s)

/-- KNOCK_RELEASE (R446): the partner gives a latch up; it is taken once the stream is applied up to the MSEQ it named. -/
def execKnockRelease (path port : Nat) (data : List Byte) (s : State) : Res :=
  .next (knockRow 4 path port data (fun m s =>
    let l := leAt m 5 1
    if l < 2 ∧ !(latch s l).holder then handTakeAll (applyArrived (modLatch l (fun x => { x with released := true }) s)) else s) s)

/-- The handover ends with a RESULT; HELD clears, and the service word shows the MODE and LATCHES it held back (R36, R37, R446). -/
def handEnd (result : Nat) (s : State) : State :=
  svcUpdate (modHif (fun h => { h with svcHeld := false }) (modPar (fun p => { p with handover := none, hoResult := result }) s))

/-- TAKEN (R37, R446): the partner has taken the latch, which this device's functions see as a switch-over; the handover is DONE once every
latch named is taken. -/
def execTaken (path port : Nat) (data : List Byte) (s : State) : Res :=
  .next (knockRow 5 path port data (fun m s =>
    let l := leAt m 5 1
    match s.par.handover with
    | some h =>
      if h.released.isSome ∧ h.latches.testBit l then
        let rest := setBit h.latches l false
        let s := switchSeen l s
        if rest = 0 then healthReport 5 (leBytes 1 l) (handEnd 0 s) else modPar (fun p => { p with handover := some { h with latches := rest } }) s
      else s
    | none => s) s)

/-! ### Silence, fences and takes -/

/-- PATH_SILENCE (R430): 60 µs without a valid message is a path fault; on both paths a unit fault. -/
def execPathSilence (path : Nat) (s : State) : Res :=
  .next (
    let x := pathOf s path
    if !s.par.bound ∨ !s.pwr.main ∨ 2 ≤ path ∨ !x.ok ∨ s.time.refCount < x.lastAt + 6000 then s
    else
      let s := modPath path (fun p => { p with ok := false, faults := satAdd 0xFFFF p.faults 1 }) s
      let s := healthReport 2 (leBytes 1 path ++ leBytes 4 x.lastSeq) (fireMsix 0 7 s)
      if !s.par.lvds.ok ∧ !s.par.fab.ok ∧ !s.par.unitFault then
        healthReport 3 [] (fireMsix 0 7 (modPar (fun p => { p with
          unitFault := true, lvds := { p.lvds with openSeq := 0 }, fab := { p.fab with openSeq := 0 } }) s))
      else s)

/-- TX_CHECK_TIMEOUT (R431): a transmitter silent for 60 µs fails its check; with both failed the latches are fenced. -/
def execTxCheckTimeout (path : Nat) (s : State) : Res :=
  .next (
    let x := pathOf s path
    if !s.par.bound ∨ !s.pwr.main ∨ 2 ≤ path ∨ !x.txOk ∨ s.time.refCount < x.txAt + 6000 then s
    else
      let s := modPath path (fun p => { p with txOk := false }) s
      if !s.par.lvds.txOk ∧ !s.par.fab.txOk then fenceAll s else s)

/-- LEASE_EXPIRY_FENCE (R434): a holder that needs its lease fences the latch at E. -/
def execLeaseExpiryFence (latch : Nat) (s : State) : Res :=
  .next (
    if latch < 2 ∧ s.par.bound ∧ leaseNeeded s latch ∧ (Machine.latch s latch).leaseEnd ≤ s.time.refCount then
      fenceLatch latch s
    else s)

/-- LATCH_TAKE (R434, R443): an eligible, current standby takes a latch 25 µs after its view has expired. -/
def execLatchTake (latch : Nat) (s : State) : Res :=
  .next (
    let x := Machine.latch s latch
    if latch < 2 ∧ s.pwr.main ∧ !x.holder ∧ current s latch ∧ x.view + 2500 ≤ s.time.refCount ∧ s.par.mirrorAt + 2000 ≤ s.time.refCount then
      take latch s
    else s)

/-- ALONE_WAIT_EXPIRY (R436): a device in STANDBY takes its home latch when the partner's keyed knocks show it free, or either latch
after ALONE_WAIT without any knock. -/
def execAloneWaitExpiry (latch : Nat) (s : State) : Res :=
  .next (
    let x := Machine.latch s latch
    let home := s.par.homeChecked && decide (latch = s.par.home) && !x.pHold
    let alone := decide (s.par.aloneSince + 100000 * s.par.aloneWait ≤ s.time.refCount) &&
      (match s.par.lastAny with | some t => decide (t + 100000 * s.par.aloneWait ≤ s.time.refCount) | none => true)
    if latch < 2 ∧ s.par.bound ∧ s.pwr.main ∧ !x.holder ∧ (s.pwr.mode = .standby ∨ s.pwr.mode = .active) ∧ (home ∨ alone) then
      take latch s
    else s)

/-! ### Takeover (R443, R444) -/

/-- The takeover of a latch goes on when nothing it asked for is outstanding. -/
def takeNext (l : Nat) (s : State) : State :=
  match (latch s l).take with
  | .slots => if s.par.meters.any (fun m => m.asked && decide (m.load = l)) then s else takeReplay l s
  | .replay => if s.par.journal.any (fun j => j.asked && replayable s l j) then s else takeFinish l s
  | .none => s

/-- Both takeovers go on where they can. -/
def takeGo (s : State) : State := takeNext 1 (takeNext 0 s)

/-- TAKEOVER_SLOT_ARRIVAL (R443 step 4): the slot of the oldest listed METER record arrives; without its completion it is written. -/
def execTakeoverSlotArrival (mseq : Nat) (data : List Byte) (s : State) : Res :=
  .next (
    match s.par.meters.find? fun m => m.asked with
    | none => s
    | some m =>
      if m.mseq ≠ mseq then s
      else
        let s := chanDone (hifMaster m.fn m.ring) m.fn 32 s
        let s := modPar (fun p => { p with meters := p.meters.filter fun x => decide (x.mseq ≠ mseq) }) s
        let s := if padTo 32 data = m.cpl then s else (hostWrite (hifMaster m.fn m.ring) m.fn (slotAddr s m) m.cpl false s).2
        takeGo s)

/-- Complete an entry of the lost device's PF in that PF's ring (R443). -/
def pfComplete (j : Journal) (d : Bytes) (s : State) : State :=
  match s.par.ringMir.find? fun r => decide (r.fn = j.fn) && decide (r.ring = j.ring) with
  | none => s
  | some r =>
    let st := if j.applied then 0x0803 else 0x0801
    let cpl := cplBytes (dTag d) st (if j.applied then opClass (dOpcode d) else 11) r.phase 0 (timeField s) j.slot j.ring true
    let s := (hostWrite (hifMaster 0 j.ring) 0 (r.cqBase + 32 * r.cqTail) cpl false s).2
    modPar (fun p => { p with ringMir := p.ringMir.map fun x => if x.fn = r.fn ∧ x.ring = r.ring then
      { x with cqTail := (x.cqTail + 1) % ringSize x.cqLog2, phase := if x.cqTail + 1 = ringSize x.cqLog2 then !x.phase else x.phase } else x }) s

/-- Complete a replayed entry in flow order with a status (R444). -/
def replayComplete (i status mclass units : Nat) (s : State) : State :=
  settleToken i (modTok i (fun t => { t with st := .expired, due := none, status := status, mclass := mclass, units := units, resLen := 0, mirror := false }) (liftDrop (.pace i) s))

/-- Replay one entry of the load whose descriptor has arrived (R444). -/
def replayOne (j : Journal) (d : Bytes) (rec : Nat) (s : State) : State :=
  let i := freeFrom s 65536 rec
  if (fnOf s j.fn).rst.isSome then
    modFn j.fn (fun x => { x with rst := x.rst.map fun r => { r with entries := r.entries ++ [⟨j.mseq, dTag d, 0x0902, j.ring, j.slot⟩] } }) s
  else
    let exp := if dDeadline d = 0 then none else some (((j.accept : Int) + s.par.tickOffset + (dDeadline d : Int)).toNat)
    let s := modRing j.fn j.ring (fun r => { r with reserved := r.reserved + 1 }) s
    let s := makeToken j.fn j.ring j.slot i d j.seq exp true s
    let s := modPar (fun p => { p with replayed := p.replayed + 1 }) s
    if descDigest d ≠ j.digest then replayComplete i 0x0802 11 1 s
    else if j.applied then
      replayComplete i 0x0803 (opClass (dOpcode d)) (earlyUnits (dOpcode d) 0) (modPar (fun p => { p with replayApplied := p.replayApplied + 1 }) s)
    else s

/-- REPLAY_DESCRIPTOR_ARRIVAL (R443 step 5, R444): the descriptor of the oldest entry asked for arrives. -/
def execReplayDescriptorArrival (mseq : Nat) (data : List Byte) (rec : Nat) (s : State) : Res :=
  .next (
    match s.par.journal.find? fun j => j.asked with
    | none => s
    | some j =>
      if j.mseq ≠ mseq then s
      else
        let d := padTo 64 data
        let s := modPar (fun p => { p with journal := p.journal.erase j }) (chanDone (hifMaster j.fn j.ring) j.fn 64 s)
        takeGo (if j.load = 2 then pfComplete j d s else replayOne j d rec s))

/-! ### The pair transport key (R427) -/

/-- Send bytes to the partner in DATA frames on the management channel. -/
def mgmtSend (b : Bytes) (s : State) : State := (chunks 256 b).foldl (fun s c => routedSend 1 3 s.par.addr c none s) s

/-- A new pair transport key, of key generation `g`: SEQ starts again under it, and the key before it still opens what was sealed under it (R427,
R429, R442; log entry 25). -/
def pairKeySet (k : Bytes) (g : Nat) (s : State) : State :=
  modPar (fun p => { p with
    key := some k, keyPrev := p.key, keyGen := g, keyUses := 0, kemDk := none, homeChecked := false, seq := 1, pOpen := false,
    lvds := { p.lvds with lastSeq := 0 }, fab := { p.fab with lastSeq := 0 } }) s

/-- Sign with the device's identity key (R355). -/
def identSign (m : Bytes) (s : State) : Bytes := slhSign slh256s (padTo 96 s.lcy.idSeed) m

/-- A pair key has to be established: none is held, its knocks are used up, or the partner holds none (R427). -/
def pairKeyDue (s : State) : Bool := s.par.key.isNone || decide (2 ^ 31 ≤ s.par.keyUses) || s.par.pOpen

/-- A message of the key exchange of `n` bytes: an encapsulation key or ciphertext, the key generation, and the sender's signature (log entry 25). -/
def pairMsg (n g : Nat) (b : Bytes) (s : State) : Bytes :=
  let m := padTo n b ++ leBytes 4 g
  m ++ identSign m s

/-- The body and key generation of a message of `n` bytes that the partner signed. -/
def pairMsgTake (n : Nat) (d : Bytes) (s : State) : Option (Bytes × Nat) :=
  if d.length = n + 4 + slhLen slh256s ∧ slhVerify slh256s s.par.partnerPk (d.take (n + 4)) (d.drop (n + 4)) then some (d.take n, leAt d n 4) else none

/-- The device with the higher identity sends an encapsulation key of its own (R427). -/
def pairKeyOffer (s : State) : State :=
  match drbgDraw 0 64 s with
  | none => s
  | some (r, s) =>
    let k := kemKeygen 3 (r.take 32) (r.drop 32)
    mgmtSend (pairMsg (kemEkLen 3) ((s.par.keyGen + 1) % 2 ^ 32) k.1 s) (modPar (fun p => { p with kemDk := some k.2 }) s)

/-- PAIR_KEY_EXCHANGE (R427): the device with the higher identity sends a signed encapsulation key and later takes the ciphertext; the
other checks the key, encapsulates and answers. Without data the first begins, or begins again. Messages: log entry 25. -/
def execPairKeyExchange (data : List Byte) (s : State) : Res :=
  .next (
    if !s.par.bound ∨ !s.pwr.main then s
    else if identHigher s then
      match s.par.kemDk, pairMsgTake (kemCtLen 3) data s with
      | some dk, some (ct, g) => pairKeySet (kemDecaps 3 dk ct) g s
      | _, _ => if data = [] ∧ pairKeyDue s then pairKeyOffer s else s
    else match pairMsgTake (kemEkLen 3) data s with
      | none => s
      | some (ek, g) =>
        match drbgDraw 0 32 s with
        | none => s
        | some (m, s) =>
          let c := kemEncaps 3 ek m
          let g := max g ((s.par.keyGen + 1) % 2 ^ 32)
          pairKeySet c.2 g (mgmtSend (pairMsg (kemCtLen 3) g c.1 s) s))

/-! ### Mirror records -/

/-- MIRROR_JOURNAL (R438). -/
def execMirrorJournal (s : State) : Res := .next (mirrorRow 1 s)
/-- MIRROR_METER (R440). -/
def execMirrorMeter (s : State) : Res := .next (mirrorRow 2 s)
/-- MIRROR_STATE (R442). -/
def execMirrorState (s : State) : Res := .next (mirrorRow 3 s)
/-- MIRROR_RING (R438). -/
def execMirrorRing (s : State) : Res := .next (mirrorRow 4 s)
/-- MIRROR_FN_RESET (R64). -/
def execMirrorFnReset (s : State) : Res := .next (mirrorRow 5 s)
/-- MIRROR_RECEIPT (R397). -/
def execMirrorReceipt (s : State) : Res := .next (mirrorRow 6 s)
/-- MIRROR_HEAD (R438). -/
def execMirrorHead (s : State) : Res := .next (mirrorRow 7 s)
/-- MIRROR_ACK (R441). -/
def execMirrorAck (s : State) : Res := .next (mirrorRow 8 s)
/-- MIRROR_HANDOVER (R446). -/
def execMirrorHandover (s : State) : Res := .next (handTakeAll (mirrorRow 9 s))
/-- MIRROR_RESYNC (R448). -/
def execMirrorResync (s : State) : Res := .next (mirrorRow 10 s)

/-- MIRROR_REJOIN (R370): a device in RECOVERY with an offer outstanding takes the package from its partner's address, or from PEER when
it is not bound, holds it, and acknowledges it. -/
def execMirrorRejoin (src : Nat) (data : List Byte) (s : State) : Res :=
  .next (
    match s.lcy.rejoin with
    | none => s
    | some r =>
      if s.pwr.mode ≠ .recovery ∨ !s.phl.valid ∨ src ≠ (if s.par.bound then s.par.addr else r.peer) then s
      else
        let s := modLcy (fun l => { l with package := some (data, tick s) }) s
        routedSend 1 2 src (leBytes 1 8 ++ leBytes 1 0xFF ++ leBytes 2 24 ++ zeroBytes 4 ++ leBytes 8 1 ++ leBytes 8 (rejoinCount data)) none s)

/-- MIRROR_RESEND_TIMER (R439, R441): MIRROR_TMO without progress resends what is unacknowledged; a STATE record resent 3 times while
knocks still arrive is a mirror fault. A rejoin package that is not acknowledged is resent in the same way (R370). -/
def execMirrorResendTimer (s : State) : Res :=
  .next (
    let s := match s.par.rejoinTx with
      | some x => if s.pwr.main ∧ x.2.2 + 1000 * s.par.mirrorTmo ≤ s.time.refCount then rejoinSend x.1 x.2.1 s else s
      | none => s
    if !streamOn s ∨ s.par.retained.isEmpty ∨ s.time.refCount < s.par.progressAt + 1000 * s.par.mirrorTmo then s
    else if s.par.retained.any (fun r => decide (leAt r.bytes 0 1 = 3) && decide (3 ≤ r.resent)) ∧ (s.par.lvds.ok ∨ s.par.fab.ok) ∧ !s.par.mfault then
      let clear := fun (x : Latch) => { x with pCur := false, echoed := false, resync := none }
      modPar (fun p => { p with mfault := true, l0 := clear p.l0, l1 := clear p.l1 }) s
    else mirrorResend s)

/-! ### Handover (R446) -/

/-- Start a planned handover of the latches in PAR_HANDOVER; no effect while RESULT reads BUSY (R446). -/
def handoverGo (s : State) : State :=
  if s.par.handover.isSome then s
  else
    let m := s.par.hoLatches
    let sel := fun (l : Nat) => m.testBit l
    let bad := [0, 1].any fun l => sel l && !(latch s l).holder
    let cold := [0, 1].any fun l => sel l && !(latch s l).pCur
    if m = 0 ∨ bad then modPar (fun p => { p with hoResult := 2 }) s
    else if cold then modPar (fun p => { p with hoResult := 3 }) s
    else
      let s := modPar (fun p => { p with hoResult := 1, handover := some ⟨m, s.time.refCount, none⟩ }) s
      let s := [0, 1].foldl (fun s l => if sel l then modLatch l (fun x => { x with stopped := true }) s else s) s
      modHif (fun h => { h with svcHeld := true }) s

/-- Write PAR_HANDOVER: LATCHES, DRAIN clamped to 10-10,000, and GO. -/
def handoverWrite (v : Nat) (s : State) : State :=
  let s := modPar (fun p => { p with hoLatches := bitsOf v 17 16, drain := min 10000 (max 10 (v % 65536)) }) s
  if v.testBit 31 then handoverGo s else s

/-- HANDOVER_GO (R446): PAR_HANDOVER written with GO. -/
def execHandoverGo (value : Nat) (s : State) : Res :=
  .next (if regsOpen s ∧ value.testBit 31 then regWrote 0 (handoverWrite value s) else s)

/-- HANDOVER_DRAIN_EXPIRY (R446): at DRAIN the latches are fenced, HANDOVER records name the last MSEQ, RELEASE knocks go out. -/
def execHandoverDrainExpiry (s : State) : Res :=
  .next (
    match s.par.handover with
    | none => s
    | some h =>
      if h.released.isSome ∨ s.time.refCount < h.start + 100 * s.par.drain then s
      else
        let one := fun (s : State) (l : Nat) => if h.latches.testBit l then
            let s := fenceLatch l s
            knockSend 4 l 0 (mirrorSend 9 l (leBytes 1 l ++ zeroBytes 7 ++ leBytes 8 (s.par.txNext - 1)) s)
          else s
        let s := [0, 1].foldl one s
        modPar (fun p => { p with handover := p.handover.map fun x => { x with released := some s.time.refCount } }) s)

/-- HANDOVER_TIMEOUT (R446): no TAKEN within 1 ms of RELEASE. -/
def execHandoverTimeout (s : State) : Res :=
  .next (
    match s.par.handover.bind fun h => h.released with
    | some t => if t + 100000 ≤ s.time.refCount then handEnd 4 s else s
    | none => s)

end Sys2Proof.Machine
end

