-- ==== Sys2Proof/Machine/Fabric.lean ====
section
/-!
DEFINITION. The fabric's commands: routed frames and the probe engine, credit audits, time, neighbours, the link layer, port training,
addresses, and the management frame registers (R399-R420).
-/

namespace Sys2Proof.Machine

/-! ### Register access -/

/-- Registers answer reads (R504). -/
def regsAnswer (s : State) : Bool := s.pwr.main && s.hif.linkUp && decide (s.pwr.mode ≠ .guard)

/-- PHL_ADDR as it reads. -/
def phlAddrWord (s : State) : Nat := b2n s.phl.valid * 2 ^ 31 + b2n s.phl.conflict * 2 ^ 30 + s.phl.addr

/-- PHL_PORT_STAT_p.STATE. -/
def portCode : PortSt → Nat
  | .disabled => 0 | .training => 1 | .up => 2 | .retrain => 3 | .down => 4

/-- PHL_PORT_STAT_p as it reads. -/
def portStatWord (x : Port) : Nat :=
  portCode x.st * 2 ^ 29 + b2n x.slow * 2 ^ 28 + x.nb * 2 ^ 16 + b2n x.nbValid * 2 ^ 15 + x.retrains
/-- PHL_PORT_ERR_p as it reads. -/
def portErrWord (x : Port) : Nat := x.crc * 65536 + x.replays
/-- PHL_PORT_DROP_p as it reads. -/
def portDropWord (x : Port) : Nat := x.dHops * 2 ^ 24 + x.dNoroute * 2 ^ 16 + x.dFormat * 2 ^ 8 + x.dLost

/-! ### DATA (R404, R405, R413) -/

/-- Queue a frame for the management receive registers (PHL_MRX_STAT). -/
def mrxQueue (h : Bytes) (s : State) : State :=
  fireMsix 0 8 (modPhl (fun x =>
    if x.mrx.length < 16 then { x with mrx := x.mrx ++ [h] } else { x with mrxDropped := satAdd 0xFF x.mrxDropped 1 }) s)

/-- A DATA frame for this device: the management queue, the partner's users, or a rejoin peer's mirror channel; anything else is dropped
and counted in FORMAT (R370, R405). -/
def dataUser (p : Nat) (h : Bytes) (s : State) : State :=
  if fVc h = 3 then mrxQueue h s
  else if s.par.bound ∧ fSrcValid h ∧ fSrc h = s.par.addr then (
    if fVc h = 2 then (
      if rejoinAcked s h then modPar (fun x => { x with rejoinTx := none }) s else if s.pwr.mode = .recovery then s else mirrorFrame h s)
    else s)
  else if fVc h = 2 ∧ s.pwr.mode = .recovery ∧ !s.par.bound ∧ fSrcValid h ∧ s.lcy.rejoin.map (fun r => r.peer) = some (fSrc h) then s
  else dropFormat p s

/-- DATA_FRAME (R404, R405, R415). -/
def execDataFrame (port : Nat) (frame : List Byte) (s : State) : Res := .next (routed port frame 1 (dataUser port) s)

/-! ### The probe engine (R411-R413; layouts: log entry 24) -/

/-- Reply to a probe along its path: entries reversed, PTR 1, out of the ingress port (R411, R412). -/
def probeReply (h : Bytes) (status : Nat) (result : Bytes) (s : State) : State :=
  let es := (rtEntries (fRoute h)).reverse
  let e := nextE2e s
  portSend (es.headD 0) (own (frame 3 3 true s.phl.valid 0 s.phl.addr 0 e.1 (rtMake (rtNh (fRoute h)) 1 es)
    (leBytes 1 (leAt h 32 1) ++ leBytes 1 status ++ zeroBytes 6 ++ slice h 40 8 ++ result))) e.2

/-- ASSIGN, RELEASE and ROUTE_WRITE are locked to this prober (R413). -/
def probeLocked (h : Bytes) (s : State) : Bool := s.phl.cfgLock && !(fSrcValid h && decide (fSrc h = s.phl.fmAddr))

/-- The identity of the probe is this device's. -/
def probeMine (h : Bytes) (s : State) : Bool := decide (slice h 48 16 = padTo 16 s.lcy.ident)

/-- A PROBE frame of operation `op` (R412). -/
def probeRow (port op : Nat) (frame : Bytes) (act : Bytes → State → State) (s : State) : Res :=
  .next (if leAt frame 32 1 = op then routed port frame 2 act s else s)

/-- READ_ID (R412): identity, address word, life-cycle state, stepping, lock, manager's address, port states. -/
def execReadId (port : Nat) (frame : List Byte) (s : State) : Res :=
  probeRow port 1 frame (fun h s =>
    probeReply h 0 (padTo 16 s.lcy.ident ++ leBytes 4 (phlAddrWord s) ++ leBytes 1 (lcsCode s.lcy.state) ++ [0xB1] ++
      leBytes 1 (b2n s.phl.cfgLock) ++ [0] ++ leBytes 2 s.phl.fmAddr ++ [0, 0] ++
      ((List.range 8).flatMap fun p => leBytes 4 (portStatWord (portOf s p)))) s) s

/-- ASSIGN (R412). -/
def execAssign (port : Nat) (frame : List Byte) (s : State) : Res :=
  probeRow port 2 frame (fun h s =>
    let a := leAt h 64 2 % 4096
    if probeLocked h s then probeReply h 2 [] s
    else if !probeMine h s then probeReply h 1 [] s
    else if s.phl.valid then probeReply h (if s.phl.addr = a then 0 else 4) [] s
    else probeReply h 0 [] (setAddr true a s)) s

/-- PROBE_RELEASE (R412). -/
def execProbeRelease (port : Nat) (frame : List Byte) (s : State) : Res :=
  probeRow port 3 frame (fun h s =>
    if probeLocked h s then probeReply h 2 [] s
    else if !probeMine h s then probeReply h 1 [] s
    else probeReply h 0 [] (if s.phl.valid then setAddr false s.phl.addr s else s)) s

/-- Write one route entry whole; its reserved bits stay 0 (R414). -/
def routeSet (a v : Nat) (s : State) : State := modPhl (fun x => { x with route := tset 0 x.route a (v / 256 % 256 * 256) }) s

/-- FIRST and COUNT of a route probe are out of range (R412; a COUNT outside 1-64: log entry 24). -/
def routeRange (h : Bytes) : Bool := decide (leAt h 50 2 = 0) || decide (64 < leAt h 50 2) || decide (4096 < leAt h 48 2 + leAt h 50 2)

/-- ROUTE_WRITE (R412). -/
def execRouteWrite (port : Nat) (frame : List Byte) (s : State) : Res :=
  probeRow port 4 frame (fun h s =>
    if probeLocked h s then probeReply h 2 [] s
    else if routeRange h then probeReply h 3 [] s
    else probeReply h 0 [] ((List.range (leAt h 50 2)).foldl (fun s i => routeSet (leAt h 48 2 + i) (leAt h (52 + 2 * i) 2) s) s)) s

/-- ROUTE_READ (R412). -/
def execRouteRead (port : Nat) (frame : List Byte) (s : State) : Res :=
  probeRow port 5 frame (fun h s =>
    if routeRange h then probeReply h 3 [] s
    else probeReply h 0 ((List.range (leAt h 50 2)).flatMap fun i => leBytes 2 (routeAt s (leAt h 48 2 + i))) s) s

/-- PORT_READ (R412); a probe clears nothing. -/
def execPortRead (port : Nat) (frame : List Byte) (s : State) : Res :=
  probeRow port 6 frame (fun h s =>
    probeReply h 0 ((List.range 8).flatMap fun p => leBytes 4 (portErrWord (portOf s p)) ++ leBytes 4 (portDropWord (portOf s p))) s) s

/-- PROBE_UNKNOWN_OP (R412): status UNKNOWN_OP. -/
def execProbeUnknownOp (port : Nat) (frame : List Byte) (s : State) : Res :=
  .next (if 1 ≤ leAt frame 32 1 ∧ leAt frame 32 1 ≤ 6 then s else routed port frame 2 (fun h s => probeReply h 5 [] s) s)

/-- PROBE_REPLY (R412, R413): forwarded back, or into the management receive queue. -/
def execProbeReply (port : Nat) (frame : List Byte) (s : State) : Res := .next (routed port frame 3 mrxQueue s)

/-! ### Credit audits (R409) -/

/-- The four checks of an AUDIT frame against the receiver's view. -/
def auditOk (c : Cred) (total : Nat) (h : Bytes) : Bool :=
  let w := fun i => leAt h (32 + 4 * i) 4
  decide (c.rx = w 0) && decide (w 2 + w 3 + (w 0 + 2 ^ 32 - w 1) % 2 ^ 32 = w 4) && decide (c.occ = (c.rx + 2 ^ 32 - c.ret) % 2 ^ 32) &&
  decide ((c.ret + 2 ^ 32 - w 1) % 2 ^ 32 ≤ w 4) && decide (w 4 = total)

/-- AUDIT_FRAME (R409): a failure queues AUDIT_FAIL, is reported and retrains the port. -/
def execAuditFrame (port : Nat) (frame : List Byte) (s : State) : Res :=
  .next (
    let inj := injTake 0x0F port s
    linkLocal port frame 4 (fun h s =>
      if inj.1.isNone ∧ fLen h = 20 ∧ auditOk (credOf s port (fVc h)) (credTotal (fVc h)) h then
        modPhl (fun x => { x with audits := (x.audits + 1) % 65536 }) s
      else
        let s := modPhl (fun x => { x with auditFails := satAdd 0xFFFF x.auditFails 1 }) s
        startRetrain port (errReport 0x0F 2 1 (port + 256 * fVc h) 0 0 0 inj.1.isSome (phlEvent 5 port (fVc h) 0xFFFF s))) inj.2)

/-- AUDIT_PERIOD_TIMER (R409): one AUDIT frame per virtual channel on each UP port. -/
def execAuditPeriodTimer (s : State) : Res :=
  .next (
    if !fabOn s ∨ tick s < s.phl.auditAt + s.phl.auditPeriod then s
    else
      let s := modPhl (fun x => { x with auditAt := tick s }) s
      (List.range 8).foldl (fun s p =>
        if portUp s p then (List.range 4).foldl (fun s v => linkSend p 4 v (zeroBytes 20) s) s else s) s)

/-! ### Time (R419, R420; payloads: log entry 24) -/

/-- The stamp of the present instant, in units of 1/65,536 µs (R419). -/
def stamp (s : State) : Option Nat := s.time.dev.map fun t => t * 65536 + s.time.frac * 65536 / 10 ^ 9

/-- The device takes part in fabric time: it has an epoch and its fabric runs (R420). -/
def timeOn (s : State) : Bool := fabOn s && s.time.dev.isSome

/-- DISTANCE that a device answers with (R419). -/
def ownDistance (s : State) : Nat := if s.phl.role = 1 then 0 else s.phl.distance

/-- SYNC_REQ (R419): answer with the stamps of arrival and of sending, and the distance. -/
def execSyncReq (port : Nat) (frame : List Byte) (s : State) : Res :=
  .next (linkLocal port frame 5 (fun _ s =>
    match stamp s with
    | some t =>
      linkSend port 6 3 (leBytes 8 (t / 65536) ++ leBytes 8 (t / 65536) ++ leBytes 2 (t % 65536) ++ leBytes 2 (t % 65536) ++
        leBytes 1 (ownDistance s) ++ zeroBytes 3) s
    | none => s) s)

/-- Discipline is lost: the flag clears and TIME_LOST is queued (R420). -/
def timeLost (s : State) : State :=
  if s.mtr.disciplined then phlEvent 9 s.phl.upstream 0xFF 0xFFFF (modMtr (fun m => { m with disciplined := false }) s) else s

/-- The exchange of least delay, newest first on a tie. -/
def leastDelay : List (Int × Int) → Option (Int × Int)
  | [] => none
  | e :: es => match leastDelay es with | some f => if f.1 < e.1 then some f else some e | none => some e

/-- Slew for an offset in ns: offset ÷ 1 s in 0.01 ppm, within ±200 ppm (R420). -/
def slewOf (ns : Int) : Int := max (-20000) (min 20000 (ns / 10))

/-- Count an exchange toward discipline (R420). -/
def timeCount (ns : Int) (s : State) : State :=
  let small := decide (ns.natAbs < 1000)
  let s := modPhl (fun x => { x with good := if small then x.good + 1 else 0, missed := 0 }) s
  if 10000 ≤ ns.natAbs then timeLost s
  else if 8 ≤ s.phl.good then modMtr (fun m => { m with disciplined := true }) s else s

/-- Apply a completed exchange: the offset of least delay among the last 8 sets the slew; an offset above 10 s is not corrected (R420). -/
def timeApply (delay offset : Int) (dist : Nat) (s : State) : State :=
  let es := ((delay, offset) :: s.phl.exchanges).take 8
  let best := ((leastDelay es).getD (delay, offset)).2
  let ns := best * 1000 / 65536
  let far := decide (10 ^ 10 < ns.natAbs)
  let was := s.phl.timeFar
  let s := modPhl (fun x => { x with
    exchanges := es, t1 := none, distance := dist + 1, offset := signedOf 32 ((ns % 2 ^ 32).toNat), timeFar := far }) s
  let s := timeCount (offset * 1000 / 65536) s
  if far then
    let s := modTime (fun t => { t with slew := 0 }) s
    if was then s else healthReport 13 [] s
  else modTime (fun t => { t with slew := slewOf ns }) s

/-- A device whose role is no longer follower: no exchange is under way, nothing slews device time, no DISTANCE stands, and discipline is lost
(R419, R420). -/
def timeFree (s : State) : State :=
  if s.phl.role = 2 then s
  else
    modTime (fun t => { t with slew := 0 })
      (modPhl (fun x => { x with t1 := none, exchanges := [], good := 0, missed := 0, distance := 63, timeFar := false }) (timeLost s))

/-- SYNC_RSP (R419, R420): taken by a follower on its upstream port while it waits, from a distance below 32. -/
def execSyncRsp (port : Nat) (frame : List Byte) (s : State) : Res :=
  .next (linkLocal port frame 6 (fun h s =>
    match s.phl.t1, stamp s with
    | some t1, some t4 =>
      if s.phl.role = 2 ∧ port = s.phl.upstream ∧ leAt h 52 1 < 32 then
        let t2 : Int := leAt h 32 8 * 65536 + leAt h 48 2
        let t3 : Int := leAt h 40 8 * 65536 + leAt h 50 2
        timeApply (((t4 - t1) - (t3 - t2)) / 2) (((t2 - t1) + (t3 - t4)) / 2) (leAt h 52 1) s
      else s
    | _, _ => s) s)

/-- SYNC_PERIOD_TIMER (R419, R420): an unanswered exchange is missed; the next SYNC_REQ goes upstream. -/
def execSyncPeriodTimer (s : State) : Res :=
  .next (
    if s.phl.role ≠ 2 ∨ !timeOn s ∨ tick s < s.phl.syncAt + s.phl.syncPeriod then s
    else
      let s := if s.phl.t1.isSome then modPhl (fun x => { x with missed := x.missed + 1, good := 0 }) s else s
      let s := if 8 ≤ s.phl.missed then timeLost s else s
      let s := modPhl (fun x => { x with syncAt := tick s, t1 := stamp s }) s
      if portUp s s.phl.upstream then linkSend s.phl.upstream 5 3 [] s else s)

/-! ### Neighbours (R417) -/

/-- NEIGHBOR (R417): record the neighbour's address and queue ATTACH. -/
def execNeighbor (port : Nat) (frame : List Byte) (s : State) : Res :=
  .next (linkLocal port frame 7 (fun h s =>
    let a := leAt h 48 2 % 4096
    let v := (leAt h 50 1).testBit 0
    phlEvent 1 port 0xFF (if v then a else 0xFFFF) (modPort8 port (fun x => { x with nb := a, nbValid := v }) s)) s)

/-! ### The link layer (R401, R402, R407; block layout: log entry 24) -/

/-- A control block of a kind whose CRC-16 is right, on an UP port: its VC and count (R402). -/
def ctlTake (port kind : Nat) (block : Bytes) (s : State) : Option (Nat × Nat) :=
  if fabOn s ∧ portUp s port ∧ block.length = 8 ∧ leAt block 0 1 = kind ∧ leAt block 6 2 = (crc16ccitt (block.take 6)).toNat then
    some (leAt block 1 1, leAt block 2 2)
  else none

/-- The latest sent sequence number whose low 16 bits are `n`. -/
def seqNear (x : Port) (n : Nat) : Nat :=
  let last := (x.txSeq + 2 ^ 32 - 1) % 2 ^ 32
  (last + 2 ^ 32 - (last + 65536 - n) % 65536) % 2 ^ 32

/-- LINK_ACK (R401): frames up to the count leave the replay buffer. -/
def execLinkAck (port : Nat) (block : List Byte) (s : State) : Res :=
  .next (match ctlTake port 1 block s with
    | some (_, n) => replayAck port (seqNear (portOf s port) n) (heard port s)
    | none => s)

/-- LINK_NAK (R401): the frame, and those after it, are sent again. -/
def execLinkNak (port : Nat) (block : List Byte) (s : State) : Res :=
  .next (match ctlTake port 2 block s with
    | some (_, n) =>
      let q := seqNear (portOf s port) n
      let s := modPort8 port (fun x => { x with
        replay := x.replay.map fun r => if r.1 = q then (r.1, { r.2 with naks := r.2.naks + 1 }) else r }) (heard port s)
      replaySend port q s
    | none => s)

/-- LINK_CREDIT (R407): C follows the count, and the credits returned reach HELD. -/
def execLinkCredit (port : Nat) (block : List Byte) (s : State) : Res :=
  .next (match ctlTake port 3 block s with
    | some (v, n) =>
      if 4 ≤ v then s
      else
        let s := modCred port v (fun c =>
          let d := (n + 65536 - c.back % 65536) % 65536
          { c with held := c.held + d, back := (c.back + d) % 2 ^ 32 }) (heard port s)
        portPump port (portOf s port).queue.length s
    | none => s)

/-- LINK_IDLE (R402, R418): the neighbour is alive. -/
def execLinkIdle (port : Nat) (block : List Byte) (s : State) : Res :=
  .next (match ctlTake port 0 block s with | some _ => heard port s | none => s)

/-- LINK_ACK_TIMEOUT (R401): 10 µs without an acknowledgement of the oldest frame, or 8 NAKs of one frame, retrain the port. -/
def execLinkAckTimeout (port : Nat) (s : State) : Res :=
  .next (
    let x := portOf s port
    if portUp s port ∧ !x.replay.isEmpty ∧ (x.ackAt + 1000 ≤ s.time.refCount ∨ x.replay.any (fun r => decide (8 ≤ r.2.naks))) then
      startRetrain port s
    else s)

/-! ### Training (R400-R402, R408, R418) -/

/-- RETRAIN_DONE (R401, R402): the link is back with the neighbour's last accepted number and occupied units, or full training begins. -/
def execRetrainDone (port : Nat) (ok : Bool) (peerSeq : Nat) (occ : List Nat) (s : State) : Res :=
  .next (
    if !fabOn s ∨ 8 ≤ port ∨ (portOf s port).st ≠ .retrain then s
    else if ok then reachUp port peerSeq occ s
    else modPort8 port (fun x => { x with st := .training, tries := 0 }) s)

/-- Numbers of a fully trained link start again; frames still kept take new ones (log entry 24). -/
def renumber (peerSeq : Nat) (x : Port) : Port :=
  let keep := (x.replay.filter fun r => !decide ((peerSeq + 2 ^ 32 - r.1) % 2 ^ 32 < 2 ^ 31)).map fun r => r.2
  { x with replay := keep.zipIdx.map fun f => (f.2 + 1, f.1), txSeq := keep.length + 1, rxSeq := 0 }

/-- The rate a training attempt uses: 56 Gbit/s when forced or after three failures at 112 (R400). -/
def trainSlow (x : Port) : Bool := x.force56 || decide (3 ≤ x.tries)

/-- PORT_TRAIN_DONE (R400): an attempt ends; UP with its credits and NEIGHBOR, another attempt, or DOWN until the next try. -/
def execPortTrainDone (port : Nat) (ok : Bool) (peerSeq : Nat) (occ : List Nat) (s : State) : Res :=
  .next (
    let x := portOf s port
    if !fabOn s ∨ 8 ≤ port ∨ x.st ≠ .training ∨ !x.enable then s
    else if ok then
      let s := modPort8 port (fun x => { renumber peerSeq x with slow := trainSlow x }) s
      let s := if trainSlow x ∧ !x.force56 then phlEvent 8 port 0xFF 0xFFFF s else s
      reachUp port 0 occ s
    else if trainSlow x then modPort8 port (fun x => { x with st := .down, failedAt := some s.time.refCount }) s
    else modPort8 port (fun x => { x with tries := x.tries + 1 }) s)

/-- TRAIN_RETRY_TIMER (R400): a port failed at both rates tries again every 100 ms. -/
def execTrainRetryTimer (port : Nat) (s : State) : Res :=
  .next (
    let x := portOf s port
    match x.failedAt with
    | some t =>
      if fabOn s ∧ port < 8 ∧ x.st = .down ∧ x.enable ∧ t + 10000000 ≤ s.time.refCount then
        modPort8 port (fun x => { x with st := .training, tries := 0, failedAt := none }) s
      else s
    | none => s)

/-- PORT_LEAVE_UP (R415, R418): the link is lost; DOWN is queued, frames are routed again, and the port trains. -/
def execPortLeaveUp (port : Nat) (s : State) : Res :=
  .next (
    if fabOn s ∧ portUp s port then modPort8 port (fun x => { x with tries := 0 }) (leaveUp port .training s) else s)

/-- REPLAY_DISCARD_TIMER (R402): after 1 ms out of UP the replay buffer is discarded and counted in LOST. -/
def execReplayDiscardTimer (port : Nat) (s : State) : Res :=
  .next (
    match (portOf s port).left with
    | some t =>
      if t + 100000 ≤ s.time.refCount then
        modPort8 port (fun x => { x with dLost := satAdd 0xFF x.dLost x.replay.length, replay := [] }) s
      else s
    | none => s)

/-- Every enabled port has been silent for 1 s (R418). -/
def allSilent (s : State) : Bool :=
  s.phl.ports.all fun x => !x.enable || decide (x.heard + 100000000 ≤ s.time.refCount)

/-- PORT_SILENCE (R418): DETACH, and with every enabled port silent the address is released. -/
def execPortSilence (port : Nat) (s : State) : Res :=
  .next (
    let x := portOf s port
    if !fabOn s ∨ 8 ≤ port ∨ x.silent ∨ s.time.refCount < x.heard + 100000000 then s
    else
      let s := phlEvent 3 port 0xFF (if x.nbValid then x.nb else 0xFFFF)
        (modPort8 port (fun x => { x with silent := true, nb := 0, nbValid := false }) s)
      if s.phl.valid ∧ allSilent s then
        phlEvent 7 0xFF 0xFF s.phl.addr (setAddr false s.phl.addr s)
      else s)

/-! ### Registers that act (PHL_ADDR, PHL_PORT_CTL_p, PHL_MTX, PHL_MRX, PHL_EVT) -/

/-- A write of PHL_ADDR (R410): CONFLICT clears on 1, ADDR and SET only while no address is held, RELEASE clears VALID. -/
def phlAddrWrite (v : Nat) (s : State) : State :=
  let s := if v.testBit 30 then modPhl (fun x => { x with conflict := false }) s else s
  let s := if s.phl.valid then s
    else
      let s := modPhl (fun x => { x with addr := v % 4096 }) s
      if v.testBit 29 then setAddr true (v % 4096) s else s
  if v.testBit 28 ∧ s.phl.valid then setAddr false s.phl.addr s else s

/-- ADDR_SET (R410): PHL_ADDR written with SET. -/
def execAddrSet (value : Nat) (s : State) : Res :=
  .next (regWrote 0 <| if regsOpen s ∧ value.testBit 29 then phlAddrWrite value s else s)

/-- ADDR_RELEASE (R410): PHL_ADDR written with RELEASE. -/
def execAddrRelease (value : Nat) (s : State) : Res :=
  .next (regWrote 0 <| if regsOpen s ∧ value.testBit 28 then phlAddrWrite value s else s)

/-- A write of PHL_PORT_CTL_p (R400, R401). -/
def portCtlWrite (port v : Nat) (s : State) : State :=
  let was := portOf s port
  let s := modPort8 port (fun x => { x with enable := v.testBit 0, force56 := v.testBit 1 }) s
  let s := if !v.testBit 0 then modPort8 port (fun x => { x with failedAt := none }) (leaveUp port .down s)
    else if !was.enable ∨ was.st = .disabled then modPort8 port (fun x => { x with st := .training, tries := 0, failedAt := none }) s
    else s
  if v.testBit 2 then startRetrain port s else s

/-- PORT_RETRAIN (R401): PHL_PORT_CTL_p written with RETRAIN. -/
def execPortRetrain (port value : Nat) (s : State) : Res :=
  .next (regWrote 0 <| if regsOpen s ∧ port < 8 ∧ value.testBit 2 then portCtlWrite port value s else s)

/-- PORT_ENABLE_WRITE (R400): PHL_PORT_CTL_p written. -/
def execPortEnableWrite (port value : Nat) (s : State) : Res :=
  .next (regWrote 0 <| if regsOpen s ∧ port < 8 then portCtlWrite port value s else s)

/-- Send a staged frame: management VC, its SRC, HOPS and PTR 1 set by the device, out of its source route or by the route table; without a
usable port, or table-routed without an address, nothing leaves (R410, R411, R413, R415). -/
def mtxSend (s : State) : State :=
  let h := s.phl.mtx.take 32
  let len := min 256 (fLen h)
  let sr := fSrcrt h
  let b := patch (h ++ slice s.phl.mtx 32 len) 1 (leBytes 1 (3 + leAt h 1 1 / 4 * 4))
  let b := if fSrcValid h then patch b 4 (leBytes 2 s.phl.addr) else b
  let b := if sr then patch b 16 (leBytes 8 (fRoute h - rtPtr (fRoute h) * 2 ^ 48 + 2 ^ 48)) else patch b 6 (leBytes 1 s.phl.hopLimit)
  let b := patch b 8 (leBytes 2 len)
  let p := if sr then some (rtEntry (fRoute h) 0) else if s.phl.valid then routePort s (fDst h) else none
  match p with
  | some q =>
    if portUp s q then portSend q { own b with mtx := true } (modPhl (fun x => { x with mtxBusy := true }) s) else s
  | none => s

/-- MTX_SEND (R413): PHL_MTX_CMD written with SEND; no effect while BUSY. -/
def execMtxSend (s : State) : Res := .next (regWrote 0 <| if regsOpen s ∧ !s.phl.mtxBusy then mtxSend s else s)

/-- A read of PHL_MRX_NEXT: the oldest received frame moves into PHL_MRX_0-71, and the read returns 1, or 0 on an empty queue. -/
def mrxTake (s : State) : Nat × State :=
  match s.phl.mrx with
  | [] => (0, s)
  | h :: rest => (1, modPhl (fun x => { x with mrx := rest, mrxData := padTo 288 h }) s)

/-- A read of PHL_EVT_NEXT: the oldest event moves into PHL_EVT_DATA_0-3, and the read returns 1, or 0 on an empty queue. -/
def evtTake (s : State) : Nat × State :=
  match s.phl.evts with
  | [] => (0, s)
  | e :: rest => (1, modPhl (fun x => { x with evts := rest, evtData := padTo 16 e }) s)

/-- A register read that is answered returns its value (R504). -/
def readOut (r : Nat × State) (s : State) : State := if regsAnswer s then emit (.reg r.1) r.2 else s

/-- MRX_NEXT (R413). -/
def execMrxNext (s : State) : Res := .next (readOut (mrxTake s) s)

/-- EVT_NEXT (R418). -/
def execEvtNext (s : State) : Res := .next (readOut (evtTake s) s)

end Sys2Proof.Machine
end

