-- ==== Sys2Proof/Machine/Metering.lean ====
section
/-!
DEFINITION. Metering: additions over the sill link and the minute receipts (R392-R398).
-/

namespace Sys2Proof.Machine

/-- Apply one addition in keep RAM (R392). -/
def meterApplyOne (m : Mtr) (a : MeterAdd) : Mtr :=
  { m with total := tmod 0 m.total (16 * a.fn + a.cls) fun v => (v + a.units) % 2 ^ 64 }

/-- The meter's word is failed: additions to it wait (R481). -/
def meterFailed (s : State) (a : MeterAdd) : Bool := s.dbg.failedWords.any fun w => decide (w.2 = 16 * a.fn + a.cls + 1)

/-- Apply every addition on its way, in the order of arrival; those whose word is failed wait. -/
def metersFlush (s : State) : State :=
  modMtr (fun m => { (m.adds.filter fun a => !meterFailed s a).foldl meterApplyOne m with adds := m.adds.filter (meterFailed s) }) s

/-- METER_ADD (R392, R481): the oldest addition whose word is good arrives. -/
def execMeterAdd (s : State) : Res :=
  .next (
    match s.mtr.adds.filter fun a => !meterFailed s a with
    | [] => s
    | a :: _ => if s.pwr.main then modMtr (fun m => { meterApplyOne m a with adds := m.adds.erase a }) s else s)

/-- This device latches the meters of function `f` (R395). -/
def metersHeld (s : State) (f : Nat) : Bool :=
  if f = 0 ∨ !s.par.bound then decide (latchCount s ≠ 0) else (latch s (loadOf s f)).holder

/-- The latched totals of function `f`. -/
def fnTotals (s : State) (f : Nat) : List Nat := (List.range 16).map fun k => tget 0 s.mtr.total (16 * f + k)

/-- Bytes +0x00 to +0x157 of a receipt (R396). -/
def rcptBody (s : State) (f seq first last flags : Nat) (prev : Bytes) (delta totals : List Nat) : Bytes :=
  leBytes 4 0x54504352 ++ leBytes 2 1 ++ leBytes 2 f ++ leBytes 8 seq ++ leBytes 8 first ++ leBytes 8 last ++ padTo 16 s.lcy.ident ++
  leBytes 4 flags ++ zeroBytes 4 ++ padTo 32 prev ++ delta.flatMap (fun v => leBytes 8 v) ++ totals.flatMap fun v => leBytes 8 v

/-- A receipt of `f` can be built: a latch, a free slot, the receipt key, and the predecessor's digest (R354, R395, R396). -/
def rcptCan (s : State) (f : Nat) : Bool :=
  metersHeld s f && s.mtr.enable && decide (s.mtr.used + s.mtr.waiting.length < rcptSlots s) && (devSeed s 3).isSome &&
  !(s.mtr.waiting.any fun r => decide (r.fn = f))

/-- Build the receipt of `f` at the edge that ends minute `last`, or defer it (R395). -/
def rcptEdge (last : Nat) (s : State) (f : Nat) : State :=
  let r := rcptOf s f
  if !rcptCan s f then
    modRcpt f (fun r => { r with since := some (r.since.getD last) }) (modMtr (fun m => { m with deferred := satAdd 0xFFFF m.deferred 1 }) s)
  else
    let first := if r.seq ≠ 0 then min (r.minute + 1) last else r.since.getD last
    let t := fnTotals s f
    let d := (List.zip t r.totals).map fun x => (x.1 + 2 ^ 64 - x.2) % 2 ^ 64
    let fl := if s.mtr.restarted ∧ r.seq = 0 then setBit r.flags 3 true else r.flags
    let b := rcptBody s f (r.seq + 1) first last fl r.digest d t
    let s := modRcpt f (fun r => { r with seq := r.seq + 1, minute := last, totals := t, flags := 0, since := none }) s
    modMtr (fun m => { m with waiting := m.waiting ++ [⟨f, b, none, none⟩], final := m.final.filter fun x => decide (x ≠ f) }) s

/-- Functions whose receipts an edge owes: those created and held here, all of them without a partner, and those destroyed since (R395). -/
def rcptDue (s : State) : List Nat :=
  let c := (createdFns s).filter fun f => !s.par.bound || metersHeld s f
  c ++ s.mtr.final.filter fun f => !(c.contains f)

/-- MINUTE_EDGE (R395): device time has passed the end of a minute; additions of before the edge are in. -/
def execMinuteEdge (s : State) : Res :=
  .next (
    match s.time.dev with
    | none => s
    | some t =>
      let m := t / 60000000
      if !s.pwr.main then s
      else match s.mtr.lastMinute with
        | none => modMtr (fun x => { x with lastMinute := some m }) s
        | some k =>
          if m ≤ k then s
          else
            let s := modMtr (fun x => { x with lastMinute := some m }) (metersFlush s)
            (rcptDue s).foldl (rcptEdge (m - 1)) s)

/-- RECEIPT_SIGNED (R355, R396, R397): the oldest unsigned receipt is signed, shown to the partner, and written as soon as it may be. -/
def execReceiptSigned (s : State) : Res :=
  .next (
    match s.mtr.waiting.find? fun r => r.sig.isNone, devSeed s 3 with
    | some r, some seed =>
      if !s.pwr.main then s
      else
        let sig := slhSign slh256f seed (ascii "EHROS-RCPT" ++ r.body)
        let all := r.body ++ sig
        let q := nextMseq s
        let s := modRcpt r.fn (fun x => { x with digest := shake256 32 all }) s
        let s := modMtr (fun m => { m with waiting := m.waiting.map fun x => if x.fn = r.fn then { x with sig := some sig, mseq := q } else x }) s
        rcptSettle (mirrorSend 6 (loadByte s r.fn) all s)
    | _, _ => s)

/-- RCPT_HEAD_WRITE (R397): slots up to HEAD are consumed; a HEAD out of range is ignored. -/
def execRcptHeadWrite (head : Nat) (s : State) : Res :=
  .next (regWrote 0 <|
    let n := rcptSlots s
    let k := (head + n - s.mtr.head) % n
    if !regsOpen s ∨ n ≤ head ∨ s.mtr.used < k then s
    else modMtr (fun m => { m with head := head, used := m.used - k }) s)

end Sys2Proof.Machine
end

