-- ==== Sys2Proof/Machine/CoreOps.lean ====
section
/-!
DEFINITION. The shared operations of the Idnel cores: the address map and its checks (R196-R199, R283-R287), loads and stores
(R198-R200, R205), slots and their end (R193-R206), faults and the context reset (R226-R228).
-/

namespace Sys2Proof.Machine

/-! ### The address map (R196) -/

/-- Access kinds (R293 KIND). -/
inductive Acc where
  | read | write | exec | movRead | movWrite
deriving DecidableEq, Repr

/-- KIND code of a violation report. -/
def accCode : Acc → Nat
  | .read => 0 | .write => 1 | .exec => 2 | .movRead => 3 | .movWrite => 4

/-- The access writes. -/
def accWrites : Acc → Bool
  | .write | .movWrite => true
  | _ => false

/-- One row of the map: range, then read, write, execute rights in firmware mode and in program mode. -/
structure MapRow where
  lo : Nat
  hi : Nat
  fw : Bool × Bool × Bool
  pr : Bool × Bool × Bool

/-- The fixed rows of R196; the program area and staging of program mode are given by IMG and the logical core. -/
def mapRows (img : Nat) (imgLen : Nat) (k : Nat) : List MapRow :=
  [⟨0, 0x7FFF, (true, true, true), (false, false, false)⟩, ⟨0x8000, 0xEFFF, (true, true, false), (true, true, false)⟩,
   ⟨0xFF00, 0xFF3F, (true, false, false), (true, false, false)⟩, ⟨0xFF40, 0xFF7F, (true, false, false), (true, false, false)⟩] ++
  [⟨0x10000000, 0x1003FFFF, (true, false, true), (false, false, false)⟩,
   ⟨0x10040000, 0x1007FFFF, (true, true, false), (false, false, false)⟩,
   ⟨img, img + imgLen - 1, (false, false, false), (imgLen ≠ 0, false, imgLen ≠ 0)⟩,
   ⟨0x100E0000, 0x100FFFFF, (true, true, false), (false, false, false)⟩] ++
  [⟨0x100E0000 + 0x4000 * k, 0x100E3FFF + 0x4000 * k, (false, false, false), (true, true, false)⟩,
   ⟨0x20000000, 0x20FFFFFF, (true, true, false), (false, false, false)⟩,
   ⟨0x80000000, 0xBFFFFFFF, (true, false, false), (true, false, false)⟩,
   ⟨0xC0000000, 0xFFFFFFFF, (true, true, false), (true, true, false)⟩]

/-- A row grants an access kind in a mode; movers use the firmware column (R283). -/
def rowGrants (r : MapRow) (prog : Bool) (k : Acc) : Bool :=
  match k with
  | .read => if prog then r.pr.1 else r.fw.1
  | .write => if prog then r.pr.2.1 else r.fw.2.1
  | .exec => if prog then r.pr.2.2 else r.fw.2.2
  | .movRead => if prog then r.pr.1 else r.fw.1
  | .movWrite => if prog then r.pr.2.1 else r.fw.2.1

/-- The first byte from `a` up to `stop` that the fixed map refuses (R196). -/
def mapForbidden (rows : List MapRow) (prog : Bool) (k : Acc) (stop : Nat) : Nat → Nat → Option Nat
  | 0, a => if a < stop then some a else none
  | n + 1, a =>
    if stop ≤ a then none
    else match rows.find? fun r => decide (r.lo ≤ a) && decide (a ≤ r.hi) && rowGrants r prog k with
      | none => some a
      | some r => mapForbidden rows prog k stop n (r.hi + 1)

/-- The host pieces of bytes `off` to `off + n` of a buffer made of pieces (R197): address and length of each, with fuel. -/
def bufPieces : List (Nat × Nat) → Nat → Nat → List (Nat × Nat)
  | [], _, _ => []
  | (a, l) :: ps, off, n =>
    if n = 0 then []
    else if l ≤ off then bufPieces ps (off - l) n
    else
      let m := min n (l - off)
      (a + off, m) :: bufPieces ps 0 (n - m)

/-- Total length of a buffer. -/
def bufLen (ps : List (Nat × Nat)) : Nat := (ps.map fun x => x.2).sum

/-- The first host byte of the pieces that the pane's host regions refuse: its core offset from the start, host address, region, cause. -/
def piecesForbidden (rs : List HostRegion) (prog write : Bool) : Nat → List (Nat × Nat) → Option (Nat × Nat × Nat × Nat)
  | _, [] => none
  | off, (a, l) :: ps =>
    match firstForbidden rs prog write (a + l) (rs.length + 1) a with
    | some x => some (off + (x.1 - a), x)
    | none => piecesForbidden rs prog write (off + l) ps

/-- Length of the image a core runs, from its header (R229). -/
def imgLenOf (s : State) (p : Nat) : Nat :=
  let c := core s p
  if c.img = 0 then 0
  else leNat (mread s.cpu.scratch (coreCluster p * 2 ^ 20 + (c.img - 0x10000000) + 0x10) 4)

/-- Refusal of a core access: the violation report, none when every byte is allowed (R283, R287). -/
def coreRefusal (s : State) (p : Nat) (k : Acc) (a n : Nat) : Option VioReport :=
  let c := core s p
  let ck := checker s p
  let pane := activePane ck
  let rep := fun (addr region cause space : Nat) (off : Nat) =>
    (⟨addr, timeField s, accCode k, p, region, cause, pane.func, ck.activeB, space, n, off⟩ : VioReport)
  match mapForbidden (mapRows c.img (imgLenOf s p) ((logicalOf s p).getD 0)) c.prog k (a + n) 4 a with
  | some b => some (rep b 0xFF 3 0 (b - a))
  | none =>
    if a < 0x80000000 then none
    else
      let isIn := decide (a < 0xC0000000)
      let ps := if isIn then c.inList else c.outList
      let off := if isIn then c.winIn + (a - 0x80000000) else c.winOut + (a - 0xC0000000)
      let len := bufLen ps
      if len < off + n then
        let b := if len ≤ off then a else a + (len - off)
        some (rep b (if isIn then 3 else 4) 4 0 (b - a))
      else (piecesForbidden pane.regions c.prog (accWrites k) 0 (bufPieces ps off n)).map fun x =>
        rep x.2.1 x.2.2.1 x.2.2.2 1 x.1

/-! ### Memory (R198-R200) -/

/-- A byte of the core's space below the host window, before the store buffer. -/
def coreByte (s : State) (p a : Nat) : Byte :=
  if a < 0x10000 then tget 0 (core s p).mem a
  else if a < 0x20000000 then tget 0 s.cpu.scratch (coreCluster p * 2 ^ 20 + (a - 0x10000000))
  else if 0x20FFFFE0 ≤ a then statusByte s (a - 0x20FFFFE0)
  else tget 0 s.mov.shared (a - 0x20000000)

/-- The newest store-buffer byte at an address. -/
def storeByte (st : List PStore) (a : Nat) : Option Byte :=
  st.foldl (fun acc e => if e.addr ≤ a ∧ a < e.addr + e.data.length then some (e.data.getD (a - e.addr) 0) else acc) none

/-- Read bytes of the core's internal space; a core's loads see its own earlier stores (R199). -/
def coreRead (s : State) (p a n : Nat) : Bytes :=
  (List.range n).map fun i => (storeByte (core s p).stores (a + i)).getD (coreByte s p (a + i))

/-- Write bytes of the core's internal space. -/
def coreWrite (p a : Nat) (d : Bytes) (s : State) : State :=
  if a < 0x10000 then modCore p (fun c => { c with mem := mwrite c.mem a d }) s
  else if a < 0x20000000 then
    modCpu (fun c => { c with scratch := mwrite c.scratch (coreCluster p * 2 ^ 20 + (a - 0x10000000)) d }) s
  else modMov (fun m => { m with shared := mwrite m.shared (a - 0x20000000) d }) s

/-- Issue the host writes of bytes in the output aperture piece by piece (R197), unless it is closed (R224). -/
def outWrite (p off : Nat) (d : Bytes) (s : State) : State :=
  let c := core s p
  if c.closed then s
  else
    ((bufPieces c.outList off d.length).foldl (fun (acc : Nat × State) x =>
      (acc.1 + x.2, emitAll (writesOf s c.func x.1 (slice d acc.1 x.2) true) acc.2)) (0, s)).2

/-- Perform one buffered store: local memory, cluster scratch, shared scratch, or the host through the output aperture, under the WIN_OUT that the
store was issued under (R197, R200). -/
def doStore (p : Nat) (e : PStore) (s : State) : State :=
  if e.addr < 0x80000000 then coreWrite p e.addr e.data s else outWrite p (e.win + (e.addr - 0xC0000000)) e.data s

/-- Every store of the buffer takes effect, in order (R199). -/
def storeFlush (p : Nat) (s : State) : State :=
  modCore p (fun c => { c with stores := [] }) ((core s p).stores.foldl (fun s e => doStore p e s) s)

/-- The host address of every byte of some pieces. -/
def hostAddrs (ps : List (Nat × Nat)) : List Nat := ps.flatMap fun x => (List.range x.2).map fun i => x.1 + i

/-- The host bytes that buffered stores will write, oldest first; a closed aperture drops them (R224). -/
def storeHost (c : Core) : List (Nat × Byte) :=
  if c.closed then []
  else c.stores.flatMap fun e =>
    if e.addr < 0x80000000 then []
    else (hostAddrs (bufPieces c.outList (e.win + (e.addr - 0xC0000000)) e.data.length)).zip e.data

/-- What a core's own buffered stores give for the bytes of host pieces (R199). -/
def hostOver (c : Core) (ps : List (Nat × Nat)) : List (Option Byte) :=
  (hostAddrs ps).map fun a => ((storeHost c).filter fun x => decide (x.1 = a)).getLast?.map fun x => x.2

/-- Bytes with those of the core's own stores laid over them. -/
def overlay (own : List (Option Byte)) (d : Bytes) : Bytes := d.zipIdx.map fun x => ((own.getD x.2 none).getD x.1)

/-- The host pieces of an aperture address (R197). -/
def aperture (c : Core) (a n : Nat) : List (Nat × Nat) :=
  if a < 0xC0000000 then bufPieces c.inList (c.winIn + (a - 0x80000000)) n else bufPieces c.outList (c.winOut + (a - 0xC0000000)) n

/-- Extra cycles of a region, without the host read time (R200). -/
def regionExtra (a : Nat) : Nat := if a < 0x10000 then 0 else if a < 0x20000000 then 8 else if a < 0x80000000 then 22 else 60

/-- Ask the host for the bytes of an aperture address. -/
def hostAsk (p a n : Nat) (s : State) : State :=
  hostReads (core s p).func (aperture (core s p) a n) s

/-- A host load of the core is not answered yet. -/
def loadsOwed (c : Core) : Bool := c.loads.any fun l => l.val.isNone

/-- A buffered store that goes to a strict host region (R289). -/
def storeStrict (s : State) (c : Core) (e : PStore) : Bool :=
  decide (0x80000000 ≤ e.addr) && (bufPieces c.outList (e.win + (e.addr - 0xC0000000)) e.data.length).any fun x => strictAt s c.func x.1

/-- A host load waits for ORDER strict: of its own region, until every earlier access is issued and every read answered; of an earlier store, until
that store is issued (R289). -/
def strictWaits (s : State) (c : Core) (a n : Nat) : Bool :=
  ((aperture c a n).any (fun x => strictAt s c.func x.1) && (loadsOwed c || !c.stores.isEmpty)) || c.stores.any (storeStrict s c)

/-! ### Slots -/

/-- What a slot does: the next state, a wait with no effect, or a fault with its violation report. -/
inductive SlotR where
  | ok (s : State)
  | wait
  | fault (kind : Nat) (vio : Option VioReport)

/-- A load is due: it lands before the next slot runs (R205). -/
def loadDue (c : Core) : Bool := c.loads.any fun l => decide (2 ≤ l.age)

/-- Core `p` takes a slot now. -/
def coreGoes (s : State) (p : Nat) : Bool :=
  let c := core s p
  s.pwr.main && decide (c.st = .run) && !loadDue c && !(c.prog && decide (c.budget = 0))

/-- An armed injection waits for unit `unit` at the point of detector `det` (R483). -/
def injWaits (s : State) (det unit : Nat) : Bool := (injTake det unit s).1.isSome

/-- Core `p` can run a slot now: it takes one, and no stack parity error meets it (R475). -/
def canRun (s : State) (p : Nat) : Bool := coreGoes s p && !injWaits s 0x08 p

/-- Charge cycles to CYC, and to BUDGET in program mode (R203, R233). -/
def charge (n : Nat) (c : Core) : Core :=
  { c with cyc := (c.cyc + n) % 2 ^ 32, budget := if c.prog then c.budget - n else c.budget }

/-- A slot ends: its cycles are charged and pending loads age (R205). -/
def endSlot (n : Nat) (c : Core) : Core :=
  charge n { c with loads := c.loads.map fun l => { l with age := l.age + 1 } }

/-- Completion status of a fault kind (R227). -/
def faultStatus (kind : Nat) : Nat := if kind = 7 then 0x0104 else 0x010A

/-- Zeroes over the command area and the spill area (R213). -/
def clearArea (m : Tab Byte) : Tab Byte := m.filter fun e => decide (e.1 < 0x8000) || decide (0xFEFF < e.1)

/-- Clear a core's own staging area in cluster scratch (R213). -/
def clearStaging (p : Nat) (s : State) : State :=
  let b := coreCluster p * 2 ^ 20 + 0xE0000 + 0x4000 * (logicalOf s p).getD 0
  modCpu (fun c => { c with scratch := c.scratch.filter fun e => decide (e.1 < b) || decide (b + 0x4000 ≤ e.1) }) s

/-- What a core clears after RELEASE and after a fault (R213). -/
def clearWork (p : Nat) (s : State) : State :=
  clearStaging p (modCore p (fun c => { c with mem := clearArea c.mem, bs := [] }) s)

/-- A core has a mover-port request on a channel. -/
def portWaits (s : State) (p : Nat) : Bool :=
  s.mov.chans.any fun c => (c.2.reqs ++ c.2.cur.toList).any fun d => decide ((d.port.map fun x => x.1) = some p)

/-- A core's mover-port requests are abandoned: those not begun are withdrawn, the one running drops its writes (R226). -/
def portAbandon (p : Nat) (s : State) : State :=
  let mine := fun (d : MovDesc) => decide ((d.port.map fun x => x.1) = some p)
  modMov (fun m => { m with chans := m.chans.map fun c => (c.1, { c.2 with
    reqs := c.2.reqs.filter (fun d => !mine d), dropped := c.2.dropped || c.2.cur.any mine }) }) s

/-- The context reset of a fault at instruction address `pc` (R226-R228). -/
def faultReset (p kind pc : Nat) (s : State) : State :=
  let c := core s p
  let s := storeFlush p (countCore 0x00A p 1 none s)
  let s := missLeave p (portAbandon p (laneAbandon p s))
  let s := modCore p (fun c => { c with
    st := .run, ds := [], cached := 0, rs := [], bs := [], bnk := 0, s0 := Stream.blank, s1 := Stream.blank, winIn := 0, winOut := 0,
    fault := kind * 2 ^ 28 + b2n c.prog * 2 ^ 26 + faultStatus kind, faultPc := pc, pc := c.fwFault, prog := false, img := 0,
    budget := 0xFFFFFFFF, ctxKeep := 2048, pins := [], fuse := none, lone := false, stall := false, issueWait := false, loads := [], stores := [],
    reqs := [], closed := true }) s
  let s := clearWork p s
  if c.tok.isNone ∧ !c.prog ∧ !c.expired ∧ !c.reset ∧ !c.dropped then healthReport 7 (leBytes 2 p) s else s

/-- A fault, with the violation report of a refused access (R226, R293). -/
def coreFault (p kind pc : Nat) (vio : Option VioReport) (s : State) : State :=
  faultReset p kind pc (match vio with | some v => vioQueue v s | none => s)

/-- The branches of R193, in which a fused LIT16 is sign-extended: BRA, BZ, BNZ, CALL, NEXT. -/
def fuseBranch : List Nat := [0x40, 0x41, 0x42, 0x43, 0x46]
/-- The opcodes with which a literal before them fuses (R193): the branches, LD, ST, LDB, STB, PICK, SRR. -/
def fuseOps : List Nat := fuseBranch ++ [0x50, 0x51, 0x52, 0x53, 0x0F, 0x5E]

/-- The core as the instruction sees it: a fused literal on top of the stack, the program counter past the slot (R193). -/
def slotCore (c : Core) (len : Nat) : Core :=
  match c.fuse with
  | some f => { c with fuse := none, lone := false, stall := false, issueWait := false, ds := f.1 :: c.ds, cached := c.cached + 1, pc := (c.pc + len) % 2 ^ 32 }
  | none => { c with lone := false, stall := false, issueWait := false, pc := (c.pc + len) % 2 ^ 32 }

/-- Address of the slot: the pair's first byte when fused. -/
def slotPc (c : Core) : Nat := match c.fuse with | some f => f.2.1 | none => c.pc

/-- An instruction that decode did not see next: one that would fuse after a literal that stood alone, or another than a literal waits for
(R193). `op` is the opcode of a fusing instruction, else 0. -/
def misfit (c : Core) (op : Nat) : Bool := match c.fuse with | some f => decide (f.2.2 ≠ op) | none => c.lone && decide (op ≠ 0)

/-- Pop `n` entries through the stack cache: an empty cache with spilled entries fills 4 at 1 cycle (R204). Entries cached, cycles added. -/
def cachePop : Nat → Nat → Nat → Nat × Nat
  | 0, cached, _ => (cached, 0)
  | n + 1, cached, depth =>
    let fill := decide (cached = 0) && decide (0 < depth)
    let c := if fill then min 4 depth else cached
    let r := cachePop n (c - 1) (depth - 1)
    (r.1, r.2 + b2n fill)

/-- Push `n` entries through the stack cache: a full cache spills 4 at 1 cycle (R204). -/
def cachePush : Nat → Nat → Nat × Nat
  | 0, cached => (cached, 0)
  | n + 1, cached =>
    let r := cachePush n ((if cached = 16 then 12 else cached) + 1)
    (r.1, r.2 + if cached = 16 then 1 else 0)

/-- The stack cache after an instruction that popped `pops` of `before` entries and left `after` (R204). -/
def cacheStep (pops before after : Nat) (c : Core) : Core :=
  let a := cachePop (min pops before) c.cached before
  let b := cachePush (after + pops - before) a.1
  charge (a.2 + b.2) { c with cached := b.1 }

/-- The sample of a slot that has completed: the core counts down the slots that match, and at 0 the slot is sampled and the count reloads
(R496). -/
def sampleSlot (p pc : Nat) (idle : Bool) (s : State) : State :=
  let c := core s p
  let m := s.cnt.samps.getD (coreCluster p) Samp.blank
  let held := c.tok.isSome || c.expired || c.reset || c.dropped
  let on := m.enable && (match logicalOf s p with | some k => m.cores.testBit k | none => false) &&
    (if idle then m.sIdle else if c.prog then m.sProg else m.sFw) && (!m.funcEn || (held && decide (c.func = m.func)))
  if !on then s
  else
    let lf := Config.lfsrNext 32 c.sampLfsr
    let load := m.period + c.sampLfsr % 2 ^ m.jitter
    let left := if c.sampLeft = 0 then load else c.sampLeft
    if left ≤ 1 then
      modCore p (fun c => { c with
        sampLeft := load, sampLfsr := lf, sampDue := c.sampDue ++ [(pc, if held then c.func else 0, c.prog, tick s % 2 ^ 32)] }) s
    else modCore p (fun c => { c with sampLeft := left - 1 }) s

/-- A slot of core `p` at `pc` has completed in `n` cycles, `x` of them spills and fills: counters and sample (R488, R496). -/
def slotDone (p pc n x : Nat) (s : State) : State :=
  let c := core s p
  let s := if c.tok.isSome ∨ c.expired ∨ c.reset ∨ c.dropped then countCore 0x001 p n none s else s
  sampleSlot p pc false (countCore 0x007 p x none (countCore 0x002 p 1 none s))

/-- A stack parity detection on a core is reported; a second one within 1 s condemns the core, or, for an injection without FULL, shows the fence it
withholds (R475, R483). -/
def parityNote (p : Nat) (test full : Bool) (s : State) : State :=
  let c := core s p
  let h := coreHolds c
  let act := 2 * b2n h
  let say := fun (sev a : Nat) => errReport 0x08 sev (act + a) p (if h then c.func else 0) 0 0 test
  let last := tget 0 s.dbg.parityAt p
  let s := modDbg (fun d => { d with parityAt := tset 0 d.parityAt p (s.time.refCount + 1) }) s
  if last ≠ 0 ∧ s.time.refCount < last + 100000000 then
    if full then modDbg (fun d => { d with fenceDue := d.fenceDue ++ [p] }) (say 2 4 s) else say 2 0x20 s
  else say 1 0 s

/-- An injected error at the stack parity of a core that takes a slot: parity corrects nothing, so the command faults with kind 13 (R227, R475). -/
def parityHit (p pc : Nat) (s : State) : State :=
  match injTake 0x08 p s with
  | (some x, s) => coreFault p 13 pc none (parityNote p true x.2 s)
  | (none, s) => s

/-- A slot of a core that ends in a fault of its own, unless a stack parity error meets it first. -/
def coreTake (p pc : Nat) (f : State → State) (s : State) : State := if injWaits s 0x08 p then parityHit p pc s else f s

/-- An uncorrectable error in a core's memory: its command ends with 0x0403 and writes no more output (R475). -/
def coreHit (p : Nat) (s : State) : State :=
  let c := core s p
  if !coreHolds c then s
  else
    modCore p (fun c => { c with
      st := .release 0x0403 0, closed := true, prog := false, stall := false, issueWait := false, pc := if c.prog then c.fwRet else c.askPc, stores := [], loads := [], reqs := [],
      units := earlyUnits (dOpcode (mread c.mem 0xFF00 64)) c.cyc }) (missLeave p (portAbandon p (laneAbandon p s)))

/-- The read of a core's local memory or of its cluster's scratch passes its ECC (R475): an error ends the command; local memory's condemns the core,
and the scratch line goes to a spare with the program image it held dropped. -/
def memPass (p a : Nat) (s : State) : Bool × State :=
  let cl := coreCluster p
  let c := core s p
  let h := coreHolds c
  let f := if h then c.func else 0
  let act := 2 * b2n h
  if a < 0x10000 then
    match injTake 0x05 p s with
    | (none, s) => (true, s)
    | (some (0, _), s) => (true, errCorrected 0x05 s)
    | (some (_, full), s) =>
      let s := errReport 0x05 2 (act + if full then 4 else 0x20) p f a 0 true s
      (false, coreHit p (if full then modDbg (fun d => { d with fenceDue := d.fenceDue ++ [p] }) s else s))
  else if 0x10000000 ≤ a ∧ a < 0x20000000 then
    match injTake 0x06 cl s with
    | (none, s) => (true, s)
    | (some (0, _), s) => (true, errCorrected 0x06 s)
    | (some _, s) =>
      let lost := fun (g : Image) => decide (g.cluster = cl) && decide (0x10040000 + 0x8000 * g.place ≤ a) && decide (a < 0x10048000 + 0x8000 * g.place)
      let s := modCpu (fun x => { x with images := x.images.filter fun g => !lost g }) s
      (false, coreHit p (errReport 0x06 1 act cl f a 0 true s))
  else (true, s)

/-- Run one slot of `len` bytes and `cost` cycles on core `p`; `op` is the opcode of an instruction that fuses, else 0 (R193). A data stack above
976 entries is fault kind 3 (R204), and a slot that waits has begun (R195). -/
def slot (p len cost pops op : Nat) (f : Core → State → SlotR) (s : State) : State :=
  let c := core s p
  if !coreGoes s p ∨ misfit c op then s
  else if injWaits s 0x08 p then parityHit p (slotPc c) s
  else match f (slotCore c len) s with
    | .wait => modCore p (fun c => { c with stall := true }) s
    | .fault k v => coreFault p k (slotPc c) v s
    | .ok s' =>
      let c' := core s' p
      if 976 < c'.ds.length then coreFault p 3 (slotPc c) none s
      else
        let x := cacheStep pops (slotCore c len).ds.length c'.ds.length c'
        let y := endSlot cost x
        slotDone p (slotPc c) ((y.cyc + 2 ^ 32 - c.cyc) % 2 ^ 32) ((x.cyc + 2 ^ 32 - c'.cyc) % 2 ^ 32) (setCore p y s')

/-- A slot that changes its core alone. -/
def coreSlot (p len cost pops op : Nat) (f : Core → Except Nat Core) (s : State) : State :=
  slot p len cost pops op (fun c s => match f c with | .ok c' => .ok (setCore p c' s) | .error k => .fault k none) s

/-- A data-stack operation taking `n` entries, top first in the list it is given: underflow and overflow are fault kind 3 (R204). -/
def dsOp (n : Nat) (f : List W32 → List W32) (c : Core) : Except Nat Core :=
  if c.ds.length < n then .error 3
  else
    let r := f (c.ds.take n) ++ c.ds.drop n
    if 976 < r.length then .error 3 else .ok { c with ds := r }

/-- An instruction on the data stack alone, 1 byte. -/
def dsSlot (p cost n op : Nat) (f : List W32 → List W32) (s : State) : State :=
  coreSlot p 1 cost n op (dsOp n f) s

/-- A flag: all ones or zero. -/
def flag (b : Bool) : W32 := if b then 0xFFFFFFFF else 0

/-- Load `n` bytes (1 or 4) at core address `a` into stack position `pos` (R205): internal data is read in this slot, host data is asked for,
and the core's own earlier stores are seen (R199). -/
def loadAt (p a n pos : Nat) (c : Core) (s : State) : SlotR :=
  if n = 4 ∧ a % 4 ≠ 0 then .fault 6 none
  else match coreRefusal s p .read a n with
    | some v => .fault 7 (some v)
    | none =>
      if 0x80000000 ≤ a ∧ strictWaits s c a n then .wait else
      let x := memPass p a s
      let s := if a < 0x10000 then x.2 else countCore 0x008 p 1 (some (0, a)) x.2
      if !x.1 then .ok s
      else if a < 0x80000000 then
        .ok (setCore p { c with loads := c.loads ++ [⟨pos, some (leNat (coreRead s p a n)), n, regionExtra a, 0, []⟩] } s)
      else
        .ok (hostAsk p a n (setCore p { c with loads := c.loads ++ [⟨pos, none, n, regionExtra a, 0, hostOver c (aperture c a n)⟩] } s))

/-- Store bytes at core address `a` through the 8-entry store buffer; a full buffer waits (R198-R200). -/
def storeAt (p a : Nat) (d : Bytes) (c : Core) (s : State) : SlotR :=
  if (d.length = 4 ∧ a % 4 ≠ 0) ∨ (d.length = 16 ∧ a % 16 ≠ 0) then .fault 6 none
  else match coreRefusal s p .write a d.length with
    | some v => .fault 7 (some v)
    | none => if 8 ≤ c.stores.length then .wait else .ok (setCore p { c with stores := c.stores ++ [⟨a, d, c.winOut⟩] } s)

/-- The core address of a short address under BNK (R198). -/
def bankAddr (c : Core) (sa : W32) : Nat := c.bnk * 65536 + sa.toNat % 65536

/-- The stream address of a pointer, none for the reserved mode (R208). -/
def streamAddr (st : Stream) : Option Nat :=
  match st.mode % 4 with
  | 0 => some ((st.base + st.idx * st.stride) % 2 ^ 32)
  | 1 => some ((st.base + (st.idx * st.stride) % st.len) % 2 ^ 32)
  | 2 => some ((st.base + st.stride * bitrev (bitsOf st.mode 12 8) st.idx) % 2 ^ 32)
  | _ => none

/-- Advance IDX (R208). -/
def streamNext (st : Stream) : Stream := { st with idx := (st.idx + 1) % 65536 }

/-- The value of a special register, none when the number is undefined or not readable in the mode. -/
def srRead (c : Core) (n : Nat) : Option Nat :=
  match n with
  | 0 => some c.s0.base | 1 => some c.s0.idx | 2 => some c.s0.stride | 3 => some c.s0.len | 4 => some c.s0.mode
  | 8 => some c.s1.base | 9 => some c.s1.idx | 10 => some c.s1.stride | 11 => some c.s1.len | 12 => some c.s1.mode
  | 16 => some (c.winIn % 2 ^ 32) | 17 => some (c.winIn / 2 ^ 32) | 18 => some (c.winOut % 2 ^ 32) | 19 => some (c.winOut / 2 ^ 32)
  | 24 => some c.cyc | 25 => some (if c.prog then c.budget else 0xFFFFFFFF) | 26 => some c.img
  | 27 => if c.prog then none else some c.fault
  | 28 => if c.prog then none else some c.faultPc
  | 29 => if c.prog then none else some c.fwRet
  | 30 => if c.prog then none else some c.fwFault
  | 31 => some c.ctxKeep
  | 32 => some (2 * b2n c.reset + b2n c.expired)
  | _ => none

/-- Write one register of a stream pointer. -/
def streamWrite (st : Stream) (r x : Nat) : Stream :=
  match r with
  | 0 => { st with base := x }
  | 1 => { st with idx := x % 65536 }
  | 2 => { st with stride := x % 65536 }
  | 3 => { st with len := if x = 0 ∨ 65536 < x then 65536 else x }
  | _ => { st with mode := bitsOf x 12 8 * 256 + x % 4 }

/-- Write a special register, none when the number is undefined or not writable in the mode. -/
def srWrite (c : Core) (n x : Nat) : Option Core :=
  match n with
  | 0 | 1 | 2 | 3 | 4 => some { c with s0 := streamWrite c.s0 n x }
  | 8 | 9 | 10 | 11 | 12 => some { c with s1 := streamWrite c.s1 (n - 8) x }
  | 16 => some { c with winIn := c.winIn / 2 ^ 32 * 2 ^ 32 + x / 4096 * 4096 }
  | 17 => some { c with winIn := x * 2 ^ 32 + c.winIn % 2 ^ 32 }
  | 18 => some { c with winOut := c.winOut / 2 ^ 32 * 2 ^ 32 + x / 4096 * 4096 }
  | 19 => some { c with winOut := x * 2 ^ 32 + c.winOut % 2 ^ 32 }
  | 29 => if c.prog then none else some { c with fwRet := x }
  | 30 => if c.prog then none else some { c with fwFault := x }
  | 31 => if c.prog then none else some { c with ctxKeep := min 2048 x }
  | _ => none

end Sys2Proof.Machine
end

