-- ==== Sys2Proof/Machine/Isa.lean ====
section
/-!
DEFINITION. The Idnel core instructions of the stacks, arithmetic, logic, branches, memory, special registers and block stack
(R192-R211), one meaning per opcode; and the core events that are no instruction (R196, R199, R201, R205, R233).
-/

namespace Sys2Proof.Machine

/-! ### Literals and the data stack -/

/-- NOP does nothing (opcode 0x00, R203). -/
def execOpNop (core : Nat) (s : State) : Res :=
  .next (dsSlot core 1 0 0 (fun l => l) s)

/-- A literal that fuses with the next instruction waits for it: no slot ends (R193). -/
def fuseLit (p len op : Nat) (v : W32) (s : State) : State :=
  let c := core s p
  if !coreGoes s p ∨ c.fuse.isSome then s
  else modCore p (fun c => { c with fuse := some (v, c.pc, op), lone := false, pc := (c.pc + len) % 2 ^ 32 }) s

/-- A literal pushed in a slot of its own; `lone` says that decode looked for an instruction to fuse with and saw another (R193). -/
def pushLit (p len : Nat) (lone : Bool) (v : W32) (s : State) : State :=
  coreSlot p len 1 0 0 (fun c => dsOp 0 (fun _ => [v]) { c with lone := lone }) s

/-- A short literal: decode fuses it with the opcode after it whenever the two make a pair of R193. -/
def shortLit (p len next : Nat) (alone branch : W32) (s : State) : State :=
  if fuseOps.contains next then fuseLit p len next (if fuseBranch.contains next then branch else alone) s else pushLit p len true alone s

/-- LIT8 pushes its byte sign-extended, or fuses with the next instruction (opcode 0x01, R192, R193). -/
def execOpLit8 (core imm next : Nat) (s : State) : Res :=
  let v := (BitVec.ofNat 8 imm).signExtend 32
  .next (shortLit core 2 next v v s)

/-- LIT16 pushes its halfword zero-extended; fused with a branch it is sign-extended (opcode 0x02, R192, R193). -/
def execOpLit16 (core imm next : Nat) (s : State) : Res :=
  .next (shortLit core 3 next ((BitVec.ofNat 16 imm).zeroExtend 32) ((BitVec.ofNat 16 imm).signExtend 32) s)

/-- LIT32 pushes its word (opcode 0x03, R192). -/
def execOpLit32 (core imm : Nat) (s : State) : Res :=
  .next (pushLit core 5 false (BitVec.ofNat 32 imm) s)


/-- DUP duplicates the top (opcode 0x08, R203). -/
def execOpDup (core : Nat) (s : State) : Res :=
  .next (dsSlot core 1 1 0 (fun l => l.getD 0 0 :: l) s)

/-- DROP drops the top (opcode 0x09, R203). -/
def execOpDrop (core : Nat) (s : State) : Res :=
  .next (dsSlot core 1 1 0 (fun _ => []) s)

/-- SWAP swaps the top two (opcode 0x0A, R203). -/
def execOpSwap (core : Nat) (s : State) : Res :=
  .next (dsSlot core 1 2 0 (fun l => [l.getD 1 0, l.getD 0 0]) s)

/-- OVER copies the second entry to the top (opcode 0x0B, R203). -/
def execOpOver (core : Nat) (s : State) : Res :=
  .next (dsSlot core 1 2 0 (fun l => l.getD 1 0 :: l) s)

/-- ROT rotates the top three: a b c becomes b c a (opcode 0x0C, R203). -/
def execOpRot (core : Nat) (s : State) : Res :=
  .next (dsSlot core 1 3 0 (fun l => [l.getD 2 0, l.getD 0 0, l.getD 1 0]) s)

/-- NIP removes the second entry (opcode 0x0D, R203). -/
def execOpNip (core : Nat) (s : State) : Res :=
  .next (dsSlot core 1 2 0 (fun l => [l.getD 0 0]) s)

/-- TUCK copies the top below the second (opcode 0x0E, R203). -/
def execOpTuck (core : Nat) (s : State) : Res :=
  .next (dsSlot core 1 2 0 (fun l => [l.getD 0 0, l.getD 1 0, l.getD 0 0]) s)

/-- PICK copies entry n, 0-63, to the top; beyond 63 is fault kind 12; a spilled entry costs 3 cycles (opcode 0x0F, R203, R204). -/
def execOpPick (core : Nat) (s : State) : Res :=
  .next (coreSlot core 1 1 1 0x0F (fun c =>
    match c.ds with
    | [] => .error 3
    | n :: r =>
      if 63 < n.toNat then .error 12
      else if r.length ≤ n.toNat then .error 3
      else
        let c := { c with ds := r.getD n.toNat 0 :: r }
        .ok (if c.cached ≤ n.toNat + 1 then charge 2 c else c)) s)

/-- DEPTH pushes the depth before the push (opcode 0x10, R203). -/
def execOpDepth (core : Nat) (s : State) : Res :=
  .next (coreSlot core 1 1 0 0 (fun c => dsOp 0 (fun _ => [BitVec.ofNat 32 c.ds.length]) c) s)

/-! ### The return stack -/

/-- Push to the return stack; 16 entries is its end (R204). -/
def rsPush (v : W32) (c : Core) : Except Nat Core :=
  if 16 ≤ c.rs.length then .error 4 else .ok { c with rs := v :: c.rs }

/-- TOR moves the top to the return stack (opcode 0x11, R203). -/
def execOpTor (core : Nat) (s : State) : Res :=
  .next (coreSlot core 1 1 1 0 (fun c =>
    match c.ds with
    | [] => .error 3
    | a :: r => rsPush a { c with ds := r }) s)

/-- FROMR moves the return stack top to the data stack (opcode 0x12, R203). -/
def execOpFromr (core : Nat) (s : State) : Res :=
  .next (coreSlot core 1 1 0 0 (fun c =>
    match c.rs with
    | [] => .error 4
    | a :: r => dsOp 0 (fun _ => [a]) { c with rs := r }) s)

/-- RFETCH copies the return stack top (opcode 0x13, R203). -/
def execOpRfetch (core : Nat) (s : State) : Res :=
  .next (coreSlot core 1 1 0 0 (fun c =>
    match c.rs with
    | [] => .error 4
    | a :: _ => dsOp 0 (fun _ => [a]) c) s)

/-- RDROP drops the return stack top (opcode 0x14, R203). -/
def execOpRdrop (core : Nat) (s : State) : Res :=
  .next (coreSlot core 1 1 0 0 (fun c =>
    match c.rs with
    | [] => .error 4
    | _ :: r => .ok { c with rs := r }) s)

/-! ### Arithmetic and logic -/

/-- An instruction on two operands: `a` below `b`. -/
def bin2 (f : W32 → W32 → List W32) (l : List W32) : List W32 := f (l.getD 1 0) (l.getD 0 0)
/-- An instruction on one operand. -/
def un1 (f : W32 → W32) (l : List W32) : List W32 := [f (l.getD 0 0)]
/-- An instruction on three operands: `a b c`, `c` on top. -/
def tri3 (f : W32 → W32 → W32 → List W32) (l : List W32) : List W32 := f (l.getD 2 0) (l.getD 1 0) (l.getD 0 0)

/-- Sum with carry in; carry out above it (R203 ADDC). -/
def addc (a b c : W32) : List W32 :=
  let t := a.toNat + b.toNat + c.toNat % 2
  [BitVec.ofNat 32 (t / 2 ^ 32), BitVec.ofNat 32 t]
/-- Difference with borrow in; borrow out above it (R203 SUBB). -/
def subb (a b c : W32) : List W32 :=
  let d := b.toNat + c.toNat % 2
  [if a.toNat < d then 1 else 0, BitVec.ofNat 32 (2 ^ 32 + a.toNat - d)]
/-- Leading zeros, 32 for 0 (R203 CLZ). -/
def clz32 (a : W32) : W32 := if a = 0 then 32 else BitVec.ofNat 32 (31 - Nat.log2 a.toNat)
/-- One bits (R203 POPC). -/
def popc32 (a : W32) : W32 := BitVec.ofNat 32 (popcount 32 a.toNat)
/-- Byte order reversed (R203 BSWAP). -/
def bswap32 (a : W32) : W32 := BitVec.ofNat 32 (beNat (leBytes 4 a.toNat))
/-- Insert the low byte of `b` as byte `n` of `a` (R203 INSB). -/
def insb32 (a b n : W32) : W32 :=
  let k := 8 * (n.toNat % 4)
  (a &&& ~~~((0xFF#32) <<< k)) ||| ((b &&& 0xFF#32) <<< k)


/-- ADD modulo 2^32 (opcode 0x18, R203). -/
def execOpAdd (core : Nat) (s : State) : Res :=
  .next (dsSlot core 1 2 0 (bin2 fun a b => [a + b]) s)

/-- SUB modulo 2^32 (opcode 0x19, R203). -/
def execOpSub (core : Nat) (s : State) : Res :=
  .next (dsSlot core 1 2 0 (bin2 fun a b => [a - b]) s)

/-- ADDC adds with carry in and out (opcode 0x1A, R203). -/
def execOpAddc (core : Nat) (s : State) : Res :=
  .next (dsSlot core 1 3 0 (tri3 addc) s)

/-- SUBB subtracts with borrow in and out (opcode 0x1B, R203). -/
def execOpSubb (core : Nat) (s : State) : Res :=
  .next (dsSlot core 1 3 0 (tri3 subb) s)

/-- MUL keeps the low word (opcode 0x1C, R203). -/
def execOpMul (core : Nat) (s : State) : Res :=
  .next (dsSlot core 3 2 0 (bin2 fun a b => [a * b]) s)

/-- UMUL leaves lo below hi (opcode 0x1D, R203). -/
def execOpUmul (core : Nat) (s : State) : Res :=
  .next (dsSlot core 3 2 0 (bin2 fun a b => [BitVec.ofNat 32 (a.toNat * b.toNat / 2 ^ 32), a * b]) s)

/-- DIVU divides unsigned, leaving q below r; a zero divisor is fault kind 9 (opcode 0x1E, R203, R227). -/
def execOpDivu (core : Nat) (s : State) : Res :=
  .next (coreSlot core 1 36 2 0 (fun c =>
    if 2 ≤ c.ds.length ∧ c.ds.getD 0 0 = 0 then .error 9
    else dsOp 2 (bin2 fun a b => [a % b, a / b]) c) s)


/-- NEG (opcode 0x1F, R203). -/
def execOpNeg (core : Nat) (s : State) : Res :=
  .next (dsSlot core 1 1 0 (un1 fun a => -a) s)

/-- AND (opcode 0x20, R203). -/
def execOpAnd (core : Nat) (s : State) : Res :=
  .next (dsSlot core 1 2 0 (bin2 fun a b => [a &&& b]) s)

/-- OR (opcode 0x21, R203). -/
def execOpOr (core : Nat) (s : State) : Res :=
  .next (dsSlot core 1 2 0 (bin2 fun a b => [a ||| b]) s)

/-- XOR (opcode 0x22, R203). -/
def execOpXor (core : Nat) (s : State) : Res :=
  .next (dsSlot core 1 2 0 (bin2 fun a b => [a ^^^ b]) s)

/-- NOT (opcode 0x23, R203). -/
def execOpNot (core : Nat) (s : State) : Res :=
  .next (dsSlot core 1 1 0 (un1 fun a => ~~~a) s)

/-- SHL by n[4:0] (opcode 0x24, R203). -/
def execOpShl (core : Nat) (s : State) : Res :=
  .next (dsSlot core 1 2 0 (bin2 fun a n => [a <<< (n.toNat % 32)]) s)

/-- SHR logical by n[4:0] (opcode 0x25, R203). -/
def execOpShr (core : Nat) (s : State) : Res :=
  .next (dsSlot core 1 2 0 (bin2 fun a n => [a >>> (n.toNat % 32)]) s)

/-- SAR arithmetic by n[4:0] (opcode 0x26, R203). -/
def execOpSar (core : Nat) (s : State) : Res :=
  .next (dsSlot core 1 2 0 (bin2 fun a n => [a.sshiftRight (n.toNat % 32)]) s)

/-- ROL by n[4:0] (opcode 0x27, R203). -/
def execOpRol (core : Nat) (s : State) : Res :=
  .next (dsSlot core 1 2 0 (bin2 fun a n => [a.rotateLeft (n.toNat % 32)]) s)

/-- INC (opcode 0x28, R203). -/
def execOpInc (core : Nat) (s : State) : Res :=
  .next (dsSlot core 1 1 0 (un1 fun a => a + 1) s)

/-- DEC (opcode 0x29, R203). -/
def execOpDec (core : Nat) (s : State) : Res :=
  .next (dsSlot core 1 1 0 (un1 fun a => a - 1) s)

/-- EQ (opcode 0x2A, R203). -/
def execOpEq (core : Nat) (s : State) : Res :=
  .next (dsSlot core 1 2 0 (bin2 fun a b => [flag (a == b)]) s)

/-- LTU, unsigned a < b (opcode 0x2B, R203). -/
def execOpLtu (core : Nat) (s : State) : Res :=
  .next (dsSlot core 1 2 0 (bin2 fun a b => [flag (a.ult b)]) s)

/-- LTS, signed a < b (opcode 0x2C, R203). -/
def execOpLts (core : Nat) (s : State) : Res :=
  .next (dsSlot core 1 2 0 (bin2 fun a b => [flag (a.slt b)]) s)

/-- ZEQ (opcode 0x2D, R203). -/
def execOpZeq (core : Nat) (s : State) : Res :=
  .next (dsSlot core 1 1 0 (un1 fun a => flag (a == 0)) s)

/-- SEL: a if f is nonzero, else b (opcode 0x2E, R203). -/
def execOpSel (core : Nat) (s : State) : Res :=
  .next (dsSlot core 1 3 0 (tri3 fun a b f => [if f = 0 then b else a]) s)

/-- BSWAP reverses byte order (opcode 0x30, R203). -/
def execOpBswap (core : Nat) (s : State) : Res :=
  .next (dsSlot core 1 1 0 (un1 bswap32) s)

/-- EXTB extracts byte n[1:0] (opcode 0x31, R203). -/
def execOpExtb (core : Nat) (s : State) : Res :=
  .next (dsSlot core 1 2 0 (bin2 fun a n => [(a >>> (8 * (n.toNat % 4))) &&& 0xFF#32]) s)

/-- INSB inserts b[7:0] as byte n[1:0] (opcode 0x32, R203). -/
def execOpInsb (core : Nat) (s : State) : Res :=
  .next (dsSlot core 1 3 0 (tri3 fun a b n => [insb32 a b n]) s)

/-- CLZ (opcode 0x33, R203). -/
def execOpClz (core : Nat) (s : State) : Res :=
  .next (dsSlot core 1 1 0 (un1 clz32) s)

/-- POPC (opcode 0x34, R203). -/
def execOpPopc (core : Nat) (s : State) : Res :=
  .next (dsSlot core 1 1 0 (un1 popc32) s)

/-! ### Branches (R207) -/

/-- A PC-relative target from the byte after the slot. -/
def relTarget (c : Core) (off : W32) : Nat := (c.pc + off.toNat) % 2 ^ 32

/-- A taken branch costs one cycle more than one not taken. -/
def takeBranch (c : Core) (extra t : Nat) : Core := charge extra { c with pc := t }

/-- BRA branches PC-relative (opcode 0x40, R207). -/
def execOpBra (core : Nat) (s : State) : Res :=
  .next (coreSlot core 1 2 1 0x40 (fun c =>
    match c.ds with
    | [] => .error 3
    | o :: r => .ok { c with ds := r, pc := relTarget c o }) s)

/-- BZ branches when the flag is zero (opcode 0x41, R207). -/
def execOpBz (core : Nat) (s : State) : Res :=
  .next (coreSlot core 1 1 2 0x41 (fun c =>
    match c.ds with
    | o :: f :: r => .ok (if f = 0 then takeBranch { c with ds := r } 1 (relTarget c o) else { c with ds := r })
    | _ => .error 3) s)

/-- BNZ branches when the flag is nonzero (opcode 0x42, R207). -/
def execOpBnz (core : Nat) (s : State) : Res :=
  .next (coreSlot core 1 1 2 0x42 (fun c =>
    match c.ds with
    | o :: f :: r => .ok (if f = 0 then { c with ds := r } else takeBranch { c with ds := r } 1 (relTarget c o))
    | _ => .error 3) s)

/-- CALL branches PC-relative and pushes the address after its slot (opcode 0x43, R207). -/
def execOpCall (core : Nat) (s : State) : Res :=
  .next (coreSlot core 1 2 1 0x43 (fun c =>
    match c.ds with
    | [] => .error 3
    | o :: r => rsPush (BitVec.ofNat 32 c.pc) { c with ds := r, pc := relTarget c o }) s)

/-- JMP takes an absolute core address (opcode 0x44, R207). -/
def execOpJmp (core : Nat) (s : State) : Res :=
  .next (coreSlot core 1 2 1 0 (fun c =>
    match c.ds with
    | [] => .error 3
    | a :: r => .ok { c with ds := r, pc := a.toNat }) s)

/-- RET returns to the address on the return stack (opcode 0x45, R203). -/
def execOpRet (core : Nat) (s : State) : Res :=
  .next (coreSlot core 1 2 0 0 (fun c =>
    match c.rs with
    | [] => .error 4
    | a :: r => .ok { c with rs := r, pc := a.toNat }) s)

/-- NEXT decrements the loop count and branches while it is nonzero (opcode 0x46, R207). -/
def execOpNext (core : Nat) (s : State) : Res :=
  .next (coreSlot core 1 1 1 0x46 (fun c =>
    match c.ds, c.rs with
    | [], _ => .error 3
    | _ :: _, [] => .error 4
    | o :: r, n :: rr =>
      if n - 1 = 0 then .ok { c with ds := r, rs := rr }
      else .ok (takeBranch { c with ds := r, rs := (n - 1) :: rr } 1 (relTarget c o))) s)

/-! ### Memory (R198-R209) -/

/-- The address operand stays in its place while the load is pending (R205): its position from the bottom. -/
def loadPos (c : Core) : Nat := c.ds.length - 1

/-- A load of `n` bytes, by opcode `op` where it fuses, at the address that `addr` makes of the top of the stack. -/
def loadOp (p n op : Nat) (addr : Core → W32 → Nat) (s : State) : State :=
  slot p 1 1 1 op (fun c s =>
    match c.ds with
    | [] => .fault 3 none
    | a :: _ => loadAt p (addr c a) n (loadPos c) c s) s

/-- A store of `n` bytes: the address on top, the value below it. -/
def storeOp (p n op : Nat) (addr : Core → W32 → Nat) (s : State) : State :=
  slot p 1 1 2 op (fun c s =>
    match c.ds with
    | a :: x :: r => storeAt p (addr c a) (leBytes n x.toNat) { c with ds := r } s
    | _ => .fault 3 none) s

/-- LD loads a word through BNK (opcode 0x50, R198, R205). -/
def execOpLd (core : Nat) (s : State) : Res := .next (loadOp core 4 0x50 bankAddr s)

/-- LOAD_LANDING writes the due value into its stack position, whatever happened to it; host data comes with the event (R200, R205, R206). -/
def execLoadLanding (core : Nat) (data : List Byte) (hostCycles : Nat) (s : State) : Res :=
  .next (
    let c := Machine.core s core
    match c.loads with
    | [] => s
    | l :: rest =>
      if l.age < 2 then s
      else
        let v := l.val.getD (leNat (overlay l.own (padTo l.size data)))
        let n := c.ds.length
        let c := charge (l.extra + if l.val.isSome then 0 else hostCycles) { c with loads := rest }
        setCore core (if l.pos < n then { c with ds := c.ds.set (n - 1 - l.pos) (BitVec.ofNat 32 v) } else c) s)

/-- ST stores a word through BNK (opcode 0x51, R198). -/
def execOpSt (core : Nat) (s : State) : Res := .next (storeOp core 4 0x51 bankAddr s)
/-- LDB loads a byte through BNK, zero-extended (opcode 0x52, R198, R205). -/
def execOpLdb (core : Nat) (s : State) : Res := .next (loadOp core 1 0x52 bankAddr s)
/-- STB stores a byte through BNK (opcode 0x53, R198). -/
def execOpStb (core : Nat) (s : State) : Res := .next (storeOp core 1 0x53 bankAddr s)
/-- LDL loads a word from a full address (opcode 0x54, R198, R205). -/
def execOpLdl (core : Nat) (s : State) : Res := .next (loadOp core 4 0 (fun _ a => a.toNat) s)
/-- STL stores a word to a full address (opcode 0x55, R198). -/
def execOpStl (core : Nat) (s : State) : Res := .next (storeOp core 4 0 (fun _ a => a.toNat) s)
/-- LDLB loads a byte from a full address (opcode 0x56, R198, R205). -/
def execOpLdlb (core : Nat) (s : State) : Res := .next (loadOp core 1 0 (fun _ a => a.toNat) s)
/-- STLB stores a byte to a full address (opcode 0x57, R198). -/
def execOpStlb (core : Nat) (s : State) : Res := .next (storeOp core 1 0 (fun _ a => a.toNat) s)

/-- The pointer named by the top of the stack, none for a number above 1 (R208). -/
def pointerOf (c : Core) (p : W32) : Option Stream :=
  if p = 0 then some c.s0 else if p = 1 then some c.s1 else none
/-- The core with that pointer's IDX advanced (R208). -/
def pointerStep (c : Core) (p : W32) : Core :=
  if p = 0 then { c with s0 := streamNext c.s0 } else { c with s1 := streamNext c.s1 }

/-- A stream load of `n` bytes (R208, R209): a fault leaves IDX unchanged. -/
def streamLoad (p n : Nat) (s : State) : State :=
  slot p 1 1 1 0 (fun c s =>
    match c.ds with
    | [] => .fault 3 none
    | q :: _ =>
      match pointerOf c q with
      | none => .fault 12 none
      | some st =>
        match streamAddr st with
        | none => .fault 6 none
        | some a => loadAt p a n (loadPos c) (pointerStep c q) s) s

/-- A stream store of `n` bytes (R208, R209). -/
def streamStore (p n : Nat) (s : State) : State :=
  slot p 1 1 2 0 (fun c s =>
    match c.ds with
    | q :: x :: r =>
      match pointerOf c q with
      | none => .fault 12 none
      | some st =>
        match streamAddr st with
        | none => .fault 6 none
        | some a => storeAt p a (leBytes n x.toNat) { pointerStep c q with ds := r } s
    | _ => .fault 3 none) s

/-- LDS loads a word through S0 or S1 (opcode 0x58, R208). -/
def execOpLds (core : Nat) (s : State) : Res := .next (streamLoad core 4 s)
/-- STS stores a word through S0 or S1 (opcode 0x59, R208). -/
def execOpSts (core : Nat) (s : State) : Res := .next (streamStore core 4 s)
/-- LDSB loads a byte through S0 or S1 (opcode 0x5A, R208). -/
def execOpLdsb (core : Nat) (s : State) : Res := .next (streamLoad core 1 s)
/-- STSB stores a byte through S0 or S1 (opcode 0x5B, R208). -/
def execOpStsb (core : Nat) (s : State) : Res := .next (streamStore core 1 s)

/-- BNKR pushes BNK (opcode 0x5C, R198). -/
def execOpBnkr (core : Nat) (s : State) : Res :=
  .next (coreSlot core 1 1 0 0 (fun c => dsOp 0 (fun _ => [BitVec.ofNat 32 c.bnk]) c) s)
/-- BNKW sets BNK for later slots (opcode 0x5D, R198). -/
def execOpBnkw (core : Nat) (s : State) : Res :=
  .next (coreSlot core 1 1 1 0 (fun c =>
    match c.ds with
    | [] => .error 3
    | b :: r => .ok { c with ds := r, bnk := b.toNat % 65536 }) s)

/-- SRR reads a special register; an undefined number is fault kind 12 (opcode 0x5E, "Special registers"). -/
def execOpSrr (core : Nat) (s : State) : Res :=
  .next (coreSlot core 1 1 1 0x5E (fun c =>
    match c.ds with
    | [] => .error 3
    | n :: r =>
      match srRead c n.toNat with
      | none => .error 12
      | some v => .ok { c with ds := BitVec.ofNat 32 v :: r }) s)
/-- SRW writes a special register; a number undefined or not writable in the mode is fault kind 12 (opcode 0x5F, "Special registers"). -/
def execOpSrw (core : Nat) (s : State) : Res :=
  .next (coreSlot core 1 1 2 0 (fun c =>
    match c.ds with
    | n :: x :: r =>
      match srWrite { c with ds := r } n.toNat x.toNat with
      | none => .error 12
      | some c => .ok c
    | _ => .error 3) s)

/-! ### The block stack (R210, R211) -/

/-- Push a block entry; 8 is the stack's end (R204). -/
def bsPush (v : W128) (c : Core) : Except Nat Core :=
  if 8 ≤ c.bs.length then .error 5 else .ok { c with bs := v :: c.bs }

/-- A block-stack operation taking `n` entries, top first (R204). -/
def bsOp (n : Nat) (f : List W128 → List W128) (c : Core) : Except Nat Core :=
  if c.bs.length < n then .error 5
  else
    let r := f (c.bs.take n) ++ c.bs.drop n
    if 8 < r.length then .error 5 else .ok { c with bs := r }

/-- BLD loads 16 bytes onto the block stack, interlocked: the region's extra cycles are its own, and host bytes come with the event (opcode 0x60,
R199, R200, R210, R211). -/
def execOpBld (core : Nat) (data : List Byte) (hostCycles : Nat) (s : State) : Res :=
  .next (slot core 1 2 1 0 (fun c s =>
    match c.ds with
    | [] => .fault 3 none
    | a :: r =>
      let n := a.toNat
      if 8 ≤ c.bs.length then .fault 5 none
      else if n % 16 ≠ 0 then .fault 6 none
      else match coreRefusal s core .read n 16 with
        | some v => .fault 7 (some v)
        | none =>
          let host := decide (0x80000000 ≤ n)
          if host ∧ strictWaits s c n 16 then .wait else
          let d := if host then overlay (hostOver c (aperture c n 16)) (padTo 16 data) else coreRead s core n 16
          let c := charge (regionExtra n + if host then hostCycles else 0) { c with ds := r, bs := BitVec.ofNat 128 (beNat d) :: c.bs }
          let s := setCore core c (if n < 0x10000 then s else countCore 0x008 core 1 (some (0, n)) s)
          .ok (if host then hostAsk core n 16 s else s)) s)

/-- BST stores the block stack top as 16 bytes (opcode 0x61, R210). -/
def execOpBst (core : Nat) (s : State) : Res :=
  .next (slot core 1 2 1 0 (fun c s =>
    match c.ds, c.bs with
    | [], _ => .fault 3 none
    | _ :: _, [] => .fault 5 none
    | a :: r, v :: bs => storeAt core a.toNat (beBytes 16 v.toNat) { c with ds := r, bs := bs } s) s)


/-- BDUP duplicates the block top (opcode 0x62, R203). -/
def execOpBdup (core : Nat) (s : State) : Res :=
  .next (coreSlot core 1 1 0 0 (bsOp 1 (fun l => l.getD 0 0 :: l)) s)

/-- BDROP drops the block top (opcode 0x63, R203). -/
def execOpBdrop (core : Nat) (s : State) : Res :=
  .next (coreSlot core 1 1 0 0 (bsOp 1 (fun _ => [])) s)

/-- BXCH exchanges the top two block entries (opcode 0x64, R203). -/
def execOpBxch (core : Nat) (s : State) : Res :=
  .next (coreSlot core 1 1 0 0 (bsOp 2 (fun l => [l.getD 1 0, l.getD 0 0])) s)

/-- BXOR (opcode 0x65, R203). -/
def execOpBxor (core : Nat) (s : State) : Res :=
  .next (coreSlot core 1 1 0 0 (bsOp 2 (fun l => [l.getD 1 0 ^^^ l.getD 0 0])) s)

/-- BZERO pushes a zero block (opcode 0x66, R203). -/
def execOpBzero (core : Nat) (s : State) : Res :=
  .next (coreSlot core 1 1 0 0 (bsOp 0 (fun _ => [0])) s)

/-- BPUSH packs four words into a block entry, w3 leftmost (opcode 0x67, R210). -/
def execOpBpush (core : Nat) (s : State) : Res :=
  .next (coreSlot core 1 2 4 0 (fun c =>
    match c.ds with
    | w0 :: w1 :: w2 :: w3 :: r =>
      bsPush (BitVec.ofNat 128 (w3.toNat * 2 ^ 96 + w2.toNat * 2 ^ 64 + w1.toNat * 2 ^ 32 + w0.toNat)) { c with ds := r }
    | _ => .error 3) s)

/-- BPOP unpacks a block entry into four words, w0 on top (opcode 0x68, R210). -/
def execOpBpop (core : Nat) (s : State) : Res :=
  .next (coreSlot core 1 2 0 0 (fun c =>
    match c.bs with
    | [] => .error 5
    | v :: bs =>
      dsOp 0 (fun _ => [v.extractLsb' 0 32, v.extractLsb' 32 32, v.extractLsb' 64 32, v.extractLsb' 96 32]) { c with bs := bs }) s)

/-- BINC increments bits [31:0] of the block top modulo 2^32 (opcode 0x69, R203). -/
def execOpBinc (core : Nat) (s : State) : Res :=
  .next (coreSlot core 1 1 0 0 (bsOp 1 (fun l =>
    let v := l.getD 0 0
    [v.extractLsb' 32 96 ++ (v.extractLsb' 0 32 + 1)])) s)

/-- BEQ compares and drops the top two block entries (opcode 0x6A, R203). -/
def execOpBeq (core : Nat) (s : State) : Res :=
  .next (coreSlot core 1 1 0 0 (fun c =>
    match c.bs with
    | b :: a :: r => dsOp 0 (fun _ => [flag (a == b)]) { c with bs := r }
    | _ => .error 5) s)

/-- Keep the leftmost `n` bytes of a block (R203 BMASK). -/
def keepLeft (n : Nat) (v : W128) : W128 := BitVec.ofNat 128 (beNat (padTo 16 ((beBytes 16 v.toNat).take n)))

/-- BMASK keeps the leftmost n bytes, 0-16, of the block top; the spec gives a larger n no result: a free block (opcode 0x6B, R203; log
entry 30). -/
def execOpBmask (core : Nat) (s : State) : Res :=
  .next (slot core 1 1 1 0 (fun c s =>
    match c.ds, c.bs with
    | [], _ => .fault 3 none
    | _ :: _, [] => .fault 5 none
    | n :: r, v :: bs =>
      if n.toNat ≤ 16 then .ok (setCore core { c with ds := r, bs := keepLeft n.toNat v :: bs } s)
      else .ok (setCore core { c with ds := r, bs := BitVec.ofNat 128 (freeNat s) :: bs } (bumpFree s))) s)

/-! ### Time -/

/-- TIME pushes device time, lo below hi; all ones while the epoch is not set (opcode 0x76, R203, R373). -/
def execOpTime (core : Nat) (s : State) : Res :=
  .next (coreSlot core 1 1 0 0 (dsOp 0 (fun _ =>
    match s.time.dev with
    | none => [0xFFFFFFFF, 0xFFFFFFFF]
    | some t => [BitVec.ofNat 32 (t / 2 ^ 32), BitVec.ofNat 32 t])) s)

/-- TICK pushes the tick counter's low 32 bits (opcode 0x77, R203). -/
def execOpTick (core : Nat) (s : State) : Res :=
  .next (coreSlot core 1 1 0 0 (dsOp 0 (fun _ => [BitVec.ofNat 32 (tick s)])) s)

/-- FENCE ends once the core's stores and mover requests are acknowledged (opcode 0x78, R199, R203). -/
def execOpFence (core : Nat) (s : State) : Res :=
  .next (slot core 1 1 0 0 (fun c s =>
    if c.stores.isEmpty && !portWaits s core && !(c.reqs.any fun r => decide (r.port = 0x1E) && r.done.isNone) then .ok (setCore core c s) else .wait) s)

/-! ### Core events that are no instruction -/

/-- The opcode values of R203. -/
def definedOps : List Nat :=
  [0x00, 0x01, 0x02, 0x03, 0x08, 0x09, 0x0A, 0x0B, 0x0C, 0x0D, 0x0E, 0x0F, 0x10, 0x11, 0x12, 0x13, 0x14] ++
  [0x18, 0x19, 0x1A, 0x1B, 0x1C, 0x1D, 0x1E, 0x1F, 0x20, 0x21, 0x22, 0x23, 0x24, 0x25, 0x26, 0x27, 0x28, 0x29] ++
  [0x2A, 0x2B, 0x2C, 0x2D, 0x2E, 0x30, 0x31, 0x32, 0x33, 0x34, 0x40, 0x41, 0x42, 0x43, 0x44, 0x45, 0x46] ++
  [0x50, 0x51, 0x52, 0x53, 0x54, 0x55, 0x56, 0x57, 0x58, 0x59, 0x5A, 0x5B, 0x5C, 0x5D, 0x5E, 0x5F] ++
  [0x60, 0x61, 0x62, 0x63, 0x64, 0x65, 0x66, 0x67, 0x68, 0x69, 0x6A, 0x6B] ++
  [0x70, 0x71, 0x72, 0x73, 0x74, 0x75, 0x76, 0x77, 0x78, 0x79]

/-- ILLEGAL_OPCODE: a slot holding an undefined opcode value is fault kind 1 (R203, R227). -/
def execIllegalOpcode (core opcode : Nat) (s : State) : Res :=
  .next (if coreGoes s core ∧ (Machine.core s core).fuse.isNone ∧ opcode < 256 ∧ opcode ∉ definedOps then
    coreTake core (Machine.core s core).pc (coreFault core 1 (Machine.core s core).pc none) s else s)

/-- The core may execute at an address in its mode (R196). -/
def mayFetchAt (s : State) (p a : Nat) : Option VioReport := coreRefusal s p .exec a 1

/-- INSTRUCTION_FETCH_REFUSED: a fetch from an address that is not executable in the mode is fault kind 8 (R196, R227). -/
def execInstructionFetchRefused (core : Nat) (s : State) : Res :=
  .next (
    let pc := (Machine.core s core).pc
    if !coreGoes s core then s
    else match mayFetchAt s core pc with
      | some v => coreTake core (slotPc (Machine.core s core)) (coreFault core 8 (slotPc (Machine.core s core)) (some v)) s
      | none => s)

/-- PROGRAM_BUDGET_EXHAUSTED: a program whose BUDGET is 0 faults with kind 10 (R233). -/
def execProgramBudgetExhausted (core : Nat) (s : State) : Res :=
  .next (
    let c := Machine.core s core
    if s.pwr.main ∧ c.prog ∧ c.budget = 0 ∧ c.st ≠ .off then coreFault core 10 (slotPc c) none s else s)

/-- STORE_ACKNOWLEDGE: the oldest posted store takes effect and frees its entry (R199, R200). -/
def execStoreAcknowledge (core : Nat) (s : State) : Res :=
  .next (
    match (Machine.core s core).stores with
    | [] => s
    | e :: rest =>
      let c := Machine.core s core
      if storeStrict s c e ∧ loadsOwed c then s else modCore core (fun c => { c with stores := rest }) (doStore core e s))

/-- ICACHE_FILL: the line of the program counter is filled from cluster scratch, 12 cycles (R201). -/
def execIcacheFill (core : Nat) (s : State) : Res :=
  .next (
    let c := Machine.core s core
    if coreGoes s core ∧ 0x10000000 ≤ c.pc ∧ c.pc ≤ 0x100FFFFF ∧ (mayFetchAt s core c.pc).isNone then
      countCore 0x006 core 1 (some (0, c.pc)) (modCore core (fun c => charge 12 c) s)
    else s)

end Sys2Proof.Machine
end

