-- ==== Sys2Proof/Machine/Lanes.lean ====
section
/-!
DEFINITION. The lanes' commands: block, hash, modular and lattice requests (R156-R191), the return of a result to its port, the swap
of a spare, and the wake of a hash lane. Each request command runs the oldest request that one core has on one lane; its `data`
operand is what the host answers where the input lies in the input aperture, and `fault` is what the checking hardware finds:
0 nothing, 1 a twin difference that the second run lays to this lane, 2 one it lays to the partner, 3 any other twin failure,
4 an uncorrected lane memory error (R175, R475).
-/

namespace Sys2Proof.Machine

/-! ### Request fields (R161, R182, R214) -/

/-- OP of a block request. -/
def rOp (r : LaneReq) : Nat := bitsOf r.ctl 19 16
/-- PAD. -/
def rPad (r : LaneReq) : Nat := bitsOf r.ctl 15 13
/-- SRC. -/
def rSrc (r : LaneReq) : Nat := bitsOf r.ctl 12 11
/-- DST. -/
def rDst (r : LaneReq) : Nat := bitsOf r.ctl 10 9
/-- XIN. -/
def rXin (r : LaneReq) : Bool := r.ctl.testBit 8
/-- SUB. -/
def rSub (r : LaneReq) : Nat := bitsOf r.ctl 7 6
/-- FB. -/
def rFb (r : LaneReq) : Nat := bitsOf r.ctl 5 4
/-- Reserved bits of the block header. -/
def rReserved (r : LaneReq) : Bool := decide (bitsOf r.ctl 31 20 ≠ 0) || decide (bitsOf r.ctl 3 0 ≠ 0) || decide (r.olen ≠ 0)

/-- OP of a hash, modular or lattice request. -/
def wOp (r : LaneReq) : Nat := bitsOf r.ctl 31 24
/-- CTX. -/
def wCtx (r : LaneReq) : Nat := bitsOf r.ctl 23 18
/-- Reserved bits of the two-word request. -/
def wReserved (r : LaneReq) : Bool := decide (bitsOf r.ctl 17 0 ≠ 0)

/-- OP 4, 7 and 8 take the counter block or J0 first (R216). -/
def takesCtr (op : Nat) : Bool := decide (op = 4) || decide (op = 7) || decide (op = 8)
/-- OP 5, 7 and 8 take no data block. -/
def takesNoData (op : Nat) : Bool := decide (op = 5) || decide (op = 7) || decide (op = 8)

/-- How many block stack entries a block request's header calls for, in the order of R216: counter, data, chain. -/
def entryPlan (op src fb : Nat) (xin : Bool) : Bool × Bool × Bool :=
  (takesCtr op, decide (src = 0) && !takesNoData op, xin || decide (fb = 1) || decide (op = 7))

/-- The bytes of a block stack entry (R210). -/
def blkBytes (w : W128) : Bytes := beBytes 16 w.toNat
/-- A block stack entry of bytes, left-justified. -/
def bytesBlk (b : Bytes) : W128 := BitVec.ofNat 128 (beNat (padTo 16 b))

/-- The counter entry, the data entry and the chaining entry of a request (R216). -/
def reqCtr (r : LaneReq) : Bytes := blkBytes (r.ops.getD 0 0)
/-- The data entry. -/
def reqData (r : LaneReq) : Bytes := blkBytes (r.ops.getD (b2n (takesCtr (rOp r))) 0)
/-- The chaining entry, or the expected tag. -/
def reqChain (r : LaneReq) : Bytes :=
  let p := entryPlan (rOp r) (rSrc r) (rFb r) (rXin r)
  blkBytes (r.ops.getD (b2n p.1 + b2n p.2.1) 0)

/-- The functions of a hash lane, and the operations of a modular and of a lattice lane (R183, R188, R190). -/
def hashOps : List Nat := [1, 2, 3, 4, 5, 6, 7, 8, 0x10, 0x11, 0x12, 0x13]

/-- The status with which a lane ends a request whatever it holds: a reserved bit or value ends it with LENGTH (R161, R182; undefined operations
of the two-word request: log entry 32), and a program's modular operation above 0x04 with KEY (R232). -/
def reqRefused (prog : Bool) (port : Nat) (r : LaneReq) : Option Nat :=
  if isBlock port then
    (if rReserved r ∨ rOp r ∉ [0, 1, 2, 4, 5, 6, 7, 8] ∨ 4 < rPad r ∨ rSrc r = 3 ∨ rSub r = 3 ∨ (takesNoData (rOp r) ∧ rSrc r ≠ 0) then some 4 else none)
  else if wReserved r then some 4
  else if isHash port then (if hashOps.contains (bitsOf (wOp r) 5 0) then none else some 4)
  else if isMod port then
    (if prog ∧ !(1 ≤ wOp r ∧ wOp r ≤ 4) then some 2 else if 1 ≤ wOp r ∧ wOp r ≤ 7 then none else some 4)
  else if bitsOf (wOp r) 5 4 = 0 ∨ bitsOf (wOp r) 7 6 ≠ 0 ∨ !(1 ≤ bitsOf (wOp r) 3 0 ∧ bitsOf (wOp r) 3 0 ≤ 3) then some 4
  else none

/-! ### Memory of the issuing core (R160) -/

/-- Source bytes: the core's internal space, or the host's answer for the input aperture, whose read is issued. -/
def laneSrc (r : LaneReq) (a n : Nat) (data : Bytes) (s : State) : Bytes × State :=
  if a < 0x80000000 then ((List.range n).map (fun i => coreByte s r.core (a + i)), s)
  else
    let c := core s r.core
    (padTo n data, hostReads c.func (aperture { c with winIn := r.winIn, winOut := r.winOut } a n) s)

/-- Write result bytes at a core address, under the request's window (R197). -/
def laneDst (r : LaneReq) (a : Nat) (d : Bytes) (s : State) : State :=
  if a < 0x80000000 then coreWrite r.core a d s else outWrite r.core (r.winOut + (a - 0xC0000000)) d s

/-- The pane's refusal of a request's ranges under its windows, with its violation report (R160, R197). -/
def laneRefusal (s : State) (r : LaneReq) (src dst : Option (Nat × Nat)) : Option VioReport :=
  let w := modCore r.core (fun c => { c with winIn := r.winIn, winOut := r.winOut }) s
  match src.bind fun x => if x.2 = 0 then none else coreRefusal w r.core .read x.1 x.2 with
  | some v => some v
  | none => dst.bind fun x => if x.2 = 0 then none else coreRefusal w r.core .write x.1 x.2

/-! ### Keys (R157, R159, R168) -/

/-- The key a request names, through the issuing core's pin table. -/
def laneKey (s : State) (r : LaneReq) : Option (Nat × KEnt) :=
  ((core s r.core).pins.find? fun q => q.handle = r.key).bind fun q => (keyAt s q.index).map fun e => (q.index, e)

/-- A lane that holds no copy of a request's key reads it from the key store (R123, R168, R483). -/
def lanePass (r : LaneReq) (s : State) : State := match laneKey s r with | some x => keyPass x.1 s | none => s

/-- Uses left of the core's reservation for a key (R143, R159). -/
def laneUses (s : State) (r : LaneReq) : Nat :=
  match (core s r.core).pins.find? fun q => q.handle = r.key with
  | some q => q.resv
  | none => 0

/-- Spend uses of the reservation, and with them of the key's budget (R143, R144, R159). -/
def laneSpend (r : LaneReq) (n : Nat) (s : State) : State :=
  match (core s r.core).pins.find? fun q => q.handle = r.key with
  | none => s
  | some q =>
    usesSpend q.index 3 n
      (modCore r.core (fun c => { c with pins := c.pins.map fun q => if q.handle = r.key then { q with resv := q.resv - n } else q }) s)

/-- The expanded-key slot of an entry, by its store index and owning function (R168). -/
def slotOf (s : State) (n i f : Nat) : Option KSlot := (laneOf s n).slots.find? fun x => decide (x.index = i) && decide (x.func = f)

/-- The store indices that requests queued in a lane name, which keep their slots (R169). -/
def slotNeeds (s : State) (n : Nat) : List Nat := (laneOf s n).queue.filterMap fun r => if reqPending r then (laneKey s r).map fun x => x.1 else none

/-- Without the first element that satisfies a test. -/
def eraseFirst {α : Type} (f : α → Bool) : List α → List α
  | [] => []
  | x :: xs => if f x then xs else x :: eraseFirst f xs

/-- A slot is used, filled on a miss over the least recently used one that no queued request needs (R168, R169). -/
def slotUse (n : Nat) (x : KSlot) (s : State) : State :=
  let need := slotNeeds s n
  modLane n (fun l =>
    let t := l.slots.filter fun y => decide (y.index ≠ x.index)
    { l with slots := (if 4096 ≤ t.length then eraseFirst (fun y => !(need.contains y.index)) t else t) ++ [x] }) s

/-- The key as a lane's slot holds it: the schedule of the slot where the entry has one, else the entry's own (R168, R169). -/
def slotKey (s : State) (n i : Nat) (e : KEnt) : KEnt :=
  match slotOf s n i e.func with
  | some x => { e with alg := x.alg, mat := x.key }
  | none => e

/-- Count block operations; each lane of a twin counts its own (R488). -/
def countOps (n : Nat) (r : LaneReq) (k : Nat) (s : State) : State :=
  let s := countLane 0x102 n r.core k s
  if r.twin then countLane 0x102 (lanePartner s n) r.core k s else s

/-- A block lane reads a request's key from the key store when none of its slots holds it (R168). -/
def fillPass (n : Nat) (r : LaneReq) (s : State) : State :=
  match laneKey s r with | some x => if (slotOf s n x.1 x.2.func).isSome then s else keyPass x.1 s | none => s

/-- The entry fails the check that a slot fill makes (R123, R168). -/
def slotBad (s : State) (n i : Nat) (e : KEnt) : Bool := (slotOf s n i e.func).isNone && keyBad s i e

/-- The key's algorithm and mode serve a block operation (lane status KEY, R161, R166; log entry 32). -/
def keyServes (op : Nat) (e : KEnt) : Bool :=
  algSym e.alg &&
  (match op with
   | 0 => decide (e.mode ≠ 'D'.toNat)
   | 1 => decide (e.mode ≠ 'E'.toNat)
   | 2 => algTdes e.alg
   | 5 => true
   | _ => algAes e.alg)

/-! ### Block operations (R161-R165) -/

/-- Pad data by the rule of a request, none where LEN or padding is not allowed (R163). -/
def lanePad (pad bs : Nat) (d : Bytes) : Option Bytes :=
  match pad with
  | 0 => if d.length % bs = 0 then some d else none
  | 1 => some (padTo (bs * cdiv d.length bs) d)
  | 2 => some (padTo (bs * (d.length / bs + 1)) (d ++ [0x80]))
  | 3 => some (beBytes bs (8 * d.length) ++ padTo (bs * cdiv d.length bs) d)
  | 4 => some (padTo (16 * cdiv d.length 16) d)
  | _ => none

/-- XOR a value into the first block. -/
def xorFirst (x : Bytes) : List Bytes → List Bytes
  | [] => []
  | b :: bs => xorBytes b x :: bs

/-- XOR a value into the last block. -/
def xorLast (x : Bytes) : List Bytes → List Bytes
  | [] => []
  | [b] => [xorBytes b x]
  | b :: bs => b :: xorLast x bs

/-- K1 or K2 from a subkey register (R164). -/
def subkeyOf (sub : Nat) (l : Bytes) : Bytes :=
  let aes := decide (l.length = 16)
  if sub = 1 then cmacDbl aes l else cmacDbl aes (cmacDbl aes l)

/-- One block through the cipher of an operation. -/
def blockFn (op : Nat) (e : KEnt) (b : Bytes) : Bytes :=
  match op with
  | 0 => blkEnc (algAes e.alg) e.mat b
  | 1 => blkDec (algAes e.alg) e.mat b
  | _ => desEnc (e.mat.take 8) b

/-- Cipher a request's blocks with CBC-decipher feedback where FB asks for it (R164). -/
def blockRun (op : Nat) (e : KEnt) (fb : Nat) : Bytes → List Bytes → Bytes
  | _, [] => []
  | prev, b :: bs =>
    let o := blockFn op e b
    (if fb = 1 ∧ op = 1 then xorBytes o prev else o) ++ blockRun op e fb b bs

/-- The counter after one block (R161 FB). -/
def ctrNext (fb c : Nat) : Nat :=
  match fb with
  | 2 => (c + 1) % 2 ^ 128
  | 3 => c / 2 ^ 32 * 2 ^ 32 + (c + 1) % 2 ^ 32
  | _ => c

/-- Keystream over blocks. -/
def keystream (e : KEnt) (fb : Nat) : Nat → List Bytes → Bytes
  | _, [] => []
  | c, b :: bs => xorBytes b (aesEnc e.mat (beBytes 16 c)) ++ keystream e fb (ctrNext fb c) bs

/-- LEN of a request, none where it is not allowed (R162, R216). -/
def reqLen (r : LaneReq) : Option Nat :=
  let op := rOp r
  let l := r.len % 32
  if op = 5 then (if r.len = 16 ∧ rSrc r = 0 then some 0 else none)
  else if op = 7 then (if 4 ≤ l ∧ l ≤ 16 ∧ rSrc r = 0 then some l else none)
  else if op = 8 then (if 1 ≤ l ∧ l ≤ 16 ∧ rSrc r = 0 then some l else none)
  else if rSrc r = 0 then (if l ≤ 16 ∧ (l ≠ 0 ∨ rPad r = 2) then some l else none)
  else if 1 ≤ r.len ∧ r.len ≤ 4096 then some r.len else none

/-- The header's values are defined: no reserved bit, OP, PAD, SRC or SUB (R161, R216). -/
def reqFormed (r : LaneReq) : Bool := (reqRefused false 0 r).isNone

/-- Quarantined bytes of a core on a lane, oldest first. -/
def quarBytes (q : List Quar) : Bytes := q.flatMap fun x => x.data

/-- Drop the oldest `n` quarantined bytes. -/
def quarTake : Nat → List Quar → List Quar
  | _, [] => []
  | n, q :: qs => if n = 0 then q :: qs else if q.data.length ≤ n then quarTake (n - q.data.length) qs
    else { q with addr := q.addr + n, data := q.data.drop n } :: qs

/-- Finish: status (255: the request must wait for random output), stack result, state. -/
abbrev LaneEnd := Nat × Bytes × State

/-- Deliver the output of a cipher operation where DST says (R161, R170). -/
def deliver (n : Nat) (r : LaneReq) (i : Nat) (out : Bytes) (s : State) : LaneEnd :=
  match rDst r with
  | 0 => (0, out, s)
  | 1 => (0, [], laneDst r r.aout out s)
  | 2 => (0, [], modPort n r.core (fun q => { q with quar := q.quar ++ [⟨r.aout, out, i⟩] }) s)
  | _ => (0, [], s)

/-- Run a block cipher or keystream request whose checks have passed, on its padded data. -/
def cipherRun (n : Nat) (r : LaneReq) (i : Nat) (e : KEnt) (len : Nat) (d : Bytes) (s : State) : LaneEnd :=
  let bs := if rOp r = 2 then 8 else blkSize (algAes e.alg)
  let q := lanePort s n r.core
  let blocks := chunks bs d
  let out :=
    if rOp r = 4 then
      let o := keystream e (rFb r) (beNat (reqCtr r)) blocks
      if rPad r = 0 then o.take len else o
    else
      let b1 := if rXin r then xorFirst (padTo bs (reqChain r)) blocks else blocks
      let b2 := match q.subkey with | some k => if rSub r = 0 then b1 else xorLast (subkeyOf (rSub r) k) b1 | none => b1
      blockRun (rOp r) e (rFb r) (padTo bs (reqChain r)) b2
  let s := if rSrc r = 2 then modPort n r.core (fun q => { q with quar := quarTake len q.quar }) s else s
  deliver n r i out s

/-- Blocks of a request and so its block operations (R159, R163). -/
def reqBlocks (bs : Nat) (d : Bytes) : Nat := cdiv d.length bs

/-- A cipher, keystream or GHASH request: the checks in the order LENGTH, KEY, ACCESS, QUAR_FULL, BUDGET (order: log entry 32), then the run. -/
def dataOp (n : Nat) (r : LaneReq) (i : Nat) (e : KEnt) (len : Nat) (data : Bytes) (s : State) : LaneEnd :=
  let q := lanePort s n r.core
  let op := rOp r
  let bs := if op = 2 then 8 else if op = 6 then 16 else blkSize (algAes e.alg)
  let src := laneSrc r r.ain len data s
  let raw := if rSrc r = 0 then (reqData r).take len else if rSrc r = 1 then src.1 else (quarBytes q.quar).take len
  let pd := if op = 4 ∧ rPad r = 0 then some raw else lanePad (rPad r) bs raw
  match pd with
  | none => (4, [], s)
  | some d =>
    let blocks := reqBlocks bs d
    let outLen := if op = 4 ∧ rPad r = 0 then len else d.length
    if rDst r = 0 ∧ 1 < blocks then (4, [], s)
    else if (rSub r ≠ 0 ∨ op = 6) ∧ q.subkey.isNone then (2, [], s)
    else if rSrc r = 2 ∧ (quarBytes q.quar).length < len then (4, [], s)
    else if rSrc r = 2 ∧ (!(op = 0 ∨ op = 4) ∨ rDst r ≠ 1 ∨ q.quar.any (fun x => decide (x.key = i))) then (2, [], s)
    else
      match laneRefusal s r (if rSrc r = 1 then some (r.ain, len) else none)
          (if op = 6 ∨ rDst r = 0 ∨ rDst r = 3 then none else some (r.aout, outLen)) with
      | some v => (5, [], vioQueue v s)
      | none =>
        let held := (quarBytes q.quar).length
        if op ≠ 6 ∧ rDst r = 2 ∧ (16384 < held + outLen ∨
            65536 < ((laneOf s n).ports.map fun x => (quarBytes x.2.quar).length).sum + outLen) then (6, [], s)
        else if op ≠ 6 ∧ laneUses s r < blocks then (3, [], s)
        else
          let s := if rSrc r = 1 then src.2 else s
          if op = 6 then
            (0, [], modPort n r.core (fun q => { q with
              acc := ghashAbsorb (BitVec.ofNat 128 (beNat (padTo 16 (q.subkey.getD [])))) q.acc d }) s)
          else cipherRun n r i e len d (countOps n r blocks (laneSpend r blocks s))

/-- SUBKEY, TAG_COMPARE and TAG: one block operation each (R161, R165, R171). -/
def tagOp (n : Nat) (r : LaneReq) (e : KEnt) (len : Nat) (s : State) : LaneEnd :=
  if laneUses s r < 1 then (3, [], s)
  else
    let s := countOps n r 1 (laneSpend r 1 s)
    let q := lanePort s n r.core
    if rOp r = 5 then
      (0, [], modPort n r.core (fun q => { q with subkey := some (blkEnc (algAes e.alg) e.mat (zeroBytes (blkSize (algAes e.alg)))) }) s)
    else
      let tag := (xorBytes (aesEnc e.mat (reqCtr r)) (blkBytes q.acc)).take len
      let s := modPort n r.core (fun q => { q with acc := 0 }) s
      if rOp r = 8 then (0, tag, s)
      else
        let s' := modPort n r.core (fun q => { q with quar := [] }) s
        if tag = (reqChain r).take len then (0, [], q.quar.foldl (fun s x => laneDst r x.addr x.data s) s') else (1, [], s')

/-- Run a block request (R157-R173). -/
def blockReq (n : Nat) (r : LaneReq) (data : Bytes) (s : State) : LaneEnd :=
  if !reqFormed r then (4, [], s)
  else match reqLen r with
    | none => (4, [], s)
    | some len =>
      match laneKey (fillPass n r s) r with
      | none => (2, [], s)
      | some (i, e0) =>
        let s := fillPass n r s
        let e := slotKey s n i e0
        if slotBad s n i e0 then (2, [], keyFailed i s)
        else if !keyServes (rOp r) e then (2, [], s)
        else
          let x := if takesNoData (rOp r) then tagOp n r e len s else dataOp n r i e len data s
          (x.1, x.2.1, slotUse n ⟨i, e.func, e.alg, e.mat⟩
            (if (slotOf s n i e.func).isSome then x.2.2 else countLane 0x104 n r.core 1 x.2.2))

/-! ### Hash operations (R183, R184) -/

/-- The digest of a hash function over a whole message. -/
def hashFn (fn : Nat) (m : Bytes) (olen : Nat) : Bytes :=
  match fn with
  | 1 => sha256 m | 2 => sha384 m | 3 => sha512 m
  | 4 => sha3_256 m | 5 => sha3_384 m | 6 => sha3_512 m
  | 7 => shake128 olen m
  | _ => shake256 olen m

/-- The Keccak rate of a function, 0 for SHA-2. -/
def hashRate (fn : Nat) : Nat := match fn with | 4 => 136 | 5 => 104 | 6 => 72 | 7 => 168 | 8 => 136 | _ => 0

/-- Keccak permutations of a request that takes a message from `a` to `b` bytes and may then finish with `olen` bytes (R183, R488). -/
def hashPerms (fn a b : Nat) (olen : Option Nat) : Nat :=
  let r := hashRate fn
  if r = 0 then 0
  else match olen with
    | none => b / r - a / r
    | some o => b / r - a / r + max 1 (cdiv o r)

/-- OUT_LEN fits the function (R183). -/
def hashOlenOk (fn olen : Nat) : Bool :=
  match fn with
  | 1 | 4 => decide (olen = 32) | 2 | 5 => decide (olen = 48) | 3 | 6 => decide (olen = 64)
  | _ => decide (1 ≤ olen) && decide (olen ≤ 65536)

/-- A digest request in its phase: whole, start, continue or finish (R183). -/
def hashReq (n : Nat) (r : LaneReq) (data : Bytes) (s : State) : LaneEnd :=
  let fn := bitsOf (wOp r) 5 0
  let ph := bitsOf (wOp r) 7 6
  let last := decide (ph = 0) || decide (ph = 3)
  let ctx := (laneOf s n).ctxs.find? fun c => c.1 = wCtx r
  if wReserved r ∨ 65536 < r.len ∨ (last ∧ !hashOlenOk fn r.olen) then (4, [], s)
  else if ph = 1 ∧ ctx.isSome then (8, [], s)
  else if (ph = 2 ∨ ph = 3) ∧ !(match ctx with | some c => decide (c.2.core = r.core) && decide (c.2.fn = fn) | none => false) then (8, [], s)
  else
    match laneRefusal s r (some (r.ain, r.len)) (if last then some (r.aout, r.olen) else none) with
    | some v => (5, [], vioQueue v s)
    | none =>
      let src := laneSrc r r.ain r.len data s
      let m := (if ph = 2 ∨ ph = 3 then (match ctx with | some c => c.2.msg | none => []) else []) ++ src.1
      let s := modLane n (fun l =>
        let o := l.ctxs.filter fun c => decide (c.1 ≠ wCtx r)
        if ph = 0 then l else if ph = 3 then { l with ctxs := o } else { l with ctxs := o ++ [(wCtx r, ⟨r.core, fn, m⟩)] }) src.2
      let s := countLane 0x105 n r.core (hashPerms fn (m.length - src.1.length) m.length (if last then some r.olen else none)) s
      if last then (0, [], laneDst r r.aout (hashFn fn m r.olen) s) else (0, [], s)

/-- SLH-DSA verification under a KIND 2 key (R184): the input is signature ‖ message. -/
def slhVerifyReq (P : SlhP) (r : LaneReq) (data : Bytes) (s : State) : LaneEnd :=
  if wReserved r ∨ r.olen ≠ 0 ∨ r.len ≤ slhLen P then (4, [], s)
  else match laneKey (lanePass r s) r with
    | none => (2, [], s)
    | some (i, e) =>
      let s := lanePass r s
      if keyBad s i e then (2, [], keyFailed i s)
      else if e.kind ≠ 2 ∨ e.mat.length ≠ 64 then (2, [], s)
      else if laneUses s r < 1 then (3, [], s)
      else match laneRefusal s r (some (r.ain, r.len)) none with
        | some v => (5, [], vioQueue v s)
        | none =>
          let src := laneSrc r r.ain r.len data s
          (if slhVerify P e.mat (src.1.drop (slhLen P)) (src.1.take (slhLen P)) then 0 else 1, [], laneSpend r 1 src.2)

/-- SLH-DSA signing (R184): KEY names one of the device's own private keys, 1 identity, 2 attestation, 3 receipt, 4 export (naming:
log entry 33), in firmware mode alone (R232); any other key ends with KEY. A 256s signature occupies every hash lane (R185). -/
def slhSignReq (small : Bool) (r : LaneReq) (data : Bytes) (s : State) : LaneEnd :=
  let P := if small then slh256s else slh256f
  if wReserved r ∨ r.len = 0 ∨ 65536 < r.len ∨ r.olen ≠ slhLen P then (4, [], s)
  else if (core s r.core).prog ∨ !(if small then r.key = 1 ∨ r.key = 2 else r.key = 3 ∨ r.key = 4) then (2, [], s)
  else match devSeed s r.key with
    | none => (2, [], s)
    | some seed =>
      match laneRefusal s r (some (r.ain, r.len)) (some (r.aout, r.olen)) with
      | some v => (5, [], vioQueue v s)
      | none =>
        let src := laneSrc r r.ain r.len data s
        let s := if small then modLanes (fun l => { l with hashBusy := s.time.refCount + 620000 }) src.2 else src.2
        (0, [], laneDst r r.aout (slhSign P seed src.1) s)

/-- An operation that has run counts its Keccak permutations on its lane (R488; how many: log entry 34). -/
def permsRun (n : Nat) (r : LaneReq) (x : LaneEnd) : LaneEnd :=
  if x.1 ≤ 1 then (x.1, x.2.1, countLane 0x105 n r.core (Config.lanePerms r.ctl r.len) x.2.2) else x

/-! ### Modular operations (R188, R189) -/

/-- Vendor firmware alone may use the operation: program mode takes OP 0x01-0x04 (R232). -/
def fwOnly (s : State) (r : LaneReq) : Bool := (core s r.core).prog

/-- Read a request's input and run an operation on it. -/
def withInput (r : LaneReq) (data : Bytes) (outLen : Nat) (s : State) (f : Bytes → State → LaneEnd) : LaneEnd :=
  match laneRefusal s r (some (r.ain, r.len)) (if outLen = 0 then none else some (r.aout, outLen)) with
  | some v => (5, [], vioQueue v s)
  | none =>
    let src := laneSrc r r.ain r.len data s
    f src.1 src.2

/-- The key of a modular request passes `ok`, else KEY; an entry that fails its check is reported (R123, R159). The operation uses one use of
the reservation, and without one ends with BUDGET (R143, R159). -/
def withKey (r : LaneReq) (ok : KEnt → Bool) (s : State) (f : KEnt → (State → State) → LaneEnd) : LaneEnd :=
  if wReserved r then (4, [], s)
  else match laneKey (lanePass r s) r with
    | none => (2, [], s)
    | some (i, e) =>
      let s := lanePass r s
      if keyBad s i e then (2, [], keyFailed i s)
      else if !ok e then (2, [], s)
      else if laneUses s r < 1 then (3, [], s)
      else f e (laneSpend r 1)

/-- The operand a modular or lattice lane has worked on stands in its working memory (R180, R191; log entry 34). -/
def laneWork (n : Nat) (d : Bytes) (s : State) : State :=
  modLane n (fun l => { l with work := (chunks 8 d).zipIdx.map fun x => (x.2, leNat x.1) }) s

/-- RSA private (R188, R189): an S0 key writes the integer out; a K2 key's result goes to the key store's unwrap engine alone. -/
def rsaPrivReq (n : Nat) (r : LaneReq) (data : Bytes) (s : State) : LaneEnd :=
  withKey r (fun e => decide (e.kind = 1) && algRsa e.alg) s fun e spend =>
    let l := rsaLen e.alg
    let out := decide (e.usage = chars2 'S' '0')
    if r.len ≠ l ∨ (out ∧ r.olen ≠ l) then (4, [], s)
    else withInput r data (if out then l else 0) s fun d s =>
      if beAt e.mat 0 l ≤ beNat d then (4, [], s)
      else
        let o := beBytes l (rsaPrivMat e.alg e.mat (beNat d))
        let s := laneWork n d (spend s)
        if out then (0, [], laneDst r r.aout o s) else (0, [], keyResult r.core workEntry 0 15 o s)

/-- RSA public (R188): KIND 2, or the public part of KIND 1. -/
def rsaPubReq (n : Nat) (r : LaneReq) (data : Bytes) (s : State) : LaneEnd :=
  withKey r (fun e => decide (e.kind ≠ 0) && algRsa e.alg) s fun e spend =>
    let l := rsaLen e.alg
    if r.len ≠ l ∨ r.olen ≠ l then (4, [], s)
    else withInput r data l s fun d s =>
      if beAt e.mat 0 l ≤ beNat d then (4, [], s)
      else (0, [], laneDst r r.aout (beBytes l (rsaPub (beAt e.mat 0 l) (beAt e.mat l 4) (beNat d))) (laneWork n d (spend s)))

/-- ECDSA sign (R188): the nonce comes from the DRBG instance of the command's function (R308). -/
def ecdsaSignReq (n : Nat) (r : LaneReq) (data : Bytes) (s : State) : LaneEnd :=
  withKey r (fun e => decide (e.kind = 1) && algEcc e.alg && decide (e.usage = chars2 'S' '0') &&
      (decide (e.mode = 'S'.toNat) || decide (e.mode = 'N'.toNat))) s fun e spend =>
    let c := curveOf e.alg
    if !(r.len = 32 ∨ r.len = 48) ∨ r.olen ≠ 2 * c.len then (4, [], s)
    else withInput r data (2 * c.len) s fun d s =>
      match drbgDraw (instOf (core s r.core).func) (c.len + 8) s with
      | none => (255, [], s)
      | some (k, s) =>
        (0, [], laneDst r r.aout ((ecdsaSign c (beAt e.mat 0 c.len) (ecScalar c k) d).getD (zeroBytes (2 * c.len))) (laneWork n d (spend s)))

/-- ECDSA verify (R188): input digest ‖ r ‖ s. -/
def ecdsaVerifyReq (n : Nat) (r : LaneReq) (data : Bytes) (s : State) : LaneEnd :=
  withKey r (fun e => decide (e.kind = 2) && algEcc e.alg) s fun e spend =>
    let c := curveOf e.alg
    if r.olen ≠ 0 ∨ !(r.len = 32 + 2 * c.len ∨ r.len = 48 + 2 * c.len) then (4, [], s)
    else withInput r data 0 s fun d s =>
      let dl := r.len - 2 * c.len
      (if ecdsaVerify c e.mat (d.take dl) (d.drop dl) then 0 else 1, [], laneWork n d (spend s))

/-- ECDH (R188): the shared secret goes to a key store entry; a point off the curve returns KEY. -/
def ecdhReq (n : Nat) (r : LaneReq) (data : Bytes) (s : State) : LaneEnd :=
  withKey r (fun e => !fwOnly s r && decide (e.kind = 1) && algEcc e.alg) s fun e spend =>
    let c := curveOf e.alg
    if r.len ≠ 2 * c.len ∨ r.olen ≠ 0 then (4, [], s)
    else withInput r data 0 s fun d s =>
      if !ecOn c (beAt d 0 c.len) (beAt d c.len c.len) then (2, [], s)
      else match ecMul c (beAt e.mat 0 c.len) (some (beAt d 0 c.len, beAt d c.len c.len)) with
        | none => (2, [], s)
        | some (x, _) => (0, [], keyResult r.core workEntry 0 15 (beBytes c.len x) (laneWork n d (spend s)))

/-- RSA key pair (R188): LEN names the modulus bytes; the primes and e are the lane's draw. -/
def rsaPairReq (r : LaneReq) (p q e : Nat) (s : State) : LaneEnd :=
  if wReserved r then (4, [], s)
  else if fwOnly s r then (2, [], s)
  else if !(r.len = 256 ∨ r.len = 384 ∨ r.len = 512) ∨ r.olen ≠ r.len + 4 ∨ e % 2 = 0 ∨ e < 3 ∨ 2 ^ 32 ≤ e then (4, [], s)
  else match laneRefusal s r none (some (r.aout, r.olen)), rsaMaterial r.len p q e with
    | some v, _ => (5, [], vioQueue v s)
    | none, none => (4, [], s)
    | none, some m =>
      (0, [], laneDst r r.aout (m.take (r.len + 4)) (keyResult r.core workEntry 1 (r.len / 128 + 4) m s))

/-- EC key pair (R188): LEN names the curve by its coordinate bytes, 32 or 48. -/
def ecPairReq (r : LaneReq) (s : State) : LaneEnd :=
  if wReserved r then (4, [], s)
  else if fwOnly s r then (2, [], s)
  else if !(r.len = 32 ∨ r.len = 48) ∨ r.olen ≠ 2 * r.len then (4, [], s)
  else match laneRefusal s r none (some (r.aout, r.olen)) with
    | some v => (5, [], vioQueue v s)
    | none =>
      let c := if r.len = 32 then p256 else p384
      match drbgDraw (instOf (core s r.core).func) (c.len + 8) s with
      | none => (255, [], s)
      | some (k, s) =>
        let d := ecScalar c k
        let pub := ecBytes c (ecMul c d (ecG c))
        (0, [], laneDst r r.aout pub (keyResult r.core workEntry 1 (if r.len = 32 then 9 else 10) (beBytes c.len d ++ pub) s))

/-! ### Lattice operations (R190) -/

/-- An address generator as the last layer of an NTT leaves it: modulo mode over 256 words, pairs 2 words apart (R191). -/
def nttGen (o : Nat) : AddrGen := ⟨1, o, 4, 256, 7⟩

/-- A lattice lane has run its NTTs: the operand stands in the working memory, and the generators are left as the last layer's walk set them
(R191; log entry 34). -/
def latWork (n : Nat) (d : Bytes) (s : State) : State :=
  modLane n (fun l => { l with gen0 := nttGen 1, gen1 := nttGen 3 }) (laneWork n d s)

/-- The decapsulation key that KEY names: the head entry of a key that an earlier request of the core left in a ceremony buffer (R190; naming:
log entry 34). -/
def kemKey (s : State) (r : LaneReq) : Option Bytes :=
  if (tget [] s.lanes.keyOut r.core).contains r.key ∧ r.key < deviceEntry 0 then (keyAt s r.key).map fun e => e.mat else none

/-- An ML-KEM request by OP[3:0], on a set OP[5:4] of 1 to 3. -/
def kemReq (n op : Nat) (r : LaneReq) (data : Bytes) (s : State) : LaneEnd :=
  let set := bitsOf (wOp r) 5 4
  let alg := if set = 3 then 11 else 15
  if wReserved r ∨ set = 0 ∨ bitsOf (wOp r) 7 6 ≠ 0 then (4, [], s)
  else if (core s r.core).prog then (2, [], s)
  else match op with
    | 1 =>
      if r.olen ≠ kemEkLen set then (4, [], s)
      else match laneRefusal s r none (some (r.aout, r.olen)), cerFree s with
        | some v, _ => (5, [], vioQueue v s)
        | none, none => (2, [], s)
        | none, some b => match drbgDraw (instOf (core s r.core).func) 64 s with
          | none => (255, [], s)
          | some (z, s) =>
            let k := kemKeygen set (z.take 32) (z.drop 32)
            (0, [], laneDst r r.aout k.1 (keyResult r.core (cerEntry b) 1 alg k.2 (latWork n k.1 s)))
    | 2 =>
      if r.len ≠ kemEkLen set ∨ r.olen ≠ kemCtLen set then (4, [], s)
      else withInput r data r.olen s fun d s =>
        if !kemEkOk set d then (2, [], s)
        else match drbgDraw (instOf (core s r.core).func) 32 s with
        | none => (255, [], s)
        | some (b, s) =>
          let k := kemEncaps set d b
          (0, [], laneDst r r.aout k.1 (keyResult r.core workEntry 0 15 k.2 (latWork n d s)))
    | _ =>
      if r.len ≠ kemCtLen set then (4, [], s)
      else match kemKey s r with
        | none => (2, [], s)
        | some dk =>
          if dk.length ≠ 2 * kemEkLen set + 32 then (2, [], s)
          else withInput r data 0 s fun d s => (0, [], keyResult r.core workEntry 0 15 (kemDecaps set dk d) (latWork n d s))

/-! ### Running and ending requests (R158, R167, R174-R178) -/

/-- The oldest request of core `p` on lane `n` that has not run (R158). -/
def laneNext (s : State) (n p : Nat) : Option LaneReq := (laneOf s n).queue.find? fun r => decide (r.core = p) && reqPending r

/-- A block request of one block, after padding (R163, R167). -/
def reqSingle (s : State) (r : LaneReq) : Bool :=
  takesNoData (rOp r) ||
  (let bs := if rOp r = 2 then 8 else match laneKey s r with | some (_, e) => if algTdes e.alg ∧ rOp r ≠ 6 then 8 else 16 | none => 16
   let l := if rSrc r = 0 then r.len % 32 else r.len
   decide (((lanePad (rPad r) bs (zeroBytes l)).getD (zeroBytes l)).length ≤ bs))

/-- The core at which a round-robin that last served `last` arrives first (R167). -/
def roundRobin (last : Nat) (ps : List Nat) : Option Nat :=
  (ps.foldl (fun (best : Option (Nat × Nat)) p =>
    let d := (p + 256 - last - 1) % 256
    match best with | some b => if b.2 ≤ d then best else some (p, d) | none => some (p, d)) none).map fun b => b.1

/-- The cores whose next request on a block lane is, or is not, of a single block. -/
def laneCores (s : State) (n : Nat) (single : Bool) : List Nat :=
  ((laneOf s n).queue.map fun r => r.core).eraseDups.filter fun p => (laneNext s n p).any fun r => reqSingle s r == single

/-- The core whose request a block lane takes next: single-block requests first, each kind round-robin by core (R167). -/
def lanePick (s : State) (n : Nat) : Option Nat :=
  (roundRobin (laneOf s n).turn1 (laneCores s n true)).orElse fun _ => roundRobin (laneOf s n).turnN (laneCores s n false)

/-- A block lane has taken a request of core `p` (R167). -/
def laneTurn (n p : Nat) (single : Bool) (s : State) : State :=
  modLane n (fun l => if single then { l with turn1 := p } else { l with turnN := p }) s

/-- Store a request's end in the queue, for its way back to the port; a twinned one leaves its partner's queue (R176). -/
def laneMark (n tag : Nat) (st : Nat) (out : Bytes) (s : State) : State :=
  mapLanes (fun l => { l with held := l.held.filter fun x => decide (x.2 ≠ tag) })
    (modLane n (fun l => { l with queue := l.queue.map fun r => if r.tag = tag then { r with done := some (st, out) } else r }) s)

/-- A request is left without result: it never ends (R175). -/
def laneLose (n tag : Nat) (s : State) : State :=
  mapLanes (fun l => { l with held := l.held.filter fun x => decide (x.2 ≠ tag) })
    (modLane n (fun l => { l with queue := l.queue.map fun q => if q.tag = tag then { q with lost := true } else q }) s)

/-- The lane is asleep: a request waits for its wake (R461). -/
def laneAsleep (s : State) (n : Nat) : Bool := isHash n && s.pwr.hashAsleep.testBit (n - 16)

/-- What the compare of a twin and its second run find (R175): the faulty lane, none where no lane is found out. -/
def twinJudge (s : State) (n fault : Nat) : Option Nat :=
  if isLat n then none else if fault = 1 then some n else if fault = 2 then some (lanePartner s n) else none

/-- A failed twin check is counted (R175, LANE_TWIN_CTL). -/
def twinCount (n p : Nat) (s : State) : State :=
  countLane 0x106 n p 1 (modLanes (fun l => { l with mismatches := satAdd 0xFFFF l.mismatches 1 }) s)

/-- A lane that the second run found faulty is fenced; an injected fault only reports, unless it is a full one (R175, R484). -/
def twinFence (b : Nat) (test full : Bool) (s : State) : State :=
  if test ∧ !full then errReport 0x0B 2 0x20 b 0 0 0 true s else laneFence b 0x0B test s

/-- No lane was found out: every lane involved is fenced, and the device raises a health report (R175). -/
def twinFenceAll (n : Nat) (test full : Bool) (s : State) : State :=
  let l := (n :: lanePartner s n :: laneSecond s n).eraseDups
  let s := healthReport 7 (leBytes 2 n) s
  if test ∧ !full then errReport 0x0B 2 0x20 n 0 0 0 true s else l.foldl (fun s b => laneFence b 0x0B test s) s

/-- A failed twin check (R175): a lane found faulty is fenced and the result delivered, else every lane involved is fenced and the request
never ends. -/
def twinFault (n fault : Nat) (r : LaneReq) (test full : Bool) (run : State → LaneEnd) (s : State) : State :=
  match twinJudge s n fault with
  | some b =>
    let x := run (twinCount n r.core s)
    if x.1 = 255 then s else twinFence b test full (laneMark n r.tag x.1 x.2.1 x.2.2)
  | none => twinFenceAll n test full (laneLose n r.tag (twinCount n r.core s))

/-- Run core `p`'s next request on lane `n` if it is of the operation asked for and the lane's turn is its (R158, R160, R167). -/
def laneGo (n p fault : Nat) (isOp : LaneReq → Bool) (run : LaneReq → State → LaneEnd) (s : State) : State :=
  match laneNext s n p with
  | none => s
  | some r =>
    if !lanesOn s ∨ !isOp r ∨ laneAsleep s n ∨ (isHash n ∧ s.time.refCount < s.lanes.hashBusy) ∨ (isBlock n ∧ lanePick s n ≠ some p) then s
    else if fault = 4 then laneFence n 0x0C false s
    else
      let s := countLane 0x103 n p 1 (if isBlock n then laneTurn n p (reqSingle s r) s else s)
      let inj := if r.twin then injTake 0x0B n s else (none, s)
      match inj with
      | (some (_, full), s) => twinFault n 1 r true full (run r) s
      | (none, s) =>
        if r.twin ∧ 1 ≤ fault ∧ fault ≤ 3 then twinFault n fault r false true (run r) s
        else let x := run r s; if x.1 = 255 then s else laneMark n r.tag x.1 x.2.1 x.2.2

/-- A block lane request of one OP. -/
def goBlock (op lane core fault : Nat) (data : Bytes) (s : State) : State :=
  if isBlock lane then laneGo lane core fault (fun r => decide (rOp r = op)) (fun r s => blockReq lane r data s) s else s

/-- A hash lane request of one function. -/
def goHash (fn lane core fault : Nat) (run : LaneReq → State → LaneEnd) (s : State) : State :=
  if isHash lane then laneGo lane core fault (fun r => decide (bitsOf (wOp r) 5 0 = fn)) run s else s

/-- A modular lane request of one OP. -/
def goMod (op lane core fault : Nat) (run : LaneReq → State → LaneEnd) (s : State) : State :=
  if isMod lane then laneGo lane core fault (fun r => decide (wOp r = op)) run s else s

/-- A lattice lane request of one operation. -/
def goLat (op lane core fault : Nat) (data : Bytes) (s : State) : State :=
  if isLat lane then laneGo lane core fault (fun r => decide (bitsOf (wOp r) 3 0 = op)) (fun r s => permsRun lane r (kemReq lane op r data s)) s else s

/-! ### Commands -/

/-- ENCIPHER (R161, OP 0). -/
def execEncipher (lane core fault : Nat) (data : List Byte) (s : State) : Res := .next (goBlock 0 lane core fault data s)

/-- DECIPHER (R161, OP 1). -/
def execDecipher (lane core fault : Nat) (data : List Byte) (s : State) : Res := .next (goBlock 1 lane core fault data s)

/-- DES_E1 (R161, OP 2): single DES with the left half of a TDES key. -/
def execDesE1 (lane core fault : Nat) (data : List Byte) (s : State) : Res := .next (goBlock 2 lane core fault data s)

/-- KEYSTREAM (R161, OP 4). -/
def execKeystream (lane core fault : Nat) (data : List Byte) (s : State) : Res := .next (goBlock 4 lane core fault data s)

/-- SUBKEY (R165, OP 5). -/
def execSubkey (lane core fault : Nat) (s : State) : Res := .next (goBlock 5 lane core fault [] s)

/-- GHASH (R161, OP 6). -/
def execGhash (lane core fault : Nat) (data : List Byte) (s : State) : Res := .next (goBlock 6 lane core fault data s)

/-- TAG_COMPARE (R171, OP 7): releases or zeroizes the core's quarantine on the lane. -/
def execTagCompare (lane core fault : Nat) (s : State) : Res := .next (goBlock 7 lane core fault [] s)

/-- TAG (R161, OP 8). -/
def execTag (lane core fault : Nat) (s : State) : Res := .next (goBlock 8 lane core fault [] s)

/-- SHA_256 (R183). -/
def execSha256 (lane core fault : Nat) (data : List Byte) (s : State) : Res :=
  .next (goHash 1 lane core fault (fun r s => hashReq lane r data s) s)

/-- SHA_384 (R183). -/
def execSha384 (lane core fault : Nat) (data : List Byte) (s : State) : Res :=
  .next (goHash 2 lane core fault (fun r s => hashReq lane r data s) s)

/-- SHA_512 (R183). -/
def execSha512 (lane core fault : Nat) (data : List Byte) (s : State) : Res :=
  .next (goHash 3 lane core fault (fun r s => hashReq lane r data s) s)

/-- SHA3_256 (R183). -/
def execSha3256 (lane core fault : Nat) (data : List Byte) (s : State) : Res :=
  .next (goHash 4 lane core fault (fun r s => hashReq lane r data s) s)

/-- SHA3_384 (R183). -/
def execSha3384 (lane core fault : Nat) (data : List Byte) (s : State) : Res :=
  .next (goHash 5 lane core fault (fun r s => hashReq lane r data s) s)

/-- SHA3_512 (R183). -/
def execSha3512 (lane core fault : Nat) (data : List Byte) (s : State) : Res :=
  .next (goHash 6 lane core fault (fun r s => hashReq lane r data s) s)

/-- SHAKE128 (R183). -/
def execShake128 (lane core fault : Nat) (data : List Byte) (s : State) : Res :=
  .next (goHash 7 lane core fault (fun r s => hashReq lane r data s) s)

/-- SHAKE256 (R183). -/
def execShake256 (lane core fault : Nat) (data : List Byte) (s : State) : Res :=
  .next (goHash 8 lane core fault (fun r s => hashReq lane r data s) s)

/-- SLH_DSA_256F_SIGN (R184). -/
def execSlhDsa256fSign (lane core fault : Nat) (data : List Byte) (s : State) : Res :=
  .next (goHash 0x10 lane core fault (fun r s => permsRun lane r (slhSignReq false r data s)) s)

/-- SLH_DSA_256S_SIGN (R184, R185). -/
def execSlhDsa256sSign (lane core fault : Nat) (data : List Byte) (s : State) : Res :=
  .next (goHash 0x12 lane core fault (fun r s => permsRun lane r (slhSignReq true r data s)) s)

/-- SLH_DSA_256F_VERIFY (R184). -/
def execSlhDsa256fVerify (lane core fault : Nat) (data : List Byte) (s : State) : Res :=
  .next (goHash 0x11 lane core fault (fun r s => permsRun lane r (slhVerifyReq slh256f r data s)) s)

/-- SLH_DSA_256S_VERIFY (R184). -/
def execSlhDsa256sVerify (lane core fault : Nat) (data : List Byte) (s : State) : Res :=
  .next (goHash 0x13 lane core fault (fun r s => permsRun lane r (slhVerifyReq slh256s r data s)) s)

/-- RSA_PRIVATE (R188, R189). -/
def execRsaPrivate (lane core fault : Nat) (data : List Byte) (s : State) : Res :=
  .next (goMod 1 lane core fault (fun r s => rsaPrivReq lane r data s) s)

/-- RSA_PUBLIC (R188). -/
def execRsaPublic (lane core fault : Nat) (data : List Byte) (s : State) : Res :=
  .next (goMod 2 lane core fault (fun r s => rsaPubReq lane r data s) s)

/-- ECDSA_SIGN (R188). -/
def execEcdsaSign (lane core fault : Nat) (data : List Byte) (s : State) : Res :=
  .next (goMod 3 lane core fault (fun r s => ecdsaSignReq lane r data s) s)

/-- ECDSA_VERIFY (R188). -/
def execEcdsaVerify (lane core fault : Nat) (data : List Byte) (s : State) : Res :=
  .next (goMod 4 lane core fault (fun r s => ecdsaVerifyReq lane r data s) s)

/-- ECDH (R188). -/
def execEcdh (lane core fault : Nat) (data : List Byte) (s : State) : Res :=
  .next (goMod 5 lane core fault (fun r s => ecdhReq lane r data s) s)

/-- RSA_KEY_PAIR (R188): the operands p, q and e are the lane's draw. -/
def execRsaKeyPair (lane core fault p q e : Nat) (s : State) : Res :=
  .next (goMod 6 lane core fault (fun r s => rsaPairReq r p q e s) s)

/-- EC_KEY_PAIR (R188). -/
def execEcKeyPair (lane core fault : Nat) (s : State) : Res :=
  .next (goMod 7 lane core fault (fun r s => ecPairReq r s) s)

/-- ML_KEM_KEYGEN (R190). -/
def execMlKemKeygen (lane core fault : Nat) (s : State) : Res := .next (goLat 1 lane core fault [] s)

/-- ML_KEM_ENCAPS (R190). -/
def execMlKemEncaps (lane core fault : Nat) (data : List Byte) (s : State) : Res := .next (goLat 2 lane core fault data s)

/-- ML_KEM_DECAPS (R190). -/
def execMlKemDecaps (lane core fault : Nat) (data : List Byte) (s : State) : Res := .next (goLat 3 lane core fault data s)

/-- LANE_OP_COMPLETE (R158): the oldest request of a core on a lane, once it has run, goes back to the core's port; a result nobody
waits for any more is discarded (R218, R226), and a request without result leaves the queue and delivers nothing (R175, R180). -/
def execLaneOpComplete (lane core : Nat) (s : State) : Res :=
  .next (
    match (laneOf s lane).queue.find? fun r => r.core = core with
    | none => s
    | some r =>
      let gone := modLane lane (fun l => { l with queue := l.queue.filter fun q => decide (q.tag ≠ r.tag) }) s
      if r.lost then gone
      else match r.done with
        | none => s
        | some d =>
          modCore core (fun c => { c with reqs := c.reqs.map fun q => if q.tag = r.tag then { q with done := some d, arrived := s.time.refCount } else q }) gone)

/-- The least spare physical lane that is neither fenced nor in service (R177). -/
def spareFor (s : State) (n : Nat) : Option Nat :=
  let cand := if isBlock n then [16, 17] else if isHash n then [8] else []
  let fenced := if isBlock n then s.lanes.blkFenced else s.lanes.hashFenced
  cand.find? fun x => !fenced.testBit x &&
    !(s.lanes.lanes.any fun e => decide (isBlock e.1 = isBlock n) && decide (e.2.phys = some x))

/-- Spare `x` takes a fenced lane's logical number with empty key slots (R177). -/
def laneSwap (lane x : Nat) (s : State) : State :=
  let s := modLane lane (fun l => { l with phys := some x, fenced := false, slots := [], drops := [] }) s
  modLanes (fun l => if isBlock lane then { l with blkSpares := l.blkSpares - 1 } else { l with hashSpare := false }) s

/-- LANE_SPARE_SWAP (R177). -/
def execLaneSpareSwap (lane : Nat) (s : State) : Res :=
  .next (
    match spareFor s lane with
    | none => s
    | some x => if (laneOf s lane).fenced then laneSwap lane x s else s)

/-- HASH_LANE_WAKE (R461): a sleeping hash lane with a request in its queue wakes. -/
def execHashLaneWake (lane : Nat) (s : State) : Res :=
  .next (
    if isHash lane ∧ laneAsleep s lane ∧ !(laneOf s lane).queue.isEmpty then
      modPwr (fun p => { p with hashAsleep := setBit p.hashAsleep (lane - 16) false }) s
    else s)

end Sys2Proof.Machine
end

