-- ==== Sys2Proof/Machine/MoverOps.lean ====
section
/-!
DEFINITION. The shared operations of mover channels and of pane loading: descriptors and their checks (R271-R274), beats and bursts
(R275), panes (R285, R290), ends (R273, R277-R279).
-/

namespace Sys2Proof.Machine

/-! ### Channels -/

/-- Parse the 32 bytes of a queued descriptor at shared offset `a` (R272). -/
def descAt (s : State) (a : Nat) : MovDesc :=
  let b := mread s.mov.shared a 32
  let w := leAt b 20 4
  ⟨leAt b 0 8, leAt b 8 8, leAt b 16 4 % 2 ^ 25, bitsOf w 3 0, bitsOf w 7 4, bitsOf w 11 8, bitsOf w 15 12, bitsOf w 19 16, w.testBit 20,
   bitsOf w 31 21, decide (2 ^ 25 ≤ leAt b 16 4) || decide (leAt b 28 4 ≠ 0), none, some (a + 24), [], [], false⟩

/-- A core address of space CORE: physical core and address. -/
def coreOf (a : Nat) : Nat × Nat := (a / 2 ^ 32 % 256, a % 2 ^ 32)

/-- Beat widths (log2) that a space accepts at an address (R274). -/
def widthOk (sp a w : Nat) : Bool :=
  match sp with
  | 0 => decide (w ≤ 8)
  | 1 => if (coreOf a).2 < 0x10000 then decide (w = 2) || decide (w = 4) else decide (w = 2) || decide (w = 4) || decide (w = 6)
  | 2 => decide (w = 2) || decide (w = 4) || decide (w = 6)
  | 3 | 4 => decide (w = 6)
  | _ => false

/-- An address fits its space (R272). -/
def addrOk (sp a : Nat) : Bool :=
  match sp with
  | 0 => true
  | 1 => decide (a < 2 ^ 40) && decide ((coreOf a).1 < 144)
  | 3 => decide (a < 2 ^ 22)
  | 4 => decide (a < 2 ^ 14)
  | _ => decide (a < 2 ^ 24)

/-- An internal address is aligned to its width, and BURST is not below it (R273); KEYSTORE and PORT addresses name an entry or a route. -/
def internalOk (sp a w burst : Nat) : Bool := decide (sp = 0) || ((decide (a % 2 ^ w = 0) || decide (3 ≤ sp)) && decide (w ≤ burst))

/-- The checks of a descriptor (R273): KEYSTORE and PORT are destinations of hardware owners alone. -/
def descValid (firmware : Bool) (d : MovDesc) : Bool :=
  !d.bad && decide (1 ≤ d.len) && decide (d.len ≤ 16777216) && decide (d.srcSp ≤ 2) && (decide (d.dstSp ≤ 2) || (!firmware && decide (d.dstSp ≤ 4))) &&
  widthOk d.srcSp d.src d.srcW && widthOk d.dstSp d.dst d.dstW && addrOk d.srcSp d.src && addrOk d.dstSp d.dst &&
  internalOk d.srcSp d.src d.srcW d.burst && internalOk d.dstSp d.dst d.dstW d.burst && decide (4 ≤ d.burst) && decide (d.burst ≤ 8) &&
  (decide (d.func ≤ 1024) || decide (d.func = 2047))

/-- The checks of a queued descriptor: firmware writes the queues of the bulk pool (R271, R273). -/
def descOk (d : MovDesc) : Bool := descValid true d

/-- Host pieces of one side of a transfer. -/
def piecesOf (sp a len : Nat) (ps : List (Nat × Nat)) : List (Nat × Nat) := if ps.isEmpty then (if sp = 0 then [(a, len)] else []) else ps

/-! ### Panes (R285, R290) -/

/-- The host regions a pane of a function would load; the device pane holds none. -/
def paneRegions (s : State) (f : Nat) : List HostRegion := if f = 2047 then [] else (fnOf s f).regions
/-- The commit epoch of a function's regions. -/
def paneEpoch (s : State) (f : Nat) : Nat := if f = 2047 then 0 else (fnOf s f).epoch

/-- Begin loading a function's pane into a checker's shadow (R290). -/
def paneLoad (m f : Nat) (s : State) : State :=
  let x : Pane := ⟨f, paneRegions s f, paneEpoch s f⟩
  modChecker m (fun c => if c.activeB then { c with paneA := x, shadow := .loading } else { c with paneB := x, shadow := .loading }) s

/-- The shadow pane of a checker. -/
def shadowPane (c : Checker) : Pane := if c.activeB then c.paneA else c.paneB

/-- The core no longer waits for this mover-port request: a fault abandoned it, and its data goes nowhere (R226). -/
def portGone (s : State) (d : MovDesc) : Bool :=
  match d.port with | some x => !((core s x.1).reqs.any fun r => decide (r.port = 0x1E) && decide (r.tag = x.2)) | none => false

/-- Mover-port requests that a fault of core `p` abandoned and that its channels have not ended: they drain under the old pane (R226, R290). -/
def coreDrains (s : State) (p : Nat) : Nat :=
  (s.mov.chans.map fun c => ((c.2.cur.toList ++ c.2.reqs).filter fun d => decide ((d.port.map fun x => x.1) = some p) && portGone s d).length).sum

/-- Swap the shadow in (R290): what is outstanding completes under the old pane, and OLD_COUNT counts it. A channel swaps between two
descriptors, with nothing outstanding. -/
def paneSwap (m : Nat) (s : State) : State :=
  modChecker m (fun c => { c with activeB := !c.activeB, shadow := .empty, oldCount := if m < 144 then min 64 (coreDrains s m) else 0 }) s

/-- A request of the old pane ends: OLD_COUNT counts down (R290). -/
def oldDrain (d : MovDesc) (s : State) : State :=
  match d.port with
  | some x => if portGone s d then modChecker x.1 (fun c => { c with oldCount := c.oldCount - 1 }) s else s
  | none => s

/-- The channel's active pane serves its descriptor (R290). -/
def paneFresh (s : State) (n f : Nat) : Bool :=
  let p := activePane (checker s (144 + n))
  decide (p.func = f) && (decide (f = 2047) || decide (p.epoch = (fnOf s f).epoch)) && decide ((checker s (144 + n)).shadow ≠ .loading)

/-! ### Beats -/

/-- Which piece holds offset `off`: address and bytes left in it. -/
def pieceAt : List (Nat × Nat) → Nat → Nat × Nat
  | [], off => (off, 0)
  | (a, l) :: ps, off => if off < l then (a + off, l - off) else pieceAt ps (off - l)

/-- Bytes from transfer offset `off` that one beat covers, at most `lim`; `host` is the longest host beat (R274, R275). -/
def beatLen (host sp a w off lim : Nat) (ps : List (Nat × Nat)) : Nat :=
  if ps.isEmpty ∧ sp ≠ 0 then min lim (2 ^ w - (a + off) % 2 ^ w)
  else
    let x := pieceAt ps off
    min lim (min (min (max 1 host) (2 ^ w)) (min x.2 (4096 - x.1 % 4096)))

/-- The refusal of a beat by the channel's pane (R283, R287). -/
def beatRefusal (s : State) (n sp a len : Nat) (write : Bool) : Option VioReport :=
  let ck := checker s (144 + n)
  let p := activePane ck
  if sp = 0 then
    (firstForbidden p.regions false write (a + len) (p.regions.length + 1) a).map fun x =>
      ⟨x.1, timeField s, if write then 4 else 3, 0xC0 + n, x.2.1, x.2.2, p.func, ck.activeB, 1, len, x.1 - a⟩
  else if sp = 1 then
    let c := (coreOf a).2
    match mapForbidden (mapRows 0 0 0) false (if write then .movWrite else .movRead) (c + len) 4 c with
    | some b => some ⟨b, timeField s, if write then 4 else 3, 0xC0 + n, 0xFF, 3, p.func, ck.activeB, 0, len, b - c⟩
    | none =>
      if c < 0x80000000 then none
      else some ⟨c, timeField s, if write then 4 else 3, 0xC0 + n, 0xFF, 1, p.func, ck.activeB, 0, len, 0⟩
  else none

/-- Read a beat from an internal space. -/
def beatRead (s : State) (sp a n : Nat) : Bytes :=
  if sp = 1 then (List.range n).map fun i => coreByte s (coreOf a).1 ((coreOf a).2 + i) else mread s.mov.shared a n

/-- Write a beat to an internal space. -/
def beatWrite (sp a : Nat) (d : Bytes) (s : State) : State :=
  if sp = 1 then coreWrite (coreOf a).1 (coreOf a).2 d s
  else modMov (fun m => { m with shared := mwrite m.shared a d }) s

/-- End of the present burst in the transfer (R275). -/
def burstEnd (c : Chan) (d : MovDesc) : Nat := min d.len ((c.bursts + 1) * 2 ^ d.burst)

/-- The channel is at a burst boundary with nothing of the next burst begun. -/
def atBoundary (c : Chan) (d : MovDesc) : Bool := !c.asked && !c.retryWait && decide (c.got = c.bursts * 2 ^ d.burst)

/-- Writes of this transfer are dropped: a function reset, a fenced load, or the command's closed output aperture (R224, R279). -/
def writesDropped (s : State) (c : Chan) (d : MovDesc) : Bool :=
  c.dropped || (match d.port with | some x => !d.dstP.isEmpty && (core s x.1).closed | none => false)

/-! ### Ends (R273, R277, R278) -/

/-- A STAT word. -/
def statWord (code retries residue : Nat) : Nat := code * 2 ^ 28 + retries * 2 ^ 25 + residue

/-- Status of a mover-port request (R215, R217, R273). -/
def portStatus (code : Nat) : Nat := match code with | 1 => 9 | 2 => 5 | 4 => 9 | _ => 0

/-- A request of a core ends with a status at its port (R217). -/
def reqDone (p tag st : Nat) (out : Bytes) (s : State) : State :=
  modCore p (fun c => { c with reqs := c.reqs.map fun r => if r.tag = tag then { r with done := some (st, out), arrived := s.time.refCount } else r }) s

/-- A mover-port request of an aborted channel ends: with which status, the spec does not say (R215, R278; log entry 59). -/
def abortDone (x : Nat × Nat) (s : State) : State := reqDone x.1 x.2 (freeNat s % 16) [] (bumpFree s)

/-- An abort skips the rest of the queue: the requests that wait in it (R278). -/
def skipPorts (n : Nat) (s : State) : State :=
  (chan s n).reqs.foldl (fun s d => match d.port with | some x => abortDone x s | none => s) (modChan n (fun c => { c with reqs := [] }) s)

/-- The key fetch at the head of the channel's fetch queue is due: the bulk descriptors queued before it have been taken (R120, R535). -/
def keyDue (c : Chan) : Bool :=
  match c.keyq with
  | [] => false
  | (_, mark) :: _ =>
    let d := ringDist (2 ^ c.qlog2) c.head mark
    decide (d = 0) || decide (ringDist (2 ^ c.qlog2) c.head c.tail < d)

/-- What a miss reads now: its directory entry, or its key block (R117, R127). -/
def fetchRange (s : State) (m : Miss) : Nat × Nat :=
  if m.stage = .dir then ((fnOf s m.fn).dirBase + 16 * m.index, 16) else (m.ptr, m.len)

/-- The descriptor of a key fetch: from the host into the miss's entry of the key store ingress (R271, R272). -/
def fetchDesc (m : Miss) (a len : Nat) : MovDesc :=
  ⟨a, m.id % 1024, len, 0, 8, 3, 6, 8, false, m.fn, false, none, none, [], [], false⟩

/-- Start the key fetch at the head of channel `n`'s fetch queue; a miss that has ended since needs none, and a refused read ends its miss with
0x0209 (R128, R129). -/
def keyStart (n : Nat) (s : State) : State :=
  match (chan s n).keyq with
  | [] => s
  | (id, _) :: rest =>
    let t := modChan n (fun c => { c with keyq := rest }) s
    match (missAt s id).filter fun m => decide (m.stage = .dir) || decide (m.stage = .block) with
    | none => t
    | some m =>
      let x := fetchRange s m
      match hostRead (0xC0 + n) m.fn x.1 x.2 t with
      | (true, s) => modChan n (fun c => { c with hw := some (fetchDesc m x.1 x.2), hwMiss := some id }) s
      | (false, s) => missEnd id (some 0x0209) s

/-- Take the next descriptor of a channel, if it is free: a key fetch that is due, a core's request, else the queue; an invalid one ends at
once (R271, R273). One whose host writes a function reset has dropped starts with them dropped (R279). -/
def chanTake (n : Nat) : Nat → State → State
  | 0, s => s
  | fuel + 1, s =>
    let c := chan s n
    if c.cur.isSome ∨ c.hw.isSome ∨ c.halted then s
    else if keyDue c then (if tagFree s n then chanTake n fuel (keyStart n s) else s)
    else
      let go := fun (d : MovDesc) (s : State) =>
        modChan n (fun c => { c with
          cur := some d, code := 15, retries := 0, residue := 0, asked := false, bursts := 0, got := 0, put := 0, hold := []
          dropped := d.void || (match d.statAt with | some a => c.voids.contains a | none => false)
          voids := match d.statAt with | some a => c.voids.filter (fun x => decide (x ≠ a)) | none => c.voids }) s
      match c.reqs with
      | d :: rest => go d (modChan n (fun c => { c with reqs := rest }) s)
      | [] =>
        if c.head = c.tail then s
        else
          let a := c.qbase + 32 * c.head
          let d := descAt s a
          let s := modChan n (fun c => { c with head := (c.head + 1) % 2 ^ c.qlog2 }) s
          if descOk d then go d s
          else
            chanTake n fuel (modChan n (fun c => { c with code := 5, retries := 0, residue := d.len })
              (modMov (fun m => { m with shared := mwrite m.shared (a + 24) (leBytes 4 (statWord 5 0 d.len)) }) s))

/-- Begin the descriptor at hand: load its pane where the active one does not serve, else ask for the next source beat; a refused beat
leaves the end to the caller (R287, R290). -/
def chanAsk (n : Nat) (s : State) : Option VioReport × State :=
  let c := chan s n
  match c.cur with
  | none => (none, s)
  | some d =>
    if c.asked ∨ c.retryWait ∨ burstEnd c d ≤ c.got then (none, s)
    else if !paneFresh s n d.func then
      (none, if (checker s (144 + n)).shadow = .loading then s else paneLoad (144 + n) d.func s)
    else if n = 63 ∧ atBoundary c d ∧ (c.mir.isSome ∨ (s.par.key.isSome ∧ !s.par.txq.isEmpty)) then (none, s)
    else if d.srcSp = 0 ∧ !tagFree s n then (none, s)
    else
      let ps := piecesOf d.srcSp d.src d.len d.srcP
      let k := beatLen (readLim s) d.srcSp d.src d.srcW c.got (burstEnd c d - c.got) ps
      let host := !ps.isEmpty
      let a := if host then (pieceAt ps c.got).1 else d.src + c.got
      match beatRefusal s n (if host then 0 else d.srcSp) a k false with
      | some v => (some v, s)
      | none =>
        let s := modChan n (fun c => { c with asked := true }) s
        let f := if d.func = 2047 then 0 else d.func
        (none, if host then emit (.read f a k (noSnoopAt s f a)) s else s)

/-- Write the end of the present descriptor: STAT, the owner's status, the vector, and the halt of a bus error (R273, R277, R278). -/
def descEnd (n code residue : Nat) (s : State) : State :=
  let c := chan s n
  match c.cur with
  | none => s
  | some d =>
    let fire := c.abort || (decide (code = 1) && d.irq)
    let s := match d.statAt with
      | some a => modMov (fun m => { m with shared := mwrite m.shared a (leBytes 4 (statWord code c.retries residue)) }) s
      | none => s
    let s := if c.abort then skipPorts n s else s
    let s := match d.port with
      | some x => if code = 3 then abortDone x (oldDrain d s) else reqDone x.1 x.2 (portStatus code) [] (oldDrain d s)
      | none => s
    let s := modChan n (fun c => { c with
      cur := none, code := code, residue := residue, asked := false, hold := [], retryWait := false, abort := false,
      halted := decide (code = 1) && d.port.isNone, head := if c.abort then c.tail else c.head, dropped := false
      voids := if c.abort then [] else c.voids }) s
    if fire then fireMsix 0 10 s else s

/-- Go on after an end or a beat: take descriptors and ask for beats; a refused beat ends its descriptor with ACCESS, with fuel. -/
def chanRun (n : Nat) : Nat → State → State
  | 0, s => s
  | fuel + 1, s =>
    let s := if (chan s n).cur.isNone then chanTake n (2 ^ (chan s n).qlog2 + (chan s n).keyq.length + 1) s else s
    match chanAsk n s with
    | (none, s) => s
    | (some v, s) =>
      let left := match (chan s n).cur with | some d => d.len - (chan s n).put + (chan s n).residue | none => 0
      chanRun n fuel (descEnd n 2 left (vioQueue v s))

/-- Go on with a channel. -/
def chanGo (n : Nat) (s : State) : State := chanRun n ((chan s n).reqs.length + 2 ^ (chan s n).qlog2 + 2) s

/-- End the present descriptor and go on. -/
def chanEnd (n code residue : Nat) (s : State) : State := chanGo n (descEnd n code residue s)

/-- Bytes of the present transfer that have not reached the destination. -/
def leftOf (c : Chan) : Nat := match c.cur with | some d => d.len - c.put + c.residue | none => 0

/-- Put the bytes held to the destination beat by beat, with fuel; the flag says that a beat was refused (R275, R283). -/
def chanPut (n : Nat) (d : MovDesc) : Nat → State → Bool × State
  | 0, s => (false, s)
  | fuel + 1, s =>
    let c := chan s n
    let ps := piecesOf d.dstSp d.dst d.len d.dstP
    let k := beatLen (writeLim s) d.dstSp d.dst d.dstW c.put (burstEnd c d - c.put) ps
    if c.hold.isEmpty ∨ (c.hold.length < k ∧ c.got < burstEnd c d) then (false, s)
    else
      let host := !ps.isEmpty
      let a := if host then (pieceAt ps c.put).1 else d.dst + c.put
      let b := c.hold.take k
      let count := countChan 0x201 n b.length (if d.func = 2047 then none else some d.func) (some (if host then (1, a) else (0, a)))
      let next := fun s => modChan n (fun c => { c with hold := c.hold.drop k, put := c.put + b.length }) s
      match beatRefusal s n (if host then 0 else d.dstSp) a k true with
      | some v => (true, vioQueue v s)
      | none =>
        if host then
          if writesDropped s c d then chanPut n d fuel (modChan n (fun c => { c with residue := c.residue + b.length }) (next s))
          else
            let f := if d.func = 2047 then 0 else d.func
            chanPut n d fuel (next (count (emit (.write f a b (relaxedAt s f a) (noSnoopAt s f a)) s)))
        else if portGone s d then chanPut n d fuel (modChan n (fun c => { c with residue := c.residue + b.length }) (next s))
        else chanPut n d fuel (next (count (beatWrite d.dstSp a b s)))

/-! ### Key fetches (R127, R535) -/

/-- Queue the read of a miss on its channel. -/
def keyAsk (id : Nat) (s : State) : State :=
  let n := keyChannel s id - 0xC0
  chanGo n (modChan n (fun c => { c with keyq := c.keyq ++ [(id, c.tail)] }) s)

/-- The channel is done with the key fetch that it ran: its data has arrived, or its read still fails after the retries (R277, R488). -/
def keyFree (n : Nat) (ok : Bool) (s : State) : State :=
  let d := (chan s n).hw
  let len := match d with | some d => d.len | none => 0
  let f := match d with | some d => d.func | none => 0
  let s := modChan n (fun c => { c with hw := none, hwMiss := none }) s
  if ok then chanDone (0xC0 + n) f len s else chanFail (0xC0 + n) len s

/-! ### Port requests (R215, R226, R535) -/

/-- The channel of a core's mover-port requests (R535). -/
def portChan (s : State) (p : Nat) : Nat := 16 + 2 * coreCluster p + (logicalOf s p).getD 0 % 2

/-- A core has a mover-port request on a channel. -/
def portBusy (s : State) (p : Nat) : Bool := portWaits s p

end Sys2Proof.Machine
end

