-- ==== Sys2Proof/Machine/Movers.lean ====
section
/-!
DEFINITION. The movers' and panes' commands (R268-R293).
-/

namespace Sys2Proof.Machine

/-- A queue write of the bulk pool is refused on this channel: an owner other than the pool has it (R269). -/
def tailRefused (s : State) (n : Nat) : Bool :=
  decide (n < 48) || (decide (56 ≤ n) && decide (n ≤ 62) && s.kst.fetchRsv) || (decide (n = 63) && !s.mov.ded.testBit 15)

/-- MOV_TAIL_WRITE (R269, R271): the channel takes the descriptors up to the tail; a channel of another owner is refused with SETUP_CONFLICT. -/
def execMovTailWrite (chan value : Nat) (s : State) : Res :=
  .next (regWrote 0 <|
    if !regsOpen s ∨ 64 ≤ chan then s
    else if tailRefused s chan then modMov (fun m => { m with conflict := true }) s
    else chanGo chan (modChan chan (fun c => { c with tail := value % 4096 % 2 ^ c.qlog2 }) s))

/-- The outstanding beat of a channel fails: it is retried through the Lift, or the transfer ends (R276, R277). -/
def beatFail (n : Nat) (s : State) : State :=
  let c := Machine.chan s n
  if c.abort then chanEnd n 3 (leftOf c) s
  else if s.mov.retryCount ≤ c.retries then chanEnd n 1 (leftOf c) s
  else
    let s := countChan 0x203 n 1 (c.cur.map fun d => d.func) none
      (modChan n (fun c => { c with asked := false, retries := c.retries + 1, retryWait := true }) s)
    if liftAdmits s liftRetry s.slm.qRetry then liftInsert (.retry n) (tick s + 2) s
    else modSlm (fun m => { m with retryWait := m.retryWait ++ [n] }) s

/-- The data of a source beat passes the ECC of the ingress buffers, or of the shared scratch it is read from (R475, R483): the flag says that it is
good. -/
def beatPass (d : MovDesc) (got : Nat) (s : State) : Bool × State :=
  let host := d.srcSp = 0 ∨ !d.srcP.isEmpty
  if !host ∧ d.srcSp ≠ 2 then (true, s)
  else
    let det := if host then 0x03 else 0x07
    let unit := if host then 0 else Config.sharedBank (d.src + got)
    match injTake det unit s with
    | (none, s) => (true, s)
    | (some (0, _), s) => (true, errCorrected det s)
    | (some _, s) => (false, errReport det 1 1 unit (if d.func = 2047 then 0 else d.func) (if host then 0 else d.src + got) 0 true s)

/-- A source beat arrives: the destination beats that it fills are written. -/
def beatArrive (n : Nat) (d : MovDesc) (data : Bytes) (s : State) : State :=
  let c := Machine.chan s n
  let ps := piecesOf d.srcSp d.src d.len d.srcP
  let k := beatLen (readLim s) d.srcSp d.src d.srcW c.got (burstEnd c d - c.got) ps
  let b := if ps.isEmpty then beatRead s d.srcSp (d.src + c.got) k else padTo k data
  let s := xbarPass n (modChan n (fun c => { c with asked := false, retries := 0, got := c.got + k, hold := c.hold ++ b }) s)
  match chanPut n d (c.hold.length + k + 1) s with
  | (true, s) => chanEnd n 2 (leftOf (Machine.chan s n)) s
  | (false, s) => chanGo n s

/-- MOVER_READ_ARRIVAL (R275): the outstanding source beat arrives, host data as the operand; one that fails its ECC is a bus error (R475). With no
beat outstanding the channel asks again for what it waited for: a tag (R270). -/
def execMoverReadArrival (chan : Nat) (data : List Byte) (s : State) : Res :=
  .next (
    let c := Machine.chan s chan
    match c.cur with
    | none => s
    | some d =>
      if !s.pwr.main then s
      else if !c.asked then chanGo chan s
      else match beatPass d c.got s with
        | (true, s) => beatArrive chan d data s
        | (false, s) => beatFail chan s)

/-- MOVER_BUS_ERROR (R276, R277): the outstanding beat fails; it is retried through the Lift, or the transfer ends. -/
def execMoverBusError (chan : Nat) (s : State) : Res :=
  .next (
    let c := Machine.chan s chan
    if !s.pwr.main ∨ !c.asked ∨ c.cur.isNone then s else beatFail chan s)

/-- MOVER_BURST_DONE (R275, R278, R281): the burst in the holding register is out; the next starts, or the descriptor ends. On channel 63
a mirror burst leaves. -/
def execMoverBurstDone (chan : Nat) (s : State) : Res :=
  .next (
    let c := Machine.chan s chan
    if !s.pwr.main then s
    else if chan = 63 ∧ c.mir.isSome then chanGo 63 (mirrorBurst s)
    else match c.cur with
    | none => s
    | some d =>
      if c.put < burstEnd c d ∨ c.asked ∨ c.retryWait then s
      else
        let s := countChan 0x202 chan 1 (some d.func) none (modChan chan (fun c => { c with bursts := c.bursts + 1 }) s)
        if d.len ≤ c.put then chanEnd chan (if c.residue = 0 then 0 else 6) (leftOf c) s
        else if c.abort then chanEnd chan 3 (leftOf c) s
        else chanGo chan s)

/-- MOV_ABORT (R278): a waiting retry is withdrawn, a burst in progress completes first; an idle channel ignores it. -/
def execMovAbort (chan : Nat) (s : State) : Res :=
  .next (regWrote 0 <|
    let c := Machine.chan s chan
    if !regsOpen s ∨ 64 ≤ chan then s
    else match c.cur with
    | none => s
    | some d =>
      let s := modChan chan (fun c => { c with abort := true }) s
      if c.retryWait then
        let s := modSlm (fun m => { m with retryWait := m.retryWait.filter fun x => decide (x ≠ chan) }) (liftDrop (.retry chan) s)
        chanEnd chan 3 (d.len - c.bursts * 2 ^ d.burst) (liftFreed s)
      else if atBoundary c d then chanEnd chan 3 (leftOf c) s
      else s)

/-- MOV_RESUME (R279): a halted channel takes its next descriptor. -/
def execMovResume (chan : Nat) (s : State) : Res :=
  .next (regWrote 0 <|
    if !regsOpen s ∨ 64 ≤ chan ∨ !(Machine.chan s chan).halted then s
    else chanGo chan (modChan chan (fun c => { c with halted := false }) s))

/-- MOV_BULK_MAP_WRITE (R120, R269): channels 56-62 cannot be dedicated while FETCH_RSV is 1; CONFLICT is cleared by a 1. -/
def execMovBulkMapWrite (value : Nat) (s : State) : Res :=
  .next (regWrote 0 <|
    if !regsOpen s then s
    else
      let s := if value.testBit 31 then modMov (fun m => { m with conflict := false }) s else s
      if s.kst.fetchRsv ∧ bitsOf value 14 8 ≠ 0 then modMov (fun m => { m with conflict := true }) s
      else modMov (fun m => { m with ded := value % 65536 }) s)

/-- CREDIT_RESERVE (R269, R280): channel 63, at a burst boundary, resolves the route of the next mirror burst and reserves its credit, or waits. -/
def execCreditReserve (chan : Nat) (s : State) : Res :=
  .next (
    if chan = 63 ∧ s.pwr.main ∧ ((Machine.chan s 63).cur.all fun d => atBoundary (Machine.chan s 63) d) then mirrorReserve s else s)

/-! ### Host regions and panes -/

/-- A commit of region `n` for function `f` overlaps a valid host region of another function (R286). -/
def commitOverlaps (s : State) (f : Nat) (r : HostRegion) : Bool :=
  r.attr.testBit 0 && s.hif.fns.any fun e => decide (e.1 ≠ f) && e.2.regions.any (regionsOverlap r)

/-- A report write as it is issued: the header's END_TIME is the time at which the entries before it were complete (R65). The header is the one
write of 60 bytes, from its second dword on. -/
def rptBytes (b : Bytes) (s : State) : Bytes := if b.length = 60 then patch b 12 (leBytes 8 (timeField s)) else b

/-- Issue reset report writes of function `f` in order, until one is refused (R34, R65, R292): what is left. -/
def rptWrites (f : Nat) : List (Nat × Nat × Bytes) → State → List (Nat × Nat × Bytes) × State
  | [], s => ([], s)
  | w :: ws, s =>
    match hostWrite w.1 f w.2.1 (rptBytes w.2.2 s) false s with
    | (true, s) => rptWrites f ws s
    | (false, s) => (w :: ws, s)

/-- Try the function's waiting report writes (R292). -/
def rptFlush (f : Nat) (s : State) : State :=
  let r := rptWrites f (fnOf s f).rptHeld s
  modFn f (fun x => { x with rptHeld := r.1 }) r.2

/-- What waits for a commit of the function is tried again: refused fetches and held writes (R13, R292). -/
def commitRetry (f : Nat) (s : State) : State :=
  let s := rptFlush f (modFn f (fun x => { x with rings := x.rings.map fun r => { r with fetchHold := false } }) s)
  drainRel (modHif (fun h => { h with relq := h.relq.map fun r => if r.fn = f then { r with stuck := false } else r }) s)

/-- PANE_HR_COMMIT (R286, R292): commit the staging copy of region `region` to the selected function, unless it overlaps another's. -/
def execPaneHrCommit (region value : Nat) (s : State) : Res :=
  .next (regWrote 0 <|
    if !regsOpen s ∨ 8 ≤ region then s
    else
      let f := s.hif.fnSel
      let s := modHif (fun h => { h with hrStage := h.hrStage.modify region fun r => { r with attr := Nat.land value 0xFC7F } }) s
      let r := s.hif.hrStage.getD region HostRegion.none
      if commitOverlaps s f r then modMov (fun m => { m with paneConflict := true }) s
      else commitRetry f (modFn f (fun x => { x with regions := x.regions.set region r, epoch := x.epoch + 1 }) s))

/-- A core's command pane is refused: the token completes with 0x0104, charged as dispatched (R82, R288). -/
def paneRefusedCore (p : Nat) (s : State) : State :=
  match (core s p).given with
  | none =>
    match (core s p).late with
    | none => s
    | some x => modCore p (fun c => { c with late := none, st := .release 0x0104 0, pc := c.askPc, units := max x.1.work (earlyUnits (dOpcode x.1.desc) 0) }) s
  | some i =>
    let op := dOpcode (tok s i).desc
    let s := modCore p (fun c => { c with given := none }) (parkDrop i s)
    settleToken i (modTok i (fun t => { t with
      st := .held, status := 0x0104, mclass := opClass op, units := max t.work (earlyUnits op 0), resLen := 0 }) s)

/-- PANE_LOAD_DONE (R284, R288, R290): the load into the shadow of checker `m` ends READY or REFUSED; the load waits for SWAP_DONE. -/
def execPaneLoadDone (m : Nat) (s : State) : Res :=
  .next (
    let c := checker s m
    if !s.pwr.main ∨ c.shadow ≠ .loading ∨ c.oldCount ≠ 0 then s
    else
      let x := shadowPane c
      match paneFault x.regions with
      | some (i, b, cause) =>
        let s := vioQueue ⟨b, timeField s, 5, if m < 144 then m else 0xC0 + (m - 144), i, cause, x.func, !c.activeB, 1, 0, 0⟩
          (modChecker m (fun c => { c with shadow := .refused }) s)
        if m < 144 then paneRefusedCore m s
        else chanEnd (m - 144) 2 (leftOf (chan s (m - 144))) s
      | none =>
        if m < 144 then modChecker m (fun c => { c with shadow := .ready }) s
        else chanGo (m - 144) (paneSwap m s))

/-- The 32 bytes of a violation report (R293). -/
def vioBytes (v : VioReport) : Bytes :=
  leBytes 8 v.addr ++ leBytes 8 v.time ++ leBytes 1 v.kind ++ leBytes 1 v.master ++ leBytes 1 v.region ++ leBytes 1 v.cause ++
  leBytes 2 v.func ++ leBytes 1 (b2n v.paneB + 2 * v.space) ++ [0] ++ leBytes 4 v.len ++ leBytes 4 v.offset

/-- A read of PANE_VIO_NEXT: the oldest report moves into the data registers, and the read returns 1, or 0 on an empty queue. -/
def vioTake (s : State) : Nat × State :=
  match s.mov.vios with
  | [] => (0, s)
  | v :: rest => (1, modMov (fun m => { m with vios := rest, vioData := vioBytes v }) s)

/-- PANE_VIO_NEXT (R293). -/
def execPaneVioNext (s : State) : Res :=
  .next (
    if !(s.pwr.main && s.hif.linkUp && decide (s.pwr.mode ≠ .guard)) then s
    else emit (.reg (vioTake s).1) (vioTake s).2)

end Sys2Proof.Machine
end

