-- ==== Sys2Proof/Machine/CoreFlow.lean ====
section
/-!
DEFINITION. The Idnel instructions that meet the rest of the device: ASK, ISSUE, AWAIT, RELEASE, KRES, RAND and PRUN, with parking, the
hand-over to the Gate's counterpart at a core, and custom program images (R202, R212-R234).
-/

namespace Sys2Proof.Machine

/-! ### ASK (R202, R212, R223) -/

/-- The home block lane of a cluster, or that lane XOR 1 while it is fenced (R177, R202). -/
def blaneOf (s : State) (c : Nat) : Nat := if (laneOf s c).fenced then Nat.xor c 1 else c

/-- The 64 bytes of token information (R202). -/
def tokenInfo (s : State) (p : Nat) (t : Token) : Bytes :=
  let c := coreCluster p
  leBytes 2 t.func ++ leBytes 2 t.slot ++ leBytes 1 t.ring ++ leBytes 1 t.cls ++ leBytes 2 (b2n t.replayed) ++ leBytes 4 t.flow ++
  leBytes 4 t.accept ++ leBytes 4 (t.expire.getD 0) ++ leBytes 1 c ++ leBytes 1 ((logicalOf s p).getD 0) ++ [0, 0] ++ leBytes 1 (c / 2) ++
  zeroBytes 3 ++ leBytes 4 (blaneOf s c) ++ zeroBytes 32

/-- The entries of a scatter list (R45). -/
def sgPieces (b : Bytes) (n : Nat) : List (Nat × Nat) := (List.range n).map fun i => (leAt b (16 * i) 8, leAt b (16 * i + 8) 4)

/-- A scatter list has an invalid entry: its length or its reserved word (R45). A list's address that is not a multiple of 16 is no cause of 0x0108,
whose causes do not name it: the list is read at that address (DESIGN CHOICE, log entry 59). -/
def sgBad (b : Bytes) (n : Nat) : Bool :=
  (List.range n).any fun i => decide (leAt b (16 * i + 8) 4 = 0) || decide (16777216 < leAt b (16 * i + 8) 4) || decide (leAt b (16 * i + 12) 4 ≠ 0)

/-- A command's buffer: flat, or the pieces of its list (R45, R197). -/
def bufOf (sg : Bool) (ptr len : Nat) (list : Bytes) : List (Nat × Nat) := if sg then sgPieces list len else [(ptr, len)]

/-- The local memory a command starts with: the descriptor copy and the token information over what the core kept (R202, R213). -/
def startMem (s : State) (p : Nat) (t : Token) (m : Tab Byte) : Tab Byte :=
  mwrite (mwrite m 0xFF00 (padTo 64 t.desc)) 0xFF40 (tokenInfo s p t)

/-- Count the waiting time of a token that first returns from ASK (R265). -/
def waitCount (t : Token) (s : State) : State :=
  if t.dispatched then s
  else modFn t.func (fun x => { x with histWait := tmod 0 x.histWait (histBucket (s.time.refCount - t.acceptRef)) fun n => (n + 1) % 2 ^ 32 })
    (if s.cnt.waitThresh < s.time.refCount - t.acceptRef then countFn 0x404 t.func s else s)

/-- Token record `i` returns from ASK: its first return is counted. -/
def waitNote (i : Nat) (s : State) : State := modTok i (fun t => { t with dispatched := true }) (waitCount (tok s i) s)

/-- A new command on core `p`: registers at their reset values, OPCODE on an empty stack (R212). -/
def freshCore (s : State) (p : Nat) (i : Option Nat) (t : Token) (sgIn sgOut : Bytes) : Core :=
  let c := core s p
  let d := t.desc
  { Core.blank with
    st := .run, tok := i, func := t.func, pc := c.pc, askPc := c.pc, ds := [BitVec.ofNat 32 (dOpcode d)], cached := 1, cyc := 0,
    fwRet := c.fwRet, fwFault := c.fwFault, mem := startMem s p t c.mem, sampLeft := c.sampLeft, sampLfsr := c.sampLfsr, sampDue := c.sampDue,
    inList := bufOf (dSgIn d) (dInPtr d) (dInLen d) sgIn, outList := bufOf (dSgOut d) (dOutPtr d) (dOutLen d) sgOut }

/-- A parked command on core `p` again: its saved state, at its own parking instruction; the rest of the command area reads 0 (R223). -/
def resumeCore (s : State) (p : Nat) (i : Option Nat) (t : Token) (k : Park) (sgIn sgOut : Bytes) : Core :=
  let c := core s p
  { freshCore s p i t sgIn sgOut with
    pc := k.pc, ds := k.ds, cached := min 16 k.ds.length, rs := k.rs, bs := k.bs, bnk := k.bnk, s0 := k.s0, s1 := k.s1, winIn := k.winIn,
    winOut := k.winOut, cyc := k.cyc, budget := k.budget, img := k.img, prog := k.prog, ctxKeep := k.ctxKeep, pins := k.pins,
    ports := if k.prog then leNat (mread s.cpu.scratch (coreCluster p * 2 ^ 20 + (k.img - 0x10000000) + 0x1E) 2) else 0,
    mem := (k.area.foldl (fun m e => tset 0 m e.1 e.2) (startMem s p t c.mem)), input := k.input, kstat := k.kstat, kseen := k.kseen, kbad := k.kbad,
    loads := k.loads }

/-- Installed image of a function's slot in a cluster (R231). -/
def imageOf (s : State) (c f slot : Nat) : Option Image :=
  s.cpu.images.find? fun g => decide (g.cluster = c) && decide (g.fn = f) && decide (g.slot = slot)

/-! ### Parking (R222) -/

/-- The park slots of a cluster in use. -/
def parksIn (s : State) (c : Nat) : Nat := (s.cpu.parks.filter fun k => decide (k.cluster = c)).length

/-- The conditions of R222. -/
def mayPark (s : State) (p depth : Nat) : Bool :=
  let c := core s p
  c.reqs.isEmpty && !portBusy s p && !laneHolds s p && decide (depth ≤ 64) && decide (parksIn s (coreCluster p) < 128)

/-- Save the command of core `p` to a park slot and send the core back to ASK; the token's record says why it waits (R213, R222). -/
def parkCore (p pc : Nat) (st : TokState) (s : State) : State :=
  match (core s p).tok with
  | none => s
  | some i =>
    let s := storeFlush p (countCore 0x009 p 1 none s)
    let c := core s p
    let k : Park := ⟨i, coreCluster p, c.ds, c.rs, c.bs, pc, c.bnk, c.s0, c.s1, c.winIn, c.winOut, c.cyc, c.budget, c.img, c.prog, c.ctxKeep,
      c.pins, c.mem.filter fun e => decide (0x8000 ≤ e.1) && decide (e.1 < 0x8000 + c.ctxKeep), c.input, none, c.kseen, c.kbad, c.loads⟩
    let s := modCpu (fun x => { x with parks := x.parks ++ [k] }) s
    let s := modTok i (fun t => { t with st := st, bound := true, pcl := coreCluster p, work := earlyUnits (dOpcode t.desc) c.cyc }) s
    clearWork p (modCore p (fun c => { Core.blank with
      st := .ask, pc := c.askPc, askPc := c.askPc, fwRet := c.fwRet, fwFault := c.fwFault, mem := c.mem,
      sampLeft := c.sampLeft, sampLfsr := c.sampLfsr, sampDue := c.sampDue }) s)

/-- A host load of the core has no data yet: the core stands at its landing (R195, R205). -/
def loadWaits (s : State) (p : Nat) : Bool := (core s p).loads.any fun l => l.val.isNone

/-! ### Custom program images (R229-R231) -/

/-- Base core address of an image's place (R196, R231). -/
def imgBase (place : Nat) : Nat := 0x10040000 + 0x8000 * place

/-- The header of an image agrees with its approval (R229, R231). -/
def imageOk (f slot : Nat) (a : Approval) (b : Bytes) : Bool :=
  let len := b.length
  decide (leAt b 0 4 = 0x504E4449) && decide (leAt b 4 2 = 1) && decide (leAt b 6 1 = slot) && decide (leAt b 7 1 = 0) &&
  decide (leAt b 8 2 = f) && decide (leAt b 10 2 = 0) && decide (leAt b 12 4 = a.version) && decide (leAt b 16 4 = len) &&
  decide (128 ≤ len) && decide (len ≤ 32768) && decide (len % 4 = 0) && decide (0x40 ≤ leAt b 20 4) && decide (leAt b 20 4 < len) &&
  decide (1000 ≤ leAt b 24 4) && decide (leAt b 24 4 ≤ 4000000) && decide (leAt b 28 2 ≤ 2048) && decide (leAt b 30 2 ≤ 15) &&
  decide (slice b 32 32 = zeroBytes 32) && decide (shake256 32 b = a.digest)

/-- A place of a cluster's program area is used by a running or parked command (R231). -/
def placeUsed (s : State) (c n : Nat) : Bool :=
  (s.cpu.cores.any fun x => decide (coreCluster x.1 = c) && decide (x.2.img = imgBase n)) ||
  s.cpu.parks.any fun k => decide (k.cluster = c) && decide (k.img = imgBase n)

/-- The place an image is installed in: free, else least recently used, never one in use (R231). -/
def imagePlace (s : State) (c : Nat) : Option Nat :=
  let mine := s.cpu.images.filter fun g => decide (g.cluster = c)
  match (List.range 8).find? fun n => !(mine.any fun g => decide (g.place = n)) && !placeUsed s c n with
  | some n => some n
  | none =>
    ((mine.filter fun g => !placeUsed s c g.place).foldl (fun (best : Option Image) g =>
      match best with | none => some g | some b => if g.used < b.used then some g else some b) none).map fun g => g.place

/-- End an image fetch: every waiter is ready again, a failed fetch's with the status with which its command ends (R231, R237). -/
def imageEnd (c f slot : Nat) (st : Option Nat) (s : State) : State :=
  let mine := fun (g : ImgFetch) => decide (g.cluster = c) && decide (g.fn = f) && decide (g.slot = slot)
  let ws := (s.cpu.fetches.filter mine).flatMap fun g => g.waiters
  let s := modCpu (fun x => { x with fetches := x.fetches.filter fun g => !mine g }) s
  ws.foldl (fun s i => wakeTok i st s) s

/-- The fetch of an image. -/
def fetchAt (s : State) (c f slot : Nat) : Option ImgFetch :=
  s.cpu.fetches.find? fun g => decide (g.cluster = c) && decide (g.fn = f) && decide (g.slot = slot)
/-- Change the fetch of an image. -/
def modFetch (c f slot : Nat) (g : ImgFetch → ImgFetch) (s : State) : State :=
  modCpu (fun x => { x with fetches := x.fetches.map fun y => if y.cluster = c ∧ y.fn = f ∧ y.slot = slot then g y else y }) s
/-- The channel of a cluster's image fetches, as MASTER (R535). -/
def imageMaster (c : Nat) : Nat := 0xC0 + 16 + 2 * c

/-- Read bytes for an image fetch; a refused read ends it (R231). -/
def imageRead (c f slot a n : Nat) (s : State) : State :=
  match hostRead (imageMaster c) f a n s with
  | (true, s) => s
  | (false, s) => imageEnd c f slot (some 0x0504) s

/-- Ask for the directory entry of an image (R230, R231). -/
def imageAsk (c f slot : Nat) (s : State) : State := imageRead c f slot ((fnOf s f).progBase + 16 * slot) 16 s

/-- Install a fetched image if it agrees with its approval and a place is free; with all eight in use it waits (R231). -/
def imageInstall (c f slot : Nat) (b : Bytes) (s : State) : State :=
  match (s.lcy.approvals.find? fun a => decide (a.fn = f) && decide (a.slot = slot)).filter fun a => imageOk f slot a b with
  | none => imageEnd c f slot (some 0x0302) s
  | some a =>
    match imagePlace s c with
    | none => modFetch c f slot (fun g => { g with image := some b }) s
    | some n =>
      imageEnd c f slot none (modCpu (fun x => { x with
        scratch := mwrite x.scratch (c * 2 ^ 20 + 0x40000 + 0x8000 * n) b,
        images := (x.images.filter fun g => !(decide (g.cluster = c) && (decide (g.place = n) || (decide (g.fn = f) && decide (g.slot = slot))))) ++
          [⟨c, n, f, slot, a.digest, x.imageNo, false⟩], imageNo := x.imageNo + 1 }) s)

/-- The command of core `p` waits parked for its image: the fetch is joined or begun (R231). -/
def imageWait (p f slot : Nat) (s : State) : State :=
  let c := coreCluster p
  match (core s p).tok with
  | none => s
  | some i =>
    let s := parkCore p (core s p).pc .parked s
    if s.cpu.fetches.any (fun g => decide (g.cluster = c) && decide (g.fn = f) && decide (g.slot = slot)) then
      modCpu (fun x => { x with fetches := x.fetches.map fun g =>
        if g.cluster = c ∧ g.fn = f ∧ g.slot = slot then { g with waiters := g.waiters ++ [i] } else g }) s
    else imageAsk c f slot (modCpu (fun x => { x with fetches := x.fetches ++ [⟨c, f, slot, tick s, [i], none, none⟩] }) s)

/-- The command is a custom one whose image its cluster does not hold (R231). -/
def imageMissing (s : State) (p i : Nat) : Bool :=
  let op := dOpcode (tok s i).desc
  decide (0x2000 ≤ op) && decide (op ≤ 0x20FF) && (imageOf s (coreCluster p) (tok s i).func (op % 256)).all fun g => g.stale

/-- ASK returns on core `p` with token `i` (R212, R223). -/
def askReturn (p i : Nat) (sgIn sgOut : Bytes) (s : State) : State :=
  let s := sampleSlot p (core s p).askPc true (waitNote i (paneSwap p s))
  match s.cpu.parks.find? fun k => k.tok = i with
  | some k =>
    modCpu (fun c => { c with parks := c.parks.filter fun x => decide (x.tok ≠ i) }) (setCore p (resumeCore s p (some i) (tok s i) k sgIn sgOut) s)
  | none =>
    let s' := setCore p (freshCore s p (some i) (tok s i) sgIn sgOut) s
    if imageMissing s p i then imageWait p (tok s i).func (dOpcode (tok s i).desc % 256) s' else s'

/-- ASK returns on core `p` with a command whose token has left meanwhile: it runs with its output closed, and TSTATE says why (R224, R225). -/
def askLate (p : Nat) (t : Token) (k : Option Park) (sgIn sgOut : Bytes) (s : State) : State :=
  let c := core s p
  let s := sampleSlot p c.askPc true (waitCount t (paneSwap p s))
  let x := match k with | some k => resumeCore s p none t k sgIn sgOut | none => freshCore s p none t sgIn sgOut
  setCore p { x with expired := c.expired, reset := c.reset, dropped := c.dropped, closed := true } s

/-- ASK (R212): in firmware mode the core waits for work; once its token's pane is loaded the next execution returns with the command
set up. The operands are the bytes of the command's scatter lists. -/
def execOpAsk (core : Nat) (sgIn sgOut : List Byte) (s : State) : Res :=
  .next (
    let c := Machine.core s core
    match c.st with
    | .ask =>
      match c.given with
      | some i =>
        if s.pwr.main ∧ (checker s core).shadow = .ready ∧ (!imageMissing s core i ∨ parksIn s (coreCluster core) < 128) then
          askReturn core i sgIn sgOut s
        else s
      | none =>
        match c.late with
        | some x => if s.pwr.main ∧ (checker s core).shadow = .ready then askLate core x.1 x.2 sgIn sgOut s else s
        | none => s
    | _ =>
      if coreHolds c ∧ !c.prog then s
      else slot core 1 0 0 0 (fun c s => if c.prog then .fault 2 none else .ok (setCore core { c with st := .ask } s)) s)

/-! ### ISSUE (R214-R216, R232) -/

/-- A free request tag. -/
def takeTag (s : State) : Nat × State := (s.cpu.tagNo, modCpu (fun c => { c with tagNo := c.tagNo + 1 }) s)

/-- A port that a program may not use (R232). -/
def portDenied (c : Core) (port : Nat) : Bool :=
  c.prog && !(if isBlock port then c.ports.testBit 0 else if isHash port then c.ports.testBit 1 else if isMod port then c.ports.testBit 2
    else decide (port = 0x1E) && c.ports.testBit 3)

/-- The request runs twinned (R174, R179). -/
def issueTwin (s : State) (c : Core) (port ctl : Nat) : Bool :=
  if isBlock port then s.lanes.allBlock || (match c.tok with | some i => dTwin (tok s i).desc | none => false)
  else if isHash port then decide (bitsOf (bitsOf ctl 31 24) 5 0 = 16) || decide (bitsOf (bitsOf ctl 31 24) 5 0 = 18)
  else if isMod port then [1, 3, 5, 6, 7].contains (bitsOf ctl 31 24)
  else true

/-- One side of a mover-port request: space, address, width, host pieces (R197, R215, R274). -/
def portSide (p : Nat) (c : Core) (a len : Nat) : Nat × Nat × Nat × List (Nat × Nat) :=
  if a < 0x10000 then (1, p * 2 ^ 32 + a, 4, [])
  else if a < 0x20000000 then (1, p * 2 ^ 32 + a, 6, [])
  else if a < 0x80000000 then (2, a - 0x20000000, 6, [])
  else if a < 0xC0000000 then (0, 0, 8, bufPieces c.inList (c.winIn + (a - 0x80000000)) len)
  else (0, 0, 8, bufPieces c.outList (c.winOut + (a - 0xC0000000)) len)

/-- A mover-port request (R215): checked, then one descriptor on one of the cluster's channels. -/
def issueMove (p : Nat) (c : Core) (ctl key len olen ain aout : Nat) (s : State) : State :=
  let x := takeTag s
  let s := x.2
  let end_ := fun (st : Nat) (s : State) =>
    setCore p { c with reqs := c.reqs ++ [⟨0x1E, x.1, false, some (st, []), s.time.refCount⟩] } s
  if ctl ≠ 0 ∨ key ≠ 0 ∨ olen ≠ 0 ∨ len = 0 ∨ 65536 < len then end_ 4 s
  else match coreRefusal s p .movRead ain len, coreRefusal s p .movWrite aout len with
    | some v, _ => end_ 5 (vioQueue v s)
    | none, some v => end_ 5 (vioQueue v s)
    | none, none =>
      let a := portSide p c ain len
      let b := portSide p c aout len
      let d : MovDesc := ⟨a.2.1, b.2.1, len, a.1, a.2.2.1, b.1, b.2.2.1, 8, false, c.func, false, some (p, x.1), none, a.2.2.2, b.2.2.2, false⟩
      let n := portChan s p
      chanGo n (modChan n (fun q => { q with reqs := q.reqs ++ [d] })
        (setCore p { c with reqs := c.reqs ++ [⟨0x1E, x.1, false, none, 0⟩] } s))

/-- The lane whose queue a request to a port enters (R178). -/
def issueTo (s : State) (port : Nat) : Nat := (laneTaker s port).getD port

/-- A twinned block or hash request takes an entry and a slot in its partner's queue too (R176). -/
def issueHold (s : State) (port : Nat) (twin : Bool) : Bool := twin && (isBlock port || isHash port) && !(laneOf s port).fenced

/-- A lane request (R214, R216). -/
def issueLane (p port : Nat) (c : Core) (r : LaneReq) (s : State) : State :=
  let x := takeTag s
  let s := x.2
  let refused := if (laneOf s (issueTo s port)).fenced then some 7 else reqRefused c.prog port r
  let r := { r with tag := x.1, done := refused.map (fun st => (st, [])), winIn := c.winIn, winOut := c.winOut }
  let toStack := isBlock port && decide (rDst r = 0)
  let s := if issueHold s port r.twin ∧ refused.isNone then modLane (lanePartner s port) (fun l => { l with held := l.held ++ [(p, x.1)] }) s else s
  modLane (issueTo s port) (fun l => { l with queue := l.queue ++ [r] }) (setCore p { c with reqs := c.reqs ++ [⟨port, x.1, toStack, none, 0⟩] } s)

/-- Block stack entries that a request takes (R216). -/
def issueEntries (port ctl : Nat) : Nat :=
  if isBlock port then
    let q := entryPlan (bitsOf ctl 19 16) (bitsOf ctl 12 11) (bitsOf ctl 5 4) (ctl.testBit 8)
    b2n q.1 + b2n q.2.1 + b2n q.2.2
  else 0

/-- Block entries an ISSUE of the core would take, for its cycles. -/
def issueCost (s : State) (p : Nat) : Nat :=
  let c := slotCore (core s p) 1
  match c.ds with
  | port :: _ :: ctl :: _ => 2 + issueEntries port.toNat ctl.toNat
  | _ => 2

/-- An ISSUE that waits is known to (R488). -/
def issueNote (p : Nat) (s : State) : State := if (core s p).stall then modCore p (fun c => { c with issueWait := true }) s else s

/-- ISSUE (R214-R216, R232): one request to a lane or to the mover port; it waits at 32 outstanding requests and at a full lane queue. -/
def execOpIssue (core : Nat) (s : State) : Res :=
  .next (issueNote core <| slot core 1 (issueCost s core) 7 0 (fun c s =>
    match c.ds with
    | port :: key :: ctl :: len :: olen :: ain :: aout :: rest =>
      let n := port.toNat
      let k := issueEntries n ctl.toNat
      if 0x1E < n ∨ portDenied c n then .fault 12 none
      else if c.bs.length < k then .fault 5 none
      else if 32 ≤ c.reqs.length ∨ (n ≠ 0x1E ∧ (laneFull s (issueTo s n) ∨
          (issueHold s n (issueTwin s c n ctl.toNat) ∧ laneFull s (lanePartner s n)))) then .wait
      else
        let c' := { c with ds := rest, bs := c.bs.drop k }
        if n = 0x1E then .ok (issueMove core c' ctl.toNat key.toNat len.toNat olen.toNat ain.toNat aout.toNat s)
        else .ok (issueLane core n c' ⟨core, 0, key.toNat, ctl.toNat, ain.toNat, aout.toNat, len.toNat, olen.toNat, c.bs.take k,
          issueTwin s c n ctl.toNat, none, false, 0, 0⟩ s)
    | _ => .fault 3 none) s)

/-! ### AWAIT (R217, R218) -/

/-- Take a request off the core and its lane queue. -/
def reqDrop (p : Nat) (r : CReq) (s : State) : State :=
  modCore p (fun c => { c with reqs := c.reqs.filter fun q => decide (q.tag ≠ r.tag) }) s

/-- Deliver a status, and a block result, to a core whose AWAIT ends (R217, R218). -/
def awaitEnd (p st : Nat) (out : Option Bytes) (rest : List W32) (c : Core) (s : State) : SlotR :=
  match out with
  | some b =>
    if 8 ≤ c.bs.length then .fault 5 none
    else .ok (setCore p { c with ds := BitVec.ofNat 32 st :: rest, bs := bytesBlk b :: c.bs } s)
  | none => .ok (setCore p { c with ds := BitVec.ofNat 32 st :: rest } s)

/-- AWAIT (R217, R218): the oldest request on the port; a result that reached the port by the edge of the timeout is delivered. -/
def execOpAwait (core : Nat) (s : State) : Res :=
  .next (
    let c0 := Machine.core s core
    let since := match c0.st with | .await _ _ t => t | _ => s.time.refCount
    let s0 := match c0.st with | .await _ _ _ => modCore core (fun c => { c with st := .run }) s | _ => s
    let c := slotCore (Machine.core s0 core) 1
    match c.ds with
    | port :: tmo :: rest =>
      let n := port.toNat
      let t := tmo.toNat % 2 ^ 24
      match c.reqs.find? fun r => r.port = n with
      | none => slot core 1 1 2 0 (fun c s => if 0x1E < n then .fault 12 none else awaitEnd core 13 none rest c s) s0
      | some r =>
        match r.done with
        | some (st, out) =>
          let d := 25 * (r.arrived - since)
          if t ≠ 0 ∧ 2 * t < d then s
          else
            let tie := decide (t ≠ 0) && decide (2 * (t - 1) < d)
            let s1 := if tie then modFn c.func (fun x => { x with races := satAdd 0xFFFFFFFF x.races 1 }) s0 else s0
            slot core 1 1 2 0 (fun c s =>
              awaitEnd core st (if r.toStack ∧ st = 0 then some out else none) rest
                { c with reqs := c.reqs.filter fun q => decide (q.tag ≠ r.tag) } s) s1
        | none =>
          if t = 0 then slot core 1 1 2 0 (fun c s => awaitEnd core 15 none rest c s) s0
          else if coreGoes s0 core ∧ c0.fuse.isNone then modCore core (fun c => { c with st := .await n t since }) s0
          else s
    | _ => slot core 1 1 2 0 (fun _ _ => .fault 3 none) s0)

/-- AWAIT_TIMEOUT (R218, R257): 80 ns after the timeout's edge, no result having reached the port by it: TIMEOUT, and the request is abandoned. -/
def execAwaitTimeout (core : Nat) (s : State) : Res :=
  .next (
    let c0 := Machine.core s core
    match c0.st with
    | .await n t since =>
      match c0.reqs.find? fun r => r.port = n with
      | none => s
      | some r =>
        let late := decide (2 * t + 200 ≤ 25 * (s.time.refCount - since))
        let inTime := r.done.isSome && decide (25 * (r.arrived - since) ≤ 2 * t)
        if !late ∨ inTime ∨ !s.pwr.main then s
        else
          let s := reqDrop core r (modCore core (fun c => { c with st := .run }) s)
          slot core 1 1 2 0 (fun c s => match c.ds with
            | _ :: _ :: rest => awaitEnd core 14 none rest c s
            | _ => .fault 3 none) s
    | _ => s)

/-! ### RELEASE (R108, R221, R234) -/

/-- The completion statuses of R66's table. -/
def statusCodes : List Nat :=
  [0x0101, 0x0102, 0x0103, 0x0104, 0x0105, 0x0106, 0x0107, 0x0108, 0x0109, 0x010A, 0x0201, 0x0202, 0x0203, 0x0204] ++
  [0x0205, 0x0206, 0x0207, 0x0208, 0x0209, 0x020A, 0x020B, 0x0301, 0x0302, 0x0303, 0x0304, 0x0305, 0x0306, 0x0401] ++
  [0x0402, 0x0403, 0x0404, 0x0405, 0x0501, 0x0502, 0x0503, 0x0504, 0x0601, 0x0602, 0x0701, 0x0702, 0x0703, 0x0704] ++
  [0x0705, 0x0706, 0x0801, 0x0802, 0x0803]

/-- Statuses a program may release: success, or a code of R66's table but those of R108 (R66, R108, R234). -/
def progStatusOk (st : Nat) : Bool :=
  decide (st = 0) || (statusCodes.contains st && decide (0x0100 ≤ st) && decide (st < 0x0800) && !(decide (0x0101 ≤ st) && decide (st ≤ 0x0105)) &&
    decide (st ≠ 0x0501) && decide (st ≠ 0x0502))

/-- Units of a command that ran by instructions, by class (R81). -/
def runUnits (op cyc st inLen outLen len : Nat) : Nat :=
  let c := opClass op
  if c = 10 then cdiv cyc 10000
  else if c = 7 ∨ c = 8 then (if st = 0 then cdiv inLen 4096 else 0)
  else if c = 9 then cdiv (if st = 0 then outLen else len) 256
  else 1

/-- The descriptor of the command on a core: its token's, or the descriptor copy of one whose token has completed (R202, R224). -/
def coreDesc (s : State) (p : Nat) : Bytes :=
  match (core s p).tok with | some i => (tok s i).desc | none => mread (core s p).mem 0xFF00 64

/-- RELEASE (R51, R221, R234; RES_LEN of a status that is not 0: log entry 59): the result is fixed; the hand-over waits for the command's stores and requests. -/
def execOpRelease (core : Nat) (s : State) : Res :=
  .next (slot core 1 4 2 0 (fun c s =>
    match c.ds with
    | st :: len :: rest =>
      let v := st.toNat % 65536
      let d := coreDesc s core
      let op := dOpcode d
      if c.prog ∧ (!progStatusOk v ∨ bufLen c.outList < len.toNat) then .fault 14 none
      else .ok (setCore core { c with
        ds := rest, st := .release v (if v = 0 ∨ opClass op = 10 ∨ opClass op = 7 then len.toNat else 0), pc := if c.prog then c.fwRet else c.pc,
        units := if c.units = 0 then runUnits (dOpcode d) c.cyc v (bufLen c.inList) (bufLen c.outList) len.toNat else c.units } s)
    | _ => .fault 3 none) s)

/-! ### KRES and RAND (R219, R220, R222) -/

/-- The requirement record of a KRES (R219). -/
def keyReqAt (b : Bytes) : KeyReq :=
  ⟨leAt b 0 2, leAt b 2 2, leAt b 4 2, ((List.range 4).map fun i => leAt b (8 + i) 1).filter fun m => decide (m ≠ 0)⟩

/-- Pin a resolved entry with its reserved uses; a handle already pinned adds to its reservation (R143, R157, R219). -/
def pinKey (p h i rsv : Nat) (s : State) : State :=
  modCore p (fun c => { c with
    pins := if c.pins.any (fun q => decide (q.handle = h)) then c.pins.map fun q => if q.handle = h then { q with resv := q.resv + rsv } else q
            else c.pins ++ [⟨h, i, rsv⟩] }) (keyTouch i s)

/-- A resolution waits for a miss: the command parks, or its core waits in place (R127, R222). -/
def kresWait (p h depth : Nat) (s : State) : State :=
  let c := core s p
  if mayPark s p depth ∧ c.tok.isSome then missEnter c.func h c.tok p (parkCore p c.pc .parked s)
  else missEnter c.func h none p (modCore p (fun c => { c with st := .kres }) s)

/-- The requirement record of a KRES as the core reads it (R199, R219). -/
def kresRec (p a : Nat) (host : Bytes) (s : State) : Bytes :=
  if a < 0x80000000 then coreRead s p a 16 else overlay (hostOver (core s p) (aperture (core s p) a 16)) (padTo 16 host)

/-- The slot of a KRES that ends: a status pushed, or a fault. -/
def kresSlot (p : Nat) (f : Core → List W32 → State → SlotR) (s : State) : State :=
  slot p 1 32 3 0 (fun c s => match c.ds with | _ :: _ :: _ :: rest => f (kresDone c) rest s | _ => .fault 3 none) s

/-- KRES pushes a status that is not success (R219). -/
def kresPush (p st : Nat) (s : State) : State :=
  kresSlot p (fun c rest s => .ok (setCore p { c with ds := BitVec.ofNat 32 st :: rest } s)) s

/-- KRES with its record read: resolve, reserve, pin and push, or wait for a miss. An entry that fails its check is fetched again, once in a
resolution (R119, R123-R125, R219, R222). -/
def kresRun (p h rsv : Nat) (q : KeyReq) (s : State) : State :=
  let s := handlePass (core s p).func h s
  let c := core s p
  match c.kstat, resolve s c.func h q rsv with
  | some st, _ => kresPush p st s
  | none, .ok i =>
    kresSlot p (fun c rest s =>
      if 16 ≤ c.pins.length ∧ !(c.pins.any fun q => decide (q.handle = h)) then .fault 11 none
      else .ok (pinKey p h i rsv (setCore p { c with ds := 0 :: rest } s))) s
  | none, .fail st => kresPush p st s
  | none, .kind => kresPush p 0x0203 (missSeen p s)
  | none, .load => kresWait p h c.ds.length s
  | none, .miss => kresWait p h c.ds.length (missSeen p s)
  | none, .bad i =>
    if c.kbad then kresPush p 0x020A (keyFailed i s)
    else kresWait p h c.ds.length (missSeen p (modCore p (fun c => { c with kbad := true }) (keyFailed i s)))

/-- KRES (R124, R219, R222): resolve, reserve, pin and push a status; a miss parks the command, or waits in place. `host` is what the host answers
where the requirement record lies in the host window. -/
def execOpKres (core : Nat) (host : List Byte) (s : State) : Res :=
  .next (
    let c0 := slotCore (Machine.core s core) 1
    match c0.ds with
    | h :: req :: rsv :: _ =>
      if !coreGoes s core ∨ (Machine.core s core).fuse.isSome ∨ loadWaits s core then s
      else
        let a := req.toNat
        match coreRefusal s core .read a 16 with
        | some v => slot core 1 32 3 0 (fun _ _ => .fault 7 (some v)) s
        | none =>
          let b := kresRec core a host s
          let s := if 0x80000000 ≤ a then hostAsk core a 16 s else s
          if leAt b 6 2 ≠ 0 ∨ leAt b 12 4 ≠ 0 then slot core 1 32 3 0 (fun _ _ => .fault 12 none) s
          else kresRun core h.toNat rsv.toNat (keyReqAt b) s
    | _ => slot core 1 32 3 0 (fun _ _ => .fault 3 none) s)

/-- Wait for random output in the Lift, or in place when the command may not park or the Lift admits no entry (R220, R222, R249, R253, R254); the
function's first waiter fires its vector 7 (R313). -/
def randWait (p depth : Nat) (s : State) : State :=
  let c := core s p
  match c.tok with
  | none => modCore p (fun c => { c with st := .rand }) s
  | some i =>
    if mayPark s p depth ∧ liftAdmits s liftEnt s.slm.qEnt then
      let due := (tok s i).expire.getD (2 ^ 64 - 1)
      let f := (tok s i).func
      let first := !(s.slm.toks.any fun it => decide (it.2.st = .liftWait) && decide (it.2.func = f))
      let s := if first ∧ f ≠ 0 then fireMsix f 7 s else s
      takeClass i (liftInsert (.ent i) due (modTok i (fun t => { t with due := some due }) (parkCore p c.pc .liftWait s)))
    else modCore p (fun c => { c with st := .rand }) s

/-- RAND (R220, R254): the range is checked whole, then the request goes to the function's instance, or the command waits for output. -/
def execOpRand (core : Nat) (s : State) : Res :=
  .next (
    let c0 := Machine.core s core
    let again := decide (c0.st = .rand) && !(s.ent.reqs.any fun q => decide (q.core = core))
    let s0 := if again then modCore core (fun c => { c with st := .run }) s else s
    let c := slotCore (Machine.core s0 core) 1
    match c.ds with
    | a :: len :: _ =>
      if !coreGoes s0 core ∨ c0.fuse.isSome ∨ loadWaits s0 core then s
      else if len.toNat = 0 ∨ 4096 < len.toNat then slot core 1 24 2 0 (fun _ _ => .fault 12 none) s0
      else match coreRefusal s0 core .write a.toNat len.toNat with
        | some v => slot core 1 24 2 0 (fun _ _ => .fault 7 (some v)) s0
        | none =>
          if drbgLive s0 (instOf c.func) then
            modEnt (fun e => { e with reqs := e.reqs ++ [⟨core, a.toNat, len.toNat⟩] }) (modCore core (fun c => { c with st := .rand }) s0)
          else randWait core c.ds.length s0
    | _ => slot core 1 24 2 0 (fun _ _ => .fault 3 none) s0)

/-- Write bytes at a core address, as a core's own store reaches memory (R196, R197); stores issued before go first (R199). -/
def coreStore (p a : Nat) (d : Bytes) (s : State) : State :=
  if a < 0x80000000 then coreWrite p a d s else outWrite p ((core s p).winOut + (a - 0xC0000000)) d s

/-- DRBG_GENERATE (R307, R310, R220): the shared engine serves the oldest request; an instance that has stopped since sends it back to wait. -/
def execDrbgGenerate (s : State) : Res :=
  .next (
    match s.ent.reqs with
    | [] => s
    | q :: rest =>
      let s := modEnt (fun e => { e with reqs := rest }) s
      if (core s q.core).st ≠ .rand ∨ !s.pwr.main then s
      else match drbgDraw (instOf (core s q.core).func) q.len s with
        | none => randWait q.core (core s q.core).ds.length (modCore q.core (fun c => { c with st := .run }) s)
        | some (b, s) =>
          slot q.core 1 (24 + 2 * cdiv q.len 16) 2 0 (fun c s => match c.ds with
            | _ :: _ :: r => .ok (coreStore q.core q.addr b (storeFlush q.core (setCore q.core { c with ds := r } s)))
            | _ => .fault 3 none) (modCore q.core (fun c => { c with st := .run }) s))

/-! ### Programs (R229-R233) -/

/-- PRUN (R233): enter program mode at IMG + entry, with the image's BUDGET, KEEP and PORTS; an image not installed is a refused fetch (log entry 39). -/
def execOpPrun (core : Nat) (s : State) : Res :=
  .next (slot core 1 4 0 0 (fun c s =>
    if c.prog then .fault 2 none
    else match c.ds, c.tok with
    | entry :: _, some i =>
      match imageOf s (coreCluster core) c.func (dOpcode (tok s i).desc % 256) with
      | none => .fault 8 none
      | some g =>
        let c := if c.cached = 0 then charge 1 c else c
        let b := coreCluster core * 2 ^ 20 + 0x40000 + 0x8000 * g.place
        let w := fun off n => leNat (mread s.cpu.scratch (b + off) n)
        .ok (modCpu (fun x => { x with
              imageNo := x.imageNo + 1,
              images := x.images.map fun y => if y.cluster = g.cluster ∧ y.place = g.place then { y with used := x.imageNo } else y })
          (setCore core { c with
            ds := [], rs := [], bs := [], cached := 0, prog := true, img := imgBase g.place, pc := (imgBase g.place + entry.toNat) % 2 ^ 32,
            budget := w 0x18 4 + 4, ctxKeep := w 0x1C 2, ports := w 0x1E 2 } s))
    | [], _ => .fault 3 none
    | _, none => .fault 8 none) s)

/-- The directory entry of an image is valid (R230). -/
def dirEntryOk (e : Bytes) : Bool := decide (leAt e 0 8 % 64 = 0) && decide (leAt e 12 4 = 0)

/-- A fetch's data comes after its expiry edge and is discarded, as in R128 (R231). -/
def fetchLate (s : State) (g : ImgFetch) : Bool := decide (100 * (g.start + s.kst.fetchTimeout) < s.time.refCount)

/-- What a fetch reads now has arrived: the directory entry, then the image (R230, R231). -/
def fetchGot (g : ImgFetch) (entry image : Bytes) (s : State) : State :=
  match g.ptr with
  | none =>
    if dirEntryOk entry then
      imageRead g.cluster g.fn g.slot (leAt entry 0 8) (leAt entry 8 4)
        (modFetch g.cluster g.fn g.slot (fun g => { g with ptr := some (leAt entry 0 8, leAt entry 8 4) }) s)
    else imageEnd g.cluster g.fn g.slot (some 0x0302) s
  | some x => if x.2 = image.length then imageInstall g.cluster g.fn g.slot image s else imageEnd g.cluster g.fn g.slot (some 0x0302) s

/-- PROG_IMAGE_FETCH (R230, R231): the directory entry, then the image, arrives, or a read failed; the image is checked and installed. One that
has arrived and waits for a place tries again. -/
def execProgImageFetch (cluster fn slot : Nat) (entry image : List Byte) (fail : Bool) (s : State) : Res :=
  .next (
    match s.pwr.main, fetchAt s cluster fn slot with
    | true, some g =>
      match g.image with
      | some b => imageInstall cluster fn slot b s
      | none =>
        if fetchLate s g then s
        else
          let n := match g.ptr with | some x => x.2 | none => 16
          if fail then imageEnd cluster fn slot (some 0x0504) (chanFail (imageMaster cluster) n s)
          else fetchGot g entry image (chanDone (imageMaster cluster) fn n s)
    | _, _ => s)

/-- PROGRAM_FETCH_TIMEOUT (R231, R257): 80 ns after the expiry edge a fetch without its image ends with 0x0402; a command that only waits for a
place goes on waiting. -/
def execProgramFetchTimeout (cluster fn slot : Nat) (s : State) : Res :=
  .next (
    match fetchAt s cluster fn slot with
    | some g =>
      if g.image.isNone ∧ 100 * (g.start + s.kst.fetchTimeout) + 8 ≤ s.time.refCount then imageEnd cluster fn slot (some 0x0402) s else s
    | none => s)

/-- Write HIF_PROG_BASE of a VF: its installed images go (R230). -/
def progBaseSet (fn value : Nat) (s : State) : State :=
  imagesDrop fn (modFn fn (fun x => { x with progBase := value % 2 ^ 64 / 4096 * 4096 }) s)

/-- PROG_BASE_WRITE (R230, R231, R500, R501): HIF_PROG_BASE of a VF; its images go. -/
def execProgBaseWrite (fn value : Nat) (s : State) : Res :=
  .next (
    if !pageOpen s fn ∨ fn = 0 ∨ (fnOf s fn).rst.isSome then s
    else regWrote fn (progBaseSet fn value s))

end Sys2Proof.Machine
end

