-- ==== Sys2Proof/Machine/Audit.lean ====
section
/-!
DEFINITION. The event recorder's commands: the VALID write, the Shutter, ceremony closing, and the copy of the keep RAM record buffer
(R153, R378-R391).
-/

namespace Sys2Proof.Machine

/-! ### The VALID write (R378) -/

/-- VALID of the present log (R377). -/
def validWord (s : State) : Bytes := leBytes 2 s.aud.logNo ++ leBytes 2 0xA55A

/-- RECORD_VALID_WRITE (R377, R378, R380, R381): the oldest record without VALID gets it and is present; a command that waits for it goes on. -/
def execRecordValidWrite (s : State) : Res :=
  .next (
    match s.aud.held with
    | [] => s
    | h :: rest =>
      if !s.pwr.main then s
      else
        mirrorSettle (modAud (fun a => { a with
          held := rest, present := a.present + 1, head := h.chain,
          mram := tset [] a.mram h.seq (padTo 60 h.bytes ++ validWord s) }) s))

/-! ### The Shutter (R386) -/

/-- Write the staged records to MRAM in their order (R386). -/
def stagingDrain (s : State) : State :=
  modAud (fun a => { a with
    shutter := none, staging := [], held := a.held ++ a.staging, mram := a.staging.foldl (fun m h => mramBody m h.seq h.bytes) a.mram }) s

/-- SHUTTER_REOPEN (R386): the read has ended, or 50 ms have passed; the staged records are written and PF vector 6 fires. -/
def execShutterReopen (s : State) : Res :=
  .next (if s.pwr.main ∧ s.aud.shutter.isSome then fireMsix 0 6 (stagingDrain s) else s)

/-! ### The keep RAM record buffer (R29, R385, R390, R391) -/

/-- Insert a buffered record by its stamp, after those of the same stamp. -/
def bufInsert (r : BufRec) : List BufRec → List BufRec
  | [] => [r]
  | x :: xs => if r.stamp < x.stamp then r :: x :: xs else x :: bufInsert r xs

/-- The buffer in stamp order. -/
def bufOrder (l : List BufRec) : List BufRec := l.foldl (fun acc r => bufInsert r acc) []

/-- Copy buffered records to the log in stamp order with BUFFERED set; a record that finds the log full stays (R391). -/
def bufCopyAll : List BufRec → State → State
  | [], s => s
  | r :: rs, s =>
    if recBlocked s then modAud (fun a => { a with buf := a.buf ++ (r :: rs) }) s
    else bufCopyAll rs (recAppend r.code (r.flags ||| 2) r.func r.body s)

/-- Copy the keep RAM record buffer (R390, R391). -/
def bufCopy (s : State) : State := bufCopyAll (bufOrder s.aud.buf) (modAud (fun a => { a with buf := [] }) s)

/-! ### Ceremonies (R153) -/

/-- Ceremony `n`. -/
def cerAt (s : State) (n : Nat) : Option Cer := s.kst.cers.find? fun c => c.num = n

/-- Close ceremony `n`: its buffer is zeroized, with a CEREMONY_CLOSE record (R153, R382). -/
def cerClose (n reason : Nat) (s : State) : State :=
  match cerAt s n with
  | none => s
  | some c =>
    auditU 0x0202 0 c.fn (leBytes 2 n ++ leBytes 2 c.fn ++ leBytes 1 reason)
      (modKst (fun k => { k with cers := k.cers.filter fun x => decide (x.num ≠ n) }) s)

/-- Close every ceremony (R153). -/
def cerCloseAll (reason : Nat) (s : State) : State := (s.kst.cers.map fun c => c.num).foldl (fun s n => cerClose n reason s) s

/-- CEREMONY_TIMEOUT (R153): 3,600 s after its BEGIN a ceremony closes. -/
def execCeremonyTimeout (num : Nat) (s : State) : Res :=
  .next (
    match cerAt s num with
    | some c => if s.pwr.main ∧ c.start + 3600000000 ≤ tick s then cerClose num 3 s else s
    | none => s)

end Sys2Proof.Machine
end

