-- ==== Sys2Proof/Machine/HostCmd.lean ====
section
/-!
DEFINITION. The host interface's commands: doorbells, rings, fetch and acceptance, functions and pools, IDE keys (R33-R59).
-/

namespace Sys2Proof.Machine

/-- SQ_DOORBELL (R54, R55, R60): record TAIL[15:0]; a tail past the ring counts in DB_ERRORS; a function in reset drops it. -/
def execSqDoorbell (fn ring tail : Nat) (s : State) : Res :=
  .next (regWrote fn <|
    if !pageOpen s fn ∨ 4 ≤ ring ∨ (fnOf s fn).rst.isSome then s
    else modRing fn ring (fun r =>
      if ringSize r.sqLog2 ≤ tail % 65536 then { r with dbErrors := satAdd 0xFFFF r.dbErrors 1 }
      else { r with
        dbBase := if r.dbTick = tick s then r.dbBase else r.tail, dbTick := tick s, tail := tail % 65536, fetchHold := false }) s)

/-- CQ_DOORBELL (R57): consume written completions up to HEAD[15:0]; a HEAD out of range counts in DB_ERRORS. -/
def execCqDoorbell (fn ring head : Nat) (s : State) : Res :=
  .next (regWrote fn <|
    if !pageOpen s fn ∨ 4 ≤ ring ∨ (fnOf s fn).rst.isSome then s
    else match cqConsumes (ringOf s fn ring) (head % 65536) with
      | none => modRing fn ring (fun r => { r with dbErrors := satAdd 0xFFFF r.dbErrors 1 }) s
      | some k => ringSettle fn ring (modRing fn ring (fun r => { r with cqHead := head % 65536, unconsumed := r.unconsumed - k }) s))

/-- Write the fields of HIF_RING_CTL_n but ENABLE: sizes only while IDLE (R52); a VECTOR of 4-7 is kept out while not IDLE (log entry 22). -/
def ringCtlFields (v : Nat) (r : Ring) : Ring :=
  let r := { r with modTime := bitsOf v 31 22, modCount := bitsOf v 21 14 }
  if r.st = .idle then { r with vector := bitsOf v 13 11, cqLog2 := bitsOf v 8 5, sqLog2 := bitsOf v 4 1 }
  else if bitsOf v 13 11 < 4 then { r with vector := bitsOf v 13 11 } else r

/-- A size code of 0x1-0x5 encodes no size (R52). -/
def badSize (code : Nat) : Bool := decide (1 ≤ code) && decide (code ≤ 5)

/-- The body of a RING record (R438; field order: log entry 23). -/
def ringBody (f n : Nat) (x : Fn) : Bytes :=
  let r := x.rings.getD n Ring.blank
  leBytes 2 f ++ leBytes 1 n ++ leBytes 1 (b2n r.enable) ++ leBytes 8 r.sqBase ++ leBytes 8 r.cqBase ++ leBytes 1 r.sqLog2 ++
  leBytes 1 r.cqLog2 ++ zeroBytes 2 ++ leBytes 8 x.rptBase

/-- Show a ring pair's configuration to the partner (R438 RING). -/
def ringMirror (f n : Nat) (s : State) : State := mirrorSend 4 (loadByte s f) (ringBody f n (fnOf s f)) s

/-- The pair is refused at enable (R52, R59). -/
def ringRefused (x : Fn) (r : Ring) : Bool :=
  !x.created || badSize r.sqLog2 || badSize r.cqLog2 || decide (4 ≤ r.vector) || decide (x.rptBase = 0)

/-- RING_ENABLE (R52): in IDLE, start the pair with its positions at 0 and PHASE 1, or leave it REFUSED. -/
def execRingEnable (fn ring ctl : Nat) (s : State) : Res :=
  .next (regWrote fn <|
    if !pageOpen s fn ∨ 4 ≤ ring ∨ (fnOf s fn).rst.isSome then s
    else
      let x := fnOf s fn
      let r := ringCtlFields ctl (ringOf s fn ring)
      if r.st ≠ .idle then modRing fn ring (ringCtlFields ctl) s
      else if ringRefused x r then modRing fn ring (fun _ => { r with enable := true, st := .refused }) s
      else
        ringMirror fn ring (modRing fn ring (fun _ => { r with
          enable := true, st := .running, head := 0, inFlight := 0, fetchHold := false, cqTail := 0, cqHead := 0,
          unconsumed := 0, reserved := 0, phase := true, irqCount := 0, irqFirst := none }) s))

/-- RING_DISABLE (R53): a RUNNING pair drains; a REFUSED pair returns to IDLE. -/
def execRingDisable (fn ring ctl : Nat) (s : State) : Res :=
  .next (regWrote fn <|
    if !pageOpen s fn ∨ 4 ≤ ring ∨ (fnOf s fn).rst.isSome then s
    else
      let was := (ringOf s fn ring).st
      let s := modRing fn ring (fun r =>
        let r := { ringCtlFields ctl r with enable := false }
        match r.st with
        | .running => { r with st := .draining }
        | .refused => { r with st := .idle }
        | _ => r) s
      let s := ringSettle fn ring s
      if was = .running then ringMirror fn ring s else s)

/-- FETCH_ISSUE (R13, R56, R292): reserve a completion slot and read the next descriptor; a refused fetch holds the pair. -/
def execFetchIssue (fn ring : Nat) (s : State) : Res :=
  .next (
    if !mayFetch s fn ring then s
    else
      let r := ringOf s fn ring
      let slot := (r.head + r.inFlight) % ringSize r.sqLog2
      match hostRead (hifMaster fn ring) fn (r.sqBase + 64 * slot) 64 s with
      | (true, s) => modRing fn ring (fun r => { r with inFlight := r.inFlight + 1, reserved := r.reserved + 1 }) s
      | (false, s) => modRing fn ring (fun r => { r with fetchHold := true }) s)

/-- A ring pair's outstanding fetches accept nothing: their reservations are freed, and the slots wait for a doorbell or a commit (R13). -/
def fetchFail (fn ring : Nat) (s : State) : State :=
  ringSettle fn ring (modRing fn ring (fun r => { r with
    reserved := r.reserved - r.inFlight, inFlight := 0, fetchHold := true }) s)

/-- DESCRIPTOR_ACCEPT (R13, R46, R47): the oldest fetch of the ring pair arrives intact and is accepted. -/
def execDescriptorAccept (fn ring : Nat) (data : List Byte) (rec : Nat) (s : State) : Res :=
  .next (
    let r := ringOf s fn ring
    if r.inFlight = 0 ∨ 4 ≤ ring then s
    else if !serves s fn ∨ (fnOf s fn).rst.isSome then fetchFail fn ring s
    else
      let slot := r.head
      acceptDesc fn ring slot rec (padTo 64 data)
        (modRing fn ring (fun r => { r with head := (r.head + 1) % ringSize r.sqLog2, inFlight := r.inFlight - 1 })
          (chanDone (hifMaster fn ring) fn 64 s)))

/-- FETCH_FAIL (R13): the ring pair's outstanding fetches accept nothing, free their reservations, and wait for a doorbell or a commit. -/
def execFetchFail (fn ring : Nat) (s : State) : Res :=
  .next (
    if (ringOf s fn ring).inFlight = 0 ∨ 4 ≤ ring then s
    else fetchFail fn ring (chanFail (hifMaster fn ring) 64 s))

/-- MOD_TIME_EXPIRY (R58): MOD_TIME ticks after the first unsignalled IRQ completion the vector fires. -/
def execModTimeExpiry (fn ring : Nat) (s : State) : Res :=
  .next (
    let r := ringOf s fn ring
    match r.irqFirst with
    | none => s
    | some t => if r.modTime ≠ 0 ∧ t + r.modTime ≤ tick s ∧ ring < 4 then ringFire fn ring s else s)

/-! ### Functions and pools (R38-R43) -/

/-- The minimums of R38 hold; the PF has none. -/
def aboveMinimum (f : Nat) (q : Share) : Bool :=
  decide (f = 0) || (decide (16 ≤ q.tokens) && decide (1 ≤ q.flows) && decide (1 ≤ q.dispatch))

/-- Every positive change fits its free pool (R39). -/
def poolFits (free old q : Share) : Bool :=
  decide (q.tokens ≤ old.tokens + free.tokens) && decide (q.flows ≤ old.flows + free.flows) &&
  decide (q.keys ≤ old.keys + free.keys) && decide (q.dispatch ≤ old.dispatch + free.dispatch)

/-- The free pool after a share changes from `old` to `q` (R28, R39). -/
def poolMove (free old q : Share) : Share :=
  ⟨free.tokens + old.tokens - q.tokens, free.flows + old.flows - q.flows, free.keys + old.keys - q.keys,
   free.dispatch + old.dispatch - q.dispatch⟩

/-- Move function `f`'s shares to `q`, and the free counts with them, in one update (R28, R39). -/
def setShare (f : Nat) (q : Share) (s : State) : State :=
  modHif (fun h => { h with
    shares := tset Share.zero h.shares f q, free := poolMove h.free (tget Share.zero h.shares f) q }) s

/-- Leave RESULT BUSY with the outcome the update will show (R40). -/
def cmdBegin (op f result : Nat) (s : State) : State :=
  modHif (fun h => { h with cmdPend := some ⟨op, f, result⟩ }) s

/-- HIF_FN_CMD has an effect: registers open and RESULT not BUSY (R40, R504). -/
def cmdOpen (s : State) : Bool := regsOpen s && s.hif.cmdPend.isNone

/-- RESULT of a CREATE (R39, R43). -/
def createResult (s : State) (f : Nat) : Nat :=
  if f = 0 ∨ (fnOf s f).created then 5
  else if !aboveMinimum f s.hif.req then 2
  else if !poolFits s.hif.free (shareOf s f) s.hif.req then 1
  else 0

/-- RESULT of a RESIZE (R39, R43). -/
def resizeResult (s : State) (f : Nat) : Nat :=
  if !(fnOf s f).created then 4
  else if !aboveMinimum f s.hif.req then 2
  else if !poolFits s.hif.free (shareOf s f) s.hif.req then 1
  else 0

/-- The function holds accepted descriptors or has an enabled ring pair (R43). -/
def fnBusy (s : State) (f : Nat) : Bool :=
  decide ((fnOf s f).held ≠ 0) || (fnOf s f).rings.any (fun r => r.enable) || s.hif.relq.any fun r => decide (r.fn = f)

/-- RESULT of a DESTROY (R43). -/
def destroyResult (s : State) (f : Nat) : Nat :=
  if f = 0 then 6 else if !(fnOf s f).created then 4 else if fnBusy s f then 3 else 0

/-- FN_CREATE (R38, R39, R70, R145): whole or not at all. -/
def execFnCreate (s : State) : Res :=
  .next (regWrote 0 <|
    if !cmdOpen s then s
    else
      let f := s.hif.fnSel
      let r := createResult s f
      let s := cmdBegin 1 f r s
      if r ≠ 0 then s
      else modFn f (fun x => { x with created := true, ops := 0x0BFF, budgetLimit := 4 }) (setShare f s.hif.req s))

/-- FN_RESIZE (R39, R42, R264): four shares in one update; a lowered key share evicts. -/
def execFnResize (s : State) : Res :=
  .next (regWrote 0 <|
    if !cmdOpen s then s
    else
      let f := s.hif.fnSel
      let r := resizeResult s f
      let s := cmdBegin 2 f r s
      if r ≠ 0 then s else keyShareEvict f (setShare f s.hif.req s))

/-- FN_DESTROY (R43, R368): an idle VF's shares return to the free pools, its program key and approvals go; its final receipt is due (R395). -/
def execFnDestroy (s : State) : Res :=
  .next (regWrote 0 <|
    if !cmdOpen s then s
    else
      let f := s.hif.fnSel
      let r := destroyResult s f
      let s := cmdBegin 3 f r s
      if r ≠ 0 then s
      else modMtr (fun m => { m with final := m.final ++ [f] })
        (keyShareEvict f (imagesDrop f (modLcy (fun l => { l with
            progKeys := tset [] l.progKeys f [], approvals := l.approvals.filter fun a => decide (a.fn ≠ f) })
          (modFn f (fun x => { x with created := false }) (setShare f Share.zero s))))))

/-- FN_CMD_COMPLETE (R39, R40, R264): RESULT leaves BUSY; with DONE the new dispatch units set the stride from the next decision on, and a
CREATE or RESIZE of a VF fires its vector 5. -/
def execFnCmdComplete (s : State) : Res :=
  .next (
    match s.hif.cmdPend with
    | none => s
    | some c =>
      let s := modHif (fun h => { h with cmdPend := none, cmdResult := c.result }) s
      let s := if c.result = 0 ∧ c.op ≤ 3 then modFn c.fn (fun x => { x with units := (shareOf s c.fn).dispatch }) s else s
      if c.result = 0 ∧ c.op ≤ 2 ∧ c.fn ≠ 0 then fireMsix c.fn 5 s else s)

/-- A read of HIF_POOL_SNAP returns 1 and latches the free counts and the selected function's shares; in START it latches nothing, since
reads return reset values (R41, R504). -/
def poolTake (s : State) : Nat × State :=
  (1, if s.pwr.mode = .start then s
      else modHif (fun h => { h with snapFree := h.free, snapShare := tget Share.zero h.shares h.fnSel }) s)

/-- POOL_SNAP (R41). -/
def execPoolSnap (s : State) : Res :=
  .next (
    if !(s.pwr.main && s.hif.linkUp && decide (s.pwr.mode ≠ .guard)) then s
    else emit (.reg (poolTake s).1) (poolTake s).2)

/-- FN_SEL_WRITE (R40, R286): select a function and reload the staging copies of its host regions. -/
def execFnSelWrite (value : Nat) (s : State) : Res :=
  .next (regWrote 0 <|
    if !cmdOpen s ∨ 1024 < value then s
    else modHif (fun h => { h with fnSel := value, hrStage := (fnOf s value).regions }) s)

/-- DOE_IDE_KM (R33): program the key of one of up to 64 selective streams. -/
def execDoeIdeKm (stream : Nat) (key : List Byte) (s : State) : Res :=
  .next (
    let others := s.hif.ide.filter fun e => decide (e.id ≠ stream)
    if !s.pwr.main ∨ !s.hif.linkUp ∨ 64 ≤ others.length then s
    else modHif (fun h => { h with ide := others ++ [⟨stream, padTo 32 key⟩] }) s)

end Sys2Proof.Machine
end

