-- ==== Sys2Proof/Machine/LcyOps.lean ====
section
/-!
DEFINITION. The shared operations of custody: officers and approvals (R343-R351), debug grants (R363-R365), and leaving ACTIVE for
LOCKED or RECOVERY (R24, R437).
-/

namespace Sys2Proof.Machine

/-! ### Approvals (R347-R351) -/

/-- Who signs an approval. -/
inductive Signer where
  /-- An active custody officer, but for the one named (R345, R351). -/
  | custody (except_ : Option Nat)
  /-- An active audit officer. -/
  | audit
  /-- The officer of a command's body, under the key given there (R344, R356). -/
  | member (index : Nat) (pk : Bytes)
  /-- The provisioning root (R327). -/
  | prov

/-- Officer `i`. -/
def officerAt (s : State) (i : Nat) : Officer := s.lcy.officers.getD i Officer.empty

/-- A public key in the ROM: 0 test root, 1 provisioning root, 2 diagnosis root, 3 firmware root (R354, R469). -/
def romKey (s : State) (n : Nat) : Bytes := s.lcy.rom.getD n []

/-- OFFICER of an approval. -/
def apOfficer (a : Bytes) : Nat := leAt a 0 1
/-- CHAL of an approval. -/
def apChal (a : Bytes) : Nat := leAt a 1 1

/-- The public key of the officer that an approval names, none when it may not sign here (R351 step 2). -/
def signerKey (s : State) (g : Signer) (i : Nat) : Option Bytes :=
  let o := officerAt s i
  match g with
  | .custody x => if i < 16 ∧ o.state = 1 ∧ o.role = 1 ∧ x ≠ some i then some o.pk else none
  | .audit => if 16 ≤ i ∧ i < 20 ∧ o.state = 1 ∧ o.role = 2 then some o.pk else none
  | .member k pk => if i = k then some pk else none
  | .prov => if i = 0xFE then some (romKey s 1) else none

/-- A signer that must be an officer of its own (R351 step 3, R356). -/
def isCustody : Signer → Bool
  | .custody _ | .member _ _ => true
  | _ => false

/-- Step 2 of R351 for one approval. -/
def apprForm (s : State) (dig : Bytes) (g : Signer) (a : Bytes) : Bool :=
  decide (leAt a 2 2 = 0) && decide (leAt a 4 4 = 29792) && decide (slice a 8 32 = dig) && decide (slice a 0x28 24 = zeroBytes 24) &&
  (signerKey s g (apOfficer a)).isSome

/-- The message that an approval signs (R349). -/
def apprMsg (s : State) (chal a : Bytes) : Bytes :=
  ascii "EHROS-APPR" ++ padTo 16 s.lcy.ident ++ leBytes 1 (apOfficer a) ++ slice a 8 32 ++ padTo 32 chal

/-- Step 6 of R351 for one approval. -/
def apprSig (s : State) (chal : Bytes) (g : Signer) (a : Bytes) : Bool :=
  match signerKey s g (apOfficer a) with
  | some pk => slhVerify slh256s pk (apprMsg s chal a) (slice a 0x40 29792)
  | none => false

/-- No number occurs twice. -/
def allDistinct : List Nat → Bool
  | [] => true
  | x :: xs => !(xs.contains x) && allDistinct xs

/-- Steps 4 and 5 of R351: the challenge of the one slot that the approvals name, judged at the tick of acceptance. A slot issued after
that tick has been replaced. -/
def slotCheck (s : State) (at_ : Nat) (cs : List Nat) : Nat × Bytes :=
  match cs with
  | [] => (0, [])
  | c :: rest =>
    let x := s.lcy.chals.getD c Chal.empty
    if !(rest.all fun d => decide (d = c)) ∨ x.state = 0 then (0x0304, [])
    else if x.state = 2 ∨ at_ < x.tick ∨ x.tick + 300000000 < at_ then (0x0305, [])
    else (0, x.data)

/-- Steps 2 to 6 of R351; `chal` answers steps 4 and 5. -/
def apprCheck (s : State) (dig : Bytes) (gs : List Signer) (as : List Bytes) (chal : List Nat → Nat × Bytes) : Nat :=
  let z := List.zip gs as
  if !(z.all fun x => apprForm s dig x.1 x.2) then 0x0304
  else if !allDistinct ((z.filter fun x => isCustody x.1).map fun x => apOfficer x.2) then 0x0303
  else
    let c := chal (as.map apChal)
    if c.1 ≠ 0 then c.1
    else if !(z.all fun x => apprSig s c.2 x.1 x.2) then 0x0304
    else 0

/-- The slot of checked approvals is USED (R350). -/
def chalUse (as : List Bytes) (s : State) : State :=
  match as with
  | [] => s
  | a :: _ => modLcy (fun l => { l with chals := l.chals.modify (apChal a) fun c => { c with state := 2 } }) s

/-- The `n` approvals that follow a body (R347). -/
def apprList (b : Bytes) (off n : Nat) : List Bytes := (List.range n).map fun i => slice b (off + 29856 * i) 29856

/-! ### Debug grants (R363-R365) -/

/-- Close the grants of a scope mask (1 internal, 2 scan) with a DEBUG record for each; causes: 1 LIFE, 2 DEBUG_CLOSE, 3 main power, 4 alarm,
5 leaving LOCKED (R365, R382; codes: log entry 45). -/
def grantClose (mask cause : Nat) (s : State) : State :=
  let close := fun (g : Option Grant) (s : State) => match g with
    | some g => auditU 0x0303 0 0 ([2] ++ leBytes 1 g.scope ++ leBytes 4 g.life ++ leBytes 1 cause) s
    | none => s
  let i := if mask.testBit 0 then s.lcy.intGrant else none
  let c := if mask.testBit 1 then s.lcy.scanGrant else none
  let s := modLcy (fun l => { l with
    intGrant := if mask.testBit 0 then none else l.intGrant, scanGrant := if mask.testBit 1 then none else l.scanGrant }) s
  close c (close i s)

/-! ### Leaving ACTIVE (R24, R437, R476) -/

/-- The device leaves ACTIVE, STANDBY or LOCKED for LOCKED or RECOVERY (R24, R437, R466). -/
def modeStop (m : Mode) (s : State) : State :=
  let was := s.pwr.mode
  let s := latchesDrop s
  setMode m (if was = .active then serviceEnd s else s)

/-- The closing completion of an accepted descriptor whose operations have ended (R24, R476): 0x0801, class 11 before dispatch, 13 after. -/
def closeToken (s : State) (it : Nat × Token) : State :=
  let i := it.1
  let t := tok s i
  let fin := fun (cls units : Nat) (s : State) =>
    settleToken i (modTok i (fun t => { t with
      st := if t.st = .held then .held else .expired, status := 0x0801, mclass := cls, resLen := 0, units := units, due := none, mseq := none }) s)
  match t.st with
  | .liftNb | .ready | .urgent | .parked | .liftWait =>
    let s := liftFreed (parkDrop i (liftDrop (.ent i) (liftDrop (.pace i) s)))
    if t.dispatched then fin 13 t.work s else fin 11 1 s
  | .held => fin 13 t.units s
  | .mirror => mirrorRelease [i] (modTok i (fun t => { t with status := 0x0801, mclass := 13, resLen := 0, mseq := none, recNo := none }) s)
  | .core => if (coreOfTok s i).isNone then fin 13 (max t.work (earlyUnits (dOpcode t.desc) 0)) (parkDrop i s) else s
  | _ => s

end Sys2Proof.Machine
end

