-- ==== Sys2Proof/Machine/Slalom.lean ====
section
/-!
DEFINITION. Slalom's own commands: the dispatch decision, aging, the hand-over at the Gate, the Lift, deadlines, and the wake and sleep
of clusters (R236-R264, R459-R462).
-/

namespace Sys2Proof.Machine

/-! ### The dispatch decision (R238-R241) -/

/-- Insert by a strict order, after its equals. -/
def insertBy {α : Type} (lt : α → α → Bool) (x : α) : List α → List α
  | [] => [x]
  | y :: ys => if lt x y then x :: y :: ys else y :: insertBy lt x ys

/-- Sort by a strict order, keeping the order of equals. -/
def sortBy {α : Type} (lt : α → α → Bool) (l : List α) : List α := l.foldl (fun acc x => insertBy lt x acc) []

/-- Tokens on a ready list or the urgent list that may run on cluster `c` (R239). -/
def eligibleToks (s : State) (c : Nat) : List (Nat × Token) :=
  s.slm.toks.filter fun it => (decide (it.2.st = .ready) || decide (it.2.st = .urgent)) && (!it.2.bound || decide (it.2.pcl = c)) &&
    (fnOf s it.2.func).rst.isNone

/-- A ready or urgent token is critical: its slack is below MARGIN (R261). -/
def isCritical (s : State) (t : Token) : Bool := match t.expire with | some e => decide (e < tick s + s.slm.margin) | none => false

/-- Greater AGE first; equal ages in list order. -/
def olderTok (a b : Nat × Token) : Bool := decide (b.2.age < a.2.age) || (decide (a.2.age = b.2.age) && decide (a.2.entry < b.2.entry))

/-- Earliest EXPIRE first, then greater AGE (R238). -/
def soonerTok (a b : Nat × Token) : Bool :=
  let x := a.2.expire.getD 0
  let y := b.2.expire.getD 0
  decide (x < y) || (decide (x = y) && olderTok a b)

/-- The stride of a function (R240). -/
def strideOf (s : State) (f : Nat) : Nat := 2 ^ 24 / max 1 (fnOf s f).units

/-- Add strides to a function's pass in a class (R240). -/
def chargePass (f c n : Nat) (s : State) : State :=
  modFn f (fun x => { x with pass := x.pass.modify c fun v => (v + n * strideOf s f) % 2 ^ 48 }) s

/-- The function a class serves next: least pass, the lower number on a tie (R240). -/
def classFn (s : State) (es : List (Nat × Token)) (c : Nat) : Option Nat :=
  ((es.filter fun it => decide (it.2.st = .ready) && decide (it.2.cls = c)).foldl (fun (best : Option (Nat × Nat)) it =>
    let v := (fnOf s it.2.func).pass.getD c 0
    match best with
    | none => some (it.2.func, v)
    | some b => if v < b.2 ∨ (v = b.2 ∧ it.2.func < b.1) then some (it.2.func, v) else some b) none).map fun b => b.1

/-- Within a function's list: the oldest of the 8 oldest that prefers this cluster, else the oldest (R241). -/
def affinityPick (es : List (Nat × Token)) (cl c f : Nat) : Option Nat :=
  let l := sortBy (fun a b => decide (a.2.entry < b.2.entry))
    (es.filter fun it => decide (it.2.st = .ready) && decide (it.2.cls = c) && decide (it.2.func = f))
  (((l.take 8).find? fun it => decide (it.2.aff = some cl)).orElse fun _ => l.head?).map fun it => it.1

/-- The token a core of cluster `cl` gets (R238). -/
def dispatchPick (s : State) (cl : Nat) : Option Nat :=
  let es := eligibleToks s cl
  match (sortBy soonerTok (es.filter fun it => isCritical s it.2)).head? with
  | some it => some it.1
  | none =>
    match (sortBy olderTok (es.filter fun it => decide (it.2.st = .urgent))).head? with
    | some it => some it.1
    | none => [7, 6, 5, 4, 3, 2, 1, 0].findSome? fun c => (classFn s es c).bind (affinityPick es cl c)

/-- A core in service that may be given a token: in ASK on an awake cluster, nothing given (R238). -/
def coreFree (s : State) (p : Nat) : Bool :=
  let c := core s p
  decide (c.st = .ask) && c.tok.isNone && c.given.isNone && c.late.isNone && clAwake s (coreCluster p) && (logicalOf s p).isSome

/-- DISPATCH_DECISION (R238-R241, R263, R290): a core in ASK is given a token, whose function's pane begins to load. -/
def execDispatchDecision (core : Nat) (s : State) : Res :=
  .next (
    if !s.pwr.main ∨ s.pwr.mode ≠ .active ∨ s.dbg.pairFault ∨ !coreFree s core ∨ (checker s core).shadow = .loading then s
    else match dispatchPick s (coreCluster core) with
      | none => s
      | some i =>
        let t := tok s i
        let s := chargePass t.func t.cls 1 (tableRead i s)
        let s := if dKey t.desc 0 = 0 then s else affSet (affKey t.func (dKey t.desc 0)) (coreCluster core) s
        let s := modTok i (fun t => { t with st := .core, urg := decide (t.st = .urgent), due := none }) s
        let s := modSlm (fun m => { m with idleSince := m.idleSince.set (coreCluster core) none }) s
        paneLoad core t.func (modCore core (fun c => { c with given := some i }) s))

/-! ### Aging (R242-R244) -/

/-- One token at a scan: AGE and CAGE grow; urgent entry first, else promotion (R242-R244). -/
def ageOne (s : State) (i : Nat) : State :=
  let t := tok s i
  if t.st = .urgent then modTok i (fun t => { t with age := (t.age + 16) % 2 ^ 32 }) s
  else if t.st = .ready then
    let s := modTok i (fun t => { t with age := (t.age + 16) % 2 ^ 32, cage := min 65535 (t.cage + 1) }) s
    let t := tok s i
    let th := s.slm.ageThresh.getD t.cls 0
    if s.slm.urgThresh ≠ 0 ∧ 16 * s.slm.urgThresh ≤ t.age then stampEntry i (modTok i (fun t => { t with st := .urgent }) s)
    else if t.cls < 7 ∧ th ≠ 0 ∧ th ≤ t.cage then
      enterReady i (modTok i (fun t => { t with cls := t.cls + 1, cage := 0 }) s)
    else s
  else s

/-- AGE_SCAN (R242): on tick numbers that are multiples of 16, once each. -/
def execAgeScan (s : State) : Res :=
  .next (
    if !s.pwr.main ∨ tick s % 16 ≠ 0 ∨ s.slm.lastScan = tick s then s
    else
      let ids := (sortBy (fun a b => decide (a.2.entry < b.2.entry)) (s.slm.toks.filter fun it =>
        decide (it.2.st = .ready) || decide (it.2.st = .urgent))).map fun it => it.1
      ids.foldl ageOne (modSlm (fun m => { m with lastScan := tick s }) s))

/-! ### The hand-over (R221, R224, R240, R257, R258) -/

/-- Meter late or abandoned work of a command, shown to the partner in a METER record without completion (R24, R82, R440). -/
def lateMeter (f cls units : Nat) (s : State) : State :=
  if units = 0 then s
  else meterAdd f cls units (mirrorSend 2 (loadByte s f) (meterBody f cls 1 units 0 0 0 0 false (zeroBytes 32)) s)

/-- The core goes on in firmware after a RELEASE (R213, R221). -/
def releaseCore (p : Nat) (s : State) : State :=
  let s := laneRelease p s
  clearWork p (modCore p (fun c => { Core.blank with
    st := .run, pc := c.pc, askPc := c.askPc, ds := if c.prog then [] else c.ds, cached := if c.prog then 0 else c.cached, rs := if c.prog then [] else c.rs,
    fwRet := c.fwRet, fwFault := c.fwFault, mem := c.mem, sampLeft := c.sampLeft, sampLfsr := c.sampLfsr, sampDue := c.sampDue }) s)

/-- The class in which a command's core time is charged: its token's, or that of the token information (R202, R240). -/
def gateClass (c : Core) (s : State) : Nat := match c.tok with | some i => (tok s i).cls | none => leNat (mread c.mem 0xFF45 1) % 8

/-- The result of a command reaches the Gate input (R27, R224, R225, R240, R247, R257, R258). -/
def gateTake (st len : Nat) (c : Core) (s : State) : State :=
  let s := if coreHolds c then chargePass c.func (gateClass c s) (cdiv c.cyc 4096 - 1) s else s
  if c.expired then lateMeter c.func 12 c.units s
  else if c.reset then modFn c.func (fun x => { x with rst := x.rst.map fun r => { r with abandoned := r.abandoned + c.units } }) s
  else if c.dropped then
    match c.tok with
    | some i => settleToken i (modTok i (fun x => { x with st := .held, status := 0x0801, mclass := 13, resLen := 0, units := c.units }) s)
    | none => abandonMeter c.func c.units s
  else match c.tok with
  | none => s
  | some i =>
    let t := tok s i
    let late := match t.expire with | some e => decide (100 * e < s.time.refCount) | none => false
    if late then lateMeter t.func 12 c.units s
    else
      let tie := match t.expire with | some e => decide (100 * e ≤ s.time.refCount + 99) | none => false
      let s := if tie then modFn t.func (fun x => { x with races := satAdd 0xFFFFFFFF x.races 1 }) s else s
      settleToken i (modTok i (fun x => { x with st := .held, status := st, mclass := opClass (dOpcode t.desc), resLen := len, units := c.units }) s)

/-- A core's requests have all ended, those that an AWAIT has given up among them (R218, R221). -/
def reqsEnded (s : State) (p : Nat) : Bool :=
  !laneBusy s p && !portBusy s p && !((core s p).reqs.any fun r => decide (r.port = 0x1E) && r.done.isNone)

/-- GATE_INPUT (R221, R247): the hand-over of a core in RELEASE whose stores and requests have all ended. -/
def execGateInput (core : Nat) (s : State) : Res :=
  .next (
    let c := Machine.core s core
    match c.st with
    | .release st len =>
      if !s.pwr.main ∨ !c.stores.isEmpty ∨ !reqsEnded s core then s
      else gateTake st len c (releaseCore core s)
    | _ => s)

/-! ### The Lift (R252-R254) -/

/-- The entry released next: due, earliest due tick first, then order of insertion (R252). An entropy wait is ended by the service's signal
or by its deadline's commit (R314, R315; log entry 38). -/
def liftNext (s : State) : Option LiftEntry :=
  (sortBy (fun (a b : LiftEntry) => decide (a.due < b.due)) (s.slm.lift.filter fun e => decide (e.due ≤ tick s) && !liftEnt e)).head?

/-- Release one entry. -/
def liftOne (e : LiftEntry) (s : State) : State :=
  let s := modSlm (fun m => { m with
    lift := m.lift.erase e, late := if max e.due e.ins + 1 < tick s then satAdd 0xFFFF m.late 1 else m.late }) s
  let s := match e.kind with
    | .pace i => enterReady i s
    | .ent _ => s
    | .retry n =>
      let c := chan s n
      if c.retryWait then chanGo n (modChan n (fun c => { c with retryWait := false }) s) else s
  liftFreed s

/-- Release due entries, with fuel. -/
def liftRun : Nat → State → State
  | 0, s => s
  | n + 1, s => match liftNext s with | none => s | some e => liftRun n (liftOne e s)

/-- LIFT_RELEASE (R252, R253): every entry that is due. -/
def execLiftRelease (s : State) : Res := .next (if s.pwr.main then liftRun (s.slm.lift.length + 1) s else s)

/-! ### Deadlines (R256-R260, R315) -/

/-- The deadline's completion: its status and class, with the units added now. -/
def expireTok (i st cls units : Nat) (s : State) : State :=
  settleToken i (modTok i (fun t => { t with st := .expired, status := st, mclass := cls, units := units, resLen := 0, due := none })
    (countFn 0x406 (tok s i).func s))

/-- A core that waits in place for admission to the Lift waits no longer once its DEADLINE has committed: the command ends, its result discarded
(R224, R254; log entry 38). -/
def randCommit (p : Nat) (s : State) : State :=
  let c := core s p
  if c.st = .rand ∧ !(s.ent.reqs.any fun q => decide (q.core = p)) then
    modCore p (fun c => { c with st := .release 0x0401 0, pc := if c.prog then c.fwRet else c.askPc, units := earlyUnits (dOpcode (mread c.mem 0xFF00 64)) c.cyc }) s
  else s

/-- A DEADLINE commits in the token's state (R259). -/
def commitOne (s : State) (i : Nat) : State :=
  let t := tok s i
  match t.st with
  | .liftNb | .ready | .urgent =>
    let s := parkDrop i (liftDrop (.pace i) s)
    liftFreed (if t.dispatched then expireTok i 0x0401 12 t.work s else expireTok i 0x0401 11 1 s)
  | .parked => expireTok i 0x0401 12 t.work (parkDrop i s)
  | .liftWait =>
    let d := drbgOf s (instOf t.func)
    liftFreed (expireTok i (if d.key.isEmpty then 0x0601 else 0x0602) (opClass (dOpcode t.desc)) t.work (parkDrop i (liftDrop (.ent i) s)))
  | .core =>
    match coreOfTok s i with
    | none => expireTok i 0x0401 12 0 s
    | some p =>
      if (core s p).given = some i then expireTok i 0x0401 12 0 (modCore p (fun c => { c with expired := true }) (givenLate p i s))
      else expireTok i 0x0401 12 0 (randCommit p (modCore p (fun c => { c with expired := true, closed := true, tok := none }) s))
  | _ => s

/-- DEADLINE_COMMIT (R257, R259, R260): every expiry whose edge lies 80 ns back commits. -/
def execDeadlineCommit (s : State) : Res :=
  .next (
    if !s.pwr.main then s
    else
      let due := s.slm.toks.filter fun it => match it.2.expire with
        | some e => decide (100 * e + 8 ≤ s.time.refCount) && decide (it.2.st ≠ .free)
        | none => false
      ((sortBy (fun a b => decide (a.2.accNo < b.2.accNo)) due).map fun it => it.1).foldl commitOne s)

/-! ### Clusters (R261-R263, R459-R462) -/

/-- A token counts as critical for the wake scan: ready or urgent with its slack below MARGIN, or in the Lift with its DUE within MARGIN
too (R261). -/
def wakeCritical (s : State) (t : Token) : Bool :=
  isCritical s t && match t.st with
    | .ready | .urgent => true
    | .liftNb | .liftWait => (match t.due with | some d => decide (d ≤ tick s + s.slm.margin) | none => false)
    | _ => false

/-- The critical tokens that are left once each core in ASK on an awake cluster has taken one that it can (R262; log entry 37). -/
def untaken : List Nat → List (Nat × Token) → List (Nat × Token)
  | _, [] => []
  | free, it :: ts =>
    match free.find? fun p => !it.2.bound || decide (coreCluster p = it.2.pcl) with
    | some p => untaken (free.erase p) ts
    | none => it :: untaken free ts

/-- Begin waking a sleeping cluster (R460). -/
def clWake (c : Nat) (s : State) : State :=
  if s.slm.clusters.getD c .awake = .asleep then modSlm (fun m => { m with clusters := m.clusters.set c .waking }) s else s

/-- The clusters to wake: the AFF or PCL cluster of the earliest-expiring token first, then the lowest numbers (R262). -/
def wakeOrder (s : State) (t : Token) : List Nat :=
  let pref := if t.bound then [t.pcl] else t.aff.toList
  ((pref ++ List.range 16).filter fun c => decide (s.slm.clusters.getD c .awake = .asleep)).eraseDups

/-- CRITICAL_WAKE_SCAN (R262): once at each tick. -/
def execCriticalWakeScan (s : State) : Res :=
  .next (
    if !s.pwr.main ∨ s.slm.lastWake = tick s then s
    else
      let s := modSlm (fun m => { m with lastWake := tick s }) s
      let free := (s.cpu.cores.map fun c => c.1).filter (coreFree s)
      let ts := untaken free (sortBy soonerTok (s.slm.toks.filter fun it => wakeCritical s it.2))
      match ts.head? with
      | none => s
      | some it =>
        let cs := (wakeOrder s it.2).take (cdiv ts.length 8)
        cs.foldl (fun s c => countEv ⟨0x407, none, none, none, 0, none⟩ 1 (clWake c s)) (modSlm (fun m => { m with forcedWakes := satAdd 0xFFFFFFFF m.forcedWakes cs.length }) s))

/-- No token in Slalom's lists has a slack below 2 × MARGIN (R263). -/
def slackAmple (s : State) : Bool :=
  s.slm.toks.all fun it => match it.2.st, it.2.expire with
    | .ready, some e | .urgent, some e | .liftNb, some e | .liftWait, some e => decide (tick s + 2 * s.slm.margin ≤ e)
    | _, _ => true

/-- Clusters awake. -/
def awakeCount (s : State) : Nat := (s.slm.clusters.filter fun c => decide (c = .awake)).length

/-- The hash lane of a cluster pair sleeps with both clusters, once its queue is empty (R461). -/
def hashSleep (c : Nat) (s : State) : State :=
  let h := c / 2
  if s.slm.clusters.getD (2 * h) .awake = .asleep ∧ s.slm.clusters.getD (2 * h + 1) .awake = .asleep ∧ (laneOf s (16 + h)).queue.isEmpty then
    modPwr (fun p => { p with hashAsleep := setBit p.hashAsleep h true }) s
  else s

/-- A cluster sleeps: registers, stacks and instruction caches are lost, memories and the lane's slots kept (R459). -/
def clSleep (c : Nat) (s : State) : State :=
  let s := (List.range 9).foldl (fun s k => modCore (9 * c + k) (fun x => { Core.blank with mem := x.mem }) s) s
  let s := modLane c (fun l => { l with ports := [] }) s
  hashSleep c (modSlm (fun m => { m with clusters := m.clusters.set c .asleep, idleSince := m.idleSince.set c none }) s)

/-- Every in-service core of the cluster is in ASK, or out of service. -/
def clIdle (s : State) (c : Nat) : Bool :=
  (List.range 8).all fun k => coreFree s (physOf s c k) || decide ((core s (physOf s c k)).st = .off)

/-- A cluster may sleep (R263); in LOCKED and RECOVERY every cluster does once its cores are in ASK (R462). -/
def maySleep (s : State) (c : Nat) : Bool :=
  s.pwr.main && decide (c < 16) && clAwake s c && clIdle s c &&
  (decide (s.pwr.mode = .locked) || decide (s.pwr.mode = .recovery) ||
    ((match s.slm.idleSince.getD c none with | some t => decide (t + s.slm.sleepIdle ≤ tick s) | none => false) &&
      decide (parksIn s c = 0) && decide (s.slm.minAwake < awakeCount s) && slackAmple s))

/-- CLUSTER_SLEEP (R263, R459, R462). -/
def execClusterSleep (cluster : Nat) (s : State) : Res := .next (if maySleep s cluster then clSleep cluster s else s)

/-- The lowest-numbered sleeping clusters with a core in service wake until MIN_AWAKE are awake or waking (SLM_WAKE_CTL). -/
def wakeFloor (s : State) : State :=
  let n := s.slm.minAwake - (s.slm.clusters.filter fun x => decide (x ≠ .asleep)).length
  let cs := (List.range 16).filter fun c =>
    decide (s.slm.clusters.getD c .awake = .asleep) && (List.range 8).any fun k => !(s.cpu.fenced.contains (physOf s c k))
  (cs.take n).foldl (fun s c => clWake c s) s

/-- CLUSTER_WAKE_DONE (R460, R461): the in-service cores are in ASK and AWAKE is set. -/
def execClusterWakeDone (cluster : Nat) (s : State) : Res :=
  .next (
    if !s.pwr.main ∨ s.slm.clusters.getD cluster .awake ≠ .waking then s
    else
      let s := modSlm (fun m => { m with clusters := m.clusters.set cluster .awake, idleSince := m.idleSince.set cluster none }) s
      (List.range 8).foldl (fun s k =>
        let p := physOf s cluster k
        if s.cpu.fenced.contains p then s else modCore p (fun c => { c with st := .ask }) s) s)

/-! ### Registers that act (R236, R255) -/

/-- TOKEN_SEL_WRITE (R236, R478): the record is copied in one step. -/
def execTokenSelWrite (value : Nat) (s : State) : Res :=
  .next (regWrote 0 <|
    if !regsOpen s then s
    else modSlm (fun m => { m with tokenSel := value % 65536, tokenData := tokBytes (tokRecord s (value % 65536)) }) (tableRead (value % 65536) s))

/-- LIFT_QUOTA_WRITE (R254, R255): ENT or RETRY of 0 has no effect; a sum above 256 sets CONFLICT; a raised quota admits waiting retries. -/
def execLiftQuotaWrite (value : Nat) (s : State) : Res :=
  .next (regWrote 0 <|
    let pace := bitsOf value 26 18
    let ent := bitsOf value 17 9
    let retry := bitsOf value 8 0
    if !regsOpen s ∨ ent = 0 ∨ retry = 0 then s
    else if 256 < pace + ent + retry then modSlm (fun m => { m with conflict := true }) s
    else liftFreed (modSlm (fun m => { m with qPace := pace, qEnt := ent, qRetry := retry }) s))

end Sys2Proof.Machine
end

