-- ==== Sys2Proof/Machine/Reset.lean ====
section
/-!
DEFINITION. Function level reset and the end of the PCIe link (R31, R35, R60-R65, R225, R501, R506, R517).
-/

namespace Sys2Proof.Machine

/-- Configuration space answers (R504). -/
def cfgAnswers (s : State) : Bool := s.pwr.main && s.hif.linkUp

/-- The device writes the function's reset report: it holds the load's latch, or it has no partner (R64). -/
def reportsReset (s : State) (f : Nat) : Bool :=
  !s.par.bound || (if f = 0 then decide (latchCount s ≠ 0) else (latch s (loadOf s f)).holder)

/-! ### The stamp (R60, R225) -/

/-- A descriptor that only a doorbell of the stamp tick made available: it was never accepted (R60). -/
def stampDropped (s : State) (f ring slot acceptRef : Nat) : Bool :=
  let r := ringOf s f ring
  let z := ringSize r.sqLog2
  decide (r.dbTick = tick s) && decide (acceptRef / 100 = tick s) && decide (ringDist z r.dbBase slot < ringDist z r.dbBase r.tail)

/-- Report status of a token at the stamp (R62, R66); a parked token, in no core, is withdrawn (R225; log entry 49). -/
def stampStatus : TokState → Nat
  | .free | .liftNb | .ready | .urgent | .parked | .liftWait => 0x0901
  | .core => 0x0902
  | .held | .mirror | .expired | .released => 0x0903

/-- Entries of the report, in acceptance order (R60, R65). -/
def stampEntries (s : State) (f : Nat) : List RptEntry :=
  let a := (s.slm.toks.filter fun it => decide (it.2.func = f) && decide (it.2.st ≠ .free) && !stampDropped s f it.2.ring it.2.slot it.2.acceptRef).map
    fun it => (⟨it.2.accNo, dTag it.2.desc, stampStatus it.2.st, it.2.ring, it.2.slot⟩ : RptEntry)
  let b := (s.hif.relq.filter fun r => decide (r.fn = f) && r.token.isNone && !stampDropped s f r.ring r.slot r.acceptRef).map
    fun r => (⟨r.accNo, r.tag, 0x0903, r.ring, r.slot⟩ : RptEntry)
  sortBy (fun x y => decide (x.accNo < y.accNo)) (a ++ b)

/-- Units executed for a token that its reset abandons now (R27, R62). -/
def stampUnits (it : Nat × Token) : Nat :=
  let t := it.2
  match t.st with
  | .free => 0
  | .liftNb | .ready | .urgent | .parked | .liftWait => if t.dispatched then t.work else 0
  | .core => 0
  | .held | .mirror | .expired | .released => if t.mclass = 11 then 0 else t.units

/-- A token leaves at the stamp: withdrawn, discarded, or left to run on its core without it (R60, R225). -/
def stampToken (s : State) (it : Nat × Token) : State :=
  let i := it.1
  let s := liftDrop (.ent i) (liftDrop (.pace i) s)
  let s := if it.2.st = .core then s else parkDrop i s
  let s := match coreOfTok s i with
    | none => s
    | some p => if (core s p).given = some i then modCore p (fun c => { c with reset := true }) (givenLate p i s) else modCore p (fun c => { c with tok := none }) s
  buryToken i s

/-- Commands of the function on cores learn of the reset, and their output is closed (R225). -/
def stampCores (f : Nat) (s : State) : State :=
  modCpu (fun c => { c with cores := c.cores.map fun e =>
    if e.2.func = f ∧ (e.2.tok.isSome ∨ e.2.expired) then (e.1, { e.2 with reset := true, closed := true }) else e }) s

/-- STAT offsets of the descriptors of function `f` that wait in a channel's queue (R271). -/
def queuedOf (s : State) (c : Chan) (f : Nat) : List Nat :=
  ((List.range (ringDist (2 ^ c.qlog2) c.head c.tail)).map fun k => c.qbase + 32 * ((c.head + k) % 2 ^ c.qlog2)).filterMap
    fun a => if (descAt s a).func = f then some (a + 24) else none

/-- Movers' unissued writes into the function's host addresses are not issued: of the descriptor running, and of those that wait (R62, R279). -/
def stampMovers (f : Nat) (s : State) : State :=
  modMov (fun m => { m with chans := m.chans.map fun c => (c.1, { c.2 with
    dropped := c.2.dropped || (match c.2.cur with | some d => decide (d.func = f) | none => false)
    reqs := c.2.reqs.map fun d => if d.func = f then { d with void := true } else d
    voids := c.2.voids ++ queuedOf s c.2 f }) }) s

/-- The body of an FN_RESET record (R438; field order: log entry 25). -/
def resetBody (f cause start : Nat) : Bytes := leBytes 2 f ++ leBytes 1 cause ++ zeroBytes 5 ++ leBytes 8 start

/-- RESET_STAMP (R60): a reset of function `f` begins; a function in reset keeps the reset it has (log entry 49). -/
def resetStamp (cause : Nat) (s : State) (f : Nat) : State :=
  let x := fnOf s f
  if x.rst.isSome then s
  else
    let toks := s.slm.toks.filter fun it => decide (it.2.func = f)
    let r : FnReset := ⟨tick s, s.time.refCount, timeField s, cause, x.rptBase, x.races, stampEntries s f, (toks.map stampUnits).sum, false⟩
    let holds := reportsReset s f
    let s := modFn f (fun x => { x with rst := some r, rstWord := .resetting }) s
    let s := stampMovers f (stampCores f s)
    let s := missAbandon f (toks.foldl stampToken s)
    let s := modHif (fun h => { h with relq := h.relq.filter fun r => decide (r.fn ≠ f) }) s
    let s := liftFreed s
    if holds then mirrorSend 5 (loadByte s f) (resetBody f cause r.startTime) s else s

/-- VF_FLR (R60). -/
def execVfFlr (fn : Nat) (s : State) : Res :=
  .next (if cfgAnswers s ∧ fn ≠ 0 ∧ fnExists s fn then resetStamp 1 s fn else s)

/-- VF_D3HOT (R33, R60). -/
def execVfD3hot (fn : Nat) (s : State) : Res :=
  .next (if cfgAnswers s ∧ fn ≠ 0 ∧ fnExists s fn then modFn fn (fun x => { x with d3 := true }) (resetStamp 5 s fn) else s)

/-- The VFs of the link. -/
def vfList : List Nat := (List.range 1024).map (· + 1)

/-- PF_FLR (R60): every function that exists, at once. -/
def execPfFlr (s : State) : Res :=
  .next (if cfgAnswers s then (if s.hif.vfEnable then vfList else []).foldl (resetStamp 2) (resetStamp 2 s 0) else s)

/-- VF_ENABLE_CLEAR (R60). -/
def execVfEnableClear (s : State) : Res :=
  .next (
    if cfgAnswers s ∧ s.hif.vfEnable then modHif (fun h => { h with vfEnable := false }) (vfList.foldl (resetStamp 3) s)
    else s)

/-- FN_RESET (R43): a created VF alone; DONE says that the sequence has begun. -/
def execFnReset (s : State) : Res :=
  .next (regWrote 0 <|
    if !cmdOpen s then s
    else
      let f := s.hif.fnSel
      let r := if f = 0 then 6 else if !(fnOf s f).created then 4 else 0
      let s := cmdBegin 4 f r s
      if r = 0 then resetStamp 4 s f else s)

/-! ### The drain (R62) -/

/-- Cores that still run a command of function `f` under its reset. -/
def resetCores (s : State) (f : Nat) : List Nat :=
  (s.cpu.cores.filter fun e => e.2.reset && decide (e.2.func = f)).map fun e => e.1

/-- A core's context is reset as for a fault, and what it executed counts as abandoned (R62, R225); FAULT.KIND is open (log entry 12). -/
def resetKill (f : Nat) (s : State) (p : Nat) : State :=
  let c := core s p
  let u := if c.expired then 0 else earlyUnits (dOpcode (mread c.mem 0xFF00 64)) c.cyc
  let s := modFn f (fun x => { x with rst := x.rst.map fun r => { r with abandoned := r.abandoned + u } }) s
  let s := if c.expired then lateMeter f 12 (earlyUnits (dOpcode (mread c.mem 0xFF00 64)) c.cyc) s else s
  let k := freeNat s % 16
  modCore p (fun c => { c with units := 0 }) (faultReset p k c.pc (bumpFree s))

/-- RESET_DRAIN_TIMEOUT (R62): 1,500 µs after the stamp. -/
def execResetDrainTimeout (fn : Nat) (s : State) : Res :=
  .next (
    match (fnOf s fn).rst with
    | none => s
    | some r =>
      if r.drained ∨ s.time.refCount < r.stampRef + 150000 ∨ !s.pwr.main then s
      else modFn fn (fun x => { x with rst := x.rst.map fun r => { r with drained := true } })
        ((resetCores s fn).foldl (resetKill fn) s))

/-! ### The report and the end (R62, R65, R501, R506) -/

/-- A report entry of 16 bytes (R65). -/
def rptEntry (e : RptEntry) : Bytes :=
  leBytes 8 e.tag ++ leBytes 2 e.status ++ leBytes 1 (e.ring % 4) ++ [0] ++ leBytes 2 e.slot ++ zeroBytes 2

/-- The 64-byte report header (R65). -/
def rptHeader (r : FnReset) (seq endTime : Nat) : Bytes :=
  leBytes 4 seq ++ leBytes 4 r.entries.length ++ leBytes 8 r.startTime ++ leBytes 8 endTime ++ leBytes 2 r.cause ++ zeroBytes 2 ++
  leBytes 4 r.races ++ leBytes 8 r.abandoned ++ zeroBytes 24

/-- The writes of a report in their order: entries, header, and its first dword last (R34, R65, R535). No base, no report (log entry 49). -/
def rptList (f : Nat) (r : FnReset) (seq endTime : Nat) : List (Nat × Nat × Bytes) :=
  if r.rptBase = 0 then []
  else
    let h := rptHeader r seq endTime
    (r.entries.zipIdx.map fun ei => (hifMaster f ei.1.ring, r.rptBase + 64 + 16 * ei.2, rptEntry ei.1)) ++
    [(hifMaster f 0, r.rptBase + 4, h.drop 4), (hifMaster f 0, r.rptBase, h.take 4)]

/-- A function's ring page returns to its reset values, its flows and race counter are cleared; but for cause 4, MSI-X and
configuration space too (R62, R501). -/
def resetClear (f cause : Nat) (s : State) : State :=
  let s := modFn f (fun x =>
    let x := { x with
      rings := List.replicate 4 Ring.blank, rptBase := 0, races := 0, dirBase := 0, dirSize := 0, missThresh := 0, missCount := 0,
      missStart := 0, missFired := false, progBase := 0, rcptCopy := 0, latchRd := none, heldWr := none }
    if cause = 4 then x
    else { x with msix := List.replicate x.msix.length MsixEntry.blank, relaxed := true, d3 := decide (cause = 5) }) s
  let s := modSlm (fun m => { m with flows := m.flows.filter fun e => decide (e.1 / 2 ^ 18 ≠ f) }) s
  if f = 0 ∧ cause ≠ 4 then modHif (fun h => { h with vfEnable := false, ide := [] }) s else s

/-- The reset of `f` is over: DONE, and the vectors that say so (R62). -/
def resetDone (f cause : Nat) (s : State) : State :=
  let s := rcptFlag 1 (modHif (fun h => { h with resetLast := f }) (modFn f (fun x => { x with rst := none, rstWord := .done }) s)) f
  let s := fireMsix 0 4 s
  if cause = 4 then fireMsix f 4 s else s

/-- RESET_REPORT_WRITE (R62, R64, R65, R130, R235): once no core runs the function's commands, or at the limit, and no takeover of its load is under way. -/
def execResetReportWrite (fn : Nat) (s : State) : Res :=
  .next (
    match (fnOf s fn).rst with
    | none => s
    | some r =>
      if !s.pwr.main ∨ (!r.drained ∧ !(resetCores s fn).isEmpty) ∨ (latch s (loadOf s fn)).take ≠ .none then s
      else
        let holds := reportsReset s fn
        let s := abandonMeter fn r.abandoned (fnKeysDrop fn (missAbandon fn (freeDead (fun f => decide (f = fn)) s)))
        let seq := ((fnOf s fn).rstSeq + 1) % 2 ^ 32
        let s := if holds then
            rptFlush fn (modFn fn (fun x => { x with rstSeq := seq, rptHeld := x.rptHeld ++ rptList fn r seq (timeField s) }) s)
          else s
        let on := (List.range 4).filter fun n => holds && (ringOf s fn n).enable
        let s := on.foldl (fun s n => ringMirror fn n s) (resetClear fn r.cause s)
        let s := if fn = 0 then cerCloseAll 4 (modCnt (fun _ => Cnt.start) s) else s
        resetDone fn r.cause s)

/-! ### The link (R31, R35, R517) -/

/-- Service ends on the link: a latch whose partner stands by is fenced; nothing accepted is completed or reported, and every function is
as after a reset (R31, R35; what a link-down clears: log entry 49). -/
def linkEnd (s : State) : State :=
  let s := [0, 1].foldl (fun s l => if (latch s l).pCur then fenceLatch l s else s) s
  let s := dropLoad (fun _ => true) s
  let s := (s.hif.fns.map fun e => e.1).foldl (fun s f => resetClear f 2 (fnKeysDrop f (missAbandon f s))) s
  let s := modSlm (fun m => { m with flows := [] }) s
  modHif (fun h => { h with vfEnable := false, ide := [], fns := h.fns.map fun e => (e.1, { e.2 with rst := none, rstWord := .idle, rptHeld := [] }) }) s

/-- LINK_DOWN (R35). -/
def execLinkDown (s : State) : Res := .next (if cfgAnswers s then linkEnd s else s)

/-- PERST_ASSERT (R517). -/
def execPerstAssert (s : State) : Res := .next (if cfgAnswers s then linkEnd s else s)

end Sys2Proof.Machine
end

