-- ==== Sys2Proof/Machine/Integrity.lean ====
section
/-!
DEFINITION. The integrity chain: the standby self-test, run-time fencing of cores and sill lanes, the keep RAM scrubber, the count of
corrected errors, and the error report queue (R449, R472-R486).
-/

namespace Sys2Proof.Machine

/-! ### Cores (R475, R476, R482) -/

/-- The spare core of a cluster. -/
def spareCore (c : Nat) : Nat := 9 * c + 8

/-- A physical core of the device that is not fenced. -/
def coreGood (s : State) (p : Nat) : Bool := decide (p < 144) && !(s.cpu.fenced.contains p)

/-- A cluster's spare can still take a logical number. -/
def spareReady (s : State) (c : Nat) : Bool := coreGood s (spareCore c) && !s.cpu.spareUsed.testBit c

/-- Logical cores of a cluster in service. -/
def coresIn (s : State) (c : Nat) : List Nat := (List.range 8).filter fun k => coreGood s (physOf s c k)

/-- DBG_FENCE_CORE.CL_SHORT of a cluster follows its cores. -/
def shortNote (c : Nat) (s : State) : State :=
  modCpu (fun x => { x with short := setBit x.short c (decide ((coresIn s c).length < 8)) }) s

/-- A core that enters service in an awake cluster waits in ASK. -/
def coreReady (p : Nat) (s : State) : State :=
  if clAwake s (coreCluster p) then modCore p (fun x => { x with st := .ask }) s else s

/-- The command on a core that fails, given to it or running, ends with 0x0403, or with the status of its fault, metered for the work it did (R475,
R482). -/
def coreLose (p : Nat) (s : State) : State :=
  let c := core s p
  let s := portAbandon p (laneAbandon p s)
  match c.given, c.late with
  | some i, _ =>
    let op := dOpcode (tok s i).desc
    settleToken i (modTok i (fun t => { t with
      st := .held, status := 0x0403, mclass := opClass op, resLen := 0, units := max t.work (earlyUnits op 0) }) (parkDrop i s))
  | none, some x => gateTake 0x0403 0 { c with units := max x.1.work (earlyUnits (dOpcode x.1.desc) 0) } s
  | none, none => gateTake (if c.fault = 0 then 0x0403 else c.fault % 65536) 0 { c with units := if c.units = 0 then earlyUnits (dOpcode (coreDesc s p)) c.cyc else c.units } s

/-- Physical core `p` goes out of service, its load history with it (R267, R476, R482). -/
def coreOut (p : Nat) (s : State) : State :=
  let s := ledgerFail 0x0B p (coreLose p s)
  let s := modSlm (fun m => { m with load := tset 0 m.load p 0 }) (modCpu (fun x => { x with fenced := x.fenced ++ [p] }) (setCore p Core.blank s))
  let s := shortNote (coreCluster p) s
  if (List.range 144).all fun q => !(coreGood s q) then pairFaultGo s else s

/-- Fence physical core `p` (R475, R482). -/
def coreFence (p det : Nat) (test : Bool) (s : State) : State :=
  let c := core s p
  coreOut p (errReport det 2 (4 + 2 * b2n (coreHolds c)) p (if coreHolds c then c.func else 0) 0 0 test s)

/-- The cores that run-time detections have condemned go out of service (R475, R482). -/
def coresDue (s : State) : State :=
  s.dbg.fenceDue.foldl (fun s p => if coreGood s p then coreOut p s else s) (modDbg (fun d => { d with fenceDue := [] }) s)

/-- A cluster's spare takes logical number `k` (R482). -/
def spareSwap (c k : Nat) (s : State) : State :=
  let n := 8 * c + k
  let p := spareCore c
  let s := modCpu (fun x => { x with
    logical := (x.logical.filter fun e => decide (e.1 < n)) ++ (n, p) :: x.logical.filter (fun e => decide (n < e.1)),
    spareUsed := setBit x.spareUsed c true }) s
  coreReady p (shortNote c s)

/-- CORE_SPARE_SWAP (R482): the cluster's spare takes the logical number of a fenced core. -/
def execCoreSpareSwap (cluster : Nat) (s : State) : Res :=
  .next (
    if !s.pwr.main ∨ 16 ≤ cluster ∨ !spareReady s cluster then s
    else match (List.range 8).find? fun k => !coreGood s (physOf s cluster k) with
      | none => s
      | some k => spareSwap cluster k s)

/-! ### The sill link (R476, R480) -/

/-- Remapped lanes of a direction (0 or 1). -/
def sillUsed (s : State) (dir : Nat) : Nat := (s.dbg.sillRemapped.filter fun n => decide (n / 64 = dir)).length

/-- A lane of the sill link has failed for good: a spare takes its place, or the fault is PAIR. -/
def sillFail (dir lane : Nat) (test : Bool) (s : State) : State :=
  let n := 64 * dir + lane
  if sillUsed s dir < 4 then
    let s := errReport 0x0D 2 8 n 0 0 0 test s
    let s := modDbg (fun d => { d with sillRemapped := d.sillRemapped ++ [n] }) s
    modDbg (fun d => { d with sillSpares := 4 - max (sillUsed s 0) (sillUsed s 1) }) s
  else pairFaultGo (errReport 0x0D 3 (16 * b2n (latchCount s ≠ 0)) n 0 0 0 test s)

/-- SILL_LANE_REMAP_DONE (R480). -/
def execSillLaneRemapDone (dir lane : Nat) (s : State) : Res :=
  .next (if !s.pwr.main ∨ 2 ≤ dir ∨ 64 ≤ lane then s else sillFail dir lane false s)

/-! ### The standby self-test (R449, R462, R483) -/

/-- A point that a test passes: detector, the unit an injection names, and the unit as its response takes it. -/
structure TestPoint where
  det : Nat
  unit : Nat
  arg : Nat

/-- The first armed injection among the points that a test passes: the point, kind, FULL. -/
def injFirst : List TestPoint → State → Option (TestPoint × Nat × Bool) × State
  | [], s => (none, s)
  | d :: ds, s =>
    match injTake d.det d.unit s with
    | (some x, t) => (some (d, x.1, x.2), t)
    | (none, t) => injFirst ds t

/-- A failure that no spare covers ends eligibility (R449). -/
def noSpare (s : State) : State := modPar (fun p => { p with testFault := true }) s

/-- The full response to an uncorrectable detection in a self-test, or, for an injection without FULL, what is left of it (R475, R483). -/
def testHit (det unit : Nat) (test full : Bool) (s : State) : State :=
  match det with
  | 0x05 =>
    if !full then errReport det 2 0x20 unit 0 0 0 test s
    else if spareReady s (coreCluster unit) then coreFence unit det test s
    else noSpare (coreFence unit det test s)
  | 0x08 => coresDue (parityNote unit test full s)
  | 0x0B | 0x0C =>
    if !full then errReport det 2 0x20 (if det = 0x0B then unit else lanePhys s unit) 0 0 0 test s
    else laneFence unit det test (if (spareFor s unit).isNone then noSpare s else s)
  | 0x0A => if full then noSpare (errReport det 2 0 0 0 0 0 test s) else errReport det 2 0x20 0 0 0 0 test s
  | 0x0D => if full then sillFail (unit / 64) (unit % 64) test s else errReport det 2 0x20 unit 0 0 0 test s
  | 0x04 => xbarTry unit 3 (errReport det 1 1 unit 0 0 0 test s)
  | 0x07 => tableSecond 0 (errReport det 1 1 unit 0 0 0 test s)
  | _ => errReport det 1 0 unit 0 0 0 test s

/-- A test of a unit, through the points given: a real failure answers with the first point's full response and takes no injection (R486;
which detector a failed known answer is reported under: log entry 54). -/
def testUnit (points : List TestPoint) (fail : Bool) (s : State) : State :=
  match points with
  | [] => s
  | p :: _ =>
    let say := healthReport 8 (leBytes 2 p.unit)
    if fail then say (testHit p.det p.arg false true s)
    else match injFirst points s with
      | (none, t) => t
      | (some (d, kind, full), t) =>
        if kind = 0 ∨ d.det = 0x0D then errCorrected d.det t else say (testHit d.det d.arg true full t)

/-- The self-test wakes the cluster it tests (R462). -/
def testWake (c : Nat) (s : State) : State :=
  if clAwake s c then s
  else
    let s := modSlm (fun m => { m with clusters := m.clusters.set c .awake, idleSince := m.idleSince.set c none }) s
    (coresIn s c).foldl (fun s k => coreReady (physOf s c k) s) s

/-- The lane port that a self-test of a kind and unit names. -/
def testPort (kind unit : Nat) : Nat :=
  match kind with
  | 1 => unit
  | 2 => 16 + unit
  | 3 => 24 + unit
  | _ => 28 + unit

/-- The lane exists. -/
def testPortOk (kind unit : Nat) : Bool := decide (unit < match kind with | 1 => 16 | 2 => 8 | 3 => 4 | _ => 2)

/-- SELF_TEST_RUN (R449, R462): a known-answer test of a core (kind 0), a block, hash, modular or lattice lane (1 to 4), the key store's
MAC path (5) or a lane of the sill link (6), and whether the unit fails it. -/
def execSelfTestRun (kind unit : Nat) (fail : Bool) (s : State) : Res :=
  .next (
    if !s.pwr.main ∨ s.pwr.mode ≠ .standby then s
    else match kind with
      | 0 =>
        if unit < 144 ∧ (logicalOf s unit).isSome then
          testUnit [⟨0x05, unit, unit⟩, ⟨0x08, unit, unit⟩, ⟨0x06, coreCluster unit, coreCluster unit⟩, ⟨0x04, xbarRoute s (64 + unit), xbarRoute s (64 + unit)⟩,
            ⟨0x07, Config.slmBank 0 0, Config.slmBank 0 0⟩] fail
            (testWake (coreCluster unit) s)
        else s
      | 1 | 2 | 3 | 4 =>
        let n := testPort kind unit
        if !testPortOk kind unit ∨ (laneOf s n).fenced then s
        else
          let s := if kind = 1 then testWake unit s else s
          testUnit [⟨0x0C, lanePhys s n, n⟩, ⟨0x0B, n, n⟩] fail s
      | 5 => testUnit [⟨0x0A, 0, 0⟩, ⟨0x09, 0, 0⟩] fail s
      | 6 => if unit < 128 then testUnit [⟨0x0D, unit, unit⟩] fail s else s
      | _ => s)

/-! ### Keep RAM (R481) -/

/-- The keep RAM half of a word: the secret half comes first (log entry 54). -/
def keepSecretWord (w : Nat) : Bool := decide (w < 2048)

/-- This device's partner is current for a latch (R426, R481). -/
def pairCurrent (s : State) : Bool := s.par.bound && (s.par.l0.pCur || s.par.l1.pCur)

/-- A word found uncorrectable: reported with main power, and failed until it is restored; without a current partner, the next receipt of the
function whose meter it holds says so (R475, R481). -/
def keepFail (test : Bool) (s : State) (w : Nat × Nat) : State :=
  let s := if s.pwr.main then errReport 0x14 1 0 (w.1 % 65536) 0 w.1 0 test s else s
  let s := modDbg (fun d => { d with failedWords := d.failedWords.filter (fun x => decide (x.1 ≠ w.1)) ++ [w] }) s
  if w.2 ≠ 0 ∧ !pairCurrent s then rcptFlag 3 s ((w.2 - 1) / 16) else s

/-- An armed injection meets the scrub: one word, whose number an injection for any unit leaves open (R483; log entry 12). -/
def keepInj (s : State) : State :=
  match s.dbg.inj with
  | none => s
  | some i =>
    let w := if i.unit = 0xFFFF then freeNat s % 65536 else i.unit
    let s := if i.point = 0x14 ∧ i.unit = 0xFFFF then bumpFree s else s
    match injTake 0x14 w s with
    | (none, _) => s
    | (some (0, _), t) => errCorrected 0x14 t
    | (some (_, true), t) => keepFail true t (w, 0)
    | (some (_, false), t) => errReport 0x14 1 0 w 0 w 0 true t

/-- KEEP_SCRUB (R481): every 10 ms; how many words it corrects, the words it finds uncorrectable, and the meter each of those holds plus 1,
or 0. -/
def execKeepScrub (corrected : Nat) (bad meters : List Nat) (s : State) : Res :=
  .next (
    let now := if s.pwr.main then s.time.refCount else s.time.slowCount
    let period := if s.pwr.main then 1000000 else 328
    if !(s.pwr.main || s.pwr.backup) ∨ now < s.pwr.scrubAt + period then s
    else
      let s := modPwr (fun p => { p with scrubAt := now }) s
      let s := if s.pwr.main then (List.range corrected).foldl (fun s _ => errCorrected 0x14 s) s else s
      let s := (bad.zipIdx.map fun wi => (wi.1, meters.getD wi.2 0)).foldl (keepFail false) s
      if s.pwr.main then keepInj s else s)

/-- KEEP_WORD_RESTORE (R481): a ledger word comes back from the mirror of a current partner. -/
def execKeepWordRestore (word : Nat) (s : State) : Res :=
  .next (
    if !s.pwr.main ∨ !pairCurrent s ∨ keepSecretWord word then s
    else modDbg (fun d => { d with failedWords := d.failedWords.filter fun x => decide (x.1 ≠ word) }) s)

/-! ### Reports (R477) -/

/-- CORRECTED_COUNT_SECOND (R477): a second of device time has ended; each detector that corrected in it has its INTEGRITY record. -/
def execCorrectedCountSecond (s : State) : Res :=
  .next (
    match s.time.dev with
    | none => s
    | some t =>
      let sec := t / 1000000
      if !s.pwr.main ∨ sec ≤ s.dbg.lastSecond then s
      else
        let cs := s.dbg.secCorr
        let s := modDbg (fun d => { d with secCorr := [], lastSecond := sec }) s
        cs.foldl (fun s c => auditU 0x0500 0 0 (integrityBody ⟨timeField s, c.1, 0, 0, 0, 0, 0, 0, c.2, false⟩) s) s)

/-- A read of DBG_ERR_NEXT: the oldest report goes to DBG_ERR_DATA, and the read returns 1, or 0 on an empty queue. -/
def errTake (s : State) : Nat × State :=
  match s.dbg.errs with
  | [] => (0, s)
  | e :: rest => (1, modDbg (fun d => { d with errs := rest, data := errBytes e }) s)

/-- DBG_ERR_NEXT (R477). -/
def execDbgErrNext (s : State) : Res := .next (readOut (errTake s) s)

end Sys2Proof.Machine
end

