-- ==== Sys2Proof/Machine/Clock.lean ====
section
/-!
DEFINITION. What passes while no command waits: one reference period with main power, one slow-clock period in GUARD (R256, R374, R457; log
entry 1).
-/

namespace Sys2Proof.Machine

/-- Device time advanced by `d` units of 10^-9 µs (R374). -/
def timeAdvance (d : Nat) (t : TimeSt) : TimeSt :=
  match t.dev with
  | none => t
  | some v => { t with dev := some (v + (t.frac + d) / 10 ^ 9), frac := (t.frac + d) % 10 ^ 9 }

/-- Core cycles in the reference period after count `n`: 12 and 13 in turn, 1.25 GHz over 100 MHz (R7). -/
def periodCycles (n : Nat) : Nat := 25 * (n + 1) / 2 - 25 * n / 2

/-- A waiting core's period: its cycles run in CYC and BUDGET, and ASK, AWAIT and a waiting ISSUE are counted (R203, R233, R488). -/
def coreWait (k : Nat) (s : State) (p : Nat) : State :=
  let held := countCore 0x001 p k none (modCore p (charge k) s)
  match (core s p).st with
  | .ask => countCore 0x003 p k none s
  | .await _ _ _ => countCore 0x004 p k none held
  | .release _ _ => held
  | .kres => held
  | .rand => held
  | .run => if (core s p).stall then (if (core s p).issueWait then countCore 0x005 p k none held else held) else s
  | _ => s

/-- The last 1,024 ticks of a core, newest in bit 0 (R267). -/
def loadShift (s : State) (p : Nat) : State :=
  modSlm (fun m => { m with load := tset 0 m.load p ((2 * tget 0 m.load p + b2n (coreHolds (core s p))) % 2 ^ 1024) }) s

/-- Whether a cluster has been idle, and since when: all its cores in ASK and nothing eligible on it (R263). -/
def idleMark (s : State) (c : Nat) : State :=
  let idle := clAwake s c && clIdle s c && (eligibleToks s c).isEmpty
  modSlm (fun m => { m with idleSince := m.idleSince.modify c fun x => if idle then some (x.getD (tick s)) else none }) s

/-- A tick edge (R256): device time, core loads, idle clusters, AWAKE_TICKS. -/
def tickEdge (s : State) : State :=
  let s := modTime (fun t => timeAdvance ((10 ^ 9 + 10 * t.slew).toNat) t) s
  let s := (List.range 144).foldl loadShift s
  let s := (List.range 16).foldl idleMark s
  countEv ⟨0x408, none, none, none, 0, none⟩ (s.slm.clusters.filter fun c => decide (c = .awake)).length s

/-- A miss has a read outstanding at the host: its directory entry, its block, or the vault blob of its LMK (R115, R127). -/
def missOwed (s : State) (m : Miss) : Bool := decide (m.stage = .vault) || s.mov.chans.any fun c => decide (c.2.hwMiss = some m.id)

/-- A host read of a core is outstanding: a load, the beat of a mover-port request, or the read of a miss that it waits for in place (R17). -/
def coreOwed (s : State) (p : Nat) : Bool :=
  loadWaits s p ||
  (s.mov.chans.any fun c => c.2.asked && c.2.cur.any fun d => decide ((d.port.map fun x => x.1) = some p) && !(piecesOf d.srcSp d.src d.len d.srcP).isEmpty) ||
  (s.kst.misses.any fun m => missOwed s m && m.cores.any fun w => decide (w.1 = p))

/-- A memory read of a token's command is outstanding at the host (R17). -/
def hostOwed (s : State) (i : Nat) (t : Token) : Bool :=
  match t.st with
  | .core => match coreOfTok s i with | some p => coreOwed s p | none => false
  | .parked =>
    (s.kst.misses.any fun m => missOwed s m && m.toks.any fun w => decide (w.1 = i)) ||
    s.cpu.fetches.any fun g => g.image.isNone && g.waiters.contains i
  | _ => false

/-- Count the waits for host reads of every token (R17, R265). -/
def hostWaits (s : State) : State :=
  modSlm (fun m => { m with toks := m.toks.map fun e => (e.1, if hostOwed s e.1 e.2 then { e.2 with hostWait := e.2.hostWait + 1 } else e.2) }) s

/-- A channel waits for a tag or for credit (R270, R280, R488). -/
def chanStalls (s : State) (n : Nat) (c : Chan) : Bool :=
  (c.cur.isNone && c.hw.isNone && !c.halted && keyDue c && !tagFree s n) ||
  (match c.cur with
    | some d => !c.asked && !c.retryWait && decide (c.got < burstEnd c d) && decide (d.srcSp = 0) && !tagFree s n
    | none => false) ||
  (decide (n = 63) && mirrorStalls s)

/-- A frame on a port waits for credit (R406, R488). -/
def portStalls (x : Port) : Bool :=
  decide (x.st = .up) && x.queue.any fun f => !f.rsv && decide ((x.cred.getD (fVc f.bytes) Cred.blank).held < fCredits (fLen f.bytes))

/-- The waits of channels and ports over `k` cycles of the common clock (R488). -/
def linkWaits (k : Nat) (s : State) : State :=
  let s := (s.mov.chans.filter fun c => chanStalls s c.1 c.2).foldl
    (fun s c => countChan 0x204 c.1 k (c.2.cur.bind fun d => if d.func = 2047 then none else some d.func) none s) s
  ((List.range 8).filter fun p => portStalls (portOf s p)).foldl (fun s p => countPort 0x304 p k s) s

/-- One reference period of 10 ns passes (R256). -/
def refStep (s : State) : State :=
  let k := periodCycles s.time.refCount
  let s := (s.cpu.cores.map fun e => e.1).foldl (coreWait k) (linkWaits k (hostWaits (coresDue s)))
  let s := modTime (fun t => { t with refCount := t.refCount + 1 }) s
  if s.time.refCount % 100 = 0 then tickEdge s else s

/-- One period of the 32.768 kHz slow clock passes in GUARD: 30.517578125 µs of device time (R374). -/
def slowStep (s : State) : State :=
  modTime (fun t => timeAdvance 30517578125 { t with slowCount := t.slowCount + 1 }) s

/-- What passes when no command waits. Without main power and a powered guard die nothing runs. -/
def timeStep (s : State) : State :=
  if s.pwr.main ∧ s.pwr.mode ≠ .guard then refStep s
  else if s.pwr.mode = .guard ∧ (s.pwr.backup ∨ s.pwr.supplies) then slowStep s
  else s

end Sys2Proof.Machine
end

