-- ==== Sys2Proof/Machine/PayOps.lean ====
section
/-!
DEFINITION. The computations of the payment commands (R75-R99): PAN fields, PIN blocks, PIN verification, card verification values, EMV
keys, message authentication, DUKPT, and FF1. The schemes themselves are the standards' own that the rules name (PRESUMED, log entry 2).
-/

namespace Sys2Proof.Machine

/-! ### Nibbles and digits -/

/-- The nibbles of a byte string, high first. -/
def nibs (b : Bytes) : List Nat := b.flatMap fun x => [x.toNat / 16, x.toNat % 16]

/-- Bytes from nibbles, high first. -/
def unnibs : List Nat → Bytes
  | a :: b :: r => BitVec.ofNat 8 (16 * a + b) :: unnibs r
  | [a] => [BitVec.ofNat 8 (16 * a)]
  | [] => []

/-- A nibble list padded with `x` on the right to `n`. -/
def padNibs (n x : Nat) (l : List Nat) : List Nat := (l ++ List.replicate (n - l.length) x).take n

/-- A nibble list padded with 0 on the left to `n`, or its rightmost `n`. -/
def lastNibs (n : Nat) (l : List Nat) : List Nat := List.replicate (n - l.length) 0 ++ l.drop (l.length - n)

/-- Every byte is 0. -/
def allZero (b : Bytes) : Bool := b.all fun x => decide (x = 0)

/-- Every byte is an ASCII digit. -/
def isDigits (b : Bytes) : Bool := b.all fun x => decide (0x30 ≤ x.toNat) && decide (x.toNat ≤ 0x39)

/-- The values of ASCII digits. -/
def digitsOf (b : Bytes) : List Nat := b.map fun x => x.toNat - 0x30

/-- ASCII digits of values. -/
def asciiDigits (l : List Nat) : Bytes := l.map fun n => BitVec.ofNat 8 (0x30 + n)

/-- The two-pass scan: decimal nibbles in order, then the others less 10, in order (R90, R91). -/
def twoPass (l : List Nat) : List Nat := (l.filter fun n => decide (n < 10)) ++ ((l.filter fun n => decide (10 ≤ n)).map fun n => n - 10)

/-! ### The PAN field (R75) -/

/-- A well-formed PAN field. -/
def panOk (b : Bytes) : Bool :=
  let n := leAt b 0 1
  decide (12 ≤ n) && decide (n ≤ 19) && isDigits (slice b 1 n) && allZero (slice b (1 + n) (31 - n))

/-- The PAN's digits. -/
def panDigits (b : Bytes) : List Nat := digitsOf (slice b 1 (leAt b 0 1))

/-- The `n` rightmost digits without the check digit. -/
def panRight (n : Nat) (b : Bytes) : List Nat := let d := (panDigits b).dropLast; d.drop (d.length - n)

/-! ### PIN blocks (R84-R86) -/

/-- The format binds the PAN. -/
def panBound (fmt : Nat) : Bool := decide (fmt = 0) || decide (fmt = 3) || decide (fmt = 4)

/-- The PAN field of formats 0 and 3. -/
def panNibs (pan : Bytes) : List Nat := [0, 0, 0, 0] ++ panRight 12 pan

/-- The PAN field of format 4. -/
def panBlock4 (pan : Bytes) : Bytes := let d := panDigits pan; unnibs (padNibs 32 0 ((d.length - 12) :: d))

/-- The fill nibbles that a format accepts on input. -/
def fillOk (fmt n : Nat) : Bool :=
  match fmt with | 1 => true | 3 => decide (10 ≤ n) | 4 => decide (n = 10) | _ => decide (n = 15)

/-- The PIN in a PIN field: control nibble, length 4 to 12, digits, and fill up to nibble 16. -/
def pinField (fmt : Nat) (n : List Nat) : Option (List Nat) :=
  let l := n.getD 1 0
  let pin := (n.drop 2).take l
  if n.getD 0 15 = fmt ∧ 4 ≤ l ∧ l ≤ 12 ∧ pin.all (fun x => decide (x < 10)) ∧ ((n.take 16).drop (2 + l)).all (fillOk fmt) then some pin else none

/-- The PIN of an enciphered block, none when it breaks its row (R84). -/
def pinDecode (fmt : Nat) (key blk pan : Bytes) : Option (List Nat) :=
  if fmt = 4 then pinField 4 (nibs (aesDec key (xorBytes (aesDec key blk) (panBlock4 pan))))
  else
    let n := nibs (tdesDec key (blk.take 8))
    pinField fmt (if panBound fmt then (List.zip n (panNibs pan)).map fun x => Nat.xor x.1 x.2 else n)

/-- Bytes of the generate request of an output block, 0 for none (R85). -/
def fillDraw (fmt l : Nat) : Nat := match fmt with | 1 => cdiv (14 - l) 2 | 3 => 2 * (14 - l) | 4 => 8 | _ => 0

/-- The fill nibbles of an output block (R85). -/
def fillOf (fmt l : Nat) (rnd : Bytes) : List Nat :=
  match fmt with
  | 1 => (nibs rnd).take (14 - l)
  | 3 => (List.range (14 - l)).map fun i => 10 + beAt rnd (2 * i) 2 % 6
  | _ => List.replicate (14 - l) (if fmt = 4 then 10 else 15)

/-- An enciphered block of a format (R84, R85). -/
def pinEncode (fmt : Nat) (key : Bytes) (pin : List Nat) (pan rnd : Bytes) : Bytes :=
  let n := [fmt, pin.length] ++ pin ++ fillOf fmt pin.length rnd
  if fmt = 4 then aesEnc key (xorBytes (aesEnc key (unnibs n ++ padTo 8 rnd)) (panBlock4 pan))
  else tdesEnc key (unnibs (if panBound fmt then (List.zip n (panNibs pan)).map fun x => Nat.xor x.1 x.2 else n))

/-- Block operations of an input or output block (R88). -/
def pinOps (fmt : Nat) (out : Bool) : Nat := if fmt = 4 then (if out then 3 else 2) else 1

/-- Core cycles of an input or output block (R88). -/
def pinCost (fmt : Nat) (out : Bool) : Nat :=
  if out then (match fmt with | 0 => 1100 | 1 => 1100 | 2 => 900 | 3 => 1200 | _ => 1400)
  else (match fmt with | 0 => 1000 | 1 => 800 | 2 => 800 | 3 => 1000 | _ => 1400)

/-- A PIN block field of 16 bytes is laid out: formats 0-3 leave bytes 8-15 zero. -/
def blkOk (fmt : Nat) (b : Bytes) : Bool := decide (fmt = 4) || allZero (slice b 8 8)

/-! ### PIN verification (R89, R90) -/

/-- The decimalisation table holds only digits, and each of them (R89). -/
def decTabOk (t : List Nat) : Bool := t.all (fun n => decide (n < 10)) && (List.range 10).all fun d => t.contains d

/-- Digit nibbles at the head of an offset. -/
def offDigits (o : List Nat) : Nat := (o.takeWhile fun n => decide (n < 10)).length

/-- An offset of 4 to 12 digits followed only by 0xF (R89). -/
def offOk (o : List Nat) : Bool := decide (4 ≤ offDigits o) && (o.drop (offDigits o)).all fun n => decide (n = 15)

/-- The expected PIN of the offset method (R89). -/
def expectedPin (key val : Bytes) (tab off : List Nat) (n : Nat) : List Nat :=
  let nat := ((nibs (tdesEnc key val)).map fun x => tab.getD x 0).take n
  (List.zip nat off).map fun x => (x.1 + x.2) % 10

/-- The PIN verification value (R90). -/
def pvvOf (key pan : Bytes) (pvki : Nat) (pin : List Nat) : List Nat :=
  (twoPass (nibs (tdesEnc key (unnibs (panRight 11 pan ++ [pvki] ++ pin.take 4))))).take 4

/-! ### Card verification values (R91) -/

/-- The card verification digits over PAN, expiry and service code. -/
def cvvOf (key pan : Bytes) (exp svc : List Nat) (n : Nat) : List Nat :=
  let m := unnibs (padNibs 32 0 (panDigits pan ++ exp ++ svc))
  let a := desEnc (key.take 8) (m.take 8)
  (twoPass (nibs (tdesEnc key (xorBytes a (m.drop 8))))).take n

/-! ### EMV (R92, R93) -/

/-- One SHA-1 round: words a to e, schedule word, round number. -/
def sha1Round (v : List W32) (tw : Nat × W32) : List W32 :=
  match v with
  | [a, b, c, d, e] =>
    let f : W32 × W32 :=
      if tw.1 < 20 then ((b &&& c) ||| (~~~ b &&& d), 0x5A827999)
      else if tw.1 < 40 then (b ^^^ c ^^^ d, 0x6ED9EBA1)
      else if tw.1 < 60 then ((b &&& c) ||| (b &&& d) ||| (c &&& d), 0x8F1BBCDC)
      else (b ^^^ c ^^^ d, 0xCA62C1D6)
    [a.rotateLeft 5 + f.1 + e + f.2 + tw.2, a, b.rotateLeft 30, c, d]
  | v => v

/-- The SHA-1 schedule, newest first. -/
def sha1Sched : Nat → List W32 → List W32
  | 0, w => w
  | n + 1, w => sha1Sched n ((w.getD 2 0 ^^^ w.getD 7 0 ^^^ w.getD 13 0 ^^^ w.getD 15 0).rotateLeft 1 :: w)

/-- SHA-1 of one block. -/
def sha1Block (h : List W32) (blk : Bytes) : List W32 :=
  let w := (sha1Sched 64 ((chunks 4 blk).map fun b => BitVec.ofNat 32 (beNat b)).reverse).reverse
  (List.zip h ((w.zipIdx.map fun x => (x.2, x.1)).foldl sha1Round h)).map fun x => x.1 + x.2

/-- SHA-1, which EMV option B uses. -/
def sha1 (m : Bytes) : Bytes :=
  let h0 : List W32 := [0x67452301, 0xEFCDAB89, 0x98BADCFE, 0x10325476, 0xC3D2E1F0]
  joinBytes (((chunks 64 (sha2Pad 64 8 m)).foldl sha1Block h0).map fun w => beBytes 4 w.toNat)

/-- The card master key: options A and B for TDES, C for AES (R92). -/
def emvMaster (alg : Nat) (imk pan : Bytes) (psn : Nat) : Bytes :=
  let x := panDigits pan ++ [psn / 16, psn % 16]
  if algAes alg then
    let y := unnibs (lastNibs 32 x)
    (aesEnc imk y ++ aesEnc imk (y.map fun b => ~~~ b)).take imk.length
  else
    let y :=
      if (panDigits pan).length ≤ 16 then unnibs (lastNibs 16 x)
      else
        let h := nibs (sha1 (unnibs (if x.length % 2 = 1 then 0 :: x else x)))
        unnibs (((h.filter fun n => decide (n < 10)) ++ ((h.filter fun n => decide (10 ≤ n)).map fun n => n - 10)).take 16)
    tdesEnc imk y ++ tdesEnc imk (y.map fun b => ~~~ b)

/-- The common session key from a card master key and the ATC (R92). -/
def emvSession (alg : Nat) (mk atc : Bytes) : Bytes :=
  if algAes alg then
    if mk.length = 16 then aesEnc mk (padTo 16 atc)
    else (aesEnc mk (padTo 16 (atc ++ [0xF0])) ++ aesEnc mk (padTo 16 (atc ++ [0x0F]))).take mk.length
  else tdesEnc mk (padTo 8 (atc ++ [0xF0])) ++ tdesEnc mk (padTo 8 (atc ++ [0x0F]))

/-- ISO 9797-1 padding method 1, 2 or 3 (R163). -/
def isoPad (m bs : Nat) (d : Bytes) : Bytes :=
  match m with
  | 1 => padTo (bs * max 1 (cdiv d.length bs)) d
  | 2 => padTo (bs * (d.length / bs + 1)) (d ++ [0x80])
  | _ => beBytes bs (8 * d.length) ++ padTo (bs * cdiv d.length bs) d

/-- ISO 9797-1 algorithm 3 over whole blocks: single-stage steps with the left half, the last block with the full TDES step (R95). -/
def retailMac (key d : Bytes) : Bytes :=
  let bs := chunks 8 d
  let x := bs.dropLast.foldl (fun x b => desEnc (key.take 8) (xorBytes x b)) (zeroBytes 8)
  tdesEnc key (xorBytes x (bs.getLastD (zeroBytes 8)))

/-- The EMV cryptogram MAC over data (R92). -/
def emvMac (alg : Nat) (key d : Bytes) : Bytes := if algAes alg then (cmac true key d).take 8 else retailMac key d

/-! ### Message authentication (R95) -/

/-- The full MAC of R95: algorithm 1, 3 or 5 with its padding. -/
def macOf (mac padm alg : Nat) (key msg : Bytes) : Bytes :=
  let bs := blkSize (algAes alg)
  match mac with
  | 1 => cbcMac (algAes alg) key (zeroBytes bs) (isoPad padm bs msg)
  | 3 => retailMac key (isoPad padm 8 msg)
  | _ => cmac (algAes alg) key msg

/-- Cipher blocks after padding (R95). -/
def macBlocks (mac padm alg len : Nat) : Nat :=
  let bs := blkSize (algAes alg)
  if mac = 5 then max 1 (cdiv len bs)
  else match padm with | 1 => max 1 (cdiv len bs) | 2 => len / bs + 1 | _ => 1 + cdiv len bs

/-- Block operations of a MAC (R95). -/
def macOps (mac padm alg len : Nat) : Nat := macBlocks mac padm alg len + if mac = 5 then 1 else 0

/-- Core cycles of MAC_VERIFY (R95). -/
def macCost (mac padm alg len : Nat) : Nat :=
  let q := macBlocks mac padm alg len
  match mac with
  | 1 => 2800 + (if algAes alg then 40 else 60) * q
  | 3 => 2800 + 50 * q
  | _ => 3000 + (if algAes alg then 40 else 50) * q

/-! ### DUKPT (R96, R97) -/

/-- The transaction counter of a KSN: 21 bits for TDES, 4 bytes for AES (R96). -/
def ksnCount (aes : Bool) (ksn : Bytes) : Nat := if aes then beAt ksn 8 4 else beAt ksn 7 3 % 2 ^ 21

/-- The KSN header suits the scheme: bytes past the KSN are 0, the counter nonzero with at most 10 or 16 one bits (R96). -/
def ksnOk (aes : Bool) (h : Bytes) : Bool :=
  let n := if aes then 12 else 10
  let c := ksnCount aes h
  allZero (slice h n (16 - n)) && decide (c ≠ 0) && decide (popcount 32 c ≤ if aes then 16 else 10)

/-- The pattern that X9.24-1 XORs into a key. -/
def c0Mask (key : Bytes) : Bytes := xorBytes key ((List.range key.length).map fun i => if i % 8 < 4 then 0xC0 else 0)

/-- One non-reversible key generation step of X9.24-1. -/
def nrkgp (key r : Bytes) : Bytes :=
  let f := fun (k : Bytes) => xorBytes (desEnc (k.take 8) (xorBytes (slice k 8 8) r)) (slice k 8 8)
  f (c0Mask key) ++ f key

/-- The counter bits of a value, highest first, among the low `n`. -/
def oneBits (n v : Nat) : List Nat := (List.range n).reverse.filter fun i => v.testBit i

/-- The TDES transaction key from a base derivation key and a KSN (X9.24-1). -/
def dukptTdes (bdk ksn : Bytes) : Bytes :=
  let c := ksnCount false ksn
  let base := beBytes 8 (beAt ksn 2 8 / 2 ^ 21 * 2 ^ 21)
  let ini := beBytes 8 (beAt ksn 0 10 / 2 ^ 21 * 2 ^ 21 / 2 ^ 16)
  let ipek := tdesEnc bdk ini ++ tdesEnc (c0Mask bdk) ini
  ((oneBits 21 c).foldl (fun (st : Bytes × Nat) b =>
    let v := st.2 + 2 ^ b
    (nrkgp st.1 (beBytes 8 (beNat base + v)), v)) (ipek, 0)).1

/-- XOR the byte `i` of each half of a TDES key with 0xFF. -/
def variant (i : Nat) (k : Bytes) : Bytes := k.zipIdx.map fun x => if x.2 % 8 = i then ~~~ x.1 else x.1

/-- The TDES working key: 0 PIN, 1 MAC, 2 data; request or response variant (R97). The PIN key has none: RESP selects nothing there (log entry 60). -/
def workTdes (use : Nat) (resp : Bool) (k : Bytes) : Bytes :=
  match use with
  | 0 => variant 7 k
  | 1 => variant (if resp then 4 else 6) k
  | _ => let v := variant (if resp then 3 else 5) k; tdesEnc v (v.take 8) ++ tdesEnc v (v.drop 8)

/-- AES type code and key bits of X9.24-3: 2 AES-128, 3 AES-192, 4 AES-256. -/
def aesType (n : Nat) : Nat := match n with | 16 => 2 | 24 => 3 | _ => 4

/-- A derived key of `n` bytes of X9.24-3: key usage indicator and context of 8 bytes. -/
def dukptDerive (key : Bytes) (n usage : Nat) (ctx : Bytes) : Bytes :=
  (joinBytes ((List.range (cdiv n 16)).map fun i =>
    aesEnc key ([1] ++ leBytes 1 (i + 1) ++ beBytes 2 usage ++ beBytes 2 (aesType n) ++ beBytes 2 (8 * n) ++ padTo 8 ctx))).take n

/-- The AES working key of `n` bytes (X9.24-3): initial key, then one step per counter bit, then the working key. The PIN key has no response
variant: RESP selects nothing there (log entry 60). -/
def workAes (use n : Nat) (resp : Bool) (bdk ksn : Bytes) : Bytes :=
  let c := ksnCount true ksn
  let id := slice ksn 0 8
  let ini := dukptDerive bdk bdk.length 0x8001 id
  let key := ((oneBits 32 c).foldl (fun (st : Bytes × Nat) b =>
    let v := st.2 + 2 ^ b
    (dukptDerive st.1 bdk.length 0x8000 (id.drop 4 ++ beBytes 4 v), v)) (ini, 0)).1
  dukptDerive key n (match use with | 0 => 0x1000 | 1 => if resp then 0x2001 else 0x2000 | _ => if resp then 0x3001 else 0x3000)
    (id.drop 4 ++ beBytes 4 c)

/-- The working key of a DUKPT command: WKEY code 0 AES-128, 2 AES-256 (R97). -/
def workKey (use wkey : Nat) (resp : Bool) (alg : Nat) (bdk ksn : Bytes) : Bytes :=
  if algAes alg then workAes use (if wkey = 2 then 32 else 16) resp bdk ksn else workTdes use resp (dukptTdes bdk ksn)

/-- Block operations of the derivation part (R97); of an AES-256 working key too, whose count the rule does not give (log entry 60). -/
def dukptOps (alg : Nat) (h : Bytes) : Nat :=
  if algAes alg then 4 + 2 * popcount 32 (ksnCount true h) else 10 + 10 * popcount 21 (ksnCount false h)

/-- Core cycles of the derivation part (R97); of an AES-256 working key too, whose cost the rule does not give (log entry 60). -/
def dukptCost (alg : Nat) (h : Bytes) : Nat :=
  if algAes alg then 2500 + 1500 * popcount 32 (ksnCount true h) else 1900 + 2000 * popcount 21 (ksnCount false h)

/-! ### FF1 (R98, R99) -/

/-- The value of a numeral string. -/
def numOf (radix : Nat) (l : List Nat) : Nat := l.foldl (fun v d => radix * v + d) 0

/-- The numeral string of `m` digits of a value. -/
def strOf (radix m v : Nat) : List Nat := (List.range m).map fun i => v / radix ^ (m - 1 - i) % radix

/-- The round value of FF1, before the modulus. -/
def ff1Round (key tweak : Bytes) (radix n i : Nat) (b : List Nat) : Nat :=
  let v := n - n / 2
  let bl := cdiv (Nat.log2 (radix ^ v - 1) + 1) 8
  let d := 4 * cdiv bl 4 + 4
  let p := [1, 2, 1] ++ beBytes 3 radix ++ [10] ++ leBytes 1 (n / 2) ++ beBytes 4 n ++ beBytes 4 tweak.length
  let q := tweak ++ zeroBytes ((16 - (tweak.length + bl + 1) % 16) % 16) ++ leBytes 1 i ++ beBytes bl (numOf radix b)
  let r := cbcMac true key (zeroBytes 16) (p ++ q)
  let s := joinBytes ((List.range (cdiv d 16)).map fun j => if j = 0 then r else aesEnc key (xorBytes r (beBytes 16 j)))
  beNat (s.take d)

/-- Ten FF1 rounds enciphering, from round `i`, with fuel. -/
def ff1Enc (key tweak : Bytes) (radix n : Nat) : Nat → Nat → List Nat → List Nat → List Nat
  | 0, _, a, b => a ++ b
  | k + 1, i, a, b =>
    let m := if i % 2 = 0 then n / 2 else n - n / 2
    ff1Enc key tweak radix n k (i + 1) b (strOf radix m ((numOf radix a + ff1Round key tweak radix n i b) % radix ^ m))

/-- FF1 rounds deciphering, from the last, with fuel. -/
def ff1Dec (key tweak : Bytes) (radix n : Nat) : Nat → List Nat → List Nat → List Nat
  | 0, a, b => a ++ b
  | k + 1, a, b =>
    let m := if k % 2 = 0 then n / 2 else n - n / 2
    let y := ff1Round key tweak radix n k a % radix ^ m
    ff1Dec key tweak radix n k (strOf radix m ((numOf radix b + radix ^ m - y) % radix ^ m)) a

/-- FF1 on a numeral string. -/
def ff1 (dec : Bool) (key tweak : Bytes) (radix : Nat) (x : List Nat) : List Nat :=
  let u := x.length / 2
  if dec then ff1Dec key tweak radix x.length 10 (x.take u) (x.drop u) else ff1Enc key tweak radix x.length 10 0 (x.take u) (x.drop u)

/-- The value of a character of the alphabet of R98. -/
def chrVal (radix : Nat) (b : Byte) : Option Nat :=
  let n := b.toNat
  if 0x30 ≤ n ∧ n ≤ 0x39 then some (n - 0x30) else if radix = 36 ∧ 0x61 ≤ n ∧ n ≤ 0x7A then some (n - 0x61 + 10) else none

/-- The character of a value. -/
def valChr (v : Nat) : Byte := BitVec.ofNat 8 (if v < 10 then 0x30 + v else 0x61 + v - 10)

/-! ### Bulk modes (R102) -/

/-- CTR with the whole 128-bit counter block counting modulo 2^128 (R102). -/
def ctr128 (key ctr d : Bytes) : Bytes :=
  joinBytes ((chunks 16 d).zipIdx.map fun x => xorBytes x.1 (aesEnc key (beBytes 16 ((beNat ctr + x.2) % 2 ^ 128))))

/-- Decipher bulk data: 0 AES-CBC, 1 AES-CTR, 2 AES-GCM, 3 TDES-CBC. GCM's tag is checked apart. -/
def bulkDec (mode : Nat) (key iv d : Bytes) : Bytes :=
  match mode with
  | 0 => cbcDec true key iv d
  | 1 => ctr128 key iv d
  | 2 => ctrXor true key (iv.take 12 ++ [0, 0, 0, 2]) d
  | _ => cbcDec false key (iv.take 8) d

/-- Encipher bulk data; a GCM tag follows it apart. -/
def bulkEnc (mode : Nat) (key iv d : Bytes) : Bytes :=
  match mode with
  | 0 => cbcEnc true key iv d
  | 3 => cbcEnc false key (iv.take 8) d
  | m => bulkDec m key iv d

/-- Block operations of one side (R104). -/
def bulkOps (mode len : Nat) : Nat := if mode = 3 then cdiv len 8 else cdiv len 16 + if mode = 2 then 2 else 0

/-- Core cycles of one side (R104). -/
def bulkCost (mode len : Nat) : Nat :=
  match mode with | 3 => 4 * cdiv len 8 | 2 => 3 * cdiv len 16 | _ => 2 * cdiv len 16

end Sys2Proof.Machine
end

