-- ==== Sys2Proof/Machine/Tr34.lean ====
section
/-!
DEFINITION. TR-34 key tokens (R154, R155): the DER reader, and the one-pass key token as it stands in TR34_IMPORT's input. The token's layout
is X9 TR-34's own, a CMS SignedData over an EnvelopedData (PRESUMED, log entry 43).
-/

namespace Sys2Proof.Machine

/-! ### DER -/

/-- A DER element: its tag, its content, and its whole encoding. -/
structure Der where
  tag : Nat
  body : Bytes
  raw : Bytes
deriving DecidableEq, Repr

/-- The octets of a definite length after the tag: how many they are, and the length. -/
def derLen (b : Bytes) : Option (Nat × Nat) :=
  let n := leAt b 0 1
  if b.isEmpty then none
  else if n < 0x80 then some (1, n)
  else if n = 0x81 then some (2, beAt b 1 1)
  else if n = 0x82 then some (3, beAt b 1 2)
  else none

/-- The elements that fill a content, with fuel. -/
def derItems : Nat → Bytes → Option (List Der)
  | 0, _ => none
  | n + 1, b =>
    if b.isEmpty then some []
    else match derLen (b.drop 1) with
      | none => none
      | some (k, l) =>
        if b.length < 1 + k + l then none
        else (derItems n (b.drop (1 + k + l))).map fun r => ⟨leAt b 0 1, slice b (1 + k) l, b.take (1 + k + l)⟩ :: r

/-- The elements of a content; at most 64. -/
def derList (b : Bytes) : Option (List Der) := derItems 65 b

/-- The content of a single element of a tag. -/
def derOne (t : Nat) (b : Bytes) : Option Bytes :=
  match derList b with
  | some [x] => if x.tag = t then some x.body else none
  | _ => none

/-- The elements within a single element of a tag. -/
def derIn (t : Nat) (b : Bytes) : Option (List Der) := (derOne t b).bind derList

/-- The elements have these tags. -/
def derTags (l : List Der) (t : List Nat) : Bool := decide (l.map (fun x => x.tag) = t)

/-- Content of the `i`-th element. -/
def derAt (l : List Der) (i : Nat) : Bytes := (l.getD i ⟨0, [], []⟩).body

/-- Object identifiers, as encoded: PKCS #7 data, signedData and envelopedData. -/
def oidPkcs7 (n : Nat) : Bytes := [0x2A, 0x86, 0x48, 0x86, 0xF7, 0x0D, 0x01, 0x07, BitVec.ofNat 8 n]
/-- PKCS #9 contentType, messageDigest and signingTime: 3, 4 and 5. -/
def oidPkcs9 (n : Nat) : Bytes := [0x2A, 0x86, 0x48, 0x86, 0xF7, 0x0D, 0x01, 0x09, BitVec.ofNat 8 n]
/-- PKCS #1 RSA encryption, RSAES-OAEP and RSA signature with SHA-256: 1, 7 and 11. -/
def oidPkcs1 (n : Nat) : Bytes := [0x2A, 0x86, 0x48, 0x86, 0xF7, 0x0D, 0x01, 0x01, BitVec.ofNat 8 n]
/-- SHA-256. -/
def oidSha256 : Bytes := [0x60, 0x86, 0x48, 0x01, 0x65, 0x03, 0x04, 0x02, 0x01]
/-- MGF1 is PKCS #1's eighth. -/
def oidMgf1 : Bytes := oidPkcs1 8

/-- The content cipher that an OID names: AES-CBC of three sizes, or TDES-3 in CBC (R155). -/
def cipherOf (o : Bytes) : Option Nat :=
  let aes := fun (n : Nat) => decide (o = [0x60, 0x86, 0x48, 0x01, 0x65, 0x03, 0x04, 0x01, BitVec.ofNat 8 n])
  if aes 2 then some 0 else if aes 22 then some 1 else if aes 42 then some 2
  else if o = [0x2A, 0x86, 0x48, 0x86, 0xF7, 0x0D, 0x03, 0x07] then some 3 else none

/-- An AlgorithmIdentifier names SHA-256. -/
def algSha (l : List Der) : Bool := decide (derAt l 0 = oidSha256)

/-- The OAEP parameters are SHA-256 with MGF1 over SHA-256 (R155). -/
def oaepOk (params : Bytes) : Bool :=
  ((derList params).map fun l =>
    ((l.find? fun x => x.tag = 0xA0).bind fun x => (derIn 0x30 x.body).map algSha).getD false &&
    ((l.find? fun x => x.tag = 0xA1).bind fun x => (derIn 0x30 x.body).map fun m =>
      decide (derAt m 0 = oidMgf1) && ((derList (derAt m 1)).map algSha).getD false).getD false).getD false

/-! ### Time -/

/-- Days from 1970-01-01 to the first of a month of the proleptic Gregorian calendar. -/
def civilDays (y m : Nat) : Nat :=
  let y' := if m ≤ 2 then y - 1 else y
  let m' := (m + 9) % 12
  365 * y' + y' / 4 - y' / 100 + y' / 400 + (153 * m' + 2) / 5 - 719468

/-- Microseconds since 1970 of year, month, day, hour, minute, second. -/
def civilUs (y mo d h mi s : Nat) : Nat := ((((civilDays y mo + (d - 1)) * 24 + h) * 60 + mi) * 60 + s) * 1000000

/-- A signing time: UTCTime or GeneralizedTime, in UTC to the second. -/
def signTime (x : Der) : Option Nat :=
  let d := x.body
  let at2 := fun i => decNat (slice d i 2) 0
  let from_ := fun (n : Nat) (y : Nat) => do
    let mo ← at2 n
    let da ← at2 (n + 2)
    let h ← at2 (n + 4)
    let mi ← at2 (n + 6)
    let s ← at2 (n + 8)
    if mo = 0 ∨ 12 < mo ∨ da = 0 ∨ 31 < da ∨ 23 < h ∨ 59 < mi ∨ 59 < s ∨ d.drop (n + 10) ≠ ascii "Z" then none
    else some (civilUs y mo da h mi s)
  if x.tag = 0x17 ∧ d.length = 13 then (at2 0).bind fun y => from_ 2 (if y < 50 then 2000 + y else 1900 + y)
  else if x.tag = 0x18 ∧ d.length = 15 then (decNat (slice d 0 4) 0).bind fun y => if y < 1970 then none else from_ 4 y
  else none

/-! ### The token -/

/-- A one-pass key token, as read from the input (R154, R155). -/
structure Tr34 where
  /-- Signed time stamp, µs since 1970. -/
  time : Nat
  /-- Content cipher: 0 AES-128, 1 AES-192, 2 AES-256, 3 TDES-3, in CBC. -/
  cipher : Nat
  iv : Bytes
  /-- The content key, RSAES-OAEP. -/
  wrapped : Bytes
  /-- The encrypted content. -/
  content : Bytes
  /-- The signed bytes, the signature over them, and whether the signed digest is the content's. -/
  signed : Bytes
  sig : Bytes
  digest : Bool
  /-- The signed attribute header. -/
  header : Bytes
deriving DecidableEq, Repr

/-- The single value of a signed attribute; none where it is absent, repeated or has several. -/
def tokenAttr (attrs : List Der) (o : Bytes) : Option Der :=
  match attrs.filterMap fun a => (derList a.body).bind fun l => if derTags l [0x06, 0x31] ∧ derAt l 0 = o then some (derAt l 1) else none with
  | [v] => (derList v).bind fun l => match l with | [x] => some x | _ => none
  | _ => none

/-- The EnvelopedData of a token: content key and content, ciphers within R155. -/
def tokenEnvelope (b : Bytes) : Option (Nat × Bytes × Bytes × Bytes) := do
  let e ← derIn 0x30 b
  if !derTags e [0x02, 0x31, 0x30] then none
  else
    let r ← derIn 0x30 (derAt e 1)
    let ka ← derList (derAt r 2)
    let ci ← derList (derAt e 2)
    let ca ← derList (derAt ci 1)
    let c ← cipherOf (derAt ca 0)
    if !derTags r [0x02, 0x30, 0x30, 0x04] ∨ !derTags ka [0x06, 0x30] ∨ derAt ka 0 ≠ oidPkcs1 7 ∨ !oaepOk (derAt ka 1) ∨
        !derTags ci [0x06, 0x30, 0x80] ∨ derAt ci 0 ≠ oidPkcs7 1 ∨ !derTags ca [0x06, 0x04] ∨
        (derAt ca 1).length ≠ (if c = 3 then 8 else 16) then none
    else some (c, derAt ca 1, derAt r 3, derAt ci 2)

/-- The one-pass key token in the bytes of an input, none for anything else: another role's token, a two-pass, rebind or unbind token, or an
algorithm outside R155 (R154, R155). -/
def tokenParse (b : Bytes) : Option Tr34 := do
  let top ← derIn 0x30 b
  if !derTags top [0x06, 0xA0] ∨ derAt top 0 ≠ oidPkcs7 2 then none
  else
    let sd ← derIn 0x30 (derAt top 1)
    let body := sd.filter fun x => x.tag ≠ 0xA0 ∧ x.tag ≠ 0xA1
    let ec ← derList (derAt body 2)
    let econtent ← derOne 0x04 (derAt ec 1)
    let si ← derIn 0x30 (derAt body 3)
    let da ← derList (derAt si 2)
    let sa ← derList (derAt si 4)
    let attrs ← derList (derAt si 3)
    let ty ← tokenAttr attrs (oidPkcs9 3)
    let dg ← tokenAttr attrs (oidPkcs9 4)
    let tm ← (tokenAttr attrs (oidPkcs9 5)).bind signTime
    let hd ← tokenAttr attrs (oidPkcs7 1)
    let env ← tokenEnvelope econtent
    if !derTags body [0x02, 0x31, 0x30, 0x31] ∨ !derTags ec [0x06, 0xA0] ∨ derAt ec 0 ≠ oidPkcs7 3 ∨
        !derTags si [0x02, 0x30, 0x30, 0xA0, 0x30, 0x04] ∨ !algSha da ∨ (derAt sa 0 ≠ oidPkcs1 1 ∧ derAt sa 0 ≠ oidPkcs1 11) ∨
        ty.tag ≠ 0x06 ∨ ty.body ≠ oidPkcs7 3 ∨ dg.tag ≠ 0x04 ∨ hd.tag ≠ 0x04 ∨ attrs.length ≠ 4 then none
    else
      let raw := (si.getD 3 ⟨0, [], []⟩).raw
      some ⟨tm, env.1, env.2.1, env.2.2.1, env.2.2.2, 0x31 :: raw.drop 1, derAt si 5, decide (dg.body = sha256 econtent), hd.body⟩

/-- Bytes of the content key of a cipher. -/
def cekLen (c : Nat) : Nat := match c with | 0 => 16 | 1 => 24 | 2 => 32 | _ => 24

/-- The content under the content key: CBC with PKCS #7 padding (R155). -/
def tokenClear (t : Tr34) (cek : Bytes) : Option Bytes :=
  let aes := decide (t.cipher ≤ 2)
  let bs := blkSize aes
  let d := cbcDec aes cek t.iv t.content
  let n := leAt d (d.length - 1) 1
  if cek.length ≠ cekLen t.cipher ∨ t.content.isEmpty ∨ t.content.length % bs ≠ 0 ∨ n = 0 ∨ bs < n ∨
      (d.drop (d.length - n)).any (fun x => decide (x.toNat ≠ n)) then none
  else some (d.take (d.length - n))

/-- The key that the content carries, and the header that goes with it (R155). -/
def tokenKey (t : Tr34) (cek : Bytes) : Option (Bytes × Bytes) := do
  let d ← tokenClear t cek
  let l ← derIn 0x30 d
  let a ← derList (derAt l 3)
  let h ← derOne 0x04 (derAt a 1)
  if !derTags l [0x02, 0x30, 0x04, 0x30] ∨ !derTags a [0x06, 0x31] ∨ derAt a 0 ≠ oidPkcs7 1 then none else some (derAt l 2, h)

/-- The attribute header of a token, in the form of a key block's header (R135-R137, R155); its length field is not compared. -/
def tokenBlock (h : Bytes) : Option KBlock :=
  if h.length < 16 ∨ h.any (fun b => decide (b.toNat < 0x20) || decide (0x7E < b.toNat)) then none
  else match decNat (slice h 1 4) 0, decNat (slice h 12 2) 0 with
    | some _, some n =>
      if 16 < n ∨ leAt h 15 1 ≠ 0x30 then none
      else match kbOpts n (h.drop 16) with
        | some (os, []) => some ⟨leAt h 0 1, leAt h 5 2, leAt h 7 1, leAt h 8 1, leAt h 9 2, leAt h 11 1, leAt h 14 1, os, h, []⟩
        | _ => none
    | _, _ => none

end Sys2Proof.Machine
end

