-- ==== Sys2Proof/Machine/Payment.lean ====
section
/-!
DEFINITION. The payment commands (R68-R108): vendor firmware's program of each opcode, run on the core that holds the command, as one
step. The check order is R77's; the host bytes that the core reads are operands, and `fault` says what the host or a lane did: 0 nothing,
1 an input read failed after retries, 2 an output write failed, 3 a lane wait reached its timeout, 4 to 6 a twin check failed (R175).
-/

namespace Sys2Proof.Machine

/-! ### The common program (R73-R78) -/

/-- A key slot that a command needs (R73, R74, R124). -/
structure PayKey where
  /-- Key slot 0-2 of the descriptor. -/
  slot : Nat
  /-- KIND, ALG, USAGE and MODE it accepts. -/
  req : KeyReq
  /-- A PARAM value that the key's algorithm does not allow: 0x0109, else 0 (R77 step 4). -/
  check : KEnt → Nat
  /-- The uses that the command reserves (R143). -/
  uses : KEnt → Nat

/-- What a command computes from. -/
structure PayEnv where
  /-- Physical core. -/
  core : Nat
  /-- Function. -/
  func : Nat
  /-- Descriptor. -/
  desc : Bytes
  /-- Input bytes. -/
  inp : Bytes
  /-- Resolved keys, in slot order. -/
  keys : List KEnt

/-- How a computation ends, with the block operations issued, by key slot and then under no key slot, and the core cycles spent (R72, R143). -/
inductive PayOut where
  /-- Output bytes to write. -/
  | out (b : Bytes) (used : List Nat) (cyc : Nat)
  /-- A status. -/
  | fail (st : Nat) (used : List Nat) (cyc : Nat)
  /-- The instance gives no output: the command waits (R77 step 5). -/
  | rand

/-- A command's program. -/
structure PayCmd where
  op : Nat
  /-- Step 2 on the descriptor: 0 or a status. -/
  static : Bytes → Nat
  /-- Step 3: the input's layout holds. -/
  layout : Bytes → Bytes → Bool
  /-- Step 4: the key slots. -/
  keys : Bytes → Bytes → List PayKey
  /-- Step 5: random bits are drawn. -/
  random : Bytes → Bool
  /-- Steps 5 to 7: the outcome and the state. -/
  run : PayEnv → State → PayOut × State
  /-- Units once the data is processed (R81). -/
  units : PayEnv → Nat
  /-- The body of the security record of a state-changing command (R80, R382). -/
  body : PayEnv → State → Bytes

/-- The `k`-th resolved key. -/
def envKey (e : PayEnv) (k : Nat) : KEnt := e.keys.getD k (newKey 0 0 0 0 0 0 0 0 0 0 0 false 0 [] [])

/-- The uses that the key slots reserve, all issued. -/
def payUses (l : List PayKey) (e : PayEnv) : List Nat := (List.zip l e.keys).map fun x => x.1.uses x.2

/-- A computation that ends before its last part: the cycles of the parts that ran are part of the full cost `full`, which the spec does not
divide (R72; log entry 60). -/
def payPart (st : Nat) (used : List Nat) (full : Nat) (s : State) : PayOut × State := (.fail st used (freeNat s % (full + 1)), bumpFree s)

/-- Core `p` runs vendor firmware on a command of opcode `op`. -/
def payReady (op : Nat) (s : State) (p : Nat) : Bool :=
  let c := core s p
  coreGoes s p && !c.prog && c.reqs.isEmpty && c.fuse.isNone && decide (dOpcode (mread c.mem 0xFF00 64) = op) && coreHolds c

/-- The command's result is fixed; the hand-over to the Gate follows (R221). -/
def payEnd (p st len units : Nat) (s : State) : State :=
  modCore p (fun c => { c with st := .release st len, units := units, pc := c.askPc }) s

/-- The command has faulted, or a stack parity error meets it now (R226, R475). -/
def payHalt (s : State) (p : Nat) : Bool := decide ((core s p).fault ≠ 0) || injWaits s 0x08 p

/-- A faulted command: firmware at FW_FAULT releases it with the status of the fault (R108, R226, R234). -/
def payFaulted (p op : Nat) (s : State) : State :=
  if injWaits s 0x08 p then parityHit p (core s p).pc s else payEnd p ((core s p).fault % 65536) 0 (earlyUnits op (core s p).cyc) s

/-- A pinned key is in the core's pin table. -/
def pinOf (s : State) (p h : Nat) : Option Nat := ((core s p).pins.find? fun q => q.handle = h).map fun q => q.index

/-- The outcome of a key slot's resolution. -/
inductive KeyStep where
  | ok (e : KEnt) (s : State)
  | fail (st : Nat) (s : State)
  /-- The command waits for the miss of a handle. -/
  | miss (h : Nat) (s : State)

/-- Pin a resolved entry, check it against PARAM, and reserve the command's uses (R77 step 4, R126, R143). -/
def payPin (p h i : Nat) (k : PayKey) (e : KEnt) (s : State) : KeyStep :=
  let s := pinKey p h i 0 (modCore p kresDone s)
  if k.check e ≠ 0 then .fail (k.check e) s
  else if e.ledger.isSome ∧ usesLeft s e < k.uses e then .fail 0x0208 s
  else .ok e (pinKey p h i (k.uses e) s)

/-- A key that the command has pinned serves a slot: its attributes are checked, its expiry is not again; an entry that fails its check ends the
command (R123, R126, R132, R147). -/
def payPinned (p h i : Nat) (k : PayKey) (s : State) : KeyStep :=
  match keyAt s i with
  | none => .miss h s
  | some e =>
    if !k.req.kinds.testBit e.kind ∨ !k.req.algs.testBit e.alg then .fail 0x0203 s
    else if (k.req.usage ≠ 0 ∧ k.req.usage ≠ e.usage) ∨ (!k.req.modes.isEmpty && !k.req.modes.contains e.mode) then .fail 0x0204 s
    else if keyBad s i e then .fail 0x020A (keyFailed i s)
    else payPin p h i k e s

/-- Resolve one key slot (R73, R77, R119, R123-R126). An entry that fails its check is fetched again, once in a resolution. -/
def payKey (p f : Nat) (d : Bytes) (k : PayKey) (s : State) : KeyStep :=
  let h := dKey d k.slot
  let s := handlePass f h s
  if h = 0 then .fail 0x0201 s
  else match pinOf s p h with
    | some i => payPinned p h i k s
    | none =>
      match resolve s f h k.req 0 with
      | .fail st => .fail st s
      | .ok i => (match keyAt s i with | some e => payPin p h i k e s | none => .miss h s)
      | .kind => .fail 0x0203 (missSeen p s)
      | .load => .miss h s
      | .miss => .miss h (missSeen p s)
      | .bad i =>
        if (core s p).kbad then .fail 0x020A (keyFailed i s)
        else .miss h (missSeen p (modCore p (fun c => { c with kbad := true }) (keyFailed i s)))

/-- Resolve the key slots in order. -/
def payKeys (p f : Nat) (d : Bytes) : List PayKey → State → List KEnt × Option KeyStep × State
  | [], s => ([], none, s)
  | k :: ks, s =>
    match payKey p f d k s with
    | .ok e s => let r := payKeys p f d ks s; (e :: r.1, r.2)
    | x => ([], some x, s)

/-- A run starts over: what the core had reserved is free again, its pins stay (R126, R143). -/
def payFresh (p : Nat) (s : State) : State :=
  modCore p (fun c => { c with pins := c.pins.map fun q => { q with resv := 0 } }) s

/-- Issue `n` uses of a pinned key (R143, R144); what is reserved beyond them stays reserved until the command ends. -/
def paySpend (p h n : Nat) (s : State) : State :=
  match (core s p).pins.find? fun q => q.handle = h with
  | none => s
  | some q =>
    usesSpend q.index (n / 65536 + 3) n
      (modCore p (fun c => { c with pins := c.pins.map fun q => if q.handle = h then { q with resv := q.resv - n } else q }) s)

/-- A miss: the command parks, or its core waits in place (R127, R222). Handle 0 waits for the LMK sets alone. -/
def payMiss (p h : Nat) (s : State) : State :=
  let c := core s p
  if mayPark s p c.ds.length ∧ c.tok.isSome then missEnter c.func h c.tok p (parkCore p c.pc .parked s)
  else missEnter c.func h none p (modCore p (fun c => { c with st := .kres }) s)

/-- Refusal of a command's access to its buffer by the pane, with its report (R283, R293). -/
def payRefusal (s : State) (p : Nat) (write : Bool) (ps : List (Nat × Nat)) : Option VioReport :=
  let k := checker s p
  (piecesForbidden (activePane k).regions false write 0 ps).map fun x =>
    ⟨x.2.1, timeField s, b2n write, p, x.2.2.1, x.2.2.2, (activePane k).func, k.activeB, 1, bufLen ps, x.1⟩

/-- Step 3: the input is read; a status and the state. -/
def payRead (p fault : Nat) (s : State) : Nat × State :=
  let c := core s p
  if bufLen c.inList = 0 then (0, s)
  else match payRefusal s p false c.inList with
    | some v => (0x0104, vioQueue v s)
    | none =>
      let s := hostReads c.func c.inList s
      (if fault = 1 then 0x0504 else 0, s)

/-- Step 9: the output is written; a status and the state. -/
def payWrite (p fault : Nat) (b : Bytes) (s : State) : Nat × State :=
  let c := core s p
  if b.isEmpty then (0, s)
  else match payRefusal s p true (bufPieces c.outList 0 b.length) with
    | some v => (0x0104, vioQueue v s)
    | none => if fault = 2 then (0x0504, s) else (0, outWrite p 0 b s)

/-- Input and output are lists only for the commands that take them (R77 step 2). -/
def paySg (d : Bytes) : Bool := decide (dOpcode d ≠ 0x1701) && decide (dOpcode d ≠ 0x1801) && (dSgIn d || dSgOut d)

/-- A state-changing command writes its record, of function `f`, and its token waits for it and for the partner (R15, R80, R250, R381). -/
def payRecord (p code f : Nat) (body eff : Bytes) (s : State) : State :=
  match (core s p).tok with
  | some i => commandRecord i code f body eff s
  | none =>
    let s := recAppend code 0 f body s
    stateMirror (core s p).func (stateRef 0xFFFF 0 0) eff (lastRec s) (logFullSay (logWarn s))

/-- A state-changing command without record: its STATE record alone (R15, R250). -/
def payState (p : Nat) (eff : Bytes) (s : State) : State :=
  match (core s p).tok with
  | some i => commandState i eff [] s
  | none => stateMirror (core s p).func (stateRef 0xFFFF 0 0) eff [] s

/-! ### Lanes of a command (R83, R143, R174-R178) -/

/-- The block lane of a core's commands: its cluster's, or the one that stands in (R177, R202). -/
def payLane (s : State) (p : Nat) : Nat := blaneOf s (coreCluster p)

/-- No lane serves the command: its block lane and the stand-in are fenced, or for TR34_IMPORT every modular lane is (R177, R178; status: log
entry 60). -/
def payNoLane (s : State) (op p : Nat) : Bool :=
  decide (op ≠ 0x1901) && ((laneOf s (payLane s p)).fenced || (decide (op = 0x1605) && (laneTaker s 24).isNone))

/-- Some operation of the command runs twinned: an unwrap or a derivation, or any under FLAGS.TWIN or ALL_BLOCK (R83, R96, R174). -/
def payTwinned (s : State) (op : Nat) (d : Bytes) : Bool :=
  decide (op ≠ 0x1901) && (decide (op = 0x1201) || decide (0x1401 ≤ op ∧ op ≤ 0x1403) || decide (0x1601 ≤ op ∧ op ≤ 0x1605) || dTwin d || s.lanes.allBlock)

/-- The lanes count `n` operations of the command; its partner lane those of a twinned one (R488; log entry 60). -/
def payCount (op p n : Nat) (d : Bytes) (s : State) : State :=
  let l := payLane s p
  let one := fun (m : Nat) (s : State) => countLane 0x102 m p n (countLane 0x103 m p n s)
  if n = 0 then s else if payTwinned s op d then one (lanePartner s l) (one l s) else one l s

/-- The compares of a command's twinned operations: an injected fault, or `fault` 4 to 6, a mismatch laid by the second run to the command's lane,
to its partner, or to none. False when no result is delivered (R175). -/
def payTwin (op p fault : Nat) (d : Bytes) (s : State) : Bool × State :=
  let n := payLane s p
  if !payTwinned s op d then (true, s)
  else match injTake 0x0B n s with
    | (some (_, full), s) => (true, twinFence n true full (twinCount n p s))
    | (none, s) =>
      match fault with
      | 4 => (true, twinFence n false true (twinCount n p s))
      | 5 => (true, twinFence (lanePartner s n) false true (twinCount n p s))
      | 6 => (false, twinFenceAll n false true (twinCount n p s))
      | _ => (true, s)

/-- The uses and cycles of what a computation issued (R72, R143). -/
def payCharge (c : PayCmd) (e : PayEnv) (used : List Nat) (cyc : Nat) (s : State) : State :=
  let s := (List.zip (c.keys e.desc e.inp) used).foldl (fun s k => paySpend e.core (dKey e.desc k.1.slot) k.2 s) s
  modCore e.core (charge cyc) (payCount c.op e.core used.sum e.desc s)

/-- A budgeted key has fewer uses, reserved or free, than the computation issues with it (R124 check 9, R143). -/
def payLacks (c : PayCmd) (e : PayEnv) (used : List Nat) (s : State) : Bool :=
  (List.zip (List.zip (c.keys e.desc e.inp) e.keys) used).any fun x =>
    let rsv := (((core s e.core).pins.find? fun q => q.handle = dKey e.desc x.1.1.slot).map fun q => q.resv).getD 0
    x.1.2.ledger.isSome && decide (rsv + ((pinOf s e.core (dKey e.desc x.1.1.slot)).bind (keyAt s)).elim 0 (usesLeft s) < x.2)

/-! ### Steps 5 to 9 -/

/-- Step 8, step 9 and the record of a command that succeeds, after the computation (record: log entry 60). -/
def payFinish (c : PayCmd) (e : PayEnv) (fault : Nat) (b : Bytes) (s : State) : State :=
  let p := e.core
  if bufLen (core s p).outList < b.length then payEnd p 0x0107 0 (c.units e) s
  else match payWrite p fault b s with
    | (0, s) =>
      let s := if opState c.op then payRecord p 0x0200 e.func (c.body e s) [] s else s
      payEnd p 0 b.length (c.units e) s
    | (st, s) => payEnd p st 0 (c.units e) s

/-- Steps 5 to 9, with every key resolved. A lane wait that reaches its timeout, or a twin check that finds no faulty lane, ends the command with
0x0403 after a part of its operations (R77 step 6, R175; how many: log entry 60). -/
def payCompute (c : PayCmd) (e : PayEnv) (fault early : Nat) (s : State) : State :=
  let p := e.core
  if c.random e.desc ∧ !drbgLive s (instOf e.func) then randWait p (core s p).ds.length s
  else if payNoLane s c.op p then payEnd p 0x0403 0 early s
  else
    let t := payTwin c.op p fault e.desc s
    let lost := decide (fault = 3) || !t.1
    match c.run e t.2 with
    | (.rand, s) => randWait p (core s p).ds.length s
    | (.fail st used cyc, s) =>
      if lost then payEnd p 0x0403 0 early (payCharge c e (used.map fun n => freeNat t.2 % (n + 1)) (freeNat t.2 % (cyc + 1)) (bumpFree t.2))
      else payEnd p st 0 (if 0x0700 ≤ st then c.units e else early) (payCharge c e used cyc s)
    | (.out b used cyc, s) =>
      if lost then payEnd p 0x0403 0 early (payCharge c e (used.map fun n => freeNat t.2 % (n + 1)) (freeNat t.2 % (cyc + 1)) (bumpFree t.2))
      else if payLacks c e used s then payEnd p 0x0208 0 early t.2
      else payFinish c e fault b (payCharge c e used cyc s)

/-- Steps 1 to 4. -/
def payGo (c : PayCmd) (p : Nat) (input : Bytes) (fault : Nat) (s : State) : State :=
  if !payReady c.op s p ∨ (opState c.op ∧ recStall s) then s
  else
    let k := core s p
    let d := mread k.mem 0xFF00 64
    let early := earlyUnits c.op k.cyc
    let stop := fun st s => payEnd p st 0 early s
    if payHalt s p then payFaulted p c.op s
    else match k.kstat with
    | some st => stop st (modCore p kresDone s)
    | none =>
      let s := payFresh p s
      if opState c.op ∧ recordRefused s then stop 0x0503 s
      else if paySg d then stop 0x0108 s
      else if c.static d ≠ 0 then stop (c.static d) s
      else
        let r := payRead p fault s
        let inp := padTo (bufLen k.inList) input
        if r.1 ≠ 0 then stop r.1 r.2
        else if !c.layout d inp then stop 0x0106 r.2
        else
          let ks := payKeys p k.func d (c.keys d inp) r.2
          match ks.2.1 with
          | some (.fail st s) => stop st s
          | some (.miss h s) => payMiss p h s
          | some (.ok _ s) => s
          | none => payCompute c ⟨p, k.func, d, inp, ks.1⟩ fault early ks.2.2

/-! ### Key requirements -/

/-- Symmetric key, ALG set, usage, modes. -/
def symReq (algs : List Nat) (u v : Char) (modes : List Char) : KeyReq :=
  ⟨1, algs.foldl (fun m a => m ||| 1 <<< a) 0, chars2 u v, modes.map Char.toNat⟩
/-- TDES-2 and TDES-3. -/
def tdesAlgs : List Nat := [1, 2]
/-- AES. -/
def aesAlgs : List Nat := [3, 4, 5]
/-- A key slot without PARAM check. -/
def plainKey (slot : Nat) (q : KeyReq) (uses : Nat) : PayKey := ⟨slot, q, fun _ => 0, fun _ => uses⟩
/-- A PIN key for a format (R84). -/
def pinReq (fmt : Nat) (modes : List Char) : KeyReq := symReq (if fmt = 4 then aesAlgs else tdesAlgs) 'P' '0' modes
/-- A slot the command does not use is nonzero (R73). -/
def slotsUsed (d : Bytes) (n : Nat) : Bool := (List.range 3).any fun k => decide (n ≤ k) && decide (dKey d k ≠ 0)
/-- Step 2: 0x0109 unless PARAM and the unused slots are right, 0x0107 for a short output (R73, R77). -/
def step2 (d : Bytes) (nkeys : Nat) (param : Bool) (out : Nat) : Nat :=
  if !param ∨ slotsUsed d nkeys then 0x0109 else if dOutLen d < out then 0x0107 else 0
/-- A command without record. -/
def noBody (_ : PayEnv) (_ : State) : Bytes := []
/-- One unit (R81). -/
def oneUnit (_ : PayEnv) : Nat := 1
/-- A comparison: the status on a mismatch, which is a full execution, else no output (R82). -/
def payCheck (ok : Bool) (st : Nat) (used : List Nat) (cyc : Nat) : PayOut := if ok then .out [] used cyc else .fail st used cyc

/-! ### PIN commands (R84-R90) -/

/-- IN_FMT of PARAM. -/
def inFmt (d : Bytes) : Nat := bitsOf (dParam d) 3 0
/-- OUT_FMT of PARAM. -/
def outFmt (d : Bytes) : Nat := bitsOf (dParam d) 7 4
/-- PAN field checks of a translation: read when either format is PAN-bound, else zero (R75, R87). -/
def trPanOk (d pan : Bytes) : Bool := if panBound (inFmt d) || panBound (outFmt d) then panOk pan else allZero pan
/-- R86: from a PAN-bound format to one without a PAN. -/
def fmtLoss (d : Bytes) : Bool := panBound (inFmt d) && !panBound (outFmt d)

/-- Re-encipher a PIN: decipher, draw the fill with one request, encipher (R84, R85); `used` and `cyc` are those of a full run. -/
def pinMove (e : PayEnv) (key0 blk pan : Bytes) (used : List Nat) (cyc : Nat) (s : State) : PayOut × State :=
  match pinDecode (inFmt e.desc) key0 blk pan with
  | none => payPart 0x0106 (used.take 1) cyc s
  | some pin =>
    let n := fillDraw (outFmt e.desc) pin.length
    if n = 0 then (.out (pinEncode (outFmt e.desc) (envKey e 1).mat pin pan []) used cyc, s)
    else match drbgDraw (instOf e.func) n s with
      | none => (.rand, s)
      | some (r, s) => (.out (pinEncode (outFmt e.desc) (envKey e 1).mat pin pan r) used cyc, s)

/-- PIN_TRANSLATE (R84-R88). -/
def pinTranslate : PayCmd where
  op := 0x1001
  static d := step2 d 2 (decide (inFmt d ≤ 4) && decide (outFmt d ≤ 4) && decide (dParam d < 256) && !fmtLoss d) (if outFmt d = 4 then 16 else 8)
  layout d i := blkOk (inFmt d) (slice i 0 16) && trPanOk d (slice i 16 32)
  keys d _ := [plainKey 0 (pinReq (inFmt d) ['D', 'B', 'N']) (pinOps (inFmt d) false),
    plainKey 1 (pinReq (outFmt d) ['E', 'B', 'N']) (pinOps (outFmt d) true)]
  random d := decide (fillDraw (outFmt d) 4 ≠ 0)
  run e s := pinMove e (envKey e 0).mat (slice e.inp 0 16) (slice e.inp 16 32) [pinOps (inFmt e.desc) false, pinOps (outFmt e.desc) true]
    (2600 + pinCost (inFmt e.desc) false + pinCost (outFmt e.desc) true) s
  units := oneUnit
  body := noBody

/-- PIN_VERIFY_OFFSET (R89). -/
def pinVerifyOffset : PayCmd where
  op := 0x1002
  static d := step2 d 2 (decide (dParam d ≤ 4)) 0
  layout d i :=
    blkOk (inFmt d) (slice i 0 16) && (if panBound (inFmt d) then panOk (slice i 16 32) else allZero (slice i 16 32)) &&
    decTabOk (nibs (slice i 0x38 8)) && offOk (nibs (slice i 0x40 6)) && decide (4 ≤ leAt i 0x46 1) && decide (leAt i 0x46 1 ≤ 12) &&
    decide (leAt i 0x47 1 = 0)
  keys d _ := [plainKey 0 (pinReq (inFmt d) ['D', 'B', 'N']) (pinOps (inFmt d) false), plainKey 1 (symReq tdesAlgs 'V' '1' ['C', 'V', 'N']) 1]
  random _ := false
  run e s :=
    let off := nibs (slice e.inp 0x40 6)
    let cl := leAt e.inp 0x46 1
    let ops := pinOps (inFmt e.desc) false
    let cyc := 5000 + pinCost (inFmt e.desc) false
    match pinDecode (inFmt e.desc) (envKey e 0).mat (slice e.inp 0 16) (slice e.inp 16 32) with
    | none => payPart 0x0106 [ops] cyc s
    | some pin =>
      if pin.length < cl ∨ offDigits off ≠ pin.length then payPart 0x0106 [ops] cyc s
      else
        let x := expectedPin (envKey e 1).mat (slice e.inp 0x30 8) (nibs (slice e.inp 0x38 8)) off pin.length
        (payCheck (decide (x.take cl = pin.take cl)) 0x0701 [ops, 1] cyc, s)
  units := oneUnit
  body := noBody

/-- PIN_VERIFY_PVV (R90). -/
def pinVerifyPvv : PayCmd where
  op := 0x1003
  static d := step2 d 2 (decide (dParam d ≤ 4)) 0
  layout d i :=
    blkOk (inFmt d) (slice i 0 16) && panOk (slice i 16 32) && decide (leAt i 0x30 1 ≤ 6) && isDigits (slice i 0x31 4) && allZero (slice i 0x35 3)
  keys d _ := [plainKey 0 (pinReq (inFmt d) ['D', 'B', 'N']) (pinOps (inFmt d) false), plainKey 1 (symReq [1] 'V' '2' ['C', 'V', 'N']) 1]
  random _ := false
  run e s :=
    let ops := pinOps (inFmt e.desc) false
    let cyc := 4600 + pinCost (inFmt e.desc) false
    match pinDecode (inFmt e.desc) (envKey e 0).mat (slice e.inp 0 16) (slice e.inp 16 32) with
    | none => payPart 0x0106 [ops] cyc s
    | some pin =>
      (payCheck (decide (pvvOf (envKey e 1).mat (slice e.inp 16 32) (leAt e.inp 0x30 1) pin = digitsOf (slice e.inp 0x31 4))) 0x0701 [ops, 1] cyc, s)
  units := oneUnit
  body := noBody

/-! ### Card verification values (R91) -/

/-- PARAM of the card verification commands. -/
def cvvParam (d : Bytes) : Bool :=
  let p := dParam d
  decide (p % 4 ≠ 3) && decide (bitsOf p 3 2 = 0) && decide (3 ≤ bitsOf p 7 4) && decide (bitsOf p 7 4 ≤ 5) && decide (p < 256)

/-- DIGITS of PARAM. -/
def cvvDigits (d : Bytes) : Nat := bitsOf (dParam d) 7 4

/-- The input layout of R91: VALUE holds DIGITS digits and then zeros to verify, and zeros alone to generate. -/
def cvvLayout (verify : Bool) (d i : Bytes) : Bool :=
  let v := slice i 0x28 5
  let n := cvvDigits d
  panOk (slice i 0 32) && isDigits (slice i 0x20 7) && (decide (dParam d % 4 = 0) || decide (slice i 0x24 3 = [0x30, 0x30, 0x30])) &&
  decide (leAt i 0x27 1 = 0) && allZero (slice i 0x2D 3) && (if verify then isDigits (v.take n) && allZero (v.drop n) else allZero v)

/-- The card verification digits of an input. -/
def cvvValue (e : PayEnv) : Bytes :=
  let svc := match dParam e.desc % 4 with | 0 => digitsOf (slice e.inp 0x24 3) | 1 => [9, 9, 9] | _ => [0, 0, 0]
  asciiDigits (cvvOf (envKey e 0).mat (slice e.inp 0 32) (digitsOf (slice e.inp 0x20 4)) svc (cvvDigits e.desc))

/-- CVV_GENERATE (R91). -/
def cvvGenerate : PayCmd where
  op := 0x1101
  static d := step2 d 1 (cvvParam d) (cvvDigits d)
  layout := cvvLayout false
  keys _ _ := [plainKey 0 (symReq [1] 'C' '0' ['G', 'C', 'N']) 4]
  random _ := false
  run e s := (.out (cvvValue e) [4] 4600, s)
  units := oneUnit
  body := noBody

/-- CVV_VERIFY (R91). -/
def cvvVerify : PayCmd where
  op := 0x1102
  static d := step2 d 1 (cvvParam d) 0
  layout := cvvLayout true
  keys _ _ := [plainKey 0 (symReq [1] 'C' '0' ['V', 'C', 'N']) 4]
  random _ := false
  run e s := (payCheck (decide (slice e.inp 0x28 (cvvDigits e.desc) = cvvValue e)) 0x0705 [4] 5000, s)
  units := oneUnit
  body := noBody

/-! ### EMV (R92-R94) -/

/-- The ARPC is generated after a match. -/
def arpcOn (d : Bytes) : Bool := (dParam d).testBit 0
/-- ARPC method 2. -/
def arpc2 (d : Bytes) : Bool := (dParam d).testBit 1
/-- DATA, padded as PAD selects, to the block size of the key. -/
def emvData (e : PayEnv) : Bytes :=
  isoPad (if (dParam e.desc).testBit 4 then 1 else 2) (blkSize (algAes (envKey e 0).alg)) (e.inp.drop 64)
/-- The key the cryptogram is computed with (R92). -/
def emvKey (e : PayEnv) : Bytes :=
  let k := envKey e 0
  let mk := emvMaster k.alg k.mat (slice e.inp 0 32) (leAt e.inp 0x20 1)
  if bitsOf (dParam e.desc) 3 2 = 0 then emvSession k.alg mk (slice e.inp 0x22 2) else mk
/-- Block operations beyond 5 + q (R94). -/
def arpcOps (d : Bytes) (alg : Nat) : Nat := if !arpcOn d then 0 else if !arpc2 d then 1 else if algAes alg then 2 else 3

/-- Core cycles of ARQC_VERIFY without its ARPC (R94). -/
def arqcCost (e : PayEnv) : Nat :=
  let aes := algAes (envKey e 0).alg
  let q := (emvData e).length / blkSize aes
  if aes then 14600 + 260 * q else 14000 + 200 * q
/-- Core cycles of the ARPC (R94). -/
def arpcCost (d : Bytes) : Nat := if !arpcOn d then 0 else if arpc2 d then 1600 else 800

/-- ARQC_VERIFY (R92-R94). The operations under the derived card and session keys are uses of KEY0 too (log entry 60); OUT_LEN is at least 8 with
ARPC = 1, for the 4 bytes of method 2 as well, as the spec's table of the command states. -/
def arqcVerify : PayCmd where
  op := 0x1201
  static d := step2 d 1 (decide (bitsOf (dParam d) 3 2 ≤ 1) && decide (dParam d < 32)) (if arpcOn d then 8 else 0)
  layout d i :=
    let n := leAt i 0x30 1
    panOk (slice i 0 32) && (nibs (slice i 0x20 1)).all (fun x => decide (x < 10)) && decide (leAt i 0x21 1 = 0) &&
    (arpc2 d || (allZero (slice i 0x2E 2) && decide (n = 0))) && decide (n ≤ 8) && allZero (slice i (0x31 + n) (8 - n)) &&
    allZero (slice i 0x39 3) && decide (1 ≤ leAt i 0x3C 2) && decide (leAt i 0x3C 2 ≤ 256) && allZero (slice i 0x3E 2) &&
    decide (i.length = 64 + leAt i 0x3C 2)
  keys d i := [⟨0, symReq (1 :: aesAlgs) 'E' '0' ['X', 'N'], fun e => if arpcOn d ∧ !arpc2 d ∧ algAes e.alg then 0x0109 else 0,
    fun e => 5 + cdiv (i.length - 64 + b2n (!(dParam d).testBit 4)) (blkSize (algAes e.alg)) + arpcOps d e.alg⟩]
  random _ := false
  run e s :=
    let k := envKey e 0
    let key := emvKey e
    let arqc := slice e.inp 0x24 8
    let ops := 5 + (emvData e).length / blkSize (algAes k.alg)
    let used := [ops + arpcOps e.desc k.alg]
    let cyc := arqcCost e + arpcCost e.desc
    if emvMac k.alg key (emvData e) ≠ arqc then (.fail 0x0704 [ops] (arqcCost e), s)
    else if !arpcOn e.desc then (.out [] used cyc, s)
    else if !arpc2 e.desc then (.out (tdesEnc key (xorBytes arqc (padTo 8 (slice e.inp 0x2C 2)))) used cyc, s)
    else
      let m := arqc ++ slice e.inp 0x2C 4 ++ slice e.inp 0x31 (leAt e.inp 0x30 1)
      (.out ((emvMac k.alg key (if algAes k.alg then m else isoPad 2 8 m)).take 4) used cyc, s)
  units := oneUnit
  body := noBody

/-! ### Message authentication (R95) -/

/-- ALG, PADM and MAC_LEN of PARAM. -/
def macAlg (d : Bytes) : Nat := bitsOf (dParam d) 3 0
/-- PADM. -/
def macPad (d : Bytes) : Nat := bitsOf (dParam d) 7 4
/-- MAC_LEN. -/
def macLen (d : Bytes) : Nat := bitsOf (dParam d) 12 8

/-- PARAM is defined (R95). -/
def macParam (d : Bytes) : Bool :=
  [1, 3, 5].contains (macAlg d) && (if macAlg d = 5 then decide (macPad d = 0) else decide (1 ≤ macPad d) && decide (macPad d ≤ 3)) &&
  decide (4 ≤ macLen d) && decide (macLen d ≤ if macAlg d = 3 then 8 else 16) && decide (dParam d < 2 ^ 13)

/-- The usage and algorithms of a MAC algorithm (R95). -/
def macReq (mac : Nat) (modes : List Char) : KeyReq :=
  match mac with
  | 1 => symReq (tdesAlgs ++ aesAlgs) 'M' '1' modes
  | 3 => symReq [1] 'M' '3' modes
  | _ => symReq (tdesAlgs ++ aesAlgs) 'M' '6' modes

/-- The MAC key slot: a MAC_LEN above 8 is not for TDES (R95). -/
def macKey (d : Bytes) (modes : List Char) (len : Nat) : PayKey :=
  ⟨0, macReq (macAlg d) modes, fun e => if algTdes e.alg ∧ 8 < macLen d then 0x0109 else 0, fun e => macOps (macAlg d) (macPad d) e.alg len⟩

/-- The MAC of a message under KEY0, its leftmost MAC_LEN bytes. -/
def macValue (e : PayEnv) (msg : Bytes) : Bytes :=
  (macOf (macAlg e.desc) (macPad e.desc) (envKey e 0).alg (envKey e 0).mat msg).take (macLen e.desc)

/-- MAC_GENERATE (R95). -/
def macGenerate : PayCmd where
  op := 0x1301
  static d := step2 d 1 (macParam d) (macLen d)
  layout _ _ := true
  keys d i := [macKey d ['G', 'C', 'N'] i.length]
  random _ := false
  run e s := (.out (macValue e e.inp) (payUses [macKey e.desc [] e.inp.length] e)
    (macCost (macAlg e.desc) (macPad e.desc) (envKey e 0).alg e.inp.length - 200), s)
  units := oneUnit
  body := noBody

/-- MAC_VERIFY (R95). -/
def macVerify : PayCmd where
  op := 0x1302
  static d := step2 d 1 (macParam d) 0
  layout d i := allZero ((i.take 16).drop (macLen d))
  keys d i := [macKey d ['V', 'C', 'N'] (i.length - 16)]
  random _ := false
  run e s := (payCheck (decide (e.inp.take (macLen e.desc) = macValue e (e.inp.drop 16))) 0x0702
    (payUses [macKey e.desc [] (e.inp.length - 16)] e) (macCost (macAlg e.desc) (macPad e.desc) (envKey e 0).alg (e.inp.length - 16)), s)
  units := oneUnit
  body := noBody

/-! ### DUKPT (R96, R97) -/

/-- WKEY, PARAM[9:8]. -/
def wKey (d : Bytes) : Nat := bitsOf (dParam d) 9 8

/-- KEY0 of a DUKPT command; uses of the derived keys count against it (log entry 42). -/
def bdkKey (check : KEnt → Nat) (i : Bytes) (more : KEnt → Nat) : PayKey :=
  ⟨0, symReq (tdesAlgs ++ aesAlgs) 'B' '0' ['X', 'N'], check, fun e => dukptOps e.alg (i.take 16) + more e⟩

/-- The KSN header's bytes that no scheme uses are 0 (R97). -/
def ksnTail (i : Bytes) : Bool := allZero (slice i 12 4)

/-- DUKPT_PIN_TRANSLATE (R84-R86, R96, R97). An IN_FMT that the algorithm of KEY0 does not allow is a PARAM value that the key does not allow:
0x0109 (R77 step 4; log entry 60). The counter is checked at step 6, once KEY0's algorithm has selected the scheme (log entry 60). -/
def dukptPinTranslate : PayCmd where
  op := 0x1401
  static d := step2 d 2 ([0, 1, 3, 4].contains (inFmt d) && decide (outFmt d ≤ 4) && decide (wKey d % 2 = 0) && decide (dParam d < 2 ^ 11) && !fmtLoss d)
    (if outFmt d = 4 then 16 else 8)
  layout d i := ksnTail i && blkOk (inFmt d) (slice i 16 16) && trPanOk d (slice i 32 32)
  keys d i := [bdkKey (fun e => if algAes e.alg then (if inFmt d = 4 then 0 else 0x0109) else if inFmt d ≠ 4 ∧ wKey d = 0 then 0 else 0x0109) i
      (fun _ => pinOps (inFmt d) false),
    plainKey 1 (pinReq (outFmt d) ['E', 'B', 'N']) (pinOps (outFmt d) true)]
  random d := decide (fillDraw (outFmt d) 4 ≠ 0)
  run e s :=
    let k := envKey e 0
    let h := e.inp.take 16
    let cyc := dukptCost k.alg h + pinCost (inFmt e.desc) false + pinCost (outFmt e.desc) true
    if !ksnOk (algAes k.alg) h then payPart 0x0106 [] cyc s
    else pinMove e (workKey 0 (wKey e.desc) ((dParam e.desc).testBit 10) k.alg k.mat h) (slice e.inp 16 16) (slice e.inp 32 32)
      [dukptOps k.alg h + pinOps (inFmt e.desc) false, pinOps (outFmt e.desc) true] cyc s
  units := oneUnit
  body := noBody

/-- MAC_LEN of DUKPT_MAC_VERIFY: PARAM[20:16] with ALG 5, else [12:8] (R97). -/
def dkMacLen (d : Bytes) : Nat := if macAlg d = 5 then bitsOf (dParam d) 20 16 else macLen d

/-- PARAM of DUKPT_MAC_VERIFY (R97). -/
def dkMacParam (d : Bytes) : Bool :=
  let p := dParam d
  decide (macPad d = 0) &&
  (if macAlg d = 5 then decide (wKey d % 2 = 0) && decide (bitsOf p 12 10 = 0) && decide (bitsOf p 15 14 = 0) && decide (p < 2 ^ 21) &&
      decide (4 ≤ dkMacLen d) && decide (dkMacLen d ≤ 16)
   else [1, 3].contains (macAlg d) && decide (4 ≤ macLen d) && decide (macLen d ≤ 8) && decide (p < 2 ^ 14))

/-- The padding method of DUKPT_MAC_VERIFY with TDES: 1, as the reference row of R68 counts it, 118 operations over 64 bytes (log entry 42). -/
def dkPad : Nat := 1

/-- DUKPT_MAC_VERIFY (R96, R97). -/
def dukptMacVerify : PayCmd where
  op := 0x1402
  static d := step2 d 1 (dkMacParam d) 0
  layout d i := ksnTail i && allZero ((slice i 16 16).drop (dkMacLen d))
  keys d i := [bdkKey (fun e => if algAes e.alg = decide (macAlg d = 5) then 0 else 0x0109) i (fun e => macOps (macAlg d) dkPad e.alg (i.length - 32))]
  random _ := false
  run e s :=
    let k := envKey e 0
    let h := e.inp.take 16
    let m := e.inp.length - 32
    let cyc := dukptCost k.alg h + macCost (macAlg e.desc) dkPad k.alg m
    if !ksnOk (algAes k.alg) h then payPart 0x0106 [] cyc s
    else
      let w := workKey 1 (wKey e.desc) ((dParam e.desc).testBit 13) k.alg k.mat h
      let n := dkMacLen e.desc
      (payCheck (decide ((slice e.inp 16 n) = (macOf (macAlg e.desc) dkPad k.alg w (e.inp.drop 32)).take n)) 0x0702
        [dukptOps k.alg h + macOps (macAlg e.desc) dkPad k.alg m] cyc, s)
  units := oneUnit
  body := noBody

/-- DUKPT_DECRYPT (R96, R97). What depends on the scheme, the whole blocks of AES and the unused IV bytes of TDES, is checked once KEY0 has
selected it (log entry 60). -/
def dukptDecrypt : PayCmd where
  op := 0x1403
  static d := step2 d 1 (decide (wKey d % 2 = 0) && decide (dParam d % 256 = 0) && decide (bitsOf (dParam d) 12 10 = 0) && decide (dParam d < 2 ^ 14)) 0
  layout _ i := ksnTail i && decide ((i.length - 32) % 8 = 0)
  keys d i := [bdkKey (fun e => if !algAes e.alg ∧ wKey d ≠ 0 then 0x0109 else 0) i (fun e => cdiv (i.length - 32) (blkSize (algAes e.alg)))]
  random _ := false
  run e s :=
    let k := envKey e 0
    let aes := algAes k.alg
    let c := e.inp.drop 32
    let h := e.inp.take 16
    let q := cdiv c.length (blkSize aes)
    let cyc := dukptCost k.alg h + 1500 + (if aes then 40 else 50) * q
    if !ksnOk aes h ∨ c.length % blkSize aes ≠ 0 ∨ (!aes ∧ !allZero (slice e.inp 24 8)) then payPart 0x0106 [] cyc s
    else (.out (cbcDec aes (workKey 2 (wKey e.desc) ((dParam e.desc).testBit 13) k.alg k.mat h) (slice e.inp 16 (blkSize aes)) c)
      [dukptOps k.alg h + q] cyc, s)
  units := oneUnit
  body := noBody

/-! ### FF1 (R98, R99) -/

/-- RADIX of PARAM. -/
def ffRadix (d : Bytes) : Nat := if (dParam d).testBit 0 then 36 else 10
/-- HEAD and TAIL. -/
def ffHead (d : Bytes) : Nat := bitsOf (dParam d) 11 8
/-- TAIL. -/
def ffTail (d : Bytes) : Nat := bitsOf (dParam d) 15 12
/-- Characters enciphered. -/
def ffCount (d i : Bytes) : Nat := leAt i 0 1 - ffHead d - ffTail d

/-- The input of R98 with the limits of R99. -/
def ffLayout (d i : Bytes) : Bool :=
  let l := leAt i 0 1
  let t := leAt i 1 1
  decide (1 ≤ l) && decide (l ≤ 64) && decide (t ≤ 64) && allZero (slice i 2 2) && decide (i.length = 4 + l + t) &&
  (slice i 4 l).all (fun b => (chrVal (ffRadix d) b).isSome) && decide (ffHead d + ffTail d ≤ l) &&
  decide ((if ffRadix d = 10 then 6 else 4) ≤ ffCount d i) && decide (ffCount d i ≤ 56)

/-- FF1 over the middle of the string. -/
def ffText (dec : Bool) (e : PayEnv) : Bytes :=
  let l := leAt e.inp 0 1
  let t := slice e.inp 4 l
  let m := (slice t (ffHead e.desc) (ffCount e.desc e.inp)).map fun b => (chrVal (ffRadix e.desc) b).getD 0
  t.take (ffHead e.desc) ++ (ff1 dec (envKey e 0).mat (slice e.inp (4 + l) (leAt e.inp 1 1)) (ffRadix e.desc) m).map valChr ++ t.drop (l - ffTail e.desc)

/-- An FF1 command (R98, R99); OUT_LEN below L is known once the input is read. -/
def ffCmd (op : Nat) (dec : Bool) : PayCmd where
  op := op
  static d := step2 d 1 (decide (bitsOf (dParam d) 7 1 = 0) && decide (dParam d < 65536) && decide (ffHead d ≤ 8) && decide (ffTail d ≤ 4)) 0
  layout := ffLayout
  keys d i := [plainKey 0 (symReq aesAlgs '0' 'F' (if dec then ['D', 'B', 'N'] else ['E', 'B', 'N'])) (20 + ffCount d i + cdiv (leAt i 1 1) 16)]
  random _ := false
  run e s :=
    let n := ffCount e.desc e.inp
    let t := cdiv (leAt e.inp 1 1) 16
    (.out (ffText dec e) [20 + n + t] ((if ffRadix e.desc = 10 then 9000 + 250 * n else 9400 + 320 * n) + 100 * t), s)
  units := oneUnit
  body := noBody

/-! ### Key management (R100, R101, R134-R141, R154, R155) -/

/-- A K1 protection key. -/
def k1Key (slot : Nat) (modes : List Char) (uses : Nat) (check : KEnt → Nat) : PayKey :=
  ⟨slot, symReq (tdesAlgs ++ aesAlgs) 'K' '1' modes, check, fun _ => uses⟩
/-- VER suits the protection key's algorithm (R77 step 4, R134). -/
def verCheck (ver : Bool) (e : KEnt) : Nat := if algTdes e.alg = ver then 0 else 0x0109

/-- A block under a K1 key, checked and unwrapped: its attributes as an entry, none for 0x0205 (R134-R140). -/
def k1Unwrap (s : State) (f : Nat) (p : KEnt) (t : Bytes) : Option KEnt :=
  match kbParse t with
  | none => none
  | some k =>
    if !kbHeaderOk k false then none
    else match kbOpen k p.alg p.mat with
      | none => none
      | some key =>
        match ([0, 1, 2].filterMap fun kind => (kbAccept k kind key).map fun a => (kind, a)).head? with
        | none => none
        | some (kind, alg) =>
          if (kbOpt k (oid '0' 'X')).isSome && !sensListed s f alg key then none
          else some (newKey f 0 0 kind alg k.usage k.mode k.expo k.kvn 0xFFFFFFFF 0 (decide (k.usage = chars2 'K' '1') && sensListed s f alg key)
            0 key (carryOpts k alg key))

/-- Write a key as a block under a protection key's two keys, with fresh padding (R134, R138); none while no random output is had. -/
def wrapWith (f : Nat) (e : KEnt) (opts : List (Nat × Bytes)) (palg : Nat) (kbek kbak : Bytes) (s : State) : Option (Bytes × State) :=
  let n := kbPadLen e.alg e.mat.length
  (drbgDrawMany (instOf f) (n + 64) (n + 32) s).map fun r =>
    (kbWrapBy e.usage e.mode e.kvn e.expo 0x30 opts e.alg e.mat (r.1.take n) (r.1.drop n) palg kbek kbak, r.2)

/-- Write a key as a block under a K1 key (R134, R138). -/
def wrapK1 (f : Nat) (e : KEnt) (opts : List (Nat × Bytes)) (k : KEnt) (s : State) : Option (Bytes × State) :=
  wrapWith f e opts k.alg (kbDerive k.alg k.mat 0) (kbDerive k.alg k.mat 1) s

/-- How a key is written under the function's LMK. -/
inductive PayWrap where
  | ok (b : Bytes) (s : State)
  | rand
  | fail (st : Nat) (s : State)

/-- The CURRENT LMK's slot (R112). -/
def lmkSet (s : State) (f : Nat) : Option LmkSlot :=
  let l := lmkOf s f
  if l.s0.role = 1 ∧ l.s0.key.isSome then some l.s0 else if l.s1.role = 1 ∧ l.s1.key.isSome then some l.s1 else none

/-- Write a key under the function's CURRENT LMK with the set's own two keys, and its 0L block before other optional blocks; a set that fails
its check is loaded again by the next resolution (R113, R123, R134, R136). -/
def wrapLmk (inst f : Nat) (e : KEnt) (opts : List (Nat × Bytes)) (s : State) : PayWrap :=
  let s := setPass f 1 (setPass f 0 s)
  match lmkSet s f with
  | none => .fail 0x0206 s
  | some x =>
    if x.bad then .fail 0x020A (lmkUnload f s)
    else match wrapWith inst e ((oid '0' 'L', hexN 4 x.gen) :: opts) 5 x.kbek x.kbak s with
      | none => .rand
      | some r => .ok r.1 r.2

/-- The protection key may not export this key: exportability, sensitive-capable key, strength, asymmetric private keys (R100, R138, R139). -/
def exportBad (p e : KEnt) : Bool :=
  decide (e.expo = 'N'.toNat) || (decide (e.expo = 'S'.toNat) && !p.sens) || decide (algStrength p.alg < algStrength e.alg) ||
  (decide (e.kind = 1) && decide (p.alg ≠ 5))

/-- The input of KEY_IMPORT and KEY_TRANSLATE. -/
def blenOk (i : Bytes) (lo hi : Nat) : Bool := decide (lo ≤ leAt i 0 2) && decide (leAt i 0 2 ≤ hi) && allZero (slice i 2 2) && decide (i.length = 4 + leAt i 0 2)

/-- BODY of a KEY_COMMAND record (R382). -/
def keyBody (op kind alg usage index gen : Nat) : Bytes :=
  leBytes 2 op ++ leBytes 1 kind ++ leBytes 1 alg ++ leBytes 2 usage ++ leBytes 4 index ++ leBytes 2 gen

/-- Started 32 characters of a key block beyond 144, each of which adds 200 cycles and 2 block operations (R101). -/
def longBlock (len : Nat) : Nat := cdiv (len - 144) 32
/-- Of the `n` block operations that R68 gives a command, those under its first K1 key (log entry 42). -/
def kbFirst (op n : Nat) : Nat := Config.kbUses op % (n + 1)

/-- Generation of the CURRENT LMK. -/
def curGen (s : State) (f : Nat) : Nat := ((lmkCurrent s f).map fun l => l.2).getD 0

/-- KEY_IMPORT (R100, R101, R134-R136). -/
def keyImport : PayCmd where
  op := 0x1601
  static d := step2 d 1 (decide (dParam d = 0)) 0
  layout _ i := blenOk i 16 2048
  keys _ i := [k1Key 0 ['D', 'B', 'N'] (kbFirst 0x1601 20 + 2 * longBlock (leAt i 0 2)) fun _ => 0]
  random _ := true
  run e s :=
    let l := longBlock (leAt e.inp 0 2)
    let used := kbFirst 0x1601 20 + 2 * l
    match k1Unwrap s e.func (envKey e 0) (e.inp.drop 4) with
    | none => payPart 0x0205 [freeNat s % (used + 1)] (22000 + 200 * l) (bumpFree s)
    | some k =>
      match wrapLmk e.func e.func k k.carry s with
      | .rand => (.rand, s)
      | .fail st s => payPart st [used] (22000 + 200 * l) s
      | .ok b s => (.out b [used, 20 - kbFirst 0x1601 20 + 2 * longBlock b.length] (22000 + 200 * (l + longBlock b.length)), s)
  units := oneUnit
  body e s := match k1Unwrap s e.func (envKey e 0) (e.inp.drop 4) with
    | none => []
    | some k => keyBody 0x1601 k.kind k.alg k.usage 0 (curGen s e.func)

/-- KEY_EXPORT (R100, R101, R138, R139). -/
def keyExport : PayCmd where
  op := 0x1602
  static d := step2 d 2 (decide (dParam d ≤ 1)) 0
  layout _ _ := true
  keys d _ := [k1Key 0 ['E', 'B', 'N'] 18 (verCheck ((dParam d).testBit 0)), plainKey 1 ⟨7, 0x7FE, 0, []⟩ 0]
  random _ := true
  run e s :=
    if exportBad (envKey e 0) (envKey e 1) then payPart 0x0204 [] 20000 s
    else match wrapK1 e.func (envKey e 1) (envKey e 1).carry (envKey e 0) s with
      | none => (.rand, s)
      | some (b, s) => (.out b [18 + 2 * longBlock b.length, 0] (20000 + 200 * longBlock b.length), s)
  units := oneUnit
  body e _ := keyBody 0x1602 (envKey e 1).kind (envKey e 1).alg (envKey e 1).usage (envKey e 1).index (envKey e 1).lmkGen

/-- KEY_TRANSLATE (R100, R101, R138, R139). -/
def keyTranslate : PayCmd where
  op := 0x1603
  static d := step2 d 2 (decide (dParam d ≤ 1)) 0
  layout _ i := blenOk i 16 2048
  keys d i := [k1Key 0 ['D', 'B', 'N'] (kbFirst 0x1603 30 + 2 * longBlock (leAt i 0 2)) (fun _ => 0),
    k1Key 1 ['E', 'B', 'N'] (30 - kbFirst 0x1603 30) (verCheck ((dParam d).testBit 0))]
  random _ := true
  run e s :=
    let l := longBlock (leAt e.inp 0 2)
    let used := kbFirst 0x1603 30 + 2 * l
    match k1Unwrap s e.func (envKey e 0) (e.inp.drop 4) with
    | none => payPart 0x0205 [freeNat s % (used + 1)] (30000 + 200 * l) (bumpFree s)
    | some k =>
      if exportBad (envKey e 1) k then payPart 0x0204 [used] (30000 + 200 * l) s
      else match wrapK1 e.func k k.carry (envKey e 1) s with
        | none => (.rand, s)
        | some (b, s) => (.out b [used, 30 - kbFirst 0x1603 30 + 2 * longBlock b.length] (30000 + 200 * (l + longBlock b.length)), s)
  units := oneUnit
  body e s := match k1Unwrap s e.func (envKey e 0) (e.inp.drop 4) with
    | none => []
    | some k => keyBody 0x1603 k.kind k.alg k.usage 0 0

/-- EXPORT of KEY_GENERATE's PARAM. -/
def genExport (d : Bytes) : Bool := (dParam d).testBit 4

/-- The key that KEY_GENERATE makes from drawn bytes, with the attributes of its input (R141). -/
def genKey (f : Nat) (d i key : Bytes) : KEnt :=
  newKey f 0 0 0 (bitsOf (dParam d) 3 0) (leAt i 0 2) (leAt i 2 1) (leAt i 3 1) (leAt i 4 2) 0xFFFFFFFF 0 false 1 key []

/-- KEY_GENERATE (R100, R101, R134, R141). An attribute of no row of the usage table, an exportability other than E, N and S, or a key version
number that is not printable ends it with 0x0204; a reserved input byte with 0x0106 (R76, R135, R141; log entry 60). -/
def keyGenerate : PayCmd where
  op := 0x1604
  static d := step2 d (if genExport d then 1 else 0)
    (decide (1 ≤ bitsOf (dParam d) 3 0) && decide (bitsOf (dParam d) 3 0 ≤ 5) && decide (dParam d < 64) && (!genExport d || decide (dKey d 0 ≠ 0))) 0
  layout _ i := allZero (slice i 6 2)
  keys d _ := if genExport d then [k1Key 0 ['E', 'B', 'N'] Config.copyOps (verCheck ((dParam d).testBit 5))] else []
  random _ := true
  run e s :=
    let alg := bitsOf (dParam e.desc) 3 0
    let g := genKey e.func e.desc e.inp
    let text := (slice e.inp 4 2).all fun b => decide (0x20 ≤ b.toNat) && decide (b.toNat ≤ 0x7E)
    if !usageOk (g []).usage alg (g []).mode 0 ∨ !(['E', 'N', 'S'].any fun c => decide (c.toNat = (g []).expo)) ∨ !text then payPart 0x0204 [] 18000 s
    else if genExport e.desc ∧ exportBad (envKey e 0) (g []) then payPart 0x0204 [] 18000 s
    else match drbgDrawMany (instOf e.func) 8 (algBytes alg) s with
      | none => (.rand, s)
      | some (key, s) =>
        match wrapLmk e.func e.func (g key) [] s with
        | .fail st s => payPart st [] 18000 s
        | .rand => (.rand, s)
        | .ok b s =>
          let copy := if genExport e.desc then wrapK1 e.func (g key) [] (envKey e 0) s else some ([], s)
          match copy with
          | none => (.rand, s)
          | some (x, s) =>
            let lmk := 12 + 2 * longBlock b.length
            (.out (leBytes 2 b.length ++ leBytes 2 x.length ++ kcv alg key ++ zeroBytes 9 ++ b ++ x)
              (if genExport e.desc then [Config.copyOps + 2 * longBlock x.length, lmk] else [lmk])
              (18000 + 200 * longBlock b.length + if genExport e.desc then Config.copyCycles + 200 * longBlock x.length else 0), s)
  units := oneUnit
  body e s := keyBody 0x1604 0 (bitsOf (dParam e.desc) 3 0) (leAt e.inp 0 2) 0 (curGen s e.func)

/-- The content key of a token under KEY0: RSAES-OAEP (R155). -/
def tr34Cek (k : KEnt) (t : Tr34) : Option Bytes :=
  if t.wrapped.length ≠ rsaLen k.alg then none else oaepDecode (beBytes (rsaLen k.alg) (rsaPrivMat k.alg k.mat (beNat t.wrapped)))

/-- The key that a token delivers with its attribute header, none for 0x0205: the header that is signed is the one sealed with the key, and it
passes R135 to R137 and R140 (R155). -/
def tr34Ent (s : State) (f : Nat) (t : Tr34) (key header : Bytes) : Option KEnt :=
  match if header = t.header then tokenBlock header else none with
  | none => none
  | some k =>
    match if kbHeaderOk k false then kbAccept k 0 key else none with
    | none => none
    | some alg =>
      if (kbOpt k (oid '0' 'X')).isSome && !sensListed s f alg key then none
      else some (newKey f 0 0 0 alg k.usage k.mode k.expo k.kvn 0xFFFFFFFF 0 (decide (k.usage = chars2 'K' '1') && sensListed s f alg key) 2 key
        (carryOpts k alg key))

/-- TR34_IMPORT (R100, R101, R154, R155): the token is read from the input bytes. KEY0 and KEY1 each serve one modular operation. -/
def tr34Import : PayCmd where
  op := 0x1605
  static d := step2 d 2 (decide (dParam d = 0)) 0
  layout _ i := blenOk i 64 8192 && (tokenParse (i.drop 4)).isSome
  keys _ _ := [plainKey 0 ⟨2, 0x1C0, chars2 'K' '2', ['D', 'N'].map Char.toNat⟩ 1, plainKey 1 ⟨4, 0x1C0, chars2 'S' '0', ['V', 'N'].map Char.toNat⟩ 1]
  random _ := true
  run e s :=
    match tokenParse (e.inp.drop 4), s.time.dev with
    | none, _ => payPart 0x0106 [] 60000 s
    | _, none => payPart 0x0404 [] 60000 s
    | some t, some now =>
      if now + 300000000 < t.time ∨ t.time + 300000000 < now then payPart 0x0106 [] 60000 s
      else match (tr34Cek (envKey e 0) t).bind (tokenKey t) with
        | none => payPart 0x0106 [1] 60000 s
        | some x =>
          match tr34Ent s e.func t x.1 x.2 with
          | none => payPart 0x0205 [1] 60000 s
          | some k =>
            if !pkcs1Verify (envKey e 1).alg (envKey e 1).mat t.signed t.sig ∨ !t.digest then (.fail 0x0706 [1, 1, 16] 60000, s)
            else match wrapLmk e.func e.func k k.carry s with
              | .rand => (.rand, s)
              | .fail st s => payPart st [1, 1] 60000 s
              | .ok b s => (.out b [1, 1, 16 + 2 * longBlock b.length] (60000 + 200 * longBlock b.length), s)
  units := oneUnit
  body e s :=
    match (tokenParse (e.inp.drop 4)).bind fun t => ((tr34Cek (envKey e 0) t).bind (tokenKey t)).bind fun x => tr34Ent s e.func t x.1 x.2 with
    | none => []
    | some k => keyBody 0x1605 0 k.alg k.usage 0 (curGen s e.func)

/-! ### Bulk, raw blocks and random bytes (R102-R106) -/

/-- A scatter list as the core reads it has an invalid entry (R45, R77 step 3). -/
def listBad (list : Bytes) (sg : Bool) (n : Nat) : Bool := sg && sgBad list n

/-- RAW_BLOCK (R105). -/
def rawBlock : PayCmd where
  op := 0x1801
  static d :=
    let pad := bitsOf (dParam d) 3 1
    step2 d 1 (decide (dParam d < 16) && decide (pad ≤ 4) && !((dParam d).testBit 0 && decide (pad ≠ 0))) 0
  layout _ i := decide (1 ≤ i.length) && decide (i.length ≤ 16777216)
  keys d i := [⟨0, symReq (tdesAlgs ++ aesAlgs) 'D' '0' (if (dParam d).testBit 0 then ['D', 'B', 'N'] else ['E', 'B', 'N']), fun _ => 0,
    fun e => ((lanePad (bitsOf (dParam d) 3 1) (blkSize (algAes e.alg)) i).getD i).length / blkSize (algAes e.alg)⟩]
  random _ := false
  run e s :=
    let k := envKey e 0
    let aes := algAes k.alg
    match lanePad (bitsOf (dParam e.desc) 3 1) (blkSize aes) e.inp with
    | none => payPart 0x0106 [] 1500 s
    | some x =>
      let q := x.length / blkSize aes
      (.out (if (dParam e.desc).testBit 0 then ecbDec aes k.mat x else ecbEnc aes k.mat x) [q] (1500 + 2 * q), s)
  units e := cdiv e.inp.length 4096
  body := noBody

/-- RANDOM_GENERATE (R106). -/
def randomGenerate : PayCmd where
  op := 0x1901
  static d := step2 d 0 (decide (1 ≤ dParam d) && decide (dParam d ≤ 4096)) (dParam d)
  layout _ _ := true
  keys _ _ := []
  random _ := true
  run e s :=
    match drbgDraw (instOf e.func) (dParam e.desc) s with
    | none => (.rand, s)
    | some (b, s) => (.out b [] (1200 + 2 * cdiv (dParam e.desc) 16), s)
  units e := cdiv (dParam e.desc) 256
  body := noBody

/-- IN_MODE of BULK_REENCRYPT. -/
def bkIn (d : Bytes) : Nat := bitsOf (dParam d) 3 0
/-- OUT_MODE. -/
def bkOut (d : Bytes) : Nat := bitsOf (dParam d) 7 4
/-- AAD_LEN of the header. -/
def bkAad (i : Bytes) : Nat := leAt i 0x30 4
/-- DATA_LEN. -/
def bkLen (i : Bytes) : Nat := leAt i 0x34 8
/-- Whole blocks are needed on a CBC side (R102). -/
def bkWhole (mode len : Nat) : Bool :=
  match mode with | 0 => decide (len % 16 = 0) | 3 => decide (len % 8 = 0) | 2 => decide (len ≤ 68719476704) | _ => true

/-- The input's header, and the lengths of R102. -/
def bulkLayout (d i : Bytes) : Bool :=
  let gcm := decide (bkIn d = 2) || decide (bkOut d = 2)
  let iv := fun (m off : Nat) => decide (m ≠ 2) || allZero (slice i (off + 12) 4)
  decide (64 ≤ i.length) && iv (bkIn d) 0 && iv (bkOut d) 16 && (decide (bkIn d = 2) || allZero (slice i 0x20 16)) &&
  decide (bkAad i ≤ 4096) && (gcm || decide (bkAad i = 0)) && allZero (slice i 0x3C 4) && decide (i.length = 64 + bkAad i + bkLen i) &&
  bkWhole (bkIn d) (bkLen i) && bkWhole (bkOut d) (bkLen i)

/-- A data key for a mode. -/
def bulkReq (mode : Nat) (modes : List Char) : KeyReq := symReq (if mode = 3 then tdesAlgs else aesAlgs) 'D' '0' modes

/-- BULK_REENCRYPT's program up to its keys; the data moves in `bulkMove` (R102-R104). -/
def bulkReencrypt : PayCmd where
  op := 0x1701
  static d := step2 d 2 (decide (dParam d < 256) && decide (bkIn d ≤ 3) && decide (bkOut d ≤ 3)) 0
  layout := bulkLayout
  keys d i := [plainKey 0 (bulkReq (bkIn d) ['D', 'B', 'N']) (bulkOps (bkIn d) (bkLen i)), plainKey 1 (bulkReq (bkOut d) ['E', 'B', 'N']) (bulkOps (bkOut d) (bkLen i))]
  random _ := false
  run e s :=
    let c := e.inp.drop (64 + bkAad e.inp)
    let p := bulkDec (bkIn e.desc) (envKey e 0).mat (slice e.inp 0 16) c
    (.out (bulkEnc (bkOut e.desc) (envKey e 1).mat (slice e.inp 16 16) p) [bulkOps (bkIn e.desc) (bkLen e.inp), bulkOps (bkOut e.desc) (bkLen e.inp)]
      (3000 + bulkCost (bkIn e.desc) (bkLen e.inp) + bulkCost (bkOut e.desc) (bkLen e.inp)), s)
  units e := cdiv (bkLen e.inp) 4096
  body := noBody

/-- The end of a bulk command after `n` data bytes were processed: their uses, cycles and units (R72, R82, R104, R143). -/
def bulkEnd (e : PayEnv) (n st len : Nat) (s : State) : State :=
  let i := bkIn e.desc
  let o := bkOut e.desc
  payEnd e.core st len (cdiv n 4096)
    (payCharge bulkReencrypt e [bulkOps i n, bulkOps o n] (3000 + bulkCost i n + bulkCost o n) s)

/-- Where a stream of `n` bytes from `off` of a buffer stops: the pane's first refused byte, with its report (R283). -/
def bulkStop (s : State) (p : Nat) (write : Bool) (ps : List (Nat × Nat)) (off n : Nat) : Option (Nat × VioReport) :=
  let k := checker s p
  let x := bufPieces ps off n
  (payRefusal s p write x).bind fun v => (piecesForbidden (activePane k).regions false write 0 x).map fun y => (y.1, v)

/-- The data of BULK_REENCRYPT as it streams (R102, R103): output is written as its input is read, the tag only when the input's tag has matched.
`fault` 1, 2, 3 and 6 end it part way (an input read, an output write, a lane wait, a twin check), with `moved` output bytes written and valid
(R51; how a stream is cut into requests: log entry 60). -/
def bulkMove (e : PayEnv) (moved fault : Nat) (s : State) : State :=
  let p := e.core
  let d := e.desc
  let n := bkLen e.inp
  let head := 64 + bkAad e.inp
  let c := e.inp.drop head
  let aad := slice e.inp 64 (bkAad e.inp)
  let plain := bulkDec (bkIn d) (envKey e 0).mat (slice e.inp 0 16) c
  let x := bulkEnc (bkOut d) (envKey e 1).mat (slice e.inp 16 16) plain
  let tagOk := decide (bkIn d ≠ 2) || decide (gcmTag (envKey e 0).mat (slice e.inp 0 12) aad c = slice e.inp 0x20 16)
  let l := (core s p).outList
  let w := fun (m : Nat) (s : State) => outWrite p 0 (x.take m) s
  let t := payTwin 0x1701 p fault d s
  let s := t.2
  match bulkStop s p false (core s p).inList head n, bulkStop s p true l 0 n with
  | some (a, v), y =>
    if (y.map fun b => decide (b.1 < a)) = some true then
      let b := (y.map fun b => b.1).getD 0
      bulkEnd e (b + 1) 0x0104 (min moved b) (w (min moved b) ((y.map fun b => vioQueue b.2 s).getD s))
    else bulkEnd e (min moved a) 0x0104 (min moved a) (w (min moved a) (vioQueue v s))
  | none, some (b, v) => bulkEnd e (b + 1) 0x0104 (min moved b) (w (min moved b) (vioQueue v s))
  | none, none =>
    let m := min moved n
    if fault = 1 then bulkEnd e m 0x0504 m (w m s)
    else if fault = 2 ∧ (moved < n ∨ bkOut d ≠ 2) then bulkEnd e (min n (m + 1)) 0x0504 m (w m s)
    else if fault = 3 ∨ !t.1 then bulkEnd e m 0x0403 m (w m s)
    else if !tagOk then bulkEnd e n 0x0703 0 (w n s)
    else if bkOut d ≠ 2 then bulkEnd e n 0 n (w n s)
    else
      let tag := gcmTag (envKey e 1).mat (slice e.inp 16 12) aad x
      match payRefusal s p true (bufPieces l n 16) with
      | some v => bulkEnd e n 0x0104 n (w n (vioQueue v s))
      | none => if fault = 2 then bulkEnd e n 0x0504 n (w n s) else bulkEnd e n 0 (n + 16) (outWrite p n tag (w n s))

/-- Steps 1 to 4 of BULK_REENCRYPT, its list checks, and its data (R77, R102). The header and the AAD are read at step 3; `fault` 1 with nothing
moved is a failure of that read. -/
def bulkGo (p : Nat) (input listIn listOut : Bytes) (moved fault : Nat) (s : State) : State :=
  let c := bulkReencrypt
  if !payReady c.op s p then s
  else
    let k := core s p
    let d := mread k.mem 0xFF00 64
    if payHalt s p then payFaulted p c.op s
    else match k.kstat with
    | some st => payEnd p st 0 0 (modCore p kresDone s)
    | none =>
      let s := payFresh p s
      if c.static d ≠ 0 then payEnd p (c.static d) 0 0 s
      else if listBad listIn (dSgIn d) (dInLen d) ∨ listBad listOut (dSgOut d) (dOutLen d) then payEnd p 0x0108 0 0 s
      else
        let inp := padTo (bufLen k.inList) input
        match payRefusal s p false (bufPieces k.inList 0 64) with
        | some v => payEnd p 0x0104 0 0 (vioQueue v s)
        | none =>
          let s := hostReads k.func k.inList s
          if fault = 1 ∧ moved = 0 then payEnd p 0x0504 0 0 s
          else if !c.layout d inp then payEnd p 0x0106 0 0 s
          else match payRefusal s p false (bufPieces k.inList 64 (bkAad inp)) with
          | some v => payEnd p 0x0104 0 0 (vioQueue v s)
          | none =>
            let ks := payKeys p k.func d (c.keys d inp) s
            match ks.2.1 with
            | some (.fail st s) => payEnd p st 0 0 s
            | some (.miss h s) => payMiss p h s
            | some (.ok _ s) => s
            | none =>
              if payNoLane ks.2.2 c.op p then payEnd p 0x0403 0 0 ks.2.2
              else if bufLen k.outList < bkLen inp + (if bkOut d = 2 then 16 else 0) then payEnd p 0x0107 0 0 ks.2.2
              else bulkMove ⟨p, k.func, d, inp, ks.1⟩ moved fault ks.2.2

/-! ### The rows -/

/-- PIN_TRANSLATE (R84-R88). -/
def execPinTranslate (core : Nat) (input : List Byte) (fault : Nat) (s : State) : Res := .next (payGo pinTranslate core input fault s)
/-- PIN_VERIFY_OFFSET (R89). -/
def execPinVerifyOffset (core : Nat) (input : List Byte) (fault : Nat) (s : State) : Res := .next (payGo pinVerifyOffset core input fault s)
/-- PIN_VERIFY_PVV (R90). -/
def execPinVerifyPvv (core : Nat) (input : List Byte) (fault : Nat) (s : State) : Res := .next (payGo pinVerifyPvv core input fault s)
/-- CVV_GENERATE (R91). -/
def execCvvGenerate (core : Nat) (input : List Byte) (fault : Nat) (s : State) : Res := .next (payGo cvvGenerate core input fault s)
/-- CVV_VERIFY (R91). -/
def execCvvVerify (core : Nat) (input : List Byte) (fault : Nat) (s : State) : Res := .next (payGo cvvVerify core input fault s)
/-- ARQC_VERIFY (R92-R94). -/
def execArqcVerify (core : Nat) (input : List Byte) (fault : Nat) (s : State) : Res := .next (payGo arqcVerify core input fault s)
/-- MAC_GENERATE (R95). -/
def execMacGenerate (core : Nat) (input : List Byte) (fault : Nat) (s : State) : Res := .next (payGo macGenerate core input fault s)
/-- MAC_VERIFY (R95). -/
def execMacVerify (core : Nat) (input : List Byte) (fault : Nat) (s : State) : Res := .next (payGo macVerify core input fault s)
/-- DUKPT_PIN_TRANSLATE (R96, R97). -/
def execDukptPinTranslate (core : Nat) (input : List Byte) (fault : Nat) (s : State) : Res := .next (payGo dukptPinTranslate core input fault s)
/-- DUKPT_MAC_VERIFY (R96, R97). -/
def execDukptMacVerify (core : Nat) (input : List Byte) (fault : Nat) (s : State) : Res := .next (payGo dukptMacVerify core input fault s)
/-- DUKPT_DECRYPT (R96, R97). -/
def execDukptDecrypt (core : Nat) (input : List Byte) (fault : Nat) (s : State) : Res := .next (payGo dukptDecrypt core input fault s)
/-- FF1_TOKENIZE (R98, R99). -/
def execFf1Tokenize (core : Nat) (input : List Byte) (fault : Nat) (s : State) : Res := .next (payGo (ffCmd 0x1501 false) core input fault s)
/-- FF1_DETOKENIZE (R98, R99). -/
def execFf1Detokenize (core : Nat) (input : List Byte) (fault : Nat) (s : State) : Res := .next (payGo (ffCmd 0x1502 true) core input fault s)
/-- KEY_IMPORT (R100). -/
def execKeyImport (core : Nat) (input : List Byte) (fault : Nat) (s : State) : Res := .next (payGo keyImport core input fault s)
/-- KEY_EXPORT (R100). -/
def execKeyExport (core : Nat) (fault : Nat) (s : State) : Res := .next (payGo keyExport core [] fault s)
/-- KEY_TRANSLATE (R100). -/
def execKeyTranslate (core : Nat) (input : List Byte) (fault : Nat) (s : State) : Res := .next (payGo keyTranslate core input fault s)

/-- The check that a key command without a key slot still needs before it can use the function's LMK (R115, R124 checks 3 and 4):
0 to go on, 1 to wait for the sets, else a status. -/
def lmkNeed (s : State) (f : Nat) : Nat :=
  if s.lcy.state ≠ .deployed then 0x0306
  else if !fnBound s f then 0x0206
  else if !(lmkOf s f).loaded then 1
  else if (lmkOf s f).s0.key.isNone ∧ (lmkOf s f).s1.key.isNone then 0x0206
  else 0

/-- KEY_GENERATE without an export copy resolves no key slot, and needs the function's LMK all the same (R115, R141). -/
def genNeed : PayCmd := { keyGenerate with
  run := fun e s =>
    match if genExport e.desc then 0 else lmkNeed s e.func with
    | 0 => keyGenerate.run e s
    | st => (.fail st [] 0, s) }

/-- KEY_GENERATE (R100, R115, R141). -/
def execKeyGenerate (core : Nat) (input : List Byte) (fault : Nat) (s : State) : Res :=
  .next (
    let c := Machine.core s core
    let d := mread c.mem 0xFF00 64
    if payReady 0x1604 s core ∧ !payHalt s core ∧ c.kstat.isNone ∧ !(opState 0x1604 && recordRefused s) ∧ !paySg d ∧ keyGenerate.static d = 0 ∧ !genExport d ∧
        lmkNeed s c.func = 1 then
      payMiss core 0 s
    else payGo genNeed core input fault s)

/-- TR34_IMPORT (R154, R155). -/
def execTr34Import (core : Nat) (input : List Byte) (fault : Nat) (s : State) : Res := .next (payGo tr34Import core input fault s)

/-- BULK_REENCRYPT (R102-R104): the operands are the input bytes, the scatter lists as read, and the output written before a failure. -/
def execBulkReencrypt (core : Nat) (input listIn listOut : List Byte) (moved fault : Nat) (s : State) : Res :=
  .next (bulkGo core input listIn listOut moved fault s)

/-- RAW_BLOCK (R105): the operands are the input bytes and the scatter lists as read. -/
def execRawBlock (core : Nat) (input listIn listOut : List Byte) (fault : Nat) (s : State) : Res :=
  .next (
    let c := Machine.core s core
    let d := mread c.mem 0xFF00 64
    if payReady 0x1801 s core ∧ !payHalt s core ∧ c.kstat.isNone ∧ rawBlock.static d = 0 ∧
        (listBad listIn (dSgIn d) (dInLen d) ∨ listBad listOut (dSgOut d) (dOutLen d)) then
      payEnd core 0x0108 0 0 s
    else payGo rawBlock core input fault s)

/-- RANDOM_GENERATE (R106). -/
def execRandomGenerate (core : Nat) (fault : Nat) (s : State) : Res := .next (payGo randomGenerate core [] fault s)

/-- CUSTOM (R107, R231, R233): firmware refuses a scatter list, and otherwise enters the image at its ENTRY. -/
def execCustom (core : Nat) (s : State) : Res :=
  let c := Machine.core s core
  let op := dOpcode (mread c.mem 0xFF00 64)
  if op < 0x2000 ∨ 0x20FF < op ∨ !payReady op s core then .next s
  else if payHalt s core then .next (payFaulted core op s)
  else if c.kstat.isSome then .next (payEnd core (c.kstat.getD 0) 0 (earlyUnits op c.cyc) s)
  else if paySg (mread c.mem 0xFF00 64) then .next (payEnd core 0x0108 0 (earlyUnits op c.cyc) s)
  else match imageOf s (coreCluster core) c.func (op % 256) with
    | none =>
      if c.tok.isSome ∧ s.lcy.approvals.any (fun a => decide (a.fn = c.func) && decide (a.slot = op % 256)) then .next (imageWait core c.func (op % 256) s)
      else .next (payEnd core 0x0302 0 (earlyUnits op c.cyc) s)
    | some g =>
      let entry := leNat (mread s.cpu.scratch (coreCluster core * 2 ^ 20 + 0x40000 + 0x8000 * g.place + 0x14) 4)
      execOpPrun core (modCore core (fun c => { c with ds := [BitVec.ofNat 32 entry], cached := 1 }) s)

end Sys2Proof.Machine
end

