-- ==== Sys2Proof/Machine/Tamper.lean ====
section
/-!
DEFINITION. The tamper block (R318-R340): samples, comparator edges and disagreements with their responses, the LOCK and ERASE orders on the
service die, and the unlock.
-/

namespace Sys2Proof.Machine

/-! ### Monitors (R318-R325) -/

/-- Monitor `m`. -/
def monAt (s : State) (m : Nat) : Monitor := s.tmp.mons.getD m (Monitor.fresh 0)
/-- Change monitor `m`. -/
def modMon (m : Nat) (g : Monitor → Monitor) (s : State) : State := modTmp (fun t => { t with mons := t.mons.modify m g }) s

/-- An enclosure monitor is in use unless ENC_USE is burned without its bit (R325). -/
def monUsed (s : State) (m : Nat) : Bool :=
  if 1 ≤ m ∧ m ≤ 8 then !s.tmp.encBurned || s.tmp.encUse.testBit (m - 1) else decide (m < 18)

/-- The class floor of a monitor (R321). -/
def monFloor (m : Nat) : Nat := [2, 1, 1, 1, 1, 0, 0, 0, 0, 2, 2, 1, 1, 1, 2, 2, 1, 1].getD m 0

/-- A monitor is armed on the present supply (R321). -/
def monArmed (s : State) (m : Nat) : Bool :=
  monUsed s m && (s.pwr.main || !(decide (m = 12) || decide (m = 13) || decide (m = 16)))

/-- The clock of detection stamps: 10 ns with main power, slow clock periods on the backup cell (R319). -/
def tmpClock (s : State) : Nat := if s.pwr.main then s.time.refCount else s.time.slowCount
/-- 1 ms of that clock (R320, R323). -/
def tmpMs (s : State) : Nat := if s.pwr.main then 100000 else 33

/-- A detector state of a number. -/
def detOf (n : Nat) : Det := match n with | 0 => .safe | 1 => .margin | _ => .alarm
/-- The code of a detector state (R332). -/
def detCode : Det → Nat
  | .safe => 0 | .margin => 1 | .alarm => 2

/-- A monitor is in alarm (R318). -/
def monLive (m : Monitor) : Bool := decide (m.det1 = .alarm) || decide (m.det2 = .alarm)
/-- One detector in ALARM while the other is SAFE (R320). -/
def monDiffers (m : Monitor) : Bool := (decide (m.det1 = .alarm) && decide (m.det2 = .safe)) || (decide (m.det1 = .safe) && decide (m.det2 = .alarm))
/-- Both detectors SAFE. -/
def monSafe (m : Monitor) : Bool := decide (m.det1 = .safe) && decide (m.det2 = .safe)

/-! ### Responses (R328-R334) -/

/-- The guard die's part of an ERASE: the secret half and the seeds held are zero, ERASED is set, the order goes out; the LOCK actions are included
(R298, R330, R334, R337). -/
def guardErase (index : Nat) (s : State) : State :=
  let s := modEnt (fun e => { e with srcA := { e.srcA with raw := [], held := [] }, srcB := { e.srcB with raw := [], held := [] } }) (lockLatch index s)
  let s := modLcy (fun l => { l with keepHalf := zeroBytes 32, staged := none }) s
  let s := modTmp (fun t => { t with erased := true, applied := 2, eraseOrder := t.eraseOrder || s.pwr.main }) s
  (createdFns s).foldl (rcptFlag 2) (modMtr (fun m => { m with rcpt := m.rcpt.map fun e => (e.1, { e.2 with flags := setBit e.2.flags 2 true }) }) s)

/-- BODY of a tamper record (R332). -/
def tamperBody (index det1 det2 cls applied value : Nat) (s : State) : Bytes :=
  leBytes 1 index ++ leBytes 1 (det1 + 4 * det2 + 16 * cls + 64 * applied) ++ leBytes 1 (b2n !s.pwr.main) ++ leBytes 2 value ++
  leBytes 2 s.tmp.lockSeq ++ leBytes 8 (timeField s)

/-- An alarm: its class's response and its record (R328-R334); `test` is FULL of an injection (R485). -/
def tamperFire (index m cls value : Nat) (test : Option Bool) (s : State) : State :=
  let x := monAt s m
  let rec_ := fun (applied : Nat) (s : State) =>
    auditU (0x0100 + index) (4 * b2n test.isSome) 0 (tamperBody index (detCode x.det1) (detCode x.det2) cls applied value s) s
  if test = some false then rec_ (max s.tmp.applied cls) s
  else
    let s := modMon m (fun x => { x with count := satAdd 0xFFFF x.count 1 }) s
    let s := match cls with | 0 => s | 1 => lockLatch index s | _ => guardErase index s
    let s := if cls = 0 then fireMsix 0 13 s else modTmp (fun t => { t with alarmed := t.alarmed || t.busy }) (grantClose 3 4 s)
    rec_ s.tmp.applied s

/-- The monitor's own alarm after a sample or an edge: it fires on entering alarm, once re-armed (R323). -/
def alarmStep (m value : Nat) (sampled : Bool) (s : State) : State :=
  let x := monAt s m
  let a := x.alarm
  let now := tmpClock s
  let rearm := if sampled then decide (10 ≤ a.safeRun) else match a.safeSince with | some t => decide (t + tmpMs s ≤ now) | none => false
  let fired := a.fired && !rearm
  let fire := monLive x && !fired
  let safe := monSafe x
  let s := modMon m (fun x => { x with
    alarm := ⟨fired || fire, if safe then a.safeRun + 1 else 0, if safe then some (a.safeSince.getD now) else none⟩ }) s
  if fire then tamperFire m m x.cls value x.inj s else s

/-- The disagreement's state after a sample or an edge (R320, R323). -/
def disStep (m : Nat) (sampled : Bool) (s : State) : State :=
  let x := monAt s m
  let a := x.disAlarm
  let now := tmpClock s
  let rearm := if sampled then decide (10 ≤ a.safeRun) else match a.safeSince with | some t => decide (t + tmpMs s ≤ now) | none => false
  let safe := monSafe x
  let d := monDiffers x
  modMon m (fun x => { x with
    dis := d, disRun := if d then x.disRun + 1 else 0, disSince := if d then some (x.disSince.getD now) else none,
    disAlarm := ⟨a.fired && !rearm, if safe then a.safeRun + 1 else 0, if safe then some (a.safeSince.getD now) else none⟩ }) s

/-- An armed injection of a detector of monitor `m`: it forces ALARM on that detector and leaves the other SAFE, unless the sample itself
shows ALARM (R483, R485, R486). -/
def injDetect (m : Nat) (d1 d2 : Det) (s : State) : Det × Det × Option Bool × State :=
  if d1 = .alarm ∨ d2 = .alarm ∨ !s.pwr.main then (d1, d2, none, s)
  else
    let x := injTake (0x20 + m) m s
    match x.1 with
    | some k => (.alarm, .safe, some k.2, x.2)
    | none =>
      let y := injTake (0x40 + m) m s
      match y.1 with
      | some k => (.safe, .alarm, some k.2, y.2)
      | none => (d1, d2, none, s)

/-- Detector states take effect on monitor `m`. -/
def detectStep (m value : Nat) (sampled : Bool) (d1 d2 : Det) (s : State) : State :=
  let j := injDetect m d1 d2 s
  let s := modMon m (fun x => { x with det1 := j.1, det2 := j.2.1, inj := j.2.2.1 }) j.2.2.2
  disStep m sampled (alarmStep m value sampled s)

/-- LFSRs of a mesh monitor: first and count (R324). -/
def meshLfsrs (m : Nat) : Nat × Nat := if m = 0 then (0, 12) else (11 + m, 1)

/-- Advance a mesh monitor's LFSRs to their next bits (R324; polynomial: log entry 44). -/
def meshAdvance (m : Nat) (s : State) : State :=
  let r := meshLfsrs m
  modTmp (fun t => { t with lfsr := t.lfsr.zipIdx.map fun x => if r.1 ≤ x.2 ∧ x.2 < r.1 + r.2 then Config.lfsrNext 64 x.1 % 2 ^ 64 else x.1 }) s

/-- The bits driven on a mesh monitor's lines. -/
def meshDriven (m : Nat) (s : State) : List Nat :=
  let r := meshLfsrs m
  ((s.tmp.lfsr.drop r.1).take r.2).map fun v => v % 2

/-- TAMPER_SAMPLE (R318-R325): a sample of monitor 0-8. `det1` and `det2` are what the detectors show; a mesh monitor's second detector
compares the sensed bits with the driven ones. -/
def execTamperSample (mon det1 det2 value : Nat) (sensed : List Nat) (s : State) : Res :=
  .next (
    if 8 < mon ∨ !monArmed s mon then s
    else if mon ≤ 4 then
      let s := meshAdvance mon s
      let bad := decide (meshDriven mon s ≠ sensed)
      detectStep mon (if bad then 0xFFFF else value % 65536) true (detOf det1) (if bad then .alarm else .safe) s
    else detectStep mon (value % 65536) true (detOf det1) (detOf det2) s)

/-- TAMPER_COMPARATOR_EDGE (R319-R323): the detectors of a continuous monitor 9-17 change. VDD_LOW's low threshold is not an alarm while
PWRFAIL_N is asserted and not re-armed; `glitch` says that a glitch is what was seen. VBAT_LOW with main power is a health report only. -/
def execTamperComparatorEdge (mon det1 det2 value : Nat) (glitch : Bool) (s : State) : Res :=
  .next (
    if mon < 9 ∨ 17 < mon ∨ !monArmed s mon then s
    else
      let d1 := detOf det1
      let d2 := detOf det2
      if mon = 15 ∧ s.pwr.main then
        let s := modMon mon (fun x => { x with det1 := d1, det2 := d2 }) s
        if monLive (monAt s mon) then
          if s.tmp.vbatSaid then s else healthReport 12 [] (modTmp (fun t => { t with vbatSaid := true }) s)
        else modTmp (fun t => { t with vbatSaid := false }) s
      else if mon = 13 ∧ s.pwr.pwrfail.isSome ∧ !s.tmp.lowRearmed ∧ !glitch then
        modMon mon (fun x => { x with det1 := d1, det2 := d2 }) s
      else detectStep mon (value % 65536) false d1 d2 s)

/-- The disagreement of monitor `m` has been held for its window (R320). -/
def disHeld (s : State) (m : Nat) : Bool :=
  let x := monAt s m
  x.dis && (if m ≤ 8 then decide (3 ≤ x.disRun)
    else match x.disSince with | some t => decide (t + (if s.pwr.main then 1000 else 33) ≤ tmpClock s) | none => false)

/-- DISAGREEMENT_WINDOW_CLOSE (R320, R323): a disagreement held for its window fires under index 32 + m. -/
def execDisagreementWindowClose (mon value : Nat) (s : State) : Res :=
  .next (
    let x := monAt s mon
    if !monArmed s mon ∨ !disHeld s mon ∨ x.disAlarm.fired then s
    else tamperFire (32 + mon) mon x.disCls (value % 65536) x.inj
      (modMon mon (fun x => { x with disAlarm := { x.disAlarm with fired := true } }) s))

/-! ### The orders (R24, R180, R329, R330) -/

/-- LOCK_ORDER (R24, R180, R329): ACTIVE and STANDBY become LOCKED. -/
def execLockOrder (s : State) : Res :=
  .next (
    if !s.tmp.lockOrder ∨ !s.pwr.main then s
    else
      let s := modTmp (fun t => { t with lockOrder := false }) s
      if s.pwr.mode = .active ∨ s.pwr.mode = .standby then lanesLock (modeStop .locked s) else s)

/-- The service die zeroizes (R153, R180, R279, R312, R330, R427). -/
def serviceErase (s : State) : State :=
  let s := cerCloseAll 5 s
  let s := modKst (fun k => { k with
    keys := [], vaultKey := zeroBytes 32, intKey := [], misses := [],
    lmks := k.lmks.map fun e => (e.1, { e.2 with
      s0 := { dropLmk e.2.s0 with role := 0, wait := false }, s1 := { dropLmk e.2.s1 with role := 0, wait := false }, loaded := false }) }) s
  let s := lanesErase s
  let s := modEnt (fun e => { e with drbgs := e.drbgs.map (fun _ => Drbg.blank), queue := [] }) s
  let s := modMov (fun m => { m with chans := m.chans.map fun c => (c.1, { c.2 with keyq := [], hold := [], dropped := c.2.dropped || c.2.cur.isSome }) }) s
  modLcy (fun l => { l with rejoin := none }) (modPar (fun p => { p with key := none, keyPrev := none, kemDk := none }) s)

/-- ERASE_ORDER (R24, R330): the service die zeroizes, and ACTIVE, STANDBY and LOCKED become RECOVERY. -/
def execEraseOrder (s : State) : Res :=
  .next (
    if !s.tmp.eraseOrder ∨ !s.pwr.main then s
    else
      let s := serviceErase (modTmp (fun t => { t with eraseOrder := false, lockOrder := false }) s)
      if s.pwr.mode = .active ∨ s.pwr.mode = .standby ∨ s.pwr.mode = .locked then modeStop .recovery s else s)

/-- LOCKED_CLOSING_COMPLETIONS (R24, R476): every accepted descriptor whose operations have ended and that has no completion gets 0x0801. -/
def execLockedClosingCompletions (s : State) : Res :=
  .next (
    if s.pwr.main ∧ (s.pwr.mode = .locked ∨ s.pwr.mode = .recovery ∨ s.dbg.pairFault) then
      (sortBy (fun (a b : Nat × Token) => decide (a.2.accNo < b.2.accNo)) (s.slm.toks.filter fun it => decide (it.2.st ≠ .free))).foldl closeToken s
    else s)

/-- PWRFAIL_HOLD_EXPIRY (R322): PWRFAIL_N asserted for 50 ms with every supply in its window. -/
def execPwrfailHoldExpiry (s : State) : Res :=
  .next (
    match s.pwr.pwrfail with
    | some t =>
      if s.pwr.main ∧ s.pwr.supplies ∧ !s.tmp.lowRearmed ∧ t + 5000000 ≤ s.time.refCount then
        let s := modTmp (fun t => { t with lowRearmed := true }) s
        let x := monAt s 13
        fireMsix 0 13 (auditU (0x0100 + 13) 0 0 (tamperBody 13 (detCode x.det1) (detCode x.det2) 0 s.tmp.applied 0 s) s)
      else s
    | none => s)

/-! ### The unlock (R339, R340) -/

/-- UNLOCK_NEW_CHALLENGE (R317, R340): the draw waits for output of instance 0. -/
def execUnlockNewChallenge (s : State) : Res :=
  .next (regWrote 0 <| if !regsOpen s ∨ s.tmp.busy then s else unlockDraw (modTmp (fun t => { t with chalDue := true }) s))

/-- The unlock ends with a RESULT. -/
def unlockEnd (r : Nat) (s : State) : State := modTmp (fun t => { t with result := r, busy := false, alarmed := false }) s

/-- UNLOCK_GO (R340): the request record is asked for. -/
def execUnlockGo (s : State) : Res :=
  .next (regWrote 0 <|
    if !regsOpen s ∨ s.tmp.busy then s
    else if s.pwr.mode = .recovery then unlockEnd 10 s
    else if s.pwr.mode ≠ .locked then unlockEnd 2 s
    else match hostRead (hifMaster 0 0) 0 s.tmp.unlockPtr 59760 s with
      | (true, s) => modTmp (fun t => { t with result := 1, busy := true, alarmed := false, goTime := appendTime s }) s
      | (false, s) => unlockEnd 9 s)

/-- The challenge of the unlock: every approval names 0xFF, and the challenge is within 300 s of GO (R340, R348). -/
def unlockChal (s : State) (cs : List Nat) : Nat × Bytes :=
  match s.tmp.chalTime with
  | none => (0x0304, [])
  | some t =>
    if !(cs.all fun c => decide (c = 0xFF)) then (0x0304, [])
    else if t + 300000000 < s.tmp.goTime then (0x0305, [])
    else (0, s.tmp.challenge)

/-- RESULT of an unlock's approvals (TMP_UNLOCK_STAT). -/
def unlockAppr (st : Nat) : Nat := match st with | 0x0303 => 4 | 0x0304 => 5 | _ => 6

/-- RESULT of the checks of an unlock record, 0 when they pass (R339, R340 step 4). -/
def unlockCheck (s : State) (r : Bytes) : Nat :=
  if s.tmp.alarmed then 3
  else if s.pwr.mode ≠ .locked then 2
  else if s.tmp.mons.any (fun m => monLive m || m.dis) then 3
  else if leAt r 0 2 ≠ 1 ∨ slice r 0x28 8 ≠ zeroBytes 8 ∨ slice r 8 32 ≠ padTo 32 s.tmp.challenge then 8
  else if leAt r 2 2 ≠ s.tmp.lockSeq then 7
  else if leAt r 4 4 < 59712 then 4
  else if leAt r 4 4 ≠ 59712 then 8
  else
    match apprCheck s (shake256 32 (slice r 0 0x28)) [.custody none, .custody none] (apprList r 0x30 2) (unlockChal s) with
    | 0 => 0
    | st => unlockAppr st

/-- An unbound device goes to ACTIVE with one latch, a bound one to STANDBY (R463, R464); its clusters wake (R462). -/
def modeServe (s : State) : State := wakeFloor (setMode (if s.par.bound then .standby else .active) s)

/-- UNLOCK_COMPLETE (R340, R464): the record as read, or a failed read. -/
def execUnlockComplete (data : List Byte) (fail : Bool) (s : State) : Res :=
  .next (
    let r := padTo 59760 data
    if !s.pwr.main ∨ !s.tmp.busy then s
    else if fail then unlockEnd 9 (chanFail (hifMaster 0 0) 59760 s)
    else
      let s := chanDone (hifMaster 0 0) 0 59760 s
      match unlockCheck s r with
      | 0 =>
        let a := apprList r 0x30 2
        let s := audit 0x0140 0 (leBytes 2 s.tmp.lockSeq ++ leBytes 1 s.aud.ovf ++ leBytes 1 (apOfficer (a.getD 0 [])) ++ leBytes 1 (apOfficer (a.getD 1 []))) s
        let s := modAud (fun x => { x with ovf := 0 }) s
        let s := modTmp (fun t => { t with lock := false, lockOrder := false, cause := 0x3E, applied := if t.erased then 2 else 0 }) (unlockEnd 0 s)
        modeServe (if s.lcy.state = .deployed then grantClose 2 5 s else s)
      | st => unlockEnd st s)

/-- CRES_LOW (R524): the reading of CRES; below 2.4 V for 10 ms with main power, a health report of KIND 12. -/
def execCresLow (below : Bool) (s : State) : Res :=
  .next (
    if !s.pwr.main then s
    else if !below then modPwr (fun p => { p with cresLow := none, cresSaid := false }) s
    else
      let t := s.pwr.cresLow.getD s.time.refCount
      let s := modPwr (fun p => { p with cresLow := some t }) s
      if t + 1000000 ≤ s.time.refCount ∧ !s.pwr.cresSaid then
        healthReport 12 [] (modPwr (fun p => { p with cresSaid := true }) s)
      else s)

end Sys2Proof.Machine
end

