-- ==== Sys2Proof/Machine/Custody.lean ====
section
/-!
DEFINITION. The commands on the manager's rings (R148-R153, R327, R344-R353, R366-R375, R388-R390, R423): vendor firmware's program of each
opcode, run on the core that holds the command, as one step. `fault` says what the host did: 0 nothing, 1 an input read failed, 2 an output
write failed, 4 the body is malformed in a command whose layout the spec does not give, 5 the two runs of an ML-KEM operation differed (R175).
-/

namespace Sys2Proof.Machine

/-! ### The common program (R77, R346, R347, R351) -/

/-- What a management command works on. -/
structure MgmtEnv where
  /-- Physical core. -/
  core : Nat
  /-- Descriptor. -/
  desc : Bytes
  /-- The body before the approvals. -/
  body : Bytes
  /-- OFFICER of each approval, in order. -/
  officers : List Nat

/-- How the command's own work ends. -/
inductive MgmtOut where
  /-- A status. -/
  | fail (st : Nat) (s : State)
  /-- No random output: the command waits (R77 step 5). -/
  | rand
  /-- The log is being read: the command waits (R390). -/
  | wait
  /-- The LMK sets of a VF are loaded first (R115). -/
  | miss (fn : Nat)
  /-- Output, the effects once it is written, and the state. -/
  | done (out : Bytes) (commit : State → State) (s : State)

/-- A management command. -/
structure MgmtCmd where
  op : Nat
  /-- PARAM is right. -/
  param : State → Bytes → Bool
  /-- OUT_LEN the output needs, where the descriptor alone decides it. -/
  outLen : Nat
  /-- Life-cycle states that accept it (R352, R354). -/
  states : List Lcs
  /-- Who signs, from the body; their number does not depend on it. -/
  signers : State → Bytes → List Signer
  /-- Length of the body, none where the spec gives no layout. -/
  bodyLen : Option Nat
  /-- Reserved fields and ranges of the body. -/
  bodyOk : Bytes → Bool
  /-- OUT_LEN the output needs, where the body decides it. -/
  outBody : Bytes → Nat
  /-- It writes a kind C record (R382, R384). -/
  rec_ : Bool
  run : MgmtEnv → State → MgmtOut

/-- PARAM must be 0. -/
def noParam (_ : State) (d : Bytes) : Bool := decide (dParam d = 0)
/-- Two custody approvals. -/
def twoCustody (_ : State) (_ : Bytes) : List Signer := [.custody none, .custody none]
/-- No approval. -/
def noAppr (_ : State) (_ : Bytes) : List Signer := []

/-- Commands that run one at a time, in acceptance order (R346). -/
def serialOps : List Nat := [0x3001, 0x3002, 0x3102, 0x3105, 0x3106, 0x3107, 0x3201, 0x3301, 0x3302, 0x3303]

/-- An earlier command of R346 is not finished. -/
def serialWait (op p : Nat) (s : State) : Bool :=
  decide (op ∈ serialOps) &&
  (match (core s p).tok with
   | none => false
   | some i => s.slm.toks.any fun it => decide (it.2.accNo < (tok s i).accNo) && decide (dOpcode it.2.desc ∈ serialOps) &&
       [TokState.liftNb, .ready, .urgent, .core, .parked, .liftWait].contains it.2.st)

/-- The command's acceptance tick; a core whose token is gone has its low 32 bits in the token information (R202, R351). -/
def acceptTick (s : State) (p : Nat) : Nat :=
  match (core s p).tok with
  | some i => (tok s i).accept
  | none => tick s - (tick s + 2 ^ 32 - leAt (mread (core s p).mem 0xFF4C 4) 0 4) % 2 ^ 32

/-- Step 1 of R77 for a management command (R384). -/
def mgmtRefused (c : MgmtCmd) (s : State) : Bool :=
  if c.op = 0x3402 ∨ c.op = 0x3005 then false else (c.rec_ && logFull s) || (s.par.bound && s.par.pLogFull)

/-- The digest D of a command (R347). -/
def cmdDigest (d body : Bytes) : Bytes :=
  shake256 32 (ascii "EHROS-CMD" ++ leBytes 2 (dOpcode d) ++ leBytes 4 (dParam d) ++ leBytes 4 (dKey d 0) ++ leBytes 4 (dKey d 1) ++
    leBytes 4 (dKey d 2) ++ body)

/-- The command waits for a VF's LMK sets: parked, or in place (R115, R222). -/
def mgmtMiss (p fn : Nat) (s : State) : State :=
  let c := core s p
  if mayPark s p c.ds.length ∧ c.tok.isSome then missEnter fn 0 c.tok p (parkCore p c.pc .parked s)
  else missEnter fn 0 none p (modCore p (fun c => { c with st := .kres }) s)

/-- Step 2 of R77 and the life-cycle state: 0 or a status (R73, R352). -/
def mgmtStatic (c : MgmtCmd) (d : Bytes) (s : State) : Nat :=
  if mgmtRefused c s then 0x0503
  else if dSgIn d ∨ dSgOut d then 0x0108
  else if !c.param s d ∨ slotsUsed d 0 then 0x0109
  else if dOutLen d < c.outLen then 0x0107
  else if !(c.states.contains s.lcy.state) then 0x0306
  else 0

/-- Step 3 on the input (R347, R351 step 1): 0 or a status. -/
def mgmtBody (c : MgmtCmd) (d inp : Bytes) (s : State) : Nat :=
  let n := (c.signers s []).length
  let l := inp.length - 29856 * n
  if inp.length < 29856 * n + c.bodyLen.getD 0 then 0x0303
  else if c.bodyLen.any (fun k => decide (l ≠ k)) ∨ !c.bodyOk (inp.take l) then 0x0106
  else if dOutLen d < c.outBody (inp.take l) then 0x0107
  else 0

/-- Commands that run an ML-KEM operation (R149-R151, R370). -/
def kemOps : List Nat := [0x3020, 0x3101, 0x3102, 0x3103, 0x3104]

/-- The ML-KEM operation of a command, always twinned: both lattice lanes are fenced, or its two runs differ and no lane is found out, by an
injected fault or by `fault` 5. Then no result is delivered and the command ends with 0x0403 (R174, R175, R178). -/
def mgmtKem (op p fault : Nat) (s : State) : Option State :=
  if !kemOps.contains op then none
  else match laneTaker s 28 with
    | none => some s
    | some n =>
      match injTake 0x0B n s with
      | (some (_, full), s) => some (twinFenceAll n true full (twinCount n p s))
      | (none, s) => if fault = 5 then some (twinFenceAll n false true (twinCount n p s)) else none

/-- The work of a command whose approvals are good, from `s1` where their slot is used; a wait goes on from `s`. -/
def mgmtRun (c : MgmtCmd) (e : MgmtEnv) (fault : Nat) (s s1 : State) : State :=
  let p := e.core
  match c.run e s1, mgmtKem c.op p fault s1 with
  | .rand, _ => randWait p (core s p).ds.length s
  | .wait, _ => s
  | .miss fn, _ => mgmtMiss p fn s
  | .done _ _ _, some s => payEnd p 0x0403 0 1 s
  | .fail 0x0205 _, some s => payEnd p 0x0403 0 1 s
  | .fail st s, _ => payEnd p st 0 1 s
  | .done out commit s, none =>
    if bufLen (core s p).outList < out.length then payEnd p 0x0107 0 1 s
    else match payWrite p fault out s with
      | (0, s) => payEnd p 0 out.length 1 (commit s)
      | (st, s) => payEnd p st 0 1 s

/-- A management command on core `p` (R77, R346, R347, R351). -/
def mgmtGo (c : MgmtCmd) (p : Nat) (input : Bytes) (fault : Nat) (s : State) : State :=
  if !payReady c.op s p ∨ serialWait c.op p s ∨ recStall s then s
  else
    let k := core s p
    let d := mread k.mem 0xFF00 64
    if payHalt s p then payFaulted p c.op s
    else match k.kstat.filter fun st => decide (st ≠ 0x0206) with
    | some st => payEnd p st 0 1 (modCore p kresDone s)
    | none =>
      let s := modCore p kresDone s
      let st := mgmtStatic c d s
      if st ≠ 0 then payEnd p st 0 1 s
      else
        let r := payRead p fault s
        let inp := padTo (bufLen k.inList) input
        let n := (c.signers s []).length
        let body := inp.take (inp.length - 29856 * n)
        let st := if r.1 ≠ 0 then r.1 else if fault = 4 ∧ c.bodyLen.isNone then 0x0106 else mgmtBody c d inp s
        if st ≠ 0 then payEnd p st 0 1 r.2
        else
          let as := apprList inp body.length n
          let st := apprCheck s (cmdDigest d body) (c.signers s body) as (slotCheck s (acceptTick s p))
          if st ≠ 0 then payEnd p st 0 1 r.2
          else mgmtRun c ⟨p, d, body, as.map apOfficer⟩ fault r.2 (chalUse as r.2)

/-- The `k`-th approving officer. -/
def eOfficer (e : MgmtEnv) (k : Nat) : Bytes := leBytes 1 (e.officers.getD k 0)

/-! ### Effects for the partner (log entry 31) -/

/-- An officer entry. -/
def effOfficer (i : Nat) (o : Officer) : Bytes := [4] ++ leBytes 1 i ++ officerBytes o

/-! ### Officers (R343-R345) -/

/-- Set an officer entry with its record (R343, R382). -/
def officerSet (e : MgmtEnv) (i role : Nat) (o : Officer) (s : State) : State :=
  payRecord e.core 0x0300 0 (leBytes 2 (dOpcode e.desc) ++ leBytes 1 i ++ leBytes 1 role ++ eOfficer e 0 ++ eOfficer e 1) (effOfficer i o)
    (modLcy (fun l => { l with officers := l.officers.set i o }) s)

/-- OFFICER_ENROL (R344). -/
def officerEnrol : MgmtCmd where
  op := 0x3001
  param := noParam
  outLen := 0
  states := [.deployed, .returned]
  signers _ b := [.custody none, .custody none, .member (leAt b 0 1) (slice b 0x18 64)]
  bodyLen := some 88
  bodyOk b := allZero (slice b 2 6)
  outBody _ := 0
  rec_ := true
  run e s :=
    let i := leAt e.body 0 1
    let role := leAt e.body 1 1
    let pk := slice e.body 0x18 64
    let range := (decide (role = 1) && decide (i < 16)) || (decide (role = 2) && decide (16 ≤ i) && decide (i < 20))
    if (officerAt s i).state ≠ 0 ∨ !range ∨ s.lcy.officers.any (fun o => decide (o.state = 1) && decide (o.pk = pk)) then .fail 0x0109 s
    else .done [] (officerSet e i role ⟨1, role, appendTime s, slice e.body 8 16, pk⟩) s

/-- Active custody officers. -/
def custodians (l : List Officer) : Nat := (l.filter fun o => decide (o.state = 1) && decide (o.role = 1)).length

/-- OFFICER_REVOKE (R345). -/
def officerRevoke : MgmtCmd where
  op := 0x3002
  param := noParam
  outLen := 0
  states := [.deployed, .returned]
  signers _ b := [.custody (some (leAt b 0 1)), .custody (some (leAt b 0 1))]
  bodyLen := some 8
  bodyOk b := allZero (slice b 1 7)
  outBody _ := 0
  rec_ := true
  run e s :=
    let i := leAt e.body 0 1
    let o := officerAt s i
    if o.state = 0 ∨ custodians (s.lcy.officers.set i Officer.empty) < 2 then .fail 0x0109 s
    else .done [] (officerSet e i o.role Officer.empty) s

/-! ### Attestation and rejoin (R353, R370) -/

/-- The firmware slot that runs. -/
def runSlot (s : State) : FwSlot := if s.pwr.slot = 0 then s.pwr.slotA else s.pwr.slotB

/-- The signed part of an attestation report (R353; layout: log entry 46). -/
def attestBody (nonce : Bytes) (s : State) : Bytes :=
  leBytes 1 (lcsCode s.lcy.state) ++ leBytes 1 s.lcy.deployCount ++ padTo 16 s.lcy.ident ++ padTo 32 (runSlot s).digest ++
  shake256 32 (joinBytes (s.lcy.officers.map officerBytes)) ++ nonce

/-- ATTEST (R353). -/
def attest : MgmtCmd where
  op := 0x3005
  param := noParam
  outLen := 0
  states := [.provisioned, .deployed]
  signers := noAppr
  bodyLen := some 32
  bodyOk _ := true
  outBody _ := 0
  rec_ := false
  run e s :=
    let m := attestBody e.body s
    let seed := (devSeed s 2).getD (padTo 96 s.lcy.vidSeed)
    .done (m ++ slhSign slh256s seed m ++ Config.certChain (lcsCode s.lcy.state) s.lcy.deployCount) id s

/-- The key that a rejoin package is wrapped under (R370). -/
def rejoinKek (k nonce ident : Bytes) : Bytes := shake256 32 (k ++ nonce ++ ident ++ ascii "EHROS-REJOIN")

/-- Every occupied LMK slot, wrapped (R370; layout: log entry 47). -/
def rejoinLmks (kek : Bytes) (s : State) : List Bytes :=
  s.kst.lmks.flatMap fun e => [0, 1].filterMap fun n =>
    let x := lmkSlot e.2 n
    x.key.map fun k => leBytes 2 e.1 ++ leBytes 1 n ++ leBytes 1 x.role ++ leBytes 2 x.gen ++ zeroBytes 2 ++ kwWrap kek (padTo 32 k)

/-- The ledger mirror: the segments of R370 step 3, vault version counters and the pair binding as the partner held it (log entry 47). -/
def rejoinLedger (s : State) : Bytes :=
  let segs := ledgerSegs (fun _ => true) s ++
    (s.kst.lmks.flatMap fun e => [0, 1].map fun n => [7] ++ leBytes 2 e.1 ++ leBytes 1 n ++ leBytes 4 (lmkSlot e.2 n).version) ++
    [[8] ++ padTo 16 s.lcy.ident ++ padTo 64 (slhPk slh256s (padTo 96 s.lcy.idSeed)) ++ leBytes 2 s.phl.addr ++ leBytes 1 (1 - s.par.bindHome)]
  joinBytes (segs.map fun b => leBytes 2 b.length ++ b)

/-- A rejoin package without its signature (R370; layout: log entry 47). -/
def rejoinPack (ct kek nonce : Bytes) (lost : Bool) (s : State) : Bytes :=
  let l := rejoinLmks kek s
  let g := if lost then gcmEnc kek nonce [] (rejoinLedger s) else []
  ct ++ leBytes 4 (b2n lost) ++ leBytes 4 l.length ++ joinBytes l ++ leBytes 4 g.length ++ nonce ++ g

/-- REJOIN_SEND (R370). -/
def rejoinSendCmd : MgmtCmd where
  op := 0x3020
  param := noParam
  outLen := 0
  states := [.deployed]
  signers := twoCustody
  bodyLen := some 31424
  bodyOk b := allZero (slice b 0x14 12) && decide (leAt b 0x10 4 < 2)
  outBody _ := 0
  rec_ := false
  run e s :=
    let b := e.body
    if !s.par.bound ∨ slice b 0 16 ≠ padTo 16 s.par.partnerId ∨
        !slhVerify slh256s s.par.partnerPk (ascii "EHROS-REJOIN" ++ b.take 0x660) (slice b 0x660 29792) then .fail 0x0106 s
    else if s.kst.lmks.any (fun l => (l.2.s0.occ || l.2.s1.occ) && !l.2.loaded) then
      match s.kst.lmks.find? fun l => (l.2.s0.occ || l.2.s1.occ) && !l.2.loaded with
      | some l => .miss l.1
      | none => .wait
    else match drbgDraw 0 44 s with
      | none => .rand
      | some (r, s) =>
        let c := kemEncaps 3 (slice b 0x40 1568) (r.take 32)
        let kek := rejoinKek c.2 (slice b 0x20 32) (slice b 0 16)
        .done [] (fun s =>
          let m := rejoinPack c.1 kek (r.drop 32) (decide (leAt b 0x10 4 = 1)) s
          payState e.core [] (rejoinSend s.par.addr (m ++ identSign m s) s)) s

/-! ### LMK ceremonies (R149-R153) -/

/-- Open a ceremony (R149, R151): its number, nonce, encapsulation key and signature go to the host; the signature is over these in their order and
the VF number, 2 bytes, after them (log entry 46). -/
def cerBegin (comp : Bool) (vf : Nat) (e : MgmtEnv) (s : State) : MgmtOut :=
  if vf = 0 ∨ 1024 < vf then .fail 0x0109 s
  else if 8 ≤ s.kst.cers.length then .fail 0x020B s
  else match drbgDraw 0 96 s with
    | none => .rand
    | some (r, s) =>
      let nonce := r.take 32
      let k := kemKeygen 3 (slice r 32 32) (slice r 64 32)
      let m := leBytes 2 s.kst.cerNo ++ nonce ++ k.1
      .done (m ++ identSign (m ++ leBytes 2 vf) s) (fun s =>
        payState e.core [] (modKst (fun x => { x with
          cers := x.cers ++ [⟨x.cerNo, comp, vf, nonce, k.2, tick s, zeroBytes 32, [], (cerFree s).getD 0⟩], cerNo := (x.cerNo + 1) % 65536 }) s)) s

/-- A ceremony's BEGIN command. -/
def cerBeginCmd (op : Nat) (comp : Bool) (vf : Nat) : MgmtCmd where
  op := op
  param := noParam
  outLen := 31394
  states := [.deployed]
  signers := twoCustody
  bodyLen := none
  bodyOk _ := true
  outBody _ := 0
  rec_ := false
  run := cerBegin comp vf

/-- The key of a ceremony's wrapping (R150). -/
def cerKek (c : Cer) (ct : Bytes) : Bytes := shake256 32 (kemDecaps 3 c.dk ct ++ padTo 32 c.nonce ++ leBytes 2 c.fn ++ ascii "EHROS-LMK")

/-- Decapsulate, unwrap and check a key of a ceremony; none for 0x0205 (R150, R151). -/
def cerOpen (c : Cer) (ct wrapped kcv_ : Bytes) : Option Bytes :=
  if ct.length ≠ 1568 ∨ wrapped.length ≠ 40 then none
  else match kwUnwrap (cerKek c ct) wrapped with
    | some k => if kcv 5 k = kcv_ then some k else none
    | none => none

/-- The VF's LMK sets have to be loaded first (R115). -/
def lmkLoadFirst (s : State) (f : Nat) : Bool := fnBound s f && !(lmkOf s f).loaded

/-- The physical slot that a new LMK takes: one that does not hold CURRENT, and an empty one before PREVIOUS's (R152). -/
def installSlot (l : Lmk) : Nat := if l.s0.role = 1 ∨ (l.s0.key.isSome ∧ l.s1.key.isNone) then 1 else 0

/-- Install an LMK in a free slot, with its set and its vault blob; the former CURRENT becomes PREVIOUS. The partner gets both slots (R152). -/
def lmkInstall (op num f : Nat) (lmk nonces : Bytes) (p : Nat) (s : State) : State :=
  let l := lmkOf s f
  let n := installSlot l
  let g := (l.lastGen + 1) % 65536
  let s := modLmk f (fun l => { l with lastGen := g, loaded := true }) s
  let s := vaultWrite f n (nonces.take 12) (modLmkSlot f n (setLmk lmk 1 g) s)
  let old := lmkSlot (lmkOf s f) (1 - n)
  let s := if old.key.isSome then vaultWrite f (1 - n) (nonces.drop 12) (modLmkSlot f (1 - n) (fun x => { x with role := 2 }) s) else s
  let eff := lmkEff s f n (lmkSlot (lmkOf s f) n) ++ (if old.key.isSome then lmkEff s f (1 - n) (lmkSlot (lmkOf s f) (1 - n)) else [])
  cerClose num 1 (payRecord p 0x0201 f (leBytes 2 op ++ leBytes 2 f ++ leBytes 1 n ++ leBytes 2 g ++ leBytes 2 num) eff s)

/-- The end of a FINISH: the checked LMK is installed (R150-R152). -/
def cerFinish (op num f : Nat) (lmk : Bytes) (e : MgmtEnv) (s : State) : MgmtOut :=
  if (lmkOf s f).s0.key.isSome ∧ (lmkOf s f).s1.key.isSome then .fail 0x0204 s
  else match drbgDraw 0 24 s with
    | none => .rand
    | some (r, s) => .done [] (lmkInstall op num f lmk r e.core) s

/-- LMK_KEM_FINISH (R150): ceremony number, ciphertext, wrapped LMK and key check value. -/
def lmkKemFinish (num : Nat) (ct wrapped kcv_ : Bytes) : MgmtCmd where
  op := 0x3102
  param := noParam
  outLen := 0
  states := [.deployed]
  signers := twoCustody
  bodyLen := none
  bodyOk _ := true
  outBody _ := 0
  rec_ := true
  run e s :=
    match cerAt s num with
    | none => .fail 0x0109 s
    | some c =>
      if c.comp then .fail 0x0109 s
      else if lmkLoadFirst s c.fn then .miss c.fn
      else match cerOpen c ct wrapped kcv_ with
        | none => .fail 0x0205 s
        | some k => cerFinish 0x3102 num c.fn k e s

/-- LMK_COMP_ADD (R151): ceremony number, encapsulation, wrapped component, key check value, officer and signature. -/
def lmkCompAdd (num : Nat) (ct wrapped kcv_ : Bytes) (officer : Nat) (sig : Bytes) : MgmtCmd where
  op := 0x3104
  param := noParam
  outLen := 0
  states := [.deployed]
  signers := noAppr
  bodyLen := none
  bodyOk _ := true
  outBody _ := 0
  rec_ := false
  run e s :=
    match cerAt s num with
    | none => .fail 0x0109 s
    | some c =>
      if !c.comp ∨ 8 ≤ c.officers.length then .fail 0x0109 s
      else if c.officers.contains officer then .fail 0x0303 s
      else match signerKey s (.custody none) officer with
        | none => .fail 0x0304 s
        | some pk =>
          if !slhVerify slh256s pk (leBytes 2 num ++ ct ++ wrapped) sig then .fail 0x0304 s
          else match cerOpen c ct wrapped kcv_ with
            | none => .fail 0x0205 s
            | some k => .done [] (fun s =>
                payState e.core [] (modKst (fun x => { x with cers := x.cers.map fun c =>
                  if c.num = num then { c with acc := xorBytes (padTo 32 c.acc) (padTo 32 k), officers := c.officers ++ [officer] } else c }) s)) s

/-- LMK_COMP_FINISH (R151): ceremony number and the final key check value. -/
def lmkCompFinish (num : Nat) (kcv_ : Bytes) : MgmtCmd where
  op := 0x3105
  param := noParam
  outLen := 0
  states := [.deployed]
  signers := twoCustody
  bodyLen := none
  bodyOk _ := true
  outBody _ := 0
  rec_ := true
  run e s :=
    match cerAt s num with
    | none => .fail 0x0109 s
    | some c =>
      if !c.comp then .fail 0x0109 s
      else if lmkLoadFirst s c.fn then .miss c.fn
      else if c.officers.length < 2 then .fail 0x0303 s
      else if kcv 5 c.acc ≠ kcv_ then .fail 0x0205 s
      else cerFinish 0x3105 num c.fn c.acc e s

/-- The record of a change to a VF's LMK slots (R382). -/
def lmkRecord (op f n g : Nat) (eff : Bytes) (p : Nat) (s : State) : State :=
  payRecord p 0x0201 f (leBytes 2 op ++ leBytes 2 f ++ leBytes 1 n ++ leBytes 2 g ++ leBytes 2 0) eff s

/-- LMK_RETIRE (R148): the PREVIOUS slot empties. -/
def lmkRetire (vf : Nat) : MgmtCmd where
  op := 0x3106
  param := noParam
  outLen := 0
  states := [.deployed]
  signers := twoCustody
  bodyLen := none
  bodyOk _ := true
  outBody _ := 0
  rec_ := true
  run e s :=
    if vf = 0 ∨ 1024 < vf then .fail 0x0109 s
    else if lmkLoadFirst s vf then .miss vf
    else match [0, 1].find? fun n => decide ((lmkSlot (lmkOf s vf) n).role = 2) with
      | none => .done [] (lmkRecord 0x3106 vf 0xFF 0 [] e.core) s
      | some n =>
        match drbgDraw 0 12 s with
        | none => .rand
        | some (r, s) => .done [] (fun s =>
            let g := (lmkSlot (lmkOf s vf) n).gen
            let s := slotEmpty vf n r s
            lmkRecord 0x3106 vf n g (lmkEff s vf n (lmkSlot (lmkOf s vf) n)) e.core s) s

/-- LMK_UNBIND (R140, R148). -/
def lmkUnbindCmd (vf : Nat) : MgmtCmd where
  op := 0x3107
  param := noParam
  outLen := 0
  states := [.deployed]
  signers := twoCustody
  bodyLen := none
  bodyOk _ := true
  outBody _ := 0
  rec_ := true
  run e s :=
    if vf = 0 ∨ 1024 < vf then .fail 0x0109 s
    else match drbgDraw 0 24 s with
      | none => .rand
      | some (r, s) => .done [] (fun s => lmkRecord 0x3107 vf 0xFF 0 ([9] ++ leBytes 2 vf) e.core (lmkUnbind vf r s)) s

/-- CEREMONY_ABORT (R153). -/
def ceremonyAbort (num : Nat) : MgmtCmd where
  op := 0x3108
  param := noParam
  outLen := 0
  states := [.deployed]
  signers := noAppr
  bodyLen := none
  bodyOk _ := true
  outBody _ := 0
  rec_ := false
  run e s :=
    match cerAt s num with
    | none => .fail 0x0109 s
    | some _ => .done [] (fun s => payState e.core [] (cerClose num 2 s)) s

/-! ### Keys (R140, R146, R148) -/

/-- A status of `lmkNeed` as an outcome. -/
def needOut (vf st : Nat) (s : State) : MgmtOut := if st = 1 then .miss vf else .fail st s

/-- A key written under a VF's CURRENT LMK, with optional blocks of its own, as a command's work (R134, R136). -/
def wrapFor (vf : Nat) (k : KEnt) (opts : List (Nat × Bytes)) (s : State) (f : Bytes → State → MgmtOut) : MgmtOut :=
  match wrapLmk 0 vf k (opts ++ k.carry) s with
  | .fail st s => .fail st s
  | .rand => .rand
  | .ok b s => f b s

/-- KEY_MARK_SENSITIVE (R140): a VF and the LMK block of its K1 key; the block comes back with a 0X block. -/
def keyMarkSensitive (vf : Nat) (block : Bytes) : MgmtCmd where
  op := 0x3110
  param := noParam
  outLen := 0
  states := [.deployed]
  signers := twoCustody
  bodyLen := none
  bodyOk _ := true
  outBody _ := 0
  rec_ := true
  run e s :=
    if vf = 0 ∨ 1024 < vf then .fail 0x0109 s
    else match lmkNeed s vf with
      | 0 =>
        match lmkUnwrap s vf 0 0 0 block with
        | .bad => .fail 0x0205 s
        | .set _ => .fail 0x020A (lmkUnload vf s)
        | .ok k _ =>
          let id := keyIdent vf k.alg k.mat
          if k.usage ≠ chars2 'K' '1' then .fail 0x0204 s
          else if !(s.kst.sens.contains (vf, id)) ∧ 1024 ≤ s.kst.sens.length then .fail 0x020B s
          else wrapFor vf k [(oid '0' 'X', ascii "01")] s fun b s =>
            .done b (fun s =>
              payRecord e.core 0x0200 vf (keyBody 0x3110 0 k.alg k.usage 0 (curGen s vf)) ([2] ++ leBytes 2 vf ++ padTo 8 id)
                (modKst (fun x => { x with sens := if x.sens.contains (vf, id) then x.sens else x.sens ++ [(vf, id)] }) s)) s
      | st => needOut vf st s

/-- The material of a new key pair: RSA from two primes and e, ECC from drawn bytes; none while the draw or the primes make none (R122). -/
def pairMat (alg p q x : Nat) (s : State) : Option (Bytes × State) :=
  if algRsa alg then (rsaMaterial (rsaLen alg) p q x).map fun m => (m, s)
  else
    let c := curveOf alg
    (drbgDraw 0 (c.len + 8) s).map fun r =>
      let d := ecScalar c r.1
      (beBytes c.len d ++ ecBytes c (ecMul c d (ecG c)), r.2)

/-- The public part of a key pair's material (R122). -/
def pairPub (alg : Nat) (m : Bytes) : Bytes := if algRsa alg then m.take (rsaLen alg + 4) else m.drop (curveOf alg).len

/-- KEY_PAIR_GENERATE (R122, R148): a VF, the key's attributes, and for RSA the primes that the search found and the exponent. -/
def keyPairGenerate (vf alg usage mode expo kvn p q x : Nat) : MgmtCmd where
  op := 0x3111
  param := noParam
  outLen := 0
  states := [.deployed]
  signers := twoCustody
  bodyLen := none
  bodyOk _ := true
  outBody _ := 0
  rec_ := true
  run e s :=
    if vf = 0 ∨ 1024 < vf ∨ !(algRsa alg || algEcc alg) then .fail 0x0109 s
    else if !usageOk usage alg mode 1 ∨ !(['E', 'N', 'S'].any fun c => decide (c.toNat = expo)) then .fail 0x0204 s
    else match lmkNeed s vf with
      | 0 =>
        if (lmkSet s vf).isNone then .fail 0x0206 s
        else match pairMat alg p q x s with
          | none => if algRsa alg then .wait else .rand
          | some (m, s) =>
            wrapFor vf (newKey vf 0 0 1 alg usage mode expo kvn 0xFFFFFFFF 0 false 1 m []) [] s fun b s =>
              let pub := pairPub alg m
              .done (leBytes 2 b.length ++ leBytes 2 pub.length ++ b ++ pub)
                (fun s => payRecord e.core 0x0200 vf (keyBody 0x3111 1 alg usage 0 (curGen s vf)) [] s) s
      | st => needOut vf st s

/-- BUDGET_RELEASE (R146): the ledger slots named. -/
def budgetRelease (slots : List Nat) : MgmtCmd where
  op := 0x3112
  param := noParam
  outLen := 0
  states := [.deployed]
  signers := twoCustody
  bodyLen := none
  bodyOk _ := true
  outBody _ := 0
  rec_ := true
  run e s :=
    if slots.any fun n => decide (4096 ≤ n) then .fail 0x0109 s
    else .done [] (fun s =>
      payRecord e.core 0x0200 0 (keyBody 0x3112 0 0 0 0 0) (slots.flatMap fun n => [10] ++ leBytes 2 n)
        (slots.foldl (fun s n => ledgerDrop n s) s)) s

/-! ### Tamper classes (R325-R327) -/

/-- The signers of the tamper commands, by state (R327). -/
def tamperSigners (s : State) (_ : Bytes) : List Signer := if s.lcy.state = .provisioned then [.prov] else [.custody none, .custody none]

/-- MONITOR of PARAM. -/
def tcMon (d : Bytes) : Nat := bitsOf (dParam d) 4 0
/-- CLASS. -/
def tcCls (d : Bytes) : Nat := bitsOf (dParam d) 9 8
/-- DIS_CLASS. -/
def tcDis (d : Bytes) : Nat := bitsOf (dParam d) 13 12

/-- PARAM of TAMPER_SET_CLASS (R321, R326, R327). -/
def tcParam (s : State) (d : Bytes) : Bool :=
  let m := tcMon d
  decide (dParam d = m + 256 * tcCls d + 4096 * tcDis d) && decide (m < 18) && monUsed s m && decide (tcCls d < 3) && decide (tcDis d < 3) &&
  decide (monFloor m ≤ tcCls d) && decide (1 ≤ tcDis d)

/-- TAMPER_SET_CLASS (R327). -/
def tamperSetClass : MgmtCmd where
  op := 0x3201
  param := tcParam
  outLen := 0
  states := [.provisioned, .deployed]
  signers := tamperSigners
  bodyLen := some 0
  bodyOk _ := true
  outBody _ := 0
  rec_ := true
  run e s :=
    let m := tcMon e.desc
    let c := tcCls e.desc
    let d := tcDis e.desc
    let o := monAt s m
    .done [] (fun s =>
      payRecord e.core 0x0141 0 (leBytes 1 m ++ leBytes 1 o.cls ++ leBytes 1 c ++ leBytes 1 o.disCls ++ leBytes 1 d)
        ([5] ++ leBytes 1 m ++ leBytes 1 c ++ leBytes 1 d) (modMon m (fun x => { x with cls := c, disCls := d }) s)) s

/-- TAMPER_ENC_BURN (R325, R327). -/
def tamperEncBurn : MgmtCmd where
  op := 0x3202
  param _ d := decide (dParam d < 256)
  outLen := 0
  states := [.provisioned]
  signers _ _ := [.prov]
  bodyLen := some 0
  bodyOk _ := true
  outBody _ := 0
  rec_ := true
  run e s :=
    if s.tmp.encBurned then .fail 0x0306 s
    else .done [] (fun s =>
      payRecord e.core 0x0142 0 (leBytes 1 (dParam e.desc)) [] (modTmp (fun t => { t with encUse := dParam e.desc, encBurned := true }) s)) s

/-! ### Programs (R366-R368) -/

/-- BODY of a PROGRAM record (R382). -/
def progBody (op vf slot version : Nat) : Bytes := leBytes 2 op ++ leBytes 2 vf ++ leBytes 1 slot ++ leBytes 4 version

/-- PROG_KEY_SET (R366). -/
def progKeySet : MgmtCmd where
  op := 0x3301
  param := noParam
  outLen := 0
  states := [.deployed]
  signers := twoCustody
  bodyLen := some 72
  bodyOk b := allZero (slice b 2 6)
  outBody _ := 0
  rec_ := true
  run e s :=
    let f := leAt e.body 0 2
    if f = 0 ∨ 1024 < f ∨ !(fnOf s f).created then .fail 0x0109 s
    else .done [] (fun s =>
      payRecord e.core 0x0301 f (progBody 0x3301 f 0 0) ([8] ++ leBytes 2 f ++ slice e.body 8 64)
        (imagesDrop f (modLcy (fun l => { l with
          progKeys := tset [] l.progKeys f (slice e.body 8 64), approvals := l.approvals.filter fun a => decide (a.fn ≠ f) }) s))) s

/-- The approval of a function's slot. -/
def approvalOf (s : State) (f n : Nat) : Option Approval := s.lcy.approvals.find? fun a => decide (a.fn = f) && decide (a.slot = n)

/-- What a tenant signs for a program (R367). -/
def progMsg (b : Bytes) : Bytes := ascii "EHROS-PROG" ++ slice b 0 2 ++ slice b 2 1 ++ slice b 4 4 ++ slice b 8 32

/-- PROG_APPROVE (R367). -/
def progApprove : MgmtCmd where
  op := 0x3302
  param := noParam
  outLen := 0
  states := [.deployed]
  signers := twoCustody
  bodyLen := some 49896
  bodyOk b := allZero (slice b 3 1)
  outBody _ := 0
  rec_ := true
  run e s :=
    let b := e.body
    let f := leAt b 0 2
    let n := leAt b 2 1
    let v := leAt b 4 4
    let pk := tget [] s.lcy.progKeys f
    let old := approvalOf s f n
    if pk.isEmpty ∨ old.any (fun a => decide (v < a.version)) then .fail 0x0109 s
    else if !slhVerify slh256f pk (progMsg b) (slice b 0x28 49856) then .fail 0x0706 s
    else if old.isNone ∧ 1024 ≤ s.lcy.approvals.length then .fail 0x020B s
    else .done [] (fun s =>
      payRecord e.core 0x0301 f (progBody 0x3302 f n v) ([6, 1] ++ leBytes 2 f ++ leBytes 1 n ++ leBytes 4 v ++ slice b 8 32)
        (imagesDrop f (modLcy (fun l => { l with
          approvals := (l.approvals.filter fun a => !(decide (a.fn = f) && decide (a.slot = n))) ++ [⟨f, n, v, slice b 8 32⟩] }) s))) s

/-- PROG_REVOKE (R368): a function and a slot, 0xFF for every slot. -/
def progRevoke (fn slot : Nat) : MgmtCmd where
  op := 0x3303
  param := noParam
  outLen := 0
  states := [.deployed]
  signers := twoCustody
  bodyLen := none
  bodyOk _ := true
  outBody _ := 0
  rec_ := true
  run e s :=
    let n := slot % 256
    .done [] (fun s =>
      payRecord e.core 0x0301 fn (progBody 0x3303 fn n (((approvalOf s fn n).map fun a => a.version).getD 0))
        ([6, 0] ++ leBytes 2 fn ++ leBytes 1 n ++ zeroBytes 36)
        (imagesDrop fn (modLcy (fun l => { l with
          approvals := l.approvals.filter fun a => !(decide (a.fn = fn) && (decide (a.slot = n) || decide (n = 0xFF))) }) s))) s

/-! ### Device time and the log (R375, R386-R390) -/

/-- EPOCH_SET (R375). -/
def epochSet : MgmtCmd where
  op := 0x3501
  param := noParam
  outLen := 0
  states := [.deployed]
  signers := twoCustody
  bodyLen := some 8
  bodyOk _ := true
  outBody _ := 0
  rec_ := true
  run e s :=
    let v := leAt e.body 0 8
    let old := s.time.dev.getD (2 ^ 64 - 1)
    if s.time.dev.any (fun t => decide (v < t)) then .fail 0x0109 s
    else .done [] (fun s =>
      payRecord e.core 0x0003 0 (leBytes 8 old ++ leBytes 8 v ++ eOfficer e 0 ++ eOfficer e 1) ([7] ++ leBytes 8 v)
        (epochPut v s)) s

/-- The log as MRAM and the recorder hold it is at rest: the Shutter open, nothing staged, every record with its VALID (R390). -/
def logRest (s : State) : Bool := s.aud.shutter.isNone && s.aud.staging.isEmpty && s.aud.held.isEmpty

/-- Record `n` as stored. -/
def recAt (s : State) (n : Nat) : Bytes := padTo 64 (tget [] s.aud.mram n)

/-- The nearest anchor at or before record `n`, with fuel (R389). -/
def anchorOf (s : State) : Nat → Nat → Option Nat
  | 0, _ => none
  | k + 1, n => if leAt (recAt s n) 4 2 = 2 then some n else if n = 0 then none else anchorOf s k (n - 1)

/-- Chain value and append time carried over `k` records from record `n` (R379, R380). -/
def logWalk (s : State) : Nat → Nat → Bytes × Nat → Bytes × Nat
  | 0, _, x => x
  | k + 1, n, x => logWalk s k (n + 1) (chainNext x.1 (recAt s n), x.2 + leAt (recAt s (n + 1)) 8 4)

/-- CHAIN_BEFORE and TIME_FROM of a record (R388, R389): forward from the nearest anchor, or from record 0. -/
def logFrom (s : State) (n : Nat) : Bytes × Nat :=
  match anchorOf s (n + 1) n with
  | some a => logWalk s (n - a) a (slice (recAt s a) 0x18 32, leAt (recAt s a) 0x10 8)
  | none =>
    let r := recAt s 0
    if n = 0 ∨ leAt r 4 2 ≠ 1 then logWalk s n 0 (if leAt r 4 2 = 1 then slice r 0x18 32 else zeroBytes 32, s.aud.baseTime)
    else logWalk s (n - 1) 1 (shake256 32 (ascii "EHROS-AUDIT" ++ slice r 0x18 32 ++ r.take 56), s.aud.baseTime + leAt (recAt s 1) 8 4)

/-- The chain value after the first record delivered: the clear record starts the log's chain (R380). -/
def logChain (s : State) : List Nat → Bytes → Bytes
  | [], c => c
  | n :: ns, c =>
    let r := recAt s n
    logChain s ns (if n = 0 ∧ leAt r 4 2 = 1 then shake256 32 (ascii "EHROS-AUDIT" ++ c ++ r.take 56) else chainNext c r)

/-- A record's CRC fails (R377). -/
def crcBad (r : Bytes) : Bool := decide (leAt r 56 4 ≠ (crc32c (r.take 56)).toNat)

/-- The manifest of an export (R388). -/
def exportManifest (s : State) (from_ n bad : Nat) : Bytes :=
  let b := logFrom s from_
  leBytes 4 0x58445541 ++ leBytes 2 1 ++ leBytes 2 bad ++ leBytes 4 from_ ++ leBytes 4 n ++ padTo 16 s.lcy.ident ++ padTo 32 b.1 ++
  padTo 32 (logChain s ((List.range n).map fun i => from_ + i) b.1) ++ leBytes 8 b.2 ++ leBytes 8 (timeField s) ++ leBytes 4 (s.aud.present - 1) ++
  zeroBytes 12

/-- Count and report the records of an export whose CRC fails (R389, R475). -/
def exportBad' (s : State) (ns : List Nat) : State :=
  ns.foldl (fun s n =>
    errReport 0x13 1 0 (n % 65536) 0 n 0 false (modAud (fun a => { a with crcErrors := satAdd 0xFFF a.crcErrors 1 }) s)) s

/-- Records of an export that an armed MRAM or record-check injection meets (R475, R483): those it makes BAD, each reported. -/
def exportInj (ns : List Nat) (s : State) : List Nat × State :=
  let crc := modAud fun a => { a with crcErrors := satAdd 0xFFF a.crcErrors 1 }
  ns.foldl (fun (acc : List Nat × State) n =>
    match injTake 0x12 (n % 65536) acc.2 with
    | (some (0, _), t) => (acc.1, errCorrected 0x12 t)
    | (some _, t) => (acc.1, errReport 0x12 1 0 (n % 65536) 0 n 0 true (crc t))
    | (none, t) => match injTake 0x13 (n % 65536) t with
      | (some _, t) => (acc.1 ++ [n], errReport 0x13 1 0 (n % 65536) 0 n 0 true (crc t))
      | (none, t) => (acc.1, t)) ([], s)

/-- AUDIT_EXPORT (R388, R389): `limit` records are delivered before the Shutter's 50 ms end. -/
def auditExport (limit : Nat) : MgmtCmd where
  op := 0x3401
  param := noParam
  outLen := 0
  states := [.deployed]
  signers _ _ := [.audit]
  bodyLen := some 16
  bodyOk b := decide (1 ≤ leAt b 4 4) && decide (leAt b 4 4 ≤ 65536) && allZero (slice b 8 8)
  outBody b := 128 + 64 * leAt b 4 4 + 49856
  rec_ := true
  run e s :=
    let from_ := leAt e.body 0 4
    if s.aud.next ≤ from_ then .fail 0x0109 s
    else if !logRest s then .wait
    else
      let n := min limit (min (leAt e.body 4 4) (s.aud.present - from_))
      let ns := (List.range n).map fun i => from_ + i
      let bad := ns.filter fun i => crcBad (recAt s i)
      let s := exportBad' (modAud (fun a => { a with shutter := some s.time.refCount }) s) bad
      let inj := exportInj (ns.filter fun i => !bad.contains i) s
      let s := inj.2
      let m := exportManifest s from_ n (bad.length + inj.1.length)
      let rs := joinBytes (ns.map (recAt s))
      let sig := match devSeed s 4 with | some seed => slhSign slh256f seed (ascii "EHROS-AUDX" ++ m ++ rs) | none => []
      .done (m ++ rs ++ sig) (fun s => payRecord e.core 0x0006 0 (leBytes 4 from_ ++ leBytes 4 n ++ eOfficer e 0) [] s) s

/-- Start a new log with LOG_CLEAR as record 0 (R380, R382, R390). -/
def logClear (e : MgmtEnv) (s : State) : State :=
  let a := s.aud
  let t := max a.lastTime (appendTime s)
  let b := recBytes 0 1 0 (min 0xFFFFFFFF (t - a.lastTime)) 0
    (leBytes 2 a.logNo ++ leBytes 4 (a.present - 1) ++ eOfficer e 0 ++ eOfficer e 1 ++ padTo 32 a.head)
  let chain := shake256 32 (ascii "EHROS-AUDIT" ++ padTo 32 a.head ++ b.take 56)
  let s := modAud (fun a => { a with
    logNo := (a.logNo + 1) % 65536, next := 1, present := 0, chain := chain, held := [⟨0, b, chain, t⟩], lastTime := t, baseTime := t,
    warned := false, fullSaid := false, mram := mramBody a.mram 0 b }) s
  let s := match (core s e.core).tok with
    | some i => commandState i [] b (modTok i (fun t => { t with recNo := some 0 }) s)
    | none => stateMirror 0 (stateRef 0xFFFF 0 0) [] b s
  bufCopy s

/-- AUDIT_CLEAR (R390). -/
def auditClear : MgmtCmd where
  op := 0x3402
  param := noParam
  outLen := 0
  states := [.deployed]
  signers := twoCustody
  bodyLen := some 40
  bodyOk b := allZero (slice b 4 4)
  outBody _ := 0
  rec_ := true
  run e s :=
    if !logRest s then .wait
    else if leAt e.body 0 4 + 1 ≠ s.aud.present ∨ slice e.body 8 32 ≠ padTo 32 s.aud.head then .fail 0x0109 s
    else .done [] (logClear e) s

/-! ### The pair binding (R423) -/

/-- PAIR_BIND (R423): a device in ACTIVE holds its home latch from then on (log entry 48). -/
def pairBind : MgmtCmd where
  op := 0x3601
  param := noParam
  outLen := 0
  states := [.deployed]
  signers := twoCustody
  bodyLen := some 96
  bodyOk b := decide (leAt b 0x50 2 < 4096) && allZero (slice b 0x53 13)
  outBody _ := 0
  rec_ := false
  run e s :=
    let b := e.body
    let h := leAt b 0x52 1
    if s.par.bound ∨ 1 < h then .fail 0x0109 s
    else .done [] (fun s =>
      let s := modPar (fun p => { p with
        bound := true, partnerId := slice b 0 16, partnerPk := slice b 16 64, addr := leAt b 0x50 2, bindHome := h, home := h, homeChecked := false,
        lastAny := none, aloneSince := s.time.refCount }) s
      let s := if s.pwr.mode = .active then modLatch h (fun l => { l with holder := true, fenced := false, pCur := false, echoed := true }) s else s
      payState e.core [] (svcUpdate s)) s

/-- PAIR_UNBIND (R423): not while the partner is eligible and this device holds a latch. -/
def pairUnbind : MgmtCmd where
  op := 0x3602
  param := noParam
  outLen := 0
  states := [.deployed]
  signers := twoCustody
  bodyLen := some 0
  bodyOk _ := true
  outBody _ := 0
  rec_ := false
  run e s :=
    if s.par.pElig ∧ latchCount s ≠ 0 then .fail 0x0109 s
    else .done [] (fun s =>
      let s := payState e.core [] s
      let s := modPar (fun p => { Par.start with
        aloneWait := p.aloneWait, mirrorTmo := p.mirrorTmo, drain := p.drain, load1 := p.load1 }) s
      let s := mirrorSettle s
      if s.pwr.mode = .standby then setMode .active s else svcUpdate s) s

/-! ### The rows -/

/-- OFFICER_ENROL (R344). -/
def execOfficerEnrol (core : Nat) (input : List Byte) (fault : Nat) (s : State) : Res := .next (mgmtGo officerEnrol core input fault s)
/-- OFFICER_REVOKE (R345). -/
def execOfficerRevoke (core : Nat) (input : List Byte) (fault : Nat) (s : State) : Res := .next (mgmtGo officerRevoke core input fault s)
/-- ATTEST (R353). -/
def execAttest (core : Nat) (input : List Byte) (fault : Nat) (s : State) : Res := .next (mgmtGo attest core input fault s)
/-- REJOIN_SEND (R370). -/
def execRejoinSend (core : Nat) (input : List Byte) (fault : Nat) (s : State) : Res := .next (mgmtGo rejoinSendCmd core input fault s)
/-- LMK_KEM_BEGIN (R149). -/
def execLmkKemBegin (core : Nat) (input : List Byte) (vf fault : Nat) (s : State) : Res :=
  .next (mgmtGo (cerBeginCmd 0x3101 false vf) core input fault s)
/-- LMK_KEM_FINISH (R150, R152). -/
def execLmkKemFinish (core : Nat) (input : List Byte) (num : Nat) (ct wrapped kcv : List Byte) (fault : Nat) (s : State) : Res :=
  .next (mgmtGo (lmkKemFinish num ct wrapped kcv) core input fault s)
/-- LMK_COMP_BEGIN (R151). -/
def execLmkCompBegin (core : Nat) (input : List Byte) (vf fault : Nat) (s : State) : Res :=
  .next (mgmtGo (cerBeginCmd 0x3103 true vf) core input fault s)
/-- LMK_COMP_ADD (R151). -/
def execLmkCompAdd (core : Nat) (input : List Byte) (num : Nat) (ct wrapped kcv : List Byte) (officer : Nat) (sig : List Byte) (fault : Nat)
    (s : State) : Res :=
  .next (mgmtGo (lmkCompAdd num ct wrapped kcv officer sig) core input fault s)
/-- LMK_COMP_FINISH (R151, R152). -/
def execLmkCompFinish (core : Nat) (input : List Byte) (num : Nat) (kcv : List Byte) (fault : Nat) (s : State) : Res :=
  .next (mgmtGo (lmkCompFinish num kcv) core input fault s)
/-- LMK_RETIRE (R148). -/
def execLmkRetire (core : Nat) (input : List Byte) (vf fault : Nat) (s : State) : Res := .next (mgmtGo (lmkRetire vf) core input fault s)
/-- LMK_UNBIND (R148). -/
def execLmkUnbind (core : Nat) (input : List Byte) (vf fault : Nat) (s : State) : Res := .next (mgmtGo (lmkUnbindCmd vf) core input fault s)
/-- CEREMONY_ABORT (R153). -/
def execCeremonyAbort (core : Nat) (input : List Byte) (num fault : Nat) (s : State) : Res :=
  .next (mgmtGo (ceremonyAbort num) core input fault s)
/-- KEY_MARK_SENSITIVE (R140). -/
def execKeyMarkSensitive (core : Nat) (input : List Byte) (vf : Nat) (block : List Byte) (fault : Nat) (s : State) : Res :=
  .next (mgmtGo (keyMarkSensitive vf block) core input fault s)
/-- KEY_PAIR_GENERATE (R148). -/
def execKeyPairGenerate (core : Nat) (input : List Byte) (vf alg usage mode expo kvn p q e fault : Nat) (s : State) : Res :=
  .next (mgmtGo (keyPairGenerate vf alg usage mode expo kvn p q e) core input fault s)
/-- BUDGET_RELEASE (R146). -/
def execBudgetRelease (core : Nat) (input : List Byte) (slots : List Nat) (fault : Nat) (s : State) : Res :=
  .next (mgmtGo (budgetRelease slots) core input fault s)
/-- TAMPER_SET_CLASS (R327). -/
def execTamperSetClass (core : Nat) (input : List Byte) (fault : Nat) (s : State) : Res := .next (mgmtGo tamperSetClass core input fault s)
/-- TAMPER_ENC_BURN (R327). -/
def execTamperEncBurn (core : Nat) (input : List Byte) (fault : Nat) (s : State) : Res := .next (mgmtGo tamperEncBurn core input fault s)
/-- PROG_KEY_SET (R366). -/
def execProgKeySet (core : Nat) (input : List Byte) (fault : Nat) (s : State) : Res := .next (mgmtGo progKeySet core input fault s)
/-- PROG_APPROVE (R367). -/
def execProgApprove (core : Nat) (input : List Byte) (fault : Nat) (s : State) : Res := .next (mgmtGo progApprove core input fault s)
/-- PROG_REVOKE (R368). -/
def execProgRevoke (core : Nat) (input : List Byte) (fn slot fault : Nat) (s : State) : Res :=
  .next (mgmtGo (progRevoke fn slot) core input fault s)
/-- AUDIT_EXPORT (R388). -/
def execAuditExport (core : Nat) (input : List Byte) (limit fault : Nat) (s : State) : Res := .next (mgmtGo (auditExport limit) core input fault s)
/-- AUDIT_CLEAR (R390). -/
def execAuditClear (core : Nat) (input : List Byte) (fault : Nat) (s : State) : Res := .next (mgmtGo auditClear core input fault s)
/-- EPOCH_SET (R375). -/
def execEpochSet (core : Nat) (input : List Byte) (fault : Nat) (s : State) : Res := .next (mgmtGo epochSet core input fault s)
/-- PAIR_BIND (R423). -/
def execPairBind (core : Nat) (input : List Byte) (fault : Nat) (s : State) : Res := .next (mgmtGo pairBind core input fault s)
/-- PAIR_UNBIND (R423). -/
def execPairUnbind (core : Nat) (input : List Byte) (fault : Nat) (s : State) : Res := .next (mgmtGo pairUnbind core input fault s)

end Sys2Proof.Machine
end

