-- ==== Sys2Proof/Machine/KeyStore.lean ====
section
/-!
DEFINITION. The key store's commands (R113-R133, R142-R146): the miss path, the vault load, directory writes, and KST_CTL.
-/

namespace Sys2Proof.Machine

/-! ### Misses (R127-R130) -/

/-- Entries of the miss table in use, at most 1,024 (R127). -/
def missTable (s : State) : Nat := (s.kst.misses.filter fun m => decide (m.stage ≠ .wait)).length

/-- The directory entry of a miss is asked for: its waiters' resolutions have missed at check 5 (R117, R119, R127). -/
def missDirRead (m : Miss) (s : State) : State :=
  let s := m.cores.foldl (fun s w => missSeen w.1 s) (m.toks.foldl (fun s w => missSeenTok m.fn w.1 s) s)
  keyAsk m.id (modMiss m.id (fun m => { m with stage := .dir, start := some (m.start.getD (tick s)) }) s)

/-- Start a miss: load the LMK sets first where they are not loaded, else read the directory entry (R115, R127). -/
def missBegin (m : Miss) (s : State) : State :=
  if (lmkOf s m.fn).loaded then (if m.index = 0 then missEnd m.id none s else missDirRead m s)
  else
    let s := modMiss m.id (fun m => { m with stage := .vault, start := some (m.start.getD (tick s)) }) s
    if (lmkOf s m.fn).s0.wait ∨ (lmkOf s m.fn).s1.wait then s
    else match vaultReads m.fn s with
      | (true, s) => s
      | (false, s) => missEnd m.id (some 0x0209) (vaultForget m.fn s)

/-- The channel in whose queue the fetch of miss `id` waits. -/
def queueChan (s : State) (id : Nat) : Option Nat :=
  (s.mov.chans.find? fun c => c.2.keyq.any fun k => decide (k.1 = id)).map fun c => c.1

/-- KEY_MISS_START (R115, R127): a waiting miss takes a miss table entry and asks for its LMK sets or its directory entry; one whose fetch waits
for a tag asks again (R270). -/
def execKeyMissStart (id : Nat) (s : State) : Res :=
  .next (
    match missAt s id with
    | some m =>
      if !s.pwr.main then s
      else if m.stage = .wait then (if missTable s < 1024 then missBegin m s else s)
      else match queueChan s id with
        | some n => chanGo n s
        | none => s
    | none => s)

/-- Ask for the key block that a directory entry names (R117, R127). -/
def missBlockRead (m : Miss) (ptr len : Nat) (s : State) : State :=
  keyAsk m.id (modMiss m.id (fun m => { m with stage := .block, ptr := ptr, len := len }) s)

/-- A directory entry reaches its miss: GEN, then KIND, then the reserved fields and BLOCK_LEN (R117, R125, R129). -/
def missDirGot (id : Nat) (data : Bytes) (s : State) : State :=
  match (missAt s id).filter fun m => decide (m.stage = .dir) && !missLate s m with
  | none => s
  | some m =>
    let kl := leAt data 11 1
    let len := leAt data 8 2
    if leAt data 10 1 ≠ m.gen then missEnd id (some 0x0202) s
    else if kl % 16 ≠ m.kind then missEnd id (some 0x0203) s
    else if kl / 16 ≠ 0 ∨ leAt data 12 4 ≠ 0 ∨ len < 16 ∨ 2048 < len then missEnd id (some 0x0205) s
    else missBlockRead m (leAt data 0 8) len s

/-- KEY_DIR_ARRIVAL (R117, R125, R129): the channel's read ends, and the entry reaches its miss. Data stamped after the expiry edge, or of a miss
that has ended, is discarded (R128). -/
def execKeyDirArrival (id : Nat) (data : List Byte) (s : State) : Res :=
  .next (
    match s.pwr.main, fetchChan s id with
    | true, some n => chanGo n (missDirGot id data (keyFree n true s))
    | _, _ => s)

/-- The last byte of a key block reaches its miss; a set that fails its check is loaded again for the next resolution (R123, R128, R129, R258). -/
def missBlockGot (id : Nat) (data : Bytes) (s : State) : State :=
  match (missAt s id).filter fun m => decide (m.stage = .block) && !missLate s m with
  | none => s
  | some m =>
    let s := if missEdge s m < s.time.refCount + 100 then modFn m.fn (fun x => { x with races := satAdd 0xFFFFFFFF x.races 1 }) s else s
    let s := setPass m.fn 1 (setPass m.fn 0 s)
    match lmkUnwrap s m.fn m.index m.gen m.kind (ksTaken (ksIngress (padTo m.len data))) with
    | .ok k n => modMiss id (fun m => { m with stage := .install, key := some k, uses := n }) s
    | .bad => missEnd id (some 0x0205) s
    | .set n => missEnd id (some 0x020A) (lmkUnload m.fn (errReport 0x0A 1 2 (lmkEntry m.fn n 0) m.fn (lmkEntry m.fn n 0) 0 true s))

/-- KEY_BLOCK_ARRIVAL (R128, R129, R257, R258): the last byte of the block. Data stamped after the expiry edge is discarded. -/
def execKeyBlockArrival (id : Nat) (data : List Byte) (s : State) : Res :=
  .next (
    match s.pwr.main, fetchChan s id with
    | true, some n => chanGo n (missBlockGot id data (keyFree n true s))
    | _, _ => s)

/-- The entries that an install replaces: same function and INDEX, not doomed yet (R125). -/
def keyOlds (s : State) (m : Miss) : List Nat :=
  (s.kst.keys.filter fun e => decide (e.2.func = m.fn) && decide (e.2.index = m.index)).map fun e => e.1

/-- KEY_INSTALL (R125, R127, R131): the unwrapped key takes entries, an older one of its INDEX goes, and every waiter goes on. -/
def execKeyInstall (id : Nat) (s : State) : Res :=
  .next (
    match missAt s id with
    | none => s
    | some m =>
      match s.pwr.main && decide (m.stage = .install), m.key with
      | true, some k =>
        match keyInstall k m.uses ((keyOlds s m).foldl (fun s i => keyRetire i s) s) with
        | some s => missEnd id none s
        | none => missEnd id (some 0x020B) s
      | _, _ => s)

/-- Other misses wait for the vault blobs that miss `m` waits for. -/
def vaultShared (s : State) (m : Miss) : Bool :=
  s.kst.misses.any fun x => decide (x.fn = m.fn) && decide (x.stage = .vault) && decide (x.id ≠ m.id)

/-- KEY_FETCH_TIMEOUT (R128, R257): 80 ns after the expiry edge a miss still without its block ends with 0x0402; a read still out is discarded
when it arrives. -/
def execKeyFetchTimeout (id : Nat) (s : State) : Res :=
  .next (
    match missAt s id with
    | none => s
    | some m =>
      if s.pwr.main ∧ m.start.isSome ∧ m.stage ≠ .install ∧ missEdge s m + 8 ≤ s.time.refCount then
        missEnd id (some 0x0402) (if m.stage = .vault ∧ !vaultShared s m then vaultForget m.fn s else s)
      else s)

/-- The misses of function `f` that wait for its vault blobs and are not past their expiry edges. -/
def vaultMisses (s : State) (f : Nat) : List Miss :=
  s.kst.misses.filter fun m => decide (m.fn = f) && decide (m.stage = .vault) && !missLate s m

/-- KEY_FETCH_FAIL (R129): a read of the miss still fails after MOV_RETRY retries. A vault read fails for every miss that waits for it. -/
def execKeyFetchFail (id : Nat) (s : State) : Res :=
  .next (
    if !s.pwr.main then s
    else match fetchChan s id, (missAt s id).filter fun m => !missLate s m with
      | some n, m =>
        let s := keyFree n false s
        chanGo n (if m.any fun m => decide (m.stage = .dir) || decide (m.stage = .block) then missEnd id (some 0x0209) s else s)
      | none, some m =>
        if m.stage = .vault then
          (vaultMisses s m.fn).foldl (fun s m => missEnd m.id (some 0x0209) s) (chanFail (vaultMaster m.fn) 128 (vaultForget m.fn s))
        else s
      | none, none => s)

/-! ### The vault (R115) -/

/-- The loaded sets of a function are known: its misses that waited for them go on, or end with 0x0206 (R115). -/
def vaultLoaded (f : Nat) (s : State) : State :=
  let s := modLmk f (fun l => { l with loaded := true }) s
  let empty := (lmkOf s f).s0.key.isNone && (lmkOf s f).s1.key.isNone
  (vaultMisses s f).foldl
    (fun s m => if empty then missEnd m.id (some 0x0206) s else if m.index = 0 then missEnd m.id none s else missDirRead m s) s

/-- A vault blob's effect on its slot: a good one gives the LMK, whose set is derived; any other leaves it empty (R113-R115). -/
def blobTaken (why : Nat) (key : Option Bytes) (data : Bytes) (x : LmkSlot) : LmkSlot :=
  match if why = 0 ∧ leAt data 3 1 ≠ 0 then key else none with
  | some k => { setLmk k (leAt data 3 1) (leAt data 8 2) x with wait := false }
  | none => { dropLmk x with wait := false, role := 0 }

/-- VAULT_BLOB_ARRIVAL (R114, R115): a good blob gives its slot's LMK; any other leaves it empty, with a VAULT_BLOB_REFUSED record. Data that no
miss within its timeout waits for is discarded (R128). -/
def execVaultBlobArrival (fn slot : Nat) (data : List Byte) (s : State) : Res :=
  .next (
    if !s.pwr.main ∨ 1 < slot ∨ !(lmkSlot (lmkOf s fn) slot).wait ∨ (vaultMisses s fn).isEmpty then s
    else
      let why := blobFault s fn slot data
      let key := if why = 0 then gcmDec s.kst.vaultKey (slice data 16 12) (slice data 0 32) (slice data 32 48) else none
      let s := modLmkSlot fn slot (blobTaken why key data) (chanDone (vaultMaster fn) 0 128 s)
      let s := if why = 0 then s else auditU 0x0210 0 0 (leBytes 2 fn ++ leBytes 1 slot ++ leBytes 1 why) s
      if (lmkOf s fn).s0.wait ∨ (lmkOf s fn).s1.wait then s else vaultLoaded fn s)

/-! ### Registers (R119, R120) -/

/-- Write KST_DIR_BASE (register 0) or KST_DIR_CTL (1) of a VF: its working keys go, and its misses in flight start again (R119). -/
def keyDirSet (fn reg value : Nat) (s : State) : State :=
  let s := modFn fn (fun x =>
    if reg = 0 then { x with dirBase := value % 2 ^ 64 / 4096 * 4096 } else { x with dirSize := value % 2 ^ 21 }) s
  let s := modKst (fun k => { k with
    misses := k.misses.zipIdx.map fun x =>
      if x.1.fn = fn ∧ x.1.stage ≠ .vault ∧ x.1.stage ≠ .wait then
        { x.1 with id := k.missNo + x.2, stage := .wait, key := none, uses := none } else x.1
    missNo := k.missNo + k.misses.length }) s
  fnKeysDrop fn s

/-- KEY_DIR_WRITE (R119, R500, R501): register 0 is KST_DIR_BASE, 1 KST_DIR_CTL. The function's working keys go, and its misses in flight
start again on the new directory (log entry 41). -/
def execKeyDirWrite (fn reg value : Nat) (s : State) : Res :=
  .next (
    if !pageOpen s fn ∨ fn = 0 ∨ (fnOf s fn).rst.isSome ∨ (reg ≠ 0 ∧ 1048576 < value % 2 ^ 21) then s
    else regWrote fn (keyDirSet fn reg value s))

/-- KEY_SLOT_DROP (R132, R169): the lane drops the expanded-key slots built from an invalidated index. -/
def execKeySlotDrop (lane index : Nat) (s : State) : Res :=
  .next (
    if s.pwr.main ∧ (laneOf s lane).drops.contains index then
      modLane lane (fun l => { l with
        drops := l.drops.filter (fun i => decide (i ≠ index)), slots := l.slots.filter fun i => decide (i.index ≠ index) }) s
    else s)

/-- KST_CTL_WRITE (R120): FETCH_TIMEOUT, at least 10; FETCH_RSV, refused while channels 56-62 are set up for another use. -/
def execKstCtlWrite (value : Nat) (s : State) : Res :=
  .next (regWrote 0 <|
    if !regsOpen s then s
    else
      let refused := value.testBit 0 && !s.kst.fetchRsv && decide (bitsOf s.mov.ded 14 8 ≠ 0)
      let s := modKst (fun k => { k with fetchTimeout := max 10 (bitsOf value 23 8), fetchRsv := value.testBit 0 && !refused }) s
      if refused then modMov (fun m => { m with conflict := true }) s else s)

/-- MISS_WINDOW_END (R119): a window of 1,000 ticks has ended. -/
def execMissWindowEnd (fn : Nat) (s : State) : Res :=
  .next (
    let w := tick s / 1000 * 1000
    if s.pwr.main ∧ (fnOf s fn).missStart < w then
      modFn fn (fun x => { x with missStart := w, missCount := 0, missFired := false }) s
    else s)

/-- BUDGET_SLOT_EXPIRY (R146): one minute of device time after its expiry has passed, a slot is freed. -/
def execBudgetSlotExpiry (slot : Nat) (s : State) : Res :=
  .next (
    match ledgerAt s slot, s.time.dev with
    | some b, some t => if b.expiry ≠ 0xFFFFFFFF ∧ 60000000 * (b.expiry + 1) ≤ t then ledgerDrop slot s else s
    | _, _ => s)

end Sys2Proof.Machine
end

