-- ==== Sys2Proof/Machine/Lifecycle.lean ====
section
/-!
DEFINITION. The life cycle: challenges, request records, transitions and their OTP burns, debug grants, rejoin, injection requests
(R350, R354-R365, R369-R372, R483, R484).
-/

namespace Sys2Proof.Machine

/-! ### Challenges (R350) -/

/-- CHAL_ISSUE (R350): the write selects the slot and draws its challenge; while no random output exists it has no effect. -/
def execChalIssue (slot : Nat) (s : State) : Res :=
  .next (regWrote 0 <|
    if !regsAnswer s ∨ 16 ≤ slot then s
    else match drbgDraw 0 32 s with
      | some (b, s) => modLcy (fun l => { l with chalSlot := slot, chals := l.chals.set slot ⟨1, b, tick s⟩ }) s
      | none => s)

/-- CHALLENGE_EXPIRY (R350): at the end of the tick 300,000,000 after the issue. -/
def execChallengeExpiry (slot : Nat) (s : State) : Res :=
  .next (
    let c := s.lcy.chals.getD slot Chal.empty
    if s.pwr.main ∧ c.state = 1 ∧ c.tick + 300000000 < tick s then
      modLcy (fun l => { l with chals := l.chals.modify slot fun c => { c with state := 3 } }) s
    else s)

/-! ### OTP records (R359-R361) -/

/-- INTENT of an operation with a token index (R359). -/
def otpIntent (op index : Nat) : Nat := 0x5A * 2 ^ 24 + index * 2 ^ 16 + (255 - op % 256) * 2 ^ 8 + op % 256
/-- TARGET of a state code (R359). -/
def otpTarget (code : Nat) : Nat := 0xA55A * 2 ^ 16 + (255 - code) * 2 ^ 8 + code
/-- DONE (R359). -/
def otpDone : Nat := 0x69966996

/-- INTENT is complete: its marker and its complement halves (R359). -/
def intentOk (r : OtpRec) : Bool :=
  decide (r.intent / 2 ^ 24 = 0x5A) && decide (bitsOf r.intent 15 8 + bitsOf r.intent 7 0 = 255)

/-- The state an operation leads to, by OP[7:0] (R356). -/
def opTarget : Nat → Lcs
  | 0x11 => .provisioned
  | 0x12 => .deployed
  | 0x13 => .returned
  | 0x14 => .deployed
  | _ => .retired

/-- Records used, up to the first whose INTENT is 0 (R361). -/
def recsUsed (rs : List OtpRec) : Nat := (rs.takeWhile fun r => decide (r.intent ≠ 0)).length

/-- The complete records. -/
def recsDone (rs : List OtpRec) : List OtpRec := (rs.take (recsUsed rs)).filter intentOk

/-- Transitions done of an operation. -/
def recsCount (rs : List OtpRec) (op : Nat) : Nat := ((recsDone rs).filter fun r => decide (bitsOf r.intent 7 0 = op)).length

/-- The state that the records give (R361). -/
def recsState (rs : List OtpRec) : Lcs :=
  match (recsDone rs).getLast? with
  | some r => opTarget (bitsOf r.intent 7 0)
  | none => .blank

/-- The life-cycle state and its counts follow the records (R361, LCY_STATE). -/
def lcsScan (l : Lcy) : Lcy :=
  { l with
    state := recsState l.recs, returns := recsCount l.recs 0x13, redeploys := recsCount l.recs 0x14,
    deployCount := recsCount l.recs 0x12 + recsCount l.recs 0x14 }

/-- The PROVISION payload is burned from its staged copy, which is then zeroized (R359, R360 step 3). -/
def payloadBurn (l : Lcy) : Lcy :=
  match l.staged with
  | none => l
  | some b =>
    { l with
      otpHalf := slice b 0 32, vidSeed := slice b 32 96, idSeed := slice b 128 96, provKey := slice b 224 32,
      tDig := (List.range 9).map (fun i => slice b (256 + 32 * i) 32), payloadChk := slice b 544 4, staged := none }

/-- Steps 3 to 5 of R360 on record `k`. -/
def recFinish (k : Nat) (l : Lcy) : Lcy :=
  let r := l.recs.getD k ⟨0, 0, 0⟩
  let op := bitsOf r.intent 7 0
  let l := if op = 0x11 then payloadBurn l else l
  { l with recs := l.recs.set k { r with target := otpTarget (lcsCode (opTarget op)), done := otpDone } }

/-- A new state's roots become usable: in DEPLOYED the device root and its vault key (R109, R354, R360 step 5). -/
def rootsIf (s : State) : State :=
  if s.lcy.state = .deployed then modKst (fun k => { k with vaultKey := rootVaultKey s }) s else s

/-! ### Request records (R357, R358) -/

/-- A request record's fields. -/
structure Req where
  op : Nat
  chal : Nat
  count : Nat
  body : Bytes
  apprs : List Bytes
  /-- The digest D (R357). -/
  dig : Bytes
deriving DecidableEq, Repr

/-- BODY_LEN of a record. -/
def reqBodyLen (b : Bytes) : Nat := leAt b 4 4
/-- BODY_LEN is in range (R357). -/
def reqLenOk (b : Bytes) : Bool := decide (reqBodyLen b ≤ 65536) && decide (reqBodyLen b % 8 = 0)
/-- Bytes of a record. -/
def lreqLen (b : Bytes) : Nat := 8 + reqBodyLen b + 29856 * leAt b 3 1

/-- The record in the bytes read. -/
def reqOf (data : Bytes) : Req :=
  let b := padTo (lreqLen (padTo 8 data)) data
  let n := reqBodyLen b
  ⟨leAt b 0 2, leAt b 2 1, leAt b 3 1, slice b 8 n, apprList b (8 + n) (leAt b 3 1), shake256 32 (ascii "EHROS-CMD" ++ b.take (8 + n))⟩

/-- End a request with a RESULT. -/
def reqEnd (r : Nat) (s : State) : State := modLcy (fun l => { l with reqResult := r }) s

/-- RESULT of an approval check (R351, LCY_REQ_STAT). -/
def reqAppr : Nat → Nat
  | 0x0303 => 6
  | 0x0304 => 7
  | _ => 8

/-- Steps 2 to 6 of R351 for a request: every approval names the record's slot, at the tick of GO; a request that takes no approval names
no slot. 0 or a RESULT. -/
def reqCheck (s : State) (q : Req) (gs : List Signer) : Nat :=
  if q.count < gs.length then 6
  else if gs.isEmpty then 0
  else match apprCheck s q.dig gs q.apprs (fun cs => slotCheck s (tick s) (q.chal :: cs)) with
    | 0 => 0
    | st => reqAppr st

/-- What a request is, by its OP. -/
structure ReqKind where
  op : Nat
  /-- Check 1 of R358: 0 or a RESULT. -/
  state : State → Req → Nat
  /-- Check 3: a token slot and an OTP record remain. -/
  room : State → Bool
  /-- Check 4: the body is well formed. -/
  form : State → Req → Bool
  /-- Check 5 and the request's own checks before the approvals: 0 or a RESULT. -/
  token : State → Req → Nat
  /-- The approvals it takes. -/
  signers : State → Req → List Signer
  /-- CHAL is the record's own, though COUNT is 0 (R364). -/
  chalOwn : State → Bool
  /-- The state whose officer table judges the approvals (R371). -/
  table : Req → State → State
  /-- The effect, with RESULT; a request that waits for random output changes nothing. -/
  run : Req → State → Option (Nat × State)

/-- A RESULT of TOKEN_INVALID begins the HOLD of 1 s (R358). -/
def reqFail (r : Nat) (s : State) : State :=
  let s := reqEnd r s
  if r = 4 then modLcy (fun l => { l with holdEnd := some (tick s + 1000000) }) s else s

/-- Checks 4 to 6 of R358 in their order: 0 or a RESULT. -/
def reqChecks (k : ReqKind) (s : State) (q : Req) : Nat :=
  let gs := k.signers s q
  if (q.count = 0 ∧ q.chal ≠ 0 ∧ !k.chalOwn s) ∨ gs.length < q.count ∨ !k.form s q then 9
  else match k.token s q with
    | 0 => reqCheck (k.table q s) q gs
    | r => r

/-- A read of host data passes the ingress buffers, where an armed injection is met: corrected, or a bus error that the mover retries (R475, R483). -/
def ingressInj (s : State) : State :=
  match injTake 0x03 0 s with
  | (some (0, _), t) => errCorrected 0x03 t
  | (some _, t) => errReport 0x03 1 1 0 0 0 0 true t
  | (none, t) => t

/-- Checks 1 to 3 of R358: 0 or a RESULT. -/
def reqEarly (k : ReqKind) (s : State) (q : Req) : Nat :=
  match k.state s q with
  | 0 => if latchCount s ≠ 0 then 3 else if !k.room s then 5 else 0
  | r => r

/-- GO on a record of this OP (R357, R358): the device reads the record under the PF's regions and answers in RESULT. Its HOLD refuses GO. -/
def reqGo (k : ReqKind) (data : Bytes) (fail : Bool) (s : State) : State :=
  let h := padTo 8 data
  if !regsAnswer s ∨ s.lcy.holdEnd.isSome ∨ (!fail ∧ leAt h 0 2 ≠ k.op) then s
  else match hostRead (hifMaster 0 0) 0 s.lcy.reqPtr 8 s with
    | (false, s) => reqEnd 10 s
    | (true, s) =>
      if fail then reqEnd 10 (chanFail (hifMaster 0 0) 8 s)
      else
        let q := reqOf data
        let s := ingressInj (chanDone (hifMaster 0 0) 0 8 s)
        match reqEarly k s q with
        | 0 =>
          if !reqLenOk h then reqEnd 9 s
          else match hostRead (hifMaster 0 0) 0 (s.lcy.reqPtr + 8) (lreqLen h - 8) s with
            | (false, s) => reqEnd 10 s
            | (true, s) =>
              let s := chanDone (hifMaster 0 0) 0 (lreqLen h - 8) s
              match reqChecks k s q with
              | 0 => match k.run q (chalUse q.apprs s) with
                | some (r, t) => reqEnd r t
                | none => s
              | r => reqFail r s
        | r => reqEnd r s

/-! ### Transitions (R356-R360) -/

/-- Run steps 2 to 5 of R360 in the next record, with the LIFECYCLE record. Grants of the old state close (R363; log entry 45). -/
def transitGo (op index : Nat) (s : State) : State :=
  let old := s.lcy.state
  let k := recsUsed s.lcy.recs
  let s := modLcy (fun l => lcsScan (recFinish k { l with recs := l.recs.set k ⟨otpIntent op index, 0, 0⟩ })) s
  let s := rootsIf (grantClose 3 6 s)
  audit 0x0302 0 (leBytes 2 op ++ leBytes 1 (lcsCode old) ++ leBytes 1 (lcsCode s.lcy.state) ++ leBytes 1 k) s

/-- The digest of TOKEN against the one in OTP: 0 the wafer-test digest, 1-9 T_DIG (R358 step 5). -/
def tokenCheck (s : State) (index : Nat) (q : Req) : Nat :=
  let d := if index = 0 then s.lcy.tProvDig else s.lcy.tDig.getD (index - 1) []
  if shake256 32 (q.body.take 32) = padTo 32 d then 0 else 4

/-- Two custody approvals, or none when the officer table is empty (R356). -/
def custodyPair (s : State) : List Signer :=
  if s.lcy.officers.all (fun o => decide (o.state = 0)) then [] else [.custody none, .custody none]

/-- A transition with its token index and approvals. -/
def transition (op : Nat) (from_ : Lcs → Bool) (index : State → Nat) (last : Nat) (gs : State → List Signer) : ReqKind where
  op := op
  state s _ := if from_ s.lcy.state then 0 else 2
  room s := decide (index s ≤ last) && decide (recsUsed s.lcy.recs < 16)
  form _ q := decide (q.body.length = 32)
  token s q := tokenCheck s (index s) q
  signers s _ := gs s
  chalOwn _ := false
  table _ s := s
  run _ s := some (0, transitGo op (index s) s)

/-- PROVISION: the payload is drawn and staged first (R360); the tokens whose digests it holds: log entry 50. -/
def provision : ReqKind :=
  { transition 0x0011 (fun c => decide (c = .blank)) (fun _ => 0) 0 (fun _ => []) with
    run := fun _ s =>
      match drbgDraw 0 544 s with
      | none => none
      | some (r, s) =>
        let p := r.take 256 ++ joinBytes ((List.range 9).map fun i => shake256 32 (slice r (256 + 32 * i) 32))
        some (0, transitGo 0x0011 0 (modLcy (fun l => { l with staged := some (p ++ shake256 4 p) }) s)) }

/-- An officer entry of 88 bytes in the body format of R344. -/
def memberOf (b : Bytes) : Nat × Nat × Bytes × Bytes := (leAt b 0 1, leAt b 1 1, slice b 8 16, slice b 0x18 64)

/-- The initial officers of a DEPLOY body (R356). -/
def members (q : Req) : List (Nat × Nat × Bytes × Bytes) := (chunks 88 (q.body.drop 32)).map memberOf

/-- The DEPLOY body is well formed: 2-16 custody and 0-4 audit officers, each in its range, none twice, no key twice (R344, R356). -/
def deployForm (q : Req) : Bool :=
  let m := members q
  decide (32 ≤ q.body.length) && decide ((q.body.length - 32) % 88 = 0) &&
  (chunks 88 (q.body.drop 32)).all (fun b => allZero (slice b 2 6)) &&
  m.all (fun x => (decide (x.2.1 = 1) && decide (x.1 < 16)) || (decide (x.2.1 = 2) && decide (16 ≤ x.1) && decide (x.1 < 20))) &&
  allDistinct (m.map fun x => x.1) && allDistinct (m.map fun x => leNat x.2.2.2) &&
  decide (2 ≤ (m.filter fun x => decide (x.2.1 = 1)).length)

/-- DEPLOY (R356): one approval by each initial officer, under the key of the officer's entry. -/
def deploy : ReqKind :=
  { transition 0x0012 (fun c => decide (c = .provisioned)) (fun _ => 1) 1 (fun _ => []) with
    form := fun _ q => deployForm q
    signers := fun _ q =>
      let m := members q
      if q.count = m.length then
        q.apprs.map fun a => match m.find? fun x => decide (x.1 = apOfficer a) with
          | some x => .member x.1 x.2.2.2
          | none => .member 256 []
      else m.map fun x => .member x.1 x.2.2.2
    run := fun q s =>
      match drbgDraw 0 32 s with
      | none => none
      | some (half, s) =>
        let now := appendTime s
        let s := modLcy (fun l => { l with
          keepHalf := half
          officers := (members q).foldl (fun t x => t.set x.1 ⟨1, x.2.1, now, x.2.2.1, x.2.2.2⟩) (List.replicate 20 Officer.empty) }) s
        some (0, transitGo 0x0012 1 (modMtr (fun m => { m with total := [], adds := [], rcpt := [] }) s)) }

/-- RETURN (R356). -/
def return_ : ReqKind :=
  transition 0x0013 (fun c => decide (c = .deployed)) (fun s => 2 + s.lcy.returns) 5 custodyPair

/-- REDEPLOY (R356). -/
def redeploy : ReqKind :=
  transition 0x0014 (fun c => decide (c = .returned)) (fun s => 6 + s.lcy.redeploys) 8 (fun _ => [.custody none, .custody none])

/-- RETIRE (R356). -/
def retire : ReqKind :=
  transition 0x0015 (fun c => decide (c ≠ .retired)) (fun _ => 9) 9
    (fun s => if s.lcy.state = .deployed ∨ s.lcy.state = .returned then custodyPair s else [])

/-! ### Debug grants (R363-R365) -/

/-- The vendor root of a state (R354). -/
def vendorRoot (s : State) : Bytes :=
  romKey s (match s.lcy.state with | .blank => 0 | .provisioned => 1 | _ => 2)

/-- The grant's own checks, and a vendor root's signature over it (R364): 0 or GRANT_INVALID. -/
def grantCheck (s : State) (q : Req) : Nat :=
  let g := q.body.take 56
  let scope := leAt g 17 1
  let life := leAt g 20 4
  let c := slotCheck s (tick s) [q.chal]
  let dep := decide (s.lcy.state = .deployed)
  if slice g 0 16 ≠ padTo 16 s.lcy.ident ∨ leAt g 16 1 ≠ lcsCode s.lcy.state ∨ scope = 0 ∨ 3 < scope ∨ (dep ∧ scope ≠ 2) ∨ leAt g 18 2 ≠ 0 ∨
      life = 0 ∨ 3600 < life ∨ slice g 24 32 ≠ padTo 32 (s.lcy.chals.getD q.chal Chal.empty).data then 12
  else if dep then 0
  else if c.1 ≠ 0 ∨ !slhVerify slh256f (vendorRoot s) g (slice q.body 56 49856) then 12
  else 0

/-- DEBUG_OPEN (R363, R364). -/
def debugOpen : ReqKind where
  op := 0x0030
  state s _ := match s.lcy.state with
    | .retired => 2
    | .deployed => if s.pwr.mode = .locked then 0 else 2
    | _ => 0
  room _ := true
  form s q := decide (q.body.length = if s.lcy.state = .deployed then 56 else 49912)
  token := grantCheck
  signers s _ := if s.lcy.state = .deployed then [.custody none, .custody none] else []
  chalOwn s := decide (s.lcy.state ≠ .deployed)
  table _ s := s
  run q s :=
    let scope := leAt q.body 17 1
    let life := leAt q.body 20 4
    let g := fun (n : Nat) => (⟨n, tick s + 1000000 * life, life⟩ : Grant)
    let s := audit 0x0303 0 ([1] ++ leBytes 1 scope ++ leBytes 4 life ++ [0]) s
    some (0, modLcy (fun l => { l with
      intGrant := if scope.testBit 0 then some (g 1) else l.intGrant, scanGrant := if scope.testBit 1 then some (g 2) else l.scanGrant }) s)

/-- DEBUG_CLOSE (R365). -/
def debugClose : ReqKind where
  op := 0x0031
  state _ _ := 0
  room _ := true
  form _ _ := true
  token _ _ := 0
  signers _ _ := []
  chalOwn _ := false
  table _ s := s
  run _ s := some (0, grantClose 3 2 s)

/-! ### Rejoin (R369-R372) -/

/-- Bytes +0x00 to +0x65F of a rejoin offer (R369). -/
def offerBody (s : State) (nonce ek : Bytes) : Bytes :=
  padTo 16 s.lcy.ident ++ leBytes 4 (b2n s.lcy.ledgerLost) ++ zeroBytes 12 ++ nonce ++ padTo 1568 ek

/-- REJOIN_BEGIN (R369). -/
def rejoinBegin : ReqKind where
  op := 0x0020
  state s _ := if s.pwr.mode = .recovery ∧ s.lcy.state = .deployed then 0 else 2
  room _ := true
  form _ q := decide (q.body.length = 8) && allZero (slice q.body 2 6)
  token _ _ := 0
  signers _ _ := []
  chalOwn _ := false
  table _ s := s
  run q s :=
    match drbgDraw 0 96 s with
    | none => none
    | some (r, s) =>
      let nonce := r.take 32
      let k := kemKeygen 3 (slice r 32 32) (slice r 64 32)
      let m := offerBody s nonce k.1
      match hostWrite (hifMaster 0 0) 0 (s.lcy.reqPtr + 0x10000) (m ++ identSign (ascii "EHROS-REJOIN" ++ m) s) false s with
      | (false, s) => some (10, s)
      | (true, s) => some (0, modLcy (fun l => { l with rejoin := some ⟨k.2, nonce, leAt q.body 0 2 % 4096⟩, package := none }) s)

/-- The segments of a ledger mirror: a length of 2 bytes before each (log entry 47), with fuel. -/
def ledgerSplit : Nat → Bytes → List Bytes
  | 0, _ => []
  | n + 1, b => if b.length < 2 then [] else slice b 2 (leAt b 0 2) :: ledgerSplit n (b.drop (2 + leAt b 0 2))

/-- What a rejoin package holds once opened: LMKs with VF, slot, role and generation, and the ledger segments. -/
structure Package where
  lmks : List (Nat × Nat × Nat × Nat × Bytes)
  segs : List Bytes
deriving DecidableEq, Repr

/-- The package body, without its signature. -/
def packBody (data : Bytes) : Bytes := data.take (data.length - 29792)

/-- One wrapped LMK of a package. -/
def packLmk (kek b : Bytes) : Option (Nat × Nat × Nat × Nat × Bytes) :=
  (kwUnwrap kek (slice b 8 40)).map fun k => (leAt b 0 2, leAt b 2 1, leAt b 3 1, leAt b 4 2, k)

/-- Open a package under the offer's key pair, none when a part does not unwrap (R370, R371; layout: log entry 47). -/
def packOpen (s : State) (r : Rejoin) (data : Bytes) : Option Package :=
  let b := packBody data
  let kek := rejoinKek (kemDecaps 3 r.dk (b.take 1568)) r.nonce (padTo 16 s.lcy.ident)
  let n := leAt b 1572 4
  let e := (chunks 48 (slice b 1576 (48 * n))).map (packLmk kek)
  let o := 1576 + 48 * n
  let g := leAt b o 4
  if e.any (fun x => x.isNone) then none
  else
    let l := e.filterMap id
    if !s.lcy.ledgerLost then some ⟨l, []⟩
    else if leAt b 1568 4 ≠ 1 then none
    else (gcmDec kek (slice b (o + 4) 12) [] (slice b (o + 16) g)).map fun p => ⟨l, ledgerSplit p.length p⟩

/-- The binding that a ledger mirror names: partner identity, its key, its address, this device's home (log entry 47). -/
def segBind (p : Package) : Bytes := (p.segs.find? fun b => decide (leAt b 0 1 = 8)).getD []

/-- A package is signed by the holder of this key: its last 29,792 bytes are the signature (R371). -/
def packSigned (pk d : Bytes) : Bool := slhVerify slh256s pk (packBody d) (d.drop (d.length - 29792))

/-- An opened package, where the partner signed it: the partner's key is the bound one, or the ledger mirror's where the ledger is lost (R371). -/
def packOf (s : State) (d : Bytes) : Option Package → Option Package
  | none => none
  | some p => if packSigned (if s.lcy.ledgerLost then slice (segBind p) 17 64 else s.par.partnerPk) d then some p else none

/-- The package held is good: under the present key pair, and signed by the partner (R371). -/
def packGood (s : State) : Option Package :=
  match s.lcy.rejoin, s.lcy.package with
  | some r, some d => packOf s d.1 (packOpen s r d.1)
  | _, _ => none

/-- The officers of a ledger mirror (R371). -/
def packOfficers (p : Package) : List Officer :=
  p.segs.foldl (fun t b => if leAt b 0 2 = 0x0406 then t.set (leAt b 2 1) (officerOf (b.drop 3)) else t) (List.replicate 20 Officer.empty)

/-- The state whose officer table judges a FINISH (R371). -/
def finishTable (s : State) : State :=
  match s.lcy.ledgerLost, packGood s with
  | true, some p => modLcy (fun l => { l with officers := packOfficers p }) s
  | _, _ => s

/-- FINISH without a partner (R372). -/
def noPartner (q : Req) : Bool := decide (q.body.length = 8) && (leAt q.body 0 8).testBit 0

/-- Install one segment of the ledger mirror (R371 step 2). -/
def segInstall (s : State) (b : Bytes) : State :=
  match leAt b 0 1 with
  | 7 => modLmkSlot (leAt b 1 2) (leAt b 3 1) (fun x => { x with version := leAt b 4 4 }) s
  | 8 => modPar (fun p => { p with
      bound := true, partnerId := slice b 1 16, partnerPk := slice b 17 64, addr := leAt b 81 2 % 4096, bindHome := leAt b 83 1,
      home := leAt b 83 1, homeChecked := false }) s
  | _ => segApply 0 0 b s

/-- Take one LMK of the package for its slot's vault blob (R371 steps 1 and 4); the set is loaded by the first resolution after it (R115). -/
def lmkRejoin (s : State) (x : Nat × Nat × Nat × Nat × Bytes) : State :=
  modLmk x.1 (fun m => { m with loaded := false, lastGen := max m.lastGen x.2.2.2.1 })
    (modLmkSlot x.1 x.2.1 (fun y => { setLmk x.2.2.2.2 x.2.2.1 x.2.2.2.1 y with wait := false }) s)

/-- Write every vault blob of a VF anew (R371 step 4). -/
def vaultRewrite (s : State) (f : Nat) : State :=
  [0, 1].foldl (fun s n => let r := drawNonce 12 s; vaultWrite f n r.1 r.2) s

/-- Steps 3, 5 and 6 of R371, and the way out of RECOVERY (R371, R465). -/
def finishEnd (partner : Bytes) (count : Nat) (alone : Bool) (s : State) : State :=
  let s := modLcy (fun l => { l with rejoin := none, package := none, ledgerLost := false }) s
  let s := modPwr (fun p => { p with keepBad := false }) (modTmp (fun t => { t with erased := false, applied := if t.lock then 1 else 0 }) s)
  let s := audit 0x0304 0 (padTo 16 partner ++ leBytes 4 count ++ leBytes 1 (b2n alone)) s
  if s.tmp.lock then setMode .locked s else modeServe s

/-- REJOIN_FINISH (R371, R372). -/
def rejoinFinish : ReqKind where
  op := 0x0021
  state s _ := if s.pwr.mode = .recovery ∧ s.lcy.state = .deployed then 0 else 2
  room _ := true
  form _ q := decide (q.body.length = 0) || (decide (q.body.length = 8) && decide (leAt q.body 0 8 < 2))
  token s q := if noPartner q ∨ (packGood s).isSome then 0 else 11
  signers _ _ := [.custody none, .custody none]
  chalOwn _ := false
  table q s := if noPartner q then s else finishTable s
  run q s :=
    match drbgDraw 0 32 s with
    | none => none
    | some (half, s) =>
      let newRoot := fun (s : State) =>
        let s := modLcy (fun l => { l with keepHalf := half }) s
        modKst (fun k => { k with vaultKey := rootVaultKey s }) s
      if noPartner q then
        let s := newRoot s
        let s := (s.kst.lmks.map fun e => e.1).foldl (fun s f => let r := drawNonce 24 s; lmkUnbind f r.1 r.2) s
        some (0, finishEnd s.par.partnerId 0 true s)
      else match packGood s with
        | none => some (11, s)
        | some p =>
          let s := modKst (fun k => { k with lmks := k.lmks.map fun e => (e.1, { e.2 with
            s0 := { dropLmk e.2.s0 with role := 0, wait := false }, s1 := { dropLmk e.2.s1 with role := 0, wait := false } }) }) s
          let s := newRoot (p.lmks.foldl lmkRejoin (p.segs.foldl segInstall s))
          let fs := s.kst.lmks.map fun e => e.1
          let s := fs.foldl (fun s f => lmkUnload f s) (fs.foldl vaultRewrite s)
          some (0, finishEnd s.par.partnerId p.lmks.length false s)

/-! ### Injection requests (R483, R484) -/

/-- A point of a tamper detector: its monitor (R475). -/
def injMonitor (point : Nat) : Option Nat :=
  if 0x20 ≤ point ∧ point ≤ 0x31 then some (point - 0x20) else if 0x40 ≤ point ∧ point ≤ 0x51 then some (point - 0x40) else none

/-- FULL of an INJECT body. -/
def injFull (q : Req) : Bool := (leAt q.body 6 2).testBit 0

/-- The states and approvals of R484: whether the request is refused, and how many custody approvals it takes. -/
def injRule (s : State) (q : Req) : Bool × Nat :=
  let p := leAt q.body 0 2
  let dep := decide (s.lcy.state = .deployed)
  if s.lcy.state = .retired then (true, 0)
  else match injMonitor p with
    | some m =>
      let x := monAt s m
      if dep then (injFull q && (decide (x.cls = 2) || decide (x.disCls = 2)), 2) else (s.lcy.intGrant.isNone, 0)
    | none => (false, if dep ∧ (injFull q ∨ 0x15 ≤ p) then 2 else 0)

/-- INJECT (R483). -/
def inject : ReqKind where
  op := 0x0040
  state s q := if (injRule s q).1 then 2 else 0
  room _ := true
  form _ q :=
    let b := q.body
    let p := leAt b 0 2
    decide (b.length = 16) && ((decide (1 ≤ p) && decide (p ≤ 0x17) && decide (leAt b 4 1 < 2)) || ((injMonitor p).isSome && decide (leAt b 4 1 = 2))) &&
    decide (leAt b 5 1 ≠ 0) && decide (leAt b 6 2 < 2) && allZero (slice b 8 8)
  token _ _ := 0
  signers s q := List.replicate (injRule s q).2 (.custody none)
  chalOwn _ := false
  table _ s := s
  run q s :=
    let b := q.body
    some (0, modDbg (fun d => { d with inj := some ⟨leAt b 0 2, leAt b 2 2, leAt b 4 1, leAt b 5 1, injFull q⟩ }) s)

/-! ### The commands -/

/-- PROVISION (R356, R360). -/
def execProvision (data : List Byte) (fail : Bool) (s : State) : Res := .next (regWrote 0 <| reqGo provision data fail s)
/-- DEPLOY (R356). -/
def execDeploy (data : List Byte) (fail : Bool) (s : State) : Res := .next (regWrote 0 <| reqGo deploy data fail s)
/-- RETURN (R356). -/
def execReturn (data : List Byte) (fail : Bool) (s : State) : Res := .next (regWrote 0 <| reqGo return_ data fail s)
/-- REDEPLOY (R356). -/
def execRedeploy (data : List Byte) (fail : Bool) (s : State) : Res := .next (regWrote 0 <| reqGo redeploy data fail s)
/-- RETIRE (R356). -/
def execRetire (data : List Byte) (fail : Bool) (s : State) : Res := .next (regWrote 0 <| reqGo retire data fail s)
/-- DEBUG_OPEN (R364). -/
def execDebugOpen (data : List Byte) (fail : Bool) (s : State) : Res := .next (regWrote 0 <| reqGo debugOpen data fail s)
/-- DEBUG_CLOSE (R365). -/
def execDebugClose (data : List Byte) (fail : Bool) (s : State) : Res := .next (regWrote 0 <| reqGo debugClose data fail s)
/-- REJOIN_BEGIN (R369). -/
def execRejoinBegin (data : List Byte) (fail : Bool) (s : State) : Res := .next (regWrote 0 <| reqGo rejoinBegin data fail s)

/-- REJOIN_FINISH (R371, R372). -/
def execRejoinFinish (data : List Byte) (fail : Bool) (s : State) : Res := .next (regWrote 0 <| reqGo rejoinFinish data fail s)

/-- INJECT (R483). -/
def execInject (data : List Byte) (fail : Bool) (s : State) : Res := .next (regWrote 0 <| reqGo inject data fail s)

/-- DEBUG_LIFE_EXPIRY (R365). -/
def execDebugLifeExpiry (s : State) : Res :=
  .next (
    let due := fun (g : Option Grant) => g.any fun g => decide (g.ends ≤ tick s)
    if !s.pwr.main then s else grantClose (b2n (due s.lcy.intGrant) + 2 * b2n (due s.lcy.scanGrant)) 1 s)

/-- TOKEN_HOLD_EXPIRY (R358). -/
def execTokenHoldExpiry (s : State) : Res :=
  .next (
    match s.lcy.holdEnd with
    | some t => if t ≤ tick s ∧ s.pwr.main then modLcy (fun l => { l with holdEnd := none }) s else s
    | none => s)

/-- REJOIN_PACKAGE_EXPIRY (R370). -/
def execRejoinPackageExpiry (s : State) : Res :=
  .next (
    match s.lcy.package with
    | some x => if x.2 + 3600000000 ≤ tick s then modLcy (fun l => { l with package := none }) s else s
    | none => s)

end Sys2Proof.Machine
end

