-- ==== Sys2Proof/Machine/MgmtBus.lean ====
section
/-!
DEFINITION. The management target's commands: I3C common command codes and MCTP (R421, R422). What I3C Basic and DMTF DSP0236 lay out,
the model takes from them (PRESUMED, log entry 2).
-/

namespace Sys2Proof.Machine

/-- The target answers: main power, any mode but GUARD (R421). -/
def i3cOn (s : State) : Bool := s.pwr.main && decide (s.pwr.mode ≠ .guard)

/-- The target answers at its dynamic address. -/
def i3cHeld (s : State) : Bool := i3cOn s && s.i3c.da.isSome

/-- The provisioned ID (R421). -/
def i3cPid (s : State) : Nat := Config.mipiId % 2 ^ 15 * 2 ^ 33 + 2 ^ 32 + leNat (shake256 4 (padTo 16 s.lcy.ident))

/-- A directed CCC read: the bytes it returns. -/
def cccReply (d : Bytes) (s : State) : State := if i3cHeld s then emit (.i3c d) s else s

/-- ENTDAA (R421): a target without an address shows PID, BCR and DCR and takes the address. -/
def execEntdaa (addr : Nat) (s : State) : Res :=
  .next (
    if i3cOn s ∧ s.i3c.da.isNone then
      emit (.i3c (beBytes 6 (i3cPid s) ++ [0x0E, 0x00])) (modI3c (fun c => { c with da := some (addr % 128) }) s)
    else s)

/-- RSTDAA (R421). -/
def execRstdaa (s : State) : Res := .next (if i3cOn s then modI3c (fun c => { c with da := none }) s else s)

/-- SETNEWDA (R421). -/
def execSetnewda (addr : Nat) (s : State) : Res :=
  .next (if i3cHeld s then modI3c (fun c => { c with da := some (addr % 128) }) s else s)

/-- GETPID (R421). -/
def execGetpid (s : State) : Res := .next (cccReply (beBytes 6 (i3cPid s)) s)
/-- GETBCR (R421). -/
def execGetbcr (s : State) : Res := .next (cccReply [0x0E] s)
/-- GETDCR (R421). -/
def execGetdcr (s : State) : Res := .next (cccReply [0x00] s)

/-- GETSTATUS (R421): two bytes whose value the spec leaves open (free value, log entry 12). -/
def execGetstatus (s : State) : Res := .next (if i3cHeld s then bumpFree (emit (.i3c (freeBytes s 2)) s) else s)

/-- ENEC (R421, R422): enables IBIs on its event bit 0; a waiting message raises one. -/
def execEnec (events : Nat) (s : State) : Res :=
  .next (if i3cHeld s ∧ events.testBit 0 then ibiRaise (modI3c (fun c => { c with ibi := true }) s) else s)

/-- DISEC (R421). -/
def execDisec (events : Nat) (s : State) : Res :=
  .next (if i3cHeld s ∧ events.testBit 0 then modI3c (fun c => { c with ibi := false }) s else s)

/-- GETMWL (R421). -/
def execGetmwl (s : State) : Res := .next (cccReply (beBytes 2 s.i3c.mwl) s)
/-- SETMWL (R421): at most 256. -/
def execSetmwl (len : Nat) (s : State) : Res := .next (if i3cHeld s then modI3c (fun c => { c with mwl := min 256 len }) s else s)
/-- GETMRL (R421). -/
def execGetmrl (s : State) : Res := .next (cccReply (beBytes 2 s.i3c.mrl) s)
/-- SETMRL (R421): at most 256. -/
def execSetmrl (len : Nat) (s : State) : Res := .next (if i3cHeld s then modI3c (fun c => { c with mrl := min 256 len }) s else s)

/-- Answer an MCTP control request: type 0, instance, command, completion code, data. -/
def mctpReply (inst cmd code : Nat) (d : Bytes) (s : State) : State :=
  if i3cHeld s then mctpQueue ([0x00] ++ leBytes 1 (inst % 32) ++ leBytes 1 cmd ++ leBytes 1 code ++ d) s else s

/-- SET_ENDPOINT_ID (R422): the special IDs 0x00 and 0xFF are refused. -/
def execSetEndpointId (inst eid : Nat) (s : State) : Res :=
  .next (
    let e := eid % 256
    if !i3cHeld s then s
    else if e = 0 ∨ e = 0xFF then mctpReply inst 1 2 [] s
    else mctpReply inst 1 0 ([0x00] ++ leBytes 1 e ++ [0x00]) (modI3c (fun c => { c with eid := e }) s))

/-- GET_ENDPOINT_ID (R422). -/
def execGetEndpointId (inst : Nat) (s : State) : Res :=
  .next (mctpReply inst 2 0 (leBytes 1 s.i3c.eid ++ [0x00, 0x00]) s)

/-- GET_MCTP_VERSION_SUPPORT (R422): one version, which the spec does not number (free value, log entry 12). -/
def execGetMctpVersionSupport (inst : Nat) (s : State) : Res :=
  .next (if i3cHeld s then bumpFree (mctpReply inst 4 0 ([0x01] ++ freeBytes s 4) s) else s)

/-- GET_MESSAGE_TYPE_SUPPORT (R422): the vendor-defined type of the health reports. -/
def execGetMessageTypeSupport (inst : Nat) (s : State) : Res := .next (mctpReply inst 5 0 [0x01, 0x7E] s)

/-- GET_ENDPOINT_UUID (R422): formed from the device identity (log entry 10). -/
def execGetEndpointUuid (inst : Nat) (s : State) : Res :=
  .next (mctpReply inst 3 0 (padTo 16 (Config.uuidOf (padTo 16 s.lcy.ident))) s)

/-- I3C_PRIVATE_READ (R422): the bus owner takes the oldest queued message. -/
def execI3cPrivateRead (s : State) : Res :=
  .next (
    if !i3cHeld s then s
    else match s.i3c.queue with
      | [] => s
      | m :: rest => ibiRaise (emit (.i3c m) (modI3c (fun c => { c with queue := rest }) s)))

end Sys2Proof.Machine
end

