-- ==== Sys2Proof/Machine/Power.lean ====
section
/-!
DEFINITION. Power, the start sequence and the boot ledger, the boot flash, and GPIO3 (R336, R451-R471, R514-R527).
-/

namespace Sys2Proof.Machine

/-! ### Records on their way at a loss of power (R387, R391, R454) -/

/-- A record that has no VALID goes to the keep RAM record buffer; an anchor is written afresh when the others are copied back (log entry 55). -/
def heldKeep (s : State) (h : HeldRec) : State :=
  let code := leAt h.bytes 4 2
  if code = 2 then modAud (fun a => { a with anchorDue := true }) s
  else bufPush ⟨code, leAt h.bytes 12 2, leAt h.bytes 6 1, slice h.bytes 16 40, if s.time.dev.isSome then h.time else h.time + 2 ^ 63⟩ s

/-- Staging and every held record move to the keep RAM record buffer, and the append index goes back to the first of them. -/
def heldMove (s : State) : State :=
  match s.aud.held ++ s.aud.staging with
  | [] => s
  | h :: hs =>
    modAud (fun a => { a with held := [], staging := [], next := h.seq, chain := a.head }) ((h :: hs).foldl heldKeep s)

/-! ### Monitors at a change of clock (R321, R453) -/

/-- A monitor keeps its detectors and alarms; runs and windows counted on the other clock begin again. -/
def monClock (m : Monitor) : Monitor :=
  let calm := fun (a : AlarmSt) => { a with safeRun := 0, safeSince := none }
  { m with disRun := 0, disSince := none, alarm := calm m.alarm, disAlarm := calm m.disAlarm, inj := none }

/-! ### Main power lost (R11, R453-R455) -/

/-- What an LMK slot keeps: OCCUPIED and its version counter (R114, R115). -/
def lmkKept (l : Lmk) : Lmk :=
  { Lmk.blank with
    s0 := { LmkSlot.blank with occ := l.s0.occ, version := l.s0.version }, s1 := { LmkSlot.blank with occ := l.s1.occ, version := l.s1.version },
    lastGen := l.lastGen }

/-- The service die is gone: every block is at its start values but for what the guard die, OTP, MRAM and the boot flash hold (R11, R453-R455). -/
def serviceLost (s : State) : State :=
  { s with
    hif := Hif.start, slm := Slm.start, mov := Mov.start, ent := Ent.start, i3c := I3c.start, cpu := Cpu.start, lanes := Lanes.start,
    phl := Phl.start, cnt := Cnt.start,
    aud := { Aud.new with
      mram := s.aud.mram, logNo := s.aud.logNo, next := s.aud.next, present := s.aud.present, chain := s.aud.chain, head := s.aud.head,
      lastTime := s.aud.lastTime, baseTime := s.aud.baseTime, warned := s.aud.warned, fullSaid := s.aud.fullSaid, buf := s.aud.buf, ovf := s.aud.ovf },
    mtr := { Mtr.new with
      total := s.mtr.total, rcpt := s.mtr.rcpt, waiting := s.mtr.waiting.map (fun r => { r with mseq := none }), final := s.mtr.final,
      adds := s.mtr.adds, restarted := s.mtr.restarted },
    dbg := { Dbg.start with failedWords := s.dbg.failedWords },
    par := { Par.start with
      bound := s.par.bound, partnerId := s.par.partnerId, partnerPk := s.par.partnerPk, addr := s.par.addr, bindHome := s.par.bindHome,
      home := s.par.home },
    pwr := { Pwr.new with
      mode := .guard, main := false, supplies := false, pwrfail := s.pwr.pwrfail.map (fun _ => 0), backup := s.pwr.backup,
      secretOk := s.pwr.secretOk, ledgerOk := s.pwr.ledgerOk, keepBad := s.pwr.keepBad, startCount := s.pwr.startCount,
      ledger := s.pwr.ledger, retest := s.pwr.retest, slotA := s.pwr.slotA, slotB := s.pwr.slotB },
    tmp := { Tmp.new with
      mons := s.tmp.mons.map monClock, lfsr := s.tmp.lfsr, lock := s.tmp.lock, erased := s.tmp.erased, cause := s.tmp.cause,
      lockSeq := s.tmp.lockSeq, applied := s.tmp.applied, encUse := s.tmp.encUse, encBurned := s.tmp.encBurned },
    lcy := { s.lcy with
      chals := Lcy.new.chals, chalSlot := 0, reqPtr := 0, reqResult := 0, holdEnd := none, intGrant := none, scanGrant := none,
      rejoin := none, package := none },
    kst := { Kst.new with
      lmks := s.kst.lmks.foldl (fun t e => tset Lmk.blank t e.1 (lmkKept e.2)) [], sens := s.kst.sens, ledger := s.kst.ledger },
    time := { TimeSt.start with dev := s.time.dev, frac := s.time.frac } }

/-- MAIN_POWER_LOST (R11, R365, R387, R453-R455): the service die stops; with a backup node the device is in GUARD. Without one the guard die
stops too: device time is lost, and each keep RAM half may be. -/
def execMainPowerLost (backup secretKept ledgerKept : Bool) (s : State) : Res :=
  .next (
    if !s.pwr.main then s
    else
      let s := serviceLost (heldMove (grantClose 3 3 (metersFlush s)))
      if backup then modPwr (fun p => { p with backup := true }) s
      else modTime (fun t => { t with dev := none, frac := 0 })
        (modPwr (fun p => { p with backup := false, secretOk := p.secretOk && secretKept, ledgerOk := p.ledgerOk && ledgerKept }) s))

/-- GUARD_DIE_POWER_UP (R336): cells are fitted to an unpowered device; the monitors are armed and the device is in GUARD. -/
def execGuardDiePowerUp (s : State) : Res :=
  .next (
    if s.pwr.main ∨ s.pwr.backup then s
    else modPwr (fun p => { p with backup := true, mode := .guard })
      (modTmp (fun t => { t with mons := t.mons.map fun m => { Monitor.fresh m.cls with disCls := m.disCls } })
        (modTime (fun t => { t with slowCount := 0 }) s)))

/-! ### PWRFAIL_N (R322, R454, R516) -/

/-- PWRFAIL_ASSERT (R391, R454, R516): records move to the keep RAM buffer; service continues; the 50 ms interval starts again. -/
def execPwrfailAssert (s : State) : Res :=
  .next (
    if s.pwr.main then
      modTmp (fun t => { t with lowRearmed := false }) (mirrorSettle (heldMove (modPwr (fun p => { p with pwrfail := some s.time.refCount }) s)))
    else modPwr (fun p => { p with pwrfail := some s.time.slowCount, okSince := none }) s)

/-- PWRFAIL_DEASSERT (R451, R515, R516): with main power it changes nothing more; without, every supply is inside its window and the 1 ms
wait begins. -/
def execPwrfailDeassert (s : State) : Res :=
  .next (
    if s.pwr.main then modPwr (fun p => { p with pwrfail := none }) s
    else modPwr (fun p => { p with pwrfail := none, supplies := true, okSince := some s.time.slowCount }) s)

/-! ### The boot ledger (R467, R471) -/

/-- An entry not run. -/
def Ledger.blank : Ledger := ⟨0, 0, 0⟩

/-- The entry of a step and unit. -/
def bootOf (s : State) (step unit : Nat) : Ledger := tget Ledger.blank s.pwr.ledger (256 * step + unit)
/-- Change an entry. -/
def modBoot (step unit : Nat) (g : Ledger → Ledger) (s : State) : State :=
  modPwr (fun p => { p with ledger := tmod Ledger.blank p.ledger (256 * step + unit) g }) s
/-- Write an outcome. -/
def outcome (step unit v : Nat) (s : State) : State :=
  modBoot step unit (fun e => { e with last := v, fails := if v = 2 ∨ v = 6 then satAdd 0xFF e.fails 1 else e.fails }) s

/-- FAIL or ALT. -/
def failOrAlt (v : Nat) : Bool := decide (v = 2) || decide (v = 3)

/-- An entry at the beginning of a start (R471); an entry skipped for its FAIL or ALT keeps it, so the unit stays fenced (R467; log entry 56). -/
def ledgerShift (retest : Bool) (e : Ledger) : Ledger :=
  let p := if e.last = 4 ∧ failOrAlt e.prev then e.prev else e.last
  { e with last := 0, prev := if retest ∧ failOrAlt p then 0 else p }

/-- The step codes in the order of R467. -/
def stepCodes : List Nat := [1, 2, 3, 4, 5, 6, 7, 8, 9, 10, 11, 12, 13, 14, 15, 16, 17, 18, 31]

/-- Units of a step. -/
def stepUnits : Nat → Nat
  | 0x09 => 2 | 0x0B => 144 | 0x0C => 18 | 0x0D => 9 | 0x0E => 4 | 0x0F => 2 | 0x10 => 8
  | _ => 1

/-- A step's outcome lets its dependents begin: every unit has one, and it is not HELD; one slot has passed for the firmware. -/
def stepOver (s : State) (step : Nat) : Bool :=
  if step = 9 then [0, 1].any fun u => decide ((bootOf s 9 u).last = 1) || decide ((bootOf s 9 u).last = 5)
  else (List.range (stepUnits step)).all fun u => decide ((bootOf s step u).last ≠ 0) && decide ((bootOf s step u).last ≠ 6)

/-- The steps that a step waits for (R467). -/
def stepNeeds : Nat → List Nat
  | 1 => []
  | 7 | 0x10 => [3]
  | 8 | 9 | 0x0A | 0x0B => [6]
  | 0x0C | 0x0D | 0x0E | 0x0F => [0x0B]
  | 0x11 => [7, 0x0A]
  | 0x12 => [0x0D, 0x11]
  | 0x1F => [1, 2, 3, 4, 5, 6, 7, 8, 9, 0x0A, 0x0B, 0x0C, 0x0D, 0x0E, 0x0F, 0x11, 0x12]
  | n => [n - 1]

/-- A step may run. -/
def stepReady (s : State) (step : Nat) : Bool := (stepNeeds step).all (stepOver s)

/-- PWR_STAT.STEP follows the start: the held step, or the first that has not ended. -/
def stepNote (s : State) : State :=
  if s.pwr.held then s
  else match stepCodes.find? fun n => n ≠ 16 ∧ !stepOver s n with
    | some n => modPwr (fun p => { p with step := n }) s
    | none => modPwr (fun p => { p with step := 0x1F }) s

/-! ### Units out of service at a start (R467, R471) -/

/-- A core that failed: its cluster's spare takes its logical number, and with no spare the whole cluster is fenced. -/
def coreStartFence (p : Nat) (s : State) : State :=
  if s.cpu.fenced.contains p then s
  else
    let c := coreCluster p
    let k := logicalOf s p
    let s := modCpu (fun x => { x with fenced := x.fenced ++ [p] }) s
    let s := match k with
      | none => s
      | some k =>
        if spareReady s c then spareSwap c k s
        else modCpu (fun x => { x with fenced := x.fenced ++ ((List.range 9).map fun i => 9 * c + i).filter fun q => !(x.fenced.contains q) }) s
    let s := shortNote c s
    if (List.range 144).all fun q => !(coreGood s q) then pairFaultGo s else s

/-- Ports of the lanes that a step tests. -/
def stepPorts : Nat → List Nat
  | 0x0C => List.range 16
  | 0x0D => (List.range 8).map (· + 16)
  | 0x0E => (List.range 4).map (· + 24)
  | _ => [28, 29]

/-- A lane that failed is fenced; a spare takes its logical number (R177, R178). -/
def laneStartFence (step ph : Nat) (s : State) : State :=
  let at_ := (stepPorts step).find? fun n => lanePhys s n = ph
  let s := modLanes (fun l => match step with
    | 0x0C => { l with blkFenced := setBit l.blkFenced ph true, blkSpares := if at_.isNone then l.blkSpares - 1 else l.blkSpares }
    | 0x0D => { l with hashFenced := setBit l.hashFenced ph true, hashSpare := l.hashSpare && at_.isSome }
    | 0x0E => { l with modFenced := setBit l.modFenced ph true }
    | _ => { l with latFenced := setBit l.latFenced ph true }) s
  match at_ with
  | none => s
  | some n =>
    let s := modLane n laneStop s
    match spareFor s n with
    | some x => laneSwap n x s
    | none => s

/-- Fence a unit of an alternative or optional step. -/
def unitFence (step unit : Nat) (s : State) : State :=
  if step = 0x0B then coreStartFence unit s
  else if 0x0C ≤ step ∧ step ≤ 0x0F then laneStartFence step unit s
  else s

/-- Treat a unit as the ledger directs: skipped, and fenced or held at 56 Gbit/s (R471). -/
def ledgerApply (s : State) (e : Nat × Ledger) : State :=
  let step := e.1 / 256
  let unit := e.1 % 256
  if !failOrAlt e.2.prev ∨ !(step = 9 ∨ (0x0B ≤ step ∧ step ≤ 0x10)) then s
  else
    let s := modBoot step unit (fun x => { x with last := 4 }) s
    if step = 0x10 then modPort8 unit (fun x => { x with force56 := true }) s else unitFence step unit s

/-! ### Main power present (R451, R457, R471) -/

/-- MAIN_POWER_PRESENT (R451): PWRFAIL_N has been deasserted for 1 ms with every supply inside its window: START begins, with
its MODE record (R466). -/
def execMainPowerPresent (s : State) : Res :=
  .next (
    match s.pwr.okSince with
    | none => s
    | some t =>
      if s.pwr.main ∨ !s.pwr.supplies ∨ s.pwr.pwrfail.isSome ∨ s.time.slowCount < t + 33 then s
      else
        let s := modPwr (fun p => { p with
          main := true, okSince := none, step := 1, held := false, formatted := false, retried := [],
          startCount := (p.startCount + 1) % 2 ^ 32,
          ledger := p.ledger.foldl (fun t e => tset Ledger.blank t e.1 (ledgerShift p.retest e.2)) [], retest := false, scrubAt := 0 }) s
        let s := modTmp (fun t => { t with mons := t.mons.map fun m => { monClock m with count := 0 } }) s
        setMode .start
          (modMtr (fun m => { m with lastMinute := s.time.dev.map minuteOf }) (modTime (fun t => { t with refCount := 0, slowCount := 0 }) s)))

/-! ### Steps with an effect of their own -/

/-- Step 0x01 (R361): finish every complete record without DONE, and take the state from OTP. -/
def otpScan (s : State) : State :=
  let old := s.lcy.state
  let open_ := (List.range (recsUsed s.lcy.recs)).filter fun k =>
    let r := s.lcy.recs.getD k ⟨0, 0, 0⟩
    intentOk r && decide (r.done ≠ otpDone)
  let s := modLcy (fun l => lcsScan (open_.foldl (fun l k => recFinish k l) l)) s
  open_.foldl (fun s k =>
    auditU 0x0302 0 0 (leBytes 2 (bitsOf (s.lcy.recs.getD k ⟨0, 0, 0⟩).intent 7 0) ++ leBytes 1 (lcsCode old) ++ leBytes 1 (lcsCode s.lcy.state) ++ leBytes 1 k) s) s

/-- The ledger half formatted with its defaults (R456): what it held is gone, and device time is NOT_SET (R373). -/
def ledgerFormat (s : State) : State :=
  { s with
    mtr := { s.mtr with total := [], adds := [], rcpt := [], waiting := [], final := [], restarted := true },
    kst := { s.kst with lmks := [], sens := [], ledger := [] },
    lcy := { s.lcy with officers := Lcy.new.officers, progKeys := [], approvals := [] },
    tmp := { s.tmp with
      mons := List.zipWith (fun m c => { m with cls := c, disCls := 1 }) s.tmp.mons defaultClasses,
      lock := false, erased := false, cause := 0x3E, lockSeq := 0, applied := 0 },
    aud := { s.aud with buf := [], ovf := 0, next := s.aud.present, chain := s.aud.head },
    par := { s.par with bound := false, partnerId := Par.start.partnerId, partnerPk := Par.start.partnerPk, addr := 0, bindHome := 0, home := 0 },
    pwr := { s.pwr with ledger := s.pwr.ledger.filter (fun e => decide (e.1 = 256)), retest := false, startCount := 1, ledgerOk := true },
    dbg := { s.dbg with failedWords := s.dbg.failedWords.filter fun w => keepSecretWord w.1 } }

/-- The secret half formatted: KEEP_HALF and the staging are zero (R456). -/
def secretFormat (s : State) : State :=
  { s with
    lcy := { s.lcy with keepHalf := zeroBytes 32, staged := none },
    pwr := { s.pwr with secretOk := true },
    dbg := { s.dbg with failedWords := s.dbg.failedWords.filter fun w => !keepSecretWord w.1 } }

/-- Step 0x02 (R373, R455, R456, R481): an invalid half is formatted; in DEPLOYED, RETURNED and RETIRED the start will end in RECOVERY. -/
def keepCheck (s : State) : State :=
  let secretBad := !s.pwr.secretOk || s.dbg.failedWords.any fun w => keepSecretWord w.1
  let ledgerBad := !s.pwr.ledgerOk || s.dbg.failedWords.any fun w => !keepSecretWord w.1
  if !secretBad ∧ !ledgerBad then s
  else
    let deep := decide (2 ≤ lcsCode s.lcy.state)
    let s := if ledgerBad then ledgerFormat s else s
    let s := if secretBad then secretFormat s else s
    let s := modPwr (fun p => { p with formatted := true, keepBad := p.keepBad || deep }) s
    let s := modLcy (fun l => { l with ledgerLost := l.ledgerLost || (deep && ledgerBad) }) s
    modTime (fun t => { t with dev := none, frac := 0 }) s

/-- Step 0x03 (R400, R457, R471): the tick counter starts, the ledger is applied, and the enabled ports begin to train. -/
def refStart (s : State) : State :=
  let s := modTime (fun t => { t with refCount := 0 }) s
  let s := s.pwr.ledger.foldl ledgerApply s
  modPhl (fun x => { x with ports := x.ports.map fun p => if p.enable ∧ p.st = .disabled then { p with st := .training } else p }) s

/-- Step 0x07 (R324): the mesh LFSRs are seeded from the conditioner, whose output the spec leaves open (log entry 12). -/
def lfsrSeed (s : State) : State :=
  let b := freeBytes s 128
  modTmp (fun t => { t with lfsr := (List.range 16).map fun i => leAt b (8 * i) 8 }) (bumpFree s)

/-- A source has passed its start-up test: it fails the test for good with its second failure, which leaves it FAILED (R301, R304). -/
def sourcePassed (x : Source) : Bool :=
  match x.st with
  | .warm | .selected | .cooling => true
  | .retest | .failed => decide (x.attempts < 2)
  | .off | .startup => false
/-- Both entropy sources have passed their start-up tests (R304). -/
def sourcesPassed (s : State) : Bool := sourcePassed s.ent.srcA && sourcePassed s.ent.srcB
/-- A source has failed its start-up test twice (R301, R304). -/
def sourceFailed (s : State) : Bool :=
  (decide (s.ent.srcA.st = .failed) && decide (2 ≤ s.ent.srcA.attempts)) || (decide (s.ent.srcB.st = .failed) && decide (2 ≤ s.ent.srcB.attempts))

/-- ROOTS and CERT run in DEPLOYED alone, and not when ERASED is set (R467). -/
def rootsRun (s : State) : Bool := decide (s.lcy.state = .deployed) && !s.tmp.erased

/-- Slot `u` of the boot flash. -/
def fwSlot (s : State) (u : Nat) : FwSlot := if u = 0 then s.pwr.slotA else s.pwr.slotB

/-- A slot can still be booted: it holds an image and has not failed (R469). -/
def fwCan (s : State) (u : Nat) : Bool := (fwSlot s u).present && decide ((bootOf s 9 u).last = 0)

/-- The slot that step 0x09 boots: the higher VERSION, or slot A when they are equal (R469). -/
def fwPick (s : State) : Option Nat :=
  if fwCan s 0 ∧ (!fwCan s 1 ∨ s.pwr.slotB.version ≤ s.pwr.slotA.version) then some 0
  else if fwCan s 1 then some 1
  else none

/-- The running image. -/
def fwRun (u : Nat) (s : State) : State :=
  modPwr (fun p => { p with slot := u, fwVersion := (fwSlot s u).version, fwFloor := (fwSlot s u).floor }) s

/-- Steps skipped or done another way in this start (R382). -/
def ledgerOdd (s : State) : Nat := (s.pwr.ledger.filter fun e => decide (2 ≤ e.2.last) && decide (e.2.last ≤ 4)).length

/-- The mode at the end of the start (R463). -/
def startMode (s : State) : Mode :=
  if s.tmp.erased ∨ s.pwr.keepBad then .recovery
  else if s.tmp.lock then .locked
  else if s.par.bound then .standby
  else .active

/-- Step 0x1F (R436, R463, R466): the clusters are awake with their cores in ASK; START record; the mode. -/
def startEnd (s : State) : State :=
  let s := modSlm (fun m => { m with clusters := (List.range 16).map fun c => if (coresIn s c).isEmpty then .asleep else .awake }) s
  let s := (List.range 16).foldl (fun s c => (coresIn s c).foldl (fun s k => coreReady (physOf s c k) s) s) s
  let m := startMode s
  let s := auditU 0x0010 0 0 (leBytes 1 (modeCode m) ++ leBytes 2 (ledgerOdd s) ++ leBytes 1 s.pwr.slot ++ padTo 32 (fwSlot s s.pwr.slot).digest) s
  let s := modPar (fun p => { p with aloneSince := s.time.refCount, homeChecked := false }) s
  setMode m s

/-! ### START_STEP_DONE (R467-R471) -/

/-- A mandatory step has failed: it is run once more, and then the start is held (R468). -/
def stepFail (step unit : Nat) (s : State) : State :=
  if s.pwr.retried.contains step then
    let s := outcome step unit 6 s
    let s := modPwr (fun p => { p with held := true, step := step, heldAt := s.time.refCount }) s
    healthReport 11 (leBytes 1 step) s
  else modBoot step unit (fun e => { e with fails := satAdd 0xFF e.fails 1 }) (modPwr (fun p => { p with retried := p.retried ++ [step] }) s)

/-- A mandatory step has passed, at its first or second attempt. -/
def stepPass (step unit : Nat) (s : State) : State := outcome step unit (if s.pwr.retried.contains step then 5 else 1) s

/-- Step 0x07 ends when both sources have passed, or with a source's second failure; its ledger entry reads HELD then (R304, R468). -/
def entropyStep (ok : Bool) (s : State) : State :=
  if ok then (if sourcesPassed s then lfsrSeed (stepPass 7 0 s) else s)
  else if sourceFailed s then stepFail 7 0 (modPwr (fun p => { p with retried := 7 :: p.retried }) s)
  else s

/-- Step 0x09 on the slot that boots next (R469). -/
def fwStep (unit : Nat) (ok : Bool) (s : State) : State :=
  match fwPick s with
  | none => if ok then s else stepFail 9 unit (modPwr (fun p => { p with retried := 9 :: p.retried }) s)
  | some u =>
    if u ≠ unit then s
    else if ok then fwRun u (stepPass 9 u s)
    else if fwCan s (1 - u) then outcome 9 u 2 s
    else stepFail 9 u s

/-- Step 0x10 of a port: its outcome when its training ends (R400, R467, R471). -/
def portStep (p : Nat) (s : State) : State :=
  let x := portOf s p
  let e := bootOf s 0x10 p
  match x.st with
  | .up => outcome 0x10 p (if e.last = 4 then 3 else if x.slow ∧ !x.force56 then 2 else 1) s
  | .down => outcome 0x10 p 2 s
  | _ => s

/-- Step 0x11: the roots, and a key-store integrity key drawn from instance 0 (R109, R123, R308, R317). -/
def rootsStep (s : State) : State :=
  match drbgDraw 0 32 s with
  | none => s
  | some (k, s) => modKst (fun x => { x with intKey := k, vaultKey := rootVaultKey s }) (stepPass 0x11 0 s)

/-- The end of a step or of one unit's part of it. -/
def stepDone (step unit : Nat) (ok : Bool) (s : State) : State :=
  let must := fun (f : State → State) => if ok then f (stepPass step unit s) else stepFail step unit s
  match step with
  | 0x01 => must otpScan
  | 0x02 => if ok then stepPass step unit (keepCheck s) else stepFail step unit s
  | 0x03 => must refStart
  | 0x06 => must bufCopy
  | 0x07 => entropyStep ok s
  | 0x08 => must (modHif fun h => { h with linkUp := true })
  | 0x09 => fwStep unit ok s
  | 0x0B | 0x0C | 0x0D | 0x0E | 0x0F => if ok then outcome step unit 1 s else unitFence step unit (outcome step unit 2 s)
  | 0x10 => portStep unit s
  | 0x11 => if !rootsRun s then outcome step 0 4 s else if ok then rootsStep s else stepFail step 0 s
  | 0x12 => if !rootsRun s then outcome step 0 4 s else must id
  | 0x1F => startEnd (outcome step 0 1 s)
  | _ => must id

/-- The unit's outcome is still to come. -/
def stepOpen (s : State) (step unit : Nat) : Bool :=
  let e := bootOf s step unit
  decide (e.last = 0) || (decide (step = 0x10) && decide (e.last = 4))

/-- START_STEP_DONE (R467-R471): a step, or one unit's part of it, has ended, with or without success. -/
def execStartStepDone (step unit : Nat) (ok : Bool) (s : State) : Res :=
  .next (
    if !s.pwr.main ∨ !(s.pwr.mode = .start ∨ step = 0x10) ∨ !stepCodes.contains step ∨ stepUnits step ≤ unit ∨ !stepOpen s step unit ∨
        !stepReady s step then s
    else stepNote (stepDone step unit ok s))

/-- HELD_REPORT_TIMER (R468): every 1 s of a held start. -/
def execHeldReportTimer (s : State) : Res :=
  .next (
    if s.pwr.main ∧ s.pwr.held ∧ s.pwr.heldAt + 100000000 ≤ s.time.refCount then
      healthReport 11 (leBytes 1 s.pwr.step) (modPwr (fun p => { p with heldAt := s.time.refCount }) s)
    else s)

/-- LEDGER_RETEST (R471). -/
def execLedgerRetest (s : State) : Res := .next (regWrote 0 <| if regsAnswer s then modPwr (fun p => { p with retest := true }) s else s)

/-! ### The boot flash (R469, R470) -/

/-- End a flash write with a RESULT. -/
def flashEnd (r : Nat) (s : State) : State := modPwr (fun p => { p with flashResult := r, flashBusy := none }) s

/-- FLASH_GO (R470): no effect while BUSY; the running slot is refused; else the image's header is asked for under the PF's regions. -/
def execFlashGo (slot : Nat) (s : State) : Res :=
  .next (regWrote 0 <|
    let u := slot % 2
    if !regsAnswer s ∨ s.pwr.flashBusy.isSome then s
    else if u = s.pwr.slot then flashEnd 2 s
    else match hostRead (hifMaster 0 0) 0 s.pwr.flashPtr 64 s with
      | (true, s) => modPwr (fun p => { p with flashResult := 1, flashBusy := some u }) s
      | (false, s) => flashEnd 6 s)

/-- The format checks of an image header (R469). -/
def imageFormOk (h : Bytes) : Bool :=
  decide (leAt h 0 4 = 0x57464845) && decide (leAt h 12 4 ≤ 8338560) && decide (slice h 16 48 = zeroBytes 48)

/-- FLASH_WRITE_COMPLETE (R470): the image as read, or a failed read, and whether the flash fails the write. -/
def execFlashWriteComplete (data : List Byte) (fail flashErr : Bool) (s : State) : Res :=
  .next (
    match s.pwr.flashBusy with
    | none => s
    | some u =>
      let h := padTo 64 data
      let n := 64 + leAt h 12 4
      if !s.pwr.main then s
      else if fail then flashEnd 6 (chanFail (hifMaster 0 0) 64 s)
      else if !imageFormOk h then flashEnd 5 (chanDone (hifMaster 0 0) 0 64 s)
      else match hostRead (hifMaster 0 0) 0 (s.pwr.flashPtr + 64) (n - 64 + 49856) (chanDone (hifMaster 0 0) 0 64 s) with
        | (false, s) => flashEnd 6 s
        | (true, s) =>
          let s := chanDone (hifMaster 0 0) 0 (n - 64 + 49856) s
          let b := padTo (n + 49856) data
          if !slhVerify slh256f (romKey s 3) (b.take n) (b.drop n) then flashEnd 3 s
          else if leAt h 4 4 < s.pwr.fwFloor then flashEnd 4 s
          else if flashErr then flashEnd 7 s
          else
            let x : FwSlot := ⟨true, leAt h 4 4, leAt h 8 4, shake256 32 (b.take n)⟩
            let s := modPwr (fun p => if u = 0 then { p with slotA := x } else { p with slotB := x }) s
            flashEnd 0 (modBoot 9 u (fun _ => Ledger.blank) s))

/-! ### PLLs (R458; log entry 57) -/

/-- The hash PLL and the common PLL run in every mode except GUARD. -/
def commonPll (s : State) : Bool := s.pwr.main && decide (s.pwr.mode ≠ .guard)
/-- A cluster PLL runs, asleep or awake, until the whole cluster is fenced. -/
def clusterPll (s : State) (c : Nat) : Bool := commonPll s && (List.range 9).any fun k => !(s.cpu.fenced.contains (9 * c + k))
/-- A port PLL runs while PHL_PORT_CTL.ENABLE is 1. -/
def portPll (s : State) (p : Nat) : Bool := commonPll s && (portOf s p).enable

/-! ### Idle lanes and the debug TAP (R461, R528) -/

/-- A modular or lattice lane, of port 24 to 29, is clock-gated: it is idle. -/
def laneGated (s : State) (n : Nat) : Bool := decide (24 ≤ n) && (laneOf s n).queue.isEmpty

/-- The debug TAP answers more than BYPASS: a grant is open (R363, R528). -/
def tapOpen (s : State) : Bool := s.lcy.intGrant.isSome || s.lcy.scanGrant.isSome

/-! ### GPIO3 (R525-R527) -/

/-- GPIO_CTL_WRITE (R525): both enables at once, or a direct move from one to the other, is refused with CONFLICT (log entry 57). -/
def execGpioCtlWrite (value : Nat) (s : State) : Res :=
  .next (regWrote 0 <|
    let pps := value.testBit 1
    let svc := value.testBit 0
    if !regsAnswer s then s
    else
      let s := modPwr (fun p => { p with gpioConflict := p.gpioConflict && !value.testBit 31 }) s
      if (pps ∧ svc) ∨ (pps ∧ s.pwr.svcEn) ∨ (svc ∧ s.pwr.ppsEn) then modPwr (fun p => { p with gpioConflict := true }) s
      else modPwr (fun p => { p with ppsEn := pps, svcEn := svc }) s)

/-- The level of ball GPIO3 (R525-R527): SVC_OK is high while HIF_SVC_STATE.MODE reads ACTIVE or STANDBY and low otherwise, PPS_OUT is high
for its 10 µs; none is high impedance, with both enables 0 and in GUARD. -/
def gpio3 (s : State) : Option Bool :=
  if !s.pwr.main ∨ s.pwr.mode = .guard then none
  else if s.pwr.svcEn then some (decide (s.hif.svcMode = .active) || decide (s.hif.svcMode = .standby))
  else if s.pwr.ppsEn then some (match s.pwr.ppsUntil with | some e => decide (s.time.refCount < e) | none => false)
  else none

/-- PPS_PULSE (R527): once at each whole second of device time. -/
def execPpsPulse (s : State) : Res :=
  .next (
    match s.time.dev with
    | none => s
    | some t =>
      let sec := t / 1000000
      if !s.pwr.main ∨ !(match s.pwr.ppsSecond with | some k => decide (k < sec) | none => decide (t % 1000000 = 0)) then s
      else
        let s := modPwr (fun p => { p with ppsSecond := some sec }) s
        if s.pwr.ppsEn then emit .pps (modPwr (fun p => { p with ppsUntil := some (s.time.refCount + 1000) }) s) else s)

end Sys2Proof.Machine
end

