-- ==== Sys2Proof/Machine/RegWords.lean ====
section
/-!
DEFINITION. The set-up register map as software reads it: which page an offset falls in, the 64-bit registers, the read-clear words, and the
32-bit word of every register (R499-R508, R533, R534). Block offsets are those of R499.
-/

namespace Sys2Proof.Machine

/-! ### Where registers are (R499, R534) -/

/-- The function page behind offset `off` of function `fn`'s BAR0: the function and the offset in its pages. -/
def pageAt (fn off : Nat) : Option (Nat × Nat) :=
  if fn ≠ 0 then (if fn ≤ 1024 then some (fn, off) else none)
  else if 0x3000000 ≤ off ∧ off < 0x3010000 then some (0, off - 0x3000000) else none

/-- Index and offset in it of element `i < n` of an array of `stride` bytes at `base`. -/
def elem (base stride n off : Nat) : Option (Nat × Nat) :=
  if base ≤ off ∧ off < base + stride * n then some ((off - base) / stride, (off - base) % stride) else none

/-- A read of function `fn`'s BAR0 is answered (R502, R504). -/
def readOpen (s : State) (fn : Nat) : Bool := regsAnswer s && fnExists s fn && (decide (fn = 0) || !(fnOf s fn).d3)

/-! ### 64-bit registers (R503) -/

/-- Global counter `g` is visible to VF `f` (R491). -/
def ctrVisible (s : State) (f g : Nat) : Bool :=
  let x := filterOf s g
  x.share && x.funcEn && decide (x.func = f) && decide (x.priv ≠ 3)

/-- A meter page of function `f` (R394): totals, then the last receipt's SEQ and MINUTE_LAST. -/
def meterReg (s : State) (f k : Nat) : Option Nat :=
  if k < 16 then some (tget 0 s.mtr.total (16 * f + k))
  else if k = 16 then some (rcptOf s f).seq
  else if k = 17 then some (rcptOf s f).minute
  else none

/-- The value of the 64-bit register at page offset `p` of function `f`, none where there is none (R500, R533, R534). -/
def page64 (s : State) (f p : Nat) : Option Nat :=
  let x := fnOf s f
  match elem 0x2000 0x40 4 p with
  | some (n, 0) => some (x.rings.getD n Ring.blank).sqBase
  | some (n, 8) => some (x.rings.getD n Ring.blank).cqBase
  | some _ => none
  | none =>
    if p = 0x2100 then some x.rptBase
    else if p = 0x2200 then some (if f = 0 then 0 else x.dirBase)
    else if p = 0x2210 then some (if f = 0 then 0 else x.progBase)
    else if p = 0x2218 then some (if f = 0 then 0 else x.rcptCopy)
    else match elem 0x4000 8 18 p, elem 0x4100 8 32 p with
      | some (k, 0), _ => meterReg s f k
      | _, some (g, 0) => some (if f ≠ 0 ∧ ctrVisible s f g then (ctrOf s (1140 + g)).count else 0)
      | _, _ => none

/-- Device time as MTR_TIME_LO and MTR_TIME_HI read. -/
def timeWord (s : State) : Nat := match s.time.dev with | some t => t % 2 ^ 64 | none => 2 ^ 64 - 1

/-- The value of the 64-bit register at PF BAR0 offset `off` outside the function pages. -/
def block64 (s : State) (off : Nat) : Option Nat :=
  if off = 0x30008 then some s.kst.vaultBase
  else if off = 0x700C0 then some s.tmp.unlockPtr
  else if off = 0x80008 then some s.lcy.reqPtr
  else if off = 0xA0000 then some (timeWord s)
  else if off = 0xA0010 then some s.mtr.base
  else if off = 0xB0708 then some (i3cPid s)
  else if off = 0xD0020 then some s.pwr.flashPtr
  else if off = 0x130200 then some (s.cnt.base + s.cnt.log2)
  else match elem 0x50000 0x10 8 off, elem 0x110000 0x10 1172 off, elem 0x120000 0x20 32 off, elem 0x2800000 0x100 1025 off with
    | some (n, 0), _, _, _ => some (s.hif.hrStage.getD n HostRegion.none).base
    | _, some (i, 8), _, _ => some (ctrOf s i).count
    | _, _, some (g, 8), _ => some (filterOf s g).alo
    | _, _, some (g, 16), _ => some (filterOf s g).ahi
    | _, _, _, some (f, b) => if b % 8 = 0 then meterReg s f (b / 8) else none
    | _, _, _, _ => none

/-- The value of the 64-bit register at offset `off` of function `fn`'s BAR0. -/
def reg64 (s : State) (fn off : Nat) : Option Nat :=
  match pageAt fn off with
  | some (f, p) => page64 s f p
  | none => if fn = 0 then block64 s off else none

/-- Change cluster `c`'s sampling. -/
def modSamp (c : Nat) (g : Samp → Samp) (s : State) : State := modCnt (fun x => { x with samps := x.samps.modify c g }) s

/-! ### Read-clear fields (R507) -/

/-- The word of a register that holds an RC field in function `f`'s pages, and the state its read leaves. -/
def pageRc (s : State) (f p : Nat) : Option (Nat × State) :=
  match elem 0x2000 0x40 4 p with
  | some (n, 0x14) =>
    let r := ringOf s f n
    some (ringCode r.st * 2 ^ 30 + r.dbErrors, modRing f n (fun r => { r with dbErrors := 0 }) s)
  | _ => none

/-- The word of a register that holds an RC field in the fabric and pair blocks, and the state its read leaves. -/
def fabricRc (s : State) (off : Nat) : Option (Nat × State) :=
  if off = 0xB0214 then some (s.phl.auditFails * 65536 + s.phl.audits, modPhl (fun x => { x with auditFails := 0 }) s)
  else if off = 0xB0224 then some (s.phl.evtLost, modPhl (fun x => { x with evtLost := 0 }) s)
  else if off = 0xB0700 then
    some (b2n s.i3c.da.isSome * 2 ^ 31 + s.i3c.da.getD 0 * 2 ^ 24 + s.i3c.eid * 65536 + s.i3c.queue.length * 256 + s.i3c.dropped,
      modI3c (fun c => { c with dropped := 0 }) s)
  else if off = 0xC0050 then
    some (min 65535 s.par.retained.length * 65536 + s.par.resends * 256 + s.par.maxAck,
      modPar (fun p => { p with resends := 0, maxAck := 0 }) s)
  else if off = 0xC0054 then
    some (s.par.lvds.faults * 65536 + s.par.fab.faults,
      modPar (fun p => { p with lvds := { p.lvds with faults := 0 }, fab := { p.fab with faults := 0 } }) s)
  else match elem 0xB0010 0x20 8 off with
    | some (p, 8) => some (portErrWord (portOf s p), modPort8 p (fun x => { x with crc := 0, replays := 0 }) s)
    | some (p, 12) =>
      some (portDropWord (portOf s p), modPort8 p (fun x => { x with dHops := 0, dNoroute := 0, dFormat := 0, dLost := 0 }) s)
    | _ => none

/-- The word of a register that holds an RC field in PF BAR0 outside the function pages, and the state its read leaves. -/
def blockRc (s : State) (off : Nat) : Option (Nat × State) :=
  if off = 0x10028 then
    some (b2n s.slm.conflict * 2 ^ 31 + s.slm.late * 2 ^ 15 + s.slm.lift.length, modSlm (fun m => { m with late := 0 }) s)
  else if off = 0x10034 then some (s.slm.forcedWakes, modSlm (fun m => { m with forcedWakes := 0 }) s)
  else if off = 0x20004 then some (s.lanes.mismatches * 65536 + b2n s.lanes.allBlock, modLanes (fun l => { l with mismatches := 0 }) s)
  else if off = 0x50084 then some (s.mov.vioLost * 65536 + s.mov.vios.length, modMov (fun m => { m with vioLost := 0 }) s)
  else if off = 0x90004 then
    some (s.aud.crcErrors * 2 ^ 20 + s.aud.buf.length * 2 ^ 13 + s.aud.staging.length, modAud (fun a => { a with crcErrors := 0 }) s)
  else if off = 0xA0020 then some (s.mtr.tail * 2 ^ 20 + s.mtr.deferred, modMtr (fun m => { m with deferred := 0 }) s)
  else if off = 0xE0010 then some (s.dbg.lost * 65536 + s.dbg.errs.length, modDbg (fun d => { d with lost := 0 }) s)
  else match elem 0xE0100 4 0x18 off, elem 0x130000 0x20 16 off with
    | some (d, 0), _ =>
      if d = 0 then none
      else some (tget 0 s.dbg.corr d * 65536 + tget 0 s.dbg.uncorr d,
        modDbg (fun x => { x with corr := tset 0 x.corr d 0, uncorr := tset 0 x.uncorr d 0 }) s)
    | _, some (c, 8) =>
      let m := s.cnt.samps.getD c Samp.blank
      some (m.lost * 65536 + m.entries.length, modSamp c (fun m => { m with lost := 0 }) s)
    | _, _ => fabricRc s off

/-! ### 32-bit words as they read (R499-R507) -/

/-- The 32-bit word at byte `k` of a register array that holds bytes. -/
def dataWord (d : Bytes) (k : Nat) : Nat := leAt d k 4

/-- Two 16-bit registers read as one word. -/
def halves (lo hi : Nat) : Nat := lo % 65536 + hi % 65536 * 65536

/-- Bit `i` of a list of flags, as a number. -/
def bitsWord (bs : List Bool) : Nat := (bs.zipIdx.map fun b => b2n b.1 * 2 ^ b.2).sum

/-- Tokens of function `f` in a state. -/
def fnToks (s : State) (f : Nat) (p : Token → Bool) : Nat :=
  min 65535 (s.slm.toks.filter fun e => decide (e.2.func = f) && decide (e.2.st ≠ .free) && p e.2).length

/-- SLM_FN_QDEPTH_n: tokens of function `f` in READY in class `n`. -/
def qdepth (s : State) (f n : Nat) : Nat := fnToks s f fun t => decide (t.st = .ready) && decide (t.cls = n)

/-- A word of the Slalom page of function `f`, at page offset `p` (R265). -/
def slmPage (s : State) (f p : Nat) : Nat :=
  match elem 0x400 4 4 p, elem 0x800 4 177 p, elem 0xB00 4 177 p with
  | some (k, _), _, _ => halves (qdepth s f (2 * k)) (qdepth s f (2 * k + 1))
  | _, some (b, _), _ => tget 0 (fnOf s f).histWait b % 2 ^ 32
  | _, _, some (b, _) => tget 0 (fnOf s f).histTotal b % 2 ^ 32
  | _, _, _ =>
    if p = 0x410 then
      halves (fnToks s f fun t => decide (t.st = .urgent))
        (fnToks s f fun t => decide (t.st = .held) || decide (t.st = .mirror) || decide (t.st = .expired))
    else if p = 0x414 then
      halves (fnToks s f fun t => decide (t.st = .liftNb) || decide (t.st = .liftWait)) (fnToks s f fun t => decide (t.st = .parked))
    else if p = 0x418 then (fnOf s f).races
    else 0

/-- STATE of HIF_FN_RESET_STATE. -/
def rstCode : RstWord → Nat
  | .idle => 0 | .resetting => 1 | .done => 2

/-- HIF_DEV_ID at stepping B1 (R1): part 0x7260, stepping 0xB1, map 0x01. -/
def devIdWord : Nat := 0x7260B101

/-- A word of function `f`'s identity page, read-only (R37, R499). -/
def idPage (s : State) (f p : Nat) : Nat :=
  if p = 0 then devIdWord
  else if p = 4 then f
  else if p = 8 then svcWord s f
  else if p = 0xC then (fnOf s f).rstSeq % 65536 * 65536 + rstCode (fnOf s f).rstWord
  else slmPage s f p

/-- A word of an MSI-X table entry (R58). -/
def msixWord (e : MsixEntry) (b : Nat) : Nat :=
  if b = 0 then e.addr % 2 ^ 32 else if b = 4 then e.addr / 2 ^ 32 else if b = 8 then e.data else b2n e.mask

/-- A plain word of function `f`'s pages, at page offset `p`; every byte that no register holds reads 0 (R500, R533, R534). -/
def pageWord (s : State) (f p : Nat) : Nat :=
  let x := fnOf s f
  match elem 0x2000 0x40 4 p, elem 0x3000 16 x.msix.length p with
  | some (n, 0x10), _ => ringCtlWord (ringOf s f n)
  | some _, _ => 0
  | _, some (i, b) => msixWord (x.msix.getD i ⟨0, 0, true, false⟩) b
  | _, _ =>
    if p < 0x1000 then idPage s f p
    else if p = 0x2208 then (if f = 0 then 0 else x.dirSize)
    else if p = 0x220C then (if f = 0 then 0 else x.missThresh)
    else if p = 0x3800 then bitsWord (x.msix.map fun e => e.pend)
    else if p = 0x40F8 then (if f = 0 then 0 else bitsWord ((List.range 32).map (ctrVisible s f)))
    else 0

/-- HIF block. -/
def hifWord (s : State) (off : Nat) : Nat :=
  let h := s.hif
  let share := fun (x : Share) (k : Nat) => [x.tokens, x.flows, x.keys, x.dispatch].getD k 0
  match elem 0x10 4 4 off, elem 0x40 4 4 off, elem 0x50 4 4 off with
  | some (k, _), _, _ => share h.req k
  | _, some (k, _), _ => share h.snapFree k
  | _, _, some (k, _) => share h.snapShare k
  | _, _, _ =>
    if off = 0 then h.fnSel
    else if off = 8 then (if h.cmdPend.isSome then 15 else h.cmdResult)
    else if off = 0x20 then (fnOf s h.fnSel).ops
    else if off = 0x60 then h.resetLast
    else 0

/-- Ones of a history of 1,024 ticks. -/
def loadOnes (h : Nat) : Nat := ((List.range 1024).filter fun i => h.testBit i).length

/-- SLM_CORE_LOAD_p (R267): IN_SERVICE and LOAD, in units of 1/65,536; a spare or fenced core reads 0. -/
def coreLoadWord (s : State) (p : Nat) : Nat :=
  if (logicalOf s p).isSome then 2 ^ 16 + min 0xFFFF (64 * loadOnes (tget 0 s.slm.load p)) else 0

/-- Slalom block. -/
def slmWord (s : State) (off : Nat) : Nat :=
  let m := s.slm
  match elem 0 4 7 off, elem 0x60 4 8 off, elem 0x100 4 144 off with
  | some (n, _), _, _ => m.ageThresh.getD n 0
  | _, some (k, _), _ => dataWord m.tokenData (4 * k)
  | _, _, some (p, _) => coreLoadWord s p
  | _, _, _ =>
    if off = 0x1C then m.urgThresh
    else if off = 0x20 then m.minAwake * 2 ^ 24 + m.margin * 2 ^ 12 + m.sleepIdle
    else if off = 0x24 then m.qPace * 2 ^ 18 + m.qEnt * 2 ^ 9 + m.qRetry
    else if off = 0x30 then
      bitsWord (m.clusters.map fun c => decide (c = .waking)) * 65536 + bitsWord (m.clusters.map fun c => decide (c = .awake))
    else if off = 0x40 then m.tokenSel
    else 0

/-- LANE_FENCE (R178). -/
def laneFenceWord (s : State) : Nat :=
  s.lanes.blkSpares * 2 ^ 30 + b2n s.lanes.hashSpare * 2 ^ 29 + s.lanes.latFenced * 2 ^ 27 + s.lanes.hashFenced * 2 ^ 18 + s.lanes.blkFenced

/-- Key store block; KST_BUDGET_FREE gives the ledger's free slots (R145). -/
def kstWord (s : State) (off : Nat) : Nat :=
  if off = 0 then s.kst.fetchTimeout * 2 ^ 8 + b2n s.kst.fetchRsv
  else if off = 0x10 then (fnOf s s.hif.fnSel).budgetLimit
  else if off = 0x14 then 4096 - s.kst.ledger.length
  else 0

/-- Movers block. -/
def movWord (s : State) (off : Nat) : Nat :=
  match elem 0x100 0x20 64 off with
  | some (n, b) =>
    let c := chan s n
    if b = 0 then c.qbase
    else if b = 4 then c.qlog2
    else if b = 0xC then b2n c.abort
    else if b = 0x10 then statWord c.code c.retries c.residue
    else 0
  | none => if off = 0 then s.mov.retryCount else if off = 8 then b2n s.mov.conflict * 2 ^ 31 + s.mov.ded else 0

/-- PANE_STATE_m. -/
def paneStateWord (c : Checker) : Nat :=
  b2n (decide (c.oldCount = 0)) * 2 ^ 31 +
  (match c.shadow with | .empty => 0 | .loading => 1 | .ready => 2 | .refused => 3) * 2 ^ 29 +
  b2n c.activeB * 2 ^ 28 + (if c.activeB then c.paneB else c.paneA).func % 2048 * 2 ^ 17 + c.oldCount

/-- PANE block. -/
def paneWord (s : State) (off : Nat) : Nat :=
  match elem 0 0x10 8 off, elem 0xA0 4 8 off, elem 0x400 4 208 off with
  | some (n, b), _, _ =>
    let r := s.hif.hrStage.getD n HostRegion.none
    if b = 8 then r.pages else if b = 12 then r.attr else 0
  | _, some (k, _), _ => dataWord s.mov.vioData (4 * k)
  | _, _, some (m, _) => paneStateWord (checker s m)
  | _, _, _ => if off = 0x80 then b2n s.mov.paneConflict else 0

/-- Entropy block. -/
def entWord (s : State) (off : Nat) : Nat :=
  let src := fun (k : Nat) => if k = 0 then s.ent.srcA else s.ent.srcB
  match elem 0x10 4 2 off, elem 0x20 0x20 2 off, elem 0x80 4 16 off with
  | some (k, _), _, _ => let x := src k; x.rct * 2 ^ 24 + x.apt * 2 ^ 16 + x.est * 2 ^ 8 + x.retests
  | _, some (k, b), _ =>
    let x := src k
    if b = 0 then x.ones
    else if b < 0x14 then x.agree.getD (b / 4 - 1) 0
    else if b = 0x14 then x.minent % 65536
    else if b = 0x18 then x.block % 2 ^ 32
    else 0
  | _, _, some (i, _) =>
    match s.ent.drbgs[i]? with
    | some d => b2n d.halted * 2 ^ 31 + b2n d.stretched * 2 ^ 30 + b2n d.ready * 2 ^ 29 + d.count
    | none => 0
  | _, _, _ =>
    if off = 4 then
      bitsWord (s.ent.drbgs.map fun d => d.ready) * 65536 + s.ent.queue.length * 2 ^ 10 + s.ent.sel * 2 ^ 9 +
        srcCode s.ent.srcB.st * 2 ^ 6 + srcCode s.ent.srcA.st * 2 ^ 3
    else if off = 0xC0 then s.ent.switches % 2 ^ 32
    else 0

/-- TMP_MON_m. -/
def monWord (s : State) (m : Nat) : Nat :=
  let x := monAt s m
  b2n (monLive x) * 2 ^ 31 + b2n x.dis * 2 ^ 30 + detCode x.det1 * 2 ^ 28 + detCode x.det2 * 2 ^ 26 + x.cls * 2 ^ 24 + x.disCls * 2 ^ 22 +
  monFloor m * 2 ^ 20 + b2n (monUsed s m) * 2 ^ 19 + x.count

/-- Tamper block. -/
def tmpWord (s : State) (off : Nat) : Nat :=
  match elem 0 4 18 off, elem 0xA0 4 8 off with
  | some (m, _), _ => monWord s m
  | _, some (k, _) => dataWord s.tmp.challenge (4 * k)
  | _, _ =>
    if off = 0x80 then b2n s.tmp.lock * 2 ^ 31 + b2n s.tmp.erased * 2 ^ 30 + s.tmp.cause * 2 ^ 24 + min 255 s.aud.ovf * 2 ^ 16 + s.tmp.lockSeq
    else if off = 0xCC then (if s.tmp.busy then 1 else s.tmp.result)
    else if off = 0xD0 then b2n s.tmp.encBurned * 2 ^ 8 + s.tmp.encUse
    else 0

/-- Life-cycle block. -/
def lcyWord (s : State) (off : Nat) : Nat :=
  let l := s.lcy
  let c := l.chals.getD l.chalSlot Chal.empty
  match elem 0x60 4 8 off with
  | some (k, _) => dataWord c.data (4 * k)
  | none =>
    if off = 0 then recsUsed l.recs * 2 ^ 16 + l.returns * 2 ^ 13 + l.redeploys * 2 ^ 11 + l.deployCount * 2 ^ 8 + lcsCode l.state
    else if off = 0x14 then l.reqResult
    else if off = 0x40 then l.chalSlot
    else if off = 0x44 then c.state * 2 ^ 30 + (if c.state = 0 then 0 else min 511 ((tick s - c.tick) / 1000000))
    else 0

/-- Event recorder block. -/
def audWord (s : State) (off : Nat) : Nat :=
  match elem 0x20 4 8 off, elem 0x40 4 8 off with
  | some (k, _), _ => dataWord s.aud.chain (4 * k)
  | _, some (k, _) => dataWord s.aud.peer (4 * k)
  | _, _ =>
    if off = 0 then
      b2n s.aud.shutter.isSome * 2 ^ 31 + b2n (logFull s) * 2 ^ 30 + b2n (decide (458752 ≤ logUsed s)) * 2 ^ 29 + min (2 ^ 20 - 1) (logUsed s)
    else if off = 8 then s.aud.logNo % 65536 * 65536
    else if off = 0xC then (s.aud.present - 1) % 2 ^ 32
    else 0

/-- Metering block. -/
def mtrWord (s : State) (off : Nat) : Nat :=
  if off = 8 then (s.time.slew % 65536).toNat * 65536 + b2n s.mtr.disciplined * 2 + b2n s.time.dev.isSome
  else if off = 0x18 then s.mtr.log2 * 2 + b2n s.mtr.enable
  else 0

/-- Fabric block. -/
def phlWord (s : State) (off : Nat) : Nat :=
  let x := s.phl
  match elem 0x10 0x20 8 off, elem 0x230 4 4 off, elem 0x440 4 72 off, elem 0x800 4 32 off with
  | some (p, b), _, _, _ =>
    if b = 0 then b2n (portOf s p).force56 * 2 + b2n (portOf s p).enable else if b = 4 then portStatWord (portOf s p) else 0
  | _, some (k, _), _, _ => dataWord x.evtData (4 * k)
  | _, _, some (k, _), _ => dataWord x.mrxData (4 * k)
  | _, _, _, some (i, _) =>
    let c := credOf s (i / 4) (i % 4)
    credTotal (i % 4) * 2 ^ 20 + c.rsv * 2 ^ 10 + c.held
  | _, _, _, _ =>
    if off = 0 then b2n x.cfgLock * 2 ^ 31 + x.fmAddr * 65536 + x.hopLimit * 2 ^ 8
    else if off = 4 then phlAddrWord s
    else if off = 0x200 then x.routeSel
    else if off = 0x204 then tget 0 x.route x.routeSel
    else if off = 0x210 then x.auditPeriod
    else if off = 0x420 then b2n x.mtxBusy * 2
    else if off = 0x424 then x.mrx.length * 2 ^ 8 + x.mrxDropped
    else if off = 0x600 then x.role * 65536 + x.upstream * 2 ^ 12 + x.syncPeriod
    else if off = 0x604 then b2n s.mtr.disciplined * 2 ^ 31 + b2n x.timeFar * 2 ^ 30 + x.distance * 2 ^ 24
    else if off = 0x608 then (x.offset % 2 ^ 32).toNat
    else 0

/-- PAR_LEASE_l (R433): µs left of a holder's lease, or of a standby's view of it. -/
def leaseWord (s : State) (l : Nat) : Nat :=
  let x := latch s l
  b2n x.holder * 2 ^ 31 + min 1023 (((if x.holder then x.leaseEnd else x.view) - s.time.refCount) / 100)

/-- PAR_STAT. -/
def parStatWord (s : State) : Nat :=
  let p := s.par
  b2n p.key.isSome * 2 ^ 12 + b2n p.unitFault * 2 ^ 11 + b2n p.fab.ok * 2 ^ 10 + b2n p.lvds.ok * 2 ^ 9 +
  b2n (p.lvds.txOk || p.fab.txOk) * 2 ^ 8 + b2n (eligible s) * 2 ^ 7 + b2n p.pElig * 2 ^ 6 +
  bitsWord [current s 0, current s 1] * 2 ^ 4 + bitsWord [p.l0.pCur, p.l1.pCur] * 2 ^ 2 + bitsWord [p.l0.holder, p.l1.holder]

/-- Pair block. -/
def parWord (s : State) (off : Nat) : Nat :=
  let p := s.par
  match elem 0x10 4 4 off, elem 0x30 4 2 off, elem 0x100 4 32 off with
  | some (k, _), _, _ => dataWord p.partnerId (4 * k)
  | _, some (l, _), _ => leaseWord s l
  | _, _, some (w, _) => bitsWord ((List.range 32).map fun b => p.load1.contains (32 * w + b + 1))
  | _, _, _ =>
    if off = 0 then p.aloneWait * 2 ^ 12 + p.mirrorTmo * 2 ^ 4 + p.home * 2 + b2n p.bound
    else if off = 8 then p.addr % 4096
    else if off = 0x20 then parStatWord s
    else if off = 0x40 then p.hoLatches * 65536 + p.drain
    else if off = 0x44 then p.hoResult
    else if off = 0x58 then (p.tickOffset % 2 ^ 32).toNat
    else 0

/-- The boot ledger's entries in the order of PWR_LEDGER_SEL.INDEX: by step code, then by unit (R471; log entry 56). -/
def bootIndex : List (Nat × Nat) := stepCodes.flatMap fun step => (List.range (stepUnits step)).map fun u => (step, u)

/-- PWR_LEDGER_DATA: the entry at INDEX; an index that no step uses reads 0 (R471). -/
def ledgerWord (s : State) : Nat :=
  match bootIndex[s.pwr.ledgerSel]? with
  | some (step, unit) =>
    let e := bootOf s step unit
    step * 2 ^ 24 + unit * 65536 + e.last * 2 ^ 12 + e.prev * 2 ^ 8 + e.fails
  | none => 0

/-- Power block. -/
def pwrWord (s : State) (off : Nat) : Nat :=
  let p := s.pwr
  if off = 0 then p.step * 2 ^ 24 + b2n p.held * 2 ^ 23 + p.slot * 2 ^ 22 + b2n p.formatted * 2 ^ 21 + modeCode s.hif.svcMode
  else if off = 4 then p.startCount % 2 ^ 32
  else if off = 8 then p.fwVersion
  else if off = 0x10 then p.ledgerSel
  else if off = 0x14 then ledgerWord s
  else if off = 0x18 then b2n p.retest
  else if off = 0x2C then (if p.flashBusy.isSome then 1 else p.flashResult)
  else if off = 0x30 then b2n p.gpioConflict * 2 ^ 31 + b2n p.ppsEn * 2 + b2n p.svcEn
  else 0

/-- Integrity block. -/
def dbgWord (s : State) (off : Nat) : Nat :=
  match elem 0x20 4 8 off with
  | some (k, _) => dataWord s.dbg.data (4 * k)
  | none =>
    if off = 0 then b2n s.lcy.scanGrant.isSome * 2 + b2n s.lcy.intGrant.isSome
    else if off = 0x80 then s.cpu.short * 65536 + s.cpu.spareUsed
    else if off = 0x84 then min 255 s.dbg.xbarFenced.length * 2 ^ 8 + s.dbg.sillSpares * 2 ^ 5 + s.lanes.modFenced
    else if off = 0xC0 then
      (match s.dbg.inj with | some i => i.point * 65536 + i.left * 2 ^ 8 + b2n i.full * 2 + 1 | none => 0)
    else 0

/-- CNT_EVT of a counter. -/
def evtWord (c : Ctr) : Nat :=
  b2n c.enable * 2 ^ 31 + b2n c.chain * 2 ^ 30 + b2n c.ovf * 2 ^ 29 + b2n c.irq * 2 ^ 28 + c.event

/-- CNT_GF_SEL of a global counter. -/
def gfSelWord (x : GFilter) : Nat :=
  b2n x.share * 2 ^ 31 + x.priv * 2 ^ 29 + x.space * 2 ^ 28 + b2n x.addrEn * 2 ^ 27 + b2n x.masterEn * 2 ^ 26 + b2n x.funcEn * 2 ^ 25 +
  x.func * 2 ^ 8 + x.master

/-- CNT_SAMP_CTL of a cluster. -/
def sampCtlWord (m : Samp) : Nat :=
  b2n m.enable * 2 ^ 31 + b2n m.sIdle * 2 ^ 30 + b2n m.sProg * 2 ^ 29 + b2n m.sFw * 2 ^ 28 + b2n m.funcEn * 2 ^ 27 + m.func * 65536 + m.cores * 2 ^ 8

/-- Counter block, offsets from 0x10_0000. -/
def cntWord (s : State) (off : Nat) : Nat :=
  match elem 0x10000 0x10 1172 off, elem 0x20000 0x20 32 off, elem 0x30000 0x20 16 off with
  | some (i, b), _, _ => if b = 0 then evtWord (ctrOf s i) else 0
  | _, some (g, b), _ => if b = 0 then gfSelWord (filterOf s g) else 0
  | _, _, some (c, b) =>
    let m := s.cnt.samps.getD c Samp.blank
    if b = 0 then sampCtlWord m else if b = 4 then m.period * 65536 + m.jitter * 2 ^ 8 else 0
  | _, _, _ =>
    if off = 0 then b2n s.cnt.freeze * 2 ^ 31
    else if off = 8 then s.cnt.latThresh
    else if off = 0xC then s.cnt.waitThresh
    else if off = 0x3020C then s.cnt.tail
    else 0

/-- A plain word of PF BAR0 outside the PF's own function pages; every offset not listed reads 0 (R499). -/
def blockWord (s : State) (off : Nat) : Nat :=
  let b := off % 0x10000
  if off < 0x10000 then hifWord s b
  else if off < 0x20000 then slmWord s b
  else if off < 0x30000 then (if b = 0 then laneFenceWord s else 0)
  else if off < 0x40000 then kstWord s b
  else if off < 0x50000 then movWord s b
  else if off < 0x60000 then paneWord s b
  else if off < 0x70000 then entWord s b
  else if off < 0x80000 then tmpWord s b
  else if off < 0x90000 then lcyWord s b
  else if off < 0xA0000 then audWord s b
  else if off < 0xB0000 then mtrWord s b
  else if off < 0xC0000 then phlWord s b
  else if off < 0xD0000 then parWord s b
  else if off < 0xE0000 then pwrWord s b
  else if off < 0xF0000 then dbgWord s b
  else if 0x100000 ≤ off ∧ off < 0x140000 then cntWord s (off - 0x100000)
  else match elem 0x2000000 0x1000 1025 off with
    | some (f, p) => idPage s f p
    | none => 0

/-! ### Reads with an effect (R41, R293, R413, R418, R477, R507) -/

/-- A register whose read returns 1 and moves the oldest entry of its queue, or returns 0 on an empty one, and HIF_POOL_SNAP. -/
def nextRead (s : State) (off : Nat) : Option (Nat × State) :=
  if off = 0x30 then some (poolTake s)
  else if off = 0x50088 then some (vioTake s)
  else if off = 0xB0220 then some (evtTake s)
  else if off = 0xB0428 then some (mrxTake s)
  else if off = 0xE0014 then some (errTake s)
  else none

/-- A register of function `fn`'s BAR0 whose read has an effect: its word, and the state the read leaves. -/
def effRead (s : State) (fn off : Nat) : Option (Nat × State) :=
  match pageAt fn off with
  | some (f, p) => pageRc s f p
  | none => if fn = 0 then (match blockRc s off with | some r => some r | none => nextRead s off) else none

/-- The 32-bit word at an aligned offset of function `fn`'s BAR0 and the state that reading it leaves: a half of a 64-bit register as it is
now, a register whose read has an effect, or a plain word (R503, R507). -/
def wordRead (s : State) (fn off : Nat) : Nat × State :=
  match reg64 s fn off with
  | some v => (v % 2 ^ 32, s)
  | none =>
    match if off < 4 then none else reg64 s fn (off - 4) with
    | some v => (v / 2 ^ 32, s)
    | none =>
      match effRead s fn off with
      | some r => r
      | none =>
        match pageAt fn off with
        | some (f, p) => (pageWord s f p, s)
        | none => (if fn = 0 then blockWord s off else 0, s)

/-- The `width` bytes at offset `off` of a word (R503). -/
def wordBytes (v off width : Nat) : Nat := v / 256 ^ (off % 4) % 256 ^ width

end Sys2Proof.Machine
end

