-- ==== Sys2Proof/Machine/Registers.lean ====
section
/-!
DEFINITION. Plain register access, read-clear fields, split 64-bit accesses, MSI-X masks, VF Enable, the counter block's controls, and
samples (R33, R58, R487-R498, R499-R508, R534).
-/

namespace Sys2Proof.Machine

/-! ### Who may write (R501, R504) -/

/-- A write at an offset reaches its register: in START, only in the PWR and LCY blocks (R504). -/
def writeOpen (s : State) (fn off : Nat) : Bool :=
  if fn ≠ 0 then pageOpen s fn
  else if (0xD0000 ≤ off ∧ off < 0xE0000) ∨ (0x80000 ≤ off ∧ off < 0x90000) then regsAnswer s
  else regsOpen s

/-- A function page offset takes no writes while its function is in reset (R501). -/
def pageShut (s : State) (f p : Nat) : Bool := (fnOf s f).rst.isSome && decide (0x2000 ≤ p) && decide (p < 0x4000)

/-! ### 64-bit registers written whole (R503) -/

/-- Write a 64-bit register of function `f`'s pages whole. KST_DIR_BASE and HIF_PROG_BASE have their own commands' effect. -/
def page64Write (f p v : Nat) (s : State) : State :=
  match elem 0x2000 0x40 4 p with
  | some (n, 0) => modRing f n (fun r => if r.st = .idle then { r with sqBase := v % 2 ^ 64 / 4096 * 4096 } else r) s
  | some (n, 8) => modRing f n (fun r => if r.st = .idle then { r with cqBase := v % 2 ^ 64 / 4096 * 4096 } else r) s
  | some _ => s
  | none =>
    if p = 0x2100 then modFn f (fun x => { x with rptBase := v % 2 ^ 64 / 4096 * 4096 }) s
    else if f = 0 then s
    else if p = 0x2200 then keyDirSet f 0 v s
    else if p = 0x2210 then progBaseSet f v s
    else if p = 0x2218 then modFn f (fun x => { x with rcptCopy := v % 2 ^ 64 / 2 ^ 20 * 2 ^ 20 + v % 2 }) s
    else s

/-- A VF is bound: it holds an occupied LMK slot (R112, R508). -/
def anyBound (s : State) : Bool := s.kst.lmks.any fun e => e.2.s0.occ || e.2.s1.occ

/-- Write a 64-bit register of PF BAR0 outside the function pages whole. -/
def block64Write (off v : Nat) (s : State) : State :=
  let v := v % 2 ^ 64
  if off = 0x30008 then (if anyBound s then s else modKst (fun k => { k with vaultBase := v / 4096 * 4096 }) s)
  else if off = 0x700C0 then modTmp (fun t => { t with unlockPtr := v / 64 * 64 }) s
  else if off = 0x80008 then modLcy (fun l => { l with reqPtr := v / 64 * 64 }) s
  else if off = 0xA0010 then (if s.mtr.enable then s else modMtr (fun m => { m with base := v / 65536 * 65536 }) s)
  else if off = 0xD0020 then modPwr (fun p => { p with flashPtr := v / 64 * 64 }) s
  else if off = 0x130200 then
    (if s.cnt.samps.any fun m => m.enable then s
     else modCnt (fun c => { c with base := v / 32768 * 32768, log2 := v % 16 }) s)
  else match elem 0x50000 0x10 8 off, elem 0x110000 0x10 1172 off, elem 0x120000 0x20 32 off with
    | some (n, 0), _, _ => modHif (fun h => { h with hrStage := h.hrStage.modify n fun r => { r with base := v / 4096 * 4096 } }) s
    | _, some (i, 8), _ => modCtr i (fun c => { c with count := v % 2 ^ 48 }) s
    | _, _, some (g, 8) => modCnt (fun c => { c with filters := tmod GFilter.blank c.filters g fun x => { x with alo := v } }) s
    | _, _, some (g, 16) => modCnt (fun c => { c with filters := tmod GFilter.blank c.filters g fun x => { x with ahi := v } }) s
    | _, _, _ => s

/-- A whole 64-bit write (R503). -/
def reg64Write (fn off v : Nat) (s : State) : State :=
  match pageAt fn off with
  | some (f, p) => if pageShut s f p then s else page64Write f p v s
  | none => if fn = 0 then block64Write off v s else s

/-! ### Split accesses (R503) -/

/-- A 32-bit read (R394, R503): a low word latches its high word for this function's next read of that high word; a high word with no low
word read before it is live. MTR_TIME_HI is what the last read of MTR_TIME_LO latched (R373). -/
def splitRead (fn off : Nat) (s : State) : State :=
  if fn = 0 ∧ off = 0xA0000 then
    modTime (fun t => { t with latchHi := timeWord s / 2 ^ 32 }) (emit (.reg (timeWord s % 2 ^ 32)) s)
  else if fn = 0 ∧ off = 0xA0004 then emit (.reg (if s.time.dev.isNone then 0xFFFFFFFF else s.time.latchHi)) s
  else match reg64 s fn off with
    | some v => modFn fn (fun x => { x with latchRd := some (off, v / 2 ^ 32) }) (emit (.reg (v % 2 ^ 32)) s)
    | none =>
      match if off < 4 then none else reg64 s fn (off - 4) with
      | none => emit (.reg (wordRead s fn off).1) (wordRead s fn off).2
      | some v =>
        match (fnOf s fn).latchRd with
        | some (o, h) =>
          if o = off - 4 then modFn fn (fun x => { x with latchRd := none }) (emit (.reg h) s) else emit (.reg (v / 2 ^ 32)) s
        | none => emit (.reg (v / 2 ^ 32)) s

/-- A 64-bit read returns a 64-bit register as one value (R503); of two 32-bit registers, both words, the lower one read first (log entry 59). -/
def longRead (fn off : Nat) (s : State) : State :=
  match reg64 s fn off with
  | some v => emit (.reg v) s
  | none =>
    let lo := wordRead s fn off
    let hi := wordRead lo.2 fn (off + 4)
    emit (.reg (lo.1 + 2 ^ 32 * hi.1)) hi.2

/-- SPLIT_LOW_READ (R394, R502-R504): a read of `width` bytes at BAR0 offset `off` of function `fn`; an 8- or 16-bit read returns the addressed
bytes. An access not aligned to its width names no register and reads nothing. -/
def execSplitLowRead (fn off width : Nat) (s : State) : Res :=
  .next (
    if !readOpen s fn ∨ off % width ≠ 0 then s
    else if width = 4 then splitRead fn off s
    else if width = 8 then longRead fn off s
    else
      let r := wordRead s fn (off / 4 * 4)
      emit (.reg (wordBytes r.1 off width)) r.2)

/-- SPLIT_LOW_WRITE (R503): the low word of a 64-bit register is held for the high word's write. -/
def execSplitLowWrite (fn off value : Nat) (s : State) : Res :=
  .next (
    if !writeOpen s fn off then s
    else modFn fn (fun x => { x with
      heldWr := if (reg64 s fn off).isSome then some (off, value % 2 ^ 32) else none }) s)

/-! ### MSI-X (R58, R534) -/

/-- Clear an entry's mask; a pending message goes out and its pending bit clears (R58). -/
def msixUnmask (f v : Nat) (s : State) : State :=
  match (fnOf s f).msix[v]? with
  | none => s
  | some e =>
    let s := modFn f (fun x => { x with msix := x.msix.modify v fun e => { e with mask := false, pend := false } }) s
    if e.pend then fireMsix f v s else s

/-- MSIX_VECTOR_UNMASK (R58, R501). -/
def execMsixVectorUnmask (fn vec : Nat) (s : State) : Res :=
  .next (
    if !pageOpen s fn ∨ (fnOf s fn).rst.isSome then s
    else regWrote fn (msixUnmask fn vec s))

/-- Write one 32-bit word of an MSI-X entry: address, data, or the vector control's mask. -/
def msixWrite (f v word value : Nat) (s : State) : State :=
  let set := fun (g : MsixEntry → MsixEntry) => modFn f (fun x => { x with msix := x.msix.modify v g }) s
  let value := value % 2 ^ 32
  if word = 0 then set fun e => { e with addr := e.addr / 2 ^ 32 * 2 ^ 32 + value }
  else if word = 1 then set fun e => { e with addr := value * 2 ^ 32 + e.addr % 2 ^ 32 }
  else if word = 2 then set fun e => { e with data := value }
  else if value.testBit 0 then set fun e => { e with mask := true }
  else msixUnmask f v s

/-- VF_ENABLE_SET (R33): the manager sets SR-IOV VF Enable in configuration space. -/
def execVfEnableSet (s : State) : Res :=
  .next (if cfgAnswers s then modHif (fun h => { h with vfEnable := true }) s else s)

/-! ### Plain 32-bit registers (R503) -/

/-- A word of a function's own pages: KST_MISS_CTL and the MSI-X table; every other byte ignores it (R500, R501, R534). -/
def pageWrite (f p v : Nat) (s : State) : State :=
  if pageShut s f p then s
  else if p = 0x220C then (if f = 0 then s else modFn f (fun x => { x with missThresh := v % 65536 }) s)
  else match elem 0x3000 16 (fnOf s f).msix.length p with
    | some (i, b) => if b % 4 = 0 then msixWrite f i (b / 4) v s else s
    | none => s

/-- HIF block: the requested shares and HIF_FN_OPS, which no write changes while RESULT reads BUSY (R40, R70, R71). -/
def hifWrite (off v : Nat) (s : State) : State :=
  if s.hif.cmdPend.isSome then s
  else if off = 0x10 then modHif (fun h => { h with req := { h.req with tokens := v % 2 ^ 17 } }) s
  else if off = 0x14 then modHif (fun h => { h with req := { h.req with flows := v % 2 ^ 19 } }) s
  else if off = 0x18 then modHif (fun h => { h with req := { h.req with keys := v % 2 ^ 20 } }) s
  else if off = 0x1C then modHif (fun h => { h with req := { h.req with dispatch := v % 2 ^ 17 } }) s
  else if off = 0x20 then
    modFn s.hif.fnSel (fun x => { x with ops := if s.hif.fnSel = 0 then Nat.land v 0x0800 else v % 2 ^ 13 }) s
  else s

/-- Slalom block: SLM_AGE_n, SLM_URGENT, SLM_WAKE_CTL, and CONFLICT of SLM_LIFT_STAT. -/
def slmWrite (off v : Nat) (s : State) : State :=
  if off < 0x1C then modSlm (fun m => { m with ageThresh := m.ageThresh.set (off / 4) (v % 65536) }) s
  else if off = 0x1C then modSlm (fun m => { m with urgThresh := v % 65536 }) s
  else if off = 0x20 then
    let s := modSlm (fun m => { m with
      minAwake := max 1 (bitsOf v 27 24), margin := max 4 (bitsOf v 23 12), sleepIdle := max 1 (bitsOf v 11 0) }) s
    if s.pwr.mode = .active ∨ s.pwr.mode = .standby then wakeFloor s else s
  else if off = 0x28 then (if v.testBit 31 then modSlm (fun m => { m with conflict := false }) s else s)
  else s

/-- Movers block: MOV_RETRY, and a channel's QBASE and QCTL, which no write changes while it runs. -/
def movWrite (off v : Nat) (s : State) : State :=
  if off = 0 then modMov (fun m => { m with retryCount := v % 8 }) s
  else match elem 0x100 0x20 64 off with
    | some (n, 0) => modChan n (fun c => if c.code = 15 ∨ c.cur.isSome then c else { c with qbase := bitsOf v 23 6 * 64 }) s
    | some (n, 4) => modChan n (fun c => if c.code = 15 ∨ c.cur.isSome then c else { c with qlog2 := v % 16 }) s
    | _ => s

/-- PANE block: PANE_HR_PAGES_n in the staging copy, and CONFLICT of PANE_FN_STAT (R284, R286). -/
def paneWrite (off v : Nat) (s : State) : State :=
  if off = 0x80 then (if v.testBit 0 then modMov (fun m => { m with paneConflict := false }) s else s)
  else match elem 0 0x10 8 off with
    | some (n, 8) => modHif (fun h => { h with hrStage := h.hrStage.modify n fun r => { r with pages := v % 2 ^ 24 } }) s
    | _ => s

/-- Fabric block: PHL_CTL, PHL_ADDR, route entries, PHL_AUDIT_CTL, the frame to send, and PHL_TIME_CTL. -/
def phlWrite (off v : Nat) (s : State) : State :=
  if off = 0 then
    modPhl (fun x => { x with cfgLock := v.testBit 31, fmAddr := bitsOf v 27 16, hopLimit := max 1 (bitsOf v 15 8) }) s
  else if off = 4 then phlAddrWrite v s
  else if off = 0x200 then modPhl (fun x => { x with routeSel := v % 4096 }) s
  else if off = 0x204 then routeSet s.phl.routeSel (v % 65536) s
  else if off = 0x210 then modPhl (fun x => { x with auditPeriod := max 100 (v % 65536) }) s
  else if off = 0x600 then
    timeFree (modPhl (fun x => { x with
      role := if bitsOf v 17 16 = 3 then x.role else bitsOf v 17 16, upstream := bitsOf v 14 12, syncPeriod := max 100 (v % 4096) }) s)
  else match elem 0x10 0x20 8 off, elem 0x300 4 72 off with
    | some (p, 0), _ => portCtlWrite p v s
    | _, some (i, 0) => modPhl (fun x => { x with mtx := patch x.mtx (4 * i) (leBytes 4 v) }) s
    | _, _ => s

/-- The load map after word `w` is written: bits of created VFs keep their load (PAR_LOAD_MAP_w). -/
def loadMap (s : State) (w v : Nat) : List Nat :=
  ((List.range 1024).map (· + 1)).filter fun f =>
    if (f - 1) / 32 = w ∧ !(fnOf s f).created then v.testBit ((f - 1) % 32) else s.par.load1.contains f

/-- PAR block: PAR_CTL, PAR_HANDOVER, PAR_LOAD_MAP_w. -/
def parWrite (off v : Nat) (s : State) : State :=
  if off = 0 then modPar (fun p => { p with aloneWait := max 1 (bitsOf v 19 12), mirrorTmo := max 1 (bitsOf v 11 4) }) s
  else if off = 0x40 then handoverWrite v s
  else match elem 0x100 4 32 off with
    | some (w, 0) => modPar (fun p => { p with load1 := loadMap s w v }) s
    | _ => s

/-- CNT_CTL: CLEAR sets every COUNT and OVF to 0; FREEZE stops or restarts every counter (R494). -/
def cntCtlWrite (v : Nat) (s : State) : State :=
  modCnt (fun c => { c with
    freeze := v.testBit 31
    ctrs := if v.testBit 30 then c.ctrs.foldl (fun t e => tset Ctr.blank t e.1 { e.2 with count := 0, ovf := false }) [] else c.ctrs }) s

/-- CNT_EVT of counter `i`: OVF clears where a 1 is written. -/
def cntEvtWrite (i v : Nat) (s : State) : State :=
  modCtr i (fun c => { c with
    enable := v.testBit 31, chain := v.testBit 30, ovf := c.ovf && !v.testBit 29, irq := v.testBit 28, event := v % 4096 }) s

/-- CNT_GF_SEL of global counter `g`. -/
def cntSelWrite (g v : Nat) (s : State) : State :=
  modCnt (fun c => { c with filters := tmod GFilter.blank c.filters g fun x => { x with
    share := v.testBit 31, priv := bitsOf v 30 29, space := bitsOf v 28 28, addrEn := v.testBit 27, masterEn := v.testBit 26,
    funcEn := v.testBit 25, func := bitsOf v 18 8, master := v % 256 } }) s

/-- CNT_SAMP_CTL of cluster `c`: ENABLE written 0 discards the entries not yet written (R498). -/
def sampCtlWrite (c v : Nat) (s : State) : State :=
  let s := modSamp c (fun m => { m with
    enable := v.testBit 31, sIdle := v.testBit 30, sProg := v.testBit 29, sFw := v.testBit 28, funcEn := v.testBit 27,
    func := bitsOf v 26 16, cores := bitsOf v 15 8, entries := if v.testBit 31 then m.entries else [] }) s
  if v.testBit 31 then s
  else (List.range 9).foldl (fun s k => modCore (9 * c + k) (fun x => { x with sampDue := [] }) s) s

/-- The slots of the sample ring (CNT_SAMP_RING.LOG2). -/
def sampSlots (s : State) : Nat := 2 ^ s.cnt.log2

/-- CNT_SAMP_HEAD: the slots up to HEAD are consumed; a HEAD out of range is ignored, as MTR_RCPT_HEAD does. -/
def sampHeadWrite (v : Nat) (s : State) : State :=
  let n := sampSlots s
  let k := (v % 1024 + n - s.cnt.head) % n
  if n ≤ v % 1024 ∨ s.cnt.used < k then s
  else modCnt (fun c => { c with head := v % 1024, used := c.used - k }) s

/-- Counter block, offsets from 0x10_0000: CNT_CTL, thresholds, CNT_EVT, filters, sampling. -/
def cntWrite (off v : Nat) (s : State) : State :=
  if off = 0 then cntCtlWrite v s
  else if off = 8 then modCnt (fun c => { c with latThresh := v % 2 ^ 24 }) s
  else if off = 0xC then modCnt (fun c => { c with waitThresh := v % 2 ^ 24 }) s
  else if off = 0x30208 then sampHeadWrite v s
  else match elem 0x10000 0x10 1172 off, elem 0x20000 0x20 32 off, elem 0x30000 0x20 16 off with
    | some (i, 0), _, _ => cntEvtWrite i v s
    | _, some (g, 0), _ => cntSelWrite g v s
    | _, _, some (c, 0) => sampCtlWrite c v s
    | _, _, some (c, 4) => modSamp c (fun m => { m with period := max 64 (bitsOf v 31 16), jitter := bitsOf v 11 8 }) s
    | _, _, _ => s

/-- A 32-bit word of PF BAR0 outside the function pages (R499). -/
def blockWrite (off v : Nat) (s : State) : State :=
  if off < 0x10000 then hifWrite off v s
  else if off < 0x20000 then slmWrite (off - 0x10000) v s
  else if off = 0x20004 then modLanes (fun l => { l with allBlock := v.testBit 0 }) s
  else if off = 0x30010 then modFn s.hif.fnSel (fun x => { x with budgetLimit := v % 2 ^ 13 }) s
  else if 0x40000 ≤ off ∧ off < 0x50000 then movWrite (off - 0x40000) v s
  else if 0x50000 ≤ off ∧ off < 0x60000 then paneWrite (off - 0x50000) v s
  else if off = 0x80040 then modLcy (fun l => { l with chalSlot := v % 16 }) s
  else if off = 0xA0018 then
    modMtr (fun m => { m with log2 := if m.enable then m.log2 else bitsOf v 4 1, enable := v.testBit 0 }) s
  else if 0xB0000 ≤ off ∧ off < 0xC0000 then phlWrite (off - 0xB0000) v s
  else if 0xC0000 ≤ off ∧ off < 0xD0000 then parWrite (off - 0xC0000) v s
  else if off = 0xD0010 then modPwr (fun p => { p with ledgerSel := v % 256 }) s
  else if 0x100000 ≤ off ∧ off < 0x140000 then cntWrite (off - 0x100000) v s
  else s

/-- A 32-bit write of an aligned word (R503): a low word is held, a high word completes its register, any other is a plain word. -/
def wordWrite (fn off v : Nat) (held : Option (Nat × Nat)) (s : State) : State :=
  if (reg64 s fn off).isSome then modFn fn (fun x => { x with heldWr := some (off, v % 2 ^ 32) }) s
  else match if off < 4 then none else reg64 s fn (off - 4) with
    | some old =>
      let low := match held with | some (o, l) => if o = off - 4 then l else old % 2 ^ 32 | none => old % 2 ^ 32
      reg64Write fn (off - 4) (v % 2 ^ 32 * 2 ^ 32 + low) s
    | none =>
      match pageAt fn off with
      | some (f, p) => pageWrite f p v s
      | none => if fn = 0 then blockWrite off v s else s

/-- REGISTER_WRITE (R499-R508, R534): a write of `width` bytes at BAR0 offset `off` of function `fn`. Narrower than 32 bits: no effect. A
write to any other register discards a held low word (R503). -/
def execRegisterWrite (fn off width value : Nat) (s : State) : Res :=
  .next (
    if !writeOpen s fn off ∨ width < 4 ∨ off % 4 ≠ 0 then s
    else
      let held := (fnOf s fn).heldWr
      let s := regWrote fn s
      if width = 4 then wordWrite fn off value held s
      else if width = 8 ∧ off % 8 = 0 then
        match pageAt fn off with
        | some (f, p) =>
          if (reg64 s fn off).isSome then reg64Write fn off value s
          else pageWrite f (p + 4) (value / 2 ^ 32) (pageWrite f p value s)
        | none =>
          if (reg64 s fn off).isSome then reg64Write fn off value s
          else if fn = 0 then blockWrite (off + 4) (value / 2 ^ 32) (blockWrite off value s)
          else s
      else s)

/-! ### Read-clear fields (R507) -/

/-- READ_CLEAR_ACCESS (R507): the register's word is returned and its RC fields are cleared, at an offset that holds one. -/
def execReadClearAccess (fn off : Nat) (s : State) : Res :=
  .next (
    if !readOpen s fn then s
    else
      match (match pageAt fn off with | some (f, p) => pageRc s f p | none => if fn = 0 then blockRc s off else none) with
      | some (v, t) => emit (.reg v) t
      | none => s)

/-! ### Counters and samples (R494-R498) -/

/-- CNT_FREEZE (R494): CNT_CTL written; FREEZE stops or restarts every counter. -/
def execCntFreeze (value : Nat) (s : State) : Res := .next (if regsOpen s then regWrote 0 (cntCtlWrite value s) else s)

/-- CNT_CLEAR (R494): CNT_CTL written with CLEAR. -/
def execCntClear (value : Nat) (s : State) : Res :=
  .next (if regsOpen s ∧ value.testBit 30 then regWrote 0 (cntCtlWrite value s) else s)

/-- A sample entry (R497); what the operands measure of the slot is given. -/
def sampEntry (s : State) (p opcode pre lat cause : Nat) (d : Nat × Nat × Bool × Nat) : Bytes :=
  leBytes 4 d.1 ++ leBytes 1 opcode ++ leBytes 1 pre ++ leBytes 2 (d.2.1 % 2048 + b2n d.2.2.1 * 2 ^ 11 + coreCluster p * 2 ^ 12) ++
  leBytes 4 (min lat 0xFFFFFF + cause % 16 * 2 ^ 24 + (logicalOf s p).getD 0 * 2 ^ 28) ++ leBytes 4 d.2.2.2

/-- SAMPLE_COUNT_EXPIRY (R496-R498): the sampled slot's entry joins its cluster's buffer; a full buffer takes none and counts LOST. -/
def execSampleCountExpiry (core opcode pre latency cause : Nat) (s : State) : Res :=
  .next (
    match (Machine.core s core).sampDue with
    | [] => s
    | d :: rest =>
      let e := sampEntry s core opcode pre latency cause d
      modSamp (coreCluster core) (fun m =>
        if m.entries.length < 4096 then { m with entries := m.entries ++ [e] } else { m with lost := satAdd 0xFFFF m.lost 1 })
        (modCore core (fun c => { c with sampDue := rest }) s))

/-- SAMPLE_BLOCK_DUMP (R498): 2,048 entries go into the next free slot of the sample ring, under the PF's pane, by one of
the bulk-pool channels 48-55 (which one the spec leaves open: log entry 59); a refused block is lost. -/
def execSampleBlockDump (cluster : Nat) (s : State) : Res :=
  .next (
    let m := s.cnt.samps.getD cluster Samp.blank
    if !s.pwr.main ∨ m.entries.length < 2048 ∨ sampSlots s ≤ s.cnt.used then s
    else
      let d := joinBytes (m.entries.take 2048)
      let r := hostWrite (0xC0 + 48 + freeNat s % 8) 0 (s.cnt.base + 32768 * s.cnt.tail) d false (bumpFree s)
      let s := modSamp cluster (fun m => { m with
        entries := m.entries.drop 2048, lost := if r.1 then m.lost else satAdd 0xFFFF m.lost 2048 }) r.2
      if r.1 then modCnt (fun c => { c with tail := (c.tail + 1) % sampSlots s, used := c.used + 1 }) s else s)

end Sys2Proof.Machine
end

