-- ==== Sys2Proof/Machine/Dispatch.lean ====
section
/-!
DEFINITION. One arm per command of the opcode table, each one call of its meaning.
-/

namespace Sys2Proof.Machine

/-- The effect of a command on everything but the queue. -/
def exec (i : Instr) (s : State) : Host.Outcome State Fault Refusal :=
  match i with
  | .sqDoorbell fn ring tail => Sys2Proof.Machine.execSqDoorbell fn ring tail s
  | .cqDoorbell fn ring head => Sys2Proof.Machine.execCqDoorbell fn ring head s
  | .ringEnable fn ring ctl => Sys2Proof.Machine.execRingEnable fn ring ctl s
  | .ringDisable fn ring ctl => Sys2Proof.Machine.execRingDisable fn ring ctl s
  | .fetchIssue fn ring => Sys2Proof.Machine.execFetchIssue fn ring s
  | .descriptorAccept fn ring data rec => Sys2Proof.Machine.execDescriptorAccept fn ring data rec s
  | .fetchFail fn ring => Sys2Proof.Machine.execFetchFail fn ring s
  | .modTimeExpiry fn ring => Sys2Proof.Machine.execModTimeExpiry fn ring s
  | .fnCreate => Sys2Proof.Machine.execFnCreate s
  | .fnResize => Sys2Proof.Machine.execFnResize s
  | .fnDestroy => Sys2Proof.Machine.execFnDestroy s
  | .fnReset => Sys2Proof.Machine.execFnReset s
  | .fnCmdComplete => Sys2Proof.Machine.execFnCmdComplete s
  | .poolSnap => Sys2Proof.Machine.execPoolSnap s
  | .fnSelWrite value => Sys2Proof.Machine.execFnSelWrite value s
  | .vfFlr fn => Sys2Proof.Machine.execVfFlr fn s
  | .pfFlr => Sys2Proof.Machine.execPfFlr s
  | .vfEnableClear => Sys2Proof.Machine.execVfEnableClear s
  | .vfD3hot fn => Sys2Proof.Machine.execVfD3hot fn s
  | .resetDrainTimeout fn => Sys2Proof.Machine.execResetDrainTimeout fn s
  | .resetReportWrite fn => Sys2Proof.Machine.execResetReportWrite fn s
  | .linkDown => Sys2Proof.Machine.execLinkDown s
  | .perstAssert => Sys2Proof.Machine.execPerstAssert s
  | .doeIdeKm stream key => Sys2Proof.Machine.execDoeIdeKm stream key s
  | .pinTranslate core input fault => Sys2Proof.Machine.execPinTranslate core input fault s
  | .pinVerifyOffset core input fault => Sys2Proof.Machine.execPinVerifyOffset core input fault s
  | .pinVerifyPvv core input fault => Sys2Proof.Machine.execPinVerifyPvv core input fault s
  | .cvvGenerate core input fault => Sys2Proof.Machine.execCvvGenerate core input fault s
  | .cvvVerify core input fault => Sys2Proof.Machine.execCvvVerify core input fault s
  | .arqcVerify core input fault => Sys2Proof.Machine.execArqcVerify core input fault s
  | .macGenerate core input fault => Sys2Proof.Machine.execMacGenerate core input fault s
  | .macVerify core input fault => Sys2Proof.Machine.execMacVerify core input fault s
  | .dukptPinTranslate core input fault => Sys2Proof.Machine.execDukptPinTranslate core input fault s
  | .dukptMacVerify core input fault => Sys2Proof.Machine.execDukptMacVerify core input fault s
  | .dukptDecrypt core input fault => Sys2Proof.Machine.execDukptDecrypt core input fault s
  | .ff1Tokenize core input fault => Sys2Proof.Machine.execFf1Tokenize core input fault s
  | .ff1Detokenize core input fault => Sys2Proof.Machine.execFf1Detokenize core input fault s
  | .keyImport core input fault => Sys2Proof.Machine.execKeyImport core input fault s
  | .keyExport core fault => Sys2Proof.Machine.execKeyExport core fault s
  | .keyTranslate core input fault => Sys2Proof.Machine.execKeyTranslate core input fault s
  | .keyGenerate core input fault => Sys2Proof.Machine.execKeyGenerate core input fault s
  | .tr34Import core input fault => Sys2Proof.Machine.execTr34Import core input fault s
  | .bulkReencrypt core input listIn listOut moved fault => Sys2Proof.Machine.execBulkReencrypt core input listIn listOut moved fault s
  | .rawBlock core input listIn listOut fault => Sys2Proof.Machine.execRawBlock core input listIn listOut fault s
  | .randomGenerate core fault => Sys2Proof.Machine.execRandomGenerate core fault s
  | .custom core => Sys2Proof.Machine.execCustom core s
  | .officerEnrol core input fault => Sys2Proof.Machine.execOfficerEnrol core input fault s
  | .recordValidWrite => Sys2Proof.Machine.execRecordValidWrite s
  | .officerRevoke core input fault => Sys2Proof.Machine.execOfficerRevoke core input fault s
  | .attest core input fault => Sys2Proof.Machine.execAttest core input fault s
  | .rejoinSend core input fault => Sys2Proof.Machine.execRejoinSend core input fault s
  | .lmkKemBegin core input vf fault => Sys2Proof.Machine.execLmkKemBegin core input vf fault s
  | .lmkKemFinish core input num ct wrapped kcv fault => Sys2Proof.Machine.execLmkKemFinish core input num ct wrapped kcv fault s
  | .lmkCompBegin core input vf fault => Sys2Proof.Machine.execLmkCompBegin core input vf fault s
  | .lmkCompAdd core input num ct wrapped kcv officer sig fault => Sys2Proof.Machine.execLmkCompAdd core input num ct wrapped kcv officer sig fault s
  | .lmkCompFinish core input num kcv fault => Sys2Proof.Machine.execLmkCompFinish core input num kcv fault s
  | .lmkRetire core input vf fault => Sys2Proof.Machine.execLmkRetire core input vf fault s
  | .lmkUnbind core input vf fault => Sys2Proof.Machine.execLmkUnbind core input vf fault s
  | .ceremonyAbort core input num fault => Sys2Proof.Machine.execCeremonyAbort core input num fault s
  | .ceremonyTimeout num => Sys2Proof.Machine.execCeremonyTimeout num s
  | .keyMarkSensitive core input vf block fault => Sys2Proof.Machine.execKeyMarkSensitive core input vf block fault s
  | .keyPairGenerate core input vf alg usage mode expo kvn p q e fault => Sys2Proof.Machine.execKeyPairGenerate core input vf alg usage mode expo kvn p q e fault s
  | .budgetRelease core input slots fault => Sys2Proof.Machine.execBudgetRelease core input slots fault s
  | .tamperSetClass core input fault => Sys2Proof.Machine.execTamperSetClass core input fault s
  | .tamperEncBurn core input fault => Sys2Proof.Machine.execTamperEncBurn core input fault s
  | .progKeySet core input fault => Sys2Proof.Machine.execProgKeySet core input fault s
  | .progApprove core input fault => Sys2Proof.Machine.execProgApprove core input fault s
  | .progRevoke core input fn slot fault => Sys2Proof.Machine.execProgRevoke core input fn slot fault s
  | .auditExport core input limit fault => Sys2Proof.Machine.execAuditExport core input limit fault s
  | .shutterReopen => Sys2Proof.Machine.execShutterReopen s
  | .auditClear core input fault => Sys2Proof.Machine.execAuditClear core input fault s
  | .epochSet core input fault => Sys2Proof.Machine.execEpochSet core input fault s
  | .pairBind core input fault => Sys2Proof.Machine.execPairBind core input fault s
  | .pairUnbind core input fault => Sys2Proof.Machine.execPairUnbind core input fault s
  | .keyMissStart id => Sys2Proof.Machine.execKeyMissStart id s
  | .keyDirArrival id data => Sys2Proof.Machine.execKeyDirArrival id data s
  | .keyBlockArrival id data => Sys2Proof.Machine.execKeyBlockArrival id data s
  | .keyInstall id => Sys2Proof.Machine.execKeyInstall id s
  | .keyFetchTimeout id => Sys2Proof.Machine.execKeyFetchTimeout id s
  | .keyFetchFail id => Sys2Proof.Machine.execKeyFetchFail id s
  | .vaultBlobArrival fn slot data => Sys2Proof.Machine.execVaultBlobArrival fn slot data s
  | .keyDirWrite fn reg value => Sys2Proof.Machine.execKeyDirWrite fn reg value s
  | .keySlotDrop lane index => Sys2Proof.Machine.execKeySlotDrop lane index s
  | .kstCtlWrite value => Sys2Proof.Machine.execKstCtlWrite value s
  | .missWindowEnd fn => Sys2Proof.Machine.execMissWindowEnd fn s
  | .budgetSlotExpiry slot => Sys2Proof.Machine.execBudgetSlotExpiry slot s
  | .encipher lane core fault data => Sys2Proof.Machine.execEncipher lane core fault data s
  | .decipher lane core fault data => Sys2Proof.Machine.execDecipher lane core fault data s
  | .desE1 lane core fault data => Sys2Proof.Machine.execDesE1 lane core fault data s
  | .keystream lane core fault data => Sys2Proof.Machine.execKeystream lane core fault data s
  | .subkey lane core fault => Sys2Proof.Machine.execSubkey lane core fault s
  | .ghash lane core fault data => Sys2Proof.Machine.execGhash lane core fault data s
  | .tagCompare lane core fault => Sys2Proof.Machine.execTagCompare lane core fault s
  | .tag lane core fault => Sys2Proof.Machine.execTag lane core fault s
  | .sha256 lane core fault data => Sys2Proof.Machine.execSha256 lane core fault data s
  | .sha384 lane core fault data => Sys2Proof.Machine.execSha384 lane core fault data s
  | .sha512 lane core fault data => Sys2Proof.Machine.execSha512 lane core fault data s
  | .sha3256 lane core fault data => Sys2Proof.Machine.execSha3256 lane core fault data s
  | .sha3384 lane core fault data => Sys2Proof.Machine.execSha3384 lane core fault data s
  | .sha3512 lane core fault data => Sys2Proof.Machine.execSha3512 lane core fault data s
  | .shake128 lane core fault data => Sys2Proof.Machine.execShake128 lane core fault data s
  | .shake256 lane core fault data => Sys2Proof.Machine.execShake256 lane core fault data s
  | .slhDsa256fSign lane core fault data => Sys2Proof.Machine.execSlhDsa256fSign lane core fault data s
  | .slhDsa256sSign lane core fault data => Sys2Proof.Machine.execSlhDsa256sSign lane core fault data s
  | .slhDsa256fVerify lane core fault data => Sys2Proof.Machine.execSlhDsa256fVerify lane core fault data s
  | .slhDsa256sVerify lane core fault data => Sys2Proof.Machine.execSlhDsa256sVerify lane core fault data s
  | .rsaPrivate lane core fault data => Sys2Proof.Machine.execRsaPrivate lane core fault data s
  | .rsaPublic lane core fault data => Sys2Proof.Machine.execRsaPublic lane core fault data s
  | .ecdsaSign lane core fault data => Sys2Proof.Machine.execEcdsaSign lane core fault data s
  | .ecdsaVerify lane core fault data => Sys2Proof.Machine.execEcdsaVerify lane core fault data s
  | .ecdh lane core fault data => Sys2Proof.Machine.execEcdh lane core fault data s
  | .rsaKeyPair lane core fault p q e => Sys2Proof.Machine.execRsaKeyPair lane core fault p q e s
  | .ecKeyPair lane core fault => Sys2Proof.Machine.execEcKeyPair lane core fault s
  | .mlKemKeygen lane core fault => Sys2Proof.Machine.execMlKemKeygen lane core fault s
  | .mlKemEncaps lane core fault data => Sys2Proof.Machine.execMlKemEncaps lane core fault data s
  | .mlKemDecaps lane core fault data => Sys2Proof.Machine.execMlKemDecaps lane core fault data s
  | .laneOpComplete lane core => Sys2Proof.Machine.execLaneOpComplete lane core s
  | .laneSpareSwap lane => Sys2Proof.Machine.execLaneSpareSwap lane s
  | .hashLaneWake lane => Sys2Proof.Machine.execHashLaneWake lane s
  | .opNop core => Sys2Proof.Machine.execOpNop core s
  | .opLit8 core imm next => Sys2Proof.Machine.execOpLit8 core imm next s
  | .opLit16 core imm next => Sys2Proof.Machine.execOpLit16 core imm next s
  | .opLit32 core imm => Sys2Proof.Machine.execOpLit32 core imm s
  | .opDup core => Sys2Proof.Machine.execOpDup core s
  | .opDrop core => Sys2Proof.Machine.execOpDrop core s
  | .opSwap core => Sys2Proof.Machine.execOpSwap core s
  | .opOver core => Sys2Proof.Machine.execOpOver core s
  | .opRot core => Sys2Proof.Machine.execOpRot core s
  | .opNip core => Sys2Proof.Machine.execOpNip core s
  | .opTuck core => Sys2Proof.Machine.execOpTuck core s
  | .opPick core => Sys2Proof.Machine.execOpPick core s
  | .opDepth core => Sys2Proof.Machine.execOpDepth core s
  | .opTor core => Sys2Proof.Machine.execOpTor core s
  | .opFromr core => Sys2Proof.Machine.execOpFromr core s
  | .opRfetch core => Sys2Proof.Machine.execOpRfetch core s
  | .opRdrop core => Sys2Proof.Machine.execOpRdrop core s
  | .opAdd core => Sys2Proof.Machine.execOpAdd core s
  | .opSub core => Sys2Proof.Machine.execOpSub core s
  | .opAddc core => Sys2Proof.Machine.execOpAddc core s
  | .opSubb core => Sys2Proof.Machine.execOpSubb core s
  | .opMul core => Sys2Proof.Machine.execOpMul core s
  | .opUmul core => Sys2Proof.Machine.execOpUmul core s
  | .opDivu core => Sys2Proof.Machine.execOpDivu core s
  | .opNeg core => Sys2Proof.Machine.execOpNeg core s
  | .opAnd core => Sys2Proof.Machine.execOpAnd core s
  | .opOr core => Sys2Proof.Machine.execOpOr core s
  | .opXor core => Sys2Proof.Machine.execOpXor core s
  | .opNot core => Sys2Proof.Machine.execOpNot core s
  | .opShl core => Sys2Proof.Machine.execOpShl core s
  | .opShr core => Sys2Proof.Machine.execOpShr core s
  | .opSar core => Sys2Proof.Machine.execOpSar core s
  | .opRol core => Sys2Proof.Machine.execOpRol core s
  | .opInc core => Sys2Proof.Machine.execOpInc core s
  | .opDec core => Sys2Proof.Machine.execOpDec core s
  | .opEq core => Sys2Proof.Machine.execOpEq core s
  | .opLtu core => Sys2Proof.Machine.execOpLtu core s
  | .opLts core => Sys2Proof.Machine.execOpLts core s
  | .opZeq core => Sys2Proof.Machine.execOpZeq core s
  | .opSel core => Sys2Proof.Machine.execOpSel core s
  | .opBswap core => Sys2Proof.Machine.execOpBswap core s
  | .opExtb core => Sys2Proof.Machine.execOpExtb core s
  | .opInsb core => Sys2Proof.Machine.execOpInsb core s
  | .opClz core => Sys2Proof.Machine.execOpClz core s
  | .opPopc core => Sys2Proof.Machine.execOpPopc core s
  | .opBra core => Sys2Proof.Machine.execOpBra core s
  | .opBz core => Sys2Proof.Machine.execOpBz core s
  | .opBnz core => Sys2Proof.Machine.execOpBnz core s
  | .opCall core => Sys2Proof.Machine.execOpCall core s
  | .opJmp core => Sys2Proof.Machine.execOpJmp core s
  | .opRet core => Sys2Proof.Machine.execOpRet core s
  | .opNext core => Sys2Proof.Machine.execOpNext core s
  | .opLd core => Sys2Proof.Machine.execOpLd core s
  | .loadLanding core data hostCycles => Sys2Proof.Machine.execLoadLanding core data hostCycles s
  | .opSt core => Sys2Proof.Machine.execOpSt core s
  | .opLdb core => Sys2Proof.Machine.execOpLdb core s
  | .opStb core => Sys2Proof.Machine.execOpStb core s
  | .opLdl core => Sys2Proof.Machine.execOpLdl core s
  | .opStl core => Sys2Proof.Machine.execOpStl core s
  | .opLdlb core => Sys2Proof.Machine.execOpLdlb core s
  | .opStlb core => Sys2Proof.Machine.execOpStlb core s
  | .opLds core => Sys2Proof.Machine.execOpLds core s
  | .opSts core => Sys2Proof.Machine.execOpSts core s
  | .opLdsb core => Sys2Proof.Machine.execOpLdsb core s
  | .opStsb core => Sys2Proof.Machine.execOpStsb core s
  | .opBnkr core => Sys2Proof.Machine.execOpBnkr core s
  | .opBnkw core => Sys2Proof.Machine.execOpBnkw core s
  | .opSrr core => Sys2Proof.Machine.execOpSrr core s
  | .opSrw core => Sys2Proof.Machine.execOpSrw core s
  | .opBld core data hostCycles => Sys2Proof.Machine.execOpBld core data hostCycles s
  | .opBst core => Sys2Proof.Machine.execOpBst core s
  | .opBdup core => Sys2Proof.Machine.execOpBdup core s
  | .opBdrop core => Sys2Proof.Machine.execOpBdrop core s
  | .opBxch core => Sys2Proof.Machine.execOpBxch core s
  | .opBxor core => Sys2Proof.Machine.execOpBxor core s
  | .opBzero core => Sys2Proof.Machine.execOpBzero core s
  | .opBpush core => Sys2Proof.Machine.execOpBpush core s
  | .opBpop core => Sys2Proof.Machine.execOpBpop core s
  | .opBinc core => Sys2Proof.Machine.execOpBinc core s
  | .opBeq core => Sys2Proof.Machine.execOpBeq core s
  | .opBmask core => Sys2Proof.Machine.execOpBmask core s
  | .opAsk core sgIn sgOut => Sys2Proof.Machine.execOpAsk core sgIn sgOut s
  | .opIssue core => Sys2Proof.Machine.execOpIssue core s
  | .opAwait core => Sys2Proof.Machine.execOpAwait core s
  | .awaitTimeout core => Sys2Proof.Machine.execAwaitTimeout core s
  | .opRelease core => Sys2Proof.Machine.execOpRelease core s
  | .opKres core host => Sys2Proof.Machine.execOpKres core host s
  | .opRand core => Sys2Proof.Machine.execOpRand core s
  | .opTime core => Sys2Proof.Machine.execOpTime core s
  | .opTick core => Sys2Proof.Machine.execOpTick core s
  | .opFence core => Sys2Proof.Machine.execOpFence core s
  | .opPrun core => Sys2Proof.Machine.execOpPrun core s
  | .icacheFill core => Sys2Proof.Machine.execIcacheFill core s
  | .progImageFetch cluster fn slot entry image fail => Sys2Proof.Machine.execProgImageFetch cluster fn slot entry image fail s
  | .progBaseWrite fn value => Sys2Proof.Machine.execProgBaseWrite fn value s
  | .dispatchDecision core => Sys2Proof.Machine.execDispatchDecision core s
  | .ageScan => Sys2Proof.Machine.execAgeScan s
  | .gateInput core => Sys2Proof.Machine.execGateInput core s
  | .liftRelease => Sys2Proof.Machine.execLiftRelease s
  | .deadlineCommit => Sys2Proof.Machine.execDeadlineCommit s
  | .criticalWakeScan => Sys2Proof.Machine.execCriticalWakeScan s
  | .clusterSleep cluster => Sys2Proof.Machine.execClusterSleep cluster s
  | .clusterWakeDone cluster => Sys2Proof.Machine.execClusterWakeDone cluster s
  | .tokenSelWrite value => Sys2Proof.Machine.execTokenSelWrite value s
  | .liftQuotaWrite value => Sys2Proof.Machine.execLiftQuotaWrite value s
  | .movTailWrite chan value => Sys2Proof.Machine.execMovTailWrite chan value s
  | .moverReadArrival chan data => Sys2Proof.Machine.execMoverReadArrival chan data s
  | .moverBusError chan => Sys2Proof.Machine.execMoverBusError chan s
  | .moverBurstDone chan => Sys2Proof.Machine.execMoverBurstDone chan s
  | .movAbort chan => Sys2Proof.Machine.execMovAbort chan s
  | .movResume chan => Sys2Proof.Machine.execMovResume chan s
  | .movBulkMapWrite value => Sys2Proof.Machine.execMovBulkMapWrite value s
  | .creditReserve chan => Sys2Proof.Machine.execCreditReserve chan s
  | .paneHrCommit region value => Sys2Proof.Machine.execPaneHrCommit region value s
  | .paneLoadDone m => Sys2Proof.Machine.execPaneLoadDone m s
  | .paneVioNext => Sys2Proof.Machine.execPaneVioNext s
  | .rctCutoff src => Sys2Proof.Machine.execRctCutoff src s
  | .aptWindowEnd src window => Sys2Proof.Machine.execAptWindowEnd src window s
  | .estBlockEnd src ones agree1 agree2 agree3 agree4 n00 n01 n10 n11 => Sys2Proof.Machine.execEstBlockEnd src ones agree1 agree2 agree3 agree4 n00 n01 n10 n11 s
  | .seedArrival src crcOk => Sys2Proof.Machine.execSeedArrival src crcOk s
  | .drbgGenerate => Sys2Proof.Machine.execDrbgGenerate s
  | .sourceRetestStart src => Sys2Proof.Machine.execSourceRetestStart src s
  | .entSwitch => Sys2Proof.Machine.execEntSwitch s
  | .entRetestA => Sys2Proof.Machine.execEntRetestA s
  | .entRetestB => Sys2Proof.Machine.execEntRetestB s
  | .tamperSample mon det1 det2 value sensed => Sys2Proof.Machine.execTamperSample mon det1 det2 value sensed s
  | .tamperComparatorEdge mon det1 det2 value glitch => Sys2Proof.Machine.execTamperComparatorEdge mon det1 det2 value glitch s
  | .disagreementWindowClose mon value => Sys2Proof.Machine.execDisagreementWindowClose mon value s
  | .lockOrder => Sys2Proof.Machine.execLockOrder s
  | .eraseOrder => Sys2Proof.Machine.execEraseOrder s
  | .lockedClosingCompletions => Sys2Proof.Machine.execLockedClosingCompletions s
  | .pwrfailHoldExpiry => Sys2Proof.Machine.execPwrfailHoldExpiry s
  | .unlockNewChallenge => Sys2Proof.Machine.execUnlockNewChallenge s
  | .unlockGo => Sys2Proof.Machine.execUnlockGo s
  | .unlockComplete data fail => Sys2Proof.Machine.execUnlockComplete data fail s
  | .cresLow below => Sys2Proof.Machine.execCresLow below s
  | .chalIssue slot => Sys2Proof.Machine.execChalIssue slot s
  | .challengeExpiry slot => Sys2Proof.Machine.execChallengeExpiry slot s
  | .provision data fail => Sys2Proof.Machine.execProvision data fail s
  | .deploy data fail => Sys2Proof.Machine.execDeploy data fail s
  | .lifecycleReturn data fail => Sys2Proof.Machine.execReturn data fail s
  | .redeploy data fail => Sys2Proof.Machine.execRedeploy data fail s
  | .retire data fail => Sys2Proof.Machine.execRetire data fail s
  | .debugOpen data fail => Sys2Proof.Machine.execDebugOpen data fail s
  | .debugClose data fail => Sys2Proof.Machine.execDebugClose data fail s
  | .debugLifeExpiry => Sys2Proof.Machine.execDebugLifeExpiry s
  | .rejoinBegin data fail => Sys2Proof.Machine.execRejoinBegin data fail s
  | .rejoinFinish data fail => Sys2Proof.Machine.execRejoinFinish data fail s
  | .inject data fail => Sys2Proof.Machine.execInject data fail s
  | .tokenHoldExpiry => Sys2Proof.Machine.execTokenHoldExpiry s
  | .rejoinPackageExpiry => Sys2Proof.Machine.execRejoinPackageExpiry s
  | .minuteEdge => Sys2Proof.Machine.execMinuteEdge s
  | .receiptSigned => Sys2Proof.Machine.execReceiptSigned s
  | .rcptHeadWrite head => Sys2Proof.Machine.execRcptHeadWrite head s
  | .meterAdd => Sys2Proof.Machine.execMeterAdd s
  | .dataFrame port frame => Sys2Proof.Machine.execDataFrame port frame s
  | .readId port frame => Sys2Proof.Machine.execReadId port frame s
  | .assign port frame => Sys2Proof.Machine.execAssign port frame s
  | .probeRelease port frame => Sys2Proof.Machine.execProbeRelease port frame s
  | .routeWrite port frame => Sys2Proof.Machine.execRouteWrite port frame s
  | .routeRead port frame => Sys2Proof.Machine.execRouteRead port frame s
  | .portRead port frame => Sys2Proof.Machine.execPortRead port frame s
  | .probeReply port frame => Sys2Proof.Machine.execProbeReply port frame s
  | .auditFrame port frame => Sys2Proof.Machine.execAuditFrame port frame s
  | .auditPeriodTimer => Sys2Proof.Machine.execAuditPeriodTimer s
  | .syncReq port frame => Sys2Proof.Machine.execSyncReq port frame s
  | .syncRsp port frame => Sys2Proof.Machine.execSyncRsp port frame s
  | .syncPeriodTimer => Sys2Proof.Machine.execSyncPeriodTimer s
  | .neighbor port frame => Sys2Proof.Machine.execNeighbor port frame s
  | .linkAck port block => Sys2Proof.Machine.execLinkAck port block s
  | .linkNak port block => Sys2Proof.Machine.execLinkNak port block s
  | .linkCredit port block => Sys2Proof.Machine.execLinkCredit port block s
  | .linkIdle port block => Sys2Proof.Machine.execLinkIdle port block s
  | .linkAckTimeout port => Sys2Proof.Machine.execLinkAckTimeout port s
  | .retrainDone port ok peerSeq occ => Sys2Proof.Machine.execRetrainDone port ok peerSeq occ s
  | .portTrainDone port ok peerSeq occ => Sys2Proof.Machine.execPortTrainDone port ok peerSeq occ s
  | .trainRetryTimer port => Sys2Proof.Machine.execTrainRetryTimer port s
  | .portLeaveUp port => Sys2Proof.Machine.execPortLeaveUp port s
  | .replayDiscardTimer port => Sys2Proof.Machine.execReplayDiscardTimer port s
  | .portSilence port => Sys2Proof.Machine.execPortSilence port s
  | .addrSet value => Sys2Proof.Machine.execAddrSet value s
  | .addrRelease value => Sys2Proof.Machine.execAddrRelease value s
  | .portRetrain port value => Sys2Proof.Machine.execPortRetrain port value s
  | .portEnableWrite port value => Sys2Proof.Machine.execPortEnableWrite port value s
  | .mtxSend => Sys2Proof.Machine.execMtxSend s
  | .mrxNext => Sys2Proof.Machine.execMrxNext s
  | .evtNext => Sys2Proof.Machine.execEvtNext s
  | .entdaa addr => Sys2Proof.Machine.execEntdaa addr s
  | .rstdaa => Sys2Proof.Machine.execRstdaa s
  | .setnewda addr => Sys2Proof.Machine.execSetnewda addr s
  | .getpid => Sys2Proof.Machine.execGetpid s
  | .getbcr => Sys2Proof.Machine.execGetbcr s
  | .getdcr => Sys2Proof.Machine.execGetdcr s
  | .getstatus => Sys2Proof.Machine.execGetstatus s
  | .enec events => Sys2Proof.Machine.execEnec events s
  | .disec events => Sys2Proof.Machine.execDisec events s
  | .getmwl => Sys2Proof.Machine.execGetmwl s
  | .setmwl len => Sys2Proof.Machine.execSetmwl len s
  | .getmrl => Sys2Proof.Machine.execGetmrl s
  | .setmrl len => Sys2Proof.Machine.execSetmrl len s
  | .setEndpointId inst eid => Sys2Proof.Machine.execSetEndpointId inst eid s
  | .getEndpointId inst => Sys2Proof.Machine.execGetEndpointId inst s
  | .getMctpVersionSupport inst => Sys2Proof.Machine.execGetMctpVersionSupport inst s
  | .getMessageTypeSupport inst => Sys2Proof.Machine.execGetMessageTypeSupport inst s
  | .getEndpointUuid inst => Sys2Proof.Machine.execGetEndpointUuid inst s
  | .i3cPrivateRead => Sys2Proof.Machine.execI3cPrivateRead s
  | .healthReportPeriodic => Sys2Proof.Machine.execHealthReportPeriodic s
  | .knockTimer => Sys2Proof.Machine.execKnockTimer s
  | .renewTimer => Sys2Proof.Machine.execRenewTimer s
  | .knock path port data => Sys2Proof.Machine.execKnock path port data s
  | .renew path port data => Sys2Proof.Machine.execRenew path port data s
  | .grant path port data => Sys2Proof.Machine.execGrant path port data s
  | .knockRelease path port data => Sys2Proof.Machine.execKnockRelease path port data s
  | .taken path port data => Sys2Proof.Machine.execTaken path port data s
  | .pathSilence path => Sys2Proof.Machine.execPathSilence path s
  | .txCheckTimeout path => Sys2Proof.Machine.execTxCheckTimeout path s
  | .leaseExpiryFence latch => Sys2Proof.Machine.execLeaseExpiryFence latch s
  | .latchTake latch => Sys2Proof.Machine.execLatchTake latch s
  | .takeoverSlotArrival mseq data => Sys2Proof.Machine.execTakeoverSlotArrival mseq data s
  | .replayDescriptorArrival mseq data rec => Sys2Proof.Machine.execReplayDescriptorArrival mseq data rec s
  | .aloneWaitExpiry latch => Sys2Proof.Machine.execAloneWaitExpiry latch s
  | .pairKeyExchange data => Sys2Proof.Machine.execPairKeyExchange data s
  | .mirrorJournal => Sys2Proof.Machine.execMirrorJournal s
  | .mirrorMeter => Sys2Proof.Machine.execMirrorMeter s
  | .mirrorState => Sys2Proof.Machine.execMirrorState s
  | .mirrorRing => Sys2Proof.Machine.execMirrorRing s
  | .mirrorFnReset => Sys2Proof.Machine.execMirrorFnReset s
  | .mirrorReceipt => Sys2Proof.Machine.execMirrorReceipt s
  | .mirrorHead => Sys2Proof.Machine.execMirrorHead s
  | .mirrorAck => Sys2Proof.Machine.execMirrorAck s
  | .mirrorHandover => Sys2Proof.Machine.execMirrorHandover s
  | .mirrorResync => Sys2Proof.Machine.execMirrorResync s
  | .mirrorRejoin src data => Sys2Proof.Machine.execMirrorRejoin src data s
  | .mirrorResendTimer => Sys2Proof.Machine.execMirrorResendTimer s
  | .handoverGo value => Sys2Proof.Machine.execHandoverGo value s
  | .handoverDrainExpiry => Sys2Proof.Machine.execHandoverDrainExpiry s
  | .handoverTimeout => Sys2Proof.Machine.execHandoverTimeout s
  | .selfTestRun kind unit fail => Sys2Proof.Machine.execSelfTestRun kind unit fail s
  | .mainPowerPresent => Sys2Proof.Machine.execMainPowerPresent s
  | .mainPowerLost backup secretKept ledgerKept => Sys2Proof.Machine.execMainPowerLost backup secretKept ledgerKept s
  | .pwrfailAssert => Sys2Proof.Machine.execPwrfailAssert s
  | .pwrfailDeassert => Sys2Proof.Machine.execPwrfailDeassert s
  | .startStepDone step unit ok => Sys2Proof.Machine.execStartStepDone step unit ok s
  | .heldReportTimer => Sys2Proof.Machine.execHeldReportTimer s
  | .keepScrub corrected bad meters => Sys2Proof.Machine.execKeepScrub corrected bad meters s
  | .keepWordRestore word => Sys2Proof.Machine.execKeepWordRestore word s
  | .flashGo slot => Sys2Proof.Machine.execFlashGo slot s
  | .flashWriteComplete data fail flashErr => Sys2Proof.Machine.execFlashWriteComplete data fail flashErr s
  | .ledgerRetest => Sys2Proof.Machine.execLedgerRetest s
  | .gpioCtlWrite value => Sys2Proof.Machine.execGpioCtlWrite value s
  | .ppsPulse => Sys2Proof.Machine.execPpsPulse s
  | .correctedCountSecond => Sys2Proof.Machine.execCorrectedCountSecond s
  | .sillLaneRemapDone dir lane => Sys2Proof.Machine.execSillLaneRemapDone dir lane s
  | .coreSpareSwap cluster => Sys2Proof.Machine.execCoreSpareSwap cluster s
  | .dbgErrNext => Sys2Proof.Machine.execDbgErrNext s
  | .cntFreeze value => Sys2Proof.Machine.execCntFreeze value s
  | .cntClear value => Sys2Proof.Machine.execCntClear value s
  | .sampleCountExpiry core opcode pre latency cause => Sys2Proof.Machine.execSampleCountExpiry core opcode pre latency cause s
  | .sampleBlockDump cluster => Sys2Proof.Machine.execSampleBlockDump cluster s
  | .splitLowRead fn off width => Sys2Proof.Machine.execSplitLowRead fn off width s
  | .splitLowWrite fn off value => Sys2Proof.Machine.execSplitLowWrite fn off value s
  | .registerWrite fn off width value => Sys2Proof.Machine.execRegisterWrite fn off width value s
  | .programBudgetExhausted core => Sys2Proof.Machine.execProgramBudgetExhausted core s
  | .illegalOpcode core opcode => Sys2Proof.Machine.execIllegalOpcode core opcode s
  | .instructionFetchRefused core => Sys2Proof.Machine.execInstructionFetchRefused core s
  | .storeAcknowledge core => Sys2Proof.Machine.execStoreAcknowledge core s
  | .programFetchTimeout cluster fn slot => Sys2Proof.Machine.execProgramFetchTimeout cluster fn slot s
  | .guardDiePowerUp => Sys2Proof.Machine.execGuardDiePowerUp s
  | .vfEnableSet => Sys2Proof.Machine.execVfEnableSet s
  | .readClearAccess fn off => Sys2Proof.Machine.execReadClearAccess fn off s
  | .probeUnknownOp port frame => Sys2Proof.Machine.execProbeUnknownOp port frame s
  | .msixVectorUnmask fn vec => Sys2Proof.Machine.execMsixVectorUnmask fn vec s

end Sys2Proof.Machine
end

