-- ==== Sys2Proof/WellFormed.lean ====
section
/-!
DEFINITION. Which commands are well formed: their operands lie in the ranges the spec gives them. A meaning does not rest on it: an operand out
of range has the effect its definition says, mostly none.
-/

namespace Sys2Proof

/-- A physical core, 0-143 (R192). -/
def okCore (n : Nat) : Bool := decide (n < 144)
/-- A lane port, 0x00-0x1D (R214). -/
def okLane (n : Nat) : Bool := decide (n < 30)
/-- A Phitlink port, 0-7 (R399). -/
def okPort (n : Nat) : Bool := decide (n < 8)
/-- A mover channel, 0-63 (R268). -/
def okChan (n : Nat) : Bool := decide (n < 64)
/-- A function, 0-1,024 (R33). -/
def okFn (n : Nat) : Bool := decide (n ≤ 1024)
/-- A VF, 1-1,024 (R33). -/
def okVf (n : Nat) : Bool := decide (1 ≤ n ∧ n ≤ 1024)
/-- A ring pair, 0-3 (R36). -/
def okRing (n : Nat) : Bool := decide (n < 4)
/-- A tamper monitor, 0-17 (R318). -/
def okMonitor (n : Nat) : Bool := decide (n < 18)
/-- A cluster, 0-15 (R192). -/
def okCluster (n : Nat) : Bool := decide (n < 16)
/-- One of two: an entropy source, a knock path, a latch, a firmware or LMK slot (R294, R428, R425, R469, R112). -/
def okPair (n : Nat) : Bool := decide (n < 2)
/-- A detector reading: safe, margin or alarm (R319). -/
def okDetector (n : Nat) : Bool := decide (n < 3)
/-- An MSI-X vector, 0-15 (R33). -/
def okVector (n : Nat) : Bool := decide (n < 16)
/-- An access of 1, 2, 4 or 8 bytes (R503). -/
def okWidth (n : Nat) : Bool := decide (n = 1 ∨ n = 2 ∨ n = 4 ∨ n = 8)
/-- An 8-bit value. -/
def okByte (n : Nat) : Bool := decide (n < 2 ^ 8)
/-- A 16-bit value. -/
def okHalf (n : Nat) : Bool := decide (n < 2 ^ 16)
/-- A 32-bit value. -/
def okWord (n : Nat) : Bool := decide (n < 2 ^ 32)
/-- A 64-bit value. -/
def okLong (n : Nat) : Bool := decide (n < 2 ^ 64)
/-- A token record, 0-65,535 (R235). -/
def okRecord (n : Nat) : Bool := decide (n < 65536)
/-- A host region, 0-7 (R286). -/
def okRegion (n : Nat) : Bool := decide (n < 8)
/-- A checker, 0-207 (R282). -/
def okChecker (n : Nat) : Bool := decide (n < 208)
/-- A challenge slot, 0-15 (R350). -/
def okChallenge (n : Nat) : Bool := decide (n < 16)
/-- A 7-bit I3C address (R421). -/
def okI3c (n : Nat) : Bool := decide (n < 128)

/-- A command's operands lie in their ranges. -/
def Instr.wellFormed : Instr → Bool
  | .sqDoorbell fn ring tail => okFn fn && okRing ring && okWord tail
  | .cqDoorbell fn ring head => okFn fn && okRing ring && okWord head
  | .ringEnable fn ring ctl => okFn fn && okRing ring && okWord ctl
  | .ringDisable fn ring ctl => okFn fn && okRing ring && okWord ctl
  | .fetchIssue fn ring => okFn fn && okRing ring
  | .descriptorAccept fn ring _ rec => okFn fn && okRing ring && okRecord rec
  | .fetchFail fn ring => okFn fn && okRing ring
  | .modTimeExpiry fn ring => okFn fn && okRing ring
  | .fnCreate => true
  | .fnResize => true
  | .fnDestroy => true
  | .fnReset => true
  | .fnCmdComplete => true
  | .poolSnap => true
  | .fnSelWrite value => okWord value
  | .vfFlr fn => okFn fn
  | .pfFlr => true
  | .vfEnableClear => true
  | .vfD3hot fn => okFn fn
  | .resetDrainTimeout fn => okFn fn
  | .resetReportWrite fn => okFn fn
  | .linkDown => true
  | .perstAssert => true
  | .doeIdeKm _ _ => true
  | .pinTranslate core _ _ => okCore core
  | .pinVerifyOffset core _ _ => okCore core
  | .pinVerifyPvv core _ _ => okCore core
  | .cvvGenerate core _ _ => okCore core
  | .cvvVerify core _ _ => okCore core
  | .arqcVerify core _ _ => okCore core
  | .macGenerate core _ _ => okCore core
  | .macVerify core _ _ => okCore core
  | .dukptPinTranslate core _ _ => okCore core
  | .dukptMacVerify core _ _ => okCore core
  | .dukptDecrypt core _ _ => okCore core
  | .ff1Tokenize core _ _ => okCore core
  | .ff1Detokenize core _ _ => okCore core
  | .keyImport core _ _ => okCore core
  | .keyExport core _ => okCore core
  | .keyTranslate core _ _ => okCore core
  | .keyGenerate core _ _ => okCore core
  | .tr34Import core _ _ => okCore core
  | .bulkReencrypt core _ _ _ _ _ => okCore core
  | .rawBlock core _ _ _ _ => okCore core
  | .randomGenerate core _ => okCore core
  | .custom core => okCore core
  | .officerEnrol core _ _ => okCore core
  | .recordValidWrite => true
  | .officerRevoke core _ _ => okCore core
  | .attest core _ _ => okCore core
  | .rejoinSend core _ _ => okCore core
  | .lmkKemBegin core _ vf _ => okCore core && okVf vf
  | .lmkKemFinish core _ _ _ _ _ _ => okCore core
  | .lmkCompBegin core _ vf _ => okCore core && okVf vf
  | .lmkCompAdd core _ _ _ _ _ _ _ _ => okCore core
  | .lmkCompFinish core _ _ _ _ => okCore core
  | .lmkRetire core _ vf _ => okCore core && okVf vf
  | .lmkUnbind core _ vf _ => okCore core && okVf vf
  | .ceremonyAbort core _ _ _ => okCore core
  | .ceremonyTimeout _ => true
  | .keyMarkSensitive core _ vf _ _ => okCore core && okVf vf
  | .keyPairGenerate core _ vf _ _ _ _ _ _ _ _ _ => okCore core && okVf vf
  | .budgetRelease core _ _ _ => okCore core
  | .tamperSetClass core _ _ => okCore core
  | .tamperEncBurn core _ _ => okCore core
  | .progKeySet core _ _ => okCore core
  | .progApprove core _ _ => okCore core
  | .progRevoke core _ fn _ _ => okCore core && okFn fn
  | .auditExport core _ _ _ => okCore core
  | .shutterReopen => true
  | .auditClear core _ _ => okCore core
  | .epochSet core _ _ => okCore core
  | .pairBind core _ _ => okCore core
  | .pairUnbind core _ _ => okCore core
  | .keyMissStart _ => true
  | .keyDirArrival _ _ => true
  | .keyBlockArrival _ _ => true
  | .keyInstall _ => true
  | .keyFetchTimeout _ => true
  | .keyFetchFail _ => true
  | .vaultBlobArrival fn slot _ => okFn fn && okPair slot
  | .keyDirWrite fn _ value => okFn fn && okLong value
  | .keySlotDrop lane _ => okLane lane
  | .kstCtlWrite value => okWord value
  | .missWindowEnd fn => okFn fn
  | .budgetSlotExpiry _ => true
  | .encipher lane core _ _ => okLane lane && okCore core
  | .decipher lane core _ _ => okLane lane && okCore core
  | .desE1 lane core _ _ => okLane lane && okCore core
  | .keystream lane core _ _ => okLane lane && okCore core
  | .subkey lane core _ => okLane lane && okCore core
  | .ghash lane core _ _ => okLane lane && okCore core
  | .tagCompare lane core _ => okLane lane && okCore core
  | .tag lane core _ => okLane lane && okCore core
  | .sha256 lane core _ _ => okLane lane && okCore core
  | .sha384 lane core _ _ => okLane lane && okCore core
  | .sha512 lane core _ _ => okLane lane && okCore core
  | .sha3256 lane core _ _ => okLane lane && okCore core
  | .sha3384 lane core _ _ => okLane lane && okCore core
  | .sha3512 lane core _ _ => okLane lane && okCore core
  | .shake128 lane core _ _ => okLane lane && okCore core
  | .shake256 lane core _ _ => okLane lane && okCore core
  | .slhDsa256fSign lane core _ _ => okLane lane && okCore core
  | .slhDsa256sSign lane core _ _ => okLane lane && okCore core
  | .slhDsa256fVerify lane core _ _ => okLane lane && okCore core
  | .slhDsa256sVerify lane core _ _ => okLane lane && okCore core
  | .rsaPrivate lane core _ _ => okLane lane && okCore core
  | .rsaPublic lane core _ _ => okLane lane && okCore core
  | .ecdsaSign lane core _ _ => okLane lane && okCore core
  | .ecdsaVerify lane core _ _ => okLane lane && okCore core
  | .ecdh lane core _ _ => okLane lane && okCore core
  | .rsaKeyPair lane core _ _ _ _ => okLane lane && okCore core
  | .ecKeyPair lane core _ => okLane lane && okCore core
  | .mlKemKeygen lane core _ => okLane lane && okCore core
  | .mlKemEncaps lane core _ _ => okLane lane && okCore core
  | .mlKemDecaps lane core _ _ => okLane lane && okCore core
  | .laneOpComplete lane core => okLane lane && okCore core
  | .laneSpareSwap lane => okLane lane
  | .hashLaneWake lane => okLane lane
  | .opNop core => okCore core
  | .opLit8 core imm next => okCore core && okByte imm && okByte next
  | .opLit16 core imm next => okCore core && okHalf imm && okByte next
  | .opLit32 core imm => okCore core && okWord imm
  | .opDup core => okCore core
  | .opDrop core => okCore core
  | .opSwap core => okCore core
  | .opOver core => okCore core
  | .opRot core => okCore core
  | .opNip core => okCore core
  | .opTuck core => okCore core
  | .opPick core => okCore core
  | .opDepth core => okCore core
  | .opTor core => okCore core
  | .opFromr core => okCore core
  | .opRfetch core => okCore core
  | .opRdrop core => okCore core
  | .opAdd core => okCore core
  | .opSub core => okCore core
  | .opAddc core => okCore core
  | .opSubb core => okCore core
  | .opMul core => okCore core
  | .opUmul core => okCore core
  | .opDivu core => okCore core
  | .opNeg core => okCore core
  | .opAnd core => okCore core
  | .opOr core => okCore core
  | .opXor core => okCore core
  | .opNot core => okCore core
  | .opShl core => okCore core
  | .opShr core => okCore core
  | .opSar core => okCore core
  | .opRol core => okCore core
  | .opInc core => okCore core
  | .opDec core => okCore core
  | .opEq core => okCore core
  | .opLtu core => okCore core
  | .opLts core => okCore core
  | .opZeq core => okCore core
  | .opSel core => okCore core
  | .opBswap core => okCore core
  | .opExtb core => okCore core
  | .opInsb core => okCore core
  | .opClz core => okCore core
  | .opPopc core => okCore core
  | .opBra core => okCore core
  | .opBz core => okCore core
  | .opBnz core => okCore core
  | .opCall core => okCore core
  | .opJmp core => okCore core
  | .opRet core => okCore core
  | .opNext core => okCore core
  | .opLd core => okCore core
  | .loadLanding core _ _ => okCore core
  | .opSt core => okCore core
  | .opLdb core => okCore core
  | .opStb core => okCore core
  | .opLdl core => okCore core
  | .opStl core => okCore core
  | .opLdlb core => okCore core
  | .opStlb core => okCore core
  | .opLds core => okCore core
  | .opSts core => okCore core
  | .opLdsb core => okCore core
  | .opStsb core => okCore core
  | .opBnkr core => okCore core
  | .opBnkw core => okCore core
  | .opSrr core => okCore core
  | .opSrw core => okCore core
  | .opBld core _ _ => okCore core
  | .opBst core => okCore core
  | .opBdup core => okCore core
  | .opBdrop core => okCore core
  | .opBxch core => okCore core
  | .opBxor core => okCore core
  | .opBzero core => okCore core
  | .opBpush core => okCore core
  | .opBpop core => okCore core
  | .opBinc core => okCore core
  | .opBeq core => okCore core
  | .opBmask core => okCore core
  | .opAsk core _ _ => okCore core
  | .opIssue core => okCore core
  | .opAwait core => okCore core
  | .awaitTimeout core => okCore core
  | .opRelease core => okCore core
  | .opKres core _ => okCore core
  | .opRand core => okCore core
  | .opTime core => okCore core
  | .opTick core => okCore core
  | .opFence core => okCore core
  | .opPrun core => okCore core
  | .icacheFill core => okCore core
  | .progImageFetch cluster fn _ _ _ _ => okCluster cluster && okFn fn
  | .progBaseWrite fn value => okFn fn && okLong value
  | .dispatchDecision core => okCore core
  | .ageScan => true
  | .gateInput core => okCore core
  | .liftRelease => true
  | .deadlineCommit => true
  | .criticalWakeScan => true
  | .clusterSleep cluster => okCluster cluster
  | .clusterWakeDone cluster => okCluster cluster
  | .tokenSelWrite value => okWord value
  | .liftQuotaWrite value => okWord value
  | .movTailWrite chan value => okChan chan && okWord value
  | .moverReadArrival chan _ => okChan chan
  | .moverBusError chan => okChan chan
  | .moverBurstDone chan => okChan chan
  | .movAbort chan => okChan chan
  | .movResume chan => okChan chan
  | .movBulkMapWrite value => okWord value
  | .creditReserve chan => okChan chan
  | .paneHrCommit region value => okRegion region && okWord value
  | .paneLoadDone m => okChecker m
  | .paneVioNext => true
  | .rctCutoff src => okPair src
  | .aptWindowEnd src _ => okPair src
  | .estBlockEnd src _ _ _ _ _ _ _ _ _ => okPair src
  | .seedArrival src _ => okPair src
  | .drbgGenerate => true
  | .sourceRetestStart src => okPair src
  | .entSwitch => true
  | .entRetestA => true
  | .entRetestB => true
  | .tamperSample mon det1 det2 _ _ => okMonitor mon && okDetector det1 && okDetector det2
  | .tamperComparatorEdge mon det1 det2 _ _ => okMonitor mon && okDetector det1 && okDetector det2
  | .disagreementWindowClose mon _ => okMonitor mon
  | .lockOrder => true
  | .eraseOrder => true
  | .lockedClosingCompletions => true
  | .pwrfailHoldExpiry => true
  | .unlockNewChallenge => true
  | .unlockGo => true
  | .unlockComplete _ _ => true
  | .cresLow _ => true
  | .chalIssue slot => okChallenge slot
  | .challengeExpiry slot => okChallenge slot
  | .provision _ _ => true
  | .deploy _ _ => true
  | .lifecycleReturn _ _ => true
  | .redeploy _ _ => true
  | .retire _ _ => true
  | .debugOpen _ _ => true
  | .debugClose _ _ => true
  | .debugLifeExpiry => true
  | .rejoinBegin _ _ => true
  | .rejoinFinish _ _ => true
  | .inject _ _ => true
  | .tokenHoldExpiry => true
  | .rejoinPackageExpiry => true
  | .minuteEdge => true
  | .receiptSigned => true
  | .rcptHeadWrite head => okWord head
  | .meterAdd => true
  | .dataFrame port _ => okPort port
  | .readId port _ => okPort port
  | .assign port _ => okPort port
  | .probeRelease port _ => okPort port
  | .routeWrite port _ => okPort port
  | .routeRead port _ => okPort port
  | .portRead port _ => okPort port
  | .probeReply port _ => okPort port
  | .auditFrame port _ => okPort port
  | .auditPeriodTimer => true
  | .syncReq port _ => okPort port
  | .syncRsp port _ => okPort port
  | .syncPeriodTimer => true
  | .neighbor port _ => okPort port
  | .linkAck port _ => okPort port
  | .linkNak port _ => okPort port
  | .linkCredit port _ => okPort port
  | .linkIdle port _ => okPort port
  | .linkAckTimeout port => okPort port
  | .retrainDone port _ _ _ => okPort port
  | .portTrainDone port _ _ _ => okPort port
  | .trainRetryTimer port => okPort port
  | .portLeaveUp port => okPort port
  | .replayDiscardTimer port => okPort port
  | .portSilence port => okPort port
  | .addrSet value => okWord value
  | .addrRelease value => okWord value
  | .portRetrain port value => okPort port && okWord value
  | .portEnableWrite port value => okPort port && okWord value
  | .mtxSend => true
  | .mrxNext => true
  | .evtNext => true
  | .entdaa addr => okI3c addr
  | .rstdaa => true
  | .setnewda addr => okI3c addr
  | .getpid => true
  | .getbcr => true
  | .getdcr => true
  | .getstatus => true
  | .enec _ => true
  | .disec _ => true
  | .getmwl => true
  | .setmwl len => okHalf len
  | .getmrl => true
  | .setmrl len => okHalf len
  | .setEndpointId _ eid => okByte eid
  | .getEndpointId _ => true
  | .getMctpVersionSupport _ => true
  | .getMessageTypeSupport _ => true
  | .getEndpointUuid _ => true
  | .i3cPrivateRead => true
  | .healthReportPeriodic => true
  | .knockTimer => true
  | .renewTimer => true
  | .knock path port _ => okPair path && okPort port
  | .renew path port _ => okPair path && okPort port
  | .grant path port _ => okPair path && okPort port
  | .knockRelease path port _ => okPair path && okPort port
  | .taken path port _ => okPair path && okPort port
  | .pathSilence path => okPair path
  | .txCheckTimeout path => okPair path
  | .leaseExpiryFence latch => okPair latch
  | .latchTake latch => okPair latch
  | .takeoverSlotArrival _ _ => true
  | .replayDescriptorArrival _ _ rec => okRecord rec
  | .aloneWaitExpiry latch => okPair latch
  | .pairKeyExchange _ => true
  | .mirrorJournal => true
  | .mirrorMeter => true
  | .mirrorState => true
  | .mirrorRing => true
  | .mirrorFnReset => true
  | .mirrorReceipt => true
  | .mirrorHead => true
  | .mirrorAck => true
  | .mirrorHandover => true
  | .mirrorResync => true
  | .mirrorRejoin src _ => okPair src
  | .mirrorResendTimer => true
  | .handoverGo value => okWord value
  | .handoverDrainExpiry => true
  | .handoverTimeout => true
  | .selfTestRun _ _ _ => true
  | .mainPowerPresent => true
  | .mainPowerLost _ _ _ => true
  | .pwrfailAssert => true
  | .pwrfailDeassert => true
  | .startStepDone _ _ _ => true
  | .heldReportTimer => true
  | .keepScrub _ _ _ => true
  | .keepWordRestore _ => true
  | .flashGo slot => okPair slot
  | .flashWriteComplete _ _ _ => true
  | .ledgerRetest => true
  | .gpioCtlWrite value => okWord value
  | .ppsPulse => true
  | .correctedCountSecond => true
  | .sillLaneRemapDone _ lane => okLane lane
  | .coreSpareSwap cluster => okCluster cluster
  | .dbgErrNext => true
  | .cntFreeze value => okWord value
  | .cntClear value => okWord value
  | .sampleCountExpiry core _ _ _ _ => okCore core
  | .sampleBlockDump cluster => okCluster cluster
  | .splitLowRead fn _ width => okFn fn && okWidth width
  | .splitLowWrite fn _ value => okFn fn && okWord value
  | .registerWrite fn _ width value => okFn fn && okWidth width && okLong value
  | .programBudgetExhausted core => okCore core
  | .illegalOpcode core opcode => okCore core && okByte opcode
  | .instructionFetchRefused core => okCore core
  | .storeAcknowledge core => okCore core
  | .programFetchTimeout cluster fn _ => okCluster cluster && okFn fn
  | .guardDiePowerUp => true
  | .vfEnableSet => true
  | .readClearAccess fn _ => okFn fn
  | .probeUnknownOp port _ => okPort port
  | .msixVectorUnmask fn vec => okFn fn && okVector vec

end Sys2Proof
end

