-- ==== Sys2Proof/Safety.lean ====
section
/-!
DEFINITION. What counts as a safe run, and the terms the statements use: conditions on a state, and what a command leaves unchanged.
-/

namespace Sys2Proof.Machine

/-! ### Safe runs -/

/-- A run is safe where no step stops: every answer is a next state. -/
def Safe (s : State) : Prop := ∃ t, step s = .next t

/-! ### Frames: what a command leaves unchanged -/

/-- Only ring pair `n` of function `f` may differ (and a low word that `f` held is gone, R503), and,
while a mirror stream runs, what is queued for the partner. -/
def ringFrame (f n : Nat) (s t : State) : Prop :=
  t = { s with hif := { s.hif with fns := t.hif.fns }, par := t.par } ∧ (streamOn s = false → t.par = s.par) ∧
  (∀ g, g ≠ f → fnOf t g = fnOf s g) ∧
  fnOf t f = { fnOf s f with rings := (fnOf t f).rings, heldWr := none } ∧ ∀ m, m ≠ n → ringOf t f m = ringOf s f m

/-- Only function `f` of the function table, and what is sent out, may differ. -/
def fnFrame (f : Nat) (s t : State) : Prop :=
  t = { s with hif := { s.hif with fns := t.hif.fns }, out := t.out } ∧ ∀ g, g ≠ f → fnOf t g = fnOf s g

/-- Only event counters, pending vectors and what is sent out may differ: what counting an event can do (R488-R493, R58). -/
def sideFrame (s t : State) : Prop :=
  t = { s with cnt := t.cnt, hif := { s.hif with fns := t.hif.fns }, out := t.out } ∧
  ∀ g, fnOf t g = { fnOf s g with msix := (fnOf t g).msix }

/-- Only the event recorder, the lock words, the mirror stream, the MCTP queue, pending vectors and what is sent out may differ: what a
report can do (R377, R422, R438, R450). -/
def reportFrame (s t : State) : Prop :=
  t = { s with aud := t.aud, tmp := t.tmp, par := t.par, i3c := t.i3c, hif := { s.hif with fns := t.hif.fns }, out := t.out } ∧
  ∀ g, fnOf t g = { fnOf s g with msix := (fnOf t g).msix }

/-- The descriptor becomes a token in record `rec` (R235, R236, R246). -/
def newToken (s : State) (fn n slot : Nat) (d : Bytes) (k : Token) : Prop :=
  k.func = fn ∧ k.slot = slot ∧ k.ring = n ∧ k.flow = dFlow d ∧ k.cls = dClass d ∧ k.base = dClass d ∧ k.ordered = dOrdered d ∧
  k.inherit = false ∧ k.accept = tick s ∧ k.desc = d ∧ k.accNo = s.hif.accNo ∧ k.mirror = opState (dOpcode d) ∧
  k.seq = (if dOrdered d then (flowOf s fn (dFlow d)).give else 0) ∧
  k.expire = if dDeadline d = 0 then none else some (tick s + dDeadline d)

/-- The registers take writes and no function command is in progress (R40, R504). -/
abbrev fnCmdReady (s : State) : Prop :=
  s.pwr.main = true ∧ s.hif.linkUp = true ∧ s.pwr.mode ≠ .guard ∧ s.pwr.mode ≠ .start ∧ s.hif.cmdPend = none

/-- A function's request fits: its minimums hold and no free pool falls below 0 (R38, R39). -/
abbrev requestFits (s : State) (f : Nat) : Prop :=
  (f = 0 ∨ 16 ≤ s.hif.req.tokens ∧ 1 ≤ s.hif.req.flows ∧ 1 ≤ s.hif.req.dispatch) ∧
  s.hif.req.tokens ≤ (shareOf s f).tokens + s.hif.free.tokens ∧ s.hif.req.flows ≤ (shareOf s f).flows + s.hif.free.flows ∧
  s.hif.req.keys ≤ (shareOf s f).keys + s.hif.free.keys ∧ s.hif.req.dispatch ≤ (shareOf s f).dispatch + s.hif.free.dispatch

/-- The shares of `f` became `q`, and the free pools took up the difference (R28, R39). -/
def sharesMoved (s t : State) (f : Nat) (q : Share) : Prop :=
  shareOf t f = q ∧ (∀ g, g ≠ f → shareOf t g = shareOf s g) ∧
  t.hif.free.tokens + q.tokens = s.hif.free.tokens + (shareOf s f).tokens ∧
  t.hif.free.flows + q.flows = s.hif.free.flows + (shareOf s f).flows ∧
  t.hif.free.keys + q.keys = s.hif.free.keys + (shareOf s f).keys ∧
  t.hif.free.dispatch + q.dispatch = s.hif.free.dispatch + (shareOf s f).dispatch

/-! ### Function level reset (R60) -/

/-- The reset of function `f` with cause `c` has begun in `t`: the stamp, no token of `f`, no completion of `f` to be written. -/
def resetBegun (s t : State) (f c : Nat) : Prop :=
  (∃ r, (fnOf t f).rst = some r ∧ r.stamp = tick s ∧ r.stampRef = s.time.refCount ∧ r.cause = c ∧ r.rptBase = (fnOf s f).rptBase ∧
    r.races = (fnOf s f).races ∧ r.drained = false) ∧
  (fnOf t f).rstWord = .resetting ∧ (∀ i, (tok t i).st ≠ .free → (tok t i).func ≠ f) ∧ ∀ r ∈ t.hif.relq, r.fn ≠ f

/-! ### Waking for critical tokens (R261, R262) -/

/-- The critical tokens, the earliest to expire first, that no core in ASK on an awake cluster can take (R262; log entry 37). -/
def wakeNeeds (s : State) : List (Nat × Token) :=
  untaken ((s.cpu.cores.map fun c => c.1).filter (coreFree s)) (sortBy soonerTok (s.slm.toks.filter fun it => wakeCritical s it.2))

/-! ### Slots of a core -/

/-- Core `p` ended a slot as `c`, but for the stack cache, its sampling and the slot's cycles: `cost` and at most two spills and fills (R203,
R204). Pending loads are a slot older (R205). -/
def slotCoreTo (p cost : Nat) (c : Core) (t : State) : Prop :=
  ∃ k, k ≤ 2 ∧ core t p = { c with
    cached := (core t p).cached, cyc := (c.cyc + k + cost) % 2 ^ 32, budget := if c.prog then c.budget - k - cost else c.budget,
    loads := c.loads.map fun l => { l with age := l.age + 1 },
    sampLeft := (core t p).sampLeft, sampLfsr := (core t p).sampLfsr, sampDue := (core t p).sampDue }

/-- A slot of core `p` ended with the core as `c`; every other core and every other block but the event counters is unchanged. -/
def slotTo (s : State) (p cost : Nat) (c : Core) (t : State) : Prop :=
  slotCoreTo p cost c t ∧ (∀ q, q ≠ p → core t q = core s q) ∧
  t = { s with cpu := { s.cpu with cores := t.cpu.cores }, cnt := t.cnt, hif := { s.hif with fns := t.hif.fns }, out := t.out } ∧
  ∀ g, fnOf t g = { fnOf s g with msix := (fnOf t g).msix }

/-- An instruction that fuses with nothing may start on core `p`, its data stack being `l` (R193, R195). -/
abbrev slotReady (s : State) (p : Nat) (l : List W32) : Prop :=
  canRun s p = true ∧ (core s p).fuse = none ∧ (core s p).ds = l ∧ l.length ≤ 976

/-- An instruction of opcode `op`, which fuses with a literal, may start on core `p`, its data stack, the fused literal on top, being `l` (R193,
R195). -/
abbrev fuseReady (s : State) (p op : Nat) (l : List W32) : Prop :=
  canRun s p = true ∧ misfit (core s p) op = false ∧ (slotCore (core s p) 1).ds = l ∧ l.length ≤ 977

/-- Core `p` waits at its slot: nothing but the mark of its wait changes (R195). -/
abbrev slotWaits (p : Nat) (s : State) : State := modCore p (fun c => { c with stall := true }) s

/-- The core that a slot of `len` bytes starts from: the program counter past it, a fused literal on its stack (R193). -/
abbrev begun (s : State) (p len : Nat) : Core := slotCore (core s p) len

/-- RES_LEN of a command that core `p` releases with a status: none but of success, of a custom command and of BULK_REENCRYPT (R51; log entry 59). -/
abbrev resLen (s : State) (p st len : Nat) : Nat :=
  if st = 0 ∨ opClass (dOpcode (coreDesc s p)) = 10 ∨ opClass (dOpcode (coreDesc s p)) = 7 then len else 0

/-- What a slot's fault makes of its core: the context is reset, FAULT and FAULT_PC say what and where, and firmware goes on at FW_FAULT
(R226-R228). -/
def faulted (s : State) (p kind : Nat) (t : State) : Prop :=
  (core t p).fault = kind * 2 ^ 28 + b2n (core s p).prog * 2 ^ 26 + (if kind = 7 then 0x0104 else 0x010A) ∧
  (core t p).faultPc = slotPc (core s p) ∧ (core t p).pc = (core s p).fwFault ∧ (core t p).prog = false ∧ (core t p).ds = [] ∧
  (core t p).rs = [] ∧ (core t p).bs = [] ∧ (core t p).bnk = 0 ∧ (core t p).stores = [] ∧ (core t p).loads = [] ∧
  (core t p).closed = true ∧ (core t p).st = .run

/-! ### The instructions of R203 that work on the data stack alone -/

/-- The instructions of one operand `a` (R203). -/
def oneOperand : List ((Nat → Instr) × (W32 → W32)) :=
  [(.opNeg, fun a => -a), (.opNot, fun a => ~~~a), (.opInc, fun a => a + 1), (.opDec, fun a => a - 1),
   (.opZeq, fun a => if a = 0 then 0xFFFFFFFF else 0),
   (.opBswap, fun a => a.extractLsb' 0 8 ++ a.extractLsb' 8 8 ++ a.extractLsb' 16 8 ++ a.extractLsb' 24 8),
   (.opClz, fun a => if a = 0 then 32 else BitVec.ofNat 32 (31 - Nat.log2 a.toNat)),
   (.opPopc, fun a => BitVec.ofNat 32 ((List.range 32).filter fun i => a.getLsbD i).length)]

/-- The instructions of two operands, `a` below `b`, with their cycles; the results, top first (R203). -/
def twoOperands : List ((Nat → Instr) × Nat × (W32 → W32 → List W32)) :=
  [(.opAdd, 1, fun a b => [a + b]), (.opSub, 1, fun a b => [a - b]), (.opMul, 3, fun a b => [a * b]),
   (.opUmul, 3, fun a b => [BitVec.ofNat 32 (a.toNat * b.toNat / 2 ^ 32), BitVec.ofNat 32 (a.toNat * b.toNat)]),
   (.opAnd, 1, fun a b => [a &&& b]), (.opOr, 1, fun a b => [a ||| b]), (.opXor, 1, fun a b => [a ^^^ b]),
   (.opShl, 1, fun a n => [a <<< (n.toNat % 32)]), (.opShr, 1, fun a n => [a >>> (n.toNat % 32)]),
   (.opSar, 1, fun a n => [a.sshiftRight (n.toNat % 32)]), (.opRol, 1, fun a n => [a.rotateLeft (n.toNat % 32)]),
   (.opEq, 1, fun a b => [if a = b then 0xFFFFFFFF else 0]), (.opLtu, 1, fun a b => [if a.toNat < b.toNat then 0xFFFFFFFF else 0]),
   (.opLts, 1, fun a b => [if a.toInt < b.toInt then 0xFFFFFFFF else 0]),
   (.opExtb, 1, fun a n => [(a >>> (8 * (n.toNat % 4))) &&& 0xFF#32])]

/-- The instructions of three operands `a`, `b`, `c`, `c` on top; the results, top first (R203). -/
def threeOperands : List ((Nat → Instr) × (W32 → W32 → W32 → List W32)) :=
  [(.opAddc, fun a b c => [BitVec.ofNat 32 ((a.toNat + b.toNat + c.toNat % 2) / 2 ^ 32), BitVec.ofNat 32 (a.toNat + b.toNat + c.toNat % 2)]),
   (.opSubb, fun a b c => [if a.toNat < b.toNat + c.toNat % 2 then 1 else 0, a - b - BitVec.ofNat 32 (c.toNat % 2)]),
   (.opSel, fun a b f => [if f ≠ 0 then a else b]),
   (.opInsb, fun a b n => [(a &&& ~~~((0xFF#32) <<< (8 * (n.toNat % 4)))) ||| ((b &&& 0xFF#32) <<< (8 * (n.toNat % 4)))])]

/-- The data-stack instructions that take and leave entries alone: how many they take, top first, and what they leave (R203). -/
def stackOps : List ((Nat → Instr) × List W32 × List W32) → Prop := fun l =>
  ∀ e ∈ l, ∀ (s : State) (p : Nat) (r : List W32), slotReady s p (e.2.1 ++ r) → (e.2.1 ++ r).length ≤ 976 →
    (e.2.2 ++ r).length ≤ 976 → ∃ t, exec (e.1 p) s = .next t ∧ slotTo s p 1 { begun s p 1 with ds := e.2.2 ++ r } t

/-- The target of a branch with offset `o`: from the byte after the slot, modulo 2^32 (R207). -/
abbrev branchTarget (c : Core) (o : W32) : Nat := (c.pc + o.toNat) % 2 ^ 32

/-- Loads by a short address through BNK, with their size and opcode (R198). -/
def bankLoads : List ((Nat → Instr) × Nat × Nat) := [(.opLd, 4, 0x50), (.opLdb, 1, 0x52)]
/-- Loads by a full address (R198). -/
def fullLoads : List ((Nat → Instr) × Nat) := [(.opLdl, 4), (.opLdlb, 1)]
/-- Loads through a stream pointer (R208). -/
def streamLoads : List ((Nat → Instr) × Nat) := [(.opLds, 4), (.opLdsb, 1)]

/-- Extra cycles of a load by its region (R200). -/
abbrev loadExtra (a : Nat) : Nat := if a < 0x10000 then 0 else if a < 0x20000000 then 8 else if a < 0x80000000 then 22 else 60

/-- What a load of `n` bytes at address `a` does to its core as `c`: a pending load, its value read now when the address is internal. -/
def loads (s : State) (p a n : Nat) (c : Core) (t : State) : Prop :=
  slotTo s p 1 { c with loads := c.loads ++
    [⟨c.ds.length - 1, if a < 0x80000000 then some (leNat (coreRead s p a n)) else none, n, loadExtra a, 0,
      if a < 0x80000000 then [] else hostOver c (aperture c a n)⟩] } t ∧
  (0x80000000 ≤ a → ∀ x, aperture c a n = [x] → ∀ o ∈ readsOf s c.func x.1 x.2, o ∈ t.out)

/-- The outcome of a load at address `a`: loaded, held back by a strict region (R289), misaligned, or refused. -/
def loadOutcome (s : State) (i : Instr) (p a n : Nat) (c : Core) : Prop :=
  (¬ (n = 4 ∧ a % 4 ≠ 0) → coreRefusal s p .read a n = none → s.dbg.inj = none → (0x80000000 ≤ a → strictWaits s c a n = false) →
    ∃ t, exec i s = .next t ∧ loads s p a n c t) ∧
  (¬ (n = 4 ∧ a % 4 ≠ 0) → coreRefusal s p .read a n = none → 0x80000000 ≤ a → strictWaits s c a n = true → exec i s = .next (slotWaits p s)) ∧
  (n = 4 → a % 4 ≠ 0 → ∃ t, exec i s = .next t ∧ faulted s p 6 t) ∧
  ∀ v, ¬ (n = 4 ∧ a % 4 ≠ 0) → coreRefusal s p .read a n = some v → ∃ t, exec i s = .next t ∧ faulted s p 7 t

/-- Stores by a short address through BNK, with their size and opcode (R198). -/
def bankStores : List ((Nat → Instr) × Nat × Nat) := [(.opSt, 4, 0x51), (.opStb, 1, 0x53)]
/-- Stores by a full address (R198). -/
def fullStores : List ((Nat → Instr) × Nat) := [(.opStl, 4), (.opStlb, 1)]
/-- Stores through a stream pointer (R208). -/
def streamStores : List ((Nat → Instr) × Nat) := [(.opSts, 4), (.opStsb, 1)]

/-- A word or block store is misaligned (R198, R210). -/
abbrev misaligned (n a : Nat) : Prop := (n = 4 ∧ a % 4 ≠ 0) ∨ (n = 16 ∧ a % 16 ≠ 0)

/-- The outcome of a store of bytes `d` at address `a` by core `p`, whose operands gone it is `c`, in `cost` cycles: every store waits in the
buffer, which a full buffer delays (R199, R200). -/
def storeOutcome (s : State) (i : Instr) (p a cost : Nat) (d : Bytes) (c : Core) : Prop :=
  (¬ misaligned d.length a → coreRefusal s p .write a d.length = none → (core s p).stores.length < 8 →
    ∃ t, exec i s = .next t ∧ slotTo s p cost { c with stores := (core s p).stores ++ [⟨a, d, (core s p).winOut⟩] } t) ∧
  (¬ misaligned d.length a → coreRefusal s p .write a d.length = none → 8 ≤ (core s p).stores.length → exec i s = .next (slotWaits p s)) ∧
  (misaligned d.length a → ∃ t, exec i s = .next t ∧ faulted s p 6 t) ∧
  ∀ v, ¬ misaligned d.length a → coreRefusal s p .write a d.length = some v → ∃ t, exec i s = .next t ∧ faulted s p 7 t

/-- A completion of ring pair `n` of function `f` with these bytes has been released: written to the host, or waiting in the release stream. -/
def completes (t : State) (f n : Nat) (b : Bytes) : Prop :=
  (∃ a ns, Out.write f a b false ns ∈ t.out) ∨ ∃ r ∈ t.hif.relq, r.fn = f ∧ r.ring = n ∧ r.bytes = b

/-- The token table lists each record once. -/
abbrev toksOnce (s : State) : Prop := (s.slm.toks.map fun e => e.1).Nodup

/-- A management register takes a write: main power, the link up, neither GUARD nor START (R504). -/
abbrev regsTake (s : State) : Prop := s.pwr.main = true ∧ s.hif.linkUp = true ∧ s.pwr.mode ≠ .guard ∧ s.pwr.mode ≠ .start

/-- The functions are as before, but for the low word that the PF held (R503). -/
def pfWrote (s t : State) : Prop := ∀ g, fnOf t g = if g = 0 then { fnOf s 0 with heldWr := none } else fnOf s g

/-- Only the mover block may differ, and no other channel. -/
def movWrote (n : Nat) (s t : State) : Prop :=
  t = { s with mov := t.mov, hif := { s.hif with fns := t.hif.fns } } ∧ pfWrote s t ∧ ∀ m, m ≠ n → chan t m = chan s m

/-- Only channel `n`, shared scratch, event counters, pending vectors and what is sent out may differ. -/
def movFrame (n : Nat) (s t : State) : Prop :=
  t = { s with
    mov := { s.mov with chans := t.mov.chans, shared := t.mov.shared }
    cnt := t.cnt
    hif := { s.hif with fns := t.hif.fns }
    out := t.out } ∧
  (∀ g, fnOf t g = { fnOf s g with msix := (fnOf t g).msix, heldWr := (fnOf t g).heldWr }) ∧ ∀ m, m ≠ n → chan t m = chan s m

/-- Four bytes at `a` of shared scratch hold the STAT word of an end, every other byte is as before (R273). -/
def statWritten (a code retries residue : Nat) (s t : State) : Prop :=
  mread t.mov.shared a 4 = leBytes 4 (code * 2 ^ 28 + retries * 2 ^ 25 + residue) ∧
  ∀ b, b < a ∨ a + 4 ≤ b → tget 0 t.mov.shared b = tget 0 s.mov.shared b

/-- Channel `n` is free to take a descriptor of its queue (R271). -/
abbrev chanFree (c : Chan) : Prop :=
  c.cur = none ∧ c.hw = none ∧ c.halted = false ∧ c.reqs = [] ∧ c.keyq = [] ∧ c.retryWait = false

/-- The channel as it begins the descriptor `d` at its queue's head, with this tail. -/
def chanBegins (c : Chan) (tail : Nat) (d : MovDesc) : Chan :=
  { c with
    tail := tail, head := (c.head + 1) % 2 ^ c.qlog2, cur := some d, code := 15, retries := 0, residue := 0, asked := false, bursts := 0, got := 0,
    put := 0, hold := []
    dropped := (match d.statAt with | some a => c.voids.contains a | none => false)
    voids := (match d.statAt with | some a => c.voids.filter (fun x => decide (x ≠ a)) | none => c.voids) }

/-- One outstanding source beat of `k` bytes completes a burst of descriptor `d` whose destination is shared scratch. -/
abbrev lastBeat (s : State) (n : Nat) (d : MovDesc) (k : Nat) : Prop :=
  (chan s n).cur = some d ∧ (chan s n).asked = true ∧ (chan s n).hold = [] ∧ (chan s n).got = (chan s n).put ∧ 0 < k ∧
  (chan s n).got + k = burstEnd (chan s n) d ∧
  beatLen (readLim s) d.srcSp d.src d.srcW (chan s n).got k (piecesOf d.srcSp d.src d.len d.srcP) = k ∧
  d.dstSp = 2 ∧ d.dstP = [] ∧ beatLen (writeLim s) 2 d.dst d.dstW (chan s n).put k [] = k ∧ portGone s d = false ∧ s.dbg.inj = none

/-- The staging copy of region `n` once `value` is written to its attributes (R284, R286). -/
def staged (s : State) (n value : Nat) : HostRegion :=
  { s.hif.hrStage.getD n HostRegion.none with attr := Nat.land value 0xFC7F }

/-- Core `p`'s next request on lane `n` is `r`, the lane's turn is its, and the lane runs it (R158, R167, R177, R180, R461). -/
abbrev laneRuns (s : State) (n p : Nat) (r : LaneReq) : Prop :=
  laneNext s n p = some r ∧ lanesOn s = true ∧ (laneOf s n).fenced = false ∧ laneAsleep s n = false ∧
  (isHash n = true → s.lanes.hashBusy ≤ s.time.refCount) ∧ (isBlock n = true → lanePick s n = some p) ∧ s.dbg.inj = none

/-- The request has its status and stack result, and waits for its way back (R158). -/
def laneEnded (n : Nat) (r : LaneReq) (st : Nat) (out : Bytes) (t : State) : Prop := { r with done := some (st, out) } ∈ (laneOf t n).queue

/-- What a request of core `p` on lane `n` leaves unchanged: all but that lane's state for that core, the entries a twinned request holds in
other lanes, the core's memory and reservations, scratch memory, the key store with what it shows the partner, event counters, pending vectors
and what is sent out. -/
def laneFrame (n p : Nat) (s t : State) : Prop :=
  t = { s with
    lanes := t.lanes
    kst := t.kst
    par := t.par
    cpu := { s.cpu with cores := t.cpu.cores, scratch := t.cpu.scratch }
    mov := { s.mov with shared := t.mov.shared }
    cnt := t.cnt
    hif := { s.hif with fns := t.hif.fns }
    out := t.out } ∧
  (∀ g, fnOf t g = { fnOf s g with msix := (fnOf t g).msix }) ∧ (∀ m, m ≠ n → laneOf t m = { laneOf s m with held := (laneOf t m).held }) ∧
  (∀ q, q ≠ p → core t q = core s q ∧ lanePort t n q = lanePort s n q) ∧
  core t p = { core s p with mem := (core t p).mem, pins := (core t p).pins }

/-- The key store is as before, and what it shows the partner. -/
def kstKept (s t : State) : Prop := t.kst = s.kst ∧ t.par = s.par

/-- `k` uses of the key `e` at entry `i` were spent: nothing of a key without budget, the chunk of another while it lasts (R143, R144). -/
def usesTaken (s t : State) (i k : Nat) (e : KEnt) : Prop :=
  (e.ledger = none → kstKept s t) ∧
  (16384 + k ≤ e.chunk → t.par = s.par ∧ t.kst = { s.kst with keys := t.kst.keys } ∧ (∀ j, j ≠ i → keyAt t j = keyAt s j) ∧
    ∃ x, keyAt t i = some x ∧ x.chunk = (if e.ledger.isSome then e.chunk - k else e.chunk))

/-- The internal memories of core `p`, its cluster and the device are as before. -/
def memKept (p : Nat) (s t : State) : Prop :=
  (core t p).mem = (core s p).mem ∧ t.cpu.scratch = s.cpu.scratch ∧ t.mov.shared = s.mov.shared

/-- Bytes `d` were written at address `a` of core `p`: internal memory holds them there and is otherwise as before; a host address leaves internal
memory as before (R198). -/
def coreWrote (s t : State) (p a : Nat) (d : Bytes) : Prop :=
  (a < 0x10000 → (core t p).mem = mwrite (core s p).mem a d ∧ t.cpu.scratch = s.cpu.scratch ∧ t.mov.shared = s.mov.shared) ∧
  (0x10000 ≤ a → a < 0x20000000 → (core t p).mem = (core s p).mem ∧
    t.cpu.scratch = mwrite s.cpu.scratch (coreCluster p * 2 ^ 20 + (a - 0x10000000)) d ∧ t.mov.shared = s.mov.shared) ∧
  (0x20000000 ≤ a → a < 0x80000000 → (core t p).mem = (core s p).mem ∧ t.cpu.scratch = s.cpu.scratch ∧
    t.mov.shared = mwrite s.mov.shared (a - 0x20000000) d) ∧
  (0x80000000 ≤ a → memKept p s t)

/-- The input of a request: internal memory, or what the host answers (R160). -/
def laneInput (s : State) (p a n : Nat) (data : Bytes) : Bytes :=
  if a < 0x80000000 then (List.range n).map fun i => coreByte s p (a + i) else padTo n data

/-- A block request `r` of length `len` runs under the pinned key at store index `i`, which is `e` as the lane's slot holds it (R157, R161,
R162, R166, R168). -/
abbrev blockRuns (s : State) (n p : Nat) (r : LaneReq) (len i : Nat) (e : KEnt) : Prop :=
  n < 16 ∧ laneRuns s n p r ∧ reqFormed r = true ∧ reqLen r = some len ∧
  (laneKey s r).map (fun x => (x.1, slotBad s n x.1 x.2, slotKey s n x.1 x.2)) = some (i, false, e) ∧ keyServes (rOp r) e = true

/-- One block of the block stack, padded by nothing, no subkey: the short form of a cipher request. -/
abbrev oneBlock (r : LaneReq) (len bs : Nat) : Prop := rSrc r = 0 ∧ rPad r = 0 ∧ rSub r = 0 ∧ len = bs

/-- The data block, with the chaining value XORed in under XIN (R164). -/
def blockIn (r : LaneReq) (bs : Nat) : Bytes :=
  if rXin r then xorBytes ((reqData r).take bs) (padTo bs (reqChain r)) else (reqData r).take bs

/-- A block request ended with a status, a stack result and `k` uses of its key spent; `q` is what the lane holds for the core now. -/
def blockDone (s : State) (n p : Nat) (r : LaneReq) (i : Nat) (e : KEnt) (st : Nat) (out : Bytes) (k : Nat) (q : LanePort) (t : State) : Prop :=
  laneEnded n r st out t ∧ laneUses t r = laneUses s r - k ∧ lanePort t n p = q ∧ laneFrame n p s t ∧ usesTaken s t i k e ∧
  t.lanes = { s.lanes with lanes := t.lanes.lanes }

/-- The digest commands with their function numbers (R183). -/
def hashRows : List ((Nat → Nat → Nat → List Byte → Instr) × Nat) :=
  [(.sha256, 1), (.sha384, 2), (.sha512, 3), (.sha3256, 4), (.sha3384, 5), (.sha3512, 6), (.shake128, 7), (.shake256, 8)]

/-- The context in slot `k` of a hash lane (R183). -/
def ctxAt (s : State) (n k : Nat) : Option HashCtx := ((laneOf s n).ctxs.find? fun c => c.1 = k).map fun c => c.2

/-- A request ended with a status, nothing for the stack, and the lane's contexts but slot `k` as before. -/
def hashDone (s : State) (n p : Nat) (r : LaneReq) (st k : Nat) (x : Option HashCtx) (t : State) : Prop :=
  laneEnded n r st [] t ∧ laneFrame n p s t ∧ ctxAt t n k = x ∧ ∀ j, j ≠ k → ctxAt t n j = ctxAt s n j

/-- The core's reservations and the key store are as before. -/
def keysKept (p : Nat) (s t : State) : Prop := (core t p).pins = (core s p).pins ∧ kstKept s t

/-- The signing and verifying commands with their parameter sets, the device keys that sign (R184). -/
def slhOps : List ((Nat → Nat → Nat → List Byte → Instr) × Nat × SlhP × List Nat) :=
  [(.slhDsa256fSign, 0x10, slh256f, [3, 4]), (.slhDsa256sSign, 0x12, slh256s, [1, 2])]
/-- The verifying commands (R184). -/
def slhVerifyOps : List ((Nat → Nat → Nat → List Byte → Instr) × Nat × SlhP) :=
  [(.slhDsa256fVerify, 0x11, slh256f), (.slhDsa256sVerify, 0x13, slh256s)]

/-- The key store entries that hold results of core `p`'s requests (R188, R190). -/
abbrev heldOut (s : State) (p : Nat) : List Nat := tget [] s.lanes.keyOut p

/-- An asymmetric request ended with a status. -/
def asymDone (s : State) (n p : Nat) (r : LaneReq) (st : Nat) (t : State) : Prop :=
  laneEnded n r st [] t ∧ (∀ q, q ≠ p → heldOut t q = heldOut s q) ∧
  ((∀ j, (drbgOf s j).count < 4095) → laneFrame n p { s with ent := t.ent } t)

/-- And its result, if any, went to the output aperture alone, its key `e` at entry `i` one use poorer for each of `k` (R143, R188). -/
def asymPlain (s : State) (n p : Nat) (r : LaneReq) (st i k : Nat) (e : KEnt) (t : State) : Prop :=
  asymDone s n p r st t ∧ heldOut t p = heldOut s p ∧ laneUses t r = laneUses s r - k ∧ usesTaken s t i k e

/-- And its result is key material: it stands in an entry of the key store that was free, as a key of the core's function, and nowhere else (R188-R190). -/
def asymKey (s : State) (n p : Nat) (r : LaneReq) (kind alg : Nat) (mat : Bytes) (t : State) : Prop :=
  asymDone s n p r 0 t ∧ ∃ i e, heldOut t p = heldOut s p ++ [i] ∧ i ∉ usedEntries s ∧ keyAt t i = some e ∧ e.func = (core s p).func ∧
    e.kind = kind ∧ e.alg = alg ∧ e.mat = mat

/-- Core `p`'s next request on lane `n` is of operation `op`, well formed, under the key `e` at entry `i` with a use reserved. -/
abbrev keyedRuns (s : State) (n p op : Nat) (r : LaneReq) (i : Nat) (e : KEnt) : Prop :=
  24 ≤ n ∧ n < 28 ∧ laneRuns s n p r ∧ wOp r = op ∧ wReserved r = false ∧ laneKey s r = some (i, e) ∧ keyBad s i e = false ∧ 1 ≤ laneUses s r

/-- The bytes that the DRBG instance of core `p`'s function gives next (R307, R308). -/
def drawn (s : State) (p n : Nat) : Bytes :=
  (drbgGenerate ⟨(drbgOf s (instOf (core s p).func)).key, (drbgOf s (instOf (core s p).func)).v⟩ n []).1

/-- That instance gives output. -/
abbrev drawReady (s : State) (p : Nat) : Prop := drbgLive s (instOf (core s p).func) = true

/-- A lattice request of operation `op` on set `set` (R190). -/
abbrev latRuns (s : State) (n p op set : Nat) (r : LaneReq) : Prop :=
  28 ≤ n ∧ n < 30 ∧ laneRuns s n p r ∧ wOp r = 16 * set + op ∧ 1 ≤ set ∧ set ≤ 3 ∧ wReserved r = false ∧ (core s p).prog = false

/-- The lane that takes over the requests of modular or lattice lane `n`: the next of its kind in service (R178). -/
def laneHeir (s : State) (n : Nat) : Option Nat :=
  (if isMod n then [24 + (n - 24 + 1) % 4, 24 + (n - 24 + 2) % 4, 24 + (n - 24 + 3) % 4] else if isLat n then [57 - n] else []).find?
    fun m => !(laneOf s m).fenced

/-- The lane on port `n` is fenced, and nothing that it held is left: its requests without result end FENCED, or, of a modular or lattice lane, go
to the next lane of its kind in service (R177, R178). -/
def laneFencedNow (s t : State) (n : Nat) : Prop :=
  (laneOf t n).fenced = true ∧ (laneOf t n).ports = [] ∧ (laneOf t n).slots = [] ∧ (laneOf t n).ctxs = [] ∧ (laneOf t n).work = [] ∧
  (laneHeir s n = none → (laneOf t n).queue = (laneOf s n).queue.map fun r => if reqPending r then { r with done := some (7, []) } else r) ∧
  ∀ m, laneHeir s n = some m → (laneOf t n).queue = (laneOf s n).queue.filter (fun r => !reqPending r) ∧
    (laneOf t m).queue = (laneOf s m).queue ++ (laneOf s n).queue.filter reqPending

/-- Miss `id` ended with a status: its core, waiting in place, goes on with it (R127, R129); no key and no other miss changes. -/
def missEnds (s : State) (id : Nat) (m : Miss) (st : Option Nat) (t : State) : Prop :=
  missAt t id = none ∧ (∀ j, j ≠ id → missAt t j = missAt s j) ∧ t.kst.keys = s.kst.keys ∧
  (m.toks = [] → t = { s with
    kst := { s.kst with misses := t.kst.misses }
    cpu := { s.cpu with cores := t.cpu.cores } }) ∧
  ∀ p, m.toks = [] → m.cores = [(p, m.gen)] → (core s p).st = .kres → core t p = { core s p with st := .run, kstat := st } ∧
    ∀ q, q ≠ p → core t q = core s q

/-- The reads of `len` bytes at `a` of function `f` by an owner of hardware, a structure of up to 64 bytes at once (R274). -/
def askOut (s : State) (f a len : Nat) : List Out := if len ≤ 64 then [.read f a len (noSnoopAt s f a)] else readsOf s f a len

/-- Miss `id` went on as `m`, its read sent on channel `n`, which runs it (R127, R271, R535); with no waiter to count a miss for, nothing else
changes. -/
def missAsks (s : State) (id : Nat) (m : Miss) (a len n : Nat) (t : State) : Prop :=
  missAt t id = some m ∧ (∀ j, j ≠ id → missAt t j = missAt s j) ∧ (∀ o ∈ askOut s m.fn a len, o ∈ t.out) ∧
  chan t n = { chan s n with hw := some (fetchDesc m a len), hwMiss := some id, code := 15, retries := 0, residue := 0 } ∧
  (∀ k, k ≠ n → chan t k = chan s k) ∧
  (m.toks = [] → m.cores = [] → t = { s with
    kst := { s.kst with misses := t.kst.misses }
    mov := { s.mov with chans := t.mov.chans }
    out := s.out ++ askOut s m.fn a len })

/-- Channel `n` has nothing to do. -/
abbrev chanIdle (s : State) (n : Nat) : Prop := chanFree (chan s n) ∧ (chan s n).head = (chan s n).tail

/-- The channel number of the next fetch of miss `id`. -/
abbrev fetchOn (s : State) (id : Nat) : Nat := keyChannel s id - 0xC0

/-- Channel `n` runs the fetch of miss `id`, which is not past its expiry edge, and has nothing else to do once its read has ended, in `u` (R128). -/
abbrev fetchEnds (s u : State) (id n : Nat) (m : Miss) : Prop := fetchChan s id = some n ∧ missLate s m = false ∧ chanIdle u n

/-- A directory entry that a miss accepts: its kind, no reserved bit, and a block of 16 to 2,048 bytes (R117, R129). -/
abbrev dirGood (m : Miss) (d : Bytes) : Prop :=
  leAt d 11 1 = m.kind ∧ m.kind < 16 ∧ leAt d 12 4 = 0 ∧ 16 ≤ leAt d 8 2 ∧ leAt d 8 2 ≤ 2048

/-- The directory registers of function `f` once register `reg` has taken `value` (R119). -/
def dirTook (x : Fn) (reg value : Nat) : Fn :=
  if reg = 0 then { x with dirBase := value % 2 ^ 64 / 4096 * 4096, heldWr := none } else { x with dirSize := value % 2 ^ 21, heldWr := none }

/-- Command `c` starts on core `p` with descriptor `d` and input `i`: firmware runs it without a fault, its static checks and its input's layout
hold, the pane lets the input be read, and a lane serves it (R77 steps 1 to 3, R83). -/
abbrev payStarts (c : PayCmd) (s : State) (p : Nat) (d i input : Bytes) : Prop :=
  payReady c.op s p = true ∧ (core s p).kstat = none ∧ d = mread (core s p).mem 0xFF00 64 ∧ paySg d = false ∧ c.static d = 0 ∧
  i = padTo (bufLen (core s p).inList) input ∧ payRefusal s p false (core s p).inList = none ∧ c.layout d i = true ∧
  payHalt s p = false ∧ s.dbg.inj = none ∧ payNoLane s c.op p = false

/-- The key slots hold handles of keys without budget that the command accepts, pinned by none but itself: store index and entry of each (R73, R77
step 4, R124, R126). -/
def slotsHold (s : State) (p : Nat) (d : Bytes) : List PayKey → List (Nat × KEnt) → Bool
  | [], [] => true
  | k :: ks, x :: xs =>
    decide (dKey d k.slot ≠ 0) && (match resolve s (core s p).func (dKey d k.slot) k.req 0 with | .ok i => decide (i = x.1) | _ => false) &&
    ((pinOf s p (dKey d k.slot)).all fun i => decide (i = x.1)) &&
    decide (keyAt s x.1 = some x.2) && decide (k.check x.2 = 0) && x.2.ledger.isNone && slotsHold s p d ks xs
  | _, _ => false

/-- What a payment command leaves unchanged. -/
def payFrame (s : State) (p : Nat) (t : State) : Prop :=
  memKept p s t ∧ (∀ q, (core t q).mem = (core s q).mem) ∧ t.lanes = s.lanes ∧ t.mov = s.mov ∧ t.lcy = s.lcy ∧ t.phl = s.phl

/-- The core gives the Gate a status, an output length and units (R81, R221). -/
def payDone (s : State) (p st len units : Nat) (t : State) : Prop :=
  (core t p).st = .release st len ∧ (core t p).units = units ∧ (core t p).pc = (core s p).askPc ∧ payFrame s p t

/-- The output `b` fits and may be written (R77 steps 8 and 9). -/
abbrev outputFits (s : State) (p : Nat) (b : Bytes) : Prop :=
  b.length ≤ bufLen (core s p).outList ∧ payRefusal s p true (bufPieces (core s p).outList 0 b.length) = none

/-- The output `b` was written, into a buffer of one piece beat by beat from its address (R77 step 9, R274). -/
def outputWritten (s : State) (p : Nat) (b : Bytes) (t : State) : Prop :=
  ∀ a n, (core s p).outList = [(a, n)] → (core s p).closed = false → ∀ o ∈ writesOf s (core s p).func a b true, o ∈ t.out

/-- The command ended 0 with output `b`. -/
def payOutput (s : State) (p units : Nat) (b : Bytes) (t : State) : Prop := payDone s p 0 b.length units t ∧ outputWritten s p b t

/-- A refused or failed command: a status, and nothing written but reads. -/
def payFails (s : State) (p st units : Nat) (t : State) : Prop :=
  payDone s p st 0 units t ∧ ∀ f a b r n, Out.write f a b r n ∈ t.out → Out.write f a b r n ∈ s.out

/-- The fill that an output block of this format and PIN length takes from the function's instance (R85, R308). -/
def fillBytes (s : State) (p fmt l : Nat) : Bytes := if fillDraw fmt l = 0 then [] else drawn s p (fillDraw fmt l)

/-- A comparing command ends 0 where the comparison holds and with status `st` where it fails. -/
def oneKeyChecks (c : PayCmd) (cmd : Nat → List Byte → Nat → Instr) (st : Nat) (ok : Bytes → Bytes → KEnt → Prop) : Prop :=
  ∀ (s : State) (p n : Nat) (d i : Bytes) (input : List Byte) (e : KEnt), payStarts c s p d i input →
    slotsHold s p d (c.keys d i) [(n, e)] = true →
    (ok d i e → ∃ t, exec (cmd p input 0) s = .next t ∧ payOutput s p 1 [] t) ∧
    (¬ ok d i e → ∃ t, exec (cmd p input 0) s = .next t ∧ payFails s p st 1 t)

/-- A generating command ends 0 with the output given, where it is given and fits. -/
def oneKeyMakes (c : PayCmd) (cmd : Nat → List Byte → Nat → Instr) (value : Bytes → Bytes → KEnt → Option Bytes) : Prop :=
  ∀ (s : State) (p n : Nat) (d i : Bytes) (input : List Byte) (e : KEnt) (b : Bytes), payStarts c s p d i input →
    slotsHold s p d (c.keys d i) [(n, e)] = true → value d i e = some b → outputFits s p b →
    ∃ t, exec (cmd p input 0) s = .next t ∧ payOutput s p 1 b t

/-- The service code that PARAM selects: the input's, 999 or 000 (R91). -/
def cvvService (d i : Bytes) : List Nat :=
  match dParam d % 4 with | 0 => digitsOf (slice i 0x24 3) | 1 => [9, 9, 9] | _ => [0, 0, 0]
/-- The card verification digits of an input, in ASCII (R91). -/
def cvvDigitsOf (d i : Bytes) (e : KEnt) : Bytes :=
  asciiDigits (cvvOf e.mat (slice i 0 32) (digitsOf (slice i 0x20 4)) (cvvService d i) (dParam d / 16 % 16))

/-- The key of a card's cryptograms: its session key, or its master key (R92). -/
def cardKey (d i : Bytes) (e : KEnt) : Bytes :=
  if dParam d / 4 % 4 = 0 then emvSession e.alg (emvMaster e.alg e.mat (slice i 0 32) (leAt i 0x20 1)) (slice i 0x22 2)
  else emvMaster e.alg e.mat (slice i 0 32) (leAt i 0x20 1)
/-- The cryptogram of the card's data, padded as PARAM asks (R92). -/
def cardMac (d i : Bytes) (e : KEnt) : Bytes :=
  emvMac e.alg (cardKey d i e) (isoPad (if (dParam d).testBit 4 then 1 else 2) (blkSize (algAes e.alg)) (i.drop 64))
/-- The response that PARAM asks for: none, method 1 or method 2 (R93). -/
def cardResponse (d i : Bytes) (e : KEnt) : Bytes :=
  if (dParam d).testBit 0 = false then []
  else if (dParam d).testBit 1 = false then tdesEnc (cardKey d i e) (xorBytes (slice i 0x24 8) (padTo 8 (slice i 0x2C 2)))
  else (emvMac e.alg (cardKey d i e) (if algAes e.alg then slice i 0x24 8 ++ slice i 0x2C 4 ++ slice i 0x31 (leAt i 0x30 1)
    else isoPad 2 8 (slice i 0x24 8 ++ slice i 0x2C 4 ++ slice i 0x31 (leAt i 0x30 1)))).take 4

/-- The MAC that PARAM's ALG, PADM and MAC_LEN select (R95). -/
def macBytes (d msg : Bytes) (e : KEnt) : Bytes :=
  (macOf (dParam d % 16) (dParam d / 16 % 16) e.alg e.mat msg).take (dParam d / 256 % 32)

/-- The transaction's working key: 0 PIN, 1 MAC, 2 data (R96, R97). -/
def txKey (use : Nat) (resp : Bool) (d i : Bytes) (e : KEnt) : Bytes := workKey use (dParam d / 256 % 4) resp e.alg e.mat (i.take 16)
/-- The text of an FF1 command: HEAD characters, the middle, TAIL characters (R98). -/
def ffOutput (dec : Bool) (d i : Bytes) (e : KEnt) : Bytes :=
  let l := leAt i 0 1
  let t := slice i 4 l
  let m := (slice t (ffHead d) (l - ffHead d - ffTail d)).map fun b => (chrVal (ffRadix d) b).getD 0
  t.take (ffHead d) ++ (ff1 dec e.mat (slice i (4 + l) (leAt i 1 1)) (ffRadix d) m).map valChr ++ t.drop (l - ffTail d)
/-- BULK_REENCRYPT's data deciphered, and enciphered again (R102). -/
def bulkPlain (d i : Bytes) (e : KEnt) : Bytes := bulkDec (dParam d % 16) e.mat (slice i 0 16) (i.drop (64 + leAt i 0x30 4))
/-- The output data. -/
def bulkOutput (d i : Bytes) (e0 e1 : KEnt) : Bytes := bulkEnc (dParam d / 16 % 16) e1.mat (slice i 16 16) (bulkPlain d i e0)
/-- The tag of GCM input is right. -/
def bulkTagOk (d i : Bytes) (e : KEnt) : Prop :=
  dParam d % 16 = 2 → gcmTag e.mat (slice i 0 12) (slice i 64 (leAt i 0x30 4)) (i.drop (64 + leAt i 0x30 4)) = slice i 0x20 16

/-- The recorder takes a record at once: not blocked, no anchor due, below the warning threshold (R379, R383, R386). -/
abbrev logTakes (s : State) : Prop :=
  recBlocked s = false ∧ anchorNeeded s = false ∧ s.aud.shutter = none ∧ s.aud.staging = [] ∧ logUsed s + 1 < 458752

/-- A record of this code, function and body was appended with the next SEQ (R377, R378). -/
def appended (s t : State) (code fn : Nat) (body : Bytes) : Prop :=
  t.aud.next = s.aud.next + 1 ∧
  ∃ h ∈ t.aud.held, h.seq = s.aud.next ∧ leAt h.bytes 4 2 = code ∧ leAt h.bytes 12 2 = fn % 65536 ∧ slice h.bytes 16 40 = padTo 40 body

/-- A state-changing command may run: its record is not refused and does not stall (R384, R387). -/
abbrev recordRoom (s : State) : Prop := recStall s = false ∧ recordRefused s = false

/-- The key as a block under a protection key, with padding from the function's instance (R134). -/
def wrapped (s : State) (p : Nat) (e : KEnt) (opts : List (Nat × Bytes)) (alg : Nat) (key : Bytes) : Bytes :=
  let n := kbPadLen e.alg e.mat.length
  kbWrap e.usage e.mode e.kvn e.expo 0x30 opts e.alg e.mat ((drawn s p (n + 32)).take n) ((drawn s p (n + 32)).drop n) alg key

/-- The key as a block under the LMK set `x`, by its KBEK and KBAK, with its 0L block (R113, R136). -/
def lmkWrapped (s : State) (p : Nat) (e : KEnt) (x : LmkSlot) : Bytes :=
  let n := kbPadLen e.alg e.mat.length
  kbWrapBy e.usage e.mode e.kvn e.expo 0x30 ((oid '0' 'L', hexN 4 x.gen) :: e.carry) e.alg e.mat ((drawn s p (n + 32)).take n) ((drawn s p (n + 32)).drop n)
    5 x.kbek x.kbak

/-- The CURRENT LMK set of function `f` stands in the key store and passes its check (R113, R123). -/
abbrev lmkServes (s : State) (f : Nat) (x : LmkSlot) : Prop := lmkSet s f = some x ∧ x.bad = false

/-- The pane lets BULK_REENCRYPT read its header, its AAD and its `n` bytes of data, and write as many (R103, R283). -/
abbrev bulkClear (s : State) (p : Nat) (i : Bytes) : Prop :=
  payRefusal s p false (bufPieces (core s p).inList 0 64) = none ∧ payRefusal s p false (bufPieces (core s p).inList 64 (bkAad i)) = none ∧
  bulkStop s p false (core s p).inList (64 + bkAad i) (bkLen i) = none ∧ bulkStop s p true (core s p).outList 0 (bkLen i) = none

/-- A key command ended 0 with the output `b` and its record. -/
def keyOutput (s : State) (p : Nat) (b body : Bytes) (t : State) : Prop :=
  payOutput s p 1 b t ∧ (logTakes s → appended s t 0x0200 (core s p).func body)

/-- The token `t` stands in input `i`, within 300 seconds of device time `now`; its content key and content open under KEY0, and its signed header
makes the entry `k` (R154, R155). -/
abbrev tokenOpens (s : State) (f : Nat) (e0 : KEnt) (i : Bytes) (now : Nat) (t : Tr34) (k : KEnt) : Prop :=
  tokenParse (i.drop 4) = some t ∧ t.time ≤ now + 300000000 ∧ now ≤ t.time + 300000000 ∧
  ∃ key header, (tr34Cek e0 t).bind (tokenKey t) = some (key, header) ∧ tr34Ent s f t key header = some k

/-- Management command `c` starts on core `p` with descriptor `d` and an input of this body and then these approvals, as many as its opcode
asks for; the recorder takes records, and a lattice lane serves its ML-KEM operation, if any (R77, R150, R346, R347, R351 step 1, R385). -/
abbrev mgmtStarts (c : MgmtCmd) (s : State) (p : Nat) (d body : Bytes) (as : List Bytes) (input : Bytes) : Prop :=
  (payReady c.op s p = true ∧ (core s p).func = 0 ∧ serialWait c.op p s = false ∧ recStall s = false ∧ (recBlocked s = false ∧ s.aud.buf.length < 60) ∧
    ((core s p).kstat.filter fun st => decide (st ≠ 0x0206)) = none ∧ d = mread (core s p).mem 0xFF00 64 ∧ mgmtStatic c d s = 0 ∧
    payRefusal s p false (core s p).inList = none ∧ bufLen (core s p).inList = body.length + 29856 * (c.signers s []).length ∧
    c.bodyLen.all (fun k => decide (body.length = k)) = true ∧ c.bodyOk body = true ∧ c.outBody body ≤ dOutLen d ∧
    payHalt s p = false ∧ s.dbg.inj = none ∧ (kemOps.contains c.op = true → (laneTaker s 28).isSome = true)) ∧
  input = body ++ joinBytes as ∧ as.length = (c.signers s []).length ∧ ∀ a ∈ as, a.length = 29856

/-- What steps 2 to 6 of R351 answer: 0 when the approvals are good. -/
abbrev approval (c : MgmtCmd) (s : State) (p : Nat) (d body : Bytes) (as : List Bytes) : Nat :=
  apprCheck s (cmdDigest d body) (c.signers s body) as (slotCheck s (acceptTick s p))

/-- A management command was handed to the Gate with a status and this output; memories and the link are as before (R77, R221). -/
def mgmtEnded (s : State) (p st : Nat) (out : Bytes) (t : State) : Prop :=
  (core t p).st = .release st out.length ∧ (core t p).units = 1 ∧ (core t p).pc = (core s p).askPc ∧ outputWritten s p out t ∧
  memKept p s t ∧ (∀ q, (core t q).mem = (core s q).mem) ∧ t.phl = s.phl

/-- And the lanes and movers are as before too. -/
def mgmtDone (s : State) (p st : Nat) (out : Bytes) (t : State) : Prop := mgmtEnded s p st out t ∧ t.lanes = s.lanes ∧ t.mov = s.mov

/-- It ended with a status and changed neither officers, keys nor classes; `used` is the life-cycle block it leaves. -/
def mgmtFails (s : State) (p st : Nat) (used : Lcy) (t : State) : Prop := mgmtDone s p st [] t ∧ t.lcy = used ∧ t.kst = s.kst ∧ t.tmp = s.tmp

/-- The slot that good approvals name is USED (R350). -/
abbrev slotUsed (s : State) (as : List Bytes) : Lcy := (chalUse as s).lcy

/-- Officer of approval `k`, as a record holds it. -/
def signer (as : List Bytes) (k : Nat) : Bytes := leBytes 1 ((as.map apOfficer).getD k 0)

/-- Record `k` after the present head has this code, function and body (R377, R378). -/
def recorded (s t : State) (k code fn : Nat) (body : Bytes) : Prop :=
  ∃ h ∈ t.aud.held, h.seq = s.aud.next + k ∧ leAt h.bytes 4 2 = code ∧ leAt h.bytes 12 2 = fn % 65536 ∧ slice h.bytes 16 40 = padTo 40 body

/-- The recorder takes two records at once (R379, R383). -/
abbrev logTakesTwo (s : State) : Prop := logTakes s ∧ logUsed s + 2 < 458752 ∧ (s.aud.next + 1) % 4096 ≠ 0

/-- The output of a BEGIN: number, nonce, encapsulation key, and the identity key's signature over these and the VF number (R149). -/
def beginOut (s : State) (p vf : Nat) : Bytes :=
  let r := drawn s p 96
  let m := leBytes 2 s.kst.cerNo ++ r.take 32 ++ (kemKeygen 3 (slice r 32 32) (slice r 64 32)).1
  m ++ identSign (m ++ leBytes 2 vf) s

/-- A ceremony's BEGIN opens it (R149, R151, R153). -/
def cerOpens (op : Nat) (comp : Bool) (cmd : Nat → List Byte → Nat → Nat → Instr) : Prop :=
  ∀ (s : State) (p vf : Nat) (d body : Bytes) (as : List Bytes) (input : List Byte), mgmtStarts (cerBeginCmd op comp vf) s p d body as input →
    approval (cerBeginCmd op comp vf) s p d body as = 0 → 1 ≤ vf → vf ≤ 1024 →
    (s.kst.cers.length < 8 → drawReady s p → outputFits s p (beginOut s p vf) →
      ∃ t, exec (cmd p input vf 0) s = .next t ∧ mgmtDone s p 0 (beginOut s p vf) t ∧ t.lcy = slotUsed s as ∧
        t.kst = { s.kst with
          cers := s.kst.cers ++ [⟨s.kst.cerNo, comp, vf, (drawn s p 96).take 32,
            (kemKeygen 3 (slice (drawn s p 96) 32 32) (slice (drawn s p 96) 64 32)).2, tick s, zeroBytes 32, [], (cerFree s).getD 0⟩]
          cerNo := (s.kst.cerNo + 1) % 65536 }) ∧
    (8 ≤ s.kst.cers.length → ∃ t, exec (cmd p input vf 0) s = .next t ∧ mgmtFails s p 0x020B (slotUsed s as) t)

/-- A slot whose blob was written again (R114, R115). -/
def slotWritten (x : LmkSlot) : LmkSlot := { x with version := (x.version + 1) % 2 ^ 32, occ := x.key.isSome }

/-- An occupied slot was emptied (R148). -/
def slotEmptied (x : LmkSlot) : LmkSlot := if x.occ then slotWritten { dropLmk x with role := 0 } else x

/-- LMK `k` was installed for VF `f` by ceremony `num` (R112, R152, R153). -/
def lmkInstalled (s : State) (f num : Nat) (k : Bytes) (t : State) : Prop :=
  let l := lmkOf s f
  let n := installSlot l
  let g := (l.lastGen + 1) % 65536
  let old := lmkSlot l (1 - n)
  lmkSlot (lmkOf t f) n = slotWritten (setLmk k 1 g (lmkSlot l n)) ∧
  lmkSlot (lmkOf t f) (1 - n) = (if old.key.isSome then slotWritten { old with role := 2 } else old) ∧
  (lmkOf t f).lastGen = g ∧ (lmkOf t f).loaded = true ∧ (∀ v, v ≠ f → lmkOf t v = lmkOf s v) ∧
  t.kst = { s.kst with lmks := t.kst.lmks, cers := s.kst.cers.filter fun x => decide (x.num ≠ num) }

/-- A FINISH installs the LMK `k` for VF `f`, or ends 0x0204 with both slots occupied (R152). -/
def cerInstalls (op num f : Nat) (k : Bytes) (s : State) (p : Nat) (as : List Bytes) (i : Instr) : Prop :=
  (¬ ((lmkOf s f).s0.key.isSome ∧ (lmkOf s f).s1.key.isSome) → drawReady s p →
    ∃ t, exec i s = .next t ∧ mgmtEnded s p 0 [] t ∧ t.lanes = s.lanes ∧ t.lcy = slotUsed s as ∧ lmkInstalled s f num k t ∧
      (logTakesTwo s →
        recorded s t 0 0x0201 f (leBytes 2 op ++ leBytes 2 f ++ leBytes 1 (installSlot (lmkOf s f)) ++
          leBytes 2 (((lmkOf s f).lastGen + 1) % 65536) ++ leBytes 2 num) ∧
        recorded s t 1 0x0202 f (leBytes 2 num ++ leBytes 2 f ++ [1]))) ∧
  ((lmkOf s f).s0.key.isSome → (lmkOf s f).s1.key.isSome →
    ∃ t, exec i s = .next t ∧ mgmtFails s p 0x0204 (slotUsed s as) t)

/-- A ceremony was closed for a reason, and nothing else of the key store changed (R153). -/
def cerClosed (s : State) (num f reason : Nat) (t : State) : Prop :=
  t.kst = { s.kst with cers := s.kst.cers.filter fun x => decide (x.num ≠ num) } ∧
  (logTakes s → appended s t 0x0202 f (leBytes 2 num ++ leBytes 2 f ++ leBytes 1 reason))

/-- The key as a block under the LMK set `x` that marks it sensitive (R140). -/
def markedBlock (s : State) (p : Nat) (k : KEnt) (x : LmkSlot) : Bytes := lmkWrapped s p { k with carry := (oid '0' 'X', ascii "01") :: k.carry } x

/-- The private material that a key pair of this algorithm gets: the primes' for RSA, drawn for ECC (R122). -/
def pairMade (s : State) (p alg p1 p2 x : Nat) (m : Bytes) : Prop :=
  (algRsa alg = true ∧ rsaMaterial (rsaLen alg) p1 p2 x = some m) ∨
  (algRsa alg = false ∧ algEcc alg = true ∧
    let c := curveOf alg
    let d := ecScalar c (drawn s p (c.len + 8))
    m = beBytes c.len d ++ ecBytes c (ecMul c d (ecG c)))

/-- A program's approval as a command's body names it (R367). -/
def approvedBy (b : Bytes) : Approval := ⟨leAt b 0 2, leAt b 2 1, leAt b 4 4, slice b 8 32⟩

/-- PROG_APPROVE may approve what its body names: the VF's key, the version, the tenant's signature, room in the table (R367). -/
abbrev progGood (s : State) (b pk : Bytes) : Prop :=
  tget [] s.lcy.progKeys (leAt b 0 2) = pk ∧ pk ≠ [] ∧ (∀ a, approvalOf s (leAt b 0 2) (leAt b 2 1) = some a → a.version ≤ leAt b 4 4) ∧
  ((approvalOf s (leAt b 0 2) (leAt b 2 1)).isSome = true ∨ s.lcy.approvals.length < 1024)

/-- How many records an export delivers (R389). -/
abbrev exportCount (s : State) (body : Bytes) (limit : Nat) : Nat := min limit (min (leAt body 4 4) (s.aud.present - leAt body 0 4))

/-- The SEQs an export delivers (R388). -/
abbrev exportSeqs (s : State) (body : Bytes) (limit : Nat) : List Nat := (List.range (exportCount s body limit)).map fun i => leAt body 0 4 + i

/-- An export's manifest and records (R388). -/
def exportData (s : State) (body : Bytes) (limit : Nat) : Bytes :=
  let ns := exportSeqs s body limit
  exportManifest s (leAt body 0 4) ns.length (ns.filter fun n => crcBad (recAt s n)).length ++ joinBytes (ns.map (recAt s))

/-- The rejoin package for an offer, signed (R370). -/
def rejoinPackage (s : State) (p : Nat) (offer : Bytes) : Bytes :=
  let r := drawn s p 44
  let c := kemEncaps 3 (slice offer 0x40 1568) (r.take 32)
  let m := rejoinPack c.1 (rejoinKek c.2 (slice offer 0x20 32) (slice offer 0 16)) (r.drop 32) (decide (leAt offer 0x10 4 = 1)) s
  m ++ identSign m s

/-- The offer is the partner's, and its signature verifies (R370). -/
abbrev offerGood (s : State) (b : Bytes) : Prop :=
  s.par.bound = true ∧ slice b 0 16 = padTo 16 s.par.partnerId ∧
  slhVerify slh256s s.par.partnerPk (ascii "EHROS-REJOIN" ++ b.take 0x660) (slice b 0x660 29792) = true

/-- The approved commands of the manager: core, input and the command (R344-R353, R366-R375, R388-R390, R423). -/
def approvedCmd : Instr → Option (Nat × Bytes × MgmtCmd)
  | .officerEnrol p input 0 => some (p, input, officerEnrol)
  | .officerRevoke p input 0 => some (p, input, officerRevoke)
  | .rejoinSend p input 0 => some (p, input, rejoinSendCmd)
  | .lmkKemBegin p input vf 0 => some (p, input, cerBeginCmd 0x3101 false vf)
  | .lmkKemFinish p input num ct w k 0 => some (p, input, lmkKemFinish num ct w k)
  | .lmkCompBegin p input vf 0 => some (p, input, cerBeginCmd 0x3103 true vf)
  | .lmkCompFinish p input num k 0 => some (p, input, lmkCompFinish num k)
  | .lmkRetire p input vf 0 => some (p, input, lmkRetire vf)
  | .lmkUnbind p input vf 0 => some (p, input, lmkUnbindCmd vf)
  | .keyMarkSensitive p input vf block 0 => some (p, input, keyMarkSensitive vf block)
  | .keyPairGenerate p input vf alg usage mode expo kvn a b x 0 => some (p, input, keyPairGenerate vf alg usage mode expo kvn a b x)
  | .budgetRelease p input slots 0 => some (p, input, budgetRelease slots)
  | .tamperSetClass p input 0 => some (p, input, tamperSetClass)
  | .tamperEncBurn p input 0 => some (p, input, tamperEncBurn)
  | .progKeySet p input 0 => some (p, input, progKeySet)
  | .progApprove p input 0 => some (p, input, progApprove)
  | .progRevoke p input fn slot 0 => some (p, input, progRevoke fn slot)
  | .auditExport p input limit 0 => some (p, input, auditExport limit)
  | .auditClear p input 0 => some (p, input, auditClear)
  | .epochSet p input 0 => some (p, input, epochSet)
  | .pairBind p input 0 => some (p, input, pairBind)
  | .pairUnbind p input 0 => some (p, input, pairUnbind)
  | _ => none

/-- Every approval has the form that R351 step 2 asks for. -/
abbrev formsGood (c : MgmtCmd) (s : State) (d body : Bytes) (as : List Bytes) : Prop :=
  ∀ x ∈ List.zip (c.signers s body) as, apprForm s (cmdDigest d body) x.1 x.2 = true

/-- The custody approvals come from distinct officers (R351 step 3). -/
abbrev officersDistinct (c : MgmtCmd) (s : State) (body : Bytes) (as : List Bytes) : Prop :=
  allDistinct (((List.zip (c.signers s body) as).filter fun x => isCustody x.1).map fun x => apOfficer x.2) = true

/-- Slot `n` is LIVE and in time for a command accepted at tick `a` (R350, R351 steps 4 and 5). -/
abbrev slotLive (s : State) (n a : Nat) : Prop :=
  let x := s.lcy.chals.getD n Chal.empty
  x.state ≠ 0 ∧ x.state ≠ 2 ∧ x.tick ≤ a ∧ a ≤ x.tick + 300000000

/-- The command ended with a status before any of its work. -/
def turnedAway (s : State) (p st : Nat) (r : Res) : Prop :=
  ∃ t, r = .next t ∧ mgmtFails s p st s.lcy t ∧ t.aud = s.aud ∧ t.par = s.par

/-- Vector `v` of function `f` was raised: sent, or pending while it is masked (R58). -/
def fired (s t : State) (f v : Nat) : Prop :=
  ∀ e, (fnOf s f).msix[v]? = some e → (fnOf s f).rst = none → s.hif.linkUp = true → s.pwr.main = true →
    if e.mask then ∃ x, (fnOf t f).msix[v]? = some x ∧ x.pend = true else Out.msix f v e.addr e.data ∈ t.out

/-- A health report of a KIND was queued, where the queue has room (R422, R450). -/
def healthSent (s t : State) (kind : Nat) : Prop := s.i3c.queue.length < 16 → ∃ b ∈ t.i3c.queue, leAt b 4 1 = kind

/-- The source runs (R296). -/
abbrev srcRuns (s : State) (k : Nat) : Prop := k < 2 ∧ s.pwr.main = true ∧ (srcOf s k).st ≠ .off

/-- An event of source `k` was reported: its record, PF vector 9, a health report (R301, R302). -/
def srcReported (s t : State) (k test code : Nat) : Prop :=
  (logTakes s → recorded s t 0 0x0400 0 (leBytes 1 k ++ leBytes 1 test ++ leBytes 1 code)) ∧ fired s t 0 9 ∧ healthSent s t 10

/-- Selection moved to source `k` (R302). -/
def srcSelected (s t : State) (k : Nat) : Prop :=
  srcOf t k = { srcOf s k with st := .selected, raw := [] } ∧ t.ent.sel = k ∧ t.ent.switches = (s.ent.switches + 1) % 2 ^ 32

/-- The seeds and instances of the block are as before. -/
def seedsKept (s t : State) : Prop := t.ent.queue = s.ent.queue ∧ t.ent.drbgs = s.ent.drbgs ∧ t.ent.reqs = s.ent.reqs

/-- Source `k`, now `x` with its failure counted, failed test `test` (R301, R302). -/
def srcFailed (s t : State) (k test : Nat) (x : Source) : Prop :=
  seedsKept s t ∧ reportFrame { s with ent := t.ent } t ∧
  (x.st = .cooling ∨ x.st = .failed → srcOf t k = x ∧ srcOf t (1 - k) = srcOf s (1 - k) ∧ t = { s with ent := t.ent } ∧ t.ent.sel = s.ent.sel) ∧
  (x.st = .startup → srcOf t k = { x with attempts := x.attempts + 1, st := if x.attempts = 0 then .startup else .failed } ∧
    srcOf t (1 - k) = srcOf s (1 - k) ∧ srcReported s t k test (if x.attempts = 0 then 1 else 6)) ∧
  (x.st = .retest → srcOf t k = { x with st := .failed } ∧ srcOf t (1 - k) = srcOf s (1 - k) ∧ srcReported s t k 5 6) ∧
  (x.st = .warm ∨ x.st = .selected →
    srcOf t k = { x with st := .cooling, failAt := s.time.refCount, raw := [], held := [] } ∧ srcReported s t k test 4 ∧
    (x.st = .selected → (srcOf s (1 - k)).st = .warm → srcSelected s t (1 - k) ∧
      (logTakesTwo s → recorded s t 1 0x0400 0 (leBytes 1 (1 - k) ++ leBytes 1 6 ++ leBytes 1 3))) ∧
    ((x.st = .selected → (srcOf s (1 - k)).st ≠ .warm) → srcOf t (1 - k) = srcOf s (1 - k) ∧ t.ent.sel = s.ent.sel ∧
      t.ent.switches = s.ent.switches))

/-- Only source `k` of the block may differ. -/
def srcOnly (s t : State) (k : Nat) : Prop :=
  t = { s with ent := t.ent } ∧ srcOf t (1 - k) = srcOf s (1 - k) ∧ seedsKept s t ∧ t.ent.sel = s.ent.sel ∧ t.ent.switches = s.ent.switches

/-- The window's raw bytes join those of the source, and whole seeds are cut off; with the seed queue full two are held at most, and what is
beyond them is discarded (R295, R298). -/
def srcFed (s : State) (k : Nat) (w : Bytes) : Source :=
  let x := srcOf s k
  let c := cutSeeds (seedRaw k) 64 (x.raw ++ w)
  let full := 32 ≤ s.ent.queue.length
  let n := if full then 2 - (s.ent.srcA.held.length + s.ent.srcB.held.length) else c.1.length
  { x with raw := if n < c.1.length ∨ (n = 0 ∧ full) then [] else c.2, held := x.held ++ c.1.take n }

/-- The responses of an alarm of monitor `m` under an index, in its class (R328-R334). -/
def alarmResponse (s t : State) (m index cls value : Nat) : Prop :=
  (monAt t m).count = min 0xFFFF ((monAt s m).count + 1) ∧ t.kst = s.kst ∧ t.slm = s.slm ∧ t.cpu = s.cpu ∧ t.lanes = s.lanes ∧
  (cls = 0 → fired s t 0 13 ∧ (s.aud.buf.length < 60 → t.tmp.lock = s.tmp.lock ∧ t.tmp.erased = s.tmp.erased ∧ t.lcy = s.lcy)) ∧
  (1 ≤ cls → t.tmp.lock = true ∧ t.tmp.cause = (if s.tmp.cause = 0x3E then index else s.tmp.cause) ∧
    t.tmp.lockSeq = (if s.tmp.lock then s.tmp.lockSeq else (s.tmp.lockSeq + 1) % 65536) ∧
    t.tmp.lockOrder = (s.tmp.lockOrder || (!s.tmp.lock && s.pwr.main)) ∧ t.lcy.intGrant = none ∧ t.lcy.scanGrant = none) ∧
  (cls = 1 → t.tmp.erased = s.tmp.erased ∧ t.tmp.eraseOrder = s.tmp.eraseOrder ∧ t.lcy.keepHalf = s.lcy.keepHalf) ∧
  (2 ≤ cls → t.tmp.erased = true ∧ t.tmp.applied = 2 ∧ t.tmp.eraseOrder = (s.tmp.eraseOrder || s.pwr.main) ∧ t.lcy.keepHalf = zeroBytes 32 ∧
    t.lcy.staged = none) ∧
  (logTakes s → s.lcy.intGrant = none → s.lcy.scanGrant = none →
    recorded s t 0 (0x0100 + index) 0 (tamperBody index (detCode (monAt t m).det1) (detCode (monAt t m).det2) cls t.tmp.applied value t))

/-- The alarm of monitor `m` has re-armed: ten safe samples in a row, or 1 ms safe (R323). -/
def rearmed (s : State) (m : Nat) (sampled : Bool) : Prop :=
  if sampled then 10 ≤ (monAt s m).alarm.safeRun
  else ∃ k, (monAt s m).alarm.safeSince = some k ∧ k + tmpMs s ≤ tmpClock s

/-- Monitor `m` took its detector states (R318-R323). -/
def detected (s t : State) (m : Nat) (d1 d2 : Det) (value : Nat) (sampled : Bool) : Prop :=
  let x := monAt s m
  let y := monAt t m
  let fires := (d1 = .alarm ∨ d2 = .alarm) ∧ (x.alarm.fired = true → rearmed s m sampled)
  y.det1 = d1 ∧ y.det2 = d2 ∧ y.cls = x.cls ∧ y.alarm.safeRun = (if d1 = .safe ∧ d2 = .safe then x.alarm.safeRun + 1 else 0) ∧
  (y.alarm.fired = true ↔ fires ∨ (x.alarm.fired = true ∧ ¬ rearmed s m sampled)) ∧
  y.disRun = (if (d1 = .alarm ∧ d2 = .safe) ∨ (d1 = .safe ∧ d2 = .alarm) then x.disRun + 1 else 0) ∧ (∀ n, n ≠ m → monAt t n = monAt s n) ∧
  (fires → alarmResponse s t m m x.cls value) ∧
  (¬ fires → y.count = x.count ∧ t = { s with tmp := { s.tmp with mons := t.tmp.mons, lfsr := t.tmp.lfsr } })

/-- The unlock record passes R339 and R340. -/
abbrev unlockGood (s : State) (r : Bytes) : Prop :=
  s.tmp.alarmed = false ∧ s.pwr.mode = .locked ∧ (∀ m ∈ s.tmp.mons, monLive m = false ∧ m.dis = false) ∧
  (leAt r 0 2 = 1 ∧ slice r 0x28 8 = zeroBytes 8 ∧ slice r 8 32 = padTo 32 s.tmp.challenge) ∧ leAt r 2 2 = s.tmp.lockSeq ∧ leAt r 4 4 = 59712 ∧
  apprCheck s (shake256 32 (slice r 0 0x28)) [.custody none, .custody none] (apprList r 0x30 2) (unlockChal s) = 0

/-- The unlock ended with a RESULT and changed nothing else but the channel that read the record, and its counts (R273, R340, R488). -/
def unlockEnds (s : State) (r : Nat) (t : State) : Prop :=
  t = { s with
    tmp := { s.tmp with
      result := r
      busy := false
      alarmed := false }
    mov := { s.mov with chans := t.mov.chans }
    cnt := t.cnt
    hif := { s.hif with fns := t.hif.fns }
    out := t.out } ∧ ∀ g, fnOf t g = { fnOf s g with msix := (fnOf t g).msix }

/-- A write of a register of the tamper block by the PF: only that block, and the low word held, may differ (R503). -/
def tmpWrote (s t : State) : Prop := t = { s with tmp := t.tmp, hif := { s.hif with fns := t.hif.fns } } ∧ pfWrote s t

/-- States in which a descriptor has no operation running (R24). -/
abbrev tokenAtRest (st : TokState) : Prop := st = .liftNb ∨ st = .ready ∨ st = .urgent ∨ st = .parked ∨ st = .liftWait

/-- The ten requests with the record each answers (R356, R364, R365, R369, R371, R483). -/
def requestOf (i : List Byte → Bool → Instr) (k : ReqKind) : Prop :=
  (i = .provision ∧ k = provision) ∨ (i = .deploy ∧ k = deploy) ∨ (i = .lifecycleReturn ∧ k = return_) ∨ (i = .redeploy ∧ k = redeploy) ∨
  (i = .retire ∧ k = retire) ∨ (i = .debugOpen ∧ k = debugOpen) ∨ (i = .debugClose ∧ k = debugClose) ∨ (i = .rejoinBegin ∧ k = rejoinBegin) ∨
  (i = .rejoinFinish ∧ k = rejoinFinish) ∨ (i = .inject ∧ k = inject)

/-- GO is taken: the registers answer, no HOLD, and the header of the record may be read (R357, R358). -/
abbrev goTaken (s : State) : Prop :=
  (s.pwr.main = true ∧ s.hif.linkUp = true ∧ s.pwr.mode ≠ .guard) ∧ s.lcy.holdEnd = none ∧ s.dbg.inj = none ∧
  hostRefusal s (hifMaster 0 0) 0 s.lcy.reqPtr 8 false = none

/-- A record of the OP `op`, all of it, that may be read. -/
abbrev reqRead (s : State) (op : Nat) (b : Bytes) : Prop :=
  goTaken s ∧ 8 ≤ b.length ∧ leAt b 0 2 = op ∧ (leAt b 4 4 ≤ 65536 → leAt b 4 4 % 8 = 0 →
    b.length = lreqLen b ∧ hostRefusal s (hifMaster 0 0) 0 (s.lcy.reqPtr + 8) (lreqLen b - 8) false = none)

/-- The record passes the checks of R358: BODY_LEN, CHAL and COUNT, the request's own form and token, the approvals. -/
abbrev reqPasses (s : State) (k : ReqKind) (b : Bytes) : Prop :=
  let q := reqOf b
  (k.state s q = 0 ∧ latchCount s = 0 ∧ k.room s = true) ∧ (leAt b 4 4 ≤ 65536 ∧ leAt b 4 4 % 8 = 0) ∧
  ((q.count = 0 → q.chal = 0 ∨ k.chalOwn s = true) ∧ q.count ≤ (k.signers s q).length ∧ k.form s q = true) ∧ k.token s q = 0 ∧
  reqCheck (k.table q s) q (k.signers s q) = 0

/-- The request ended with a RESULT, and a wrong token with a HOLD; nothing else changed but the channel that read the record, its counts, and
the low word that the PF held (R273, R358, R488). -/
def reqEnds (s : State) (r : Nat) (t : State) : Prop :=
  t = { s with
    lcy := { s.lcy with
      reqResult := r
      holdEnd := if r = 4 then some (tick s + 1000000) else none }
    hif := { s.hif with fns := t.hif.fns }
    mov := { s.mov with chans := t.mov.chans }
    cnt := t.cnt
    out := t.out } ∧ ∀ g, fnOf t g = { fnOf s g with msix := (fnOf t g).msix, heldWr := if g = 0 then none else (fnOf s g).heldWr }

/-- A transition by OP with a token index is done: its record, the state, the roots, RESULT, the LIFECYCLE record (R356, R360, R361). -/
def transited (s : State) (b : Bytes) (op index : Nat) (dst : Lcs) (t : State) : Prop :=
  let k := recsUsed s.lcy.recs
  t.lcy.reqResult = 0 ∧ t.lcy.state = dst ∧ t.lcy.chals = (slotUsed s (reqOf b).apprs).chals ∧ t.lcy.intGrant = none ∧ t.lcy.scanGrant = none ∧
  t.lcy.recs = s.lcy.recs.set k ⟨0x5A * 2 ^ 24 + index * 2 ^ 16 + (255 - op % 256) * 2 ^ 8 + op % 256,
    0xA55A * 2 ^ 16 + (255 - lcsCode dst) * 2 ^ 8 + lcsCode dst, 0x69966996⟩ ∧
  (dst = .deployed → t.kst = { s.kst with vaultKey := rootVaultKey t }) ∧ (dst ≠ .deployed → t.kst = s.kst) ∧ t.pwr = s.pwr ∧
  (logTakes s → s.lcy.intGrant = none → s.lcy.scanGrant = none →
    recorded s t 0 0x0302 0 (leBytes 2 op ++ leBytes 1 (lcsCode s.lcy.state) ++ leBytes 1 (lcsCode dst) ++ leBytes 1 k))

/-- The RESULT of a request is 0, its slot is used, and no key or power state changed. -/
def requestDone (s : State) (b : Bytes) (t : State) : Prop :=
  t.lcy.reqResult = 0 ∧ t.lcy.chals = (slotUsed s (reqOf b).apprs).chals ∧ t.kst = s.kst ∧ t.pwr = s.pwr

/-- What instance 0 gives in one request (R307, R308). -/
def drawnZero (s : State) (n : Nat) : Bytes := (drbgGenerate ⟨(drbgOf s 0).key, (drbgOf s 0).v⟩ n []).1

/-- A rejoin ends: pair and package are gone, ERASED is clear, the vault key follows a new KEEP_HALF, RECOVERY is left (R371, R465). -/
def rejoined (s : State) (b : Bytes) (t : State) : Prop :=
  t.lcy.reqResult = 0 ∧ t.lcy.chals = (slotUsed s (reqOf b).apprs).chals ∧ t.lcy.rejoin = none ∧ t.lcy.package = none ∧ t.lcy.ledgerLost = false ∧
  t.lcy.keepHalf = drawnZero s 32 ∧ t.kst.vaultKey = rootVaultKey t ∧ t.pwr.keepBad = false ∧ t.tmp.erased = false ∧ t.tmp.lock = s.tmp.lock ∧
  t.pwr.mode = (if s.tmp.lock then .locked else if t.par.bound then .standby else .active)

/-! ### Meters and receipts -/

/-- The meter of function `f` for class `k` (R392). -/
def meterOf (s : State) (f k : Nat) : Nat := tget 0 s.mtr.total (16 * f + k)

/-- Only the meters may differ, and the low word that the PF held (R503). -/
def mtrWrote (s t : State) : Prop := t = { s with mtr := t.mtr, hif := { s.hif with fns := t.hif.fns } } ∧ pfWrote s t

/-- The receipt of function `f` for an edge that ends minute `last`, as it waits for its signature (R395, R396). -/
def receiptBuilt (s t : State) (f last : Nat) : Prop :=
  ∃ b, (⟨f, b, none, none⟩ : Rcpt) ∈ t.mtr.waiting ∧ b.length = 344 ∧ leAt b 0 4 = 0x54504352 ∧ leAt b 4 2 = 1 ∧ leAt b 6 2 = f % 65536 ∧
    leAt b 8 8 = ((rcptOf s f).seq + 1) % 2 ^ 64 ∧
    leAt b 16 8 = (if (rcptOf s f).seq ≠ 0 then min ((rcptOf s f).minute + 1) last else (rcptOf s f).since.getD last) % 2 ^ 64 ∧
    leAt b 24 8 = last % 2 ^ 64 ∧ slice b 32 16 = padTo 16 s.lcy.ident ∧
    leAt b 48 4 = (if s.mtr.restarted ∧ (rcptOf s f).seq = 0 then setBit (rcptOf s f).flags 3 true else (rcptOf s f).flags) % 2 ^ 32 ∧ slice b 56 32 = padTo 32 (rcptOf s f).digest ∧
    ∀ k, k < 16 → leAt b (88 + 8 * k) 8 = (meterOf s f k + 2 ^ 64 - (rcptOf s f).totals.getD k 0) % 2 ^ 64 ∧
      leAt b (216 + 8 * k) 8 = meterOf s f k % 2 ^ 64

/-! ### The fabric -/

/-- What `t` sent after `s`, and that `o` is in it. -/
def sentNow (s t : State) (o : Out) : Prop := ∃ l, t.out = s.out ++ l ∧ o ∈ l

/-- The device has its eight ports, each with four virtual channels (R399, R405). -/
abbrev portsWhole (s : State) : Prop := s.phl.ports.length = 8 ∧ ∀ x ∈ s.phl.ports, x.cred.length = 4

/-- Wire bytes `b` of the frame `h` arrive on port `p`: UP, a good CRC, next in link sequence, and no injection waits (R401). -/
abbrev frameNext (s : State) (p : Nat) (b h : Bytes) : Prop :=
  portsWhole s ∧ fabOn s = true ∧ portUp s p = true ∧ s.dbg.inj = none ∧ unwire b = some h ∧ fLseq h = ((portOf s p).rxSeq + 1) % 2 ^ 32

/-- And the frame is well formed, its SRC not this device's address (R403, R410). -/
abbrev frameGood (s : State) (p : Nat) (b h : Bytes) : Prop :=
  frameNext s p b h ∧ fBad h = false ∧ h.length = 32 + fLen h ∧ 
  (fSrcValid h = true → s.phl.valid = true → fSrc h = s.phl.addr → 4 ≤ fType h ∧ fType h ≤ 7)

/-- Port `p` after frame `h` was accepted and its buffer units freed: both counts of the receiver view move, OCC does not (R401, R407). -/
def portTook (x : Port) (now : Nat) (h : Bytes) : Port :=
  { x with
    rxSeq := fLseq h, heard := now, silent := false,
    cred := x.cred.modify (fVc h) fun c => { c with
      rx := (c.rx + fCredits (min 256 (fLen h))) % 2 ^ 32, ret := (c.ret + fCredits (min 256 (fLen h))) % 2 ^ 32 } }

/-- Frame `h` was taken off the link on port `p` and acknowledged, and its credits returned; no other port changed (R401, R407). -/
def frameTaken (s t : State) (p : Nat) (h : Bytes) : Prop :=
  portOf t p = portTook (portOf s p) s.time.refCount h ∧ (∀ q, q ≠ p → portOf t q = portOf s q) ∧ sentNow s t (.port p (ctlBlock 1 0 (fLseq h))) ∧
  sentNow s t (.port p (ctlBlock 3 (fVc h) (credOf t p (fVc h)).ret))

/-- Only the fabric, event counters, pending vectors and what is sent out may differ. -/
def phlFrame (s t : State) : Prop :=
  t = { s with phl := t.phl, cnt := t.cnt, hif := { s.hif with fns := t.hif.fns }, out := t.out } ∧
  ∀ g, fnOf t g = { fnOf s g with msix := (fnOf t g).msix }

/-- Of the fabric block only the ports may differ. -/
def portsOnly (s t : State) : Prop := t.phl = { s.phl with ports := t.phl.ports } ∧ phlFrame s t

/-- A write of a fabric register by the PF: only the fabric, what the address change sends, and the low word held may differ (R503). -/
def phlWrote (s t : State) : Prop :=
  t = { s with phl := t.phl, mov := { s.mov with chans := t.mov.chans }, cnt := t.cnt, hif := { s.hif with fns := t.hif.fns }, out := t.out } ∧
  ∀ g, fnOf t g = { fnOf s g with msix := (fnOf t g).msix, heldWr := (fnOf t g).heldWr }

/-- A fabric event of this kind, port, VC and address was queued with the present time, or counted as lost, and PF vector 8 fired (R418). -/
def eventQueued (s t : State) (kind port vc addr : Nat) : Prop :=
  fired s t 0 8 ∧
  (if s.phl.evts.length < 64 then
    t.phl.evtLost = s.phl.evtLost ∧ ∃ e, t.phl.evts = s.phl.evts ++ [e] ∧ e.length = 16 ∧ leAt e 0 1 = kind ∧ leAt e 1 1 = port ∧ leAt e 2 1 = vc ∧
      leAt e 4 2 = addr ∧ leAt e 8 8 = timeField s % 2 ^ 64
   else t.phl.evts = s.phl.evts ∧ t.phl.evtLost = min 0xFFFFFFFF (s.phl.evtLost + 1))

/-- The commands that take a routed frame of a TYPE and hand one for this device to the management receive queue. -/
def routedRows (i : Nat → List Byte → Instr) (type : Nat) : Prop := (i = .dataFrame ∧ type = 1) ∨ (i = .probeReply ∧ type = 3)

/-- The commands that take any frame with their TYPE, whatever it holds. -/
def frameRows (i : Nat → List Byte → Instr) : Prop :=
  i = .dataFrame ∨ i = .probeReply ∨ i = .auditFrame ∨ i = .syncReq ∨ i = .syncRsp ∨ i = .neighbor

/-- Port `q` is UP, nothing waits on it or for its acknowledgement, and it holds credit for the largest frame on VC `v` (R401, R406). -/
abbrev portReady (s : State) (q v : Nat) : Prop :=
  portUp s q = true ∧ (portOf s q).queue = [] ∧ (portOf s q).replay = [] ∧ 9 ≤ (credOf s q v).held

/-- The source route of `h` with this device's ingress port written into it (R411). -/
def hopsBack (h : Bytes) (p : Nat) : List Nat := (rtEntries (fRoute h)).set (rtPtr (fRoute h) - 1) p

/-- A probe `h` that ends at this device (R411, R412). -/
abbrev probeHere (h : Bytes) : Prop :=
  fType h = 2 ∧ fSrcrt h = true ∧ 1 ≤ rtNh (fRoute h) ∧ rtNh (fRoute h) ≤ 16 ∧ rtPtr (fRoute h) = rtNh (fRoute h)

/-- The PROBE_REPLY to `h`: out of the ingress port, along the request's path reversed, with its OP and TAG, a STATUS and a result (R411, R412). -/
def replyTo (s : State) (p : Nat) (valid : Bool) (addr : Nat) (h : Bytes) (status : Nat) (result : Bytes) : Bytes :=
  frame 3 3 true valid 0 addr 0 s.phl.e2e (rtMake (rtNh (fRoute h)) 1 (hopsBack h p).reverse)
    (slice h 32 1 ++ leBytes 1 status ++ zeroBytes 6 ++ slice h 40 8 ++ result)

/-- The probe was answered; `valid` and `addr` are the address the reply names. -/
def probeAnswered (s t : State) (p : Nat) (valid : Bool) (addr : Nat) (h : Bytes) (status : Nat) (result : Bytes) : Prop :=
  (∃ q, sentNow s t (.port p (wire (replyTo s p valid addr h status result) q))) ∧ t.phl.e2e = (s.phl.e2e + 1) % 65536 ∧
  (portOf t p).rxSeq = fLseq h ∧ phlFrame s t

/-- And nothing but that: address and routes are as before. -/
def probeOnly (s t : State) (p : Nat) (h : Bytes) (status : Nat) (result : Bytes) : Prop :=
  probeAnswered s t p s.phl.valid s.phl.addr h status result ∧ (∀ q, q ≠ p → portOf t q = portOf s q) ∧
  t.phl = { s.phl with ports := t.phl.ports, e2e := t.phl.e2e }

/-- A probe of OP `op` for this device arrives on a port whose reply can leave at once. -/
abbrev probeArrives (s : State) (p op : Nat) (b h : Bytes) : Prop :=
  frameGood s p b h ∧ portReady s p 3 ∧ 16 ≤ (credOf s p 3).held ∧ probeHere h ∧ 16 ≤ fLen h ∧ leAt h 32 1 = op

/-- The configuration probes with their OPs: what CFG_LOCK bars to all but the fabric manager's address (R413). -/
def lockedProbes (i : Nat → List Byte → Instr) (op : Nat) : Prop :=
  (i = .assign ∧ op = 2) ∨ (i = .probeRelease ∧ op = 3) ∨ (i = .routeWrite ∧ op = 4)

/-- A configuration probe may act: no lock, or the lock holder's address (R413). -/
abbrev probeFree (s : State) (h : Bytes) : Prop := s.phl.cfgLock = true → fSrcValid h = true ∧ fSrc h = s.phl.fmAddr

/-- An 8-byte control block of this kind, VC and count with its CRC-16 on a port that is UP (R402; layout: log entry 24, the model's own). -/
abbrev blockArrives (s : State) (p kind vc n : Nat) (b : Bytes) : Prop :=
  portsWhole s ∧ fabOn s = true ∧ portUp s p = true ∧ b.length = 8 ∧ leAt b 0 1 = kind ∧ leAt b 1 1 = vc ∧ leAt b 2 2 = n ∧
  leAt b 6 2 = (crc16ccitt (b.take 6)).toNat

/-- Number `a` is `b` or before it in the 32-bit link sequence (R401). -/
abbrev seqUpTo (a b : Nat) : Prop := (b + 2 ^ 32 - a) % 2 ^ 32 < 2 ^ 31

/-- Port `p` left UP for state `st`: DOWN is queued, its frames wait no more, what it sent stays for replay, and channels that hold its credit know
(R281, R402, R415, R418). -/
def portLeft (s t : State) (p : Nat) (st : PortSt) : Prop :=
  (portOf t p).st = st ∧ (portOf t p).left = some s.time.refCount ∧ (portOf t p).queue = [] ∧ (portOf t p).replay = (portOf s p).replay ∧
  eventQueued s t 2 p 0xFF 0xFFFF ∧ (∀ n, chan t n = if (chan s n).cred = some p then { chan s n with linkDown := true } else chan s n) ∧
  ((portOf s p).queue = [] → phlWrote s t ∧ ∀ q, q ≠ p → portOf t q = portOf s q)

/-- NEIGHBOR went out of port `p` with this address (R417). -/
def neighborSent (s t : State) (p : Nat) (valid : Bool) (addr : Nat) : Prop :=
  ∃ b q, sentNow s t (.port p (wire b q)) ∧ fType b = 7 ∧ fVc b = 3 ∧ fLen b = 20 ∧ slice b 32 16 = padTo 16 s.lcy.ident ∧ leAt b 48 2 = addr % 65536 ∧
    leAt b 50 1 = b2n valid

/-- The views of VC `v` as a link comes UP with `occ` units of the neighbour's buffer occupied (R408). -/
def credFresh (v occ : Nat) (c : Cred) : Cred :=
  { c with
    held := credTotal v - min (credTotal v) occ, rsv := 0, sent := min (credTotal v) occ, back := 0, rx := c.occ, ret := 0 }

/-- Port `p` came UP: the last number it accepted and its free units advertised, UP queued, both views as R408 says but for the NEIGHBOR that left, which uses two credits of VC 3; frames that the neighbour
has not accepted sent again (R402, R408, R417). -/
def portCame (s t : State) (p : Nat) (occ : List Nat) : Prop :=
  (∃ a, sentNow s t (.linkUp p a ((List.range 4).map fun v => credTotal v - (credOf s p v).occ)) ∧
    ((portOf s p).st = .retrain → a = (portOf s p).rxSeq) ∧ ((portOf s p).st = .training → a = 0)) ∧
  (portOf t p).st = .up ∧ (portOf t p).left = none ∧ (portOf t p).tries = 0 ∧ (portOf t p).heard = s.time.refCount ∧
  (s.phl.evts.length < 63 → ∃ e ∈ t.phl.evts, leAt e 0 1 = 4 ∧ leAt e 1 1 = p) ∧ fired s t 0 8 ∧
  ((portOf s p).replay = [] → (portOf s p).queue = [] → occ.getD 3 0 ≤ 126 → neighborSent s t p s.phl.valid s.phl.addr ∧
    (∀ v, v < 3 → credOf t p v = credFresh v (occ.getD v 0) (credOf s p v)) ∧
    (let c := credFresh 3 (occ.getD 3 0) (credOf s p 3)
     credOf t p 3 = { c with held := c.held - 2, sent := c.sent + 2 }) ∧
    ∀ v, v < 4 → (credOf t p v).held + (credOf t p v).rsv + ((credOf t p v).sent - (credOf t p v).back) = credTotal v)

/-- The commands of control blocks (R402). -/
def linkBlocks (i : Nat → List Byte → Instr) : Prop := i = .linkAck ∨ i = .linkNak ∨ i = .linkCredit ∨ i = .linkIdle

/-- Only port `p` may differ. -/
def portsHeard (s t : State) (p : Nat) : Prop := t = { s with phl := { s.phl with ports := t.phl.ports } } ∧ ∀ q, q ≠ p → portOf t q = portOf s q

/-! ### The management target -/

/-- An MCTP control message of this instance, command and completion code was queued, or counted where the queue is full; the bus owner is told
while in-band interrupts are enabled (R422). -/
def mctpAnswered (s t : State) (inst cmd code : Nat) (d : Bytes) : Prop :=
  t = { s with i3c := t.i3c, out := t.out } ∧ t.i3c.da = s.i3c.da ∧ t.i3c.ibi = s.i3c.ibi ∧ t.i3c.mwl = s.i3c.mwl ∧ t.i3c.mrl = s.i3c.mrl ∧
  (s.i3c.queue.length < 16 → t.i3c.queue = s.i3c.queue ++ [[0x00] ++ leBytes 1 (inst % 32) ++ leBytes 1 cmd ++ leBytes 1 code ++ d] ∧
    t.i3c.dropped = s.i3c.dropped ∧ t.out = s.out ++ if s.i3c.ibi then [.ibi 0xAE] else []) ∧
  (16 ≤ s.i3c.queue.length → t.i3c.queue = s.i3c.queue ∧ t.i3c.dropped = min 0xFF (s.i3c.dropped + 1) ∧ t.out = s.out)

/-! ### Pairs -/

/-- Only the pair block, the fabric, event counters, pending vectors and what is sent out may differ: what sending a message can do. -/
def pairFrame (s t : State) : Prop :=
  t = { s with par := t.par, phl := t.phl, cnt := t.cnt, hif := { s.hif with fns := t.hif.fns }, out := t.out } ∧
  ∀ g, fnOf t g = { fnOf s g with msix := (fnOf t g).msix }

/-- A message of this KIND, LATCH, LREQ and number went out on the LVDS path, and on the fabric path where the route to the partner can take
it now (R428, R429). -/
def knockSent (s t : State) (kind l lreq seq : Nat) : Prop :=
  ∃ m, sentNow s t (.knock m) ∧ m.length = 66 ∧ leAt m 0 1 = kind ∧ leAt m 5 1 = l ∧ leAt m 8 4 = seq ∧ leAt m 12 4 = tick s % 2 ^ 32 ∧
    leAt m 16 4 = lreq % 2 ^ 32 ∧ leAt m 64 2 = (crc16ccitt (m.take 64)).toNat ∧ (s.par.key = none → slice m 48 16 = zeroBytes 16) ∧
    ∀ q, s.phl.valid = true → routePort s s.par.addr = some q → portReady s q 3 → ∃ x n, sentNow s t (.port q (wire x n)) ∧ fType x = 8 ∧
      fVc x = 3 ∧ fLen x = 64 ∧ fDst x = s.par.addr % 4096 ∧ slice x 32 48 = m.take 48

/-- The commands that take a message, with its KIND (R429). -/
def knockRows (i : Nat → Nat → List Byte → Instr) (kind : Nat) : Prop :=
  (i = .knock ∧ kind = 1) ∨ (i = .renew ∧ kind = 2) ∨ (i = .grant ∧ kind = 3) ∨ (i = .knockRelease ∧ kind = 4) ∨ (i = .taken ∧ kind = 5)

/-- A message of body `b` and tag `tag` comes whole to this device on path `k`: 66 bytes with their CRC-16 on the LVDS path, or a KNOCK frame of
64 bytes on a fabric port (R428, R430). -/
def knockComes (s : State) (k p : Nat) (data b tag : Bytes) : Prop :=
  s.par.bound = true ∧ s.pwr.main = true ∧ s.dbg.inj = none ∧
  ((k = 0 ∧ data.length = 66 ∧ leAt data 64 2 = (crc16ccitt (data.take 64)).toNat ∧ b = data.take 48 ∧ tag = slice data 48 16) ∨
   (k = 1 ∧ ∃ h, frameGood s p data h ∧ fType h = 8 ∧ fSrcrt h = false ∧ s.phl.valid = true ∧ fDst h = s.phl.addr ∧ fLen h = 64 ∧
     b = slice h 32 48 ∧ tag = slice h 80 16))

/-- The message is valid: reserved fields 0, its number above the last one of its kind on the path, and its tag: the GMAC under the pair key when
KEYED, else zero (R429, R430; direction bit, and the numbers of messages without a key: log entry 25). -/
def knockPasses (s : State) (k : Nat) (b tag : Bytes) : Prop :=
  leAt b 2 2 < 1024 ∧ leAt b 6 2 = 0 ∧ leAt b 20 4 = 0 ∧ leAt b 40 8 = 0 ∧
  ((leAt b 2 2).testBit 0 = false → (pathOf s k).openSeq < leAt b 8 4 ∧ tag = zeroBytes 16) ∧
  ((leAt b 2 2).testBit 0 = true → (pathOf s k).lastSeq < leAt b 8 4 ∧ ∃ key, s.par.key = some key ∧
    tag = gcmEnc key (beBytes 12 (k * 2 ^ 95 + dirBit s false * 2 ^ 94 + s.par.keyGen % 2 ^ 32 * 2 ^ 32 + leAt b 8 4)) b [])

/-- What every valid message does: path health, presence, and on the LVDS path the tick offset (R430, R432). -/
def knockHeard (s t : State) (k : Nat) (b : Bytes) : Prop :=
  (pathOf t k).lastSeq = (if (leAt b 2 2).testBit 0 then leAt b 8 4 else (pathOf s k).lastSeq) ∧
  (pathOf t k).openSeq = (if (leAt b 2 2).testBit 0 then (pathOf s k).openSeq else leAt b 8 4) ∧ t.par.pOpen = (!(leAt b 2 2).testBit 0) ∧
  (pathOf t k).lastAt = s.time.refCount ∧ (pathOf t k).ok = true ∧ (pathOf t k).invalid = (pathOf s k).invalid ∧
  (pathOf t (1 - k)).lastSeq = (pathOf s (1 - k)).lastSeq ∧ (pathOf t (1 - k)).ok = (pathOf s (1 - k)).ok ∧
  t.par.lastAny = some s.time.refCount ∧ t.par.unitFault = false ∧
  (k = 0 → (∃ d : Int, -(2 ^ 31) ≤ d ∧ d < 2 ^ 31 ∧ (d - ((tick s : Int) - leAt b 12 4)) % 2 ^ 32 = 0 ∧ t.par.offsets = (d :: s.par.offsets).take 16) ∧
    t.par.tickOffset ∈ t.par.offsets ∧ ∀ o ∈ t.par.offsets, t.par.tickOffset ≤ o) ∧
  (k = 1 → t.par.offsets = s.par.offsets ∧ t.par.tickOffset = s.par.tickOffset)

/-- Nothing of a keyed message but its view of the sender has an effect: the home is decided, its MACK is old, no mirror fault, and a latch held
here is neither the partner's too nor without a current partner. -/
abbrev knockCalm (s : State) (b : Bytes) : Prop :=
  (leAt b 2 2).testBit 0 = true ∧ s.par.homeChecked = true ∧ leAt b 24 8 ≤ s.par.acked ∧ s.par.mfault = false ∧
  ∀ l, l < 2 → (latch s l).holder = true → (latch s l).pCur = true ∧ (leAt b 2 2).testBit (1 + l) = false

/-- The view of the lease after a message that marks this device current (R433, R434). -/
def viewAfter (s : State) (b : Bytes) (l : Nat) : Nat :=
  if (leAt b 2 2).testBit (3 + l) = true ∧ (latch s l).holder = false ∧ (latch s l).selfCur = false then
    max (latch s l).view (s.time.refCount + 25000) else (latch s l).view

/-- What a keyed message says of its sender (R424, R426, R429, R434, R437, R442, R447). -/
def knockTold (s t : State) (b : Bytes) : Prop :=
  t.par.pElig = (leAt b 2 2).testBit 5 ∧ t.par.pLogFull = (leAt b 2 2).testBit 6 ∧ t.par.pMode = leAt b 1 1 ∧ t.par.pMfmt = leAt b 4 1 ∧
  t.par.pHome = leAt b 2 2 / 512 % 2 ∧ t.par.pConfirm = leAt b 32 8 ∧
  t.par.meters = s.par.meters.filter (fun m => decide (leAt b 32 8 < m.mseq) || m.asked)

/-- A switch-over of latch `l` was counted: by its load's VFs and by the PF, those that are created (R37). -/
def switchSaw (s t : State) (l : Nat) : Prop :=
  ∀ g, fnOf t g = { fnOf s g with
    msix := (fnOf t g).msix
    switchCount := if (g = 0 ∨ inLoad s l g = true) ∧ (fnOf s g).created = true then ((fnOf s g).switchCount + 1) % 65536 else (fnOf s g).switchCount }

/-- HELD is clear, and the service word shows the mode and the latches, with vector 5 where that changes it, unless a take is under way (R36, R37,
R446). -/
def svcFreed (s t : State) : Prop :=
  t.hif.svcHeld = false ∧ (s.par.l0.take = .none → s.par.l1.take = .none → t.hif.svcMode = s.pwr.mode ∧ t.hif.svcLatches = latchCount s ∧
    (s.hif.svcMode ≠ s.pwr.mode ∨ s.hif.svcLatches ≠ latchCount s → fired s t 0 5))

/-- A new pair transport key stands, of this generation: SEQ starts again under it (R427, R429; log entry 25). -/
def pairKeyed (p : Par) (k : Bytes) (g : Nat) : Par :=
  { p with
    key := some k, keyPrev := p.key, keyGen := g, keyUses := 0, kemDk := none, homeChecked := false, seq := 1, pOpen := false
    lvds := { p.lvds with lastSeq := 0 }, fab := { p.fab with lastSeq := 0 } }

/-- These bytes were sent to the partner in DATA frames of the management channel, where its route's port can take one now: 256 bytes in each (R403,
R427). -/
def dataSent (s t : State) (m : Bytes) : Prop :=
  ∀ q, s.phl.valid = true → routePort s s.par.addr = some q → portReady s q 3 → ∃ x n, sentNow s t (.port q (wire x n)) ∧ fType x = 1 ∧
    fVc x = 3 ∧ fDst x = s.par.addr % 4096 ∧ fPayload x = m.take 256

/-- The marks of a latch that a keyed message sets. -/
def latchTold (s t : State) (b : Bytes) (l : Nat) : Prop :=
  (latch t l).pHold = (leAt b 2 2).testBit (1 + l) ∧ (latch t l).selfCur = ((leAt b 2 2).testBit (3 + l) && !(latch s l).holder)

/-- Only what marks and views say of latch `l` may differ. -/
def latchKept (s t : State) (l : Nat) : Prop :=
  latch t l = { latch s l with
    pHold := (latch t l).pHold, selfCur := (latch t l).selfCur, view := (latch t l).view, echoed := (latch t l).echoed }

/-- A health report of a KIND was queued, where the queue has room for it and `n` more (R422, R450). -/
def healthWithin (s t : State) (kind n : Nat) : Prop := s.i3c.queue.length + n < 16 → ∃ b ∈ t.i3c.queue, leAt b 4 1 = kind

/-- The METER records that a take of latch `l` lists: those the partner has not confirmed (R443 step 3). -/
abbrev listed (s : State) (l : Nat) (m : MetRec) : Prop := m ∈ s.par.meters ∧ m.load = l ∧ s.par.pConfirm < m.mseq

/-- The journal entries that a take of latch `l` replays, or completes for the PF of a lost device, not of one that hands the latch over (R443
step 5, R446). -/
abbrev unretired (s : State) (l : Nat) (j : Journal) : Prop :=
  j ∈ s.par.journal ∧ (j.load = l ∨ (j.load = 2 ∧ ¬ ((latch s l).released = true ∧ (latch s l).handMseq.isSome = true)))

/-- The journal entries that the taking of latch `l`, under way, replays, or completes for the PF of a lost device (R443 step 5). -/
abbrev owed (s : State) (l : Nat) (j : Journal) : Prop := j ∈ s.par.journal ∧ (j.load = l ∨ (j.load = 2 ∧ (latch s l).lost = true))

/-- The taking of latch `l` with nothing listed and nothing to replay ended: the service word, switch counts and vector 5 show it (R37, R443
step 6). -/
def takeEnds (s t : State) (l : Nat) : Prop :=
  (latch t l).take = .none ∧ (latch t l).stopped = false ∧ fired s t 0 5 ∧ (logTakesTwo s → healthWithin s t 4 8) ∧
  ((latch s (1 - l)).take = .none → s.hif.svcHeld = false → t.hif.svcMode = t.pwr.mode ∧ t.hif.svcLatches = latchCount t) ∧
  ∀ f, f = 0 ∨ inLoad s l f = true → (fnOf s f).created = true → (fnOf t f).switchCount = ((fnOf s f).switchCount + 1) % 65536

/-- This device took latch `l`: it holds it, said TAKEN, and went as far as nothing has to be read (R434, R436, R443, R446). -/
def latchTaken (s t : State) (l : Nat) : Prop :=
  (latch t l).holder = true ∧ (latch t l).fenced = false ∧ (latch t l).selfCur = false ∧ (latch t l).pCur = false ∧
  (latch t l).leaseEnd = s.time.refCount + 24997 ∧ (latch t l).handMseq = none ∧ (latch t l).released = false ∧
  (latch t (1 - l)).holder = (latch s (1 - l)).holder ∧ knockSent s t 5 l 0 (s.par.seq % 2 ^ 32) ∧
  t.pwr.mode = (if s.pwr.mode = .standby then .active else s.pwr.mode) ∧
  ((∃ m, listed s l m) → (latch t l).take = .slots ∧ ∀ m, listed s l m →
    (∃ x ∈ t.par.meters, x = { m with asked := true }) ∧
    (hostRefusal s (hifMaster m.fn m.ring) m.fn (slotAddr s m) 32 false = none → sentNow s t (.read m.fn (slotAddr s m) 32 (noSnoopAt s m.fn (slotAddr s m))))) ∧
  ((¬ ∃ m, listed s l m) → (∃ j, unretired s l j) → (latch t l).take = .replay ∧ ∀ j, unretired s l j → 
    (∃ x ∈ t.par.journal, x = { j with asked := true }) ∧
    (j.load = l → let a := (ringOf s j.fn j.ring).sqBase + 64 * j.slot
      hostRefusal s (hifMaster j.fn j.ring) j.fn a 64 false = none → sentNow s t (.read j.fn a 64 (noSnoopAt s j.fn a)))) ∧
  ((¬ ∃ m, listed s l m) → (¬ ∃ j, unretired s l j) → takeEnds s t l)

/-- Latch `l` was fenced: nothing of its load is accepted, running or waiting for the host, and the device without a latch is in STANDBY (R24,
R437). -/
def latchFenced (s t : State) (l : Nat) : Prop :=
  (latch t l).holder = false ∧ (latch t l).fenced = true ∧ (latch t l).sent = [] ∧ (latch t l).take = .none ∧
  (∀ r ∈ t.hif.relq, inLoad s l r.fn = false) ∧ (toksOnce s → ∀ i, (tok t i).st ≠ .free → inLoad s l (tok t i).func = false) ∧
  (s.par.bound = true → latchCount t = 0 → s.pwr.mode = .active → t.pwr.mode = .standby)

/-- The record at the front of the partner's stream is the next one, `b`, of this type (R438, R439). -/
abbrev recordNext (s : State) (type : Nat) (b : Bytes) (rest : List (Nat × Bytes)) : Prop :=
  s.par.rxHeld = (s.par.rxApplied + 1, b) :: rest ∧ leAt b 0 1 = type ∧ s.pwr.main = true

/-- The record has left the front of the stream: MSEQ of the last one applied, and what is still held. -/
abbrev recordDone (s t : State) (rest : List (Nat × Bytes)) : Prop := t.par.rxApplied = s.par.rxApplied + 1 ∧ t.par.rxHeld = rest

/-- The commands that take the record at the front, with its TYPE (R438). -/
def mirrorRows (i : Instr) (type : Nat) : Prop :=
  (i = .mirrorJournal ∧ type = 1) ∨ (i = .mirrorMeter ∧ type = 2) ∨ (i = .mirrorState ∧ type = 3) ∨ (i = .mirrorRing ∧ type = 4) ∨
  (i = .mirrorFnReset ∧ type = 5) ∨ (i = .mirrorReceipt ∧ type = 6) ∨ (i = .mirrorHead ∧ type = 7) ∨ (i = .mirrorAck ∧ type = 8) ∨
  (i = .mirrorHandover ∧ type = 9) ∨ (i = .mirrorResync ∧ type = 10)

/-- An ACK record for what is applied now was queued on the stream, where it runs (R438 ACK). -/
def ackQueued (s t : State) : Prop :=
  streamOn s = true → ∃ q ∈ t.par.txq, leAt q.2 0 1 = 8 ∧ leAt q.2 1 1 = 0xFF ∧ leAt q.2 2 2 = 24 ∧ leAt q.2 16 8 = (s.par.rxApplied + 1) % 2 ^ 64

/-! ### Power and start -/

/-- Only the power block, the channel that read the image with its counts, pending vectors and what is sent out may differ (R470, R273, R488). -/
def flashFrame (s t : State) : Prop :=
  t = { s with
    pwr := t.pwr
    mov := { s.mov with chans := t.mov.chans }
    cnt := t.cnt
    hif := { s.hif with fns := t.hif.fns }
    out := t.out } ∧ ∀ g, fnOf t g = { fnOf s g with msix := (fnOf t g).msix }

/-- What keep RAM keeps of records that have no VALID yet, an anchor not being one of them (R387, R391, R454). -/
def bufKept (s : State) (l : List HeldRec) : List BufRec := l.map fun h =>
  ⟨leAt h.bytes 4 2, leAt h.bytes 12 2, leAt h.bytes 6 1, slice h.bytes 16 40, if s.time.dev.isSome then h.time else h.time + 2 ^ 63⟩

/-- The records on their way moved to the keep RAM record buffer, where it has room, and their sequence numbers are free again (R391, R454). -/
def recordsMoved (s t : State) : Prop :=
  let l := s.aud.held ++ s.aud.staging
  t.aud.held = [] ∧ t.aud.staging = [] ∧
  (s.aud.buf.length + l.length ≤ 64 → (∀ h ∈ l, leAt h.bytes 4 2 ≠ 2) →
    t.aud.buf = s.aud.buf ++ bufKept s l ∧ t.aud.next = (match l with | [] => s.aud.next | h :: _ => h.seq) ∧ t.aud.ovf = s.aud.ovf)

/-- A step of the start, or its part for a unit, may end now (R467). -/
abbrev stepRuns (s : State) (step unit : Nat) : Prop :=
  s.pwr.main = true ∧ (s.pwr.mode = .start ∨ step = 0x10) ∧ stepCodes.contains step = true ∧ unit < stepUnits step ∧
  stepOpen s step unit = true ∧ stepReady s step = true

/-- The boot ledger has its canonical form. -/
abbrev bootWhole (s : State) : Prop := twf Ledger.blank s.pwr.ledger = true

/-- Only this entry of the boot ledger changed, to this. -/
def bootWrote (s t : State) (step unit : Nat) (e : Ledger) : Prop :=
  bootOf t step unit = e ∧ ∀ a u, 256 * a + u ≠ 256 * step + unit → bootOf t a u = bootOf s a u

/-- A mandatory step passed: at its first or its second attempt (R467). -/
def stepPassed (s t : State) (step unit : Nat) : Prop :=
  bootWrote s t step unit { bootOf s step unit with last := if s.pwr.retried.contains step then 5 else 1 }

/-- A mandatory step failed for the second time: the start is held (R468). -/
def startHeld (s t : State) (step unit : Nat) : Prop :=
  bootWrote s t step unit { bootOf s step unit with last := 6, fails := satAdd 0xFF (bootOf s step unit).fails 1 } ∧ t.pwr.held = true ∧
  t.pwr.step = step ∧ t.pwr.heldAt = s.time.refCount ∧ t.pwr.mode = .start ∧ healthSent s t 11

/-- Only the power block may differ, and the mode, slots and supplies of it do not. -/
def startOnly (s t : State) : Prop :=
  t = { s with pwr := { s.pwr with ledger := t.pwr.ledger, retried := t.pwr.retried, step := t.pwr.step } }

/-- The mandatory steps whose success does nothing else, or one thing (R467). -/
abbrev plainStep (n : Nat) : Prop := n = 1 ∨ n = 2 ∨ n = 3 ∨ n = 4 ∨ n = 5 ∨ n = 6 ∨ n = 8 ∨ n = 0x0A

/-! ### Errors and registers -/

/-- A detection of severity COMMAND, UNIT or PAIR was reported: its report, its count, its INTEGRITY record, AER, vector 4 and a health report
(R477). -/
def errSaid (s t : State) (det sev action unit func addr : Nat) (test : Bool) : Prop :=
  (s.dbg.errs.length < 64 → (⟨timeField s, det, sev, action, unit, func, addr, 0, 1, test⟩ : ErrReport) ∈ t.dbg.errs) ∧
  (64 ≤ s.dbg.errs.length → t.dbg.errs = s.dbg.errs ∧ t.dbg.lost = satAdd 0xFFFF s.dbg.lost 1) ∧
  tget 0 t.dbg.uncorr det = satAdd 0xFFFF (tget 0 s.dbg.uncorr det) 1 ∧ Out.aer true ∈ t.out ∧
  (logTakes s → recorded s t 0 0x0500 func
    (leBytes 2 det ++ leBytes 1 sev ++ leBytes 1 action ++ leBytes 2 unit ++ zeroBytes 2 ++ leBytes 8 addr ++ leBytes 4 0 ++ leBytes 4 1)) ∧
  (2 ≤ sev → fired s t 0 4 ∧ healthSent s t 7)

/-- The corrected count of a detector rose (R477). -/
def corrected (s t : State) (det n : Nat) : Prop :=
  tget 0 t.dbg.corr det = min 0xFFFF (tget 0 s.dbg.corr det + n) ∧ tget 0 t.dbg.secCorr det = tget 0 s.dbg.secCorr det + n

/-- The core holds no command, and nothing of one (R201). -/
abbrev coreIdle (s : State) (p : Nat) : Prop :=
  (core s p).tok = none ∧ (core s p).expired = false ∧ (core s p).reset = false ∧ (core s p).dropped = false ∧ (core s p).given = none ∧
  (core s p).late = none

/-- State `t` is `u` but for the low word that function `f` held for another register (R503). -/
def regIs (f : Nat) (u t : State) : Prop :=
  t = { u with hif := { u.hif with fns := t.hif.fns } } ∧ ∀ g, fnOf t g = if g = f then { fnOf u g with heldWr := none } else fnOf u g

/-- Clusters, as the standby self-test wakes the one it tests (R462). -/
def testWoke (s : State) (c : Nat) (t : State) : Prop :=
  t = { s with
    slm := { s.slm with clusters := s.slm.clusters.set c .awake, idleSince := s.slm.idleSince.set c none }
    cpu := { s.cpu with cores := t.cpu.cores } } ∧
  (∀ k ∈ coresIn s c, c < s.slm.clusters.length → coreCluster (physOf s c k) = c → (core t (physOf s c k)).st = .ask) ∧
  ∀ p, (∀ k ∈ coresIn s c, physOf s c k ≠ p) → core t p = core s p

/-- Only function `f` changed, to this, beside what is sent out. -/
def fnIs (f : Nat) (x : Fn) (s t : State) : Prop :=
  t = { s with hif := { s.hif with fns := t.hif.fns }, out := t.out } ∧ ∀ g, fnOf t g = if g = f then x else fnOf s g

/-- A write of these 32 bits at this offset of the PF's BAR0 makes the state `u`, but for the low word that the PF held (R503). -/
def pfWrites (s : State) (off v : Nat) (u : State) : Prop := ∃ t, exec (.registerWrite 0 off 4 v) s = .next t ∧ regIs 0 u t

/-- A read at this offset of the PF's BAR0 returns this word and leaves the state `u` (R507). -/
def pfReads (s : State) (off w : Nat) (u : State) : Prop := exec (.readClearAccess 0 off) s = .next { u with out := s.out ++ [.reg w] }

/-! ### Invariants -/

/-- The sum of every function's share of a pool, and what is free of it. -/
def poolSum (g : Share → Nat) (s : State) : Nat := (s.hif.shares.map fun e => g e.2).sum + g s.hif.free

/-- The four pools hold their totals (R28, R38). -/
def poolsWhole (s : State) : Prop :=
  twf Share.zero s.hif.shares = true ∧ poolSum Share.tokens s = 65536 ∧ poolSum Share.flows s = 262144 ∧ poolSum Share.keys s = 1040384 ∧
  poolSum Share.dispatch s = 65536

/-- Shared scratch, cluster scratch and every core's local memory have their canonical form: addresses rising, no byte 0 listed. -/
def memoriesWhole (s : State) : Prop :=
  twf 0 s.mov.shared = true ∧ twf 0 s.cpu.scratch = true ∧ ∀ e ∈ s.cpu.cores, twf 0 e.2.mem = true

/-- A VF is bound: one of its slots holds an LMK (R112). -/
def vfBound (s : State) : Prop := ∃ e ∈ s.kst.lmks, e.2.s0.occ = true ∨ e.2.s1.occ = true

end Sys2Proof.Machine
end

