-- ==== Sys2Proof/Certificates/Slice0/Obligations.lean ====
section
/-!
DEFINITION. The statements for the provers.
-/

open Sys2Proof Sys2Proof.Machine

/-- The queue is first in, first out: the front command runs with the queue's rest. An empty queue lets time pass (log entry 1, the model's
choice). -/
def Obligations.StepTakesFront : Prop :=
  (∀ (c : Instr) (rest : List Instr) (s : State), s.pending = c :: rest → step s = exec c { s with pending := rest }) ∧
  ∀ s : State, s.pending = [] → step s = .next (timeStep s)

/-- SQ_DOORBELL, CQ_DOORBELL, RING_ENABLE, RING_DISABLE on an open page (R52-R54, R57, R59). -/
def Obligations.RingDoorbells : Prop :=
  ∀ (s : State) (fn n : Nat) (r : Ring), pageOpen s fn = true → (fnOf s fn).rst = none → n < 4 → (fnOf s fn).rings[n]? = some r →
    (∀ tail, ∃ t, exec (.sqDoorbell fn n tail) s = .next t ∧ t.par = s.par ∧ ringFrame fn n s t ∧
      (tail % 65536 < ringSize r.sqLog2 → (ringOf t fn n).tail = tail % 65536 ∧ (ringOf t fn n).fetchHold = false ∧
        (ringOf t fn n).dbErrors = r.dbErrors) ∧
      (ringSize r.sqLog2 ≤ tail % 65536 → ringOf t fn n = { r with dbErrors := min 0xFFFF (r.dbErrors + 1) })) ∧
    (∀ head k, ∃ t, exec (.cqDoorbell fn n head) s = .next t ∧ t.par = s.par ∧ ringFrame fn n s t ∧
      (cqConsumes r (head % 65536) = some k → (ringOf t fn n).cqHead = head % 65536 ∧ (ringOf t fn n).unconsumed = r.unconsumed - k ∧
        (ringOf t fn n).dbErrors = r.dbErrors ∧
        (ringOf t fn n).st = if r.st = .draining ∧ r.reserved = 0 ∧ r.unconsumed ≤ k then .idle else r.st) ∧
      (cqConsumes r (head % 65536) = none → ringOf t fn n = { r with dbErrors := min 0xFFFF (r.dbErrors + 1) })) ∧
    (∀ ctl, r.st = .idle → (fnOf s fn).created = true →
      bitsOf ctl 8 5 ∉ [1, 2, 3, 4, 5] → bitsOf ctl 4 1 ∉ [1, 2, 3, 4, 5] → bitsOf ctl 13 11 < 4 →
      ∃ t, exec (.ringEnable fn n ctl) s = .next t ∧ ringFrame fn n s t ∧ (ringOf t fn n).enable = true ∧
        (ringOf t fn n).vector = bitsOf ctl 13 11 ∧ (ringOf t fn n).cqLog2 = bitsOf ctl 8 5 ∧ (ringOf t fn n).sqLog2 = bitsOf ctl 4 1 ∧
        (if (fnOf s fn).rptBase = 0 then (ringOf t fn n).st = .refused
         else (ringOf t fn n).st = .running ∧ (ringOf t fn n).head = 0 ∧ (ringOf t fn n).cqTail = 0 ∧ (ringOf t fn n).cqHead = 0 ∧
           (ringOf t fn n).phase = true)) ∧
    ∀ ctl,
      ∃ t, exec (.ringDisable fn n ctl) s = .next t ∧ ringFrame fn n s t ∧ (ringOf t fn n).enable = false ∧
        (r.st = .refused → (ringOf t fn n).st = .idle) ∧
        (r.st = .running → (ringOf t fn n).st = if r.reserved = 0 ∧ r.unconsumed = 0 then .idle else .draining)

/-- FETCH_ISSUE, FETCH_FAIL, MOD_TIME_EXPIRY and DESCRIPTOR_ACCEPT of an admitted descriptor (R13, R46, R47, R56, R58, R235). -/
def Obligations.FetchAndAccept : Prop :=
  ∀ (s : State) (fn n : Nat) (r : Ring), (fnOf s fn).rings[n]? = some r →
    (mayFetch s fn n = true → hostRefusal s (hifMaster fn n) fn (r.sqBase + 64 * ((r.head + r.inFlight) % ringSize r.sqLog2)) 64 false = none →
      ∃ t, exec (.fetchIssue fn n) s = .next t ∧
        t = { s with hif := { s.hif with fns := t.hif.fns }, mov := { s.mov with chans := t.mov.chans }, out := t.out } ∧
        (∀ g, g ≠ fn → fnOf t g = fnOf s g) ∧
        t.out = s.out ++ [.read fn (r.sqBase + 64 * ((r.head + r.inFlight) % ringSize r.sqLog2)) 64
          (noSnoopAt s fn (r.sqBase + 64 * ((r.head + r.inFlight) % ringSize r.sqLog2)))] ∧
        ((chan s ((4 * fn + n) % 16)).cur = none → (chan t ((4 * fn + n) % 16)).code = 15) ∧
        (∀ k, k ≠ (4 * fn + n) % 16 → chan t k = chan s k) ∧
        ringOf t fn n = { r with inFlight := r.inFlight + 1, reserved := r.reserved + 1 }) ∧
    (∀ v, mayFetch s fn n = true →
      hostRefusal s (hifMaster fn n) fn (r.sqBase + 64 * ((r.head + r.inFlight) % ringSize r.sqLog2)) 64 false = some v →
      ∃ t, exec (.fetchIssue fn n) s = .next t ∧ ringOf t fn n = { r with fetchHold := true } ∧
        (s.mov.vios.length < 64 → t.mov.vios = s.mov.vios ++ [v])) ∧
    (r.inFlight ≠ 0 → n < 4 → ∃ t, exec (.fetchFail fn n) s = .next t ∧
      t = { s with hif := { s.hif with fns := t.hif.fns }, mov := { s.mov with chans := t.mov.chans } } ∧ (∀ g, g ≠ fn → fnOf t g = fnOf s g) ∧
      ((chan s ((4 * fn + n) % 16)).cur = none → (chan t ((4 * fn + n) % 16)).code = 1) ∧
      (∀ k, k ≠ (4 * fn + n) % 16 → chan t k = chan s k) ∧
      (ringOf t fn n).inFlight = 0 ∧ (ringOf t fn n).reserved = r.reserved - r.inFlight ∧ (ringOf t fn n).head = r.head) ∧
    (∀ first e, r.irqFirst = some first → r.modTime ≠ 0 → first + r.modTime ≤ tick s → n < 4 → (fnOf s fn).msix[r.vector]? = some e →
      (fnOf s fn).rst = none → s.hif.linkUp = true → s.pwr.main = true →
      ∃ t, exec (.modTimeExpiry fn n) s = .next t ∧ ringOf t fn n = { r with irqCount := 0, irqFirst := none } ∧
        t = { s with hif := { s.hif with fns := t.hif.fns }, out := t.out } ∧
        (if e.mask then t.out = s.out ∧ ((fnOf t fn).msix[r.vector]?).map (fun x => x.pend) = some true
         else t.out = s.out ++ [.msix fn r.vector e.addr e.data])) ∧
    ∀ (data : List Byte) (rec : Nat), r.inFlight ≠ 0 → n < 4 → serves s fn = true → (fnOf s fn).rst = none →
      admission s fn (padTo 64 data) = 0 → (tok s rec).st = .free → rec < 65536 →
      ∃ t, exec (.descriptorAccept fn n data rec) s = .next t ∧ newToken s fn n r.head (padTo 64 data) (tok t rec) ∧
        (tok t rec).st = (if dNotBefore (padTo 64 data) = 0 then .ready else .liftNb) ∧
        (tok t rec).due = (if dNotBefore (padTo 64 data) = 0 then none else some (tick s + dNotBefore (padTo 64 data))) ∧
        (∀ j, j ≠ rec → tok t j = tok s j) ∧ (fnOf t fn).held = (fnOf s fn).held + 1 ∧ t.hif.accNo = s.hif.accNo + 1 ∧
        (dOrdered (padTo 64 data) = true →
          (flowOf t fn (dFlow (padTo 64 data))).give = seqNext (flowOf s fn (dFlow (padTo 64 data))).give) ∧
        (ringOf t fn n).head = (r.head + 1) % ringSize r.sqLog2 ∧ (ringOf t fn n).inFlight = r.inFlight - 1

/-- FN_CREATE, FN_RESIZE, FN_DESTROY, FN_CMD_COMPLETE, POOL_SNAP, FN_SEL_WRITE, DOE_IDE_KM (R33, R38-R43, R286). -/
def Obligations.FunctionCommands : Prop :=
  (∀ s : State, fnCmdReady s → s.hif.fnSel ≠ 0 → (fnOf s s.hif.fnSel).created = false → requestFits s s.hif.fnSel →
    ∃ t, exec .fnCreate s = .next t ∧ sharesMoved s t s.hif.fnSel s.hif.req ∧ (fnOf t s.hif.fnSel).created = true ∧
      (fnOf t s.hif.fnSel).ops = 0x0BFF ∧ t.hif.cmdPend = some ⟨1, s.hif.fnSel, 0⟩ ∧
      (∀ g, g ≠ s.hif.fnSel → g ≠ 0 → fnOf t g = fnOf s g) ∧ t = { s with hif := t.hif }) ∧
  (∀ s : State, fnCmdReady s → s.hif.fnSel ≠ 0 → (fnOf s s.hif.fnSel).created = false → ¬ requestFits s s.hif.fnSel →
    ∃ t, exec .fnCreate s = .next t ∧ t.hif.shares = s.hif.shares ∧ t.hif.free = s.hif.free ∧
      (fnOf t s.hif.fnSel).created = false ∧ t = { s with hif := t.hif } ∧
      t.hif.cmdPend = some ⟨1, s.hif.fnSel,
        if 16 ≤ s.hif.req.tokens ∧ 1 ≤ s.hif.req.flows ∧ 1 ≤ s.hif.req.dispatch then 1 else 2⟩) ∧
  (∀ s : State, fnCmdReady s → (fnOf s s.hif.fnSel).created = true → requestFits s s.hif.fnSel →
    ∃ t, exec .fnResize s = .next t ∧ sharesMoved s t s.hif.fnSel s.hif.req ∧ t.hif.cmdPend = some ⟨2, s.hif.fnSel, 0⟩ ∧
      (fnOf t s.hif.fnSel).created = true) ∧
  (∀ s : State, fnCmdReady s → s.hif.fnSel ≠ 0 → (fnOf s s.hif.fnSel).created = true → fnBusy s s.hif.fnSel = false →
    ∃ t, exec .fnDestroy s = .next t ∧ sharesMoved s t s.hif.fnSel Share.zero ∧ (fnOf t s.hif.fnSel).created = false ∧
      t.hif.cmdPend = some ⟨3, s.hif.fnSel, 0⟩ ∧ t.mtr.final = s.mtr.final ++ [s.hif.fnSel]) ∧
  (∀ (s : State) (c : FnCmdPend), s.hif.cmdPend = some c →
    ∃ t, exec .fnCmdComplete s = .next t ∧ t.hif.cmdPend = none ∧ t.hif.cmdResult = c.result ∧ t.hif.shares = s.hif.shares ∧
      t.hif.free = s.hif.free ∧ (c.result ≠ 0 ∨ 3 < c.op → t = { s with hif := t.hif } ∧ t.hif.fns = s.hif.fns) ∧
      (c.result ≠ 0 ∨ 2 < c.op ∨ c.fn = 0 → t = { s with hif := t.hif } ∧ ∀ g, g ≠ c.fn → fnOf t g = fnOf s g) ∧
      (c.result = 0 → c.op ≤ 3 → (fnOf t c.fn).units = (shareOf s c.fn).dispatch) ∧
      ∀ e, c.result = 0 → c.op ≤ 2 → c.fn ≠ 0 → (fnOf s c.fn).msix[5]? = some e → e.mask = false → (fnOf s c.fn).rst = none →
        s.hif.linkUp = true → s.pwr.main = true → t.out = s.out ++ [.msix c.fn 5 e.addr e.data]) ∧
  (∀ s : State, s.pwr.main = true → s.hif.linkUp = true → s.pwr.mode ≠ .guard → s.pwr.mode ≠ .start →
    exec .poolSnap s = .next { s with
      hif := { s.hif with snapFree := s.hif.free, snapShare := shareOf s s.hif.fnSel }, out := s.out ++ [.reg 1] }) ∧
  (∀ (s : State) (v : Nat), fnCmdReady s → v ≤ 1024 →
    ∃ t, exec (.fnSelWrite v) s = .next t ∧ t.hif.fnSel = v ∧ t.hif.hrStage = (fnOf s v).regions ∧
      t = { s with hif := { s.hif with fnSel := v, hrStage := (fnOf s v).regions, fns := t.hif.fns } } ∧
      ∀ g, fnOf t g = if g = 0 then { fnOf s 0 with heldWr := none } else fnOf s g) ∧
  ∀ (s : State) (stream : Nat) (key : List Byte), s.pwr.main = true → s.hif.linkUp = true →
    (s.hif.ide.filter fun e => decide (e.id ≠ stream)).length < 64 →
    exec (.doeIdeKm stream key) s = .next { s with hif := { s.hif with
      ide := (s.hif.ide.filter fun e => decide (e.id ≠ stream)) ++ [⟨stream, padTo 32 key⟩] } }

/-- The resets of R60 and their end (R60-R65, R225, R501), and the end of the link (R31, R35, R517). -/
def Obligations.FunctionResets : Prop :=
  (∀ (s : State) (f : Nat), s.pwr.main = true → s.hif.linkUp = true → s.hif.vfEnable = true → 1 ≤ f → f ≤ 1024 → (fnOf s f).rst = none →
    (∃ t, exec (.vfFlr f) s = .next t ∧ resetBegun s t f 1 ∧ ∀ g, g ≠ f → (fnOf t g).rst = (fnOf s g).rst) ∧
    ∃ t, exec (.vfD3hot f) s = .next t ∧ resetBegun s t f 5 ∧ (fnOf t f).d3 = true ∧ ∀ g, g ≠ f → (fnOf t g).rst = (fnOf s g).rst) ∧
  (∀ s : State, fnCmdReady s → s.hif.fnSel ≠ 0 → (fnOf s s.hif.fnSel).created = true → (fnOf s s.hif.fnSel).rst = none →
    ∃ t, exec .fnReset s = .next t ∧ resetBegun s t s.hif.fnSel 4 ∧ t.hif.cmdPend = some ⟨4, s.hif.fnSel, 0⟩ ∧
      ∀ g, g ≠ s.hif.fnSel → (fnOf t g).rst = (fnOf s g).rst) ∧
  (∀ s : State, s.pwr.main = true → s.hif.linkUp = true → (fnOf s 0).rst = none →
    ∃ t, exec .pfFlr s = .next t ∧ (∃ r, (fnOf t 0).rst = some r ∧ r.cause = 2 ∧ r.stamp = tick s) ∧
      (∀ f, 1 ≤ f → f ≤ 1024 → s.hif.vfEnable = true → (fnOf t f).rst ≠ none) ∧
      (∀ f, f ≠ 0 → s.hif.vfEnable = false → (fnOf t f).rst = (fnOf s f).rst)) ∧
  (∀ s : State, s.pwr.main = true → s.hif.linkUp = true → s.hif.vfEnable = true →
    ∃ t, exec .vfEnableClear s = .next t ∧ t.hif.vfEnable = false ∧ (fnOf t 0).rst = (fnOf s 0).rst ∧
      ∀ f, 1 ≤ f → f ≤ 1024 → (fnOf t f).rst ≠ none ∧ ((fnOf s f).rst = none → ∃ r, (fnOf t f).rst = some r ∧ r.cause = 3)) ∧
  (∀ (s : State) (f : Nat) (r : FnReset), (fnOf s f).rst = some r → r.drained = false → r.stampRef + 150000 ≤ s.time.refCount →
    s.pwr.main = true →
    ∃ t, exec (.resetDrainTimeout f) s = .next t ∧ (∃ q, (fnOf t f).rst = some q ∧ q.drained = true ∧ q.stamp = r.stamp ∧ q.cause = r.cause) ∧
      ∀ p ∈ resetCores s f, (core t p).st = .run ∧ (core t p).pc = (core s p).fwFault ∧ (core t p).prog = false ∧ (core t p).ds = [] ∧
        (core t p).closed = true) ∧
  (∀ (s : State) (f : Nat) (r : FnReset), (fnOf s f).rst = some r → s.pwr.main = true → r.drained = true ∨ resetCores s f = [] →
    (latch s (loadOf s f)).take = .none →
    ∃ t, exec (.resetReportWrite f) s = .next t ∧ (fnOf t f).rst = none ∧ (fnOf t f).rstWord = .done ∧ t.hif.resetLast = f ∧
      (fnOf t f).rings = List.replicate 4 Ring.blank ∧ (fnOf t f).rptBase = 0 ∧ (fnOf t f).dirBase = 0 ∧ (fnOf t f).progBase = 0 ∧
      (fnOf t f).races = 0 ∧ (∀ w, w < 2 ^ 18 → flowOf t f w = Flow.start) ∧
      (reportsReset s f = true → (fnOf t f).rstSeq = ((fnOf s f).rstSeq + 1) % 2 ^ 32) ∧
      (reportsReset s f = true → (fnOf s f).rptHeld = [] →
        (∀ w ∈ rptList f r (((fnOf s f).rstSeq + 1) % 2 ^ 32) (timeField s), hostRefusal s w.1 f w.2.1 w.2.2.length true = none) →
        ∀ w ∈ rptList f r (((fnOf s f).rstSeq + 1) % 2 ^ 32) (timeField s), Out.write f w.2.1 w.2.2 false (noSnoopAt s f w.2.1) ∈ t.out)) ∧
  ∀ (s : State), s.pwr.main = true → s.hif.linkUp = true → ∀ i ∈ [Instr.linkDown, .perstAssert],
    ∃ t, exec i s = .next t ∧ t.hif.vfEnable = false ∧ t.hif.ide = [] ∧ t.hif.relq = [] ∧ t.slm.flows = [] ∧
      ∀ f, (fnOf t f).rst = none ∧ (fnOf t f).rptHeld = []

/-- Every arithmetic and logic instruction leaves R203's result in the place of its operands; DIVU divides by a divisor that is not 0 in 36
cycles. -/
def Obligations.ArithmeticAndLogic : Prop :=
  (∀ e ∈ oneOperand, ∀ (s : State) (p : Nat) (a : W32) (r : List W32), slotReady s p (a :: r) → (a :: r).length ≤ 976 →
    ∃ t, exec (e.1 p) s = .next t ∧ slotTo s p 1 { begun s p 1 with ds := e.2 a :: r } t) ∧
  (∀ e ∈ twoOperands, ∀ (s : State) (p : Nat) (a b : W32) (r : List W32), slotReady s p (b :: a :: r) → (b :: a :: r).length ≤ 976 →
    ∃ t, exec (e.1 p) s = .next t ∧ slotTo s p e.2.1 { begun s p 1 with ds := e.2.2 a b ++ r } t) ∧
  (∀ e ∈ threeOperands, ∀ (s : State) (p : Nat) (a b c : W32) (r : List W32), slotReady s p (c :: b :: a :: r) →
    (c :: b :: a :: r).length ≤ 976 →
    ∃ t, exec (e.1 p) s = .next t ∧ slotTo s p 1 { begun s p 1 with ds := e.2 a b c ++ r } t) ∧
  ∀ (s : State) (p : Nat) (a b : W32) (r : List W32), slotReady s p (b :: a :: r) → (b :: a :: r).length ≤ 976 → b ≠ 0 →
    ∃ t, exec (.opDivu p) s = .next t ∧ slotTo s p 36 { begun s p 1 with ds := a % b :: a / b :: r } t

/-- Literals, data stack and return stack (R192, R193, R203). -/
def Obligations.LiteralsAndStacks : Prop :=
  (∀ a b c : W32, stackOps [(.opNop, [], []), (.opDup, [a], [a, a]), (.opDrop, [a], []), (.opSwap, [b, a], [a, b]),
    (.opOver, [b, a], [a, b, a]), (.opRot, [c, b, a], [a, c, b]), (.opNip, [b, a], [b]), (.opTuck, [b, a], [b, a, b])]) ∧
  (∀ (s : State) (p imm : Nat) (l : List W32), slotReady s p l → l.length < 976 →
    (∀ next, next ∉ fuseOps → ∃ t, exec (.opLit8 p imm next) s = .next t ∧
      slotTo s p 1 { begun s p 2 with ds := (BitVec.ofNat 8 imm).signExtend 32 :: l, lone := true } t) ∧
    (∀ next, next ∉ fuseOps → ∃ t, exec (.opLit16 p imm next) s = .next t ∧
      slotTo s p 1 { begun s p 3 with ds := (BitVec.ofNat 16 imm).zeroExtend 32 :: l, lone := true } t) ∧
    (∃ t, exec (.opLit32 p imm) s = .next t ∧ slotTo s p 1 { begun s p 5 with ds := BitVec.ofNat 32 imm :: l } t) ∧
    ∃ t, exec (.opDepth p) s = .next t ∧ slotTo s p 1 { begun s p 1 with ds := BitVec.ofNat 32 l.length :: l } t) ∧
  (∀ (s : State) (p imm : Nat) (l : List W32), slotReady s p l →
    (∀ next ∈ fuseOps, exec (.opLit8 p imm next) s = .next (modCore p (fun c => { c with
      fuse := some ((BitVec.ofNat 8 imm).signExtend 32, c.pc, next), lone := false, pc := (c.pc + 2) % 2 ^ 32 }) s)) ∧
    ∀ next ∈ fuseOps, exec (.opLit16 p imm next) s = .next (modCore p (fun c => { c with
      fuse := some (if next ∈ fuseBranch then (BitVec.ofNat 16 imm).signExtend 32 else (BitVec.ofNat 16 imm).zeroExtend 32, c.pc, next),
      lone := false, pc := (c.pc + 3) % 2 ^ 32 }) s)) ∧
  (∀ (s : State) (p : Nat) (n v : W32) (r : List W32), fuseReady s p 0x0F (n :: r) → (n :: r).length ≤ 976 → n.toNat ≤ 63 → r[n.toNat]? = some v →
    ∃ t, exec (.opPick p) s = .next t ∧
      slotTo s p 1 (if (begun s p 1).cached ≤ n.toNat + 1 then charge 2 { begun s p 1 with ds := v :: r } else { begun s p 1 with ds := v :: r }) t) ∧
  (∀ (s : State) (p : Nat) (a : W32) (r : List W32), slotReady s p (a :: r) → (core s p).rs.length < 16 →
    ∃ t, exec (.opTor p) s = .next t ∧ slotTo s p 1 { begun s p 1 with ds := r, rs := a :: (core s p).rs } t) ∧
  ∀ (s : State) (p : Nat) (l : List W32) (a : W32) (q : List W32), slotReady s p l → (core s p).rs = a :: q →
    (l.length < 976 → ∃ t, exec (.opFromr p) s = .next t ∧ slotTo s p 1 { begun s p 1 with ds := a :: l, rs := q } t) ∧
    (l.length < 976 → ∃ t, exec (.opRfetch p) s = .next t ∧ slotTo s p 1 { begun s p 1 with ds := a :: l } t) ∧
    ∃ t, exec (.opRdrop p) s = .next t ∧ slotTo s p 1 { begun s p 1 with rs := q } t

/-- BRA, BZ, BNZ, CALL, JMP, RET, NEXT (R207). -/
def Obligations.Branches : Prop :=
  (∀ (s : State) (p : Nat) (o : W32) (r : List W32),
    (fuseReady s p 0x40 (o :: r) →
      ∃ t, exec (.opBra p) s = .next t ∧ slotTo s p 2 { begun s p 1 with ds := r, pc := branchTarget (begun s p 1) o } t) ∧
    (fuseReady s p 0x43 (o :: r) → (core s p).rs.length < 16 → ∃ t, exec (.opCall p) s = .next t ∧
      slotTo s p 2 { begun s p 1 with
        ds := r, rs := BitVec.ofNat 32 (begun s p 1).pc :: (core s p).rs, pc := branchTarget (begun s p 1) o } t) ∧
    ∀ (n : W32) (q : List W32), fuseReady s p 0x46 (o :: r) → (core s p).rs = n :: q → ∃ t, exec (.opNext p) s = .next t ∧
      slotTo s p 1 (if n = 1 then { begun s p 1 with ds := r, rs := q }
        else charge 1 { begun s p 1 with ds := r, rs := (n - 1) :: q, pc := branchTarget (begun s p 1) o }) t) ∧
  (∀ (s : State) (p : Nat) (o f : W32) (r : List W32),
    (fuseReady s p 0x41 (o :: f :: r) → ∃ t, exec (.opBz p) s = .next t ∧
      slotTo s p 1 (if f = 0 then charge 1 { begun s p 1 with ds := r, pc := branchTarget (begun s p 1) o } else { begun s p 1 with ds := r }) t) ∧
    (fuseReady s p 0x42 (o :: f :: r) → ∃ t, exec (.opBnz p) s = .next t ∧
      slotTo s p 1 (if f ≠ 0 then charge 1 { begun s p 1 with ds := r, pc := branchTarget (begun s p 1) o } else { begun s p 1 with ds := r }) t)) ∧
  (∀ (s : State) (p : Nat) (a : W32) (r : List W32), slotReady s p (a :: r) →
    ∃ t, exec (.opJmp p) s = .next t ∧ slotTo s p 2 { begun s p 1 with ds := r, pc := a.toNat } t) ∧
  ∀ (s : State) (p : Nat) (l : List W32) (a : W32) (q : List W32), slotReady s p l → (core s p).rs = a :: q →
    ∃ t, exec (.opRet p) s = .next t ∧ slotTo s p 2 { begun s p 1 with rs := q, pc := a.toNat } t

/-- LD, LDB, LDL, LDLB, LDS, LDSB and LOAD_LANDING (R198-R209). -/
def Obligations.Loads : Prop :=
  (∀ e ∈ bankLoads, ∀ (s : State) (p : Nat) (sa : W32) (r : List W32), fuseReady s p e.2.2 (sa :: r) → (sa :: r).length ≤ 976 →
    loadOutcome s (e.1 p) p ((core s p).bnk * 65536 + sa.toNat % 65536) e.2.1 (begun s p 1)) ∧
  (∀ e ∈ fullLoads, ∀ (s : State) (p : Nat) (a : W32) (r : List W32), slotReady s p (a :: r) → (a :: r).length ≤ 976 →
    loadOutcome s (e.1 p) p a.toNat e.2 (begun s p 1)) ∧
  (∀ e ∈ streamLoads, ∀ (s : State) (p a : Nat) (r : List W32),
    (slotReady s p (0 :: r) → streamAddr (core s p).s0 = some a →
      loadOutcome s (e.1 p) p a e.2 { begun s p 1 with s0 := { (core s p).s0 with idx := ((core s p).s0.idx + 1) % 65536 } }) ∧
    (slotReady s p (1 :: r) → streamAddr (core s p).s1 = some a →
      loadOutcome s (e.1 p) p a e.2 { begun s p 1 with s1 := { (core s p).s1 with idx := ((core s p).s1.idx + 1) % 65536 } }) ∧
    (∀ q : W32, 1 < q.toNat → slotReady s p (q :: r) → ∃ t, exec (e.1 p) s = .next t ∧ faulted s p 12 t)) ∧
  ∀ (s : State) (p : Nat) (data : List Byte) (cycles : Nat) (l : PLoad) (rest : List PLoad), (core s p).loads = l :: rest → 2 ≤ l.age →
    exec (.loadLanding p data cycles) s = .next (setCore p (charge (l.extra + if l.val.isSome then 0 else cycles)
      { core s p with
        loads := rest,
        ds := if l.pos < (core s p).ds.length
          then (core s p).ds.set ((core s p).ds.length - 1 - l.pos) (BitVec.ofNat 32 (l.val.getD (leNat (overlay l.own (padTo l.size data)))))
          else (core s p).ds }) s)

/-- ST, STB, STL, STLB, STS, STSB, BST and STORE_ACKNOWLEDGE (R198-R200, R208-R210). -/
def Obligations.Stores : Prop :=
  (∀ e ∈ bankStores, ∀ (s : State) (p : Nat) (sa x : W32) (r : List W32), fuseReady s p e.2.2 (sa :: x :: r) →
    storeOutcome s (e.1 p) p ((core s p).bnk * 65536 + sa.toNat % 65536) 1 (leBytes e.2.1 x.toNat) { begun s p 1 with ds := r }) ∧
  (∀ e ∈ fullStores, ∀ (s : State) (p : Nat) (a x : W32) (r : List W32), slotReady s p (a :: x :: r) →
    storeOutcome s (e.1 p) p a.toNat 1 (leBytes e.2 x.toNat) { begun s p 1 with ds := r }) ∧
  (∀ e ∈ streamStores, ∀ (s : State) (p a : Nat) (x : W32) (r : List W32),
    (slotReady s p (0 :: x :: r) → streamAddr (core s p).s0 = some a →
      storeOutcome s (e.1 p) p a 1 (leBytes e.2 x.toNat)
        { begun s p 1 with ds := r, s0 := { (core s p).s0 with idx := ((core s p).s0.idx + 1) % 65536 } }) ∧
    (slotReady s p (1 :: x :: r) → streamAddr (core s p).s1 = some a →
      storeOutcome s (e.1 p) p a 1 (leBytes e.2 x.toNat)
        { begun s p 1 with ds := r, s1 := { (core s p).s1 with idx := ((core s p).s1.idx + 1) % 65536 } })) ∧
  (∀ (s : State) (p : Nat) (a : W32) (r : List W32) (v : W128) (q : List W128), slotReady s p (a :: r) → (core s p).bs = v :: q →
    storeOutcome s (.opBst p) p a.toNat 2 (beBytes 16 v.toNat) { begun s p 1 with ds := r, bs := q }) ∧
  ∀ (s : State) (p : Nat) (e : PStore) (rest : List PStore), (core s p).stores = e :: rest →
    (e.addr < 0x10000 → ∃ t, exec (.storeAcknowledge p) s = .next t ∧ core t p = { core s p with stores := rest, mem := (core t p).mem } ∧
      mread (core t p).mem e.addr e.data.length = e.data ∧
      (∀ b, b < e.addr ∨ e.addr + e.data.length ≤ b → tget 0 (core t p).mem b = tget 0 (core s p).mem b) ∧
      (∀ q, q ≠ p → core t q = core s q) ∧ t = { s with cpu := { s.cpu with cores := t.cpu.cores } }) ∧
    (0x80000000 ≤ e.addr → storeStrict s (core s p) e = true → loadsOwed (core s p) = true → exec (.storeAcknowledge p) s = .next s) ∧
    (0x80000000 ≤ e.addr → ¬ (storeStrict s (core s p) e = true ∧ loadsOwed (core s p) = true) →
      ∃ t, exec (.storeAcknowledge p) s = .next t ∧ core t p = { core s p with stores := rest } ∧ (∀ q, q ≠ p → core t q = core s q) ∧
        t = { s with cpu := { s.cpu with cores := t.cpu.cores }, out := t.out } ∧ ((core s p).closed = true → t.out = s.out) ∧
        ∀ b n, (core s p).closed = false → (core s p).outList = [(b, n)] → e.win + (e.addr - 0xC0000000) + e.data.length ≤ n →
          t.out = s.out ++ writesOf s (core s p).func (b + (e.win + (e.addr - 0xC0000000))) e.data true) ∧
    (0x10000 ≤ e.addr → e.addr < 0x80000000 →
    ∃ t, exec (.storeAcknowledge p) s = .next t ∧ core t p = { core s p with stores := rest } ∧ (∀ q, q ≠ p → core t q = core s q) ∧
      t = { s with
        cpu := { s.cpu with cores := t.cpu.cores, scratch := t.cpu.scratch }, mov := { s.mov with shared := t.mov.shared } } ∧
      (if e.addr < 0x20000000 then
        t.mov.shared = s.mov.shared ∧ mread t.cpu.scratch (p / 9 * 2 ^ 20 + (e.addr - 0x10000000)) e.data.length = e.data ∧
        ∀ b, b < p / 9 * 2 ^ 20 + (e.addr - 0x10000000) ∨ p / 9 * 2 ^ 20 + (e.addr - 0x10000000) + e.data.length ≤ b →
          tget 0 t.cpu.scratch b = tget 0 s.cpu.scratch b
      else
        t.cpu.scratch = s.cpu.scratch ∧ mread t.mov.shared (e.addr - 0x20000000) e.data.length = e.data ∧
        ∀ b, b < e.addr - 0x20000000 ∨ e.addr - 0x20000000 + e.data.length ≤ b → tget 0 t.mov.shared b = tget 0 s.mov.shared b))

/-- BNKR, BNKW, SRR, SRW, TIME, TICK, FENCE. -/
def Obligations.SpecialRegisters : Prop :=
  (∀ (s : State) (p : Nat) (l : List W32), slotReady s p l →
    (l.length < 976 → ∃ t, exec (.opBnkr p) s = .next t ∧ slotTo s p 1 { begun s p 1 with ds := BitVec.ofNat 32 (core s p).bnk :: l } t) ∧
    (l.length < 975 → ∃ t, exec (.opTime p) s = .next t ∧ slotTo s p 1 { begun s p 1 with
      ds := (match s.time.dev with
        | none => [0xFFFFFFFF, 0xFFFFFFFF]
        | some v => [BitVec.ofNat 32 (v / 2 ^ 32), BitVec.ofNat 32 v]) ++ l } t) ∧
    (l.length < 976 → ∃ t, exec (.opTick p) s = .next t ∧
      slotTo s p 1 { begun s p 1 with ds := BitVec.ofNat 32 (s.time.refCount / 100) :: l } t) ∧
    ((core s p).stores = [] → portWaits s p = false → (∀ r ∈ (core s p).reqs, r.port ≠ 0x1E ∨ r.done ≠ none) →
      ∃ t, exec (.opFence p) s = .next t ∧ slotTo s p 1 (begun s p 1) t) ∧
    ((core s p).stores ≠ [] ∨ portWaits s p = true → exec (.opFence p) s = .next (slotWaits p s))) ∧
  (∀ (s : State) (p : Nat) (b : W32) (r : List W32), slotReady s p (b :: r) →
    ∃ t, exec (.opBnkw p) s = .next t ∧ slotTo s p 1 { begun s p 1 with ds := r, bnk := b.toNat % 65536 } t) ∧
  (∀ (s : State) (p : Nat) (n : W32) (r : List W32) (v : Nat), fuseReady s p 0x5E (n :: r) → (n :: r).length ≤ 976 →
    (n.toNat, v) ∈ [(0, (core s p).s0.base), (1, (core s p).s0.idx), (2, (core s p).s0.stride), (3, (core s p).s0.len),
      (4, (core s p).s0.mode), (8, (core s p).s1.base), (9, (core s p).s1.idx), (10, (core s p).s1.stride), (11, (core s p).s1.len),
      (12, (core s p).s1.mode), (16, (core s p).winIn % 2 ^ 32), (17, (core s p).winIn / 2 ^ 32), (18, (core s p).winOut % 2 ^ 32),
      (19, (core s p).winOut / 2 ^ 32), (24, (core s p).cyc), (25, if (core s p).prog then (core s p).budget else 0xFFFFFFFF),
      (26, (core s p).img), (31, (core s p).ctxKeep), (32, 2 * b2n (core s p).reset + b2n (core s p).expired)] ∨
    ((core s p).prog = false ∧ (n.toNat, v) ∈ [(27, (core s p).fault), (28, (core s p).faultPc), (29, (core s p).fwRet), (30, (core s p).fwFault)]) →
    ∃ t, exec (.opSrr p) s = .next t ∧ slotTo s p 1 { begun s p 1 with ds := BitVec.ofNat 32 v :: r } t) ∧
  (∀ (s : State) (p : Nat) (n x : W32) (r : List W32) (c : Core), slotReady s p (n :: x :: r) →
    (n.toNat, c) ∈ [(0, { begun s p 1 with s0 := { (core s p).s0 with base := x.toNat } }),
      (1, { begun s p 1 with s0 := { (core s p).s0 with idx := x.toNat % 65536 } }),
      (2, { begun s p 1 with s0 := { (core s p).s0 with stride := x.toNat % 65536 } }),
      (8, { begun s p 1 with s1 := { (core s p).s1 with base := x.toNat } }),
      (9, { begun s p 1 with s1 := { (core s p).s1 with idx := x.toNat % 65536 } }),
      (10, { begun s p 1 with s1 := { (core s p).s1 with stride := x.toNat % 65536 } }),
      (17, { begun s p 1 with winIn := x.toNat * 2 ^ 32 + (core s p).winIn % 2 ^ 32 }),
      (19, { begun s p 1 with winOut := x.toNat * 2 ^ 32 + (core s p).winOut % 2 ^ 32 })] ∨
    ((core s p).prog = false ∧ (n.toNat, c) ∈ [(29, { begun s p 1 with fwRet := x.toNat }), (30, { begun s p 1 with fwFault := x.toNat }),
      (31, { begun s p 1 with ctxKeep := min 2048 x.toNat })]) →
    ∃ t, exec (.opSrw p) s = .next t ∧ slotTo s p 1 { c with ds := r } t) ∧
  ∀ (s : State) (p : Nat) (n x : W32) (r : List W32), slotReady s p (n :: x :: r) → (core s p).lone = false →
    (n.toNat ∈ [5, 6, 7, 13, 14, 15, 20, 21, 22, 23] ∨ 32 < n.toNat ∨ ((core s p).prog = true ∧ n.toNat ∈ [27, 28, 29, 30]) →
      ∃ t, exec (.opSrr p) s = .next t ∧ faulted s p 12 t) ∧
    (n.toNat ∈ [5, 6, 7, 13, 14, 15, 20, 21, 22, 23, 24, 25, 26, 27, 28, 32] ∨ 32 < n.toNat ∨ ((core s p).prog = true ∧ 29 ≤ n.toNat) →
      ∃ t, exec (.opSrw p) s = .next t ∧ faulted s p 12 t)

/-- The block stack (R203, R210, R211). -/
def Obligations.BlockStack : Prop :=
  (∀ (s : State) (p : Nat) (l : List W32) (q : List W128), slotReady s p l → (core s p).bs = q →
    (q.length < 8 → ∃ t, exec (.opBzero p) s = .next t ∧ slotTo s p 1 { begun s p 1 with bs := 0 :: q } t) ∧
    (∀ v r, q = v :: r →
      (q.length < 8 → ∃ t, exec (.opBdup p) s = .next t ∧ slotTo s p 1 { begun s p 1 with bs := v :: q } t) ∧
      (q.length ≤ 8 → ∃ t, exec (.opBdrop p) s = .next t ∧ slotTo s p 1 { begun s p 1 with bs := r } t) ∧
      (q.length ≤ 8 → ∃ t, exec (.opBinc p) s = .next t ∧
        slotTo s p 1 { begun s p 1 with bs := (v.extractLsb' 32 96 ++ (v.extractLsb' 0 32 + 1#32)) :: r } t) ∧
      (l.length ≤ 972 → ∃ t, exec (.opBpop p) s = .next t ∧
        slotTo s p 2 { begun s p 1 with
          ds := v.extractLsb' 0 32 :: v.extractLsb' 32 32 :: v.extractLsb' 64 32 :: v.extractLsb' 96 32 :: l, bs := r } t)) ∧
    ∀ b a r, q = b :: a :: r →
      (q.length ≤ 8 → ∃ t, exec (.opBxch p) s = .next t ∧ slotTo s p 1 { begun s p 1 with bs := a :: b :: r } t) ∧
      (q.length ≤ 8 → ∃ t, exec (.opBxor p) s = .next t ∧ slotTo s p 1 { begun s p 1 with bs := (a ^^^ b) :: r } t) ∧
      (l.length < 976 → ∃ t, exec (.opBeq p) s = .next t ∧
        slotTo s p 1 { begun s p 1 with ds := (if a = b then 0xFFFFFFFF else 0) :: l, bs := r } t)) ∧
  (∀ (s : State) (p : Nat) (w0 w1 w2 w3 : W32) (r : List W32), slotReady s p (w0 :: w1 :: w2 :: w3 :: r) → (core s p).bs.length < 8 →
    ∃ t, exec (.opBpush p) s = .next t ∧ slotTo s p 2 { begun s p 1 with ds := r, bs := (w3 ++ w2 ++ w1 ++ w0) :: (core s p).bs } t) ∧
  (∀ (s : State) (p : Nat) (n : W32) (r : List W32) (v : W128) (q : List W128), slotReady s p (n :: r) → (core s p).bs = v :: q →
    (n.toNat ≤ 16 → ∃ t, exec (.opBmask p) s = .next t ∧
      slotTo s p 1 { begun s p 1 with ds := r, bs := (v &&& ~~~(BitVec.allOnes 128 >>> (8 * n.toNat))) :: q } t) ∧
    (16 < n.toNat → ∃ t b, exec (.opBmask p) s = .next t ∧ slotTo (bumpFree s) p 1 { begun s p 1 with ds := r, bs := b :: q } t)) ∧
  ∀ (s : State) (p : Nat) (a : W32) (r : List W32) (data : List Byte) (cycles : Nat), slotReady s p (a :: r) → (core s p).bs.length < 8 →
    a.toNat % 16 = 0 → coreRefusal s p .read a.toNat 16 = none →
    (a.toNat < 0x80000000 → ∃ t, exec (.opBld p data cycles) s = .next t ∧
      slotTo s p 2 (charge (loadExtra a.toNat)
        { begun s p 1 with ds := r, bs := BitVec.ofNat 128 (beNat (coreRead s p a.toNat 16)) :: (core s p).bs }) t) ∧
    (0x80000000 ≤ a.toNat → strictWaits s (begun s p 1) a.toNat 16 = false → ∃ t, exec (.opBld p data cycles) s = .next t ∧
      slotTo s p 2 (charge (60 + cycles) { begun s p 1 with ds := r, bs := BitVec.ofNat 128 (beNat
        (overlay (hostOver (core s p) (aperture (core s p) a.toNat 16)) (padTo 16 data))) :: (core s p).bs }) t) ∧
    (0x80000000 ≤ a.toNat → strictWaits s (begun s p 1) a.toNat 16 = true → exec (.opBld p data cycles) s = .next (slotWaits p s))

/-- What faults a core, and what the fault leaves (R226-R228). -/
def Obligations.CoreFaults : Prop :=
  (∀ (s : State) (p : Nat), slotReady s p [] → (core s p).lone = false →
    ∀ i ∈ [Instr.opDup p, .opDrop p, .opSwap p, .opOver p, .opRot p, .opNip p, .opTuck p, .opPick p, .opTor p, .opAdd p, .opDivu p,
      .opNeg p, .opSel p, .opBra p, .opBz p, .opBnz p, .opCall p, .opJmp p, .opNext p, .opLd p, .opSt p, .opLds p, .opSts p, .opBnkw p,
      .opSrr p, .opSrw p, .opBpush p], ∃ t, exec i s = .next t ∧ faulted s p 3 t) ∧
  (∀ (s : State) (p : Nat) (l : List W32), slotReady s p l → l.length = 976 → (core s p).rs ≠ [] →
    ∀ i ∈ [Instr.opLit32 p 0, .opDup p, .opOver p, .opTuck p, .opDepth p, .opFromr p, .opRfetch p, .opBnkr p, .opTime p, .opTick p],
      ∃ t, exec i s = .next t ∧ faulted s p 3 t) ∧
  (∀ (s : State) (p : Nat) (l : List W32), slotReady s p l → (core s p).rs = [] →
    ∀ i ∈ [Instr.opFromr p, .opRfetch p, .opRdrop p, .opRet p], ∃ t, exec i s = .next t ∧ faulted s p 4 t) ∧
  (∀ (s : State) (p : Nat) (a : W32) (r : List W32), slotReady s p (a :: r) → (core s p).lone = false → 16 ≤ (core s p).rs.length →
    ∀ i ∈ [Instr.opTor p, .opCall p], ∃ t, exec i s = .next t ∧ faulted s p 4 t) ∧
  (∀ (s : State) (p : Nat) (l : List W32), slotReady s p l → (core s p).bs = [] →
    ∀ i ∈ [Instr.opBdup p, .opBdrop p, .opBxch p, .opBxor p, .opBinc p, .opBpop p, .opBeq p], ∃ t, exec i s = .next t ∧ faulted s p 5 t) ∧
  (∀ (s : State) (p : Nat) (l : List W32), slotReady s p l → (core s p).bs.length = 8 →
    ∀ i ∈ [Instr.opBdup p, .opBzero p], ∃ t, exec i s = .next t ∧ faulted s p 5 t) ∧
  (∀ (s : State) (p : Nat) (a : W32) (r : List W32), slotReady s p (0 :: a :: r) → ∃ t, exec (.opDivu p) s = .next t ∧ faulted s p 9 t) ∧
  (∀ (s : State) (p : Nat) (n : W32) (r : List W32), fuseReady s p 0x0F (n :: r) →
    (63 < n.toNat → ∃ t, exec (.opPick p) s = .next t ∧ faulted s p 12 t) ∧
    ((n :: r).length = 977 → n.toNat ≤ 63 → ∃ t, exec (.opPick p) s = .next t ∧ faulted s p 3 t)) ∧
  (∀ (s : State) (p : Nat) (sa : W32) (r : List W32), (fuseReady s p 0x5E (0 :: r) → (0 :: r).length = 977 →
      ∃ t, exec (.opSrr p) s = .next t ∧ faulted s p 3 t) ∧
    (fuseReady s p 0x50 (sa :: r) → (sa :: r).length = 977 → ((core s p).bnk * 65536 + sa.toNat % 65536) % 4 = 0 →
      (core s p).bnk * 65536 + sa.toNat % 65536 < 0x80000000 → s.dbg.inj = none →
      coreRefusal s p .read ((core s p).bnk * 65536 + sa.toNat % 65536) 4 = none → ∃ t, exec (.opLd p) s = .next t ∧ faulted s p 3 t)) ∧
  (∀ (s : State) (p : Nat) (x : Inj), coreGoes s p = true → (core s p).fuse = none → s.dbg.inj = some x → x.point = 8 → x.unit = p ∨ x.unit = 0xFFFF → x.left ≠ 0 →
    ∃ t, exec (.opNop p) s = .next t ∧ faulted s p 13 t) ∧
  (∀ (s : State) (p op : Nat), canRun s p = true → (core s p).fuse = none → op < 256 → op ∉ definedOps →
    ∃ t, exec (.illegalOpcode p op) s = .next t ∧ faulted s p 1 t) ∧
  (∀ (s : State) (p : Nat) (v : VioReport), canRun s p = true → coreRefusal s p .exec (core s p).pc 1 = some v →
    ∃ t, exec (.instructionFetchRefused p) s = .next t ∧ faulted s p 8 t) ∧
  (∀ (s : State) (p : Nat), s.pwr.main = true → (core s p).prog = true → (core s p).budget = 0 → (core s p).st ≠ .off →
    ∃ t, exec (.programBudgetExhausted p) s = .next t ∧ faulted s p 10 t) ∧
  ∀ (s : State) (p : Nat), canRun s p = true → 0x10000000 ≤ (core s p).pc → (core s p).pc ≤ 0x100FFFFF →
    coreRefusal s p .exec (core s p).pc 1 = none →
    ∃ t, exec (.icacheFill p) s = .next t ∧ core t p = charge 12 (core s p) ∧ (∀ q, q ≠ p → core t q = core s q) ∧
      t = { s with cpu := { s.cpu with cores := t.cpu.cores }, cnt := t.cnt, hif := { s.hif with fns := t.hif.fns }, out := t.out }

/-- ASK, ISSUE, AWAIT, AWAIT_TIMEOUT, RELEASE (R212-R221, R234). -/
def Obligations.CommandFlow : Prop :=
  (∀ (s : State) (p : Nat) (l : List W32) (x y : List Byte), slotReady s p l → (core s p).prog = false → coreHolds (core s p) = false →
    ∃ t, exec (.opAsk p x y) s = .next t ∧ slotTo s p 0 { begun s p 1 with st := .ask } t) ∧
  (∀ (s : State) (p : Nat) (l : List W32) (x y : List Byte), slotReady s p l → (core s p).prog = true →
    ∃ t, exec (.opAsk p x y) s = .next t ∧ faulted s p 2 t) ∧
  (∀ (s : State) (p i : Nat) (x y : List Byte), (core s p).st = .ask → (core s p).given = some i → s.pwr.main = true →
    (checker s p).shadow = .ready → (∀ k ∈ s.cpu.parks, k.tok ≠ i) → imageMissing s p i = false →
    ∃ t, exec (.opAsk p x y) s = .next t ∧ (core t p).st = .run ∧ (core t p).tok = some i ∧ (core t p).func = (tok s i).func ∧
      (core t p).ds = [BitVec.ofNat 32 (dOpcode (tok s i).desc)] ∧ (core t p).rs = [] ∧ (core t p).bs = [] ∧ (core t p).prog = false ∧
      (core t p).bnk = 0 ∧ (core t p).cyc = 0 ∧ (core t p).closed = false ∧ (core t p).pc = (core s p).pc ∧
      (core t p).fwRet = (core s p).fwRet ∧ (core t p).fwFault = (core s p).fwFault ∧
      mread (core t p).mem 0xFF00 64 = padTo 64 (tok s i).desc ∧ (tok t i).dispatched = true ∧ ∀ q, q ≠ p → core t q = core s q) ∧
  (∀ (s : State) (p : Nat) (port key ctl len olen ain aout : W32) (r : List W32),
    slotReady s p (port :: key :: ctl :: len :: olen :: ain :: aout :: r) → port.toNat < 0x1E → (core s p).prog = false →
    issueEntries port.toNat ctl.toNat ≤ (core s p).bs.length → (core s p).reqs.length < 32 →
    (laneOf s port.toNat).fenced = false → laneFull s port.toNat = false →
    (issueHold s port.toNat (issueTwin s (core s p) port.toNat ctl.toNat) = true → laneFull s (lanePartner s port.toNat) = false) →
    ∃ t q, exec (.opIssue p) s = .next t ∧ (laneOf t port.toNat).queue = (laneOf s port.toNat).queue ++ [q] ∧
      q.core = p ∧ q.tag = s.cpu.tagNo ∧ q.key = key.toNat ∧ q.ctl = ctl.toNat ∧ q.len = len.toNat ∧ q.olen = olen.toNat ∧
      q.ain = ain.toNat ∧ q.aout = aout.toNat ∧ q.ops = (core s p).bs.take (issueEntries port.toNat ctl.toNat) ∧
      q.twin = issueTwin s (core s p) port.toNat ctl.toNat ∧ q.winIn = (core s p).winIn ∧ q.winOut = (core s p).winOut ∧ q.lost = false ∧
      q.done = (reqRefused false port.toNat q).map (fun st => (st, [])) ∧ t.cpu.tagNo = s.cpu.tagNo + 1 ∧ (core t p).ds = r ∧
      (core t p).bs = (core s p).bs.drop (issueEntries port.toNat ctl.toNat) ∧
      (core t p).reqs.map (fun x => (x.port, x.tag)) = (core s p).reqs.map (fun x => (x.port, x.tag)) ++ [(port.toNat, s.cpu.tagNo)] ∧
      (∀ n, n ≠ port.toNat → laneOf t n = { laneOf s n with
        held := if n = lanePartner s port.toNat ∧ issueHold s port.toNat q.twin = true ∧ q.done = none then (laneOf s n).held ++ [(p, s.cpu.tagNo)]
          else (laneOf s n).held }) ∧ ∀ k, k ≠ p → core t k = core s k) ∧
  (∀ (s : State) (p : Nat) (port tmo : W32) (r : List W32), slotReady s p (port :: tmo :: r) →
    ((∀ q ∈ (core s p).reqs, q.port ≠ port.toNat) → port.toNat ≤ 0x1E →
      ∃ t, exec (.opAwait p) s = .next t ∧ slotTo s p 1 { begun s p 1 with ds := 13 :: r } t) ∧
    ∀ q, (core s p).reqs.find? (fun x => decide (x.port = port.toNat)) = some q →
      (∀ st out, q.done = some (st, out) → q.arrived ≤ s.time.refCount → (core s p).bs.length < 8 →
        ∃ t, exec (.opAwait p) s = .next t ∧ slotTo s p 1 { begun s p 1 with
          ds := BitVec.ofNat 32 st :: r, bs := if q.toStack ∧ st = 0 then bytesBlk out :: (core s p).bs else (core s p).bs,
          reqs := (core s p).reqs.filter fun x => decide (x.tag ≠ q.tag) } t) ∧
      (q.done = none → tmo.toNat % 2 ^ 24 = 0 →
        ∃ t, exec (.opAwait p) s = .next t ∧ slotTo s p 1 { begun s p 1 with ds := 15 :: r } t) ∧
      (q.done = none → tmo.toNat % 2 ^ 24 ≠ 0 →
        exec (.opAwait p) s = .next (modCore p (fun c => { c with st := .await port.toNat (tmo.toNat % 2 ^ 24) s.time.refCount }) s))) ∧
  (∀ (s : State) (p tmo since : Nat) (port : W32) (w : W32) (r : List W32) (q : CReq), (core s p).st = .await port.toNat tmo since →
    (core s p).ds = port :: w :: r → (core s p).fuse = none → loadDue (core s p) = false → (core s p).prog = false → s.pwr.main = true →
    (core s p).reqs.find? (fun x => decide (x.port = port.toNat)) = some q → q.done = none → r.length ≤ 974 → s.dbg.inj = none → 2 * tmo + 200 ≤ 25 * (s.time.refCount - since) →
    ∃ t, exec (.awaitTimeout p) s = .next t ∧ (core t p).st = .run ∧ (core t p).ds = 14 :: r ∧
      (core t p).reqs = (core s p).reqs.filter (fun x => decide (x.tag ≠ q.tag)) ∧ ∀ k, k ≠ p → core t k = core s k) ∧
  (∀ (s : State) (p : Nat) (st len : W32) (r : List W32), slotReady s p (st :: len :: r) → (core s p).prog = false →
    ∃ t, exec (.opRelease p) s = .next t ∧
      slotTo s p 4 { begun s p 1 with
        ds := r, st := .release (st.toNat % 65536) (resLen s p (st.toNat % 65536) len.toNat), units := (core t p).units } t) ∧
  ∀ (s : State) (p : Nat) (st len : W32) (r : List W32), slotReady s p (st :: len :: r) → (core s p).prog = true →
    (progStatusOk (st.toNat % 65536) = true → len.toNat ≤ bufLen (core s p).outList → ∃ t, exec (.opRelease p) s = .next t ∧
      slotTo s p 4 { begun s p 1 with
        ds := r, st := .release (st.toNat % 65536) (resLen s p (st.toNat % 65536) len.toNat), pc := (core s p).fwRet, units := (core t p).units } t) ∧
    (progStatusOk (st.toNat % 65536) = false → ∃ t, exec (.opRelease p) s = .next t ∧ faulted s p 14 t)

/-- KRES, RAND, DRBG_GENERATE, PRUN, PROG_IMAGE_FETCH, PROGRAM_FETCH_TIMEOUT, PROG_BASE_WRITE. -/
def Obligations.KeysRandomPrograms : Prop :=
  (∀ (s : State) (p : Nat) (host : List Byte) (h req rsv : W32) (r : List W32), slotReady s p (h :: req :: rsv :: r) → (core s p).kstat = none →
    loadWaits s p = false → s.dbg.inj = none → coreRefusal s p .read req.toNat 16 = none →
    leAt (kresRec p req.toNat host s) 6 2 = 0 → leAt (kresRec p req.toNat host s) 12 4 = 0 →
    let answer := resolve s (core s p).func h.toNat (keyReqAt (kresRec p req.toNat host s)) rsv.toNat
    (∀ st, answer = .fail st →
      ∃ t, exec (.opKres p host) s = .next t ∧ slotTo s p 32 { kresDone (begun s p 1) with ds := BitVec.ofNat 32 st :: r } t) ∧
    (∀ i, answer = .ok i → (core s p).pins.length < 16 → (∀ q ∈ (core s p).pins, q.handle ≠ h.toNat) →
      ∃ t, exec (.opKres p host) s = .next t ∧ (core t p).ds = 0 :: r ∧ (core t p).st = .run ∧
        (core t p).pins = (core s p).pins ++ [⟨h.toNat, i, rsv.toNat⟩] ∧ ∀ q, q ≠ p → core t q = core s q) ∧
    (answer = .kind → ∃ t, exec (.opKres p host) s = .next t ∧ (core t p).ds = 0x0203 :: r ∧ (core t p).st = .run ∧
      ∀ q, q ≠ p → core t q = core s q) ∧
    (∀ i, answer = .bad i → (core s p).kbad = true → ∃ t, exec (.opKres p host) s = .next t ∧ (core t p).ds = 0x020A :: r ∧ (core t p).st = .run) ∧
    (answer = .miss → mayPark s p (h :: req :: rsv :: r).length = false → ∃ t, exec (.opKres p host) s = .next t ∧ (core t p).st = .kres)) ∧
  (∀ (s : State) (p : Nat) (a len : W32) (r : List W32), slotReady s p (a :: len :: r) → loadWaits s p = false → 1 ≤ len.toNat → len.toNat ≤ 4096 →
    coreRefusal s p .write a.toNat len.toNat = none → drbgLive s (instOf (core s p).func) = true →
    exec (.opRand p) s = .next { modCore p (fun c => { c with st := .rand }) s with
      ent := { s.ent with reqs := s.ent.reqs ++ [⟨p, a.toNat, len.toNat⟩] } }) ∧
  (∀ (s : State) (q : RandReq) (rest : List RandReq) (x y : W32) (r : List W32), s.ent.reqs = q :: rest → s.pwr.main = true →
    (core s q.core).st = .rand → (core s q.core).ds = x :: y :: r → (core s q.core).fuse = none → (core s q.core).prog = false →
    loadDue (core s q.core) = false → (core s q.core).stores = [] → r.length ≤ 974 → s.dbg.inj = none → drbgLive s (instOf (core s q.core).func) = true → q.addr < 0x10000 →
    ∃ t d, exec .drbgGenerate s = .next t ∧ (core t q.core).st = .run ∧ (core t q.core).ds = r ∧ t.ent.reqs = rest ∧
      mread (core t q.core).mem q.addr d.length = d ∧
      (∀ b, b < q.addr ∨ q.addr + d.length ≤ b → tget 0 (core t q.core).mem b = tget 0 (core s q.core).mem b) ∧
      d = (drbgGenerate ⟨(drbgOf s (instOf (core s q.core).func)).key, (drbgOf s (instOf (core s q.core).func)).v⟩ q.len []).1 ∧
      ∀ k, k ≠ q.core → core t k = core s k) ∧
  (∀ (s : State) (p i : Nat) (entry : W32) (r : List W32), slotReady s p (entry :: r) → (core s p).tok = some i →
    ((core s p).prog = true → ∃ t, exec (.opPrun p) s = .next t ∧ faulted s p 2 t) ∧
    ((core s p).prog = false → imageOf s (p / 9) (core s p).func (dOpcode (tok s i).desc % 256) = none →
      ∃ t, exec (.opPrun p) s = .next t ∧ faulted s p 8 t) ∧
    ∀ g, (core s p).prog = false → imageOf s (p / 9) (core s p).func (dOpcode (tok s i).desc % 256) = some g →
      ∃ t, exec (.opPrun p) s = .next t ∧ (core t p).prog = true ∧ (core t p).img = 0x10040000 + 0x8000 * g.place ∧
        (core t p).pc = (0x10040000 + 0x8000 * g.place + entry.toNat) % 2 ^ 32 ∧ (core t p).ds = [] ∧ (core t p).rs = [] ∧
        (core t p).bs = [] ∧
        (core t p).ctxKeep = leNat (mread s.cpu.scratch (p / 9 * 2 ^ 20 + 0x40000 + 0x8000 * g.place + 0x1C) 2) ∧
        (core t p).ports = leNat (mread s.cpu.scratch (p / 9 * 2 ^ 20 + 0x40000 + 0x8000 * g.place + 0x1E) 2) ∧
        ∀ q, q ≠ p → core t q = core s q) ∧
  (∀ (s : State) (c f slot : Nat) (entry image : List Byte) (g : ImgFetch), s.pwr.main = true → fetchAt s c f slot = some g → g.image = none →
    fetchLate s g = false →
    (g.ptr = none → leAt entry 0 8 % 64 = 0 → leAt entry 12 4 = 0 →
      hostRefusal s (imageMaster c) f (leAt entry 0 8) (leAt entry 8 4) false = none →
      ∃ t, exec (.progImageFetch c f slot entry image false) s = .next t ∧
        fetchAt t c f slot = some { g with ptr := some (leAt entry 0 8, leAt entry 8 4) } ∧
        (∀ o ∈ askOut s f (leAt entry 0 8) (leAt entry 8 4), o ∈ t.out) ∧ t.cpu.images = s.cpu.images ∧ t.cpu.cores = s.cpu.cores) ∧
    (∀ x n a, g.ptr = some x → x.2 = image.length → s.lcy.approvals.find? (fun a => decide (a.fn = f) && decide (a.slot = slot)) = some a →
      imageOk f slot a image = true → imagePlace s c = some n →
      ∃ t, exec (.progImageFetch c f slot entry image false) s = .next t ∧
        mread t.cpu.scratch (c * 2 ^ 20 + 0x40000 + 0x8000 * n) image.length = image ∧
        (∀ b, b < c * 2 ^ 20 + 0x40000 + 0x8000 * n ∨ c * 2 ^ 20 + 0x40000 + 0x8000 * n + image.length ≤ b →
          tget 0 t.cpu.scratch b = tget 0 s.cpu.scratch b) ∧
        (∃ y ∈ t.cpu.images, y.cluster = c ∧ y.place = n ∧ y.fn = f ∧ y.slot = slot ∧ y.digest = a.digest ∧ y.stale = false) ∧
        fetchAt t c f slot = none ∧ t.cpu.cores = s.cpu.cores) ∧
    (g.ptr = none → leAt entry 0 8 % 64 ≠ 0 ∨ leAt entry 12 4 ≠ 0 →
      ∃ t, exec (.progImageFetch c f slot entry image false) s = .next t ∧ fetchAt t c f slot = none ∧ t.cpu.images = s.cpu.images) ∧
    ∃ t, exec (.progImageFetch c f slot entry image true) s = .next t ∧ fetchAt t c f slot = none ∧ t.cpu.images = s.cpu.images) ∧
  (∀ (s : State) (c f slot : Nat) (g : ImgFetch), fetchAt s c f slot = some g → g.image = none →
    100 * (g.start + s.kst.fetchTimeout) + 8 ≤ s.time.refCount →
    ∃ t, exec (.programFetchTimeout c f slot) s = .next t ∧ fetchAt t c f slot = none ∧ t.cpu.images = s.cpu.images) ∧
  ∀ (s : State) (f v : Nat), pageOpen s f = true → f ≠ 0 → (fnOf s f).rst = none → v < 2 ^ 64 →
    ∃ t, exec (.progBaseWrite f v) s = .next t ∧ (fnOf t f).progBase = v / 4096 * 4096 ∧
      t.cpu.images = (s.cpu.images.filter fun g => decide (g.fn ≠ f) || imageDue s g).map (fun g => if g.fn = f then { g with stale := true } else g) ∧ (∀ g, g ≠ f → fnOf t g = fnOf s g) ∧
      fnOf t f = { fnOf s f with progBase := (fnOf t f).progBase, heldWr := none } ∧
      t = { s with hif := { s.hif with fns := t.hif.fns }, cpu := { s.cpu with images := t.cpu.images } }

/-- R238's order, DISPATCH_DECISION, CRITICAL_WAKE_SCAN, CLUSTER_WAKE_DONE, CLUSTER_SLEEP, TOKEN_SEL_WRITE. -/
def Obligations.DispatchAndWake : Prop :=
  (∀ (s : State) (c i : Nat), dispatchPick s c = some i → ∃ t, (i, t) ∈ eligibleToks s c) ∧
  (∀ (s : State) (c : Nat) (u : Nat × Token), u ∈ eligibleToks s c → isCritical s u.2 = true →
    ∃ i t, dispatchPick s c = some i ∧ (i, t) ∈ eligibleToks s c ∧ isCritical s t = true ∧ t.expire.getD 0 ≤ u.2.expire.getD 0) ∧
  (∀ (s : State) (c : Nat) (u : Nat × Token), u ∈ eligibleToks s c → u.2.st = .urgent →
    (∀ v ∈ eligibleToks s c, isCritical s v.2 = false) →
    ∃ i t, dispatchPick s c = some i ∧ (i, t) ∈ eligibleToks s c ∧ t.st = .urgent ∧ u.2.age ≤ t.age) ∧
  (∀ (s : State) (p i : Nat), s.pwr.main = true → s.pwr.mode = .active → s.dbg.pairFault = false → coreFree s p = true →
    s.dbg.inj = none → (checker s p).shadow ≠ .loading → dispatchPick s (p / 9) = some i →
    ∃ t, exec (.dispatchDecision p) s = .next t ∧ core t p = { core s p with given := some i } ∧ (∀ q, q ≠ p → core t q = core s q) ∧
      tok t i = { tok s i with st := .core, urg := decide ((tok s i).st = .urgent), due := none } ∧ (∀ j, j ≠ i → tok t j = tok s j) ∧
      (checker t p).shadow = .loading ∧ (∀ m, m ≠ p → checker t m = checker s m) ∧
      (fnOf t (tok s i).func).pass = (fnOf s (tok s i).func).pass.modify (tok s i).cls
        (fun v => (v + 2 ^ 24 / max 1 (fnOf s (tok s i).func).units) % 2 ^ 48)) ∧
  (∀ s : State, s.pwr.main = true → s.slm.lastWake ≠ tick s →
    (wakeNeeds s = [] → exec .criticalWakeScan s = .next { s with slm := { s.slm with lastWake := tick s } }) ∧
    ∀ it rest, wakeNeeds s = it :: rest →
      let cs := (wakeOrder s it.2).take (((it :: rest).length + 7) / 8)
      ∃ t, exec .criticalWakeScan s = .next t ∧
        t.slm = { s.slm with lastWake := tick s, clusters := t.slm.clusters, forcedWakes := min 0xFFFFFFFF (s.slm.forcedWakes + cs.length) } ∧
        (∀ c x, s.slm.clusters[c]? = some x → t.slm.clusters[c]? = some (if c ∈ cs then .waking else x)) ∧
        t = { s with slm := t.slm, cnt := t.cnt, hif := { s.hif with fns := t.hif.fns }, out := t.out } ∧
        ∀ g, fnOf t g = { fnOf s g with msix := (fnOf t g).msix }) ∧
  (∀ (s : State) (c : Nat), s.pwr.main = true → s.slm.clusters[c]? = some .waking →
    ∃ t, exec (.clusterWakeDone c) s = .next t ∧ t.slm.clusters = s.slm.clusters.set c .awake ∧
      (∀ k, k < 8 → physOf s c k ∉ s.cpu.fenced → core t (physOf s c k) = { core s (physOf s c k) with st := .ask }) ∧
      (∀ p, (∀ k, k < 8 → physOf s c k ≠ p) → core t p = core s p) ∧
      t = { s with slm := { s.slm with clusters := t.slm.clusters, idleSince := t.slm.idleSince }, cpu := { s.cpu with cores := t.cpu.cores } }) ∧
  (∀ (s : State) (c : Nat), maySleep s c = true →
    ∃ t, exec (.clusterSleep c) s = .next t ∧ t.slm.clusters = s.slm.clusters.set c .asleep ∧
      (∀ p, p / 9 = c → core t p = { Core.blank with mem := (core s p).mem }) ∧ (∀ p, p / 9 ≠ c → core t p = core s p) ∧
      t.cpu.scratch = s.cpu.scratch ∧ t.mov.shared = s.mov.shared) ∧
  ∀ (s : State) (v : Nat), s.pwr.main = true → s.hif.linkUp = true → s.pwr.mode ≠ .guard → s.pwr.mode ≠ .start → v < 65536 → s.dbg.inj = none →
    ∃ t, exec (.tokenSelWrite v) s = .next t ∧ t.slm = { s.slm with tokenSel := v, tokenData := tokBytes (tokRecord s v) } ∧
      t = { s with slm := t.slm, hif := { s.hif with fns := t.hif.fns } } ∧ ∀ g, fnOf t g = if g = 0 then { fnOf s 0 with heldWr := none } else fnOf s g

/-- GATE_INPUT, LIFT_RELEASE, DEADLINE_COMMIT, AGE_SCAN. -/
def Obligations.GateAndLift : Prop :=
  (∀ (s : State) (p i st len : Nat), (core s p).st = .release st len → (core s p).tok = some i → s.pwr.main = true →
    (core s p).stores = [] → reqsEnded s p = true → portBusy s p = false → s.dbg.inj = none →
    (core s p).expired = false → (core s p).reset = false → (core s p).dropped = false →
    (∀ e, (tok s i).expire = some e → s.time.refCount ≤ 100 * e) → (tok s i).ordered = false → (tok s i).mirror = false →
    ∃ t ph, exec (.gateInput p) s = .next t ∧ (core t p).st = .run ∧ (core t p).tok = none ∧ (core t p).pc = (core s p).pc ∧
      (core t p).bs = [] ∧ (core t p).pins = [] ∧ (core t p).prog = false ∧
      completes t (tok s i).func (tok s i).ring (cplBytes (dTag (tok s i).desc) st (opClass (dOpcode (tok s i).desc)) ph len (timeField s)
        (tok s i).slot (tok s i).ring (tok s i).replayed)) ∧
  (∀ s : State, s.pwr.main = true → ∃ t, exec .liftRelease s = .next t ∧ (∀ e ∈ t.slm.lift, tick s < e.due ∨ liftEnt e = true) ∧
    ∀ i due ins, s.slm.lift = [⟨.pace i, due, ins⟩] → due ≤ tick s → s.slm.retryWait = [] →
      (tok t i).st = .ready ∧ (tok t i).due = none ∧ t.slm.lift = [] ∧ ∀ j, j ≠ i → tok t j = tok s j) ∧
  (∀ (s : State) (i e : Nat), s.pwr.main = true → (tok s i).expire = some e → 100 * e + 8 ≤ s.time.refCount →
    (tok s i).st = .ready ∨ (tok s i).st = .urgent ∨ (tok s i).st = .liftNb → (tok s i).dispatched = false → (tok s i).ordered = false →
    ∃ t ph, exec .deadlineCommit s = .next t ∧
      completes t (tok s i).func (tok s i).ring (cplBytes (dTag (tok s i).desc) 0x0401 11 ph 0 (timeField s) (tok s i).slot (tok s i).ring
        (tok s i).replayed)) ∧
  ∀ s : State, s.pwr.main = true → tick s % 16 = 0 → s.slm.lastScan ≠ tick s → toksOnce s →
    ∃ t, exec .ageScan s = .next t ∧ t.slm.lastScan = tick s ∧
      (∀ i, (tok s i).st = .ready ∨ (tok s i).st = .urgent → (tok t i).age = ((tok s i).age + 16) % 2 ^ 32) ∧
      (∀ i, (tok s i).st ≠ .ready → (tok s i).st ≠ .urgent → tok t i = tok s i) ∧
      (∀ i, (tok s i).st = .urgent → (tok t i).st = .urgent) ∧
      (∀ i, (tok s i).st = .ready → s.slm.urgThresh ≠ 0 → 16 * s.slm.urgThresh ≤ ((tok s i).age + 16) % 2 ^ 32 → (tok t i).st = .urgent) ∧
      ∀ i, (tok s i).st = .ready → (s.slm.urgThresh = 0 ∨ ((tok s i).age + 16) % 2 ^ 32 < 16 * s.slm.urgThresh) →
        (tok t i).st = .ready ∧
        (if (tok s i).cls < 7 ∧ s.slm.ageThresh.getD (tok s i).cls 0 ≠ 0 ∧ s.slm.ageThresh.getD (tok s i).cls 0 ≤ min 65535 ((tok s i).cage + 1)
         then (tok t i).cls = (tok s i).cls + 1 ∧ (tok t i).cage = 0
         else (tok t i).cls = (tok s i).cls ∧ (tok t i).cage = min 65535 ((tok s i).cage + 1))

/-- LIFT_QUOTA_WRITE (R255). -/
def Obligations.LiftQuotaWrite : Prop :=
  ∀ (s : State) (v : Nat), s.pwr.main = true → s.hif.linkUp = true → s.pwr.mode ≠ .guard → s.pwr.mode ≠ .start →
    ∃ t, exec (.liftQuotaWrite v) s = .next t ∧
      (if v / 2 ^ 9 % 2 ^ 9 = 0 ∨ v % 2 ^ 9 = 0 then
        t.slm.qPace = s.slm.qPace ∧ t.slm.qEnt = s.slm.qEnt ∧ t.slm.qRetry = s.slm.qRetry ∧ t.slm.conflict = s.slm.conflict
      else if 256 < v / 2 ^ 18 % 2 ^ 9 + v / 2 ^ 9 % 2 ^ 9 + v % 2 ^ 9 then
        t.slm.qPace = s.slm.qPace ∧ t.slm.qEnt = s.slm.qEnt ∧ t.slm.qRetry = s.slm.qRetry ∧ t.slm.conflict = true
      else
        t.slm.qPace = v / 2 ^ 18 % 2 ^ 9 ∧ t.slm.qEnt = v / 2 ^ 9 % 2 ^ 9 ∧ t.slm.qRetry = v % 2 ^ 9 ∧ t.slm.conflict = s.slm.conflict) ∧
      t = { s with slm := t.slm, hif := { s.hif with fns := t.hif.fns } } ∧ t.slm.toks = s.slm.toks

/-- MOV_TAIL_WRITE, MOV_RESUME, MOV_ABORT, MOV_BULK_MAP_WRITE, MOVER_READ_ARRIVAL, MOVER_BUS_ERROR, MOVER_BURST_DONE, CREDIT_RESERVE. -/
def Obligations.MoverCommands : Prop :=
  (∀ (s : State) (n value : Nat), regsTake s → n < 64 →
    ((n < 48 ∨ (56 ≤ n ∧ n ≤ 62 ∧ s.kst.fetchRsv = true) ∨ (n = 63 ∧ s.mov.ded.testBit 15 = false)) →
      ∃ t, exec (.movTailWrite n value) s = .next t ∧ t.mov = { s.mov with conflict := true } ∧ movWrote n s t) ∧
    (48 ≤ n → ¬ (56 ≤ n ∧ n ≤ 62 ∧ s.kst.fetchRsv = true) → ¬ (n = 63 ∧ s.mov.ded.testBit 15 = false) →
      ((chan s n).cur ≠ none → (chan s n).asked = true →
        ∃ t, exec (.movTailWrite n value) s = .next t ∧ chan t n = { chan s n with tail := value % 4096 % 2 ^ (chan s n).qlog2 } ∧
          t.mov = { s.mov with chans := t.mov.chans } ∧ movWrote n s t) ∧
      (chanFree (chan s n) → (chan s n).head ≠ value % 4096 % 2 ^ (chan s n).qlog2 → n ≠ 63 →
        (descOk (descAt s ((chan s n).qbase + 32 * (chan s n).head)) = true →
          (paneFresh s n (descAt s ((chan s n).qbase + 32 * (chan s n).head)).func = false → (checker s (144 + n)).shadow ≠ .loading →
            ∃ t, exec (.movTailWrite n value) s = .next t ∧
              chan t n = chanBegins (chan s n) (value % 4096 % 2 ^ (chan s n).qlog2) (descAt s ((chan s n).qbase + 32 * (chan s n).head)) ∧
              (checker t (144 + n)).shadow = .loading ∧
              (shadowPane (checker t (144 + n))).func = (descAt s ((chan s n).qbase + 32 * (chan s n).head)).func ∧
              movWrote n s t)) ∧
        (descOk (descAt s ((chan s n).qbase + 32 * (chan s n).head)) = false →
          ((chan s n).head + 1) % 2 ^ (chan s n).qlog2 = value % 4096 % 2 ^ (chan s n).qlog2 →
            ∃ t, exec (.movTailWrite n value) s = .next t ∧ (chan t n).code = 5 ∧ (chan t n).cur = none ∧
              (chan t n).head = (chan t n).tail ∧
              statWritten ((chan s n).qbase + 32 * (chan s n).head + 24) 5 0 (descAt s ((chan s n).qbase + 32 * (chan s n).head)).len s t ∧
              movWrote n s t))) ∧
    ((chan s n).halted = true → (chan s n).cur = none → (chan s n).reqs = [] → (chan s n).keyq = [] → (chan s n).head = (chan s n).tail →
      ∃ t, exec (.movResume n) s = .next t ∧ chan t n = { chan s n with halted := false } ∧ t.mov = { s.mov with chans := t.mov.chans } ∧
        movWrote n s t) ∧
    (∀ d a, (chan s n).cur = some d → d.statAt = some a → d.port = none → (chan s n).retryWait = false → (chan s n).reqs = [] →
      (atBoundary (chan s n) d = false →
        ∃ t, exec (.movAbort n) s = .next t ∧ chan t n = { chan s n with abort := true } ∧ movWrote n s t) ∧
      (atBoundary (chan s n) d = true → (chan s n).keyq = [] →
        ∃ t, exec (.movAbort n) s = .next t ∧ (chan t n).cur = none ∧ (chan t n).code = 3 ∧ (chan t n).head = (chan s n).tail ∧
          (chan t n).abort = false ∧ statWritten a 3 (chan s n).retries (d.len - (chan s n).put + (chan s n).residue) s t ∧ movFrame n s t ∧
          (∀ e, (fnOf s 0).msix[10]? = some e → e.mask = false → (fnOf s 0).rst = none → Out.msix 0 10 e.addr e.data ∈ t.out)))) ∧
  (∀ (s : State) (value : Nat), regsTake s → ∃ t, exec (.movBulkMapWrite value) s = .next t ∧ (∀ n, chan t n = chan s n) ∧
    (s.kst.fetchRsv = true ∧ (value / 2 ^ 8) % 128 ≠ 0 → t.mov = { s.mov with conflict := true }) ∧
    (¬ (s.kst.fetchRsv = true ∧ (value / 2 ^ 8) % 128 ≠ 0) →
      t.mov = { s.mov with ded := value % 65536, conflict := s.mov.conflict && !value.testBit 31 }) ∧
    t = { s with mov := t.mov, hif := { s.hif with fns := t.hif.fns } } ∧ pfWrote s t) ∧
  (∀ (s : State) (n : Nat) (d : MovDesc) (data : List Byte), s.pwr.main = true →
    (∀ k, lastBeat s n d k → ∃ t b, exec (.moverReadArrival n data) s = .next t ∧
      b = (if (piecesOf d.srcSp d.src d.len d.srcP).isEmpty then beatRead s d.srcSp (d.src + (chan s n).got) k else padTo k data) ∧
      chan t n = { chan s n with asked := false, retries := 0, got := (chan s n).got + k, put := (chan s n).put + k } ∧
      t.mov.shared = mwrite s.mov.shared (d.dst + (chan s n).put) b ∧ movFrame n s t) ∧
    ((chan s n).cur = some d → (chan s n).asked = true → (chan s n).abort = false →
      ((chan s n).retries < s.mov.retryCount → liftAdmits s liftRetry s.slm.qRetry = true →
        ∃ t, exec (.moverBusError n) s = .next t ∧
          chan t n = { chan s n with asked := false, retries := (chan s n).retries + 1, retryWait := true } ∧
          t.slm = { s.slm with lift := s.slm.lift ++ [⟨.retry n, tick s + 2, tick s⟩] } ∧ movFrame n { s with slm := t.slm } t ∧
          t.mov.shared = s.mov.shared) ∧
      (∀ a, s.mov.retryCount ≤ (chan s n).retries → d.statAt = some a → d.port = none → (chan s n).reqs = [] →
        ∃ t, exec (.moverBusError n) s = .next t ∧ (chan t n).halted = true ∧ (chan t n).cur = none ∧ (chan t n).code = 1 ∧
          (chan t n).residue = d.len - (chan s n).put + (chan s n).residue ∧
          statWritten a 1 (chan s n).retries (d.len - (chan s n).put + (chan s n).residue) s t ∧ movFrame n s t)) ∧
    (∀ a, (chan s n).cur = some d → (chan s n).mir = none → d.statAt = some a → d.port = none → (chan s n).reqs = [] → (chan s n).abort = false →
      (chan s n).asked = false → (chan s n).retryWait = false → (chan s n).halted = false → (chan s n).put = d.len →
      burstEnd (chan s n) d = d.len → (chan s n).head = (chan s n).tail → (chan s n).keyq = [] → (chan s n).residue = 0 →
      ∃ t, exec (.moverBurstDone n) s = .next t ∧ (chan t n).cur = none ∧ (chan t n).code = 0 ∧ (chan t n).residue = 0 ∧
        (chan t n).bursts = (chan s n).bursts + 1 ∧ statWritten a 0 (chan s n).retries 0 s t ∧ movFrame n s t)) ∧
  (∀ s : State, s.pwr.main = true → (chan s 63).cur = none → (chan s 63).mir = none → (chan s 63).asked = false →
    s.par.key ≠ none → s.par.txq ≠ [] → s.phl.valid = false →
    ∃ t, exec (.creditReserve 63) s = .next t ∧
      chan t 63 = { chan s 63 with code := 4, retries := 0, residue := mirLen (txTake 240 s.par.txq).1 } ∧
      t.par.resends = satAdd 0xFF s.par.resends 1 ∧ t = { s with par := t.par, mov := { s.mov with chans := t.mov.chans } } ∧
      ∀ n, n ≠ 63 → chan t n = chan s n) ∧
  ∀ (s : State) (p : Nat), s.pwr.main = true → (chan s 63).cur = none → (chan s 63).mir = none → (chan s 63).asked = false →
    s.par.key ≠ none → s.par.txq ≠ [] → s.phl.valid = true → routePort s s.par.addr = some p →
    fCredits (mirLen (txTake 240 s.par.txq).1) ≤ (credOf s p 2).held → (portOf s p).cred.length = 4 →
    ∃ t, exec (.creditReserve 63) s = .next t ∧ 
      chan t 63 = { chan s 63 with
        cred := some p, mir := some ((txTake 240 s.par.txq).1, (txTake 240 s.par.txq).2.1), linkDown := false
        hw := some (mirrorDesc s (txTake 240 s.par.txq).1) } ∧
      t.par = { s.par with txq := (txTake 240 s.par.txq).2.2 } ∧
      credOf t p 2 = { credOf s p 2 with
        held := (credOf s p 2).held - fCredits (mirLen (txTake 240 s.par.txq).1),
        rsv := (credOf s p 2).rsv + fCredits (mirLen (txTake 240 s.par.txq).1) } ∧
      t = { s with par := t.par, phl := t.phl, mov := { s.mov with chans := t.mov.chans } } ∧ ∀ n, n ≠ 63 → chan t n = chan s n

/-- PANE_HR_COMMIT, PANE_LOAD_DONE, PANE_VIO_NEXT. -/
def Obligations.PaneCommands : Prop :=
  (∀ (s : State) (n value : Nat), regsTake s → n < 8 → s.hif.hrStage.length = 8 →
    (commitOverlaps s s.hif.fnSel (staged s n value) = false →
      ∃ t, exec (.paneHrCommit n value) s = .next t ∧
        (fnOf t s.hif.fnSel).regions = (fnOf s s.hif.fnSel).regions.set n (staged s n value) ∧
        (fnOf t s.hif.fnSel).epoch = (fnOf s s.hif.fnSel).epoch + 1 ∧ t.hif.hrStage = s.hif.hrStage.set n (staged s n value) ∧
        (∀ r ∈ (fnOf t s.hif.fnSel).rings, r.fetchHold = false) ∧
        (∀ g, g ≠ s.hif.fnSel → (fnOf t g).regions = (fnOf s g).regions ∧ (fnOf t g).epoch = (fnOf s g).epoch) ∧
        t.mov.checkers = s.mov.checkers ∧ t.mov.paneConflict = s.mov.paneConflict) ∧
    (∀ g q, g ≠ s.hif.fnSel → q ∈ (fnOf s g).regions → regionsOverlap (staged s n value) q = true →
      ∃ t, exec (.paneHrCommit n value) s = .next t ∧ t.mov = { s.mov with paneConflict := true } ∧ pfWrote s t ∧
        t.hif.hrStage = s.hif.hrStage.set n (staged s n value) ∧ t = { s with hif := t.hif, mov := t.mov })) ∧
  (∀ (s : State) (m : Nat), s.pwr.main = true → (checker s m).shadow = .loading → (checker s m).oldCount = 0 →
    (paneFault (shadowPane (checker s m)).regions = none →
      (m < 144 → exec (.paneLoadDone m) s = .next (modChecker m (fun c => { c with shadow := .ready }) s)) ∧
      (144 ≤ m → ∃ t, exec (.paneLoadDone m) s = .next t ∧
        ((chan s (m - 144)).cur = none → (chan s (m - 144)).halted = true →
          activePane (checker t m) = shadowPane (checker s m) ∧ (checker t m).shadow = .empty ∧ ∀ k, k ≠ m → checker t k = checker s k))) ∧
    (∀ i b cause, paneFault (shadowPane (checker s m)).regions = some (i, b, cause) → m < 144 → (core s m).given = none → (core s m).late = none →
      s.mov.vios.length < 64 →
      ∃ t v, exec (.paneLoadDone m) s = .next t ∧ (checker t m).shadow = .refused ∧
        activePane (checker t m) = activePane (checker s m) ∧ t.mov.vios = s.mov.vios ++ [v] ∧
        v.addr = b ∧ v.kind = 5 ∧ v.master = m ∧ v.region = i ∧ v.cause = cause ∧ v.func = (shadowPane (checker s m)).func)) ∧
  ∀ s : State, s.pwr.main = true → s.hif.linkUp = true → s.pwr.mode ≠ .guard →
    (s.mov.vios = [] → exec .paneVioNext s = .next (emit (.reg 0) s)) ∧
    ∀ v rest, s.mov.vios = v :: rest → ∃ t, exec .paneVioNext s = .next t ∧ t.out = s.out ++ [.reg 1] ∧
      t = { s with mov := { s.mov with vios := rest, vioData := t.mov.vioData }, out := t.out } ∧ t.mov.vioData.length = 32 ∧
      leAt t.mov.vioData 0 8 = v.addr % 2 ^ 64 ∧ leAt t.mov.vioData 16 1 = v.kind % 256 ∧ leAt t.mov.vioData 17 1 = v.master % 256 ∧
      leAt t.mov.vioData 18 1 = v.region % 256 ∧ leAt t.mov.vioData 19 1 = v.cause % 256 ∧ leAt t.mov.vioData 20 2 = v.func % 65536 ∧
      leAt t.mov.vioData 24 4 = v.len % 2 ^ 32 ∧ leAt t.mov.vioData 28 4 = v.offset % 2 ^ 32

/-- ENCIPHER, DECIPHER, DES_E1, KEYSTREAM, SUBKEY, GHASH, TAG, TAG_COMPARE. -/
def Obligations.BlockLane : Prop :=
  ∀ (s : State) (n p : Nat) (r : LaneReq) (len i : Nat) (e : KEnt), blockRuns s n p r len i e →
    (∀ data, rOp r = 0 → oneBlock r len (blkSize (algAes e.alg)) → 1 ≤ laneUses s r → rDst r = 0 →
      ∃ t, exec (.encipher n p 0 data) s = .next t ∧ memKept p s t ∧
        blockDone s n p r i e 0 (blkEnc (algAes e.alg) e.mat (blockIn r len)) 1 (lanePort s n p) t) ∧
    (∀ data, rOp r = 1 → oneBlock r len (blkSize (algAes e.alg)) → 1 ≤ laneUses s r → rDst r = 0 →
      ∃ t, exec (.decipher n p 0 data) s = .next t ∧ memKept p s t ∧
        blockDone s n p r i e 0 (if rFb r = 1 then xorBytes (blkDec (algAes e.alg) e.mat (blockIn r len)) (padTo len (reqChain r))
          else blkDec (algAes e.alg) e.mat (blockIn r len)) 1 (lanePort s n p) t) ∧
    (∀ data, rOp r = 2 → oneBlock r len 8 → 1 ≤ laneUses s r → rDst r = 0 →
      ∃ t, exec (.desE1 n p 0 data) s = .next t ∧ memKept p s t ∧
        blockDone s n p r i e 0 (desEnc (e.mat.take 8) (blockIn r 8)) 1 (lanePort s n p) t) ∧
    (∀ data, rOp r = 4 → rSrc r = 0 → rPad r = 0 → rSub r = 0 → rDst r = 0 → 1 ≤ laneUses s r →
      ∃ t, exec (.keystream n p 0 data) s = .next t ∧ memKept p s t ∧
        blockDone s n p r i e 0 ((xorBytes ((reqData r).take len) (aesEnc e.mat (reqCtr r))).take len) 1 (lanePort s n p) t) ∧
    (∀ data, rOp r = 0 → rSrc r = 1 → rDst r = 1 → rPad r = 0 → rSub r = 0 → rXin r = false → len % blkSize (algAes e.alg) = 0 →
      laneRefusal s r (some (r.ain, len)) (some (r.aout, len)) = none → len / blkSize (algAes e.alg) ≤ laneUses s r →
      ∃ t, exec (.encipher n p 0 data) s = .next t ∧
        coreWrote s t p r.aout ((chunks (blkSize (algAes e.alg)) (laneInput s p r.ain len data)).flatMap (blkEnc (algAes e.alg) e.mat)) ∧
        blockDone s n p r i e 0 [] (len / blkSize (algAes e.alg)) (lanePort s n p) t) ∧
    (∀ data, rOp r = 1 → oneBlock r len (blkSize (algAes e.alg)) → 1 ≤ laneUses s r → rDst r = 2 → rFb r = 0 →
      laneRefusal s r none (some (r.aout, len)) = none → (quarBytes (lanePort s n p).quar).length + len ≤ 16384 →
      ((laneOf s n).ports.map fun x => (quarBytes x.2.quar).length).sum + len ≤ 65536 →
      ∃ t, exec (.decipher n p 0 data) s = .next t ∧ memKept p s t ∧ blockDone s n p r i e 0 [] 1 { lanePort s n p with
        quar := (lanePort s n p).quar ++ [⟨r.aout, blkDec (algAes e.alg) e.mat (blockIn r len), i⟩] } t) ∧
    (rOp r = 5 → 1 ≤ laneUses s r →
      ∃ t, exec (.subkey n p 0) s = .next t ∧ memKept p s t ∧ blockDone s n p r i e 0 [] 1 { lanePort s n p with
        subkey := some (blkEnc (algAes e.alg) e.mat (zeroBytes (blkSize (algAes e.alg)))) } t) ∧
    (∀ data h, rOp r = 6 → rSrc r = 0 → rPad r = 4 → (lanePort s n p).subkey = some h →
      ∃ t, exec (.ghash n p 0 data) s = .next t ∧ memKept p s t ∧ blockDone s n p r i e 0 [] 0 { lanePort s n p with
        acc := ghashAbsorb (BitVec.ofNat 128 (beNat (padTo 16 h))) (lanePort s n p).acc (padTo 16 ((reqData r).take len)) } t) ∧
    (rOp r = 8 → 1 ≤ laneUses s r →
      ∃ t, exec (.tag n p 0) s = .next t ∧ memKept p s t ∧
        blockDone s n p r i e 0 ((xorBytes (aesEnc e.mat (reqCtr r)) (blkBytes (lanePort s n p).acc)).take len) 1 { lanePort s n p with acc := 0 } t) ∧
    (rOp r = 7 → 1 ≤ laneUses s r →
      ((xorBytes (aesEnc e.mat (reqCtr r)) (blkBytes (lanePort s n p).acc)).take len = (reqChain r).take len →
        ∃ t, exec (.tagCompare n p 0) s = .next t ∧ blockDone s n p r i e 0 [] 1 { lanePort s n p with acc := 0, quar := [] } t ∧
          ((lanePort s n p).quar = [] → memKept p s t) ∧ ∀ a d k, (lanePort s n p).quar = [⟨a, d, k⟩] → coreWrote s t p a d) ∧
      ((xorBytes (aesEnc e.mat (reqCtr r)) (blkBytes (lanePort s n p).acc)).take len ≠ (reqChain r).take len →
        ∃ t, exec (.tagCompare n p 0) s = .next t ∧ memKept p s t ∧ (s.cnt.ctrs = [] → t.out = s.out) ∧
          blockDone s n p r i e 1 [] 1 { lanePort s n p with acc := 0, quar := [] } t))

/-- The digest commands, SLH-DSA signing and verification. -/
def Obligations.HashLane : Prop :=
  (∀ c ∈ hashRows, ∀ (s : State) (n p : Nat) (r : LaneReq) (data : List Byte), 16 ≤ n → n < 24 → laneRuns s n p r →
    bitsOf (wOp r) 5 0 = c.2 → wReserved r = false → r.len ≤ 65536 →
    (bitsOf (wOp r) 7 6 = 0 → hashOlenOk c.2 r.olen = true → laneRefusal s r (some (r.ain, r.len)) (some (r.aout, r.olen)) = none →
      ∃ t, exec (c.1 n p 0 data) s = .next t ∧ coreWrote s t p r.aout (hashFn c.2 (laneInput s p r.ain r.len data) r.olen) ∧
        hashDone s n p r 0 (wCtx r) (ctxAt s n (wCtx r)) t ∧ keysKept p s t) ∧
    (bitsOf (wOp r) 7 6 = 1 → ctxAt s n (wCtx r) = none → laneRefusal s r (some (r.ain, r.len)) none = none →
      ∃ t, exec (c.1 n p 0 data) s = .next t ∧ memKept p s t ∧
        hashDone s n p r 0 (wCtx r) (some ⟨p, c.2, laneInput s p r.ain r.len data⟩) t ∧ keysKept p s t) ∧
    (∀ m, ctxAt s n (wCtx r) = some ⟨p, c.2, m⟩ →
      (bitsOf (wOp r) 7 6 = 2 → laneRefusal s r (some (r.ain, r.len)) none = none →
        ∃ t, exec (c.1 n p 0 data) s = .next t ∧ memKept p s t ∧
          hashDone s n p r 0 (wCtx r) (some ⟨p, c.2, m ++ laneInput s p r.ain r.len data⟩) t ∧ keysKept p s t) ∧
      (bitsOf (wOp r) 7 6 = 3 → hashOlenOk c.2 r.olen = true → laneRefusal s r (some (r.ain, r.len)) (some (r.aout, r.olen)) = none →
        ∃ t, exec (c.1 n p 0 data) s = .next t ∧ coreWrote s t p r.aout (hashFn c.2 (m ++ laneInput s p r.ain r.len data) r.olen) ∧
          hashDone s n p r 0 (wCtx r) none t ∧ keysKept p s t)) ∧
    (bitsOf (wOp r) 7 6 = 1 ∧ ctxAt s n (wCtx r) ≠ none ∨
      bitsOf (wOp r) 7 6 = 2 ∧ ctxAt s n (wCtx r) = none → ∃ t, exec (c.1 n p 0 data) s = .next t ∧ memKept p s t ∧
        hashDone s n p r 8 (wCtx r) (ctxAt s n (wCtx r)) t ∧ keysKept p s t)) ∧
  (∀ c ∈ slhOps, ∀ (s : State) (n p : Nat) (r : LaneReq) (data : List Byte) (seed : Bytes), 16 ≤ n → n < 24 → laneRuns s n p r →
    bitsOf (wOp r) 5 0 = c.2.1 → wReserved r = false → 1 ≤ r.len → r.len ≤ 65536 → r.olen = slhLen c.2.2.1 → (core s p).prog = false →
    r.key ∈ c.2.2.2 → devSeed s r.key = some seed → laneRefusal s r (some (r.ain, r.len)) (some (r.aout, r.olen)) = none →
    ∃ t, exec (c.1 n p 0 data) s = .next t ∧ coreWrote s t p r.aout (slhSign c.2.2.1 seed (laneInput s p r.ain r.len data)) ∧
      hashDone s n p r 0 (wCtx r) (ctxAt s n (wCtx r)) t ∧ keysKept p s t) ∧
  ∀ c ∈ slhVerifyOps, ∀ (s : State) (n p i : Nat) (r : LaneReq) (data : List Byte) (e : KEnt), 16 ≤ n → n < 24 → laneRuns s n p r →
    bitsOf (wOp r) 5 0 = c.2.1 → wReserved r = false → r.olen = 0 → slhLen c.2.2 < r.len → laneKey s r = some (i, e) →
    keyBad s i e = false → e.kind = 2 → e.mat.length = 64 → 1 ≤ laneUses s r → laneRefusal s r (some (r.ain, r.len)) none = none →
    ∃ t, exec (c.1 n p 0 data) s = .next t ∧ memKept p s t ∧
      hashDone s n p r (if slhVerify c.2.2 e.mat ((laneInput s p r.ain r.len data).drop (slhLen c.2.2))
        ((laneInput s p r.ain r.len data).take (slhLen c.2.2)) then 0 else 1) (wCtx r) (ctxAt s n (wCtx r)) t ∧
      laneUses t r = laneUses s r - 1 ∧ usesTaken s t i 1 e

/-- RSA_PRIVATE, RSA_PUBLIC, ECDSA_SIGN, ECDSA_VERIFY, ECDH, RSA_KEY_PAIR, EC_KEY_PAIR, ML_KEM_KEYGEN, ML_KEM_ENCAPS, ML_KEM_DECAPS. -/
def Obligations.AsymmetricLanes : Prop :=
  (∀ (s : State) (n p i : Nat) (r : LaneReq) (e : KEnt) (data : List Byte), e.kind = 1 → algRsa e.alg = true → r.len = rsaLen e.alg →
    beNat (laneInput s p r.ain r.len data) < beAt e.mat 0 (rsaLen e.alg) → keyedRuns s n p 1 r i e →
    (e.usage = chars2 'S' '0' → r.olen = r.len → laneRefusal s r (some (r.ain, r.len)) (some (r.aout, r.len)) = none →
      ∃ t, exec (.rsaPrivate n p 0 data) s = .next t ∧ asymPlain s n p r 0 i 1 e t ∧
        coreWrote s t p r.aout (beBytes r.len (rsaPrivMat e.alg e.mat (beNat (laneInput s p r.ain r.len data))))) ∧
    (e.usage ≠ chars2 'S' '0' → laneRefusal s r (some (r.ain, r.len)) none = none →
      ∃ t, exec (.rsaPrivate n p 0 data) s = .next t ∧ memKept p s t ∧
        laneUses t r = laneUses s r - 1 ∧
        asymKey s n p r 0 15 (beBytes r.len (rsaPrivMat e.alg e.mat (beNat (laneInput s p r.ain r.len data)))) t)) ∧
  (∀ (s : State) (n p i : Nat) (r : LaneReq) (e : KEnt) (data : List Byte), e.kind ≠ 0 → algRsa e.alg = true → r.len = rsaLen e.alg →
    r.olen = r.len → beNat (laneInput s p r.ain r.len data) < beAt e.mat 0 (rsaLen e.alg) → keyedRuns s n p 2 r i e →
    laneRefusal s r (some (r.ain, r.len)) (some (r.aout, r.len)) = none →
    ∃ t, exec (.rsaPublic n p 0 data) s = .next t ∧ asymPlain s n p r 0 i 1 e t ∧
      coreWrote s t p r.aout (beBytes r.len (rsaPub (beAt e.mat 0 r.len) (beAt e.mat r.len 4) (beNat (laneInput s p r.ain r.len data))))) ∧
  (∀ (s : State) (n p i : Nat) (r : LaneReq) (e : KEnt) (data : List Byte), algEcc e.alg = true →
    (e.kind = 1 → e.usage = chars2 'S' '0' → e.mode = 0x53 ∨ e.mode = 0x4E → r.len = 32 ∨ r.len = 48 → r.olen = 2 * (curveOf e.alg).len → drawReady s p →
      laneRefusal s r (some (r.ain, r.len)) (some (r.aout, r.olen)) = none → keyedRuns s n p 3 r i e →
      ∃ t, exec (.ecdsaSign n p 0 data) s = .next t ∧ asymPlain s n p r 0 i 1 e t ∧
        coreWrote s t p r.aout ((ecdsaSign (curveOf e.alg) (beAt e.mat 0 (curveOf e.alg).len)
          (ecScalar (curveOf e.alg) (drawn s p ((curveOf e.alg).len + 8))) (laneInput s p r.ain r.len data)).getD
            (zeroBytes (2 * (curveOf e.alg).len)))) ∧
    (∀ dl, e.kind = 2 → dl = 32 ∨ dl = 48 → r.len = dl + 2 * (curveOf e.alg).len → r.olen = 0 → keyedRuns s n p 4 r i e →
      laneRefusal s r (some (r.ain, r.len)) none = none →
      ∃ t, exec (.ecdsaVerify n p 0 data) s = .next t ∧ memKept p s t ∧
        asymPlain s n p r (if ecdsaVerify (curveOf e.alg) e.mat ((laneInput s p r.ain r.len data).take dl) ((laneInput s p r.ain r.len data).drop dl)
          then 0 else 1) i 1 e t) ∧
    (e.kind = 1 → (core s p).prog = false → r.len = 2 * (curveOf e.alg).len → r.olen = 0 → laneRefusal s r (some (r.ain, r.len)) none = none →
      keyedRuns s n p 5 r i e →
      (∀ x y, ecOn (curveOf e.alg) (beAt (laneInput s p r.ain r.len data) 0 (curveOf e.alg).len)
          (beAt (laneInput s p r.ain r.len data) (curveOf e.alg).len (curveOf e.alg).len) = true →
        ecMul (curveOf e.alg) (beAt e.mat 0 (curveOf e.alg).len) (some (beAt (laneInput s p r.ain r.len data) 0 (curveOf e.alg).len,
          beAt (laneInput s p r.ain r.len data) (curveOf e.alg).len (curveOf e.alg).len)) = some (x, y) →
        ∃ t, exec (.ecdh n p 0 data) s = .next t ∧ memKept p s t ∧ laneUses t r = laneUses s r - 1 ∧
          asymKey s n p r 0 15 (beBytes (curveOf e.alg).len x) t) ∧
      (ecOn (curveOf e.alg) (beAt (laneInput s p r.ain r.len data) 0 (curveOf e.alg).len)
          (beAt (laneInput s p r.ain r.len data) (curveOf e.alg).len (curveOf e.alg).len) = false →
        ∃ t, exec (.ecdh n p 0 data) s = .next t ∧ memKept p s t ∧ asymPlain s n p r 2 i 0 e t))) ∧
  (∀ (s : State) (n p : Nat) (r : LaneReq), 24 ≤ n → n < 28 → laneRuns s n p r → wReserved r = false → (core s p).prog = false →
    laneRefusal s r none (some (r.aout, r.olen)) = none →
    (∀ x y e m, wOp r = 6 → r.len = 256 ∨ r.len = 384 ∨ r.len = 512 → r.olen = r.len + 4 → e % 2 = 1 → 3 ≤ e → e < 2 ^ 32 →
      rsaMaterial r.len x y e = some m →
      ∃ t, exec (.rsaKeyPair n p 0 x y e) s = .next t ∧ coreWrote s t p r.aout (m.take (r.len + 4)) ∧ asymKey s n p r 1 (r.len / 128 + 4) m t) ∧
    (∀ c, wOp r = 7 → r.len = 32 ∧ c = p256 ∨ r.len = 48 ∧ c = p384 → r.olen = 2 * r.len → drawReady s p →
      ∃ t, exec (.ecKeyPair n p 0) s = .next t ∧
        coreWrote s t p r.aout (ecBytes c (ecMul c (ecScalar c (drawn s p (c.len + 8))) (ecG c))) ∧
        asymKey s n p r 1 (if r.len = 32 then 9 else 10) (beBytes c.len (ecScalar c (drawn s p (c.len + 8))) ++
          ecBytes c (ecMul c (ecScalar c (drawn s p (c.len + 8))) (ecG c))) t)) ∧
  ∀ (s : State) (n p set : Nat) (r : LaneReq) (data : List Byte),
    (latRuns s n p 1 set r → r.olen = kemEkLen set → laneRefusal s r none (some (r.aout, r.olen)) = none → drawReady s p → cerFree s ≠ none →
      ∃ t, exec (.mlKemKeygen n p 0) s = .next t ∧ coreWrote s t p r.aout (kemKeygen set ((drawn s p 64).take 32) ((drawn s p 64).drop 32)).1 ∧
        asymKey s n p r 1 (if set = 3 then 11 else 15) (kemKeygen set ((drawn s p 64).take 32) ((drawn s p 64).drop 32)).2 t) ∧
    (latRuns s n p 2 set r → r.len = kemEkLen set → r.olen = kemCtLen set → drawReady s p →
      kemEkOk set (laneInput s p r.ain r.len data) = true →
      laneRefusal s r (some (r.ain, r.len)) (some (r.aout, r.olen)) = none →
      ∃ t, exec (.mlKemEncaps n p 0 data) s = .next t ∧
        coreWrote s t p r.aout (kemEncaps set (laneInput s p r.ain r.len data) (drawn s p 32)).1 ∧
        asymKey s n p r 0 15 (kemEncaps set (laneInput s p r.ain r.len data) (drawn s p 32)).2 t) ∧
    (∀ dk, latRuns s n p 3 set r → r.len = kemCtLen set → kemKey s r = some dk → dk.length = 2 * kemEkLen set + 32 →
      laneRefusal s r (some (r.ain, r.len)) none = none →
      ∃ t, exec (.mlKemDecaps n p 0 data) s = .next t ∧ memKept p s t ∧
        asymKey s n p r 0 15 (kemDecaps set dk (laneInput s p r.ain r.len data)) t)

/-- LANE_OP_COMPLETE, LANE_SPARE_SWAP, HASH_LANE_WAKE, and requests on a lane that is fenced or fails. -/
def Obligations.LaneEnds : Prop :=
  (∀ (s : State) (n p st : Nat) (r : LaneReq) (out : Bytes), (laneOf s n).queue.find? (fun q => decide (q.core = p)) = some r →
    r.done = some (st, out) → r.lost = false → ∃ t, exec (.laneOpComplete n p) s = .next t ∧
      (laneOf t n).queue = (laneOf s n).queue.filter (fun q => decide (q.tag ≠ r.tag)) ∧
      (∀ x ∈ (core s p).reqs, x.tag = r.tag → { x with done := some (st, out), arrived := s.time.refCount } ∈ (core t p).reqs) ∧
      (∀ x ∈ (core s p).reqs, x.tag ≠ r.tag → x ∈ (core t p).reqs) ∧ core t p = { core s p with reqs := (core t p).reqs } ∧
      (∀ m, m ≠ n → laneOf t m = laneOf s m) ∧ (∀ q, q ≠ p → core t q = core s q) ∧
      laneOf t n = { laneOf s n with queue := (laneOf t n).queue } ∧
      t = { s with lanes := { s.lanes with lanes := t.lanes.lanes }, cpu := { s.cpu with cores := t.cpu.cores } }) ∧
  (∀ (s : State) (n p : Nat) (r : LaneReq), (laneOf s n).queue.find? (fun q => decide (q.core = p)) = some r → r.lost = true →
    ∃ t, exec (.laneOpComplete n p) s = .next t ∧ (laneOf t n).queue = (laneOf s n).queue.filter (fun q => decide (q.tag ≠ r.tag)) ∧
      t = { s with lanes := { s.lanes with lanes := t.lanes.lanes } } ∧ ∀ m, m ≠ n → laneOf t m = laneOf s m) ∧
  (∀ (s : State) (p : Nat) (port key ctl len olen ain aout : W32) (r : List W32),
    slotReady s p (port :: key :: ctl :: len :: olen :: ain :: aout :: r) → port.toNat < 24 → (core s p).prog = false →
    issueEntries port.toNat ctl.toNat ≤ (core s p).bs.length → (core s p).reqs.length < 32 →
    (laneOf s port.toNat).fenced = true → laneFull s port.toNat = false →
    ∃ t q, exec (.opIssue p) s = .next t ∧ (laneOf t port.toNat).queue = (laneOf s port.toNat).queue ++ [q] ∧ q.core = p ∧
      q.tag = s.cpu.tagNo ∧ q.done = some (7, []) ∧ ∀ n, n ≠ port.toNat → laneOf t n = laneOf s n) ∧
  (∀ (s : State) (n p : Nat) (r : LaneReq) (data : List Byte), n < 16 → lanePick s n = some p → laneNext s n p = some r → lanesOn s = true → rOp r = 0 →
    ((laneOf s n).fenced = false → ∃ t, exec (.encipher n p 4 data) s = .next t ∧ laneFencedNow s t n ∧
      (∀ m, m ≠ n → laneOf t m = laneOf s m) ∧ t.lanes.blkFenced.testBit (lanePhys s n) = true ∧ t.cpu = s.cpu ∧ t.mov = s.mov ∧ t.kst = s.kst) ∧
    ((laneOf s n).fenced = false → r.twin = true → s.dbg.inj = none →
      ∃ t, exec (.encipher n p 2 data) s = .next t ∧ laneFencedNow s t (lanePartner s n) ∧ (laneOf t n).fenced = false ∧
        t.lanes.mismatches = min 65535 (s.lanes.mismatches + 1))) ∧
  (∀ (s : State) (n x : Nat), (laneOf s n).fenced = true → spareFor s n = some x →
    ∃ t, exec (.laneSpareSwap n) s = .next t ∧
      laneOf t n = { laneOf s n with phys := some x, fenced := false, slots := [], drops := [] } ∧
      (n < 16 → (x = 16 ∨ x = 17) ∧ s.lanes.blkFenced.testBit x = false ∧ t.lanes.blkSpares = s.lanes.blkSpares - 1 ∧
        t.lanes.hashSpare = s.lanes.hashSpare) ∧
      (16 ≤ n → x = 8 ∧ s.lanes.hashFenced.testBit x = false ∧ t.lanes.hashSpare = false ∧ t.lanes.blkSpares = s.lanes.blkSpares) ∧
      (∀ m, m ≠ n → laneOf t m = laneOf s m) ∧ t = { s with lanes := t.lanes }) ∧
  ∀ (s : State) (n : Nat), 16 ≤ n → n < 24 → s.pwr.hashAsleep.testBit (n - 16) = true → (laneOf s n).queue ≠ [] →
    ∃ t, exec (.hashLaneWake n) s = .next t ∧ t.pwr.hashAsleep.testBit (n - 16) = false ∧
      (∀ k, k ≠ n - 16 → t.pwr.hashAsleep.testBit k = s.pwr.hashAsleep.testBit k) ∧
      t = { s with pwr := { s.pwr with hashAsleep := t.pwr.hashAsleep } }

/-- KEY_MISS_START, KEY_DIR_ARRIVAL, KEY_BLOCK_ARRIVAL, KEY_INSTALL, KEY_FETCH_TIMEOUT, KEY_FETCH_FAIL. -/
def Obligations.KeyMisses : Prop :=
  ∀ (s : State) (id : Nat) (m : Miss), missAt s id = some m → s.pwr.main = true → s.dbg.inj = none →
    (m.stage = .wait → missTable s < 1024 → (lmkOf s m.fn).loaded = true → m.index ≠ 0 → chanIdle s (fetchOn s id) →
      tagFree s (fetchOn s id) = true →
      hostRefusal s (keyChannel s id) m.fn ((fnOf s m.fn).dirBase + 16 * m.index) 16 false = none →
      ∃ t, exec (.keyMissStart id) s = .next t ∧
        missAsks s id { m with stage := .dir, start := some (m.start.getD (tick s)) } ((fnOf s m.fn).dirBase + 16 * m.index) 16 (fetchOn s id) t) ∧
    (∀ d n u, m.stage = .dir → u = keyFree n true s → fetchEnds s u id n m →
      (leAt d 10 1 = m.gen → dirGood m d → chanIdle u (fetchOn u id) → tagFree u (fetchOn u id) = true →
        hostRefusal u (keyChannel u id) m.fn (leAt d 0 8) (leAt d 8 2) false = none →
        ∃ t, exec (.keyDirArrival id d) s = .next t ∧
          missAsks u id { m with stage := .block, ptr := leAt d 0 8, len := leAt d 8 2 } (leAt d 0 8) (leAt d 8 2) (fetchOn u id) t) ∧
      (leAt d 10 1 ≠ m.gen → ∃ t, exec (.keyDirArrival id d) s = .next t ∧ missEnds u id m (some 0x0202) t) ∧
      (leAt d 10 1 = m.gen → leAt d 11 1 % 16 ≠ m.kind → ∃ t, exec (.keyDirArrival id d) s = .next t ∧ missEnds u id m (some 0x0203) t) ∧
      (leAt d 10 1 = m.gen → leAt d 11 1 % 16 = m.kind → ¬ dirGood m d →
        ∃ t, exec (.keyDirArrival id d) s = .next t ∧ missEnds u id m (some 0x0205) t)) ∧
    (∀ d n u e, m.stage = .block → u = keyFree n true s → fetchEnds s u id n m → e = 100 * (m.start.getD 0 + s.kst.fetchTimeout) →
      (∀ k v, lmkUnwrap u m.fn m.index m.gen m.kind (padTo m.len d) = .ok k v →
        ∃ t, exec (.keyBlockArrival id d) s = .next t ∧ missAt t id = some { m with stage := .install, key := some k, uses := v } ∧
          (∀ j, j ≠ id → missAt t j = missAt s j) ∧ t.kst.keys = s.kst.keys ∧ (∀ g, g ≠ m.fn → fnOf t g = fnOf u g) ∧
          fnOf t m.fn = { fnOf u m.fn with
            races := if e < s.time.refCount + 100 then min 0xFFFFFFFF ((fnOf s m.fn).races + 1) else (fnOf s m.fn).races } ∧
          t = { u with
            kst := { u.kst with misses := t.kst.misses }
            hif := { u.hif with fns := t.hif.fns } }) ∧
      (lmkUnwrap u m.fn m.index m.gen m.kind (padTo m.len d) = .bad → s.time.refCount + 100 ≤ e →
        ∃ t, exec (.keyBlockArrival id d) s = .next t ∧ missEnds u id m (some 0x0205) t) ∧
      (∀ k, lmkUnwrap u m.fn m.index m.gen m.kind (padTo m.len d) = .set k →
        ∃ t, exec (.keyBlockArrival id d) s = .next t ∧ missAt t id = none ∧ (lmkOf t m.fn).loaded = false ∧
          (lmkOf t m.fn).s0.key = none ∧ (lmkOf t m.fn).s1.key = none ∧
          ∀ p, m.toks = [] → m.cores = [(p, m.gen)] → (core s p).st = .kres → (core t p).st = .run ∧ (core t p).kstat = some 0x020A)) ∧
    (∀ k, m.stage = .install → m.key = some k → m.uses = none → k.ledger = none → ledgerOf s (keyIdent k.func k.alg k.mat) = none →
      (∀ x ∈ s.kst.keys, ¬ (x.2.func = m.fn ∧ x.2.index = m.index)) →
      fnEntries s k.func + 1 + extCount k.alg k.mat.length ≤ (shareOf s k.func).keys →
      ∃ t i ext, exec (.keyInstall id) s = .next t ∧ keyAt t i = some (keySeal s.kst.intKey i { k with ext := ext, used := s.kst.useNo }) ∧
        ext.length = extCount k.alg k.mat.length ∧ (i :: ext).Nodup ∧ (∀ j ∈ i :: ext, 0x2000 ≤ j ∧ j ∉ usedEntries s) ∧
        (∀ j, j ≠ i → keyAt t j = keyAt s j) ∧ missAt t id = none ∧ (∀ j, j ≠ id → missAt t j = missAt s j) ∧
        (∀ p, m.toks = [] → m.cores = [(p, m.gen)] → (core s p).st = .kres → core t p = { core s p with st := .run, kstat := none })) ∧
    (∀ st0, m.start = some st0 → m.stage ≠ .install → 100 * (st0 + s.kst.fetchTimeout) + 8 ≤ s.time.refCount →
      ∃ t, exec (.keyFetchTimeout id) s = .next t ∧
        missEnds (if m.stage = .vault ∧ vaultShared s m = false then vaultForget m.fn s else s) id m (some 0x0402) t) ∧
    (∀ n u, m.stage = .dir ∨ m.stage = .block → u = keyFree n false s → fetchEnds s u id n m →
      ∃ t, exec (.keyFetchFail id) s = .next t ∧ missEnds u id m (some 0x0209) t) ∧
    (m.stage = .vault → fetchChan s id = none → missLate s m = false →
      ∃ t, exec (.keyFetchFail id) s = .next t ∧ (∀ x ∈ vaultMisses s m.fn, missAt t x.id = none) ∧
        (lmkOf t m.fn).s0.wait = false ∧ (lmkOf t m.fn).s1.wait = false)

/-- VAULT_BLOB_ARRIVAL, KEY_DIR_WRITE, KEY_SLOT_DROP, KST_CTL_WRITE, MISS_WINDOW_END, BUDGET_SLOT_EXPIRY. -/
def Obligations.KeyStoreCommands : Prop :=
  (∀ (s : State) (f n : Nat) (b : List Byte), s.pwr.main = true → n ≤ 1 → (lmkSlot (lmkOf s f) n).wait = true → vaultMisses s f ≠ [] →
    (∀ k, gcmDec s.kst.vaultKey (slice b 16 12) (slice b 0 32) (slice b 32 48) = some k → leAt b 0 2 = f → leAt b 2 1 = n →
      leAt b 4 4 = (lmkSlot (lmkOf s f) n).version → leAt b 3 1 ≠ 0 →
      ∃ t, exec (.vaultBlobArrival f n b) s = .next t ∧
        lmkSlot (lmkOf t f) n = { lmkSlot (lmkOf s f) n with
          wait := false, key := some k, role := leAt b 3 1, gen := leAt b 8 2, kbek := kbDerive 5 k 0, kbak := kbDerive 5 k 1, bad := false } ∧
        lmkSlot (lmkOf t f) (1 - n) = lmkSlot (lmkOf s f) (1 - n) ∧
        ((lmkOf t f).loaded = ((lmkOf s f).loaded || !(lmkSlot (lmkOf s f) (1 - n)).wait)) ∧ (∀ g, g ≠ f → lmkOf t g = lmkOf s g) ∧
        ((lmkSlot (lmkOf s f) (1 - n)).wait = true →
          t = { chanDone (vaultMaster f) 0 128 s with kst := { s.kst with lmks := t.kst.lmks } })) ∧
    (gcmDec s.kst.vaultKey (slice b 16 12) (slice b 0 32) (slice b 32 48) = none ∨ leAt b 0 2 ≠ f ∨ leAt b 2 1 ≠ n ∨
        leAt b 4 4 ≠ (lmkSlot (lmkOf s f) n).version →
      ∃ t, exec (.vaultBlobArrival f n b) s = .next t ∧
        lmkSlot (lmkOf t f) n = { lmkSlot (lmkOf s f) n with wait := false, key := none, role := 0, kbek := [], kbak := [], bad := false } ∧
        lmkSlot (lmkOf t f) (1 - n) = lmkSlot (lmkOf s f) (1 - n) ∧ (∀ g, g ≠ f → lmkOf t g = lmkOf s g) ∧
        ((lmkSlot (lmkOf s f) (1 - n)).wait = true →
          reportFrame { chanDone (vaultMaster f) 0 128 s with kst := { s.kst with lmks := t.kst.lmks } } t) ∧
        ((lmkSlot (lmkOf s f) (1 - n)).wait = false → (lmkSlot (lmkOf s f) (1 - n)).key = none → ∀ m ∈ vaultMisses s f, missAt t m.id = none))) ∧
  (∀ (s : State) (f reg value : Nat), pageOpen s f = true → f ≠ 0 → (fnOf s f).rst = none → (reg = 0 ∨ value % 2 ^ 21 ≤ 1048576) →
    (s.kst.keys.map fun e => e.1).Nodup →
    ∃ t, exec (.keyDirWrite f reg value) s = .next t ∧
      (fnOf t f).dirBase = (dirTook (fnOf s f) reg value).dirBase ∧ (fnOf t f).dirSize = (dirTook (fnOf s f) reg value).dirSize ∧
      (∀ g, g ≠ f → fnOf t g = fnOf s g) ∧ (∀ x ∈ t.kst.keys, x.2.func = f → x.2.doomed = true ∧ keyPinned s x.1 = true) ∧
      (∀ x ∈ s.kst.keys, x.2.func ≠ f → x ∈ t.kst.keys) ∧ (∀ m ∈ t.kst.misses, m.fn = f → m.stage = .vault ∨ m.stage = .wait) ∧
      (∀ m ∈ s.kst.misses, m.fn ≠ f → m ∈ t.kst.misses) ∧ t.cpu = s.cpu ∧ t.mov = s.mov ∧ t.slm = s.slm) ∧
  (∀ (s : State) (n i : Nat), s.pwr.main = true → i ∈ (laneOf s n).drops →
    ∃ t, exec (.keySlotDrop n i) s = .next t ∧
      laneOf t n = { laneOf s n with drops := (laneOf s n).drops.filter (fun j => decide (j ≠ i)), slots := (laneOf t n).slots } ∧
      (∀ x, x ∈ (laneOf t n).slots ↔ x ∈ (laneOf s n).slots ∧ x.index ≠ i) ∧ (∀ m, m ≠ n → laneOf t m = laneOf s m) ∧
      t = { s with lanes := { s.lanes with lanes := t.lanes.lanes } }) ∧
  (∀ (s : State) (value : Nat), regsTake s → ∃ t, exec (.kstCtlWrite value) s = .next t ∧ pfWrote s t ∧
    t.kst = { s.kst with fetchTimeout := max 10 (value / 256 % 65536), fetchRsv := t.kst.fetchRsv } ∧
    (value % 2 = 0 → t.kst.fetchRsv = false ∧ t.mov = s.mov) ∧
    (value % 2 = 1 → s.kst.fetchRsv = true ∨ s.mov.ded / 256 % 128 = 0 → t.kst.fetchRsv = true ∧ t.mov = s.mov) ∧
    (value % 2 = 1 → s.kst.fetchRsv = false → s.mov.ded / 256 % 128 ≠ 0 → t.kst.fetchRsv = false ∧ t.mov = { s.mov with conflict := true }) ∧
    t = { s with
      kst := t.kst
      mov := t.mov
      hif := { s.hif with fns := t.hif.fns } }) ∧
  (∀ (s : State) (f : Nat), s.pwr.main = true → (fnOf s f).missStart < tick s / 1000 * 1000 →
    ∃ t, exec (.missWindowEnd f) s = .next t ∧
      fnOf t f = { fnOf s f with missStart := tick s / 1000 * 1000, missCount := 0, missFired := false } ∧ (∀ g, g ≠ f → fnOf t g = fnOf s g) ∧
      t = { s with hif := { s.hif with fns := t.hif.fns } }) ∧
  ∀ (s : State) (n d : Nat) (b : Budget), ledgerAt s n = some b → b.expiry ≠ 0xFFFFFFFF → s.time.dev = some d → 60000000 * (b.expiry + 1) ≤ d →
    (∀ x ∈ s.kst.keys, x.2.ledger ≠ some n) →
    ∃ t, exec (.budgetSlotExpiry n) s = .next t ∧ ledgerAt t n = none ∧ (∀ m, m ≠ n → ledgerAt t m = ledgerAt s m) ∧
      t = { s with kst := { s.kst with ledger := t.kst.ledger } }

/-- PIN_TRANSLATE, PIN_VERIFY_OFFSET, PIN_VERIFY_PVV. -/
def Obligations.PinCommands : Prop :=
  ∀ (s : State) (p i0 i1 : Nat) (d i : Bytes) (input : List Byte) (e0 e1 : KEnt),
    (payStarts pinTranslate s p d i input → slotsHold s p d (pinTranslate.keys d i) [(i0, e0), (i1, e1)] = true →
      (fillDraw (outFmt d) 4 = 0 ∨ drawReady s p) →
      (∀ pin, pinDecode (inFmt d) e0.mat (slice i 0 16) (slice i 16 32) = some pin →
        outputFits s p (pinEncode (outFmt d) e1.mat pin (slice i 16 32) (fillBytes s p (outFmt d) pin.length)) →
        ∃ t, exec (.pinTranslate p input 0) s = .next t ∧
          payOutput s p 1 (pinEncode (outFmt d) e1.mat pin (slice i 16 32) (fillBytes s p (outFmt d) pin.length)) t) ∧
      (pinDecode (inFmt d) e0.mat (slice i 0 16) (slice i 16 32) = none →
        ∃ t, exec (.pinTranslate p input 0) s = .next t ∧ payFails s p 0x0106 1 t)) ∧
    (payStarts pinVerifyOffset s p d i input → slotsHold s p d (pinVerifyOffset.keys d i) [(i0, e0), (i1, e1)] = true →
      ∀ pin, pinDecode (inFmt d) e0.mat (slice i 0 16) (slice i 16 32) = some pin → leAt i 0x46 1 ≤ pin.length →
        offDigits (nibs (slice i 0x40 6)) = pin.length →
        (((expectedPin e1.mat (slice i 0x30 8) (nibs (slice i 0x38 8)) (nibs (slice i 0x40 6)) pin.length).take (leAt i 0x46 1) =
            pin.take (leAt i 0x46 1) →
          ∃ t, exec (.pinVerifyOffset p input 0) s = .next t ∧ payOutput s p 1 [] t) ∧
        ((expectedPin e1.mat (slice i 0x30 8) (nibs (slice i 0x38 8)) (nibs (slice i 0x40 6)) pin.length).take (leAt i 0x46 1) ≠
            pin.take (leAt i 0x46 1) →
          ∃ t, exec (.pinVerifyOffset p input 0) s = .next t ∧ payFails s p 0x0701 1 t))) ∧
    (payStarts pinVerifyPvv s p d i input → slotsHold s p d (pinVerifyPvv.keys d i) [(i0, e0), (i1, e1)] = true →
      (∀ pin, pinDecode (inFmt d) e0.mat (slice i 0 16) (slice i 16 32) = some pin →
        (pvvOf e1.mat (slice i 16 32) (leAt i 0x30 1) pin = digitsOf (slice i 0x31 4) →
          ∃ t, exec (.pinVerifyPvv p input 0) s = .next t ∧ payOutput s p 1 [] t) ∧
        (pvvOf e1.mat (slice i 16 32) (leAt i 0x30 1) pin ≠ digitsOf (slice i 0x31 4) →
          ∃ t, exec (.pinVerifyPvv p input 0) s = .next t ∧ payFails s p 0x0701 1 t)) ∧
      (pinDecode (inFmt d) e0.mat (slice i 0 16) (slice i 16 32) = none →
        ∃ t, exec (.pinVerifyPvv p input 0) s = .next t ∧ payFails s p 0x0106 1 t))

/-- CVV_GENERATE, CVV_VERIFY, ARQC_VERIFY, MAC_GENERATE, MAC_VERIFY. -/
def Obligations.CardAndMacCommands : Prop :=
  oneKeyMakes cvvGenerate .cvvGenerate (fun d i e => some (cvvDigitsOf d i e)) ∧
  oneKeyChecks cvvVerify .cvvVerify 0x0705 (fun d i e => slice i 0x28 (dParam d / 16 % 16) = cvvDigitsOf d i e) ∧
  oneKeyMakes arqcVerify .arqcVerify (fun d i e => if cardMac d i e = slice i 0x24 8 then some (cardResponse d i e) else none) ∧
  (∀ (s : State) (p n : Nat) (d i : Bytes) (input : List Byte) (e : KEnt), payStarts arqcVerify s p d i input →
    slotsHold s p d (arqcVerify.keys d i) [(n, e)] = true → cardMac d i e ≠ slice i 0x24 8 →
    ∃ t, exec (.arqcVerify p input 0) s = .next t ∧ payFails s p 0x0704 1 t) ∧
  oneKeyMakes macGenerate .macGenerate (fun d i e => some (macBytes d i e)) ∧
  oneKeyChecks macVerify .macVerify 0x0702 (fun d i e => i.take (dParam d / 256 % 32) = macBytes d (i.drop 16) e)

/-- DUKPT_PIN_TRANSLATE, DUKPT_MAC_VERIFY, DUKPT_DECRYPT, FF1_TOKENIZE, FF1_DETOKENIZE, RAW_BLOCK, RANDOM_GENERATE, BULK_REENCRYPT. -/
def Obligations.DataCommands : Prop :=
  (∀ (s : State) (p i0 i1 : Nat) (d i : Bytes) (input : List Byte) (e0 e1 : KEnt) (pin : List Nat), payStarts dukptPinTranslate s p d i input →
    slotsHold s p d (dukptPinTranslate.keys d i) [(i0, e0), (i1, e1)] = true → (fillDraw (outFmt d) 4 = 0 ∨ drawReady s p) →
    ksnOk (algAes e0.alg) (i.take 16) = true →
    pinDecode (inFmt d) (txKey 0 ((dParam d).testBit 10) d i e0) (slice i 16 16) (slice i 32 32) = some pin →
    outputFits s p (pinEncode (outFmt d) e1.mat pin (slice i 32 32) (fillBytes s p (outFmt d) pin.length)) →
    ∃ t, exec (.dukptPinTranslate p input 0) s = .next t ∧
      payOutput s p 1 (pinEncode (outFmt d) e1.mat pin (slice i 32 32) (fillBytes s p (outFmt d) pin.length)) t) ∧
  (∀ (s : State) (p i0 : Nat) (d i : Bytes) (input : List Byte) (e0 : KEnt), payStarts dukptMacVerify s p d i input →
    slotsHold s p d (dukptMacVerify.keys d i) [(i0, e0)] = true →
    (ksnOk (algAes e0.alg) (i.take 16) = true →
      (slice i 16 (dkMacLen d) = (macOf (dParam d % 16) dkPad e0.alg (txKey 1 ((dParam d).testBit 13) d i e0) (i.drop 32)).take (dkMacLen d) →
        ∃ t, exec (.dukptMacVerify p input 0) s = .next t ∧ payOutput s p 1 [] t) ∧
      (slice i 16 (dkMacLen d) ≠ (macOf (dParam d % 16) dkPad e0.alg (txKey 1 ((dParam d).testBit 13) d i e0) (i.drop 32)).take (dkMacLen d) →
        ∃ t, exec (.dukptMacVerify p input 0) s = .next t ∧ payFails s p 0x0702 1 t)) ∧
    (ksnOk (algAes e0.alg) (i.take 16) = false → ∃ t, exec (.dukptMacVerify p input 0) s = .next t ∧ payFails s p 0x0106 1 t)) ∧
  oneKeyMakes dukptDecrypt .dukptDecrypt (fun d i e =>
    if ksnOk (algAes e.alg) (i.take 16) = true ∧ (i.drop 32).length % blkSize (algAes e.alg) = 0 ∧
      (algAes e.alg = true ∨ allZero (slice i 24 8) = true)
    then some (cbcDec (algAes e.alg) (txKey 2 ((dParam d).testBit 13) d i e) (slice i 16 (blkSize (algAes e.alg))) (i.drop 32)) else none) ∧
  oneKeyMakes (ffCmd 0x1501 false) .ff1Tokenize (fun d i e => some (ffOutput false d i e)) ∧
  oneKeyMakes (ffCmd 0x1502 true) .ff1Detokenize (fun d i e => some (ffOutput true d i e)) ∧
  (∀ (s : State) (p n : Nat) (d i : Bytes) (input : List Byte) (e : KEnt) (x b : Bytes), payStarts rawBlock s p d i input →
    slotsHold s p d (rawBlock.keys d i) [(n, e)] = true → dSgIn d = false → dSgOut d = false →
    lanePad (dParam d / 2 % 8) (blkSize (algAes e.alg)) i = some x →
    b = (if (dParam d).testBit 0 then ecbDec (algAes e.alg) e.mat x else ecbEnc (algAes e.alg) e.mat x) → outputFits s p b →
    ∃ t, exec (.rawBlock p input [] [] 0) s = .next t ∧ payOutput s p ((i.length + 4095) / 4096) b t) ∧
  (∀ (s : State) (p : Nat) (d : Bytes), payStarts randomGenerate s p d [] [] → drawReady s p → outputFits s p (drawn s p (dParam d)) →
    ∃ t, exec (.randomGenerate p 0) s = .next t ∧ payOutput s p ((dParam d + 255) / 256) (drawn s p (dParam d)) t) ∧
  ∀ (s : State) (p i0 i1 moved : Nat) (d i : Bytes) (input : List Byte) (e0 e1 : KEnt), payStarts bulkReencrypt s p d i input →
    slotsHold s p d (bulkReencrypt.keys d i) [(i0, e0), (i1, e1)] = true → dSgIn d = false → dSgOut d = false → bulkClear s p i →
    leAt i 0x34 8 + (if dParam d / 16 % 16 = 2 then 16 else 0) ≤ bufLen (core s p).outList →
    (bulkTagOk d i e0 → dParam d / 16 % 16 ≠ 2 →
      ∃ t, exec (.bulkReencrypt p input [] [] moved 0) s = .next t ∧ payOutput s p ((leAt i 0x34 8 + 4095) / 4096) (bulkOutput d i e0 e1) t) ∧
    (bulkTagOk d i e0 → dParam d / 16 % 16 = 2 →
      payRefusal s p true (bufPieces (core s p).outList (bulkOutput d i e0 e1).length 16) = none →
      ∃ t, exec (.bulkReencrypt p input [] [] moved 0) s = .next t ∧
        payDone s p 0 ((bulkOutput d i e0 e1).length + 16) ((leAt i 0x34 8 + 4095) / 4096) t ∧
        ∀ a n, (core s p).outList = [(a, n)] → (core s p).closed = false →
          ∀ o ∈ writesOf s (core s p).func (a + (bulkOutput d i e0 e1).length) (gcmTag e1.mat (slice i 16 12)
            (slice i 64 (leAt i 0x30 4)) (bulkOutput d i e0 e1)) true, o ∈ t.out) ∧
    (¬ bulkTagOk d i e0 →
      ∃ t, exec (.bulkReencrypt p input [] [] moved 0) s = .next t ∧ payDone s p 0x0703 0 ((leAt i 0x34 8 + 4095) / 4096) t)

/-- KEY_IMPORT, KEY_EXPORT, KEY_TRANSLATE, KEY_GENERATE, TR34_IMPORT, CUSTOM. -/
def Obligations.KeyCommands : Prop :=
  (∀ (s : State) (p i0 : Nat) (d i : Bytes) (input : List Byte) (e0 : KEnt), payStarts keyImport s p d i input → recordRoom s → drawReady s p →
    slotsHold s p d (keyImport.keys d i) [(i0, e0)] = true →
    (∀ k x, k1Unwrap s (core s p).func e0 (i.drop 4) = some k → lmkServes s (core s p).func x →
      kbPadLen k.alg k.mat.length ≤ 4064 → outputFits s p (lmkWrapped s p k x) →
      ∃ t, exec (.keyImport p input 0) s = .next t ∧
        keyOutput s p (lmkWrapped s p k x) (keyBody 0x1601 k.kind k.alg k.usage 0 (curGen s (core s p).func)) t) ∧
    (k1Unwrap s (core s p).func e0 (i.drop 4) = none → ∃ t, exec (.keyImport p input 0) s = .next t ∧ payFails s p 0x0205 1 t)) ∧
  (∀ (s : State) (p i0 i1 : Nat) (d : Bytes) (e0 e1 : KEnt), payStarts keyExport s p d [] [] → recordRoom s → drawReady s p →
    slotsHold s p d (keyExport.keys d []) [(i0, e0), (i1, e1)] = true →
    (exportBad e0 e1 = false → kbPadLen e1.alg e1.mat.length ≤ 4064 → outputFits s p (wrapped s p e1 e1.carry e0.alg e0.mat) →
      ∃ t, exec (.keyExport p 0) s = .next t ∧
        keyOutput s p (wrapped s p e1 e1.carry e0.alg e0.mat) (keyBody 0x1602 e1.kind e1.alg e1.usage e1.index e1.lmkGen) t) ∧
    (exportBad e0 e1 = true → ∃ t, exec (.keyExport p 0) s = .next t ∧ payFails s p 0x0204 1 t)) ∧
  (∀ (s : State) (p i0 i1 : Nat) (d i : Bytes) (input : List Byte) (e0 e1 k : KEnt), payStarts keyTranslate s p d i input → recordRoom s →
    drawReady s p → slotsHold s p d (keyTranslate.keys d i) [(i0, e0), (i1, e1)] = true →
    k1Unwrap s (core s p).func e0 (i.drop 4) = some k →
    (exportBad e1 k = false → kbPadLen k.alg k.mat.length ≤ 4064 → outputFits s p (wrapped s p k k.carry e1.alg e1.mat) →
      ∃ t, exec (.keyTranslate p input 0) s = .next t ∧
        keyOutput s p (wrapped s p k k.carry e1.alg e1.mat) (keyBody 0x1603 k.kind k.alg k.usage 0 0) t) ∧
    (exportBad e1 k = true → ∃ t, exec (.keyTranslate p input 0) s = .next t ∧ payFails s p 0x0204 1 t)) ∧
  (∀ (s : State) (p alg : Nat) (d i : Bytes) (input : List Byte) (x : LmkSlot), payStarts keyGenerate s p d i input → recordRoom s → drawReady s p →
    (drbgOf s (instOf (core s p).func)).count + 2 < 65536 → dParam d = alg → alg < 16 → lmkNeed s (core s p).func = 0 →
    lmkServes s (core s p).func x → usageOk (leAt i 0 2) alg (leAt i 2 1) 0 = true →
    (leAt i 3 1 = 'E'.toNat ∨ leAt i 3 1 = 'N'.toNat ∨ leAt i 3 1 = 'S'.toNat) → (∀ b ∈ slice i 4 2, 0x20 ≤ b.toNat ∧ b.toNat ≤ 0x7E) →
    (∀ b : Bytes, b.length ≤ 2048 → outputFits s p b) →
    ∃ t b pad pb, exec (.keyGenerate p input 0) s = .next t ∧
      b = kbWrapBy (leAt i 0 2) (leAt i 2 1) (leAt i 4 2) (leAt i 3 1) 0x30 [(oid '0' 'L', hexN 4 x.gen)] alg (drawn s p (algBytes alg)) pad pb
        5 x.kbek x.kbak ∧
      keyOutput s p (leBytes 2 b.length ++ [0, 0] ++ kcv alg (drawn s p (algBytes alg)) ++ zeroBytes 9 ++ b)
        (keyBody 0x1604 0 alg (leAt i 0 2) 0 (curGen s (core s p).func)) t) ∧
  (∀ (s : State) (p i0 i1 now : Nat) (d i : Bytes) (input : List Byte) (e0 e1 k : KEnt) (m : Tr34),
    payStarts tr34Import s p d i input → recordRoom s → drawReady s p →
    slotsHold s p d (tr34Import.keys d i) [(i0, e0), (i1, e1)] = true → s.time.dev = some now → tokenOpens s (core s p).func e0 i now m k →
    (∀ x, pkcs1Verify e1.alg e1.mat m.signed m.sig = true → m.digest = true → lmkServes s (core s p).func x →
      outputFits s p (lmkWrapped s p k x) → kbPadLen k.alg k.mat.length ≤ 4064 →
      ∃ t, exec (.tr34Import p input 0) s = .next t ∧
        keyOutput s p (lmkWrapped s p k x) (keyBody 0x1605 0 k.alg k.usage 0 (curGen s (core s p).func)) t) ∧
    (pkcs1Verify e1.alg e1.mat m.signed m.sig = false ∨ m.digest = false →
      ∃ t, exec (.tr34Import p input 0) s = .next t ∧ payFails s p 0x0706 1 t)) ∧
  ∀ (s : State) (p i op : Nat), payReady op s p = true → op = dOpcode (mread (core s p).mem 0xFF00 64) → 0x2000 ≤ op → op ≤ 0x20FF →
    ((core s p).fault ≠ 0 → injWaits s 0x08 p = false →
      ∃ t, exec (.custom p) s = .next t ∧ payDone s p ((core s p).fault % 65536) 0 (earlyUnits op (core s p).cyc) t) ∧
    (payHalt s p = false → (core s p).kstat = none → paySg (mread (core s p).mem 0xFF00 64) = false → (core s p).tok = some i →
      dOpcode (tok s i).desc = op →
      (∀ g, imageOf s (p / 9) (core s p).func (op % 256) = some g →
        ∃ t, exec (.custom p) s = .next t ∧ (core t p).prog = true ∧ (core t p).img = 0x10040000 + 0x8000 * g.place ∧
          (core t p).pc = (0x10040000 + 0x8000 * g.place +
            leNat (mread s.cpu.scratch (p / 9 * 2 ^ 20 + 0x40000 + 0x8000 * g.place + 0x14) 4)) % 2 ^ 32 ∧
          (core t p).ds = [] ∧ ∀ q, q ≠ p → core t q = core s q) ∧
      (imageOf s (p / 9) (core s p).func (op % 256) = none → (∀ a ∈ s.lcy.approvals, ¬ (a.fn = (core s p).func ∧ a.slot = op % 256)) →
        ∃ t, exec (.custom p) s = .next t ∧ payDone s p 0x0302 0 (earlyUnits op (core s p).cyc) t))

/-- OFFICER_ENROL, OFFICER_REVOKE, ATTEST, TAMPER_SET_CLASS, TAMPER_ENC_BURN, EPOCH_SET. -/
def Obligations.ManagerCommands : Prop :=
  ∀ (s : State) (p : Nat) (d body : Bytes) (as : List Bytes) (input : List Byte),
    (mgmtStarts officerEnrol s p d body as input → approval officerEnrol s p d body as = 0 →
      (let i := leAt body 0 1; let role := leAt body 1 1
       let good := (officerAt s i).state = 0 ∧ ((role = 1 ∧ i < 16) ∨ (role = 2 ∧ 16 ≤ i ∧ i < 20)) ∧
         ∀ o ∈ s.lcy.officers, o.state = 1 → o.pk ≠ slice body 0x18 64
       (good → ∃ t, exec (.officerEnrol p input 0) s = .next t ∧ mgmtDone s p 0 [] t ∧ t.kst = s.kst ∧ t.tmp = s.tmp ∧
          t.lcy = { slotUsed s as with
            officers := s.lcy.officers.set i ⟨1, role, appendTime s, slice body 8 16, slice body 0x18 64⟩ } ∧
          (logTakes s → appended s t 0x0300 0 (leBytes 2 0x3001 ++ leBytes 1 i ++ leBytes 1 role ++ signer as 0 ++ signer as 1))) ∧
       (¬ good → ∃ t, exec (.officerEnrol p input 0) s = .next t ∧ mgmtFails s p 0x0109 (slotUsed s as) t))) ∧
    (mgmtStarts officerRevoke s p d body as input → approval officerRevoke s p d body as = 0 →
      (let i := leAt body 0 1
       let good := (officerAt s i).state ≠ 0 ∧ 2 ≤ custodians (s.lcy.officers.set i Officer.empty)
       (good → ∃ t, exec (.officerRevoke p input 0) s = .next t ∧ mgmtDone s p 0 [] t ∧ t.kst = s.kst ∧ t.tmp = s.tmp ∧
          t.lcy = { slotUsed s as with officers := s.lcy.officers.set i Officer.empty } ∧
          (logTakes s → appended s t 0x0300 0 (leBytes 2 0x3002 ++ leBytes 1 i ++ leBytes 1 (officerAt s i).role ++ signer as 0 ++ signer as 1))) ∧
       (¬ good → ∃ t, exec (.officerRevoke p input 0) s = .next t ∧ mgmtFails s p 0x0109 (slotUsed s as) t))) ∧
    (mgmtStarts tamperSetClass s p d body as input → approval tamperSetClass s p d body as = 0 →
      ∃ t, exec (.tamperSetClass p input 0) s = .next t ∧ mgmtDone s p 0 [] t ∧ t.lcy = slotUsed s as ∧ t.kst = s.kst ∧
        t.tmp = { s.tmp with mons := s.tmp.mons.modify (tcMon d) fun m => { m with cls := tcCls d, disCls := tcDis d } } ∧
        (logTakes s → appended s t 0x0141 0 (leBytes 1 (tcMon d) ++ leBytes 1 (monAt s (tcMon d)).cls ++ leBytes 1 (tcCls d) ++
          leBytes 1 (monAt s (tcMon d)).disCls ++ leBytes 1 (tcDis d)))) ∧
    (mgmtStarts tamperEncBurn s p d body as input → approval tamperEncBurn s p d body as = 0 →
      (s.tmp.encBurned = false → ∃ t, exec (.tamperEncBurn p input 0) s = .next t ∧ mgmtDone s p 0 [] t ∧ t.lcy = slotUsed s as ∧ t.kst = s.kst ∧
        t.tmp = { s.tmp with encUse := dParam d, encBurned := true } ∧ (logTakes s → appended s t 0x0142 0 (leBytes 1 (dParam d)))) ∧
      (s.tmp.encBurned = true → ∃ t, exec (.tamperEncBurn p input 0) s = .next t ∧ mgmtFails s p 0x0306 (slotUsed s as) t)) ∧
    (mgmtStarts epochSet s p d body as input → approval epochSet s p d body as = 0 →
      (let v := leAt body 0 8
       ((∀ n, s.time.dev = some n → n ≤ v) → ∃ t, exec (.epochSet p input 0) s = .next t ∧ mgmtDone s p 0 [] t ∧ t.lcy = slotUsed s as ∧
          t.kst = s.kst ∧ t.tmp = s.tmp ∧ t.time = { s.time with dev := some v, frac := 0 } ∧
          t.mtr = { s.mtr with lastMinute := some (v / 60000000) }) ∧
       (∀ n, s.time.dev = some n → v < n → ∃ t, exec (.epochSet p input 0) s = .next t ∧ mgmtFails s p 0x0109 (slotUsed s as) t ∧
          t.time = s.time))) ∧
    (∀ m, mgmtStarts attest s p d body [] input → m = attestBody body s →
      outputFits s p (m ++ slhSign slh256s ((devSeed s 2).getD (padTo 96 s.lcy.vidSeed)) m ++
        Config.certChain (lcsCode s.lcy.state) s.lcy.deployCount) →
      ∃ t, exec (.attest p input 0) s = .next t ∧ t.lcy = s.lcy ∧ t.kst = s.kst ∧ t.tmp = s.tmp ∧
        mgmtDone s p 0 (m ++ slhSign slh256s ((devSeed s 2).getD (padTo 96 s.lcy.vidSeed)) m ++
          Config.certChain (lcsCode s.lcy.state) s.lcy.deployCount) t)

/-- LMK_KEM_BEGIN, LMK_COMP_BEGIN, LMK_COMP_ADD, LMK_KEM_FINISH, LMK_COMP_FINISH, LMK_RETIRE, LMK_UNBIND, CEREMONY_ABORT and CEREMONY_TIMEOUT. -/
def Obligations.Ceremonies : Prop :=
  cerOpens 0x3101 false .lmkKemBegin ∧ cerOpens 0x3103 true .lmkCompBegin ∧
  (∀ (s : State) (p num officer : Nat) (d body ct w v sig k pk : Bytes) (input : List Byte) (c : Cer),
    mgmtStarts (lmkCompAdd num ct w v officer sig) s p d body [] input → cerAt s num = some c → c.comp = true → c.officers.length < 8 →
    (c.officers.contains officer = false → signerKey s (.custody none) officer = some pk →
      slhVerify slh256s pk (leBytes 2 num ++ ct ++ w) sig = true →
      (cerOpen c ct w v = some k → ∃ t, exec (.lmkCompAdd p input num ct w v officer sig 0) s = .next t ∧ mgmtDone s p 0 [] t ∧ t.lcy = s.lcy ∧
        t.kst = { s.kst with cers := s.kst.cers.map fun x =>
          if x.num = num then { x with acc := xorBytes (padTo 32 x.acc) (padTo 32 k), officers := x.officers ++ [officer] } else x }) ∧
      (cerOpen c ct w v = none → ∃ t, exec (.lmkCompAdd p input num ct w v officer sig 0) s = .next t ∧ mgmtFails s p 0x0205 s.lcy t)) ∧
    (c.officers.contains officer = true → ∃ t, exec (.lmkCompAdd p input num ct w v officer sig 0) s = .next t ∧ mgmtFails s p 0x0303 s.lcy t) ∧
    (c.officers.contains officer = false → signerKey s (.custody none) officer = some pk →
      slhVerify slh256s pk (leBytes 2 num ++ ct ++ w) sig = false →
      ∃ t, exec (.lmkCompAdd p input num ct w v officer sig 0) s = .next t ∧ mgmtFails s p 0x0304 s.lcy t)) ∧
  (∀ (s : State) (p num : Nat) (d body ct w v : Bytes) (as : List Bytes) (input : List Byte) (c : Cer),
    mgmtStarts (lmkKemFinish num ct w v) s p d body as input → approval (lmkKemFinish num ct w v) s p d body as = 0 → cerAt s num = some c →
    c.comp = false → lmkLoadFirst s c.fn = false →
    (∀ k, cerOpen c ct w v = some k → cerInstalls 0x3102 num c.fn k s p as (.lmkKemFinish p input num ct w v 0)) ∧
    (cerOpen c ct w v = none → ∃ t, exec (.lmkKemFinish p input num ct w v 0) s = .next t ∧ mgmtFails s p 0x0205 (slotUsed s as) t)) ∧
  (∀ (s : State) (p num : Nat) (d body v : Bytes) (as : List Bytes) (input : List Byte) (c : Cer),
    mgmtStarts (lmkCompFinish num v) s p d body as input → approval (lmkCompFinish num v) s p d body as = 0 → cerAt s num = some c →
    c.comp = true → lmkLoadFirst s c.fn = false →
    (2 ≤ c.officers.length → kcv 5 c.acc = v → cerInstalls 0x3105 num c.fn c.acc s p as (.lmkCompFinish p input num v 0)) ∧
    (c.officers.length < 2 → ∃ t, exec (.lmkCompFinish p input num v 0) s = .next t ∧ mgmtFails s p 0x0303 (slotUsed s as) t) ∧
    (2 ≤ c.officers.length → kcv 5 c.acc ≠ v →
      ∃ t, exec (.lmkCompFinish p input num v 0) s = .next t ∧ mgmtFails s p 0x0205 (slotUsed s as) t)) ∧
  (∀ (s : State) (p vf n : Nat) (d body : Bytes) (as : List Bytes) (input : List Byte),
    mgmtStarts (lmkRetire vf) s p d body as input → approval (lmkRetire vf) s p d body as = 0 → 1 ≤ vf → vf ≤ 1024 →
    lmkLoadFirst s vf = false → n < 2 → (lmkSlot (lmkOf s vf) n).role = 2 → (lmkSlot (lmkOf s vf) (1 - n)).role ≠ 2 → drawReady s p →
    ∃ t, exec (.lmkRetire p input vf 0) s = .next t ∧ mgmtEnded s p 0 [] t ∧ t.lanes = s.lanes ∧ t.lcy = slotUsed s as ∧
      lmkSlot (lmkOf t vf) n = slotEmptied (lmkSlot (lmkOf s vf) n) ∧ lmkSlot (lmkOf t vf) (1 - n) = lmkSlot (lmkOf s vf) (1 - n) ∧
      (∀ v, v ≠ vf → lmkOf t v = lmkOf s v) ∧ t.kst = { s.kst with lmks := t.kst.lmks } ∧
      (logTakes s → appended s t 0x0201 vf (leBytes 2 0x3106 ++ leBytes 2 vf ++ leBytes 1 n ++ leBytes 2 (lmkSlot (lmkOf s vf) n).gen ++ leBytes 2 0))) ∧
  (∀ (s : State) (p vf : Nat) (d body : Bytes) (as : List Bytes) (input : List Byte),
    mgmtStarts (lmkUnbindCmd vf) s p d body as input → approval (lmkUnbindCmd vf) s p d body as = 0 → 1 ≤ vf → vf ≤ 1024 → drawReady s p →
    ∃ t, exec (.lmkUnbind p input vf 0) s = .next t ∧ mgmtEnded s p 0 [] t ∧ t.lcy = slotUsed s as ∧
      (lmkOf t vf).s0 = slotEmptied (lmkOf s vf).s0 ∧ (lmkOf t vf).s1 = slotEmptied (lmkOf s vf).s1 ∧ (∀ v, v ≠ vf → lmkOf t v = lmkOf s v) ∧
      t.kst.sens = s.kst.sens.filter (fun x => decide (x.1 ≠ vf)) ∧ (∀ e ∈ t.kst.ledger, e.2.fn ≠ vf) ∧
      (∀ e ∈ t.kst.keys, e.2.func = vf → keyPinned t e.1 = true ∧ e.2.doomed = true)) ∧
  (∀ (s : State) (p num : Nat) (d body : Bytes) (input : List Byte) (c : Cer), mgmtStarts (ceremonyAbort num) s p d body [] input →
    (cerAt s num = some c → ∃ t, exec (.ceremonyAbort p input num 0) s = .next t ∧ mgmtDone s p 0 [] t ∧ t.lcy = s.lcy ∧ cerClosed s num c.fn 2 t) ∧
    (cerAt s num = none → ∃ t, exec (.ceremonyAbort p input num 0) s = .next t ∧ mgmtFails s p 0x0109 s.lcy t)) ∧
  ∀ (s : State) (num : Nat) (c : Cer), cerAt s num = some c → s.pwr.main = true → recBlocked s = false →
    (c.start + 3600000000 ≤ tick s → ∃ t, exec (.ceremonyTimeout num) s = .next t ∧ cerClosed s num c.fn 3 t ∧ t.cpu = s.cpu ∧ t.slm = s.slm ∧
      t.lcy = s.lcy ∧ t.lanes = s.lanes ∧ t.mov = s.mov) ∧
    (tick s < c.start + 3600000000 → exec (.ceremonyTimeout num) s = .next s)

/-- KEY_MARK_SENSITIVE, KEY_PAIR_GENERATE, BUDGET_RELEASE, PROG_KEY_SET, PROG_APPROVE, PROG_REVOKE. -/
def Obligations.KeyAndProgramCommands : Prop :=
  (∀ (s : State) (p vf : Nat) (d body block : Bytes) (as : List Bytes) (input : List Byte),
    mgmtStarts (keyMarkSensitive vf block) s p d body as input → approval (keyMarkSensitive vf block) s p d body as = 0 → 1 ≤ vf → vf ≤ 1024 →
    lmkNeed s vf = 0 →
    (∀ k n x, lmkServes s vf x → drawReady s p → lmkUnwrap s vf 0 0 0 block = .ok k n → k.usage = chars2 'K' '1' →
      kbPadLen k.alg k.mat.length ≤ 4064 →
      (s.kst.sens.contains (vf, keyIdent vf k.alg k.mat) = true ∨ s.kst.sens.length < 1024) → outputFits s p (markedBlock s p k x) →
      ∃ t, exec (.keyMarkSensitive p input vf block 0) s = .next t ∧ mgmtDone s p 0 (markedBlock s p k x) t ∧ t.lcy = slotUsed s as ∧
        t.kst = { s.kst with
          sens := if s.kst.sens.contains (vf, keyIdent vf k.alg k.mat) then s.kst.sens else s.kst.sens ++ [(vf, keyIdent vf k.alg k.mat)] } ∧
        (logTakes s → appended s t 0x0200 vf (keyBody 0x3110 0 k.alg k.usage 0 (curGen s vf)))) ∧
    (∀ k n, lmkUnwrap s vf 0 0 0 block = .ok k n → k.usage ≠ chars2 'K' '1' →
      ∃ t, exec (.keyMarkSensitive p input vf block 0) s = .next t ∧ mgmtFails s p 0x0204 (slotUsed s as) t) ∧
    (lmkUnwrap s vf 0 0 0 block = .bad →
      ∃ t, exec (.keyMarkSensitive p input vf block 0) s = .next t ∧ mgmtFails s p 0x0205 (slotUsed s as) t)) ∧
  (∀ (s : State) (p vf alg usage mode expo kvn p1 p2 n : Nat) (d body m : Bytes) (as : List Bytes) (input : List Byte) (x : LmkSlot),
    mgmtStarts (keyPairGenerate vf alg usage mode expo kvn p1 p2 n) s p d body as input →
    approval (keyPairGenerate vf alg usage mode expo kvn p1 p2 n) s p d body as = 0 → 1 ≤ vf → vf ≤ 1024 → lmkNeed s vf = 0 →
    lmkServes s vf x → drawReady s p → (drbgOf s 0).count + 2 < 65536 → usageOk usage alg mode 1 = true →
    (expo = 'E'.toNat ∨ expo = 'N'.toNat ∨ expo = 'S'.toNat) → pairMade s p alg p1 p2 n m → (∀ b : Bytes, b.length ≤ 8192 → outputFits s p b) →
    ∃ t b pad pb, exec (.keyPairGenerate p input vf alg usage mode expo kvn p1 p2 n 0) s = .next t ∧
      b = kbWrapBy usage mode kvn expo 0x30 [(oid '0' 'L', hexN 4 x.gen)] alg m pad pb 5 x.kbek x.kbak ∧
      mgmtDone s p 0 (leBytes 2 b.length ++ leBytes 2 (pairPub alg m).length ++ b ++ pairPub alg m) t ∧ t.lcy = slotUsed s as ∧ t.kst = s.kst ∧
      (logTakes s → appended s t 0x0200 vf (keyBody 0x3111 1 alg usage 0 (curGen s vf)))) ∧
  (∀ (s : State) (p : Nat) (slots : List Nat) (d body : Bytes) (as : List Bytes) (input : List Byte),
    mgmtStarts (budgetRelease slots) s p d body as input → approval (budgetRelease slots) s p d body as = 0 →
    ((∀ n ∈ slots, n < 4096) → ∃ t, exec (.budgetRelease p input slots 0) s = .next t ∧ mgmtEnded s p 0 [] t ∧ t.lcy = slotUsed s as ∧
      t.kst.ledger = s.kst.ledger.filter (fun e => decide (e.1 ∉ slots)) ∧ (∀ e ∈ t.kst.keys, ∀ n ∈ slots, e.2.ledger ≠ some n) ∧
      t.kst = { s.kst with ledger := t.kst.ledger, keys := t.kst.keys } ∧
      (logTakes s → appended s t 0x0200 0 (keyBody 0x3112 0 0 0 0 0))) ∧
    (∀ n ∈ slots, 4096 ≤ n → ∃ t, exec (.budgetRelease p input slots 0) s = .next t ∧ mgmtFails s p 0x0109 (slotUsed s as) t)) ∧
  (∀ (s : State) (p : Nat) (d body : Bytes) (as : List Bytes) (input : List Byte), mgmtStarts progKeySet s p d body as input →
    approval progKeySet s p d body as = 0 →
    (let f := leAt body 0 2
     let good := 1 ≤ f ∧ f ≤ 1024 ∧ (fnOf s f).created = true
     (good → ∃ t, exec (.progKeySet p input 0) s = .next t ∧ mgmtDone s p 0 [] t ∧ t.kst = s.kst ∧ t.tmp = s.tmp ∧
        t.lcy = { slotUsed s as with
          progKeys := tset [] s.lcy.progKeys f (slice body 8 64)
          approvals := s.lcy.approvals.filter fun a => decide (a.fn ≠ f) } ∧
        (logTakes s → appended s t 0x0301 f (progBody 0x3301 f 0 0))) ∧
     (¬ good → ∃ t, exec (.progKeySet p input 0) s = .next t ∧ mgmtFails s p 0x0109 (slotUsed s as) t))) ∧
  (∀ (s : State) (p : Nat) (d b pk : Bytes) (as : List Bytes) (input : List Byte), mgmtStarts progApprove s p d b as input →
    approval progApprove s p d b as = 0 → progGood s b pk →
    (slhVerify slh256f pk (progMsg b) (slice b 0x28 49856) = true →
      ∃ t, exec (.progApprove p input 0) s = .next t ∧ mgmtDone s p 0 [] t ∧ t.kst = s.kst ∧ t.tmp = s.tmp ∧
        t.lcy = { slotUsed s as with
          approvals := (s.lcy.approvals.filter fun a => !(decide (a.fn = leAt b 0 2) && decide (a.slot = leAt b 2 1))) ++ [approvedBy b] } ∧
        (logTakes s → appended s t 0x0301 (leAt b 0 2) (progBody 0x3302 (leAt b 0 2) (leAt b 2 1) (leAt b 4 4)))) ∧
    (slhVerify slh256f pk (progMsg b) (slice b 0x28 49856) = false →
      ∃ t, exec (.progApprove p input 0) s = .next t ∧ mgmtFails s p 0x0706 (slotUsed s as) t)) ∧
  (∀ (s : State) (p : Nat) (d b : Bytes) (as : List Bytes) (input : List Byte), mgmtStarts progApprove s p d b as input →
    approval progApprove s p d b as = 0 → tget [] s.lcy.progKeys (leAt b 0 2) = [] →
    ∃ t, exec (.progApprove p input 0) s = .next t ∧ mgmtFails s p 0x0109 (slotUsed s as) t) ∧
  ∀ (s : State) (p fn slot : Nat) (d body : Bytes) (as : List Bytes) (input : List Byte), mgmtStarts (progRevoke fn slot) s p d body as input →
    approval (progRevoke fn slot) s p d body as = 0 → slot < 256 →
    ∃ t, exec (.progRevoke p input fn slot 0) s = .next t ∧ mgmtDone s p 0 [] t ∧ t.kst = s.kst ∧ t.tmp = s.tmp ∧
      t.lcy = { slotUsed s as with
        approvals := s.lcy.approvals.filter fun a => !(decide (a.fn = fn) && (decide (a.slot = slot) || decide (slot = 0xFF))) } ∧
      (logTakes s → appended s t 0x0301 fn (progBody 0x3303 fn slot (((approvalOf s fn slot).map fun a => a.version).getD 0)))

/-- AUDIT_EXPORT, AUDIT_CLEAR, PAIR_BIND, PAIR_UNBIND, REJOIN_SEND, RECORD_VALID_WRITE, SHUTTER_REOPEN. -/
def Obligations.AuditAndPairCommands : Prop :=
  (∀ (s : State) (p limit : Nat) (d body seed : Bytes) (as : List Bytes) (input : List Byte), mgmtStarts (auditExport limit) s p d body as input →
    approval (auditExport limit) s p d body as = 0 →
    (leAt body 0 4 < s.aud.next → logTakes s → logRest s = true → s.dbg.inj = none → devSeed s 4 = some seed →
      outputFits s p (exportData s body limit ++ slhSign slh256f seed (ascii "EHROS-AUDX" ++ exportData s body limit)) →
      ∃ t, exec (.auditExport p input limit 0) s = .next t ∧
        mgmtDone s p 0 (exportData s body limit ++ slhSign slh256f seed (ascii "EHROS-AUDX" ++ exportData s body limit)) t ∧
        t.lcy = slotUsed s as ∧ t.kst = s.kst ∧ t.aud.shutter = some s.time.refCount ∧ t.aud.present = s.aud.present ∧ t.aud.mram = s.aud.mram ∧
        ∃ h ∈ t.aud.staging, leAt h.bytes 4 2 = 6 ∧ slice h.bytes 16 40 =
          padTo 40 (leBytes 4 (leAt body 0 4) ++ leBytes 4 (exportCount s body limit) ++ signer as 0)) ∧
    (s.aud.next ≤ leAt body 0 4 → ∃ t, exec (.auditExport p input limit 0) s = .next t ∧ mgmtFails s p 0x0109 (slotUsed s as) t)) ∧
  (∀ (s : State) (p : Nat) (d body : Bytes) (as : List Bytes) (input : List Byte), mgmtStarts auditClear s p d body as input →
    approval auditClear s p d body as = 0 → logRest s = true →
    (let good := leAt body 0 4 + 1 = s.aud.present ∧ slice body 8 32 = padTo 32 s.aud.head
     (good → ∃ t, exec (.auditClear p input 0) s = .next t ∧ mgmtDone s p 0 [] t ∧ t.lcy = slotUsed s as ∧ t.kst = s.kst ∧
        t.aud.logNo = (s.aud.logNo + 1) % 65536 ∧ t.aud.present = 0 ∧ (s.aud.buf = [] → t.aud.next = 1) ∧
        ∃ h rest, t.aud.held = h :: rest ∧ (s.aud.buf = [] → rest = []) ∧ h.seq = 0 ∧ leAt h.bytes 4 2 = 1 ∧
          slice h.bytes 16 40 = padTo 40 (leBytes 2 s.aud.logNo ++ leBytes 4 (s.aud.present - 1) ++ signer as 0 ++ signer as 1 ++ padTo 32 s.aud.head)) ∧
     (¬ good → ∃ t, exec (.auditClear p input 0) s = .next t ∧ mgmtFails s p 0x0109 (slotUsed s as) t ∧ t.aud = s.aud))) ∧
  (∀ (s : State) (p : Nat) (d b : Bytes) (as : List Bytes) (input : List Byte), mgmtStarts pairBind s p d b as input →
    approval pairBind s p d b as = 0 →
    (s.par.bound = false → leAt b 0x52 1 ≤ 1 → ∃ t, exec (.pairBind p input 0) s = .next t ∧ mgmtDone s p 0 [] t ∧ t.lcy = slotUsed s as ∧
        t.kst = s.kst ∧ t.par.bound = true ∧ t.par.partnerId = slice b 0 16 ∧ t.par.partnerPk = slice b 16 64 ∧ t.par.addr = leAt b 0x50 2 ∧
        t.par.bindHome = leAt b 0x52 1 ∧ t.par.home = leAt b 0x52 1 ∧
        (s.pwr.mode = .active → (latch t (leAt b 0x52 1)).holder = true ∧ (latch t (leAt b 0x52 1)).fenced = false)) ∧
    (s.par.bound = true ∨ 1 < leAt b 0x52 1 →
      ∃ t, exec (.pairBind p input 0) s = .next t ∧ mgmtFails s p 0x0109 (slotUsed s as) t ∧ t.par = s.par)) ∧
  (∀ (s : State) (p : Nat) (d : Bytes) (as : List Bytes) (input : List Byte), mgmtStarts pairUnbind s p d [] as input →
    approval pairUnbind s p d [] as = 0 →
    ((s.par.pElig = false ∨ latchCount s = 0) → (∀ e ∈ s.slm.toks, e.2.st ≠ .mirror) → s.hif.relq = [] →
      ∃ t, exec (.pairUnbind p input 0) s = .next t ∧ mgmtDone s p 0 [] t ∧ t.lcy = slotUsed s as ∧ t.kst = s.kst ∧ t.par.bound = false ∧
        t.par.pElig = false ∧ t.pwr = { s.pwr with mode := if s.pwr.mode = .standby then .active else s.pwr.mode }) ∧
    (s.par.pElig = true → latchCount s ≠ 0 →
      ∃ t, exec (.pairUnbind p input 0) s = .next t ∧ mgmtFails s p 0x0109 (slotUsed s as) t ∧ t.par = s.par)) ∧
  (∀ (s : State) (p : Nat) (d b : Bytes) (as : List Bytes) (input : List Byte), mgmtStarts rejoinSendCmd s p d b as input →
    approval rejoinSendCmd s p d b as = 0 →
    (offerGood s b → (∀ l ∈ s.kst.lmks, (l.2.s0.occ || l.2.s1.occ) = true → l.2.loaded = true) → drawReady s p →
      ∃ t, exec (.rejoinSend p input 0) s = .next t ∧ (core t p).st = .release 0 0 ∧ t.lcy = slotUsed s as ∧ t.kst = s.kst ∧
        (∀ q, (core t q).mem = (core s q).mem) ∧ t.par.rejoinTx = some (s.par.addr, rejoinPackage s p b, s.time.refCount)) ∧
    (¬ offerGood s b → ∃ t, exec (.rejoinSend p input 0) s = .next t ∧ mgmtFails s p 0x0106 (slotUsed s as) t ∧ t.par = s.par)) ∧
  (∀ (s : State) (h : HeldRec) (rest : List HeldRec), s.aud.held = h :: rest → s.pwr.main = true →
    (∃ t, exec .recordValidWrite s = .next t ∧ t.aud.present = s.aud.present + 1 ∧ t.aud.head = h.chain) ∧
    ((∀ e ∈ s.slm.toks, e.2.st ≠ .mirror) → s.hif.relq = [] → exec .recordValidWrite s = .next { s with
      aud := { s.aud with
        held := rest
        present := s.aud.present + 1
        head := h.chain
        mram := tset [] s.aud.mram h.seq (padTo 60 h.bytes ++ (leBytes 2 s.aud.logNo ++ leBytes 2 0xA55A)) } })) ∧
  ∀ (s : State) (x : Nat), s.aud.shutter = some x → s.pwr.main = true →
    ∃ t, exec .shutterReopen s = .next t ∧ sideFrame { s with aud := t.aud } t ∧
      t.aud = { s.aud with
        shutter := none
        staging := []
        held := s.aud.held ++ s.aud.staging
        mram := s.aud.staging.foldl (fun m h => mramBody m h.seq h.bytes) s.aud.mram }

/-- Every command of the manager that needs approvals, with approvals that fail. -/
def Obligations.WrongApprovals : Prop :=
  ∀ (s : State) (i : Instr) (p : Nat) (d body : Bytes) (as : List Bytes) (input : List Byte) (c : MgmtCmd),
    approvedCmd i = some (p, input, c) → mgmtStarts c s p d body as input →
    (¬ formsGood c s d body as → turnedAway s p 0x0304 (exec i s)) ∧
    (formsGood c s d body as → ¬ officersDistinct c s body as → turnedAway s p 0x0303 (exec i s)) ∧
    (formsGood c s d body as → officersDistinct c s body as →
      (∀ a ∈ as, ∀ b ∈ as, apChal a ≠ apChal b → turnedAway s p 0x0304 (exec i s)) ∧
      ∀ n, (∀ a ∈ as, apChal a = n) →
        ((s.lcy.chals.getD n Chal.empty).state = 0 → turnedAway s p 0x0304 (exec i s)) ∧
        ((s.lcy.chals.getD n Chal.empty).state ≠ 0 → ¬ slotLive s n (acceptTick s p) → turnedAway s p 0x0305 (exec i s)) ∧
        (slotLive s n (acceptTick s p) →
          (∃ x ∈ List.zip (c.signers s body) as, apprSig s (s.lcy.chals.getD n Chal.empty).data x.1 x.2 = false) →
          turnedAway s p 0x0304 (exec i s)))

/-- RCT_CUTOFF, APT_WINDOW_END, EST_BLOCK_END, SEED_ARRIVAL, SOURCE_RETEST_START, ENT_SWITCH, ENT_RETEST_A, ENT_RETEST_B. -/
def Obligations.EntropySources : Prop :=
  (∀ (s : State) (k : Nat), srcRuns s k →
    (∃ t, exec (.rctCutoff k) s = .next t ∧ srcFailed s t k 1 { srcOf s k with rct := min 0xFF ((srcOf s k).rct + 1) }) ∧
    (∀ w : List Byte, w.length = 128 → s.dbg.inj = none →
      (aptCutoff k ≤ aptCount w → ∃ t, exec (.aptWindowEnd k w) s = .next t ∧
        srcFailed s t k 2 { srcOf s k with apt := min 0xFF ((srcOf s k).apt + 1) }) ∧
      (aptCount w < aptCutoff k →
        ((srcOf s k).st = .startup ∨ (srcOf s k).st = .retest → ∃ t, exec (.aptWindowEnd k w) s = .next t ∧ seedsKept s t ∧
          reportFrame { s with ent := t.ent } t ∧ srcOf t (1 - k) = srcOf s (1 - k) ∧
          srcOf t k = { srcOf s k with st := if (srcOf s (1 - k)).st = .selected then .warm else .selected, raw := [], held := [] } ∧
          t.ent.sel = (if (srcOf s (1 - k)).st = .selected then s.ent.sel else k) ∧
          ((srcOf s k).st = .retest → srcReported s t k 4 (if (srcOf s (1 - k)).st = .selected then 2 else 3))) ∧
        ((srcOf s k).st = .selected ∨ ((srcOf s k).st = .warm ∧ ∃ d ∈ s.ent.drbgs, d.ready = false) →
          ∃ t, exec (.aptWindowEnd k w) s = .next t ∧ srcOnly s t k ∧
            srcOf t k = srcFed s k w) ∧
        ((srcOf s k).st = .cooling ∨ (srcOf s k).st = .failed ∨ ((srcOf s k).st = .warm ∧ ∀ d ∈ s.ent.drbgs, d.ready = true) →
          exec (.aptWindowEnd k w) s = .next s))) ∧
    (∀ ones a1 a2 a3 a4 n00 n01 n10 n11 m, s.dbg.inj = none → ones < 2 ^ 21 → a1 < 2 ^ 21 → a2 < 2 ^ 21 → a3 < 2 ^ 21 → a4 < 2 ^ 21 →
      m = Config.minent n00 n01 n10 n11 % 65536 →
      (let x := { srcOf s k with
        ones := ones
        agree := [a1, a2, a3, a4]
        minent := m
        block := ((srcOf s k).block + 1) % 2 ^ 32 }
       let low := 10 * m < (if k = 0 then 4 else 8) * 65536
       (low → ∃ t, exec (.estBlockEnd k ones a1 a2 a3 a4 n00 n01 n10 n11) s = .next t ∧
          srcFailed s t k 3 { x with est := min 0xFF (x.est + 1) }) ∧
       (¬ low → ∃ t, exec (.estBlockEnd k ones a1 a2 a3 a4 n00 n01 n10 n11) s = .next t ∧ srcOnly s t k ∧ srcOf t k = x))) ∧
    (∀ seed rest, (srcOf s k).held = seed :: rest →
      (∃ t, exec (.seedArrival k false) s = .next t ∧ srcOnly s t k ∧ srcOf t k = { srcOf s k with held := rest }) ∧
      (32 ≤ s.ent.queue.length → exec (.seedArrival k true) s = .next s) ∧
      ((∀ d ∈ s.ent.drbgs, d.ready = true) → seedWinner s = none → s.ent.queue.length < 32 → s.tmp.chalDue = false →
        ∃ t, exec (.seedArrival k true) s = .next t ∧ t = { s with ent := t.ent } ∧ srcOf t k = { srcOf s k with held := rest } ∧
          srcOf t (1 - k) = srcOf s (1 - k) ∧ t.ent.queue = s.ent.queue ++ [seed] ∧ t.ent.drbgs = s.ent.drbgs) ∧
      (∀ i, s.ent.drbgs.length = 16 → (∀ d ∈ s.ent.drbgs, d.ready = true) → seedWinner s = some i → s.ent.queue = [] → s.tmp.chalDue = false →
        ∃ t, exec (.seedArrival k true) s = .next t ∧ srcOf t k = { srcOf s k with held := rest } ∧ t.ent.queue = [] ∧
          (∀ j, j ≠ i → drbgOf t j = drbgOf s j) ∧
          drbgOf t i = { drbgOf s i with
            key := (drbgReseed ⟨(drbgOf s i).key, (drbgOf s i).v⟩ seed).key
            v := (drbgReseed ⟨(drbgOf s i).key, (drbgOf s i).v⟩ seed).v
            count := 0
            stretched := false
            halted := false }) ∧
      (s.ent.drbgs.length = 16 → (∀ d ∈ s.ent.drbgs, d.ready = false) → s.tmp.chalDue = false →
        (s.ent.queue.length < 2 → ∃ t, exec (.seedArrival k true) s = .next t ∧ t.ent.queue = s.ent.queue ++ [seed] ∧ t.ent.drbgs = s.ent.drbgs) ∧
        (∀ s1 s2, s.ent.queue = [s1, s2] → drbgPairs s < 8 → ∃ t, exec (.seedArrival k true) s = .next t ∧ t.ent.queue = [] ∧
          (let n := drbgPairs s
           let a := drbgInstantiate s1 (s2.take 16) (drbgPers s (2 * n))
           let b := drbgInstantiate seed (s2.drop 16) (drbgPers s (2 * n + 1))
           (drbgOf t (2 * n)).key = a.key ∧ (drbgOf t (2 * n)).v = a.v ∧ (drbgOf t (2 * n + 1)).key = b.key ∧ (drbgOf t (2 * n + 1)).v = b.v ∧
           (∀ i < 16, i ≠ 2 * n → i ≠ 2 * n + 1 → (drbgOf t i).key = (drbgOf s i).key ∧ (drbgOf t i).v = (drbgOf s i).v) ∧
           ∀ d ∈ t.ent.drbgs, d.ready = decide (n = 7))))) ∧
    ((srcOf s k).st = .cooling → (srcOf s k).failAt + 100000000 ≤ s.time.refCount → ∃ t, exec (.sourceRetestStart k) s = .next t ∧ srcOnly s t k ∧
      srcOf t k = { srcOf s k with st := .retest, retests := min 0xFF ((srcOf s k).retests + 1) }) ∧
    ((srcOf s k).st = .cooling → s.time.refCount < (srcOf s k).failAt + 100000000 → exec (.sourceRetestStart k) s = .next s)) ∧
  (∀ s : State, regsTake s → s.ent.sel < 2 →
    ((srcOf s (1 - s.ent.sel)).st = .warm → ∃ t u, exec .entSwitch s = .next t ∧ fnFrame 0 u t ∧ fnOf t 0 = { fnOf u 0 with heldWr := none } ∧
      reportFrame { s with ent := u.ent } u ∧ seedsKept s u ∧ srcSelected s u (1 - s.ent.sel) ∧
      srcOf u s.ent.sel = { srcOf s s.ent.sel with st := if (srcOf s s.ent.sel).st = .selected then .warm else (srcOf s s.ent.sel).st } ∧
      srcReported s u (1 - s.ent.sel) 6 3) ∧
    ((srcOf s (1 - s.ent.sel)).st ≠ .warm → ∃ t, exec .entSwitch s = .next t ∧ t = { s with hif := { s.hif with fns := t.hif.fns } } ∧ pfWrote s t)) ∧
  ∀ (s : State) (k : Nat) (i : Instr), (k = 0 ∧ i = .entRetestA) ∨ (k = 1 ∧ i = .entRetestB) → regsTake s →
    ∃ t u, exec i s = .next t ∧ fnFrame 0 u t ∧ fnOf t 0 = { fnOf u 0 with heldWr := none } ∧ srcOnly s u k ∧
      srcOf u k = if (srcOf s k).st = .failed then { srcOf s k with st := .retest, retests := min 0xFF ((srcOf s k).retests + 1) } else srcOf s k

/-- TAMPER_SAMPLE, TAMPER_COMPARATOR_EDGE, DISAGREEMENT_WINDOW_CLOSE, LOCK_ORDER, ERASE_ORDER, LOCKED_CLOSING_COMPLETIONS, PWRFAIL_HOLD_EXPIRY,
UNLOCK_NEW_CHALLENGE, UNLOCK_GO, UNLOCK_COMPLETE, CRES_LOW. -/
def Obligations.TamperBlock : Prop :=
  (∀ (s : State) (m det1 det2 value : Nat) (sensed : List Nat), m < s.tmp.mons.length → s.dbg.inj = none → value < 65536 →
    (m ≤ 8 → monArmed s m = true → ∃ t, exec (.tamperSample m det1 det2 value sensed) s = .next t ∧
      (if m ≤ 4 then
        if meshDriven m (meshAdvance m s) = sensed then detected s t m (detOf det1) .safe value true else detected s t m (detOf det1) .alarm 0xFFFF true
      else detected s t m (detOf det1) (detOf det2) value true ∧ t.tmp.lfsr = s.tmp.lfsr)) ∧
    (m ≤ 8 → monArmed s m = false → exec (.tamperSample m det1 det2 value sensed) s = .next s) ∧
    (∀ glitch, 9 ≤ m → m ≤ 17 → monArmed s m = true →
      (¬ (m = 15 ∧ s.pwr.main = true) → ¬ (m = 13 ∧ s.pwr.pwrfail.isSome = true ∧ s.tmp.lowRearmed = false ∧ glitch = false) →
        ∃ t, exec (.tamperComparatorEdge m det1 det2 value glitch) s = .next t ∧ detected s t m (detOf det1) (detOf det2) value false) ∧
      (m = 13 → s.pwr.pwrfail.isSome = true → s.tmp.lowRearmed = false → glitch = false →
        ∃ t, exec (.tamperComparatorEdge m det1 det2 value glitch) s = .next t ∧ t = { s with tmp := { s.tmp with mons := t.tmp.mons } } ∧
          monAt t m = { monAt s m with det1 := detOf det1, det2 := detOf det2 } ∧ ∀ n, n ≠ m → monAt t n = monAt s n) ∧
      (m = 15 → s.pwr.main = true → ∃ t, exec (.tamperComparatorEdge m det1 det2 value glitch) s = .next t ∧
        t = { s with tmp := t.tmp, i3c := t.i3c, out := t.out } ∧ monAt t m = { monAt s m with det1 := detOf det1, det2 := detOf det2 } ∧
        t.tmp.lock = s.tmp.lock ∧ t.tmp.vbatSaid = (decide (detOf det1 = .alarm) || decide (detOf det2 = .alarm)) ∧
        (t.tmp.vbatSaid = true → s.tmp.vbatSaid = false → healthSent s t 12))) ∧
    (monArmed s m = true → disHeld s m = true → (monAt s m).disAlarm.fired = false → (monAt s m).inj = none →
      ∃ t, exec (.disagreementWindowClose m value) s = .next t ∧ (monAt t m).disAlarm.fired = true ∧
        alarmResponse s t m (32 + m) (monAt s m).disCls value) ∧
    (disHeld s m = false ∨ (monAt s m).disAlarm.fired = true → exec (.disagreementWindowClose m value) s = .next s)) ∧
  (∀ s : State, s.pwr.main = true →
    (s.tmp.lockOrder = true →
      ((s.pwr.mode = .active ∨ s.pwr.mode = .standby) → s.aud.buf.length < 60 → ∃ t, exec .lockOrder s = .next t ∧ t.pwr.mode = .locked ∧
        t.tmp.lockOrder = false ∧ t.kst.lmks = s.kst.lmks ∧ t.kst.vaultKey = s.kst.vaultKey ∧ (∀ n, (laneOf t n).ctxs = []) ∧
        (latch t 0).holder = false ∧ (latch t 1).holder = false) ∧
      (s.pwr.mode ≠ .active → s.pwr.mode ≠ .standby → exec .lockOrder s = .next { s with tmp := { s.tmp with lockOrder := false } })) ∧
    (s.tmp.lockOrder = false → exec .lockOrder s = .next s) ∧
    (s.tmp.eraseOrder = true → ∃ t, exec .eraseOrder s = .next t ∧ t.tmp.eraseOrder = false ∧
      (t.kst.keys = [] ∧ t.kst.vaultKey = zeroBytes 32 ∧ t.kst.intKey = [] ∧ t.kst.misses = [] ∧ t.kst.cers = []) ∧
      (∀ e ∈ t.kst.lmks, e.2.s0.key = none ∧ e.2.s1.key = none ∧ e.2.loaded = false) ∧ (∀ d ∈ t.ent.drbgs, d = Drbg.blank) ∧ t.ent.queue = [] ∧
      (∀ n, (laneOf t n).slots = [] ∧ (laneOf t n).ctxs = []) ∧ t.par.key = none ∧ t.par.keyPrev = none ∧ t.par.kemDk = none ∧
      t.lcy.rejoin = none ∧
      t.pwr.mode = (if s.pwr.mode = .active ∨ s.pwr.mode = .standby ∨ s.pwr.mode = .locked then .recovery else s.pwr.mode)) ∧
    (s.tmp.eraseOrder = false → exec .eraseOrder s = .next s) ∧
    ((s.pwr.mode = .locked ∨ s.pwr.mode = .recovery ∨ s.dbg.pairFault = true) → toksOnce s → ∃ t, exec .lockedClosingCompletions s = .next t ∧
      (∀ e ∈ t.slm.toks, ¬ tokenAtRest e.2.st) ∧
      ∀ i k, s.slm.toks = [(i, k)] → tokenAtRest k.st → k.ordered = false → k.recNo = none →
        completes t k.func k.ring (cplBytes (dTag k.desc) 0x0801 (if k.dispatched then 13 else 11) (relPlace s k.func k.ring).2 0 (timeField s)
          k.slot k.ring k.replayed)) ∧
    (∀ n, s.pwr.pwrfail = some n → s.pwr.supplies = true → s.tmp.lowRearmed = false →
      (n + 5000000 ≤ s.time.refCount → ∃ t, exec .pwrfailHoldExpiry s = .next t ∧ t.tmp.lowRearmed = true ∧ fired s t 0 13 ∧
        (logTakes s → recorded s t 0 0x010D 0 (tamperBody 13 (detCode (monAt s 13).det1) (detCode (monAt s 13).det2) 0 s.tmp.applied 0 s))) ∧
      (s.time.refCount < n + 5000000 → exec .pwrfailHoldExpiry s = .next s)) ∧
    (∀ r : List Byte, r.length = 59760 → s.tmp.busy = true →
      (∃ t, exec (.unlockComplete r true) s = .next t ∧ unlockEnds s 9 t) ∧
      (∀ st, unlockCheck s r = st → st ≠ 0 → ∃ t, exec (.unlockComplete r false) s = .next t ∧ unlockEnds s st t) ∧
      (s.tmp.alarmed = true → ∃ t, exec (.unlockComplete r false) s = .next t ∧ unlockEnds s 3 t) ∧
      (unlockGood s r → s.aud.buf.length < 60 → ∃ t, exec (.unlockComplete r false) s = .next t ∧ t.tmp.result = 0 ∧ t.tmp.busy = false ∧
        t.tmp.lock = false ∧ t.tmp.lockOrder = false ∧ t.tmp.cause = 0x3E ∧ t.tmp.applied = (if s.tmp.erased then 2 else 0) ∧ t.kst = s.kst ∧
        t.pwr.mode = (if s.par.bound then .standby else .active) ∧
        (logTakes s → recorded s t 0 0x0140 0 (leBytes 2 s.tmp.lockSeq ++ leBytes 1 s.aud.ovf ++ signer (apprList r 0x30 2) 0 ++
          signer (apprList r 0x30 2) 1)))) ∧
    (∃ t, exec (.cresLow false) s = .next t ∧ t = { s with pwr := { s.pwr with cresLow := none, cresSaid := false } }) ∧
    ∃ t, exec (.cresLow true) s = .next t ∧ t = { s with pwr := t.pwr, i3c := t.i3c, out := t.out } ∧
      t.pwr.cresLow = some (s.pwr.cresLow.getD s.time.refCount) ∧
      (let said := s.pwr.cresLow.getD s.time.refCount + 1000000 ≤ s.time.refCount
       t.pwr.cresSaid = (s.pwr.cresSaid || decide said) ∧ (said → s.pwr.cresSaid = false → healthSent s t 12))) ∧
  ∀ s : State, regsTake s → s.tmp.busy = false →
    (drbgLive s 0 = true → ∃ t, exec .unlockNewChallenge s = .next t ∧ pfWrote s t ∧ t.tmp = { s.tmp with
      challenge := (drbgGenerate ⟨(drbgOf s 0).key, (drbgOf s 0).v⟩ 32 []).1
      chalTime := some (appendTime s)
      chalDue := false }) ∧
    (drbgLive s 0 = false → ∃ t, exec .unlockNewChallenge s = .next t ∧ tmpWrote s t ∧ t.tmp = { s.tmp with chalDue := true }) ∧
    (s.pwr.mode = .recovery → ∃ t, exec .unlockGo s = .next t ∧ tmpWrote s t ∧ t.tmp.result = 10) ∧
    (s.pwr.mode ≠ .recovery → s.pwr.mode ≠ .locked → ∃ t, exec .unlockGo s = .next t ∧ tmpWrote s t ∧ t.tmp.result = 2) ∧
    (s.pwr.mode = .locked → hostRefusal s (hifMaster 0 0) 0 s.tmp.unlockPtr 59760 false = none → ∃ t, exec .unlockGo s = .next t ∧ t.tmp = { s.tmp with
      result := 1
      busy := true
      alarmed := false
      goTime := appendTime s }) ∧
    (s.pwr.mode = .locked → (hostRefusal s (hifMaster 0 0) 0 s.tmp.unlockPtr 59760 false).isSome = true → ∃ t, exec .unlockGo s = .next t ∧ t.tmp.result = 9 ∧
      t.tmp.lock = s.tmp.lock)

/-- PROVISION, DEPLOY, RETURN, REDEPLOY, RETIRE, and the checks of every request. -/
def Obligations.LifeCycleTransitions : Prop :=
  (∀ (i : List Byte → Bool → Instr) (k : ReqKind), requestOf i k → ∀ (s : State) (b : List Byte), goTaken s →
    (∃ t, exec (i b true) s = .next t ∧ reqEnds s 10 t) ∧
    (reqRead s k.op b →
      let q := reqOf b
      (∀ r, k.state s q = r → r ≠ 0 → ∃ t, exec (i b false) s = .next t ∧ reqEnds s r t) ∧
      (k.state s q = 0 → latchCount s ≠ 0 → ∃ t, exec (i b false) s = .next t ∧ reqEnds s 3 t) ∧
      (k.state s q = 0 → latchCount s = 0 → k.room s = false → ∃ t, exec (i b false) s = .next t ∧ reqEnds s 5 t) ∧
      (k.state s q = 0 → latchCount s = 0 → k.room s = true →
        (¬ (leAt b 4 4 ≤ 65536 ∧ leAt b 4 4 % 8 = 0) → ∃ t, exec (i b false) s = .next t ∧ reqEnds s 9 t) ∧
        (leAt b 4 4 ≤ 65536 → leAt b 4 4 % 8 = 0 →
          ((q.count = 0 ∧ q.chal ≠ 0 ∧ k.chalOwn s = false) ∨ (k.signers s q).length < q.count ∨ k.form s q = false →
            ∃ t, exec (i b false) s = .next t ∧ reqEnds s 9 t) ∧
          ((q.count = 0 → q.chal = 0 ∨ k.chalOwn s = true) → q.count ≤ (k.signers s q).length → k.form s q = true →
            (∀ r, k.token s q = r → r ≠ 0 → ∃ t, exec (i b false) s = .next t ∧ reqEnds s r t) ∧
            (k.token s q = 0 → ∀ r, reqCheck (k.table q s) q (k.signers s q) = r → r ≠ 0 →
              ∃ t, exec (i b false) s = .next t ∧ reqEnds s r t)))))) ∧
  ∀ (s : State) (b : List Byte), s.lcy.recs.length = 16 →
    (reqRead s 0x11 b → reqPasses s provision b →
      (∀ r p, drbgLive s 0 = true → r = (drbgGenerate ⟨(drbgOf s 0).key, (drbgOf s 0).v⟩ 544 []).1 →
        p = r.take 256 ++ joinBytes ((List.range 9).map fun i => shake256 32 (slice r (256 + 32 * i) 32)) →
        ∃ t, exec (.provision b false) s = .next t ∧ transited s b 0x11 0 .provisioned t ∧ t.lcy.otpHalf = slice r 0 32 ∧
          t.lcy.vidSeed = slice r 32 96 ∧ t.lcy.idSeed = slice r 128 96 ∧ t.lcy.provKey = slice r 224 32 ∧ t.lcy.payloadChk = shake256 4 p ∧
          t.lcy.staged = none ∧ t.lcy.tDig = (List.range 9).map fun i => shake256 32 (slice r (256 + 32 * i) 32)) ∧
      (drbgLive s 0 = false → ∃ t, exec (.provision b false) s = .next t ∧ t.lcy = s.lcy)) ∧
    (reqRead s 0x12 b → reqPasses s deploy b →
      (drbgLive s 0 = true → ∃ t, exec (.deploy b false) s = .next t ∧ transited s b 0x12 1 .deployed t ∧
          t.lcy.keepHalf = (drbgGenerate ⟨(drbgOf s 0).key, (drbgOf s 0).v⟩ 32 []).1 ∧
          t.mtr = { s.mtr with total := [], adds := [], rcpt := [] } ∧
          t.lcy.officers = (members (reqOf b)).foldl (fun l x => l.set x.1 ⟨1, x.2.1, appendTime s, x.2.2.1, x.2.2.2⟩)
            (List.replicate 20 Officer.empty)) ∧
      (drbgLive s 0 = false → ∃ t, exec (.deploy b false) s = .next t ∧ t.lcy = s.lcy)) ∧
    (reqRead s 0x13 b → reqPasses s return_ b → ∃ t, exec (.lifecycleReturn b false) s = .next t ∧
      transited s b 0x13 (2 + s.lcy.returns) .returned t ∧ t.lcy.officers = s.lcy.officers) ∧
    (reqRead s 0x14 b → reqPasses s redeploy b → ∃ t, exec (.redeploy b false) s = .next t ∧
      transited s b 0x14 (6 + s.lcy.redeploys) .deployed t ∧ t.lcy.officers = s.lcy.officers) ∧
    (reqRead s 0x15 b → reqPasses s retire b → ∃ t, exec (.retire b false) s = .next t ∧ transited s b 0x15 9 .retired t ∧
      t.lcy.officers = s.lcy.officers)

/-- CHAL_ISSUE, CHALLENGE_EXPIRY, DEBUG_OPEN, DEBUG_CLOSE, DEBUG_LIFE_EXPIRY, REJOIN_BEGIN, REJOIN_FINISH, INJECT, TOKEN_HOLD_EXPIRY,
REJOIN_PACKAGE_EXPIRY. -/
def Obligations.GrantsRejoinInjection : Prop :=
  (∀ (s : State) (b : List Byte),
    (reqRead s 0x30 b → reqPasses s debugOpen b → ∃ t, exec (.debugOpen b false) s = .next t ∧ requestDone s b t ∧
      (let scope := leAt (reqOf b).body 17 1
       let life := leAt (reqOf b).body 20 4
       t.lcy.intGrant = (if scope.testBit 0 then some ⟨1, tick s + 1000000 * life, life⟩ else s.lcy.intGrant) ∧
       t.lcy.scanGrant = (if scope.testBit 1 then some ⟨2, tick s + 1000000 * life, life⟩ else s.lcy.scanGrant) ∧
       (logTakes s → recorded s t 0 0x0303 0 ([1] ++ leBytes 1 scope ++ leBytes 4 life ++ [0])))) ∧
    (reqRead s 0x31 b → reqPasses s debugClose b → ∃ t, exec (.debugClose b false) s = .next t ∧ requestDone s b t ∧ t.lcy.intGrant = none ∧
      t.lcy.scanGrant = none ∧
      ∀ g, s.lcy.intGrant = some g → logTakes s → recorded s t 0 0x0303 0 ([2] ++ leBytes 1 g.scope ++ leBytes 4 g.life ++ [2])) ∧
    (reqRead s 0x40 b → reqPasses s inject b → ∃ t, exec (.inject b false) s = .next t ∧ requestDone s b t ∧
      (let q := (reqOf b).body
       t.dbg = { s.dbg with inj := some ⟨leAt q 0 2, leAt q 2 2, leAt q 4 1, leAt q 5 1, (leAt q 6 2).testBit 0⟩ })) ∧
    (reqRead s 0x20 b → reqPasses s rejoinBegin b →
      (∀ r ks m, drbgLive s 0 = true → r = drawnZero s 96 → ks = kemKeygen 3 (slice r 32 32) (slice r 64 32) → m = offerBody s (r.take 32) ks.1 →
        (∀ o : Bytes, o = m ++ identSign (ascii "EHROS-REJOIN" ++ m) s →
          (hostRefusal s (hifMaster 0 0) 0 (s.lcy.reqPtr + 0x10000) o.length true = none → ∃ t, exec (.rejoinBegin b false) s = .next t ∧
            requestDone s b t ∧ t.lcy.rejoin = some ⟨ks.2, r.take 32, leAt (reqOf b).body 0 2 % 4096⟩ ∧ t.lcy.package = none ∧
            ∀ x ∈ writesOf s 0 (s.lcy.reqPtr + 0x10000) o false, x ∈ t.out) ∧
          ((hostRefusal s (hifMaster 0 0) 0 (s.lcy.reqPtr + 0x10000) o.length true).isSome = true →
            ∃ t, exec (.rejoinBegin b false) s = .next t ∧ t.lcy.reqResult = 10 ∧ t.lcy.rejoin = s.lcy.rejoin ∧
              t.lcy.package = s.lcy.package))) ∧
      (drbgLive s 0 = false → ∃ t, exec (.rejoinBegin b false) s = .next t ∧ t.lcy = s.lcy)) ∧
    (reqRead s 0x21 b → reqPasses s rejoinFinish b → s.aud.buf.length < 60 →
      (drbgLive s 0 = true →
        (noPartner (reqOf b) = true → ∃ t, exec (.rejoinFinish b false) s = .next t ∧ rejoined s b t ∧ t.par.bound = s.par.bound ∧
          (∀ f, (lmkOf t f).s0.occ = false ∧ (lmkOf t f).s1.occ = false) ∧
          (logTakes s → s.kst.lmks = [] → recorded s t 0 0x0304 0 (padTo 16 s.par.partnerId ++ leBytes 4 0 ++ [1]))) ∧
        (∀ p, noPartner (reqOf b) = false → packGood s = some p → ∃ t, exec (.rejoinFinish b false) s = .next t ∧ rejoined s b t ∧
          ((p.lmks.map fun x => (x.1, x.2.1)).Nodup → (∀ x ∈ p.lmks, x.2.1 < 2) → ∀ x ∈ p.lmks,
            (lmkOf t x.1).loaded = false ∧ (lmkSlot (lmkOf t x.1) x.2.1).key = none ∧
            (lmkSlot (lmkOf t x.1) x.2.1).role = x.2.2.1 ∧ (lmkSlot (lmkOf t x.1) x.2.1).gen = x.2.2.2.1 ∧
            (lmkSlot (lmkOf t x.1) x.2.1).occ = true ∧
            (hostRefusal s (vaultMaster x.1) 0 (blobAddr s x.1 x.2.1) 128 true = none → ∃ nonce, ∀ o ∈ writesOf s 0 (blobAddr s x.1 x.2.1)
              (blobBytes t.kst.vaultKey x.1 x.2.1 x.2.2.1 (lmkSlot (lmkOf t x.1) x.2.1).version x.2.2.2.1 nonce x.2.2.2.2) false,
              o ∈ t.out)) ∧
          (s.lcy.ledgerLost = false → t.par.bound = s.par.bound ∧ t.lcy.officers = s.lcy.officers))) ∧
      (drbgLive s 0 = false → ∃ t, exec (.rejoinFinish b false) s = .next t ∧ t.lcy = s.lcy))) ∧
  ∀ s : State,
    (∀ slot, slot < 16 → s.pwr.main = true → s.hif.linkUp = true → s.pwr.mode ≠ .guard →
      (drbgLive s 0 = true → ∃ t, exec (.chalIssue slot) s = .next t ∧ pfWrote s t ∧ t.lcy = { s.lcy with
        chalSlot := slot
        chals := s.lcy.chals.set slot ⟨1, drawnZero s 32, tick s⟩ }) ∧
      (drbgLive s 0 = false → ∃ t, exec (.chalIssue slot) s = .next t ∧ pfWrote s t ∧ t.lcy = s.lcy)) ∧
    (∀ slot c, s.lcy.chals[slot]? = some c →
      (s.pwr.main = true → c.state = 1 → c.tick + 300000000 < tick s → exec (.challengeExpiry slot) s = .next { s with
        lcy := { s.lcy with chals := s.lcy.chals.set slot { c with state := 3 } } }) ∧
      (c.state ≠ 1 ∨ tick s ≤ c.tick + 300000000 → exec (.challengeExpiry slot) s = .next s)) ∧
    (s.pwr.main = true → ∃ t, exec .debugLifeExpiry s = .next t ∧ t.kst = s.kst ∧ t.pwr = s.pwr ∧
      t.lcy = { s.lcy with
        intGrant := s.lcy.intGrant.filter fun g => decide (tick s < g.ends)
        scanGrant := s.lcy.scanGrant.filter fun g => decide (tick s < g.ends) } ∧
      ∀ g, s.lcy.intGrant = some g → g.ends ≤ tick s → logTakes s →
        recorded s t 0 0x0303 0 ([2] ++ leBytes 1 g.scope ++ leBytes 4 g.life ++ [1])) ∧
    (∀ n, s.lcy.holdEnd = some n → s.pwr.main = true →
      (n ≤ tick s → exec .tokenHoldExpiry s = .next { s with lcy := { s.lcy with holdEnd := none } }) ∧
      (tick s < n → exec .tokenHoldExpiry s = .next s)) ∧
    ∀ x, s.lcy.package = some x →
      (x.2 + 3600000000 ≤ tick s → exec .rejoinPackageExpiry s = .next { s with lcy := { s.lcy with package := none } }) ∧
      (tick s < x.2 + 3600000000 → exec .rejoinPackageExpiry s = .next s)

/-- METER_ADD, MINUTE_EDGE, RECEIPT_SIGNED, RCPT_HEAD_WRITE. -/
def Obligations.MinuteReceipts : Prop :=
  (∀ s : State, s.pwr.main = true →
    (∀ a l, s.mtr.adds = a :: l → meterFailed s a = false → ∃ t, exec .meterAdd s = .next t ∧ t.mtr.adds = l ∧
      tget 0 t.mtr.total (16 * a.fn + a.cls) = (tget 0 s.mtr.total (16 * a.fn + a.cls) + a.units) % 2 ^ 64 ∧
      (∀ k, k ≠ 16 * a.fn + a.cls → tget 0 t.mtr.total k = tget 0 s.mtr.total k) ∧
      t = { s with mtr := { s.mtr with total := t.mtr.total, adds := l } }) ∧
    ((∀ a ∈ s.mtr.adds, meterFailed s a = true) → exec .meterAdd s = .next s)) ∧
  (∀ s : State, s.pwr.main = true →
    (s.time.dev = none → exec .minuteEdge s = .next s) ∧
    (∀ d, s.time.dev = some d → s.mtr.lastMinute = none →
      exec .minuteEdge s = .next { s with mtr := { s.mtr with lastMinute := some (d / 60000000) } }) ∧
    ∀ d k, s.time.dev = some d → s.mtr.lastMinute = some k →
      (d / 60000000 ≤ k → exec .minuteEdge s = .next s) ∧
      (k < d / 60000000 → s.mtr.adds = [] → (rcptDue s).Nodup →
        ((∀ f ∈ rcptDue s, rcptCan s f = true ∧ (rcptOf s f).totals.length = 16) → s.mtr.used + s.mtr.waiting.length + (rcptDue s).length ≤ rcptSlots s →
          ∃ t, exec .minuteEdge s = .next t ∧ t = { s with mtr := t.mtr } ∧ t.mtr.lastMinute = some (d / 60000000) ∧
            t.mtr.total = s.mtr.total ∧ t.mtr.deferred = s.mtr.deferred ∧
            t.mtr.waiting.map (fun r => r.fn) = s.mtr.waiting.map (fun r => r.fn) ++ rcptDue s ∧
            (∀ f ∈ rcptDue s, receiptBuilt s t f (d / 60000000 - 1) ∧
              rcptOf t f = { rcptOf s f with
                seq := (rcptOf s f).seq + 1, minute := d / 60000000 - 1, totals := fnTotals s f, flags := 0, since := none }) ∧
            ∀ f, f ∉ rcptDue s → rcptOf t f = rcptOf s f) ∧
        (s.mtr.enable = false →
          ∃ t, exec .minuteEdge s = .next t ∧ t = { s with mtr := t.mtr } ∧ t.mtr.lastMinute = some (d / 60000000) ∧
            t.mtr.total = s.mtr.total ∧ t.mtr.waiting = s.mtr.waiting ∧
            t.mtr.deferred = (if rcptDue s = [] then s.mtr.deferred else min 0xFFFF (s.mtr.deferred + (rcptDue s).length)) ∧
            (∀ f ∈ rcptDue s, rcptOf t f = { rcptOf s f with since := some ((rcptOf s f).since.getD (d / 60000000 - 1)) }) ∧
            ∀ f, f ∉ rcptDue s → rcptOf t f = rcptOf s f))) ∧
  (∀ (s : State) (r : Rcpt) (seed sig : Bytes), s.pwr.main = true → s.mtr.waiting = [r] → r.sig = none → devSeed s 3 = some seed →
    sig = slhSign slh256f seed (ascii "EHROS-RCPT" ++ r.body) → s.mtr.enable = true →
    (streamOn s = false → (r.fn = 0 ∨ (fnOf s r.fn).rcptCopy.testBit 0 = false) → r.body.length = 344 →
      hostRefusal s (hifMaster 0 0) 0 (s.mtr.base + 65536 * s.mtr.tail + 4) 50196 true = none →
      hostRefusal s (hifMaster 0 0) 0 (s.mtr.base + 65536 * s.mtr.tail) 4 true = none →
      ∃ t, exec .receiptSigned s = .next t ∧ t.mtr.waiting = [] ∧ t.mtr.tail = (s.mtr.tail + 1) % 2 ^ s.mtr.log2 ∧ t.mtr.used = s.mtr.used + 1 ∧
        (rcptOf t r.fn).digest = shake256 32 (r.body ++ sig) ∧ t.mtr.total = s.mtr.total ∧
        ∃ l m, (∀ o ∈ l ++ m, ∃ f v a d, o = Out.msix f v a d) ∧
          t.out = s.out ++ writesOf s 0 (s.mtr.base + 65536 * s.mtr.tail + 4) ((r.body ++ sig).drop 4) false ++ l ++
            [.write 0 (s.mtr.base + 65536 * s.mtr.tail) ((r.body ++ sig).take 4) false (noSnoopAt s 0 (s.mtr.base + 65536 * s.mtr.tail))] ++ m) ∧
    (streamOn s = true → s.par.acked < s.par.txNext →
      ∃ t, exec .receiptSigned s = .next t ∧ t.mtr.waiting = [{ r with sig := some sig, mseq := some s.par.txNext }] ∧
        t.mtr.tail = s.mtr.tail ∧ t.mtr.used = s.mtr.used ∧ t.out = s.out ∧ t.par.txNext = s.par.txNext + 1 ∧
        ∃ h, h.length = 16 ∧ leAt h 0 1 = 6 ∧ leAt h 8 8 = s.par.txNext % 2 ^ 64 ∧
          t.par.txq = s.par.txq ++ [(s.par.txNext, h ++ (r.body ++ sig))])) ∧
  ∀ (s : State) (head : Nat), regsTake s →
    ∃ t, exec (.rcptHeadWrite head) s = .next t ∧ mtrWrote s t ∧
      (let n := rcptSlots s
       let k := (head + n - s.mtr.head) % n
       if head < n ∧ k ≤ s.mtr.used then t.mtr = { s.mtr with head := head, used := s.mtr.used - k } else t.mtr = s.mtr)

/-- DATA_FRAME and PROBE_REPLY, and what every frame row does at ingress. -/
def Obligations.RoutedFrames : Prop :=
  (∀ i, frameRows i → ∀ (s : State) (p : Nat) (b : List Byte),
    (portsWhole s → fabOn s = true → portUp s p = true → s.dbg.inj = none → unwire b = none → ∃ t, exec (i p b) s = .next t ∧
      portOf t p = { portOf s p with crc := min 0xFFFF ((portOf s p).crc + 1) } ∧ (∀ q, q ≠ p → portOf t q = portOf s q) ∧
      sentNow s t (.port p (ctlBlock 2 0 ((portOf s p).rxSeq + 1))) ∧
      t = { s with
        phl := { s.phl with ports := t.phl.ports }
        dbg := { s.dbg with corr := t.dbg.corr, secCorr := t.dbg.secCorr }
        out := t.out }) ∧
    (∀ h, portsWhole s → fabOn s = true → portUp s p = true → s.dbg.inj = none → unwire b = some h →
      fLseq h ≠ ((portOf s p).rxSeq + 1) % 2 ^ 32 → ∃ t, exec (i p b) s = .next t ∧
        portOf t p = { portOf s p with heard := s.time.refCount, silent := false } ∧ (∀ q, q ≠ p → portOf t q = portOf s q) ∧
        t = { s with phl := { s.phl with ports := t.phl.ports } }) ∧
    (∀ h, frameNext s p b h → fBad h = true ∨ h.length ≠ 32 + fLen h → ∃ t, exec (i p b) s = .next t ∧
      portOf t p = { portTook (portOf s p) s.time.refCount h with dFormat := min 0xFF ((portOf s p).dFormat + 1) } ∧
      (∀ q, q ≠ p → portOf t q = portOf s q) ∧ portsOnly s t) ∧
    (fabOn s = false ∨ portUp s p = false → s.dbg.inj = none → exec (i p b) s = .next s)) ∧
  ∀ i type, routedRows i type → ∀ (s : State) (p : Nat) (b h : List Byte), fType h = type →
    (frameGood s p b h →
      (fVc h = 3 → (fSrcrt h = true ∧ 1 ≤ rtNh (fRoute h) ∧ rtNh (fRoute h) ≤ 16 ∧ rtPtr (fRoute h) = rtNh (fRoute h)) ∨
          (fSrcrt h = false ∧ s.phl.valid = true ∧ fDst h = s.phl.addr) → ∃ t, exec (i p b) s = .next t ∧ frameTaken s t p h ∧ fired s t 0 8 ∧
        phlFrame s t ∧ t.phl = { s.phl with ports := t.phl.ports, mrx := t.phl.mrx, mrxDropped := t.phl.mrxDropped } ∧
        (s.phl.mrx.length < 16 → t.phl.mrxDropped = s.phl.mrxDropped ∧ t.phl.mrx = s.phl.mrx ++
          [if fSrcrt h then patch h 16 (leBytes 8 (rtMake (rtNh (fRoute h)) (rtPtr (fRoute h)) (hopsBack h p))) else h]) ∧
        (16 ≤ s.phl.mrx.length → t.phl.mrx = s.phl.mrx ∧ t.phl.mrxDropped = min 0xFF (s.phl.mrxDropped + 1))) ∧
      (fSrcrt h = false → (s.phl.valid = true → fDst h ≠ s.phl.addr) →
        (fHops h = 0 → ∃ t, exec (i p b) s = .next t ∧ portsOnly s t ∧ (∀ q, q ≠ p → portOf t q = portOf s q) ∧
          portOf t p = { portTook (portOf s p) s.time.refCount h with dHops := min 0xFF ((portOf s p).dHops + 1) }) ∧
        (fHops h ≠ 0 → routePort s (fDst h) = none → ∃ t, exec (i p b) s = .next t ∧ portsOnly s t ∧ (∀ q, q ≠ p → portOf t q = portOf s q) ∧
          portOf t p = { portTook (portOf s p) s.time.refCount h with dNoroute := min 0xFF ((portOf s p).dNoroute + 1) }) ∧
        (∀ q, fHops h ≠ 0 → routePort s (fDst h) = some q → q ≠ p → portReady s q (fVc h) → ∃ t, exec (i p b) s = .next t ∧ portsOnly s t ∧
          portOf t p = portTook (portOf s p) s.time.refCount h ∧ (∀ x, x ≠ p → x ≠ q → portOf t x = portOf s x) ∧
          sentNow s t (.port q (wire (patch h 6 (leBytes 1 (fHops h - 1))) (portOf s q).txSeq)) ∧
          (portOf t q).txSeq = ((portOf s q).txSeq + 1) % 2 ^ 32 ∧
          credOf t q (fVc h) = { credOf s q (fVc h) with
            held := (credOf s q (fVc h)).held - fCredits (fLen h), sent := ((credOf s q (fVc h)).sent + fCredits (fLen h)) % 2 ^ 32 })) ∧
      (fSrcrt h = true → rtNh (fRoute h) ≤ 16 → 1 ≤ rtPtr (fRoute h) → rtPtr (fRoute h) < rtNh (fRoute h) →
        (∀ q, q = rtEntry (fRoute h) (rtPtr (fRoute h)) → q ≠ p → portReady s q (fVc h) → ∃ t, exec (i p b) s = .next t ∧ portsOnly s t ∧
          portOf t p = portTook (portOf s p) s.time.refCount h ∧ (∀ x, x ≠ p → x ≠ q → portOf t x = portOf s x) ∧
          sentNow s t (.port q (wire (patch h 16 (leBytes 8 (rtMake (rtNh (fRoute h)) (rtPtr (fRoute h) + 1) (hopsBack h p)))) (portOf s q).txSeq))) ∧
        (portUp s (rtEntry (fRoute h) (rtPtr (fRoute h))) = false → ∃ t, exec (i p b) s = .next t ∧ portsOnly s t ∧ frameTaken s t p h)) ∧
      (type = 1 → fVc h ≠ 3 → fSrcrt h = false → s.phl.valid = true → fDst h = s.phl.addr →
        (s.par.bound = false → s.pwr.mode ≠ .recovery → ∃ t, exec (i p b) s = .next t ∧ portsOnly s t ∧ (∀ q, q ≠ p → portOf t q = portOf s q) ∧
          portOf t p = { portTook (portOf s p) s.time.refCount h with dFormat := min 0xFF ((portOf s p).dFormat + 1) }) ∧
        (s.par.bound = true → fSrcValid h = true → fSrc h = s.par.addr → fVc h < 2 →
          ∃ t, exec (i p b) s = .next t ∧ portsOnly s t ∧ frameTaken s t p h))) ∧
    (frameNext s p b h → fBad h = false → h.length = 32 + fLen h → fSrcValid h = true → s.phl.valid = true → fSrc h = s.phl.addr → fVc h ≠ 2 →
      s.phl.evts.length < 64 → ∃ t, exec (i p b) s = .next t ∧ t.phl.conflict = true ∧ fired s t 0 8 ∧
        ∃ e ∈ t.phl.evts, leAt e 0 1 = 6 ∧ leAt e 1 1 = p ∧ leAt e 4 2 = fSrc h)

/-- READ_ID, ASSIGN, PROBE_RELEASE, ROUTE_WRITE, ROUTE_READ, PORT_READ, PROBE_UNKNOWN_OP. -/
def Obligations.Probes : Prop :=
  ∀ (s : State) (p : Nat) (b h : List Byte),
    (probeArrives s p 1 b h → ∃ t x, exec (.readId p b) s = .next t ∧ probeOnly s t p h 0 x ∧ x.length = 60 ∧
      slice x 0 16 = padTo 16 s.lcy.ident ∧ leAt x 16 4 = (b2n s.phl.valid * 2 ^ 31 + b2n s.phl.conflict * 2 ^ 30 + s.phl.addr) % 2 ^ 32 ∧
      leAt x 20 1 = lcsCode s.lcy.state ∧ leAt x 21 1 = 0xB1 ∧ leAt x 22 1 = b2n s.phl.cfgLock ∧ leAt x 24 2 = s.phl.fmAddr % 65536 ∧
      ∀ q, q < 8 → q ≠ p → leAt x (28 + 4 * q) 4 = portStatWord (portOf s q) % 2 ^ 32) ∧
    (probeArrives s p 2 b h → 34 ≤ fLen h → probeFree s h →
      (slice h 48 16 ≠ padTo 16 s.lcy.ident → ∃ t, exec (.assign p b) s = .next t ∧ probeOnly s t p h 1 []) ∧
      (slice h 48 16 = padTo 16 s.lcy.ident →
        (s.phl.valid = true → ∃ t, exec (.assign p b) s = .next t ∧ probeOnly s t p h (if leAt h 64 2 % 4096 = s.phl.addr then 0 else 4) []) ∧
        (s.phl.valid = false → ∃ t, exec (.assign p b) s = .next t ∧ probeAnswered s t p true (leAt h 64 2 % 4096) h 0 [] ∧ t.phl.valid = true ∧
          t.phl.addr = leAt h 64 2 % 4096 ∧ t.phl.route = s.phl.route ∧ ∀ q, portReady s q 3 → neighborSent s t q true (leAt h 64 2 % 4096)))) ∧
    (probeArrives s p 3 b h → 32 ≤ fLen h → probeFree s h →
      (slice h 48 16 ≠ padTo 16 s.lcy.ident → ∃ t, exec (.probeRelease p b) s = .next t ∧ probeOnly s t p h 1 []) ∧
      (slice h 48 16 = padTo 16 s.lcy.ident → ∃ t, exec (.probeRelease p b) s = .next t ∧ probeAnswered s t p false s.phl.addr h 0 [] ∧
        t.phl.valid = false ∧ t.phl.addr = s.phl.addr ∧ t.phl.route = s.phl.route)) ∧
    (probeArrives s p 4 b h → 20 ≤ fLen h → probeFree s h → 1 ≤ leAt h 50 2 → leAt h 50 2 ≤ 64 →
      (leAt h 48 2 + leAt h 50 2 ≤ 4096 → ∃ t, exec (.routeWrite p b) s = .next t ∧ probeAnswered s t p s.phl.valid s.phl.addr h 0 [] ∧
        (∀ k, k < leAt h 50 2 → routeAt t (leAt h 48 2 + k) = leAt h (52 + 2 * k) 2 / 256 * 256) ∧
        (∀ a, a < leAt h 48 2 ∨ leAt h 48 2 + leAt h 50 2 ≤ a → routeAt t a = routeAt s a) ∧
        t.phl = { s.phl with ports := t.phl.ports, e2e := t.phl.e2e, route := t.phl.route }) ∧
      (4096 < leAt h 48 2 + leAt h 50 2 → ∃ t, exec (.routeWrite p b) s = .next t ∧ probeOnly s t p h 3 [])) ∧
    (∀ i op, lockedProbes i op → probeArrives s p op b h → ¬ probeFree s h → ∃ t, exec (i p b) s = .next t ∧ probeOnly s t p h 2 []) ∧
    (probeArrives s p 5 b h → 20 ≤ fLen h → 1 ≤ leAt h 50 2 → leAt h 50 2 ≤ 64 →
      (leAt h 48 2 + leAt h 50 2 ≤ 4096 → ∃ t x, exec (.routeRead p b) s = .next t ∧ probeOnly s t p h 0 x ∧ x.length = 2 * leAt h 50 2 ∧
        ∀ k, k < leAt h 50 2 → leAt x (2 * k) 2 = routeAt s (leAt h 48 2 + k) % 65536) ∧
      (4096 < leAt h 48 2 + leAt h 50 2 → ∃ t, exec (.routeRead p b) s = .next t ∧ probeOnly s t p h 3 [])) ∧
    (probeArrives s p 6 b h → ∃ t x, exec (.portRead p b) s = .next t ∧ probeOnly s t p h 0 x ∧ x.length = 64 ∧ ∀ q, q < 8 →
      leAt x (8 * q) 4 = ((portOf s q).crc * 65536 + (portOf s q).replays) % 2 ^ 32 ∧
      leAt x (8 * q + 4) 4 = ((portOf s q).dHops * 2 ^ 24 + (portOf s q).dNoroute * 2 ^ 16 + (portOf s q).dFormat * 2 ^ 8 + (portOf s q).dLost) % 2 ^ 32) ∧
    ∀ op, probeArrives s p op b h → (op = 0 ∨ 6 < op) → ∃ t, exec (.probeUnknownOp p b) s = .next t ∧ probeOnly s t p h 5 []

/-- AUDIT_FRAME, AUDIT_PERIOD_TIMER, SYNC_REQ, SYNC_RSP, SYNC_PERIOD_TIMER, NEIGHBOR. -/
def Obligations.LinkLocalFrames : Prop :=
  (∀ (s : State) (p : Nat) (b h : List Byte), frameGood s p b h →
    (fType h = 4 → fLen h = 20 →
      let c := credOf s p (fVc h)
      let w := fun i => leAt h (32 + 4 * i) 4
      let good := (c.rx + 2) % 2 ^ 32 = w 0 ∧ w 2 + w 3 + (w 0 + 2 ^ 32 - w 1) % 2 ^ 32 = w 4 ∧
        c.occ + 2 = ((c.rx + 2) % 2 ^ 32 + 2 ^ 32 - c.ret) % 2 ^ 32 ∧ (c.ret + 2 ^ 32 - w 1) % 2 ^ 32 ≤ w 4 ∧ w 4 = credTotal (fVc h)
      (good → ∃ t, exec (.auditFrame p b) s = .next t ∧ frameTaken s t p h ∧ phlFrame s t ∧
        t.phl = { s.phl with ports := t.phl.ports, audits := (s.phl.audits + 1) % 65536 }) ∧
      (¬ good → s.dbg.errs.length < 64 → ∃ t, exec (.auditFrame p b) s = .next t ∧ t.phl.audits = s.phl.audits ∧
        t.phl.auditFails = min 0xFFFF (s.phl.auditFails + 1) ∧ (portOf t p).st = .retrain ∧
        (portOf t p).retrains = min 0xFF ((portOf s p).retrains + 1) ∧ fired s t 0 8 ∧
        (s.phl.evts.length < 64 → ∃ e ∈ t.phl.evts, leAt e 0 1 = 5 ∧ leAt e 1 1 = p ∧ leAt e 2 1 = fVc h) ∧
        ∃ r ∈ t.dbg.errs, r.det = 0x0F ∧ r.sev = 2 ∧ r.unit = p + 256 * fVc h ∧ r.time = timeField s)) ∧
    (fType h = 5 →
      (s.time.dev = none → ∃ t, exec (.syncReq p b) s = .next t ∧ frameTaken s t p h ∧ portsOnly s t) ∧
      (∀ d, s.time.dev = some d → s.time.frac < 10 ^ 9 → portReady s p 3 → ∃ t x q, exec (.syncReq p b) s = .next t ∧ portsOnly s t ∧
        (portOf t p).rxSeq = fLseq h ∧ sentNow s t (.port p (wire x q)) ∧ fType x = 6 ∧ fVc x = 3 ∧ fLen x = 24 ∧
        leAt x 32 8 = d % 2 ^ 64 ∧ leAt x 40 8 = d % 2 ^ 64 ∧ leAt x 48 2 = s.time.frac * 65536 / 10 ^ 9 ∧ leAt x 50 2 = s.time.frac * 65536 / 10 ^ 9 ∧
        leAt x 52 1 = (if s.phl.role = 1 then 0 else s.phl.distance) % 256)) ∧
    (fType h = 6 → ∀ t1 d, s.phl.t1 = some t1 → s.time.dev = some d →
      (s.phl.role ≠ 2 ∨ p ≠ s.phl.upstream ∨ 32 ≤ leAt h 52 1 →
        ∃ t, exec (.syncRsp p b) s = .next t ∧ frameTaken s t p h ∧ portsOnly s t) ∧
      (s.phl.role = 2 → p = s.phl.upstream → leAt h 52 1 < 32 →
        let t2 : Int := leAt h 32 8 * 65536 + leAt h 48 2
        let t3 : Int := leAt h 40 8 * 65536 + leAt h 50 2
        let t4 : Int := (d * 65536 + s.time.frac * 65536 / 10 ^ 9 : Nat)
        let delay : Int := ((t4 - t1) - (t3 - t2)) / 2
        let offset : Int := ((t2 - t1) + (t3 - t4)) / 2
        let late : Int := offset * 1000 / 65536
        let good := if late.natAbs < 1000 then s.phl.good + 1 else 0
        ∃ t e, exec (.syncRsp p b) s = .next t ∧ t.phl.t1 = none ∧ t.phl.distance = leAt h 52 1 + 1 ∧ t.phl.missed = 0 ∧ t.phl.good = good ∧
          t.phl.exchanges = ((delay, offset) :: s.phl.exchanges).take 8 ∧ e ∈ t.phl.exchanges ∧ (∀ f ∈ t.phl.exchanges, e.1 ≤ f.1) ∧
          (let ns := e.2 * 1000 / 65536
           t.phl.timeFar = decide (10 ^ 10 < ns.natAbs) ∧ (-(2 ^ 31) ≤ ns → ns < 2 ^ 31 → t.phl.offset = ns) ∧
           (ns.natAbs ≤ 10 ^ 10 → t.time = { s.time with slew := max (-20000) (min 20000 (ns / 10)) }) ∧
           (10 ^ 10 < ns.natAbs → t.time = { s.time with slew := 0 } ∧ (s.phl.timeFar = false → healthSent s t 13))) ∧
          (late.natAbs < 10000 → t.mtr = { s.mtr with disciplined := s.mtr.disciplined || decide (8 ≤ good) }) ∧
          (10000 ≤ late.natAbs → t.mtr = { s.mtr with disciplined := false } ∧
            (s.mtr.disciplined = true → s.phl.evts.length < 64 → ∃ x ∈ t.phl.evts, leAt x 0 1 = 9)))) ∧
    (fType h = 7 → ∃ t, exec (.neighbor p b) s = .next t ∧ phlFrame s t ∧ (∀ q, q ≠ p → portOf t q = portOf s q) ∧
      portOf t p = { portTook (portOf s p) s.time.refCount h with nb := leAt h 48 2 % 4096, nbValid := (leAt h 50 1).testBit 0 } ∧
      eventQueued s t 1 p 0xFF (if (leAt h 50 1).testBit 0 then leAt h 48 2 % 4096 else 0xFFFF))) ∧
  (∀ s : State, portsWhole s → fabOn s = true →
    (tick s < s.phl.auditAt + s.phl.auditPeriod → exec .auditPeriodTimer s = .next s) ∧
    (s.phl.auditAt + s.phl.auditPeriod ≤ tick s → ∃ t, exec .auditPeriodTimer s = .next t ∧ t.phl.auditAt = tick s ∧ phlFrame s t ∧
      ((∀ x ∈ s.phl.ports, x.queue = []) → ∀ q, portUp s q = false → portOf t q = portOf s q) ∧
      ∀ p, (∀ v, v < 4 → portReady s p v) → ∀ v, v < 4 → ∃ x q, sentNow s t (.port p (wire x q)) ∧ fType x = 4 ∧ fVc x = v ∧ fLen x = 20 ∧
        leAt x 32 4 = ((credOf s p v).sent + 2) % 2 ^ 32 ∧ leAt x 36 4 = (credOf s p v).back % 2 ^ 32 ∧
        leAt x 40 4 = ((credOf s p v).held - 2) % 2 ^ 32 ∧ leAt x 44 4 = (credOf s p v).rsv % 2 ^ 32 ∧ leAt x 48 4 = credTotal v)) ∧
  ∀ s : State, portsWhole s → fabOn s = true →
    (s.phl.role ≠ 2 ∨ s.time.dev = none ∨ tick s < s.phl.syncAt + s.phl.syncPeriod → exec .syncPeriodTimer s = .next s) ∧
    ∀ d, s.phl.role = 2 → s.time.dev = some d → s.phl.syncAt + s.phl.syncPeriod ≤ tick s →
      let missed := if s.phl.t1.isSome then s.phl.missed + 1 else s.phl.missed
      ∃ t, exec .syncPeriodTimer s = .next t ∧ t.phl.t1 = some (d * 65536 + s.time.frac * 65536 / 10 ^ 9) ∧ t.phl.syncAt = tick s ∧
        t.phl.missed = missed ∧ t.mtr = { s.mtr with disciplined := s.mtr.disciplined && decide (missed < 8) } ∧ t.time = s.time ∧
        (portReady s s.phl.upstream 3 → ∃ x q, sentNow s t (.port s.phl.upstream (wire x q)) ∧ fType x = 5 ∧ fVc x = 3 ∧ fLen x = 0)

/-- LINK_ACK, LINK_NAK, LINK_CREDIT, LINK_IDLE, LINK_ACK_TIMEOUT (the layout of a control block is the model's: log entry 24); RETRAIN_DONE,
PORT_TRAIN_DONE, TRAIN_RETRY_TIMER, PORT_LEAVE_UP, REPLAY_DISCARD_TIMER, PORT_SILENCE, PORT_RETRAIN, PORT_ENABLE_WRITE. -/
def Obligations.LinksAndPorts : Prop :=
  ((∀ i, linkBlocks i → ∀ (s : State) (p : Nat) (b : List Byte),
     fabOn s = false ∨ portUp s p = false ∨ b.length ≠ 8 ∨ leAt b 6 2 ≠ (crc16ccitt (b.take 6)).toNat → exec (i p b) s = .next s) ∧
   (∀ (s : State) (p v n : Nat) (b : List Byte),
     (blockArrives s p 0 v n b → ∃ t, exec (.linkIdle p b) s = .next t ∧ portsHeard s t p ∧
       portOf t p = { portOf s p with heard := s.time.refCount, silent := false }) ∧
     (∀ q, blockArrives s p 1 v n b → q % 65536 = n → q < 2 ^ 32 → (portOf s p).txSeq < 2 ^ 32 →
       ((portOf s p).txSeq + 2 ^ 32 - 1 + 2 ^ 32 - q) % 2 ^ 32 < 65536 → (portOf s p).queue = [] →
       ∃ t, exec (.linkAck p b) s = .next t ∧ (∀ x, x ≠ p → portOf t x = portOf s x) ∧
         portOf t p = { portOf s p with
           heard := s.time.refCount
           silent := false
           replay := (portOf s p).replay.filter fun r => !decide (seqUpTo r.1 q)
           ackAt := if ∃ r ∈ (portOf s p).replay, seqUpTo r.1 q then s.time.refCount else (portOf s p).ackAt } ∧
         ((∀ r ∈ (portOf s p).replay, seqUpTo r.1 q → r.2.mseq = none) → portsHeard s t p) ∧
         ∀ r ∈ (portOf s p).replay, seqUpTo r.1 q → ∀ m, r.2.mseq = some m → m ≤ t.par.accepted) ∧
     (∀ q, blockArrives s p 2 v n b → q % 65536 = n → q < 2 ^ 32 → (portOf s p).txSeq < 2 ^ 32 →
       ((portOf s p).txSeq + 2 ^ 32 - 1 + 2 ^ 32 - q) % 2 ^ 32 < 65536 →
       ∃ t, exec (.linkNak p b) s = .next t ∧ portsOnly s t ∧ (∀ x, x ≠ p → portOf t x = portOf s x) ∧
         portOf t p = { portOf s p with
           heard := s.time.refCount
           silent := false
           replay := (portOf s p).replay.map fun r => if r.1 = q then (r.1, { r.2 with naks := r.2.naks + 1 }) else r
           replays := min 0xFFFF ((portOf s p).replays + ((portOf s p).replay.filter fun r => decide (seqUpTo q r.1)).length) } ∧
         ∀ r ∈ (portOf s p).replay, seqUpTo q r.1 → sentNow s t (.port p (wire r.2.bytes r.1))) ∧
     (blockArrives s p 3 v n b → v < 4 → (portOf s p).queue = [] → ∃ t, exec (.linkCredit p b) s = .next t ∧ portsHeard s t p ∧
       (let d := (n + 65536 - (credOf s p v).back % 65536) % 65536
        portOf t p = { portOf s p with
          heard := s.time.refCount
          silent := false
          cred := (portOf s p).cred.modify v fun c => { c with held := c.held + d, back := (c.back + d) % 2 ^ 32 } })) ∧
     (blockArrives s p 3 v n b → 4 ≤ v → exec (.linkCredit p b) s = .next s)) ∧
   ∀ (s : State) (p : Nat), portsWhole s → portUp s p = true → (portOf s p).replay ≠ [] →
     ((portOf s p).ackAt + 1000 ≤ s.time.refCount ∨ (∃ r ∈ (portOf s p).replay, 8 ≤ r.2.naks) →
       ∃ t, exec (.linkAckTimeout p) s = .next t ∧ portLeft s t p .retrain ∧ (portOf t p).retrains = min 0xFF ((portOf s p).retrains + 1)) ∧
     (s.time.refCount < (portOf s p).ackAt + 1000 → (∀ r ∈ (portOf s p).replay, r.2.naks < 8) → exec (.linkAckTimeout p) s = .next s)) ∧
  (∀ (s : State) (p : Nat), portsWhole s → fabOn s = true → p < 8 →
    (∀ peer occ, (portOf s p).st = .retrain →
      (∃ t, exec (.retrainDone p true peer occ) s = .next t ∧ portCame s t p occ ∧ phlFrame s t ∧
        ((portOf s p).queue = [] → ∀ q, q ≠ p → portOf t q = portOf s q) ∧
        ∀ r ∈ (portOf s p).replay, ¬ seqUpTo r.1 peer → sentNow s t (.port p (wire r.2.bytes r.1))) ∧
      ∃ t, exec (.retrainDone p false peer occ) s = .next t ∧ portOf t p = { portOf s p with st := .training, tries := 0 } ∧ portsHeard s t p) ∧
    (∀ ok peer occ, (portOf s p).st ≠ .retrain → exec (.retrainDone p ok peer occ) s = .next s) ∧
    (∀ peer occ, (portOf s p).st = .training → (portOf s p).enable = true →
      (∃ t, exec (.portTrainDone p true peer occ) s = .next t ∧ portCame s t p occ ∧ phlFrame s t ∧
        (portOf t p).slow = ((portOf s p).force56 || decide (3 ≤ (portOf s p).tries)) ∧ (portOf t p).rxSeq = 0 ∧
        ((portOf s p).force56 = false → 3 ≤ (portOf s p).tries → s.phl.evts.length < 62 → ∃ e ∈ t.phl.evts, leAt e 0 1 = 8 ∧ leAt e 1 1 = p)) ∧
      ∃ t, exec (.portTrainDone p false peer occ) s = .next t ∧ portsHeard s t p ∧
        portOf t p = if (portOf s p).force56 = true ∨ 3 ≤ (portOf s p).tries then { portOf s p with st := .down, failedAt := some s.time.refCount }
          else { portOf s p with tries := (portOf s p).tries + 1 }) ∧
    (∀ ok peer occ, (portOf s p).st ≠ .training ∨ (portOf s p).enable = false → exec (.portTrainDone p ok peer occ) s = .next s) ∧
    (∀ n, (portOf s p).failedAt = some n → (portOf s p).st = .down → (portOf s p).enable = true →
      (n + 10000000 ≤ s.time.refCount → ∃ t, exec (.trainRetryTimer p) s = .next t ∧ portsHeard s t p ∧
        portOf t p = { portOf s p with st := .training, tries := 0, failedAt := none }) ∧
      (s.time.refCount < n + 10000000 → exec (.trainRetryTimer p) s = .next s)) ∧
    (portUp s p = true → ∃ t, exec (.portLeaveUp p) s = .next t ∧ portLeft s t p .training ∧ (portOf t p).tries = 0) ∧
    (portUp s p = false → exec (.portLeaveUp p) s = .next s) ∧
    (∀ n, (portOf s p).left = some n →
      (n + 100000 ≤ s.time.refCount → ∃ t, exec (.replayDiscardTimer p) s = .next t ∧ portsHeard s t p ∧
        portOf t p = { portOf s p with replay := [], dLost := min 0xFF ((portOf s p).dLost + (portOf s p).replay.length) }) ∧
      (s.time.refCount < n + 100000 → exec (.replayDiscardTimer p) s = .next s)) ∧
    ((portOf s p).silent = false → (portOf s p).heard + 100000000 ≤ s.time.refCount →
      (s.phl.valid = false ∨ (∃ x ∈ s.phl.ports, x.enable = true ∧ s.time.refCount < x.heard + 100000000) →
        ∃ t, exec (.portSilence p) s = .next t ∧ phlFrame s t ∧ (∀ q, q ≠ p → portOf t q = portOf s q) ∧ t.phl.valid = s.phl.valid ∧
          portOf t p = { portOf s p with silent := true, nb := 0, nbValid := false } ∧
          eventQueued s t 3 p 0xFF (if (portOf s p).nbValid then (portOf s p).nb % 65536 else 0xFFFF)) ∧
      (s.phl.valid = true → (∀ x ∈ s.phl.ports, x.enable = true → x.heard + 100000000 ≤ s.time.refCount) →
        ∃ t, exec (.portSilence p) s = .next t ∧ phlFrame s t ∧ t.phl.valid = false ∧ t.phl.addr = s.phl.addr ∧
          (portOf t p).silent = true ∧ (portOf t p).nbValid = false ∧
          (s.phl.evts.length < 63 → (∃ e ∈ t.phl.evts, leAt e 0 1 = 3 ∧ leAt e 1 1 = p) ∧
            ∃ e ∈ t.phl.evts, leAt e 0 1 = 7 ∧ leAt e 1 1 = 0xFF ∧ leAt e 4 2 = s.phl.addr % 65536))) ∧
    ((portOf s p).silent = true ∨ s.time.refCount < (portOf s p).heard + 100000000 → exec (.portSilence p) s = .next s)) ∧
  ∀ (s : State) (p v : Nat), portsWhole s → regsTake s → p < 8 →
    (v.testBit 2 = true → v.testBit 0 = true → portUp s p = true → (portOf s p).enable = true → ∃ t, exec (.portRetrain p v) s = .next t ∧
      portLeft s t p .retrain ∧ (portOf t p).retrains = min 0xFF ((portOf s p).retrains + 1) ∧ (portOf t p).force56 = v.testBit 1) ∧
    (v.testBit 2 = true → v.testBit 0 = true → (portOf s p).st = .down → (portOf s p).enable = true → ∃ t, exec (.portRetrain p v) s = .next t ∧
      phlWrote s t ∧ portOf t p = { portOf s p with force56 := v.testBit 1 }) ∧
    (v.testBit 0 = false →
      (portUp s p = true → ∃ t, exec (.portEnableWrite p v) s = .next t ∧ portLeft s t p .down ∧ (portOf t p).enable = false) ∧
      (portUp s p = false → ∃ t, exec (.portEnableWrite p v) s = .next t ∧ phlWrote s t ∧ (∀ q, q ≠ p → portOf t q = portOf s q) ∧
        portOf t p = { portOf s p with enable := false, force56 := v.testBit 1, st := .down, failedAt := none })) ∧
    (v.testBit 0 = true → v.testBit 2 = false → ∃ t, exec (.portEnableWrite p v) s = .next t ∧ phlWrote s t ∧ (∀ q, q ≠ p → portOf t q = portOf s q) ∧
      portOf t p = if (portOf s p).enable = false ∨ (portOf s p).st = .disabled then
          { portOf s p with enable := true, force56 := v.testBit 1, st := .training, tries := 0, failedAt := none }
        else { portOf s p with enable := true, force56 := v.testBit 1 })

/-- ADDR_SET, ADDR_RELEASE, MTX_SEND, MRX_NEXT, EVT_NEXT; the common command codes of I3C and the control messages of MCTP, and the
private read. -/
def Obligations.FabricAndManagement : Prop :=
  ((∀ (s : State) (v : Nat), portsWhole s → regsTake s →
     (v.testBit 29 = true → v.testBit 28 = false → ∃ t, exec (.addrSet v) s = .next t ∧ phlWrote s t ∧ t.phl.route = s.phl.route ∧
       t.phl.conflict = (s.phl.conflict && !v.testBit 30) ∧ t.phl.valid = true ∧ t.phl.addr = (if s.phl.valid then s.phl.addr else v % 4096) ∧
       (s.phl.valid = false → ∀ p, portReady s p 3 → neighborSent s t p true (v % 4096)) ∧
       (s.phl.valid = true → t.phl = { s.phl with conflict := t.phl.conflict })) ∧
     (v.testBit 28 = true → v.testBit 29 = false → ∃ t, exec (.addrRelease v) s = .next t ∧ phlWrote s t ∧ t.phl.route = s.phl.route ∧
       t.phl.conflict = (s.phl.conflict && !v.testBit 30) ∧ t.phl.valid = false ∧ t.phl.addr = (if s.phl.valid then s.phl.addr else v % 4096) ∧
       (s.phl.valid = true → ∀ p, portReady s p 3 → neighborSent s t p false s.phl.addr))) ∧
   (∀ s : State, portsWhole s → regsTake s → s.phl.mtx.length = 288 →
     (s.phl.mtxBusy = true → ∃ t, exec .mtxSend s = .next t ∧ t.phl = s.phl ∧ phlWrote s t ∧ t.out = s.out) ∧
     (∀ q, s.phl.mtxBusy = false →
       (fSrcrt s.phl.mtx = true ∧ q = rtEntry (fRoute s.phl.mtx) 0 ∧ portUp s q = true) ∨
         (fSrcrt s.phl.mtx = false ∧ s.phl.valid = true ∧ routePort s (fDst s.phl.mtx) = some q) →
       (portReady s q 3 → fType s.phl.mtx ≠ 4 → ∃ t x, exec .mtxSend s = .next t ∧ phlWrote s t ∧ t.phl = { s.phl with ports := t.phl.ports, mtxBusy := false } ∧
         (∀ p, p ≠ q → portOf t p = portOf s p) ∧ sentNow s t (.port q (wire x (portOf s q).txSeq)) ∧ fType x = fType s.phl.mtx ∧ fVc x = 3 ∧
         fSrcrt x = fSrcrt s.phl.mtx ∧ fSrcValid x = fSrcValid s.phl.mtx ∧ fDst x = fDst s.phl.mtx ∧
         (fSrcrt s.phl.mtx = false → fRoute x = fRoute s.phl.mtx) ∧
         (fSrcrt s.phl.mtx = true → rtPtr (fRoute x) = 1 ∧ rtNh (fRoute x) = rtNh (fRoute s.phl.mtx) ∧
           ∀ k, k < 16 → rtEntry (fRoute x) k = rtEntry (fRoute s.phl.mtx) k) ∧
         leAt x 10 2 = leAt s.phl.mtx 10 2 ∧ fSrc x = (if fSrcValid s.phl.mtx then s.phl.addr % 4096 else fSrc s.phl.mtx) ∧
         (fSrcrt s.phl.mtx = false → fHops x = s.phl.hopLimit % 256) ∧ fLen x = min 256 (fLen s.phl.mtx) ∧
         fPayload x = slice s.phl.mtx 32 (min 256 (fLen s.phl.mtx))) ∧
       ((credOf s q 3).held < fCredits (min 256 (fLen s.phl.mtx)) → portUp s q = true → (portOf s q).queue = [] →
         ∃ t x, exec .mtxSend s = .next t ∧ t.phl.mtxBusy = true ∧ (portOf t q).queue = [x] ∧ x.mtx = true ∧ t.out = s.out)) ∧
     (s.phl.mtxBusy = false → fSrcrt s.phl.mtx = true → portUp s (rtEntry (fRoute s.phl.mtx) 0) = false →
       ∃ t, exec .mtxSend s = .next t ∧ t.phl = s.phl ∧ phlWrote s t ∧ t.out = s.out)) ∧
   ∀ s : State, s.pwr.main = true → s.hif.linkUp = true → s.pwr.mode ≠ .guard →
     (s.phl.mrx = [] → exec .mrxNext s = .next { s with out := s.out ++ [.reg 0] }) ∧
     (∀ h l, s.phl.mrx = h :: l → exec .mrxNext s = .next { s with
       phl := { s.phl with mrx := l, mrxData := padTo 288 h }
       out := s.out ++ [.reg 1] }) ∧
     (s.phl.evts = [] → exec .evtNext s = .next { s with out := s.out ++ [.reg 0] }) ∧
     ∀ e l, s.phl.evts = e :: l → exec .evtNext s = .next { s with
       phl := { s.phl with evts := l, evtData := padTo 16 e }
       out := s.out ++ [.reg 1] }) ∧
  (∀ (s : State) (a : Nat), s.pwr.main = true → s.pwr.mode ≠ .guard →
    (s.i3c.da = none → ∃ x, exec (.entdaa a) s = .next { s with
        i3c := { s.i3c with da := some (a % 128) }
        out := s.out ++ [.i3c x] } ∧
      x.length = 8 ∧ slice x 6 2 = [0x0E, 0x00] ∧ beNat (x.take 6) / 2 ^ 32 % 2 = 1 ∧ beNat (x.take 6) / 2 ^ 33 = Config.mipiId % 2 ^ 15 ∧
      beNat (x.take 6) % 2 ^ 32 = leNat (shake256 4 (padTo 16 s.lcy.ident))) ∧
    (∀ d, s.i3c.da = some d → exec (.entdaa a) s = .next s) ∧
    exec .rstdaa s = .next { s with i3c := { s.i3c with da := none } }) ∧
  (∀ s : State, s.pwr.main = true → s.pwr.mode ≠ .guard → s.i3c.da ≠ none →
    (∀ a, exec (.setnewda a) s = .next { s with i3c := { s.i3c with da := some (a % 128) } }) ∧
    exec .getpid s = .next { s with out := s.out ++ [.i3c (beBytes 6 (i3cPid s))] } ∧
    exec .getbcr s = .next { s with out := s.out ++ [.i3c [0x0E]] } ∧ exec .getdcr s = .next { s with out := s.out ++ [.i3c [0x00]] } ∧
    (∃ x, x.length = 2 ∧ exec .getstatus s = .next { s with
      out := s.out ++ [.i3c x]
      freeCtr := s.freeCtr + 1 }) ∧
    (∀ e, e.testBit 0 = true → s.i3c.queue = [] → exec (.enec e) s = .next { s with i3c := { s.i3c with ibi := true } }) ∧
    (∀ e, e.testBit 0 = true → s.i3c.queue ≠ [] → exec (.enec e) s = .next { s with
      i3c := { s.i3c with ibi := true }
      out := s.out ++ [.ibi 0xAE] }) ∧
    (∀ e, e.testBit 0 = true → exec (.disec e) s = .next { s with i3c := { s.i3c with ibi := false } }) ∧
    (∀ e, e.testBit 0 = false → exec (.enec e) s = .next s ∧ exec (.disec e) s = .next s) ∧
    exec .getmwl s = .next { s with out := s.out ++ [.i3c (beBytes 2 s.i3c.mwl)] } ∧
    exec .getmrl s = .next { s with out := s.out ++ [.i3c (beBytes 2 s.i3c.mrl)] } ∧
    (∀ n, exec (.setmwl n) s = .next { s with i3c := { s.i3c with mwl := min 256 n } } ∧
      exec (.setmrl n) s = .next { s with i3c := { s.i3c with mrl := min 256 n } }) ∧
    (∀ n e, e % 256 ≠ 0 → e % 256 ≠ 0xFF → ∃ t, exec (.setEndpointId n e) s = .next t ∧ mctpAnswered s t n 1 0 ([0x00] ++ leBytes 1 e ++ [0x00]) ∧
      t.i3c.eid = e % 256) ∧
    (∀ n e, e % 256 = 0 ∨ e % 256 = 0xFF → ∃ t, exec (.setEndpointId n e) s = .next t ∧ mctpAnswered s t n 1 2 [] ∧ t.i3c.eid = s.i3c.eid) ∧
    (∀ n, ∃ t, exec (.getEndpointId n) s = .next t ∧ mctpAnswered s t n 2 0 (leBytes 1 s.i3c.eid ++ [0x00, 0x00]) ∧ t.i3c.eid = s.i3c.eid) ∧
    (∀ n, ∃ t x, x.length = 4 ∧ exec (.getMctpVersionSupport n) s = .next t ∧ t.freeCtr = s.freeCtr + 1 ∧
      mctpAnswered { s with freeCtr := s.freeCtr + 1 } t n 4 0 ([0x01] ++ x)) ∧
    (∀ n, ∃ t, exec (.getMessageTypeSupport n) s = .next t ∧ mctpAnswered s t n 5 0 [0x01, 0x7E] ∧ t.i3c.eid = s.i3c.eid) ∧
    (∀ n, ∃ t, exec (.getEndpointUuid n) s = .next t ∧ mctpAnswered s t n 3 0 (padTo 16 (Config.uuidOf (padTo 16 s.lcy.ident)))) ∧
    (s.i3c.queue = [] → exec .i3cPrivateRead s = .next s) ∧
    ∀ m l, s.i3c.queue = m :: l → exec .i3cPrivateRead s = .next { s with
      i3c := { s.i3c with queue := l }
      out := s.out ++ [.i3c m] ++ if s.i3c.ibi = true ∧ l ≠ [] then [.ibi 0xAE] else [] }) ∧
  ∀ s : State, s.pwr.main = true → s.pwr.mode ≠ .guard → s.i3c.da = none →
    ∀ i ∈ [Instr.getpid, .getbcr, .getdcr, .getstatus, .getmwl, .getmrl, .i3cPrivateRead], exec i s = .next s

/-- KNOCK_TIMER, RENEW_TIMER, HEALTH_REPORT_PERIODIC. -/
def Obligations.KnocksSent : Prop :=
  (∀ s : State, s.par.bound = true → s.pwr.main = true →
    (s.time.refCount < s.par.knockAt + 2000 → exec .knockTimer s = .next s) ∧
    (s.par.knockAt + 2000 ≤ s.time.refCount → ∃ t, exec .knockTimer s = .next t ∧ pairFrame s t ∧ knockSent s t 1 0 0 (s.par.seq % 2 ^ 32) ∧
      t.par = { s.par with
        knockAt := s.time.refCount
        seq := (s.par.seq + 1) % 2 ^ 32
        keyUses := s.par.keyUses + 1
        lvds := { s.par.lvds with txAt := s.time.refCount, txOk := true }
        fab := if s.phl.valid = true ∧ (routePort s s.par.addr).isSome = true then { s.par.fab with txAt := s.time.refCount, txOk := true }
          else s.par.fab } ∧
      ∃ m, sentNow s t (.knock m) ∧ leAt m 0 1 = 1 ∧ leAt m 1 1 = modeCode s.pwr.mode ∧ (leAt m 2 2).testBit 0 = s.par.key.isSome ∧
        (leAt m 2 2).testBit 1 = s.par.l0.holder ∧ (leAt m 2 2).testBit 2 = s.par.l1.holder ∧
        (leAt m 2 2).testBit 3 = (s.par.l0.holder && s.par.l0.pCur) ∧ (leAt m 2 2).testBit 4 = (s.par.l1.holder && s.par.l1.pCur) ∧
        (leAt m 2 2).testBit 5 = eligible s ∧ (leAt m 2 2).testBit 6 = logFull s ∧ leAt m 24 8 = s.par.rxApplied % 2 ^ 64 ∧
        leAt m 32 8 = s.par.confirm % 2 ^ 64) ∧
    (s.time.refCount < s.par.renewAt + 5000 → exec .renewTimer s = .next s) ∧
    (s.par.renewAt + 5000 ≤ s.time.refCount → ∃ t, exec .renewTimer s = .next t ∧ pairFrame s t ∧ t.par.renewAt = s.time.refCount ∧
      (∀ l, l < 2 → (latch s l).holder = false → latch t l = latch s l) ∧
      ∀ l, l < 2 → (latch s l).holder = true →
        latch t l = { latch s l with
          lreq := ((latch s l).lreq + 1) % 2 ^ 32
          sent := (((latch s l).lreq + 1) % 2 ^ 32, s.time.refCount) :: (latch s l).sent.take 7 } ∧
        knockSent s t 2 l ((latch s l).lreq + 1) ((s.par.seq + if l = 1 ∧ s.par.l0.holder = true then 1 else 0) % 2 ^ 32))) ∧
  (∀ s : State, s.par.bound = false ∨ s.pwr.main = false → exec .knockTimer s = .next s ∧ exec .renewTimer s = .next s) ∧
  ∀ s : State, s.pwr.main = true → s.pwr.mode ≠ .guard →
    (s.time.refCount < s.pwr.healthAt + 100000000 → exec .healthReportPeriodic s = .next s) ∧
    (s.pwr.healthAt + 100000000 ≤ s.time.refCount → ∃ t, exec .healthReportPeriodic s = .next t ∧
      t = { s with pwr := { s.pwr with healthAt := s.time.refCount }, i3c := t.i3c, out := t.out } ∧
      (s.i3c.queue.length < 16 → ∃ b, t.i3c = { s.i3c with queue := s.i3c.queue ++ [b] } ∧ b.length = 67 ∧ leAt b 0 1 = 0x7E ∧ leAt b 3 1 = 1 ∧
        leAt b 4 1 = 1 ∧ leAt b 5 1 = modeCode s.pwr.mode ∧
        leAt b 6 1 = latchCount s + 4 * b2n s.par.l0.pCur + 8 * b2n s.par.l1.pCur + 16 * b2n (eligible s) + 32 * b2n (logFull s) +
          64 * b2n s.par.lvds.ok + 128 * b2n s.par.fab.ok ∧
        leAt b 7 1 = lcsCode s.lcy.state ∧ slice b 11 16 = padTo 16 s.lcy.ident ∧ leAt b 27 8 = timeField s % 2 ^ 64 ∧
        leAt b 35 2 = (if s.par.bound then s.par.addr else 0xFFF) % 65536))

/-- KNOCK, RENEW, GRANT, KNOCK_RELEASE, TAKEN, on both paths. -/
def Obligations.KnocksReceived : Prop :=
  (∀ i kind, knockRows i kind → ∀ (s : State) (p : Nat) (data b tag : List Byte),
    (leAt data 0 1 ≠ kind → exec (i 0 p data) s = .next s) ∧ (leAt data 32 1 ≠ kind → exec (i 1 p data) s = .next s) ∧
    (s.par.bound = false ∨ s.pwr.main = false → exec (i 0 p data) s = .next s) ∧
    (∀ k, leAt b 0 1 = kind → knockComes s k p data b tag → ¬ knockPasses s k b tag → ∃ t, exec (i k p data) s = .next t ∧
      pathOf t k = { pathOf s k with invalid := (pathOf s k).invalid + 1 } ∧ pathOf t (1 - k) = pathOf s (1 - k) ∧
      (∀ l, latch t l = latch s l) ∧ t.par.lastAny = s.par.lastAny ∧ t.pwr = s.pwr ∧ t.slm = s.slm ∧
      (s.dbg.errs.length < 64 → ∃ r ∈ t.dbg.errs, r.det = 0x11 ∧ r.unit = k ∧ r.time = timeField s)) ∧
    ∀ k, leAt b 0 1 = kind → knockComes s k p data b tag → knockPasses s k b tag → (leAt b 2 2).testBit 0 = false →
      ∃ t, exec (i k p data) s = .next t ∧ pairFrame s t ∧ knockHeard s t k b ∧ (∀ l, latch t l = latch s l) ∧ t.par.pElig = s.par.pElig) ∧
  (∀ (s : State) (k p : Nat) (data b tag : List Byte), knockComes s k p data b tag → knockPasses s k b tag → leAt b 0 1 = 1 →
    (leAt b 2 2).testBit 0 = true → (leAt b 2 2).testBit 5 = false → s.par.homeChecked = true → leAt b 24 8 ≤ s.par.acked → s.par.mfault = true →
    s.par.mfaultDone = false → s.par.knockAt ≠ 0 → (∃ l, l < 2 ∧ (latch s l).holder = true ∧ (latch s l).pCur = false) →
    (∀ l, l < 2 → (latch s l).holder = true → (leAt b 2 2).testBit (1 + l) = false) →
    ∃ t, exec (.knock k p data) s = .next t ∧ knockHeard s t k b ∧ t.par.mfaultDone = true ∧ healthWithin s t 6 8) ∧
  ∀ (s : State) (k p : Nat) (data b tag : List Byte), knockComes s k p data b tag → knockPasses s k b tag → knockCalm s b →
    (leAt b 0 1 = 1 → ∃ t, exec (.knock k p data) s = .next t ∧ pairFrame s t ∧ knockHeard s t k b ∧ knockTold s t b ∧
      t.par.seq = s.par.seq ∧ ∀ l, l < 2 → latchTold s t b l ∧ latchKept s t l ∧ (latch t l).view = viewAfter s b l) ∧
    (leAt b 0 1 = 2 → let l := leAt b 5 1
      (l < 2 → (latch s l).holder = false → (leAt b 2 2).testBit (3 + l) = true → eligible s = true → rxGap s = false →
        s.time.refCount < viewAfter s b l →
        ∃ t, exec (.renew k p data) s = .next t ∧ pairFrame s t ∧ knockHeard s t k b ∧ knockTold s t b ∧ latchTold s t b l ∧ latchKept s t l ∧
          (latch t l).view = max (viewAfter s b l) (s.time.refCount + 25000) ∧ knockSent s t 3 l (leAt b 16 4) (s.par.seq % 2 ^ 32)) ∧
      (2 ≤ l ∨ (latch s l).holder = true ∨ (leAt b 2 2).testBit (3 + l) = false ∨ eligible s = false ∨ rxGap s = true ∨
          viewAfter s b l ≤ s.time.refCount →
        ∃ t, exec (.renew k p data) s = .next t ∧ pairFrame s t ∧ knockHeard s t k b ∧ knockTold s t b ∧ t.par.seq = s.par.seq ∧
          ∀ j, j < 2 → latchTold s t b j ∧ latchKept s t j ∧ (latch t j).view = viewAfter s b j)) ∧
    (leAt b 0 1 = 3 → let l := leAt b 5 1
      ∃ t, exec (.grant k p data) s = .next t ∧ pairFrame s t ∧ knockHeard s t k b ∧ knockTold s t b ∧ t.par.seq = s.par.seq ∧
        (∀ j, j < 2 → latchTold s t b j ∧ latchKept { s with par := { s.par with
          l0 := { s.par.l0 with leaseEnd := t.par.l0.leaseEnd }, l1 := { s.par.l1 with leaseEnd := t.par.l1.leaseEnd } } } t j) ∧
        (∀ j, j < 2 → j ≠ l ∨ (latch s j).holder = false → (latch t j).leaseEnd = (latch s j).leaseEnd) ∧
        (l < 2 → (latch s l).holder = true → ((latch s l).sent.map fun e => e.1).Nodup →
          (∀ at_, (leAt b 16 4, at_) ∈ (latch s l).sent → (latch t l).leaseEnd = max (latch s l).leaseEnd (at_ + 24997)) ∧
          ((∀ e ∈ (latch s l).sent, e.1 ≠ leAt b 16 4) → (latch t l).leaseEnd = (latch s l).leaseEnd))) ∧
    (leAt b 0 1 = 4 → s.par.rxHeld = [] → s.par.rstMir = [] → let l := leAt b 5 1
      l < 2 → (latch s l).holder = false → (latch s (1 - l)).handMseq = none →
      (∀ m, (latch s l).handMseq = some m → m ≤ s.par.rxApplied → eligible s = true →
        (∀ x ∈ s.par.meters, leAt b 32 8 < x.mseq → x.load ≠ l) → (∀ x ∈ s.par.meters, x.asked = false) → (∀ j ∈ s.par.journal, j.load ≠ l) →
        ∃ t, exec (.knockRelease k p data) s = .next t ∧ knockHeard s t k b ∧ (latch t l).holder = true ∧ (latch t l).handMseq = none ∧
          (latch t l).released = false ∧ (latch t l).leaseEnd = s.time.refCount + 24997 ∧ knockSent s t 5 l 0 (s.par.seq % 2 ^ 32) ∧
          (s.pwr.mode = .standby → t.pwr.mode = .active) ∧ takeEnds s t l) ∧
      ((latch s l).handMseq = none → ∃ t, exec (.knockRelease k p data) s = .next t ∧ pairFrame s t ∧ knockHeard s t k b ∧ knockTold s t b ∧
        t.par.seq = s.par.seq ∧ (latch t l).released = true ∧ (latch t l).holder = false ∧ (latch t (1 - l)).holder = (latch s (1 - l)).holder)) ∧
    (leAt b 0 1 = 5 → let l := leAt b 5 1
      (∀ h, s.par.handover = some h → h.released ≠ none → h.latches.testBit l = true →
        (h.latches = 2 ^ l → ∃ t, exec (.taken k p data) s = .next t ∧ knockHeard s t k b ∧ knockTold s t b ∧ t.par.handover = none ∧
          t.par.hoResult = 0 ∧ svcFreed s t ∧ switchSaw s t l ∧ healthSent s t 5) ∧
        (h.latches = 3 → l < 2 → ∃ t, exec (.taken k p data) s = .next t ∧ knockHeard s t k b ∧ knockTold s t b ∧ switchSaw s t l ∧
          t = { s with par := t.par, phl := t.phl, cnt := t.cnt, hif := { s.hif with fns := t.hif.fns }, out := t.out } ∧
          t.par.handover = some { h with latches := 2 ^ (1 - l) } ∧ t.par.hoResult = s.par.hoResult)) ∧
      (s.par.handover = none → ∃ t, exec (.taken k p data) s = .next t ∧ pairFrame s t ∧ knockHeard s t k b ∧ knockTold s t b ∧
        t.par.handover = none ∧ t.par.hoResult = s.par.hoResult))

/-- PATH_SILENCE, TX_CHECK_TIMEOUT, LEASE_EXPIRY_FENCE, LATCH_TAKE, ALONE_WAIT_EXPIRY. -/
def Obligations.FencesAndTakes : Prop :=
  (∀ (s : State) (k : Nat), s.par.bound = true → s.pwr.main = true → k < 2 →
    ((pathOf s k).ok = false ∨ s.time.refCount < (pathOf s k).lastAt + 6000 → exec (.pathSilence k) s = .next s) ∧
    ((pathOf s k).ok = true → (pathOf s k).lastAt + 6000 ≤ s.time.refCount → ∃ t, exec (.pathSilence k) s = .next t ∧
      (let both := (pathOf s (1 - k)).ok = false ∧ s.par.unitFault = false
       pathOf t k = { pathOf s k with
         ok := false, faults := min 0xFFFF ((pathOf s k).faults + 1), openSeq := if both then 0 else (pathOf s k).openSeq } ∧
       pathOf t (1 - k) = { pathOf s (1 - k) with openSeq := if both then 0 else (pathOf s (1 - k)).openSeq }) ∧
      fired s t 0 7 ∧ healthWithin s t 2 1 ∧ (∀ l, latch t l = latch s l) ∧
      t = { s with par := t.par, i3c := t.i3c, hif := { s.hif with fns := t.hif.fns }, out := t.out } ∧
      ((pathOf s (1 - k)).ok = true → t.par.unitFault = s.par.unitFault) ∧
      ((pathOf s (1 - k)).ok = false → t.par.unitFault = true ∧ (s.par.unitFault = false → healthWithin s t 3 1))) ∧
    ((pathOf s k).txOk = false ∨ s.time.refCount < (pathOf s k).txAt + 6000 → exec (.txCheckTimeout k) s = .next s) ∧
    ((pathOf s k).txOk = true → (pathOf s k).txAt + 6000 ≤ s.time.refCount →
      ((pathOf s (1 - k)).txOk = true → ∃ t, exec (.txCheckTimeout k) s = .next t ∧ t = { s with par := t.par } ∧
        pathOf t k = { pathOf s k with txOk := false } ∧ pathOf t (1 - k) = pathOf s (1 - k) ∧ ∀ l, latch t l = latch s l) ∧
      ((pathOf s (1 - k)).txOk = false → ∃ t, exec (.txCheckTimeout k) s = .next t ∧ eligible t = false ∧
        ∀ l, l < 2 → (latch t l).holder = false ∧ ((latch s l).holder = true → latchFenced s t l)))) ∧
  (∀ (s : State) (l : Nat), l < 2 → s.par.bound = true →
    (leaseNeeded s l = true → (latch s l).leaseEnd ≤ s.time.refCount → ∃ t, exec (.leaseExpiryFence l) s = .next t ∧ latchFenced s t l ∧
      latch t (1 - l) = latch s (1 - l) ∧ (logTakes s → healthWithin s t 7 8)) ∧
    (s.time.refCount < (latch s l).leaseEnd ∨ leaseNeeded s l = false → exec (.leaseExpiryFence l) s = .next s) ∧
    (leaseNeeded s l = true ↔ (latch s l).holder = true ∧ s.par.unitFault = false ∧ ((latch s l).pCur = true ∨ (latch s l).echoed = false))) ∧
  ∀ (s : State) (l : Nat), l < 2 → s.pwr.main = true →
    (s.par.rxHeld = [] → s.par.rstMir = [] → (latch s l).holder = false → (latch s l).selfCur = true → eligible s = true →
      (latch s l).view + 2500 ≤ s.time.refCount → s.par.mirrorAt + 2000 ≤ s.time.refCount → ∃ t, exec (.latchTake l) s = .next t ∧ latchTaken s t l) ∧
    ((latch s l).holder = true ∨ (latch s l).selfCur = false ∨ eligible s = false ∨ rxGap s = true ∨
      s.time.refCount < (latch s l).view + 2500 ∨ s.time.refCount < s.par.mirrorAt + 2000 → exec (.latchTake l) s = .next s) ∧
    (let home := s.par.homeChecked = true ∧ l = s.par.home ∧ (latch s l).pHold = false
     let alone := s.par.aloneSince + 100000 * s.par.aloneWait ≤ s.time.refCount ∧
       ∀ n, s.par.lastAny = some n → n + 100000 * s.par.aloneWait ≤ s.time.refCount
     (s.par.rxHeld = [] → s.par.rstMir = [] → s.par.bound = true → (latch s l).holder = false → s.pwr.mode = .standby ∨ s.pwr.mode = .active →
       home ∨ alone → ∃ t, exec (.aloneWaitExpiry l) s = .next t ∧ latchTaken s t l) ∧
     ((latch s l).holder = true ∨ (s.pwr.mode ≠ .standby ∧ s.pwr.mode ≠ .active) ∨ s.par.bound = false ∨ (¬ home ∧ ¬ alone) →
       exec (.aloneWaitExpiry l) s = .next s))

/-- TAKEOVER_SLOT_ARRIVAL, REPLAY_DESCRIPTOR_ARRIVAL. -/
def Obligations.Takeover : Prop :=
  (∀ (s : State) (m : MetRec) (data : List Byte), s.par.meters.find? (fun x => x.asked) = some m →
    (∀ n, n ≠ m.mseq → exec (.takeoverSlotArrival n data) s = .next s) ∧
    ∃ t, exec (.takeoverSlotArrival m.mseq data) s = .next t ∧ t.par.meters = s.par.meters.filter (fun x => decide (x.mseq ≠ m.mseq)) ∧
      (padTo 32 data ≠ m.cpl → m.cpl.length = 32 → hostRefusal s (hifMaster m.fn m.ring) m.fn (slotAddr s m) 32 true = none →
        sentNow s t (.write m.fn (slotAddr s m) m.cpl false (noSnoopAt s m.fn (slotAddr s m)))) ∧
      ((∀ l, l < 2 → (latch s l).take = .slots → ∃ x ∈ s.par.meters, x.mseq ≠ m.mseq ∧ x.asked = true ∧ x.load = l) →
        (∀ l, l < 2 → (latch s l).take ≠ .replay) → (∀ l, latch t l = latch s l) ∧
          (padTo 32 data = m.cpl → ∀ o ∈ t.out, o ∈ s.out ∨ ∃ f v a d, o = Out.msix f v a d)) ∧
      ∀ l, l < 2 → m.load = l → (latch s l).take = .slots → (latch s (1 - l)).take = .none →
        (∀ x ∈ s.par.meters, x.mseq ≠ m.mseq → x.asked = true → x.load ≠ l) →
        ((∃ j, owed s l j) → (latch t l).take = .replay ∧ ∀ j, owed s l j → { j with asked := true } ∈ t.par.journal) ∧
        ((¬ ∃ j, owed s l j) → takeEnds s t l)) ∧
  (∀ (s : State) (n : Nat) (data : List Byte), (∀ x ∈ s.par.meters, x.asked = false) → exec (.takeoverSlotArrival n data) s = .next s) ∧
  (∀ (s : State) (j : Journal) (data : List Byte) (rec : Nat), s.par.journal.find? (fun x => x.asked) = some j →
    (∀ n, n ≠ j.mseq → exec (.replayDescriptorArrival n data rec) s = .next s) ∧
    ((∀ l, l < 2 → (latch s l).take = .slots → ∃ x ∈ s.par.meters, x.asked = true ∧ x.load = l) →
    let d := padTo 64 data
    (j.load ≠ 2 → (fnOf s j.fn).rst = none → rec < 65536 → (tok s rec).st = .free →
      (descDigest d = j.digest → j.applied = false → ∃ t, exec (.replayDescriptorArrival j.mseq data rec) s = .next t ∧
        t.par.journal = s.par.journal.erase j ∧ t.par.replayed = s.par.replayed + 1 ∧
        (let k := tok t rec
         k.st = (if dNotBefore d = 0 then .ready else .liftNb) ∧ k.func = j.fn ∧ k.ring = j.ring ∧ k.slot = j.slot ∧ k.seq = j.seq ∧ k.desc = d ∧ k.flow = dFlow d ∧ k.cls = dClass d ∧
         k.ordered = dOrdered d ∧ k.replayed = true ∧
         k.expire = if dDeadline d = 0 then none else some (((j.accept : Int) + s.par.tickOffset + (dDeadline d : Int)).toNat)) ∧
        (fnOf t j.fn).held = (fnOf s j.fn).held + 1 ∧ ∀ i, i ≠ rec → tok t i = tok s i) ∧
      (dOrdered d = false → (descDigest d ≠ j.digest → ∃ t ph, exec (.replayDescriptorArrival j.mseq data rec) s = .next t ∧
          t.par.journal = s.par.journal.erase j ∧ completes t j.fn j.ring (cplBytes (dTag d) 0x0802 11 ph 0 (timeField s) j.slot j.ring true)) ∧
        (descDigest d = j.digest → j.applied = true → ∃ t ph, exec (.replayDescriptorArrival j.mseq data rec) s = .next t ∧
          t.par.journal = s.par.journal.erase j ∧ t.par.replayApplied = s.par.replayApplied + 1 ∧
          completes t j.fn j.ring (cplBytes (dTag d) 0x0803 (opClass (dOpcode d)) ph 0 (timeField s) j.slot j.ring true)))) ∧
    (j.load = 2 → ∀ r, s.par.ringMir.find? (fun x => decide (x.fn = j.fn) && decide (x.ring = j.ring)) = some r →
      hostRefusal s (hifMaster 0 j.ring) 0 (r.cqBase + 32 * r.cqTail) 32 true = none →
      ∃ t, exec (.replayDescriptorArrival j.mseq data rec) s = .next t ∧ t.par.journal = s.par.journal.erase j ∧ t.slm.toks = s.slm.toks ∧
        sentNow s t (.write 0 (r.cqBase + 32 * r.cqTail) (cplBytes (dTag d) (if j.applied then 0x0803 else 0x0801)
          (if j.applied then opClass (dOpcode d) else 11) r.phase 0 (timeField s) j.slot j.ring true) false
          (noSnoopAt s 0 (r.cqBase + 32 * r.cqTail)))))) ∧
  ∀ (s : State) (n : Nat) (data : List Byte) (rec : Nat), (∀ x ∈ s.par.journal, x.asked = false) →
    exec (.replayDescriptorArrival n data rec) s = .next s

/-- The ten rows of mirror records, MIRROR_REJOIN, MIRROR_RESEND_TIMER. Effects and segments: layouts of the model (log entries 25, 31). -/
def Obligations.MirrorStream : Prop :=
  (∀ i type, mirrorRows i type → ∀ s : State, s.par.l0.handMseq = none → s.par.l1.handMseq = none →
    (∀ b rest, s.par.rxHeld = (s.par.rxApplied + 1, b) :: rest → leAt b 0 1 ≠ type → exec i s = .next s) ∧
    (∀ m b rest, s.par.rxHeld = (m, b) :: rest → m ≠ s.par.rxApplied + 1 → exec i s = .next s) ∧ (s.par.rxHeld = [] → exec i s = .next s)) ∧
  (∀ (s : State) (b : List Byte) (rest : List (Nat × List Byte)),
    (recordNext s 1 b rest → ∃ t, exec .mirrorJournal s = .next t ∧ recordDone s t rest ∧
      t.par = { s.par with rxApplied := t.par.rxApplied, rxHeld := rest, journal := s.par.journal ++ [⟨leAt b 8 8, leAt b 1 1, leAt b 16 2, leAt b 18 1,
        (leAt b 19 1).testBit 0, (leAt b 19 1).testBit 1, leAt b 20 2, leAt b 24 4, leAt b 28 4, slice b 32 8, false, false⟩] } ∧
      t = { s with par := t.par, hif := { s.hif with fns := t.hif.fns } } ∧
      (leAt b 1 1 = 2 → t.hif = s.hif) ∧
      ∀ r, leAt b 1 1 ≠ 2 → (fnOf s (leAt b 16 2)).rings[leAt b 18 1]? = some r →
        ringOf t (leAt b 16 2) (leAt b 18 1) = { r with head := (leAt b 20 2 + 1) % ringSize r.sqLog2 }) ∧
    (recordNext s 2 b rest → ∃ t, exec .mirrorMeter s = .next t ∧ recordDone s t rest ∧
      t.mtr = { s.mtr with
        adds := s.mtr.adds ++ (if leAt b 1 1 = 2 ∨ leAt b 20 4 = 0 then [] else [⟨leAt b 16 2, leAt b 18 1, leAt b 20 4⟩]) } ∧
      ((leAt b 19 1).testBit 0 = true → t.par.journal = s.par.journal ∧ t.par.meters = s.par.meters ∧ t.hif = s.hif ∧ t.slm = s.slm) ∧
      ((leAt b 19 1).testBit 0 = false →
        let match_ := fun j : Journal => j.fn = leAt b 16 2 ∧ j.ring = leAt b 34 1 ∧ j.ordered = (leAt b 24 4).testBit 31 ∧
          if (leAt b 24 4).testBit 31 = true then j.seq = leAt b 28 4 else j.slot = leAt b 64 2
        t.par.meters = s.par.meters ++ [⟨leAt b 8 8, leAt b 1 1, leAt b 16 2, leAt b 34 1, leAt b 32 2, slice b 40 32, false⟩] ∧
        ((∀ j ∈ s.par.journal, ¬ match_ j) → t.par.journal = s.par.journal) ∧
        (∀ l₁ j l₂, s.par.journal = l₁ ++ j :: l₂ → (∀ x ∈ l₁, ¬ match_ x) → match_ j → t.par.journal = l₁ ++ l₂) ∧
        ((leAt b 1 1 ≠ 2 → (leAt b 24 4).testBit 31 = true →
          (flowOf t (leAt b 16 2) (leAt b 24 4 % 2 ^ 18)).rel = if leAt b 28 4 = 0xFFFFFFFF then 1 else leAt b 28 4 + 1)) ∧
        ∀ r, leAt b 1 1 ≠ 2 → (fnOf s (leAt b 16 2)).rings[leAt b 34 1]? = some r →
          (ringOf t (leAt b 16 2) (leAt b 34 1)).cqTail = (leAt b 32 2 + 1) % ringSize r.cqLog2 ∧
          (ringOf t (leAt b 16 2) (leAt b 34 1)).unconsumed = r.unconsumed + 1)) ∧
    (recordNext s 3 b rest → let n := leAt b 24 2
      ∃ t, exec .mirrorState s = .next t ∧ recordDone s t rest ∧ t.aud.peer = slice b (90 + n) 32 ∧ ackQueued s t ∧
        t.par.journal = s.par.journal.map (fun j =>
          if j.fn = leAt b 16 2 ∧ j.ring = leAt b 18 1 ∧ j.slot = leAt b 20 2 ∧ j.mirror = true then { j with applied := true } else j) ∧
        (n = 0 → leAt b 30 2 ≠ 0 → logTakes s → ∃ h ∈ t.aud.held, h.seq = s.aud.next ∧ leAt h.bytes 4 2 = leAt b 30 2 ∧
          (leAt h.bytes 6 1).testBit 0 = true ∧ slice h.bytes 16 40 = slice b 42 40) ∧
        (n = 98 → leAt b 26 1 = 4 → t.lcy.officers = s.lcy.officers.set (leAt b 27 1)
          ⟨leAt b 28 1, leAt b 29 1, leAt b 36 8, slice b 44 16, slice b 60 64⟩) ∧
        (n = 47 → leAt b 26 1 = 1 → leAt b 30 1 ≠ 0 → ∀ k, lmkUnseal s (slice b 33 40) = some k →
          (let x := lmkSlot (lmkOf t (leAt b 27 2)) (leAt b 29 1)
           x.key = some k ∧ x.role = leAt b 30 1 ∧ x.gen = leAt b 31 2 ∧ x.occ = true)) ∧
        (n = 47 → leAt b 26 1 = 1 → leAt b 30 1 ≠ 0 → lmkUnseal s (slice b 33 40) = none → t.kst = s.kst) ∧
        (n = 9 → leAt b 26 1 = 7 → t.time = { s.time with dev := some (leAt b 27 8), frac := 0 } ∧
          t.mtr.lastMinute = some (leAt b 27 8 / 60000000))) ∧
    (recordNext s 4 b rest →
      (∃ t, exec .mirrorRing s = .next t ∧ t.par.rstMir = s.par.rstMir.filter (fun r => decide (r.fn ≠ leAt b 16 2)) ∧
        t.par.rptMir = tset 0 s.par.rptMir (leAt b 16 2) (leAt b 40 8)) ∧
      (leAt b 1 1 = 2 → ∃ t, exec .mirrorRing s = .next t ∧ recordDone s t rest ∧ t.hif = s.hif ∧
        t.par.ringMir = (s.par.ringMir.filter fun r => !(decide (r.fn = leAt b 16 2) && decide (r.ring = leAt b 18 1))) ++
          [⟨leAt b 16 2, leAt b 18 1, leAt b 20 8, leAt b 28 8, leAt b 36 1, leAt b 37 1, leAt b 40 8, decide (leAt b 19 1 = 1), 0, true⟩]) ∧
      ∀ r, leAt b 1 1 ≠ 2 → (fnOf s (leAt b 16 2)).rings[leAt b 18 1]? = some r → ∃ t, exec .mirrorRing s = .next t ∧ recordDone s t rest ∧
        (fnOf t (leAt b 16 2)).rptBase = leAt b 40 8 ∧
        (let x := ringOf t (leAt b 16 2) (leAt b 18 1)
         (leAt b 19 1 = 1 → x.sqBase = leAt b 20 8 ∧ x.cqBase = leAt b 28 8 ∧ x.sqLog2 = leAt b 36 1 ∧ x.cqLog2 = leAt b 37 1 ∧ x.enable = true ∧
           x.st = .running ∧ x.tail = r.tail ∧ x.head = 0 ∧ x.vector = r.vector) ∧
         (leAt b 19 1 ≠ 1 → x = { r with enable := false, st := .idle }))) ∧
    (recordNext s 5 b rest → ∃ t, exec .mirrorFnReset s = .next t ∧ recordDone s t rest ∧ t.par.journal = s.par.journal ∧
      t.par.meters = s.par.meters.filter (fun m => decide (m.fn ≠ leAt b 16 2)) ∧
      t.par.rstMir = (s.par.rstMir.filter fun r => decide (r.fn ≠ leAt b 16 2)) ++
        [⟨leAt b 16 2, leAt b 24 8, leAt b 18 1, tget 0 s.par.rptMir (leAt b 16 2), s.time.refCount⟩] ∧
      (fnOf t (leAt b 16 2)).rstSeq = ((fnOf s (leAt b 16 2)).rstSeq + 1) % 2 ^ 32 ∧
      (∀ k, k < 2 ^ 18 → flowOf t (leAt b 16 2) k = Flow.start) ∧ ∀ f k, k < 2 ^ 18 → f ≠ leAt b 16 2 → flowOf t f k = flowOf s f k) ∧
    (recordNext s 6 b rest → let r := b.drop 16
      ∃ t, exec .mirrorReceipt s = .next t ∧ recordDone s t rest ∧ ackQueued s t ∧ (s.mtr.tail, r) ∈ t.par.rcptMir ∧
        t.mtr.tail = (s.mtr.tail + 1) % 2 ^ s.mtr.log2 ∧ t.mtr.used = s.mtr.used + 1 ∧ t.mtr.total = s.mtr.total ∧
        (rcptOf t (leAt r 6 2)).seq = leAt r 8 8 ∧ (rcptOf t (leAt r 6 2)).minute = leAt r 24 8 ∧ (rcptOf t (leAt r 6 2)).digest = shake256 32 r ∧
        ∀ f, f ≠ leAt r 6 2 → rcptOf t f = rcptOf s f) ∧
    (recordNext s 7 b rest → exec .mirrorHead s = .next { s with
      par := { s.par with rxApplied := s.par.rxApplied + 1, rxHeld := rest }
      aud := { s.aud with peer := slice b 16 32 } }) ∧
    (recordNext s 8 b rest →
      (leAt b 16 8 ≤ s.par.acked → exec .mirrorAck s = .next { s with par := { s.par with rxApplied := s.par.rxApplied + 1, rxHeld := rest } }) ∧
      (s.par.acked < leAt b 16 8 → (∀ it ∈ s.slm.toks, it.2.st ≠ .mirror) → s.hif.relq = [] → s.mtr.waiting = [] →
        s.par.l0.resync = none → s.par.l1.resync = none → ∃ t, exec .mirrorAck s = .next t ∧ recordDone s t rest ∧ t = { s with par := t.par } ∧
          t.par.acked = leAt b 16 8 ∧ t.par.retained = s.par.retained.filter (fun r => decide (leAt b 16 8 < r.mseq)) ∧
          t.par.progressAt = s.time.refCount)) ∧
    (recordNext s 9 b rest → s.par.l0.released = false → s.par.l1.released = false → leAt b 16 1 < 2 →
      ∃ t, exec .mirrorHandover s = .next t ∧ recordDone s t rest ∧ t = { s with par := t.par } ∧
        latch t (leAt b 16 1) = { latch s (leAt b 16 1) with handMseq := some (leAt b 24 8) } ∧
        latch t (1 - leAt b 16 1) = latch s (1 - leAt b 16 1)) ∧
    (recordNext s 10 b rest →
      (leAt b 16 1 = 8 → ∃ t, exec .mirrorResync s = .next t ∧ recordDone s t rest ∧ ackQueued s t ∧
        t.par.journal = s.par.journal.filter (fun j => decide (j.load ≠ leAt b 1 1)) ∧
        t.par.meters = s.par.meters.filter (fun m => decide (m.load ≠ leAt b 1 1))) ∧
      (leAt b 16 1 = 4 → ∃ t, exec .mirrorResync s = .next t ∧ recordDone s t rest ∧ ackQueued s t ∧
        meterOf t (leAt b 17 2) (leAt b 19 1) = leAt b 20 8 ∧
        ∀ k, k ≠ 16 * leAt b 17 2 + leAt b 19 1 → tget 0 t.mtr.total k = tget 0 s.mtr.total k) ∧
      (leAt b 16 1 = 2 → ∃ t, exec .mirrorResync s = .next t ∧ recordDone s t rest ∧ ackQueued s t ∧
        flowOf t (leAt b 17 2) (leAt b 19 4) = ⟨leAt b 23 4, leAt b 27 4⟩))) ∧
  (∀ (s : State) (src : Nat) (data : List Byte),
    (∀ r, s.lcy.rejoin = some r → s.pwr.mode = .recovery → s.phl.valid = true → src = (if s.par.bound then s.par.addr else r.peer) →
      ∃ t, exec (.mirrorRejoin src data) s = .next t ∧ phlFrame { s with lcy := t.lcy } t ∧ t.lcy = { s.lcy with package := some (data, tick s) } ∧
        ∀ q, routePort s src = some q → portReady s q 2 → ∃ x n, sentNow s t (.port q (wire x n)) ∧ fType x = 1 ∧ fVc x = 2 ∧ fLen x = 24 ∧
          leAt x 32 1 = 8 ∧ leAt x 48 8 = max 1 ((data.length + 65518) / 65519) % 2 ^ 64) ∧
    (s.lcy.rejoin = none ∨ s.pwr.mode ≠ .recovery ∨ s.phl.valid = false → exec (.mirrorRejoin src data) s = .next s)) ∧
  ∀ s : State,
    (s.par.rejoinTx = none → streamOn s = false ∨ s.par.retained = [] ∨ s.time.refCount < s.par.progressAt + 1000 * s.par.mirrorTmo →
      exec .mirrorResendTimer s = .next s) ∧
    (s.par.rejoinTx = none → streamOn s = true → s.par.retained ≠ [] → s.par.progressAt + 1000 * s.par.mirrorTmo ≤ s.time.refCount →
      (s.par.mfault = true ∨ (s.par.lvds.ok = false ∧ s.par.fab.ok = false) ∨ (∀ r ∈ s.par.retained, leAt r.bytes 0 1 = 3 → r.resent < 3) →
        exec .mirrorResendTimer s = .next { s with par := { s.par with
          txq := s.par.retained.map fun r => (r.mseq, r.bytes)
          retained := s.par.retained.map fun r => { r with resent := r.resent + 1 }
          resends := min 0xFF (s.par.resends + 1)
          progressAt := s.time.refCount } }) ∧
      (s.par.mfault = false → s.par.lvds.ok = true ∨ s.par.fab.ok = true → (∃ r ∈ s.par.retained, leAt r.bytes 0 1 = 3 ∧ 3 ≤ r.resent) →
        exec .mirrorResendTimer s = .next { s with par := { s.par with
          mfault := true
          l0 := { s.par.l0 with pCur := false, echoed := false, resync := none }
          l1 := { s.par.l1 with pCur := false, echoed := false, resync := none } } })) ∧
    ∀ x, s.par.rejoinTx = some x → s.pwr.main = true → x.2.2 + 1000 * s.par.mirrorTmo ≤ s.time.refCount → streamOn s = false →
      ∃ t, exec .mirrorResendTimer s = .next t ∧ t.par = { s.par with rejoinTx := some (x.1, x.2.1, s.time.refCount) } ∧ phlFrame { s with par := t.par } t

/-- HANDOVER_GO, HANDOVER_DRAIN_EXPIRY, HANDOVER_TIMEOUT, PAIR_KEY_EXCHANGE (messages of the exchange: log entry 25). -/
def Obligations.HandoverAndPairKey : Prop :=
  (∀ (s : State) (v : Nat), regsTake s → v.testBit 31 = true →
    let m := v / 65536 % 4
    let par := { s.par with hoLatches := m, drain := min 10000 (max 10 (v % 65536)) }
    (s.par.handover ≠ none → ∃ t, exec (.handoverGo v) s = .next t ∧ pfWrote s t ∧ t.par = par ∧ t.hif.svcHeld = s.hif.svcHeld) ∧
    (s.par.handover = none →
      (m = 0 ∨ (∃ l, l < 2 ∧ m.testBit l = true ∧ (latch s l).holder = false) → ∃ t, exec (.handoverGo v) s = .next t ∧ pfWrote s t ∧
        t.par = { par with hoResult := 2 } ∧ t.hif.svcHeld = s.hif.svcHeld) ∧
      (m ≠ 0 → (∀ l, l < 2 → m.testBit l = true → (latch s l).holder = true) →
        ((∃ l, l < 2 ∧ m.testBit l = true ∧ (latch s l).pCur = false) → ∃ t, exec (.handoverGo v) s = .next t ∧ pfWrote s t ∧
          t.par = { par with hoResult := 3 } ∧ t.hif.svcHeld = s.hif.svcHeld) ∧
        ((∀ l, l < 2 → m.testBit l = true → (latch s l).pCur = true) → ∃ t, exec (.handoverGo v) s = .next t ∧ pfWrote s t ∧
          t.hif.svcHeld = true ∧ t.par = { par with
            hoResult := 1
            handover := some ⟨m, s.time.refCount, none⟩
            l0 := { s.par.l0 with stopped := s.par.l0.stopped || m.testBit 0 }
            l1 := { s.par.l1 with stopped := s.par.l1.stopped || m.testBit 1 } })))) ∧
  (∀ (s : State) (h : Handover), s.par.handover = some h →
    (h.released ≠ none ∨ s.time.refCount < h.start + 100 * s.par.drain → exec .handoverDrainExpiry s = .next s) ∧
    (∀ l, l < 2 → h.latches = 2 ^ l → (latch s l).holder = true → h.released = none → h.start + 100 * s.par.drain ≤ s.time.refCount →
      1 ≤ s.par.txNext → ∃ t, exec .handoverDrainExpiry s = .next t ∧ latchFenced s t l ∧ knockSent s t 4 l 0 (s.par.seq % 2 ^ 32) ∧
        t.par.handover = some { h with released := some s.time.refCount } ∧ (latch t (1 - l)).holder = (latch s (1 - l)).holder ∧
        (streamOn s = true → ∃ q ∈ t.par.txq, leAt q.2 0 1 = 9 ∧ leAt q.2 1 1 = l ∧ leAt q.2 16 1 = l ∧ leAt q.2 24 8 + 1 = leAt q.2 8 8 ∨
          2 ^ 64 ≤ t.par.txNext)) ∧
    (∀ n, h.released = some n →
      (n + 100000 ≤ s.time.refCount → ∃ t, exec .handoverTimeout s = .next t ∧ t.par = { s.par with handover := none, hoResult := 4 } ∧ svcFreed s t ∧
        t = { s with
          par := t.par
          hif := { s.hif with svcHeld := false, svcMode := t.hif.svcMode, svcLatches := t.hif.svcLatches, fns := t.hif.fns }
          out := t.out } ∧
        ∀ g, fnOf t g = { fnOf s g with msix := (fnOf t g).msix }) ∧
      (s.time.refCount < n + 100000 → exec .handoverTimeout s = .next s)) ∧
    (h.released = none → exec .handoverTimeout s = .next s)) ∧
  (∀ s : State, s.par.handover = none → exec .handoverDrainExpiry s = .next s ∧ exec .handoverTimeout s = .next s) ∧
  (∀ (s : State) (data : List Byte), s.par.bound = false ∨ s.pwr.main = false → exec (.pairKeyExchange data) s = .next s) ∧
  (∀ (s : State) (data : List Byte), s.par.bound = true → s.pwr.main = true → identHigher s = true →
    let answered := ∃ dk ct g, s.par.kemDk = some dk ∧ pairMsgTake (kemCtLen 3) data s = some (ct, g)
    (∀ dk ct g, s.par.kemDk = some dk → pairMsgTake (kemCtLen 3) data s = some (ct, g) →
      exec (.pairKeyExchange data) s = .next { s with par := pairKeyed s.par (kemDecaps 3 dk ct) g }) ∧
    (¬ answered → data ≠ [] ∨ (s.par.key ≠ none ∧ s.par.keyUses < 2 ^ 31 ∧ s.par.pOpen = false) ∨ drbgLive s 0 = false →
      exec (.pairKeyExchange data) s = .next s) ∧
    (data = [] → s.par.key = none ∨ 2 ^ 31 ≤ s.par.keyUses ∨ s.par.pOpen = true → drbgLive s 0 = true →
      let k := kemKeygen 3 ((drawnZero s 64).take 32) ((drawnZero s 64).drop 32)
      ∃ t, exec (.pairKeyExchange data) s = .next t ∧ t.par = { s.par with kemDk := some k.2 } ∧
        dataSent s t (pairMsg (kemEkLen 3) ((s.par.keyGen + 1) % 2 ^ 32) k.1 s))) ∧
  ∀ (s : State) (data : List Byte), s.par.bound = true → s.pwr.main = true → identHigher s = false →
    (pairMsgTake (kemEkLen 3) data s = none ∨ drbgLive s 0 = false → exec (.pairKeyExchange data) s = .next s) ∧
    ∀ ek g, pairMsgTake (kemEkLen 3) data s = some (ek, g) → drbgLive s 0 = true →
      let c := kemEncaps 3 ek (drawnZero s 32)
      let n := max g ((s.par.keyGen + 1) % 2 ^ 32)
      ∃ t, exec (.pairKeyExchange data) s = .next t ∧ t.par = pairKeyed s.par c.2 n ∧ dataSent s t (pairMsg (kemCtLen 3) n c.1 s)

/-- MAIN_POWER_PRESENT, MAIN_POWER_LOST, GUARD_DIE_POWER_UP, PWRFAIL_ASSERT, PWRFAIL_DEASSERT, FLASH_GO, FLASH_WRITE_COMPLETE, GPIO_CTL_WRITE,
PPS_PULSE (a direct move between the two enables is refused: log entry 57). -/
def Obligations.PowerFlashGpio : Prop :=
  ((∀ s : State,
     (∀ n, s.pwr.okSince = some n → s.pwr.main = false → s.pwr.supplies = true → s.pwr.pwrfail = none → n + 33 ≤ s.time.slowCount →
       ∃ t, exec .mainPowerPresent s = .next t ∧ t = { s with
         pwr := { s.pwr with
           mode := .start, main := true, okSince := none, step := 1, held := false, formatted := false, retried := [], retest := false, scrubAt := 0
           startCount := (s.pwr.startCount + 1) % 2 ^ 32, ledger := t.pwr.ledger }
         time := { s.time with refCount := 0, slowCount := 0 }
         mtr := { s.mtr with lastMinute := s.time.dev.map fun v => v / 60000000 }
         hif := { s.hif with svcMode := t.hif.svcMode, svcLatches := t.hif.svcLatches, fns := t.hif.fns }
         tmp := t.tmp, aud := t.aud, par := t.par, i3c := t.i3c, out := t.out } ∧
       t.tmp.mons = s.tmp.mons.map (fun m => { monClock m with count := 0 }) ∧
       (s.par.l0.take = .none → s.par.l1.take = .none → s.hif.svcHeld = false → t.hif.svcMode = .start) ∧
       (s.aud.buf.length < 60 → t.tmp = { s.tmp with mons := t.tmp.mons } ∧
         (s.pwr.mode ≠ .start → ∃ r ∈ t.aud.buf, r.code = 0x0011 ∧ leAt r.body 0 1 = modeCode s.pwr.mode ∧ leAt r.body 1 1 = 1)) ∧
       (bootWhole s → ∀ step unit, let e := bootOf s step unit
         let prev := if e.last = 4 ∧ (e.prev = 2 ∨ e.prev = 3) then e.prev else e.last
         bootOf t step unit = ⟨0, if s.pwr.retest = true ∧ (prev = 2 ∨ prev = 3) then 0 else prev, e.fails⟩)) ∧
     (s.pwr.okSince = none ∨ s.pwr.main = true ∨ s.pwr.supplies = false ∨ s.pwr.pwrfail ≠ none ∨
       (∃ n, s.pwr.okSince = some n ∧ s.time.slowCount < n + 33) → exec .mainPowerPresent s = .next s)) ∧
   (∀ (s : State) (b k l : Bool),
     (s.pwr.main = false → exec (.mainPowerLost b k l) s = .next s) ∧
     (s.pwr.main = true → ∃ t, exec (.mainPowerLost b k l) s = .next t ∧
       t.hif = Hif.start ∧ t.slm = Slm.start ∧ t.mov = Mov.start ∧ t.ent = Ent.start ∧ t.i3c = I3c.start ∧ t.cpu = Cpu.start ∧
       t.lanes = Lanes.start ∧ t.phl = Phl.start ∧ t.cnt = Cnt.start ∧ t.dbg = { Dbg.start with failedWords := s.dbg.failedWords } ∧
       t.pwr = { Pwr.new with
         mode := .guard, main := false, supplies := false, pwrfail := s.pwr.pwrfail.map (fun _ => 0), backup := b
         secretOk := s.pwr.secretOk && (b || k), ledgerOk := s.pwr.ledgerOk && (b || l), keepBad := s.pwr.keepBad
         startCount := s.pwr.startCount, ledger := s.pwr.ledger, retest := s.pwr.retest, slotA := s.pwr.slotA, slotB := s.pwr.slotB } ∧
       t.time = (if b then { TimeSt.start with dev := s.time.dev, frac := s.time.frac } else { TimeSt.start with dev := none, frac := 0 }) ∧
       t.lcy = { s.lcy with
         chals := Lcy.new.chals, chalSlot := 0, reqPtr := 0, reqResult := 0, holdEnd := none, intGrant := none, scanGrant := none, rejoin := none
         package := none } ∧
       (∃ m, t.kst = { Kst.new with lmks := m, sens := s.kst.sens, ledger := s.kst.ledger } ∧ (twf Lmk.blank s.kst.lmks = true → ∀ f,
         (tget Lmk.blank m f).s0.key = none ∧ (tget Lmk.blank m f).s1.key = none ∧
         (tget Lmk.blank m f).s0.occ = (tget Lmk.blank s.kst.lmks f).s0.occ ∧ (tget Lmk.blank m f).s1.occ = (tget Lmk.blank s.kst.lmks f).s1.occ ∧
         (tget Lmk.blank m f).s0.version = (tget Lmk.blank s.kst.lmks f).s0.version ∧
         (tget Lmk.blank m f).s1.version = (tget Lmk.blank s.kst.lmks f).s1.version)) ∧
       t.par = { Par.start with
         bound := s.par.bound, partnerId := s.par.partnerId, partnerPk := s.par.partnerPk, addr := s.par.addr, bindHome := s.par.bindHome
         home := s.par.home } ∧
       (s.mtr.adds = [] → t.mtr.total = s.mtr.total ∧ t.mtr.rcpt = s.mtr.rcpt ∧ t.mtr.final = s.mtr.final ∧ t.mtr.adds = []) ∧
       (s.lcy.intGrant = none → s.lcy.scanGrant = none → recordsMoved s t ∧ t.aud.mram = s.aud.mram ∧ t.aud.head = s.aud.head ∧
         t.aud.present = s.aud.present ∧
         (s.aud.buf.length + (s.aud.held ++ s.aud.staging).length ≤ 64 → t.tmp.lock = s.tmp.lock ∧ t.tmp.lockSeq = s.tmp.lockSeq ∧
           t.tmp.erased = s.tmp.erased ∧ t.tmp.cause = s.tmp.cause)))) ∧
   (∀ s : State,
     (s.pwr.main = true ∨ s.pwr.backup = true → exec .guardDiePowerUp s = .next s) ∧
     (s.pwr.main = false → s.pwr.backup = false → exec .guardDiePowerUp s = .next { s with
       pwr := { s.pwr with backup := true, mode := .guard }
       tmp := { s.tmp with mons := s.tmp.mons.map fun m => { Monitor.fresh m.cls with disCls := m.disCls } }
       time := { s.time with slowCount := 0 } })) ∧
   ∀ s : State,
     (s.pwr.main = true → exec .pwrfailDeassert s = .next { s with pwr := { s.pwr with pwrfail := none } }) ∧
     (s.pwr.main = false → exec .pwrfailDeassert s = .next { s with
       pwr := { s.pwr with pwrfail := none, supplies := true, okSince := some s.time.slowCount } }) ∧
     (s.pwr.main = false → exec .pwrfailAssert s = .next { s with pwr := { s.pwr with pwrfail := some s.time.slowCount, okSince := none } }) ∧
     (s.pwr.main = true → ∃ t, exec .pwrfailAssert s = .next t ∧ t.pwr.pwrfail = some s.time.refCount ∧
       t.pwr.mode = s.pwr.mode ∧ t.pwr.main = true ∧ t.tmp.lowRearmed = false ∧
       ((∀ it ∈ s.slm.toks, it.2.st ≠ .mirror) → s.hif.relq = [] → recordsMoved s t ∧ t = { s with
         pwr := { s.pwr with pwrfail := some s.time.refCount }
         tmp := t.tmp
         aud := t.aud }))) ∧
  (∀ (s : State) (slot : Nat), regsAnswer s = true → let u := slot % 2
    (s.pwr.flashBusy ≠ none → ∃ t, exec (.flashGo slot) s = .next t ∧ regIs 0 s t) ∧
    (s.pwr.flashBusy = none →
      (u = s.pwr.slot → ∃ t, exec (.flashGo slot) s = .next t ∧ regIs 0 { s with pwr := { s.pwr with flashResult := 2, flashBusy := none } } t) ∧
      (u ≠ s.pwr.slot → hostRefusal s (hifMaster 0 0) 0 s.pwr.flashPtr 64 false = none → ∃ t, exec (.flashGo slot) s = .next t ∧
        regIs 0 { s with
          pwr := { s.pwr with flashResult := 1, flashBusy := some u }
          mov := { s.mov with chans := t.mov.chans }
          out := s.out ++ [.read 0 s.pwr.flashPtr 64 (noSnoopAt s 0 s.pwr.flashPtr)] } t ∧ ∀ k, k ≠ 0 → chan t k = chan s k) ∧
      (u ≠ s.pwr.slot → hostRefusal s (hifMaster 0 0) 0 s.pwr.flashPtr 64 false ≠ none → ∃ t, exec (.flashGo slot) s = .next t ∧
        t.pwr = { s.pwr with flashResult := 6, flashBusy := none }))) ∧
  (∀ (s : State) (slot v : Nat), regsAnswer s = false → exec (.flashGo slot) s = .next s ∧ exec (.gpioCtlWrite v) s = .next s) ∧
  (∀ (s : State) (data : List Byte) (fail err : Bool), s.pwr.flashBusy = none ∨ s.pwr.main = false →
    exec (.flashWriteComplete data fail err) s = .next s) ∧
  (∀ (s : State) (u : Nat) (data : List Byte) (err : Bool), s.pwr.flashBusy = some u → s.pwr.main = true →
    let h := padTo 64 data
    let n := 64 + leAt h 12 4
    let b := padTo (n + 49856) data
    let ended := fun r => ({ s.pwr with flashResult := r, flashBusy := none } : Pwr)
    (∃ t, exec (.flashWriteComplete data true err) s = .next t ∧ flashFrame s t ∧ t.pwr = ended 6) ∧
    (leAt h 0 4 ≠ 0x57464845 ∨ 8338560 < leAt h 12 4 ∨ slice h 16 48 ≠ zeroBytes 48 →
      ∃ t, exec (.flashWriteComplete data false err) s = .next t ∧ flashFrame s t ∧ t.pwr = ended 5) ∧
    (leAt h 0 4 = 0x57464845 → leAt h 12 4 ≤ 8338560 → slice h 16 48 = zeroBytes 48 →
      (hostRefusal s (hifMaster 0 0) 0 (s.pwr.flashPtr + 64) (n - 64 + 49856) false ≠ none →
        ∃ t, exec (.flashWriteComplete data false err) s = .next t ∧ t.pwr = ended 6) ∧
      (hostRefusal s (hifMaster 0 0) 0 (s.pwr.flashPtr + 64) (n - 64 + 49856) false = none →
        let good := slhVerify slh256f (romKey s 3) (b.take n) (b.drop n)
        let x : FwSlot := ⟨true, leAt h 4 4, leAt h 8 4, shake256 32 (b.take n)⟩
        ∃ t, exec (.flashWriteComplete data false err) s = .next t ∧
          flashFrame s t ∧ (∀ o ∈ readsOf s 0 (s.pwr.flashPtr + 64) (n - 64 + 49856), o ∈ t.out) ∧
          (if good = false then t.pwr = ended 3
           else if leAt h 4 4 < s.pwr.fwFloor then t.pwr = ended 4
           else if err = true then t.pwr = ended 7
           else t.pwr.flashResult = 0 ∧ t.pwr.flashBusy = none ∧ t.pwr.slotA = (if u = 0 then x else s.pwr.slotA) ∧
             t.pwr.slotB = (if u = 0 then s.pwr.slotB else x) ∧ t.pwr.slot = s.pwr.slot ∧ bootWrote s t 9 u ⟨0, 0, 0⟩)))) ∧
  (∀ (s : State) (v : Nat), regsAnswer s = true →
    let c := s.pwr.gpioConflict && !v.testBit 31
    let bad := (v.testBit 1 = true ∧ v.testBit 0 = true) ∨ (v.testBit 1 = true ∧ s.pwr.svcEn = true) ∨ (v.testBit 0 = true ∧ s.pwr.ppsEn = true)
    (bad → ∃ t, exec (.gpioCtlWrite v) s = .next t ∧ regIs 0 { s with pwr := { s.pwr with gpioConflict := true } } t) ∧
    (¬ bad → ∃ t, exec (.gpioCtlWrite v) s = .next t ∧
      regIs 0 { s with pwr := { s.pwr with gpioConflict := c, ppsEn := v.testBit 1, svcEn := v.testBit 0 } } t ∧
      gpio3 t = if v.testBit 0 = true then some (decide (s.hif.svcMode = .active ∨ s.hif.svcMode = .standby))
        else if v.testBit 1 = true then some (match s.pwr.ppsUntil with | some e => decide (s.time.refCount < e) | none => false) else none)) ∧
  (∀ s : State, s.pwr.main = false ∨ s.pwr.mode = .guard → gpio3 s = none) ∧
  ∀ s : State,
    (s.time.dev = none ∨ s.pwr.main = false → exec .ppsPulse s = .next s) ∧
    ∀ d, s.time.dev = some d → s.pwr.main = true →
      let due := match s.pwr.ppsSecond with | some k => k < d / 1000000 | none => d % 1000000 = 0
      (¬ due → exec .ppsPulse s = .next s) ∧
      (due → s.pwr.ppsEn = false → exec .ppsPulse s = .next { s with pwr := { s.pwr with ppsSecond := some (d / 1000000) } }) ∧
      (due → s.pwr.ppsEn = true → exec .ppsPulse s = .next { s with
        pwr := { s.pwr with ppsSecond := some (d / 1000000), ppsUntil := some (s.time.refCount + 1000) }
        out := s.out ++ [.pps] })

/-- START_STEP_DONE, HELD_REPORT_TIMER, LEDGER_RETEST (a unit skipped for its FAIL keeps it: log entry 56). -/
def Obligations.StartSequence : Prop :=
  (∀ (s : State) (step unit : Nat) (ok : Bool), ¬ stepRuns s step unit → exec (.startStepDone step unit ok) s = .next s) ∧
  (∀ (s : State) (step n u : Nat), n ∈ stepNeeds step → n ≠ 9 → u < stepUnits n → (bootOf s n u).last = 0 ∨ (bootOf s n u).last = 6 →
    stepReady s step = false) ∧
  (∀ (s : State) (step : Nat), plainStep step → stepRuns s step 0 → s.pwr.held = false →
    (s.pwr.retried.contains step = false → ∃ t, exec (.startStepDone step 0 false) s = .next t ∧ startOnly s t ∧
      t.pwr.retried = s.pwr.retried ++ [step] ∧
      bootWrote s t step 0 { bootOf s step 0 with fails := satAdd 0xFF (bootOf s step 0).fails 1 }) ∧
    (s.pwr.retried.contains step = true → ∃ t, exec (.startStepDone step 0 false) s = .next t ∧ startHeld s t step 0)) ∧
  (∀ s : State, s.pwr.mode = .start →
    (∀ step, step = 4 ∨ step = 5 ∨ step = 0x0A → stepRuns s step 0 → ∃ t, exec (.startStepDone step 0 true) s = .next t ∧ startOnly s t ∧
      t.pwr.retried = s.pwr.retried ∧ stepPassed s t step 0) ∧
    (stepRuns s 1 0 → (∀ k, k < recsUsed s.lcy.recs → (s.lcy.recs.getD k ⟨0, 0, 0⟩).done = otpDone) →
      ∃ t, exec (.startStepDone 1 0 true) s = .next t ∧ stepPassed s t 1 0 ∧ startOnly { s with lcy := lcsScan s.lcy } t) ∧
    (stepRuns s 2 0 →
      (s.pwr.secretOk = true → s.pwr.ledgerOk = true → s.dbg.failedWords = [] → ∃ t, exec (.startStepDone 2 0 true) s = .next t ∧
        startOnly s t ∧ stepPassed s t 2 0) ∧
      (s.pwr.secretOk = false ∨ s.pwr.ledgerOk = false → ∃ t, exec (.startStepDone 2 0 true) s = .next t ∧
        t.pwr.formatted = true ∧ (bootOf t 2 0).last = (if s.pwr.retried.contains 2 then 5 else 1) ∧ t.pwr.secretOk = true ∧ t.pwr.ledgerOk = true ∧ t.time.dev = none ∧
        t.pwr.keepBad = (s.pwr.keepBad || decide (2 ≤ lcsCode s.lcy.state)) ∧ (s.pwr.secretOk = false → t.lcy.keepHalf = zeroBytes 32) ∧
        (s.pwr.ledgerOk = false → t.mtr.total = [] ∧ t.kst.ledger = [] ∧ t.kst.sens = [] ∧ t.lcy.officers = Lcy.new.officers ∧
          t.lcy.progKeys = [] ∧ t.lcy.approvals = [] ∧ t.par.bound = false ∧ t.tmp.lock = false ∧ t.tmp.erased = false ∧ t.pwr.startCount = 1 ∧
          t.aud.buf = [] ∧ t.tmp.mons.map (fun m => m.cls) = defaultClasses.take s.tmp.mons.length))) ∧
    (stepRuns s 3 0 → bootWhole s → ∃ t, exec (.startStepDone 3 0 true) s = .next t ∧ t.time = { s.time with refCount := 0 } ∧
      (∀ step unit, step ≠ 3 → unit < stepUnits step → (bootOf t step unit).last =
        if (step = 9 ∨ 0x0B ≤ step ∧ step ≤ 0x10) ∧ ((bootOf s step unit).prev = 2 ∨ (bootOf s step unit).prev = 3) then 4
        else (bootOf s step unit).last) ∧
      (∀ p, p < 144 → (bootOf s 0x0B p).prev = 2 → p ∈ t.cpu.fenced) ∧
      (∀ n, n < 18 → (bootOf s 0x0C n).prev = 2 → t.lanes.blkFenced.testBit n = true) ∧
      (∀ n, n < 9 → (bootOf s 0x0D n).prev = 2 → t.lanes.hashFenced.testBit n = true) ∧
      (portsWhole s → ∀ p, p < 8 → (portOf t p).st = (if (portOf s p).enable ∧ (portOf s p).st = .disabled then .training else (portOf s p).st) ∧
        ((bootOf s 0x10 p).prev = 2 ∨ (bootOf s 0x10 p).prev = 3 → (portOf t p).force56 = true))) ∧
    (stepRuns s 6 0 → s.aud.buf = [] → ∃ t, exec (.startStepDone 6 0 true) s = .next t ∧ startOnly s t ∧ stepPassed s t 6 0) ∧
    (stepRuns s 6 0 → ∀ r, s.aud.buf = [r] → s.aud.anchorDue = true → s.aud.next < 524286 → s.aud.shutter = none → s.aud.staging = [] →
      ∃ t, exec (.startStepDone 6 0 true) s = .next t ∧ stepPassed s t 6 0 ∧ t.aud.buf = [] ∧ t.aud.next = s.aud.next + 2 ∧
        (∃ h ∈ t.aud.held, h.seq = s.aud.next ∧ leAt h.bytes 4 2 = 2) ∧ recorded s t 1 (r.code % 65536) r.func (r.body.take 40) ∧
        ∃ h ∈ t.aud.held, h.seq = s.aud.next + 1 ∧ (leAt h.bytes 6 1).testBit 1 = true) ∧
    (stepRuns s 7 0 →
      ((∀ k, k < 2 → (srcOf s k).st = .warm ∨ (srcOf s k).st = .selected) →
        ∃ t, exec (.startStepDone 7 0 true) s = .next t ∧ stepPassed s t 7 0 ∧ t.tmp.lfsr.length = 16 ∧
        startOnly { s with tmp := { s.tmp with lfsr := t.tmp.lfsr }, freeCtr := t.freeCtr } t) ∧
      ((∃ k, k < 2 ∧ (srcOf s k).st = .startup) →
        ∃ t, exec (.startStepDone 7 0 true) s = .next t ∧ startOnly s t ∧ t.pwr.ledger = s.pwr.ledger) ∧
      (∀ k, k < 2 → (srcOf s k).st = .failed → 2 ≤ (srcOf s k).attempts →
        (∃ t, exec (.startStepDone 7 0 false) s = .next t ∧ startHeld s t 7 0) ∧
        ∃ t, exec (.startStepDone 7 0 true) s = .next t ∧ startOnly s t ∧ t.pwr.ledger = s.pwr.ledger)) ∧
    (stepRuns s 8 0 → ∃ t, exec (.startStepDone 8 0 true) s = .next t ∧ stepPassed s t 8 0 ∧
      startOnly { s with hif := { s.hif with linkUp := true } } t)) ∧
  (∀ s : State, s.pwr.mode = .start →
    (∀ u ok, stepRuns s 9 u → fwPick s ≠ some u → fwPick s ≠ none → ∃ t, exec (.startStepDone 9 u ok) s = .next t ∧ startOnly s t ∧
      t.pwr.ledger = s.pwr.ledger) ∧
    (∀ u, stepRuns s 9 u → fwPick s = some u →
      (∃ t, exec (.startStepDone 9 u true) s = .next t ∧ stepPassed s t 9 u ∧ t.pwr.slot = u ∧ t.pwr.fwVersion = (fwSlot s u).version ∧
        t.pwr.fwFloor = (fwSlot s u).floor) ∧
      (fwCan s (1 - u) = true → ∃ t, exec (.startStepDone 9 u false) s = .next t ∧ startOnly s t ∧
        bootWrote s t 9 u { bootOf s 9 u with last := 2, fails := satAdd 0xFF (bootOf s 9 u).fails 1 }) ∧
      (fwCan s (1 - u) = false → s.pwr.retried.contains 9 = false → ∃ t, exec (.startStepDone 9 u false) s = .next t ∧ startOnly s t ∧
        t.pwr.retried = s.pwr.retried ++ [9] ∧ bootWrote s t 9 u { bootOf s 9 u with fails := satAdd 0xFF (bootOf s 9 u).fails 1 }) ∧
      (fwCan s (1 - u) = false → s.pwr.retried.contains 9 = true → ∃ t, exec (.startStepDone 9 u false) s = .next t ∧ startHeld s t 9 u)) ∧
    (let can := fun u => (fwSlot s u).present = true ∧ (bootOf s 9 u).last = 0
     (can 0 → can 1 → fwPick s = some (if s.pwr.slotB.version ≤ s.pwr.slotA.version then 0 else 1)) ∧
     (can 0 → ¬ can 1 → fwPick s = some 0) ∧ (can 1 → ¬ can 0 → fwPick s = some 1) ∧ (¬ can 0 → ¬ can 1 → fwPick s = none)) ∧
    (∀ u, stepRuns s 9 u → fwPick s = none → ∃ t, exec (.startStepDone 9 u false) s = .next t ∧ startHeld s t 9 u)) ∧
  (∀ s : State, s.pwr.mode = .start →
    (∀ step u, 0x0B ≤ step → step ≤ 0x0F → stepRuns s step u →
      (∃ t, exec (.startStepDone step u true) s = .next t ∧ startOnly s t ∧ bootWrote s t step u { bootOf s step u with last := 1 }) ∧
      ∃ t, exec (.startStepDone step u false) s = .next t ∧
        (bootOf t step u = { bootOf s step u with last := 2, fails := satAdd 0xFF (bootOf s step u).fails 1 }) ∧
        (step = 0x0B → u ∈ t.cpu.fenced ∧ (u ∉ s.cpu.fenced → ∀ k, logicalOf s u = some k →
          (spareReady s (coreCluster u) = true → u ≠ 9 * coreCluster u + 8 → physOf t (coreCluster u) k = 9 * coreCluster u + 8) ∧
          (spareReady s (coreCluster u) = false → ∀ j, j < 9 → 9 * coreCluster u + j ∈ t.cpu.fenced))) ∧
        (step = 0x0C → t.lanes.blkFenced.testBit u = true) ∧ (step = 0x0D → t.lanes.hashFenced.testBit u = true) ∧
        (step = 0x0E → t.lanes.modFenced.testBit u = true) ∧ (step = 0x0F → t.lanes.latFenced.testBit u = true)) ∧
    (∀ ok, stepRuns s 0x11 0 → s.lcy.state ≠ .deployed ∨ s.tmp.erased = true → ∃ t, exec (.startStepDone 0x11 0 ok) s = .next t ∧ startOnly s t ∧
      bootWrote s t 0x11 0 { bootOf s 0x11 0 with last := 4 }) ∧
    (∀ ok, stepRuns s 0x12 0 → s.lcy.state ≠ .deployed ∨ s.tmp.erased = true → ∃ t, exec (.startStepDone 0x12 0 ok) s = .next t ∧ startOnly s t ∧
      bootWrote s t 0x12 0 { bootOf s 0x12 0 with last := 4 }) ∧
    (s.lcy.state = .deployed → s.tmp.erased = false →
      (stepRuns s 0x11 0 → drbgLive s 0 = true → ∃ t, exec (.startStepDone 0x11 0 true) s = .next t ∧ stepPassed s t 0x11 0 ∧
        t.kst = { s.kst with intKey := drawnZero s 32, vaultKey := rootVaultKey s }) ∧
      (stepRuns s 0x12 0 → ∃ t, exec (.startStepDone 0x12 0 true) s = .next t ∧ startOnly s t ∧ stepPassed s t 0x12 0) ∧
      ∀ step, step = 0x11 ∨ step = 0x12 → stepRuns s step 0 → s.pwr.held = false →
        (s.pwr.retried.contains step = false → ∃ t, exec (.startStepDone step 0 false) s = .next t ∧ startOnly s t ∧
          t.pwr.retried = s.pwr.retried ++ [step]) ∧
        (s.pwr.retried.contains step = true → ∃ t, exec (.startStepDone step 0 false) s = .next t ∧ startHeld s t step 0)) ∧
    (∀ ok, stepRuns s 0x1F 0 → s.par.l0.take = .none → s.par.l1.take = .none → s.hif.svcHeld = false → ∃ t, exec (.startStepDone 0x1F 0 ok) s = .next t ∧
      (let m := if s.tmp.erased ∨ s.pwr.keepBad then Mode.recovery else if s.tmp.lock then .locked else if s.par.bound then .standby else .active
       t.pwr.mode = m ∧ t.hif.svcMode = m ∧ fired s t 0 5 ∧ (bootOf t 0x1F 0).last = 1 ∧
       t.slm.clusters = (List.range 16).map (fun c => if (coresIn s c).isEmpty then .asleep else .awake) ∧
       (∀ c k, c < 16 → k ∈ coresIn s c → (∀ a b, a < 16 → b < 8 → coreCluster (physOf s a b) = a) → (core t (physOf s c k)).st = .ask) ∧
       (s.aud.shutter = none → s.aud.staging = [] → recBlocked s = false → logUsed s + 3 < 458752 → anchorNeeded s = s.aud.anchorDue →
         recorded s t (if s.aud.anchorDue then 1 else 0) 0x0010 0 (leBytes 1 (modeCode m) ++
           leBytes 2 ((s.pwr.ledger.filter fun e => decide (2 ≤ e.2.last) && decide (e.2.last ≤ 4)).length) ++ leBytes 1 s.pwr.slot ++
           padTo 32 (fwSlot s s.pwr.slot).digest))))) ∧
  (∀ (s : State) (p : Nat) (ok : Bool), stepRuns s 0x10 p → let e := bootOf s 0x10 p
    ∃ t, exec (.startStepDone 0x10 p ok) s = .next t ∧ startOnly s t ∧
      ((portOf s p).st = .up → (bootOf t 0x10 p).last = if e.last = 4 then 3 else if (portOf s p).slow ∧ (portOf s p).force56 = false then 2 else 1) ∧
      ((portOf s p).st = .down → (bootOf t 0x10 p).last = 2) ∧
      ((portOf s p).st ≠ .up → (portOf s p).st ≠ .down → t.pwr.ledger = s.pwr.ledger)) ∧
  (∀ s : State,
    (s.pwr.main = true → s.pwr.held = true → s.pwr.heldAt + 100000000 ≤ s.time.refCount → ∃ t, exec .heldReportTimer s = .next t ∧
      t = { s with pwr := { s.pwr with heldAt := s.time.refCount }, i3c := t.i3c, out := t.out } ∧ healthSent s t 11) ∧
    (s.pwr.main = false ∨ s.pwr.held = false ∨ s.time.refCount < s.pwr.heldAt + 100000000 → exec .heldReportTimer s = .next s)) ∧
  ∀ s : State, (regsAnswer s = true → ∃ t, exec .ledgerRetest s = .next t ∧ regIs 0 { s with pwr := { s.pwr with retest := true } } t) ∧
    (regsAnswer s = false → exec .ledgerRetest s = .next s)

/-- SELF_TEST_RUN, SILL_LANE_REMAP_DONE, CORE_SPARE_SWAP, KEEP_SCRUB, KEEP_WORD_RESTORE, CORRECTED_COUNT_SECOND, DBG_ERR_NEXT (detector of a
failed known answer, and which half a word is in: log entry 54). -/
def Obligations.IntegrityCommands : Prop :=
  ((∀ (s : State) (kind unit : Nat) (fail : Bool), s.pwr.main = false ∨ s.pwr.mode ≠ .standby ∨ 7 ≤ kind ∨
       (kind = 0 ∧ (144 ≤ unit ∨ logicalOf s unit = none)) ∨ (1 ≤ kind ∧ kind ≤ 4 ∧ (testPortOk kind unit = false ∨
         (laneOf s (testPort kind unit)).fenced = true)) ∨ (kind = 6 ∧ 128 ≤ unit) → exec (.selfTestRun kind unit fail) s = .next s) ∧
   (∀ (s : State) (unit : Nat), s.pwr.main = true → s.pwr.mode = .standby →
     (unit < 144 → logicalOf s unit ≠ none → let c := coreCluster unit
       (s.dbg.inj = none → (clAwake s c = true → exec (.selfTestRun 0 unit false) s = .next s) ∧
         (clAwake s c = false → ∃ t, exec (.selfTestRun 0 unit false) s = .next t ∧ testWoke s c t)) ∧
       (clAwake s c = true → coreIdle s unit →
         (∃ t, exec (.selfTestRun 0 unit true) s = .next t ∧ errSaid s t 0x05 2 4 unit 0 0 false ∧ unit ∈ t.cpu.fenced ∧
           (bootOf t 0x0B unit).last = 2 ∧ t.par.testFault = (s.par.testFault || !spareReady s c) ∧ healthWithin s t 8 1 ∧ t.dbg.inj = s.dbg.inj) ∧
         ∀ u left full, u = unit ∨ u = 0xFFFF → left ≠ 0 → s.dbg.inj = some ⟨0x05, u, 1, left, full⟩ →
           ∃ t, exec (.selfTestRun 0 unit false) s = .next t ∧ t.dbg.inj = (if left = 1 then none else some ⟨0x05, u, 1, left - 1, full⟩) ∧
             (full = false → errSaid s t 0x05 2 0x20 unit 0 0 true ∧ t.cpu = s.cpu ∧ t.pwr = s.pwr) ∧
             (full = true → errSaid s t 0x05 2 4 unit 0 0 true ∧ unit ∈ t.cpu.fenced))) ∧
     (∀ kind, 1 ≤ kind → kind ≤ 4 → testPortOk kind unit = true → let n := testPort kind unit
       (laneOf s n).fenced = false → (kind = 1 → clAwake s unit = true) →
         (s.dbg.inj = none → exec (.selfTestRun kind unit false) s = .next s) ∧
         (∃ t, exec (.selfTestRun kind unit true) s = .next t ∧ errSaid s t 0x0C 2 4 (lanePhys s n) 0 0 false ∧ laneFencedNow s t n ∧
           (bootOf t (laneStep n) (lanePhys s n)).last = 2 ∧ t.par.testFault = (s.par.testFault || (spareFor s n).isNone) ∧ healthWithin s t 8 1) ∧
         ∀ u left, u = lanePhys s n ∨ u = 0xFFFF → left ≠ 0 → s.dbg.inj = some ⟨0x0C, u, 1, left, false⟩ →
           ∃ t, exec (.selfTestRun kind unit false) s = .next t ∧ errSaid s t 0x0C 2 0x20 (lanePhys s n) 0 0 true ∧ t.lanes = s.lanes) ∧
     (s.dbg.inj = none → exec (.selfTestRun 5 unit false) s = .next s ∧ (unit < 128 → exec (.selfTestRun 6 unit false) s = .next s)) ∧
     (∃ t, exec (.selfTestRun 5 unit true) s = .next t ∧ errSaid s t 0x0A 2 0 0 0 0 false ∧ t.par.testFault = true ∧ healthWithin s t 8 1) ∧
     (∀ left kind, left ≠ 0 → s.dbg.inj = some ⟨0x0A, 0xFFFF, kind, left, false⟩ →
       ∃ t, exec (.selfTestRun 5 unit false) s = .next t ∧ t.dbg.inj = (if left = 1 then none else some ⟨0x0A, 0xFFFF, kind, left - 1, false⟩) ∧
         t.par.testFault = s.par.testFault ∧ (kind = 0 → corrected s t 0x0A 1) ∧
         (kind ≠ 0 → errSaid s t 0x0A 2 0x20 0 0 0 true ∧ healthWithin s t 8 1)) ∧
     (unit < 128 → sillUsed s (unit / 64) < 4 → ∃ t, exec (.selfTestRun 6 unit true) s = .next t ∧ errSaid s t 0x0D 2 8 unit 0 0 false ∧
       t.dbg.sillRemapped = s.dbg.sillRemapped ++ [unit] ∧ healthWithin s t 8 1)) ∧
   (∀ (s : State) (dir lane : Nat),
     (s.pwr.main = false ∨ 2 ≤ dir ∨ 64 ≤ lane → exec (.sillLaneRemapDone dir lane) s = .next s) ∧
     (s.pwr.main = true → dir < 2 → lane < 64 → ∃ t, exec (.sillLaneRemapDone dir lane) s = .next t ∧
       (sillUsed s dir < 4 → errSaid s t 0x0D 2 8 (64 * dir + lane) 0 0 false ∧ t.dbg.sillRemapped = s.dbg.sillRemapped ++ [64 * dir + lane] ∧
         t.dbg.sillSpares = 4 - max (sillUsed t 0) (sillUsed t 1) ∧ t.dbg.pairFault = s.dbg.pairFault ∧ reportFrame { s with dbg := t.dbg } t) ∧
       (4 ≤ sillUsed s dir → errSaid s t 0x0D 3 (if latchCount s = 0 then 0 else 16) (64 * dir + lane) 0 0 false ∧ t.dbg.pairFault = true ∧
         t.dbg.sillRemapped = s.dbg.sillRemapped ∧ (s.dbg.pairFault = false → s.par.bound = true → latchCount t = 0)))) ∧
   ∀ (s : State) (c : Nat),
     (s.pwr.main = true → c < 16 → spareReady s c = true → ∀ k, k < 8 → coreGood s (physOf s c k) = false →
       (∀ j, j < k → coreGood s (physOf s c j) = true) → ∃ t, exec (.coreSpareSwap c) s = .next t ∧ physOf t c k = 9 * c + 8 ∧
         (∀ a j, j < 8 → a ≠ c ∨ j ≠ k → physOf t a j = physOf s a j) ∧
         t.cpu.fenced = s.cpu.fenced ∧ t.cpu.spareUsed.testBit c = true ∧ t = { s with cpu := t.cpu } ∧
         (clAwake s c = true → (core t (9 * c + 8)).st = .ask)) ∧
     (s.pwr.main = false ∨ 16 ≤ c ∨ spareReady s c = false ∨ (∀ k, k < 8 → coreGood s (physOf s c k) = true) →
       exec (.coreSpareSwap c) s = .next s)) ∧
  (∀ (s : State) (n : Nat) (bad ms : List Nat),
    let now := if s.pwr.main then s.time.refCount else s.time.slowCount
    let period := if s.pwr.main then 1000000 else 328
    (s.pwr.main = false ∧ s.pwr.backup = false ∨ now < s.pwr.scrubAt + period → exec (.keepScrub n bad ms) s = .next s) ∧
    (s.pwr.main = true ∨ s.pwr.backup = true → s.pwr.scrubAt + period ≤ now →
      (s.pwr.main = false → exec (.keepScrub n [] ms) s = .next { s with pwr := { s.pwr with scrubAt := now } }) ∧
      (s.pwr.main = true → s.dbg.inj = none →
        exec (.keepScrub 0 [] ms) s = .next { s with pwr := { s.pwr with scrubAt := now } } ∧
        (0 < n → ∃ t, exec (.keepScrub n [] ms) s = .next t ∧ corrected s t 0x14 n ∧
          t = { s with pwr := { s.pwr with scrubAt := now }, dbg := { s.dbg with corr := t.dbg.corr, secCorr := t.dbg.secCorr }, out := t.out })) ∧
      ∀ w m, s.pwr.main = false ∨ s.dbg.inj = none → ∃ t, exec (.keepScrub 0 [w] [m]) s = .next t ∧
        t.dbg.failedWords = s.dbg.failedWords.filter (fun x => decide (x.1 ≠ w)) ++ [(w, m)] ∧ t.pwr.scrubAt = now ∧
        (s.pwr.main = true → errSaid s t 0x14 1 0 (w % 65536) 0 w false) ∧ (s.pwr.main = false → t.dbg.errs = s.dbg.errs ∧ t.out = s.out) ∧
        (∀ f, rcptOf t f = if m ≠ 0 ∧ f = (m - 1) / 16 ∧ pairCurrent s = false then { rcptOf s f with flags := setBit (rcptOf s f).flags 3 true }
          else rcptOf s f)) ∧
    (s.pwr.main = true → s.pwr.scrubAt + period ≤ now → ∀ w k left full, w < 0xFFFF → left ≠ 0 → s.dbg.inj = some ⟨0x14, w, k, left, full⟩ →
      ∃ t, exec (.keepScrub 0 [] ms) s = .next t ∧ t.dbg.inj = (if left = 1 then none else some ⟨0x14, w, k, left - 1, full⟩) ∧
        (k = 0 → corrected s t 0x14 1 ∧ t.dbg.failedWords = s.dbg.failedWords) ∧
        (k ≠ 0 → errSaid s t 0x14 1 0 w 0 w true ∧
          t.dbg.failedWords = if full then s.dbg.failedWords.filter (fun x => decide (x.1 ≠ w)) ++ [(w, 0)] else s.dbg.failedWords))) ∧
  (∀ (s : State) (w : Nat),
    (s.pwr.main = true → s.par.bound = true → s.par.l0.pCur = true ∨ s.par.l1.pCur = true → 2048 ≤ w → exec (.keepWordRestore w) s = .next { s with
      dbg := { s.dbg with failedWords := s.dbg.failedWords.filter fun x => decide (x.1 ≠ w) } }) ∧
    (s.pwr.main = false ∨ s.par.bound = false ∨ (s.par.l0.pCur = false ∧ s.par.l1.pCur = false) ∨ w < 2048 →
      exec (.keepWordRestore w) s = .next s)) ∧
  (∀ s : State,
    (s.time.dev = none ∨ s.pwr.main = false → exec .correctedCountSecond s = .next s) ∧
    ∀ d, s.time.dev = some d → s.pwr.main = true →
      (d / 1000000 ≤ s.dbg.lastSecond → exec .correctedCountSecond s = .next s) ∧
      (s.dbg.lastSecond < d / 1000000 → ∃ t, exec .correctedCountSecond s = .next t ∧
        t.dbg = { s.dbg with secCorr := [], lastSecond := d / 1000000 } ∧ reportFrame { s with dbg := t.dbg } t ∧
        (s.dbg.secCorr = [] → t.aud = s.aud) ∧
        ∀ det n rest, s.dbg.secCorr = (det, n) :: rest → logTakes s → recorded s t 0 0x0500 0
          (leBytes 2 det ++ leBytes 1 0 ++ leBytes 1 0 ++ leBytes 2 0 ++ zeroBytes 2 ++ leBytes 8 0 ++ leBytes 4 0 ++ leBytes 4 n))) ∧
  ∀ s : State,
    (regsAnswer s = false → exec .dbgErrNext s = .next s) ∧
    (regsAnswer s = true → s.dbg.errs = [] → exec .dbgErrNext s = .next { s with out := s.out ++ [.reg 0] }) ∧
    ∀ e rest, regsAnswer s = true → s.dbg.errs = e :: rest → ∃ b, exec .dbgErrNext s = .next { s with
        dbg := { s.dbg with errs := rest, data := b }
        out := s.out ++ [.reg 1] } ∧
      b.length = 32 ∧ leAt b 0 8 = e.time % 2 ^ 64 ∧ leAt b 8 2 = e.det % 2 ^ 16 ∧ leAt b 10 1 = e.sev % 256 ∧ leAt b 11 1 = e.action % 256 ∧
      leAt b 12 2 = e.unit % 2 ^ 16 ∧ leAt b 14 2 = e.func % 2 ^ 16 ∧ leAt b 16 8 = e.addr % 2 ^ 64 ∧ leAt b 24 4 = e.syndrome % 2 ^ 32 ∧
      leAt b 28 2 = e.count % 2 ^ 16 ∧ leAt b 30 1 = b2n e.test ∧ leAt b 31 1 = 0

/-- CNT_FREEZE, CNT_CLEAR, SAMPLE_COUNT_EXPIRY, SAMPLE_BLOCK_DUMP. -/
def Obligations.CountersAndSamples : Prop :=
  (∀ (s : State) (v : Nat),
    (regsTake s → ∃ t, exec (.cntFreeze v) s = .next t ∧ regIs 0 { s with cnt := { s.cnt with freeze := v.testBit 31, ctrs := t.cnt.ctrs } } t ∧
      (v.testBit 30 = false → t.cnt.ctrs = s.cnt.ctrs) ∧
      (v.testBit 30 = true → exec (.cntClear v) s = .next t ∧
        (twf Ctr.blank s.cnt.ctrs = true → ∀ i, ctrOf t i = { ctrOf s i with count := 0, ovf := false }))) ∧
    (¬ regsTake s → exec (.cntFreeze v) s = .next s) ∧ (¬ regsTake s ∨ v.testBit 30 = false → exec (.cntClear v) s = .next s)) ∧
  (∀ (s : State) (p op pre lat cause : Nat),
    ((core s p).sampDue = [] → exec (.sampleCountExpiry p op pre lat cause) s = .next s) ∧
    ∀ d rest, (core s p).sampDue = d :: rest → ∃ t, exec (.sampleCountExpiry p op pre lat cause) s = .next t ∧
      core t p = { core s p with sampDue := rest } ∧ (∀ q, q ≠ p → core t q = core s q) ∧
      t = { s with cpu := { s.cpu with cores := t.cpu.cores }, cnt := { s.cnt with samps := t.cnt.samps } } ∧
      (∀ c, c ≠ coreCluster p → t.cnt.samps[c]? = s.cnt.samps[c]?) ∧
      ∀ m, s.cnt.samps[coreCluster p]? = some m →
        (4096 ≤ m.entries.length → t.cnt.samps[coreCluster p]? = some { m with lost := satAdd 0xFFFF m.lost 1 }) ∧
        (m.entries.length < 4096 → ∃ e, t.cnt.samps[coreCluster p]? = some { m with entries := m.entries ++ [e] } ∧ e.length = 16 ∧
          leAt e 0 4 = d.1 % 2 ^ 32 ∧ leAt e 4 1 = op % 256 ∧ leAt e 5 1 = pre % 256 ∧
          (p < 144 → leAt e 6 2 = d.2.1 % 2048 + 2048 * b2n d.2.2.1 + 4096 * coreCluster p) ∧
          leAt e 8 4 = min lat 0xFFFFFF + 2 ^ 24 * (cause % 16) + 2 ^ 28 * (logicalOf s p).getD 0 ∧ leAt e 12 4 = d.2.2.2 % 2 ^ 32)) ∧
  ∀ (s : State) (c : Nat) (m : Samp), s.cnt.samps[c]? = some m →
    (s.pwr.main = false ∨ m.entries.length < 2048 ∨ 2 ^ s.cnt.log2 ≤ s.cnt.used → exec (.sampleBlockDump c) s = .next s) ∧
    (s.pwr.main = true → 2048 ≤ m.entries.length → s.cnt.used < 2 ^ s.cnt.log2 → (∀ e ∈ m.entries, e.length = 16) →
      let a := s.cnt.base + 32768 * s.cnt.tail
      let n := 48 + freeNat s % 8
      (hostRefusal s (0xC0 + n) 0 a 32768 true = none → ∃ t, exec (.sampleBlockDump c) s = .next t ∧
        t = { s with
          cnt := { s.cnt with
            samps := s.cnt.samps.set c { m with entries := m.entries.drop 2048 }
            tail := (s.cnt.tail + 1) % 2 ^ s.cnt.log2
            used := s.cnt.used + 1
            ctrs := t.cnt.ctrs }
          mov := { s.mov with chans := t.mov.chans }
          hif := { s.hif with fns := t.hif.fns }
          out := t.out
          freeCtr := s.freeCtr + 1 } ∧
        (∀ g, fnOf t g = { fnOf s g with msix := (fnOf t g).msix }) ∧ (∀ k, k ≠ n → chan t k = chan s k) ∧
        ((chan s n).cur = none → (chan t n).code = 0) ∧ ∀ o ∈ writesOf s 0 a (joinBytes (m.entries.take 2048)) false, o ∈ t.out) ∧
      (∀ v, hostRefusal s (0xC0 + n) 0 a 32768 true = some v → ∃ t, exec (.sampleBlockDump c) s = .next t ∧
        t.cnt.samps = s.cnt.samps.set c { m with entries := m.entries.drop 2048, lost := satAdd 0xFFFF m.lost 2048 } ∧
        t.cnt.tail = s.cnt.tail ∧ t.cnt.used = s.cnt.used ∧ (∀ o, o ∈ t.out → o ∈ s.out ∨ ∃ f v a d, o = .msix f v a d)))

/-- REGISTER_WRITE, SPLIT_LOW_READ, SPLIT_LOW_WRITE, READ_CLEAR_ACCESS, VF_ENABLE_SET, MSIX_VECTOR_UNMASK. -/
def Obligations.RegisterAccess : Prop :=
  (∀ (s : State) (fn off w v : Nat), w < 4 ∨ off % 4 ≠ 0 ∨ writeOpen s fn off = false → exec (.registerWrite fn off w v) s = .next s) ∧
  (∀ (s : State) (fn off : Nat),
    (writeOpen s 0 off = if (0xD0000 ≤ off ∧ off < 0xE0000) ∨ (0x80000 ≤ off ∧ off < 0x90000) then regsAnswer s else regsOpen s) ∧
    (fn ≠ 0 → writeOpen s fn off = pageOpen s fn)) ∧
  (∀ (s : State) (v : Nat), regsTake s →
    (s.hif.cmdPend = none →
      pfWrites s 0x10 v { s with hif := { s.hif with req := { s.hif.req with tokens := v % 2 ^ 17 } } } ∧
      pfWrites s 0x14 v { s with hif := { s.hif with req := { s.hif.req with flows := v % 2 ^ 19 } } } ∧
      pfWrites s 0x18 v { s with hif := { s.hif with req := { s.hif.req with keys := v % 2 ^ 20 } } } ∧
      pfWrites s 0x1C v { s with hif := { s.hif with req := { s.hif.req with dispatch := v % 2 ^ 17 } } }) ∧
    (s.hif.cmdPend ≠ none → ∀ o, o = 0x10 ∨ o = 0x14 ∨ o = 0x18 ∨ o = 0x1C ∨ o = 0x20 → pfWrites s o v s) ∧
    (∀ n, n < 7 → pfWrites s (0x10000 + 4 * n) v { s with slm := { s.slm with ageThresh := s.slm.ageThresh.set n (v % 65536) } }) ∧
    pfWrites s 0x1001C v { s with slm := { s.slm with urgThresh := v % 65536 } } ∧
    pfWrites s 0x20004 v { s with lanes := { s.lanes with allBlock := v.testBit 0 } } ∧
    pfWrites s 0x40000 v { s with mov := { s.mov with retryCount := v % 8 } } ∧
    (∀ n, n < 8 → pfWrites s (0x50008 + 16 * n) v { s with
      hif := { s.hif with hrStage := s.hif.hrStage.modify n fun r => { r with pages := v % 2 ^ 24 } } }) ∧
    pfWrites s 0x80040 v { s with lcy := { s.lcy with chalSlot := v % 16 } } ∧
    pfWrites s 0xA0018 v { s with
      mtr := { s.mtr with log2 := if s.mtr.enable then s.mtr.log2 else v / 2 % 16, enable := v.testBit 0 } } ∧
    pfWrites s 0xB0000 v { s with
      phl := { s.phl with cfgLock := v.testBit 31, fmAddr := v / 2 ^ 16 % 4096, hopLimit := max 1 (v / 256 % 256) } } ∧
    pfWrites s 0xB0200 v { s with phl := { s.phl with routeSel := v % 4096 } } ∧
    pfWrites s 0xB0210 v { s with phl := { s.phl with auditPeriod := max 100 (v % 65536) } } ∧
    pfWrites s 0xC0000 v { s with par := { s.par with aloneWait := max 1 (v / 4096 % 256), mirrorTmo := max 1 (v / 16 % 256) } } ∧
    pfWrites s 0xD0010 v { s with pwr := { s.pwr with ledgerSel := v % 256 } } ∧
    pfWrites s 0x100008 v { s with cnt := { s.cnt with latThresh := v % 2 ^ 24 } } ∧
    pfWrites s 0x10000C v { s with cnt := { s.cnt with waitThresh := v % 2 ^ 24 } } ∧
    (∀ i, i < 1172 → ∃ t, exec (.registerWrite 0 (0x110000 + 16 * i) 4 v) s = .next t ∧ regIs 0 { s with cnt := { s.cnt with ctrs := t.cnt.ctrs } } t ∧
      ctrOf t i = { ctrOf s i with
        enable := v.testBit 31, chain := v.testBit 30, ovf := (ctrOf s i).ovf && !v.testBit 29, irq := v.testBit 28, event := v % 4096 } ∧
      ∀ j, j ≠ i → ctrOf t j = ctrOf s j) ∧
    (∀ g, g < 32 → ∃ t, exec (.registerWrite 0 (0x120000 + 32 * g) 4 v) s = .next t ∧
      regIs 0 { s with cnt := { s.cnt with filters := t.cnt.filters } } t ∧ filterOf t g = { filterOf s g with
        share := v.testBit 31, priv := v / 2 ^ 29 % 4, space := v / 2 ^ 28 % 2, addrEn := v.testBit 27, masterEn := v.testBit 26
        funcEn := v.testBit 25, func := v / 256 % 2048, master := v % 256 } ∧
      ∀ j, j ≠ g → filterOf t j = filterOf s j) ∧
    (∀ c, c < 16 → pfWrites s (0x130004 + 32 * c) v { s with
      cnt := { s.cnt with samps := s.cnt.samps.modify c fun m => { m with period := max 64 (v / 2 ^ 16 % 65536), jitter := v / 256 % 16 } } }) ∧
    (∀ c, c < 16 → v.testBit 31 = true → pfWrites s (0x130000 + 32 * c) v { s with
      cnt := { s.cnt with samps := s.cnt.samps.modify c fun m => { m with
        enable := true, sIdle := v.testBit 30, sProg := v.testBit 29, sFw := v.testBit 28, funcEn := v.testBit 27, func := v / 2 ^ 16 % 2048
        cores := v / 256 % 256 } } }) ∧
    (∀ w, w < 32 → ∃ t, exec (.registerWrite 0 (0xC0100 + 4 * w) 4 v) s = .next t ∧ regIs 0 { s with par := { s.par with load1 := t.par.load1 } } t ∧
      ∀ f, 1 ≤ f → f ≤ 1024 → (f ∈ t.par.load1 ↔
        if (f - 1) / 32 = w ∧ (fnOf s f).created = false then v.testBit ((f - 1) % 32) = true else f ∈ s.par.load1))) ∧
  (∀ (s : State) (fn off v : Nat), writeOpen s fn off = true → off % 4 = 0 →
    (∀ x, reg64 s fn off = some x →
      (∃ t, exec (.registerWrite fn off 4 v) s = .next t ∧ fnIs fn { fnOf s fn with heldWr := some (off, v % 2 ^ 32) } s t) ∧
      ∃ t, exec (.splitLowWrite fn off v) s = .next t ∧ fnIs fn { fnOf s fn with heldWr := some (off, v % 2 ^ 32) } s t) ∧
    (reg64 s fn off = none → ∃ t, exec (.splitLowWrite fn off v) s = .next t ∧ fnIs fn { fnOf s fn with heldWr := none } s t)) ∧
  (∀ (s : State) (v l : Nat), regsTake s → l < 2 ^ 32 →
    ((fnOf s 0).heldWr = some (0xD0020, l) → pfWrites s 0xD0024 v { s with
      pwr := { s.pwr with flashPtr := (v % 2 ^ 32 * 2 ^ 32 + l) / 64 * 64 } }) ∧
    (∀ g, g < 32 → (fnOf s 0).heldWr = some (0x120008 + 32 * g, l) →
      ∃ t, exec (.registerWrite 0 (0x12000C + 32 * g) 4 v) s = .next t ∧ regIs 0 { s with cnt := { s.cnt with filters := t.cnt.filters } } t ∧
        filterOf t g = { filterOf s g with alo := v % 2 ^ 32 * 2 ^ 32 + l }) ∧
    (∀ n, n < 8 → (fnOf s 0).heldWr = some (0x50000 + 16 * n, l) → pfWrites s (0x50004 + 16 * n) v { s with
      hif := { s.hif with hrStage := s.hif.hrStage.modify n fun r => { r with base := (v % 2 ^ 32 * 2 ^ 32 + l) / 4096 * 4096 } } }) ∧
    ((∀ m ∈ s.cnt.samps, m.enable = false) → (fnOf s 0).heldWr = some (0x130200, l) → pfWrites s 0x130204 v { s with
      cnt := { s.cnt with base := (v % 2 ^ 32 * 2 ^ 32 + l) / 32768 * 32768, log2 := l % 16 } }) ∧
    ∃ t, exec (.registerWrite 0 0xD0020 8 v) s = .next t ∧ regIs 0 { s with pwr := { s.pwr with flashPtr := v % 2 ^ 64 / 64 * 64 } } t) ∧
  (∀ (s : State) (f n v : Nat), pageOpen s f = true → 1 ≤ f → f ≤ 1024 → (fnOf s f).rst = none →
    (∃ t, exec (.registerWrite f 0x220C 4 v) s = .next t ∧ fnIs f { fnOf s f with missThresh := v % 65536, heldWr := none } s t ∧ t.out = s.out) ∧
    (∀ r, n < 4 → (fnOf s f).rings[n]? = some r → r.st = .idle → ∃ t, exec (.registerWrite f (0x2000 + 64 * n) 8 v) s = .next t ∧
      fnIs f { fnOf s f with heldWr := none, rings := (fnOf s f).rings.set n { r with sqBase := v % 2 ^ 64 / 4096 * 4096 } } s t) ∧
    (∀ e, (fnOf s f).msix[n]? = some e → n < 32 → (fnOf s f).msix.length ≤ 32 →
      (∃ t, exec (.registerWrite f (0x3008 + 16 * n) 4 v) s = .next t ∧
        fnIs f { fnOf s f with heldWr := none, msix := (fnOf s f).msix.set n { e with data := v % 2 ^ 32 } } s t) ∧
      (v.testBit 0 = true → ∃ t, exec (.registerWrite f (0x300C + 16 * n) 4 v) s = .next t ∧
        fnIs f { fnOf s f with heldWr := none, msix := (fnOf s f).msix.set n { e with mask := true } } s t))) ∧
  (∀ (s : State) (fn off w : Nat),
    (readOpen s fn = false → exec (.splitLowRead fn off w) s = .next s ∧ exec (.readClearAccess fn off) s = .next s) ∧
    (off % w ≠ 0 → exec (.splitLowRead fn off w) s = .next s) ∧
    (readOpen s fn = true → off % 8 = 0 →
      (∀ x, reg64 s fn off = some x → exec (.splitLowRead fn off 8) s = .next { s with out := s.out ++ [.reg x] }) ∧
      (reg64 s fn off = none → exec (.splitLowRead fn off 8) s = .next { (wordRead (wordRead s fn off).2 fn (off + 4)).2 with
        out := (wordRead (wordRead s fn off).2 fn (off + 4)).2.out ++
          [.reg ((wordRead s fn off).1 + 2 ^ 32 * (wordRead (wordRead s fn off).2 fn (off + 4)).1)] })) ∧
    (readOpen s fn = true → w = 1 ∨ w = 2 → off % w = 0 → exec (.splitLowRead fn off w) s = .next { (wordRead s fn (off / 4 * 4)).2 with
      out := (wordRead s fn (off / 4 * 4)).2.out ++ [.reg ((wordRead s fn (off / 4 * 4)).1 / 256 ^ (off % 4) % 256 ^ w)] }) ∧
    (readOpen s fn = true → off % 4 = 0 → ¬ (fn = 0 ∧ (off = 0xA0000 ∨ off = 0xA0004)) →
      (reg64 s fn off = none → off < 4 ∨ reg64 s fn (off - 4) = none → exec (.splitLowRead fn off 4) s = .next { (wordRead s fn off).2 with
        out := (wordRead s fn off).2.out ++ [.reg (wordRead s fn off).1] }) ∧
      (∀ x, reg64 s fn off = some x → ∃ t, exec (.splitLowRead fn off 4) s = .next t ∧ t.out = s.out ++ [.reg (x % 2 ^ 32)] ∧
        fnIs fn { fnOf s fn with latchRd := some (off, x / 2 ^ 32) } s t) ∧
      (∀ x, 4 ≤ off → reg64 s fn off = none → reg64 s fn (off - 4) = some x →
        (∀ h, (fnOf s fn).latchRd = some (off - 4, h) → ∃ t, exec (.splitLowRead fn off 4) s = .next t ∧ t.out = s.out ++ [.reg h] ∧
          fnIs fn { fnOf s fn with latchRd := none } s t) ∧
        ((∀ o h, (fnOf s fn).latchRd = some (o, h) → o ≠ off - 4) →
          exec (.splitLowRead fn off 4) s = .next { s with out := s.out ++ [.reg (x / 2 ^ 32)] }))) ∧
    (regsAnswer s = true → fnExists s 0 = true →
      exec (.splitLowRead 0 0xA0000 4) s = .next { s with
        time := { s.time with latchHi := (match s.time.dev with | some d => d % 2 ^ 64 | none => 2 ^ 64 - 1) / 2 ^ 32 }
        out := s.out ++ [.reg ((match s.time.dev with | some d => d % 2 ^ 64 | none => 2 ^ 64 - 1) % 2 ^ 32)] } ∧
      exec (.splitLowRead 0 0xA0004 4) s = .next { s with
        out := s.out ++ [.reg (match s.time.dev with | some _ => s.time.latchHi | none => 2 ^ 32 - 1)] })) ∧
  (∀ s : State,
    wordRead s 0 0x2000000 = (0x7260B101, s) ∧
    wordRead s 0 0x1001C = (s.slm.urgThresh, s) ∧
    wordRead s 0 0x10030 = (bitsWord (s.slm.clusters.map fun c => decide (c = .waking)) * 65536 +
      bitsWord (s.slm.clusters.map fun c => decide (c = .awake)), s) ∧
    wordRead s 0 0x30014 = (4096 - s.kst.ledger.length, s) ∧
    (∀ f, f ≤ 1024 → wordRead s 0 (0x2000000 + 4096 * f) = (0x7260B101, s) ∧ wordRead s 0 (0x2000008 + 4096 * f) = (svcWord s f, s)) ∧
    (∀ n, n < 8 → wordRead s 0 (0x50008 + 16 * n) = ((s.hif.hrStage.getD n HostRegion.none).pages, s)) ∧
    (∀ p, p < 144 → wordRead s 0 (0x10100 + 4 * p) =
      (if (logicalOf s p).isSome then 65536 + min 65535 (64 * loadOnes (tget 0 s.slm.load p)) else 0, s)) ∧
    ∀ f n, 1 ≤ f → f ≤ 1024 → n < 4 → wordRead s f (0x2010 + 64 * n) = (ringCtlWord (ringOf s f n), s)) ∧
  (∀ s : State, readOpen s 0 = true →
    pfReads s 0x10028 (b2n s.slm.conflict * 2 ^ 31 + s.slm.late * 2 ^ 15 + s.slm.lift.length) { s with slm := { s.slm with late := 0 } } ∧
    pfReads s 0x20004 (s.lanes.mismatches * 2 ^ 16 + b2n s.lanes.allBlock) { s with lanes := { s.lanes with mismatches := 0 } } ∧
    pfReads s 0x50084 (s.mov.vioLost * 2 ^ 16 + s.mov.vios.length) { s with mov := { s.mov with vioLost := 0 } } ∧
    pfReads s 0x90004 (s.aud.crcErrors * 2 ^ 20 + s.aud.buf.length * 2 ^ 13 + s.aud.staging.length) { s with aud := { s.aud with crcErrors := 0 } } ∧
    pfReads s 0xA0020 (s.mtr.tail * 2 ^ 20 + s.mtr.deferred) { s with mtr := { s.mtr with deferred := 0 } } ∧
    pfReads s 0xB0214 (s.phl.auditFails * 2 ^ 16 + s.phl.audits) { s with phl := { s.phl with auditFails := 0 } } ∧
    pfReads s 0xB0224 s.phl.evtLost { s with phl := { s.phl with evtLost := 0 } } ∧
    pfReads s 0xE0010 (s.dbg.lost * 2 ^ 16 + s.dbg.errs.length) { s with dbg := { s.dbg with lost := 0 } } ∧
    pfReads s 0xC0054 (s.par.lvds.faults * 2 ^ 16 + s.par.fab.faults) { s with
      par := { s.par with lvds := { s.par.lvds with faults := 0 }, fab := { s.par.fab with faults := 0 } } } ∧
    (∀ d, 1 ≤ d → d < 0x18 → ∃ t, exec (.readClearAccess 0 (0xE0100 + 4 * d)) s = .next t ∧
      t.out = s.out ++ [.reg (tget 0 s.dbg.corr d * 2 ^ 16 + tget 0 s.dbg.uncorr d)] ∧ tget 0 t.dbg.corr d = 0 ∧ tget 0 t.dbg.uncorr d = 0 ∧
      t = { s with dbg := { s.dbg with corr := t.dbg.corr, uncorr := t.dbg.uncorr }, out := t.out } ∧
      ∀ e, e ≠ d → tget 0 t.dbg.corr e = tget 0 s.dbg.corr e ∧ tget 0 t.dbg.uncorr e = tget 0 s.dbg.uncorr e) ∧
    ∀ p, p < 8 → ∃ t, exec (.readClearAccess 0 (0xB0018 + 32 * p)) s = .next t ∧
      t.out = s.out ++ [.reg ((portOf s p).crc * 2 ^ 16 + (portOf s p).replays)] ∧ (∀ q, q ≠ p → portOf t q = portOf s q) ∧
      (p < s.phl.ports.length → portOf t p = { portOf s p with crc := 0, replays := 0 }) ∧
      t = { s with phl := { s.phl with ports := t.phl.ports }, out := t.out }) ∧
  (∀ (s : State) (f n : Nat) (r : Ring), readOpen s f = true → 1 ≤ f → f ≤ 1024 → n < 4 → (fnOf s f).rings[n]? = some r →
    ∃ t, exec (.readClearAccess f (0x2014 + 64 * n)) s = .next t ∧ t.out = s.out ++ [.reg (ringCode r.st * 2 ^ 30 + r.dbErrors)] ∧
      fnIs f { fnOf s f with rings := (fnOf s f).rings.set n { r with dbErrors := 0 } } s t) ∧
  (∀ s : State, (s.pwr.main = true → s.hif.linkUp = true → exec .vfEnableSet s = .next { s with hif := { s.hif with vfEnable := true } }) ∧
    (s.pwr.main = false ∨ s.hif.linkUp = false → exec .vfEnableSet s = .next s)) ∧
  ∀ (s : State) (f n : Nat),
    (pageOpen s f = false ∨ (fnOf s f).rst ≠ none → exec (.msixVectorUnmask f n) s = .next s) ∧
    ∀ e, pageOpen s f = true → (fnOf s f).rst = none → (fnOf s f).msix[n]? = some e → ∃ t, exec (.msixVectorUnmask f n) s = .next t ∧
      fnIs f { fnOf s f with heldWr := none, msix := (fnOf s f).msix.set n { e with mask := false, pend := false } } s t ∧
      t.out = s.out ++ if e.pend then [.msix f n e.addr e.data] else []

/-- The pools are conserved: every step keeps each pool's sum; a share change is one update of one function's share and the free pool; a lowered
share drops no queued work. -/
def Obligations.PoolsConserved : Prop :=
  (∀ s t : State, poolsWhole s → step s = .next t → poolsWhole t) ∧
  (∀ (c : Instr) (s t : State), exec c s = .next t →
    (t.hif.shares = s.hif.shares ∧ t.hif.free = s.hif.free) ∨
    ((c = .fnCreate ∨ c = .fnResize ∨ c = .fnDestroy) ∧ ∃ q, sharesMoved s t s.hif.fnSel q) ∨
    (s.pwr.main = true ∧ t.pwr.main = false ∧ t.hif = Hif.start)) ∧
  ∀ s t : State, exec .fnResize s = .next t →
    t.slm = s.slm ∧ t.cpu = s.cpu ∧ t.mov = s.mov ∧ t.hif.relq = s.hif.relq ∧ (∀ f n, ringOf t f n = ringOf s f n) ∧
    ∀ n, (laneOf t n).queue = (laneOf s n).queue

/-- Every step keeps the byte memories in their canonical form. -/
def Obligations.MemoriesCanonical : Prop := ∀ s t : State, memoriesWhole s → step s = .next t → memoriesWhole t

/-- The pools and the byte memories are whole at reset. -/
def Obligations.ResetMeetsInvariants : Prop := poolsWhole State.reset ∧ memoriesWhole State.reset

/-- KST_VAULT_BASE: its address bits, its reset value, its read, and no write while a VF is bound (R112, R508). -/
def Obligations.VaultBase : Prop :=
  State.reset.kst.vaultBase = 0 ∧
  (∀ (s t : State) (b k l : Bool), s.pwr.main = true → exec (.mainPowerLost b k l) s = .next t → t.kst.vaultBase = 0) ∧
  (∀ (s : State) (v : Nat), regsTake s →
    (¬ vfBound s → (∃ t, exec (.registerWrite 0 0x30008 8 v) s = .next t ∧
        regIs 0 { s with kst := { s.kst with vaultBase := v % 2 ^ 64 / 4096 * 4096 } } t) ∧
      ∀ l, l < 2 ^ 32 → (fnOf s 0).heldWr = some (0x30008, l) → ∃ t, exec (.registerWrite 0 0x3000C 4 v) s = .next t ∧
        regIs 0 { s with kst := { s.kst with vaultBase := (v % 2 ^ 32 * 2 ^ 32 + l) / 4096 * 4096 } } t) ∧
    (vfBound s → (∃ t, exec (.registerWrite 0 0x30008 8 v) s = .next t ∧ regIs 0 s t) ∧
      ∃ t, exec (.registerWrite 0 0x3000C 4 v) s = .next t ∧ regIs 0 s t)) ∧
  ∀ s : State, regsAnswer s = true → (∃ t, exec (.splitLowRead 0 0x30008 4) s = .next t ∧ t.out = s.out ++ [.reg (s.kst.vaultBase % 2 ^ 32)] ∧
    t.kst = s.kst ∧ (fnOf t 0).latchRd = some (0x30008, s.kst.vaultBase / 2 ^ 32)) ∧
    ((fnOf s 0).latchRd = none → exec (.splitLowRead 0 0x3000C 4) s = .next { s with out := s.out ++ [.reg (s.kst.vaultBase / 2 ^ 32)] })
end

