-- ==== Sys2Proof/Laws/Slh.lean ====
section
/-!
SUPPORT. A signature of the model's SLH-DSA verifies under its own key (FIPS 205), so that good approvals exist (R184, R349).
-/

namespace Sys2Proof.Machine

/-! ### Slices -/

theorem length_slice (b : Bytes) (o n : Nat) : (slice b o n).length = n := by
  simp [slice, zeroBytes]

theorem slice_exact (a b c : Bytes) : slice (a ++ (b ++ c)) a.length b.length = b := by
  simp [slice, zeroBytes]

theorem slice_at (a b c : Bytes) (o n : Nat) (ho : a.length = o) (hn : b.length = n) : slice (a ++ (b ++ c)) o n = b := by
  subst ho hn; exact slice_exact a b c

theorem slice_full (b : Bytes) (n : Nat) (h : b.length = n) : slice b 0 n = b := by
  have := slice_at [] b [] 0 n rfl h
  simpa using this

theorem joinBytes_cons (a : Bytes) (l : List Bytes) : joinBytes (a :: l) = a ++ joinBytes l := rfl

theorem joinBytes_append (l k : List Bytes) : joinBytes (l ++ k) = joinBytes l ++ joinBytes k := by
  induction l with
  | nil => rfl
  | cons a l ih => simp [joinBytes_cons, ih]

theorem length_joinBytes (w : Nat) (l : List Bytes) (h : ∀ b ∈ l, b.length = w) : (joinBytes l).length = w * l.length := by
  induction l with
  | nil => rfl
  | cons a l ih =>
    have h1 := h a (by simp)
    have h2 := ih fun b hb => h b (by simp [hb])
    simp [joinBytes_cons, h1, h2, Nat.mul_add, Nat.add_comm]

theorem slice_joinBytes (w : Nat) (l : List Bytes) (h : ∀ b ∈ l, b.length = w) (i : Nat) (hi : i < l.length) :
    slice (joinBytes l) (w * i) w = l[i] := by
  have e : joinBytes l = joinBytes (l.take i) ++ (l[i] ++ joinBytes (l.drop (i + 1))) := by
    rw [← joinBytes_cons, ← joinBytes_append]
    congr 1
    simp
  rw [e]
  refine slice_at _ _ _ _ _ ?_ (h _ (List.getElem_mem hi))
  rw [length_joinBytes w _ fun b hb => h b (List.mem_of_mem_take hb)]
  simp; omega

/-! ### The sponge -/

theorem length_kBuild (f : Nat → Nat → W64) : (kBuild f).length = 25 := by simp [kBuild]

theorem length_kRound (a : List W64) (rc : W64) : (kRound a rc).length = 25 := by
  unfold kRound
  simp only
  split
  · rename_i h r e
    have := congrArg List.length e
    simpa [length_kBuild] using this.symm
  · rename_i e
    have := congrArg List.length e
    simp [length_kBuild] at this

theorem length_keccakF (a : List W64) : (keccakF a).length = 25 := by
  have : kIota ≠ [] := by decide
  obtain ⟨l, x, e⟩ : ∃ l x, kIota = l ++ [x] := ⟨kIota.dropLast, kIota.getLast this, (List.dropLast_append_getLast this).symm⟩
  simp [keccakF, e, length_kRound]

theorem length_absorb (bs : List Bytes) : ∀ a : List W64, a.length = 25 → (bs.foldl kAbsorb a).length = 25 := by
  induction bs with
  | nil => intro a h; exact h
  | cons b bs ih => intro a _; exact ih _ (length_keccakF _)

theorem length_leBytes (n : Nat) : ∀ v, (leBytes n v).length = n := by
  induction n with
  | zero => intro v; rfl
  | succ n ih => intro v; simp [leBytes, ih]

theorem leNat_leBytes (n : Nat) : ∀ v, leNat (leBytes n v) = v % 256 ^ n := by
  induction n with
  | zero => intro v; simp [leBytes, leNat, Nat.mod_one]
  | succ n ih => intro v; simp [leBytes, leNat, ih, Nat.pow_succ, Nat.mul_comm (256 ^ n), Nat.mod_mul]

theorem length_kBytes (a : List W64) (h : a.length = 25) : (kBytes a).length = 200 := by
  rw [kBytes, length_joinBytes 8]
  · simp [h]
  · intro b hb
    obtain ⟨w, -, rfl⟩ := List.mem_map.1 hb
    exact length_leBytes 8 _

@[simp] theorem length_shake256 (m : Bytes) : (shake256 32 m).length = 32 := by
  have h := length_kBytes _ (length_absorb (chunks 136 (kPad 136 0x1F m)) (List.replicate 25 0) (by simp))
  unfold shake256 sponge
  simp only [kSqueeze]
  rw [if_pos (by decide), List.length_take, h]
  rfl

@[simp] theorem length_slhT (k : Bytes) (x : Adrs) (m : Bytes) : (slhT k x m).length = 32 := length_shake256 _
@[simp] theorem length_slhPrf (k s : Bytes) (x : Adrs) : (slhPrf k s x).length = 32 := length_shake256 _

/-! ### Chains and one-time signatures -/

theorem length_wotsChain (k : Bytes) (x : Adrs) (n : Nat) : ∀ i (m : Bytes), m.length = 32 → (wotsChain k x n i m).length = 32 := by
  induction n with
  | zero => intro i m h; exact h
  | succ n ih => intro i m _; exact ih _ _ (length_slhT _ _ _)

/-- A chain walked in two parts. -/
theorem wotsChain_add (k : Bytes) (x : Adrs) (a : Nat) : ∀ (b i : Nat) (m : Bytes),
    wotsChain k x b (i + a) (wotsChain k x a i m) = wotsChain k x (a + b) i m := by
  induction a with
  | zero => intro b i m; simp [wotsChain]
  | succ a ih =>
    intro b i m
    rw [Nat.succ_add]
    simp only [wotsChain]
    rw [← ih b (i + 1)]
    congr 1
    omega

theorem wotsDigits_le (m : Bytes) : ∀ d ∈ wotsDigits m, d ≤ 15 := by
  intro d h
  simp only [wotsDigits, List.mem_append, List.mem_flatMap, List.mem_cons, List.not_mem_nil, or_false] at h
  rcases h with ⟨b, -, h | h⟩ | h | h | h
  · have := b.isLt; omega
  all_goals omega

theorem length_wotsDigits (m : Bytes) (h : m.length = 32) : (wotsDigits m).length = 67 := by
  simp [wotsDigits, List.length_flatMap, h]

/-- The chain start that each digit of a signature reveals has the length of a hash. -/
theorem wots_parts (k s : Bytes) (x : Adrs) (m : Bytes) :
    ∀ b ∈ (wotsDigits m).zipIdx.map (fun di => wotsChain k { x with type := 0, w2 := di.2 } di.1 0 (wotsSk k s x di.2)), b.length = 32 := by
  intro b h
  obtain ⟨d, -, rfl⟩ := List.mem_map.1 h
  exact length_wotsChain _ _ _ _ _ (length_slhPrf _ _ _)

theorem length_wotsSign (k s : Bytes) (x : Adrs) (m : Bytes) (h : m.length = 32) : (wotsSign k s x m).length = 2144 := by
  rw [wotsSign, length_joinBytes 32 _ (wots_parts k s x m)]
  simp [length_wotsDigits m h]

/-- A one-time signature gives back its key. -/
theorem wots_verifies (k s : Bytes) (x : Adrs) (m : Bytes) (h : m.length = 32) :
    wotsFromSig k x (wotsSign k s x m) m = wotsPk k s x := by
  unfold wotsFromSig wotsPk
  congr 1
  apply List.ext_getElem
  · simp [length_wotsDigits m h]
  · intro i h1 h2
    have hi : i < (wotsDigits m).length := by simpa using h1
    have hs : slice (wotsSign k s x m) (32 * i) 32 = wotsChain k { x with type := 0, w2 := i } (wotsDigits m)[i] 0 (wotsSk k s x i) := by
      rw [wotsSign, slice_joinBytes 32 _ (wots_parts k s x m) i (by simpa using hi)]
      simp
    have hd := wotsDigits_le m _ (List.getElem_mem hi)
    simp only [List.getElem_map, List.getElem_zipIdx, List.getElem_range, Nat.zero_add, hs]
    have := wotsChain_add k { x with type := 0, w2 := i } (wotsDigits m)[i] (15 - (wotsDigits m)[i]) 0 (wotsSk k s x i)
    rw [Nat.zero_add] at this
    rw [this]
    congr 1
    omega

/-! ### Trees -/

@[simp] theorem length_wotsPk (k s : Bytes) (x : Adrs) : (wotsPk k s x).length = 32 := length_slhT _ _ _

@[simp] theorem length_xmssNode (k s : Bytes) (x : Adrs) (z i : Nat) : (xmssNode k s x z i).length = 32 := by
  cases z <;> simp [xmssNode]

/-- Climbing from a node with the siblings of its path gives the node at the top. -/
theorem climb_node (k s : Bytes) (x : Adrs) (auth : Bytes) (leaf n : Nat) : ∀ j,
    (∀ c, j ≤ c → c < j + n → slice auth (32 * c) 32 = xmssNode k s x c (sibling (leaf / 2 ^ c))) →
    climb k { x with type := 2, w1 := 0 } auth (List.range' j n) (leaf / 2 ^ j) (xmssNode k s x j (leaf / 2 ^ j)) =
      xmssNode k s x (j + n) (leaf / 2 ^ (j + n)) := by
  induction n with
  | zero => intro j _; simp [climb]
  | succ n ih =>
    intro j h
    have h0 := h j (Nat.le_refl _) (by omega)
    have step : slhT k { x with type := 2, w1 := 0, w2 := j + 1, w3 := leaf / 2 ^ j / 2 }
        (if leaf / 2 ^ j % 2 = 0 then xmssNode k s x j (leaf / 2 ^ j) ++ slice auth (32 * j) 32
         else slice auth (32 * j) 32 ++ xmssNode k s x j (leaf / 2 ^ j)) = xmssNode k s x (j + 1) (leaf / 2 ^ (j + 1)) := by
      have e : leaf / 2 ^ (j + 1) = leaf / 2 ^ j / 2 := by rw [Nat.pow_succ, Nat.div_div_eq_div_mul]
      rw [h0, e, xmssNode]
      generalize leaf / 2 ^ j = q
      congr 1
      unfold sibling
      split
      · have : 2 * (q / 2) = q := by omega
        rw [this]
      · have a : q - 1 = 2 * (q / 2) := by omega
        have b : q = 2 * (q / 2) + 1 := by omega
        rw [a]; nth_rewrite 2 [b]; rfl
    rw [List.range'_succ, climb]
    simp only
    rw [step, ← Nat.div_div_eq_div_mul (leaf) (2 ^ j) 2 |>.trans rfl |> fun e => (by rw [Nat.pow_succ, e] : leaf / 2 ^ (j + 1) = leaf / 2 ^ j / 2)]
    have := ih (j + 1) fun c hc hd => h c (by omega) (by omega)
    rw [this]
    congr 1
    · omega
    · congr 2; omega

theorem length_xmssSign (P : SlhP) (k s : Bytes) (x : Adrs) (m : Bytes) (i : Nat) (h : m.length = 32) :
    (xmssSign P k s x m i).length = 32 * (67 + P.hp) := by
  rw [xmssSign, List.length_append, length_wotsSign _ _ _ _ h, length_joinBytes 32]
  · simp; omega
  · intro b hb
    obtain ⟨j, -, rfl⟩ := List.mem_map.1 hb
    exact length_xmssNode _ _ _ _ _

/-- A tree signature by a leaf gives back the tree's root. -/
theorem xmss_verifies (P : SlhP) (k s : Bytes) (x : Adrs) (m : Bytes) (i : Nat) (h : m.length = 32) (hi : i < 2 ^ P.hp) :
    xmssFromSig P k x i (xmssSign P k s x m i) m = xmssNode k s x P.hp 0 := by
  have hw := length_wotsSign k s { x with w1 := i } m h
  unfold xmssFromSig xmssSign
  rw [List.take_left' (by rw [hw]), List.drop_left' (by rw [hw]), wots_verifies _ _ _ _ h]
  have := climb_node k s x (joinBytes ((List.range P.hp).map fun j => xmssNode k s x j (sibling (i / 2 ^ j)))) i P.hp 0 (by
    intro c _ hc
    rw [slice_joinBytes 32 _ _ c (by simpa using hc)]
    · simp
    · intro b hb
      obtain ⟨j, -, rfl⟩ := List.mem_map.1 hb
      exact length_xmssNode _ _ _ _ _)
  simp only [Nat.pow_zero, Nat.div_one, Nat.zero_add, Nat.div_eq_of_lt hi] at this
  rw [List.range_eq_range'] at this ⊢
  exact this

/-- A hypertree signature gives back the root of its last tree. -/
theorem ht_verifies (P : SlhP) (k s : Bytes) (n : Nat) : ∀ (j : Nat) (m : Bytes) (tree leaf : Nat), m.length = 32 → leaf < 2 ^ P.hp →
    htRoot P k (n + 1) j (htSign P k s (n + 1) j m tree leaf) m tree leaf =
      xmssNode k s ⟨j + n, tree / 2 ^ (P.hp * n), 0, 0, 0, 0⟩ P.hp 0 := by
  induction n with
  | zero =>
    intro j m tree leaf h hl
    simp only [htRoot, htSign, List.append_nil]
    rw [List.take_of_length_le (by rw [length_xmssSign _ _ _ _ _ _ h]), xmss_verifies _ _ _ _ _ _ h hl]
    simp
  | succ n ih =>
    intro j m tree leaf h hl
    have hx := length_xmssSign P k s ⟨j, tree, 0, 0, 0, 0⟩ m leaf h
    rw [htRoot, htSign]
    rw [List.take_left' hx, List.drop_left' hx, xmss_verifies _ _ _ _ _ _ h hl,
      ih _ _ _ _ (length_xmssNode _ _ _ _ _) (Nat.mod_lt _ (by positivity)), Nat.div_div_eq_div_mul, ← Nat.pow_add]
    have a : j + 1 + n = j + (n + 1) := by omega
    have b : P.hp + P.hp * n = P.hp * (n + 1) := by ring
    rw [a, b]

theorem length_htSign (P : SlhP) (k s : Bytes) (n : Nat) : ∀ (j : Nat) (m : Bytes) (tree leaf : Nat), m.length = 32 → leaf < 2 ^ P.hp →
    (htSign P k s n j m tree leaf).length = n * (32 * (67 + P.hp)) := by
  induction n with
  | zero => intro j m tree leaf _ _; simp [htSign]
  | succ n ih =>
    intro j m tree leaf h hl
    rw [htSign]
    simp only [List.length_append]
    rw [length_xmssSign _ _ _ _ _ _ h, xmss_verifies _ _ _ _ _ _ h hl,
      ih _ _ _ _ (length_xmssNode _ _ _ _ _) (Nat.mod_lt _ (by positivity))]
    ring

theorem length_forsNode (k s : Bytes) (x : Adrs) (z i : Nat) : (forsNode k s x z i).length = 32 := by
  cases z <;> simp [forsNode]

theorem length_forsSign (P : SlhP) (k s : Bytes) (x : Adrs) (d : Bytes) : (forsSign P k s x d).length = 32 * P.k * (P.a + 1) := by
  rw [forsSign, length_joinBytes (32 * (P.a + 1))]
  · simp [forsIdx]; ring
  · intro b hb
    obtain ⟨e, -, rfl⟩ := List.mem_map.1 hb
    rw [List.length_append, length_slhPrf, length_joinBytes 32]
    · simp; ring
    · intro b hb
      obtain ⟨j, -, rfl⟩ := List.mem_map.1 hb
      exact length_forsNode _ _ _ _ _

/-! ### Signatures -/

theorem length_slhPk (P : SlhP) (seed : Bytes) : (slhPk P seed).length = 64 := by simp [slhPk, length_slice]

/-- A public key begins with its public seed. -/
theorem slhPk_seed (P : SlhP) (seed : Bytes) : (slhPk P seed).take 32 = slice seed 64 32 := by
  rw [slhPk, List.take_left' (length_slice _ _ _)]

theorem length_slhSign (P : SlhP) (seed m : Bytes) (hd : P.h = P.d * P.hp) : (slhSign P seed m).length = slhLen P := by
  unfold slhSign slhLen slhParts
  simp only [List.length_append, length_shake256, length_forsSign]
  rw [length_htSign _ _ _ _ _ _ _ _ (by simp [forsFromSig]) (Nat.mod_lt _ (by positivity)), hd]
  ring

/-- A signature by a seed verifies under its public key. -/
theorem slh_verifies (P : SlhP) (seed m : Bytes) (n : Nat) (hn : P.d = n + 1) (hd : P.h = P.d * P.hp) :
    slhVerify P (slhPk P seed) m (slhSign P seed m) = true := by
  have hl := length_slhSign P seed m hd
  have hp := length_slhPk P seed
  have ht := slhPk_seed P seed
  have hr : (slhPk P seed).drop 32 = xmssNode (slice seed 64 32) (seed.take 32) ⟨P.d - 1, 0, 0, 0, 0, 0⟩ P.hp 0 := by
    rw [slhPk, List.drop_left' (length_slice _ _ _)]
  have hpad : padTo 64 (slhPk P seed) = slice seed 64 32 ++ (slhPk P seed).drop 32 := by
    rw [padTo, slice_full _ _ hp, ← ht, List.take_append_drop]
  obtain ⟨r, hr'⟩ : ∃ r, shake256 32 (slice seed 32 32 ++ slice seed 64 32 ++ slhPure m) = r := ⟨_, rfl⟩
  obtain ⟨d, hd'⟩ : ∃ d, shake256 P.m (r ++ slice seed 64 32 ++ (slhPk P seed).drop 32 ++ slhPure m) = d := ⟨_, rfl⟩
  have hs : slhSign P seed m = r ++ (forsSign P (slice seed 64 32) (seed.take 32) ⟨0, (slhParts P d).2.1, 3, (slhParts P d).2.2, 0, 0⟩
      (slhParts P d).1 ++ htSign P (slice seed 64 32) (seed.take 32) P.d 0
        (forsFromSig P (slice seed 64 32) ⟨0, (slhParts P d).2.1, 3, (slhParts P d).2.2, 0, 0⟩
          (forsSign P (slice seed 64 32) (seed.take 32) ⟨0, (slhParts P d).2.1, 3, (slhParts P d).2.2, 0, 0⟩ (slhParts P d).1)
          (slhParts P d).1) (slhParts P d).2.1 (slhParts P d).2.2) := by
    rw [← List.append_assoc, ← hd', ← hr']
    rfl
  have h32 : r.length = 32 := by rw [← hr', length_shake256]
  have h1 : (slhSign P seed m).take 32 = r := by rw [hs, List.take_left' h32]
  have h2 : (slice seed 64 32 ++ (slhPk P seed).drop 32) = padTo 64 (slhPk P seed) := hpad.symm
  have h3 : slhParts P (shake256 P.m (r ++ padTo 64 (slhPk P seed) ++ slhPure m)) = slhParts P d := by
    rw [← h2, ← hd']; simp only [List.append_assoc]
  have hf := length_forsSign P (slice seed 64 32) (seed.take 32) ⟨0, (slhParts P d).2.1, 3, (slhParts P d).2.2, 0, 0⟩ (slhParts P d).1
  have ht0 : (slhParts P d).2.1 / 2 ^ (P.hp * n) = 0 := by
    apply Nat.div_eq_of_lt
    have e : P.h - P.hp = P.hp * n := by rw [hd, hn, Nat.add_mul, Nat.one_mul, Nat.add_sub_cancel, Nat.mul_comm]
    unfold slhParts
    simp only [e]
    exact Nat.mod_lt _ (by positivity)
  have hleaf : (slhParts P d).2.2 < 2 ^ P.hp := Nat.mod_lt _ (by positivity)
  unfold slhVerify
  rw [Bool.and_eq_true, decide_eq_true_eq, decide_eq_true_eq]
  refine ⟨hl, ?_⟩
  simp only [h1, h3, ht]
  rw [hs, slice_at r _ _ 32 _ h32 hf, ← List.append_assoc, List.drop_left' (by rw [List.length_append, h32, hf]), hn,
    ht_verifies _ _ _ _ _ _ _ _ (by simp [forsFromSig]) hleaf, ht0, hr, hn]
  simp

theorem length_climb (k : Bytes) (x : Adrs) (auth : Bytes) (js : List Nat) : ∀ i node, node.length = 32 → (climb k x auth js i node).length = 32 := by
  induction js with
  | nil => intro i node h; exact h
  | cons j js ih => intro i node _; exact ih _ _ (length_slhT _ _ _)

theorem length_htRoot (P : SlhP) (k : Bytes) (n : Nat) : ∀ (j : Nat) (sig m : Bytes) (tree leaf : Nat), m.length = 32 →
    (htRoot P k n j sig m tree leaf).length = 32 := by
  induction n with
  | zero => intro j sig m tree leaf h; exact h
  | succ n ih =>
    intro j sig m tree leaf _
    exact ih _ _ _ _ _ (length_climb _ _ _ _ _ _ (length_slhT _ _ _))

/-- No signature verifies under a key of another length. -/
theorem slh_key_length (P : SlhP) (pk m sig : Bytes) (h : pk.length < 64) : slhVerify P pk m sig = false := by
  unfold slhVerify
  rw [Bool.and_eq_false_iff]
  right
  rw [decide_eq_false_iff_not]
  intro e
  have := congrArg List.length e
  rw [length_htRoot _ _ _ _ _ _ _ _ (by simp [forsFromSig]), List.length_drop] at this
  omega

end Sys2Proof.Machine
end

