-- ==== Sys2Proof/Laws/Aes.lean ====
section
/-!
SUPPORT. AES deciphers what it enciphers (FIPS 197), and key unwrap gives back what key wrap took (R114, R150, R370).
-/

namespace Sys2Proof.Machine

/-! ### Bytes -/

theorem byte_cases (P : Byte → Bool) (h : (List.range 256).all (fun i => P (BitVec.ofNat 8 i)) = true) (b : Byte) : P b = true := by
  have := List.all_eq_true.1 h b.toNat (List.mem_range.2 b.isLt)
  simpa using this

theorem invSbox_sbox (b : Byte) : invSbox (sbox b) = b := by
  have := byte_cases (fun b => decide (invSbox (sbox b) = b)) (by decide +kernel) b
  simpa using this

theorem doubled_xor (a b : Nat) : doubled (a ^^^ b) = doubled a ^^^ doubled b := by
  simp only [doubled, Nat.shiftRight_xor_distrib, Nat.and_xor_distrib_right, Nat.shiftLeft_xor_distrib]
  ac_rfl

theorem turned_xor (a b : Nat) : turned (a ^^^ b) = turned a ^^^ turned b := by
  simp only [turned, Nat.shiftRight_xor_distrib, Nat.and_xor_distrib_right, Nat.shiftLeft_xor_distrib]
  ac_rfl

theorem mixNat_xor (a b : Nat) : mixNat (a ^^^ b) = mixNat a ^^^ mixNat b := by
  simp only [mixNat, doubled_xor, turned_xor]
  ac_rfl

theorem invMixNat_xor (a b : Nat) : invMixNat (a ^^^ b) = invMixNat a ^^^ invMixNat b := by
  simp only [invMixNat, mixNat_xor, doubled_xor, turned_xor]
  ac_rfl

/-- A map that XOR passes through and that leaves every single bit below `n` alone leaves every number below 2^n alone. -/
theorem xor_id (g : Nat → Nat) (hx : ∀ a b, g (a ^^^ b) = g a ^^^ g b) (h0 : g 0 = 0) (n : Nat) (h1 : ∀ k < n, g (2 ^ k) = 2 ^ k) :
    ∀ x, x < 2 ^ n → g x = x := by
  induction n with
  | zero => intro x h; have : x = 0 := by omega
            rw [this, h0]
  | succ n ih =>
    intro x h
    have ih := ih fun k hk => h1 k (by omega)
    by_cases hb : x < 2 ^ n
    · exact ih x hb
    · have ht : x.testBit n = true := Nat.testBit_of_two_pow_le_and_two_pow_add_one_gt (by omega) h
      have hs : (2 ^ n ^^^ x) < 2 ^ n := by
        refine Nat.lt_pow_two_of_testBit _ fun i hi => ?_
        rw [Nat.testBit_xor, Nat.testBit_two_pow]
        by_cases he : n = i
        · subst he; simp [ht]
        · have : x.testBit i = false := Nat.testBit_lt_two_pow (Nat.lt_of_lt_of_le h (Nat.pow_le_pow_right (by decide) (by omega)))
          simp [this, he]
      have he : x = 2 ^ n ^^^ (2 ^ n ^^^ x) := by rw [← Nat.xor_assoc, Nat.xor_self, Nat.zero_xor]
      conv => lhs; rw [he]
      rw [hx, h1 n (by omega), ih _ hs, ← he]

theorem mixNat_inv (x : Nat) (h : x < 2 ^ 128) : invMixNat (mixNat x) = x :=
  xor_id (fun x => invMixNat (mixNat x)) (fun a b => by rw [mixNat_xor, invMixNat_xor]) (by decide) 128
    (by have : (List.range 128).all (fun k => invMixNat (mixNat (2 ^ k)) == 2 ^ k) = true := by decide +kernel
        intro k hk
        simpa using List.all_eq_true.1 this k (List.mem_range.2 hk)) x h

theorem doubled_lt (x : Nat) : doubled x < 2 ^ 128 := by
  have a : x &&& 0x7F7F7F7F7F7F7F7F7F7F7F7F7F7F7F7F ≤ 0x7F7F7F7F7F7F7F7F7F7F7F7F7F7F7F7F := Nat.and_le_right
  have b : (x >>> 7) &&& 0x01010101010101010101010101010101 ≤ 0x01010101010101010101010101010101 := Nat.and_le_right
  unfold doubled
  repeat first | apply Nat.xor_lt_two_pow | (simp only [Nat.shiftLeft_eq]; omega) | omega

theorem turned_lt (x : Nat) : turned x < 2 ^ 128 := by
  have a : x &&& 0x00FFFFFF00FFFFFF00FFFFFF00FFFFFF ≤ 0x00FFFFFF00FFFFFF00FFFFFF00FFFFFF := Nat.and_le_right
  have b : (x >>> 24) &&& 0x000000FF000000FF000000FF000000FF ≤ 0x000000FF000000FF000000FF000000FF := Nat.and_le_right
  unfold turned
  repeat first | apply Nat.xor_lt_two_pow | (simp only [Nat.shiftLeft_eq]; omega) | omega

theorem mixNat_lt (x : Nat) : mixNat x < 2 ^ 128 :=
  Nat.xor_lt_two_pow (Nat.xor_lt_two_pow (doubled_lt x) (turned_lt _)) (turned_lt _)

theorem leNat_lt (b : Bytes) : leNat b < 256 ^ b.length := by
  induction b with
  | nil => simp [leNat]
  | cons x b ih => have := x.isLt; simp only [leNat, List.length_cons, Nat.pow_succ]; omega

theorem leBytes_leNat (b : Bytes) : leBytes b.length (leNat b) = b := by
  induction b with
  | nil => rfl
  | cons x b ih =>
    have := x.isLt
    simp only [leNat, List.length_cons, leBytes]
    rw [show (x.toNat + 256 * leNat b) / 256 = leNat b by omega, ih]
    congr 1
    apply BitVec.eq_of_toNat_eq
    simp
    omega

theorem block_cases (s : Bytes) (h : s.length = 16) : ∃ s0 s1 s2 s3 s4 s5 s6 s7 s8 s9 s10 s11 s12 s13 s14 s15 : Byte, s = [s0, s1, s2, s3, s4, s5, s6, s7, s8, s9, s10, s11, s12, s13, s14, s15] := by
  match s, h with
  | [s0, s1, s2, s3, s4, s5, s6, s7, s8, s9, s10, s11, s12, s13, s14, s15], _ => exact ⟨s0, s1, s2, s3, s4, s5, s6, s7, s8, s9, s10, s11, s12, s13, s14, s15, rfl⟩

theorem mix_inv (s : Bytes) (h : s.length = 16) : invMixColumns (mixColumns s) = s := by
  have hs : beNat s < 2 ^ 128 := by
    have := leNat_lt s.reverse
    rw [List.length_reverse, h] at this
    exact this
  have hm := mixNat_lt (beNat s)
  have he : beNat (beBytes 16 (mixNat (beNat s))) = mixNat (beNat s) := by
    rw [beNat, beBytes, List.reverse_reverse, leNat_leBytes, Nat.mod_eq_of_lt (by simpa using hm)]
  rw [invMixColumns, mixColumns, he, mixNat_inv _ hs, beBytes, beNat]
  have := leBytes_leNat s.reverse
  rw [List.length_reverse, h] at this
  rw [this, List.reverse_reverse]

theorem shift_inv (s : Bytes) (h : s.length = 16) : invShiftRows (shiftRows s) = s := by
  obtain ⟨s0, s1, s2, s3, s4, s5, s6, s7, s8, s9, s10, s11, s12, s13, s14, s15, rfl⟩ := block_cases s h
  rfl

theorem length_shiftRows (s : Bytes) : (shiftRows s).length = 16 := by
  unfold shiftRows
  split <;> simp [zeroBytes]
theorem length_mixColumns (s : Bytes) : (mixColumns s).length = 16 := by simp [mixColumns, beBytes, length_leBytes]

theorem length_xorBytes (a : Bytes) : ∀ b : Bytes, a.length = b.length → (xorBytes a b).length = a.length := by
  induction a with
  | nil => intro b _; simp [xorBytes]
  | cons x a ih =>
    intro b h
    cases b with
    | nil => simp at h
    | cons y b => simp [xorBytes, ih b (by simpa using h)]

theorem xorBytes_cancel (a : Bytes) : ∀ b : Bytes, a.length = b.length → xorBytes (xorBytes a b) b = a := by
  induction a with
  | nil => intro b _; simp [xorBytes]
  | cons x a ih =>
    intro b h
    cases b with
    | nil => simp at h
    | cons y b => simp [xorBytes, ih b (by simpa using h)]

/-- The steps of a round that take no key, and their inverses. -/
theorem sub_shift_inv (s : Bytes) (h : s.length = 16) : (invShiftRows (shiftRows (s.map sbox))).map invSbox = s := by
  rw [shift_inv _ (by simpa using h), List.map_map]
  calc s.map (invSbox ∘ sbox) = s.map id := List.map_congr_left fun b _ => invSbox_sbox b
    _ = s := List.map_id s

/-- Rounds and inverse rounds under the same keys. -/
theorem rounds_inv (ks : List Bytes) (hk : ∀ k ∈ ks, k.length = 16) : ∀ s : Bytes, s.length = 16 →
    (ks.foldl (fun s k => xorBytes (mixColumns (shiftRows (s.map sbox))) k) s).length = 16 ∧
    ks.reverse.foldl (fun s k => invMixColumns (xorBytes ((invShiftRows s).map invSbox) k))
      (shiftRows ((ks.foldl (fun s k => xorBytes (mixColumns (shiftRows (s.map sbox))) k) s).map sbox)) =
      shiftRows (s.map sbox) := by
  induction ks with
  | nil => intro s h; exact ⟨h, rfl⟩
  | cons k ks ih =>
    intro s h
    have hk' := hk k (by simp)
    have hl : (xorBytes (mixColumns (shiftRows (s.map sbox))) k).length = 16 := by
      rw [length_xorBytes _ _ (by rw [length_mixColumns, hk']), length_mixColumns]
    obtain ⟨h1, h2⟩ := ih (fun x hx => hk x (by simp [hx])) _ hl
    refine ⟨h1, ?_⟩
    rw [List.reverse_cons, List.foldl_append, List.foldl_cons, List.foldl_cons, List.foldl_nil, h2, sub_shift_inv _ hl,
      xorBytes_cancel _ _ (by rw [length_mixColumns, hk']), mix_inv _ (length_shiftRows _)]

/-- AES with good round keys deciphers what it enciphers. -/
theorem aes_inv (key b : Bytes) (hb : b.length = 16) (hk : ∀ k ∈ aesRoundKeys key, k.length = 16)
    (h2 : 2 ≤ (aesRoundKeys key).length) : aesDec key (aesEnc key b) = b := by
  unfold aesEnc aesDec
  rcases hks : aesRoundKeys key with _ | ⟨k0, ks⟩
  · rfl
  · rw [hks] at hk h2
    rcases List.eq_nil_or_concat ks with rfl | ⟨init, last, rfl⟩
    · simp at h2
    · have h0 := hk k0 (by simp)
      have hl := hk last (by simp)
      have hi : ∀ k ∈ init, k.length = 16 := fun k hk' => hk k (by simp [hk'])
      have hx : (xorBytes b k0).length = 16 := by rw [length_xorBytes _ _ (by rw [hb, h0]), hb]
      obtain ⟨h1, h2⟩ := rounds_inv init hi _ hx
      simp only [List.concat_eq_append, List.reverse_cons, List.reverse_append, List.reverse_nil, List.nil_append,
        List.cons_append, List.dropLast_concat, List.getLastD_concat]
      rw [xorBytes_cancel _ _ (by rw [length_shiftRows, hl]), h2, sub_shift_inv _ hx, xorBytes_cancel _ _ (by rw [hb, h0])]

/-! ### Round keys -/

theorem length_expand (nk n : Nat) : ∀ (i : Nat) (rc : Byte) (ws : List Bytes), nk ≤ ws.length → 0 < nk → (∀ w ∈ ws, w.length = 4) →
    (aesExpand nk n i rc ws).length = n + ws.length ∧ ∀ w ∈ aesExpand nk n i rc ws, w.length = 4 := by
  induction n with
  | zero => intro i rc ws _ _ h; exact ⟨by simp [aesExpand], h⟩
  | succ n ih =>
    intro i rc ws hn h0 h
    have get : ∀ j, j < ws.length → (ws.getD j []).length = 4 := by
      intro j hj
      rw [List.getD_eq_getElem _ _ hj]
      exact h _ (List.getElem_mem hj)
    have g0 := get 0 (by omega)
    have gp := get (nk - 1) (by omega)
    have key : ∀ w : Bytes, w.length = 4 → ∀ rc, (aesExpand nk n (i + 1) rc (w :: ws)).length = n + 1 + ws.length ∧
        ∀ w' ∈ aesExpand nk n (i + 1) rc (w :: ws), w'.length = 4 := by
      intro w hw rc
      have := ih (i + 1) rc (w :: ws) (by simp; omega) h0 (by simpa [hw] using h)
      exact ⟨by rw [this.1]; simp; omega, this.2⟩
    unfold aesExpand
    simp only
    generalize ws.getD 0 [] = t at g0 ⊢
    generalize ws.getD (nk - 1) [] = prev at gp ⊢
    split
    · apply key
      have hr : (xorBytes ((t.drop 1 ++ t.take 1).map sbox) [rc, 0, 0, 0]).length = 4 := by
        rw [length_xorBytes] <;> simp [g0]
      rw [length_xorBytes _ _ (by rw [gp, hr]), gp]
    · apply key
      rw [length_xorBytes, gp]
      split <;> simp [g0, gp]

theorem chunks_all (n : Nat) (hn : 0 < n) : ∀ (f m : Nat) (b : Bytes), b.length = n * m → m ≤ f →
    (chunksAux n f b).length = m ∧ ∀ c ∈ chunksAux n f b, c.length = n := by
  intro f
  induction f with
  | zero => intro m b _ hm; have : m = 0 := by omega
            subst this; simp [chunksAux]
  | succ f ih =>
    intro m b hb hm
    cases m with
    | zero =>
      have : b = [] := List.length_eq_zero_iff.1 (by simpa using hb)
      subst this; simp [chunksAux]
    | succ m =>
      cases b with
      | nil => simp at hb; omega
      | cons x b =>
        rw [chunksAux]
        · have hd : ((x :: b).drop n).length = n * m := by rw [List.length_drop, hb, Nat.mul_succ]; omega
          obtain ⟨h1, h2⟩ := ih m _ hd (by omega)
          refine ⟨by simp [h1], ?_⟩
          intro c hc
          rcases List.mem_cons.1 hc with rfl | hc
          · rw [List.length_take, hb, Nat.mul_succ]; omega
          · exact h2 c hc
        · simp

/-- Pieces of a whole number of blocks. -/
theorem chunks_blocks (n m : Nat) (b : Bytes) (hn : 0 < n) (h : b.length = n * m) :
    (chunks n b).length = m ∧ ∀ c ∈ chunks n b, c.length = n :=
  chunks_all n hn b.length m b h (by rw [h]; exact Nat.le_mul_of_pos_left m hn)

/-- The round keys of a 32-byte key. -/
theorem roundKeys_256 (key : Bytes) (h : key.length = 32) : (aesRoundKeys key).length = 15 ∧ ∀ k ∈ aesRoundKeys key, k.length = 16 := by
  obtain ⟨c1, c2⟩ := chunks_blocks 4 8 key (by decide) (by rw [h])
  have e := length_expand 8 52 8 1 (chunks 4 key).reverse (by rw [List.length_reverse, c1]) (by decide)
    (fun w hw => c2 w (List.mem_reverse.1 hw))
  unfold aesRoundKeys
  rw [h]
  apply chunks_blocks 16 15 _ (by decide)
  rw [length_joinBytes 4]
  · rw [List.length_reverse]
    have := e.1
    rw [List.length_reverse, c1] at this
    exact congrArg (4 * ·) this
  · intro w hw
    exact e.2 w (List.mem_reverse.1 hw)

theorem aes256_inv (key b : Bytes) (hk : key.length = 32) (hb : b.length = 16) : aesDec key (aesEnc key b) = b :=
  aes_inv key b hb (roundKeys_256 key hk).2 (by rw [(roundKeys_256 key hk).1]; omega)

theorem length_aesEnc (key b : Bytes) (hk : key.length = 32) : (aesEnc key b).length = 16 := by
  obtain ⟨h1, h2⟩ := roundKeys_256 key hk
  unfold aesEnc
  rcases hks : aesRoundKeys key with _ | ⟨k0, ks⟩
  · rw [hks] at h1; simp at h1
  · rw [hks] at h1 h2
    rcases List.eq_nil_or_concat ks with rfl | ⟨init, last, rfl⟩
    · simp at h1
    · have := h2 last (by simp)
      simp only [List.concat_eq_append, List.getLastD_concat]
      rw [length_xorBytes _ _ (by rw [length_shiftRows, this]), length_shiftRows]

/-! ### Key wrap -/

/-- The check value and blocks of a wrap in progress. -/
abbrev kwShape (st : Bytes × List Bytes) : Prop := st.1.length = 8 ∧ st.2 ≠ [] ∧ ∀ r ∈ st.2, r.length = 8

theorem kw_step (key : Bytes) (hk : key.length = 32) (st : Bytes × List Bytes) (t : Nat) (h : kwShape st) :
    kwShape (kwStep key st t) ∧ (kwStep key st t).2.length = st.2.length ∧ kwUnstep key (kwStep key st t) t = st := by
  obtain ⟨a, rs⟩ := st
  obtain ⟨ha, hn, hr⟩ := h
  cases rs with
  | nil => exact absurd rfl hn
  | cons r rs =>
    have hr0 := hr r (by simp)
    have hb : (a ++ r).length = 16 := by rw [List.length_append, ha, hr0]
    have hl := length_aesEnc key (a ++ r) hk
    have ht : (beBytes 8 t).length = 8 := by simp [beBytes, length_leBytes]
    have h8 : ((aesEnc key (a ++ r)).take 8).length = 8 := by rw [List.length_take, hl]; rfl
    have hx : (xorBytes ((aesEnc key (a ++ r)).take 8) (beBytes 8 t)).length = 8 := by rw [length_xorBytes _ _ (by rw [h8, ht]), h8]
    refine ⟨⟨hx, by simp [kwStep], ?_⟩, by simp [kwStep], ?_⟩
    · intro y hy
      simp only [kwStep, List.mem_append, List.mem_singleton] at hy
      rcases hy with hy | rfl
      · exact hr y (by simp [hy])
      · rw [List.length_drop, hl]
    · simp only [kwStep, kwUnstep, List.getLastD_concat, List.dropLast_concat]
      rw [xorBytes_cancel _ _ (by rw [h8, ht]), List.take_append_drop, aes256_inv key _ hk hb, List.take_left' ha, List.drop_left' ha]

theorem kw_steps (key : Bytes) (hk : key.length = 32) (n : Nat) : ∀ st, kwShape st →
    kwShape ((List.range n).foldl (fun st i => kwStep key st (i + 1)) st) ∧
    ((List.range n).foldl (fun st i => kwStep key st (i + 1)) st).2.length = st.2.length ∧
    (List.range n).reverse.foldl (fun st i => kwUnstep key st (i + 1)) ((List.range n).foldl (fun st i => kwStep key st (i + 1)) st) = st := by
  induction n with
  | zero => intro st h; exact ⟨h, rfl, rfl⟩
  | succ n ih =>
    intro st h
    obtain ⟨h1, h2, h3⟩ := ih st h
    obtain ⟨k1, k2, k3⟩ := kw_step key hk _ (n + 1) h1
    rw [List.range_succ, List.foldl_append, List.foldl_cons, List.foldl_nil, List.reverse_append, List.reverse_singleton,
      List.singleton_append, List.foldl_cons, k3]
    exact ⟨k1, k2.trans h2, h3⟩

theorem joinBytes_chunks (n : Nat) (f : Nat) : ∀ b : Bytes, 0 < n → b.length ≤ f → joinBytes (chunksAux n f b) = b := by
  induction f with
  | zero => intro b _ h; have : b = [] := List.length_eq_zero_iff.1 (by omega)
            subst this; rfl
  | succ f ih =>
    intro b hn h
    cases b with
    | nil => rfl
    | cons x b =>
      rw [chunksAux, joinBytes_cons, ih _ hn (by rw [List.length_drop]; omega), List.take_append_drop]
      simp

theorem chunks_joinBytes (n : Nat) (hn : 0 < n) (l : List Bytes) (h : ∀ b ∈ l, b.length = n) (f : Nat) (hf : l.length ≤ f) :
    chunksAux n f (joinBytes l) = l := by
  induction l generalizing f with
  | nil => cases f <;> rfl
  | cons a l ih =>
    have ha := h a (by simp)
    obtain ⟨f, rfl⟩ : ∃ g, f = g + 1 := ⟨f - 1, by simp at hf; omega⟩
    have hne : a ++ joinBytes l ≠ [] := by
      intro e
      have := congrArg List.length e
      rw [List.length_append, ha, List.length_nil] at this; omega
    rw [joinBytes_cons, chunksAux, List.take_left' ha, List.drop_left' ha, ih (fun b hb => h b (by simp [hb])) f (by simp at hf; omega)]
    simpa using hne

/-- Unwrapping gives back what was wrapped. -/
theorem kw_inv (key p : Bytes) (m : Nat) (hk : key.length = 32) (hp : p.length = 8 * m) (hm : 0 < m) : kwUnwrap key (kwWrap key p) = some p := by
  obtain ⟨c1, c2⟩ := chunks_blocks 8 m p (by decide) hp
  have hs : kwShape (List.replicate 8 (0xA6 : Byte), chunks 8 p) := by
    refine ⟨rfl, ?_, c2⟩
    intro e
    rw [show chunks 8 p = [] from e] at c1
    simp at c1; omega
  obtain ⟨h1, h2, h3⟩ := kw_steps key hk (6 * (chunks 8 p).length) _ hs
  unfold kwWrap kwUnwrap
  simp only
  rw [List.take_left' h1.1, List.drop_left' h1.1]
  have hc : chunks 8 (joinBytes ((List.range (6 * (chunks 8 p).length)).foldl (fun st i => kwStep key st (i + 1))
      (List.replicate 8 (0xA6 : Byte), chunks 8 p)).2) = ((List.range (6 * (chunks 8 p).length)).foldl (fun st i => kwStep key st (i + 1))
      (List.replicate 8 (0xA6 : Byte), chunks 8 p)).2 := by
    apply chunks_joinBytes 8 (by decide) _ h1.2.2
    rw [length_joinBytes 8 _ h1.2.2]
    omega
  rw [hc, h2, h3]
  simp only [if_true]
  rw [show joinBytes (chunks 8 p) = p from joinBytes_chunks 8 p.length p (by decide) (Nat.le_refl _)]

theorem length_kwWrap (key p : Bytes) (m : Nat) (hk : key.length = 32) (hp : p.length = 8 * m) (hm : 0 < m) :
    (kwWrap key p).length = 8 + 8 * m := by
  obtain ⟨c1, c2⟩ := chunks_blocks 8 m p (by decide) hp
  have hs : kwShape (List.replicate 8 (0xA6 : Byte), chunks 8 p) := by
    refine ⟨rfl, ?_, c2⟩
    intro e
    rw [show chunks 8 p = [] from e] at c1
    simp at c1; omega
  obtain ⟨h1, h2, -⟩ := kw_steps key hk (6 * (chunks 8 p).length) _ hs
  unfold kwWrap
  simp only [List.length_append]
  rw [h1.1, length_joinBytes 8 _ h1.2.2, h2, c1]

end Sys2Proof.Machine
end

