-- ==== Sys2Proof/Laws/Approvals.lean ====
section
/-!
SUPPORT. Approvals that the checks accept exist: one that is laid out as R348 says and signed as R349 says passes steps 2 to 6 of R351.
-/

namespace Sys2Proof.Machine

/-- An approval by officer `i` on challenge slot `c` (R348, R349). -/
def goodAppr (ident : Bytes) (c : Nat) (chal dig : Bytes) (i : Nat) (seed : Bytes) : Bytes :=
  leBytes 1 i ++ (leBytes 1 c ++ (zeroBytes 2 ++ (leBytes 4 29792 ++ (dig ++ (zeroBytes 24 ++
    slhSign slh256s seed (ascii "EHROS-APPR" ++ padTo 16 ident ++ leBytes 1 i ++ dig ++ padTo 32 chal))))))

theorem length_sign256s (seed m : Bytes) : (slhSign slh256s seed m).length = 29792 := length_slhSign slh256s seed m rfl
theorem length_sign256f (seed m : Bytes) : (slhSign slh256f seed m).length = 49856 := length_slhSign slh256f seed m rfl
theorem verify_sign256s (seed m : Bytes) : slhVerify slh256s (slhPk slh256s seed) m (slhSign slh256s seed m) = true :=
  slh_verifies slh256s seed m 7 rfl rfl
theorem verify_sign256f (seed m : Bytes) : slhVerify slh256f (slhPk slh256f seed) m (slhSign slh256f seed m) = true :=
  slh_verifies slh256f seed m 16 rfl rfl

/-- A field in the middle of a byte string. -/
theorem leAt_at (a b : Bytes) (o n v : Nat) (ho : a.length = o) : leAt (a ++ (leBytes n v ++ b)) o n = v % 256 ^ n := by
  rw [leAt, slice_at a _ b o n ho (length_leBytes n v), leNat_leBytes]

/-- A field at the start of a byte string. -/
theorem leAt_head (b : Bytes) (n v : Nat) : leAt (leBytes n v ++ b) 0 n = v % 256 ^ n := leAt_at [] b 0 n v rfl

section
variable (ident : Bytes) (c : Nat) (chal dig : Bytes) (i : Nat) (seed : Bytes)

theorem goodAppr_length (h : dig.length = 32) : (goodAppr ident c chal dig i seed).length = 29856 := by
  simp [goodAppr, length_leBytes, zeroBytes, h, length_sign256s]

theorem goodAppr_officer (hi : i < 256) : apOfficer (goodAppr ident c chal dig i seed) = i := by
  rw [apOfficer, goodAppr, leAt_head]
  exact Nat.mod_eq_of_lt hi

theorem goodAppr_chal (hc : c < 256) : apChal (goodAppr ident c chal dig i seed) = c := by
  rw [apChal, goodAppr, leAt_at _ _ 1 1 c (length_leBytes 1 i)]
  exact Nat.mod_eq_of_lt hc

theorem goodAppr_dig (h : dig.length = 32) : slice (goodAppr ident c chal dig i seed) 8 32 = dig := by
  rw [goodAppr, ← List.append_assoc, ← List.append_assoc, ← List.append_assoc]
  exact slice_at _ _ _ _ _ (by simp [length_leBytes, zeroBytes]) h

theorem goodAppr_sig (h : dig.length = 32) : slice (goodAppr ident c chal dig i seed) 0x40 29792 =
    slhSign slh256s seed (ascii "EHROS-APPR" ++ padTo 16 ident ++ leBytes 1 i ++ dig ++ padTo 32 chal) := by
  have e : ∀ x : Bytes, leBytes 1 i ++ (leBytes 1 c ++ (zeroBytes 2 ++ (leBytes 4 29792 ++ (dig ++ (zeroBytes 24 ++ x))))) =
      (leBytes 1 i ++ leBytes 1 c ++ zeroBytes 2 ++ leBytes 4 29792 ++ dig ++ zeroBytes 24) ++ (x ++ []) := by intro x; simp
  rw [goodAppr, e]
  exact slice_at _ _ _ _ _ (by simp [length_leBytes, zeroBytes, h]) (length_sign256s _ _)

theorem goodAppr_form (s : State) (g : Signer) (pk : Bytes) (h : dig.length = 32) (hi : i < 256)
    (hk : signerKey s g i = some pk) : apprForm s dig g (goodAppr ident c chal dig i seed) = true := by
  have z2 : leAt (goodAppr ident c chal dig i seed) 2 2 = 0 := by
    rw [goodAppr, ← List.append_assoc]
    exact leAt_at _ _ 2 2 0 (by simp [length_leBytes])
  have z4 : leAt (goodAppr ident c chal dig i seed) 4 4 = 29792 := by
    rw [goodAppr, ← List.append_assoc, ← List.append_assoc]
    exact leAt_at _ _ 4 4 29792 (by simp [length_leBytes, zeroBytes])
  have z24 : slice (goodAppr ident c chal dig i seed) 0x28 24 = zeroBytes 24 := by
    rw [goodAppr, ← List.append_assoc, ← List.append_assoc, ← List.append_assoc, ← List.append_assoc]
    exact slice_at _ _ _ _ _ (by simp [length_leBytes, zeroBytes, h]) (by simp [zeroBytes])
  simp [apprForm, z2, z4, z24, goodAppr_dig _ _ _ _ _ _ h, goodAppr_officer _ _ _ _ _ _ hi, hk]

theorem goodAppr_signed (s : State) (g : Signer) (h : dig.length = 32) (hi : i < 256)
    (hk : signerKey s g i = some (slhPk slh256s seed)) : apprSig s chal g (goodAppr s.lcy.ident c chal dig i seed) = true := by
  simp only [apprSig, goodAppr_officer _ _ _ _ _ _ hi, hk, goodAppr_sig _ _ _ _ _ _ h, apprMsg, goodAppr_dig _ _ _ _ _ _ h]
  exact verify_sign256s _ _

end

/-- Approvals that are right one by one, of officers that are distinct where they must be, pass the checks of R351. -/
theorem apprCheck_all (s : State) (dig : Bytes) (xs : List (Signer × Nat × Bytes)) (f : Signer × Nat × Bytes → Bytes) (c : Nat) (chal : Bytes)
    (slot : List Nat → Nat × Bytes) (hf : ∀ x ∈ xs, apprForm s dig x.1 (f x) = true) (hs : ∀ x ∈ xs, apprSig s chal x.1 (f x) = true)
    (ho : ∀ x ∈ xs, apOfficer (f x) = x.2.1) (hc : ∀ x ∈ xs, apChal (f x) = c)
    (hdist : allDistinct ((xs.filter fun x => isCustody x.1).map fun x => x.2.1) = true) (hslot : slot (xs.map fun _ => c) = (0, chal)) :
    apprCheck s dig (xs.map fun x => x.1) (xs.map f) slot = 0 := by
  have hz : List.zip (xs.map fun x => x.1) (xs.map f) = xs.map fun x => (x.1, f x) := by rw [List.zip_map']
  have hf' : (xs.map fun x => (x.1, f x)).all (fun x => apprForm s dig x.1 x.2) = true := by
    rw [List.all_map, List.all_eq_true]; exact hf
  have hs' : (xs.map fun x => (x.1, f x)).all (fun x => apprSig s chal x.1 x.2) = true := by
    rw [List.all_map, List.all_eq_true]; exact hs
  have ho' : ((xs.map fun x => (x.1, f x)).filter fun x => isCustody x.1).map (fun x => apOfficer x.2) =
      (xs.filter fun x => isCustody x.1).map fun x => x.2.1 := by
    rw [List.filter_map, List.map_map]
    exact List.map_congr_left fun x hx => ho x (List.mem_of_mem_filter hx)
  have hcs : (xs.map f).map apChal = xs.map fun _ => c := by
    rw [List.map_map]
    exact List.map_congr_left fun x hx => hc x hx
  unfold apprCheck
  simp only [hz, hf', hs', ho', hcs, hdist, hslot]
  rfl

/-- Who signs in which place, as officer number and key seed: their approvals pass every check of R351. -/
theorem apprCheck_good (s : State) (dig : Bytes) (xs : List (Signer × Nat × Bytes)) (c : Nat) (chal : Bytes) (slot : List Nat → Nat × Bytes)
    (hd : dig.length = 32) (hc : c < 256)
    (hk : ∀ x ∈ xs, x.2.1 < 256 ∧ signerKey s x.1 x.2.1 = some (slhPk slh256s x.2.2))
    (hdist : allDistinct ((xs.filter fun x => isCustody x.1).map fun x => x.2.1) = true)
    (hslot : slot (xs.map fun _ => c) = (0, chal)) :
    apprCheck s dig (xs.map fun x => x.1) (xs.map fun x => goodAppr s.lcy.ident c chal dig x.2.1 x.2.2) slot = 0 :=
  apprCheck_all s dig xs _ c chal slot
    (fun x hx => goodAppr_form _ _ _ _ _ _ s x.1 _ hd (hk x hx).1 (hk x hx).2)
    (fun x hx => goodAppr_signed _ _ _ _ _ s x.1 hd (hk x hx).1 (hk x hx).2)
    (fun x hx => goodAppr_officer _ _ _ _ _ _ (hk x hx).1)
    (fun _ _ => goodAppr_chal _ _ _ _ _ _ hc) hdist hslot

end Sys2Proof.Machine
end

