-- ==== Sys2Proof/Laws/Cipher.lean ====
section
/-!
SUPPORT. The S-box tables hold what the field arithmetic of FIPS 197 gives.
-/

namespace Sys2Proof.Machine

theorem sbox_table : ∀ i ∈ List.range 256, sbox (BitVec.ofNat 8 i) = sboxOf (BitVec.ofNat 8 i) := by decide +kernel

theorem invSbox_table : ∀ i ∈ List.range 256, invSbox (BitVec.ofNat 8 i) = invSboxOf (BitVec.ofNat 8 i) := by decide +kernel

end Sys2Proof.Machine
end

