-- ==== Sys2Proof/Laws/Memory.lean ====
section
/-!
SUPPORT. Tables and byte memories: reading after a write, and the canonical form that every write keeps.
-/

namespace Sys2Proof.Machine

variable {α : Type}

theorem tget_tput_same (d : α) (t : Tab α) (k : Nat) (v : α) : tget d (tput t k v) k = v := by
  induction t with
  | nil => simp [tput, tget]
  | cons e t ih =>
    obtain ⟨k', v'⟩ := e
    by_cases h1 : k < k'
    · simp [tput, tget, h1]
    · by_cases h2 : k = k'
      · simp [tput, tget, h2]
      · simp [tput, tget, h1, h2, Ne.symm h2, ih]

theorem tget_tput_ne (d : α) (t : Tab α) {k j : Nat} (v : α) (h : j ≠ k) : tget d (tput t k v) j = tget d t j := by
  induction t with
  | nil => simp [tput, tget, Ne.symm h]
  | cons e t ih =>
    obtain ⟨k', v'⟩ := e
    by_cases h1 : k < k'
    · simp [tput, tget, h1, Ne.symm h]
    · by_cases h2 : k = k'
      · subst h2; simp [tput, tget, Ne.symm h]
      · simp [tput, tget, h1, h2, ih]

theorem tget_erase_same (d : α) (t : Tab α) (k : Nat) : tget d (t.filter fun e => decide (e.1 ≠ k)) k = d := by
  induction t with
  | nil => rfl
  | cons e t ih =>
    by_cases h : e.1 = k
    · simpa [h] using ih
    · simpa [tget, h] using ih

theorem tget_erase_ne (d : α) (t : Tab α) {k j : Nat} (h : j ≠ k) :
    tget d (t.filter fun e => decide (e.1 ≠ k)) j = tget d t j := by
  induction t with
  | nil => rfl
  | cons e t ih =>
    by_cases h1 : e.1 = k
    · have h2 : e.1 ≠ j := fun hj => h (hj ▸ h1)
      simpa [tget, h1, Ne.symm h] using ih
    · simp [tget, h1]
      split
      · rfl
      · simpa using ih

variable [DecidableEq α]

/-- Reading the key just set gives the value set. -/
@[simp] theorem tget_tset_same (d : α) (t : Tab α) (k : Nat) (v : α) : tget d (tset d t k v) k = v := by
  unfold tset
  split
  · next h => rw [h, tget_erase_same]
  · exact tget_tput_same d t k v

/-- Setting a key leaves every other key. -/
theorem tget_tset_ne (d : α) (t : Tab α) {k j : Nat} (v : α) (h : j ≠ k) : tget d (tset d t k v) j = tget d t j := by
  unfold tset
  split
  · exact tget_erase_ne d t h
  · exact tget_tput_ne d t v h

/-- Reading any key after a set. -/
theorem tget_tset (d : α) (t : Tab α) (k j : Nat) (v : α) :
    tget d (tset d t k v) j = if j = k then v else tget d t j := by
  by_cases h : j = k
  · rw [h]; simp
  · rw [tget_tset_ne d t v h]; simp [h]

@[simp] theorem tget_tmod_same (d : α) (t : Tab α) (k : Nat) (f : α → α) : tget d (tmod d t k f) k = f (tget d t k) := by
  simp [tmod]

theorem tget_tmod_ne (d : α) (t : Tab α) {k j : Nat} (f : α → α) (h : j ≠ k) : tget d (tmod d t k f) j = tget d t j :=
  tget_tset_ne d t _ h

/-- The canonical form, said of the list as a whole. -/
theorem twf_iff (d : α) (t : Tab α) :
    twf d t = true ↔ t.Pairwise (fun a b => a.1 < b.1) ∧ ∀ e ∈ t, e.2 ≠ d := by
  induction t with
  | nil => simp [twf]
  | cons e t ih =>
    cases t with
    | nil => obtain ⟨k, v⟩ := e; simp [twf]
    | cons e' t =>
      obtain ⟨k, v⟩ := e
      obtain ⟨k', v'⟩ := e'
      simp only [twf, Bool.and_eq_true, decide_eq_true_eq, bne_iff_ne, ih]
      constructor
      · rintro ⟨⟨hv, hk⟩, hp, hn⟩
        refine ⟨List.pairwise_cons.2 ⟨fun a ha => ?_, hp⟩, fun a ha => ?_⟩
        · rcases List.mem_cons.1 ha with rfl | ha
          · exact hk
          · exact lt_trans hk ((List.pairwise_cons.1 hp).1 a ha)
        · rcases List.mem_cons.1 ha with rfl | ha
          · exact hv
          · exact hn a ha
      · rintro ⟨hp, hn⟩
        have hp' := List.pairwise_cons.1 hp
        exact ⟨⟨hn _ List.mem_cons_self, hp'.1 _ List.mem_cons_self⟩, hp'.2, fun a ha => hn a (List.mem_cons_of_mem _ ha)⟩

theorem mem_tput {t : Tab α} {k : Nat} {v : α} {e : Nat × α} (h : e ∈ tput t k v) : e = (k, v) ∨ e ∈ t := by
  induction t with
  | nil => simpa [tput] using h
  | cons a t ih =>
    obtain ⟨k', v'⟩ := a
    simp only [tput] at h
    split at h
    · simpa using h
    · split at h
      · simp only [List.mem_cons] at h ⊢; tauto
      · simp only [List.mem_cons] at h ⊢
        rcases h with h | h
        · exact .inr (.inl h)
        · rcases ih h with h | h
          · exact .inl h
          · exact .inr (.inr h)

theorem pairwise_tput {t : Tab α} (k : Nat) (v : α) (h : t.Pairwise (fun a b => a.1 < b.1)) :
    (tput t k v).Pairwise (fun a b => a.1 < b.1) := by
  induction t with
  | nil => simp [tput]
  | cons a t ih =>
    obtain ⟨k', v'⟩ := a
    have h' := List.pairwise_cons.1 h
    simp only [tput]
    split
    · next hk =>
      refine List.pairwise_cons.2 ⟨fun b hb => ?_, h⟩
      rcases List.mem_cons.1 hb with rfl | hb
      · exact hk
      · exact lt_trans hk (h'.1 b hb)
    · split
      · next hk => subst hk; exact List.pairwise_cons.2 ⟨h'.1, h'.2⟩
      · next h1 h2 =>
        refine List.pairwise_cons.2 ⟨fun b hb => ?_, ih h'.2⟩
        rcases mem_tput hb with rfl | hb
        · show k' < k; omega
        · exact h'.1 b hb

/-- Every set keeps the canonical form. -/
theorem twf_tset (d : α) {t : Tab α} (k : Nat) (v : α) (h : twf d t = true) : twf d (tset d t k v) = true := by
  obtain ⟨hp, hn⟩ := (twf_iff d t).1 h
  unfold tset
  split
  · exact (twf_iff d _).2 ⟨hp.filter _, fun e he => hn e (List.mem_filter.1 he).1⟩
  · next hv =>
    refine (twf_iff d _).2 ⟨pairwise_tput k v hp, fun e he => ?_⟩
    rcases mem_tput he with rfl | he
    · exact hv
    · exact hn e he

/-- Two canonical tables that read alike are equal. -/
theorem twf_ext (d : α) {t u : Tab α} (ht : twf d t = true) (hu : twf d u = true) (h : ∀ k, tget d t k = tget d u k) : t = u := by
  obtain ⟨pt, nt⟩ := (twf_iff d t).1 ht
  obtain ⟨pu, nu⟩ := (twf_iff d u).1 hu
  clear ht hu
  have absent : ∀ (w : Tab α) k, (∀ e ∈ w, k < e.1) → tget d w k = d := by
    intro w k hw
    induction w with
    | nil => rfl
    | cons e w ih =>
      have := hw e List.mem_cons_self
      simp only [tget]
      rw [if_neg (by omega)]
      exact ih fun a ha => hw a (List.mem_cons_of_mem _ ha)
  induction t generalizing u with
  | nil =>
    cases u with
    | nil => rfl
    | cons e u =>
      have := h e.1
      simp only [tget, if_true] at this
      exact absurd this.symm (nu e List.mem_cons_self)
  | cons e t ih =>
    cases u with
    | nil =>
      have := h e.1
      simp only [tget, if_true] at this
      exact absurd this (nt e List.mem_cons_self)
    | cons e' u =>
      have pt' := List.pairwise_cons.1 pt
      have pu' := List.pairwise_cons.1 pu
      have hk : e.1 = e'.1 := by
        by_contra hne
        rcases Nat.lt_or_gt_of_ne hne with hl | hl
        · have h1 := h e.1
          rw [absent (e' :: u) e.1 (fun a ha => by
            rcases List.mem_cons.1 ha with rfl | ha
            · exact hl
            · exact lt_trans hl (pu'.1 a ha))] at h1
          simp only [tget, if_true] at h1
          exact nt e List.mem_cons_self h1
        · have h1 := h e'.1
          rw [absent (e :: t) e'.1 (fun a ha => by
            rcases List.mem_cons.1 ha with rfl | ha
            · exact hl
            · exact lt_trans hl (pt'.1 a ha))] at h1
          simp only [tget, if_true] at h1
          exact nu e' List.mem_cons_self h1.symm
      have hv : e.2 = e'.2 := by
        have := h e.1
        simpa [tget, hk] using this
      have he : e = e' := Prod.ext hk hv
      subst he
      congr 1
      have tails : ∀ k, tget d t k = tget d u k := by
        intro k
        by_cases hke : e.1 = k
        · subst hke
          rw [absent t e.1 pt'.1, absent u e.1 pu'.1]
        · have := h k
          simpa [tget, hke] using this
      exact ih tails pt'.2 (fun a ha => nt a (List.mem_cons_of_mem _ ha)) pu'.2 fun a ha => nu a (List.mem_cons_of_mem _ ha)

/-! ### Byte memories -/

/-- Every write of bytes keeps the canonical form of a byte memory. -/
theorem twf_mwrite {m : Tab Byte} (a : Nat) (bs : Bytes) (h : twf 0 m = true) : twf 0 (mwrite m a bs) = true := by
  induction bs generalizing m a with
  | nil => exact h
  | cons b bs ih => exact ih _ (twf_tset 0 a b h)

/-- The byte at an address after a write. -/
theorem tget_mwrite (m : Tab Byte) (a : Nat) (bs : Bytes) (i : Nat) :
    tget 0 (mwrite m a bs) i = if a ≤ i ∧ i < a + bs.length then bs.getD (i - a) 0 else tget 0 m i := by
  induction bs generalizing m a with
  | nil => simp [mwrite]
  | cons b bs ih =>
    rw [mwrite, ih, tget_tset]
    by_cases h1 : i = a
    · subst h1
      simp
    · by_cases h2 : a + 1 ≤ i ∧ i < a + 1 + bs.length
      · have h3 : a ≤ i ∧ i < a + (b :: bs).length := by simp only [List.length_cons]; omega
        rw [if_pos h2, if_pos h3]
        have : i - a = (i - (a + 1)) + 1 := by omega
        rw [this]; simp
      · have h3 : ¬ (a ≤ i ∧ i < a + (b :: bs).length) := by simp only [List.length_cons]; omega
        rw [if_neg h2, if_neg h3, if_neg h1]

/-- A write leaves every byte outside it. -/
theorem tget_mwrite_out (m : Tab Byte) {a i : Nat} (bs : Bytes) (h : i < a ∨ a + bs.length ≤ i) :
    tget 0 (mwrite m a bs) i = tget 0 m i := by
  rw [tget_mwrite, if_neg (by omega)]

@[simp] theorem length_mread (m : Tab Byte) (a n : Nat) : (mread m a n).length = n := by simp [mread]

/-- Reading what was just written gives the bytes written. -/
theorem mread_mwrite_same (m : Tab Byte) (a : Nat) (bs : Bytes) : mread (mwrite m a bs) a bs.length = bs := by
  refine List.ext_getElem (by simp) fun i h1 h2 => ?_
  simp only [mread, List.getElem_map, List.getElem_range, tget_mwrite]
  rw [if_pos (by omega)]
  simp [List.getD_eq_getElem?_getD, h2]

/-- Reading apart from a write gives what was there. -/
theorem mread_mwrite_out (m : Tab Byte) {a b n : Nat} (bs : Bytes) (h : b + n ≤ a ∨ a + bs.length ≤ b) :
    mread (mwrite m a bs) b n = mread m b n := by
  refine List.map_congr_left fun i hi => tget_mwrite_out m bs ?_
  have := List.mem_range.1 hi
  omega

end Sys2Proof.Machine
end

