-- ==== Sys2Proof/Laws/State.lean ====
section
/-!
SUPPORT. What each update of one block of the state reads as, field by field.
-/

namespace Sys2Proof.Machine

/-! ### modHif -/

@[simp] theorem modHif_hif (f : Hif → Hif) (s : State) : (modHif f s).hif = f s.hif := rfl
@[simp] theorem modHif_slm (f : Hif → Hif) (s : State) : (modHif f s).slm = s.slm := rfl
@[simp] theorem modHif_aud (f : Hif → Hif) (s : State) : (modHif f s).aud = s.aud := rfl
@[simp] theorem modHif_mtr (f : Hif → Hif) (s : State) : (modHif f s).mtr = s.mtr := rfl
@[simp] theorem modHif_dbg (f : Hif → Hif) (s : State) : (modHif f s).dbg = s.dbg := rfl
@[simp] theorem modHif_par (f : Hif → Hif) (s : State) : (modHif f s).par = s.par := rfl
@[simp] theorem modHif_pwr (f : Hif → Hif) (s : State) : (modHif f s).pwr = s.pwr := rfl
@[simp] theorem modHif_mov (f : Hif → Hif) (s : State) : (modHif f s).mov = s.mov := rfl
@[simp] theorem modHif_tmp (f : Hif → Hif) (s : State) : (modHif f s).tmp = s.tmp := rfl
@[simp] theorem modHif_lcy (f : Hif → Hif) (s : State) : (modHif f s).lcy = s.lcy := rfl
@[simp] theorem modHif_ent (f : Hif → Hif) (s : State) : (modHif f s).ent = s.ent := rfl
@[simp] theorem modHif_i3c (f : Hif → Hif) (s : State) : (modHif f s).i3c = s.i3c := rfl
@[simp] theorem modHif_cpu (f : Hif → Hif) (s : State) : (modHif f s).cpu = s.cpu := rfl
@[simp] theorem modHif_lanes (f : Hif → Hif) (s : State) : (modHif f s).lanes = s.lanes := rfl
@[simp] theorem modHif_kst (f : Hif → Hif) (s : State) : (modHif f s).kst = s.kst := rfl
@[simp] theorem modHif_phl (f : Hif → Hif) (s : State) : (modHif f s).phl = s.phl := rfl
@[simp] theorem modHif_cnt (f : Hif → Hif) (s : State) : (modHif f s).cnt = s.cnt := rfl
@[simp] theorem modHif_time (f : Hif → Hif) (s : State) : (modHif f s).time = s.time := rfl
@[simp] theorem modHif_out (f : Hif → Hif) (s : State) : (modHif f s).out = s.out := rfl
@[simp] theorem modHif_freeCtr (f : Hif → Hif) (s : State) : (modHif f s).freeCtr = s.freeCtr := rfl
@[simp] theorem modHif_pending (f : Hif → Hif) (s : State) : (modHif f s).pending = s.pending := rfl

/-! ### modSlm -/

@[simp] theorem modSlm_hif (f : Slm → Slm) (s : State) : (modSlm f s).hif = s.hif := rfl
@[simp] theorem modSlm_slm (f : Slm → Slm) (s : State) : (modSlm f s).slm = f s.slm := rfl
@[simp] theorem modSlm_aud (f : Slm → Slm) (s : State) : (modSlm f s).aud = s.aud := rfl
@[simp] theorem modSlm_mtr (f : Slm → Slm) (s : State) : (modSlm f s).mtr = s.mtr := rfl
@[simp] theorem modSlm_dbg (f : Slm → Slm) (s : State) : (modSlm f s).dbg = s.dbg := rfl
@[simp] theorem modSlm_par (f : Slm → Slm) (s : State) : (modSlm f s).par = s.par := rfl
@[simp] theorem modSlm_pwr (f : Slm → Slm) (s : State) : (modSlm f s).pwr = s.pwr := rfl
@[simp] theorem modSlm_mov (f : Slm → Slm) (s : State) : (modSlm f s).mov = s.mov := rfl
@[simp] theorem modSlm_tmp (f : Slm → Slm) (s : State) : (modSlm f s).tmp = s.tmp := rfl
@[simp] theorem modSlm_lcy (f : Slm → Slm) (s : State) : (modSlm f s).lcy = s.lcy := rfl
@[simp] theorem modSlm_ent (f : Slm → Slm) (s : State) : (modSlm f s).ent = s.ent := rfl
@[simp] theorem modSlm_i3c (f : Slm → Slm) (s : State) : (modSlm f s).i3c = s.i3c := rfl
@[simp] theorem modSlm_cpu (f : Slm → Slm) (s : State) : (modSlm f s).cpu = s.cpu := rfl
@[simp] theorem modSlm_lanes (f : Slm → Slm) (s : State) : (modSlm f s).lanes = s.lanes := rfl
@[simp] theorem modSlm_kst (f : Slm → Slm) (s : State) : (modSlm f s).kst = s.kst := rfl
@[simp] theorem modSlm_phl (f : Slm → Slm) (s : State) : (modSlm f s).phl = s.phl := rfl
@[simp] theorem modSlm_cnt (f : Slm → Slm) (s : State) : (modSlm f s).cnt = s.cnt := rfl
@[simp] theorem modSlm_time (f : Slm → Slm) (s : State) : (modSlm f s).time = s.time := rfl
@[simp] theorem modSlm_out (f : Slm → Slm) (s : State) : (modSlm f s).out = s.out := rfl
@[simp] theorem modSlm_freeCtr (f : Slm → Slm) (s : State) : (modSlm f s).freeCtr = s.freeCtr := rfl
@[simp] theorem modSlm_pending (f : Slm → Slm) (s : State) : (modSlm f s).pending = s.pending := rfl

/-! ### modAud -/

@[simp] theorem modAud_hif (f : Aud → Aud) (s : State) : (modAud f s).hif = s.hif := rfl
@[simp] theorem modAud_slm (f : Aud → Aud) (s : State) : (modAud f s).slm = s.slm := rfl
@[simp] theorem modAud_aud (f : Aud → Aud) (s : State) : (modAud f s).aud = f s.aud := rfl
@[simp] theorem modAud_mtr (f : Aud → Aud) (s : State) : (modAud f s).mtr = s.mtr := rfl
@[simp] theorem modAud_dbg (f : Aud → Aud) (s : State) : (modAud f s).dbg = s.dbg := rfl
@[simp] theorem modAud_par (f : Aud → Aud) (s : State) : (modAud f s).par = s.par := rfl
@[simp] theorem modAud_pwr (f : Aud → Aud) (s : State) : (modAud f s).pwr = s.pwr := rfl
@[simp] theorem modAud_mov (f : Aud → Aud) (s : State) : (modAud f s).mov = s.mov := rfl
@[simp] theorem modAud_tmp (f : Aud → Aud) (s : State) : (modAud f s).tmp = s.tmp := rfl
@[simp] theorem modAud_lcy (f : Aud → Aud) (s : State) : (modAud f s).lcy = s.lcy := rfl
@[simp] theorem modAud_ent (f : Aud → Aud) (s : State) : (modAud f s).ent = s.ent := rfl
@[simp] theorem modAud_i3c (f : Aud → Aud) (s : State) : (modAud f s).i3c = s.i3c := rfl
@[simp] theorem modAud_cpu (f : Aud → Aud) (s : State) : (modAud f s).cpu = s.cpu := rfl
@[simp] theorem modAud_lanes (f : Aud → Aud) (s : State) : (modAud f s).lanes = s.lanes := rfl
@[simp] theorem modAud_kst (f : Aud → Aud) (s : State) : (modAud f s).kst = s.kst := rfl
@[simp] theorem modAud_phl (f : Aud → Aud) (s : State) : (modAud f s).phl = s.phl := rfl
@[simp] theorem modAud_cnt (f : Aud → Aud) (s : State) : (modAud f s).cnt = s.cnt := rfl
@[simp] theorem modAud_time (f : Aud → Aud) (s : State) : (modAud f s).time = s.time := rfl
@[simp] theorem modAud_out (f : Aud → Aud) (s : State) : (modAud f s).out = s.out := rfl
@[simp] theorem modAud_freeCtr (f : Aud → Aud) (s : State) : (modAud f s).freeCtr = s.freeCtr := rfl
@[simp] theorem modAud_pending (f : Aud → Aud) (s : State) : (modAud f s).pending = s.pending := rfl

/-! ### modMtr -/

@[simp] theorem modMtr_hif (f : Mtr → Mtr) (s : State) : (modMtr f s).hif = s.hif := rfl
@[simp] theorem modMtr_slm (f : Mtr → Mtr) (s : State) : (modMtr f s).slm = s.slm := rfl
@[simp] theorem modMtr_aud (f : Mtr → Mtr) (s : State) : (modMtr f s).aud = s.aud := rfl
@[simp] theorem modMtr_mtr (f : Mtr → Mtr) (s : State) : (modMtr f s).mtr = f s.mtr := rfl
@[simp] theorem modMtr_dbg (f : Mtr → Mtr) (s : State) : (modMtr f s).dbg = s.dbg := rfl
@[simp] theorem modMtr_par (f : Mtr → Mtr) (s : State) : (modMtr f s).par = s.par := rfl
@[simp] theorem modMtr_pwr (f : Mtr → Mtr) (s : State) : (modMtr f s).pwr = s.pwr := rfl
@[simp] theorem modMtr_mov (f : Mtr → Mtr) (s : State) : (modMtr f s).mov = s.mov := rfl
@[simp] theorem modMtr_tmp (f : Mtr → Mtr) (s : State) : (modMtr f s).tmp = s.tmp := rfl
@[simp] theorem modMtr_lcy (f : Mtr → Mtr) (s : State) : (modMtr f s).lcy = s.lcy := rfl
@[simp] theorem modMtr_ent (f : Mtr → Mtr) (s : State) : (modMtr f s).ent = s.ent := rfl
@[simp] theorem modMtr_i3c (f : Mtr → Mtr) (s : State) : (modMtr f s).i3c = s.i3c := rfl
@[simp] theorem modMtr_cpu (f : Mtr → Mtr) (s : State) : (modMtr f s).cpu = s.cpu := rfl
@[simp] theorem modMtr_lanes (f : Mtr → Mtr) (s : State) : (modMtr f s).lanes = s.lanes := rfl
@[simp] theorem modMtr_kst (f : Mtr → Mtr) (s : State) : (modMtr f s).kst = s.kst := rfl
@[simp] theorem modMtr_phl (f : Mtr → Mtr) (s : State) : (modMtr f s).phl = s.phl := rfl
@[simp] theorem modMtr_cnt (f : Mtr → Mtr) (s : State) : (modMtr f s).cnt = s.cnt := rfl
@[simp] theorem modMtr_time (f : Mtr → Mtr) (s : State) : (modMtr f s).time = s.time := rfl
@[simp] theorem modMtr_out (f : Mtr → Mtr) (s : State) : (modMtr f s).out = s.out := rfl
@[simp] theorem modMtr_freeCtr (f : Mtr → Mtr) (s : State) : (modMtr f s).freeCtr = s.freeCtr := rfl
@[simp] theorem modMtr_pending (f : Mtr → Mtr) (s : State) : (modMtr f s).pending = s.pending := rfl

/-! ### modDbg -/

@[simp] theorem modDbg_hif (f : Dbg → Dbg) (s : State) : (modDbg f s).hif = s.hif := rfl
@[simp] theorem modDbg_slm (f : Dbg → Dbg) (s : State) : (modDbg f s).slm = s.slm := rfl
@[simp] theorem modDbg_aud (f : Dbg → Dbg) (s : State) : (modDbg f s).aud = s.aud := rfl
@[simp] theorem modDbg_mtr (f : Dbg → Dbg) (s : State) : (modDbg f s).mtr = s.mtr := rfl
@[simp] theorem modDbg_dbg (f : Dbg → Dbg) (s : State) : (modDbg f s).dbg = f s.dbg := rfl
@[simp] theorem modDbg_par (f : Dbg → Dbg) (s : State) : (modDbg f s).par = s.par := rfl
@[simp] theorem modDbg_pwr (f : Dbg → Dbg) (s : State) : (modDbg f s).pwr = s.pwr := rfl
@[simp] theorem modDbg_mov (f : Dbg → Dbg) (s : State) : (modDbg f s).mov = s.mov := rfl
@[simp] theorem modDbg_tmp (f : Dbg → Dbg) (s : State) : (modDbg f s).tmp = s.tmp := rfl
@[simp] theorem modDbg_lcy (f : Dbg → Dbg) (s : State) : (modDbg f s).lcy = s.lcy := rfl
@[simp] theorem modDbg_ent (f : Dbg → Dbg) (s : State) : (modDbg f s).ent = s.ent := rfl
@[simp] theorem modDbg_i3c (f : Dbg → Dbg) (s : State) : (modDbg f s).i3c = s.i3c := rfl
@[simp] theorem modDbg_cpu (f : Dbg → Dbg) (s : State) : (modDbg f s).cpu = s.cpu := rfl
@[simp] theorem modDbg_lanes (f : Dbg → Dbg) (s : State) : (modDbg f s).lanes = s.lanes := rfl
@[simp] theorem modDbg_kst (f : Dbg → Dbg) (s : State) : (modDbg f s).kst = s.kst := rfl
@[simp] theorem modDbg_phl (f : Dbg → Dbg) (s : State) : (modDbg f s).phl = s.phl := rfl
@[simp] theorem modDbg_cnt (f : Dbg → Dbg) (s : State) : (modDbg f s).cnt = s.cnt := rfl
@[simp] theorem modDbg_time (f : Dbg → Dbg) (s : State) : (modDbg f s).time = s.time := rfl
@[simp] theorem modDbg_out (f : Dbg → Dbg) (s : State) : (modDbg f s).out = s.out := rfl
@[simp] theorem modDbg_freeCtr (f : Dbg → Dbg) (s : State) : (modDbg f s).freeCtr = s.freeCtr := rfl
@[simp] theorem modDbg_pending (f : Dbg → Dbg) (s : State) : (modDbg f s).pending = s.pending := rfl

/-! ### modPar -/

@[simp] theorem modPar_hif (f : Par → Par) (s : State) : (modPar f s).hif = s.hif := rfl
@[simp] theorem modPar_slm (f : Par → Par) (s : State) : (modPar f s).slm = s.slm := rfl
@[simp] theorem modPar_aud (f : Par → Par) (s : State) : (modPar f s).aud = s.aud := rfl
@[simp] theorem modPar_mtr (f : Par → Par) (s : State) : (modPar f s).mtr = s.mtr := rfl
@[simp] theorem modPar_dbg (f : Par → Par) (s : State) : (modPar f s).dbg = s.dbg := rfl
@[simp] theorem modPar_par (f : Par → Par) (s : State) : (modPar f s).par = f s.par := rfl
@[simp] theorem modPar_pwr (f : Par → Par) (s : State) : (modPar f s).pwr = s.pwr := rfl
@[simp] theorem modPar_mov (f : Par → Par) (s : State) : (modPar f s).mov = s.mov := rfl
@[simp] theorem modPar_tmp (f : Par → Par) (s : State) : (modPar f s).tmp = s.tmp := rfl
@[simp] theorem modPar_lcy (f : Par → Par) (s : State) : (modPar f s).lcy = s.lcy := rfl
@[simp] theorem modPar_ent (f : Par → Par) (s : State) : (modPar f s).ent = s.ent := rfl
@[simp] theorem modPar_i3c (f : Par → Par) (s : State) : (modPar f s).i3c = s.i3c := rfl
@[simp] theorem modPar_cpu (f : Par → Par) (s : State) : (modPar f s).cpu = s.cpu := rfl
@[simp] theorem modPar_lanes (f : Par → Par) (s : State) : (modPar f s).lanes = s.lanes := rfl
@[simp] theorem modPar_kst (f : Par → Par) (s : State) : (modPar f s).kst = s.kst := rfl
@[simp] theorem modPar_phl (f : Par → Par) (s : State) : (modPar f s).phl = s.phl := rfl
@[simp] theorem modPar_cnt (f : Par → Par) (s : State) : (modPar f s).cnt = s.cnt := rfl
@[simp] theorem modPar_time (f : Par → Par) (s : State) : (modPar f s).time = s.time := rfl
@[simp] theorem modPar_out (f : Par → Par) (s : State) : (modPar f s).out = s.out := rfl
@[simp] theorem modPar_freeCtr (f : Par → Par) (s : State) : (modPar f s).freeCtr = s.freeCtr := rfl
@[simp] theorem modPar_pending (f : Par → Par) (s : State) : (modPar f s).pending = s.pending := rfl

/-! ### modPwr -/

@[simp] theorem modPwr_hif (f : Pwr → Pwr) (s : State) : (modPwr f s).hif = s.hif := rfl
@[simp] theorem modPwr_slm (f : Pwr → Pwr) (s : State) : (modPwr f s).slm = s.slm := rfl
@[simp] theorem modPwr_aud (f : Pwr → Pwr) (s : State) : (modPwr f s).aud = s.aud := rfl
@[simp] theorem modPwr_mtr (f : Pwr → Pwr) (s : State) : (modPwr f s).mtr = s.mtr := rfl
@[simp] theorem modPwr_dbg (f : Pwr → Pwr) (s : State) : (modPwr f s).dbg = s.dbg := rfl
@[simp] theorem modPwr_par (f : Pwr → Pwr) (s : State) : (modPwr f s).par = s.par := rfl
@[simp] theorem modPwr_pwr (f : Pwr → Pwr) (s : State) : (modPwr f s).pwr = f s.pwr := rfl
@[simp] theorem modPwr_mov (f : Pwr → Pwr) (s : State) : (modPwr f s).mov = s.mov := rfl
@[simp] theorem modPwr_tmp (f : Pwr → Pwr) (s : State) : (modPwr f s).tmp = s.tmp := rfl
@[simp] theorem modPwr_lcy (f : Pwr → Pwr) (s : State) : (modPwr f s).lcy = s.lcy := rfl
@[simp] theorem modPwr_ent (f : Pwr → Pwr) (s : State) : (modPwr f s).ent = s.ent := rfl
@[simp] theorem modPwr_i3c (f : Pwr → Pwr) (s : State) : (modPwr f s).i3c = s.i3c := rfl
@[simp] theorem modPwr_cpu (f : Pwr → Pwr) (s : State) : (modPwr f s).cpu = s.cpu := rfl
@[simp] theorem modPwr_lanes (f : Pwr → Pwr) (s : State) : (modPwr f s).lanes = s.lanes := rfl
@[simp] theorem modPwr_kst (f : Pwr → Pwr) (s : State) : (modPwr f s).kst = s.kst := rfl
@[simp] theorem modPwr_phl (f : Pwr → Pwr) (s : State) : (modPwr f s).phl = s.phl := rfl
@[simp] theorem modPwr_cnt (f : Pwr → Pwr) (s : State) : (modPwr f s).cnt = s.cnt := rfl
@[simp] theorem modPwr_time (f : Pwr → Pwr) (s : State) : (modPwr f s).time = s.time := rfl
@[simp] theorem modPwr_out (f : Pwr → Pwr) (s : State) : (modPwr f s).out = s.out := rfl
@[simp] theorem modPwr_freeCtr (f : Pwr → Pwr) (s : State) : (modPwr f s).freeCtr = s.freeCtr := rfl
@[simp] theorem modPwr_pending (f : Pwr → Pwr) (s : State) : (modPwr f s).pending = s.pending := rfl

/-! ### modMov -/

@[simp] theorem modMov_hif (f : Mov → Mov) (s : State) : (modMov f s).hif = s.hif := rfl
@[simp] theorem modMov_slm (f : Mov → Mov) (s : State) : (modMov f s).slm = s.slm := rfl
@[simp] theorem modMov_aud (f : Mov → Mov) (s : State) : (modMov f s).aud = s.aud := rfl
@[simp] theorem modMov_mtr (f : Mov → Mov) (s : State) : (modMov f s).mtr = s.mtr := rfl
@[simp] theorem modMov_dbg (f : Mov → Mov) (s : State) : (modMov f s).dbg = s.dbg := rfl
@[simp] theorem modMov_par (f : Mov → Mov) (s : State) : (modMov f s).par = s.par := rfl
@[simp] theorem modMov_pwr (f : Mov → Mov) (s : State) : (modMov f s).pwr = s.pwr := rfl
@[simp] theorem modMov_mov (f : Mov → Mov) (s : State) : (modMov f s).mov = f s.mov := rfl
@[simp] theorem modMov_tmp (f : Mov → Mov) (s : State) : (modMov f s).tmp = s.tmp := rfl
@[simp] theorem modMov_lcy (f : Mov → Mov) (s : State) : (modMov f s).lcy = s.lcy := rfl
@[simp] theorem modMov_ent (f : Mov → Mov) (s : State) : (modMov f s).ent = s.ent := rfl
@[simp] theorem modMov_i3c (f : Mov → Mov) (s : State) : (modMov f s).i3c = s.i3c := rfl
@[simp] theorem modMov_cpu (f : Mov → Mov) (s : State) : (modMov f s).cpu = s.cpu := rfl
@[simp] theorem modMov_lanes (f : Mov → Mov) (s : State) : (modMov f s).lanes = s.lanes := rfl
@[simp] theorem modMov_kst (f : Mov → Mov) (s : State) : (modMov f s).kst = s.kst := rfl
@[simp] theorem modMov_phl (f : Mov → Mov) (s : State) : (modMov f s).phl = s.phl := rfl
@[simp] theorem modMov_cnt (f : Mov → Mov) (s : State) : (modMov f s).cnt = s.cnt := rfl
@[simp] theorem modMov_time (f : Mov → Mov) (s : State) : (modMov f s).time = s.time := rfl
@[simp] theorem modMov_out (f : Mov → Mov) (s : State) : (modMov f s).out = s.out := rfl
@[simp] theorem modMov_freeCtr (f : Mov → Mov) (s : State) : (modMov f s).freeCtr = s.freeCtr := rfl
@[simp] theorem modMov_pending (f : Mov → Mov) (s : State) : (modMov f s).pending = s.pending := rfl

/-! ### modTmp -/

@[simp] theorem modTmp_hif (f : Tmp → Tmp) (s : State) : (modTmp f s).hif = s.hif := rfl
@[simp] theorem modTmp_slm (f : Tmp → Tmp) (s : State) : (modTmp f s).slm = s.slm := rfl
@[simp] theorem modTmp_aud (f : Tmp → Tmp) (s : State) : (modTmp f s).aud = s.aud := rfl
@[simp] theorem modTmp_mtr (f : Tmp → Tmp) (s : State) : (modTmp f s).mtr = s.mtr := rfl
@[simp] theorem modTmp_dbg (f : Tmp → Tmp) (s : State) : (modTmp f s).dbg = s.dbg := rfl
@[simp] theorem modTmp_par (f : Tmp → Tmp) (s : State) : (modTmp f s).par = s.par := rfl
@[simp] theorem modTmp_pwr (f : Tmp → Tmp) (s : State) : (modTmp f s).pwr = s.pwr := rfl
@[simp] theorem modTmp_mov (f : Tmp → Tmp) (s : State) : (modTmp f s).mov = s.mov := rfl
@[simp] theorem modTmp_tmp (f : Tmp → Tmp) (s : State) : (modTmp f s).tmp = f s.tmp := rfl
@[simp] theorem modTmp_lcy (f : Tmp → Tmp) (s : State) : (modTmp f s).lcy = s.lcy := rfl
@[simp] theorem modTmp_ent (f : Tmp → Tmp) (s : State) : (modTmp f s).ent = s.ent := rfl
@[simp] theorem modTmp_i3c (f : Tmp → Tmp) (s : State) : (modTmp f s).i3c = s.i3c := rfl
@[simp] theorem modTmp_cpu (f : Tmp → Tmp) (s : State) : (modTmp f s).cpu = s.cpu := rfl
@[simp] theorem modTmp_lanes (f : Tmp → Tmp) (s : State) : (modTmp f s).lanes = s.lanes := rfl
@[simp] theorem modTmp_kst (f : Tmp → Tmp) (s : State) : (modTmp f s).kst = s.kst := rfl
@[simp] theorem modTmp_phl (f : Tmp → Tmp) (s : State) : (modTmp f s).phl = s.phl := rfl
@[simp] theorem modTmp_cnt (f : Tmp → Tmp) (s : State) : (modTmp f s).cnt = s.cnt := rfl
@[simp] theorem modTmp_time (f : Tmp → Tmp) (s : State) : (modTmp f s).time = s.time := rfl
@[simp] theorem modTmp_out (f : Tmp → Tmp) (s : State) : (modTmp f s).out = s.out := rfl
@[simp] theorem modTmp_freeCtr (f : Tmp → Tmp) (s : State) : (modTmp f s).freeCtr = s.freeCtr := rfl
@[simp] theorem modTmp_pending (f : Tmp → Tmp) (s : State) : (modTmp f s).pending = s.pending := rfl

/-! ### modLcy -/

@[simp] theorem modLcy_hif (f : Lcy → Lcy) (s : State) : (modLcy f s).hif = s.hif := rfl
@[simp] theorem modLcy_slm (f : Lcy → Lcy) (s : State) : (modLcy f s).slm = s.slm := rfl
@[simp] theorem modLcy_aud (f : Lcy → Lcy) (s : State) : (modLcy f s).aud = s.aud := rfl
@[simp] theorem modLcy_mtr (f : Lcy → Lcy) (s : State) : (modLcy f s).mtr = s.mtr := rfl
@[simp] theorem modLcy_dbg (f : Lcy → Lcy) (s : State) : (modLcy f s).dbg = s.dbg := rfl
@[simp] theorem modLcy_par (f : Lcy → Lcy) (s : State) : (modLcy f s).par = s.par := rfl
@[simp] theorem modLcy_pwr (f : Lcy → Lcy) (s : State) : (modLcy f s).pwr = s.pwr := rfl
@[simp] theorem modLcy_mov (f : Lcy → Lcy) (s : State) : (modLcy f s).mov = s.mov := rfl
@[simp] theorem modLcy_tmp (f : Lcy → Lcy) (s : State) : (modLcy f s).tmp = s.tmp := rfl
@[simp] theorem modLcy_lcy (f : Lcy → Lcy) (s : State) : (modLcy f s).lcy = f s.lcy := rfl
@[simp] theorem modLcy_ent (f : Lcy → Lcy) (s : State) : (modLcy f s).ent = s.ent := rfl
@[simp] theorem modLcy_i3c (f : Lcy → Lcy) (s : State) : (modLcy f s).i3c = s.i3c := rfl
@[simp] theorem modLcy_cpu (f : Lcy → Lcy) (s : State) : (modLcy f s).cpu = s.cpu := rfl
@[simp] theorem modLcy_lanes (f : Lcy → Lcy) (s : State) : (modLcy f s).lanes = s.lanes := rfl
@[simp] theorem modLcy_kst (f : Lcy → Lcy) (s : State) : (modLcy f s).kst = s.kst := rfl
@[simp] theorem modLcy_phl (f : Lcy → Lcy) (s : State) : (modLcy f s).phl = s.phl := rfl
@[simp] theorem modLcy_cnt (f : Lcy → Lcy) (s : State) : (modLcy f s).cnt = s.cnt := rfl
@[simp] theorem modLcy_time (f : Lcy → Lcy) (s : State) : (modLcy f s).time = s.time := rfl
@[simp] theorem modLcy_out (f : Lcy → Lcy) (s : State) : (modLcy f s).out = s.out := rfl
@[simp] theorem modLcy_freeCtr (f : Lcy → Lcy) (s : State) : (modLcy f s).freeCtr = s.freeCtr := rfl
@[simp] theorem modLcy_pending (f : Lcy → Lcy) (s : State) : (modLcy f s).pending = s.pending := rfl

/-! ### modEnt -/

@[simp] theorem modEnt_hif (f : Ent → Ent) (s : State) : (modEnt f s).hif = s.hif := rfl
@[simp] theorem modEnt_slm (f : Ent → Ent) (s : State) : (modEnt f s).slm = s.slm := rfl
@[simp] theorem modEnt_aud (f : Ent → Ent) (s : State) : (modEnt f s).aud = s.aud := rfl
@[simp] theorem modEnt_mtr (f : Ent → Ent) (s : State) : (modEnt f s).mtr = s.mtr := rfl
@[simp] theorem modEnt_dbg (f : Ent → Ent) (s : State) : (modEnt f s).dbg = s.dbg := rfl
@[simp] theorem modEnt_par (f : Ent → Ent) (s : State) : (modEnt f s).par = s.par := rfl
@[simp] theorem modEnt_pwr (f : Ent → Ent) (s : State) : (modEnt f s).pwr = s.pwr := rfl
@[simp] theorem modEnt_mov (f : Ent → Ent) (s : State) : (modEnt f s).mov = s.mov := rfl
@[simp] theorem modEnt_tmp (f : Ent → Ent) (s : State) : (modEnt f s).tmp = s.tmp := rfl
@[simp] theorem modEnt_lcy (f : Ent → Ent) (s : State) : (modEnt f s).lcy = s.lcy := rfl
@[simp] theorem modEnt_ent (f : Ent → Ent) (s : State) : (modEnt f s).ent = f s.ent := rfl
@[simp] theorem modEnt_i3c (f : Ent → Ent) (s : State) : (modEnt f s).i3c = s.i3c := rfl
@[simp] theorem modEnt_cpu (f : Ent → Ent) (s : State) : (modEnt f s).cpu = s.cpu := rfl
@[simp] theorem modEnt_lanes (f : Ent → Ent) (s : State) : (modEnt f s).lanes = s.lanes := rfl
@[simp] theorem modEnt_kst (f : Ent → Ent) (s : State) : (modEnt f s).kst = s.kst := rfl
@[simp] theorem modEnt_phl (f : Ent → Ent) (s : State) : (modEnt f s).phl = s.phl := rfl
@[simp] theorem modEnt_cnt (f : Ent → Ent) (s : State) : (modEnt f s).cnt = s.cnt := rfl
@[simp] theorem modEnt_time (f : Ent → Ent) (s : State) : (modEnt f s).time = s.time := rfl
@[simp] theorem modEnt_out (f : Ent → Ent) (s : State) : (modEnt f s).out = s.out := rfl
@[simp] theorem modEnt_freeCtr (f : Ent → Ent) (s : State) : (modEnt f s).freeCtr = s.freeCtr := rfl
@[simp] theorem modEnt_pending (f : Ent → Ent) (s : State) : (modEnt f s).pending = s.pending := rfl

/-! ### modI3c -/

@[simp] theorem modI3c_hif (f : I3c → I3c) (s : State) : (modI3c f s).hif = s.hif := rfl
@[simp] theorem modI3c_slm (f : I3c → I3c) (s : State) : (modI3c f s).slm = s.slm := rfl
@[simp] theorem modI3c_aud (f : I3c → I3c) (s : State) : (modI3c f s).aud = s.aud := rfl
@[simp] theorem modI3c_mtr (f : I3c → I3c) (s : State) : (modI3c f s).mtr = s.mtr := rfl
@[simp] theorem modI3c_dbg (f : I3c → I3c) (s : State) : (modI3c f s).dbg = s.dbg := rfl
@[simp] theorem modI3c_par (f : I3c → I3c) (s : State) : (modI3c f s).par = s.par := rfl
@[simp] theorem modI3c_pwr (f : I3c → I3c) (s : State) : (modI3c f s).pwr = s.pwr := rfl
@[simp] theorem modI3c_mov (f : I3c → I3c) (s : State) : (modI3c f s).mov = s.mov := rfl
@[simp] theorem modI3c_tmp (f : I3c → I3c) (s : State) : (modI3c f s).tmp = s.tmp := rfl
@[simp] theorem modI3c_lcy (f : I3c → I3c) (s : State) : (modI3c f s).lcy = s.lcy := rfl
@[simp] theorem modI3c_ent (f : I3c → I3c) (s : State) : (modI3c f s).ent = s.ent := rfl
@[simp] theorem modI3c_i3c (f : I3c → I3c) (s : State) : (modI3c f s).i3c = f s.i3c := rfl
@[simp] theorem modI3c_cpu (f : I3c → I3c) (s : State) : (modI3c f s).cpu = s.cpu := rfl
@[simp] theorem modI3c_lanes (f : I3c → I3c) (s : State) : (modI3c f s).lanes = s.lanes := rfl
@[simp] theorem modI3c_kst (f : I3c → I3c) (s : State) : (modI3c f s).kst = s.kst := rfl
@[simp] theorem modI3c_phl (f : I3c → I3c) (s : State) : (modI3c f s).phl = s.phl := rfl
@[simp] theorem modI3c_cnt (f : I3c → I3c) (s : State) : (modI3c f s).cnt = s.cnt := rfl
@[simp] theorem modI3c_time (f : I3c → I3c) (s : State) : (modI3c f s).time = s.time := rfl
@[simp] theorem modI3c_out (f : I3c → I3c) (s : State) : (modI3c f s).out = s.out := rfl
@[simp] theorem modI3c_freeCtr (f : I3c → I3c) (s : State) : (modI3c f s).freeCtr = s.freeCtr := rfl
@[simp] theorem modI3c_pending (f : I3c → I3c) (s : State) : (modI3c f s).pending = s.pending := rfl

/-! ### modCpu -/

@[simp] theorem modCpu_hif (f : Cpu → Cpu) (s : State) : (modCpu f s).hif = s.hif := rfl
@[simp] theorem modCpu_slm (f : Cpu → Cpu) (s : State) : (modCpu f s).slm = s.slm := rfl
@[simp] theorem modCpu_aud (f : Cpu → Cpu) (s : State) : (modCpu f s).aud = s.aud := rfl
@[simp] theorem modCpu_mtr (f : Cpu → Cpu) (s : State) : (modCpu f s).mtr = s.mtr := rfl
@[simp] theorem modCpu_dbg (f : Cpu → Cpu) (s : State) : (modCpu f s).dbg = s.dbg := rfl
@[simp] theorem modCpu_par (f : Cpu → Cpu) (s : State) : (modCpu f s).par = s.par := rfl
@[simp] theorem modCpu_pwr (f : Cpu → Cpu) (s : State) : (modCpu f s).pwr = s.pwr := rfl
@[simp] theorem modCpu_mov (f : Cpu → Cpu) (s : State) : (modCpu f s).mov = s.mov := rfl
@[simp] theorem modCpu_tmp (f : Cpu → Cpu) (s : State) : (modCpu f s).tmp = s.tmp := rfl
@[simp] theorem modCpu_lcy (f : Cpu → Cpu) (s : State) : (modCpu f s).lcy = s.lcy := rfl
@[simp] theorem modCpu_ent (f : Cpu → Cpu) (s : State) : (modCpu f s).ent = s.ent := rfl
@[simp] theorem modCpu_i3c (f : Cpu → Cpu) (s : State) : (modCpu f s).i3c = s.i3c := rfl
@[simp] theorem modCpu_cpu (f : Cpu → Cpu) (s : State) : (modCpu f s).cpu = f s.cpu := rfl
@[simp] theorem modCpu_lanes (f : Cpu → Cpu) (s : State) : (modCpu f s).lanes = s.lanes := rfl
@[simp] theorem modCpu_kst (f : Cpu → Cpu) (s : State) : (modCpu f s).kst = s.kst := rfl
@[simp] theorem modCpu_phl (f : Cpu → Cpu) (s : State) : (modCpu f s).phl = s.phl := rfl
@[simp] theorem modCpu_cnt (f : Cpu → Cpu) (s : State) : (modCpu f s).cnt = s.cnt := rfl
@[simp] theorem modCpu_time (f : Cpu → Cpu) (s : State) : (modCpu f s).time = s.time := rfl
@[simp] theorem modCpu_out (f : Cpu → Cpu) (s : State) : (modCpu f s).out = s.out := rfl
@[simp] theorem modCpu_freeCtr (f : Cpu → Cpu) (s : State) : (modCpu f s).freeCtr = s.freeCtr := rfl
@[simp] theorem modCpu_pending (f : Cpu → Cpu) (s : State) : (modCpu f s).pending = s.pending := rfl

/-! ### modLanes -/

@[simp] theorem modLanes_hif (f : Lanes → Lanes) (s : State) : (modLanes f s).hif = s.hif := rfl
@[simp] theorem modLanes_slm (f : Lanes → Lanes) (s : State) : (modLanes f s).slm = s.slm := rfl
@[simp] theorem modLanes_aud (f : Lanes → Lanes) (s : State) : (modLanes f s).aud = s.aud := rfl
@[simp] theorem modLanes_mtr (f : Lanes → Lanes) (s : State) : (modLanes f s).mtr = s.mtr := rfl
@[simp] theorem modLanes_dbg (f : Lanes → Lanes) (s : State) : (modLanes f s).dbg = s.dbg := rfl
@[simp] theorem modLanes_par (f : Lanes → Lanes) (s : State) : (modLanes f s).par = s.par := rfl
@[simp] theorem modLanes_pwr (f : Lanes → Lanes) (s : State) : (modLanes f s).pwr = s.pwr := rfl
@[simp] theorem modLanes_mov (f : Lanes → Lanes) (s : State) : (modLanes f s).mov = s.mov := rfl
@[simp] theorem modLanes_tmp (f : Lanes → Lanes) (s : State) : (modLanes f s).tmp = s.tmp := rfl
@[simp] theorem modLanes_lcy (f : Lanes → Lanes) (s : State) : (modLanes f s).lcy = s.lcy := rfl
@[simp] theorem modLanes_ent (f : Lanes → Lanes) (s : State) : (modLanes f s).ent = s.ent := rfl
@[simp] theorem modLanes_i3c (f : Lanes → Lanes) (s : State) : (modLanes f s).i3c = s.i3c := rfl
@[simp] theorem modLanes_cpu (f : Lanes → Lanes) (s : State) : (modLanes f s).cpu = s.cpu := rfl
@[simp] theorem modLanes_lanes (f : Lanes → Lanes) (s : State) : (modLanes f s).lanes = f s.lanes := rfl
@[simp] theorem modLanes_kst (f : Lanes → Lanes) (s : State) : (modLanes f s).kst = s.kst := rfl
@[simp] theorem modLanes_phl (f : Lanes → Lanes) (s : State) : (modLanes f s).phl = s.phl := rfl
@[simp] theorem modLanes_cnt (f : Lanes → Lanes) (s : State) : (modLanes f s).cnt = s.cnt := rfl
@[simp] theorem modLanes_time (f : Lanes → Lanes) (s : State) : (modLanes f s).time = s.time := rfl
@[simp] theorem modLanes_out (f : Lanes → Lanes) (s : State) : (modLanes f s).out = s.out := rfl
@[simp] theorem modLanes_freeCtr (f : Lanes → Lanes) (s : State) : (modLanes f s).freeCtr = s.freeCtr := rfl
@[simp] theorem modLanes_pending (f : Lanes → Lanes) (s : State) : (modLanes f s).pending = s.pending := rfl

/-! ### modKst -/

@[simp] theorem modKst_hif (f : Kst → Kst) (s : State) : (modKst f s).hif = s.hif := rfl
@[simp] theorem modKst_slm (f : Kst → Kst) (s : State) : (modKst f s).slm = s.slm := rfl
@[simp] theorem modKst_aud (f : Kst → Kst) (s : State) : (modKst f s).aud = s.aud := rfl
@[simp] theorem modKst_mtr (f : Kst → Kst) (s : State) : (modKst f s).mtr = s.mtr := rfl
@[simp] theorem modKst_dbg (f : Kst → Kst) (s : State) : (modKst f s).dbg = s.dbg := rfl
@[simp] theorem modKst_par (f : Kst → Kst) (s : State) : (modKst f s).par = s.par := rfl
@[simp] theorem modKst_pwr (f : Kst → Kst) (s : State) : (modKst f s).pwr = s.pwr := rfl
@[simp] theorem modKst_mov (f : Kst → Kst) (s : State) : (modKst f s).mov = s.mov := rfl
@[simp] theorem modKst_tmp (f : Kst → Kst) (s : State) : (modKst f s).tmp = s.tmp := rfl
@[simp] theorem modKst_lcy (f : Kst → Kst) (s : State) : (modKst f s).lcy = s.lcy := rfl
@[simp] theorem modKst_ent (f : Kst → Kst) (s : State) : (modKst f s).ent = s.ent := rfl
@[simp] theorem modKst_i3c (f : Kst → Kst) (s : State) : (modKst f s).i3c = s.i3c := rfl
@[simp] theorem modKst_cpu (f : Kst → Kst) (s : State) : (modKst f s).cpu = s.cpu := rfl
@[simp] theorem modKst_lanes (f : Kst → Kst) (s : State) : (modKst f s).lanes = s.lanes := rfl
@[simp] theorem modKst_kst (f : Kst → Kst) (s : State) : (modKst f s).kst = f s.kst := rfl
@[simp] theorem modKst_phl (f : Kst → Kst) (s : State) : (modKst f s).phl = s.phl := rfl
@[simp] theorem modKst_cnt (f : Kst → Kst) (s : State) : (modKst f s).cnt = s.cnt := rfl
@[simp] theorem modKst_time (f : Kst → Kst) (s : State) : (modKst f s).time = s.time := rfl
@[simp] theorem modKst_out (f : Kst → Kst) (s : State) : (modKst f s).out = s.out := rfl
@[simp] theorem modKst_freeCtr (f : Kst → Kst) (s : State) : (modKst f s).freeCtr = s.freeCtr := rfl
@[simp] theorem modKst_pending (f : Kst → Kst) (s : State) : (modKst f s).pending = s.pending := rfl

/-! ### modPhl -/

@[simp] theorem modPhl_hif (f : Phl → Phl) (s : State) : (modPhl f s).hif = s.hif := rfl
@[simp] theorem modPhl_slm (f : Phl → Phl) (s : State) : (modPhl f s).slm = s.slm := rfl
@[simp] theorem modPhl_aud (f : Phl → Phl) (s : State) : (modPhl f s).aud = s.aud := rfl
@[simp] theorem modPhl_mtr (f : Phl → Phl) (s : State) : (modPhl f s).mtr = s.mtr := rfl
@[simp] theorem modPhl_dbg (f : Phl → Phl) (s : State) : (modPhl f s).dbg = s.dbg := rfl
@[simp] theorem modPhl_par (f : Phl → Phl) (s : State) : (modPhl f s).par = s.par := rfl
@[simp] theorem modPhl_pwr (f : Phl → Phl) (s : State) : (modPhl f s).pwr = s.pwr := rfl
@[simp] theorem modPhl_mov (f : Phl → Phl) (s : State) : (modPhl f s).mov = s.mov := rfl
@[simp] theorem modPhl_tmp (f : Phl → Phl) (s : State) : (modPhl f s).tmp = s.tmp := rfl
@[simp] theorem modPhl_lcy (f : Phl → Phl) (s : State) : (modPhl f s).lcy = s.lcy := rfl
@[simp] theorem modPhl_ent (f : Phl → Phl) (s : State) : (modPhl f s).ent = s.ent := rfl
@[simp] theorem modPhl_i3c (f : Phl → Phl) (s : State) : (modPhl f s).i3c = s.i3c := rfl
@[simp] theorem modPhl_cpu (f : Phl → Phl) (s : State) : (modPhl f s).cpu = s.cpu := rfl
@[simp] theorem modPhl_lanes (f : Phl → Phl) (s : State) : (modPhl f s).lanes = s.lanes := rfl
@[simp] theorem modPhl_kst (f : Phl → Phl) (s : State) : (modPhl f s).kst = s.kst := rfl
@[simp] theorem modPhl_phl (f : Phl → Phl) (s : State) : (modPhl f s).phl = f s.phl := rfl
@[simp] theorem modPhl_cnt (f : Phl → Phl) (s : State) : (modPhl f s).cnt = s.cnt := rfl
@[simp] theorem modPhl_time (f : Phl → Phl) (s : State) : (modPhl f s).time = s.time := rfl
@[simp] theorem modPhl_out (f : Phl → Phl) (s : State) : (modPhl f s).out = s.out := rfl
@[simp] theorem modPhl_freeCtr (f : Phl → Phl) (s : State) : (modPhl f s).freeCtr = s.freeCtr := rfl
@[simp] theorem modPhl_pending (f : Phl → Phl) (s : State) : (modPhl f s).pending = s.pending := rfl

/-! ### modCnt -/

@[simp] theorem modCnt_hif (f : Cnt → Cnt) (s : State) : (modCnt f s).hif = s.hif := rfl
@[simp] theorem modCnt_slm (f : Cnt → Cnt) (s : State) : (modCnt f s).slm = s.slm := rfl
@[simp] theorem modCnt_aud (f : Cnt → Cnt) (s : State) : (modCnt f s).aud = s.aud := rfl
@[simp] theorem modCnt_mtr (f : Cnt → Cnt) (s : State) : (modCnt f s).mtr = s.mtr := rfl
@[simp] theorem modCnt_dbg (f : Cnt → Cnt) (s : State) : (modCnt f s).dbg = s.dbg := rfl
@[simp] theorem modCnt_par (f : Cnt → Cnt) (s : State) : (modCnt f s).par = s.par := rfl
@[simp] theorem modCnt_pwr (f : Cnt → Cnt) (s : State) : (modCnt f s).pwr = s.pwr := rfl
@[simp] theorem modCnt_mov (f : Cnt → Cnt) (s : State) : (modCnt f s).mov = s.mov := rfl
@[simp] theorem modCnt_tmp (f : Cnt → Cnt) (s : State) : (modCnt f s).tmp = s.tmp := rfl
@[simp] theorem modCnt_lcy (f : Cnt → Cnt) (s : State) : (modCnt f s).lcy = s.lcy := rfl
@[simp] theorem modCnt_ent (f : Cnt → Cnt) (s : State) : (modCnt f s).ent = s.ent := rfl
@[simp] theorem modCnt_i3c (f : Cnt → Cnt) (s : State) : (modCnt f s).i3c = s.i3c := rfl
@[simp] theorem modCnt_cpu (f : Cnt → Cnt) (s : State) : (modCnt f s).cpu = s.cpu := rfl
@[simp] theorem modCnt_lanes (f : Cnt → Cnt) (s : State) : (modCnt f s).lanes = s.lanes := rfl
@[simp] theorem modCnt_kst (f : Cnt → Cnt) (s : State) : (modCnt f s).kst = s.kst := rfl
@[simp] theorem modCnt_phl (f : Cnt → Cnt) (s : State) : (modCnt f s).phl = s.phl := rfl
@[simp] theorem modCnt_cnt (f : Cnt → Cnt) (s : State) : (modCnt f s).cnt = f s.cnt := rfl
@[simp] theorem modCnt_time (f : Cnt → Cnt) (s : State) : (modCnt f s).time = s.time := rfl
@[simp] theorem modCnt_out (f : Cnt → Cnt) (s : State) : (modCnt f s).out = s.out := rfl
@[simp] theorem modCnt_freeCtr (f : Cnt → Cnt) (s : State) : (modCnt f s).freeCtr = s.freeCtr := rfl
@[simp] theorem modCnt_pending (f : Cnt → Cnt) (s : State) : (modCnt f s).pending = s.pending := rfl

/-! ### modTime -/

@[simp] theorem modTime_hif (f : TimeSt → TimeSt) (s : State) : (modTime f s).hif = s.hif := rfl
@[simp] theorem modTime_slm (f : TimeSt → TimeSt) (s : State) : (modTime f s).slm = s.slm := rfl
@[simp] theorem modTime_aud (f : TimeSt → TimeSt) (s : State) : (modTime f s).aud = s.aud := rfl
@[simp] theorem modTime_mtr (f : TimeSt → TimeSt) (s : State) : (modTime f s).mtr = s.mtr := rfl
@[simp] theorem modTime_dbg (f : TimeSt → TimeSt) (s : State) : (modTime f s).dbg = s.dbg := rfl
@[simp] theorem modTime_par (f : TimeSt → TimeSt) (s : State) : (modTime f s).par = s.par := rfl
@[simp] theorem modTime_pwr (f : TimeSt → TimeSt) (s : State) : (modTime f s).pwr = s.pwr := rfl
@[simp] theorem modTime_mov (f : TimeSt → TimeSt) (s : State) : (modTime f s).mov = s.mov := rfl
@[simp] theorem modTime_tmp (f : TimeSt → TimeSt) (s : State) : (modTime f s).tmp = s.tmp := rfl
@[simp] theorem modTime_lcy (f : TimeSt → TimeSt) (s : State) : (modTime f s).lcy = s.lcy := rfl
@[simp] theorem modTime_ent (f : TimeSt → TimeSt) (s : State) : (modTime f s).ent = s.ent := rfl
@[simp] theorem modTime_i3c (f : TimeSt → TimeSt) (s : State) : (modTime f s).i3c = s.i3c := rfl
@[simp] theorem modTime_cpu (f : TimeSt → TimeSt) (s : State) : (modTime f s).cpu = s.cpu := rfl
@[simp] theorem modTime_lanes (f : TimeSt → TimeSt) (s : State) : (modTime f s).lanes = s.lanes := rfl
@[simp] theorem modTime_kst (f : TimeSt → TimeSt) (s : State) : (modTime f s).kst = s.kst := rfl
@[simp] theorem modTime_phl (f : TimeSt → TimeSt) (s : State) : (modTime f s).phl = s.phl := rfl
@[simp] theorem modTime_cnt (f : TimeSt → TimeSt) (s : State) : (modTime f s).cnt = s.cnt := rfl
@[simp] theorem modTime_time (f : TimeSt → TimeSt) (s : State) : (modTime f s).time = f s.time := rfl
@[simp] theorem modTime_out (f : TimeSt → TimeSt) (s : State) : (modTime f s).out = s.out := rfl
@[simp] theorem modTime_freeCtr (f : TimeSt → TimeSt) (s : State) : (modTime f s).freeCtr = s.freeCtr := rfl
@[simp] theorem modTime_pending (f : TimeSt → TimeSt) (s : State) : (modTime f s).pending = s.pending := rfl

/-! ### emit and bumpFree -/

@[simp] theorem emit_hif (o : Out) (s : State) : (emit o s).hif = s.hif := rfl
@[simp] theorem emit_slm (o : Out) (s : State) : (emit o s).slm = s.slm := rfl
@[simp] theorem emit_aud (o : Out) (s : State) : (emit o s).aud = s.aud := rfl
@[simp] theorem emit_mtr (o : Out) (s : State) : (emit o s).mtr = s.mtr := rfl
@[simp] theorem emit_dbg (o : Out) (s : State) : (emit o s).dbg = s.dbg := rfl
@[simp] theorem emit_par (o : Out) (s : State) : (emit o s).par = s.par := rfl
@[simp] theorem emit_pwr (o : Out) (s : State) : (emit o s).pwr = s.pwr := rfl
@[simp] theorem emit_mov (o : Out) (s : State) : (emit o s).mov = s.mov := rfl
@[simp] theorem emit_tmp (o : Out) (s : State) : (emit o s).tmp = s.tmp := rfl
@[simp] theorem emit_lcy (o : Out) (s : State) : (emit o s).lcy = s.lcy := rfl
@[simp] theorem emit_ent (o : Out) (s : State) : (emit o s).ent = s.ent := rfl
@[simp] theorem emit_i3c (o : Out) (s : State) : (emit o s).i3c = s.i3c := rfl
@[simp] theorem emit_cpu (o : Out) (s : State) : (emit o s).cpu = s.cpu := rfl
@[simp] theorem emit_lanes (o : Out) (s : State) : (emit o s).lanes = s.lanes := rfl
@[simp] theorem emit_kst (o : Out) (s : State) : (emit o s).kst = s.kst := rfl
@[simp] theorem emit_phl (o : Out) (s : State) : (emit o s).phl = s.phl := rfl
@[simp] theorem emit_cnt (o : Out) (s : State) : (emit o s).cnt = s.cnt := rfl
@[simp] theorem emit_time (o : Out) (s : State) : (emit o s).time = s.time := rfl
@[simp] theorem emit_out (o : Out) (s : State) : (emit o s).out = s.out ++ [o] := rfl
@[simp] theorem emit_freeCtr (o : Out) (s : State) : (emit o s).freeCtr = s.freeCtr := rfl
@[simp] theorem emit_pending (o : Out) (s : State) : (emit o s).pending = s.pending := rfl
@[simp] theorem bumpFree_hif (s : State) : (bumpFree s).hif = s.hif := rfl
@[simp] theorem bumpFree_slm (s : State) : (bumpFree s).slm = s.slm := rfl
@[simp] theorem bumpFree_aud (s : State) : (bumpFree s).aud = s.aud := rfl
@[simp] theorem bumpFree_mtr (s : State) : (bumpFree s).mtr = s.mtr := rfl
@[simp] theorem bumpFree_dbg (s : State) : (bumpFree s).dbg = s.dbg := rfl
@[simp] theorem bumpFree_par (s : State) : (bumpFree s).par = s.par := rfl
@[simp] theorem bumpFree_pwr (s : State) : (bumpFree s).pwr = s.pwr := rfl
@[simp] theorem bumpFree_mov (s : State) : (bumpFree s).mov = s.mov := rfl
@[simp] theorem bumpFree_tmp (s : State) : (bumpFree s).tmp = s.tmp := rfl
@[simp] theorem bumpFree_lcy (s : State) : (bumpFree s).lcy = s.lcy := rfl
@[simp] theorem bumpFree_ent (s : State) : (bumpFree s).ent = s.ent := rfl
@[simp] theorem bumpFree_i3c (s : State) : (bumpFree s).i3c = s.i3c := rfl
@[simp] theorem bumpFree_cpu (s : State) : (bumpFree s).cpu = s.cpu := rfl
@[simp] theorem bumpFree_lanes (s : State) : (bumpFree s).lanes = s.lanes := rfl
@[simp] theorem bumpFree_kst (s : State) : (bumpFree s).kst = s.kst := rfl
@[simp] theorem bumpFree_phl (s : State) : (bumpFree s).phl = s.phl := rfl
@[simp] theorem bumpFree_cnt (s : State) : (bumpFree s).cnt = s.cnt := rfl
@[simp] theorem bumpFree_time (s : State) : (bumpFree s).time = s.time := rfl
@[simp] theorem bumpFree_out (s : State) : (bumpFree s).out = s.out := rfl
@[simp] theorem bumpFree_freeCtr (s : State) : (bumpFree s).freeCtr = s.freeCtr + 1 := rfl
@[simp] theorem bumpFree_pending (s : State) : (bumpFree s).pending = s.pending := rfl

end Sys2Proof.Machine
end

