-- ==== Sys2Proof/Laws/Ops.lean ====
section
/-!
SUPPORT. What the shared operations can do: reading a function, ring, core, channel or table entry after an update, and the frames of the reporting operations.
-/

namespace Sys2Proof.Machine

/-! ### Functions and rings -/

@[simp] theorem fnOf_modFn_same (f : Nat) (g : Fn → Fn) (s : State) : fnOf (modFn f g s) f = g (fnOf s f) := by
  simp [fnOf, modFn]

theorem fnOf_modFn_ne {f f' : Nat} (g : Fn → Fn) (s : State) (h : f' ≠ f) : fnOf (modFn f g s) f' = fnOf s f' := by
  simp [fnOf, modFn, tget_tmod_ne _ _ _ h]

theorem fnOf_modFn (f f' : Nat) (g : Fn → Fn) (s : State) :
    fnOf (modFn f g s) f' = if f' = f then g (fnOf s f) else fnOf s f' := by
  by_cases h : f' = f
  · subst h; simp
  · simp [fnOf_modFn_ne _ _ h, h]

theorem modFn_frame (f : Nat) (g : Fn → Fn) (s : State) :
    modFn f g s = { s with hif := { s.hif with fns := (modFn f g s).hif.fns } } := rfl

/-- A function's ring pair after a change of ring pair `n` that exists. -/
theorem ringOf_modRing_same {f n : Nat} {r : Ring} (g : Ring → Ring) {s : State} (h : (fnOf s f).rings[n]? = some r) :
    ringOf (modRing f n g s) f n = g r := by
  simp [ringOf, modRing, List.getD_eq_getElem?_getD, h]

theorem ringOf_modRing_ne {f n m : Nat} (g : Ring → Ring) (s : State) (h : m ≠ n) :
    ringOf (modRing f n g s) f m = ringOf s f m := by
  simp [ringOf, modRing, List.getD_eq_getElem?_getD, h.symm]

theorem ringOf_of_getElem? {s : State} {f n : Nat} {r : Ring} (h : (fnOf s f).rings[n]? = some r) : ringOf s f n = r := by
  simp [ringOf, List.getD_eq_getElem?_getD, h]

/-- A register write with the registers open discards the held low word and does nothing else. -/
theorem regWrote_open {f : Nat} {s : State} (h : s.pwr.main ∧ s.hif.linkUp ∧ s.pwr.mode ≠ .guard) :
    regWrote f s = modFn f (fun x => { x with heldWr := none }) s := by
  simp [regWrote, h]

/-- Without a running stream no mirror record is queued. -/
theorem mirrorSend_off {s : State} (h : streamOn s = false) (type load : Nat) (body : Bytes) : mirrorSend type load body s = s := by
  simp [mirrorSend, h]

/-! ### Frames of the reporting operations -/

theorem sideFrame.refl (s : State) : sideFrame s s := ⟨rfl, fun _ => rfl⟩

theorem sideFrame.trans {s t u : State} (h : sideFrame s t) (k : sideFrame t u) : sideFrame s u := by
  obtain ⟨h1, h2⟩ := h
  obtain ⟨k1, k2⟩ := k
  refine ⟨by rw [k1, h1], fun g => ?_⟩
  rw [k2 g, h2 g]

theorem reportFrame.refl (s : State) : reportFrame s s := ⟨rfl, fun _ => rfl⟩

theorem reportFrame.trans {s t u : State} (h : reportFrame s t) (k : reportFrame t u) : reportFrame s u := by
  obtain ⟨h1, h2⟩ := h
  obtain ⟨k1, k2⟩ := k
  refine ⟨by rw [k1, h1], fun g => ?_⟩
  rw [k2 g, h2 g]

/-- Firing a vector sends a message, or sets a pending bit, or does nothing (R58). -/
theorem fireMsix_cases (f v : Nat) (s : State) :
    fireMsix f v s = s ∨
    fireMsix f v s = modFn f (fun x => { x with msix := x.msix.modify v fun e => { e with pend := true } }) s ∨
    ∃ e, (fnOf s f).msix[v]? = some e ∧ fireMsix f v s = emit (.msix f v e.addr e.data) s := by
  simp only [fireMsix]
  split
  · exact .inl rfl
  · next e he =>
    split
    · exact .inl rfl
    · split
      · exact .inr (.inl rfl)
      · exact .inr (.inr ⟨e, he, rfl⟩)

theorem modMsix_fn (f : Nat) (g : List MsixEntry → List MsixEntry) (s : State) (k : Nat) :
    fnOf (modFn f (fun x => { x with msix := g x.msix }) s) k =
      { fnOf s k with msix := (fnOf (modFn f (fun x => { x with msix := g x.msix }) s) k).msix } := by
  by_cases h : k = f
  · subst h; simp
  · simp [fnOf_modFn_ne _ _ h]

theorem fireMsix_side (f v : Nat) (s : State) : sideFrame s (fireMsix f v s) := by
  obtain h | h | ⟨e, -, h⟩ := fireMsix_cases f v s <;> rw [h]
  · exact sideFrame.refl s
  · exact ⟨rfl, modMsix_fn f (fun l => l.modify v _) s⟩
  · exact ⟨rfl, fun _ => rfl⟩

theorem fireMsix_report (f v : Nat) (s : State) : reportFrame s (fireMsix f v s) := by
  obtain h | h | ⟨e, -, h⟩ := fireMsix_cases f v s <;> rw [h]
  · exact reportFrame.refl s
  · exact ⟨rfl, modMsix_fn f (fun l => l.modify v _) s⟩
  · exact ⟨rfl, fun _ => rfl⟩

theorem modCtr_side (i : Nat) (g : Ctr → Ctr) (s : State) : sideFrame s (modCtr i g s) := ⟨rfl, fun _ => rfl⟩

theorem ite_side {s a b : State} {p : Prop} [Decidable p] (h : sideFrame s a) (k : sideFrame s b) :
    sideFrame s (if p then a else b) := by
  split <;> assumption

/-- Adding to a counter (R493). -/
theorem ctrAdd_side (a i n : Nat) (s : State) : sideFrame s (ctrAdd a i n s) := by
  have fired := fun g => (modCtr_side i g s).trans (fireMsix_side 0 11 _)
  induction a generalizing i n s with
  | zero => exact ite_side (modCtr_side _ _ _) (ite_side (fired _) (modCtr_side _ _ _))
  | succ a ih =>
    exact ite_side (modCtr_side _ _ _)
      (ite_side ((modCtr_side _ _ _).trans (ih _ _ _ fun g => (modCtr_side _ g _).trans (fireMsix_side 0 11 _)))
        (ite_side (fired _) (modCtr_side _ _ _)))

theorem foldl_side {β : Type} (f : State → β → State) (l : List β) (h : ∀ s b, sideFrame s (f s b)) (s : State) :
    sideFrame s (l.foldl f s) := by
  induction l generalizing s with
  | nil => exact sideFrame.refl s
  | cons b l ih => exact (h s b).trans (ih _)

/-- Counting an event (R488). -/
theorem countEv_side (e : Ev) (n : Nat) (s : State) : sideFrame s (countEv e n s) := by
  unfold countEv
  split
  · exact sideFrame.refl s
  · refine sideFrame.trans ?_ (foldl_side _ _ (fun s g => ?_) _)
    · split
      · refine foldl_side _ _ (fun s g => ?_) _
        split
        · exact ctrAdd_side _ _ _ _
        · exact sideFrame.refl s
      · exact sideFrame.refl s
    · split
      · exact ctrAdd_side _ _ _ _
      · exact sideFrame.refl s

theorem countFn_side (num f : Nat) (s : State) : sideFrame s (countFn num f s) := countEv_side _ _ _
theorem countCore_side (num p n : Nat) (a : Option (Nat × Nat)) (s : State) : sideFrame s (countCore num p n a s) := countEv_side _ _ _
theorem countChan_side (num n k : Nat) (f : Option Nat) (a : Option (Nat × Nat)) (s : State) :
    sideFrame s (countChan num n k f a s) := countEv_side _ _ _
theorem countPort_side (num p k : Nat) (s : State) : sideFrame s (countPort num p k s) := countEv_side _ _ _

/-- With every counter at rest an event counts nowhere. -/
theorem countEv_none {s : State} (h : s.cnt.ctrs = []) (e : Ev) (n : Nat) : countEv e n s = s := by
  simp [countEv, h]

theorem mctpQueue_report (m : Bytes) (s : State) : reportFrame s (mctpQueue m s) := by
  unfold mctpQueue ibiRaise
  split
  · split <;> exact ⟨rfl, fun _ => rfl⟩
  · exact ⟨rfl, fun _ => rfl⟩

theorem healthReport_report (k : Nat) (d : Bytes) (s : State) : reportFrame s (healthReport k d s) := mctpQueue_report _ _

theorem lockLatch_report (c : Nat) (s : State) : reportFrame s (lockLatch c s) := ⟨rfl, fun _ => rfl⟩

theorem mirrorSend_report (ty l : Nat) (b : Bytes) (s : State) : reportFrame s (mirrorSend ty l b s) := by
  unfold mirrorSend
  split <;> exact ⟨rfl, fun _ => rfl⟩

theorem bufPush_report (r : BufRec) (s : State) : reportFrame s (bufPush r s) := by
  unfold bufPush
  split <;> exact ⟨rfl, fun _ => rfl⟩

theorem recAssign_report (c fl fn : Nat) (b : Bytes) (s : State) : reportFrame s (recAssign c fl fn b s) := ⟨rfl, fun _ => rfl⟩

theorem recAppend_report (c fl fn : Nat) (b : Bytes) (s : State) : reportFrame s (recAppend c fl fn b s) := by
  unfold recAppend
  split
  · exact bufPush_report _ _
  · refine reportFrame.trans ?_ (recAssign_report _ _ _ _ _)
    split
    · exact recAssign_report _ _ _ _ _
    · exact reportFrame.refl s

theorem logWarn_report (s : State) : reportFrame s (logWarn s) := by
  unfold logWarn
  split
  · refine reportFrame.trans (t := modAud (fun a => { a with warned := true }) s) ⟨rfl, fun _ => rfl⟩ ?_
    exact (recAppend_report _ _ _ _ _).trans ((fireMsix_report _ _ _).trans (healthReport_report _ _ _))
  · exact reportFrame.refl s

theorem logFullSay_report (s : State) : reportFrame s (logFullSay s) := by
  unfold logFullSay
  split
  · refine reportFrame.trans (t := modAud (fun a => { a with fullSaid := true }) s) ⟨rfl, fun _ => rfl⟩ ?_
    exact (recAppend_report _ _ _ _ _).trans (healthReport_report _ _ _)
  · exact reportFrame.refl s

theorem headMirror_report (s : State) : reportFrame s (headMirror s) := by
  unfold headMirror
  split
  · refine reportFrame.trans (t := modAud (fun a => { a with headSent := s.time.refCount }) s) ⟨rfl, fun _ => rfl⟩ ?_
    exact mirrorSend_report _ _ _ _
  · exact reportFrame.refl s

/-- Writing a record touches only what a report can touch (R377, R383-R391). -/
theorem audit_report (c fn : Nat) (b : Bytes) (s : State) : reportFrame s (audit c fn b s) :=
  (recAppend_report _ _ _ _ _).trans ((logWarn_report _).trans (logFullSay_report _))

theorem auditU_report (c fl fn : Nat) (b : Bytes) (s : State) : reportFrame s (auditU c fl fn b s) :=
  (recAppend_report _ _ _ _ _).trans ((logWarn_report _).trans ((logFullSay_report _).trans (headMirror_report _)))

/-! ### Tokens, cores, channels, counters -/

@[simp] theorem tok_modTok_same (i : Nat) (g : Token → Token) (s : State) : tok (modTok i g s) i = g (tok s i) := by
  simp [tok, modTok]

theorem tok_modTok_ne {i j : Nat} (g : Token → Token) (s : State) (h : j ≠ i) : tok (modTok i g s) j = tok s j := by
  simp [tok, modTok, tget_tmod_ne _ _ _ h]

@[simp] theorem core_modCore_same (p : Nat) (g : Core → Core) (s : State) : core (modCore p g s) p = g (core s p) := by
  simp [core, modCore]

theorem core_modCore_ne {p q : Nat} (g : Core → Core) (s : State) (h : q ≠ p) : core (modCore p g s) q = core s q := by
  simp [core, modCore, tget_tmod_ne _ _ _ h]

@[simp] theorem checker_modChecker_same (m : Nat) (g : Checker → Checker) (s : State) :
    checker (modChecker m g s) m = g (checker s m) := by
  simp [checker, modChecker]

theorem checker_modChecker_ne {m k : Nat} (g : Checker → Checker) (s : State) (h : k ≠ m) :
    checker (modChecker m g s) k = checker s k := by
  simp [checker, modChecker, tget_tmod_ne _ _ _ h]

/-! ### Slots -/

theorem cachePush_le (n c : Nat) (h : n ≤ 4) : (cachePush n c).2 ≤ 1 := by
  have key : ∀ m c, c ≠ 16 → c + m ≤ 16 ∨ 16 < c → (cachePush m c).2 = 0 := by
    intro m
    induction m with
    | zero => intros; rfl
    | succ m ih =>
      intro c h1 h2
      simp only [cachePush, if_neg h1]
      by_cases hm : c + 1 = 16
      · have : m = 0 := by omega
        subst this; rfl
      · rw [ih (c + 1) hm (by omega)]
  induction n generalizing c with
  | zero => simp [cachePush]
  | succ n ih =>
    simp only [cachePush]
    by_cases hc : c = 16
    · subst hc; simp only [if_true]; rw [key n 13 (by omega) (by omega)]
    · simp only [if_neg hc, add_zero]; exact ih _ (by omega)
theorem cachePop_zero (m c d : Nat) (h : m ≤ c ∨ d ≤ c) : (cachePop m c d).2 = 0 := by
  induction m generalizing c d with
  | zero => rfl
  | succ m ih =>
    simp only [cachePop]
    rcases c with _ | c
    · have hd : d = 0 := by omega
      subst hd
      simpa [b2n] using ih 0 0 (by omega)
    · simpa [b2n] using ih c (d - 1) (by omega)
theorem cachePop_le (n c d : Nat) (h : n ≤ 4) : (cachePop n c d).2 ≤ 1 := by
  induction n generalizing c d with
  | zero => simp [cachePop]
  | succ n ih =>
    by_cases hf : c = 0 ∧ 0 < d
    · obtain ⟨rfl, hd⟩ := hf
      simp only [cachePop, hd, decide_true, Bool.and_self, if_true, b2n]
      rw [cachePop_zero _ _ _ (by omega)]
    · have : (decide (c = 0) && decide (0 < d)) = false := by simpa using hf
      simp only [cachePop, this, b2n, Bool.false_eq_true, if_false, add_zero]
      exact ih _ _ (by omega)

/-- The stack cache costs at most one spill and one fill. -/
theorem cacheStep_eq (pops before after : Nat) (c : Core) (hp : pops ≤ 4) (hq : after + pops - before ≤ 4) :
    ∃ k n, k ≤ 2 ∧ cacheStep pops before after c = charge k { c with cached := n } := by
  have h1 := cachePop_le (min pops before) c.cached before (by omega)
  have h2 := cachePush_le (after + pops - before) (cachePop (min pops before) c.cached before).1 hq
  exact ⟨_, _, by omega, rfl⟩

/-- Counting leaves the cores. -/
theorem sideFrame.core {s t : State} (h : sideFrame s t) (q : Nat) : core t q = core s q := by
  unfold Machine.core; rw [h.1]

/-- Only the sampling fields of core `p` moved. -/
def sampledOnly (p : Nat) (s t : State) : Prop :=
  t = s ∨ ∃ g : Core → Core, (∀ c, ∃ a b d, g c = { c with sampLeft := a, sampLfsr := b, sampDue := d }) ∧ t = modCore p g s

theorem sampledOnly.ite {p : Nat} {s a b : State} {q : Prop} [Decidable q] (h : sampledOnly p s a) (k : sampledOnly p s b) :
    sampledOnly p s (if q then a else b) := by
  split <;> assumption

theorem sampleSlot_only (p pc : Nat) (idle : Bool) (s : State) : sampledOnly p s (sampleSlot p pc idle s) :=
  sampledOnly.ite (.inl rfl) (sampledOnly.ite (.inr ⟨_, fun _ => ⟨_, _, _, rfl⟩, rfl⟩)
    (.inr ⟨_, fun c => ⟨_, c.sampLfsr, c.sampDue, rfl⟩, rfl⟩))

/-- A slot that has run leaves its core but for cycles, cache and sampling, and everything else but the counters. -/
theorem slotDone_to (s : State) (p pc n x cost k m : Nat) (c : Core) (hk : k ≤ 2) (hc : core s p = endSlot cost (charge k { c with cached := m })) :
    slotCoreTo p cost c (slotDone p pc n x s) ∧ (∀ q, q ≠ p → core (slotDone p pc n x s) q = core s q) ∧
    slotDone p pc n x s = { s with
      cpu := { s.cpu with cores := (slotDone p pc n x s).cpu.cores }, cnt := (slotDone p pc n x s).cnt,
      hif := { s.hif with fns := (slotDone p pc n x s).hif.fns }, out := (slotDone p pc n x s).out } ∧
    ∀ g, fnOf (slotDone p pc n x s) g = { fnOf s g with msix := (fnOf (slotDone p pc n x s) g).msix } := by
  have hs : ∃ u, sideFrame s u ∧ slotDone p pc n x s = sampleSlot p pc false u := by
    refine ⟨_, ?_, rfl⟩
    refine sideFrame.trans (sideFrame.trans ?_ (countCore_side _ _ _ _ _)) (countCore_side _ _ _ _ _)
    split
    · exact countCore_side _ _ _ _ _
    · exact sideFrame.refl s
  obtain ⟨u, hu, he⟩ := hs
  rw [he]
  have hcu : core u p = endSlot cost (charge k { c with cached := m }) := by rw [hu.core]; exact hc
  obtain h | ⟨g, hg, h⟩ := sampleSlot_only p pc false u <;> rw [h]
  · refine ⟨⟨k, hk, ?_⟩, fun q _ => hu.core q, ?_, hu.2⟩
    · rw [hcu]
      simp [endSlot, charge, Nat.add_mod]
      split <;> omega
    · rw [hu.1]
  · refine ⟨⟨k, hk, ?_⟩, fun q hq => ?_, ?_, fun j => ?_⟩
    · obtain ⟨a, b, d, h'⟩ := hg (core u p)
      rw [core_modCore_same, h', hcu]
      simp [endSlot, charge, Nat.add_mod]
      split <;> omega
    · rw [core_modCore_ne _ _ hq, hu.core]
    · rw [hu.1]; rfl
    · exact hu.2 j

theorem canRun_eq {s : State} {p : Nat} (h : canRun s p = true) : coreGoes s p = true ∧ injWaits s 0x08 p = false := by
  simpa [canRun] using h

/-- A slot whose operation succeeds: core `p` as it leaves it, cycles charged; the rest as the operation leaves it, but the counters. -/
theorem slot_to {s s' : State} {p len cost pops op : Nat} {f : Core → State → SlotR} (h : canRun s p = true)
    (hf : misfit (core s p) op = false) (ho : f (slotCore (core s p) len) s = .ok s') (hp : pops ≤ 4)
    (hd : (core s' p).ds.length ≤ 976) (hq : (core s' p).ds.length + pops - (slotCore (core s p) len).ds.length ≤ 4) :
    slotTo s' p cost (core s' p) (slot p len cost pops op f s) := by
  obtain ⟨k, m, hk, hx⟩ := cacheStep_eq pops (slotCore (core s p) len).ds.length (core s' p).ds.length (core s' p) hp hq
  obtain ⟨hg, hi⟩ := canRun_eq h
  have he : ∃ pc n x, slot p len cost pops op f s = slotDone p pc n x (setCore p (endSlot cost (cacheStep pops (slotCore (core s p) len).ds.length (core s' p).ds.length (core s' p))) s') := by
    have hd' : ¬ 976 < (core s' p).ds.length := by omega
    simp only [slot, hg, hf, hi, ho]
    simp only [Bool.not_true, Bool.false_eq_true, or_self, if_false, hd']
    exact ⟨_, _, _, rfl⟩
  obtain ⟨pc, n, x, he⟩ := he
  rw [he, hx]
  have := slotDone_to (setCore p (endSlot cost (charge k { core s' p with cached := m })) s') p pc n x cost k m (core s' p) hk
    (by simp [setCore])
  refine ⟨this.1, fun q hq => ?_, ?_, fun g => ?_⟩
  · rw [this.2.1 q hq, setCore, core_modCore_ne _ _ hq]
  · exact this.2.2.1
  · exact this.2.2.2 g

theorem slotTo_setCore {s t : State} {p cost : Nat} {c c' : Core} (h : slotTo (setCore p c' s) p cost c t) : slotTo s p cost c t := by
  obtain ⟨h1, h2, h3, h4⟩ := h
  refine ⟨h1, fun q hq => ?_, h3, h4⟩
  rw [h2 q hq, setCore, core_modCore_ne _ _ hq]

/-- A slot that changes its core alone (R193, R203). -/
theorem coreSlot_to {s : State} {p len cost pops op : Nat} {f : Core → Except Nat Core} {c : Core} (h : canRun s p = true)
    (hf : misfit (core s p) op = false) (ho : f (slotCore (core s p) len) = .ok c) (hp : pops ≤ 4) (hd : c.ds.length ≤ 976)
    (hq : c.ds.length + pops - (slotCore (core s p) len).ds.length ≤ 4) :
    slotTo s p cost c (coreSlot p len cost pops op f s) := by
  have hc : core (setCore p c s) p = c := by simp [setCore]
  have := slot_to (s' := setCore p c s) (len := len) (cost := cost) (pops := pops)
    (f := fun c s => match f c with | .ok c' => .ok (setCore p c' s) | .error k => .fault k none) h hf (by simp [ho]) hp (by rw [hc]; exact hd) (by rw [hc]; exact hq)
  rw [hc] at this
  exact slotTo_setCore this

/-- A slot whose operation faults takes the core's fault (R226). -/
theorem slot_fault {s : State} {p len cost pops kind op : Nat} {f : Core → State → SlotR} {v : Option VioReport}
    (h : canRun s p = true) (hf : misfit (core s p) op = false) (ho : f (slotCore (core s p) len) s = .fault kind v) :
    slot p len cost pops op f s = coreFault p kind (slotPc (core s p)) v s := by
  obtain ⟨hg, hi⟩ := canRun_eq h
  simp [slot, hg, hf, hi, ho]

/-- An operation on the data stack that has its entries and its room. -/
theorem dsSlot_to {s : State} {p cost n op : Nat} {f : List W32 → List W32} {c : Core} (h : canRun s p = true)
    (hf : misfit (core s p) op = false) (hc : c = slotCore (core s p) 1) (hn : n ≤ c.ds.length) (hp : n ≤ 4)
    (hl : (f (c.ds.take n)).length ≤ 4) (hr : (f (c.ds.take n)).length + c.ds.length - n ≤ 976) :
    slotTo s p cost { c with ds := f (c.ds.take n) ++ c.ds.drop n } (dsSlot p cost n op f s) := by
  subst hc
  refine coreSlot_to h hf ?_ hp ?_ ?_
  · have : ¬ (slotCore (core s p) 1).ds.length < n := by omega
    simp only [dsOp, this, if_false]
    rw [if_neg]
    simp only [List.length_append, List.length_drop]
    omega
  · simp only [List.length_append, List.length_drop]
    omega
  · simp only [List.length_append, List.length_drop]
    omega

end Sys2Proof.Machine
end

