-- ==== Sys2Proof/Tests/Slice0.lean ====
section
/-!
SUPPORT. The tests: ill-formed commands that the checks refuse, and for every statement with hypotheses a concrete state and operands
that meet them.
-/

namespace Sys2Proof.Machine.Tests

open Sys2Proof

set_option Elab.async false


/-! ### StepTakesFront -/

/-- A state with a command in front, and one with none. -/
theorem stepTakesFront_witness :
    ({ State.reset with pending := [.lockOrder] } : State).pending = .lockOrder :: [] ∧ State.reset.pending = [] := ⟨rfl, rfl⟩

/-! ### RingDoorbells -/

/-- A device in ACTIVE, unpaired, with main power and the link up. -/
def wAct : State :=
  { State.reset with pwr := { Pwr.new with mode := .active }, hif := { Hif.start with linkUp := true, svcMode := .active, svcLatches := 1 } }

/-- The conditions of RingDoorbells, on the PF's pair 0: a tail and a head in range and at the first value out of range, a RING_CTL word that
enables the smallest sizes, and a pair in each state. -/
theorem ringDoorbells_witness :
    pageOpen wAct 0 = true ∧ (fnOf wAct 0).rst = none ∧ 0 < 4 ∧ (fnOf wAct 0).rings[0]? = some Ring.blank ∧
    63 < ringSize Ring.blank.sqLog2 ∧ ringSize Ring.blank.sqLog2 ≤ 64 ∧
    cqConsumes Ring.blank 0 = some 0 ∧ cqConsumes Ring.blank 1 = none ∧ cqConsumes Ring.blank 64 = none ∧
    Ring.blank.st = .idle ∧ (fnOf wAct 0).created = true ∧
    bitsOf 0x18CD 8 5 ∉ [1, 2, 3, 4, 5] ∧ bitsOf 0x18CD 4 1 ∉ [1, 2, 3, 4, 5] ∧ bitsOf 0x18CD 13 11 < 4 := by decide

/-- The same page with a pair REFUSED, and one RUNNING. -/
theorem ringDisable_witness :
    (fnOf (modRing 0 0 (fun r => { r with st := .refused }) wAct) 0).rings[0]? = some { Ring.blank with st := .refused } ∧
    (fnOf (modRing 0 0 (fun r => { r with st := .running, reserved := 1 }) wAct) 0).rings[0]? =
      some { Ring.blank with st := .running, reserved := 1 } := by decide

/-! ### FetchAndAccept -/

/-- A PF with a running pair, four descriptors posted, and one host region over the whole of its queues. -/
def wRing : State :=
  modFn 0 (fun x => { x with
    ops := 0x1FFF, regions := [⟨0, 0x10000, 0x4037⟩],
    rings := [{ Ring.blank with st := .running, enable := true, sqBase := 0x1000, cqBase := 0x2000, tail := 4, modTime := 5 }] }) wAct

/-- The same with one fetch outstanding. -/
def wFetch : State := modRing 0 0 (fun r => { r with inFlight := 1, reserved := 1 }) wRing

/-- A descriptor of RANDOM_GENERATE for 16 bytes, unordered, and the same ORDERED with NOT_BEFORE 3. -/
def dRandom (flags notBefore : Nat) : Bytes :=
  leBytes 2 0x1901 ++ leBytes 2 flags ++ leBytes 4 0 ++ leBytes 4 0 ++ leBytes 4 notBefore ++ zeroBytes 32 ++ leBytes 4 16 ++ zeroBytes 12

theorem fetchAndAccept_witness_issue :
    (fnOf wRing 0).rings[0]?.isSome = true ∧ mayFetch wRing 0 0 = true ∧
    hostRefusal wRing (hifMaster 0 0) 0 (0x1000 + 64 * ((0 + 0) % ringSize 6)) 64 false = none ∧
    mayFetch (modFn 0 (fun x => { x with regions := [] }) wRing) 0 0 = true ∧
    (hostRefusal (modFn 0 (fun x => { x with regions := [] }) wRing) (hifMaster 0 0) 0 (0x1000 + 64 * ((0 + 0) % ringSize 6)) 64 false).isSome = true := by
  decide +kernel

theorem fetchAndAccept_witness_fail : (ringOf wFetch 0 0).inFlight ≠ 0 ∧ (0 : Nat) < 4 := by decide +kernel

/-- MOD_TIME 5 ticks after a first unsignalled completion at tick 0, at tick 5, with the vector masked and not. -/
theorem fetchAndAccept_witness_mod :
    let s := modTime (fun t => { t with refCount := 500 }) (modRing 0 0 (fun r => { r with irqFirst := some 0 }) wRing)
    (ringOf s 0 0).irqFirst = some 0 ∧ (ringOf s 0 0).modTime ≠ 0 ∧ 0 + (ringOf s 0 0).modTime ≤ tick s ∧
    (fnOf s 0).msix[(ringOf s 0 0).vector]? = some MsixEntry.blank ∧ (fnOf s 0).rst = none ∧ s.hif.linkUp = true ∧ s.pwr.main = true ∧
    (fnOf (modFn 0 (fun x => { x with msix := [⟨0xFEE00000, 0x41, false, false⟩] }) s) 0).msix[0]? = some ⟨0xFEE00000, 0x41, false, false⟩ := by
  decide +kernel

theorem fetchAndAccept_witness_accept :
    (ringOf wFetch 0 0).inFlight ≠ 0 ∧ serves wFetch 0 = true ∧ (fnOf wFetch 0).rst = none ∧
    admission wFetch 0 (padTo 64 (dRandom 0 0)) = 0 ∧ admission wFetch 0 (padTo 64 (dRandom 2 3)) = 0 ∧
    dNotBefore (padTo 64 (dRandom 0 0)) = 0 ∧ dNotBefore (padTo 64 (dRandom 2 3)) = 3 ∧ dOrdered (padTo 64 (dRandom 2 3)) = true ∧
    (tok wFetch 65535).st = .free := by decide +kernel

/-! ### FunctionCommands -/

/-- VF 3 selected with a request of the minimums, not created; and created with that share. -/
def wPool : State := { wAct with hif := { wAct.hif with fnSel := 3, req := ⟨16, 1, 0, 1⟩ } }

theorem functionCommands_witness_create : fnCmdReady wPool ∧ wPool.hif.fnSel ≠ 0 ∧ (fnOf wPool 3).created = false ∧ requestFits wPool 3 := by
  decide

/-- One token too few, and one token more than the free pool holds. -/
theorem functionCommands_witness_refused :
    ¬ requestFits { wPool with hif := { wPool.hif with req := ⟨15, 1, 0, 1⟩ } } 3 ∧
    ¬ requestFits { wPool with hif := { wPool.hif with req := ⟨64513, 1, 0, 1⟩ } } 3 ∧
    requestFits { wPool with hif := { wPool.hif with req := ⟨64512, 1, 0, 1⟩ } } 3 := by
  decide

theorem functionCommands_witness_created :
    fnCmdReady (modFn 3 (fun x => { x with created := true }) wPool) ∧ (fnOf (modFn 3 (fun x => { x with created := true }) wPool) 3).created = true ∧
    requestFits (modFn 3 (fun x => { x with created := true }) wPool) 3 ∧ fnBusy (modFn 3 (fun x => { x with created := true }) wPool) 3 = false := by
  decide

theorem functionCommands_witness_complete :
    let s := modFn 3 (fun x => { x with msix := List.replicate 8 ⟨0, 0, false, false⟩ })
      { wPool with hif := { wPool.hif with cmdPend := some ⟨1, 3, 0⟩ } }
    s.hif.cmdPend = some ⟨1, 3, 0⟩ ∧ (fnOf s 3).msix[5]? = some ⟨0, 0, false, false⟩ ∧ (fnOf s 3).rst = none ∧ s.hif.linkUp = true ∧
    s.pwr.main = true ∧ (wPool.hif.ide.filter fun e => decide (e.id ≠ 63)).length < 64 := by decide

/-! ### FunctionResets -/

/-- VF 1 and VF 1,024 exist and are in no reset; VF 3 is created and selected. -/
theorem functionResets_witness_begin :
    let s := { wPool with hif := { wPool.hif with vfEnable := true } }
    s.pwr.main = true ∧ s.hif.linkUp = true ∧ s.hif.vfEnable = true ∧ (fnOf s 1).rst = none ∧ (fnOf s 1024).rst = none ∧
    (fnOf s 0).rst = none ∧ (let u := modFn 3 (fun x => { x with created := true }) s
      fnCmdReady u ∧ u.hif.fnSel ≠ 0 ∧ (fnOf u 3).created = true ∧ (fnOf u 3).rst = none) := by decide +kernel

/-- The PF in a reset stamped 1,500 µs ago, a core still running its command, and a report area that its regions allow. -/
theorem functionResets_witness_end :
    let r : FnReset := ⟨0, 0, 0, 2, 0x4000, 0, [⟨1, 7, 0x0902, 0, 0⟩], 1, false⟩
    let s := modTime (fun t => { t with refCount := 150000 }) (modCore 0 (fun c => { c with st := .run, reset := true })
      (modFn 0 (fun x => { x with rst := some r }) wRing))
    (fnOf s 0).rst = some r ∧ r.stampRef + 150000 ≤ s.time.refCount ∧ resetCores s 0 = [0] ∧ resetCores s 3 = [] ∧
    (latch s (loadOf s 0)).take = .none ∧ reportsReset s 0 = true ∧ (fnOf s 0).rptHeld = [] ∧
    (rptList 0 r 1 (timeField s)).length = 3 ∧
    (∀ w ∈ rptList 0 r 1 (timeField s), (hostRefusal s w.1 0 w.2.1 w.2.2.length true).isNone = true) := by decide +kernel

/-! ### ArithmeticAndLogic -/

/-- Core 0 in service in firmware mode at an address, with a data stack, a return stack and a block stack. -/
def wCore (ds rs : List W32) (bs : List W128) : State :=
  setCore 0 { Core.blank with st := .run, tok := some 0, pc := 0x10000000, ds := ds, rs := rs, bs := bs } wAct

theorem arithmeticAndLogic_witness :
    slotReady (wCore [3, 2, 1] [] []) 0 [3, 2, 1] ∧ [(3 : W32), 2, 1].length ≤ 976 ∧ (3 : W32) ≠ 0 := by decide +kernel

/-! ### LiteralsAndStacks -/

theorem literalsAndStacks_witness :
    slotReady (wCore [3, 2, 1] [7] []) 0 [3, 2, 1] ∧ (core (wCore [3, 2, 1] [7] []) 0).rs = [7] ∧ (1 : Nat) < 16 ∧
    fuseReady (wCore [1, 2, 5] [7] []) 0 0x0F [1, 2, 5] ∧ (0x0F : Nat) ∈ fuseOps ∧ (0x10 : Nat) ∉ fuseOps ∧ (0x40 : Nat) ∈ fuseBranch ∧
    (1 : W32).toNat ≤ 63 ∧ [(2 : W32), 5][(1 : W32).toNat]? = some 5 := by decide +kernel

/-- PICK of entry 63, the last it reaches, with a fused literal. -/
theorem pick_witness_63 :
    let s := modCore 0 (fun c => { c with fuse := some (63, 0x10000000, 0x0F) }) (wCore (List.replicate 64 9) [] [])
    fuseReady s 0 0x0F (63 :: List.replicate 64 9) ∧ (63 : W32).toNat ≤ 63 ∧ (List.replicate 64 (9 : W32))[(63 : W32).toNat]? = some 9 := by
  decide +kernel

/-! ### Branches -/

/-- A branch whose offset is on the stack, and one whose offset a literal has fused; a loop count of 1 and of 2. -/
theorem branches_witness :
    fuseReady (wCore [5, 0] [2] []) 0 0x40 [5, 0] ∧ slotReady (wCore [5, 0] [2] []) 0 [5, 0] ∧ (core (wCore [5, 0] [2] []) 0).rs = [2] ∧
    (core (wCore [5, 0] [1] []) 0).rs = [1] ∧
    fuseReady (modCore 0 (fun c => { c with fuse := some (0xFFFFFFFE, 0x10000000, 0x41), pc := 0x10000002 }) (wCore [1] [1] [])) 0 0x41 [0xFFFFFFFE, 1] := by
  decide +kernel

/-! ### Loads -/

/-- A word load and a byte load of local memory, one misaligned, one refused; a stream pointer in linear mode; and a load due. -/
theorem loads_witness :
    fuseReady (wCore [0x8004, 1] [] []) 0 0x50 [0x8004, 1] ∧ slotReady (wCore [0x8004, 1] [] []) 0 [0x8004, 1] ∧
    [(0x8004 : W32), 1].length ≤ 976 ∧ ¬ (4 = 4 ∧ (0x8004 : W32).toNat % 4 ≠ 0) ∧
    coreRefusal (wCore [0x8004, 1] [] []) 0 .read (0 * 65536 + (0x8004 : W32).toNat % 65536) 4 = none ∧
    slotReady (wCore [0x8006] [] []) 0 [0x8006] ∧ (0x8006 : W32).toNat % 4 ≠ 0 ∧
    (coreRefusal (wCore [0x30000000] [] []) 0 .read 0x30000000 4).isSome = true := by decide +kernel

theorem streamLoads_witness :
    let s := modCore 0 (fun c => { c with s0 := { c.s0 with base := 0x8000, idx := 3 }, s1 := { c.s1 with base := 0x9000 } }) (wCore [0] [] [])
    slotReady s 0 [0] ∧ streamAddr (core s 0).s0 = some 0x800C ∧ coreRefusal s 0 .read 0x800C 4 = none ∧
    streamAddr (core s 0).s1 = some 0x9000 ∧ slotReady (wCore [1] [] []) 0 [1] ∧ slotReady (wCore [2] [] []) 0 [2] ∧ 1 < (2 : W32).toNat := by
  decide +kernel

theorem loadLanding_witness :
    let s := modCore 0 (fun c => { c with loads := [⟨0, some 7, 4, 8, 2, []⟩] }) (wCore [5] [] [])
    (core s 0).loads = ⟨0, some 7, 4, 8, 2, []⟩ :: [] ∧ 2 ≤ (⟨0, some 7, 4, 8, 2, []⟩ : PLoad).age ∧
    (core (modCore 0 (fun c => { c with loads := [⟨0, none, 4, 60, 2, [some 9]⟩] }) s) 0).loads = ⟨0, none, 4, 60, 2, [some 9]⟩ :: [] := by decide +kernel

/-! ### Stores -/

theorem stores_witness :
    let s := wCore [0x8004, 9] [] [5]
    fuseReady s 0 0x51 [0x8004, 9] ∧ slotReady s 0 [0x8004, 9] ∧ ¬ misaligned 4 0x8004 ∧ misaligned 4 0x8006 ∧ misaligned 16 0x8004 ∧
    coreRefusal s 0 .write 0x8004 4 = none ∧ coreRefusal s 0 .write 0x20000000 4 = none ∧ (core s 0).stores.length < 8 ∧
    (coreRefusal s 0 .write 0x30000000 4).isSome = true ∧ (core s 0).bs = [5] ∧ ¬ misaligned 16 0x8010 ∧
    coreRefusal s 0 .write 0x8010 16 = none := by decide +kernel

theorem streamStores_witness :
    let s := modCore 0 (fun c => { c with
      s0 := ⟨0x8000, 3, 4, 0x10000, 0x100⟩, s1 := ⟨0x20000000, 0, 4, 0x10000, 0x100⟩, stores := List.replicate 8 ⟨0x20000000, [1], 0⟩ })
      (wCore [0, 9] [] [])
    slotReady s 0 [0, 9] ∧ streamAddr (core s 0).s0 = some 0x800C ∧ coreRefusal s 0 .write 0x800C 4 = none ∧
    streamAddr (core s 0).s1 = some 0x20000000 ∧ coreRefusal s 0 .write 0x20000000 4 = none ∧ 8 ≤ (core s 0).stores.length ∧
    slotReady (wCore [1, 9] [] []) 0 [1, 9] := by decide +kernel

theorem storeAcknowledge_witness :
    let s := modCore 0 (fun c => { c with stores := [⟨0x10040000, [1, 2], 0⟩] }) (wCore [] [] [])
    (core s 0).stores = ⟨0x10040000, [1, 2], 0⟩ :: [] ∧ 0x10000 ≤ 0x10040000 ∧ 0x10040000 < 0x80000000 := by decide +kernel

/-- A store to the output aperture, its window at byte 8, with nothing to wait for; and one ORDER strict holds back while a load is owed. -/
theorem storeAcknowledge_witness_host :
    let s := modCore 0 (fun c => { c with stores := [⟨0xC0000000, [1, 2], 8⟩], outList := [(0x2000, 64)] }) (wCore [] [] [])
    (core s 0).stores = ⟨0xC0000000, [1, 2], 8⟩ :: [] ∧ ¬ (storeStrict s (core s 0) ⟨0xC0000000, [1, 2], 8⟩ = true ∧ loadsOwed (core s 0) = true) ∧
    (core s 0).closed = false ∧ (core s 0).outList = [(0x2000, 64)] ∧ 8 + (0xC0000000 - 0xC0000000) + [(1 : Byte), 2].length ≤ 64 ∧
    (let u := modCore 0 (fun c => { c with loads := [⟨0, none, 4, 60, 0, []⟩] }) (modFn 0 (fun x => { x with regions := [⟨0, 4, 0x6037⟩] }) s)
     storeStrict u (core u 0) ⟨0xC0000000, [1, 2], 8⟩ = true ∧ loadsOwed (core u 0) = true) := by decide +kernel

/-! ### SpecialRegisters -/

theorem specialRegisters_witness :
    let s := wCore [31, 4096] [] []
    slotReady s 0 [31, 4096] ∧ fuseReady s 0 0x5E [31, 4096] ∧ (core s 0).stores = [] ∧ (core s 0).reqs = [] ∧ (core s 0).prog = false ∧
    (core (modCore 0 (fun c => { c with stores := [⟨0x20000000, [1], 0⟩] }) s) 0).stores ≠ [] ∧
    slotReady (wCore [33, 0] [] []) 0 [33, 0] ∧ 32 < (33 : W32).toNat ∧ slotReady (wCore [0, 1] [] []) 0 [0, 1] := by decide +kernel

/-! ### BlockStack -/

theorem blockStack_witness :
    slotReady (wCore [0x8010, 2, 3, 4] [] [7, 8]) 0 [0x8010, 2, 3, 4] ∧ (core (wCore [0x8010, 2, 3, 4] [] [7, 8]) 0).bs = [7, 8] ∧
    (0x8010 : W32).toNat % 16 = 0 ∧ coreRefusal (wCore [0x8010, 2, 3, 4] [] [7, 8]) 0 .read 0x8010 16 = none ∧
    slotReady (wCore [16] [] [7]) 0 [16] ∧ (16 : W32).toNat ≤ 16 ∧ slotReady (wCore [17] [] [7]) 0 [17] ∧ 16 < (17 : W32).toNat := by
  decide +kernel

/-- A host read of the input aperture that the pane allows. -/
theorem bld_witness_host :
    let s := modChecker 0 (fun k => { k with paneA := { k.paneA with regions := [⟨0x1000, 1, 0x4037⟩] } })
      (modCore 0 (fun c => { c with inList := [(0x1000, 64)] }) (wCore [0x80000000] [] []))
    slotReady s 0 [0x80000000] ∧ (core s 0).bs.length < 8 ∧ (0x80000000 : W32).toNat % 16 = 0 ∧
    coreRefusal s 0 .read 0x80000000 16 = none ∧ 0x80000000 ≤ (0x80000000 : W32).toNat ∧ strictWaits s (begun s 0 1) 0x80000000 16 = false ∧
    (let u := modCore 0 (fun c => { c with loads := [⟨0, none, 4, 60, 0, []⟩] }) (modFn 0 (fun x => { x with regions := [⟨0x1000, 1, 0x6037⟩] }) s)
     strictWaits u (begun u 0 1) 0x80000000 16 = true) := by
  decide +kernel

/-! ### CoreFaults -/

theorem coreFaults_witness :
    slotReady (wCore [] [] []) 0 [] ∧ slotReady (wCore (List.replicate 976 1) [2] []) 0 (List.replicate 976 1) ∧
    (List.replicate 976 (1 : W32)).length = 976 ∧ (core (wCore (List.replicate 976 1) [2] []) 0).rs ≠ [] ∧
    (core (wCore [] [] []) 0).rs = [] ∧ (core (wCore [] [] []) 0).bs = [] ∧
    16 ≤ (core (wCore [1] (List.replicate 16 0) []) 0).rs.length ∧ slotReady (wCore [1] (List.replicate 16 0) []) 0 [1] ∧
    (core (wCore [] [] (List.replicate 8 0)) 0).bs.length = 8 ∧ slotReady (wCore [0, 5] [] []) 0 [0, 5] ∧
    fuseReady (wCore [64, 5] [] []) 0 0x0F [64, 5] ∧ 63 < (64 : W32).toNat := by decide +kernel

/-- 976 entries and a literal fused on top of them; and an injection armed at core 0's stack parity. -/
theorem coreFaults_witness_full :
    let s := modCore 0 (fun c => { c with fuse := some (0, 0x10000000, 0x0F) }) (wCore (List.replicate 976 1) [] [])
    fuseReady s 0 0x0F (0 :: List.replicate 976 1) ∧ (0 :: List.replicate 976 (1 : W32)).length = 977 ∧ (0 : W32).toNat ≤ 63 ∧
    fuseReady (modCore 0 (fun c => { c with fuse := some (0, 0x10000000, 0x5E) }) s) 0 0x5E (0 :: List.replicate 976 1) ∧
    (let u := modCore 0 (fun c => { c with fuse := some (0x8000, 0x10000000, 0x50) }) s
     fuseReady u 0 0x50 (0x8000 :: List.replicate 976 1) ∧ ((core u 0).bnk * 65536 + (0x8000 : W32).toNat % 65536) % 4 = 0 ∧
     (core u 0).bnk * 65536 + (0x8000 : W32).toNat % 65536 < 0x80000000 ∧ u.dbg.inj = none ∧
     coreRefusal u 0 .read ((core u 0).bnk * 65536 + (0x8000 : W32).toNat % 65536) 4 = none) ∧
    (let u := modDbg (fun d => { d with inj := some ⟨8, 0, 0, 2, false⟩ }) (wCore [] [] [])
     coreGoes u 0 = true ∧ (core u 0).fuse = none ∧ u.dbg.inj = some ⟨8, 0, 0, 2, false⟩) := by decide +kernel

theorem coreEvents_witness :
    let s := wCore [] [] []
    canRun s 0 = true ∧ (core s 0).fuse = none ∧ 0x04 < 256 ∧ 0x04 ∉ definedOps ∧ 0xFF ∉ definedOps ∧
    (coreRefusal (modCore 0 (fun c => { c with pc := 0x20000000 }) s) 0 .exec 0x20000000 1).isSome = true ∧
    0x10000000 ≤ (core s 0).pc ∧ (core s 0).pc ≤ 0x100FFFFF ∧ coreRefusal s 0 .exec (core s 0).pc 1 = none ∧
    (let u := modCore 0 (fun c => { c with prog := true, budget := 0 }) s
     u.pwr.main = true ∧ (core u 0).prog = true ∧ (core u 0).budget = 0 ∧ (core u 0).st ≠ .off) := by decide +kernel

/-! ### CommandFlow -/

theorem commandFlow_witness_ask :
    (let s := modCore 0 (fun c => { c with tok := none }) (wCore [] [] [])
     slotReady s 0 [] ∧ (core s 0).prog = false ∧ coreHolds (core s 0) = false) ∧
    (let s := modCore 0 (fun c => { c with prog := true, budget := 5 }) (wCore [] [] [])
     slotReady s 0 [] ∧ (core s 0).prog = true) ∧
    (let s := modChecker 0 (fun k => { k with shadow := .ready }) (modTok 9 (fun t => { t with st := .core, desc := dRandom 0 0 })
       (modCore 0 (fun c => { c with st := .ask, given := some 9, tok := none }) (wCore [] [] [])))
     (core s 0).st = .ask ∧ (core s 0).given = some 9 ∧ s.pwr.main = true ∧ (checker s 0).shadow = .ready ∧ s.cpu.parks = [] ∧
     imageMissing s 0 9 = false) := by decide +kernel

/-- A SHA-256 request to hash lane 0, and the mover port's number as the bound of the lane ports. -/
theorem commandFlow_witness_issue :
    let s := wCore [16, 0, 0x01000000, 8, 32, 0x8000, 0x8100] [] []
    slotReady s 0 [16, 0, 0x01000000, 8, 32, 0x8000, 0x8100] ∧ (16 : W32).toNat < 0x1E ∧ (29 : W32).toNat < 0x1E ∧ (core s 0).prog = false ∧
    issueEntries 16 0x01000000 ≤ (core s 0).bs.length ∧ (core s 0).reqs.length < 32 ∧ (laneOf s 16).fenced = false ∧ laneFull s 16 = false ∧
    (laneOf s 29).fenced = false ∧ laneFull s 29 = false ∧ issueHold s 0 true = true ∧ laneFull s (lanePartner s 0) = false := by decide +kernel

theorem commandFlow_witness_await :
    let s := modCore 0 (fun c => { c with reqs := [⟨16, 3, false, none, 0⟩, ⟨17, 4, true, some (0, zeroBytes 16), 0⟩] }) (wCore [16, 5] [] [])
    slotReady s 0 [16, 5] ∧ (core s 0).reqs.find? (fun x => decide (x.port = 16)) = some ⟨16, 3, false, none, 0⟩ ∧
    (5 : W32).toNat % 2 ^ 24 ≠ 0 ∧ (0 : W32).toNat % 2 ^ 24 = 0 ∧ (core s 0).bs.length < 8 ∧
    (core s 0).reqs.find? (fun x => decide (x.port = 17)) = some ⟨17, 4, true, some (0, zeroBytes 16), 0⟩ ∧ 0 ≤ s.time.refCount ∧
    (core s 0).reqs.find? (fun x => decide (x.port = 30)) = none ∧
    (let u := modTime (fun t => { t with refCount := 9 }) (modCore 0 (fun c => { c with st := .await 16 5 0 }) s)
     (core u 0).st = .await 16 5 0 ∧ loadDue (core u 0) = false ∧ (core u 0).ds = [16, 5] ∧ (core u 0).fuse = none ∧ (core u 0).prog = false ∧
     u.pwr.main = true ∧ u.dbg.inj = none ∧ 2 * 5 + 200 ≤ 25 * (u.time.refCount - 0)) := by decide +kernel

theorem commandFlow_witness_release :
    slotReady (wCore [0, 0] [] []) 0 [0, 0] ∧
    (let s := modCore 0 (fun c => { c with prog := true, budget := 5 }) (wCore [0x0801, 0] [] [])
     slotReady s 0 [0x0801, 0] ∧ (core s 0).prog = true ∧ progStatusOk ((0x0801 : W32).toNat % 65536) = false ∧
     progStatusOk ((0 : W32).toNat % 65536) = true ∧ (0 : W32).toNat ≤ bufLen (core s 0).outList) := by decide +kernel

/-! ### KeysRandomPrograms -/

/-- A VF whose keys are in use: DEPLOYED, an LMK set loaded, a directory of 8 slots, one TDES key in slot 2, on a core that runs its command
with a requirement record at 0x8000. -/
def wKeys (ds : List W32) : State :=
  let e : KEnt := keySeal [] 5
    ⟨3, 2, 0, 0, 1, 0x5030, 0x45, 0x45, 0x3030, 0, none, 0xFFFFFFFF, 0, false, 0, zeroBytes 16, [], [], 0, false, [], [], 0⟩
  let l : Lmk := ⟨setLmk (zeroBytes 32) 1 0 { LmkSlot.blank with occ := true, version := 1 }, LmkSlot.blank, true, 0⟩
  let s := wCore ds [] []
  let s := { s with lcy := { s.lcy with state := .deployed }, hif := { s.hif with vfEnable := true }, kst := { s.kst with keys := [(5, e)], lmks := [(3, l)] } }
  modFn 3 (fun x => { x with created := true, dirSize := 8, ops := 0x0BFF })
    (modCore 0 (fun c => { c with func := 3, mem := mwrite [] 0x8000 [1, 0, 2, 0] }) s)

/-- What a resolution answered. -/
def answers (a b : Resolved) : Bool :=
  match a, b with
  | .ok i, .ok j => decide (i = j)
  | .fail i, .fail j => decide (i = j)
  | .bad i, .bad j => decide (i = j)
  | .miss, .miss => true
  | .kind, .kind => true
  | _, _ => false

theorem keysRandomPrograms_witness_kres :
    let s := wKeys [2, 0x8000, 1]
    slotReady s 0 [2, 0x8000, 1] ∧ (core s 0).kstat = none ∧ loadWaits s 0 = false ∧ s.dbg.inj = none ∧
    coreRefusal s 0 .read 0x8000 16 = none ∧
    leAt (kresRec 0 0x8000 [] s) 6 2 = 0 ∧ leAt (kresRec 0 0x8000 [] s) 12 4 = 0 ∧ (core s 0).pins.length < 16 ∧
    answers (resolve s 3 2 (keyReqAt (kresRec 0 0x8000 [] s)) 1) (.ok 5) = true ∧
    answers (resolve s 3 0 (keyReqAt (kresRec 0 0x8000 [] s)) 1) (.fail 0x0201) = true ∧
    answers (resolve s 3 1 (keyReqAt (kresRec 0 0x8000 [] s)) 1) .miss = true ∧
    mayPark (modCore 0 (fun c => { c with reqs := [⟨16, 0, false, none, 0⟩] }) s) 0 3 = false := by decide +kernel

/-- The same with a handle of another KIND, and with a key entry that fails its check a second time. -/
theorem keysRandomPrograms_witness_bad :
    (let s := modKey 5 (fun e => { e with kind := 1 }) (wKeys [2, 0x8000, 1])
     answers (resolve s 3 2 (keyReqAt (kresRec 0 0x8000 [] s)) 1) .kind = true) ∧
    (let s := modCore 0 (fun c => { c with kbad := true }) (modKey 5 (fun e => { e with bad := 1 }) (wKeys [2, 0x8000, 1]))
     answers (resolve s 3 2 (keyReqAt (kresRec 0 0x8000 [] s)) 1) (.bad 5) = true ∧ (core s 0).kbad = true) := by decide +kernel

/-- Instance 0 ready; a request of 4,096 bytes is in range. -/
theorem keysRandomPrograms_witness_rand :
    let s := modEnt (fun e => { e with drbgs := List.replicate 16 ⟨zeroBytes 32, zeroBytes 16, 0, true, false, false⟩ }) (wCore [0x8000, 4096] [] [])
    slotReady s 0 [0x8000, 4096] ∧ loadWaits s 0 = false ∧ 1 ≤ (4096 : W32).toNat ∧ (4096 : W32).toNat ≤ 4096 ∧ coreRefusal s 0 .write 0x8000 4096 = none ∧
    drbgLive s (instOf (core s 0).func) = true ∧
    (let u := modCore 0 (fun c => { c with st := .rand }) (modEnt (fun e => { e with reqs := [⟨0, 0x8000, 16⟩] }) s)
     u.ent.reqs = ⟨0, 0x8000, 16⟩ :: [] ∧ u.pwr.main = true ∧ (core u 0).st = .rand ∧ loadDue (core u 0) = false ∧ (core u 0).stores = [] ∧
     u.dbg.inj = none ∧ (core u 0).ds = 0x8000 :: 4096 :: [] ∧ drbgLive u (instOf (core u 0).func) = true ∧ 0x8000 < 0x10000) := by
  decide +kernel

/-- A 128-byte image of VF 3, slot 1, and the directory entry and approval that agree with it. -/
def wImage : Bytes :=
  leBytes 4 0x504E4449 ++ leBytes 2 1 ++ [1, 0] ++ leBytes 2 3 ++ [0, 0] ++ leBytes 4 7 ++ leBytes 4 128 ++ leBytes 4 0x40 ++ leBytes 4 1000 ++
  leBytes 2 0 ++ leBytes 2 0 ++ zeroBytes 96
/-- The fetch of that image in cluster 0, its directory entry not read yet; and the same waiting for the image. -/
def wFetchImage (ptr : Option (Nat × Nat)) : State :=
  { modFn 3 (fun x => { x with regions := [⟨0, 0x100, 0x4037⟩] }) (wKeys []) with
    cpu := { (wKeys []).cpu with fetches := [⟨0, 3, 1, 0, [], ptr, none⟩] },
    lcy := { (wKeys []).lcy with approvals := [⟨3, 1, 7, shake256 32 wImage⟩] } }

theorem keysRandomPrograms_witness_image :
    (let s := wFetchImage none
     let entry := leBytes 8 0x1000 ++ leBytes 4 128 ++ leBytes 4 0
     s.pwr.main = true ∧ fetchAt s 0 3 1 = some ⟨0, 3, 1, 0, [], none, none⟩ ∧ fetchLate s ⟨0, 3, 1, 0, [], none, none⟩ = false ∧
     leAt entry 0 8 % 64 = 0 ∧ leAt entry 12 4 = 0 ∧ hostRefusal s (imageMaster 0) 3 (leAt entry 0 8) (leAt entry 8 4) false = none ∧
     leAt (leBytes 8 0x1020) 0 8 % 64 ≠ 0 ∧ 100 * (0 + s.kst.fetchTimeout) + 8 ≤ 10008 ∧ pageOpen s 3 = true ∧ (fnOf s 3).rst = none) ∧
    (let s := wFetchImage (some (0x1000, 128))
     fetchAt s 0 3 1 = some ⟨0, 3, 1, 0, [], some (0x1000, 128), none⟩ ∧ 128 = wImage.length ∧
     s.lcy.approvals.find? (fun a => decide (a.fn = 3) && decide (a.slot = 1)) = some ⟨3, 1, 7, shake256 32 wImage⟩ ∧
     imageOk 3 1 ⟨3, 1, 7, shake256 32 wImage⟩ wImage = true ∧ imagePlace s 0 = some 0) := by decide +kernel

theorem keysRandomPrograms_witness_prun :
    let s := modTok 0 (fun t => { t with st := .core, desc := leBytes 2 0x2001 ++ zeroBytes 62 }) (wKeys [64])
    slotReady s 0 [64] ∧ (core s 0).tok = some 0 ∧ (core s 0).prog = false ∧ imageOf s 0 3 (dOpcode (tok s 0).desc % 256) = none ∧
    imageOf (modCpu (fun c => { c with images := [⟨0, 2, 3, 1, [], 0, false⟩] }) s) 0 3 (dOpcode (tok s 0).desc % 256) = some ⟨0, 2, 3, 1, [], 0, false⟩ := by
  decide +kernel

/-! ### DispatchAndWake -/

/-- Cluster 0 awake with core 0 in ASK; token 4 urgent of age 700, token 5 ready and critical at tick 0, token 6 urgent of age 900. -/
def wSlalom : State :=
  let t : Token := { Token.free with st := .urgent, func := 0, age := 700, desc := dRandom 0 0 }
  let s := { wAct with slm := { wAct.slm with
    clusters := .awake :: .waking :: List.replicate 14 .asleep, toks := [(4, t), (6, { t with age := 900 })] } }
  modCore 0 (fun c => { c with st := .ask }) s

/-- The same with token 5 ready and critical: its deadline lies inside MARGIN. -/
def wCritical : State := modTok 5 (fun t => { t with st := .ready, expire := some 49 }) wSlalom

theorem dispatchAndWake_witness_pick :
    (6, { Token.free with st := .urgent, func := 0, age := 900, desc := dRandom 0 0 }) ∈ eligibleToks wSlalom 0 ∧
    (∀ v ∈ eligibleToks wSlalom 0, isCritical wSlalom v.2 = false) ∧ dispatchPick wSlalom 0 = some 6 ∧
    (5, { Token.free with st := .ready, expire := some 49 }) ∈ eligibleToks wCritical 0 ∧
    isCritical wCritical { Token.free with st := .ready, expire := some 49 } = true ∧
    isCritical wCritical { Token.free with st := .ready, expire := some 50 } = false ∧ dispatchPick wCritical 0 = some 5 ∧
    wSlalom.pwr.main = true ∧ wSlalom.pwr.mode = .active ∧ wSlalom.dbg.pairFault = false ∧ coreFree wSlalom 0 = true ∧
    wSlalom.dbg.inj = none ∧ (checker wSlalom 0).shadow ≠ .loading := by decide +kernel

/-- One tick later a critical token waits with no core in ASK: cluster 2, the lowest asleep, is to be woken. -/
theorem dispatchAndWake_witness_needs :
    let s := modTime (fun t => { t with refCount := 100 }) (modCore 0 (fun c => { c with st := .run }) wCritical)
    s.pwr.main = true ∧ s.slm.lastWake ≠ tick s ∧ wakeNeeds s = [(5, { Token.free with st := .ready, expire := some 49 })] ∧
    (wakeOrder s { Token.free with st := .ready, expire := some 49 }).take ((1 + 7) / 8) = [2] := by decide +kernel

/-- One tick later no token is critical; cluster 1 is waking; with MIN_AWAKE 0 and idle since tick 0, cluster 0 may sleep at tick 100. -/
theorem dispatchAndWake_witness_clusters :
    (let s := modTime (fun t => { t with refCount := 100 }) wSlalom
     s.slm.lastWake ≠ tick s ∧ wakeNeeds s = [] ∧ s.slm.clusters[1]? = some .waking) ∧
    (let s := modTime (fun t => { t with refCount := 10000 }) (modSlm (fun m => { m with
       minAwake := 0, toks := [], idleSince := some 0 :: List.replicate 15 none }) wSlalom)
     maySleep s 0 = true) := by decide +kernel

/-! ### GateAndLift -/

theorem gateAndLift_witness_gate :
    let s := modTok 9 (fun t => { t with st := .core, desc := dRandom 0 0 })
      (modCore 0 (fun c => { c with st := .release 0 16, tok := some 9 }) (wCore [] [] []))
    (core s 0).st = .release 0 16 ∧ (core s 0).tok = some 9 ∧ s.pwr.main = true ∧ (core s 0).stores = [] ∧ reqsEnded s 0 = true ∧ s.dbg.inj = none ∧
    portBusy s 0 = false ∧ (core s 0).expired = false ∧ (core s 0).reset = false ∧ (core s 0).dropped = false ∧ (tok s 9).expire = none ∧
    (tok s 9).ordered = false ∧ (tok s 9).mirror = false ∧ s.slm.lift = [] := by decide +kernel

/-- A paced token due now; a token whose deadline's edge lies exactly 80 ns back; and waiting tokens at a scan, at every threshold. -/
theorem gateAndLift_witness_times :
    (let s := modSlm (fun m => { m with lift := [⟨.pace 9, 0, 0⟩] }) wAct
     s.slm.lift = [⟨.pace 9, 0, 0⟩] ∧ 0 ≤ tick s ∧ s.slm.retryWait = []) ∧
    (let s := modTime (fun t => { t with refCount := 508 }) (modTok 9 (fun t => { t with st := .ready, expire := some 5 }) wAct)
     (tok s 9).expire = some 5 ∧ 100 * 5 + 8 ≤ s.time.refCount ∧ (tok s 9).dispatched = false ∧ (tok s 9).ordered = false) ∧
    (let s := modTime (fun t => { t with refCount := 1600 }) (modTok 7 (fun t => { t with st := .ready, age := 10000 - 16 })
       (modTok 8 (fun t => { t with st := .ready, cage := 124 }) (modTok 9 (fun t => { t with st := .urgent }) wAct)))
     tick s % 16 = 0 ∧ s.slm.lastScan ≠ tick s ∧ toksOnce s ∧ (tok s 7).st = .ready ∧ 16 * s.slm.urgThresh ≤ ((tok s 7).age + 16) % 2 ^ 32 ∧
     (tok s 8).cls < 7 ∧ s.slm.ageThresh.getD (tok s 8).cls 0 ≤ min 65535 ((tok s 8).cage + 1) ∧ (tok s 9).st = .urgent) := by decide +kernel

/-! ### LiftQuotaWrite -/

/-- Registers open; words whose quotas sum to 256 and to 257, and one with RETRY of 0. -/
theorem liftQuotaWrite_witness :
    wAct.pwr.main = true ∧ wAct.hif.linkUp = true ∧ wAct.pwr.mode ≠ .guard ∧ wAct.pwr.mode ≠ .start ∧
    (254 * 2 ^ 18 + 2 ^ 9 + 1) / 2 ^ 18 % 2 ^ 9 + (254 * 2 ^ 18 + 2 ^ 9 + 1) / 2 ^ 9 % 2 ^ 9 + (254 * 2 ^ 18 + 2 ^ 9 + 1) % 2 ^ 9 = 256 ∧
    (255 * 2 ^ 18 + 2 ^ 9) % 2 ^ 9 = 0 := by decide

/-! ### MoverCommands -/

/-- Channel 48 with a queue at offset 0 whose first descriptor moves 16 bytes of shared scratch from 0x1000 to 0x2000 for the PF. -/
def wMover : State :=
  let b := leBytes 8 0x1000 ++ leBytes 8 0x2000 ++ leBytes 4 16 ++ leBytes 4 0x44242 ++ zeroBytes 8
  modMov (fun m => { m with shared := mwrite (mwrite [] 0 b) 0x1000 (leBytes 8 0x1122334455667788) }) wAct

/-- The same with the descriptor begun, in one burst of one beat, which is outstanding. -/
def wBeat : State :=
  modChan 48 (fun c => { c with cur := some (descAt wMover 0), head := 1, tail := 1, code := 15, asked := true }) wMover

theorem moverCommands_witness_queue :
    regsTake wMover ∧ chanFree (chan wMover 48) ∧ (chan wMover 48).head ≠ 1 % 4096 % 2 ^ (chan wMover 48).qlog2 ∧
    descOk (descAt wMover ((chan wMover 48).qbase + 32 * (chan wMover 48).head)) = true ∧ paneFresh wMover 48 (descAt wMover 0).func = false ∧
    (checker wMover (144 + 48)).shadow ≠ .loading ∧ wMover.kst.fetchRsv = false ∧
    ((chan wBeat 48).cur ≠ none ∧ (chan wBeat 48).asked = true) ∧
    (modKst (fun k => { k with fetchRsv := true }) wMover).kst.fetchRsv = true ∧ wMover.mov.ded.testBit 15 = false ∧
    descOk (descAt (modChan 48 (fun c => { c with qbase := 64 }) wMover) 64) = false ∧
    ((chan wMover 48).head + 1) % 2 ^ (chan wMover 48).qlog2 = 1 % 4096 % 2 ^ (chan wMover 48).qlog2 := by decide +kernel

theorem moverCommands_witness_control :
    (let s := modChan 48 (fun c => { c with halted := true }) wMover
     (chan s 48).halted = true ∧ (chan s 48).cur = none ∧ (chan s 48).reqs = [] ∧ (chan s 48).keyq = [] ∧ (chan s 48).head = (chan s 48).tail) ∧
    (let s := modChan 48 (fun c => { c with asked := false }) wBeat
     (chan s 48).cur = some (descAt wMover 0) ∧ (descAt wMover 0).statAt = some 24 ∧ (descAt wMover 0).port = none ∧
     (chan s 48).retryWait = false ∧ atBoundary (chan s 48) (descAt wMover 0) = true ∧
     atBoundary (chan wBeat 48) (descAt wMover 0) = false) ∧
    ((0x100 : Nat) / 2 ^ 8) % 128 ≠ 0 ∧ ¬ ((0x80FF : Nat) / 2 ^ 8) % 128 ≠ 0 := by decide +kernel

theorem moverCommands_witness_beats :
    lastBeat wBeat 48 (descAt wMover 0) 16 ∧ (chan wBeat 48).abort = false ∧ (chan wBeat 48).retries < wBeat.mov.retryCount ∧
    liftAdmits wBeat liftRetry wBeat.slm.qRetry = true ∧
    (let s := modChan 48 (fun c => { c with retries := 7 }) wBeat
     s.mov.retryCount ≤ (chan s 48).retries ∧ (chan s 48).reqs = []) ∧
    (let s := modChan 48 (fun c => { c with asked := false, got := 16, put := 16 }) wBeat
     (chan s 48).put = (descAt wMover 0).len ∧ burstEnd (chan s 48) (descAt wMover 0) = (descAt wMover 0).len ∧ (chan s 48).mir = none ∧
     (chan s 48).head = (chan s 48).tail ∧ (chan s 48).residue = 0) := by decide +kernel

/-- Stream bytes wait and port 0 routes to the partner with credit to spare. -/
theorem moverCommands_witness_reserve :
    let s := modPort8 0 (fun x => { x with cred := x.cred.modify 2 fun y => { y with held := 384 } })
      (modPort8 0 (fun x => { x with st := .up }) (modPhl (fun x => { x with valid := true, addr := 5, route := [(7, 0x8000)] })
        (modPar (fun q => { q with key := some (zeroBytes 32), addr := 7, txq := [(1, zeroBytes 16)] }) wAct)))
    (chan s 63).cur = none ∧ (chan s 63).mir = none ∧ (chan s 63).asked = false ∧ s.par.key ≠ none ∧ s.par.txq ≠ [] ∧ s.phl.valid = true ∧
    routePort s s.par.addr = some 0 ∧ fCredits (mirLen (txTake 240 s.par.txq).1) ≤ (credOf s 0 2).held ∧ (portOf s 0).cred.length = 4 ∧
    (modPhl (fun x => { x with valid := false }) s).phl.valid = false := by
  decide +kernel

/-! ### PaneCommands -/

/-- The PF holds host pages 0x10-0x1F; function 1 is selected with a staged region of one page at 0x20000, or at 0x1F000. -/
def wStage (base : Nat) : State :=
  modHif (fun h => { h with fnSel := 1, hrStage := ⟨base, 1, 0⟩ :: List.replicate 7 HostRegion.none })
    (modFn 0 (fun x => { x with regions := [⟨0x10000, 16, 0x4037⟩] }) wAct)

/-- Core 0 loads a pane of these regions. -/
def wPane (m : Nat) (rs : List HostRegion) : State :=
  modChecker m (fun c => { c with activeB := false, paneB := ⟨1, rs, 0⟩, shadow := .loading }) wAct

theorem paneCommands_witness_commit :
    regsTake (wStage 0x20000) ∧ (wStage 0x20000).hif.hrStage.length = 8 ∧
    commitOverlaps (wStage 0x20000) 1 (staged (wStage 0x20000) 0 0x4037) = false ∧
    (⟨0x10000, 16, 0x4037⟩ : HostRegion) ∈ (fnOf (wStage 0x1F000) 0).regions ∧
    regionsOverlap (staged (wStage 0x1F000) 0 0x4037) ⟨0x10000, 16, 0x4037⟩ = true := by decide +kernel

theorem paneCommands_witness_load :
    (checker (wPane 0 [⟨0, 1, 0x4037⟩]) 0).shadow = .loading ∧ (checker (wPane 0 [⟨0, 1, 0x4037⟩]) 0).oldCount = 0 ∧ paneFault (shadowPane (checker (wPane 0 [⟨0, 1, 0x4037⟩]) 0)).regions = none ∧
    (checker (wPane 144 [⟨0, 1, 0x4037⟩]) 144).shadow = .loading ∧
    paneFault (shadowPane (checker (wPane 144 [⟨0, 1, 0x4037⟩]) 144)).regions = none ∧
    (chan (modChan 0 (fun c => { c with halted := true }) (wPane 144 [⟨0, 1, 0x4037⟩])) 0).halted = true ∧
    paneFault (shadowPane (checker (wPane 143 [⟨0, 2, 0x4037⟩, ⟨0x1000, 1, 0x4037⟩]) 143)).regions = some (9, 0x1000, 5) ∧
    (core (wPane 143 []) 143).given = none ∧ (core (wPane 143 []) 143).late = none ∧ (wPane 143 []).mov.vios.length < 64 := by decide +kernel

theorem paneCommands_witness_vio :
    wAct.mov.vios = [] ∧ wAct.pwr.mode ≠ .guard ∧ wAct.hif.linkUp = true ∧
    (modMov (fun m => { m with vios := [⟨0x41A2B0000, 5, 4, 0x41, 0xFF, 1, 0xD4, true, 1, 128, 0x40⟩] }) wAct).mov.vios =
      [⟨0x41A2B0000, 5, 4, 0x41, 0xFF, 1, 0xD4, true, 1, 128, 0x40⟩] := by decide +kernel

/-! ### BlockLane -/

/-- Core 0 of function 3 holds handle 1 on a key at store index 5 with 2 uses reserved, and has one request of 16 bytes on lane 0. -/
def wBlock (alg op src dst pad len : Nat) (ops : List W128) (q : LanePort) : State :=
  let e : KEnt := keySeal [] 5
    ⟨3, 2, 0, 0, alg, 0x4430, 0x4E, 0x45, 0x3030, 0, none, 0xFFFFFFFF, 0, false, 0, zeroBytes 16, [], [], 0, false, [], [], 0⟩
  let r : LaneReq := ⟨0, 2, 1, op * 65536 + pad * 8192 + src * 2048 + dst * 512, 0x8000, 0x9000, len, 0, ops, false, none, false, 0, 0⟩
  modPort 0 0 (fun _ => q) (modLane 0 (fun l => { l with queue := [r] })
    (modKst (fun k => { k with keys := [(5, e)] }) (modCore 0 (fun c => { c with func := 3, pins := [⟨1, 5, 2⟩] }) (wCore [] [] []))))

/-- Its request. -/
def wReq (s : State) : LaneReq := (laneOf s 0).queue.getD 0 ⟨0, 0, 0, 0, 0, 0, 0, 0, [], false, none, false, 0, 0⟩

/-- Its key. -/
def wEnt (s : State) : KEnt := (keyAt s 5).getD ⟨3, 2, 0, 0, 0, 0, 0, 0, 0, 0, none, 0, 0, false, 0, [], [], [], 0, false, [], [], 0⟩

/-- A request of OP `op` on one stack block under a TDES key. -/
abbrev wStack (s : State) (op : Nat) : Prop :=
  blockRuns s 0 0 (wReq s) 8 5 (wEnt s) ∧ rOp (wReq s) = op ∧ oneBlock (wReq s) 8 (blkSize (algAes (wEnt s).alg)) ∧ 1 ≤ laneUses s (wReq s) ∧
  rDst (wReq s) = 0

theorem blockLane_witness_stack :
    wStack (wBlock 1 0 0 0 0 8 [7] LanePort.blank) 0 ∧ wStack (wBlock 1 1 0 0 0 8 [7] LanePort.blank) 1 ∧
    wStack (wBlock 1 2 0 0 0 8 [7] LanePort.blank) 2 := ⟨by decide +kernel, by decide +kernel, by decide +kernel⟩

theorem blockLane_witness_keystream :
    (let s := wBlock 3 4 0 0 0 16 [7, 8] LanePort.blank
     blockRuns s 0 0 (wReq s) 16 5 (wEnt s) ∧ rOp (wReq s) = 4 ∧ rSrc (wReq s) = 0 ∧ rPad (wReq s) = 0 ∧ rSub (wReq s) = 0 ∧ rDst (wReq s) = 0) :=
  by decide +kernel

theorem blockLane_witness_quarantine :
    (let s := wBlock 1 1 0 2 0 8 [7] LanePort.blank
     blockRuns s 0 0 (wReq s) 8 5 (wEnt s) ∧ oneBlock (wReq s) 8 (blkSize (algAes (wEnt s).alg)) ∧ rDst (wReq s) = 2 ∧ rFb (wReq s) = 0 ∧
     laneRefusal s (wReq s) none (some ((wReq s).aout, 8)) = none ∧ (quarBytes (lanePort s 0 0).quar).length + 8 ≤ 16384 ∧
     ((laneOf s 0).ports.map fun x => (quarBytes x.2.quar).length).sum + 8 ≤ 65536) := by decide +kernel

/-- Two blocks in core memory. -/
theorem blockLane_witness_memory :
    let s := wBlock 1 0 1 1 0 16 [] LanePort.blank
    blockRuns s 0 0 (wReq s) 16 5 (wEnt s) ∧ rOp (wReq s) = 0 ∧ rSrc (wReq s) = 1 ∧ rDst (wReq s) = 1 ∧ rXin (wReq s) = false ∧
    16 % blkSize (algAes (wEnt s).alg) = 0 ∧ laneRefusal s (wReq s) (some ((wReq s).ain, 16)) (some ((wReq s).aout, 16)) = none ∧
    16 / blkSize (algAes (wEnt s).alg) ≤ laneUses s (wReq s) := by decide +kernel

theorem blockLane_witness_mac :
    (let s := wBlock 3 5 0 0 0 16 [] LanePort.blank
     blockRuns s 0 0 (wReq s) 0 5 (wEnt s) ∧ rOp (wReq s) = 5 ∧ 1 ≤ laneUses s (wReq s)) := by decide +kernel

theorem blockLane_witness_ghash :
    (let s := wBlock 3 6 0 0 4 12 [7] { LanePort.blank with subkey := some (zeroBytes 16) }
     blockRuns s 0 0 (wReq s) 12 5 (wEnt s) ∧ rOp (wReq s) = 6 ∧ rSrc (wReq s) = 0 ∧ rPad (wReq s) = 4 ∧
     (lanePort s 0 0).subkey = some (zeroBytes 16)) ∧
    (let s := wBlock 3 8 0 0 0 16 [7] LanePort.blank
     blockRuns s 0 0 (wReq s) 16 5 (wEnt s) ∧ rOp (wReq s) = 8) := by decide +kernel

/-- The tag of a zero key, counter and accumulator is AES-128 of zero; 12 bytes wait in quarantine. -/
theorem blockLane_witness_compare :
    (let s := wBlock 3 7 0 0 0 4 [0, 0x66E94BD4EF8A2C3B884CFA59CA342B2E] { LanePort.blank with quar := [⟨0x9000, zeroBytes 12, 5⟩] }
     blockRuns s 0 0 (wReq s) 4 5 (wEnt s) ∧ rOp (wReq s) = 7 ∧ (lanePort s 0 0).quar = [⟨0x9000, zeroBytes 12, 5⟩] ∧
     (xorBytes (aesEnc (wEnt s).mat (reqCtr (wReq s))) (blkBytes (lanePort s 0 0).acc)).take 4 = (reqChain (wReq s)).take 4) ∧
    (let s := wBlock 3 7 0 0 0 4 [0, 0] LanePort.blank
     blockRuns s 0 0 (wReq s) 4 5 (wEnt s) ∧
     (xorBytes (aesEnc (wEnt s).mat (reqCtr (wReq s))) (blkBytes (lanePort s 0 0).acc)).take 4 ≠ (reqChain (wReq s)).take 4) := by decide +kernel

/-! ### HashLane -/

/-- Core 0 has one request on hash lane 16, in DEPLOYED; `ctxs` are the lane's contexts. -/
def wHash (key op ctx ain aout len olen : Nat) (ctxs : List (Nat × HashCtx)) : State :=
  let e : KEnt := keySeal [] 5
    ⟨3, 2, 0, 2, 11, 0x5330, 0x56, 0x45, 0x3030, 0, none, 0xFFFFFFFF, 0, false, 0, zeroBytes 64, [6, 7], [], 0, false, [], [], 0⟩
  let r : LaneReq := ⟨0, 2, key, op * 16777216 + ctx * 262144, ain, aout, len, olen, [], false, none, false, 0, 0⟩
  modLcy (fun l => { l with state := .deployed }) (modLane 16 (fun l => { l with queue := [r], ctxs := ctxs })
    (modKst (fun k => { k with keys := [(5, e)] }) (modCore 0 (fun c => { c with func := 3, pins := [⟨1, 5, 2⟩] }) (wCore [] [] []))))

/-- Its request. -/
def wHReq (s : State) : LaneReq := (laneOf s 16).queue.getD 0 ⟨0, 0, 0, 0, 0, 0, 0, 0, [], false, none, false, 0, 0⟩

theorem hashLane_witness_whole :
    let s := wHash 0 1 0 0x8000 0x9000 64 32 []
    laneRuns s 16 0 (wHReq s) ∧ bitsOf (wOp (wHReq s)) 5 0 = 1 ∧ wReserved (wHReq s) = false ∧ bitsOf (wOp (wHReq s)) 7 6 = 0 ∧
    hashOlenOk 1 32 = true ∧ laneRefusal s (wHReq s) (some (0x8000, 64)) (some (0x9000, 32)) = none := by decide +kernel

theorem hashLane_witness_phases :
    (let s := wHash 0 0x41 63 0x8000 0 64 0 []
     laneRuns s 16 0 (wHReq s) ∧ bitsOf (wOp (wHReq s)) 7 6 = 1 ∧ wCtx (wHReq s) = 63 ∧ ctxAt s 16 63 = none) ∧
    (let s := wHash 0 0x81 63 0x8000 0 64 0 [(63, ⟨0, 1, [1]⟩)]
     laneRuns s 16 0 (wHReq s) ∧ bitsOf (wOp (wHReq s)) 7 6 = 2 ∧ ctxAt s 16 63 = some ⟨0, 1, [1]⟩) ∧
    (let s := wHash 0 0xC1 63 0x8000 0x9000 64 32 [(63, ⟨0, 1, [1]⟩)]
     laneRuns s 16 0 (wHReq s) ∧ bitsOf (wOp (wHReq s)) 7 6 = 3 ∧ ctxAt s 16 63 = some ⟨0, 1, [1]⟩) ∧
    laneRefusal (wHash 0 0x41 63 0x8000 0 64 0 []) (wHReq (wHash 0 0x41 63 0x8000 0 64 0 [])) (some (0x8000, 64)) none = none := by decide +kernel

theorem hashLane_witness_sign :
    let s := wHash 3 0x10 0 0x10000000 0x20000000 64 49856 []
    laneRuns s 16 0 (wHReq s) ∧ bitsOf (wOp (wHReq s)) 5 0 = 0x10 ∧ wReserved (wHReq s) = false ∧ (wHReq s).olen = slhLen slh256f ∧ (core s 0).prog = false ∧
    (wHReq s).key ∈ [3, 4] ∧ (devSeed s 3).isSome = true ∧
    laneRefusal s (wHReq s) (some (0x10000000, 64)) (some (0x20000000, 49856)) = none := by decide +kernel

theorem hashLane_witness_verify :
    let s := wHash 1 0x11 0 0x20000000 0 49888 0 []
    laneRuns s 16 0 (wHReq s) ∧ bitsOf (wOp (wHReq s)) 5 0 = 0x11 ∧ slhLen slh256f < (wHReq s).len ∧ (laneKey s (wHReq s)).isSome = true ∧
    ((laneKey s (wHReq s)).map fun x => (keyBad s x.1 x.2, x.2.kind, x.2.mat.length)) = some (false, 2, 64) ∧ 1 ≤ laneUses s (wHReq s) ∧
    laneRefusal s (wHReq s) (some (0x20000000, 49888)) none = none := by decide +kernel

/-! ### AsymmetricLanes -/

/-- Core 0 has one request on lane `n` under a key of this kind, algorithm, usage, mode and material; `mem` lies at 0x20008000; every instance is
ready. -/
def wAsym (n kind alg usage mode : Nat) (mat mem : Bytes) (op len olen : Nat) : State :=
  let e : KEnt := keySeal [] 5
    ⟨3, 2, 0, kind, alg, usage, mode, 0x45, 0x3030, 0, none, 0xFFFFFFFF, 0, false, 0, mat, [6], [], 0, false, [], [], 0⟩
  let r : LaneReq := ⟨0, 2, 1, op * 16777216, 0x20008000, 0x20010000, len, olen, [], false, none, false, 0, 0⟩
  modMov (fun m => { m with shared := mwrite [] 0x8000 mem }) (modEnt (fun e => { e with
      drbgs := List.replicate 16 ⟨zeroBytes 32, zeroBytes 16, 0, true, false, false⟩ })
    (modLane n (fun l => { l with queue := [r] }) (modLanes (fun l => { l with keyOut := [(0, [5])] })
      (modKst (fun k => { k with keys := [(5, e)] }) (modCore 0 (fun c => { c with func := 3, pins := [⟨1, 5, 2⟩] }) (wCore [] [] []))))))

/-- Its request. -/
def wAReq (s : State) (n : Nat) : LaneReq := (laneOf s n).queue.getD 0 ⟨0, 0, 0, 0, 0, 0, 0, 0, [], false, none, false, 0, 0⟩
/-- Its key. -/
def wAKey (s : State) : KEnt := wEnt s

theorem asymmetricLanes_witness_rsa :
    (let s := wAsym 24 1 6 0x3053 0x53 (List.replicate 256 0xFF) [] 1 256 256
     (wAKey s).usage = chars2 'S' '0' ∧ (wAKey s).kind = 1 ∧ algRsa (wAKey s).alg = true ∧ (wAReq s 24).len = rsaLen (wAKey s).alg ∧
     beNat (laneInput s 0 0x20008000 256 []) < beAt (wAKey s).mat 0 (rsaLen (wAKey s).alg) ∧ keyedRuns s 24 0 1 (wAReq s 24) 5 (wAKey s) ∧
     laneRefusal s (wAReq s 24) (some (0x20008000, 256)) (some (0x20010000, 256)) = none) := by decide +kernel

theorem asymmetricLanes_witness_rsa_other :
    (let s := wAsym 24 1 6 0x324B 0x44 (List.replicate 256 0xFF) [] 1 256 0
     keyedRuns s 24 0 1 (wAReq s 24) 5 (wAKey s) ∧ (wAKey s).usage ≠ chars2 'S' '0' ∧ laneRefusal s (wAReq s 24) (some (0x20008000, 256)) none = none) ∧
    (let s := wAsym 27 2 6 0x3053 0x53 (List.replicate 260 0xFF) [] 2 256 256
     keyedRuns s 27 0 2 (wAReq s 27) 5 (wAKey s) ∧ (wAKey s).kind ≠ 0 ∧
     beNat (laneInput s 0 0x20008000 256 []) < beAt (wAKey s).mat 0 (rsaLen (wAKey s).alg)) := by decide +kernel

theorem asymmetricLanes_witness_ecdsa :
    (let s := wAsym 24 1 9 0x3053 0x53 (zeroBytes 96) [] 3 32 64
     algEcc (wAKey s).alg = true ∧ (wAKey s).usage = chars2 'S' '0' ∧ (wAReq s 24).olen = 2 * (curveOf (wAKey s).alg).len ∧ drawReady s 0 ∧
     laneRefusal s (wAReq s 24) (some (0x20008000, 32)) (some (0x20010000, 64)) = none ∧ keyedRuns s 24 0 3 (wAReq s 24) 5 (wAKey s) ∧
     ∀ j ∈ List.range 16, (drbgOf s j).count < 4095) ∧
    (let s := wAsym 24 2 9 0x3053 0x56 (zeroBytes 64) [] 4 96 0
     (wAReq s 24).len = 32 + 2 * (curveOf (wAKey s).alg).len ∧ keyedRuns s 24 0 4 (wAReq s 24) 5 (wAKey s) ∧
     laneRefusal s (wAReq s 24) (some (0x20008000, 96)) none = none) := by decide +kernel

/-- ECDH with the private key 1 and the base point of P-256, and with the point (0, 0). -/
theorem asymmetricLanes_witness_ecdh :
    (let s := wAsym 24 1 9 0x304B 0x58 (beBytes 32 1 ++ zeroBytes 64) (beBytes 32 p256.gx ++ beBytes 32 p256.gy) 5 64 0
     keyedRuns s 24 0 5 (wAReq s 24) 5 (wAKey s) ∧ laneRefusal s (wAReq s 24) (some (0x20008000, 64)) none = none ∧
     ecOn p256 (beAt (laneInput s 0 0x20008000 64 []) 0 32) (beAt (laneInput s 0 0x20008000 64 []) 32 32) = true ∧
     (ecMul p256 (beAt (wAKey s).mat 0 32) (some (beAt (laneInput s 0 0x20008000 64 []) 0 32,
       beAt (laneInput s 0 0x20008000 64 []) 32 32))).isSome = true) ∧
    (let s := wAsym 24 1 9 0x304B 0x58 (beBytes 32 1 ++ zeroBytes 64) [] 5 64 0
     keyedRuns s 24 0 5 (wAReq s 24) 5 (wAKey s) ∧
     ecOn p256 (beAt (laneInput s 0 0x20008000 64 []) 0 32) (beAt (laneInput s 0 0x20008000 64 []) 32 32) = false) := by decide +kernel

/-- Two odd numbers of 1,024 bits without a common factor stand for the primes of a draw. -/
theorem asymmetricLanes_witness_pairs :
    (let s := wAsym 25 0 0 0 0 [] [] 6 256 260
     laneRuns s 25 0 (wAReq s 25) ∧ wReserved (wAReq s 25) = false ∧ wOp (wAReq s 25) = 6 ∧ (core s 0).prog = false ∧
     laneRefusal s (wAReq s 25) none (some (0x20010000, 260)) = none ∧ (rsaMaterial 256 (2 ^ 1024 - 1) (2 ^ 1024 - 3) 65537).isSome = true) ∧
    (let s := wAsym 26 0 0 0 0 [] [] 7 32 64
     laneRuns s 26 0 (wAReq s 26) ∧ wOp (wAReq s 26) = 7 ∧ drawReady s 0 ∧ laneRefusal s (wAReq s 26) none (some (0x20010000, 64)) = none) := by decide +kernel

theorem asymmetricLanes_witness_kem :
    (let s := wAsym 28 0 0 0 0 [] [] 0x31 0 1568
     latRuns s 28 0 1 3 (wAReq s 28) ∧ (wAReq s 28).olen = kemEkLen 3 ∧ cerFree s ≠ none ∧ laneRefusal s (wAReq s 28) none (some (0x20010000, 1568)) = none ∧ drawReady s 0) := by decide +kernel

theorem asymmetricLanes_witness_encaps :
    (let s := wAsym 29 0 0 0 0 [] [] 0x22 1184 1088
     latRuns s 29 0 2 2 (wAReq s 29) ∧ (wAReq s 29).len = kemEkLen 2 ∧ (wAReq s 29).olen = kemCtLen 2 ∧ kemEkOk 2 (laneInput s 0 0x20008000 1184 []) = true ∧ drawReady s 0 ∧
     laneRefusal s (wAReq s 29) (some (0x20008000, 1184)) (some (0x20010000, 1088)) = none) := by decide +kernel

theorem asymmetricLanes_witness_decaps :
    (let s := modLane 29 (fun l => { l with queue := l.queue.map fun r => { r with key := 5 } }) (wAsym 29 1 15 0 0 (zeroBytes 1632) [] 0x13 768 0)
     latRuns s 29 0 3 1 (wAReq s 29) ∧ (wAReq s 29).len = kemCtLen 1 ∧ kemKey s (wAReq s 29) = some (zeroBytes 1632) ∧
     (zeroBytes 1632).length = 2 * kemEkLen 1 + 32 ∧
     laneRefusal s (wAReq s 29) (some (0x20008000, 768)) none = none) := by decide +kernel

/-! ### LaneEnds -/

theorem laneEnds_witness_complete :
    let s := modLane 0 (fun l => { l with queue := l.queue.map fun r => { r with done := some (0, [1]) } }) (wBlock 1 0 0 0 0 8 [7] LanePort.blank)
    (laneOf s 0).queue.find? (fun q => decide (q.core = 0)) = some (wReq s) ∧ (wReq s).done = some (0, [1]) ∧ (wReq s).lost = false := by decide +kernel

/-- A request left without result by an erase; and a request issued to a fenced lane. -/
theorem laneEnds_witness_lost :
    (let s := lanesErase (wBlock 1 0 0 0 0 8 [7] LanePort.blank)
     (laneOf s 0).queue.find? (fun q => decide (q.core = 0)) = some (wReq s) ∧ (wReq s).lost = true) ∧
    (let s := modLane 16 (fun l => { l with fenced := true }) (wCore [16, 0, 0x01000000, 8, 32, 0x8000, 0x8100] [] [])
     slotReady s 0 [16, 0, 0x01000000, 8, 32, 0x8000, 0x8100] ∧ (16 : W32).toNat < 24 ∧ (core s 0).prog = false ∧
     issueEntries 16 0x01000000 ≤ (core s 0).bs.length ∧ (core s 0).reqs.length < 32 ∧ (laneOf s 16).fenced = true ∧ laneFull s 16 = false) := by
  decide +kernel

/-- A twinned request on lane 0, and the same lane fenced. -/
theorem laneEnds_witness_fences :
    let s := modLane 0 (fun l => { l with queue := l.queue.map fun r => { r with twin := true } }) (wBlock 1 0 0 0 0 8 [7] LanePort.blank)
    lanePick s 0 = some 0 ∧ laneNext s 0 0 = some (wReq s) ∧ lanesOn s = true ∧ rOp (wReq s) = 0 ∧ (laneOf s 0).fenced = false ∧ (wReq s).twin = true ∧
    s.dbg.inj = none ∧ lanePartner s 0 = 1 ∧ (laneOf (modLane 0 (fun l => { l with fenced := true }) s) 0).fenced = true := by decide +kernel

theorem laneEnds_witness_spares :
    (let s := modLane 15 (fun l => { l with fenced := true }) wAct
     (laneOf s 15).fenced = true ∧ spareFor s 15 = some 16 ∧
     spareFor (modLanes (fun l => { l with blkFenced := 2 ^ 16 }) s) 15 = some 17) ∧
    (let s := modLane 16 (fun l => { l with fenced := true }) wAct
     (laneOf s 16).fenced = true ∧ spareFor s 16 = some 8) ∧
    (let s := modPwr (fun p => { p with hashAsleep := 0x80 }) (modLane 23 (fun l => { l with queue := [wHReq (wHash 0 1 0 0 0 0 0 [])] }) wAct)
     s.pwr.hashAsleep.testBit (23 - 16) = true ∧ (laneOf s 23).queue ≠ []) := by decide +kernel

/-! ### KeyMisses -/

/-- A miss at this stage. -/
def wAt (stage : MissStage) : Miss := ⟨9, 3, 2, 1, 0, stage, some 0, 0x41000, 272, none, none, [], [(0, 1)]⟩

/-- Function 3's key directory lies at 0x40000, its host region covers it, and core 0 waits in place for key 2 of generation 1. -/
def wMiss (stage : MissStage) : State :=
  let m : Miss := wAt stage
  let s := modCore 0 (fun c => { c with st := .kres }) (wKeys [])
  modFn 3 (fun x => { x with dirBase := 0x40000, regions := [⟨0x40000, 16, 0x4037⟩] }) (modKst (fun k => { k with keys := [], misses := [m] }) s)

/-- A directory entry: pointer 0x41000, this length, generation, kind and reserved byte. -/
def wDir (len gen kl : Nat) : Bytes := leBytes 8 0x41000 ++ leBytes 2 len ++ leBytes 1 gen ++ leBytes 1 kl ++ zeroBytes 4

/-- The same with a read of the miss out on channel 56. -/
def wAsked (stage : MissStage) : State := modChan 56 (fun c => { c with hwMiss := some 9 }) (wMiss stage)

theorem keyMisses_witness_start :
    (missAt (wMiss .wait) 9).map (fun m => (m.stage, m.index)) = some (.wait, 2) ∧ missTable (wMiss .wait) < 1024 ∧ (lmkOf (wMiss .wait) 3).loaded = true ∧
    hostRefusal (wMiss .wait) (keyChannel (wMiss .wait) 9) 3 (0x40000 + 16 * 2) 16 false = none ∧ (wMiss .wait).pwr.main = true ∧
    chanIdle (wMiss .wait) (fetchOn (wMiss .wait) 9) ∧ tagFree (wMiss .wait) (fetchOn (wMiss .wait) 9) = true ∧ (wMiss .wait).dbg.inj = none ∧
    (core (wMiss .wait) 0).st = .kres := by decide +kernel

/-- The read of a directory entry, or of a block, has ended; a miss that awaits the vault. -/
theorem keyMisses_witness_read :
    fetchEnds (wAsked .dir) (keyFree 56 true (wAsked .dir)) 9 56 (wAt .dir) ∧
    fetchEnds (wAsked .block) (keyFree 56 true (wAsked .block)) 9 56 (wAt .block) ∧
    fetchEnds (wAsked .block) (keyFree 56 false (wAsked .block)) 9 56 (wAt .block) ∧
    chanIdle (keyFree 56 true (wAsked .dir)) (fetchOn (keyFree 56 true (wAsked .dir)) 9) ∧
    tagFree (keyFree 56 true (wAsked .dir)) (fetchOn (keyFree 56 true (wAsked .dir)) 9) = true ∧
    fetchChan (wMiss .vault) 9 = none ∧ missLate (wMiss .vault) (wAt .vault) = false ∧ (wAsked .dir).dbg.inj = none ∧
    (wAsked .dir).pwr.main = true := by decide +kernel

/-- The least and the greatest block length and the first past each; another generation; another kind; a reserved bit. -/
theorem keyMisses_witness_dir :
    let m : Miss := wAt .dir
    missAt (wAsked .dir) 9 = some m ∧ dirGood m (wDir 16 1 0) ∧ dirGood m (wDir 2048 1 0) ∧ ¬ dirGood m (wDir 15 1 0) ∧ ¬ dirGood m (wDir 2049 1 0) ∧
    leAt (wDir 16 1 0) 10 1 = m.gen ∧ leAt (wDir 16 2 0) 10 1 ≠ m.gen ∧ leAt (wDir 16 1 1) 11 1 % 16 ≠ m.kind ∧ ¬ dirGood m (wDir 16 1 16) ∧
    hostRefusal (keyFree 56 true (wAsked .dir)) (keyChannel (keyFree 56 true (wAsked .dir)) 9) 3 0x41000 2048 false = none := by decide +kernel

/-- What an unwrapping answered: the slot whose set fails, or the length of the key's material. -/
def unwraps (x : Unwrap) : Option (Nat ⊕ Nat) :=
  match x with
  | .ok k _ => some (.inr k.mat.length)
  | .bad => none
  | .set n => some (.inl n)

theorem keyMisses_witness_block :
    unwraps (lmkUnwrap (keyFree 56 true (wAsked .block)) 3 2 1 0 (padTo 272 [])) = none ∧
    (wAsked .block).time.refCount + 100 ≤ 100 * (0 + (wAsked .block).kst.fetchTimeout) := by decide +kernel

/-- A TDES key waits to be installed for function 3 with a share of 4 entries. -/
theorem keyMisses_witness_install :
    let k : KEnt := ⟨3, 2, 1, 0, 1, 0x3050, 0x45, 0x45, 0x3030, 0, none, 0xFFFFFFFF, 0, false, 0, zeroBytes 16, [], [], 0, false, [], [], 0⟩
    let s := setShare 3 ⟨16, 1, 4, 1⟩ (modKst (fun x => { x with misses := x.misses.map fun m => { m with key := some k } }) (wMiss .install))
    ledgerOf s (keyIdent k.func k.alg k.mat) = none ∧ s.kst.keys = [] ∧ k.ledger = none ∧ fnEntries s 3 + 1 + extCount k.alg k.mat.length ≤ (shareOf s 3).keys ∧
    (missAt s 9).map (fun m => (m.stage, m.key, m.uses)) = some (.install, some k, none) := by decide +kernel

theorem keyMisses_witness_end :
    let s := modTime (fun t => { t with refCount := 100 * (0 + (wAsked .dir).kst.fetchTimeout) + 8 }) (wAsked .dir)
    (missAt s 9).map (fun m => (m.start, m.stage, m.toks, m.cores)) = some (some 0, .dir, [], [(0, 1)]) ∧
    100 * (0 + s.kst.fetchTimeout) + 8 ≤ s.time.refCount ∧ (core s 0).st = .kres := by decide +kernel

/-- The key block of a TDES PIN key of zeros under an LMK of zeros, generation 0. -/
def wDBlock : Bytes :=
  padTo 128 (ascii
    "D0128P0TE00E02000L080000PB080000C1F8944581B3611693D3793A547359671C1D02C2E722A6D4757D984F82F1A519EE6551507DB7ACC3E547CB93C313A6CC")

/-- It unwraps to a key of 16 bytes; with a failed entry in the LMK's set it names slot 0. -/
theorem keyMisses_witness_unwrap :
    unwraps (lmkUnwrap (keyFree 56 true (wAsked .block)) 3 2 1 0 wDBlock) = some (.inr 16) ∧
    unwraps (lmkUnwrap (keyFree 56 true (modLmkSlot 3 0 (fun x => { x with bad := true }) (wAsked .block))) 3 2 1 0 wDBlock) = some (.inl 0) :=
  ⟨by decide +kernel, by decide +kernel⟩

/-! ### KeyStoreCommands -/

/-- Function 3 awaits the blob of slot 0, of version 1. -/
def wVault : State :=
  let l : Lmk := ⟨{ LmkSlot.blank with occ := true, version := 1, wait := true }, LmkSlot.blank, false, 0⟩
  modKst (fun k => { k with lmks := [(3, l)], vaultKey := zeroBytes 32 }) (wMiss .vault)

theorem keyStoreCommands_witness_vault_bad :
    wVault.pwr.main = true ∧ (lmkSlot (lmkOf wVault 3) 0).wait = true ∧ vaultMisses wVault 3 ≠ [] ∧ leAt (zeroBytes 128) 0 2 ≠ 3 := by decide +kernel

/-- A directory base, the greatest size and the first past it; a pinned key and one that is not. -/
theorem keyStoreCommands_witness_dir :
    pageOpen (wKeys []) 3 = true ∧ (fnOf (wKeys []) 3).rst = none ∧ 1048576 % 2 ^ 21 ≤ 1048576 ∧ ¬ 1048577 % 2 ^ 21 ≤ 1048576 ∧
    ((wKeys []).kst.keys.map fun e => e.1).Nodup ∧ keyPinned (wKeys []) 5 = false ∧
    keyPinned (modCore 0 (fun c => { c with pins := [⟨1, 5, 0⟩] }) (wKeys [])) 5 = true := by decide +kernel

theorem keyStoreCommands_witness_rest :
    5 ∈ (laneOf (modLane 0 (fun l => { l with drops := [5], slots := [⟨4, 3, 1, []⟩, ⟨5, 3, 1, []⟩] }) wAct) 0).drops ∧ regsTake wAct ∧
    wAct.mov.ded / 256 % 128 = 0 ∧ (modMov (fun m => { m with ded := 0x100 }) wAct).mov.ded / 256 % 128 ≠ 0 ∧
    (fnOf (modTime (fun t => { t with refCount := 100000 }) wAct) 3).missStart < tick (modTime (fun t => { t with refCount := 100000 }) wAct) / 1000 * 1000 ∧
    (let s := modTime (fun t => { t with dev := some 120000000 }) (modKst (fun k => { k with ledger := [(4095, ⟨3, [], 7, 1⟩)] }) wAct)
     ledgerAt s 4095 = some ⟨3, [], 7, 1⟩ ∧ (1 : Nat) ≠ 0xFFFFFFFF ∧ s.time.dev = some 120000000 ∧ 60000000 * (1 + 1) ≤ 120000000 ∧ s.kst.keys = []) := by decide +kernel

/-! ### PinCommands -/

/-- A key of function 3 at directory index `n` of generation 0. -/
def pKey (n kind alg usage : Nat) (mode : Char) (mat : Bytes) : KEnt :=
  keySeal [] (n + 3) ⟨3, n, 0, kind, alg, usage, mode.toNat, 0x45, 0x3030, 0, none, 0xFFFFFFFF, 0, false, 0, mat, [], [], 0, false, [], [], 0⟩

/-- Core 0 runs firmware on a command of function 3 with this PARAM, keys at store indices from 5 up, named in its slots in order, 4,096 bytes
of output at 0x50000, and `n` bytes of input at 0x40000. -/
def wPay (op param : Nat) (ks : List KEnt) (n : Nat) : State :=
  let d := leBytes 2 op ++ zeroBytes 14 ++ joinBytes (ks.map fun k => leBytes 4 (k.kind * 2 ^ 28 + k.index)) ++ zeroBytes (4 * (3 - ks.length)) ++
    leBytes 4 n ++ leBytes 8 0x40000 ++ leBytes 8 0x50000 ++ leBytes 4 4096 ++ leBytes 4 param ++ zeroBytes 8
  let s := modEnt (fun e => { e with drbgs := List.replicate 16 ⟨zeroBytes 32, zeroBytes 16, 0, true, false, false⟩ }) (wKeys [])
  let s := modChecker 0 (fun c => { c with paneA := ⟨3, [⟨0x40000, 32, 0x4037⟩], 0⟩, paneB := ⟨3, [⟨0x40000, 32, 0x4037⟩], 0⟩ }) s
  modKst (fun k => { k with keys := ks.zipIdx.map fun x => (x.2 + 5, x.1) })
    (modTok 0 (fun t => { t with st := .core, func := 3, desc := d })
      (modCore 0 (fun c => { c with mem := mwrite [] 0xFF00 d, inList := if n = 0 then [] else [(0x40000, n)], outList := [(0x50000, 4096)] }) s))

/-- Its descriptor. -/
def wDesc (s : State) : Bytes := mread (core s 0).mem 0xFF00 64
/-- A PAN of 16 digits in its field. -/
def wPan : Bytes := [16] ++ ascii "4000001234567899" ++ zeroBytes 15
/-- A TDES key. -/
def wTdes : Bytes := (List.range 16).map fun i => BitVec.ofNat 8 (17 * i + 1)
/-- PIN keys and verification keys. -/
def wPinKeys (u : Nat) : List KEnt := [pKey 2 0 1 0x3050 'N' wTdes, pKey 3 0 1 u 'N' wTdes]

theorem pinCommands_witness_translate :
    let i := pinEncode 0 wTdes [1, 2, 3, 4] wPan [] ++ zeroBytes 8 ++ wPan
    let s := wPay 0x1001 0x00 (wPinKeys 0x3050) 48
    payStarts pinTranslate s 0 (wDesc s) i i ∧
    slotsHold s 0 (wDesc s) (pinTranslate.keys (wDesc s) i) [(5, pKey 2 0 1 0x3050 'N' wTdes), (6, pKey 3 0 1 0x3050 'N' wTdes)] = true ∧
    (core s 0).func = 3 ∧ fillDraw (outFmt (wDesc s)) 4 = 0 ∧ drawReady s 0 ∧
    pinDecode 0 wTdes (slice i 0 16) (slice i 16 32) = some [1, 2, 3, 4] ∧
    pinDecode 0 wTdes (zeroBytes 16) (slice i 16 32) = none ∧
    outputFits s 0 (pinEncode 0 wTdes [1, 2, 3, 4] wPan []) := by decide +kernel

/-- The natural PIN offset by its own digits from the PIN, and an offset one digit off. -/
theorem pinCommands_witness_offset :
    let nat := ((nibs (tdesEnc wTdes (zeroBytes 8))).map fun x => ([0, 1, 2, 3, 4, 5, 6, 7, 8, 9, 0, 1, 2, 3, 4, 5] : List Nat).getD x 0).take 4
    let off := (List.zip [1, 2, 3, 4] nat).map fun x => (x.1 + 10 - x.2) % 10
    let i := pinEncode 0 wTdes [1, 2, 3, 4] wPan [] ++ zeroBytes 8 ++ wPan ++ zeroBytes 8 ++ beBytes 8 0x0123456789012345 ++
      unnibs (off ++ List.replicate 8 15) ++ [4, 0]
    let s := wPay 0x1002 0x00 (wPinKeys 0x3156) 72
    payStarts pinVerifyOffset s 0 (wDesc s) i i ∧
    slotsHold s 0 (wDesc s) (pinVerifyOffset.keys (wDesc s) i) [(5, pKey 2 0 1 0x3050 'N' wTdes), (6, pKey 3 0 1 0x3156 'N' wTdes)] = true ∧
    leAt i 0x46 1 ≤ 4 ∧ offDigits (nibs (slice i 0x40 6)) = 4 ∧
    (expectedPin wTdes (slice i 0x30 8) (nibs (slice i 0x38 8)) (nibs (slice i 0x40 6)) 4).take (leAt i 0x46 1) = [1, 2, 3, 4] ∧
    (expectedPin wTdes (slice i 0x30 8) (nibs (slice i 0x38 8)) ((nibs (slice i 0x40 6)).map fun n => (n + 1) % 10) 4).take 4 ≠ [1, 2, 3, 4] := by
  decide +kernel

theorem pinCommands_witness_pvv :
    let v := asciiDigits (pvvOf wTdes wPan 1 [1, 2, 3, 4])
    let i := pinEncode 0 wTdes [1, 2, 3, 4] wPan [] ++ zeroBytes 8 ++ wPan ++ [1] ++ v ++ zeroBytes 3
    let s := wPay 0x1003 0x00 (wPinKeys 0x3256) 56
    payStarts pinVerifyPvv s 0 (wDesc s) i i ∧
    slotsHold s 0 (wDesc s) (pinVerifyPvv.keys (wDesc s) i) [(5, pKey 2 0 1 0x3050 'N' wTdes), (6, pKey 3 0 1 0x3256 'N' wTdes)] = true ∧
    pvvOf wTdes (slice i 16 32) (leAt i 0x30 1) [1, 2, 3, 4] = digitsOf (slice i 0x31 4) ∧
    pvvOf wTdes (slice i 16 32) 2 [1, 2, 3, 4] ≠ digitsOf (slice i 0x31 4) := by decide +kernel

/-! ### CardAndMacCommands -/

theorem cardAndMacCommands_witness_cvv :
    let i := wPan ++ ascii "2812101" ++ zeroBytes 9
    let s := wPay 0x1101 0x30 [pKey 2 0 1 0x3043 'N' wTdes] 48
    payStarts cvvGenerate s 0 (wDesc s) i i ∧ slotsHold s 0 (wDesc s) (cvvGenerate.keys (wDesc s) i) [(5, pKey 2 0 1 0x3043 'N' wTdes)] = true ∧
    outputFits s 0 (cvvDigitsOf (wDesc s) i (pKey 2 0 1 0x3043 'N' wTdes)) := by decide +kernel

/-- The right digits and, in an input of zero digits there, wrong ones. -/
theorem cardAndMacCommands_witness_cvv_verify :
    let s := wPay 0x1102 0x30 [pKey 2 0 1 0x3043 'N' wTdes] 48
    let v := cvvDigitsOf (wDesc s) (wPan ++ ascii "2812101" ++ zeroBytes 9) (pKey 2 0 1 0x3043 'N' wTdes)
    let i := wPan ++ ascii "2812101" ++ [0] ++ v ++ zeroBytes 5
    payStarts cvvVerify s 0 (wDesc s) i i ∧ slotsHold s 0 (wDesc s) (cvvVerify.keys (wDesc s) i) [(5, pKey 2 0 1 0x3043 'N' wTdes)] = true ∧
    slice i 0x28 3 = cvvDigitsOf (wDesc s) i (pKey 2 0 1 0x3043 'N' wTdes) ∧ dParam (wDesc s) / 16 % 16 = 3 ∧
    (let w := wPan ++ ascii "2812101" ++ [0] ++ ascii "000" ++ zeroBytes 5
     payStarts cvvVerify s 0 (wDesc s) w w ∧ slice w 0x28 3 ≠ cvvDigitsOf (wDesc s) w (pKey 2 0 1 0x3043 'N' wTdes)) := by decide +kernel

/-- A cryptogram over four bytes with a TDES key: right with a method 1 response, and wrong. -/
theorem cardAndMacCommands_witness_arqc :
    let k := pKey 2 0 1 0x3045 'N' wTdes
    let s := wPay 0x1201 0x01 [k] 68
    let h := fun (m : Bytes) => wPan ++ [1, 0, 0, 7] ++ m ++ zeroBytes 16 ++ leBytes 2 4 ++ zeroBytes 2 ++ [1, 2, 3, 4]
    let i := h (cardMac (wDesc s) (h (zeroBytes 8)) k)
    payStarts arqcVerify s 0 (wDesc s) i i ∧ slotsHold s 0 (wDesc s) (arqcVerify.keys (wDesc s) i) [(5, k)] = true ∧
    cardMac (wDesc s) i k = slice i 0x24 8 ∧ outputFits s 0 (cardResponse (wDesc s) i k) ∧
    payStarts arqcVerify s 0 (wDesc s) (h (zeroBytes 8)) (h (zeroBytes 8)) ∧ cardMac (wDesc s) (h (zeroBytes 8)) k ≠ zeroBytes 8 := by
  decide +kernel

/-- Algorithm 1 with padding 2 and a MAC of 4 bytes over one byte: generated, verified, and refused. -/
theorem cardAndMacCommands_witness_mac :
    let k := pKey 2 0 1 0x314D 'N' wTdes
    let s := wPay 0x1301 0x0421 [k] 1
    let v := wPay 0x1302 0x0421 [k] 17
    let i := macBytes (wDesc v) [7] k ++ zeroBytes 12 ++ [7]
    payStarts macGenerate s 0 (wDesc s) [7] [7] ∧ slotsHold s 0 (wDesc s) (macGenerate.keys (wDesc s) [7]) [(5, k)] = true ∧
    outputFits s 0 (macBytes (wDesc s) [7] k) ∧
    payStarts macVerify v 0 (wDesc v) i i ∧ slotsHold v 0 (wDesc v) (macVerify.keys (wDesc v) i) [(5, k)] = true ∧
    i.take 4 = macBytes (wDesc v) (i.drop 16) k ∧ dParam (wDesc v) / 256 % 32 = 4 ∧
    payStarts macVerify v 0 (wDesc v) (zeroBytes 16 ++ [7]) (zeroBytes 16 ++ [7]) ∧ zeroBytes 4 ≠ macBytes (wDesc v) [7] k := by decide +kernel

/-! ### DataCommands -/

/-- An AES-128 key. -/
def wAes : Bytes := (List.range 16).map fun i => BitVec.ofNat 8 (11 * i + 3)
/-- A TDES key serial number with transaction counter 1. -/
def wKsn : Bytes := beBytes 10 0xFFFF9876543210E00001 ++ zeroBytes 6

theorem dataCommands_witness_dukpt_pin :
    let b := pKey 2 0 1 0x3042 'X' wTdes
    let k := pKey 3 0 1 0x3050 'N' wTdes
    let s := wPay 0x1401 0x00 [b, k] 64
    let i0 := wKsn ++ zeroBytes 16 ++ wPan
    let i := wKsn ++ pinEncode 0 (txKey 0 false (wDesc s) i0 b) [1, 2, 3, 4] wPan [] ++ zeroBytes 8 ++ wPan
    payStarts dukptPinTranslate s 0 (wDesc s) i i ∧ slotsHold s 0 (wDesc s) (dukptPinTranslate.keys (wDesc s) i) [(5, b), (6, k)] = true ∧
    ksnOk false (i.take 16) = true ∧ fillDraw (outFmt (wDesc s)) 4 = 0 ∧
    pinDecode 0 (txKey 0 ((dParam (wDesc s)).testBit 10) (wDesc s) i b) (slice i 16 16) (slice i 32 32) = some [1, 2, 3, 4] ∧
    outputFits s 0 (pinEncode 0 wTdes [1, 2, 3, 4] wPan []) := by decide +kernel

/-- With ALG 5 and an AES key, the MAC does not depend on the free padding: right, wrong, and a counter of 0. -/
theorem dataCommands_witness_dukpt_mac :
    let b := pKey 2 0 3 0x3042 'X' wAes
    let s := wPay 0x1402 0x40005 [b] 33
    let n := beBytes 12 0x1234567890ABCDEF00000001 ++ zeroBytes 4
    let m := (macOf 5 1 3 (txKey 1 false (wDesc s) n b) [7]).take 4
    let i := n ++ m ++ zeroBytes 12 ++ [7]
    payStarts dukptMacVerify s 0 (wDesc s) i i ∧ ksnOk true (i.take 16) = true ∧ slice i 16 4 = m ∧ dkMacLen (wDesc s) = 4 ∧
    dParam (wDesc s) % 16 = 5 ∧ m ≠ zeroBytes 4 ∧ payStarts dukptMacVerify s 0 (wDesc s) (n ++ zeroBytes 16 ++ [7]) (n ++ zeroBytes 16 ++ [7]) ∧
    ksnOk true (zeroBytes 16) = false := by decide +kernel

theorem dataCommands_witness_dukpt_mac_key :
    let b := pKey 2 0 3 0x3042 'X' wAes
    let s := wPay 0x1402 0x40005 [b] 33
    (match resolve s 3 (dKey (wDesc s) 0) (symReq (tdesAlgs ++ aesAlgs) 'B' '0' ['X', 'N']) 0 with | .ok i => decide (i = 5) | _ => false) = true ∧
    dKey (wDesc s) 0 ≠ 0 ∧ keyAt s 5 = some b ∧ b.ledger = none ∧ (algAes b.alg = decide (macAlg (wDesc s) = 5)) := by decide +kernel

theorem dataCommands_witness_dukpt_decrypt :
    let b := pKey 2 0 1 0x3042 'X' wTdes
    let s := wPay 0x1403 0x00 [b] 40
    let i := wKsn ++ zeroBytes 24
    payStarts dukptDecrypt s 0 (wDesc s) i i ∧ slotsHold s 0 (wDesc s) (dukptDecrypt.keys (wDesc s) i) [(5, b)] = true ∧
    ksnOk false (i.take 16) = true ∧ (i.drop 32).length % 8 = 0 ∧ allZero (slice i 24 8) = true ∧ outputFits s 0 (zeroBytes 8) := by decide +kernel

/-- Sixteen decimal characters, none kept clear. -/
theorem dataCommands_witness_ff1 :
    let k := pKey 2 0 3 0x4630 'N' wAes
    let i := [16, 0, 0, 0] ++ ascii "4000001234567899"
    let s := wPay 0x1501 0x00 [k] 20
    let u := wPay 0x1502 0x00 [k] 20
    payStarts (ffCmd 0x1501 false) s 0 (wDesc s) i i ∧ slotsHold s 0 (wDesc s) ((ffCmd 0x1501 false).keys (wDesc s) i) [(5, k)] = true ∧
    payStarts (ffCmd 0x1502 true) u 0 (wDesc u) i i ∧ slotsHold u 0 (wDesc u) ((ffCmd 0x1502 true).keys (wDesc u) i) [(5, k)] = true ∧
    outputFits s 0 (zeroBytes 16) := by decide +kernel

theorem dataCommands_witness_ff1_length :
    let k := pKey 2 0 3 0x4630 'N' wAes
    let i := [16, 0, 0, 0] ++ ascii "4000001234567899"
    let s := wPay 0x1501 0x00 [k] 20
    outputFits s 0 (ffOutput false (wDesc s) i k) ∧ outputFits s 0 (ffOutput true (wDesc s) i k) := by decide +kernel

theorem dataCommands_witness_raw :
    let k := pKey 2 0 1 0x3044 'N' wTdes
    let s := wPay 0x1801 0x00 [k] 16
    payStarts rawBlock s 0 (wDesc s) (zeroBytes 16) (zeroBytes 16) ∧
    slotsHold s 0 (wDesc s) (rawBlock.keys (wDesc s) (zeroBytes 16)) [(5, k)] = true ∧ dSgIn (wDesc s) = false ∧ dSgOut (wDesc s) = false ∧
    lanePad 0 8 (zeroBytes 16) = some (zeroBytes 16) ∧ outputFits s 0 (zeroBytes 16) := by decide +kernel

theorem dataCommands_witness_random :
    let s := wPay 0x1901 16 [] 0
    payStarts randomGenerate s 0 (wDesc s) [] [] ∧ drawReady s 0 ∧ outputFits s 0 (zeroBytes 16) ∧ (drawn s 0 16).length = 16 := by decide +kernel

/-- TDES-CBC to TDES-CBC over 16 bytes; AES-GCM in and out over none, with the right tag and with zeros. -/
theorem dataCommands_witness_bulk :
    (let k := pKey 2 0 1 0x3044 'N' wTdes
     let k2 := pKey 3 0 1 0x3044 'N' wTdes
     let s := wPay 0x1701 0x33 [k, k2] 80
     let i := zeroBytes 0x34 ++ leBytes 8 16 ++ zeroBytes 20
     payStarts bulkReencrypt s 0 (wDesc s) i i ∧ slotsHold s 0 (wDesc s) (bulkReencrypt.keys (wDesc s) i) [(5, k), (6, k2)] = true ∧
     outputFits s 0 (zeroBytes 16) ∧ leAt i 0x34 8 + 0 ≤ bufLen (core s 0).outList) ∧
    (let k := pKey 2 0 3 0x3044 'N' wAes
     let k2 := pKey 3 0 3 0x3044 'N' wAes
     let s := wPay 0x1701 0x22 [k, k2] 64
     let i := zeroBytes 0x20 ++ gcmTag wAes (zeroBytes 12) [] [] ++ zeroBytes 16
     payStarts bulkReencrypt s 0 (wDesc s) i i ∧ slotsHold s 0 (wDesc s) (bulkReencrypt.keys (wDesc s) i) [(5, k), (6, k2)] = true ∧
     gcmTag wAes (slice i 0 12) (slice i 64 (leAt i 0x30 4)) (i.drop (64 + leAt i 0x30 4)) = slice i 0x20 16 ∧
     gcmTag wAes (zeroBytes 12) [] [] ≠ zeroBytes 16 ∧ payStarts bulkReencrypt s 0 (wDesc s) (zeroBytes 64) (zeroBytes 64) ∧
     payRefusal s 0 true (bufPieces (core s 0).outList 0 16) = none) := by decide +kernel

/-! ### KeyCommands -/

/-- A block of a TDES key under the same key as protection key, for exportability E. -/
def wBlockText : Bytes := ascii "B0096D0TN00E0000A9B95178F879F33B64572EFC50DEC7CDBE6D210C7E57C3887E4E2A5C76A103C683165C066A0211E8"
/-- It as a command's input. -/
def wBlockIn : Bytes := [96, 0, 0, 0] ++ wBlockText
/-- A key command's state: the recorder takes records. -/
def wKeyCmd (op param : Nat) (ks : List KEnt) (n : Nat) : State :=
  let s := wPay op param ks n
  { s with aud := { s.aud with next := 5, anchorDue := false } }
/-- A protection key. -/
def wProt (n : Nat) (mode : Char) (expo : Nat) : KEnt := keySeal [] (n + 3) { pKey n 0 1 0x314B mode wTdes with expo := expo }

/-- The LMK set of function 3. -/
def wLmk (s : State) : LmkSlot := (lmkSet s 3).getD LmkSlot.blank

theorem keyCommands_witness_import :
    let s := wKeyCmd 0x1601 0 [wProt 2 'D' 0x45] 100
    payStarts keyImport s 0 (wDesc s) wBlockIn wBlockIn ∧ recordRoom s ∧ drawReady s 0 ∧ logTakes s ∧ (core s 0).func = 3 ∧
    slotsHold s 0 (wDesc s) (keyImport.keys (wDesc s) wBlockIn) [(5, wProt 2 'D' 0x45)] = true ∧
    (k1Unwrap s 3 (wProt 2 'D' 0x45) (wBlockIn.drop 4)).isSome = true ∧ lmkCurrent s 3 = some (zeroBytes 32, 0) ∧
    k1Unwrap s 3 { wProt 2 'D' 0x45 with mat := zeroBytes 16 } (wBlockIn.drop 4) = none := by decide +kernel

theorem keyCommands_witness_import_fits :
    let s := wKeyCmd 0x1601 0 [wProt 2 'D' 0x45] 100
    lmkServes s 3 (wLmk s) ∧ kbPadLen 1 16 ≤ 4064 ∧ outputFits s 0 (lmkWrapped s 0 (pKey 0 0 1 0x3044 'N' wTdes) (wLmk s)) := by decide +kernel

theorem keyCommands_witness_export :
    let e1 := pKey 3 0 1 0x3044 'N' wTdes
    let s := wKeyCmd 0x1602 0x01 [wProt 2 'E' 0x45, e1] 0
    payStarts keyExport s 0 (wDesc s) [] [] ∧ recordRoom s ∧ drawReady s 0 ∧ logTakes s ∧
    slotsHold s 0 (wDesc s) (keyExport.keys (wDesc s) []) [(5, wProt 2 'E' 0x45), (6, e1)] = true ∧
    exportBad (wProt 2 'E' 0x45) e1 = false ∧ exportBad (wProt 2 'E' 0x45) { e1 with expo := 0x4E } = true ∧
    outputFits s 0 (wrapped s 0 e1 e1.carry 1 wTdes) := by decide +kernel

theorem keyCommands_witness_translate :
    let e0 := wProt 2 'D' 0x45
    let e1 := wProt 3 'E' 0x45
    let s := wKeyCmd 0x1603 0x01 [e0, e1] 100
    payStarts keyTranslate s 0 (wDesc s) wBlockIn wBlockIn ∧ recordRoom s ∧ drawReady s 0 ∧
    slotsHold s 0 (wDesc s) (keyTranslate.keys (wDesc s) wBlockIn) [(5, e0), (6, e1)] = true ∧
    ((k1Unwrap s 3 e0 (wBlockIn.drop 4)).map fun k => exportBad e1 k) = some false ∧ exportBad e1 (pKey 0 0 3 0x3044 'N' wAes) = true := by
  decide +kernel

theorem keyCommands_witness_generate :
    let i := leBytes 2 0x3044 ++ ascii "NE00" ++ [0, 0]
    let s := wKeyCmd 0x1604 0x03 [] 8
    payStarts keyGenerate s 0 (wDesc s) i i ∧ recordRoom s ∧ drawReady s 0 ∧ (drbgOf s (instOf 3)).count + 2 < 65536 ∧ dParam (wDesc s) = 3 ∧
    lmkNeed s 3 = 0 ∧ lmkServes s 3 (wLmk s) ∧ (∀ b ∈ slice i 4 2, 0x20 ≤ b.toNat ∧ b.toNat ≤ 0x7E) ∧ usageOk (leAt i 0 2) 3 (leAt i 2 1) 0 = true ∧ leAt i 3 1 = 'E'.toNat ∧
    payRefusal s 0 true (bufPieces (core s 0).outList 0 2048) = none := by decide +kernel

/-- Degenerate numbers that serve as an RSA key: the private operation is the identity. -/
def wRsa (n : Nat) (kind usage : Nat) (mode : Char) : KEnt :=
  let p := 2 ^ 1024 - 1
  let q := 2 ^ 1024 - 3
  pKey n kind 6 usage mode (beBytes 256 (p * q) ++ beBytes 4 1 ++
    if kind = 2 then [] else beBytes 128 p ++ beBytes 128 q ++ beBytes 128 1 ++ beBytes 128 1 ++ beBytes 128 (2 ^ 1023 - 1))
/-- A DER element. -/
def wTlv (t : Nat) (b : Bytes) : Bytes :=
  leBytes 1 t ++ (if b.length < 128 then leBytes 1 b.length else [0x82] ++ beBytes 2 b.length) ++ b
/-- A sequence of elements. -/
def wSeq (l : List Bytes) : Bytes := wTlv 0x30 (joinBytes l)
/-- An AlgorithmIdentifier of SHA-256. -/
def wSha : Bytes := wSeq [wTlv 6 oidSha256]
/-- A signed attribute. -/
def wAttr (o v : Bytes) : Bytes := wSeq [wTlv 6 o, wTlv 0x31 v]
/-- The attribute header of a TDES key. -/
def wHead : Bytes := ascii "D0016D0TN00E0000"
/-- The clear content of a token: key and header. -/
def wInner : Bytes := wSeq [wTlv 2 [1], wSeq [], wTlv 4 wTdes, wSeq [wTlv 6 (oidPkcs7 1), wTlv 0x31 (wTlv 4 wHead)]]
/-- The content key, as OAEP wraps it below. -/
def wCek : Bytes := (List.range 16).map (BitVec.ofNat 8)
/-- The encrypted content, in AES-128-CBC with an initial vector of zeros and PKCS #7 padding. -/
def wContent : Bytes :=
  let n := 16 - wInner.length % 16
  cbcEnc true wCek (zeroBytes 16) (wInner ++ List.replicate n (BitVec.ofNat 8 n))
/-- The EnvelopedData. -/
def wEnvelope : Bytes :=
  wSeq [wTlv 2 [0],
    wTlv 0x31 (wSeq [wTlv 2 [0], wSeq [], wSeq [wTlv 6 (oidPkcs1 7), wSeq [wTlv 0xA0 wSha, wTlv 0xA1 (wSeq [wTlv 6 oidMgf1, wSha])]],
      wTlv 4 (beBytes 256 0x007D56EBD45814042CC2843C9227551C518C9FC626942AF7D9988D5EF0EFCEC2F88E069B97072F4AE2E86AB49F8234744F94167576C5F588BC071DDD59846E325B2158A8906D5E2C2BE001BAC943AB9CAB4063536E1C546B40221FDF8DB031A4BBE15F374423633701E04FE17C1D640B34F2E27B8F6AEC00E24F1DCF50AD0920B3B4E3C4FA0D93FD8ADB0E88D71F4614D018149A59F6A5ADBFBA1BD000D0E7C49AD584CE97EECE608FE0ED7F493162A4A9CBFCCD935DA0F8C3816090661597ACEB554A67CA9F52A771D26B79BB0B58882C94FB37DA5F1CCEACBCED4372168523F4A8482BA3887A4ABA03DAD0440851E8DE86BA007F7B8B3030A9590AFD7B4DC5)]),
    wSeq [wTlv 6 (oidPkcs7 1), wSeq [wTlv 6 [0x60, 0x86, 0x48, 0x01, 0x65, 0x03, 0x04, 0x01, 2], wTlv 4 (zeroBytes 16)], wTlv 0x80 wContent]]
/-- The signed attributes, of 1 January 1970, 00:00:01. -/
def wSigned : Bytes :=
  joinBytes [wAttr (oidPkcs9 3) (wTlv 6 (oidPkcs7 3)), wAttr (oidPkcs9 4) (wTlv 4 (sha256 wEnvelope)),
    wAttr (oidPkcs9 5) (wTlv 0x18 (ascii "19700101000001Z")), wAttr (oidPkcs7 1) (wTlv 4 wHead)]
/-- A one-pass token with this signature. -/
def wTokenBytes (sig : Bytes) : Bytes :=
  wSeq [wTlv 6 (oidPkcs7 2), wTlv 0xA0 (wSeq [wTlv 2 [1], wTlv 0x31 wSha, wSeq [wTlv 6 (oidPkcs7 3), wTlv 0xA0 (wTlv 4 wEnvelope)],
    wTlv 0x31 (wSeq [wTlv 2 [1], wSeq [], wSha, wTlv 0xA0 wSigned, wSeq [wTlv 6 (oidPkcs1 1)], wTlv 4 sig])])]

/-- The token with the signature of an RSA key whose private operation is the identity. -/
def wGood : Bytes := wTokenBytes (pkcs1Pad 256 (wTlv 0x31 wSigned))
/-- A token as it is read. -/
def wTok (b : Bytes) : Tr34 := (tokenParse b).getD ⟨0, 0, [], [], [], [], [], false, []⟩
/-- A token as the command's input. -/
def wTokIn (b : Bytes) : Bytes := leBytes 2 b.length ++ [0, 0] ++ b
/-- A TR34_IMPORT of 959 bytes, at device time 1 s. -/
def wTr34 : State :=
  let s := wKeyCmd 0x1605 0 [wRsa 2 1 0x324B 'D', wRsa 3 2 0x3053 'V'] 959
  { s with time := { s.time with dev := some 1000000 } }

theorem keyCommands_witness_token :
    payStarts tr34Import wTr34 0 (wDesc wTr34) (wTokIn wGood) (wTokIn wGood) ∧ recordRoom wTr34 ∧ drawReady wTr34 0 ∧
    slotsHold wTr34 0 (wDesc wTr34) (tr34Import.keys (wDesc wTr34) (wTokIn wGood)) [(5, wRsa 2 1 0x324B 'D'), (6, wRsa 3 2 0x3053 'V')] = true := by
  decide +kernel

theorem wGood_parsed : tokenParse ((wTokIn wGood).drop 4) = some (wTok wGood) := by decide +kernel
theorem wGood_key : (tr34Cek (wRsa 2 1 0x324B 'D') (wTok wGood)).bind (tokenKey (wTok wGood)) = some (wTdes, wHead) := by decide +kernel

/-- The token opens to the key it carries. -/
theorem keyCommands_witness_token_opens :
    ∃ k, tokenOpens wTr34 3 (wRsa 2 1 0x324B 'D') (wTokIn wGood) 1000000 (wTok wGood) k := by
  have h : (tr34Ent wTr34 3 (wTok wGood) wTdes wHead).isSome = true := by decide +kernel
  obtain ⟨k, hk⟩ := Option.isSome_iff_exists.mp h
  exact ⟨k, wGood_parsed, by decide +kernel, by decide +kernel, wTdes, wHead, wGood_key, hk⟩

/-- Its signature, and a signature of zeros. -/
theorem keyCommands_witness_token_signature :
    (wTok wGood).digest = true ∧ pkcs1Verify 6 (wRsa 3 2 0x3053 'V').mat (wTok wGood).signed (wTok wGood).sig = true ∧
    pkcs1Verify 6 (wRsa 3 2 0x3053 'V').mat (wTok wGood).signed (wTok (wTokenBytes (zeroBytes 256))).sig = false := by decide +kernel

theorem keyCommands_witness_custom :
    let s := modTok 0 (fun t => { t with desc := leBytes 2 0x2001 ++ zeroBytes 62 }) (wPay 0x2001 0 [] 0)
    let s := modCore 0 (fun c => { c with mem := mwrite c.mem 0xFF00 (tok s 0).desc }) s
    payReady 0x2001 s 0 = true ∧ payHalt s 0 = false ∧ (core s 0).kstat = none ∧
    injWaits (modCore 0 (fun c => { c with fault := 0x010A }) s) 0x08 0 = false ∧ (∀ a ∈ s.lcy.approvals, ¬ (a.fn = 3 ∧ a.slot = 1)) ∧ paySg (mread (core s 0).mem 0xFF00 64) = false ∧ (core s 0).tok = some 0 ∧ dOpcode (tok s 0).desc = 0x2001 ∧
    (core s 0).rs = [] ∧ imageOf s 0 3 1 = none ∧
    imageOf (modCpu (fun c => { c with images := [⟨0, 2, 3, 1, [], 0, false⟩] }) s) 0 3 1 = some ⟨0, 2, 3, 1, [], 0, false⟩ := by decide +kernel

/-! ### ManagerCommands -/

/-- A seed of a signing key. -/
def wSeed (n : Nat) : Bytes := List.replicate 96 (BitVec.ofNat 8 n)
/-- An enrolled officer of a role. -/
def wOfficer (role n : Nat) : Officer := ⟨1, role, 0, zeroBytes 16, slhPk slh256s (wSeed n)⟩
/-- A management command of the PF on core 0 with an input of `n` bytes: custody officers 0 to 2, an audit officer 16, challenge slot 3 live. -/
def wMgmt (op param n outLen : Nat) : State :=
  let s := wPay op param [] n
  let d := leBytes 2 op ++ zeroBytes 26 ++ leBytes 4 n ++ leBytes 8 0x40000 ++ leBytes 8 0x50000 ++ leBytes 4 outLen ++ leBytes 4 param ++ zeroBytes 8
  let s := modChecker 0 (fun c => { c with paneA := { c.paneA with func := 0 }, paneB := { c.paneB with func := 0 } }) s
  let s := modTok 0 (fun t => { t with func := 0, desc := d }) (modCore 0 (fun c => { c with
    func := 0, mem := mwrite [] 0xFF00 d, outList := if outLen = 0 then [] else [(0x50000, outLen)] }) s)
  { s with
    aud := { s.aud with next := 5, anchorDue := false }
    tmp := { s.tmp with mons := (List.range 19).map Monitor.fresh }
    lcy := { s.lcy with
      state := .deployed
      officers := [wOfficer 1 0, wOfficer 1 1, wOfficer 1 2] ++ List.replicate 13 Officer.empty ++ [wOfficer 2 16] ++ List.replicate 3 Officer.empty
      rom := [[], slhPk slh256s (wSeed 50)]
      chals := List.replicate 3 Chal.empty ++ [⟨1, zeroBytes 32, 0⟩] ++ List.replicate 12 Chal.empty } }
/-- The approvals of these signers. -/
def wAppr (s : State) (d body : Bytes) (xs : List (Signer × Nat × Bytes)) : List Bytes :=
  xs.map fun x => goodAppr s.lcy.ident 3 (zeroBytes 32) (cmdDigest d body) x.2.1 x.2.2

/-- A command starts with the approvals of these signers, and they are good. -/
theorem mgmt_good (c : MgmtCmd) (s : State) (p : Nat) (d body : Bytes) (xs : List (Signer × Nat × Bytes))
    (h : payReady c.op s p = true ∧ (core s p).func = 0 ∧ serialWait c.op p s = false ∧ recStall s = false ∧ (recBlocked s = false ∧ s.aud.buf.length < 60) ∧
      ((core s p).kstat.filter fun st => decide (st ≠ 0x0206)) = none ∧ d = mread (core s p).mem 0xFF00 64 ∧ mgmtStatic c d s = 0 ∧
      payRefusal s p false (core s p).inList = none ∧ bufLen (core s p).inList = body.length + 29856 * (c.signers s []).length ∧
      c.bodyLen.all (fun k => decide (body.length = k)) = true ∧ c.bodyOk body = true ∧ c.outBody body ≤ dOutLen d ∧
      payHalt s p = false ∧ s.dbg.inj = none ∧ (kemOps.contains c.op = true → (laneTaker s 28).isSome = true))
    (hn : (c.signers s []).length = xs.length) (hg : c.signers s body = xs.map fun x => x.1)
    (hk : ∀ x ∈ xs, x.2.1 < 256 ∧ signerKey s x.1 x.2.1 = some (slhPk slh256s x.2.2))
    (hd : allDistinct ((xs.filter fun x => isCustody x.1).map fun x => x.2.1) = true)
    (hs : slotCheck s (acceptTick s p) (xs.map fun _ => 3) = (0, zeroBytes 32)) :
    mgmtStarts c s p d body (wAppr s d body xs) (body ++ joinBytes (wAppr s d body xs)) ∧ approval c s p d body (wAppr s d body xs) = 0 := by
  have h32 : (cmdDigest d body).length = 32 := length_shake256 _
  refine ⟨⟨h, rfl, by rw [hn, wAppr, List.length_map], ?_⟩, ?_⟩
  · intro a ha
    obtain ⟨x, -, rfl⟩ := List.mem_map.1 ha
    exact goodAppr_length _ _ _ _ _ _ h32
  · rw [approval, hg]
    exact apprCheck_good s _ xs 3 _ _ h32 (by decide) hk hd hs

/-- Keys that begin with other public seeds differ. -/
theorem pk_ne (a b : Nat) (h : slice (wSeed a) 64 32 ≠ slice (wSeed b) 64 32) : slhPk slh256s (wSeed a) ≠ slhPk slh256s (wSeed b) := by
  intro e
  have e2 := congrArg (fun x => x.take 32) e
  simp only [slhPk_seed] at e2
  exact h e2

theorem two (s : State) {g0 g1 : Signer} {i0 i1 : Nat} {e0 e1 : Bytes} (h0 : signerKey s g0 i0 = some (slhPk slh256s e0))
    (h1 : signerKey s g1 i1 = some (slhPk slh256s e1)) (b0 : i0 < 256 := by decide) (b1 : i1 < 256 := by decide) :
    ∀ x ∈ [(g0, i0, e0), (g1, i1, e1)], x.2.1 < 256 ∧ signerKey s x.1 x.2.1 = some (slhPk slh256s x.2.2) := by
  simp only [List.forall_mem_cons, List.not_mem_nil, false_implies, implies_true, and_true]
  exact ⟨⟨b0, h0⟩, b1, h1⟩

/-- The body that enrols key 7 as custody officer 3. -/
def wEnrol : Bytes := [3, 1] ++ (zeroBytes 22 ++ (slhPk slh256s (wSeed 7) ++ []))
theorem wEnrol_length : wEnrol.length = 88 := by
  simp only [wEnrol, List.length_append, length_slhPk]; rfl
theorem wEnrol_pk : slice wEnrol 0x18 64 = slhPk slh256s (wSeed 7) := by
  rw [wEnrol, ← List.append_assoc]
  exact slice_at _ _ _ _ _ rfl (length_slhPk _ _)
theorem wEnrol_index : leAt wEnrol 0 1 = 3 := leAt_head ([1] ++ (zeroBytes 22 ++ (slhPk slh256s (wSeed 7) ++ []))) 1 3
theorem wEnrol_role : leAt wEnrol 1 1 = 1 := leAt_at [3] (zeroBytes 22 ++ (slhPk slh256s (wSeed 7) ++ [])) 1 1 1 rfl
theorem wEnrol_reserved : allZero (slice wEnrol 2 6) = true := by
  have : slice wEnrol 2 6 = zeroBytes 6 :=
    slice_at [3, 1] (zeroBytes 6) (zeroBytes 16 ++ (slhPk slh256s (wSeed 7) ++ [])) 2 6 rfl rfl
  rw [this]; decide

theorem managerCommands_witness_revoke :
    let s := wMgmt 0x3002 0 59720 0
    let d := wDesc s
    let body : Bytes := [2, 0, 0, 0, 0, 0, 0, 0]
    let as := wAppr s d body [(.custody (some 2), 0, wSeed 0), (.custody (some 2), 1, wSeed 1)]
    mgmtStarts officerRevoke s 0 d body as (body ++ joinBytes as) ∧ approval officerRevoke s 0 d body as = 0 :=
  mgmt_good officerRevoke _ 0 _ _ _ (by decide +kernel) rfl rfl (two _ rfl rfl) (by decide) (by decide +kernel)

theorem managerCommands_witness_revoke_cases :
    let s := wMgmt 0x3002 0 59720 0
    ((officerAt s 2).state ≠ 0 ∧ 2 ≤ custodians (s.lcy.officers.set 2 Officer.empty)) ∧ (officerAt s 5).state = 0 ∧ logTakes s := by decide +kernel

theorem managerCommands_witness_enrol :
    let s := wMgmt 0x3001 0 (88 + 89568) 0
    let d := wDesc s
    let as := wAppr s d wEnrol [(.custody none, 0, wSeed 0), (.custody none, 1, wSeed 1), (.member 3 (slhPk slh256s (wSeed 7)), 3, wSeed 7)]
    mgmtStarts officerEnrol s 0 d wEnrol as (wEnrol ++ joinBytes as) ∧ approval officerEnrol s 0 d wEnrol as = 0 := by
  refine mgmt_good officerEnrol _ 0 _ _ _ ?_ rfl ?_ ?_ (by decide) (by decide +kernel)
  · refine ⟨by decide +kernel, by decide +kernel, by decide +kernel, by decide +kernel, by decide +kernel, by decide +kernel, rfl, by decide +kernel,
      by decide +kernel, ?_, ?_, ?_, by decide +kernel⟩
    · rw [wEnrol_length]; decide +kernel
    · simp only [officerEnrol, wEnrol_length]; decide
    · exact wEnrol_reserved
  · simp only [officerEnrol, List.map_cons, List.map_nil, wEnrol_index, wEnrol_pk]
  · simp only [List.forall_mem_cons, List.not_mem_nil, false_implies, implies_true, and_true]
    exact ⟨⟨by decide, rfl⟩, ⟨by decide, rfl⟩, by decide, rfl⟩

/-- Entry 3 is empty and no officer has the key; entry 0 is taken. -/
theorem managerCommands_witness_enrol_cases :
    (officerAt (wMgmt 0x3001 0 (88 + 89568) 0) (leAt wEnrol 0 1)).state = 0 ∧ leAt wEnrol 1 1 = 1 ∧ leAt wEnrol 0 1 < 16 ∧
    (∀ o ∈ (wMgmt 0x3001 0 (88 + 89568) 0).lcy.officers, o.state = 1 → o.pk ≠ slice wEnrol 0x18 64) ∧
    (officerAt (wMgmt 0x3001 0 (88 + 89568) 0) 0).state ≠ 0 := by
  refine ⟨by rw [wEnrol_index]; decide +kernel, wEnrol_role, by rw [wEnrol_index]; decide, ?_, by decide +kernel⟩
  rw [wEnrol_pk]
  intro o ho h1
  have : o ∈ [wOfficer 1 0, wOfficer 1 1, wOfficer 1 2] ++ List.replicate 13 Officer.empty ++ [wOfficer 2 16] ++ List.replicate 3 Officer.empty := ho
  simp only [List.mem_append, List.mem_cons, List.not_mem_nil, or_false, List.mem_replicate] at this
  rcases this with (((rfl | rfl | rfl) | ⟨-, rfl⟩) | rfl) | ⟨-, rfl⟩
  · exact pk_ne 0 7 (by decide)
  · exact pk_ne 1 7 (by decide)
  · exact pk_ne 2 7 (by decide)
  · exact absurd h1 (by decide)
  · exact pk_ne 16 7 (by decide)
  · exact absurd h1 (by decide)

theorem managerCommands_witness_class :
    let s := wMgmt 0x3201 (2 + 256 * 1 + 4096 * 2) 59712 0
    let d := wDesc s
    let as := wAppr s d [] [(.custody none, 0, wSeed 0), (.custody none, 1, wSeed 1)]
    mgmtStarts tamperSetClass s 0 d [] as ([] ++ joinBytes as) ∧ approval tamperSetClass s 0 d [] as = 0 :=
  mgmt_good tamperSetClass _ 0 _ _ _ (by decide +kernel) rfl rfl (two _ rfl rfl) (by decide) (by decide +kernel)

/-- A device in PROVISIONED whose provisioning root signs; ENC_USE burned or not. -/
def wBurn (burned : Bool) : State :=
  let s := wMgmt 0x3202 0x0F 29856 0
  { s with lcy := { s.lcy with state := .provisioned }, tmp := { s.tmp with encBurned := burned } }
theorem managerCommands_witness_burn (b : Bool) :
    let s := wBurn b
    let d := wDesc s
    let as := wAppr s d [] [(.prov, 0xFE, wSeed 50)]
    mgmtStarts tamperEncBurn s 0 d [] as ([] ++ joinBytes as) ∧ approval tamperEncBurn s 0 d [] as = 0 ∧ s.tmp.encBurned = b := by
  refine (fun h => ⟨h.1, h.2, rfl⟩) (mgmt_good tamperEncBurn _ 0 _ _ _ ?_ rfl rfl ?_ (by decide) ?_)
  · cases b <;> decide +kernel
  · simp only [List.forall_mem_cons, List.not_mem_nil, false_implies, implies_true, and_true]
    exact ⟨by decide, rfl⟩
  · cases b <;> decide +kernel

/-- Device time 500, set to 1,000 or back to 100. -/
def wEpoch : State :=
  let s := wMgmt 0x3501 0 59720 0
  { s with time := { s.time with dev := some 500 } }
theorem managerCommands_witness_epoch (v : Nat) (hv : v < 2 ^ 64) :
    let s := wEpoch
    let d := wDesc s
    let as := wAppr s d (leBytes 8 v) [(.custody none, 0, wSeed 0), (.custody none, 1, wSeed 1)]
    mgmtStarts epochSet s 0 d (leBytes 8 v) as (leBytes 8 v ++ joinBytes as) ∧ approval epochSet s 0 d (leBytes 8 v) as = 0 ∧
    leAt (leBytes 8 v) 0 8 = v ∧ s.time.dev = some 500 := by
  have hl := length_leBytes 8 v
  have hv' : leAt (leBytes 8 v) 0 8 = v := by
    have := leAt_head [] 8 v
    rw [List.append_nil] at this
    rw [this]; exact Nat.mod_eq_of_lt hv
  refine (fun h => ⟨h.1, h.2, hv', rfl⟩) (mgmt_good epochSet _ 0 _ _ _ ?_ rfl rfl (two _ rfl rfl) (by decide) (by decide +kernel))
  refine ⟨by decide +kernel, by decide +kernel, by decide +kernel, by decide +kernel, by decide +kernel, by decide +kernel, rfl, by decide +kernel,
    by decide +kernel, ?_, ?_, rfl, Nat.zero_le _, by decide +kernel, rfl, by decide +kernel⟩
  · rw [hl]; decide +kernel
  · simp only [epochSet, hl]; decide

/-- With an output buffer of `n` bytes, in a region that holds them. -/
def wRoom (n : Nat) (s : State) : State :=
  modChecker 0 (fun c => { c with paneA := ⟨0, [⟨0x40000, n + 17, 0x4037⟩], 0⟩, paneB := ⟨0, [⟨0x40000, n + 17, 0x4037⟩], 0⟩ })
    (modCore 0 (fun c => { c with outList := [(0x50000, n)] }) s)
/-- An attestation with room for `n` bytes of output. -/
def wAttest (n : Nat) : State := wRoom n (wMgmt 0x3005 0 32 0)

theorem region_holds (n a l : Nat) (w : Bool) (ha : 0x40000 ≤ a) (hl : 0 < l) (he : a + l ≤ 0x40000 + 4096 * (n + 17)) :
    firstForbidden [⟨0x40000, n + 17, 0x4037⟩] false w (a + l) 2 a = none := by
  have g : regionHost ⟨0x40000, n + 17, 0x4037⟩ = true := by
    have : (Nat.testBit 0x4037 0 && decide (bitsOf 0x4037 15 14 = 1)) = true := by decide
    exact this
  have r : regionAt [⟨0x40000, n + 17, 0x4037⟩] a = some (0, ⟨0x40000, n + 17, 0x4037⟩) := by
    have : a < 0x40000 + 4096 * (n + 17) := by omega
    simp [regionAt, g, ha, this]
  have g2 : regionGrants ⟨0x40000, n + 17, 0x4037⟩ false w = true := by
    have : Nat.testBit 0x4037 ((if w then 2 else 1) + if false then 3 else 0) = true := by cases w <;> decide
    exact this
  rw [firstForbidden, if_neg (by omega), r]
  simp only [g2, if_true]
  rw [firstForbidden, if_pos (by omega)]

theorem room_fits (s : State) (b : Bytes) (h : b ≠ []) (h1 : (core s 0).outList = [(0x50000, b.length)])
    (h2 : (activePane (checker s 0)).regions = [⟨0x40000, b.length + 17, 0x4037⟩]) : outputFits s 0 b := by
  have hb : b.length ≠ 0 := by simpa using h
  have h3 := region_holds b.length 0x50000 b.length true (by omega) (by omega) (by omega)
  refine ⟨by rw [h1]; simp [bufLen], ?_⟩
  unfold payRefusal
  simp only [h1, h2, bufPieces, if_neg hb, Nat.sub_zero, Nat.min_self, Nat.add_zero]
  rw [if_neg (by omega)]
  simp [piecesForbidden, h3]

/-- The input may be read. -/
theorem room_reads (s : State) (n k : Nat) (hk : 0 < k) (hn : k ≤ 69632) (h1 : (core s 0).inList = [(0x40000, k)])
    (h2 : (activePane (checker s 0)).regions = [⟨0x40000, n + 17, 0x4037⟩]) : payRefusal s 0 false (core s 0).inList = none := by
  have h3 := region_holds n 0x40000 k false (by omega) hk (by omega)
  unfold payRefusal
  simp only [h1, h2]
  simp [piecesForbidden, h3]

theorem attest_starts (n : Nat) : mgmtStarts attest (wAttest n) 0 (wDesc (wAttest n)) (zeroBytes 32) [] (zeroBytes 32) := by
  have hd : wDesc (wAttest n) = wDesc (wMgmt 0x3005 0 32 0) := rfl
  have hs : mgmtStatic attest (wDesc (wMgmt 0x3005 0 32 0)) (wAttest n) =
    mgmtStatic attest (wDesc (wMgmt 0x3005 0 32 0)) (wMgmt 0x3005 0 32 0) := rfl
  have hz : mgmtStatic attest (wDesc (wMgmt 0x3005 0 32 0)) (wMgmt 0x3005 0 32 0) = 0 := by decide +kernel
  have r1 : payReady attest.op (wAttest n) 0 = payReady attest.op (wMgmt 0x3005 0 32 0) 0 := rfl
  have r2 : serialWait attest.op 0 (wAttest n) = false := rfl
  have r4 : recBlocked (wAttest n) = recBlocked (wMgmt 0x3005 0 32 0) := rfl
  refine ⟨⟨r1.trans (by decide +kernel), rfl, r2, rfl, ⟨r4.trans (by decide +kernel), show 0 < 60 by decide⟩, rfl, rfl, ?_, ?_, rfl, rfl, rfl, Nat.zero_le _, rfl, rfl, fun h => absurd h (by decide)⟩, rfl, rfl, by simp⟩
  · exact (congrArg (fun d => mgmtStatic attest d (wAttest n)) hd).trans (hs.trans hz)
  · exact room_reads _ n 32 (by decide) (by decide) rfl rfl

/-- The buffer is as long as what attests its state. -/
theorem managerCommands_witness_attest :
    ∃ (s : State) (m : Bytes), mgmtStarts attest s 0 (wDesc s) (zeroBytes 32) [] (zeroBytes 32) ∧ m = attestBody (zeroBytes 32) s ∧
      outputFits s 0 (m ++ slhSign slh256s ((devSeed s 2).getD (padTo 96 s.lcy.vidSeed)) m ++
        Config.certChain (lcsCode s.lcy.state) s.lcy.deployCount) := by
  let f := fun n => attestBody (zeroBytes 32) (wAttest n) ++ slhSign slh256s ((devSeed (wAttest n) 2).getD
    (padTo 96 (wAttest n).lcy.vidSeed)) (attestBody (zeroBytes 32) (wAttest n)) ++
    Config.certChain (lcsCode (wAttest n).lcy.state) (wAttest n).lcy.deployCount
  have h0 : f 0 ≠ [] := by
    intro e
    have := congrArg List.length e
    simp only [f, List.length_append, length_sign256s, List.length_nil] at this
    omega
  exact ⟨wAttest (f 0).length, attestBody (zeroBytes 32) (wAttest 0), attest_starts _, rfl, room_fits _ (f 0) h0 rfl rfl⟩

/-! ### Ceremonies -/

/-- Two custody officers. -/
abbrev wTwo : List (Signer × Nat × Bytes) := [(.custody none, 0, wSeed 0), (.custody none, 1, wSeed 1)]
/-- An open ceremony for VF 3, VF 3 unbound. -/
def wCer (op : Nat) (comp : Bool) (n : Nat) : State :=
  let s := wMgmt op 0 n 0
  { s with kst := { s.kst with lmks := [], cers := [⟨7, comp, 3, zeroBytes 32, [], 0, zeroBytes 32, if op = 0x3105 then [0, 1] else [], 0⟩] } }

theorem cerOpen_good (c : Cer) (ct k : Bytes) (hc : ct.length = 1568) (hk : k.length = 32) :
    cerOpen c ct (kwWrap (cerKek c ct) k) (kcv 5 k) = some k := by
  have h32 : (cerKek c ct).length = 32 := length_shake256 _
  unfold cerOpen
  rw [if_neg (by rw [length_kwWrap _ _ 4 h32 hk (by decide), hc]; decide), kw_inv _ _ 4 h32 hk (by decide)]
  simp

theorem ceremonies_witness_add :
    let s := wCer 0x3104 true 100
    let c : Cer := ⟨7, true, 3, zeroBytes 32, [], 0, zeroBytes 32, [], 0⟩
    let ct := zeroBytes 1568
    let w := kwWrap (cerKek c ct) (zeroBytes 32)
    let v := kcv 5 (zeroBytes 32)
    let sig := slhSign slh256s (wSeed 1) (leBytes 2 7 ++ ct ++ w)
    mgmtStarts (lmkCompAdd 7 ct w v 1 sig) s 0 (wDesc s) (zeroBytes 100) [] (zeroBytes 100) ∧ cerAt s 7 = some c ∧ c.comp = true ∧
    c.officers.length < 8 ∧ c.officers.contains 1 = false ∧ signerKey s (.custody none) 1 = some (slhPk slh256s (wSeed 1)) ∧
    slhVerify slh256s (slhPk slh256s (wSeed 1)) (leBytes 2 7 ++ ct ++ w) sig = true ∧ cerOpen c ct w v = some (zeroBytes 32) ∧
    cerOpen c ct [] v = none ∧ slhVerify slh256s (slhPk slh256s (wSeed 1)) (leBytes 2 7 ++ ct ++ w) [] = false := by
  refine ⟨⟨⟨?_, ?_, ?_, ?_, ?_, ?_, rfl, ?_, ?_, ?_, rfl, rfl, Nat.zero_le _, by decide +kernel, rfl, by decide +kernel⟩, ?_, rfl, ?_⟩, ?_, rfl, by decide, rfl, rfl, verify_sign256s _ _,
    cerOpen_good _ _ _ List.length_replicate List.length_replicate, ?_, ?_⟩
  · decide +kernel
  · decide +kernel
  · decide +kernel
  · decide +kernel
  · decide +kernel
  · decide +kernel
  · decide +kernel
  · decide +kernel
  · decide +kernel
  · exact (List.append_nil _).symm
  · exact fun a h => absurd h (List.not_mem_nil)
  · decide +kernel
  · exact if_pos (.inr (by decide))
  · rfl

theorem ceremonies_witness_kem_finish :
    let s := wCer 0x3102 false (100 + 59712)
    let c : Cer := ⟨7, false, 3, zeroBytes 32, [], 0, zeroBytes 32, [], 0⟩
    let ct := zeroBytes 1568
    let w := kwWrap (cerKek c ct) (zeroBytes 32)
    let v := kcv 5 (zeroBytes 32)
    let as := wAppr s (wDesc s) (zeroBytes 100) wTwo
    (mgmtStarts (lmkKemFinish 7 ct w v) s 0 (wDesc s) (zeroBytes 100) as (zeroBytes 100 ++ joinBytes as) ∧
      approval (lmkKemFinish 7 ct w v) s 0 (wDesc s) (zeroBytes 100) as = 0) ∧ cerAt s 7 = some c ∧ c.comp = false ∧
    lmkLoadFirst s c.fn = false ∧ cerOpen c ct w v = some (zeroBytes 32) ∧ cerOpen c ct [] v = none := by
  refine ⟨mgmt_good _ _ 0 _ _ _ ⟨?_, ?_, ?_, ?_, ?_, ?_, rfl, ?_, ?_, ?_, rfl, rfl, Nat.zero_le _, by decide +kernel, rfl, by decide +kernel⟩ rfl rfl (two _ rfl rfl) (by decide) ?_, ?_, rfl, ?_,
    cerOpen_good _ _ _ List.length_replicate List.length_replicate, ?_⟩
  · decide +kernel
  · decide +kernel
  · decide +kernel
  · decide +kernel
  · decide +kernel
  · decide +kernel
  · decide +kernel
  · decide +kernel
  · decide +kernel
  · decide +kernel
  · decide +kernel
  · decide +kernel
  · exact if_pos (.inr (by decide))

/-- VF 3 unbound and bound in both slots: the LMK slots decide; instance 0 is ready. -/
theorem ceremonies_witness_install :
    let s := wCer 0x3102 false (100 + 59712)
    ¬ ((lmkOf s 3).s0.key.isSome ∧ (lmkOf s 3).s1.key.isSome) ∧ drawReady s 0 ∧ logTakesTwo s ∧
    (let u := modLmkSlot 3 1 (fun x => { x with key := some (zeroBytes 32) }) (modLmkSlot 3 0 (fun x => { x with key := some (zeroBytes 32) }) s)
     (lmkOf u 3).s0.key.isSome ∧ (lmkOf u 3).s1.key.isSome ∧ u.lcy = s.lcy ∧ u.cpu = s.cpu) := by
  refine ⟨by decide +kernel, by decide +kernel, by decide +kernel, by decide +kernel, by decide +kernel, rfl, rfl⟩

theorem ceremonies_witness_comp_finish :
    let s := wCer 0x3105 true (100 + 59712)
    let c : Cer := ⟨7, true, 3, zeroBytes 32, [], 0, zeroBytes 32, [0, 1], 0⟩
    let as := wAppr s (wDesc s) (zeroBytes 100) wTwo
    (mgmtStarts (lmkCompFinish 7 (kcv 5 (zeroBytes 32))) s 0 (wDesc s) (zeroBytes 100) as (zeroBytes 100 ++ joinBytes as) ∧
      approval (lmkCompFinish 7 (kcv 5 (zeroBytes 32))) s 0 (wDesc s) (zeroBytes 100) as = 0) ∧ cerAt s 7 = some c ∧ c.comp = true ∧
    lmkLoadFirst s c.fn = false ∧ 2 ≤ c.officers.length ∧ kcv 5 c.acc = kcv 5 (zeroBytes 32) := by
  refine ⟨mgmt_good _ _ 0 _ _ _ ⟨?_, ?_, ?_, ?_, ?_, ?_, rfl, ?_, ?_, ?_, rfl, rfl, Nat.zero_le _, by decide +kernel, rfl, by decide +kernel⟩ rfl rfl (two _ rfl rfl) (by decide) ?_, ?_, rfl, ?_,
    by decide, rfl⟩
  · decide +kernel
  · decide +kernel
  · decide +kernel
  · decide +kernel
  · decide +kernel
  · decide +kernel
  · decide +kernel
  · decide +kernel
  · decide +kernel
  · decide +kernel
  · decide +kernel
  · decide +kernel

/-- A longer check value, and one component. -/
theorem ceremonies_witness_comp_fails : kcv 5 (zeroBytes 32) ≠ kcv 5 (zeroBytes 32) ++ [0] ∧ ([0] : List Nat).length < 2 := by
  refine ⟨?_, by decide⟩
  intro e
  have h := congrArg List.length e
  rw [List.length_append] at h
  simp only [List.length_singleton] at h
  omega

/-- VF 3 bound: its CURRENT LMK in slot 0 and its PREVIOUS one in slot 1. -/
def wBoundVf (op n : Nat) : State :=
  let s := wMgmt op 0 n 0
  let x := fun (role gen : Nat) => setLmk (zeroBytes 32) role gen { LmkSlot.blank with occ := true, version := gen }
  { s with kst := { s.kst with lmks := [(3, ⟨x 1 2, x 2 1, true, 2⟩)] } }

theorem ceremonies_witness_retire :
    let s := wBoundVf 0x3106 (8 + 59712)
    let as := wAppr s (wDesc s) (zeroBytes 8) wTwo
    (mgmtStarts (lmkRetire 3) s 0 (wDesc s) (zeroBytes 8) as (zeroBytes 8 ++ joinBytes as) ∧
      approval (lmkRetire 3) s 0 (wDesc s) (zeroBytes 8) as = 0) ∧ lmkLoadFirst s 3 = false ∧ (lmkSlot (lmkOf s 3) 1).role = 2 ∧
    (lmkSlot (lmkOf s 3) 0).role ≠ 2 ∧ drawReady s 0 ∧ logTakes s :=
  ⟨mgmt_good _ _ 0 _ _ _ (by decide +kernel) rfl rfl (two _ rfl rfl) (by decide) (by decide +kernel), by decide +kernel⟩

theorem ceremonies_witness_unbind :
    let s := wBoundVf 0x3107 (8 + 59712)
    let as := wAppr s (wDesc s) (zeroBytes 8) wTwo
    (mgmtStarts (lmkUnbindCmd 3) s 0 (wDesc s) (zeroBytes 8) as (zeroBytes 8 ++ joinBytes as) ∧
      approval (lmkUnbindCmd 3) s 0 (wDesc s) (zeroBytes 8) as = 0) ∧ drawReady s 0 :=
  ⟨mgmt_good _ _ 0 _ _ _ (by decide +kernel) rfl rfl (two _ rfl rfl) (by decide) (by decide +kernel), by decide +kernel⟩

theorem ceremonies_witness_abort :
    let s := wCer 0x3108 true 2
    mgmtStarts (ceremonyAbort 7) s 0 (wDesc s) [7, 0] [] [7, 0] ∧ (cerAt s 7).isSome = true ∧
    (mgmtStarts (ceremonyAbort 8) s 0 (wDesc s) [7, 0] [] [7, 0] ∧ cerAt s 8 = none) ∧ logTakes s := by decide +kernel

theorem ceremonies_witness_timeout :
    let s := wCer 0x3108 true 2
    let u := { s with time := { s.time with refCount := 360000000000 } }
    (cerAt s 7).isSome = true ∧ s.pwr.main = true ∧ recBlocked s = false ∧ 0 + 3600000000 ≤ tick u ∧ recBlocked u = false ∧
    tick s < 0 + 3600000000 := by decide +kernel

/-- A BEGIN for VF 3 with room for `n` bytes of output. -/
def wBegin (comp : Bool) (n : Nat) : State := wRoom n (wMgmt (if comp then 0x3103 else 0x3101) 0 (8 + 59712) 31394)

theorem begin_starts (n : Nat) (comp : Bool) :
    let s := wBegin comp n
    let c := cerBeginCmd (if comp then 0x3103 else 0x3101) comp 3
    let as := wAppr s (wDesc s) (zeroBytes 8) wTwo
    mgmtStarts c s 0 (wDesc s) (zeroBytes 8) as (zeroBytes 8 ++ joinBytes as) ∧ approval c s 0 (wDesc s) (zeroBytes 8) as = 0 := by
  cases comp
  · let w := wMgmt 0x3101 0 (8 + 59712) 31394
    let c := cerBeginCmd 0x3101 false 3
    have hd : wDesc (wBegin false n) = wDesc w := rfl
    have hs : mgmtStatic c (wDesc w) (wBegin false n) = mgmtStatic c (wDesc w) w := rfl
    have hz : mgmtStatic c (wDesc w) w = 0 := by decide +kernel
    have r1 : payReady 0x3101 (wBegin false n) 0 = payReady 0x3101 w 0 := rfl
    have z1 : payReady 0x3101 w 0 = true := by decide +kernel
    have r4 : recBlocked (wBegin false n) = recBlocked w := rfl
    have r5 : (laneTaker (wBegin false n) 28).isSome = (laneTaker w 28).isSome := rfl
    have z4 : recBlocked w = false := by decide +kernel
    have hl : slotCheck (wBegin false n) (acceptTick (wBegin false n) 0) [3, 3] = slotCheck w (acceptTick w 0) [3, 3] := rfl
    refine mgmt_good _ _ 0 _ _ _ ⟨r1.trans z1, rfl, rfl, rfl, ⟨r4.trans z4, show 0 < 60 by decide⟩, rfl, rfl,
      (congrArg (fun d => mgmtStatic c d (wBegin false n)) hd).trans (hs.trans hz), room_reads _ n 59720 (by decide) (by decide) rfl rfl, rfl, rfl, rfl,
      Nat.zero_le _, rfl, rfl, fun _ => r5.trans (by decide +kernel)⟩ rfl rfl (two _ rfl rfl) (by decide) (hl.trans (by decide +kernel))
  · let w := wMgmt 0x3103 0 (8 + 59712) 31394
    let c := cerBeginCmd 0x3103 true 3
    have hd : wDesc (wBegin true n) = wDesc w := rfl
    have hs : mgmtStatic c (wDesc w) (wBegin true n) = mgmtStatic c (wDesc w) w := rfl
    have hz : mgmtStatic c (wDesc w) w = 0 := by decide +kernel
    have r1 : payReady 0x3103 (wBegin true n) 0 = payReady 0x3103 w 0 := rfl
    have z1 : payReady 0x3103 w 0 = true := by decide +kernel
    have r4 : recBlocked (wBegin true n) = recBlocked w := rfl
    have r5 : (laneTaker (wBegin true n) 28).isSome = (laneTaker w 28).isSome := rfl
    have z4 : recBlocked w = false := by decide +kernel
    have hl : slotCheck (wBegin true n) (acceptTick (wBegin true n) 0) [3, 3] = slotCheck w (acceptTick w 0) [3, 3] := rfl
    refine mgmt_good _ _ 0 _ _ _ ⟨r1.trans z1, rfl, rfl, rfl, ⟨r4.trans z4, show 0 < 60 by decide⟩, rfl, rfl,
      (congrArg (fun d => mgmtStatic c d (wBegin true n)) hd).trans (hs.trans hz), room_reads _ n 59720 (by decide) (by decide) rfl rfl, rfl, rfl, rfl,
      Nat.zero_le _, rfl, rfl, fun _ => r5.trans (by decide +kernel)⟩ rfl rfl (two _ rfl rfl) (by decide) (hl.trans (by decide +kernel))

/-- With a buffer as long as the output; with 8 ceremonies open the same input starts it too. -/
theorem ceremonies_witness_begin (comp : Bool) :
    ∃ s, (let as := wAppr s (wDesc s) (zeroBytes 8) wTwo
      let c := cerBeginCmd (if comp then 0x3103 else 0x3101) comp 3
      mgmtStarts c s 0 (wDesc s) (zeroBytes 8) as (zeroBytes 8 ++ joinBytes as) ∧ approval c s 0 (wDesc s) (zeroBytes 8) as = 0) ∧
      s.kst.cers.length < 8 ∧ drawReady s 0 ∧ outputFits s 0 (beginOut s 0 3) := by
  have h0 : beginOut (wBegin comp 0) 0 3 ≠ [] := by
    intro e
    have := congrArg List.length e
    simp only [beginOut, identSign, List.length_append, length_sign256s, List.length_nil] at this
    omega
  have same : ∀ n, beginOut (wBegin comp n) 0 3 = beginOut (wBegin comp 0) 0 3 := by intro n; cases comp <;> rfl
  have h1 : ∀ n, (core (wBegin comp n) 0).outList = [(0x50000, n)] := by intro n; cases comp <;> rfl
  have h2 : ∀ n, (activePane (checker (wBegin comp n) 0)).regions = [⟨0x40000, n + 17, 0x4037⟩] := by intro n; cases comp <;> rfl
  have h3 : ∀ n, (wBegin comp n).kst.cers.length < 8 := by intro n; cases comp <;> exact (show 0 < 8 by decide)
  have h4 : ∀ n, drawReady (wBegin comp n) 0 := by intro n; cases comp <;> rfl
  obtain ⟨n, hn⟩ : ∃ n, n = (beginOut (wBegin comp 0) 0 3).length := ⟨_, rfl⟩
  refine ⟨wBegin comp n, begin_starts n comp, h3 n, h4 n, ?_⟩
  rw [same]
  exact room_fits _ _ h0 (by rw [h1, hn]) (by rw [h2, hn])

theorem ceremonies_witness_begin_full :
    let s := wMgmt 0x3101 0 (8 + 59712) 31394
    let u := { s with kst := { s.kst with cers := List.replicate 8 ⟨7, true, 3, [], [], 0, [], [], 0⟩ } }
    let as := wAppr u (wDesc u) (zeroBytes 8) wTwo
    (mgmtStarts (cerBeginCmd 0x3101 false 3) u 0 (wDesc u) (zeroBytes 8) as (zeroBytes 8 ++ joinBytes as) ∧
      approval (cerBeginCmd 0x3101 false 3) u 0 (wDesc u) (zeroBytes 8) as = 0) ∧ 8 ≤ u.kst.cers.length :=
  ⟨mgmt_good _ _ 0 _ _ _ (by decide +kernel) rfl rfl (two _ rfl rfl) (by decide) (by decide +kernel), by decide +kernel⟩

/-! ### KeyAndProgramCommands -/

/-- The LMK block of a TDES protection key of function 3. -/
def wK1Block : Bytes := ascii
  "D0128K1TD00E02000L080000PB080000182C5B4945876D60A84B07FB5827080AF39F2079763FBC5CB6FA5398D9D7A350459B245331C7AA2D9F8F30DC2F521108"

theorem keyAndProgramCommands_witness_mark :
    let s := wMgmt 0x3110 0 (8 + 59712) 4096
    let as := wAppr s (wDesc s) (zeroBytes 8) wTwo
    (mgmtStarts (keyMarkSensitive 3 wK1Block) s 0 (wDesc s) (zeroBytes 8) as (zeroBytes 8 ++ joinBytes as) ∧
      approval (keyMarkSensitive 3 wK1Block) s 0 (wDesc s) (zeroBytes 8) as = 0) ∧ lmkNeed s 3 = 0 ∧ lmkCurrent s 3 = some (zeroBytes 32, 0) ∧
    drawReady s 0 ∧ s.kst.sens.length < 1024 ∧ payRefusal s 0 true (bufPieces (core s 0).outList 0 200) = none :=
  ⟨mgmt_good _ _ 0 _ _ _ (by decide +kernel) rfl rfl (two _ rfl rfl) (by decide) (by decide +kernel), by decide +kernel⟩

/-- That block is a protection key's; another's is not. -/
theorem keyAndProgramCommands_witness_unwrap :
    (match lmkUnwrap (wMgmt 0x3110 0 (8 + 59712) 4096) 3 0 0 0 wK1Block with
      | .ok k _ => decide (k.usage = chars2 'K' '1') && decide (k.carry = [])
      | _ => false) = true ∧
    (match lmkUnwrap (wMgmt 0x3110 0 (8 + 59712) 4096) 3 0 0 0 wDBlock with | .ok k _ => decide (k.usage ≠ chars2 'K' '1') | _ => false) = true :=
  ⟨by decide +kernel, by decide +kernel⟩

/-- The length of the marked block. -/
theorem keyAndProgramCommands_witness_mark_fits :
    let s := wMgmt 0x3110 0 (8 + 59712) 4096
    lmkServes s 3 (wLmk s) ∧ kbPadLen 1 16 ≤ 4064 ∧ outputFits s 0 (markedBlock s 0 (pKey 0 0 1 0x314B 'D' wTdes) (wLmk s)) := by decide +kernel

theorem pairStatic : mgmtStatic (keyPairGenerate 3 9 0x3053 0x53 0x45 0x3030 0 0 0) (wDesc (wMgmt 0x3111 0 (8 + 59712) 8192))
    (wMgmt 0x3111 0 (8 + 59712) 8192) = 0 := by decide +kernel

theorem keyAndProgramCommands_witness_pair :
    let s := wMgmt 0x3111 0 (8 + 59712) 8192
    let as := wAppr s (wDesc s) (zeroBytes 8) wTwo
    (∀ p q x, mgmtStarts (keyPairGenerate 3 9 0x3053 0x53 0x45 0x3030 p q x) s 0 (wDesc s) (zeroBytes 8) as (zeroBytes 8 ++ joinBytes as) ∧
      approval (keyPairGenerate 3 9 0x3053 0x53 0x45 0x3030 p q x) s 0 (wDesc s) (zeroBytes 8) as = 0) ∧ lmkNeed s 3 = 0 ∧
    lmkServes s 3 (wLmk s) ∧ drawReady s 0 ∧ (drbgOf s 0).count + 2 < 65536 ∧ usageOk 0x3053 9 0x53 1 = true ∧
    payRefusal s 0 true (bufPieces (core s 0).outList 0 8192) = none :=
  ⟨fun p q x => mgmt_good (keyPairGenerate 3 9 0x3053 0x53 0x45 0x3030 p q x) _ 0 _ _ _
      ⟨show payReady 0x3111 (wMgmt 0x3111 0 (8 + 59712) 8192) 0 = true by decide +kernel, by decide +kernel, rfl, rfl, by decide +kernel, rfl, rfl,
        pairStatic, by decide +kernel, rfl, rfl, rfl, Nat.zero_le _, by decide +kernel, rfl, fun h => absurd (show kemOps.contains 0x3111 = true from h) (by decide)⟩ rfl rfl
      (two _ rfl rfl) (by decide) (by decide +kernel), by decide +kernel⟩

theorem keyAndProgramCommands_witness_budget :
    let s := wMgmt 0x3112 0 (8 + 59712) 0
    let as := wAppr s (wDesc s) (zeroBytes 8) wTwo
    (mgmtStarts (budgetRelease [7, 9]) s 0 (wDesc s) (zeroBytes 8) as (zeroBytes 8 ++ joinBytes as) ∧
      approval (budgetRelease [7, 9]) s 0 (wDesc s) (zeroBytes 8) as = 0) ∧ (∀ n ∈ [7, 9], n < 4096) ∧
    (mgmtStarts (budgetRelease [5000]) s 0 (wDesc s) (zeroBytes 8) as (zeroBytes 8 ++ joinBytes as) ∧
      approval (budgetRelease [5000]) s 0 (wDesc s) (zeroBytes 8) as = 0) :=
  ⟨mgmt_good _ _ 0 _ _ _ (by decide +kernel) rfl rfl (two _ rfl rfl) (by decide) (by decide +kernel), by decide,
    mgmt_good _ _ 0 _ _ _ (by decide +kernel) rfl rfl (two _ rfl rfl) (by decide) (by decide +kernel)⟩

/-- VF 3 is created, VF 4 is not. -/
theorem keyAndProgramCommands_witness_key (f : Nat) (hf : f = 3 ∨ f = 4) :
    let s := wMgmt 0x3301 0 (72 + 59712) 0
    let body := leBytes 2 f ++ zeroBytes 70
    let as := wAppr s (wDesc s) body wTwo
    (mgmtStarts progKeySet s 0 (wDesc s) body as (body ++ joinBytes as) ∧ approval progKeySet s 0 (wDesc s) body as = 0) ∧ leAt body 0 2 = f ∧
    ((fnOf s f).created = true ↔ f = 3) := by
  rcases hf with rfl | rfl
  · exact ⟨mgmt_good _ _ 0 _ _ _ (by decide +kernel) rfl rfl (two _ rfl rfl) (by decide) (by decide +kernel), by decide, by decide +kernel⟩
  · exact ⟨mgmt_good _ _ 0 _ _ _ (by decide +kernel) rfl rfl (two _ rfl rfl) (by decide) (by decide +kernel), by decide, by decide +kernel⟩

theorem keyAndProgramCommands_witness_revoke :
    let s := wMgmt 0x3303 0 (8 + 59712) 0
    let as := wAppr s (wDesc s) (zeroBytes 8) wTwo
    mgmtStarts (progRevoke 3 0xFF) s 0 (wDesc s) (zeroBytes 8) as (zeroBytes 8 ++ joinBytes as) ∧
    approval (progRevoke 3 0xFF) s 0 (wDesc s) (zeroBytes 8) as = 0 ∧ logTakes s :=
  (fun h => ⟨h.1, h.2, by decide +kernel⟩) (mgmt_good (progRevoke 3 0xFF) (wMgmt 0x3303 0 (8 + 59712) 0) 0 _ _ wTwo (by decide +kernel) rfl rfl (two _ rfl rfl) (by decide) (by decide +kernel))

/-- VF 3 has a program key; an approval body for its slot 1, signed by the tenant or not. -/
def wProg (good : Bool) : State :=
  let s := wMgmt 0x3302 0 (49896 + 59712) 0
  { s with lcy := { s.lcy with progKeys := [(3, if good then slhPk slh256f (wSeed 60) else [1])] } }
/-- The tenant's part of the body. -/
def wTenant (good : Bool) : Bytes :=
  if good then slhSign slh256f (wSeed 60) (ascii "EHROS-PROG" ++ [3, 0] ++ [1] ++ [7, 0, 0, 0] ++ zeroBytes 32) else zeroBytes 49856
/-- The body. -/
def wApproveBody (f : Byte) (good : Bool) : Bytes := [f, 0, 1, 0, 7, 0, 0, 0] ++ (zeroBytes 32 ++ (wTenant good ++ []))

theorem wTenant_length (good : Bool) : (wTenant good).length = 49856 := by
  cases good
  · exact List.length_replicate
  · exact length_sign256f _ _
theorem wApproveBody_length (f : Byte) (good : Bool) : (wApproveBody f good).length = 49896 := by
  rw [wApproveBody, List.length_append, List.length_append, List.length_append, wTenant_length]
  simp [zeroBytes]
theorem wApproveBody_field (f : Byte) (good : Bool) :
    slice (wApproveBody f good) 0 2 = [f, 0] ∧ slice (wApproveBody f good) 2 1 = [1] ∧ slice (wApproveBody f good) 3 1 = [0] ∧
    slice (wApproveBody f good) 4 4 = [7, 0, 0, 0] ∧ slice (wApproveBody f good) 8 32 = zeroBytes 32 ∧
    slice (wApproveBody f good) 0x28 49856 = wTenant good :=
  ⟨slice_at [] [f, 0] _ 0 2 rfl rfl, slice_at [f, 0] [1] _ 2 1 rfl rfl, slice_at [f, 0, 1] [0] _ 3 1 rfl rfl,
    slice_at [f, 0, 1, 0] [7, 0, 0, 0] _ 4 4 rfl rfl, slice_at [f, 0, 1, 0, 7, 0, 0, 0] (zeroBytes 32) _ 8 32 rfl rfl,
    by rw [wApproveBody, ← List.append_assoc]; exact slice_at _ _ _ _ _ rfl (wTenant_length good)⟩

theorem keyAndProgramCommands_witness_approve (f : Byte) (good : Bool) :
    let b := wApproveBody f good
    let s := wProg good
    let as := wAppr s (wDesc s) b wTwo
    mgmtStarts progApprove s 0 (wDesc s) b as (b ++ joinBytes as) ∧ approval progApprove s 0 (wDesc s) b as = 0 := by
  have hl := wApproveBody_length f good
  refine mgmt_good progApprove _ 0 _ _ _ ⟨?_, ?_, ?_, ?_, ?_, ?_, rfl, ?_, ?_, ?_, ?_, ?_, Nat.zero_le _, ?_, ?_, fun h => absurd h (by decide)⟩ rfl rfl (two _ rfl rfl) (by decide) ?_
  · cases good <;> decide +kernel
  · cases good <;> decide +kernel
  · cases good <;> decide +kernel
  · cases good <;> decide +kernel
  · cases good <;> decide +kernel
  · cases good <;> decide +kernel
  · cases good <;> decide +kernel
  · cases good <;> decide +kernel
  · rw [hl]; cases good <;> decide +kernel
  · simp only [progApprove, hl]; decide
  · simp only [progApprove, (wApproveBody_field f good).2.2.1]; decide
  · cases good <;> decide +kernel
  · cases good <;> rfl
  · cases good <;> decide +kernel

/-- The tenant's key, or bytes that are no key and verify nothing. -/
def wTenantKey (good : Bool) : Bytes := if good then slhPk slh256f (wSeed 60) else [1]
theorem keyAndProgramCommands_witness_tenant (good : Bool) :
    progGood (wProg good) (wApproveBody 3 good) (wTenantKey good) ∧
    slhVerify slh256f (wTenantKey good) (progMsg (wApproveBody 3 good)) (slice (wApproveBody 3 good) 0x28 49856) = good ∧
    tget [] (wProg good).lcy.progKeys (leAt (wApproveBody 4 good) 0 2) = [] := by
  obtain ⟨h0, h2, -, h4, h8, ht⟩ := wApproveBody_field 3 good
  have hf : leAt (wApproveBody 3 good) 0 2 = 3 := by rw [leAt, h0]; rfl
  have hn : leAt (wApproveBody 3 good) 2 1 = 1 := by rw [leAt, h2]; rfl
  have h4' : leAt (wApproveBody 4 good) 0 2 = 4 := by rw [leAt, (wApproveBody_field 4 good).1]; rfl
  have ha : approvalOf (wProg good) 3 1 = none := rfl
  refine ⟨⟨by rw [hf]; rfl, ?_, ?_, .inr (show 0 < 1024 by decide)⟩, ?_, by rw [h4']; rfl⟩
  · intro e
    have := congrArg List.length e
    cases good
    · exact absurd this (show (1 : Nat) ≠ 0 by decide)
    · rw [wTenantKey, if_pos rfl, length_slhPk] at this
      exact absurd this (by decide)
  · rw [hf, hn, ha]
    intro a h
    cases h
  · rw [progMsg, h0, h2, h4, h8, ht]
    cases good
    · exact slh_key_length slh256f [1] _ _ (show 1 < 64 by decide)
    · exact verify_sign256f (wSeed 60) (ascii "EHROS-PROG" ++ [3, 0] ++ [1] ++ [7, 0, 0, 0] ++ zeroBytes 32)

/-! ### AuditAndPairCommands -/

/-- AUDIT_EXPORT of one record from SEQ 0, which has no VALID CRC, or from SEQ 9. -/
def wExportBody (from_ : Nat) : Bytes := leBytes 4 from_ ++ leBytes 4 1 ++ zeroBytes 8
/-- A log of two present records, with room for `n` bytes of output. -/
def wExport (n : Nat) : State :=
  let s := wMgmt 0x3401 0 (16 + 29856) 60000
  wRoom n { s with aud := { s.aud with present := 2, mram := [(0, zeroBytes 64), (1, zeroBytes 64)] } }

theorem export_starts (n a : Nat) (ha : a = 0 ∨ a = 9) :
    let s := wExport n
    let as := wAppr s (wDesc s) (wExportBody a) [(.audit, 16, wSeed 16)]
    mgmtStarts (auditExport 100) s 0 (wDesc s) (wExportBody a) as (wExportBody a ++ joinBytes as) ∧
    approval (auditExport 100) s 0 (wDesc s) (wExportBody a) as = 0 := by
  have hd : wDesc (wExport n) = wDesc (wExport 0) := rfl
  have hs : mgmtStatic (auditExport 100) (wDesc (wExport 0)) (wExport n) = mgmtStatic (auditExport 100) (wDesc (wExport 0)) (wExport 0) := rfl
  have hz : mgmtStatic (auditExport 100) (wDesc (wExport 0)) (wExport 0) = 0 := by decide +kernel
  have r1 : payReady (auditExport 100).op (wExport n) 0 = payReady (auditExport 100).op (wExport 0) 0 := rfl
  have r2 : serialWait (auditExport 100).op 0 (wExport n) = false := rfl
  have r4 : recBlocked (wExport n) = recBlocked (wExport 0) := rfl
  refine mgmt_good (auditExport 100) (wExport n) 0 _ _ _ ⟨r1.trans (by decide +kernel), rfl, r2, rfl, ⟨r4.trans (by decide +kernel), show 0 < 60 by decide⟩,
    rfl, rfl, (congrArg (fun d => mgmtStatic (auditExport 100) d (wExport n)) hd).trans (hs.trans hz),
    room_reads _ n 29872 (by decide) (by decide) rfl rfl, ?_, ?_, ?_, ?_, rfl, rfl, fun h => absurd h (by decide)⟩ rfl rfl ?_ (by decide) ?_
  · rcases ha with rfl | rfl <;> rfl
  · rcases ha with rfl | rfl <;> rfl
  · rcases ha with rfl | rfl <;> decide
  · rw [hd]
    rcases ha with rfl | rfl <;> decide +kernel
  · simp only [List.forall_mem_cons, List.not_mem_nil, false_implies, implies_true, and_true]
    exact ⟨by decide, rfl⟩
  · have r5 : slotCheck (wExport n) (acceptTick (wExport n) 0) [3] = slotCheck (wExport 0) (acceptTick (wExport 0) 0) [3] := rfl
    exact r5.trans (by decide +kernel)

/-- The buffer is as long as what the export delivers. -/
theorem auditAndPairCommands_witness_export :
    ∃ (s : State) (seed body : Bytes), mgmtStarts (auditExport 100) s 0 (wDesc s) body (wAppr s (wDesc s) body [(.audit, 16, wSeed 16)])
        (body ++ joinBytes (wAppr s (wDesc s) body [(.audit, 16, wSeed 16)])) ∧
      leAt body 0 4 < s.aud.next ∧ logTakes s ∧ logRest s = true ∧ s.dbg.inj = none ∧ exportCount s body 100 = 1 ∧ devSeed s 4 = some seed ∧
      outputFits s 0 (exportData s body 100 ++ slhSign slh256f seed (ascii "EHROS-AUDX" ++ exportData s body 100)) := by
  obtain ⟨seed, hseed⟩ : ∃ seed, devSeed (wExport 0) 4 = some seed := ⟨_, rfl⟩
  let f := fun n => exportData (wExport n) (wExportBody 0) 100 ++ slhSign slh256f seed (ascii "EHROS-AUDX" ++ exportData (wExport n) (wExportBody 0) 100)
  have h0 : f 0 ≠ [] := by
    intro e
    have := congrArg List.length e
    simp only [f, List.length_append, length_sign256f, List.length_nil] at this
    omega
  have r1 : logTakes (wExport (f 0).length) = logTakes (wExport 0) := rfl
  have r2 : exportCount (wExport (f 0).length) (wExportBody 0) 100 = exportCount (wExport 0) (wExportBody 0) 100 := rfl
  exact ⟨wExport (f 0).length, seed, wExportBody 0, (export_starts _ 0 (.inl rfl)).1, show 0 < 5 by decide,
    r1.mpr (by decide +kernel), rfl, rfl, r2.trans (by decide +kernel), hseed, room_fits _ (f 0) h0 rfl rfl⟩

/-- SEQ 9 is not below the next. -/
theorem auditAndPairCommands_witness_export_late : (wExport 0).aud.next ≤ leAt (wExportBody 9) 0 4 := by decide +kernel

/-- AUDIT_CLEAR that names record 1 as the last, or record 7. -/
def wClearBody (last : Nat) : Bytes := leBytes 4 last ++ zeroBytes 36
def wClear : State :=
  let s := wMgmt 0x3402 0 (40 + 59712) 0
  { s with aud := { s.aud with present := 2, head := zeroBytes 32 } }
theorem auditAndPairCommands_witness_clear (last : Nat) (hl : last = 1 ∨ last = 7) :
    let s := wClear
    let as := wAppr s (wDesc s) (wClearBody last) wTwo
    (mgmtStarts auditClear s 0 (wDesc s) (wClearBody last) as (wClearBody last ++ joinBytes as) ∧
      approval auditClear s 0 (wDesc s) (wClearBody last) as = 0) ∧ logRest s = true ∧ s.aud.buf = [] ∧
    ((leAt (wClearBody last) 0 4 + 1 = s.aud.present ∧ slice (wClearBody last) 8 32 = padTo 32 s.aud.head) ↔ last = 1) := by
  rcases hl with rfl | rfl
  · exact ⟨mgmt_good _ _ 0 _ _ _ (by decide +kernel) rfl rfl (two _ rfl rfl) (by decide) (by decide +kernel), by decide +kernel⟩
  · exact ⟨mgmt_good _ _ 0 _ _ _ (by decide +kernel) rfl rfl (two _ rfl rfl) (by decide) (by decide +kernel), by decide +kernel⟩

/-- PAIR_BIND to address 5, home latch `h`. -/
def wBindBody (h : Nat) : Bytes := zeroBytes 80 ++ leBytes 2 5 ++ leBytes 1 h ++ zeroBytes 13
theorem auditAndPairCommands_witness_bind (h : Nat) (hh : h = 1 ∨ h = 2) :
    let s := wMgmt 0x3601 0 (96 + 59712) 0
    let as := wAppr s (wDesc s) (wBindBody h) wTwo
    (mgmtStarts pairBind s 0 (wDesc s) (wBindBody h) as (wBindBody h ++ joinBytes as) ∧
      approval pairBind s 0 (wDesc s) (wBindBody h) as = 0) ∧ s.par.bound = false ∧ leAt (wBindBody h) 0x52 1 = h ∧ s.pwr.mode = .active := by
  rcases hh with rfl | rfl
  · exact ⟨mgmt_good _ _ 0 _ _ _ (by decide +kernel) rfl rfl (two _ rfl rfl) (by decide) (by decide +kernel), by decide +kernel⟩
  · exact ⟨mgmt_good _ _ 0 _ _ _ (by decide +kernel) rfl rfl (two _ rfl rfl) (by decide) (by decide +kernel), by decide +kernel⟩

/-- A bound device whose partner is eligible or not, with latch 0 held. -/
def wBound (op n : Nat) (elig : Bool) : State :=
  let s := wMgmt op 0 n 0
  { s with
    par := { s.par with
      bound := true
      pElig := elig
      l0 := { s.par.l0 with holder := true }
      partnerId := zeroBytes 16
      addr := 5
      partnerPk := slhPk slh256s (wSeed 70) } }
theorem auditAndPairCommands_witness_unbind (e : Bool) :
    let s := wBound 0x3602 59712 e
    let as := wAppr s (wDesc s) [] wTwo
    (mgmtStarts pairUnbind s 0 (wDesc s) [] as ([] ++ joinBytes as) ∧ approval pairUnbind s 0 (wDesc s) [] as = 0) ∧ s.par.pElig = e ∧
    latchCount s = 1 ∧ (∀ x ∈ s.slm.toks, x.2.st ≠ .mirror) ∧ s.hif.relq = [] := by
  refine ⟨mgmt_good pairUnbind _ 0 _ _ _ ?_ rfl rfl (two _ rfl rfl) (by decide) ?_, ?_⟩
  · cases e <;> decide +kernel
  · cases e <;> decide +kernel
  · cases e <;> decide +kernel

/-- An offer signed by the partner, or by nobody. -/
def wOfferSig (good : Bool) : Bytes := if good then slhSign slh256s (wSeed 70) (ascii "EHROS-REJOIN" ++ zeroBytes 0x660) else zeroBytes 29792
/-- The offer. -/
def wOffer (good : Bool) : Bytes := zeroBytes 0x660 ++ (wOfferSig good ++ [])
/-- A bound device, whose partner's key verifies, or is no key at all. -/
def wOffered (good : Bool) : State :=
  let s := wBound 0x3020 (31424 + 59712) false
  if good then s else { s with par := { s.par with partnerPk := [1] } }
theorem wOfferSig_length (good : Bool) : (wOfferSig good).length = 29792 := by
  cases good
  · exact List.length_replicate
  · exact length_sign256s _ _
theorem zeroBytes_length (n : Nat) : (zeroBytes n).length = n := List.length_replicate
theorem wOffer_length (good : Bool) : (wOffer good).length = 31424 := by
  rw [wOffer, List.append_nil, List.length_append, wOfferSig_length, zeroBytes_length]
theorem wOffer_field (good : Bool) :
    slice (wOffer good) 0x14 12 = zeroBytes 12 ∧ leAt (wOffer good) 0x10 4 = 0 ∧ (wOffer good).take 0x660 = zeroBytes 0x660 ∧
    slice (wOffer good) 0 16 = zeroBytes 16 := by
  have h : ∀ n k, n + k ≤ 0x660 → slice (wOffer good) n k = zeroBytes k := by
    intro n k hk
    have e : (zeroBytes 0x660 : Bytes) = zeroBytes n ++ (zeroBytes k ++ zeroBytes (0x660 - n - k)) := by
      simp only [zeroBytes, List.replicate_append_replicate]
      congr 1; omega
    rw [wOffer, e, List.append_assoc, List.append_assoc]
    exact slice_at _ _ _ _ _ List.length_replicate List.length_replicate
  refine ⟨h _ _ (by decide), ?_, ?_, h _ _ (by decide)⟩
  · rw [leAt, h _ _ (by decide)]; rfl
  · have e := zeroBytes_length 0x660
    rw [wOffer, List.take_append_of_le_length (le_of_eq e.symm)]
    exact List.take_of_length_le (le_of_eq e)

theorem auditAndPairCommands_witness_rejoin (good : Bool) :
    let b := wOffer good
    let s := wOffered good
    let as := wAppr s (wDesc s) b wTwo
    (mgmtStarts rejoinSendCmd s 0 (wDesc s) b as (b ++ joinBytes as) ∧ approval rejoinSendCmd s 0 (wDesc s) b as = 0) ∧
    (offerGood s b ↔ good = true) ∧ (∀ l ∈ s.kst.lmks, (l.2.s0.occ || l.2.s1.occ) = true → l.2.loaded = true) ∧ drawReady s 0 := by
  have hl := wOffer_length good
  obtain ⟨f1, f2, f3, f4⟩ := wOffer_field good
  refine ⟨mgmt_good rejoinSendCmd _ 0 _ _ _ ⟨?_, ?_, ?_, ?_, ?_, ?_, rfl, ?_, ?_, ?_, ?_, ?_, Nat.zero_le _, ?_, ?_,
    fun _ => ?_⟩ rfl rfl (two _ ?_ ?_) (by decide) ?_, ?_, ?_, ?_⟩
  · cases good <;> decide +kernel
  · cases good <;> decide +kernel
  · cases good <;> decide +kernel
  · cases good <;> decide +kernel
  · cases good <;> decide +kernel
  · cases good <;> decide +kernel
  · cases good <;> decide +kernel
  · cases good <;> decide +kernel
  · rw [hl]; cases good <;> decide +kernel
  · simp only [rejoinSendCmd, hl]; decide
  · simp only [rejoinSendCmd, f1, f2]; decide
  · cases good <;> decide +kernel
  · cases good <;> rfl
  · cases good <;> decide +kernel
  · cases good <;> rfl
  · cases good <;> rfl
  · cases good <;> decide +kernel
  · have hv : slice (wOffer good) 0x660 29792 = wOfferSig good := slice_at _ _ _ _ _ (zeroBytes_length _) (wOfferSig_length good)
    have hb : (wOffered good).par.bound = true ∧ padTo 16 (wOffered good).par.partnerId = zeroBytes 16 := by cases good <;> decide +kernel
    rw [offerGood, f3, f4, hv, hb.1, hb.2]
    cases good
    · exact ⟨fun h => Bool.noConfusion ((slh_key_length slh256s [1] (ascii "EHROS-REJOIN" ++ zeroBytes 0x660) (zeroBytes 29792)
        (show 1 < 64 by decide)).symm.trans h.2.2), fun h => Bool.noConfusion h⟩
    · exact ⟨fun _ => rfl, fun _ => ⟨rfl, rfl, verify_sign256s (wSeed 70) (ascii "EHROS-REJOIN" ++ zeroBytes 0x660)⟩⟩
  · cases good <;> decide +kernel
  · cases good <;> decide +kernel

/-- A record waits for its VALID; another log is behind the Shutter. -/
def wHeld : State := { State.reset with
  pwr := { State.reset.pwr with main := true }
  aud := { State.reset.aud with held := [⟨4, zeroBytes 64, zeroBytes 32, 9⟩], shutter := some 5 } }
theorem auditAndPairCommands_witness_valid : wHeld.aud.held = ⟨4, zeroBytes 64, zeroBytes 32, 9⟩ :: [] ∧ wHeld.pwr.main = true ∧
    wHeld.aud.shutter = some 5 ∧ (∀ e ∈ wHeld.slm.toks, e.2.st ≠ .mirror) ∧ wHeld.hif.relq = [] := by decide +kernel

/-! ### WrongApprovals -/

/-- PAIR_UNBIND with slot 3 in state `st`, issued at tick `k`; officer 0's key is good or no key at all. -/
def wSlot (st k : Nat) (good : Bool) : State :=
  let s := wMgmt 0x3602 0 59712 0
  { s with lcy := { s.lcy with
    chals := List.replicate 3 Chal.empty ++ [⟨st, zeroBytes 32, k⟩] ++ List.replicate 12 Chal.empty
    officers := if good then s.lcy.officers else ⟨1, 1, 0, zeroBytes 16, [1]⟩ :: s.lcy.officers.tail } }

theorem slot_starts (st k : Nat) (good : Bool) (as : List Bytes) (hn : as.length = 2) (hl : ∀ a ∈ as, a.length = 29856) :
    mgmtStarts pairUnbind (wSlot st k good) 0 (wDesc (wSlot 1 0 true)) [] as ([] ++ joinBytes as) := by
  have hd : mread (core (wSlot st k good) 0).mem 0xFF00 64 = mread (core (wSlot 1 0 true) 0).mem 0xFF00 64 := by cases good <;> rfl
  have hz : mgmtStatic pairUnbind (wDesc (wSlot 1 0 true)) (wSlot 1 0 true) = 0 := by decide +kernel
  have hs : mgmtStatic pairUnbind (wDesc (wSlot 1 0 true)) (wSlot st k good) = mgmtStatic pairUnbind (wDesc (wSlot 1 0 true)) (wSlot 1 0 true) := by
    cases good <;> rfl
  have r1 : payReady pairUnbind.op (wSlot st k good) 0 = payReady pairUnbind.op (wSlot 1 0 true) 0 := by cases good <;> rfl
  have r4 : recBlocked (wSlot st k good) = recBlocked (wSlot 1 0 true) := by cases good <;> rfl
  have r5 : payRefusal (wSlot st k good) 0 false (core (wSlot st k good) 0).inList =
    payRefusal (wSlot 1 0 true) 0 false (core (wSlot 1 0 true) 0).inList := by cases good <;> rfl
  exact ⟨⟨r1.trans (by decide +kernel), rfl, rfl, rfl, ⟨r4.trans (by decide +kernel), show 0 < 60 by decide⟩, rfl, hd.symm, hs.trans hz,
    r5.trans (by decide +kernel), rfl, rfl, rfl, Nat.zero_le _, by cases good <;> rfl, by cases good <;> rfl, fun h => absurd h (by decide)⟩, rfl, hn, hl⟩

/-- The approval of custody officer `k` for that command. -/
def wApprOf (k : Nat) : Bytes := goodAppr (zeroBytes 16) 3 (zeroBytes 32) (cmdDigest (wDesc (wSlot 1 0 true)) []) k (wSeed k)
/-- Approvals of officers `i` and `j`. -/
def wPairOf (i j : Nat) : List Bytes := [i, j].map wApprOf
theorem wPairOf_length (i j : Nat) : ∀ a ∈ wPairOf i j, a.length = 29856 := by
  intro a ha
  obtain ⟨x, -, rfl⟩ := List.mem_map.1 ha
  exact goodAppr_length _ _ _ _ _ _ (length_shake256 _)
theorem wPairOf_form (st k : Nat) (g : Bool) (i j : Nat) (hi : i < 3) (hj : j < 3) :
    formsGood pairUnbind (wSlot st k g) (wDesc (wSlot 1 0 true)) [] (wPairOf i j) := by
  have key : ∀ n, n < 3 → ∃ pk, signerKey (wSlot st k g) (.custody none) n = some pk := by
    intro n hn
    have : n = 0 ∨ n = 1 ∨ n = 2 := by omega
    rcases this with rfl | rfl | rfl <;> cases g <;> exact ⟨_, rfl⟩
  intro x hx
  have : x = (.custody none, wApprOf i) ∨ x = (.custody none, wApprOf j) := by
    simpa [pairUnbind, twoCustody, wPairOf] using hx
  rcases this with rfl | rfl
  · obtain ⟨pk, h⟩ := key i hi
    exact goodAppr_form _ _ _ _ _ _ _ _ pk (length_shake256 _) (by omega) h
  · obtain ⟨pk, h⟩ := key j hj
    exact goodAppr_form _ _ _ _ _ _ _ _ pk (length_shake256 _) (by omega) h
theorem wPairOf_distinct (st k : Nat) (g : Bool) (i j : Nat) (hi : i < 3) (hj : j < 3) :
    officersDistinct pairUnbind (wSlot st k g) [] (wPairOf i j) ↔ i ≠ j := by
  have h1 : apOfficer (wApprOf i) = i := goodAppr_officer _ _ _ _ _ _ (by omega)
  have h2 : apOfficer (wApprOf j) = j := goodAppr_officer _ _ _ _ _ _ (by omega)
  simp [officersDistinct, pairUnbind, twoCustody, wPairOf, isCustody, allDistinct, h1, h2]
theorem wPairOf_slot (i j : Nat) : ∀ a ∈ wPairOf i j, apChal a = 3 := by
  intro a ha
  obtain ⟨x, -, rfl⟩ := List.mem_map.1 ha
  exact goodAppr_chal _ _ _ _ _ _ (by decide)

/-- Approvals that are no approvals. -/
theorem wrongApprovals_witness_form :
    let as : List Bytes := [zeroBytes 29856, zeroBytes 29856]
    mgmtStarts pairUnbind (wSlot 1 0 true) 0 (wDesc (wSlot 1 0 true)) [] as ([] ++ joinBytes as) ∧
    ¬ formsGood pairUnbind (wSlot 1 0 true) (wDesc (wSlot 1 0 true)) [] as := by
  refine ⟨slot_starts 1 0 true _ rfl ?_, ?_⟩
  · simp only [List.forall_mem_cons, List.not_mem_nil, false_implies, implies_true, and_true]
    exact ⟨zeroBytes_length _, zeroBytes_length _⟩
  · intro h
    have := h (.custody none, zeroBytes 29856) (by simp [pairUnbind, twoCustody])
    have z : leAt (zeroBytes 29856 : Bytes) 4 4 = 0 := by decide +kernel
    simp [apprForm, z] at this

/-- Officer 0 signs twice. -/
theorem wrongApprovals_witness_twice :
    mgmtStarts pairUnbind (wSlot 1 0 true) 0 (wDesc (wSlot 1 0 true)) [] (wPairOf 0 0) ([] ++ joinBytes (wPairOf 0 0)) ∧
    formsGood pairUnbind (wSlot 1 0 true) (wDesc (wSlot 1 0 true)) [] (wPairOf 0 0) ∧ ¬ officersDistinct pairUnbind (wSlot 1 0 true) [] (wPairOf 0 0) :=
  ⟨slot_starts 1 0 true _ rfl (wPairOf_length 0 0), wPairOf_form 1 0 true 0 0 (by decide) (by decide),
    fun h => (wPairOf_distinct 1 0 true 0 0 (by decide) (by decide)).1 h rfl⟩

/-- Slot 3 empty, used, issued after the tick of acceptance, or live with a key that verifies nothing. -/
theorem wrongApprovals_witness_slot (st k : Nat) (g : Bool) :
    mgmtStarts pairUnbind (wSlot st k g) 0 (wDesc (wSlot 1 0 true)) [] (wPairOf 0 1) ([] ++ joinBytes (wPairOf 0 1)) ∧
    formsGood pairUnbind (wSlot st k g) (wDesc (wSlot 1 0 true)) [] (wPairOf 0 1) ∧ officersDistinct pairUnbind (wSlot st k g) [] (wPairOf 0 1) ∧
    (∀ a ∈ wPairOf 0 1, apChal a = 3) :=
  ⟨slot_starts st k g _ rfl (wPairOf_length 0 1), wPairOf_form st k g 0 1 (by decide) (by decide),
    (wPairOf_distinct st k g 0 1 (by decide) (by decide)).2 (by decide), wPairOf_slot 0 1⟩

theorem wrongApprovals_witness_states :
    ((wSlot 0 0 true).lcy.chals.getD 3 Chal.empty).state = 0 ∧
    (((wSlot 2 0 true).lcy.chals.getD 3 Chal.empty).state ≠ 0 ∧ ¬ slotLive (wSlot 2 0 true) 3 (acceptTick (wSlot 2 0 true) 0)) ∧
    (((wSlot 1 9999999 true).lcy.chals.getD 3 Chal.empty).state ≠ 0 ∧ ¬ slotLive (wSlot 1 9999999 true) 3 (acceptTick (wSlot 1 9999999 true) 0)) ∧
    slotLive (wSlot 1 0 false) 3 (acceptTick (wSlot 1 0 false) 0) := by decide +kernel

/-- Officer 0's key verifies nothing. -/
theorem wrongApprovals_witness_signature :
    ∃ x ∈ List.zip (pairUnbind.signers (wSlot 1 0 false) []) (wPairOf 0 1), apprSig (wSlot 1 0 false) (zeroBytes 32) x.1 x.2 = false := by
  refine ⟨(.custody none, wApprOf 0), by
    simp [pairUnbind, twoCustody, wPairOf], ?_⟩
  have h : apOfficer (wApprOf 0) = 0 := goodAppr_officer _ _ _ _ _ _ (by decide)
  have k : signerKey (wSlot 1 0 false) (.custody none) 0 = some [1] := rfl
  rw [apprSig, h, k]
  exact slh_key_length slh256s [1] _ _ (show 1 < 64 by decide)

/-- A slot named by one approval alone. -/
theorem wrongApprovals_witness_slots :
    let as := [goodAppr (zeroBytes 16) 3 (zeroBytes 32) (cmdDigest (wDesc (wSlot 1 0 true)) []) 0 (wSeed 0),
      goodAppr (zeroBytes 16) 4 (zeroBytes 32) (cmdDigest (wDesc (wSlot 1 0 true)) []) 1 (wSeed 1)]
    mgmtStarts pairUnbind (wSlot 1 0 true) 0 (wDesc (wSlot 1 0 true)) [] as ([] ++ joinBytes as) ∧
    ∃ a ∈ as, ∃ b ∈ as, apChal a ≠ apChal b := by
  refine ⟨slot_starts 1 0 true _ rfl ?_, _, List.mem_cons_self .., _, List.mem_cons_of_mem _ (List.mem_cons_self ..), ?_⟩
  · simp only [List.forall_mem_cons, List.not_mem_nil, false_implies, implies_true, and_true]
    exact ⟨goodAppr_length _ _ _ _ _ _ (length_shake256 _), goodAppr_length _ _ _ _ _ _ (length_shake256 _)⟩
  · rw [goodAppr_chal _ _ _ _ _ _ (by decide), goodAppr_chal _ _ _ _ _ _ (by decide)]
    decide

/-! ### EntropySources -/

/-- Source A in state `a` with a held seed, source B in state `b`; the instances instantiated and ready, or none; `q` seeds queued. -/
def wNoise (a b : SrcState) (ready : Bool) (q count : Nat) : State := { State.reset with
  pwr := { State.reset.pwr with main := true, mode := .active }
  hif := { State.reset.hif with linkUp := true }
  ent := { State.reset.ent with
    srcA := { State.reset.ent.srcA with st := a, held := [zeroBytes 32] }
    srcB := { State.reset.ent.srcB with st := b }
    sel := 0
    queue := List.replicate q (zeroBytes 32)
    drbgs := List.replicate 16 (if ready then ⟨zeroBytes 32, zeroBytes 16, count, true, false, false⟩ else Drbg.blank) } }

theorem entropySources_witness (a b : SrcState) (ha : a ≠ .off) : srcRuns (wNoise a b true 0 0) 0 ∧ (wNoise a b true 0 0).dbg.inj = none ∧
    regsTake (wNoise a b true 0 0) ∧ (wNoise a b true 0 0).ent.sel < 2 ∧ (srcOf (wNoise a b true 0 0) 0).st = a ∧ (srcOf (wNoise a b true 0 0) 1).st = b ∧
    (srcOf (wNoise a b true 0 0) 0).held = zeroBytes 32 :: [] :=
  ⟨⟨by decide, rfl, ha⟩, rfl, ⟨rfl, rfl, by simp [wNoise], by simp [wNoise]⟩, by simp [wNoise], rfl, rfl, rfl⟩

/-- A window of equal samples fails; one of alternating samples passes. -/
theorem entropySources_witness_window : aptCutoff 0 ≤ aptCount (zeroBytes 128) ∧ aptCount (List.replicate 128 0x55) < aptCutoff 0 ∧
    (∀ d ∈ (wNoise .warm .warm true 0 0).ent.drbgs, d.ready = true) ∧ (∃ d ∈ (wNoise .warm .warm false 0 0).ent.drbgs, d.ready = false) := by
  decide +kernel

/-- Every seed of the queue is used, an instance asks, or the instances are to come. -/
theorem entropySources_witness_seed : seedWinner (wNoise .selected .warm true 0 0) = none ∧ seedWinner (wNoise .selected .warm true 0 5000) = some 0 ∧
    (wNoise .selected .warm true 0 5000).ent.drbgs.length = 16 ∧ 32 ≤ (wNoise .selected .warm true 32 0).ent.queue.length ∧
    (∀ d ∈ (wNoise .selected .warm false 2 0).ent.drbgs, d.ready = false) ∧ drbgPairs (wNoise .selected .warm false 2 0) < 8 ∧
    (wNoise .selected .warm false 2 0).ent.queue = [zeroBytes 32, zeroBytes 32] ∧ (wNoise .selected .warm false 1 0).ent.queue.length < 2 := by
  decide +kernel

/-- A failure at time 0 is 1 s old, or is not. -/
theorem entropySources_witness_cooling :
    (srcOf { wNoise .cooling .warm true 0 0 with time := { State.reset.time with refCount := 100000000 } } 0).failAt + 100000000 ≤ 100000000 ∧
    (wNoise .cooling .warm true 0 0).time.refCount < (srcOf (wNoise .cooling .warm true 0 0) 0).failAt + 100000000 := by decide +kernel

/-! ### TamperBlock -/

/-- A deployed device in a mode, its monitors fresh, the unlock busy, PWRFAIL_N asserted. -/
def wTmp (m : Mode) : State := { State.reset with
  pwr := { State.reset.pwr with main := true, mode := m, pwrfail := some 0, supplies := true }
  hif := { State.reset.hif with linkUp := true }
  tmp := { State.reset.tmp with mons := (List.range 18).map Monitor.fresh, lockOrder := true, eraseOrder := true, busy := true }
  aud := { State.reset.aud with next := 5, anchorDue := false }
  lcy := { State.reset.lcy with state := .deployed } }

theorem tamperBlock_witness_arms : (∀ m < 18, monArmed (wTmp .active) m = true) ∧ 17 < (wTmp .active).tmp.mons.length ∧ (wTmp .active).dbg.inj = none ∧
    (wTmp .active).tmp.lowRearmed = false ∧ (wTmp .active).pwr.pwrfail.isSome = true ∧ logTakes (wTmp .active) ∧
    monArmed { wTmp .active with tmp := { (wTmp .active).tmp with encBurned := true } } 5 = false := by decide +kernel

/-- The mesh senses what is driven, or something else. -/
theorem tamperBlock_witness_mesh : meshDriven 3 (meshAdvance 3 (wTmp .active)) ≠ [7] ∧
    ∃ l, meshDriven 3 (meshAdvance 3 (wTmp .active)) = l := ⟨fun h => by
      have h2 : ∀ x ∈ meshDriven 3 (meshAdvance 3 (wTmp .active)), x < 2 := by
        intro x hx
        obtain ⟨y, -, rfl⟩ := List.mem_map.1 hx
        omega
      rw [h] at h2
      exact absurd (h2 7 (by simp)) (by decide), _, rfl⟩

/-- A disagreement of monitor 9 held for 10 µs, and one that has fired. -/
def wDis (f : Bool) : State :=
  let s := wTmp .active
  let s := modMon 9 (fun x => { x with dis := true, disSince := some 0, disAlarm := { x.disAlarm with fired := f } }) s
  { s with time := { s.time with refCount := 5000 } }
theorem tamperBlock_witness_dis : monArmed (wDis false) 9 = true ∧ disHeld (wDis false) 9 = true ∧ (monAt (wDis false) 9).disAlarm.fired = false ∧
    (monAt (wDis false) 9).inj = none ∧ disHeld (wTmp .active) 9 = false ∧ (monAt (wDis true) 9).disAlarm.fired = true := by decide +kernel

theorem tamperBlock_witness_modes (m : Mode) : (wTmp m).pwr.main = true ∧ (wTmp m).tmp.lockOrder = true ∧ (wTmp m).tmp.eraseOrder = true ∧
    (wTmp m).pwr.mode = m ∧ (wTmp m).tmp.busy = true ∧ (wTmp m).aud.buf.length < 60 ∧ toksOnce (wTmp m) ∧ (wTmp m).pwr.supplies = true ∧
    State.reset.tmp.lockOrder = false ∧ State.reset.tmp.eraseOrder = false :=
  ⟨rfl, rfl, rfl, rfl, rfl, show 0 < 60 by decide, List.nodup_nil, rfl, rfl, rfl⟩

/-- One token is ready in LOCKED. -/
theorem tamperBlock_witness_closing : ∃ s : State, ∃ k : Token, s.pwr.main = true ∧ s.pwr.mode = .locked ∧ s.slm.toks = [(0, k)] ∧ toksOnce s ∧
    tokenAtRest k.st ∧ k.ordered = false ∧ k.recNo = none :=
  ⟨{ wTmp .locked with slm := { (wTmp .locked).slm with toks := [(0, { Token.free with st := .ready })] } }, { Token.free with st := .ready },
    rfl, rfl, rfl, by decide, by decide, rfl, rfl⟩

theorem tamperBlock_witness_pwrfail : 0 + 5000000 ≤ ({ wTmp .active with time := { (wTmp .active).time with refCount := 5000000 } } : State).time.refCount ∧
    (wTmp .active).time.refCount < 0 + 5000000 := by decide

/-- A LOCKED device with three custody officers, and an unlock record's first 48 bytes. -/
def wUnlock (alarmed : Bool) : State :=
  let s := wTmp .locked
  { s with
    tmp := { s.tmp with
      challenge := zeroBytes 32
      chalTime := some 0
      alarmed := alarmed
      lockSeq := 9 }
    lcy := { s.lcy with officers := [wOfficer 1 0, wOfficer 1 1, wOfficer 1 2] } }
def wUnlockHead : Bytes := [1, 0, 9, 0] ++ leBytes 4 59712 ++ zeroBytes 32 ++ zeroBytes 8
def wUnlockAppr : List Bytes := wTwo.map fun x => goodAppr (wUnlock false).lcy.ident 0xFF (zeroBytes 32) (shake256 32 (wUnlockHead.take 40)) x.2.1 x.2.2
def wUnlockRec : Bytes := wUnlockHead ++ (joinBytes wUnlockAppr ++ [])
theorem wUnlockAppr_length : ∀ a ∈ wUnlockAppr, a.length = 29856 := by
  intro a ha
  obtain ⟨x, -, rfl⟩ := List.mem_map.1 ha
  exact goodAppr_length _ _ _ _ _ _ (length_shake256 _)
theorem wUnlockRec_field (n k : Nat) (h : n + k ≤ 48) : slice wUnlockRec n k = slice wUnlockHead n k := by
  have e : wUnlockHead.length = 48 := by decide
  rw [wUnlockRec, slice, slice, List.drop_append_of_le_length (by omega), List.take_append_of_le_length (by simp; omega)]

theorem wUnlockRec_appr : apprList wUnlockRec 0x30 2 = wUnlockAppr := by
  have hl := length_joinBytes 29856 wUnlockAppr wUnlockAppr_length
  have e : wUnlockHead.length = 48 := by decide
  have h : ∀ i, i < 2 → slice wUnlockRec (48 + 29856 * i) 29856 = wUnlockAppr.getD i [] := by
    intro i hi
    have hi2 : i < wUnlockAppr.length := hi
    rw [List.getD_eq_getElem _ _ hi2, ← slice_joinBytes 29856 wUnlockAppr wUnlockAppr_length i hi2, wUnlockRec, List.append_nil, slice, slice, ← List.drop_drop, ← e,
      List.drop_left]
  rw [apprList]
  exact (congrArg₂ (fun a b => [a, b]) (h 0 (by decide)) (h 1 (by decide))).trans rfl

theorem tamperBlock_witness_unlock : unlockGood (wUnlock false) wUnlockRec ∧ wUnlockRec.length = 59760 ∧ (wUnlock false).tmp.busy = true ∧
    (wUnlock true).tmp.alarmed = true := by
  have f := wUnlockRec_field
  refine ⟨⟨rfl, rfl, by decide +kernel, ⟨?_, ?_, ?_⟩, ?_, ?_, ?_⟩, ?_, rfl, rfl⟩
  · rw [leAt, f _ _ (by decide)]; decide
  · rw [f _ _ (by decide)]; decide
  · rw [f _ _ (by decide)]; decide +kernel
  · rw [leAt, f _ _ (by decide)]; decide
  · rw [leAt, f _ _ (by decide)]; decide
  · rw [f _ _ (by decide), wUnlockRec_appr, show slice wUnlockHead 0 0x28 = wUnlockHead.take 40 from rfl]
    exact apprCheck_good (wUnlock false) _ wTwo 0xFF _ _ (length_shake256 _) (by decide) (two _ rfl rfl) (by decide) rfl
  · rw [wUnlockRec, List.append_nil, List.length_append, length_joinBytes 29856 _ wUnlockAppr_length]
    decide

theorem tamperBlock_witness_registers (m : Mode) (h : m = .active ∨ m = .locked ∨ m = .recovery) :
    let s := { wTmp m with tmp := State.reset.tmp }
    regsTake s ∧ s.tmp.busy = false ∧ s.pwr.mode = m ∧ drbgLive s 0 = false ∧
    drbgLive { s with ent := (wNoise .warm .warm true 0 0).ent } 0 = true := by
  rcases h with rfl | rfl | rfl <;> decide +kernel

/-- The unlock record may be read, or not. -/
theorem tamperBlock_witness_pointer :
    hostRefusal (modFn 0 (fun x => { x with regions := [⟨0, 64, 0x4007⟩] }) (wTmp .locked)) (hifMaster 0 0) 0 0 59760 false = none ∧
    (hostRefusal (wTmp .locked) (hifMaster 0 0) 0 (wTmp .locked).tmp.unlockPtr 59760 false).isSome = true := by decide +kernel

/-! ### LifeCycleTransitions -/

/-- A request record of an OP with a body and approvals that name a slot. -/
def wReq0 (op chal count n : Nat) : Bytes := leBytes 2 op ++ leBytes 1 chal ++ leBytes 1 count ++ leBytes 4 n
def wReqRec (op chal : Nat) (body : Bytes) (as : List Bytes) : Bytes := wReq0 op chal as.length body.length ++ (body ++ (joinBytes as ++ []))

theorem wReq0_length (op chal count n : Nat) : (wReq0 op chal count n).length = 8 := by simp [wReq0, length_leBytes]
theorem wReq0_fields (op chal count n : Nat) (x : Bytes) (ho : op < 65536) (hc : chal < 256) (hk : count < 256) (hn : n < 2 ^ 32) :
    leAt (wReq0 op chal count n ++ x) 0 2 = op ∧ leAt (wReq0 op chal count n ++ x) 2 1 = chal ∧ leAt (wReq0 op chal count n ++ x) 3 1 = count ∧
    leAt (wReq0 op chal count n ++ x) 4 4 = n := by
  refine ⟨?_, ?_, ?_, ?_⟩
  · rw [wReq0, List.append_assoc, List.append_assoc, List.append_assoc, leAt_head]
    exact Nat.mod_eq_of_lt (by simpa using ho)
  · rw [wReq0, List.append_assoc, List.append_assoc, List.append_assoc, leAt_at _ _ 2 1 chal (length_leBytes 2 op)]
    exact Nat.mod_eq_of_lt (by simpa using hc)
  · rw [wReq0, List.append_assoc, List.append_assoc, List.append_assoc, ← List.append_assoc (leBytes 2 op), leAt_at _ _ 3 1 count (by simp [length_leBytes])]
    exact Nat.mod_eq_of_lt (by simpa using hk)
  · rw [wReq0, List.append_assoc, leAt_at _ _ 4 4 n (by simp [length_leBytes])]
    exact Nat.mod_eq_of_lt (by simpa using hn)

theorem wReqRec_length (op chal : Nat) (body : Bytes) (as : List Bytes) (ha : ∀ a ∈ as, a.length = 29856) :
    (wReqRec op chal body as).length = 8 + body.length + 29856 * as.length := by
  rw [wReqRec, List.length_append, List.length_append, List.append_nil, length_joinBytes 29856 as ha, wReq0_length]
  omega

theorem padTo_full (b : Bytes) (n : Nat) (h : b.length = n) : padTo n b = b :=
  slice_full b n h

/-- What the device reads in such a record. -/
theorem wReqRec_of (op chal : Nat) (body : Bytes) (as : List Bytes) (ho : op < 65536) (hc : chal < 256) (hk : as.length < 256)
    (hn : body.length < 2 ^ 32) (ha : ∀ a ∈ as, a.length = 29856) :
    lreqLen (wReqRec op chal body as) = (wReqRec op chal body as).length ∧ leAt (wReqRec op chal body as) 0 2 = op ∧
    leAt (wReqRec op chal body as) 4 4 = body.length ∧
    reqOf (wReqRec op chal body as) = ⟨op, chal, as.length, body, as, shake256 32 (ascii "EHROS-CMD" ++ (wReq0 op chal as.length body.length ++ body))⟩ := by
  have hl := wReqRec_length op chal body as ha
  have f := wReq0_fields op chal as.length body.length (body ++ (joinBytes as ++ [])) ho hc hk hn
  have f8 := wReq0_fields op chal as.length body.length [] ho hc hk hn
  have h0 := wReq0_length op chal as.length body.length
  have e : wReqRec op chal body as = wReq0 op chal as.length body.length ++ (body ++ (joinBytes as ++ [])) := rfl
  have hp : padTo 8 (wReqRec op chal body as) = wReq0 op chal as.length body.length ++ [] := by
    rw [List.append_nil, padTo, e]
    exact slice_at [] _ _ 0 8 rfl h0
  have len8 : lreqLen (padTo 8 (wReqRec op chal body as)) = (wReqRec op chal body as).length := by
    rw [hp, lreqLen, reqBodyLen, f8.2.2.1, f8.2.2.2, hl]
  have len : lreqLen (wReqRec op chal body as) = (wReqRec op chal body as).length := by
    rw [hl, e, lreqLen, reqBodyLen, f.2.2.1, f.2.2.2]
  refine ⟨len, f.1, f.2.2.2, ?_⟩
  have body_ : slice (wReqRec op chal body as) 8 body.length = body := slice_at _ _ _ _ _ h0 rfl
  have apprs : apprList (wReqRec op chal body as) (8 + body.length) as.length = as := by
    rw [apprList]
    apply List.ext_getElem (by simp)
    intro i h1 h2
    rw [List.getElem_map, List.getElem_range, ← slice_joinBytes 29856 as ha i h2, e, List.append_nil, ← List.append_assoc, slice, slice,
      ← List.drop_drop]
    have : (wReq0 op chal as.length body.length ++ body).length = 8 + body.length := by rw [List.length_append, h0]
    rw [← this, List.drop_left]
  have take_ : (wReqRec op chal body as).take (8 + body.length) = wReq0 op chal as.length body.length ++ body := by
    have : (wReq0 op chal as.length body.length ++ body).length = 8 + body.length := by rw [List.length_append, h0]
    rw [e, ← List.append_assoc, ← this, List.take_left]
  rw [reqOf, len8, padTo_full _ _ rfl, reqBodyLen, show leAt (wReqRec op chal body as) 4 4 = body.length from f.2.2.2,
    show leAt (wReqRec op chal body as) 3 1 = as.length from f.2.2.1, show leAt (wReqRec op chal body as) 0 2 = op from f.1,
    show leAt (wReqRec op chal body as) 2 1 = chal from f.2.1, body_, apprs, take_]

/-- The digest of a token of zero bytes. -/
@[irreducible] def wDigest : Bytes := shake256 32 (zeroBytes 32)
theorem wDigest_eq : wDigest = shake256 32 (zeroBytes 32) := by unfold wDigest; rfl

/-- A device in a life-cycle state, in STANDBY, whose host lets the record be read; every token is 32 zero bytes, slot 3 is live. -/
def wLcs (st : Lcs) (officers : List Officer) : State :=
  let s := wTmp .standby
  let s := modFn 0 (fun x => { x with regions := [⟨0, 64, 0x4037⟩] }) s
  { s with
    ent := (wNoise .warm .warm true 0 0).ent
    lcy := { s.lcy with
      state := st
      officers := officers
      recs := List.replicate 16 ⟨0, 0, 0⟩
      tProvDig := wDigest
      tDig := List.replicate 9 wDigest
      rom := [slhPk slh256f (wSeed 40), slhPk slh256s (wSeed 50)]
      chals := List.replicate 3 Chal.empty ++ [⟨1, zeroBytes 32, 0⟩] ++ List.replicate 12 Chal.empty } }

theorem replicate_getD (d : Bytes) (n i : Nat) (h : i < n) : (List.replicate n d).getD i [] = d := by
  rw [List.getD_eq_getElem _ _ (by simpa using h), List.getElem_replicate]

theorem tokenCheck_of (s : State) (i : Nat) (q : Req)
    (h : (if i = 0 then s.lcy.tProvDig else s.lcy.tDig.getD (i - 1) []) = shake256 32 (q.body.take 32)) : tokenCheck s i q = 0 := by
  simp only [tokenCheck]
  rw [h, padTo_full _ _ (length_shake256 _), if_pos rfl]

theorem wLcs_token (st : Lcs) (os : List Officer) (i : Nat) (hi : i ≤ 9) (q : Req) (hq : q.body.take 32 = zeroBytes 32) :
    tokenCheck (wLcs st os) i q = 0 := by
  apply tokenCheck_of
  rw [hq, ← wDigest_eq]
  by_cases h0 : i = 0
  · rw [if_pos h0]
    rfl
  · rw [if_neg h0]
    exact replicate_getD _ 9 (i - 1) (by omega)
theorem provision_token (s : State) (q : Req) : provision.token s q = tokenCheck s 0 q := rfl
theorem deploy_token (s : State) (q : Req) : deploy.token s q = tokenCheck s 1 q := rfl
theorem deploy_form (s : State) (q : Req) : deploy.form s q = deployForm q := rfl
theorem return_token (s : State) (q : Req) : return_.token s q = tokenCheck s (2 + s.lcy.returns) q := rfl
theorem redeploy_token (s : State) (q : Req) : redeploy.token s q = tokenCheck s (6 + s.lcy.redeploys) q := rfl
theorem retire_token (s : State) (q : Req) : retire.token s q = tokenCheck s 9 q := rfl
theorem small_zeroBytes : (zeroBytes 32 : Bytes).length < 2 ^ 32 := by rw [zeroBytes_length]; omega
theorem take_zeroBytes : (zeroBytes 32 : Bytes).take 32 = zeroBytes 32 := by decide

/-- The host lets a record of `n` bytes be read. -/
theorem wLcs_reads (st : Lcs) (os : List Officer) : (∀ n ∈ [8, 40, 59752, 59920], hostRefusal (wLcs st os) (hifMaster 0 0) 0 (if n = 8 then 0 else 8)
    n false = none) ∧ goTaken (wLcs st os) := by
  have e : ∀ n a, hostRefusal (wLcs st os) (hifMaster 0 0) 0 a n false = hostRefusal (wLcs .blank []) (hifMaster 0 0) 0 a n false := fun _ _ => rfl
  refine ⟨?_, ⟨rfl, rfl, fun h => Mode.noConfusion (show Mode.standby = Mode.guard from h)⟩, rfl, rfl, ?_⟩
  · intro n hn
    rw [e]
    revert n
    decide +kernel
  · exact (e 8 0).trans (by decide +kernel)

theorem lcs_read (st : Lcs) (os : List Officer) (op chal : Nat) (body : Bytes) (as : List Bytes) (ho : op < 65536) (hc : chal < 256)
    (hk : as.length < 256) (hn : body.length < 2 ^ 32) (ha : ∀ a ∈ as, a.length = 29856)
    (hl : body.length + 29856 * as.length ∈ [40, 59752, 59920] ∨ hostRefusal (wLcs st os) (hifMaster 0 0) 0 8 (body.length + 29856 * as.length) false = none) :
    reqRead (wLcs st os) op (wReqRec op chal body as) := by
  obtain ⟨h1, h2, h3, h4⟩ := wReqRec_of op chal body as ho hc hk hn ha
  have h5 := wReqRec_length op chal body as ha
  refine ⟨(wLcs_reads st os).2, by omega, h2, fun _ _ => ⟨h1.symm, ?_⟩⟩
  rw [h1, h5, show 8 + body.length + 29856 * as.length - 8 = body.length + 29856 * as.length by omega]
  rcases hl with hl | hl
  · have := (wLcs_reads st os).1 _ (List.mem_cons_of_mem 8 hl)
    rwa [if_neg (by simp at hl; omega)] at this
  · exact hl

theorem lifeCycleTransitions_witness_go : goTaken (wLcs .blank []) ∧ (wLcs .blank []).lcy.recs.length = 16 ∧ drbgLive (wLcs .blank []) 0 = true ∧
    drbgLive { wLcs .blank [] with ent := State.reset.ent } 0 = false := ⟨(wLcs_reads _ _).2, rfl, rfl, rfl⟩

theorem lcs_latch (st : Lcs) (os : List Officer) : latchCount (wLcs st os) = 0 := rfl

/-- PROVISION. -/
theorem lifeCycleTransitions_witness_provision : let b := wReqRec 0x11 0 (zeroBytes 32) []
    reqRead (wLcs .blank []) 0x11 b ∧ reqPasses (wLcs .blank []) provision b := by
  obtain ⟨-, -, h3, h4⟩ := wReqRec_of 0x11 0 (zeroBytes 32) [] (by decide) (by decide) (by decide) small_zeroBytes (by simp)
  refine ⟨lcs_read _ _ _ _ _ _ (by decide) (by decide) (by decide) small_zeroBytes (by simp) (.inr (by decide +kernel)), ?_⟩
  rw [reqPasses, h3, h4]
  exact ⟨⟨rfl, rfl, rfl⟩, by decide, ⟨fun _ => .inl rfl, Nat.zero_le _, decide_eq_true (zeroBytes_length 32)⟩, (provision_token _ _).trans (wLcs_token _ _ 0 (by decide) _ take_zeroBytes), rfl⟩

/-- RETURN and RETIRE with an empty officer table. -/
theorem lifeCycleTransitions_witness_return : let b := wReqRec 0x13 0 (zeroBytes 32) []
    reqRead (wLcs .deployed []) 0x13 b ∧ reqPasses (wLcs .deployed []) return_ b := by
  obtain ⟨-, -, h3, h4⟩ := wReqRec_of 0x13 0 (zeroBytes 32) [] (by decide) (by decide) (by decide) small_zeroBytes (by simp)
  refine ⟨lcs_read _ _ _ _ _ _ (by decide) (by decide) (by decide) small_zeroBytes (by simp) (.inr (by decide +kernel)), ?_⟩
  rw [reqPasses, h3, h4]
  exact ⟨⟨rfl, rfl, rfl⟩, by decide, ⟨fun _ => .inl rfl, Nat.zero_le _, decide_eq_true (zeroBytes_length 32)⟩, (return_token _ _).trans (wLcs_token _ _ _ (by decide +kernel) _ take_zeroBytes), rfl⟩

theorem lifeCycleTransitions_witness_retire : let b := wReqRec 0x15 0 (zeroBytes 32) []
    reqRead (wLcs .blank []) 0x15 b ∧ reqPasses (wLcs .blank []) retire b := by
  obtain ⟨-, -, h3, h4⟩ := wReqRec_of 0x15 0 (zeroBytes 32) [] (by decide) (by decide) (by decide) small_zeroBytes (by simp)
  refine ⟨lcs_read _ _ _ _ _ _ (by decide) (by decide) (by decide) small_zeroBytes (by simp) (.inr (by decide +kernel)), ?_⟩
  rw [reqPasses, h3, h4]
  exact ⟨⟨rfl, rfl, rfl⟩, by decide, ⟨fun _ => .inl rfl, Nat.zero_le _, decide_eq_true (zeroBytes_length 32)⟩, (retire_token _ _).trans (wLcs_token _ _ 9 (by decide) _ take_zeroBytes), rfl⟩

/-- The approvals that these signers give a request record naming slot 3. -/
def wReqAppr (op : Nat) (body : Bytes) (xs : List (Signer × Nat × Bytes)) : List Bytes :=
  xs.map fun x => goodAppr (wLcs .blank []).lcy.ident 3 (zeroBytes 32)
    (shake256 32 (ascii "EHROS-CMD" ++ (wReq0 op 3 xs.length body.length ++ body))) x.2.1 x.2.2
theorem wReqAppr_length (op : Nat) (body : Bytes) (xs : List (Signer × Nat × Bytes)) : ∀ a ∈ wReqAppr op body xs, a.length = 29856 := by
  intro a ha
  obtain ⟨x, -, rfl⟩ := List.mem_map.1 ha
  exact goodAppr_length _ _ _ _ _ _ (length_shake256 _)

theorem lcs_approved (st : Lcs) (os : List Officer) (op : Nat) (body : Bytes) (xs : List (Signer × Nat × Bytes))
    (hk : ∀ x ∈ xs, x.2.1 < 256 ∧ signerKey (wLcs st os) x.1 x.2.1 = some (slhPk slh256s x.2.2))
    (hd : allDistinct ((xs.filter fun x => isCustody x.1).map fun x => x.2.1) = true) :
    reqCheck (wLcs st os) ⟨op, 3, xs.length, body, wReqAppr op body xs,
      shake256 32 (ascii "EHROS-CMD" ++ (wReq0 op 3 xs.length body.length ++ body))⟩ (xs.map fun x => x.1) = 0 := by
  have hs : slotCheck (wLcs st os) (tick (wLcs st os)) (3 :: xs.map fun _ => 3) = (0, zeroBytes 32) := by
    have hc : (wLcs st os).lcy.chals.getD 3 Chal.empty = ⟨1, zeroBytes 32, 0⟩ := rfl
    have ht : tick (wLcs st os) = 0 := (show tick (wLcs st os) = tick (wLcs .blank []) from rfl).trans (by decide +kernel)
    rw [slotCheck]
    simp only [hc, ht]
    simp
  have := apprCheck_good (wLcs st os) (shake256 32 (ascii "EHROS-CMD" ++ (wReq0 op 3 xs.length body.length ++ body))) xs 3 (zeroBytes 32)
    (fun cs => slotCheck (wLcs st os) (tick (wLcs st os)) (3 :: cs)) (length_shake256 _) (by decide) hk hd hs
  have e : wReqAppr op body xs = xs.map fun x => goodAppr (wLcs st os).lcy.ident 3 (zeroBytes 32)
    (shake256 32 (ascii "EHROS-CMD" ++ (wReq0 op 3 xs.length body.length ++ body))) x.2.1 x.2.2 := rfl
  by_cases hx : xs = []
  · subst hx
    rfl
  · rw [reqCheck, if_neg (by simp), if_neg (by simpa using hx)]
    simp only [e, this]

/-- REDEPLOY with two custody approvals. -/
def wThree : List Officer := [wOfficer 1 0, wOfficer 1 1, wOfficer 1 2]
theorem lifeCycleTransitions_witness_redeploy : let b := wReqRec 0x14 3 (zeroBytes 32) (wReqAppr 0x14 (zeroBytes 32) wTwo)
    reqRead (wLcs .returned wThree) 0x14 b ∧ reqPasses (wLcs .returned wThree) redeploy b := by
  have hl := wReqAppr_length 0x14 (zeroBytes 32) wTwo
  obtain ⟨-, -, h3, h4⟩ := wReqRec_of 0x14 3 (zeroBytes 32) (wReqAppr 0x14 (zeroBytes 32) wTwo) (by decide) (by decide) (by decide) small_zeroBytes hl
  refine ⟨lcs_read _ _ _ _ _ _ (by decide) (by decide) (by decide) small_zeroBytes hl (.inr ?_), ?_⟩
  · exact (show hostRefusal (wLcs .blank []) (hifMaster 0 0) 0 8 59744 false = none by decide +kernel)
  · rw [reqPasses, h3, h4]
    exact ⟨⟨rfl, rfl, rfl⟩, by decide, ⟨fun h => absurd h (by decide), by decide, decide_eq_true (zeroBytes_length 32)⟩, (redeploy_token _ _).trans (wLcs_token _ _ _ (by decide) _ take_zeroBytes),
      lcs_approved .returned wThree 0x14 (zeroBytes 32) wTwo (two _ rfl rfl) (by decide)⟩

/-- DEPLOY by two custody officers whose entries are the body's. -/
def wMember (i : Nat) : Bytes := leBytes 1 i ++ (([1] : Bytes) ++ (zeroBytes 6 ++ (zeroBytes 16 ++ (slhPk slh256s (wSeed i) ++ []))))
theorem wMember_length (i : Nat) : (wMember i).length = 88 := by
  simp only [wMember, List.length_append, length_leBytes, length_slhPk, zeroBytes_length]
  rfl
theorem wMember_of (i : Nat) (hi : i < 256) : memberOf (wMember i) = (i, 1, zeroBytes 16, slhPk slh256s (wSeed i)) ∧ slice (wMember i) 2 6 = zeroBytes 6 := by
  have h0 : leAt (wMember i) 0 1 = i := by
    rw [wMember, leAt_head]
    exact Nat.mod_eq_of_lt (by simpa using hi)
  have h1 : slice (wMember i) 1 1 = [1] := slice_at (leBytes 1 i) [1] _ 1 1 (length_leBytes 1 i) rfl
  have h2 : slice (wMember i) 2 6 = zeroBytes 6 := by
    rw [wMember, ← List.append_assoc]
    exact slice_at _ _ _ _ _ (by simp [length_leBytes]) rfl
  have h3 : slice (wMember i) 8 16 = zeroBytes 16 := by
    rw [wMember, ← List.append_assoc, ← List.append_assoc]
    exact slice_at _ _ _ _ _ (by simp [length_leBytes, zeroBytes]) rfl
  have h4 : slice (wMember i) 0x18 64 = slhPk slh256s (wSeed i) := by
    rw [wMember, ← List.append_assoc, ← List.append_assoc, ← List.append_assoc]
    exact slice_at _ _ _ _ _ (by simp [length_leBytes, zeroBytes]) (length_slhPk _ _)
  refine ⟨?_, h2⟩
  rw [memberOf, h0, leAt, h1, h3, h4]
  rfl

theorem leNat_mod (a b : Bytes) : leNat (a ++ b) % 256 ^ a.length = leNat a % 256 ^ a.length := by
  induction a with
  | nil => simp [Nat.mod_one]
  | cons x xs ih =>
    rw [List.cons_append, leNat, leNat, List.length_cons, Nat.pow_succ', Nat.add_mod, Nat.mul_mod_mul_left, ih, ← Nat.mul_mod_mul_left,
      ← Nat.add_mod]

/-- Keys whose public seeds differ as numbers differ as numbers. -/
theorem pk_number (a b : Nat) (h : leNat (slice (wSeed a) 64 32) % 256 ^ 32 ≠ leNat (slice (wSeed b) 64 32) % 256 ^ 32)
    (ha : (slice (wSeed a) 64 32).length = 32) (hb : (slice (wSeed b) 64 32).length = 32) :
    leNat (slhPk slh256s (wSeed a)) ≠ leNat (slhPk slh256s (wSeed b)) := by
  intro e
  have key : ∀ n, (slice (wSeed n) 64 32).length = 32 → leNat (slhPk slh256s (wSeed n)) % 256 ^ 32 = leNat (slice (wSeed n) 64 32) % 256 ^ 32 := by
    intro n hn
    have h1 := leNat_mod ((slhPk slh256s (wSeed n)).take 32) ((slhPk slh256s (wSeed n)).drop 32)
    rw [List.take_append_drop, slhPk_seed, hn] at h1
    exact h1
  exact h (by rw [← key a ha, ← key b hb, e])

theorem two_distinct (a b : Nat) (h : a ≠ b) : allDistinct [a, b] = true := by simp [allDistinct, h]

def wDeployBody : Bytes := zeroBytes 32 ++ joinBytes [wMember 0, wMember 1]
theorem wDeployBody_length : wDeployBody.length = 208 := by
  rw [wDeployBody, List.length_append, length_joinBytes 88 _ (by simp [wMember_length])]
  rfl
theorem wDeployBody_chunks : chunks 88 (wDeployBody.drop 32) = [wMember 0, wMember 1] := by
  have hd : wDeployBody.drop 32 = joinBytes [wMember 0, wMember 1] := by
    rw [wDeployBody]
    exact List.drop_left' rfl
  have hl := length_joinBytes 88 [wMember 0, wMember 1] (by simp [wMember_length])
  rw [hd, chunks, chunks_joinBytes 88 (by decide) _ (by simp [wMember_length])]
  rw [hl]
  decide

def wDeployers : List (Signer × Nat × Bytes) := [(.member 0 (slhPk slh256s (wSeed 0)), 0, wSeed 0), (.member 1 (slhPk slh256s (wSeed 1)), 1, wSeed 1)]
theorem lifeCycleTransitions_witness_deploy : let b := wReqRec 0x12 3 wDeployBody (wReqAppr 0x12 wDeployBody wDeployers)
    reqRead (wLcs .provisioned []) 0x12 b ∧ reqPasses (wLcs .provisioned []) deploy b := by
  have hl := wReqAppr_length 0x12 wDeployBody wDeployers
  have hb := wDeployBody_length
  obtain ⟨-, -, h3, h4⟩ := wReqRec_of 0x12 3 wDeployBody (wReqAppr 0x12 wDeployBody wDeployers) (by decide) (by decide) (by decide) (by rw [hb]; decide) hl
  have ho : ∀ i, i < 256 → apOfficer (goodAppr (wLcs .blank []).lcy.ident 3 (zeroBytes 32)
      (shake256 32 (ascii "EHROS-CMD" ++ (wReq0 0x12 3 wDeployers.length wDeployBody.length ++ wDeployBody))) i (wSeed i)) = i :=
    fun i hi => goodAppr_officer _ _ _ _ _ _ hi
  refine ⟨lcs_read _ _ _ _ _ _ (by decide) (by decide) (by decide) (by rw [hb]; decide) hl (.inr ?_), ?_⟩
  · rw [hb]
    exact (show hostRefusal (wLcs .blank []) (hifMaster 0 0) 0 8 59920 false = none by decide +kernel)
  · rw [reqPasses, h3, h4]
    have hm : ∀ x, members ⟨0x12, 3, (wReqAppr 0x12 wDeployBody wDeployers).length, wDeployBody, wReqAppr 0x12 wDeployBody wDeployers, x⟩ =
        [(0, 1, zeroBytes 16, slhPk slh256s (wSeed 0)), (1, 1, zeroBytes 16, slhPk slh256s (wSeed 1))] := by
      intro x
      rw [members, wDeployBody_chunks, List.map_cons, List.map_cons, List.map_nil, (wMember_of 0 (by decide)).1, (wMember_of 1 (by decide)).1]
    have hs : ∀ x, deploy.signers (wLcs .provisioned []) ⟨0x12, 3, (wReqAppr 0x12 wDeployBody wDeployers).length, wDeployBody,
        wReqAppr 0x12 wDeployBody wDeployers, x⟩ = wDeployers.map fun y => y.1 := by
      intro x
      simp only [deploy]
      rw [hm x, if_pos (show (wReqAppr 0x12 wDeployBody wDeployers).length =
        [((0 : Nat), (1 : Nat), zeroBytes 16, slhPk slh256s (wSeed 0)), (1, 1, zeroBytes 16, slhPk slh256s (wSeed 1))].length from rfl)]
      simp only [wReqAppr, wDeployers, List.map_cons, List.map_nil]
      have h0 := ho 0 (by decide)
      have h1 := ho 1 (by decide)
      simp only [wDeployers] at h0 h1
      rw [h0, h1]
      rfl
    have hf : ∀ x, deploy.form (wLcs .provisioned []) ⟨0x12, 3, (wReqAppr 0x12 wDeployBody wDeployers).length, wDeployBody,
        wReqAppr 0x12 wDeployBody wDeployers, x⟩ = true := by
      intro x
      have d := pk_number 0 1 (by decide +kernel) (by decide +kernel) (by decide +kernel)
      rw [deploy_form, deployForm, hm x]
      simp only
      have a1 : [wMember 0, wMember 1].all (fun b => allZero (slice b 2 6)) = true := by
        simp only [List.all_cons, List.all_nil, (wMember_of 0 (by decide)).2, (wMember_of 1 (by decide)).2]
        decide
      rw [hb, wDeployBody_chunks, a1]
      simp only [List.map_cons, List.map_nil]
      rw [two_distinct _ _ d]
      rfl
    refine ⟨⟨rfl, rfl, rfl⟩, by rw [hb]; decide, ⟨fun h => absurd h (by decide), by rw [hs]; decide, hf _⟩, (deploy_token _ _).trans (wLcs_token _ _ 1 (by decide) _ ?_), ?_⟩
    · change wDeployBody.take 32 = _
      exact List.take_left' rfl
    · rw [hs]
      exact lcs_approved .provisioned [] 0x12 wDeployBody wDeployers (by
        simp only [wDeployers, List.forall_mem_cons, List.not_mem_nil, false_implies, implies_true, and_true]
        exact ⟨⟨by decide, rfl⟩, by decide, rfl⟩) (by decide)

/-- Failing: the state, the latch of an unbound ACTIVE device, no record left, a length, a form, a token, the approvals' number. -/
theorem lifeCycleTransitions_witness_fails :
    provision.state (wLcs .deployed []) (reqOf (wReqRec 0x11 0 (zeroBytes 32) [])) = 2 ∧
    latchCount { wLcs .blank [] with pwr := (wTmp .active).pwr } = 1 ∧
    provision.room { wLcs .blank [] with lcy := { (wLcs .blank []).lcy with recs := List.replicate 16 ⟨1, 0, 0⟩ } } = false ∧
    ¬ (leAt (wReq0 0x11 0 0 70000) 4 4 ≤ 65536) ∧ provision.form (wLcs .blank []) (reqOf (wReqRec 0x11 0 (zeroBytes 8) [])) = false ∧
    retire.signers (wLcs .deployed wThree) (reqOf (wReqRec 0x15 0 (zeroBytes 32) [])) = [.custody none, .custody none] ∧
    reqCheck (wLcs .deployed wThree) (reqOf (wReqRec 0x15 0 (zeroBytes 32) [])) [.custody none, .custody none] = 6 := by
  refine ⟨rfl, rfl, by decide +kernel, by decide, ?_, rfl, ?_⟩
  · rw [(wReqRec_of 0x11 0 (zeroBytes 8) [] (by decide) (by decide) (by decide) (by decide) (by simp)).2.2.2]
    rfl
  · rw [(wReqRec_of 0x15 0 (zeroBytes 32) [] (by decide) (by decide) (by decide) small_zeroBytes (by simp)).2.2.2]
    rfl

/-- A token whose digest the device does not hold. -/
theorem lifeCycleTransitions_witness_token :
    provision.token { wLcs .blank [] with lcy := { (wLcs .blank []).lcy with tProvDig := zeroBytes 32 } } (reqOf (wReqRec 0x11 0 (zeroBytes 32) [])) = 4 := by
  rw [(wReqRec_of 0x11 0 (zeroBytes 32) [] (by decide) (by decide) (by decide) small_zeroBytes (by simp)).2.2.2]
  rw [provision_token, tokenCheck]
  simp only
  decide +kernel

/-! ### KeyStoreCommands -/

/-- The blob of an LMK of zeros for function 3, slot 0, CURRENT, version 1, under a vault key of zeros. -/
theorem keyStoreCommands_witness_vault :
    let b := blobBytes (zeroBytes 32) 3 0 1 1 0 (zeroBytes 12) (zeroBytes 32)
    (gcmDec wVault.kst.vaultKey (slice b 16 12) (slice b 0 32) (slice b 32 48)).isSome = true ∧ leAt b 0 2 = 3 ∧ leAt b 2 1 = 0 ∧
    leAt b 4 4 = (lmkSlot (lmkOf wVault 3) 0).version ∧ leAt b 3 1 ≠ 0 := by decide +kernel

end Sys2Proof.Machine.Tests
end

