-- ==== Sys2Proof/Tests/Slice0Fabric.lean ====
section
/-!
SUPPORT. For the statements about receipts, the fabric and the management target: concrete states and operands that meet their hypotheses,
clause by clause.
-/

namespace Sys2Proof.Machine.TestsFabric

open Sys2Proof

set_option Elab.async false

/-- A device in ACTIVE, unpaired, with main power and the link up. -/
def wAct : State :=
  { State.reset with pwr := { Pwr.new with mode := .active }, hif := { Hif.start with linkUp := true, svcMode := .active, svcLatches := 1 } }

/-- An UP port with full credit on every VC. -/
def pUp (p : Nat) : Port := { Port.blank with
  st := .up, nb := 7, nbValid := true, txSeq := 5 + p, rxSeq := 3
  cred := (List.range 4).map fun v => { Cred.blank with held := credTotal v, sent := 10, back := 10, rx := 20, ret := 20 } }

/-- Eight UP ports, address 5, routes to 9 and 6, and an identity of zeros. -/
def wFab : State := { wAct with
  lcy := { wAct.lcy with ident := zeroBytes 16 }
  phl := { wAct.phl with valid := true, addr := 5, ports := (List.range 8).map pUp, route := tset 0 (tset 0 [] 9 0x9000) 6 0x3800 } }

/-- A frame with its LSEQ. -/
def mk (type vc : Nat) (srcrt srcValid : Bool) (dst src hops route : Nat) (pl : Bytes) : Bytes :=
  patch (frame type vc srcrt srcValid dst src hops 77 route pl) 12 (leBytes 4 4)
/-- The frame with its CRC-32C. -/
def wr (h : Bytes) : Bytes := h ++ leBytes 4 (crc32c h).toNat
/-- A payload of 40 bytes. -/
def pl40 : Bytes := (List.range 40).map fun i => BitVec.ofNat 8 (i + 1)

/-! ### MinuteReceipts -/

/-- A DEPLOYED device with an addition on its way, and one whose word failed. -/
def wMtr : State := { wAct with
  lcy := { wAct.lcy with state := .deployed }
  time := { wAct.time with dev := some 120000000 }
  mtr := { wAct.mtr with enable := true, log2 := 1, adds := [⟨3, 2, 9⟩], lastMinute := some 1 } }

theorem minuteReceipts_witness_add :
    wMtr.pwr.main = true ∧ wMtr.mtr.adds = ⟨3, 2, 9⟩ :: [] ∧ meterFailed wMtr ⟨3, 2, 9⟩ = false ∧
    ∀ a ∈ wMtr.mtr.adds, meterFailed { wMtr with dbg := { wMtr.dbg with failedWords := [(1, 51)] } } a = true := by (repeat' apply And.intro) <;> decide +kernel

/-- No device time; no minute yet; the same minute; the first tick of the next one, with receipts on and off. -/
theorem minuteReceipts_witness_edge :
    wAct.time.dev = none ∧ wAct.pwr.main = true ∧ ({ wMtr with mtr := { wMtr.mtr with lastMinute := none } } : State).mtr.lastMinute = none ∧
    wMtr.time.dev = some 120000000 ∧ wMtr.mtr.lastMinute = some 1 ∧ ¬ 120000000 / 60000000 ≤ 1 ∧ 119999999 / 60000000 ≤ 1 ∧
    (let s := { wMtr with mtr := { wMtr.mtr with adds := [] } }
     s.mtr.adds = [] ∧ rcptDue s = [0] ∧ (rcptDue s).Nodup ∧ (∀ f ∈ rcptDue s, rcptCan s f = true ∧ (rcptOf s f).totals.length = 16) ∧
     s.mtr.used + s.mtr.waiting.length + (rcptDue s).length ≤ rcptSlots s) ∧
    ({ wMtr with mtr := { wMtr.mtr with enable := false } } : State).mtr.enable = false := by (repeat' apply And.intro) <;> decide +kernel

/-- A receipt that waits for its signature, and a host region over the ring. -/
def wSign : State := modFn 0 (fun x => { x with regions := [⟨0, 0x10000, 0x4037⟩] })
  { wMtr with mtr := { wMtr.mtr with base := 0x100000, waiting := [⟨0, zeroBytes 344, none, none⟩] } }

theorem minuteReceipts_witness_signed :
    wSign.pwr.main = true ∧ wSign.mtr.waiting = [⟨0, zeroBytes 344, none, none⟩] ∧ wSign.mtr.enable = true ∧ streamOn wSign = false ∧
    (zeroBytes 344).length = 344 ∧ hostRefusal wSign (hifMaster 0 0) 0 (wSign.mtr.base + 65536 * wSign.mtr.tail + 4) 50196 true = none ∧
    hostRefusal wSign (hifMaster 0 0) 0 (wSign.mtr.base + 65536 * wSign.mtr.tail) 4 true = none ∧
    (let s := { wSign with par := { wSign.par with bound := true, key := some [1], pElig := true, txNext := 1 } }
     streamOn s = true ∧ s.par.acked < s.par.txNext) := by (repeat' apply And.intro) <;> decide +kernel

theorem minuteReceipts_witness_seed : ∃ seed sig, devSeed wSign 3 = some seed ∧ sig = slhSign slh256f seed (ascii "EHROS-RCPT" ++ zeroBytes 344) :=
  ⟨_, _, rfl, rfl⟩

theorem minuteReceipts_witness_head : regsTake wMtr ∧ 0 < rcptSlots wMtr ∧ (0 + rcptSlots wMtr - wMtr.mtr.head) % rcptSlots wMtr ≤ wMtr.mtr.used ∧
    ¬ rcptSlots wMtr < rcptSlots wMtr := by decide

/-! ### RoutedFrames -/

/-- A frame for address `dst`. -/
def hTo (type vc dst hops : Nat) : Bytes := mk type vc false true dst 9 hops 0 pl40

/-- A bad CRC, a number out of order, a bad form, a port that is not UP. -/
theorem routedFrames_witness_ingress :
    frameRows .dataFrame ∧ portsWhole wFab ∧ fabOn wFab = true ∧ portUp wFab 7 = true ∧ wFab.dbg.inj = none ∧ unwire (wr (hTo 1 0 5 3) ++ [0]) = none ∧
    unwire (wr (patch (hTo 1 0 5 3) 12 (leBytes 4 5))) = some (patch (hTo 1 0 5 3) 12 (leBytes 4 5)) ∧
    fLseq (patch (hTo 1 0 5 3) 12 (leBytes 4 5)) ≠ ((portOf wFab 3).rxSeq + 1) % 2 ^ 32 ∧
    (let h := mk 1 3 false true 5 9 3 0 [7] ++ [1]
     frameNext wFab 3 (wr h) h ∧ h.length ≠ 32 + fLen h) ∧
    frameNext wFab 3 (wr (hTo 9 3 5 3)) (hTo 9 3 5 3) ∧ fBad (hTo 9 3 5 3) = true ∧ portUp wFab 8 = false := by
  refine ⟨.inl rfl, ?_⟩
  (repeat' apply And.intro) <;> decide +kernel

/-- For this device on VC 3; its hops used up; no route; a route out of another port; a source route that goes on and one that ends. -/
theorem routedFrames_witness_routes :
    routedRows .dataFrame 1 ∧ routedRows .probeReply 3 ∧ fType (hTo 1 3 5 3) = 1 ∧ frameGood wFab 3 (wr (hTo 1 3 5 3)) (hTo 1 3 5 3) ∧
    fVc (hTo 1 3 5 3) = 3 ∧ fSrcrt (hTo 1 3 5 3) = false ∧ wFab.phl.valid = true ∧ fDst (hTo 1 3 5 3) = wFab.phl.addr ∧
    frameGood wFab 3 (wr (hTo 1 0 9 0)) (hTo 1 0 9 0) ∧ fDst (hTo 1 0 9 0) ≠ wFab.phl.addr ∧ fHops (hTo 1 0 9 0) = 0 ∧
    frameGood wFab 3 (wr (hTo 1 0 8 3)) (hTo 1 0 8 3) ∧ fHops (hTo 1 0 8 3) ≠ 0 ∧ routePort wFab (fDst (hTo 1 0 8 3)) = none ∧
    frameGood wFab 3 (wr (hTo 1 0 9 1)) (hTo 1 0 9 1) ∧ routePort wFab (fDst (hTo 1 0 9 1)) = some 1 ∧ portReady wFab 1 (fVc (hTo 1 0 9 1)) := by
  refine ⟨.inl ⟨rfl, rfl⟩, .inr ⟨rfl, rfl⟩, ?_⟩
  (repeat' apply And.intro) <;> decide +kernel

/-- A PROBE_REPLY on a source route of `n` hops at entry `k`. -/
def hRt (n k : Nat) : Bytes := mk 3 3 true true 0 9 0 (rtMake n k [1, 6, 2]) pl40

theorem routedFrames_witness_source :
    fType (hRt 3 2) = 3 ∧ frameGood wFab 3 (wr (hRt 3 2)) (hRt 3 2) ∧ fSrcrt (hRt 3 2) = true ∧ rtNh (fRoute (hRt 3 2)) ≤ 16 ∧
    1 ≤ rtPtr (fRoute (hRt 3 2)) ∧ rtPtr (fRoute (hRt 3 2)) < rtNh (fRoute (hRt 3 2)) ∧ rtEntry (fRoute (hRt 3 2)) (rtPtr (fRoute (hRt 3 2))) = 2 ∧
    portReady wFab 2 3 ∧ portUp (modPort8 2 (fun x => { x with st := .down }) wFab) 2 = false ∧
    frameGood wFab 3 (wr (hRt 3 3)) (hRt 3 3) ∧ rtPtr (fRoute (hRt 3 3)) = rtNh (fRoute (hRt 3 3)) ∧ fVc (hRt 3 3) = 3 ∧
    (List.replicate 15 ([] : Bytes)).length < 16 ∧ 16 ≤ (List.replicate 16 ([] : Bytes)).length := by (repeat' apply And.intro) <;> decide +kernel

/-- DATA for this device off VC 3: unpaired, paired with its sender, and a SRC that is this device's own address. -/
theorem routedFrames_witness_data :
    frameGood wFab 3 (wr (hTo 1 1 5 3)) (hTo 1 1 5 3) ∧ fVc (hTo 1 1 5 3) ≠ 3 ∧ wFab.par.bound = false ∧ wFab.pwr.mode ≠ .recovery ∧
    (let s := { wFab with par := { wFab.par with bound := true, addr := 9 } }
     fSrcValid (hTo 1 1 5 3) = true ∧ fSrc (hTo 1 1 5 3) = s.par.addr ∧ fVc (hTo 1 1 5 3) < 2) ∧
    (let h := mk 1 1 false true 9 5 3 0 pl40
     frameNext wFab 3 (wr h) h ∧ fBad h = false ∧ h.length = 32 + fLen h ∧ fSrcValid h = true ∧ fSrc h = wFab.phl.addr ∧ fVc h ≠ 2 ∧
     wFab.phl.evts.length < 64) := by (repeat' apply And.intro) <;> decide +kernel

/-! ### Probes -/

/-- A probe of an OP whose route ends here. -/
def prb (op : Nat) (extra : Bytes) : Bytes :=
  mk 2 3 true true 0 9 0 (rtMake 2 2 [1, 6]) ([BitVec.ofNat 8 op] ++ zeroBytes 7 ++ [1, 2, 3, 4, 5, 6, 7, 8] ++ extra)

theorem probes_witness_read : probeArrives wFab 3 1 (wr (prb 1 [])) (prb 1 []) ∧ probeArrives wFab 3 6 (wr (prb 6 [])) (prb 6 []) ∧
    probeArrives wFab 3 0 (wr (prb 0 [])) (prb 0 []) ∧ probeArrives wFab 3 7 (wr (prb 7 [])) (prb 7 []) := by (repeat' apply And.intro) <;> decide +kernel

/-- ASSIGN and RELEASE with this device's identity and with another, under a lock by the sender, by another, and by none. -/
theorem probes_witness_assign :
    (let h := prb 2 (zeroBytes 16 ++ leBytes 2 0x55)
     probeArrives wFab 3 2 (wr h) h ∧ 34 ≤ fLen h ∧ probeFree wFab h ∧ slice h 48 16 = padTo 16 wFab.lcy.ident ∧ wFab.phl.valid = true ∧
     probeArrives { wFab with phl := { wFab.phl with valid := false } } 3 2 (wr h) h ∧
     probeFree { wFab with phl := { wFab.phl with cfgLock := true, fmAddr := 9 } } h ∧
     ¬ probeFree { wFab with phl := { wFab.phl with cfgLock := true, fmAddr := 8 } } h) ∧
    (let h := prb 2 ([9] ++ zeroBytes 15 ++ leBytes 2 0x55)
     probeArrives wFab 3 2 (wr h) h ∧ slice h 48 16 ≠ padTo 16 wFab.lcy.ident) ∧
    (let h := prb 3 (zeroBytes 16)
     probeArrives wFab 3 3 (wr h) h ∧ 32 ≤ fLen h ∧ slice h 48 16 = padTo 16 wFab.lcy.ident) ∧
    (let h := prb 3 ([9] ++ zeroBytes 15)
     probeArrives wFab 3 3 (wr h) h ∧ slice h 48 16 ≠ padTo 16 wFab.lcy.ident) := by (repeat' apply And.intro) <;> decide +kernel

theorem probes_witness_locked : lockedProbes .assign 2 ∧ lockedProbes .probeRelease 3 ∧ lockedProbes .routeWrite 4 :=
  ⟨.inl ⟨rfl, rfl⟩, .inr (.inl ⟨rfl, rfl⟩), .inr (.inr ⟨rfl, rfl⟩)⟩

/-- Routes written and read: the last two entries, one past the last, and 64 of them. -/
theorem probes_witness_routes :
    (let h := prb 4 (leBytes 2 4094 ++ leBytes 2 2 ++ [0xAB, 0xCD, 0xEF, 0x12])
     probeArrives wFab 3 4 (wr h) h ∧ 20 ≤ fLen h ∧ probeFree wFab h ∧ 1 ≤ leAt h 50 2 ∧ leAt h 50 2 ≤ 64 ∧ leAt h 48 2 + leAt h 50 2 ≤ 4096) ∧
    (let h := prb 4 (leBytes 2 4095 ++ leBytes 2 2 ++ [0xAB, 0xCD, 0xEF, 0x12])
     probeArrives wFab 3 4 (wr h) h ∧ leAt h 50 2 ≤ 64 ∧ 4096 < leAt h 48 2 + leAt h 50 2) ∧
    (let h := prb 5 (leBytes 2 4032 ++ leBytes 2 64)
     probeArrives wFab 3 5 (wr h) h ∧ leAt h 50 2 ≤ 64 ∧ leAt h 48 2 + leAt h 50 2 ≤ 4096) ∧
    (let h := prb 5 (leBytes 2 4033 ++ leBytes 2 64)
     probeArrives wFab 3 5 (wr h) h ∧ leAt h 50 2 ≤ 64 ∧ 4096 < leAt h 48 2 + leAt h 50 2) := by (repeat' apply And.intro) <;> decide +kernel

/-! ### LinkLocalFrames -/

/-- The words of an audit, with an RSV. -/
def hAud (rsv : Nat) : Bytes := mk 4 1 false true 0 9 0 0 (leBytes 4 22 ++ leBytes 4 15 ++ leBytes 4 761 ++ leBytes 4 rsv ++ leBytes 4 768)
/-- A port 3 with five units occupied on each VC. -/
def wAud : State :=
  modPort8 3 (fun x => { x with cred := (List.range 4).map fun _ => { Cred.blank with held := 100, sent := 10, back := 10, rx := 20, ret := 15, occ := 5 } }) wFab

/-- A good audit and a bad one: what the receiver holds against what the sender says. -/
theorem linkLocalFrames_witness_audit :
    frameGood wAud 3 (wr (hAud 0)) (hAud 0) ∧ fType (hAud 0) = 4 ∧ fLen (hAud 0) = 20 ∧ fVc (hAud 0) = 1 ∧
    (let c := credOf wAud 3 1
     let w := fun i => leAt (hAud 0) (32 + 4 * i) 4
     (c.rx + 2) % 2 ^ 32 = w 0 ∧ w 2 + w 3 + (w 0 + 2 ^ 32 - w 1) % 2 ^ 32 = w 4 ∧ c.occ + 2 = ((c.rx + 2) % 2 ^ 32 + 2 ^ 32 - c.ret) % 2 ^ 32 ∧
     (c.ret + 2 ^ 32 - w 1) % 2 ^ 32 ≤ w 4 ∧ w 4 = credTotal 1) ∧
    frameGood wAud 3 (wr (hAud 1)) (hAud 1) ∧ leAt (hAud 1) 40 4 + leAt (hAud 1) 44 4 + 7 ≠ leAt (hAud 1) 48 4 ∧ wAud.dbg.errs.length < 64 := by
  (repeat' apply And.intro) <;> decide +kernel

/-- A device with time, which follows the upstream port 3. -/
def wTime : State := { wFab with
  time := { wFab.time with dev := some 2000, frac := 999999999 }
  phl := { wFab.phl with t1 := some 65536000, role := 2, upstream := 3, syncPeriod := 1 } }

/-- SYNC_REQ with and without device time; SYNC_RSP of a distance of 31 and of 32, and to a device that does not follow; NEIGHBOR. -/
theorem linkLocalFrames_witness_sync :
    (let h := mk 5 3 false true 0 9 0 0 []
     frameGood wFab 3 (wr h) h ∧ fType h = 5 ∧ wFab.time.dev = none ∧ frameGood wTime 3 (wr h) h ∧ wTime.time.dev = some 2000 ∧ wTime.time.frac < 10 ^ 9 ∧
     portReady wTime 3 3) ∧
    (let h := mk 6 3 false true 0 9 0 0 (leBytes 8 1600 ++ leBytes 8 1610 ++ zeroBytes 4 ++ [31, 0, 0, 0])
     frameGood wTime 3 (wr h) h ∧ fType h = 6 ∧ wTime.phl.t1 = some 65536000 ∧ wTime.phl.role = 2 ∧ 3 = wTime.phl.upstream ∧ leAt h 52 1 < 32) ∧
    (let h := mk 6 3 false true 0 9 0 0 (leBytes 8 1600 ++ leBytes 8 1610 ++ zeroBytes 4 ++ [32, 0, 0, 0])
     frameGood wTime 3 (wr h) h ∧ 32 ≤ leAt h 52 1 ∧ 4 ≠ wTime.phl.upstream) ∧
    (let h := mk 7 3 false true 0 9 0 0 (zeroBytes 16 ++ [0x34, 0x12, 1, 0])
     frameGood wFab 3 (wr h) h ∧ fType h = 7) := by (repeat' apply And.intro) <;> decide +kernel

/-- The audit and sync timers, before and at their periods. -/
theorem linkLocalFrames_witness_timers :
    portsWhole wTime ∧ fabOn wTime = true ∧ tick wFab < wFab.phl.auditAt + wFab.phl.auditPeriod ∧
    (let s := { wFab with phl := { wFab.phl with auditPeriod := 0 } }
     s.phl.auditAt + s.phl.auditPeriod ≤ tick s ∧ (∀ x ∈ s.phl.ports, x.queue = []) ∧ ∀ v, v < 4 → portReady s 2 v) ∧
    wFab.phl.role ≠ 2 ∧ wTime.phl.role = 2 ∧ tick wTime < wTime.phl.syncAt + wTime.phl.syncPeriod ∧
    (let s := { wTime with phl := { wTime.phl with syncPeriod := 0 } }
     s.phl.syncAt + s.phl.syncPeriod ≤ tick s ∧ portReady s s.phl.upstream 3) := by (repeat' apply And.intro) <;> decide +kernel

/-! ### LinksAndPorts -/

/-- A kept frame. -/
def fr : PFrame := own (mk 1 0 false true 9 5 3 0 pl40)
/-- Port 3 with frames 5, 6 and 7 unacknowledged. -/
def wRep : State := modPort8 3 (fun x => { x with replay := [(5, fr), (6, { fr with mseq := some 9 }), (7, fr)], txSeq := 8 }) wFab

theorem linksAndPorts_witness_blocks :
    linkBlocks .linkAck ∧ portUp wRep 8 = false ∧ (ctlBlock 1 0 6).length = 8 ∧ leAt (ctlBlock 1 0 6 |>.set 6 0) 6 2 ≠ (crc16ccitt ((ctlBlock 1 0 6 |>.set 6 0).take 6)).toNat ∧
    blockArrives wRep 3 0 0 0 (ctlBlock 0 0 0) ∧ blockArrives wRep 3 1 0 6 (ctlBlock 1 0 6) ∧ blockArrives wRep 3 2 0 6 (ctlBlock 2 0 6) ∧
    6 % 65536 = 6 ∧ (portOf wRep 3).txSeq < 2 ^ 32 ∧ ((portOf wRep 3).txSeq + 2 ^ 32 - 1 + 2 ^ 32 - 6) % 2 ^ 32 < 65536 ∧ (portOf wRep 3).queue = [] ∧
    blockArrives wRep 3 3 3 30 (ctlBlock 3 3 30) ∧ blockArrives wRep 3 3 4 30 (ctlBlock 3 4 30) := by
  refine ⟨.inl rfl, ?_⟩
  (repeat' apply And.intro) <;> decide +kernel

theorem linksAndPorts_witness_ack : portsWhole wRep ∧ portUp wRep 3 = true ∧ (portOf wRep 3).replay ≠ [] ∧
    (portOf wRep 3).ackAt + 1000 ≤ ({ wRep with time := { wRep.time with refCount := 1000 } } : State).time.refCount ∧
    wRep.time.refCount < (portOf wRep 3).ackAt + 1000 ∧ (∀ r ∈ (portOf wRep 3).replay, r.2.naks < 8) := by (repeat' apply And.intro) <;> decide +kernel

/-- Port 3 in a state. -/
def wPort (st : PortSt) : State := modPort8 3 (fun x => { x with st := st, tries := 3 }) wFab

/-- Training and retraining, and their timers before and at their ends. -/
theorem linksAndPorts_witness_training :
    portsWhole (wPort .retrain) ∧ fabOn (wPort .retrain) = true ∧ (portOf (wPort .retrain) 3).st = .retrain ∧ (portOf (wPort .retrain) 3).replay = [] ∧
    (portOf (wPort .retrain) 3).queue = [] ∧ (portOf (wPort .training) 3).st = .training ∧ (portOf (wPort .training) 3).enable = true ∧
    (portOf (wPort .training) 3).force56 = false ∧ 3 ≤ (portOf (wPort .training) 3).tries ∧ (wPort .training).phl.evts.length < 62 ∧
    (let s := modPort8 3 (fun x => { x with failedAt := some 0 }) (wPort .down)
     (portOf s 3).failedAt = some 0 ∧ (portOf s 3).st = .down ∧ (portOf s 3).enable = true ∧ s.time.refCount < 0 + 10000000) ∧
    portUp wFab 3 = true ∧ portUp (wPort .down) 3 = false ∧ (portOf (modPort8 3 (fun x => { x with left := some 0 }) wFab) 3).left = some 0 ∧
    (let s := modPort8 2 (fun x => { x with heard := 1 }) { wFab with time := { wFab.time with refCount := 100000000 } }
     (portOf s 3).silent = false ∧ (portOf s 3).heard + 100000000 ≤ s.time.refCount ∧ s.time.refCount < (portOf s 2).heard + 100000000) ∧
    (let s := { wFab with time := { wFab.time with refCount := 100000000 } }
     s.phl.valid = true ∧ ∀ x ∈ s.phl.ports, x.enable = true → x.heard + 100000000 ≤ s.time.refCount) := by (repeat' apply And.intro) <;> decide +kernel

theorem linksAndPorts_witness_writes : regsTake wFab ∧ (7 : Nat).testBit 2 = true ∧ (7 : Nat).testBit 0 = true ∧ (portOf wFab 7).enable = true ∧
    (portOf (wPort .down) 3).st = .down ∧ (2 : Nat).testBit 0 = false ∧ (3 : Nat).testBit 0 = true ∧ (3 : Nat).testBit 2 = false ∧
    (portOf (wPort .disabled) 3).st = .disabled := by (repeat' apply And.intro) <;> decide +kernel

/-! ### FabricAndManagement -/

theorem fabricAndManagement_witness_address : portsWhole wFab ∧ regsTake wFab ∧ (2 ^ 29 + 0x123 : Nat).testBit 29 = true ∧
    (2 ^ 29 + 0x123 : Nat).testBit 28 = false ∧ (2 ^ 28 : Nat).testBit 28 = true ∧ (2 ^ 28 : Nat).testBit 29 = false ∧ portReady wFab 0 3 := by (repeat' apply And.intro) <;> decide +kernel

/-- A frame in the transmit window. -/
def wMtx (x : Bytes) : State := { wFab with phl := { wFab.phl with mtx := padTo 288 x } }

theorem fabricAndManagement_witness_mtx :
    (let s := wMtx (mk 1 1 false true 9 0 0 0 pl40)
     s.phl.mtx.length = 288 ∧ s.phl.mtxBusy = false ∧ fSrcrt s.phl.mtx = false ∧ s.phl.valid = true ∧ routePort s (fDst s.phl.mtx) = some 1 ∧
     portReady s 1 3 ∧ fType s.phl.mtx ≠ 4 ∧
     (let t := modCred 1 3 (fun c => { c with held := 2 }) s
      (credOf t 1 3).held < fCredits (min 256 (fLen t.phl.mtx)) ∧ portUp t 1 = true ∧ (portOf t 1).queue = [])) ∧
    (let s := wMtx (mk 1 1 true true 9 0 0 (rtMake 1 1 [4]) pl40)
     fSrcrt s.phl.mtx = true ∧ rtEntry (fRoute s.phl.mtx) 0 = 4 ∧ portUp s 4 = true ∧
     portUp (modPort8 4 (fun x => { x with st := .down }) s) 4 = false) ∧
    ({ wFab with phl := { wFab.phl with mtxBusy := true } } : State).phl.mtxBusy = true := by (repeat' apply And.intro) <;> decide +kernel

theorem fabricAndManagement_witness_queues : wFab.pwr.main = true ∧ wFab.hif.linkUp = true ∧ wFab.pwr.mode ≠ .guard ∧ wFab.phl.mrx = [] ∧
    wFab.phl.evts = [] ∧ ({ wFab with phl := { wFab.phl with mrx := [[1]], evts := [[2]] } } : State).phl.mrx = [1] :: [] := by (repeat' apply And.intro) <;> decide +kernel

/-- A target with its address, with its queue empty, with one message, and full. -/
def wI3c (n : Nat) : State := { wFab with i3c := { wFab.i3c with da := some 8, ibi := true, queue := List.replicate n [1] } }

theorem fabricAndManagement_witness_target :
    wFab.i3c.da = none ∧ (wI3c 0).i3c.da = some 8 ∧ (wI3c 0).i3c.da ≠ none ∧ (wI3c 0).i3c.queue = [] ∧ (wI3c 2).i3c.queue = [1] :: [[1]] ∧
    (wI3c 2).i3c.queue ≠ [] ∧ (1 : Nat).testBit 0 = true ∧ (2 : Nat).testBit 0 = false ∧ 0x01 % 256 ≠ 0 ∧ 0xFE % 256 ≠ 0xFF ∧ 0xFF % 256 = 0xFF ∧
    0x100 % 256 = 0 ∧ (wI3c 15).i3c.queue.length < 16 ∧ 16 ≤ (wI3c 16).i3c.queue.length := by (repeat' apply And.intro) <;> decide +kernel

end Sys2Proof.Machine.TestsFabric
end

