-- ==== Sys2Proof/Tests/Slice0Pairs.lean ====
section
/-!
SUPPORT. For the statements about partner pairs: concrete states and operands that meet their hypotheses, clause by clause.
-/

namespace Sys2Proof.Machine.TestsPairs

open Sys2Proof

set_option Elab.async false

/-- An UP port with full credit on every VC. -/
def pUp (p : Nat) : Port := { Port.blank with
  st := .up, nb := 7, nbValid := true, txSeq := 5 + p, rxSeq := 3
  cred := (List.range 4).map fun v => { Cred.blank with held := credTotal v, sent := 10, back := 10, rx := 20, ret := 20 } }

/-- A latch of the partner's, seen until instant 1,000. -/
def lx : Latch := { State.reset.par.l0 with view := 1000 }
/-- A path on which message 5 came last, with a key and without. -/
def px : Path := { State.reset.par.lvds with txOk := true, ok := true, lastSeq := 5, openSeq := 5 }

/-- A device in STANDBY paired with the device at address 9, keyed, current for latch 0; eight UP ports. -/
def wPair : State := { State.reset with
  hif := { Hif.start with linkUp := true, fns := tset Fn.vf Hif.start.fns 3 { Fn.vf with rings := [{ Ring.blank with tail := 9 }], created := true } }
  lcy := { State.reset.lcy with ident := zeroBytes 16 }
  pwr := { Pwr.new with mode := .standby }
  time := { State.reset.time with refCount := 200000 }
  phl := { State.reset.phl with valid := true, addr := 5, ports := (List.range 8).map pUp, route := tset 0 [] 9 0x9000 }
  par := { State.reset.par with
    bound := true, addr := 9, partnerId := [1], key := some (zeroBytes 32), homeChecked := true, pElig := true, lvds := px, fab := px
    l0 := { lx with selfCur := true, view := 150000 }, l1 := lx } }

/-- The same device holding both latches. -/
def wHold : State := modLatch 1 (fun x => { x with holder := true, lreq := 7 }) (modLatch 0 (fun x => { x with holder := true }) wPair)

/-! ### KnocksSent -/

theorem knocksSent_witness :
    wHold.par.bound = true ∧ wHold.pwr.main = true ∧ wHold.par.knockAt + 2000 ≤ wHold.time.refCount ∧
    ({ wHold with par := { wHold.par with knockAt := 198001 } } : State).time.refCount < 198001 + 2000 ∧
    wHold.par.renewAt + 5000 ≤ wHold.time.refCount ∧ wHold.time.refCount < 195001 + 5000 ∧ (latch wHold 1).holder = true ∧ (latch wPair 1).holder = false ∧
    State.reset.par.bound = false ∧ wHold.pwr.mode ≠ .guard ∧ wHold.time.refCount < wHold.pwr.healthAt + 100000000 ∧
    wHold.pwr.healthAt + 100000000 ≤ ({ wHold with time := { wHold.time with refCount := 100000000 } } : State).time.refCount ∧
    wHold.i3c.queue.length < 16 := by (repeat' apply And.intro) <;> decide +kernel

/-! ### KnocksReceived -/

/-- A message body: kind, latch, number, flags, LREQ. -/
def kb (kind l seq fl lreq : Nat) : Bytes :=
  leBytes 1 kind ++ leBytes 1 3 ++ leBytes 2 fl ++ [1] ++ leBytes 1 l ++ [0, 0] ++ leBytes 4 seq ++ leBytes 4 77 ++ leBytes 4 lreq ++ zeroBytes 28
/-- The tag of a message: zeros when it is not KEYED. -/
def kt (k : Nat) (b : Bytes) : Bytes := if (leAt b 2 2).testBit 0 then knockTag wPair k false b else zeroBytes 16
/-- A message on the LVDS path. -/
def lv (b : Bytes) : Bytes := b ++ kt 0 b ++ leBytes 2 (crc16ccitt (b ++ kt 0 b)).toNat
/-- A KNOCK frame. -/
def kf (b : Bytes) : Bytes := patch (frame 8 3 false true 5 9 4 77 0 (b ++ kt 1 b)) 12 (leBytes 4 4)
/-- The frame with its CRC-32C. -/
def wr (h : Bytes) : Bytes := h ++ leBytes 4 (crc32c h).toNat

theorem unwire_wr (h : Bytes) (hl : 32 ≤ h.length) : unwire (wr h) = some h := by
  have h1 : (wr h).length = h.length + 4 := by simp [wr, length_leBytes]
  have h2 : (wr h).take (h.length + 4 - 4) = h := by simp [wr]
  have h3 : leAt (wr h) (h.length + 4 - 4) 4 = (crc32c h).toNat := by
    have e : wr h = h ++ (leBytes 4 (crc32c h).toNat ++ []) := by simp [wr]
    rw [e, leAt_at h [] _ 4 _ (by omega)]
    exact Nat.mod_eq_of_lt (crc32c h).isLt
  simp only [unwire, h1, h2, h3, if_true, if_neg (show ¬ h.length + 4 < 36 by omega)]

theorem lv_comes (b : Bytes) (h : (lv b).length = 66 ∧ leAt (lv b) 64 2 = (crc16ccitt ((lv b).take 64)).toNat ∧ b = (lv b).take 48 ∧
    kt 0 b = slice (lv b) 48 16) : knockComes wPair 0 0 (lv b) b (kt 0 b) := ⟨rfl, rfl, rfl, .inl ⟨rfl, h⟩⟩

theorem lv_passes (b : Bytes) (h : leAt b 2 2 < 1024 ∧ leAt b 6 2 = 0 ∧ leAt b 20 4 = 0 ∧ leAt b 40 8 = 0 ∧ 5 < leAt b 8 4 ∧ leAt b 8 4 < 2 ^ 32)
    (hk : (leAt b 2 2).testBit 0 = true) : knockPasses wPair 0 b (kt 0 b) :=
  ⟨h.1, h.2.1, h.2.2.1, h.2.2.2.1, fun h0 => absurd hk (by rw [h0]; decide), fun _ => ⟨h.2.2.2.2.1, zeroBytes 32, rfl, by
    show (if (leAt b 2 2).testBit 0 then knockTag wPair 0 false b else zeroBytes 16) = _
    rw [if_pos hk]
    simp only [knockTag, knockNonce, show wPair.par.key = some (zeroBytes 32) from rfl, Nat.mod_eq_of_lt h.2.2.2.2.2]⟩⟩

/-- A message without a key, on both paths; one whose number is old, and one with a key; one of another kind. -/
theorem knocksReceived_witness_open :
    knockRows .knock 1 ∧ leAt (kb 1 0 6 0 0) 0 1 = 1 ∧ leAt (kb 2 0 6 0 0) 0 1 ≠ 1 ∧ knockComes wPair 0 0 (lv (kb 1 0 6 0 0)) (kb 1 0 6 0 0) (zeroBytes 16) ∧
    knockPasses wPair 0 (kb 1 0 6 0 0) (zeroBytes 16) ∧ (leAt (kb 1 0 6 0 0) 2 2).testBit 0 = false ∧
    knockComes wPair 0 0 (lv (kb 1 0 5 0 0)) (kb 1 0 5 0 0) (zeroBytes 16) ∧ ¬ knockPasses wPair 0 (kb 1 0 5 0 0) (zeroBytes 16) ∧
    ¬ knockPasses wPair 0 (kb 1 0 5 1 0) (kt 0 (kb 1 0 5 1 0)) := by
  refine ⟨.inl ⟨rfl, rfl⟩, by decide, by decide, lv_comes (kb 1 0 6 0 0) (by decide +kernel), ⟨by decide, by decide, by decide, by decide, fun _ => ⟨by decide, rfl⟩, fun h => absurd h (by decide)⟩, by decide,
    lv_comes (kb 1 0 5 0 0) (by decide +kernel), fun h => absurd (h.2.2.2.2.1 (by decide)).1 (by decide),
    fun h => absurd (h.2.2.2.2.2 (by decide)).1 (by decide)⟩

theorem knocksReceived_witness_frame : knockComes wPair 1 3 (wr (kf (kb 1 0 6 0 0))) (kb 1 0 6 0 0) (zeroBytes 16) :=
  ⟨rfl, rfl, rfl, .inr ⟨rfl, kf (kb 1 0 6 0 0), ⟨⟨by decide +kernel, rfl, rfl, rfl, unwire_wr _ (by decide +kernel), by decide +kernel⟩,
    by decide +kernel, by decide +kernel, by decide +kernel⟩, by (repeat' apply And.intro) <;> decide +kernel⟩⟩

/-- KNOCK and TAKEN, KEYED; nothing else of them has an effect. -/
theorem knocksReceived_witness_knock :
    knockComes wPair 0 0 (lv (kb 1 0 6 33 0)) (kb 1 0 6 33 0) (kt 0 (kb 1 0 6 33 0)) ∧ knockPasses wPair 0 (kb 1 0 6 33 0) (kt 0 (kb 1 0 6 33 0)) ∧
    knockCalm wPair (kb 1 0 6 33 0) ∧ leAt (kb 1 0 6 33 0) 0 1 = 1 :=
  ⟨lv_comes _ (by decide +kernel), lv_passes _ (by decide +kernel) (by decide), by decide +kernel, by decide⟩

theorem knocksReceived_witness_taken :
    knockComes wPair 0 0 (lv (kb 5 1 6 33 0)) (kb 5 1 6 33 0) (kt 0 (kb 5 1 6 33 0)) ∧ knockPasses wPair 0 (kb 5 1 6 33 0) (kt 0 (kb 5 1 6 33 0)) ∧
    knockCalm wPair (kb 5 1 6 33 0) ∧ leAt (kb 5 1 6 33 0) 0 1 = 5 ∧ leAt (kb 5 1 6 33 0) 5 1 = 1 ∧ wPair.par.handover = none ∧
    (2 : Nat).testBit 1 = true ∧ 2 = 2 ^ 1 ∧ (3 : Nat).testBit 1 = true :=
  ⟨lv_comes _ (by decide +kernel), lv_passes _ (by decide +kernel) (by decide), by decide +kernel, by decide, by decide, rfl, by decide, by decide, by decide⟩

/-- TAKEN ends a handover of latch 1, or one of its two latches. -/
theorem knocksReceived_witness_handover (m : Nat) (hm : m = 2 ∨ m = 3) :
    let s := { wPair with par := { wPair.par with handover := some ⟨m, 0, some 5⟩ } }
    knockComes s 0 0 (lv (kb 5 1 6 33 0)) (kb 5 1 6 33 0) (kt 0 (kb 5 1 6 33 0)) ∧ knockPasses s 0 (kb 5 1 6 33 0) (kt 0 (kb 5 1 6 33 0)) ∧
    knockCalm s (kb 5 1 6 33 0) ∧ m.testBit 1 = true ∧ (m = 2 ^ 1 ∨ m = 3) :=
  ⟨knocksReceived_witness_taken.1, knocksReceived_witness_taken.2.1, knocksReceived_witness_taken.2.2.1, by rcases hm with rfl | rfl <;> decide, hm⟩

/-- After a mirror fault the partner's KNOCK still echoes it: neither latch is named current, and latch 0 is held without a current partner. -/
theorem knocksReceived_witness_fault :
    let s := modLatch 0 (fun x => { x with holder := true, pCur := false })
      { wPair with par := { wPair.par with mfault := true, mfaultDone := false, knockAt := 9 } }
    knockComes s 0 0 (lv (kb 1 0 6 1 0)) (kb 1 0 6 1 0) (kt 0 (kb 1 0 6 1 0)) ∧ knockPasses s 0 (kb 1 0 6 1 0) (kt 0 (kb 1 0 6 1 0)) ∧
    leAt (kb 1 0 6 1 0) 0 1 = 1 ∧ (leAt (kb 1 0 6 1 0) 2 2).testBit 0 = true ∧ (leAt (kb 1 0 6 1 0) 2 2).testBit 5 = false ∧ s.par.homeChecked = true ∧
    leAt (kb 1 0 6 1 0) 24 8 ≤ s.par.acked ∧ s.par.mfault = true ∧ s.par.mfaultDone = false ∧ s.par.knockAt ≠ 0 ∧
    (∃ l, l < 2 ∧ (latch s l).holder = true ∧ (latch s l).pCur = false) ∧
    ∀ l, l < 2 → (latch s l).holder = true → (leAt (kb 1 0 6 1 0) 2 2).testBit (1 + l) = false := by
  have h1 : knockComes wPair 0 0 (lv (kb 1 0 6 1 0)) (kb 1 0 6 1 0) (kt 0 (kb 1 0 6 1 0)) := lv_comes _ (by decide +kernel)
  have h2 : knockPasses wPair 0 (kb 1 0 6 1 0) (kt 0 (kb 1 0 6 1 0)) := lv_passes _ (by decide +kernel) (by decide)
  exact ⟨h1, h2, by decide, by decide, by decide, rfl, by decide, rfl, rfl, by decide, ⟨0, by decide, rfl, rfl⟩, fun _ _ _ => by
    rename_i l hl _
    have : l = 0 ∨ l = 1 := by omega
    rcases this with rfl | rfl <;> decide⟩

/-- RENEW for latch 0, which the partner holds and names current: the view is past, and with its mark still ahead it grants. -/
theorem knocksReceived_witness_renew :
    knockComes wPair 0 0 (lv (kb 2 0 6 43 44)) (kb 2 0 6 43 44) (kt 0 (kb 2 0 6 43 44)) ∧ knockPasses wPair 0 (kb 2 0 6 43 44) (kt 0 (kb 2 0 6 43 44)) ∧
    knockCalm wPair (kb 2 0 6 43 44) ∧ leAt (kb 2 0 6 43 44) 0 1 = 2 ∧ leAt (kb 2 0 6 43 44) 5 1 = 0 ∧ (latch wPair 0).holder = false ∧
    (leAt (kb 2 0 6 43 44) 2 2).testBit 3 = true ∧ eligible wPair = true ∧ viewAfter wPair (kb 2 0 6 43 44) 0 ≤ wPair.time.refCount ∧
    (let s := modLatch 1 (fun x => { x with selfCur := false }) wPair
     (leAt (kb 2 1 6 49 44) 2 2).testBit 4 = true ∧ s.time.refCount < viewAfter s (kb 2 1 6 49 44) 1 ∧ rxGap s = false) ∧
    rxGap { wPair with par := { wPair.par with rxHeld := [(7, [1])] } } = true :=
  ⟨lv_comes _ (by decide +kernel), lv_passes _ (by decide +kernel) (by decide), by decide +kernel, by decide, by decide, rfl, by decide, by decide, by decide +kernel,
    by decide +kernel, by decide⟩

theorem knocksReceived_witness_grant :
    knockComes wPair 0 0 (lv (kb 3 0 6 33 44)) (kb 3 0 6 33 44) (kt 0 (kb 3 0 6 33 44)) ∧ knockPasses wPair 0 (kb 3 0 6 33 44) (kt 0 (kb 3 0 6 33 44)) ∧
    leAt (kb 3 0 6 33 44) 0 1 = 3 ∧
    (let s := modLatch 0 (fun x => { x with holder := true, pCur := true, sent := [(44, 190000)] }) wPair
     knockCalm s (kb 3 0 6 33 44) ∧ (latch s 0).holder = true ∧ ((latch s 0).sent.map fun e => e.1).Nodup ∧
     (leAt (kb 3 0 6 33 44) 16 4, 190000) ∈ (latch s 0).sent ∧ ∀ e ∈ (latch s 0).sent, e.1 ≠ leAt (kb 3 0 6 33 43) 16 4) :=
  ⟨lv_comes _ (by decide +kernel), lv_passes _ (by decide +kernel) (by decide), by decide, by decide +kernel⟩

theorem knocksReceived_witness_release :
    knockComes wPair 0 0 (lv (kb 4 0 6 33 0)) (kb 4 0 6 33 0) (kt 0 (kb 4 0 6 33 0)) ∧ knockPasses wPair 0 (kb 4 0 6 33 0) (kt 0 (kb 4 0 6 33 0)) ∧
    knockCalm wPair (kb 4 0 6 33 0) ∧ leAt (kb 4 0 6 33 0) 0 1 = 4 ∧ wPair.par.rxHeld = [] ∧ wPair.par.rstMir = [] ∧ (latch wPair 0).handMseq = none ∧
    (latch wPair 1).handMseq = none ∧ (latch (modLatch 0 (fun x => { x with handMseq := some 0 }) wPair) 0).handMseq = some 0 ∧ 0 ≤ wPair.par.rxApplied ∧
    wPair.par.meters = [] ∧ wPair.par.journal = [] :=
  ⟨lv_comes _ (by decide +kernel), lv_passes _ (by decide +kernel) (by decide), by decide +kernel, by decide, rfl, rfl, rfl, rfl, rfl, by decide, rfl, rfl⟩

/-! ### FencesAndTakes -/

theorem fencesAndTakes_witness_paths :
    wPair.par.bound = true ∧ wPair.pwr.main = true ∧ (pathOf wPair 1).ok = true ∧ (pathOf wPair 1).lastAt + 6000 ≤ wPair.time.refCount ∧
    (pathOf wPair 0).ok = true ∧ (pathOf State.reset 0).ok = false ∧ (pathOf wPair 0).txOk = true ∧ (pathOf wPair 0).txAt + 6000 ≤ wPair.time.refCount ∧
    ({ wPair with time := { wPair.time with refCount := 5999 } } : State).time.refCount < (pathOf wPair 0).lastAt + 6000 ∧
    (pathOf { wPair with par := { wPair.par with fab := { px with txOk := false } } } 1).txOk = false := by (repeat' apply And.intro) <;> decide +kernel

theorem fencesAndTakes_witness_lease :
    leaseNeeded wHold 1 = true ∧ (latch wHold 1).leaseEnd ≤ wHold.time.refCount ∧ leaseNeeded wPair 1 = false ∧
    wHold.time.refCount < (latch (modLatch 0 (fun x => { x with leaseEnd := 200001 }) wHold) 0).leaseEnd := by (repeat' apply And.intro) <;> decide +kernel

theorem fencesAndTakes_witness_takes :
    wPair.par.rxHeld = [] ∧ wPair.par.rstMir = [] ∧ (latch wPair 0).holder = false ∧ (latch wPair 0).selfCur = true ∧ eligible wPair = true ∧
    (latch wPair 0).view + 2500 ≤ wPair.time.refCount ∧ wPair.par.mirrorAt + 2000 ≤ wPair.time.refCount ∧ (latch wPair 1).selfCur = false ∧
    (wPair.par.homeChecked = true ∧ 0 = wPair.par.home ∧ (latch wPair 0).pHold = false) ∧ (wPair.pwr.mode = .standby ∨ wPair.pwr.mode = .active) ∧
    (let s := { wPair with time := { wPair.time with refCount := 10000000 } }
     s.par.aloneSince + 100000 * s.par.aloneWait ≤ s.time.refCount ∧ s.par.lastAny = none ∧ 1 ≠ s.par.home) ∧
    wPair.time.refCount < wPair.par.aloneSince + 100000 * wPair.par.aloneWait := by (repeat' apply And.intro) <;> decide +kernel

/-! ### Takeover -/

/-- A METER record whose slot is being read for latch 0. -/
def mx : MetRec := ⟨7, 0, 3, 0, 2, zeroBytes 32, true⟩
/-- Taking latch 0: slots are read. -/
def wTake : State := modLatch 0 (fun x => { x with holder := true, take := .slots }) (modFn 3 (fun x => { x with regions := [⟨0, 0x10000, 0x4037⟩] })
  { wPair with par := { wPair.par with meters := [mx] } })

theorem takeover_witness_slots :
    wTake.par.meters.find? (fun x => x.asked) = some mx ∧ padTo 32 [1] ≠ mx.cpl ∧ mx.cpl.length = 32 ∧ mx.load = 0 ∧
    (latch wTake 0).take = .slots ∧ (latch wTake 1).take = .none ∧ (∀ x ∈ wTake.par.meters, x.mseq ≠ mx.mseq → x.asked = true → x.load ≠ 0) ∧
    (∀ x ∈ wPair.par.meters, x.asked = false) ∧
    (let s := { wTake with par := { wTake.par with meters := [mx, { mx with mseq := 8 }] } }
     (∀ l, l < 2 → (latch s l).take = .slots → ∃ x ∈ s.par.meters, x.mseq ≠ mx.mseq ∧ x.asked = true ∧ x.load = l) ∧
     ∀ l, l < 2 → (latch s l).take ≠ .replay) := by (repeat' apply And.intro) <;> decide +kernel

/-- Entries are owed of load 0, and of the lost partner's PF; none. -/
theorem takeover_witness_owed :
    (let j : Journal := ⟨9, 0, 3, 0, false, false, 2, 100, 0, [], false, false⟩
     owed { wTake with par := { wTake.par with journal := [j] } } 0 j) ∧
    (let j : Journal := ⟨9, 2, 3, 0, false, false, 2, 100, 0, [], false, false⟩
     owed (modLatch 0 (fun x => { x with lost := true }) { wTake with par := { wTake.par with journal := [j] } }) 0 j) ∧
    ¬ ∃ j, owed wTake 0 j := ⟨⟨.head _, .inl rfl⟩, ⟨.head _, .inr ⟨rfl, rfl⟩⟩, fun ⟨_, h, _⟩ => by cases h⟩

/-- A journal entry whose descriptor is being read: of load 0, and of the lost device's PF. -/
def jx (load : Nat) (applied : Bool) : Journal := ⟨9, load, 3, 0, false, false, 2, 100, 0, descDigest (zeroBytes 64), applied, true⟩
/-- Taking latch 0: the journal is replayed. -/
def wReplay (j : Journal) : State := modLatch 0 (fun x => { x with holder := true, take := .replay })
  (modFn 0 (fun x => { x with regions := [⟨0, 0x10000, 0x4037⟩] })
    { wPair with par := { wPair.par with journal := [j], ringMir := [⟨3, 0, 0, 0x1000, 6, 6, 0, true, 0, true⟩] } })

theorem takeover_witness_replay :
    (wReplay (jx 0 false)).par.journal.find? (fun x => x.asked) = some (jx 0 false) ∧
    (∀ l, l < 2 → (latch (wReplay (jx 0 false)) l).take = .slots → ∃ x ∈ (wReplay (jx 0 false)).par.meters, x.asked = true ∧ x.load = l) ∧
    (jx 0 false).load ≠ 2 ∧ (fnOf (wReplay (jx 0 false)) 3).rst = none ∧ 65535 < 65536 ∧ (tok (wReplay (jx 0 false)) 65535).st = .free ∧
    descDigest (padTo 64 (zeroBytes 64)) = (jx 0 false).digest ∧ (jx 0 false).applied = false ∧ (jx 0 true).applied = true ∧
    dOrdered (padTo 64 (zeroBytes 64)) = false ∧ descDigest (padTo 64 [1]) ≠ (jx 0 false).digest ∧ wPair.par.journal = [] := by
  (repeat' apply And.intro) <;> decide +kernel

theorem takeover_witness_pf :
    (jx 2 true).load = 2 ∧ (wReplay (jx 2 true)).par.ringMir.find? (fun x => decide (x.fn = 3) && decide (x.ring = 0)) =
      some ⟨3, 0, 0, 0x1000, 6, 6, 0, true, 0, true⟩ ∧
    hostRefusal (wReplay (jx 2 true)) (hifMaster 0 0) 0 (0x1000 + 32 * 0) 32 true = none := by (repeat' apply And.intro) <;> decide +kernel

/-! ### MirrorStream -/

/-- A mirror record. -/
def rc (type load n : Nat) (body : Bytes) : Bytes := leBytes 1 type ++ leBytes 1 load ++ leBytes 2 (16 + body.length) ++ zeroBytes 4 ++ leBytes 8 n ++ body
/-- The record at the front of the partner's stream, and one more. -/
def wMir (type load : Nat) (b : Bytes) : State := { wPair with par := { wPair.par with rxApplied := 4, rxHeld := [(5, rc type load 5 b), (6, [1])] } }

theorem mirrorStream_witness_rows :
    mirrorRows .mirrorHead 7 ∧ (wMir 1 0 []).par.l0.handMseq = none ∧ (wMir 1 0 []).par.l1.handMseq = none ∧
    (wMir 1 0 []).par.rxHeld = ((wMir 1 0 []).par.rxApplied + 1, rc 1 0 5 []) :: [(6, [1])] ∧ leAt (rc 1 0 5 []) 0 1 ≠ 7 ∧ wPair.par.rxHeld = [] ∧
    (6 : Nat) ≠ (wMir 1 0 []).par.rxApplied + 1 := by
  refine ⟨.inr (.inr (.inr (.inr (.inr (.inr (.inl ⟨rfl, rfl⟩)))))), rfl, rfl, rfl, ?_, rfl, by decide⟩
  decide

/-- JOURNAL of a VF and of the partner's PF; METER of an ordered command with its entry and of an abandoned one; STATE with a record, with an
officer, with the time. -/
theorem mirrorStream_witness_work :
    (let b := leBytes 2 3 ++ [0, 3] ++ leBytes 2 63 ++ [0, 0] ++ leBytes 4 100 ++ leBytes 4 7 ++ [1, 2, 3, 4, 5, 6, 7, 8]
     recordNext (wMir 1 0 b) 1 (rc 1 0 5 b) [(6, [1])] ∧ leAt (rc 1 0 5 b) 1 1 ≠ 2 ∧ leAt (rc 1 2 5 b) 1 1 = 2 ∧
     (fnOf (wMir 1 0 b) (leAt (rc 1 0 5 b) 16 2)).rings[leAt (rc 1 0 5 b) 18 1]? = some { Ring.blank with tail := 9 }) ∧
    (let b := leBytes 2 3 ++ [1, 0] ++ leBytes 4 8 ++ leBytes 4 (2 ^ 31 + 5) ++ leBytes 4 0xFFFFFFFF ++ leBytes 2 2 ++ [0] ++ zeroBytes 5 ++
       cplBytes 0 0 1 true 0 0 2 0 false
     recordNext (wMir 2 0 b) 2 (rc 2 0 5 b) [(6, [1])] ∧ (leAt (rc 2 0 5 b) 19 1).testBit 0 = false ∧ (leAt (rc 2 0 5 b) 24 4).testBit 31 = true ∧
     leAt (rc 2 0 5 b) 28 4 = 0xFFFFFFFF) ∧
    (let b := leBytes 2 3 ++ [0, 0] ++ leBytes 2 2 ++ [0, 0] ++ leBytes 2 0 ++ leBytes 4 0 ++ leBytes 2 0x0201 ++ zeroBytes 90
     recordNext (wMir 3 0 b) 3 (rc 3 0 5 b) [(6, [1])] ∧ leAt (rc 3 0 5 b) 24 2 = 0 ∧ leAt (rc 3 0 5 b) 30 2 ≠ 0 ∧
     logTakes { wMir 3 0 b with aud := { (wMir 3 0 b).aud with next := 5, anchorDue := false } } ∧ streamOn (wMir 3 0 b) = true) ∧
    (let b := leBytes 2 3 ++ [0, 0] ++ leBytes 2 2 ++ [0, 0] ++ leBytes 2 98 ++ [4, 19] ++ zeroBytes 192
     recordNext (wMir 3 0 b) 3 (rc 3 0 5 b) [(6, [1])] ∧ leAt (rc 3 0 5 b) 24 2 = 98 ∧ leAt (rc 3 0 5 b) 26 1 = 4) ∧
    (let b := leBytes 2 3 ++ [0, 0] ++ leBytes 2 2 ++ [0, 0] ++ leBytes 2 9 ++ [7] ++ zeroBytes 104
     recordNext (wMir 3 0 b) 3 (rc 3 0 5 b) [(6, [1])] ∧ leAt (rc 3 0 5 b) 24 2 = 9 ∧ leAt (rc 3 0 5 b) 26 1 = 7) := by
  (repeat' apply And.intro) <;> decide +kernel

/-- RING of a VF and of the partner's PF, FN_RESET, RECEIPT, HEAD, ACK, HANDOVER and RESYNC. -/
theorem mirrorStream_witness_other :
    (let b := leBytes 2 3 ++ [0, 1] ++ leBytes 8 0x1000 ++ leBytes 8 0x2000 ++ [8, 9, 0, 0] ++ leBytes 8 0x3000
     recordNext (wMir 4 0 b) 4 (rc 4 0 5 b) [(6, [1])] ∧ leAt (rc 4 0 5 b) 1 1 ≠ 2 ∧ leAt (rc 4 0 5 b) 19 1 = 1 ∧
     recordNext (wMir 4 2 b) 4 (rc 4 2 5 b) [(6, [1])] ∧ leAt (rc 4 2 5 b) 1 1 = 2) ∧
    (let b := leBytes 2 3 ++ [2] ++ zeroBytes 5 ++ leBytes 8 99
     recordNext (wMir 5 0 b) 5 (rc 5 0 5 b) [(6, [1])]) ∧
    recordNext (wMir 6 0 (zeroBytes 64)) 6 (rc 6 0 5 (zeroBytes 64)) [(6, [1])] ∧
    recordNext (wMir 7 0xFF (zeroBytes 32)) 7 (rc 7 0xFF 5 (zeroBytes 32)) [(6, [1])] ∧
    (let b := leBytes 8 20
     recordNext (wMir 8 0xFF b) 8 (rc 8 0xFF 5 b) [(6, [1])] ∧ (wMir 8 0xFF b).par.acked < leAt (rc 8 0xFF 5 b) 16 8 ∧
     leAt (rc 8 0xFF 5 (leBytes 8 0)) 16 8 ≤ (wMir 8 0xFF b).par.acked ∧ (∀ it ∈ (wMir 8 0xFF b).slm.toks, it.2.st ≠ .mirror) ∧
     (wMir 8 0xFF b).hif.relq = [] ∧ (wMir 8 0xFF b).mtr.waiting = [] ∧ (wMir 8 0xFF b).par.l0.resync = none ∧ (wMir 8 0xFF b).par.l1.resync = none) ∧
    (let b := [1] ++ zeroBytes 7 ++ leBytes 8 20
     recordNext (wMir 9 1 b) 9 (rc 9 1 5 b) [(6, [1])] ∧ (wMir 9 1 b).par.l0.released = false ∧ (wMir 9 1 b).par.l1.released = false ∧
     leAt (rc 9 1 5 b) 16 1 < 2) ∧
    (let b := [4] ++ leBytes 2 3 ++ [5] ++ leBytes 8 200
     recordNext (wMir 10 0 b) 10 (rc 10 0 5 b) [(6, [1])] ∧ leAt (rc 10 0 5 b) 16 1 = 4) ∧
    (let b := [2] ++ leBytes 2 3 ++ leBytes 4 8 ++ leBytes 4 100 ++ leBytes 4 90
     recordNext (wMir 10 0 b) 10 (rc 10 0 5 b) [(6, [1])] ∧ leAt (rc 10 0 5 b) 16 1 = 2) ∧
    recordNext (wMir 10 0 [8]) 10 (rc 10 0 5 [8]) [(6, [1])] ∧ leAt (rc 10 0 5 [8]) 16 1 = 8 := by (repeat' apply And.intro) <;> decide +kernel

/-- An LMK effect of CURRENT for VF 3, slot 0: sealed under the pair key, and one that no key opens. -/
def lmkRec (b : Bytes) : Bytes := leBytes 2 3 ++ [0, 0] ++ leBytes 2 2 ++ [0, 0] ++ leBytes 2 47 ++ [1] ++ leBytes 2 3 ++ [0, 1] ++ leBytes 2 5 ++ b ++ zeroBytes 90
theorem mirrorStream_witness_lmk :
    (let b := lmkRec (kwWrap (zeroBytes 32) (zeroBytes 32))
     recordNext (wMir 3 0 b) 3 (rc 3 0 5 b) [(6, [1])] ∧ leAt (rc 3 0 5 b) 24 2 = 47 ∧ leAt (rc 3 0 5 b) 26 1 = 1 ∧ leAt (rc 3 0 5 b) 30 1 = 1 ∧
     lmkUnseal (wMir 3 0 b) (slice (rc 3 0 5 b) 33 40) = some (zeroBytes 32)) ∧
    (let b := lmkRec (zeroBytes 40)
     recordNext (wMir 3 0 b) 3 (rc 3 0 5 b) [(6, [1])] ∧ leAt (rc 3 0 5 b) 24 2 = 47 ∧ leAt (rc 3 0 5 b) 30 1 ≠ 0 ∧
     lmkUnseal (wMir 3 0 b) (slice (rc 3 0 5 b) 33 40) = none) := by (repeat' apply And.intro) <;> decide +kernel

/-- A rejoin package in RECOVERY with a path back to its sender. -/
theorem mirrorStream_witness_rejoin :
    (let s := { wPair with pwr := { wPair.pwr with mode := .recovery }, lcy := { wPair.lcy with rejoin := some ⟨[1], [2], 9⟩ } }
     s.lcy.rejoin = some ⟨[1], [2], 9⟩ ∧ s.pwr.mode = .recovery ∧ s.phl.valid = true ∧ 9 = (if s.par.bound then s.par.addr else 9) ∧
     routePort s 9 = some 1 ∧ portReady s 1 2) ∧ wPair.lcy.rejoin = none := by (repeat' apply And.intro) <;> decide +kernel

/-- A retained record of a type, sent again so often. -/
def mr (n k re : Nat) : MirRec := ⟨n, [BitVec.ofNat 8 k] ++ zeroBytes 15, re⟩

theorem mirrorStream_witness_resend :
    (let s := { wPair with par := { wPair.par with retained := [mr 5 3 2, mr 6 2 9] } }
     s.par.rejoinTx = none ∧ streamOn s = true ∧ s.par.retained ≠ [] ∧ s.par.progressAt + 1000 * s.par.mirrorTmo ≤ s.time.refCount ∧
     (∀ r ∈ s.par.retained, leAt r.bytes 0 1 = 3 → r.resent < 3)) ∧
    (let s := { wPair with par := { wPair.par with retained := [mr 5 3 3] } }
     s.par.mfault = false ∧ s.par.lvds.ok = true ∧ ∃ r ∈ s.par.retained, leAt r.bytes 0 1 = 3 ∧ 3 ≤ r.resent) ∧
    wPair.par.retained = [] ∧
    (let s := { wPair with par := { wPair.par with rejoinTx := some (9, [1], 100), pElig := false } }
     s.par.rejoinTx = some (9, [1], 100) ∧ s.pwr.main = true ∧ 100 + 1000 * s.par.mirrorTmo ≤ s.time.refCount ∧ streamOn s = false) := by
  (repeat' apply And.intro) <;> decide +kernel

/-! ### HandoverAndPairKey -/

/-- HANDOVER_GO refused as busy, as not held, as not current, and taken. -/
theorem handoverAndPairKey_witness_go :
    regsTake wHold ∧ (2 ^ 31 + 65536 + 20 : Nat).testBit 31 = true ∧ (2 ^ 31 + 65536 + 20) / 65536 % 4 = 1 ∧ wHold.par.handover = none ∧
    ({ wHold with par := { wHold.par with handover := some ⟨1, 0, none⟩ } } : State).par.handover ≠ none ∧
    (∃ l, l < 2 ∧ (1 : Nat).testBit l = true ∧ (latch wPair l).holder = false) ∧ (∀ l, l < 2 → (3 : Nat).testBit l = true → (latch wHold l).holder = true) ∧
    (∃ l, l < 2 ∧ (3 : Nat).testBit l = true ∧ (latch wHold l).pCur = false) ∧
    (∀ l, l < 2 → (1 : Nat).testBit l = true → (latch (modLatch 0 (fun x => { x with pCur := true }) wHold) l).pCur = true) := by
  (repeat' apply And.intro) <;> decide +kernel

theorem handoverAndPairKey_witness_drain :
    (let s := { wHold with par := { wHold.par with handover := some ⟨1, 0, none⟩, txNext := 1 } }
     s.par.handover = some ⟨1, 0, none⟩ ∧ 1 = 2 ^ 0 ∧ (latch s 0).holder = true ∧ 0 + 100 * s.par.drain ≤ s.time.refCount ∧ 1 ≤ s.par.txNext ∧
     streamOn s = true ∧ ¬ s.time.refCount < 0 + 100 * s.par.drain) ∧
    (let h : Handover := ⟨1, 0, some 100000⟩
     h.released = some 100000 ∧ h.released ≠ none ∧ 100000 + 100000 ≤ wHold.time.refCount ∧ wHold.time.refCount < 100001 + 100000) := by
  (repeat' apply And.intro) <;> decide +kernel

/-- Instance 0 runs; the key is missing or worn; this device's identity is the higher or the lower; an answer of the right length. -/
def wKey (p : Bytes) : State :=
  { wPair with ent := { wPair.ent with drbgs := wPair.ent.drbgs.map fun d => { d with ready := true } }, par := { wPair.par with key := none, partnerId := p } }

theorem handoverAndPairKey_witness_key :
    (wKey [1]).par.bound = true ∧ (wKey [1]).pwr.main = true ∧ (wKey [1]).par.key = none ∧ drbgLive (wKey [1]) 0 = true ∧ identHigher (wKey [1]) = false ∧
    identHigher { wKey [0] with lcy := { (wKey [0]).lcy with ident := [1] } } = true ∧ (wKey [1]).par.kemDk = none ∧
    wPair.par.key ≠ none ∧ wPair.par.keyUses < 2 ^ 31 := by (repeat' apply And.intro) <;> decide +kernel

/-- The device that offers has offered, or needs a key: it has none, its uses are up, or the partner sends without one. -/
theorem handoverAndPairKey_witness_due :
    (({ wKey [1] with par := { (wKey [1]).par with kemDk := some [1] } } : State)).par.kemDk = some [1] ∧
    ({ wPair with par := { wPair.par with keyUses := 2 ^ 31 } } : State).par.keyUses = 2 ^ 31 ∧ wPair.par.pOpen = false ∧
    pairMsgTake (kemCtLen 3) [] wPair = none ∧ pairMsgTake (kemEkLen 3) [] wPair = none := by (repeat' apply And.intro) <;> decide +kernel

/-- A message that the partner signed is taken, whatever its length; under a key that is too short no signature is right. -/
theorem handoverAndPairKey_witness_signed (n : Nat) (seed : Bytes) :
    let m : Bytes := List.replicate (n + 4) 0
    let data := m ++ slhSign slh256s seed m
    (pairMsgTake n data { wKey [1] with par := { (wKey [1]).par with partnerPk := slhPk slh256s seed } }).isSome = true ∧
    pairMsgTake n data { wKey [1] with par := { (wKey [1]).par with partnerPk := [1] } } = none := by
  have ht : (List.replicate (n + 4) (0 : Byte) ++ slhSign slh256s seed (List.replicate (n + 4) 0)).take (n + 4) = List.replicate (n + 4) 0 :=
    List.take_left' List.length_replicate
  have hd : (List.replicate (n + 4) (0 : Byte) ++ slhSign slh256s seed (List.replicate (n + 4) 0)).drop (n + 4) =
    slhSign slh256s seed (List.replicate (n + 4) 0) := List.drop_left' List.length_replicate
  have hl : (List.replicate (n + 4) (0 : Byte) ++ slhSign slh256s seed (List.replicate (n + 4) 0)).length = n + 4 + slhLen slh256s := by
    rw [List.length_append, List.length_replicate, length_sign256s]; rfl
  refine ⟨?_, ?_⟩
  · unfold pairMsgTake
    rw [ht, hd, if_pos ⟨hl, verify_sign256s _ _⟩]
    rfl
  · unfold pairMsgTake
    rw [ht, hd, if_neg]
    exact fun h => absurd h.2 (by rw [show slhVerify slh256s [1] _ _ = false from slh_key_length _ _ _ _ (by decide)]; decide)

end Sys2Proof.Machine.TestsPairs
end

