-- ==== Sys2Proof/Tests/Slice0Power.lean ====
section
/-!
SUPPORT. For the statements about power, the start sequence, the integrity chain, counters, registers and the invariants: concrete states and
operands that meet their hypotheses, clause by clause.
-/

namespace Sys2Proof.Machine.TestsPower

open Sys2Proof

set_option Elab.async false

/-- A device in ACTIVE, unpaired, with main power and the link up, and a host region of 64 Mbyte for the PF. -/
def wAct : State := modFn 0 (fun x => { x with regions := [⟨0, 0x10000, 0x4037⟩] })
  { State.reset with
    pwr := { Pwr.new with mode := .active }
    hif := { Hif.start with linkUp := true, svcMode := .active, svcLatches := 1 }
    aud := { State.reset.aud with anchorDue := false, next := 12 } }

/-! ### PowerFlashGpio -/

/-- In GUARD with the supplies back since tick 100, before and at the 33rd tick. -/
def wGuard (n : Nat) : State := { wAct with
  pwr := { wAct.pwr with mode := .guard, main := false, supplies := true, okSince := some 100, ledger := [(256 * 9, ⟨2, 0, 1⟩)] }
  time := { wAct.time with slowCount := n } }

/-- A record whose VALID is still to come, with its SEQ. -/
def hr (q : Nat) : HeldRec := { seq := q, bytes := recBytes q (0x100 + q) 1 9 3 [7, 8], chain := zeroBytes 32, time := 55 }
/-- Records on their way, and an LMK. -/
def wRecs : State := { wAct with
  aud := { wAct.aud with held := [hr 10], staging := [hr 11] }
  kst := { wAct.kst with lmks := [(3, { Lmk.blank with s0 := { LmkSlot.blank with occ := true, version := 4, key := some [1] } })] } }

theorem powerFlashGpio_witness_power :
    (wGuard 133).pwr.okSince = some 100 ∧ (wGuard 133).pwr.main = false ∧ (wGuard 133).pwr.supplies = true ∧ (wGuard 133).pwr.pwrfail = none ∧
    100 + 33 ≤ (wGuard 133).time.slowCount ∧ (wGuard 132).time.slowCount < 100 + 33 ∧ bootWhole (wGuard 133) ∧ wAct.pwr.okSince = none ∧
    wRecs.pwr.main = true ∧ twf Lmk.blank wRecs.kst.lmks = true ∧ wRecs.mtr.adds = [] ∧ wRecs.lcy.intGrant = none ∧ wRecs.lcy.scanGrant = none ∧
    wRecs.aud.buf.length + (wRecs.aud.held ++ wRecs.aud.staging).length ≤ 64 ∧ (∀ h ∈ wRecs.aud.held ++ wRecs.aud.staging, leAt h.bytes 4 2 ≠ 2) ∧
    (wGuard 133).pwr.backup = true ∧ ({ wGuard 133 with pwr := { (wGuard 133).pwr with backup := false } } : State).pwr.backup = false ∧
    (∀ it ∈ wRecs.slm.toks, it.2.st ≠ .mirror) ∧ wRecs.hif.relq = [] := by (repeat' apply And.intro) <;> decide +kernel

/-- FLASH_GO on the slot that runs, on the other, with its pointer readable and not, and while one is busy; no registers in GUARD. -/
theorem powerFlashGpio_witness_go :
    regsAnswer wAct = true ∧ wAct.pwr.flashBusy = none ∧ wAct.pwr.slot = 0 % 2 ∧ 1 % 2 ≠ wAct.pwr.slot ∧
    hostRefusal wAct (hifMaster 0 0) 0 wAct.pwr.flashPtr 64 false = none ∧ regsAnswer (wGuard 133) = false ∧
    ({ wAct with pwr := { wAct.pwr with flashBusy := some 1 } } : State).pwr.flashBusy ≠ none ∧
    hostRefusal { wAct with pwr := { wAct.pwr with flashPtr := 2 ^ 40 } } (hifMaster 0 0) 0 (2 ^ 40) 64 false ≠ none := by
  (repeat' apply And.intro) <;> decide +kernel

/-- A header with a payload of 2 bytes, and one whose length is one past the largest. -/
def wHd (n : Nat) : Bytes := leBytes 4 0x57464845 ++ leBytes 4 9 ++ leBytes 4 3 ++ leBytes 4 n ++ zeroBytes 48
/-- An update under way, its firmware key on hand. -/
def wFlash (k : Bytes) : State := { wAct with
  pwr := { wAct.pwr with flashBusy := some 1 }
  lcy := { wAct.lcy with rom := [[], [], [], k] } }

theorem powerFlashGpio_witness_image (k : Bytes) :
    (wFlash k).pwr.flashBusy = some 1 ∧ (wFlash k).pwr.main = true ∧ leAt (wHd 2) 0 4 = 0x57464845 ∧ leAt (wHd 2) 12 4 ≤ 8338560 ∧
    slice (wHd 2) 16 48 = zeroBytes 48 ∧ 8338560 < leAt (wHd 8338561) 12 4 ∧ leAt (wHd 2 |>.set 0 0) 0 4 ≠ 0x57464845 ∧
    hostRefusal (wFlash k) (hifMaster 0 0) 0 ((wFlash k).pwr.flashPtr + 64) (64 + leAt (wHd 2) 12 4 - 64 + 49856) false = none ∧
    hostRefusal (wFlash k) (hifMaster 0 0) 0 ((wFlash k).pwr.flashPtr + 64) (64 + 8338560 - 64 + 49856) false = none ∧
    wAct.pwr.flashBusy = none ∧ leAt (wHd 2) 4 4 = 9 ∧ (wFlash k).pwr.fwFloor = 0 := by
  refine ⟨rfl, rfl, by decide, by decide, by decide, by decide, by decide, ?_, ?_, rfl, by decide, rfl⟩
  · exact (show hostRefusal (wFlash []) (hifMaster 0 0) 0 (0 + 64) 49858 false = none by decide +kernel)
  · exact (show hostRefusal (wFlash []) (hifMaster 0 0) 0 (0 + 64) 8388416 false = none by decide +kernel)

/-- An image under the firmware key's signature, and one under a key that is too short. -/
theorem powerFlashGpio_witness_signed (seed : Bytes) :
    let n := 64 + leAt (padTo 64 (wHd 2 ++ [1, 2])) 12 4
    let img := wHd 2 ++ [1, 2]
    let b := img ++ slhSign slh256f seed img
    slhVerify slh256f (romKey (wFlash (slhPk slh256f seed)) 3) (b.take n) (b.drop n) = true ∧
    slhVerify slh256f (romKey (wFlash [1]) 3) (b.take n) (b.drop n) = false := by
  have hn : 64 + leAt (padTo 64 (wHd 2 ++ [1, 2])) 12 4 = (wHd 2 ++ [1, 2]).length := by decide +kernel
  have ht : (wHd 2 ++ [1, 2] ++ slhSign slh256f seed (wHd 2 ++ [1, 2])).take (wHd 2 ++ [1, 2]).length = wHd 2 ++ [1, 2] := List.take_left' rfl
  have hd : (wHd 2 ++ [1, 2] ++ slhSign slh256f seed (wHd 2 ++ [1, 2])).drop (wHd 2 ++ [1, 2]).length = slhSign slh256f seed (wHd 2 ++ [1, 2]) :=
    List.drop_left' rfl
  dsimp only
  refine ⟨?_, slh_key_length _ _ _ _ (show ([1] : Bytes).length < 64 by decide)⟩
  rw [hn, ht, hd]
  exact verify_sign256f _ _

theorem powerFlashGpio_witness_pps :
    (1 : Nat).testBit 0 = true ∧ (3 : Nat).testBit 1 = true ∧ (3 : Nat).testBit 0 = true ∧ (2 : Nat).testBit 0 = false ∧ wAct.pwr.svcEn = false ∧
    wAct.pwr.ppsEn = false ∧ wAct.time.dev = none ∧
    (let s := { wAct with time := { wAct.time with dev := some 3000000 }, pwr := { wAct.pwr with ppsSecond := some 2, ppsEn := true } }
     s.time.dev = some 3000000 ∧ s.pwr.main = true ∧ s.pwr.ppsSecond = some 2 ∧ 2 < 3000000 / 1000000 ∧ s.pwr.ppsEn = true ∧ 3000000 % 1000000 = 0 ∧
     ¬ 2 < 2999999 / 1000000) := by (repeat' apply And.intro) <;> decide +kernel

/-! ### StartSequence -/

/-- A start with two images in the boot flash. -/
def wSt : State := { State.reset with
  lcy := { State.reset.lcy with state := .deployed }
  aud := { State.reset.aud with buf := [], anchorDue := true, next := 12 }
  pwr := { Pwr.new with slotA := ⟨true, 5, 1, [1]⟩, slotB := ⟨true, 7, 2, [2]⟩ } }
/-- The same with entries of the ledger. -/
def wLed (l : List (Nat × Ledger)) : State := { wSt with pwr := { wSt.pwr with ledger := l } }
/-- Steps passed, one unit each. -/
def pass (l : List Nat) : List (Nat × Ledger) := l.map fun n => (256 * n, ⟨1, 0, 0⟩)
/-- Every unit of a step passed. -/
def passAll (n k : Nat) : List (Nat × Ledger) := (List.range k).map fun u => (256 * n + u, ⟨1, 0, 0⟩)

/-- Steps 1 to 6 may run in turn, and what they look at. -/
theorem startSequence_witness_first :
    stepRuns wSt 1 0 ∧ plainStep 1 ∧ wSt.pwr.mode = .start ∧ wSt.pwr.held = false ∧ wSt.pwr.retried.contains 1 = false ∧
    ¬ stepRuns wSt 2 0 ∧ 1 ∈ stepNeeds 2 ∧ (bootOf wSt 1 0).last = 0 ∧ 0 < stepUnits 1 ∧
    stepRuns (wLed (pass [1])) 2 0 ∧ wSt.pwr.secretOk = true ∧ wSt.pwr.ledgerOk = true ∧ wSt.dbg.failedWords = [] ∧
    stepRuns (wLed (pass [1, 2])) 3 0 ∧ bootWhole (wLed (pass [1, 2])) ∧ portsWhole (wLed (pass [1, 2])) ∧
    stepRuns (wLed (pass [1, 2, 3])) 4 0 ∧ stepRuns (wLed (pass [1, 2, 3, 4])) 5 0 ∧ stepRuns (wLed (pass [1, 2, 3, 4, 5])) 6 0 ∧ wSt.aud.buf = [] ∧
    (let s := { wLed (pass [1, 2, 3, 4, 5]) with aud := { wSt.aud with buf := [⟨0x0101, 3, 1, [1, 2, 3], 55⟩] } }
     stepRuns s 6 0 ∧ s.aud.buf = [⟨0x0101, 3, 1, [1, 2, 3], 55⟩] ∧ s.aud.anchorDue = true ∧ s.aud.next < 524286 ∧ s.aud.shutter = none ∧ s.aud.staging = []) ∧
    (let s := { wSt with pwr := { wSt.pwr with retried := [1], secretOk := false } }
     stepRuns s 1 0 ∧ s.pwr.retried.contains 1 = true ∧ s.pwr.secretOk = false) ∧
    (∀ k, k < recsUsed wSt.lcy.recs → (wSt.lcy.recs.getD k ⟨0, 0, 0⟩).done = otpDone) := by
  refine ⟨?_, .inl rfl, ?_⟩ <;> (repeat' apply And.intro) <;> decide +kernel

/-- The link and the firmware, with one image, two, and none that may run. -/
theorem startSequence_witness_firmware :
    stepRuns (wLed (pass [1, 2, 3, 4, 5, 6])) 8 0 ∧ stepRuns (wLed (pass [1, 2, 3, 4, 5, 6, 8])) 9 1 ∧
    fwPick (wLed (pass [1, 2, 3, 4, 5, 6, 8])) = some 1 ∧ stepRuns (wLed (pass [1, 2, 3, 4, 5, 6, 8])) 9 0 ∧
    fwCan (wLed (pass [1, 2, 3, 4, 5, 6, 8])) 0 = true ∧
    (let s := wLed (pass [1, 2, 3, 4, 5, 6, 8] ++ [(256 * 9, ⟨2, 0, 1⟩)])
     stepRuns s 9 1 ∧ fwPick s = some 1 ∧ fwCan s 0 = false ∧ s.pwr.retried.contains 9 = false ∧
     (fwSlot s 1).present = true ∧ (bootOf s 9 1).last = 0 ∧ ¬ ((fwSlot s 0).present = true ∧ (bootOf s 9 0).last = 0)) ∧
    (let s := { wLed (pass [1, 2, 3, 4, 5, 6, 8]) with
        pwr := { (wLed (pass [1, 2, 3, 4, 5, 6, 8])).pwr with slotA := { wSt.pwr.slotA with present := false }, slotB := { wSt.pwr.slotB with present := false } } }
     stepRuns s 9 0 ∧ fwPick s = none) ∧
    stepRuns (wLed (pass [1, 2, 3, 4, 5, 6, 8, 9])) 0x0A 0 := by (repeat' apply And.intro) <;> decide +kernel

/-- The first ten steps. -/
def ten : List (Nat × Ledger) := pass [1, 2, 3, 4, 5, 6, 8, 9, 0x0A]

/-- The optional steps' units, first and last, and the ports. -/
theorem startSequence_witness_units :
    stepRuns (wLed ten) 0x0B 0 ∧ stepRuns (wLed ten) 0x0B 143 ∧ logicalOf (wLed ten) 9 = some 0 ∧ spareReady (wLed ten) (coreCluster 9) = true ∧
    9 ≠ 9 * coreCluster 9 + 8 ∧ spareReady { wLed ten with cpu := { (wLed ten).cpu with fenced := [17] } } 1 = false ∧
    (let s := wLed (ten ++ passAll 0x0B 144)
     stepRuns s 0x0C 17 ∧ stepRuns s 0x0D 8 ∧ stepRuns s 0x0E 3 ∧ stepRuns s 0x0F 1) ∧
    (let s := { wLed ten with phl := { (wLed ten).phl with ports := (List.range 8).map fun p => { Port.blank with st := if p = 7 then .down else .up } } }
     stepRuns s 0x10 7 ∧ (portOf s 7).st = .down ∧ (portOf s 0).st = .up) := by (repeat' apply And.intro) <;> decide +kernel

/-- The sources of entropy started, one failed, and an instance ready. -/
def wEnt (l : List (Nat × Ledger)) (a b : SrcState) : State := { wLed l with
  ent := { wSt.ent with srcA := { wSt.ent.srcA with st := a }, srcB := { wSt.ent.srcB with st := b }
                        drbgs := wSt.ent.drbgs.map fun d => { d with ready := true } } }

theorem startSequence_witness_entropy :
    (let s := wEnt (pass [1, 2, 3, 4, 5, 6]) .selected .warm
     stepRuns s 7 0 ∧ ∀ k, k < 2 → (srcOf s k).st = .warm ∨ (srcOf s k).st = .selected) ∧
    (let s := wEnt (pass [1, 2, 3, 4, 5, 6]) .selected .startup
     stepRuns s 7 0 ∧ ∃ k, k < 2 ∧ (srcOf s k).st = .startup) ∧
    (let s := modSrc 1 (fun x => { x with attempts := 2 }) (wEnt (pass [1, 2, 3, 4, 5, 6]) .selected .failed)
     stepRuns s 7 0 ∧ (srcOf s 1).st = .failed ∧ 2 ≤ (srcOf s 1).attempts) := by
  (repeat' apply And.intro) <;> decide +kernel

/-- Everything before the last steps. -/
def most : List (Nat × Ledger) :=
  pass [1, 2, 3, 4, 5, 6, 7, 8] ++ (passAll 9 1 ++ (pass [0x0A] ++ (passAll 0x0B 144 ++ (passAll 0x0C 18 ++ (passAll 0x0D 9 ++ (passAll 0x0E 4 ++ passAll 0x0F 2))))))

theorem startSequence_witness_last :
    stepRuns (wEnt most .selected .warm) 0x11 0 ∧ (wEnt most .selected .warm).lcy.state = .deployed ∧ (wEnt most .selected .warm).tmp.erased = false ∧
    drbgLive (wEnt most .selected .warm) 0 = true ∧ stepRuns (wEnt (most ++ pass [0x11]) .selected .warm) 0x12 0 ∧
    (let s := wEnt (most ++ pass [0x11, 0x12]) .selected .warm
     stepRuns s 0x1F 0 ∧ s.par.l0.take = .none ∧ s.par.l1.take = .none ∧ s.hif.svcHeld = false ∧ s.aud.shutter = none ∧ s.aud.staging = [] ∧ recBlocked s = false ∧
     logUsed s + 3 < 458752 ∧ (∀ a, a < 16 → ∀ b, b < 8 → coreCluster (physOf s a b) = a)) ∧
    (let s := wEnt most .selected .warm
     { s with tmp := { s.tmp with erased := true } }.tmp.erased = true) ∧
    (let s := { wSt with pwr := { wSt.pwr with held := true }, time := { wSt.time with refCount := 100000000 } }
     s.pwr.main = true ∧ s.pwr.held = true ∧ s.pwr.heldAt + 100000000 ≤ s.time.refCount) ∧ wSt.pwr.held = false ∧
    regsAnswer wAct = true ∧ regsAnswer (wGuard 133) = false := by (repeat' apply And.intro) <;> decide +kernel

/-! ### IntegrityCommands -/

/-- A paired device in STANDBY, every cluster awake. -/
def wSb : State := { wAct with
  pwr := { wAct.pwr with mode := .standby }, par := { wAct.par with bound := true }, slm := { wAct.slm with clusters := List.replicate 16 .awake } }
/-- The same with an injection armed. -/
def wInj (p u k l : Nat) (f : Bool) : State := { wSb with dbg := { wSb.dbg with inj := some ⟨p, u, k, l, f⟩ } }

theorem integrityCommands_witness_cores :
    wSb.pwr.main = true ∧ wSb.pwr.mode = .standby ∧ 142 < 144 ∧ logicalOf wSb 142 ≠ none ∧ wSb.dbg.inj = none ∧ clAwake wSb (coreCluster 142) = true ∧
    coreIdle wSb 142 ∧ logicalOf wSb 143 = none ∧
    (let s := { wSb with slm := { wSb.slm with clusters := wSb.slm.clusters.set 15 .asleep } }
     clAwake s (coreCluster 142) = false) ∧
    (wInj 5 142 1 1 true).dbg.inj = some ⟨0x05, 142, 1, 1, true⟩ ∧ (wInj 5 0xFFFF 1 2 false).dbg.inj = some ⟨0x05, 0xFFFF, 1, 2, false⟩ ∧ wAct.pwr.mode ≠ .standby := by
  (repeat' apply And.intro) <;> decide +kernel

theorem integrityCommands_witness_lanes :
    testPortOk 1 15 = true ∧ testPortOk 2 7 = true ∧ testPortOk 3 3 = true ∧ testPortOk 4 1 = true ∧ testPortOk 1 16 = false ∧
    (laneOf wSb (testPort 1 15)).fenced = false ∧ clAwake wSb 15 = true ∧ (wInj 12 0xFFFF 1 1 false).dbg.inj = some ⟨0x0C, 0xFFFF, 1, 1, false⟩ ∧
    (wInj 10 0xFFFF 0 1 false).dbg.inj = some ⟨0x0A, 0xFFFF, 0, 1, false⟩ ∧ 127 < 128 ∧ sillUsed wSb (127 / 64) < 4 ∧
    (let s := { wSb with dbg := { wSb.dbg with sillRemapped := [64, 65, 66, 67] } }
     4 ≤ sillUsed s 1 ∧ s.dbg.pairFault = false ∧ s.par.bound = true) ∧ 1 < 2 ∧ 63 < 64 := by (repeat' apply And.intro) <;> decide +kernel

theorem integrityCommands_witness_spare :
    (let s := { wSb with cpu := { wSb.cpu with fenced := [139] } }
     s.pwr.main = true ∧ spareReady s 15 = true ∧ coreGood s (physOf s 15 4) = false ∧ (∀ j, j < 4 → coreGood s (physOf s 15 j) = true) ∧ clAwake s 15 = true) ∧
    (∀ k, k < 8 → coreGood wSb (physOf wSb 15 k) = true) := by (repeat' apply And.intro) <;> decide +kernel

theorem integrityCommands_witness_scrub :
    (let s := { wSb with time := { wSb.time with refCount := 1000000, dev := some 5000000 } }
     s.pwr.main = true ∧ s.pwr.scrubAt + 1000000 ≤ s.time.refCount ∧ s.dbg.inj = none ∧ s.time.dev = some 5000000 ∧ s.dbg.lastSecond < 5000000 / 1000000 ∧
     s.dbg.secCorr = []) ∧
    wSb.time.refCount < wSb.pwr.scrubAt + 1000000 ∧
    (let s := { wGuard 0 with time := { wSb.time with slowCount := 328 } }
     s.pwr.main = false ∧ s.pwr.backup = true ∧ s.pwr.scrubAt + 328 ≤ s.time.slowCount) ∧
    (wInj 0x14 0xFFFE 1 1 true).dbg.inj = some ⟨0x14, 0xFFFE, 1, 1, true⟩ ∧ 0xFFFE < 0xFFFF ∧
    (let s := { wSb with par := { wSb.par with l0 := { wSb.par.l0 with pCur := true } } }
     s.par.bound = true ∧ s.par.l0.pCur = true) ∧ 2048 ≤ 2048 ∧ 2047 < 2048 ∧ wSb.time.dev = none ∧
    (let s := { wSb with dbg := { wSb.dbg with secCorr := [(3, 9)] } }
     s.dbg.secCorr = (3, 9) :: [] ∧ logTakes s) := by (repeat' apply And.intro) <;> decide +kernel

theorem integrityCommands_witness_errors :
    regsAnswer wAct = true ∧ wAct.dbg.errs = [] ∧ regsAnswer (wGuard 0) = false ∧
    ({ wAct with dbg := { wAct.dbg with errs := [⟨1, 2, 3, 4, 5, 6, 7, 8, 9, true⟩] } } : State).dbg.errs = ⟨1, 2, 3, 4, 5, 6, 7, 8, 9, true⟩ :: [] := by
  (repeat' apply And.intro) <;> decide +kernel

/-! ### CountersAndSamples -/

theorem countersAndSamples_witness_control : regsTake wAct ∧ ¬ regsTake (wGuard 0) ∧ (2 ^ 30 : Nat).testBit 30 = true ∧ twf Ctr.blank wAct.cnt.ctrs = true ∧
    (0 : Nat).testBit 30 = false := by
  refine ⟨?_, ?_, ?_, ?_, ?_⟩ <;> decide

/-- A core with a sample due; a cluster's buffer with 2,047 entries, 2,048 and 4,096, and no host region for them. -/
theorem countersAndSamples_witness_samples :
    (core (modCore 143 (fun c => { c with sampDue := [(0x1234, 9, true, 77)] }) wAct) 143).sampDue = (0x1234, 9, true, 77) :: [] ∧
    (core wAct 143).sampDue = [] ∧ (wAct.cnt.samps[15]?).isSome = true ∧
    (let m := { Samp.blank with entries := List.replicate 2048 (zeroBytes 16) }
     let s := { wAct with cnt := { wAct.cnt with samps := wAct.cnt.samps.set 15 m } }
     s.pwr.main = true ∧ s.cnt.samps[15]? = some m ∧ m.entries.length = 2048 ∧ s.cnt.used < 2 ^ s.cnt.log2 ∧
     hostRefusal s (hifMaster 0 0) 0 (s.cnt.base + 32768 * s.cnt.tail) 32768 true = none ∧
     (hostRefusal s (hifMaster 0 0) 0 (2 ^ 40) 32768 true).isSome = true) := by
  refine ⟨by decide +kernel, by decide +kernel, by decide +kernel, ?_⟩
  dsimp only
  refine ⟨rfl, ?_, List.length_replicate, by decide +kernel, ?_, ?_⟩
  · exact List.getElem?_set_self (show 15 < wAct.cnt.samps.length by decide +kernel)
  · exact (show hostRefusal wAct (hifMaster 0 0) 0 0 32768 true = none by decide +kernel)
  · exact (show (hostRefusal wAct (hifMaster 0 0) 0 (2 ^ 40) 32768 true).isSome = true by decide +kernel)

/-! ### RegisterAccess -/

/-- Function 2 created, VFs enabled. -/
def wR : State := { wAct with hif := { wAct.hif with vfEnable := true, fns := tset Fn.vf wAct.hif.fns 2 { Fn.vf with created := true, d3 := false } } }
/-- A low word held by the PF for a register. -/
def wHeld (o l : Nat) : State := modFn 0 (fun x => { x with heldWr := some (o, l) }) wR

theorem registerAccess_witness_write :
    regsTake wR ∧ wR.hif.cmdPend = none ∧ ({ wR with hif := { wR.hif with cmdPend := some ⟨1, 2, 0⟩ } } : State).hif.cmdPend ≠ none ∧ writeOpen wR 1025 0 = false ∧
    3 < 4 ∧ 2 % 4 ≠ 0 ∧ (2 ^ 31 : Nat).testBit 31 = true ∧ writeOpen wR 0 0x120008 = true ∧ (reg64 wR 0 0x120008).isSome = true ∧ reg64 wR 0 0x120000 = none := by
  refine ⟨by decide, ?_⟩
  (repeat' apply And.intro) <;> decide +kernel

theorem registerAccess_witness_split :
    (fnOf (wHeld 0xD0020 (2 ^ 32 - 1)) 0).heldWr = some (0xD0020, 2 ^ 32 - 1) ∧ (fnOf (wHeld (0x120008 + 32 * 31) 7) 0).heldWr = some (0x120008 + 32 * 31, 7) ∧
    (fnOf (wHeld (0x50000 + 16 * 7) 7) 0).heldWr = some (0x50000 + 16 * 7, 7) ∧ (fnOf (wHeld 0x130200 7) 0).heldWr = some (0x130200, 7) ∧
    (∀ m ∈ wR.cnt.samps, m.enable = false) := by (repeat' apply And.intro) <;> decide +kernel

theorem registerAccess_witness_function :
    pageOpen wR 2 = true ∧ 1 ≤ 2 ∧ 2 ≤ 1024 ∧ (fnOf wR 2).rst = none ∧ ((fnOf wR 2).rings[3]?).isSome = true ∧ (ringOf wR 2 3).st = .idle ∧
    ((fnOf wR 2).msix[7]?).isSome = true ∧ (fnOf wR 2).msix.length ≤ 32 ∧ (1 : Nat).testBit 0 = true ∧ pageOpen wR 1025 = false := by
  (repeat' apply And.intro) <;> decide +kernel

theorem registerAccess_witness_read :
    readOpen wR 0 = true ∧ readOpen wR 2 = true ∧ readOpen wR 1025 = false ∧ (reg64 wR 2 0x2000).isSome = true ∧ reg64 wR 2 0x2004 = none ∧
    (fnOf wR 2).latchRd = none ∧ (fnOf (modFn 2 (fun x => { x with latchRd := some (0x2000, 9) }) wR) 2).latchRd = some (0x2004 - 4, 9) ∧
    8 % 8 = 0 ∧ 0x2010 % 8 = 0 ∧ reg64 wR 2 0x2010 = none ∧ reg64 wR 2 (0x2010 - 4) = none ∧ reg64 wR 2 0 = none ∧ 3 % 2 ≠ 0 ∧
    regsAnswer wR = true ∧ fnExists wR 0 = true ∧ ¬ ((2 : Nat) = 0 ∧ (0x2000 = 0xA0000 ∨ 0x2000 = 0xA0004)) := by (repeat' apply And.intro) <;> decide +kernel

/-! ### PoolsConserved, MemoriesCanonical -/

theorem poolsConserved_witness : poolsWhole State.reset ∧ (∃ t, step State.reset = .next t) ∧ (∃ t, exec .fnResize State.reset = .next t) :=
  ⟨by (repeat' apply And.intro) <;> decide +kernel, ⟨_, rfl⟩, ⟨_, rfl⟩⟩

theorem memoriesCanonical_witness : memoriesWhole State.reset ∧ (∃ t, step State.reset = .next t) :=
  ⟨by (repeat' apply And.intro) <;> decide +kernel, ⟨_, rfl⟩⟩

/-! ### VaultBase -/

theorem vaultBase_witness : regsTake wR ∧ (¬ ∃ e ∈ wR.kst.lmks, e.2.s0.occ = true ∨ e.2.s1.occ = true) ∧ vfBound { wR with kst := wRecs.kst } ∧
    (fnOf (wHeld 0x30008 (2 ^ 32 - 1)) 0).heldWr = some (0x30008, 2 ^ 32 - 1) ∧ regsAnswer wR = true ∧ (fnOf wR 0).latchRd = none ∧ wR.pwr.main = true ∧
    ∃ t, exec (.mainPowerLost true true true) wR = .next t :=
  ⟨by decide, by decide +kernel, ⟨(3, { Lmk.blank with s0 := { LmkSlot.blank with occ := true, version := 4, key := some [1] } }), .head _, .inl rfl⟩,
    by decide +kernel, by decide +kernel, by decide +kernel, rfl, ⟨_, rfl⟩⟩

end Sys2Proof.Machine.TestsPower
end

