-- ==== Sys2Proof/Tests/Slice0Rejoin.lean ====
section
/-!
SUPPORT. For the statement about grants, rejoin and injection: concrete states and records that meet its hypotheses, clause by clause.
-/

namespace Sys2Proof.Machine.Tests

open Sys2Proof

set_option Elab.async false

/-- The same device with an identity of zeros. -/
def wId (st : Lcs) (os : List Officer) : State := { wLcs st os with lcy := { (wLcs st os).lcy with ident := zeroBytes 16 } }

theorem id_read (st : Lcs) (os : List Officer) (op : Nat) (b : Bytes) (h : reqRead (wLcs st os) op b) : reqRead (wId st os) op b :=
  ⟨⟨⟨rfl, rfl, fun h => Mode.noConfusion (show Mode.standby = Mode.guard from h)⟩, rfl, rfl, h.1.2.2.2⟩, h.2⟩

/-- A grant of 60 s of internal debug in BLANK, for the challenge of slot 3, under the test root. -/
def wGrant : Bytes := zeroBytes 16 ++ ([BitVec.ofNat 8 (lcsCode .blank), 1, 0, 0] ++ (leBytes 4 60 ++ zeroBytes 32))
def wGrantBody : Bytes := wGrant ++ (slhSign slh256f (wSeed 40) wGrant ++ [])
theorem wGrantBody_length : wGrantBody.length = 49912 := by
  rw [wGrantBody, List.length_append, List.append_nil, length_sign256f]
  decide

theorem debugOpen_token (s : State) (q : Req) : debugOpen.token s q = grantCheck s q := rfl
theorem finish_token (s : State) (q : Req) : rejoinFinish.token s q = if noPartner q ∨ (packGood s).isSome then 0 else 11 := rfl
theorem wId_slot : slotCheck (wId .blank []) (tick (wId .blank [])) [3] = (0, zeroBytes 32) := by
  have hc : (wId .blank []).lcy.chals.getD 3 Chal.empty = ⟨1, zeroBytes 32, 0⟩ := rfl
  have ht : tick (wId .blank []) = 0 := (show tick (wId .blank []) = tick (wLcs .blank []) from rfl).trans (by decide +kernel)
  rw [slotCheck]
  simp only [hc, ht]
  simp

theorem grantsRejoinInjection_witness_open : let b := wReqRec 0x30 3 wGrantBody []
    reqRead (wId .blank []) 0x30 b ∧ reqPasses (wId .blank []) debugOpen b := by
  have hb := wGrantBody_length
  have hs : wGrantBody.length < 2 ^ 32 := by rw [hb]; decide
  obtain ⟨-, -, h3, h4⟩ := wReqRec_of 0x30 3 wGrantBody [] (by decide) (by decide) (by decide) hs (by simp)
  refine ⟨id_read _ _ _ _ (lcs_read _ _ _ _ _ _ (by decide) (by decide) (by decide) hs (by simp) (.inr ?_)), ?_⟩
  · rw [hb]
    exact (show hostRefusal (wLcs .blank []) (hifMaster 0 0) 0 8 49912 false = none by decide +kernel)
  · rw [reqPasses, h3, h4]
    refine ⟨⟨rfl, rfl, rfl⟩, by rw [hb]; decide, ⟨fun _ => .inr rfl, Nat.zero_le _, ?_⟩, ?_, rfl⟩
    · have hs : (wId .blank []).lcy.state = .blank := rfl
      simp only [debugOpen, hb, hs]
      decide
    have ht : wGrantBody.take 56 = wGrant := List.take_left' rfl
    have hg : slice wGrantBody 56 49856 = slhSign slh256f (wSeed 40) wGrant := slice_at _ _ _ _ _ rfl (length_sign256f _ _)
    rw [debugOpen_token]
    have hv : vendorRoot (wId .blank []) = slhPk slh256f (wSeed 40) := rfl
    have hc : (wId .blank []).lcy.chals.getD 3 Chal.empty = ⟨1, zeroBytes 32, 0⟩ := rfl
    have hi : (wId .blank []).lcy.ident = zeroBytes 16 := rfl
    have hl : (wId .blank []).lcy.state = .blank := rfl
    simp only [grantCheck, ht, hg, wId_slot, hv, hc, hi, hl, verify_sign256f]
    decide +kernel

/-- DEBUG_CLOSE, and an injection at the core's parity. -/
theorem grantsRejoinInjection_witness_close : let b := wReqRec 0x31 0 [] []
    reqRead (wLcs .blank []) 0x31 b ∧ reqPasses (wLcs .blank []) debugClose b := by
  obtain ⟨-, -, h3, h4⟩ := wReqRec_of 0x31 0 [] [] (by decide) (by decide) (by decide) (by decide) (by simp)
  refine ⟨lcs_read _ _ _ _ _ _ (by decide) (by decide) (by decide) (by decide) (by simp) (.inr (by decide +kernel)), ?_⟩
  rw [reqPasses, h3, h4]
  exact ⟨⟨rfl, rfl, rfl⟩, by decide, ⟨fun _ => .inl rfl, Nat.zero_le _, rfl⟩, rfl, rfl⟩

def wInjBody : Bytes := [0x17, 0, 0xFF, 0xFF, 1, 1, 0, 0] ++ zeroBytes 8
theorem grantsRejoinInjection_witness_inject : let b := wReqRec 0x40 0 wInjBody []
    reqRead (wLcs .blank []) 0x40 b ∧ reqPasses (wLcs .blank []) inject b := by
  obtain ⟨-, -, h3, h4⟩ := wReqRec_of 0x40 0 wInjBody [] (by decide) (by decide) (by decide) (by decide) (by simp)
  refine ⟨lcs_read _ _ _ _ _ _ (by decide) (by decide) (by decide) (by decide) (by simp) (.inr (by decide +kernel)), ?_⟩
  rw [reqPasses, h3, h4]
  exact ⟨⟨rfl, rfl, rfl⟩, by decide, ⟨fun _ => .inl rfl, Nat.zero_le _, rfl⟩, rfl, rfl⟩

/-- A DEPLOYED device in RECOVERY with three officers, a rejoin begun and a package held. -/
def wRec (x : Option Rejoin) (p : Option (Bytes × Nat)) (pk : Bytes) : State :=
  { wLcs .deployed wThree with
    pwr := (wTmp .recovery).pwr
    lcy := { (wLcs .deployed wThree).lcy with rejoin := x, package := p, ledgerLost := false }
    par := { (wLcs .deployed wThree).par with partnerPk := pk } }

theorem rec_read (x : Option Rejoin) (p : Option (Bytes × Nat)) (pk : Bytes) (op : Nat) (b : Bytes) (h : reqRead (wLcs .deployed wThree) op b) :
    reqRead (wRec x p pk) op b :=
  ⟨⟨⟨rfl, rfl, fun h => Mode.noConfusion (show Mode.recovery = Mode.guard from h)⟩, rfl, rfl, h.1.2.2.2⟩, h.2⟩

theorem grantsRejoinInjection_witness_begin : let b := wReqRec 0x20 0 (leBytes 2 9 ++ zeroBytes 6) []
    reqRead (wRec none none []) 0x20 b ∧ reqPasses (wRec none none []) rejoinBegin b ∧ drbgLive (wRec none none []) 0 = true ∧
    drbgLive { wRec none none [] with ent := State.reset.ent } 0 = false := by
  obtain ⟨-, -, h3, h4⟩ := wReqRec_of 0x20 0 (leBytes 2 9 ++ zeroBytes 6) [] (by decide) (by decide) (by decide) (by decide) (by simp)
  refine ⟨rec_read _ _ _ _ _ (lcs_read _ _ _ _ _ _ (by decide) (by decide) (by decide) (by decide) (by simp) (.inr ?_)), ?_, rfl, rfl⟩
  · exact (show hostRefusal (wLcs .blank []) (hifMaster 0 0) 0 8 8 false = none by decide +kernel)
  · rw [reqPasses, h3, h4]
    exact ⟨⟨rfl, rfl, rfl⟩, by decide, ⟨fun _ => .inl rfl, Nat.zero_le _, rfl⟩, rfl, rfl⟩

/-- An offer has 31,424 bytes; the host lets them be written, and does not let them where its region ends. -/
theorem length_padTo (n : Nat) (b : Bytes) : (padTo n b).length = n := by
  rw [padTo, length_slice]
theorem grantsRejoinInjection_witness_offer (s : State) (nonce ek : Bytes) (hn : nonce.length = 32) (m : Bytes) (hm : m = offerBody s nonce ek) :
    (m ++ identSign (ascii "EHROS-REJOIN" ++ m) s).length = 31424 ∧
    hostRefusal (wRec none none []) (hifMaster 0 0) 0 ((wRec none none []).lcy.reqPtr + 0x10000) 31424 true = none ∧
    (hostRefusal (modFn 0 (fun x => { x with regions := [⟨0, 16, 0x4037⟩] }) (wRec none none [])) (hifMaster 0 0) 0 (0 + 0x10000) 31424 true).isSome = true := by
  refine ⟨?_, ?_, ?_⟩
  · rw [hm, identSign, List.length_append, length_sign256s, offerBody]
    simp only [List.length_append, length_padTo, length_leBytes, zeroBytes_length, hn]
  · exact (show hostRefusal (wLcs .blank []) (hifMaster 0 0) 0 0x10000 31424 true = none by decide +kernel)
  · exact (show (hostRefusal (modFn 0 (fun x => { x with regions := [⟨0, 16, 0x4037⟩] }) (wLcs .blank [])) (hifMaster 0 0) 0 0x10000 31424 true).isSome = true
      by decide +kernel)

/-- Approvals by these officers, for the challenge of slot 3, pass the checks of R351 in any state with that slot, this identity and these keys. -/
theorem approved_of (s : State) (op : Nat) (body : Bytes) (xs : List (Signer × Nat × Bytes)) (gs : List Signer) (hg : gs = xs.map fun x => x.1)
    (hi : s.lcy.ident = (wLcs .blank []).lcy.ident) (hc : s.lcy.chals.getD 3 Chal.empty = ⟨1, zeroBytes 32, 0⟩) (ht : tick s = 0)
    (hk : ∀ x ∈ xs, x.2.1 < 256 ∧ signerKey s x.1 x.2.1 = some (slhPk slh256s x.2.2))
    (hd : allDistinct ((xs.filter fun x => isCustody x.1).map fun x => x.2.1) = true) (hx : xs ≠ []) :
    reqCheck s ⟨op, 3, xs.length, body, wReqAppr op body xs,
      shake256 32 (ascii "EHROS-CMD" ++ (wReq0 op 3 xs.length body.length ++ body))⟩ gs = 0 := by
  subst hg
  have hs : slotCheck s (tick s) (3 :: xs.map fun _ => 3) = (0, zeroBytes 32) := by
    rw [slotCheck]
    simp only [hc, ht]
    simp
  have := apprCheck_good s (shake256 32 (ascii "EHROS-CMD" ++ (wReq0 op 3 xs.length body.length ++ body))) xs 3 (zeroBytes 32)
    (fun cs => slotCheck s (tick s) (3 :: cs)) (length_shake256 _) (by decide) hk hd hs
  have e : wReqAppr op body xs = xs.map fun x => goodAppr s.lcy.ident 3 (zeroBytes 32)
    (shake256 32 (ascii "EHROS-CMD" ++ (wReq0 op 3 xs.length body.length ++ body))) x.2.1 x.2.2 := by rw [hi]; rfl
  rw [reqCheck, if_neg (by simp), if_neg (by simpa using hx)]
  simp only [e, this]
theorem rec_tick (x : Option Rejoin) (p : Option (Bytes × Nat)) (pk : Bytes) : tick (wRec x p pk) = 0 :=
  (show tick (wRec x p pk) = tick (wLcs .blank []) from rfl).trans (by decide +kernel)
theorem rec_table (q : Req) (x : Option Rejoin) (p : Option (Bytes × Nat)) (pk : Bytes) : rejoinFinish.table q (wRec x p pk) = wRec x p pk := by
  have h : finishTable (wRec x p pk) = wRec x p pk := by
    unfold finishTable
    rw [show (wRec x p pk).lcy.ledgerLost = false from rfl]
  show (if noPartner q then wRec x p pk else finishTable (wRec x p pk)) = wRec x p pk
  rw [h, ite_self]

/-- FINISH without a partner, approved by two officers. -/
theorem grantsRejoinInjection_witness_alone : let b := wReqRec 0x21 3 (leBytes 8 1) (wReqAppr 0x21 (leBytes 8 1) wTwo)
    reqRead (wRec none none []) 0x21 b ∧ reqPasses (wRec none none []) rejoinFinish b ∧ noPartner (reqOf b) = true ∧ (wRec none none []).aud.buf.length < 60 := by
  have hl := wReqAppr_length 0x21 (leBytes 8 1) wTwo
  obtain ⟨-, -, h3, h4⟩ := wReqRec_of 0x21 3 (leBytes 8 1) (wReqAppr 0x21 (leBytes 8 1) wTwo) (by decide) (by decide) (by decide) (by decide) hl
  refine ⟨rec_read _ _ _ _ _ (lcs_read _ _ _ _ _ _ (by decide) (by decide) (by decide) (by decide) hl (.inr ?_)), ?_, ?_, by decide⟩
  · exact (show hostRefusal (wLcs .blank []) (hifMaster 0 0) 0 8 59720 false = none by decide +kernel)
  · rw [reqPasses, h3, h4]
    rw [rec_table]
    exact ⟨⟨rfl, rfl, rfl⟩, by decide, ⟨fun h => absurd h (by decide), by decide, rfl⟩, rfl,
      approved_of (wRec none none []) 0x21 (leBytes 8 1) wTwo _ rfl rfl rfl (rec_tick _ _ _) (two _ rfl rfl) (by decide) (by simp)⟩
  · rw [h4]
    simp only [noPartner]
    decide

/-- A package without LMKs, signed by the partner. -/
def wPack : Bytes := zeroBytes 1576 ++ slhSign slh256s (wSeed 9) (zeroBytes 1576)
/-- The device that holds it. -/
def wJoin : State := wRec (some ⟨[], zeroBytes 32, 9⟩) (some (wPack, 0)) (slhPk slh256s (wSeed 9))
theorem packGood_of (s : State) (r : Rejoin) (d : Bytes × Nat) (p : Package) (hr : s.lcy.rejoin = some r) (hp : s.lcy.package = some d)
    (ho : packOpen s r d.1 = some p) (hl : s.lcy.ledgerLost = false) (hv : packSigned s.par.partnerPk d.1 = true) : packGood s = some p := by
  have e : packGood s = packOf s d.1 (packOpen s r d.1) := by
    rw [packGood, hr, hp]
  rw [e, ho, packOf, hl]
  simp [hv]
theorem wJoin_open (r : Rejoin) (ht : packBody wPack = zeroBytes 1576) : packOpen wJoin r wPack = some ⟨[], []⟩ := by
  have h0 : leAt (zeroBytes 1576) 1572 4 = 0 := by decide +kernel
  have hc : chunks 48 (slice (zeroBytes 1576) 1576 (48 * 0)) = [] := by decide +kernel
  have hl : wJoin.lcy.ledgerLost = false := rfl
  unfold packOpen
  rw [ht]
  generalize zeroBytes 1576 = z at *
  simp only [h0, hc, hl, List.map_nil, List.any_nil, List.filterMap_nil]
  rfl
theorem wJoin_good : packGood wJoin = some ⟨[], []⟩ := by
  have hn : wPack.length - 29792 = 1576 := by rw [wPack, List.length_append, zeroBytes_length, length_sign256s]
  have ht : packBody wPack = zeroBytes 1576 := by
    rw [packBody, hn]
    exact List.take_left' (zeroBytes_length 1576)
  have hd : wPack.drop (wPack.length - 29792) = slhSign slh256s (wSeed 9) (zeroBytes 1576) := by
    rw [hn]
    exact List.drop_left' (zeroBytes_length 1576)
  have hk : wJoin.par.partnerPk = slhPk slh256s (wSeed 9) := by dsimp only [wJoin, wRec]
  refine packGood_of wJoin ⟨[], zeroBytes 32, 9⟩ (wPack, 0) ⟨[], []⟩ rfl rfl (wJoin_open _ ht) rfl ?_
  rw [packSigned, hk, ht, hd]
  exact verify_sign256s _ _

/-- FINISH with it. -/
theorem grantsRejoinInjection_witness_finish : let b := wReqRec 0x21 3 [] (wReqAppr 0x21 [] wTwo)
    reqRead wJoin 0x21 b ∧ reqPasses wJoin rejoinFinish b ∧ noPartner (reqOf b) = false ∧ packGood wJoin = some ⟨[], []⟩ ∧ wJoin.lcy.ledgerLost = false ∧
    wJoin.aud.buf.length < 60 ∧ drbgLive wJoin 0 = true := by
  have hl := wReqAppr_length 0x21 [] wTwo
  obtain ⟨-, -, h3, h4⟩ := wReqRec_of 0x21 3 [] (wReqAppr 0x21 [] wTwo) (by decide) (by decide) (by decide) (by decide) hl
  refine ⟨rec_read _ _ _ _ _ (lcs_read _ _ _ _ _ _ (by decide) (by decide) (by decide) (by decide) hl (.inr ?_)), ?_, ?_, wJoin_good, rfl, by decide, rfl⟩
  · exact (show hostRefusal (wLcs .blank []) (hifMaster 0 0) 0 8 59712 false = none by decide +kernel)
  · rw [reqPasses, h3, h4]
    rw [show rejoinFinish.table _ wJoin = wJoin from rec_table _ _ _ _]
    refine ⟨⟨rfl, rfl, rfl⟩, by decide, ⟨fun h => absurd h (by decide), by decide, rfl⟩, ?_,
      approved_of wJoin 0x21 [] wTwo _ rfl rfl rfl (rec_tick _ _ _) (two _ rfl rfl) (by decide) (by simp)⟩
    rw [finish_token, wJoin_good]
    exact if_pos (.inr rfl)
  · rw [h4]
    simp only [noPartner]
    decide

/-- Challenges, grants, a HOLD and a package: before their ends and at them. -/
theorem grantsRejoinInjection_witness_timers :
    (wLcs .blank []).lcy.chals[3]? = some ⟨1, zeroBytes 32, 0⟩ ∧ (wLcs .blank []).pwr.main = true ∧ (wLcs .blank []).hif.linkUp = true ∧ 15 < 16 ∧
    (let s := { wTmp .standby with time := { State.reset.time with refCount := 30000000100 } }
     0 + 300000000 < tick s ∧ ¬ 1 + 300000000 < tick s ∧ logTakes s) ∧
    (let s := { wTmp .standby with lcy := { State.reset.lcy with intGrant := some ⟨1, 0, 60⟩, holdEnd := some 0, package := some ([], 0) } }
     s.lcy.intGrant = some ⟨1, 0, 60⟩ ∧ 0 ≤ tick s ∧ s.lcy.holdEnd = some 0 ∧ s.lcy.package = some ([], 0) ∧ tick s < 0 + 3600000000) := by
  (repeat' apply And.intro) <;> decide +kernel

end Sys2Proof.Machine.Tests
end

section
/-!
PROOFS. O57: the four pools are conserved. Every operation but `setShare` and the loss of main power leaves every share and the free pool, said
once per operation; a share set from the free pool keeps the sums.
-/

namespace Sys2Proof.Machine

/-- What the four pools hold: every function's share, and what is free. -/
def pools (s : State) : Tab Share × Share := (s.hif.shares, s.hif.free)

@[simp] theorem shares_free_eq (s : State) : (s.hif.shares, s.hif.free) = pools s := rfl
@[simp] theorem pools_mk (h : Hif) (a b c d e f g i j k l m n o p q r u v w) :
    pools ⟨h, a, b, c, d, e, f, g, i, j, k, l, m, n, o, p, q, r, u, v, w⟩ = (h.shares, h.free) := rfl
@[simp] theorem pools_modHif (f : Hif → Hif) (s : State) : pools (modHif f s) = ((f s.hif).shares, (f s.hif).free) := rfl

theorem modHif_pools {f : Hif → Hif} (h : ∀ x, (f x).shares = x.shares ∧ (f x).free = x.free) (s : State) : pools (modHif f s) = pools s := by
  simp only [pools_modHif, (h s.hif).1, (h s.hif).2, shares_free_eq]

@[simp] theorem pools_ite {c : Prop} [Decidable c] (a b : State) : pools (if c then a else b) = if c then pools a else pools b := apply_ite _ _ _ _

@[simp] theorem pools_foldl {β : Type} {f : State → β → State} (h : ∀ s b, pools (f s b) = pools s) (l : List β) (s : State) :
    pools (l.foldl f s) = pools s := by
  induction l generalizing s with
  | nil => rfl
  | cons b l ih => exact (ih _).trans (h s b)

theorem pools_snd {α : Type} {r : α × State} {a : α} {t : State} (h : r = (a, t)) : pools t = pools r.2 := by rw [h]

@[simp] theorem pools_snd_ite {α : Type} {c : Prop} [Decidable c] (a b : α × State) :
    pools (if c then a else b).2 = if c then pools a.2 else pools b.2 := by split <;> rfl
@[simp] theorem pools_snd2_ite {α β : Type} {c : Prop} [Decidable c] (a b : α × β × State) :
    pools (if c then a else b).2.2 = if c then pools a.2.2 else pools b.2.2 := by split <;> rfl
theorem pools_foldl_snd {α β : Type} {f : α × State → β → α × State} (h : ∀ x b, pools (f x b).2 = pools x.2) (l : List β)
    (x : α × State) :
    pools (l.foldl f x).2 = pools x.2 := by
  induction l generalizing x with
  | nil => rfl
  | cons b l ih => exact (ih _).trans (h x b)

theorem pools_of_ite {c : Prop} [Decidable c] {a b : State} {x : Tab Share × Share} (ha : pools a = x) (hb : pools b = x) :
    pools (if c then a else b) = x := by split <;> assumption
theorem sideFrame.pools {s t : State} (h : sideFrame s t) : pools t = pools s := by rw [h.1]; rfl
theorem reportFrame.pools {s t : State} (h : reportFrame s t) : pools t = pools s := by rw [h.1]; rfl

/-- The pools are as they were where the command answers a next state. -/
def keepsPools (s : State) (o : Res) : Prop := ∀ t, o = .next t → pools t = pools s
@[simp] theorem keepsPools_next (s t : State) : keepsPools s (.next t) ↔ pools t = pools s := by simp [keepsPools]
@[simp] theorem keepsPools_fault (s : State) (r : Fault) : keepsPools s (.fault r) := by simp [keepsPools]
@[simp] theorem keepsPools_refused (s : State) (r : Refusal) : keepsPools s (.refused r) := by simp [keepsPools]
@[simp] theorem keepsPools_ite {c : Prop} [Decidable c] (s : State) (a b : Res) :
    keepsPools s (if c then a else b) ↔ if c then keepsPools s a else keepsPools s b := by split <;> rfl

/-- The pools are as they were where a slot's work goes through. -/
def slotKeeps (s : State) (o : SlotR) : Prop := ∀ t, o = .ok t → pools t = pools s
@[simp] theorem slotKeeps_ok (s t : State) : slotKeeps s (.ok t) ↔ pools t = pools s := by simp [slotKeeps]
@[simp] theorem slotKeeps_wait (s : State) : slotKeeps s .wait := by simp [slotKeeps]
@[simp] theorem slotKeeps_fault (s : State) (k v) : slotKeeps s (.fault k v) := by simp [slotKeeps]


/-! ### Ops: what its operations leave of the pools -/

@[simp] theorem modSlm_pools (f : Slm → Slm) (s : State) : pools (modSlm f s) = pools s := by simp only [pools, modSlm_hif]
@[simp] theorem modAud_pools (f : Aud → Aud) (s : State) : pools (modAud f s) = pools s := by simp only [pools, modAud_hif]
@[simp] theorem modMtr_pools (f : Mtr → Mtr) (s : State) : pools (modMtr f s) = pools s := by simp only [pools, modMtr_hif]
@[simp] theorem modDbg_pools (f : Dbg → Dbg) (s : State) : pools (modDbg f s) = pools s := by simp only [pools, modDbg_hif]
@[simp] theorem modPar_pools (f : Par → Par) (s : State) : pools (modPar f s) = pools s := by simp only [pools, modPar_hif]
@[simp] theorem modPwr_pools (f : Pwr → Pwr) (s : State) : pools (modPwr f s) = pools s := by simp only [pools, modPwr_hif]
@[simp] theorem modMov_pools (f : Mov → Mov) (s : State) : pools (modMov f s) = pools s := by simp only [pools, modMov_hif]
@[simp] theorem modTmp_pools (f : Tmp → Tmp) (s : State) : pools (modTmp f s) = pools s := by simp only [pools, modTmp_hif]
@[simp] theorem modLcy_pools (f : Lcy → Lcy) (s : State) : pools (modLcy f s) = pools s := by simp only [pools, modLcy_hif]
@[simp] theorem modEnt_pools (f : Ent → Ent) (s : State) : pools (modEnt f s) = pools s := by simp only [pools, modEnt_hif]
@[simp] theorem modI3c_pools (f : I3c → I3c) (s : State) : pools (modI3c f s) = pools s := by simp only [pools, modI3c_hif]
@[simp] theorem modCpu_pools (f : Cpu → Cpu) (s : State) : pools (modCpu f s) = pools s := by simp only [pools, modCpu_hif]
@[simp] theorem modLanes_pools (f : Lanes → Lanes) (s : State) : pools (modLanes f s) = pools s := by simp only [pools, modLanes_hif]
@[simp] theorem modKst_pools (f : Kst → Kst) (s : State) : pools (modKst f s) = pools s := by simp only [pools, modKst_hif]
@[simp] theorem modPhl_pools (f : Phl → Phl) (s : State) : pools (modPhl f s) = pools s := by simp only [pools, modPhl_hif]
@[simp] theorem modCnt_pools (f : Cnt → Cnt) (s : State) : pools (modCnt f s) = pools s := by simp only [pools, modCnt_hif]
@[simp] theorem modTime_pools (f : TimeSt → TimeSt) (s : State) : pools (modTime f s) = pools s := by simp only [pools, modTime_hif]
@[simp] theorem epochPut_pools (v : Nat) (s : State) : pools (epochPut v s) = pools s := by simp [epochPut]
@[simp] theorem emit_pools (o : Out) (s : State) : pools (emit o s) = pools s := by simp [emit]
@[simp] theorem bumpFree_pools (s : State) : pools (bumpFree s) = pools s := by simp [bumpFree]
@[simp] theorem modFn_pools (f : Nat) (g : Fn → Fn) (s : State) : pools (modFn f g s) = pools s := by simp [modFn]
@[simp] theorem regWrote_pools (f : Nat) (s : State) : pools (regWrote f s) = pools s := by simp [regWrote]
@[simp] theorem modRing_pools (f n : Nat) (g : Ring → Ring) (s : State) : pools (modRing f n g s) = pools s := by simp [modRing]
@[simp] theorem modLatch_pools (l : Nat) (g : Latch → Latch) (s : State) : pools (modLatch l g s) = pools s := by simp [modLatch]
@[simp] theorem fireMsix_pools (f v : Nat) (s : State) : pools (fireMsix f v s) = pools s := (fireMsix_side f v s).pools
@[simp] theorem modCtr_pools (i : Nat) (g : Ctr → Ctr) (s : State) : pools (modCtr i g s) = pools s := by simp [modCtr]
@[simp] theorem ctrAdd_pools (a i n : Nat) (s : State) : pools (ctrAdd a i n s) = pools s := (ctrAdd_side a i n s).pools
@[simp] theorem countEv_pools (e : Ev) (n : Nat) (s : State) : pools (countEv e n s) = pools s := (countEv_side e n s).pools
@[simp] theorem countFn_pools (num f : Nat) (s : State) : pools (countFn num f s) = pools s := by simp [countFn]
@[simp] theorem countCore_pools (num p n : Nat) (addr : Option (Nat × Nat)) (s : State) :
    pools (countCore num p n addr s) = pools s := by simp [countCore]
@[simp] theorem countChan_pools (num n k : Nat) (func : Option Nat) (addr : Option (Nat × Nat)) (s : State) :
    pools (countChan num n k func addr s) = pools s := by simp [countChan]
@[simp] theorem countPort_pools (num p k : Nat) (s : State) : pools (countPort num p k s) = pools s := by simp [countPort]
@[simp] theorem ibiRaise_pools (s : State) : pools (ibiRaise s) = pools s := by simp [ibiRaise]
@[simp] theorem mctpQueue_pools (m : Bytes) (s : State) : pools (mctpQueue m s) = pools s := (mctpQueue_report m s).pools
@[simp] theorem healthReport_pools (kind : Nat) (detail : Bytes) (s : State) :
    pools (healthReport kind detail s) = pools s := by simp [healthReport]
@[simp] theorem lockLatch_pools (c : Nat) (s : State) : pools (lockLatch c s) = pools s := (lockLatch_report c s).pools
@[simp] theorem mirrorSend_pools (ty l : Nat) (b : Bytes) (s : State) :
    pools (mirrorSend ty l b s) = pools s := (mirrorSend_report ty l b s).pools
@[simp] theorem bufPush_pools (r : BufRec) (s : State) : pools (bufPush r s) = pools s := (bufPush_report r s).pools
@[simp] theorem recAssign_pools (code flags func : Nat) (body : Bytes) (s : State) :
    pools (recAssign code flags func body s) = pools s := by simp [recAssign]
@[simp] theorem recAnchor_pools (s : State) : pools (recAnchor s) = pools s := by simp [recAnchor]
@[simp] theorem recAppend_pools (c fl fn : Nat) (b : Bytes) (s : State) :
    pools (recAppend c fl fn b s) = pools s := (recAppend_report c fl fn b s).pools
@[simp] theorem logWarn_pools (s : State) : pools (logWarn s) = pools s := by simp [logWarn]
@[simp] theorem logFullSay_pools (s : State) : pools (logFullSay s) = pools s := by simp [logFullSay]
@[simp] theorem headMirror_pools (s : State) : pools (headMirror s) = pools s := by simp [headMirror]
@[simp] theorem audit_pools (c fn : Nat) (b : Bytes) (s : State) : pools (audit c fn b s) = pools s := (audit_report c fn b s).pools
@[simp] theorem auditU_pools (c fl fn : Nat) (b : Bytes) (s : State) :
    pools (auditU c fl fn b s) = pools s := (auditU_report c fl fn b s).pools
@[simp] theorem showSvc_pools (s : State) : pools (showSvc s) = pools s := by simp [showSvc]
@[simp] theorem svcUpdate_pools (s : State) : pools (svcUpdate s) = pools s := by simp [svcUpdate]
@[simp] theorem setMode_pools (m : Mode) (s : State) : pools (setMode m s) = pools s := by simp [setMode]
@[simp] theorem modChan_pools (n : Nat) (g : Chan → Chan) (s : State) : pools (modChan n g s) = pools s := by simp [modChan]
@[simp] theorem vioQueue_pools (v : VioReport) (s : State) : pools (vioQueue v s) = pools s := by simp [vioQueue]
@[simp] theorem emitAll_pools (l : List Out) (s : State) : pools (emitAll l s) = pools s := by simp [emitAll]
@[simp] theorem hostReads_pools (f : Nat) (ps : List (Nat × Nat)) (s : State) : pools (hostReads f ps s) = pools s := by simp [hostReads]
@[simp] theorem chanStat_pools (master code retries residue : Nat) (s : State) :
    pools (chanStat master code retries residue s) = pools s := by simp [chanStat]
@[simp] theorem chanDone_pools (master f len : Nat) (s : State) : pools (chanDone master f len s) = pools s := by simp [chanDone]
@[simp] theorem chanFail_pools (master len : Nat) (s : State) : pools (chanFail master len s) = pools s := by simp [chanFail]
@[simp] theorem hostWrite_pools (master f a : Nat) (d : Bytes) (relaxed : Bool) (s : State) :
    pools (hostWrite master f a d relaxed s).2 = pools s := by
  unfold hostWrite
  split <;> simp
@[simp] theorem hostRead_pools (master f a len : Nat) (s : State) : pools (hostRead master f a len s).2 = pools s := by
  unfold hostRead
  split <;> simp
@[simp] theorem errReport_pools (det sev action unit func addr syndrome : Nat) (test : Bool) (s : State) :
    pools (errReport det sev action unit func addr syndrome test s) = pools s := by simp [errReport]
@[simp] theorem errCorrected_pools (det : Nat) (s : State) : pools (errCorrected det s) = pools s := by simp [errCorrected]
@[simp] theorem injTake_pools (det unit : Nat) (s : State) : pools (injTake det unit s).2 = pools s := by
  unfold injTake
  split <;> simp
@[simp] theorem meterAdd_pools (fn cls units : Nat) (s : State) : pools (meterAdd fn cls units s) = pools s := by simp [meterAdd]
@[simp] theorem modRcpt_pools (f : Nat) (g : RcptState → RcptState) (s : State) : pools (modRcpt f g s) = pools s := rfl
@[simp] theorem rcptFlag_pools (bit : Nat) (s : State) (f : Nat) : pools (rcptFlag bit s f) = pools s := by simp [rcptFlag]

/-! ### Gate: what its operations leave of the pools -/

@[simp] theorem modTok_pools (i : Nat) (g : Token → Token) (s : State) : pools (modTok i g s) = pools s := by simp [modTok]
@[simp] theorem modFlow_pools (f flow : Nat) (g : Flow → Flow) (s : State) : pools (modFlow f flow g s) = pools s := by simp [modFlow]
@[simp] theorem freeToken_pools (i : Nat) (s : State) : pools (freeToken i s) = pools s := by simp [freeToken]
@[simp] theorem buryToken_pools (i : Nat) (s : State) : pools (buryToken i s) = pools s := by simp [buryToken]
@[simp] theorem freeDead_pools (sel : Nat → Bool) (s : State) : pools (freeDead sel s) = pools s := by simp [freeDead]
@[simp] theorem raisePass_pools (i f c : Nat) (s : State) : pools (raisePass i f c s) = pools s := by
  simp only [raisePass]
  (repeat' split) <;> simp
@[simp] theorem stampEntry_pools (i : Nat) (s : State) : pools (stampEntry i s) = pools s := by simp [stampEntry]
@[simp] theorem enterReady_pools (i : Nat) (s : State) : pools (enterReady i s) = pools s := by simp [enterReady]
@[simp] theorem takeClass_pools (i : Nat) (s : State) : pools (takeClass i s) = pools s := by simp [takeClass]
@[simp] theorem returnToken_pools (i : Nat) (s : State) : pools (returnToken i s) = pools s := by simp [returnToken]
@[simp] theorem liftInsert_pools (k : LiftKind) (due : Nat) (s : State) : pools (liftInsert k due s) = pools s := by simp [liftInsert]
@[simp] theorem liftDrop_pools (k : LiftKind) (s : State) : pools (liftDrop k s) = pools s := by simp [liftDrop]
@[simp] theorem admitRetries_pools (n : Nat) (s : State) : pools (admitRetries n s) = pools s := by
  induction n generalizing s with
  | zero => rfl
  | succ n ih => unfold admitRetries; split <;> simp [ih]
@[simp] theorem liftFreed_pools (s : State) : pools (liftFreed s) = pools s := by simp [liftFreed]
@[simp] theorem ringFire_pools (f n : Nat) (s : State) : pools (ringFire f n s) = pools s := by simp [ringFire]
@[simp] theorem ringIrq_pools (f n : Nat) (s : State) : pools (ringIrq f n s) = pools s := by simp [ringIrq]
@[simp] theorem ringSettle_pools (f n : Nat) (s : State) : pools (ringSettle f n s) = pools s := by simp [ringSettle]
@[simp] theorem relIssue_pools (r : Rel) (s : State) : pools (relIssue r s).2 = pools s := by
  simp only [relIssue]
  cases r.wait <;> cases r.token <;> (split <;> rename_i h <;> simp [pools_snd h])
@[simp] theorem relWalk_pools (rs kept : List Rel) (s : State) : pools (relWalk rs kept s).2 = pools s := by
  induction rs generalizing kept s with
  | nil => rfl
  | cons r rs ih =>
    unfold relWalk
    split
    · split <;> rename_i h <;> simp [ih, pools_snd h]
    · exact ih _ _
@[simp] theorem drainRel_pools (s : State) : pools (drainRel s) = pools s := by simp [drainRel]
@[simp] theorem release_pools (f n slot : Nat) (d : Bytes) (status mclass resLen units : Nat) (replayed : Bool)
    (token : Option Nat) (accNo seq acceptRef : Nat) (state : Bool) (s : State) :
    pools (release f n slot d status mclass resLen units replayed token accNo seq acceptRef state s) = pools s := by simp [release]
@[simp] theorem releaseToken_pools (i : Nat) (s : State) : pools (releaseToken i s) = pools s := by simp [releaseToken]
@[simp] theorem turnToken_pools (i : Nat) (s : State) : pools (turnToken i s).2 = pools s := by simp [turnToken]
@[simp] theorem flowAdvance_pools (n f flow : Nat) (s : State) : pools (flowAdvance n f flow s) = pools s := by
  induction n generalizing s with
  | zero => rfl
  | succ n ih =>
    unfold flowAdvance
    split
    · rfl
    · split <;> rename_i h <;> simp [ih, pools_snd h]
@[simp] theorem flowRun_pools (f flow : Nat) (s : State) : pools (flowRun f flow s) = pools s := by simp [flowRun]
@[simp] theorem inheritOne_pools (c : Nat) (s : State) (it : Nat × Token) : pools (inheritOne c s it) = pools s := by
  unfold inheritOne
  split <;> simp
@[simp] theorem inherit_pools (i : Nat) (s : State) : pools (inherit i s) = pools s := by simp [inherit]
@[simp] theorem settleToken_pools (i : Nat) (s : State) : pools (settleToken i s) = pools s := by simp [settleToken]
@[simp] theorem mirrorRelease_pools (l : List Nat) (s : State) : pools (mirrorRelease l s) = pools s := by
  induction l generalizing s with
  | nil => rfl
  | cons i l ih => simp [mirrorRelease, ih]
@[simp] theorem mirrorSettle_pools (s : State) : pools (mirrorSettle s) = pools s := by simp [mirrorSettle]

/-! ### Accept: what its operations leave of the pools -/

@[simp] theorem affSet_pools (k c : Nat) (s : State) : pools (affSet k c s) = pools s := by simp [affSet]
@[simp] theorem affLookup_pools (f handle : Nat) (s : State) : pools (affLookup f handle s).2 = pools s := by
  simp only [affLookup]
  (repeat' split) <;> simp
@[simp] theorem makeToken_pools (f n slot rec : Nat) (d : Bytes) (seq : Nat) (expire : Option Nat) (replayed : Bool) (s : State) :
    pools (makeToken f n slot rec d seq expire replayed s) = pools s := by simp [makeToken]
@[simp] theorem acceptDesc_pools (f n slot rec : Nat) (d : Bytes) (s : State) :
    pools (acceptDesc f n slot rec d s) = pools s := by simp [acceptDesc]
@[simp] theorem modCore_pools (p : Nat) (g : Core → Core) (s : State) : pools (modCore p g s) = pools s := by simp [modCore]
@[simp] theorem setCore_pools (p : Nat) (c : Core) (s : State) : pools (setCore p c s) = pools s := by simp [setCore]
@[simp] theorem modChecker_pools (m : Nat) (g : Checker → Checker) (s : State) : pools (modChecker m g s) = pools s := by simp [modChecker]

/-! ### Entropy: what its operations leave of the pools -/

@[simp] theorem modDrbg_pools (i : Nat) (g : Drbg → Drbg) (s : State) : pools (modDrbg i g s) = pools s := by simp [modDrbg]
@[simp] theorem drbgSeed_pools (i : Nat) (seed : Bytes) (s : State) : pools (drbgSeed i seed s) = pools s := by simp [drbgSeed]
@[simp] theorem entSignal_pools (i : Nat) (s : State) : pools (entSignal i s) = pools s := by simp [entSignal]
@[simp] theorem seedServe_pools (n : Nat) (s : State) : pools (seedServe n s) = pools s := by
  induction n generalizing s with
  | zero => rfl
  | succ n ih => unfold seedServe; split <;> simp [ih]
@[simp] theorem drbgBring_pools (n : Nat) (s : State) : pools (drbgBring n s) = pools s := by
  induction n generalizing s with
  | zero => rfl
  | succ n ih =>
    unfold drbgBring
    split
    · rfl
    · split <;> simp [ih]
theorem drbgDraw_pools {i n : Nat} {s : State} {x : Bytes × State} (h : drbgDraw i n s = some x) : pools x.2 = pools s := by
  unfold drbgDraw at h
  split at h
  · cases h
  · cases h; simp
theorem drbgDraw_some {i n : Nat} {s t : State} {b : Bytes} (h : drbgDraw i n s = some (b, t)) : pools t = pools s := drbgDraw_pools h
theorem drbgDrawMany_pools {i fuel n : Nat} {s : State} {x : Bytes × State} (h : drbgDrawMany i fuel n s = some x) :
    pools x.2 = pools s := by
  induction fuel generalizing n s x with
  | zero => cases n <;> simp [drbgDrawMany] at h; rw [← h]
  | succ fuel ih =>
    cases n with
    | zero => simp [drbgDrawMany] at h; rw [← h]
    | succ n =>
      simp only [drbgDrawMany] at h
      split at h
      · cases h
      next hd =>
        obtain ⟨y, hy, rfl⟩ := Option.map_eq_some_iff.1 h
        exact (ih hy).trans (drbgDraw_pools hd)
theorem drbgDrawMany_some {i fuel n : Nat} {s t : State} {b : Bytes} (h : drbgDrawMany i fuel n s = some (b, t)) :
    pools t = pools s := drbgDrawMany_pools h
@[simp] theorem unlockDraw_pools (s : State) : pools (unlockDraw s) = pools s := by
  unfold unlockDraw
  split
  · rfl
  · split
    next h => simp [drbgDraw_some h]
    next => rfl
@[simp] theorem modSrc_pools (k : Nat) (g : Source → Source) (s : State) : pools (modSrc k g s) = pools s := by simp [modSrc]
@[simp] theorem entReport_pools (k test : Nat) (inj : Bool) (s : State) : pools (entReport k test inj s) = pools s := by simp [entReport]
@[simp] theorem entSelect_pools (k : Nat) (s : State) : pools (entSelect k s) = pools s := by simp [entSelect]
@[simp] theorem srcFail_pools (k test : Nat) (inj : Bool) (s : State) : pools (srcFail k test inj s) = pools s := by
  simp only [srcFail]
  (repeat' split) <;> simp
@[simp] theorem srcPass_pools (k : Nat) (s : State) : pools (srcPass k s) = pools s := by simp [srcPass]
@[simp] theorem condition_pools (k : Nat) (w : Bytes) (s : State) : pools (condition k w s) = pools s := by simp [condition]
@[simp] theorem execRctCutoff_pools (src : Nat) (s : State) : keepsPools s (execRctCutoff src s) := by simp [execRctCutoff]
@[simp] theorem execAptWindowEnd_pools (src : Nat) (window : List Byte) (s : State) :
    keepsPools s (execAptWindowEnd src window s) := by simp [execAptWindowEnd]
@[simp] theorem execEstBlockEnd_pools (src ones agree1 agree2 agree3 agree4 n00 n01 n10 n11 : Nat) (s : State) :
    keepsPools s (execEstBlockEnd src ones agree1 agree2 agree3 agree4 n00 n01 n10 n11 s) := by simp [execEstBlockEnd]
@[simp] theorem execSeedArrival_pools (src : Nat) (crcOk : Bool) (s : State) : keepsPools s (execSeedArrival src crcOk s) := by
  unfold execSeedArrival
  split <;> simp
@[simp] theorem execSourceRetestStart_pools (src : Nat) (s : State) :
    keepsPools s (execSourceRetestStart src s) := by simp [execSourceRetestStart]
@[simp] theorem execEntSwitch_pools (s : State) : keepsPools s (execEntSwitch s) := by simp [execEntSwitch]
@[simp] theorem entRetest_pools (k : Nat) (s : State) : pools (entRetest k s) = pools s := by simp [entRetest]
@[simp] theorem execEntRetestA_pools (s : State) : keepsPools s (execEntRetestA s) := by simp [execEntRetestA]
@[simp] theorem execEntRetestB_pools (s : State) : keepsPools s (execEntRetestB s) := by simp [execEntRetestB]

/-! ### FabOps: what its operations leave of the pools -/

@[simp] theorem modPort8_pools (p : Nat) (g : Port → Port) (s : State) : pools (modPort8 p g s) = pools s := by simp [modPort8]
@[simp] theorem modCred_pools (p v : Nat) (g : Cred → Cred) (s : State) : pools (modCred p v g s) = pools s := by simp [modCred]
@[simp] theorem phlEvent_pools (kind port vc addr : Nat) (s : State) : pools (phlEvent kind port vc addr s) = pools s := by simp [phlEvent]
@[simp] theorem credReturn_pools (p v n : Nat) (s : State) : pools (credReturn p v n s) = pools s := by simp [credReturn]
@[simp] theorem frameFree_pools (f : PFrame) (s : State) : pools (frameFree f s) = pools s := by
  unfold frameFree
  split <;> simp
@[simp] theorem portPump_pools (p n : Nat) (s : State) : pools (portPump p n s) = pools s := by
  induction n generalizing s with
  | zero => rfl
  | succ n ih =>
    simp only [portPump]
    split
    · rfl
    · split <;> simp [ih]
@[simp] theorem portSend_pools (p : Nat) (f : PFrame) (s : State) : pools (portSend p f s) = pools s := by simp [portSend]
@[simp] theorem dropFormat_pools (p : Nat) (s : State) : pools (dropFormat p s) = pools s := by simp [dropFormat]
@[simp] theorem dropNoroute_pools (p : Nat) (s : State) : pools (dropNoroute p s) = pools s := by simp [dropNoroute]
@[simp] theorem dropHops_pools (p : Nat) (s : State) : pools (dropHops p s) = pools s := by simp [dropHops]
@[simp] theorem nextE2e_pools (s : State) : pools (nextE2e s).2 = pools s := by simp [nextE2e]
@[simp] theorem routedSend_pools (type vc dst : Nat) (payload : Bytes) (mseq : Option Nat) (s : State) :
    pools (routedSend type vc dst payload mseq s) = pools s := by
  simp only [routedSend]
  (repeat' split) <;> simp
@[simp] theorem linkSend_pools (p type vc : Nat) (payload : Bytes) (s : State) :
    pools (linkSend p type vc payload s) = pools s := by simp [linkSend]
@[simp] theorem neighborSend_pools (p : Nat) (s : State) : pools (neighborSend p s) = pools s := by simp [neighborSend]
@[simp] theorem neighborAll_pools (s : State) : pools (neighborAll s) = pools s := by simp [neighborAll]
@[simp] theorem setAddr_pools (valid : Bool) (a : Nat) (s : State) : pools (setAddr valid a s) = pools s := by simp [setAddr]
@[simp] theorem reroute_pools (p : Nat) (s : State) (f : PFrame) : pools (reroute p s f) = pools s := by
  simp only [reroute]
  (repeat' split) <;> simp
@[simp] theorem leaveUp_pools (p : Nat) (dst : PortSt) (s : State) : pools (leaveUp p dst s) = pools s := by simp [leaveUp]
@[simp] theorem startRetrain_pools (p : Nat) (s : State) : pools (startRetrain p s) = pools s := by simp [startRetrain]
@[simp] theorem heard_pools (p : Nat) (s : State) : pools (heard p s) = pools s := by simp [heard]
@[simp] theorem ingressFree_pools (p : Nat) (h : Bytes) (s : State) : pools (ingressFree p h s) = pools s := by simp [ingressFree]
@[simp] theorem ingress_pools (p : Nat) (b : Bytes) (s : State) : pools (ingress p b s).2 = pools s := by
  simp only [ingress]
  (repeat' split) <;> simp
@[simp] theorem routed_pools {p : Nat} {b : Bytes} {type : Nat} {user : Bytes → State → State}
    (hu : ∀ h s, pools (user h s) = pools s) (s : State) :
    pools (routed p b type user s) = pools s := by
  simp only [routed]
  split
  · simp
  · split
    · simp
    · split <;> simp [hu]
@[simp] theorem linkLocal_pools {p : Nat} {b : Bytes} {type : Nat} {user : Bytes → State → State}
    (hu : ∀ h s, pools (user h s) = pools s) (s : State) :
    pools (linkLocal p b type user s) = pools s := by
  simp only [linkLocal]
  split <;> simp [hu]
@[simp] theorem upResend_pools (p seq : Nat) (s : State) : pools (upResend p seq s) = pools s := by simp [upResend]
@[simp] theorem reachUp_pools (p peerSeq : Nat) (occ : List Nat) (s : State) :
    pools (reachUp p peerSeq occ s) = pools s := by simp [reachUp]
@[simp] theorem replaySend_pools (p fromSeq : Nat) (s : State) : pools (replaySend p fromSeq s) = pools s := by simp [replaySend]
@[simp] theorem replayAck_pools (p seq : Nat) (s : State) : pools (replayAck p seq s) = pools s := by simp [replayAck]

/-! ### KeyOps: what its operations leave of the pools -/

@[simp] theorem stateMirror_pools (f : Nat) (ref eff rec_ : Bytes) (s : State) :
    pools (stateMirror f ref eff rec_ s) = pools s := by simp [stateMirror]
@[simp] theorem commandState_pools (tk : Nat) (eff rec_ : Bytes) (s : State) :
    pools (commandState tk eff rec_ s) = pools s := by simp [commandState]
@[simp] theorem commandRecord_pools (tk code f : Nat) (body eff : Bytes) (s : State) :
    pools (commandRecord tk code f body eff s) = pools s := by simp [commandRecord]
@[simp] theorem modKey_pools (i : Nat) (g : KEnt → KEnt) (s : State) : pools (modKey i g s) = pools s := by simp [modKey]
@[simp] theorem keyTouch_pools (i : Nat) (s : State) : pools (keyTouch i s) = pools s := by simp [keyTouch]
@[simp] theorem modLedger_pools (n : Nat) (g : Budget → Budget) (s : State) : pools (modLedger n g s) = pools s := by simp [modLedger]
@[simp] theorem ledgerMirror_pools (n : Nat) (s : State) : pools (ledgerMirror n s) = pools s := by
  unfold ledgerMirror
  split <;> simp
@[simp] theorem chunkTake_pools (i : Nat) (s : State) : pools (chunkTake i s) = pools s := by
  simp only [chunkTake]
  (repeat' split) <;> simp
@[simp] theorem usesSpend_pools (i fuel n : Nat) (s : State) : pools (usesSpend i fuel n s) = pools s := by
  induction fuel generalizing n s with
  | zero => rfl
  | succ fuel ih => unfold usesSpend; split <;> simp [ih]
@[simp] theorem laneDropAll_pools (i : Nat) (s : State) : pools (laneDropAll i s) = pools s := by simp [laneDropAll]
@[simp] theorem keyInvalidate_pools (i : Nat) (s : State) : pools (keyInvalidate i s) = pools s := by
  simp only [keyInvalidate]
  (repeat' split) <;> simp
@[simp] theorem keyRetire_pools (i : Nat) (s : State) : pools (keyRetire i s) = pools s := by simp [keyRetire]
@[simp] theorem ledgerDrop_pools (n : Nat) (s : State) : pools (ledgerDrop n s) = pools s := by simp [ledgerDrop]
@[simp] theorem evictTo_pools (f limit n : Nat) (s : State) : pools (evictTo f limit n s) = pools s := by
  induction n generalizing s with
  | zero => rfl
  | succ n ih =>
    unfold evictTo
    split
    · rfl
    · split <;> simp [ih]
@[simp] theorem keyShareEvict_pools (f : Nat) (s : State) : pools (keyShareEvict f s) = pools s := by simp [keyShareEvict]
@[simp] theorem keySettle_pools (f : Nat) (s : State) : pools (keySettle f s) = pools s := by simp [keySettle]
@[simp] theorem fnKeysDrop_pools (f : Nat) (s : State) : pools (fnKeysDrop f s) = pools s := by simp [fnKeysDrop]
@[simp] theorem unpinAll_pools (p : Nat) (s : State) : pools (unpinAll p s) = pools s := by simp [unpinAll]
@[simp] theorem modLmk_pools (f : Nat) (g : Lmk → Lmk) (s : State) : pools (modLmk f g s) = pools s := by simp [modLmk]
@[simp] theorem modLmkSlot_pools (f n : Nat) (g : LmkSlot → LmkSlot) (s : State) :
    pools (modLmkSlot f n g s) = pools s := by simp [modLmkSlot]
@[simp] theorem lmkUnload_pools (f : Nat) (s : State) : pools (lmkUnload f s) = pools s := by simp [lmkUnload]
@[simp] theorem vaultWrite_pools (f n : Nat) (nonce : Bytes) (s : State) : pools (vaultWrite f n nonce s) = pools s := by simp [vaultWrite]
@[simp] theorem slotEmpty_pools (f n : Nat) (nonce : Bytes) (s : State) : pools (slotEmpty f n nonce s) = pools s := by simp [slotEmpty]
@[simp] theorem lmkUnbind_pools (f : Nat) (nonces : Bytes) (s : State) : pools (lmkUnbind f nonces s) = pools s := by simp [lmkUnbind]
theorem budgetAttach_pools {e : KEnt} {uses : Option Nat} {s : State} {x : KEnt × State} (h : budgetAttach e uses s = some x) :
    pools x.2 = pools s := by
  simp only [budgetAttach] at h
  (repeat' split at h) <;> cases h <;> simp
theorem keyInstall_pools {e : KEnt} {uses : Option Nat} {s t : State} (h : keyInstall e uses s = some t) : pools t = pools s := by
  simp only [keyInstall] at h
  split at h
  · cases h
  · split at h
    · cases h
    · split at h
      · cases h
      next hb =>
        split at h
        · cases h
        · cases h
          have hs := budgetAttach_pools hb
          simp_all
@[simp] theorem keyFailed_pools (i : Nat) (s : State) : pools (keyFailed i s) = pools s := by simp [keyFailed]
@[simp] theorem entryHit_pools (i : Nat) (s : State) : pools (entryHit i s).2 = pools s := by
  unfold entryHit
  split
  next h => simp [pools_snd h]
  next h => simp [pools_snd h]
  next h => split <;> rename_i k <;> simp [pools_snd k, pools_snd h]
@[simp] theorem keyPass_pools (i : Nat) (s : State) : pools (keyPass i s) = pools s := by
  unfold keyPass
  split <;> rename_i h <;> simp [pools_snd h]
@[simp] theorem handlePass_pools (f h : Nat) (s : State) : pools (handlePass f h s) = pools s := by
  unfold handlePass
  split <;> simp
@[simp] theorem setPass_pools (f n : Nat) (s : State) : pools (setPass f n s) = pools s := by
  refine pools_foldl (fun s k => ?_) _ _
  split <;> rename_i h <;> simp [pools_snd h]
@[simp] theorem modMiss_pools (id : Nat) (g : Miss → Miss) (s : State) : pools (modMiss id g s) = pools s := by simp [modMiss]
@[simp] theorem missCountUp_pools (f : Nat) (s : State) : pools (missCountUp f s) = pools s := by simp [missCountUp]
@[simp] theorem missSeen_pools (p : Nat) (s : State) : pools (missSeen p s) = pools s := by simp [missSeen]
@[simp] theorem missSeenTok_pools (f t : Nat) (s : State) : pools (missSeenTok f t s) = pools s := by simp [missSeenTok]
@[simp] theorem missEnter_pools (f h : Nat) (park : Option Nat) (p : Nat) (s : State) : pools (missEnter f h park p s) = pools s := by
  simp only [missEnter]
  (repeat' split) <;> simp
@[simp] theorem wakeTok_pools (t : Nat) (st : Option Nat) (s : State) : pools (wakeTok t st s) = pools s := by simp [wakeTok]
@[simp] theorem wakeCore_pools (p : Nat) (st : Option Nat) (s : State) : pools (wakeCore p st s) = pools s := by simp [wakeCore]
@[simp] theorem missEnd_pools (id : Nat) (st : Option Nat) (s : State) : pools (missEnd id st s) = pools s := by
  unfold missEnd
  split <;> simp
@[simp] theorem missLeave_pools (p : Nat) (s : State) : pools (missLeave p s) = pools s := by simp [missLeave]
@[simp] theorem vaultForget_pools (f : Nat) (s : State) : pools (vaultForget f s) = pools s := by simp [vaultForget]
@[simp] theorem missAbandon_pools (f : Nat) (s : State) : pools (missAbandon f s) = pools s := by simp [missAbandon]
@[simp] theorem vaultReads_pools (f : Nat) (s : State) : pools (vaultReads f s).2 = pools s := by
  refine pools_foldl_snd (fun acc n => ?_) _ _
  split
  · split <;> rename_i h <;> simp [pools_snd h]
  · rfl

/-! ### LaneOps: what its operations leave of the pools -/

@[simp] theorem modLane_pools (n : Nat) (g : Lane → Lane) (s : State) : pools (modLane n g s) = pools s := by simp [modLane]
@[simp] theorem modPort_pools (n p : Nat) (g : LanePort → LanePort) (s : State) : pools (modPort n p g s) = pools s := by simp [modPort]
@[simp] theorem countLane_pools (num n p k : Nat) (s : State) : pools (countLane num n p k s) = pools s := by simp [countLane]
@[simp] theorem mapLanes_pools (g : Lane → Lane) (s : State) : pools (mapLanes g s) = pools s := by simp [mapLanes]
@[simp] theorem outDrop_pools (p : Nat) (s : State) : pools (outDrop p s) = pools s := by simp [outDrop]
@[simp] theorem keyResult_pools (p base kind alg : Nat) (mat : Bytes) (s : State) : pools (keyResult p base kind alg mat s) = pools s := by
  simp only [keyResult]
  (repeat' split) <;> simp
@[simp] theorem laneAbandon_pools (p : Nat) (s : State) : pools (laneAbandon p s) = pools s := by simp [laneAbandon]
@[simp] theorem laneRelease_pools (p : Nat) (s : State) : pools (laneRelease p s) = pools s := by simp [laneRelease]
@[simp] theorem waitDrop_pools (t : Nat) (s : State) : pools (waitDrop t s) = pools s := by simp [waitDrop]
@[simp] theorem parkDrop_pools (t : Nat) (s : State) : pools (parkDrop t s) = pools s := by
  simp only [parkDrop]
  (repeat' split) <;> simp
@[simp] theorem givenLate_pools (p t : Nat) (s : State) : pools (givenLate p t s) = pools s := by simp [givenLate]
@[simp] theorem imagesDrop_pools (f : Nat) (s : State) : pools (imagesDrop f s) = pools s := by simp [imagesDrop]
@[simp] theorem ledgerFail_pools (step unit : Nat) (s : State) : pools (ledgerFail step unit s) = pools s := by simp [ledgerFail]
@[simp] theorem laneYield_pools (n : Nat) (s : State) : pools (laneYield n s) = pools s := by
  simp only [laneYield]
  (repeat' split) <;> simp
@[simp] theorem laneFence_pools (n det : Nat) (test : Bool) (s : State) : pools (laneFence n det test s) = pools s := by simp [laneFence]
@[simp] theorem lanesErase_pools (s : State) : pools (lanesErase s) = pools s := by simp [lanesErase]
@[simp] theorem lanesLock_pools (s : State) : pools (lanesLock s) = pools s := by simp [lanesLock]

/-! ### PairOps: what its operations leave of the pools -/

@[simp] theorem knockSend_pools (kind l lreq : Nat) (s : State) : pools (knockSend kind l lreq s) = pools s := by simp [knockSend]
@[simp] theorem abandonMeter_pools (f units : Nat) (s : State) : pools (abandonMeter f units s) = pools s := by simp [abandonMeter]
@[simp] theorem dropToken_pools (s : State) (it : Nat × Token) : pools (dropToken s it) = pools s := by
  simp only [dropToken]
  (repeat' split) <;> simp
@[simp] theorem dropLoad_pools (sel : Nat → Bool) (s : State) : pools (dropLoad sel s) = pools s := by simp [dropLoad]
@[simp] theorem standbyIf_pools (s : State) : pools (standbyIf s) = pools s := by simp [standbyIf]
@[simp] theorem latchDrop_pools (s : State) (l : Nat) : pools (latchDrop s l) = pools s := by simp [latchDrop]
@[simp] theorem fenceLatch_pools (l : Nat) (s : State) : pools (fenceLatch l s) = pools s := by simp [fenceLatch]
@[simp] theorem fenceAll_pools (s : State) : pools (fenceAll s) = pools s := by simp [fenceAll]
@[simp] theorem closeStart_pools (s : State) : pools (closeStart s) = pools s := by simp [closeStart]
@[simp] theorem latchesDrop_pools (s : State) : pools (latchesDrop s) = pools s := by simp [latchesDrop]
@[simp] theorem serviceEnd_pools (s : State) : pools (serviceEnd s) = pools s := by simp [serviceEnd]
@[simp] theorem pairFaultGo_pools (s : State) : pools (pairFaultGo s) = pools s := by
  simp only [pairFaultGo]
  (repeat' split) <;> simp
@[simp] theorem tableSecond_pools (word : Nat) (s : State) : pools (tableSecond word s) = pools s := by
  simp only [tableSecond]
  split <;> rename_i h <;> simp [pools_snd h]
@[simp] theorem tableRead_pools (word : Nat) (s : State) : pools (tableRead word s) = pools s := by
  simp only [tableRead]
  split <;> rename_i h <;> simp [pools_snd h]
@[simp] theorem xbarFence_pools (l : Nat) (test full : Bool) (s : State) : pools (xbarFence l test full s) = pools s := by simp [xbarFence]
@[simp] theorem xbarTry_pools (l n : Nat) (s : State) : pools (xbarTry l n s) = pools s := by
  induction n generalizing s with
  | zero => rfl
  | succ n ih => unfold xbarTry; split <;> rename_i h <;> simp [ih, pools_snd h]
@[simp] theorem xbarPass_pools (sender : Nat) (s : State) : pools (xbarPass sender s) = pools s := by simp [xbarPass]
@[simp] theorem rcptAdvance_pools (s : State) : pools (rcptAdvance s) = pools s := by simp [rcptAdvance]
@[simp] theorem rcptPut_pools (slot : Nat) (r : Bytes) (s : State) : pools (rcptPut slot r s).2 = pools s := by
  simp only [rcptPut]
  split <;> rename_i h <;> simp [pools_snd h]
@[simp] theorem rcptCopyWrite_pools (f seq : Nat) (r : Bytes) (s : State) :
    pools (rcptCopyWrite f seq r s) = pools s := by simp [rcptCopyWrite]
@[simp] theorem rcptRun_pools (l : List Rcpt) (s : State) : pools (rcptRun l s) = pools s := by
  induction l generalizing s with
  | nil => rfl
  | cons r l ih =>
    simp only [rcptRun]
    split
    · rfl
    · split <;> rename_i h <;> simp [ih, pools_snd h]
@[simp] theorem rcptSettle_pools (s : State) : pools (rcptSettle s) = pools s := by simp [rcptSettle]
@[simp] theorem rcptTake_pools (l : Nat) (s : State) : pools (rcptTake l s) = pools s := by simp [rcptTake]
@[simp] theorem ackTo_pools (m : Nat) (s : State) : pools (ackTo m s) = pools s := by
  simp only [ackTo]
  split
  · rfl
  · simp only [rcptSettle_pools, mirrorSettle_pools]
    refine (pools_foldl (fun s l => ?_) _ _).trans (modPar_pools _ _)
    split <;> simp
@[simp] theorem sendAck_pools (s : State) : pools (sendAck s) = pools s := by simp [sendAck]
@[simp] theorem mirrorResend_pools (s : State) : pools (mirrorResend s) = pools s := by simp [mirrorResend]
@[simp] theorem mirrorDown_pools (n : Nat) (s : State) : pools (mirrorDown n s) = pools s := by simp [mirrorDown]
@[simp] theorem mirrorReserve_pools (s : State) : pools (mirrorReserve s) = pools s := by
  simp only [mirrorReserve]
  (repeat' split) <;> simp
@[simp] theorem mirrorBurst_pools (s : State) : pools (mirrorBurst s) = pools s := by
  simp only [mirrorBurst]
  (repeat' split) <;> simp
@[simp] theorem mirrorFrame_pools (h : Bytes) (s : State) : pools (mirrorFrame h s) = pools s := by
  simp only [mirrorFrame]
  (repeat' split) <;> simp
@[simp] theorem rxDone_pools (s : State) : pools (rxDone s) = pools s := by simp [rxDone]
@[simp] theorem drawNonce_pools (n : Nat) (s : State) : pools (drawNonce n s).2 = pools s := by
  unfold drawNonce
  split
  next h => exact drbgDraw_pools h
  next => rfl
@[simp] theorem lmkMirrored_pools (e : Bytes) (s : State) : pools (lmkMirrored e s) = pools s := by
  unfold lmkMirrored
  split <;> simp
@[simp] theorem applyEffect_pools (e : Bytes) (s : State) : pools (applyEffect e s) = pools s := by
  unfold applyEffect
  split <;> simp
@[simp] theorem applyEffects_pools (n : Nat) (e : Bytes) (s : State) : pools (applyEffects n e s) = pools s := by
  induction n generalizing e s with
  | zero => rfl
  | succ n ih => unfold applyEffects; split <;> simp [ih]
@[simp] theorem journalAdd_pools (j : Journal) (flow : Option Nat) (s : State) : pools (journalAdd j flow s) = pools s := by
  simp only [journalAdd]
  (repeat' split) <;> simp
@[simp] theorem meterApply_pools (b : Bytes) (s : State) : pools (meterApply b s) = pools s := by simp [meterApply]
@[simp] theorem ringApply_pools (b : Bytes) (s : State) : pools (ringApply b s) = pools s := by simp [ringApply]
@[simp] theorem switchSeen_pools (l : Nat) (s : State) : pools (switchSeen l s) = pools s := by simp [switchSeen]
@[simp] theorem takeFinish_pools (l : Nat) (s : State) : pools (takeFinish l s) = pools s := by simp [takeFinish]
@[simp] theorem takeReplay_pools (l : Nat) (s : State) : pools (takeReplay l s) = pools s := by simp [takeReplay]
@[simp] theorem takeSlots_pools (l : Nat) (s : State) : pools (takeSlots l s) = pools s := by simp [takeSlots]
@[simp] theorem takeLatch_pools (l : Nat) (s : State) : pools (takeLatch l s) = pools s := by simp [takeLatch]
@[simp] theorem resyncSend_pools (l : Nat) (s : State) : pools (resyncSend l s) = pools s := by simp [resyncSend]
@[simp] theorem resyncIf_pools (l : Nat) (s : State) : pools (resyncIf l s) = pools s := by simp [resyncIf]
@[simp] theorem snapshotStart_pools (load : Nat) (s : State) : pools (snapshotStart load s) = pools s := by simp [snapshotStart]
@[simp] theorem segApply_pools (load mseq : Nat) (b : Bytes) (s : State) : pools (segApply load mseq b s) = pools s := by
  unfold segApply
  split <;> simp
@[simp] theorem rejoinSend_pools (dst : Nat) (b : Bytes) (s : State) : pools (rejoinSend dst b s) = pools s := by simp [rejoinSend]
@[simp] theorem modPath_pools (k : Nat) (g : Path → Path) (s : State) : pools (modPath k g s) = pools s := by simp [modPath]
@[simp] theorem homeDecide_pools (s : State) : pools (homeDecide s) = pools s := by
  simp only [homeDecide]
  (repeat' split) <;> simp
@[simp] theorem duplicateFence_pools (s : State) : pools (duplicateFence s) = pools s := by simp [duplicateFence]
@[simp] theorem offsetNote_pools (b : Bytes) (s : State) : pools (offsetNote b s) = pools s := by simp [offsetNote]
@[simp] theorem knockState_pools (b : Bytes) (s : State) : pools (knockState b s) = pools s := by simp [knockState]
@[simp] theorem knockArrive_pools {k : Nat} {b tag : Bytes} {crcOk : Bool} {effect : State → State}
    (he : ∀ s, pools (effect s) = pools s) (s : State) :
    pools (knockArrive k b tag crcOk effect s) = pools s := by
  simp [knockArrive, he]
@[simp] theorem knockRow_pools {kind path port : Nat} {data : Bytes} {effect : Bytes → State → State} (he : ∀ b s, pools (effect b s) = pools s)
    (s : State) : pools (knockRow kind path port data effect s) = pools s := by
  simp [knockRow, he]

/-! ### Pairs: what its operations leave of the pools -/

@[simp] theorem stateApply_pools (b : Bytes) (s : State) : pools (stateApply b s) = pools s := by simp [stateApply]
@[simp] theorem resetApply_pools (b : Bytes) (s : State) : pools (resetApply b s) = pools s := by simp [resetApply]
@[simp] theorem receiptApply_pools (b : Bytes) (s : State) : pools (receiptApply b s) = pools s := by simp [receiptApply]
@[simp] theorem applyRec_pools (b : Bytes) (s : State) : pools (applyRec b s) = pools s := by
  unfold applyRec
  split <;> simp
@[simp] theorem applyAll_pools (n : Nat) (s : State) : pools (applyAll n s) = pools s := by
  induction n generalizing s with
  | zero => rfl
  | succ n ih => unfold applyAll; split <;> simp [ih]
@[simp] theorem applyArrived_pools (s : State) : pools (applyArrived s) = pools s := by simp [applyArrived]
@[simp] theorem mirrorRow_pools (type : Nat) (s : State) : pools (mirrorRow type s) = pools s := by
  unfold mirrorRow
  split <;> simp
@[simp] theorem resetTake_pools (s : State) (r : RstMirror) : pools (resetTake s r) = pools s := by
  simp only [resetTake, modPar_pools, modFn_pools]
@[simp] theorem take_pools (l : Nat) (s : State) : pools (take l s) = pools s := by simp [take]
@[simp] theorem handTakeAll_pools (s : State) : pools (handTakeAll s) = pools s := by
  refine pools_foldl (fun s l => ?_) _ _
  split <;> simp
@[simp] theorem execHealthReportPeriodic_pools (s : State) : keepsPools s (execHealthReportPeriodic s) := by simp [execHealthReportPeriodic]
@[simp] theorem execKnockTimer_pools (s : State) : keepsPools s (execKnockTimer s) := by simp [execKnockTimer]
@[simp] theorem renewOne_pools (s : State) (l : Nat) : pools (renewOne s l) = pools s := by simp [renewOne]
@[simp] theorem execRenewTimer_pools (s : State) : keepsPools s (execRenewTimer s) := by simp [execRenewTimer]
@[simp] theorem execKnock_pools (path port : Nat) (data : List Byte) (s : State) :
    keepsPools s (execKnock path port data s) := by simp [execKnock]
@[simp] theorem execRenew_pools (path port : Nat) (data : List Byte) (s : State) :
    keepsPools s (execRenew path port data s) := by simp [execRenew]
theorem execGrant_pools (path port : Nat) (data : List Byte) (s : State) : keepsPools s (execGrant path port data s) := by
  refine (keepsPools_next _ _).2 (knockRow_pools (fun m s => ?_) s)
  dsimp only
  split <;> simp
@[simp] theorem execKnockRelease_pools (path port : Nat) (data : List Byte) (s : State) :
    keepsPools s (execKnockRelease path port data s) := by simp [execKnockRelease]
@[simp] theorem handEnd_pools (result : Nat) (s : State) : pools (handEnd result s) = pools s := by simp [handEnd]
theorem execTaken_pools (path port : Nat) (data : List Byte) (s : State) : keepsPools s (execTaken path port data s) := by
  refine (keepsPools_next _ _).2 (knockRow_pools (fun m s => ?_) s)
  dsimp only
  split <;> simp
@[simp] theorem execPathSilence_pools (path : Nat) (s : State) : keepsPools s (execPathSilence path s) := by simp [execPathSilence]
@[simp] theorem execTxCheckTimeout_pools (path : Nat) (s : State) : keepsPools s (execTxCheckTimeout path s) := by simp [execTxCheckTimeout]
@[simp] theorem execLeaseExpiryFence_pools (latch : Nat) (s : State) :
    keepsPools s (execLeaseExpiryFence latch s) := by simp [execLeaseExpiryFence]
@[simp] theorem execLatchTake_pools (latch : Nat) (s : State) : keepsPools s (execLatchTake latch s) := by simp [execLatchTake]
@[simp] theorem execAloneWaitExpiry_pools (latch : Nat) (s : State) :
    keepsPools s (execAloneWaitExpiry latch s) := by simp [execAloneWaitExpiry]
@[simp] theorem takeNext_pools (l : Nat) (s : State) : pools (takeNext l s) = pools s := by
  unfold takeNext
  split <;> simp
@[simp] theorem takeGo_pools (s : State) : pools (takeGo s) = pools s := by simp [takeGo]
@[simp] theorem execTakeoverSlotArrival_pools (mseq : Nat) (data : List Byte) (s : State) :
    keepsPools s (execTakeoverSlotArrival mseq data s) := by
  unfold execTakeoverSlotArrival
  split <;> simp
@[simp] theorem pfComplete_pools (j : Journal) (d : Bytes) (s : State) : pools (pfComplete j d s) = pools s := by
  unfold pfComplete
  split <;> simp
@[simp] theorem replayComplete_pools (i status mclass units : Nat) (s : State) :
    pools (replayComplete i status mclass units s) = pools s := by simp [replayComplete]
@[simp] theorem replayOne_pools (j : Journal) (d : Bytes) (rec : Nat) (s : State) :
    pools (replayOne j d rec s) = pools s := by simp [replayOne]
@[simp] theorem execReplayDescriptorArrival_pools (mseq : Nat) (data : List Byte) (rec : Nat) (s : State) :
    keepsPools s (execReplayDescriptorArrival mseq data rec s) := by
  unfold execReplayDescriptorArrival
  split <;> simp
@[simp] theorem mgmtSend_pools (b : Bytes) (s : State) : pools (mgmtSend b s) = pools s := by simp [mgmtSend]
@[simp] theorem pairKeySet_pools (k : Bytes) (g : Nat) (s : State) : pools (pairKeySet k g s) = pools s := by simp [pairKeySet]
@[simp] theorem pairKeyOffer_pools (s : State) : pools (pairKeyOffer s) = pools s := by
  unfold pairKeyOffer
  split
  next => rfl
  next h => simp [drbgDraw_some h]
theorem execPairKeyExchange_pools (data : List Byte) (s : State) : keepsPools s (execPairKeyExchange data s) := by
  simp only [execPairKeyExchange, keepsPools_next]
  split
  · rfl
  · split
    · split <;> simp
    · split
      · rfl
      · split
        next => rfl
        next h => simp [drbgDraw_some h]
@[simp] theorem execMirrorJournal_pools (s : State) : keepsPools s (execMirrorJournal s) := by simp [execMirrorJournal]
@[simp] theorem execMirrorMeter_pools (s : State) : keepsPools s (execMirrorMeter s) := by simp [execMirrorMeter]
@[simp] theorem execMirrorState_pools (s : State) : keepsPools s (execMirrorState s) := by simp [execMirrorState]
@[simp] theorem execMirrorRing_pools (s : State) : keepsPools s (execMirrorRing s) := by simp [execMirrorRing]
@[simp] theorem execMirrorFnReset_pools (s : State) : keepsPools s (execMirrorFnReset s) := by simp [execMirrorFnReset]
@[simp] theorem execMirrorReceipt_pools (s : State) : keepsPools s (execMirrorReceipt s) := by simp [execMirrorReceipt]
@[simp] theorem execMirrorHead_pools (s : State) : keepsPools s (execMirrorHead s) := by simp [execMirrorHead]
@[simp] theorem execMirrorAck_pools (s : State) : keepsPools s (execMirrorAck s) := by simp [execMirrorAck]
@[simp] theorem execMirrorHandover_pools (s : State) : keepsPools s (execMirrorHandover s) := by simp [execMirrorHandover]
@[simp] theorem execMirrorResync_pools (s : State) : keepsPools s (execMirrorResync s) := by simp [execMirrorResync]
@[simp] theorem execMirrorRejoin_pools (src : Nat) (data : List Byte) (s : State) : keepsPools s (execMirrorRejoin src data s) := by
  unfold execMirrorRejoin
  split <;> simp
@[simp] theorem execMirrorResendTimer_pools (s : State) : keepsPools s (execMirrorResendTimer s) := by
  unfold execMirrorResendTimer
  split <;> simp
@[simp] theorem handoverGo_pools (s : State) : pools (handoverGo s) = pools s := by simp [handoverGo]
@[simp] theorem handoverWrite_pools (v : Nat) (s : State) : pools (handoverWrite v s) = pools s := by simp [handoverWrite]
@[simp] theorem execHandoverGo_pools (value : Nat) (s : State) : keepsPools s (execHandoverGo value s) := by simp [execHandoverGo]
@[simp] theorem execHandoverDrainExpiry_pools (s : State) : keepsPools s (execHandoverDrainExpiry s) := by
  unfold execHandoverDrainExpiry
  split <;> simp
@[simp] theorem execHandoverTimeout_pools (s : State) : keepsPools s (execHandoverTimeout s) := by
  unfold execHandoverTimeout
  split <;> simp

/-! ### Fabric: what its operations leave of the pools -/

@[simp] theorem mrxQueue_pools (h : Bytes) (s : State) : pools (mrxQueue h s) = pools s := by simp [mrxQueue]
@[simp] theorem dataUser_pools (p : Nat) (h : Bytes) (s : State) : pools (dataUser p h s) = pools s := by simp [dataUser]
@[simp] theorem execDataFrame_pools (port : Nat) (frame : List Byte) (s : State) :
    keepsPools s (execDataFrame port frame s) := by simp [execDataFrame]
@[simp] theorem probeReply_pools (h : Bytes) (status : Nat) (result : Bytes) (s : State) :
    pools (probeReply h status result s) = pools s := by simp [probeReply]
theorem probeRow_pools {port op : Nat} {frame : Bytes} {act : Bytes → State → State} (ha : ∀ h s, pools (act h s) = pools s) (s : State) :
    keepsPools s (probeRow port op frame act s) := by
  simp [probeRow, ha]
theorem execReadId_pools (port : Nat) (frame : List Byte) (s : State) : keepsPools s (execReadId port frame s) :=
  probeRow_pools (fun h s => by simp) s
theorem execAssign_pools (port : Nat) (frame : List Byte) (s : State) : keepsPools s (execAssign port frame s) :=
  probeRow_pools (fun h s => by simp) s
theorem execProbeRelease_pools (port : Nat) (frame : List Byte) (s : State) : keepsPools s (execProbeRelease port frame s) :=
  probeRow_pools (fun h s => by simp) s
@[simp] theorem routeSet_pools (a v : Nat) (s : State) : pools (routeSet a v s) = pools s := by simp [routeSet]
theorem execRouteWrite_pools (port : Nat) (frame : List Byte) (s : State) : keepsPools s (execRouteWrite port frame s) :=
  probeRow_pools (fun h s => by simp) s
theorem execRouteRead_pools (port : Nat) (frame : List Byte) (s : State) : keepsPools s (execRouteRead port frame s) :=
  probeRow_pools (fun h s => by simp) s
theorem execPortRead_pools (port : Nat) (frame : List Byte) (s : State) : keepsPools s (execPortRead port frame s) :=
  probeRow_pools (fun h s => by simp) s
@[simp] theorem execProbeUnknownOp_pools (port : Nat) (frame : List Byte) (s : State) :
    keepsPools s (execProbeUnknownOp port frame s) := by simp [execProbeUnknownOp]
@[simp] theorem execProbeReply_pools (port : Nat) (frame : List Byte) (s : State) :
    keepsPools s (execProbeReply port frame s) := by simp [execProbeReply]
@[simp] theorem execAuditFrame_pools (port : Nat) (frame : List Byte) (s : State) :
    keepsPools s (execAuditFrame port frame s) := by simp [execAuditFrame]
@[simp] theorem execAuditPeriodTimer_pools (s : State) : keepsPools s (execAuditPeriodTimer s) := by simp [execAuditPeriodTimer]
theorem execSyncReq_pools (port : Nat) (frame : List Byte) (s : State) : keepsPools s (execSyncReq port frame s) := by
  refine (keepsPools_next _ _).2 (linkLocal_pools (fun m s => ?_) s)
  split <;> simp
@[simp] theorem timeLost_pools (s : State) : pools (timeLost s) = pools s := by simp [timeLost]
@[simp] theorem timeCount_pools (ns : Int) (s : State) : pools (timeCount ns s) = pools s := by simp [timeCount]
@[simp] theorem timeApply_pools (delay offset : Int) (dist : Nat) (s : State) : pools (timeApply delay offset dist s) = pools s := by
  simp only [timeApply]
  (repeat' split) <;> simp
@[simp] theorem timeFree_pools (s : State) : pools (timeFree s) = pools s := by simp [timeFree]
theorem execSyncRsp_pools (port : Nat) (frame : List Byte) (s : State) : keepsPools s (execSyncRsp port frame s) := by
  refine (keepsPools_next _ _).2 (linkLocal_pools (fun m s => ?_) s)
  split <;> simp
@[simp] theorem execSyncPeriodTimer_pools (s : State) : keepsPools s (execSyncPeriodTimer s) := by
  simp only [execSyncPeriodTimer]
  (repeat' split) <;> simp
@[simp] theorem execNeighbor_pools (port : Nat) (frame : List Byte) (s : State) :
    keepsPools s (execNeighbor port frame s) := by simp [execNeighbor]
@[simp] theorem execLinkAck_pools (port : Nat) (block : List Byte) (s : State) : keepsPools s (execLinkAck port block s) := by
  unfold execLinkAck
  split <;> simp
@[simp] theorem execLinkNak_pools (port : Nat) (block : List Byte) (s : State) : keepsPools s (execLinkNak port block s) := by
  unfold execLinkNak
  split <;> simp
@[simp] theorem execLinkCredit_pools (port : Nat) (block : List Byte) (s : State) : keepsPools s (execLinkCredit port block s) := by
  unfold execLinkCredit
  split <;> simp
@[simp] theorem execLinkIdle_pools (port : Nat) (block : List Byte) (s : State) : keepsPools s (execLinkIdle port block s) := by
  unfold execLinkIdle
  split <;> simp
@[simp] theorem execLinkAckTimeout_pools (port : Nat) (s : State) : keepsPools s (execLinkAckTimeout port s) := by simp [execLinkAckTimeout]
@[simp] theorem execRetrainDone_pools (port : Nat) (ok : Bool) (peerSeq : Nat) (occ : List Nat) (s : State) :
    keepsPools s (execRetrainDone port ok peerSeq occ s) := by simp [execRetrainDone]
@[simp] theorem execPortTrainDone_pools (port : Nat) (ok : Bool) (peerSeq : Nat) (occ : List Nat) (s : State) :
    keepsPools s (execPortTrainDone port ok peerSeq occ s) := by simp [execPortTrainDone]
@[simp] theorem execTrainRetryTimer_pools (port : Nat) (s : State) : keepsPools s (execTrainRetryTimer port s) := by
  simp only [execTrainRetryTimer]
  (repeat' split) <;> simp
@[simp] theorem execPortLeaveUp_pools (port : Nat) (s : State) : keepsPools s (execPortLeaveUp port s) := by simp [execPortLeaveUp]
@[simp] theorem execReplayDiscardTimer_pools (port : Nat) (s : State) : keepsPools s (execReplayDiscardTimer port s) := by
  unfold execReplayDiscardTimer
  split <;> simp
@[simp] theorem execPortSilence_pools (port : Nat) (s : State) : keepsPools s (execPortSilence port s) := by simp [execPortSilence]
@[simp] theorem phlAddrWrite_pools (v : Nat) (s : State) : pools (phlAddrWrite v s) = pools s := by simp [phlAddrWrite]
@[simp] theorem execAddrSet_pools (value : Nat) (s : State) : keepsPools s (execAddrSet value s) := by simp [execAddrSet]
@[simp] theorem execAddrRelease_pools (value : Nat) (s : State) : keepsPools s (execAddrRelease value s) := by simp [execAddrRelease]
@[simp] theorem portCtlWrite_pools (port v : Nat) (s : State) : pools (portCtlWrite port v s) = pools s := by simp [portCtlWrite]
@[simp] theorem execPortRetrain_pools (port value : Nat) (s : State) :
    keepsPools s (execPortRetrain port value s) := by simp [execPortRetrain]
@[simp] theorem execPortEnableWrite_pools (port value : Nat) (s : State) :
    keepsPools s (execPortEnableWrite port value s) := by simp [execPortEnableWrite]
@[simp] theorem mtxSend_pools (s : State) : pools (mtxSend s) = pools s := by
  simp only [mtxSend]
  (repeat' split) <;> simp
@[simp] theorem execMtxSend_pools (s : State) : keepsPools s (execMtxSend s) := by simp [execMtxSend]
@[simp] theorem mrxTake_pools (s : State) : pools (mrxTake s).2 = pools s := by
  unfold mrxTake
  split <;> simp
@[simp] theorem evtTake_pools (s : State) : pools (evtTake s).2 = pools s := by
  unfold evtTake
  split <;> simp
@[simp] theorem readOut_pools {r : Nat × State} {s : State} (h : pools r.2 = pools s) : pools (readOut r s) = pools s := by
  simp [readOut, h]
@[simp] theorem execMrxNext_pools (s : State) : keepsPools s (execMrxNext s) := by simp [execMrxNext]
@[simp] theorem execEvtNext_pools (s : State) : keepsPools s (execEvtNext s) := by simp [execEvtNext]

/-! ### Metering: what its operations leave of the pools -/

@[simp] theorem metersFlush_pools (s : State) : pools (metersFlush s) = pools s := by simp [metersFlush]
@[simp] theorem execMeterAdd_pools (s : State) : keepsPools s (execMeterAdd s) := by
  unfold execMeterAdd
  split <;> simp
@[simp] theorem rcptEdge_pools (last : Nat) (s : State) (f : Nat) : pools (rcptEdge last s f) = pools s := by simp [rcptEdge]
@[simp] theorem execMinuteEdge_pools (s : State) : keepsPools s (execMinuteEdge s) := by
  simp only [execMinuteEdge]
  (repeat' split) <;> simp
@[simp] theorem execReceiptSigned_pools (s : State) : keepsPools s (execReceiptSigned s) := by
  unfold execReceiptSigned
  split <;> simp
@[simp] theorem execRcptHeadWrite_pools (head : Nat) (s : State) : keepsPools s (execRcptHeadWrite head s) := by simp [execRcptHeadWrite]

/-! ### CoreOps: what its operations leave of the pools -/

@[simp] theorem coreWrite_pools (p a : Nat) (d : Bytes) (s : State) : pools (coreWrite p a d s) = pools s := by simp [coreWrite]
@[simp] theorem outWrite_pools (p off : Nat) (d : Bytes) (s : State) : pools (outWrite p off d s) = pools s := by
  simp only [outWrite]
  split
  · rfl
  · exact pools_foldl_snd (fun acc x => by simp) _ _
@[simp] theorem doStore_pools (p : Nat) (e : PStore) (s : State) : pools (doStore p e s) = pools s := by simp [doStore]
@[simp] theorem storeFlush_pools (p : Nat) (s : State) : pools (storeFlush p s) = pools s := by simp [storeFlush]
@[simp] theorem hostAsk_pools (p a n : Nat) (s : State) : pools (hostAsk p a n s) = pools s := by simp [hostAsk]
@[simp] theorem clearStaging_pools (p : Nat) (s : State) : pools (clearStaging p s) = pools s := by simp [clearStaging]
@[simp] theorem clearWork_pools (p : Nat) (s : State) : pools (clearWork p s) = pools s := by simp [clearWork]
@[simp] theorem portAbandon_pools (p : Nat) (s : State) : pools (portAbandon p s) = pools s := by simp [portAbandon]
@[simp] theorem faultReset_pools (p kind pc : Nat) (s : State) : pools (faultReset p kind pc s) = pools s := by simp [faultReset]
@[simp] theorem coreFault_pools (p kind pc : Nat) (vio : Option VioReport) (s : State) : pools (coreFault p kind pc vio s) = pools s := by
  unfold coreFault
  split <;> simp
@[simp] theorem sampleSlot_pools (p pc : Nat) (idle : Bool) (s : State) : pools (sampleSlot p pc idle s) = pools s := by simp [sampleSlot]
@[simp] theorem slotDone_pools (p pc n x : Nat) (s : State) : pools (slotDone p pc n x s) = pools s := by simp [slotDone]
@[simp] theorem parityNote_pools (p : Nat) (test full : Bool) (s : State) :
    pools (parityNote p test full s) = pools s := by simp [parityNote]
@[simp] theorem parityHit_pools (p pc : Nat) (s : State) : pools (parityHit p pc s) = pools s := by
  unfold parityHit
  split <;> rename_i h <;> simp [pools_snd h]
@[simp] theorem coreTake_pools {p pc : Nat} {f : State → State} {s : State} (h : pools (f s) = pools s) :
    pools (coreTake p pc f s) = pools s := by
  simp [coreTake, h]
@[simp] theorem coreHit_pools (p : Nat) (s : State) : pools (coreHit p s) = pools s := by simp [coreHit]
@[simp] theorem memPass_pools (p a : Nat) (s : State) : pools (memPass p a s).2 = pools s := by
  simp only [memPass]
  split
  · split <;> rename_i h <;> simp [pools_snd h]
  · split
    · split <;> rename_i h <;> simp [pools_snd h]
    · rfl
theorem slot_pools {p len cost pops op : Nat} {f : Core → State → SlotR} {s : State} (hf : ∀ c, slotKeeps s (f c s)) :
    pools (slot p len cost pops op f s) = pools s := by
  simp only [slot]
  split
  · rfl
  · split
    · simp
    · have hc := hf (slotCore (core s p) len)
      split
      · simp
      · simp
      next h =>
        rw [h, slotKeeps_ok] at hc
        simp [hc]
theorem slot_fault_pools (p len cost pops op k : Nat) (v : Option VioReport) (s : State) :
    pools (slot p len cost pops op (fun _ _ => .fault k v) s) = pools s :=
  slot_pools fun _ => slotKeeps_fault _ _ _
@[simp] theorem coreSlot_pools (p len cost pops op : Nat) (f : Core → Except Nat Core) (s : State) :
    pools (coreSlot p len cost pops op f s) = pools s := by
  simp only [coreSlot]
  refine slot_pools fun c => ?_
  (repeat' split) <;> simp
@[simp] theorem dsSlot_pools (p cost n op : Nat) (f : List W32 → List W32) (s : State) :
    pools (dsSlot p cost n op f s) = pools s := by simp [dsSlot]
@[simp] theorem loadAt_pools (p a n pos : Nat) (c : Core) (s : State) : slotKeeps s (loadAt p a n pos c s) := by
  simp only [loadAt]
  (repeat' split) <;> simp
@[simp] theorem storeAt_pools (p a : Nat) (d : Bytes) (c : Core) (s : State) : slotKeeps s (storeAt p a d c s) := by
  simp only [storeAt]
  (repeat' split) <;> simp

/-! ### Isa: what its operations leave of the pools -/

@[simp] theorem execOpNop_pools (core : Nat) (s : State) : keepsPools s (execOpNop core s) := by simp [execOpNop]
@[simp] theorem fuseLit_pools (p len op : Nat) (v : W32) (s : State) : pools (fuseLit p len op v s) = pools s := by simp [fuseLit]
@[simp] theorem pushLit_pools (p len : Nat) (lone : Bool) (v : W32) (s : State) :
    pools (pushLit p len lone v s) = pools s := by simp [pushLit]
@[simp] theorem shortLit_pools (p len next : Nat) (alone branch : W32) (s : State) :
    pools (shortLit p len next alone branch s) = pools s := by simp [shortLit]
@[simp] theorem execOpLit8_pools (core imm next : Nat) (s : State) : keepsPools s (execOpLit8 core imm next s) := by simp [execOpLit8]
@[simp] theorem execOpLit16_pools (core imm next : Nat) (s : State) : keepsPools s (execOpLit16 core imm next s) := by simp [execOpLit16]
@[simp] theorem execOpLit32_pools (core imm : Nat) (s : State) : keepsPools s (execOpLit32 core imm s) := by simp [execOpLit32]
@[simp] theorem execOpDup_pools (core : Nat) (s : State) : keepsPools s (execOpDup core s) := by simp [execOpDup]
@[simp] theorem execOpDrop_pools (core : Nat) (s : State) : keepsPools s (execOpDrop core s) := by simp [execOpDrop]
@[simp] theorem execOpSwap_pools (core : Nat) (s : State) : keepsPools s (execOpSwap core s) := by simp [execOpSwap]
@[simp] theorem execOpOver_pools (core : Nat) (s : State) : keepsPools s (execOpOver core s) := by simp [execOpOver]
@[simp] theorem execOpRot_pools (core : Nat) (s : State) : keepsPools s (execOpRot core s) := by simp [execOpRot]
@[simp] theorem execOpNip_pools (core : Nat) (s : State) : keepsPools s (execOpNip core s) := by simp [execOpNip]
@[simp] theorem execOpTuck_pools (core : Nat) (s : State) : keepsPools s (execOpTuck core s) := by simp [execOpTuck]
@[simp] theorem execOpPick_pools (core : Nat) (s : State) : keepsPools s (execOpPick core s) := by simp [execOpPick]
@[simp] theorem execOpDepth_pools (core : Nat) (s : State) : keepsPools s (execOpDepth core s) := by simp [execOpDepth]
@[simp] theorem execOpTor_pools (core : Nat) (s : State) : keepsPools s (execOpTor core s) := by simp [execOpTor]
@[simp] theorem execOpFromr_pools (core : Nat) (s : State) : keepsPools s (execOpFromr core s) := by simp [execOpFromr]
@[simp] theorem execOpRfetch_pools (core : Nat) (s : State) : keepsPools s (execOpRfetch core s) := by simp [execOpRfetch]
@[simp] theorem execOpRdrop_pools (core : Nat) (s : State) : keepsPools s (execOpRdrop core s) := by simp [execOpRdrop]
@[simp] theorem execOpAdd_pools (core : Nat) (s : State) : keepsPools s (execOpAdd core s) := by simp [execOpAdd]
@[simp] theorem execOpSub_pools (core : Nat) (s : State) : keepsPools s (execOpSub core s) := by simp [execOpSub]
@[simp] theorem execOpAddc_pools (core : Nat) (s : State) : keepsPools s (execOpAddc core s) := by simp [execOpAddc]
@[simp] theorem execOpSubb_pools (core : Nat) (s : State) : keepsPools s (execOpSubb core s) := by simp [execOpSubb]
@[simp] theorem execOpMul_pools (core : Nat) (s : State) : keepsPools s (execOpMul core s) := by simp [execOpMul]
@[simp] theorem execOpUmul_pools (core : Nat) (s : State) : keepsPools s (execOpUmul core s) := by simp [execOpUmul]
@[simp] theorem execOpDivu_pools (core : Nat) (s : State) : keepsPools s (execOpDivu core s) := by simp [execOpDivu]
@[simp] theorem execOpNeg_pools (core : Nat) (s : State) : keepsPools s (execOpNeg core s) := by simp [execOpNeg]
@[simp] theorem execOpAnd_pools (core : Nat) (s : State) : keepsPools s (execOpAnd core s) := by simp [execOpAnd]
@[simp] theorem execOpOr_pools (core : Nat) (s : State) : keepsPools s (execOpOr core s) := by simp [execOpOr]
@[simp] theorem execOpXor_pools (core : Nat) (s : State) : keepsPools s (execOpXor core s) := by simp [execOpXor]
@[simp] theorem execOpNot_pools (core : Nat) (s : State) : keepsPools s (execOpNot core s) := by simp [execOpNot]
@[simp] theorem execOpShl_pools (core : Nat) (s : State) : keepsPools s (execOpShl core s) := by simp [execOpShl]
@[simp] theorem execOpShr_pools (core : Nat) (s : State) : keepsPools s (execOpShr core s) := by simp [execOpShr]
@[simp] theorem execOpSar_pools (core : Nat) (s : State) : keepsPools s (execOpSar core s) := by simp [execOpSar]
@[simp] theorem execOpRol_pools (core : Nat) (s : State) : keepsPools s (execOpRol core s) := by simp [execOpRol]
@[simp] theorem execOpInc_pools (core : Nat) (s : State) : keepsPools s (execOpInc core s) := by simp [execOpInc]
@[simp] theorem execOpDec_pools (core : Nat) (s : State) : keepsPools s (execOpDec core s) := by simp [execOpDec]
@[simp] theorem execOpEq_pools (core : Nat) (s : State) : keepsPools s (execOpEq core s) := by simp [execOpEq]
@[simp] theorem execOpLtu_pools (core : Nat) (s : State) : keepsPools s (execOpLtu core s) := by simp [execOpLtu]
@[simp] theorem execOpLts_pools (core : Nat) (s : State) : keepsPools s (execOpLts core s) := by simp [execOpLts]
@[simp] theorem execOpZeq_pools (core : Nat) (s : State) : keepsPools s (execOpZeq core s) := by simp [execOpZeq]
@[simp] theorem execOpSel_pools (core : Nat) (s : State) : keepsPools s (execOpSel core s) := by simp [execOpSel]
@[simp] theorem execOpBswap_pools (core : Nat) (s : State) : keepsPools s (execOpBswap core s) := by simp [execOpBswap]
@[simp] theorem execOpExtb_pools (core : Nat) (s : State) : keepsPools s (execOpExtb core s) := by simp [execOpExtb]
@[simp] theorem execOpInsb_pools (core : Nat) (s : State) : keepsPools s (execOpInsb core s) := by simp [execOpInsb]
@[simp] theorem execOpClz_pools (core : Nat) (s : State) : keepsPools s (execOpClz core s) := by simp [execOpClz]
@[simp] theorem execOpPopc_pools (core : Nat) (s : State) : keepsPools s (execOpPopc core s) := by simp [execOpPopc]
@[simp] theorem execOpBra_pools (core : Nat) (s : State) : keepsPools s (execOpBra core s) := by simp [execOpBra]
@[simp] theorem execOpBz_pools (core : Nat) (s : State) : keepsPools s (execOpBz core s) := by simp [execOpBz]
@[simp] theorem execOpBnz_pools (core : Nat) (s : State) : keepsPools s (execOpBnz core s) := by simp [execOpBnz]
@[simp] theorem execOpCall_pools (core : Nat) (s : State) : keepsPools s (execOpCall core s) := by simp [execOpCall]
@[simp] theorem execOpJmp_pools (core : Nat) (s : State) : keepsPools s (execOpJmp core s) := by simp [execOpJmp]
@[simp] theorem execOpRet_pools (core : Nat) (s : State) : keepsPools s (execOpRet core s) := by simp [execOpRet]
@[simp] theorem execOpNext_pools (core : Nat) (s : State) : keepsPools s (execOpNext core s) := by simp [execOpNext]
@[simp] theorem loadOp_pools (p n op : Nat) (addr : Core → W32 → Nat) (s : State) : pools (loadOp p n op addr s) = pools s := by
  simp only [loadOp]
  refine slot_pools fun c => ?_
  (repeat' split) <;> simp
@[simp] theorem storeOp_pools (p n op : Nat) (addr : Core → W32 → Nat) (s : State) : pools (storeOp p n op addr s) = pools s := by
  simp only [storeOp]
  refine slot_pools fun c => ?_
  (repeat' split) <;> simp
@[simp] theorem execOpLd_pools (core : Nat) (s : State) : keepsPools s (execOpLd core s) := by simp [execOpLd]
@[simp] theorem execLoadLanding_pools (core : Nat) (data : List Byte) (hostCycles : Nat) (s : State) :
    keepsPools s (execLoadLanding core data hostCycles s) := by
  simp only [execLoadLanding]
  (repeat' split) <;> simp
@[simp] theorem execOpSt_pools (core : Nat) (s : State) : keepsPools s (execOpSt core s) := by simp [execOpSt]
@[simp] theorem execOpLdb_pools (core : Nat) (s : State) : keepsPools s (execOpLdb core s) := by simp [execOpLdb]
@[simp] theorem execOpStb_pools (core : Nat) (s : State) : keepsPools s (execOpStb core s) := by simp [execOpStb]
@[simp] theorem execOpLdl_pools (core : Nat) (s : State) : keepsPools s (execOpLdl core s) := by simp [execOpLdl]
@[simp] theorem execOpStl_pools (core : Nat) (s : State) : keepsPools s (execOpStl core s) := by simp [execOpStl]
@[simp] theorem execOpLdlb_pools (core : Nat) (s : State) : keepsPools s (execOpLdlb core s) := by simp [execOpLdlb]
@[simp] theorem execOpStlb_pools (core : Nat) (s : State) : keepsPools s (execOpStlb core s) := by simp [execOpStlb]
@[simp] theorem streamLoad_pools (p n : Nat) (s : State) : pools (streamLoad p n s) = pools s := by
  simp only [streamLoad]
  refine slot_pools fun c => ?_
  (repeat' split) <;> simp
@[simp] theorem streamStore_pools (p n : Nat) (s : State) : pools (streamStore p n s) = pools s := by
  simp only [streamStore]
  refine slot_pools fun c => ?_
  (repeat' split) <;> simp
@[simp] theorem execOpLds_pools (core : Nat) (s : State) : keepsPools s (execOpLds core s) := by simp [execOpLds]
@[simp] theorem execOpSts_pools (core : Nat) (s : State) : keepsPools s (execOpSts core s) := by simp [execOpSts]
@[simp] theorem execOpLdsb_pools (core : Nat) (s : State) : keepsPools s (execOpLdsb core s) := by simp [execOpLdsb]
@[simp] theorem execOpStsb_pools (core : Nat) (s : State) : keepsPools s (execOpStsb core s) := by simp [execOpStsb]
@[simp] theorem execOpBnkr_pools (core : Nat) (s : State) : keepsPools s (execOpBnkr core s) := by simp [execOpBnkr]
@[simp] theorem execOpBnkw_pools (core : Nat) (s : State) : keepsPools s (execOpBnkw core s) := by simp [execOpBnkw]
@[simp] theorem execOpSrr_pools (core : Nat) (s : State) : keepsPools s (execOpSrr core s) := by simp [execOpSrr]
@[simp] theorem execOpSrw_pools (core : Nat) (s : State) : keepsPools s (execOpSrw core s) := by simp [execOpSrw]
@[simp] theorem execOpBld_pools (core : Nat) (data : List Byte) (hostCycles : Nat) (s : State) :
    keepsPools s (execOpBld core data hostCycles s) := by
  simp only [execOpBld, keepsPools_next]
  refine slot_pools fun c => ?_
  (repeat' split) <;> simp
@[simp] theorem execOpBst_pools (core : Nat) (s : State) : keepsPools s (execOpBst core s) := by
  simp only [execOpBst, keepsPools_next]
  refine slot_pools fun c => ?_
  (repeat' split) <;> simp
@[simp] theorem execOpBdup_pools (core : Nat) (s : State) : keepsPools s (execOpBdup core s) := by simp [execOpBdup]
@[simp] theorem execOpBdrop_pools (core : Nat) (s : State) : keepsPools s (execOpBdrop core s) := by simp [execOpBdrop]
@[simp] theorem execOpBxch_pools (core : Nat) (s : State) : keepsPools s (execOpBxch core s) := by simp [execOpBxch]
@[simp] theorem execOpBxor_pools (core : Nat) (s : State) : keepsPools s (execOpBxor core s) := by simp [execOpBxor]
@[simp] theorem execOpBzero_pools (core : Nat) (s : State) : keepsPools s (execOpBzero core s) := by simp [execOpBzero]
@[simp] theorem execOpBpush_pools (core : Nat) (s : State) : keepsPools s (execOpBpush core s) := by simp [execOpBpush]
@[simp] theorem execOpBpop_pools (core : Nat) (s : State) : keepsPools s (execOpBpop core s) := by simp [execOpBpop]
@[simp] theorem execOpBinc_pools (core : Nat) (s : State) : keepsPools s (execOpBinc core s) := by simp [execOpBinc]
@[simp] theorem execOpBeq_pools (core : Nat) (s : State) : keepsPools s (execOpBeq core s) := by simp [execOpBeq]
@[simp] theorem execOpBmask_pools (core : Nat) (s : State) : keepsPools s (execOpBmask core s) := by
  simp only [execOpBmask, keepsPools_next]
  refine slot_pools fun c => ?_
  (repeat' split) <;> simp
@[simp] theorem execOpTime_pools (core : Nat) (s : State) : keepsPools s (execOpTime core s) := by simp [execOpTime]
@[simp] theorem execOpTick_pools (core : Nat) (s : State) : keepsPools s (execOpTick core s) := by simp [execOpTick]
@[simp] theorem execOpFence_pools (core : Nat) (s : State) : keepsPools s (execOpFence core s) := by
  simp only [execOpFence, keepsPools_next]
  refine slot_pools fun c => ?_
  (repeat' split) <;> simp
@[simp] theorem execIllegalOpcode_pools (core opcode : Nat) (s : State) :
    keepsPools s (execIllegalOpcode core opcode s) := by simp [execIllegalOpcode]
@[simp] theorem execInstructionFetchRefused_pools (core : Nat) (s : State) : keepsPools s (execInstructionFetchRefused core s) := by
  simp only [execInstructionFetchRefused]
  (repeat' split) <;> simp
@[simp] theorem execProgramBudgetExhausted_pools (core : Nat) (s : State) :
    keepsPools s (execProgramBudgetExhausted core s) := by simp [execProgramBudgetExhausted]
@[simp] theorem execStoreAcknowledge_pools (core : Nat) (s : State) : keepsPools s (execStoreAcknowledge core s) := by
  unfold execStoreAcknowledge
  split <;> simp
@[simp] theorem execIcacheFill_pools (core : Nat) (s : State) : keepsPools s (execIcacheFill core s) := by simp [execIcacheFill]

/-! ### Lanes: what its operations leave of the pools -/

@[simp] theorem laneSrc_pools (r : LaneReq) (a n : Nat) (data : Bytes) (s : State) :
    pools (laneSrc r a n data s).2 = pools s := by simp [laneSrc]
@[simp] theorem laneDst_pools (r : LaneReq) (a : Nat) (d : Bytes) (s : State) : pools (laneDst r a d s) = pools s := by simp [laneDst]
@[simp] theorem lanePass_pools (r : LaneReq) (s : State) : pools (lanePass r s) = pools s := by
  unfold lanePass
  split <;> simp
@[simp] theorem laneSpend_pools (r : LaneReq) (n : Nat) (s : State) : pools (laneSpend r n s) = pools s := by
  unfold laneSpend
  split <;> simp
@[simp] theorem slotUse_pools (n : Nat) (x : KSlot) (s : State) : pools (slotUse n x s) = pools s := by simp [slotUse]
@[simp] theorem countOps_pools (n : Nat) (r : LaneReq) (k : Nat) (s : State) : pools (countOps n r k s) = pools s := by simp [countOps]
@[simp] theorem fillPass_pools (n : Nat) (r : LaneReq) (s : State) : pools (fillPass n r s) = pools s := by
  unfold fillPass
  split <;> simp
@[simp] theorem deliver_pools (n : Nat) (r : LaneReq) (i : Nat) (out : Bytes) (s : State) : pools (deliver n r i out s).2.2 = pools s := by
  unfold deliver
  split <;> simp
@[simp] theorem cipherRun_pools (n : Nat) (r : LaneReq) (i : Nat) (e : KEnt) (len : Nat) (d : Bytes) (s : State) :
    pools (cipherRun n r i e len d s).2.2 = pools s := by simp [cipherRun]
@[simp] theorem dataOp_pools (n : Nat) (r : LaneReq) (i : Nat) (e : KEnt) (len : Nat) (data : Bytes) (s : State) :
    pools (dataOp n r i e len data s).2.2 = pools s := by
  simp only [dataOp]
  split
  · rfl
  · generalize laneRefusal s r _ _ = o
    simp only [pools_snd2_ite]
    cases o with
    | some v => simp only [vioQueue_pools, ite_self]
    | none => simp only [pools_snd2_ite, modPort_pools, cipherRun_pools, countOps_pools, laneSpend_pools, pools_ite, laneSrc_pools, ite_self]
@[simp] theorem tagOp_pools (n : Nat) (r : LaneReq) (e : KEnt) (len : Nat) (s : State) :
    pools (tagOp n r e len s).2.2 = pools s := by simp [tagOp]
@[simp] theorem blockReq_pools (n : Nat) (r : LaneReq) (data : Bytes) (s : State) : pools (blockReq n r data s).2.2 = pools s := by
  simp only [blockReq]
  (repeat' split) <;> simp
@[simp] theorem hashReq_pools (n : Nat) (r : LaneReq) (data : Bytes) (s : State) : pools (hashReq n r data s).2.2 = pools s := by
  simp only [hashReq]
  (repeat' split) <;> simp
@[simp] theorem slhVerifyReq_pools (P : SlhP) (r : LaneReq) (data : Bytes) (s : State) : pools (slhVerifyReq P r data s).2.2 = pools s := by
  simp only [slhVerifyReq]
  (repeat' split) <;> simp
@[simp] theorem slhSignReq_pools (small : Bool) (r : LaneReq) (data : Bytes) (s : State) :
    pools (slhSignReq small r data s).2.2 = pools s := by
  simp only [slhSignReq]
  (repeat' split) <;> simp
@[simp] theorem permsRun_pools (n : Nat) (r : LaneReq) (x : LaneEnd) : pools (permsRun n r x).2.2 = pools x.2.2 := by
  unfold permsRun
  split <;> simp
@[simp] theorem withInput_pools {r : LaneReq} {data : Bytes} {outLen : Nat} {s : State} {f : Bytes → State → LaneEnd}
    (hf : ∀ d t, pools (f d t).2.2 = pools t) : pools (withInput r data outLen s f).2.2 = pools s := by
  unfold withInput
  split <;> simp [hf]
theorem withKey_pools {r : LaneReq} {ok : KEnt → Bool} {s : State} {f : KEnt → (State → State) → LaneEnd}
    (hf : ∀ e, pools (f e (laneSpend r 1)).2.2 = pools s) : pools (withKey r ok s f).2.2 = pools s := by
  unfold withKey
  (repeat' split) <;> simp [hf]
@[simp] theorem laneWork_pools (n : Nat) (d : Bytes) (s : State) : pools (laneWork n d s) = pools s := by simp [laneWork]
@[simp] theorem rsaPrivReq_pools (n : Nat) (r : LaneReq) (data : Bytes) (s : State) : pools (rsaPrivReq n r data s).2.2 = pools s := by
  refine withKey_pools fun e => ?_
  simp
@[simp] theorem rsaPubReq_pools (n : Nat) (r : LaneReq) (data : Bytes) (s : State) : pools (rsaPubReq n r data s).2.2 = pools s := by
  refine withKey_pools fun e => ?_
  simp
@[simp] theorem ecdsaSignReq_pools (n : Nat) (r : LaneReq) (data : Bytes) (s : State) : pools (ecdsaSignReq n r data s).2.2 = pools s := by
  refine withKey_pools fun e => ?_
  simp only [pools_snd2_ite]
  rw [withInput_pools fun d s => ?_]
  · simp
  · split
    next => rfl
    next h => simp [drbgDraw_some h]
@[simp] theorem ecdsaVerifyReq_pools (n : Nat) (r : LaneReq) (data : Bytes) (s : State) :
    pools (ecdsaVerifyReq n r data s).2.2 = pools s := by
  refine withKey_pools fun e => ?_
  simp
@[simp] theorem ecdhReq_pools (n : Nat) (r : LaneReq) (data : Bytes) (s : State) : pools (ecdhReq n r data s).2.2 = pools s := by
  refine withKey_pools fun e => ?_
  simp only [pools_snd2_ite]
  rw [withInput_pools fun d s => ?_]
  · simp
  · split
    · rfl
    · split <;> simp
@[simp] theorem rsaPairReq_pools (r : LaneReq) (p q e : Nat) (s : State) : pools (rsaPairReq r p q e s).2.2 = pools s := by
  simp only [rsaPairReq]
  (repeat' split) <;> simp
@[simp] theorem ecPairReq_pools (r : LaneReq) (s : State) : pools (ecPairReq r s).2.2 = pools s := by
  simp only [ecPairReq]
  split
  · rfl
  · split
    · rfl
    · split
      · rfl
      · split
        · simp
        · split
          next => rfl
          next h => simp [drbgDraw_some h]
@[simp] theorem latWork_pools (n : Nat) (d : Bytes) (s : State) : pools (latWork n d s) = pools s := by simp [latWork]
@[simp] theorem kemReq_pools (n op : Nat) (r : LaneReq) (data : Bytes) (s : State) : pools (kemReq n op r data s).2.2 = pools s := by
  simp only [kemReq]
  split
  · rfl
  · split
    · rfl
    · split
      · split
        · rfl
        · split
          · simp
          · rfl
          · split
            next => rfl
            next h => simp [drbgDraw_some h]
      · split
        · rfl
        · refine withInput_pools fun d s => ?_
          split
          · rfl
          · split
            next => rfl
            next h => simp [drbgDraw_some h]
      · split
        · rfl
        · split
          · rfl
          · split
            · rfl
            · exact withInput_pools fun d s => by simp
@[simp] theorem laneTurn_pools (n p : Nat) (single : Bool) (s : State) : pools (laneTurn n p single s) = pools s := by simp [laneTurn]
@[simp] theorem laneMark_pools (n tag : Nat) (st : Nat) (out : Bytes) (s : State) :
    pools (laneMark n tag st out s) = pools s := by simp [laneMark]
@[simp] theorem laneLose_pools (n tag : Nat) (s : State) : pools (laneLose n tag s) = pools s := by simp [laneLose]
@[simp] theorem twinCount_pools (n p : Nat) (s : State) : pools (twinCount n p s) = pools s := by simp [twinCount]
@[simp] theorem twinFence_pools (b : Nat) (test full : Bool) (s : State) : pools (twinFence b test full s) = pools s := by simp [twinFence]
@[simp] theorem twinFenceAll_pools (n : Nat) (test full : Bool) (s : State) :
    pools (twinFenceAll n test full s) = pools s := by simp [twinFenceAll]
@[simp] theorem twinFault_pools {n fault : Nat} {r : LaneReq} {test full : Bool} {run : State → LaneEnd} (hr : ∀ s, pools (run s).2.2 = pools s)
    (s : State) : pools (twinFault n fault r test full run s) = pools s := by
  simp only [twinFault]
  split <;> simp [hr]
@[simp] theorem laneGo_pools {n p fault : Nat} {isOp : LaneReq → Bool} {run : LaneReq → State → LaneEnd}
    (hr : ∀ r s, pools (run r s).2.2 = pools s) (s : State) : pools (laneGo n p fault isOp run s) = pools s := by
  simp only [laneGo]
  split
  · rfl
  next r _ =>
    split
    · rfl
    · split
      · simp
      · split
        next h => simp [hr, pools_snd h]
        next h => simp [hr, pools_snd h]
@[simp] theorem goBlock_pools (op lane core fault : Nat) (data : Bytes) (s : State) :
    pools (goBlock op lane core fault data s) = pools s := by simp [goBlock]
@[simp] theorem goHash_pools {fn lane core fault : Nat} {run : LaneReq → State → LaneEnd} (hr : ∀ r s, pools (run r s).2.2 = pools s)
    (s : State) : pools (goHash fn lane core fault run s) = pools s := by
  simp [goHash, hr]
@[simp] theorem goMod_pools {op lane core fault : Nat} {run : LaneReq → State → LaneEnd} (hr : ∀ r s, pools (run r s).2.2 = pools s)
    (s : State) : pools (goMod op lane core fault run s) = pools s := by
  simp [goMod, hr]
@[simp] theorem goLat_pools (op lane core fault : Nat) (data : Bytes) (s : State) :
    pools (goLat op lane core fault data s) = pools s := by simp [goLat]
@[simp] theorem execEncipher_pools (lane core fault : Nat) (data : List Byte) (s : State) :
    keepsPools s (execEncipher lane core fault data s) := by simp [execEncipher]
@[simp] theorem execDecipher_pools (lane core fault : Nat) (data : List Byte) (s : State) :
    keepsPools s (execDecipher lane core fault data s) := by simp [execDecipher]
@[simp] theorem execDesE1_pools (lane core fault : Nat) (data : List Byte) (s : State) :
    keepsPools s (execDesE1 lane core fault data s) := by simp [execDesE1]
@[simp] theorem execKeystream_pools (lane core fault : Nat) (data : List Byte) (s : State) :
    keepsPools s (execKeystream lane core fault data s) := by simp [execKeystream]
@[simp] theorem execSubkey_pools (lane core fault : Nat) (s : State) : keepsPools s (execSubkey lane core fault s) := by simp [execSubkey]
@[simp] theorem execGhash_pools (lane core fault : Nat) (data : List Byte) (s : State) :
    keepsPools s (execGhash lane core fault data s) := by simp [execGhash]
@[simp] theorem execTagCompare_pools (lane core fault : Nat) (s : State) :
    keepsPools s (execTagCompare lane core fault s) := by simp [execTagCompare]
@[simp] theorem execTag_pools (lane core fault : Nat) (s : State) : keepsPools s (execTag lane core fault s) := by simp [execTag]
@[simp] theorem execSha256_pools (lane core fault : Nat) (data : List Byte) (s : State) :
    keepsPools s (execSha256 lane core fault data s) := by simp [execSha256]
@[simp] theorem execSha384_pools (lane core fault : Nat) (data : List Byte) (s : State) :
    keepsPools s (execSha384 lane core fault data s) := by simp [execSha384]
@[simp] theorem execSha512_pools (lane core fault : Nat) (data : List Byte) (s : State) :
    keepsPools s (execSha512 lane core fault data s) := by simp [execSha512]
@[simp] theorem execSha3256_pools (lane core fault : Nat) (data : List Byte) (s : State) :
    keepsPools s (execSha3256 lane core fault data s) := by simp [execSha3256]
@[simp] theorem execSha3384_pools (lane core fault : Nat) (data : List Byte) (s : State) :
    keepsPools s (execSha3384 lane core fault data s) := by simp [execSha3384]
@[simp] theorem execSha3512_pools (lane core fault : Nat) (data : List Byte) (s : State) :
    keepsPools s (execSha3512 lane core fault data s) := by simp [execSha3512]
@[simp] theorem execShake128_pools (lane core fault : Nat) (data : List Byte) (s : State) :
    keepsPools s (execShake128 lane core fault data s) := by simp [execShake128]
@[simp] theorem execShake256_pools (lane core fault : Nat) (data : List Byte) (s : State) :
    keepsPools s (execShake256 lane core fault data s) := by simp [execShake256]
@[simp] theorem execSlhDsa256fSign_pools (lane core fault : Nat) (data : List Byte) (s : State) :
    keepsPools s (execSlhDsa256fSign lane core fault data s) := by simp [execSlhDsa256fSign]
@[simp] theorem execSlhDsa256sSign_pools (lane core fault : Nat) (data : List Byte) (s : State) :
    keepsPools s (execSlhDsa256sSign lane core fault data s) := by simp [execSlhDsa256sSign]
@[simp] theorem execSlhDsa256fVerify_pools (lane core fault : Nat) (data : List Byte) (s : State) :
    keepsPools s (execSlhDsa256fVerify lane core fault data s) := by simp [execSlhDsa256fVerify]
@[simp] theorem execSlhDsa256sVerify_pools (lane core fault : Nat) (data : List Byte) (s : State) :
    keepsPools s (execSlhDsa256sVerify lane core fault data s) := by simp [execSlhDsa256sVerify]
@[simp] theorem execRsaPrivate_pools (lane core fault : Nat) (data : List Byte) (s : State) :
    keepsPools s (execRsaPrivate lane core fault data s) := by simp [execRsaPrivate]
@[simp] theorem execRsaPublic_pools (lane core fault : Nat) (data : List Byte) (s : State) :
    keepsPools s (execRsaPublic lane core fault data s) := by simp [execRsaPublic]
@[simp] theorem execEcdsaSign_pools (lane core fault : Nat) (data : List Byte) (s : State) :
    keepsPools s (execEcdsaSign lane core fault data s) := by simp [execEcdsaSign]
@[simp] theorem execEcdsaVerify_pools (lane core fault : Nat) (data : List Byte) (s : State) :
    keepsPools s (execEcdsaVerify lane core fault data s) := by simp [execEcdsaVerify]
@[simp] theorem execEcdh_pools (lane core fault : Nat) (data : List Byte) (s : State) :
    keepsPools s (execEcdh lane core fault data s) := by simp [execEcdh]
@[simp] theorem execRsaKeyPair_pools (lane core fault p q e : Nat) (s : State) :
    keepsPools s (execRsaKeyPair lane core fault p q e s) := by simp [execRsaKeyPair]
@[simp] theorem execEcKeyPair_pools (lane core fault : Nat) (s : State) :
    keepsPools s (execEcKeyPair lane core fault s) := by simp [execEcKeyPair]
@[simp] theorem execMlKemKeygen_pools (lane core fault : Nat) (s : State) :
    keepsPools s (execMlKemKeygen lane core fault s) := by simp [execMlKemKeygen]
@[simp] theorem execMlKemEncaps_pools (lane core fault : Nat) (data : List Byte) (s : State) :
    keepsPools s (execMlKemEncaps lane core fault data s) := by simp [execMlKemEncaps]
@[simp] theorem execMlKemDecaps_pools (lane core fault : Nat) (data : List Byte) (s : State) :
    keepsPools s (execMlKemDecaps lane core fault data s) := by simp [execMlKemDecaps]
@[simp] theorem execLaneOpComplete_pools (lane core : Nat) (s : State) : keepsPools s (execLaneOpComplete lane core s) := by
  simp only [execLaneOpComplete]
  (repeat' split) <;> simp
@[simp] theorem laneSwap_pools (lane x : Nat) (s : State) : pools (laneSwap lane x s) = pools s := by simp [laneSwap]
@[simp] theorem execLaneSpareSwap_pools (lane : Nat) (s : State) : keepsPools s (execLaneSpareSwap lane s) := by
  unfold execLaneSpareSwap
  split <;> simp
@[simp] theorem execHashLaneWake_pools (lane : Nat) (s : State) : keepsPools s (execHashLaneWake lane s) := by simp [execHashLaneWake]

/-! ### MoverOps: what its operations leave of the pools -/

@[simp] theorem paneLoad_pools (m f : Nat) (s : State) : pools (paneLoad m f s) = pools s := by simp [paneLoad]
@[simp] theorem paneSwap_pools (m : Nat) (s : State) : pools (paneSwap m s) = pools s := by simp [paneSwap]
@[simp] theorem oldDrain_pools (d : MovDesc) (s : State) : pools (oldDrain d s) = pools s := by
  unfold oldDrain
  split <;> simp
@[simp] theorem beatWrite_pools (sp a : Nat) (d : Bytes) (s : State) : pools (beatWrite sp a d s) = pools s := by simp [beatWrite]
@[simp] theorem reqDone_pools (p tag st : Nat) (out : Bytes) (s : State) : pools (reqDone p tag st out s) = pools s := by simp [reqDone]
@[simp] theorem abortDone_pools (x : Nat × Nat) (s : State) : pools (abortDone x s) = pools s := by simp [abortDone]
@[simp] theorem skipPorts_pools (n : Nat) (s : State) : pools (skipPorts n s) = pools s := by
  refine (pools_foldl (fun s d => ?_) _ _).trans (modChan_pools _ _ _)
  split <;> simp
@[simp] theorem keyStart_pools (n : Nat) (s : State) : pools (keyStart n s) = pools s := by
  simp only [keyStart]
  split
  · rfl
  · split
    · simp
    · split <;> rename_i h <;> simp [pools_snd h]
@[simp] theorem chanTake_pools (n fuel : Nat) (s : State) : pools (chanTake n fuel s) = pools s := by
  induction fuel generalizing s with
  | zero => rfl
  | succ fuel ih =>
    simp only [chanTake]
    split
    · rfl
    · split
      · simp [ih]
      · split <;> simp [ih]
@[simp] theorem chanAsk_pools (n : Nat) (s : State) : pools (chanAsk n s).2 = pools s := by
  simp only [chanAsk]
  (repeat' split) <;> simp
@[simp] theorem descEnd_pools (n code residue : Nat) (s : State) : pools (descEnd n code residue s) = pools s := by
  simp only [descEnd]
  split
  · rfl
  next d _ => cases d.port <;> cases d.statAt <;> simp
@[simp] theorem chanRun_pools (n fuel : Nat) (s : State) : pools (chanRun n fuel s) = pools s := by
  induction fuel generalizing s with
  | zero => rfl
  | succ fuel ih =>
    simp only [chanRun]
    split <;> rename_i h <;> simp [ih, pools_snd h]
@[simp] theorem chanGo_pools (n : Nat) (s : State) : pools (chanGo n s) = pools s := by simp [chanGo]
@[simp] theorem chanEnd_pools (n code residue : Nat) (s : State) : pools (chanEnd n code residue s) = pools s := by simp [chanEnd]
@[simp] theorem chanPut_pools (n : Nat) (d : MovDesc) (fuel : Nat) (s : State) : pools (chanPut n d fuel s).2 = pools s := by
  induction fuel generalizing s with
  | zero => rfl
  | succ fuel ih =>
    simp only [chanPut]
    split
    · rfl
    · split <;> simp [ih]
@[simp] theorem keyAsk_pools (id : Nat) (s : State) : pools (keyAsk id s) = pools s := by simp [keyAsk]
@[simp] theorem keyFree_pools (n : Nat) (ok : Bool) (s : State) : pools (keyFree n ok s) = pools s := by simp [keyFree]

/-! ### Movers: what its operations leave of the pools -/

@[simp] theorem execMovTailWrite_pools (chan value : Nat) (s : State) :
    keepsPools s (execMovTailWrite chan value s) := by simp [execMovTailWrite]
@[simp] theorem beatFail_pools (n : Nat) (s : State) : pools (beatFail n s) = pools s := by simp [beatFail]
@[simp] theorem beatPass_pools (d : MovDesc) (got : Nat) (s : State) : pools (beatPass d got s).2 = pools s := by
  simp only [beatPass]
  split
  · rfl
  · split <;> rename_i h <;> simp [pools_snd h]
@[simp] theorem beatArrive_pools (n : Nat) (d : MovDesc) (data : Bytes) (s : State) : pools (beatArrive n d data s) = pools s := by
  simp only [beatArrive]
  split <;> rename_i h <;> simp [pools_snd h]
theorem execMoverReadArrival_pools (chan : Nat) (data : List Byte) (s : State) : keepsPools s (execMoverReadArrival chan data s) := by
  simp only [execMoverReadArrival, keepsPools_next]
  split
  · rfl
  · split
    · rfl
    · split
      · simp
      · split <;> rename_i h <;> simp [pools_snd h]
@[simp] theorem execMoverBusError_pools (chan : Nat) (s : State) : keepsPools s (execMoverBusError chan s) := by simp [execMoverBusError]
@[simp] theorem execMoverBurstDone_pools (chan : Nat) (s : State) : keepsPools s (execMoverBurstDone chan s) := by
  simp only [execMoverBurstDone]
  (repeat' split) <;> simp
@[simp] theorem execMovAbort_pools (chan : Nat) (s : State) : keepsPools s (execMovAbort chan s) := by
  simp only [execMovAbort]
  (repeat' split) <;> simp
@[simp] theorem execMovResume_pools (chan : Nat) (s : State) : keepsPools s (execMovResume chan s) := by simp [execMovResume]
@[simp] theorem execMovBulkMapWrite_pools (value : Nat) (s : State) :
    keepsPools s (execMovBulkMapWrite value s) := by simp [execMovBulkMapWrite]
@[simp] theorem execCreditReserve_pools (chan : Nat) (s : State) : keepsPools s (execCreditReserve chan s) := by simp [execCreditReserve]
@[simp] theorem rptWrites_pools (f : Nat) (l : List (Nat × Nat × Bytes)) (s : State) : pools (rptWrites f l s).2 = pools s := by
  induction l generalizing s with
  | nil => rfl
  | cons w l ih => unfold rptWrites; split <;> rename_i h <;> simp [ih, pools_snd h]
@[simp] theorem rptFlush_pools (f : Nat) (s : State) : pools (rptFlush f s) = pools s := by simp [rptFlush]
@[simp] theorem commitRetry_pools (f : Nat) (s : State) : pools (commitRetry f s) = pools s := by simp [commitRetry]
@[simp] theorem execPaneHrCommit_pools (region value : Nat) (s : State) :
    keepsPools s (execPaneHrCommit region value s) := by simp [execPaneHrCommit]
@[simp] theorem paneRefusedCore_pools (p : Nat) (s : State) : pools (paneRefusedCore p s) = pools s := by
  simp only [paneRefusedCore]
  (repeat' split) <;> simp
@[simp] theorem execPaneLoadDone_pools (m : Nat) (s : State) : keepsPools s (execPaneLoadDone m s) := by
  simp only [execPaneLoadDone]
  (repeat' split) <;> simp
@[simp] theorem vioTake_pools (s : State) : pools (vioTake s).2 = pools s := by
  unfold vioTake
  split <;> simp
@[simp] theorem execPaneVioNext_pools (s : State) : keepsPools s (execPaneVioNext s) := by simp [execPaneVioNext]

/-! ### CoreFlow: what its operations leave of the pools -/

@[simp] theorem waitCount_pools (t : Token) (s : State) : pools (waitCount t s) = pools s := by simp [waitCount]
@[simp] theorem waitNote_pools (i : Nat) (s : State) : pools (waitNote i s) = pools s := by simp [waitNote]
@[simp] theorem parkCore_pools (p pc : Nat) (st : TokState) (s : State) : pools (parkCore p pc st s) = pools s := by
  simp only [parkCore]
  split <;> simp
@[simp] theorem imageEnd_pools (c f slot : Nat) (st : Option Nat) (s : State) :
    pools (imageEnd c f slot st s) = pools s := by simp [imageEnd]
@[simp] theorem modFetch_pools (c f slot : Nat) (g : ImgFetch → ImgFetch) (s : State) :
    pools (modFetch c f slot g s) = pools s := by simp [modFetch]
@[simp] theorem imageRead_pools (c f slot a n : Nat) (s : State) : pools (imageRead c f slot a n s) = pools s := by
  unfold imageRead
  split <;> rename_i h <;> simp [pools_snd h]
@[simp] theorem imageAsk_pools (c f slot : Nat) (s : State) : pools (imageAsk c f slot s) = pools s := by simp [imageAsk]
@[simp] theorem imageInstall_pools (c f slot : Nat) (b : Bytes) (s : State) : pools (imageInstall c f slot b s) = pools s := by
  simp only [imageInstall]
  (repeat' split) <;> simp
@[simp] theorem imageWait_pools (p f slot : Nat) (s : State) : pools (imageWait p f slot s) = pools s := by
  unfold imageWait
  split <;> simp
@[simp] theorem askReturn_pools (p i : Nat) (sgIn sgOut : Bytes) (s : State) : pools (askReturn p i sgIn sgOut s) = pools s := by
  simp only [askReturn]
  (repeat' split) <;> simp
@[simp] theorem askLate_pools (p : Nat) (t : Token) (k : Option Park) (sgIn sgOut : Bytes) (s : State) :
    pools (askLate p t k sgIn sgOut s) = pools s := by simp [askLate]
theorem execOpAsk_pools (core : Nat) (sgIn sgOut : List Byte) (s : State) : keepsPools s (execOpAsk core sgIn sgOut s) := by
  simp only [execOpAsk, keepsPools_next]
  split
  · split
    · simp
    · split <;> simp
  · split
    · rfl
    · refine slot_pools fun c => ?_
      split <;> simp
@[simp] theorem takeTag_pools (s : State) : pools (takeTag s).2 = pools s := by simp [takeTag]
@[simp] theorem issueMove_pools (p : Nat) (c : Core) (ctl key len olen ain aout : Nat) (s : State) :
    pools (issueMove p c ctl key len olen ain aout s) = pools s := by
  simp only [issueMove]
  (repeat' split) <;> simp
@[simp] theorem issueLane_pools (p port : Nat) (c : Core) (r : LaneReq) (s : State) :
    pools (issueLane p port c r s) = pools s := by simp [issueLane]
@[simp] theorem issueNote_pools (p : Nat) (s : State) : pools (issueNote p s) = pools s := by simp [issueNote]
theorem execOpIssue_pools (core : Nat) (s : State) : keepsPools s (execOpIssue core s) := by
  simp only [execOpIssue, keepsPools_next, issueNote_pools]
  refine slot_pools fun c => ?_
  (repeat' split) <;> simp
@[simp] theorem reqDrop_pools (p : Nat) (r : CReq) (s : State) : pools (reqDrop p r s) = pools s := by simp [reqDrop]
@[simp] theorem awaitEnd_pools (p st : Nat) (out : Option Bytes) (rest : List W32) (c : Core) (s : State) :
    slotKeeps s (awaitEnd p st out rest c s) := by
  simp only [awaitEnd]
  (repeat' split) <;> simp
theorem execOpAwait_pools (core : Nat) (s : State) : keepsPools s (execOpAwait core s) := by
  refine (keepsPools_next _ _).2 ?_
  extract_lets c0 since s0 c
  have h0 : pools s0 = pools s := by
    simp only [s0]
    split <;> simp
  clear_value s0
  dsimp only
  split
  · split
    · refine (slot_pools fun c => ?_).trans h0
      split <;> simp [awaitEnd_pools]
    · split
      · refine pools_of_ite rfl ((slot_pools fun c => awaitEnd_pools _ _ _ _ _ _).trans (pools_of_ite ?_ h0))
        simpa using h0
      · refine pools_of_ite ((slot_pools fun c => awaitEnd_pools _ _ _ _ _ _).trans h0) (pools_of_ite ?_ rfl)
        simpa using h0
  · exact (slot_fault_pools _ _ _ _ _ _ _ _).trans h0
theorem execAwaitTimeout_pools (core : Nat) (s : State) : keepsPools s (execAwaitTimeout core s) := by
  simp only [execAwaitTimeout, keepsPools_next]
  split
  · split
    · rfl
    · refine pools_of_ite rfl ((slot_pools fun c => ?_).trans (by simp))
      split <;> simp [awaitEnd_pools]
  · rfl
@[simp] theorem execOpRelease_pools (core : Nat) (s : State) : keepsPools s (execOpRelease core s) := by
  simp only [execOpRelease, keepsPools_next]
  refine slot_pools fun c => ?_
  (repeat' split) <;> simp
@[simp] theorem pinKey_pools (p h i rsv : Nat) (s : State) : pools (pinKey p h i rsv s) = pools s := by simp [pinKey]
@[simp] theorem kresWait_pools (p h depth : Nat) (s : State) : pools (kresWait p h depth s) = pools s := by simp [kresWait]
theorem kresSlot_pools {p : Nat} {f : Core → List W32 → State → SlotR} {s : State} (hf : ∀ c r, slotKeeps s (f c r s)) :
    pools (kresSlot p f s) = pools s := by
  refine slot_pools fun c => ?_
  split <;> simp [hf]
@[simp] theorem kresPush_pools (p st : Nat) (s : State) : pools (kresPush p st s) = pools s := by
  simp only [kresPush]
  refine slot_pools fun c => ?_
  (repeat' split) <;> simp
@[simp] theorem kresRun_pools (p h rsv : Nat) (q : KeyReq) (s : State) : pools (kresRun p h rsv q s) = pools s := by
  simp only [kresRun]
  split
  · simp
  · rw [kresSlot_pools fun c r => ?_]
    · simp
    · split <;> simp
  · simp
  · simp
  · simp
  · simp
  · split <;> simp
theorem execOpKres_pools (core : Nat) (host : List Byte) (s : State) : keepsPools s (execOpKres core host s) := by
  simp only [execOpKres, keepsPools_next]
  split
  · refine pools_of_ite rfl ?_
    split
    · exact slot_fault_pools _ _ _ _ _ _ _ _
    · refine pools_of_ite ((slot_fault_pools _ _ _ _ _ _ _ _).trans ?_) ?_ <;> simp
  · exact slot_fault_pools _ _ _ _ _ _ _ _
@[simp] theorem randWait_pools (p depth : Nat) (s : State) : pools (randWait p depth s) = pools s := by
  simp only [randWait]
  (repeat' split) <;> simp
theorem execOpRand_pools (core : Nat) (s : State) : keepsPools s (execOpRand core s) := by
  refine (keepsPools_next _ _).2 ?_
  extract_lets c0 again s0 c
  have h0 : pools s0 = pools s := by simp [s0]
  clear_value s0
  split
  · refine pools_of_ite rfl (pools_of_ite ((slot_fault_pools _ _ _ _ _ _ _ _).trans h0) ?_)
    split
    · exact (slot_fault_pools _ _ _ _ _ _ _ _).trans h0
    · simp [h0]
  · exact (slot_fault_pools _ _ _ _ _ _ _ _).trans h0
@[simp] theorem coreStore_pools (p a : Nat) (d : Bytes) (s : State) : pools (coreStore p a d s) = pools s := by simp [coreStore]
theorem execDrbgGenerate_pools (s : State) : keepsPools s (execDrbgGenerate s) := by
  simp only [execDrbgGenerate, keepsPools_next]
  split
  · rfl
  · split
    · simp
    · split
      next => simp
      next h =>
        rw [slot_pools fun c => ?_]
        · simp [drbgDraw_some h]
        · split <;> simp
@[simp] theorem execOpPrun_pools (core : Nat) (s : State) : keepsPools s (execOpPrun core s) := by
  simp only [execOpPrun, keepsPools_next]
  refine slot_pools fun c => ?_
  (repeat' split) <;> simp
@[simp] theorem fetchGot_pools (g : ImgFetch) (entry image : Bytes) (s : State) : pools (fetchGot g entry image s) = pools s := by
  unfold fetchGot
  split <;> simp
@[simp] theorem execProgImageFetch_pools (cluster fn slot : Nat) (entry image : List Byte) (fail : Bool) (s : State) :
    keepsPools s (execProgImageFetch cluster fn slot entry image fail s) := by
  simp only [execProgImageFetch]
  (repeat' split) <;> simp
@[simp] theorem execProgramFetchTimeout_pools (cluster fn slot : Nat) (s : State) :
    keepsPools s (execProgramFetchTimeout cluster fn slot s) := by
  unfold execProgramFetchTimeout
  split <;> simp
@[simp] theorem progBaseSet_pools (fn value : Nat) (s : State) : pools (progBaseSet fn value s) = pools s := by simp [progBaseSet]
@[simp] theorem execProgBaseWrite_pools (fn value : Nat) (s : State) :
    keepsPools s (execProgBaseWrite fn value s) := by simp [execProgBaseWrite]

/-! ### Audit: what its operations leave of the pools -/

@[simp] theorem execRecordValidWrite_pools (s : State) : keepsPools s (execRecordValidWrite s) := by
  unfold execRecordValidWrite
  split <;> simp
@[simp] theorem stagingDrain_pools (s : State) : pools (stagingDrain s) = pools s := by simp [stagingDrain]
@[simp] theorem execShutterReopen_pools (s : State) : keepsPools s (execShutterReopen s) := by simp [execShutterReopen]
@[simp] theorem bufCopyAll_pools (l : List BufRec) (s : State) : pools (bufCopyAll l s) = pools s := by
  induction l generalizing s with
  | nil => rfl
  | cons r l ih => simp [bufCopyAll, ih]
@[simp] theorem bufCopy_pools (s : State) : pools (bufCopy s) = pools s := by simp [bufCopy]
@[simp] theorem cerClose_pools (n reason : Nat) (s : State) : pools (cerClose n reason s) = pools s := by
  unfold cerClose
  split <;> simp
@[simp] theorem cerCloseAll_pools (reason : Nat) (s : State) : pools (cerCloseAll reason s) = pools s := by simp [cerCloseAll]
@[simp] theorem execCeremonyTimeout_pools (num : Nat) (s : State) : keepsPools s (execCeremonyTimeout num s) := by
  unfold execCeremonyTimeout
  split <;> simp

/-! ### HostCmd: what its operations leave of the pools -/

@[simp] theorem execSqDoorbell_pools (fn ring tail : Nat) (s : State) :
    keepsPools s (execSqDoorbell fn ring tail s) := by simp [execSqDoorbell]
@[simp] theorem execCqDoorbell_pools (fn ring head : Nat) (s : State) : keepsPools s (execCqDoorbell fn ring head s) := by
  simp only [execCqDoorbell]
  (repeat' split) <;> simp
@[simp] theorem ringMirror_pools (f n : Nat) (s : State) : pools (ringMirror f n s) = pools s := by simp [ringMirror]
@[simp] theorem execRingEnable_pools (fn ring ctl : Nat) (s : State) :
    keepsPools s (execRingEnable fn ring ctl s) := by simp [execRingEnable]
@[simp] theorem execRingDisable_pools (fn ring ctl : Nat) (s : State) :
    keepsPools s (execRingDisable fn ring ctl s) := by simp [execRingDisable]
theorem execFetchIssue_pools (fn ring : Nat) (s : State) : keepsPools s (execFetchIssue fn ring s) := by
  simp only [execFetchIssue, keepsPools_next]
  split
  · rfl
  · split <;> rename_i h <;> simp [pools_snd h]
@[simp] theorem fetchFail_pools (fn ring : Nat) (s : State) : pools (fetchFail fn ring s) = pools s := by simp [fetchFail]
@[simp] theorem execDescriptorAccept_pools (fn ring : Nat) (data : List Byte) (rec : Nat) (s : State) :
    keepsPools s (execDescriptorAccept fn ring data rec s) := by simp [execDescriptorAccept]
@[simp] theorem execFetchFail_pools (fn ring : Nat) (s : State) : keepsPools s (execFetchFail fn ring s) := by simp [execFetchFail]
@[simp] theorem execModTimeExpiry_pools (fn ring : Nat) (s : State) : keepsPools s (execModTimeExpiry fn ring s) := by
  simp only [execModTimeExpiry]
  (repeat' split) <;> simp
@[simp] theorem cmdBegin_pools (op f result : Nat) (s : State) : pools (cmdBegin op f result s) = pools s := by simp [cmdBegin]
@[simp] theorem execFnCmdComplete_pools (s : State) : keepsPools s (execFnCmdComplete s) := by
  unfold execFnCmdComplete
  split <;> simp
@[simp] theorem poolTake_pools (s : State) : pools (poolTake s).2 = pools s := by simp [poolTake]
@[simp] theorem execPoolSnap_pools (s : State) : keepsPools s (execPoolSnap s) := by simp [execPoolSnap]
@[simp] theorem execFnSelWrite_pools (value : Nat) (s : State) : keepsPools s (execFnSelWrite value s) := by simp [execFnSelWrite]
@[simp] theorem execDoeIdeKm_pools (stream : Nat) (key : List Byte) (s : State) :
    keepsPools s (execDoeIdeKm stream key s) := by simp [execDoeIdeKm]

/-! ### LcyOps: what its operations leave of the pools -/

@[simp] theorem chalUse_pools (as : List Bytes) (s : State) : pools (chalUse as s) = pools s := by
  unfold chalUse
  split <;> simp
@[simp] theorem grantClose_pools (mask cause : Nat) (s : State) : pools (grantClose mask cause s) = pools s := by
  simp only [grantClose]
  (repeat' split) <;> simp
@[simp] theorem modeStop_pools (m : Mode) (s : State) : pools (modeStop m s) = pools s := by simp [modeStop]
@[simp] theorem closeToken_pools (s : State) (it : Nat × Token) : pools (closeToken s it) = pools s := by
  simp only [closeToken]
  (repeat' split) <;> simp

/-! ### Slalom: what its operations leave of the pools -/

@[simp] theorem chargePass_pools (f c n : Nat) (s : State) : pools (chargePass f c n s) = pools s := by simp [chargePass]
@[simp] theorem execDispatchDecision_pools (core : Nat) (s : State) : keepsPools s (execDispatchDecision core s) := by
  simp only [execDispatchDecision]
  (repeat' split) <;> simp
@[simp] theorem ageOne_pools (s : State) (i : Nat) : pools (ageOne s i) = pools s := by simp [ageOne]
@[simp] theorem execAgeScan_pools (s : State) : keepsPools s (execAgeScan s) := by simp [execAgeScan]
@[simp] theorem lateMeter_pools (f cls units : Nat) (s : State) : pools (lateMeter f cls units s) = pools s := by simp [lateMeter]
@[simp] theorem releaseCore_pools (p : Nat) (s : State) : pools (releaseCore p s) = pools s := by simp [releaseCore]
@[simp] theorem gateTake_pools (st len : Nat) (c : Core) (s : State) : pools (gateTake st len c s) = pools s := by
  simp only [gateTake]
  (repeat' split) <;> simp
@[simp] theorem execGateInput_pools (core : Nat) (s : State) : keepsPools s (execGateInput core s) := by
  simp only [execGateInput]
  (repeat' split) <;> simp
@[simp] theorem liftOne_pools (e : LiftEntry) (s : State) : pools (liftOne e s) = pools s := by
  simp only [liftOne]
  (repeat' split) <;> simp
@[simp] theorem liftRun_pools (n : Nat) (s : State) : pools (liftRun n s) = pools s := by
  induction n generalizing s with
  | zero => rfl
  | succ n ih => unfold liftRun; split <;> simp [ih]
@[simp] theorem execLiftRelease_pools (s : State) : keepsPools s (execLiftRelease s) := by simp [execLiftRelease]
@[simp] theorem expireTok_pools (i st cls units : Nat) (s : State) : pools (expireTok i st cls units s) = pools s := by simp [expireTok]
@[simp] theorem randCommit_pools (p : Nat) (s : State) : pools (randCommit p s) = pools s := by simp [randCommit]
@[simp] theorem commitOne_pools (s : State) (i : Nat) : pools (commitOne s i) = pools s := by
  simp only [commitOne]
  (repeat' split) <;> simp
@[simp] theorem execDeadlineCommit_pools (s : State) : keepsPools s (execDeadlineCommit s) := by simp [execDeadlineCommit]
@[simp] theorem clWake_pools (c : Nat) (s : State) : pools (clWake c s) = pools s := by simp [clWake]
@[simp] theorem execCriticalWakeScan_pools (s : State) : keepsPools s (execCriticalWakeScan s) := by
  simp only [execCriticalWakeScan]
  (repeat' split) <;> simp
@[simp] theorem hashSleep_pools (c : Nat) (s : State) : pools (hashSleep c s) = pools s := by simp [hashSleep]
@[simp] theorem clSleep_pools (c : Nat) (s : State) : pools (clSleep c s) = pools s := by
  simp only [clSleep, hashSleep_pools, modSlm_pools, modLane_pools]
  exact pools_foldl (fun s k => modCore_pools _ _ _) _ _
@[simp] theorem execClusterSleep_pools (cluster : Nat) (s : State) : keepsPools s (execClusterSleep cluster s) := by simp [execClusterSleep]
@[simp] theorem wakeFloor_pools (s : State) : pools (wakeFloor s) = pools s := by simp [wakeFloor]
@[simp] theorem execClusterWakeDone_pools (cluster : Nat) (s : State) :
    keepsPools s (execClusterWakeDone cluster s) := by simp [execClusterWakeDone]
@[simp] theorem execTokenSelWrite_pools (value : Nat) (s : State) : keepsPools s (execTokenSelWrite value s) := by simp [execTokenSelWrite]
@[simp] theorem execLiftQuotaWrite_pools (value : Nat) (s : State) :
    keepsPools s (execLiftQuotaWrite value s) := by simp [execLiftQuotaWrite]

/-! ### Reset: what its operations leave of the pools -/

@[simp] theorem stampToken_pools (s : State) (it : Nat × Token) : pools (stampToken s it) = pools s := by
  simp only [stampToken]
  (repeat' split) <;> simp
@[simp] theorem stampCores_pools (f : Nat) (s : State) : pools (stampCores f s) = pools s := by simp [stampCores]
@[simp] theorem stampMovers_pools (f : Nat) (s : State) : pools (stampMovers f s) = pools s := by simp [stampMovers]
@[simp] theorem resetStamp_pools (cause : Nat) (s : State) (f : Nat) : pools (resetStamp cause s f) = pools s := by simp [resetStamp]
@[simp] theorem execVfFlr_pools (fn : Nat) (s : State) : keepsPools s (execVfFlr fn s) := by simp [execVfFlr]
@[simp] theorem execVfD3hot_pools (fn : Nat) (s : State) : keepsPools s (execVfD3hot fn s) := by simp [execVfD3hot]
@[simp] theorem execPfFlr_pools (s : State) : keepsPools s (execPfFlr s) := by simp [execPfFlr]
theorem vfResets_pools (c : Nat) (l : List Nat) (s : State) :
    pools (modHif (fun h => { h with vfEnable := false }) (l.foldl (resetStamp c) s)) = pools s :=
  (modHif_pools (fun _ => ⟨rfl, rfl⟩) _).trans (pools_foldl (resetStamp_pools c) l s)
theorem execVfEnableClear_pools (s : State) : keepsPools s (execVfEnableClear s) :=
  (keepsPools_next _ _).2 (pools_of_ite (vfResets_pools 3 vfList s) rfl)
@[simp] theorem execFnReset_pools (s : State) : keepsPools s (execFnReset s) := by simp [execFnReset]
@[simp] theorem resetKill_pools (f : Nat) (s : State) (p : Nat) : pools (resetKill f s p) = pools s := by simp [resetKill]
@[simp] theorem execResetDrainTimeout_pools (fn : Nat) (s : State) : keepsPools s (execResetDrainTimeout fn s) := by
  unfold execResetDrainTimeout
  split <;> simp
@[simp] theorem resetClear_pools (f cause : Nat) (s : State) : pools (resetClear f cause s) = pools s := by simp [resetClear]
@[simp] theorem resetDone_pools (f cause : Nat) (s : State) : pools (resetDone f cause s) = pools s := by simp [resetDone]
@[simp] theorem execResetReportWrite_pools (fn : Nat) (s : State) : keepsPools s (execResetReportWrite fn s) := by
  unfold execResetReportWrite
  split <;> simp
@[simp] theorem linkEnd_pools (s : State) : pools (linkEnd s) = pools s := by simp [linkEnd]
@[simp] theorem execLinkDown_pools (s : State) : keepsPools s (execLinkDown s) := by simp [execLinkDown]
@[simp] theorem execPerstAssert_pools (s : State) : keepsPools s (execPerstAssert s) := by simp [execPerstAssert]

/-! ### Integrity: what its operations leave of the pools -/

@[simp] theorem shortNote_pools (c : Nat) (s : State) : pools (shortNote c s) = pools s := by simp [shortNote]
@[simp] theorem coreReady_pools (p : Nat) (s : State) : pools (coreReady p s) = pools s := by simp [coreReady]
@[simp] theorem coreLose_pools (p : Nat) (s : State) : pools (coreLose p s) = pools s := by
  simp only [coreLose]
  (repeat' split) <;> simp
@[simp] theorem coreOut_pools (p : Nat) (s : State) : pools (coreOut p s) = pools s := by simp [coreOut]
@[simp] theorem coreFence_pools (p det : Nat) (test : Bool) (s : State) : pools (coreFence p det test s) = pools s := by simp [coreFence]
@[simp] theorem coresDue_pools (s : State) : pools (coresDue s) = pools s := by simp [coresDue]
@[simp] theorem spareSwap_pools (c k : Nat) (s : State) : pools (spareSwap c k s) = pools s := by simp [spareSwap]
@[simp] theorem execCoreSpareSwap_pools (cluster : Nat) (s : State) : keepsPools s (execCoreSpareSwap cluster s) := by
  simp only [execCoreSpareSwap]
  (repeat' split) <;> simp
@[simp] theorem sillFail_pools (dir lane : Nat) (test : Bool) (s : State) : pools (sillFail dir lane test s) = pools s := by simp [sillFail]
@[simp] theorem execSillLaneRemapDone_pools (dir lane : Nat) (s : State) :
    keepsPools s (execSillLaneRemapDone dir lane s) := by simp [execSillLaneRemapDone]
@[simp] theorem injFirst_pools (l : List TestPoint) (s : State) : pools (injFirst l s).2 = pools s := by
  induction l generalizing s with
  | nil => rfl
  | cons d l ih => unfold injFirst; split <;> rename_i h <;> simp [ih, pools_snd h]
@[simp] theorem noSpare_pools (s : State) : pools (noSpare s) = pools s := by simp [noSpare]
@[simp] theorem testHit_pools (det unit : Nat) (test full : Bool) (s : State) : pools (testHit det unit test full s) = pools s := by
  unfold testHit
  split <;> simp
@[simp] theorem testUnit_pools (points : List TestPoint) (fail : Bool) (s : State) : pools (testUnit points fail s) = pools s := by
  unfold testUnit
  split
  · rfl
  · split
    · simp
    · split <;> rename_i h <;> simp [pools_snd h]
@[simp] theorem testWake_pools (c : Nat) (s : State) : pools (testWake c s) = pools s := by simp [testWake]
@[simp] theorem execSelfTestRun_pools (kind unit : Nat) (fail : Bool) (s : State) : keepsPools s (execSelfTestRun kind unit fail s) := by
  simp only [execSelfTestRun]
  (repeat' split) <;> simp
@[simp] theorem keepFail_pools (test : Bool) (s : State) (w : Nat × Nat) : pools (keepFail test s w) = pools s := by simp [keepFail]
@[simp] theorem keepInj_pools (s : State) : pools (keepInj s) = pools s := by
  simp only [keepInj]
  split
  · rfl
  · split <;> rename_i h <;> simp [pools_snd h]
@[simp] theorem execKeepScrub_pools (corrected : Nat) (bad meters : List Nat) (s : State) :
    keepsPools s (execKeepScrub corrected bad meters s) := by
  simp only [execKeepScrub]
  (repeat' split) <;> simp
@[simp] theorem execKeepWordRestore_pools (word : Nat) (s : State) :
    keepsPools s (execKeepWordRestore word s) := by simp [execKeepWordRestore]
@[simp] theorem execCorrectedCountSecond_pools (s : State) : keepsPools s (execCorrectedCountSecond s) := by
  unfold execCorrectedCountSecond
  split <;> simp
@[simp] theorem errTake_pools (s : State) : pools (errTake s).2 = pools s := by
  unfold errTake
  split <;> simp
@[simp] theorem execDbgErrNext_pools (s : State) : keepsPools s (execDbgErrNext s) := by simp [execDbgErrNext]

/-! ### Clock: what its operations leave of the pools -/

@[simp] theorem coreWait_pools (k : Nat) (s : State) (p : Nat) : pools (coreWait k s p) = pools s := by
  unfold coreWait
  split <;> simp
@[simp] theorem loadShift_pools (s : State) (p : Nat) : pools (loadShift s p) = pools s := by simp [loadShift]
@[simp] theorem idleMark_pools (s : State) (c : Nat) : pools (idleMark s c) = pools s := by simp [idleMark]
@[simp] theorem tickEdge_pools (s : State) : pools (tickEdge s) = pools s := by simp [tickEdge]
@[simp] theorem hostWaits_pools (s : State) : pools (hostWaits s) = pools s := by simp [hostWaits]
@[simp] theorem linkWaits_pools (k : Nat) (s : State) : pools (linkWaits k s) = pools s := by simp [linkWaits]
@[simp] theorem refStep_pools (s : State) : pools (refStep s) = pools s := by
  simp only [refStep]
  (repeat' split) <;> simp
@[simp] theorem slowStep_pools (s : State) : pools (slowStep s) = pools s := by simp [slowStep]
@[simp] theorem timeStep_pools (s : State) : pools (timeStep s) = pools s := by simp [timeStep]

/-! ### Payment: what its operations leave of the pools -/

@[simp] theorem payPart_pools (st : Nat) (used : List Nat) (full : Nat) (s : State) :
    pools (payPart st used full s).2 = pools s := by simp [payPart]
@[simp] theorem payEnd_pools (p st len units : Nat) (s : State) : pools (payEnd p st len units s) = pools s := by simp [payEnd]
@[simp] theorem payFaulted_pools (p op : Nat) (s : State) : pools (payFaulted p op s) = pools s := by simp [payFaulted]
/-- The resolution of a key slot leaves the pools. -/
inductive KeyStep.Keeps (s : State) : KeyStep → Prop
  | ok {e : KEnt} {t : State} (h : pools t = pools s) : Keeps s (.ok e t)
  | fail {st : Nat} {t : State} (h : pools t = pools s) : Keeps s (.fail st t)
  | miss {h : Nat} {t : State} (hp : pools t = pools s) : Keeps s (.miss h t)
theorem payPin_pools (p h i : Nat) (k : PayKey) (e : KEnt) (s : State) : (payPin p h i k e s).Keeps s := by
  simp only [payPin]
  split
  · exact .fail (by simp)
  · split
    · exact .fail (by simp)
    · exact .ok (by simp)
theorem payPinned_pools (p h i : Nat) (k : PayKey) (s : State) : (payPinned p h i k s).Keeps s := by
  unfold payPinned
  split
  · exact .miss rfl
  · split
    · exact .fail rfl
    · split
      · exact .fail rfl
      · split
        · exact .fail (by simp)
        · exact payPin_pools _ _ _ _ _ _
theorem KeyStep.Keeps.congr {s t : State} {x : KeyStep} (k : x.Keeps s) (h : pools s = pools t) : x.Keeps t := by
  cases k with
  | ok k => exact .ok (k.trans h)
  | fail k => exact .fail (k.trans h)
  | miss k => exact .miss (k.trans h)
theorem payKey_pools (p f : Nat) (d : Bytes) (k : PayKey) (s : State) : (payKey p f d k s).Keeps s := by
  simp only [payKey]
  refine KeyStep.Keeps.congr (s := handlePass f (dKey d k.slot) s) ?_ (by simp)
  split
  · exact .fail rfl
  · split
    · exact payPinned_pools _ _ _ _ _
    · split
      · exact .fail rfl
      · split
        · exact payPin_pools _ _ _ _ _ _
        · exact .miss rfl
      · exact .fail (by simp)
      · exact .miss rfl
      · exact .miss (by simp)
      · split
        · exact .fail (by simp)
        · exact .miss (by simp)
@[simp] theorem payKeys_pools (p f : Nat) (d : Bytes) (l : List PayKey) (s : State) : pools (payKeys p f d l s).2.2 = pools s := by
  induction l generalizing s with
  | nil => rfl
  | cons k l ih =>
    have hk := payKey_pools p f d k s
    unfold payKeys
    split
    next h =>
      rw [h] at hk
      cases hk with
      | ok hk => exact (ih _).trans hk
    next => rfl
@[simp] theorem payFresh_pools (p : Nat) (s : State) : pools (payFresh p s) = pools s := by simp [payFresh]
@[simp] theorem paySpend_pools (p h n : Nat) (s : State) : pools (paySpend p h n s) = pools s := by
  unfold paySpend
  split <;> simp
@[simp] theorem payMiss_pools (p h : Nat) (s : State) : pools (payMiss p h s) = pools s := by simp [payMiss]
@[simp] theorem payRead_pools (p fault : Nat) (s : State) : pools (payRead p fault s).2 = pools s := by
  simp only [payRead]
  (repeat' split) <;> simp
@[simp] theorem payWrite_pools (p fault : Nat) (b : Bytes) (s : State) : pools (payWrite p fault b s).2 = pools s := by
  simp only [payWrite]
  (repeat' split) <;> simp
@[simp] theorem payRecord_pools (p code f : Nat) (body eff : Bytes) (s : State) : pools (payRecord p code f body eff s) = pools s := by
  unfold payRecord
  split <;> simp
@[simp] theorem payState_pools (p : Nat) (eff : Bytes) (s : State) : pools (payState p eff s) = pools s := by
  unfold payState
  split <;> simp
@[simp] theorem payCount_pools (op p n : Nat) (d : Bytes) (s : State) : pools (payCount op p n d s) = pools s := by simp [payCount]
theorem payKeys_step (p f : Nat) (d : Bytes) (l : List PayKey) (s : State) : ∀ x ∈ (payKeys p f d l s).2.1, x.Keeps s := by
  induction l generalizing s with
  | nil => simp [payKeys]
  | cons k l ih =>
    have hk := payKey_pools p f d k s
    unfold payKeys
    split
    next h =>
      rw [h] at hk
      cases hk with
      | ok hk => exact fun x hx => (ih _ x hx).congr hk
    next => simpa using hk
@[simp] theorem payTwin_pools (op p fault : Nat) (d : Bytes) (s : State) : pools (payTwin op p fault d s).2 = pools s := by
  simp only [payTwin]
  split
  · rfl
  · split
    next h => simp [pools_snd h]
    next h => split <;> simp [pools_snd h]
@[simp] theorem payCharge_pools (c : PayCmd) (e : PayEnv) (used : List Nat) (cyc : Nat) (s : State) :
    pools (payCharge c e used cyc s) = pools s := by simp [payCharge]
@[simp] theorem payFinish_pools (c : PayCmd) (e : PayEnv) (fault : Nat) (b : Bytes) (s : State) :
    pools (payFinish c e fault b s) = pools s := by
  simp only [payFinish]
  split
  · simp
  · split <;> rename_i h <;> simp [pools_snd h]
/-- The command's own work leaves the pools. -/
def PayCmd.keeps (c : PayCmd) : Prop := ∀ e s, pools (c.run e s).2 = pools s
theorem payCompute_pools {c : PayCmd} (hc : c.keeps) (e : PayEnv) (fault early : Nat) (s : State) :
    pools (payCompute c e fault early s) = pools s := by
  simp only [payCompute]
  split
  · simp
  · split
    · simp
    · have hr := hc e (payTwin c.op e.core fault e.desc s).2
      rw [payTwin_pools] at hr
      split <;> rename_i h <;> rw [h] at hr <;> simp at hr <;> simp [hr]
theorem payGo_pools {c : PayCmd} (hc : c.keeps) (p : Nat) (input : Bytes) (fault : Nat) (s : State) :
    pools (payGo c p input fault s) = pools s := by
  simp only [payGo]
  split
  · rfl
  · split
    · simp
    · split
      · simp
      · split
        · simp
        · split
          · simp
          · split
            · simp
            · split
              · simp
              · split
                · simp
                · have hk := payKeys_step p (core s p).func (mread (core s p).mem 0xFF00 64)
                    (c.keys (mread (core s p).mem 0xFF00 64) (padTo (bufLen (core s p).inList) input)) (payRead p fault (payFresh p s)).2
                  split <;> rename_i h
                  · cases hk _ h with | fail h => simp [h]
                  · cases hk _ h with | miss h => simp [h]
                  · cases hk _ h with | ok h => simp [h]
                  · simp [payCompute_pools hc]
@[simp] theorem pinMove_pools (e : PayEnv) (key0 blk pan : Bytes) (used : List Nat) (cyc : Nat) (s : State) :
    pools (pinMove e key0 blk pan used cyc s).2 = pools s := by
  simp only [pinMove]
  split
  · simp
  · split
    · rfl
    · split
      next => rfl
      next h => exact drbgDraw_some h
theorem pinTranslate_keeps : pinTranslate.keeps := fun e s => by simp [pinTranslate]
theorem pinVerifyOffset_keeps : pinVerifyOffset.keeps := fun e s => by
  simp only [pinVerifyOffset]
  split <;> simp
theorem pinVerifyPvv_keeps : pinVerifyPvv.keeps := fun e s => by
  simp only [pinVerifyPvv]
  split <;> simp
theorem cvvGenerate_keeps : cvvGenerate.keeps := fun _ _ => rfl
theorem cvvVerify_keeps : cvvVerify.keeps := fun _ _ => rfl
theorem arqcVerify_keeps : arqcVerify.keeps := fun e s => by simp [arqcVerify]
theorem macGenerate_keeps : macGenerate.keeps := fun _ _ => rfl
theorem macVerify_keeps : macVerify.keeps := fun _ _ => rfl
theorem dukptPinTranslate_keeps : dukptPinTranslate.keeps := fun e s => by simp [dukptPinTranslate]
theorem dukptMacVerify_keeps : dukptMacVerify.keeps := fun e s => by simp [dukptMacVerify]
theorem dukptDecrypt_keeps : dukptDecrypt.keeps := fun e s => by simp [dukptDecrypt]
theorem ffCmd_keeps (op : Nat) (dec : Bool) : (ffCmd op dec).keeps := fun _ _ => rfl
theorem wrapWith_pools {f : Nat} {e : KEnt} {opts : List (Nat × Bytes)} {palg : Nat} {kbek kbak : Bytes} {s : State} {x : Bytes × State}
    (h : wrapWith f e opts palg kbek kbak s = some x) : pools x.2 = pools s := by
  obtain ⟨y, hy, rfl⟩ := Option.map_eq_some_iff.1 h
  have := drbgDrawMany_pools hy
  exact this
theorem wrapK1_pools {f : Nat} {e : KEnt} {opts : List (Nat × Bytes)} {k : KEnt} {s : State} {x : Bytes × State}
    (h : wrapK1 f e opts k s = some x) : pools x.2 = pools s := wrapWith_pools h
/-- The writing of a key under an LMK leaves the pools. -/
inductive PayWrap.Keeps (s : State) : PayWrap → Prop
  | ok {b : Bytes} {t : State} (h : pools t = pools s) : Keeps s (.ok b t)
  | fail {st : Nat} {t : State} (h : pools t = pools s) : Keeps s (.fail st t)
  | rand : Keeps s .rand
theorem wrapLmk_pools (inst f : Nat) (e : KEnt) (opts : List (Nat × Bytes)) (s : State) : (wrapLmk inst f e opts s).Keeps s := by
  dsimp only [wrapLmk]
  split
  · exact .fail (by simp)
  · split
    · exact .fail (by simp)
    · split
      next => exact .rand
      next h => exact .ok ((wrapWith_pools h).trans (by simp))
theorem keyImport_keeps : keyImport.keeps := fun e s => by
  simp only [keyImport]
  split
  · simp
  next k _ =>
    have hw := wrapLmk_pools e.func e.func k k.carry s
    generalize wrapLmk e.func e.func k k.carry s = w at hw
    cases hw with
    | rand => rfl
    | fail h => simpa using h
    | ok h => exact h
theorem keyExport_keeps : keyExport.keeps := fun e s => by
  simp only [keyExport]
  split
  · simp
  · split
    next => rfl
    next h => exact wrapK1_pools h
theorem keyTranslate_keeps : keyTranslate.keeps := fun e s => by
  simp only [keyTranslate]
  split
  · simp
  · split
    · simp
    · split
      next => rfl
      next h => exact wrapK1_pools h
theorem keyGenerate_keeps : keyGenerate.keeps := fun e s => by
  simp only [keyGenerate]
  split
  · simp
  · split
    · simp
    · split
      next => rfl
      next key t ht =>
        have hw := wrapLmk_pools e.func e.func (genKey e.func e.desc e.inp key) [] t
        have ht := drbgDrawMany_some ht
        generalize wrapLmk e.func e.func (genKey e.func e.desc e.inp key) [] t = w at hw
        cases hw with
        | fail h => simpa using h.trans ht
        | rand => exact ht
        | ok h =>
          dsimp only
          split
          next => exact h.trans ht
          next hc =>
            split at hc
            · exact (wrapK1_pools hc).trans (h.trans ht)
            · cases hc; exact h.trans ht
theorem tr34Import_keeps : tr34Import.keeps := fun e s => by
  simp only [tr34Import]
  split
  · simp
  · simp
  · split
    · simp
    · split
      · simp
      · split
        · simp
        next k _ =>
          split
          · rfl
          · have hw := wrapLmk_pools e.func e.func k k.carry s
            generalize wrapLmk e.func e.func k k.carry s = w at hw
            cases hw with
            | rand => rfl
            | fail h => simpa using h
            | ok h => exact h
theorem rawBlock_keeps : rawBlock.keeps := fun e s => by
  simp only [rawBlock]
  split <;> simp
theorem randomGenerate_keeps : randomGenerate.keeps := fun e s => by
  simp only [randomGenerate]
  split
  next => rfl
  next h => exact drbgDraw_some h
@[simp] theorem bulkEnd_pools (e : PayEnv) (n st len : Nat) (s : State) : pools (bulkEnd e n st len s) = pools s := by simp [bulkEnd]
/-- The report of a refused write, where there is one. -/
@[simp] theorem vioOr_pools (o : Option (Nat × VioReport)) (s : State) : pools ((o.map fun b => vioQueue b.2 s).getD s) = pools s := by
  cases o <;> simp
@[simp] theorem bulkMove_pools (e : PayEnv) (moved fault : Nat) (s : State) : pools (bulkMove e moved fault s) = pools s := by
  simp only [bulkMove]
  split
  · split <;> simp
  · simp
  · (repeat' split) <;> simp
@[simp] theorem bulkGo_pools (p : Nat) (input listIn listOut : Bytes) (moved fault : Nat) (s : State) :
    pools (bulkGo p input listIn listOut moved fault s) = pools s := by
  simp only [bulkGo]
  generalize bulkReencrypt = c
  refine pools_of_ite rfl (pools_of_ite (by simp) ?_)
  split
  · simp
  · refine pools_of_ite (by simp) (pools_of_ite (by simp) ?_)
    generalize payRefusal _ p false _ = o
    cases o with
    | some v => simp
    | none =>
      refine pools_of_ite (by simp) (pools_of_ite (by simp) ?_)
      generalize payRefusal _ p false _ = o
      cases o with
      | some v => simp
      | none =>
        have hk := payKeys_step p (core s p).func (mread (core s p).mem 0xFF00 64)
          (c.keys (mread (core s p).mem 0xFF00 64) (padTo (bufLen (core s p).inList) input))
          (hostReads (core s p).func (core s p).inList (payFresh p s))
        dsimp only
        split <;> rename_i h
        · cases hk _ h with | fail h => simp [h]
        · cases hk _ h with | miss h => simp [h]
        · cases hk _ h with | ok h => simp [h]
        · simp
theorem execPinTranslate_pools (core : Nat) (input : List Byte) (fault : Nat) (s : State) :
    keepsPools s (execPinTranslate core input fault s) :=
  (keepsPools_next _ _).2 (payGo_pools pinTranslate_keeps _ _ _ _)
theorem execPinVerifyOffset_pools (core : Nat) (input : List Byte) (fault : Nat) (s : State) :
    keepsPools s (execPinVerifyOffset core input fault s) :=
  (keepsPools_next _ _).2 (payGo_pools pinVerifyOffset_keeps _ _ _ _)
theorem execPinVerifyPvv_pools (core : Nat) (input : List Byte) (fault : Nat) (s : State) :
    keepsPools s (execPinVerifyPvv core input fault s) :=
  (keepsPools_next _ _).2 (payGo_pools pinVerifyPvv_keeps _ _ _ _)
theorem execCvvGenerate_pools (core : Nat) (input : List Byte) (fault : Nat) (s : State) :
    keepsPools s (execCvvGenerate core input fault s) :=
  (keepsPools_next _ _).2 (payGo_pools cvvGenerate_keeps _ _ _ _)
theorem execCvvVerify_pools (core : Nat) (input : List Byte) (fault : Nat) (s : State) : keepsPools s (execCvvVerify core input fault s) :=
  (keepsPools_next _ _).2 (payGo_pools cvvVerify_keeps _ _ _ _)
theorem execArqcVerify_pools (core : Nat) (input : List Byte) (fault : Nat) (s : State) :
    keepsPools s (execArqcVerify core input fault s) :=
  (keepsPools_next _ _).2 (payGo_pools arqcVerify_keeps _ _ _ _)
theorem execMacGenerate_pools (core : Nat) (input : List Byte) (fault : Nat) (s : State) :
    keepsPools s (execMacGenerate core input fault s) :=
  (keepsPools_next _ _).2 (payGo_pools macGenerate_keeps _ _ _ _)
theorem execMacVerify_pools (core : Nat) (input : List Byte) (fault : Nat) (s : State) : keepsPools s (execMacVerify core input fault s) :=
  (keepsPools_next _ _).2 (payGo_pools macVerify_keeps _ _ _ _)
theorem execDukptPinTranslate_pools (core : Nat) (input : List Byte) (fault : Nat) (s : State) :
    keepsPools s (execDukptPinTranslate core input fault s) :=
  (keepsPools_next _ _).2 (payGo_pools dukptPinTranslate_keeps _ _ _ _)
theorem execDukptMacVerify_pools (core : Nat) (input : List Byte) (fault : Nat) (s : State) :
    keepsPools s (execDukptMacVerify core input fault s) :=
  (keepsPools_next _ _).2 (payGo_pools dukptMacVerify_keeps _ _ _ _)
theorem execDukptDecrypt_pools (core : Nat) (input : List Byte) (fault : Nat) (s : State) :
    keepsPools s (execDukptDecrypt core input fault s) :=
  (keepsPools_next _ _).2 (payGo_pools dukptDecrypt_keeps _ _ _ _)
theorem execFf1Tokenize_pools (core : Nat) (input : List Byte) (fault : Nat) (s : State) :
    keepsPools s (execFf1Tokenize core input fault s) :=
  (keepsPools_next _ _).2 (payGo_pools (ffCmd_keeps _ _) _ _ _ _)
theorem execFf1Detokenize_pools (core : Nat) (input : List Byte) (fault : Nat) (s : State) :
    keepsPools s (execFf1Detokenize core input fault s) :=
  (keepsPools_next _ _).2 (payGo_pools (ffCmd_keeps _ _) _ _ _ _)
theorem execKeyImport_pools (core : Nat) (input : List Byte) (fault : Nat) (s : State) : keepsPools s (execKeyImport core input fault s) :=
  (keepsPools_next _ _).2 (payGo_pools keyImport_keeps _ _ _ _)
theorem execKeyExport_pools (core : Nat) (fault : Nat) (s : State) : keepsPools s (execKeyExport core fault s) :=
  (keepsPools_next _ _).2 (payGo_pools keyExport_keeps _ _ _ _)
theorem execKeyTranslate_pools (core : Nat) (input : List Byte) (fault : Nat) (s : State) :
    keepsPools s (execKeyTranslate core input fault s) :=
  (keepsPools_next _ _).2 (payGo_pools keyTranslate_keeps _ _ _ _)
theorem genNeed_keeps : genNeed.keeps := fun e s => by
  simp only [genNeed]
  split
  · exact keyGenerate_keeps e s
  · rfl
theorem execKeyGenerate_pools (core : Nat) (input : List Byte) (fault : Nat) (s : State) :
    keepsPools s (execKeyGenerate core input fault s) :=
  (keepsPools_next _ _).2 (pools_of_ite (payMiss_pools _ _ _) (payGo_pools genNeed_keeps _ _ _ _))
theorem execTr34Import_pools (core : Nat) (input : List Byte) (fault : Nat) (s : State) :
    keepsPools s (execTr34Import core input fault s) :=
  (keepsPools_next _ _).2 (payGo_pools tr34Import_keeps _ _ _ _)
@[simp] theorem execBulkReencrypt_pools (core : Nat) (input listIn listOut : List Byte) (moved fault : Nat) (s : State) :
    keepsPools s (execBulkReencrypt core input listIn listOut moved fault s) := by simp [execBulkReencrypt]
theorem execRawBlock_pools (core : Nat) (input listIn listOut : List Byte) (fault : Nat) (s : State) :
    keepsPools s (execRawBlock core input listIn listOut fault s) :=
  (keepsPools_next _ _).2 (pools_of_ite (payEnd_pools _ _ _ _ _) (payGo_pools rawBlock_keeps _ _ _ _))
theorem execRandomGenerate_pools (core : Nat) (fault : Nat) (s : State) : keepsPools s (execRandomGenerate core fault s) :=
  (keepsPools_next _ _).2 (payGo_pools randomGenerate_keeps _ _ _ _)
theorem execCustom_pools (core : Nat) (s : State) : keepsPools s (execCustom core s) := by
  simp only [execCustom]
  split
  · simp
  · split
    · simp
    · split
      · simp
      · split
        · simp
        · split
          · split <;> simp
          · exact fun t ht => (execOpPrun_pools _ _ t ht).trans (by simp)

/-! ### Tamper: what its operations leave of the pools -/

@[simp] theorem modMon_pools (m : Nat) (g : Monitor → Monitor) (s : State) : pools (modMon m g s) = pools s := by simp [modMon]
@[simp] theorem guardErase_pools (index : Nat) (s : State) : pools (guardErase index s) = pools s := by simp [guardErase]
@[simp] theorem tamperFire_pools (index m cls value : Nat) (test : Option Bool) (s : State) :
    pools (tamperFire index m cls value test s) = pools s := by
  simp only [tamperFire]
  (repeat' split) <;> simp
@[simp] theorem alarmStep_pools (m value : Nat) (sampled : Bool) (s : State) :
    pools (alarmStep m value sampled s) = pools s := by simp [alarmStep]
@[simp] theorem disStep_pools (m : Nat) (sampled : Bool) (s : State) : pools (disStep m sampled s) = pools s := by simp [disStep]
@[simp] theorem injDetect_pools (m : Nat) (d1 d2 : Det) (s : State) : pools (injDetect m d1 d2 s).2.2.2 = pools s := by
  simp only [injDetect]
  (repeat' split) <;> simp
@[simp] theorem detectStep_pools (m value : Nat) (sampled : Bool) (d1 d2 : Det) (s : State) :
    pools (detectStep m value sampled d1 d2 s) = pools s := by simp [detectStep]
@[simp] theorem meshAdvance_pools (m : Nat) (s : State) : pools (meshAdvance m s) = pools s := by simp [meshAdvance]
@[simp] theorem execTamperSample_pools (mon det1 det2 value : Nat) (sensed : List Nat) (s : State) :
    keepsPools s (execTamperSample mon det1 det2 value sensed s) := by simp [execTamperSample]
@[simp] theorem execTamperComparatorEdge_pools (mon det1 det2 value : Nat) (glitch : Bool) (s : State) :
    keepsPools s (execTamperComparatorEdge mon det1 det2 value glitch s) := by simp [execTamperComparatorEdge]
@[simp] theorem execDisagreementWindowClose_pools (mon value : Nat) (s : State) :
    keepsPools s (execDisagreementWindowClose mon value s) := by simp [execDisagreementWindowClose]
@[simp] theorem execLockOrder_pools (s : State) : keepsPools s (execLockOrder s) := by
  simp only [execLockOrder]
  (repeat' split) <;> simp
@[simp] theorem serviceErase_pools (s : State) : pools (serviceErase s) = pools s := by simp [serviceErase]
@[simp] theorem execEraseOrder_pools (s : State) : keepsPools s (execEraseOrder s) := by simp [execEraseOrder]
@[simp] theorem execLockedClosingCompletions_pools (s : State) :
    keepsPools s (execLockedClosingCompletions s) := by simp [execLockedClosingCompletions]
@[simp] theorem execPwrfailHoldExpiry_pools (s : State) : keepsPools s (execPwrfailHoldExpiry s) := by
  unfold execPwrfailHoldExpiry
  split <;> simp
@[simp] theorem execUnlockNewChallenge_pools (s : State) : keepsPools s (execUnlockNewChallenge s) := by simp [execUnlockNewChallenge]
@[simp] theorem unlockEnd_pools (r : Nat) (s : State) : pools (unlockEnd r s) = pools s := by simp [unlockEnd]
theorem execUnlockGo_pools (s : State) : keepsPools s (execUnlockGo s) := by
  simp only [execUnlockGo, keepsPools_next, regWrote_pools]
  split
  · rfl
  · split
    · simp
    · split
      · simp
      · split <;> rename_i h <;> simp [pools_snd h]
@[simp] theorem modeServe_pools (s : State) : pools (modeServe s) = pools s := by simp [modeServe]
@[simp] theorem execUnlockComplete_pools (data : List Byte) (fail : Bool) (s : State) : keepsPools s (execUnlockComplete data fail s) := by
  simp only [execUnlockComplete]
  (repeat' split) <;> simp
@[simp] theorem execCresLow_pools (below : Bool) (s : State) : keepsPools s (execCresLow below s) := by simp [execCresLow]

/-! ### Custody: what its operations leave of the pools -/

@[simp] theorem mgmtMiss_pools (p fn : Nat) (s : State) : pools (mgmtMiss p fn s) = pools s := by simp [mgmtMiss]
theorem mgmtKem_pools {op p fault : Nat} {s t : State} (h : mgmtKem op p fault s = some t) : pools t = pools s := by
  unfold mgmtKem at h
  split at h
  · cases h
  · split at h
    · cases h; rfl
    · split at h
      next hi => cases h; simp [pools_snd hi]
      next hi => split at h <;> cases h; simp [pools_snd hi]
/-- How a management command's work ends leaves the pools, as do the effects to come. -/
inductive MgmtOut.Keeps (s : State) : MgmtOut → Prop
  | fail {st : Nat} {t : State} (h : pools t = pools s) : Keeps s (.fail st t)
  | rand : Keeps s .rand
  | wait : Keeps s .wait
  | miss {fn : Nat} : Keeps s (.miss fn)
  | done {out : Bytes} {commit : State → State} {t : State} (h : pools t = pools s) (hc : ∀ u, pools (commit u) = pools u) :
    Keeps s (.done out commit t)
/-- The command's own work leaves the pools. -/
def MgmtCmd.keeps (c : MgmtCmd) : Prop := ∀ e s, (c.run e s).Keeps s
theorem mgmtRun_pools {c : MgmtCmd} (hc : c.keeps) (e : MgmtEnv) (fault : Nat) {s s1 : State} (h1 : pools s1 = pools s) :
    pools (mgmtRun c e fault s s1) = pools s := by
  have hr := hc e s1
  simp only [mgmtRun]
  split
  · simp
  · rfl
  · simp
  next hk => simp [mgmtKem_pools hk, h1]
  next hk => simp [mgmtKem_pools hk, h1]
  next ho _ => rw [ho] at hr; cases hr with | fail h => simp [h, h1]
  next ho _ =>
    rw [ho] at hr
    cases hr with
    | done ht hu =>
      split
      · simp [ht, h1]
      · split <;> rename_i h <;> simp [pools_snd h, ht, h1, hu]
theorem mgmtGo_pools {c : MgmtCmd} (hc : c.keeps) (p : Nat) (input : Bytes) (fault : Nat) (s : State) :
    pools (mgmtGo c p input fault s) = pools s := by
  simp only [mgmtGo]
  split
  · rfl
  · split
    · simp
    · split
      · simp
      · split
        · simp
        · generalize (if (payRead p fault (modCore p kresDone s)).1 ≠ 0 then _ else _ : Nat) = st
          split
          · simp
          · split
            · simp
            · exact (mgmtRun_pools hc _ _ (by simp)).trans (by simp)
@[simp] theorem officerSet_pools (e : MgmtEnv) (i role : Nat) (o : Officer) (s : State) :
    pools (officerSet e i role o s) = pools s := by simp [officerSet]
theorem officerEnrol_keeps : officerEnrol.keeps := fun e s => by
  simp only [officerEnrol]
  split
  · exact .fail rfl
  · exact .done rfl fun _ => by simp
theorem officerRevoke_keeps : officerRevoke.keeps := fun e s => by
  simp only [officerRevoke]
  split
  · exact .fail rfl
  · exact .done rfl fun _ => by simp
theorem attest_keeps : attest.keeps := fun _ _ => .done rfl fun _ => rfl
theorem rejoinSendCmd_keeps : rejoinSendCmd.keeps := fun e s => by
  simp only [rejoinSendCmd]
  split
  · exact .fail rfl
  · split
    · split
      · exact .miss
      · exact .wait
    · split
      next => exact .rand
      next h => exact .done (drbgDraw_some h) fun _ => by simp
theorem cerBeginCmd_keeps (op : Nat) (comp : Bool) (vf : Nat) : (cerBeginCmd op comp vf).keeps := fun e s => by
  simp only [cerBeginCmd, cerBegin]
  split
  · exact .fail rfl
  · split
    · exact .fail rfl
    · split
      next => exact .rand
      next h => exact .done (drbgDraw_some h) fun _ => by simp
@[simp] theorem lmkInstall_pools (op num f : Nat) (lmk nonces : Bytes) (p : Nat) (s : State) :
    pools (lmkInstall op num f lmk nonces p s) = pools s := by
  simp [lmkInstall]
theorem cerFinish_keeps (op num f : Nat) (lmk : Bytes) (e : MgmtEnv) (s : State) : (cerFinish op num f lmk e s).Keeps s := by
  unfold cerFinish
  split
  · exact .fail rfl
  · split
    next => exact .rand
    next h => exact .done (drbgDraw_some h) fun _ => by simp
theorem lmkKemFinish_keeps (num : Nat) (ct w k : Bytes) : (lmkKemFinish num ct w k).keeps := fun e s => by
  simp only [lmkKemFinish]
  split
  · exact .fail rfl
  · split
    · exact .fail rfl
    · split
      · exact .miss
      · split
        · exact .fail rfl
        · exact cerFinish_keeps _ _ _ _ _ _
theorem lmkCompAdd_keeps (num : Nat) (ct w k : Bytes) (o : Nat) (sig : Bytes) : (lmkCompAdd num ct w k o sig).keeps := fun e s => by
  simp only [lmkCompAdd]
  split
  · exact .fail rfl
  · split
    · exact .fail rfl
    · split
      · exact .fail rfl
      · split
        · exact .fail rfl
        · split
          · exact .fail rfl
          · split
            · exact .fail rfl
            · exact .done rfl fun _ => by simp
theorem lmkCompFinish_keeps (num : Nat) (k : Bytes) : (lmkCompFinish num k).keeps := fun e s => by
  simp only [lmkCompFinish]
  split
  · exact .fail rfl
  · split
    · exact .fail rfl
    · split
      · exact .miss
      · split
        · exact .fail rfl
        · split
          · exact .fail rfl
          · exact cerFinish_keeps _ _ _ _ _ _
@[simp] theorem lmkRecord_pools (op f n g : Nat) (eff : Bytes) (p : Nat) (s : State) :
    pools (lmkRecord op f n g eff p s) = pools s := by simp [lmkRecord]
theorem lmkRetire_keeps (vf : Nat) : (lmkRetire vf).keeps := fun e s => by
  simp only [lmkRetire]
  split
  · exact .fail rfl
  · split
    · exact .miss
    · split
      · exact .done rfl fun _ => by simp
      · split
        next => exact .rand
        next h => exact .done (drbgDraw_some h) fun _ => by simp
theorem lmkUnbindCmd_keeps (vf : Nat) : (lmkUnbindCmd vf).keeps := fun e s => by
  simp only [lmkUnbindCmd]
  split
  · exact .fail rfl
  · split
    next => exact .rand
    next h => exact .done (drbgDraw_some h) fun _ => by simp
theorem ceremonyAbort_keeps (num : Nat) : (ceremonyAbort num).keeps := fun e s => by
  simp only [ceremonyAbort]
  split
  · exact .fail rfl
  · exact .done rfl fun _ => by simp
theorem needOut_keeps (vf st : Nat) (s : State) : (needOut vf st s).Keeps s := by
  unfold needOut
  split
  · exact .miss
  · exact .fail rfl
theorem wrapFor_keeps {vf : Nat} {k : KEnt} {opts : List (Nat × Bytes)} {s : State} {f : Bytes → State → MgmtOut}
    (hf : ∀ b t, pools t = pools s → (f b t).Keeps s) : (wrapFor vf k opts s f).Keeps s := by
  have hw := wrapLmk_pools 0 vf k (opts ++ k.carry) s
  unfold wrapFor
  generalize wrapLmk 0 vf k (opts ++ k.carry) s = w at hw
  cases hw with
  | rand => exact .rand
  | fail h => exact .fail h
  | ok h => exact hf _ _ h
theorem keyMarkSensitive_keeps (vf : Nat) (block : Bytes) : (keyMarkSensitive vf block).keeps := fun e s => by
  simp only [keyMarkSensitive]
  split
  · exact .fail rfl
  · split
    · split
      · exact .fail rfl
      · exact .fail (by simp)
      · split
        · exact .fail rfl
        · split
          · exact .fail rfl
          · exact wrapFor_keeps fun b t ht => .done ht fun _ => by simp
    · exact needOut_keeps _ _ _
theorem pairMat_pools {alg p q x : Nat} {s : State} {r : Bytes × State} (h : pairMat alg p q x s = some r) : pools r.2 = pools s := by
  unfold pairMat at h
  split at h <;> obtain ⟨y, hy, rfl⟩ := Option.map_eq_some_iff.1 h
  · rfl
  · have := drbgDraw_pools hy
    exact this
theorem MgmtOut.Keeps.congr {s t : State} {o : MgmtOut} (k : o.Keeps s) (h : pools s = pools t) : o.Keeps t := by
  cases k with
  | fail k => exact .fail (k.trans h)
  | rand => exact .rand
  | wait => exact .wait
  | miss => exact .miss
  | done k hc => exact .done (k.trans h) hc
theorem keyPairGenerate_keeps (vf alg usage mode expo kvn p q x : Nat) : (keyPairGenerate vf alg usage mode expo kvn p q x).keeps := fun e s => by
  simp only [keyPairGenerate]
  split
  · exact .fail rfl
  · split
    · exact .fail rfl
    · split
      · split
        · exact .fail rfl
        · split
          next =>
            split
            · exact .wait
            · exact .rand
          next h => exact (wrapFor_keeps fun b t ht => .done ht fun _ => by simp).congr (pairMat_pools h)
      · exact needOut_keeps _ _ _
theorem budgetRelease_keeps (slots : List Nat) : (budgetRelease slots).keeps := fun e s => by
  simp only [budgetRelease]
  split
  · exact .fail rfl
  · exact .done rfl fun _ => by simp
theorem tamperSetClass_keeps : tamperSetClass.keeps := fun _ _ => .done rfl fun _ => by simp
theorem tamperEncBurn_keeps : tamperEncBurn.keeps := fun e s => by
  simp only [tamperEncBurn]
  split
  · exact .fail rfl
  · exact .done rfl fun _ => by simp
theorem progKeySet_keeps : progKeySet.keeps := fun e s => by
  simp only [progKeySet]
  split
  · exact .fail rfl
  · exact .done rfl fun _ => by simp
theorem progApprove_keeps : progApprove.keeps := fun e s => by
  simp only [progApprove]
  split
  · exact .fail rfl
  · split
    · exact .fail rfl
    · split
      · exact .fail rfl
      · exact .done rfl fun _ => by simp
theorem progRevoke_keeps (fn slot : Nat) : (progRevoke fn slot).keeps := fun _ _ => .done rfl fun _ => by simp
theorem epochSet_keeps : epochSet.keeps := fun e s => by
  simp only [epochSet]
  split
  · exact .fail rfl
  · exact .done rfl fun _ => by simp
@[simp] theorem exportBad'_pools (s : State) (ns : List Nat) : pools (exportBad' s ns) = pools s := by simp [exportBad']
@[simp] theorem exportInj_pools (ns : List Nat) (s : State) : pools (exportInj ns s).2 = pools s := by
  refine pools_foldl_snd (fun acc n => ?_) _ _
  split
  next h => simp [pools_snd h]
  next h => simp [pools_snd h]
  next h => split <;> rename_i k <;> simp [pools_snd k, pools_snd h]
theorem auditExport_keeps (limit : Nat) : (auditExport limit).keeps := fun e s => by
  simp only [auditExport]
  split
  · exact .fail rfl
  · split
    · exact .wait
    · exact .done (by simp) fun _ => by simp
@[simp] theorem logClear_pools (e : MgmtEnv) (s : State) : pools (logClear e s) = pools s := by
  simp only [logClear]
  (repeat' split) <;> simp
theorem auditClear_keeps : auditClear.keeps := fun e s => by
  simp only [auditClear]
  split
  · exact .wait
  · split
    · exact .fail rfl
    · exact .done rfl fun _ => by simp
theorem pairBind_keeps : pairBind.keeps := fun e s => by
  simp only [pairBind]
  split
  · exact .fail rfl
  · refine .done rfl fun _ => ?_
    simp only [payState_pools, svcUpdate_pools, pools_ite, modLatch_pools, modPar_pools, ite_self]
theorem pairUnbind_keeps : pairUnbind.keeps := fun e s => by
  simp only [pairUnbind]
  split
  · exact .fail rfl
  · exact .done rfl fun _ => by simp
theorem execOfficerEnrol_pools (core : Nat) (input : List Byte) (fault : Nat) (s : State) :
    keepsPools s (execOfficerEnrol core input fault s) :=
  (keepsPools_next _ _).2 (mgmtGo_pools officerEnrol_keeps _ _ _ _)
theorem execOfficerRevoke_pools (core : Nat) (input : List Byte) (fault : Nat) (s : State) :
    keepsPools s (execOfficerRevoke core input fault s) :=
  (keepsPools_next _ _).2 (mgmtGo_pools officerRevoke_keeps _ _ _ _)
theorem execAttest_pools (core : Nat) (input : List Byte) (fault : Nat) (s : State) : keepsPools s (execAttest core input fault s) :=
  (keepsPools_next _ _).2 (mgmtGo_pools attest_keeps _ _ _ _)
theorem execRejoinSend_pools (core : Nat) (input : List Byte) (fault : Nat) (s : State) :
    keepsPools s (execRejoinSend core input fault s) :=
  (keepsPools_next _ _).2 (mgmtGo_pools rejoinSendCmd_keeps _ _ _ _)
theorem execLmkKemBegin_pools (core : Nat) (input : List Byte) (vf fault : Nat) (s : State) :
    keepsPools s (execLmkKemBegin core input vf fault s) :=
  (keepsPools_next _ _).2 (mgmtGo_pools (cerBeginCmd_keeps _ _ _) _ _ _ _)
theorem execLmkKemFinish_pools (core : Nat) (input : List Byte) (num : Nat) (ct wrapped kcv : List Byte) (fault : Nat) (s : State) :
    keepsPools s (execLmkKemFinish core input num ct wrapped kcv fault s) :=
  (keepsPools_next _ _).2 (mgmtGo_pools (lmkKemFinish_keeps _ _ _ _) _ _ _ _)
theorem execLmkCompBegin_pools (core : Nat) (input : List Byte) (vf fault : Nat) (s : State) :
    keepsPools s (execLmkCompBegin core input vf fault s) :=
  (keepsPools_next _ _).2 (mgmtGo_pools (cerBeginCmd_keeps _ _ _) _ _ _ _)
theorem execLmkCompAdd_pools (core : Nat) (input : List Byte) (num : Nat) (ct wrapped kcv : List Byte) (officer : Nat) (sig : List Byte) (fault : Nat) (s : State) :
    keepsPools s (execLmkCompAdd core input num ct wrapped kcv officer sig fault s) :=
  (keepsPools_next _ _).2 (mgmtGo_pools (lmkCompAdd_keeps _ _ _ _ _ _) _ _ _ _)
theorem execLmkCompFinish_pools (core : Nat) (input : List Byte) (num : Nat) (kcv : List Byte) (fault : Nat) (s : State) :
    keepsPools s (execLmkCompFinish core input num kcv fault s) :=
  (keepsPools_next _ _).2 (mgmtGo_pools (lmkCompFinish_keeps _ _) _ _ _ _)
theorem execLmkRetire_pools (core : Nat) (input : List Byte) (vf fault : Nat) (s : State) :
    keepsPools s (execLmkRetire core input vf fault s) :=
  (keepsPools_next _ _).2 (mgmtGo_pools (lmkRetire_keeps _) _ _ _ _)
theorem execLmkUnbind_pools (core : Nat) (input : List Byte) (vf fault : Nat) (s : State) :
    keepsPools s (execLmkUnbind core input vf fault s) :=
  (keepsPools_next _ _).2 (mgmtGo_pools (lmkUnbindCmd_keeps _) _ _ _ _)
theorem execCeremonyAbort_pools (core : Nat) (input : List Byte) (num fault : Nat) (s : State) :
    keepsPools s (execCeremonyAbort core input num fault s) :=
  (keepsPools_next _ _).2 (mgmtGo_pools (ceremonyAbort_keeps _) _ _ _ _)
theorem execKeyMarkSensitive_pools (core : Nat) (input : List Byte) (vf : Nat) (block : List Byte) (fault : Nat) (s : State) :
    keepsPools s (execKeyMarkSensitive core input vf block fault s) :=
  (keepsPools_next _ _).2 (mgmtGo_pools (keyMarkSensitive_keeps _ _) _ _ _ _)
theorem execKeyPairGenerate_pools (core : Nat) (input : List Byte) (vf alg usage mode expo kvn p q e fault : Nat) (s : State) :
    keepsPools s (execKeyPairGenerate core input vf alg usage mode expo kvn p q e fault s) :=
  (keepsPools_next _ _).2 (mgmtGo_pools (keyPairGenerate_keeps _ _ _ _ _ _ _ _ _) _ _ _ _)
theorem execBudgetRelease_pools (core : Nat) (input : List Byte) (slots : List Nat) (fault : Nat) (s : State) :
    keepsPools s (execBudgetRelease core input slots fault s) :=
  (keepsPools_next _ _).2 (mgmtGo_pools (budgetRelease_keeps _) _ _ _ _)
theorem execTamperSetClass_pools (core : Nat) (input : List Byte) (fault : Nat) (s : State) :
    keepsPools s (execTamperSetClass core input fault s) :=
  (keepsPools_next _ _).2 (mgmtGo_pools tamperSetClass_keeps _ _ _ _)
theorem execTamperEncBurn_pools (core : Nat) (input : List Byte) (fault : Nat) (s : State) :
    keepsPools s (execTamperEncBurn core input fault s) :=
  (keepsPools_next _ _).2 (mgmtGo_pools tamperEncBurn_keeps _ _ _ _)
theorem execProgKeySet_pools (core : Nat) (input : List Byte) (fault : Nat) (s : State) :
    keepsPools s (execProgKeySet core input fault s) :=
  (keepsPools_next _ _).2 (mgmtGo_pools progKeySet_keeps _ _ _ _)
theorem execProgApprove_pools (core : Nat) (input : List Byte) (fault : Nat) (s : State) :
    keepsPools s (execProgApprove core input fault s) :=
  (keepsPools_next _ _).2 (mgmtGo_pools progApprove_keeps _ _ _ _)
theorem execProgRevoke_pools (core : Nat) (input : List Byte) (fn slot fault : Nat) (s : State) :
    keepsPools s (execProgRevoke core input fn slot fault s) :=
  (keepsPools_next _ _).2 (mgmtGo_pools (progRevoke_keeps _ _) _ _ _ _)
theorem execAuditExport_pools (core : Nat) (input : List Byte) (limit fault : Nat) (s : State) :
    keepsPools s (execAuditExport core input limit fault s) :=
  (keepsPools_next _ _).2 (mgmtGo_pools (auditExport_keeps _) _ _ _ _)
theorem execAuditClear_pools (core : Nat) (input : List Byte) (fault : Nat) (s : State) :
    keepsPools s (execAuditClear core input fault s) :=
  (keepsPools_next _ _).2 (mgmtGo_pools auditClear_keeps _ _ _ _)
theorem execEpochSet_pools (core : Nat) (input : List Byte) (fault : Nat) (s : State) : keepsPools s (execEpochSet core input fault s) :=
  (keepsPools_next _ _).2 (mgmtGo_pools epochSet_keeps _ _ _ _)
theorem execPairBind_pools (core : Nat) (input : List Byte) (fault : Nat) (s : State) : keepsPools s (execPairBind core input fault s) :=
  (keepsPools_next _ _).2 (mgmtGo_pools pairBind_keeps _ _ _ _)
theorem execPairUnbind_pools (core : Nat) (input : List Byte) (fault : Nat) (s : State) :
    keepsPools s (execPairUnbind core input fault s) :=
  (keepsPools_next _ _).2 (mgmtGo_pools pairUnbind_keeps _ _ _ _)

/-! ### KeyStore: what its operations leave of the pools -/

@[simp] theorem missDirRead_pools (m : Miss) (s : State) : pools (missDirRead m s) = pools s := by simp [missDirRead]
@[simp] theorem missBegin_pools (m : Miss) (s : State) : pools (missBegin m s) = pools s := by
  simp only [missBegin]
  split
  · simp
  · split
    · simp
    · split <;> rename_i h <;> simp [pools_snd h]
@[simp] theorem execKeyMissStart_pools (id : Nat) (s : State) : keepsPools s (execKeyMissStart id s) := by
  simp only [execKeyMissStart]
  (repeat' split) <;> simp
@[simp] theorem missBlockRead_pools (m : Miss) (ptr len : Nat) (s : State) :
    pools (missBlockRead m ptr len s) = pools s := by simp [missBlockRead]
@[simp] theorem missDirGot_pools (id : Nat) (data : Bytes) (s : State) : pools (missDirGot id data s) = pools s := by
  unfold missDirGot
  split <;> simp
@[simp] theorem execKeyDirArrival_pools (id : Nat) (data : List Byte) (s : State) : keepsPools s (execKeyDirArrival id data s) := by
  unfold execKeyDirArrival
  split <;> simp
@[simp] theorem missBlockGot_pools (id : Nat) (data : Bytes) (s : State) : pools (missBlockGot id data s) = pools s := by
  simp only [missBlockGot]
  (repeat' split) <;> simp
@[simp] theorem execKeyBlockArrival_pools (id : Nat) (data : List Byte) (s : State) : keepsPools s (execKeyBlockArrival id data s) := by
  unfold execKeyBlockArrival
  split <;> simp
theorem execKeyInstall_pools (id : Nat) (s : State) : keepsPools s (execKeyInstall id s) := by
  simp only [execKeyInstall, keepsPools_next]
  split
  · rfl
  · split
    · split
      next h => simp [keyInstall_pools h]
      next => simp
    · rfl
@[simp] theorem execKeyFetchTimeout_pools (id : Nat) (s : State) : keepsPools s (execKeyFetchTimeout id s) := by
  unfold execKeyFetchTimeout
  split <;> simp
@[simp] theorem execKeyFetchFail_pools (id : Nat) (s : State) : keepsPools s (execKeyFetchFail id s) := by
  simp only [execKeyFetchFail]
  (repeat' split) <;> simp
@[simp] theorem vaultLoaded_pools (f : Nat) (s : State) : pools (vaultLoaded f s) = pools s := by simp [vaultLoaded]
@[simp] theorem execVaultBlobArrival_pools (fn slot : Nat) (data : List Byte) (s : State) :
    keepsPools s (execVaultBlobArrival fn slot data s) := by simp [execVaultBlobArrival]
@[simp] theorem keyDirSet_pools (fn reg value : Nat) (s : State) : pools (keyDirSet fn reg value s) = pools s := by simp [keyDirSet]
@[simp] theorem execKeyDirWrite_pools (fn reg value : Nat) (s : State) :
    keepsPools s (execKeyDirWrite fn reg value s) := by simp [execKeyDirWrite]
@[simp] theorem execKeySlotDrop_pools (lane index : Nat) (s : State) :
    keepsPools s (execKeySlotDrop lane index s) := by simp [execKeySlotDrop]
@[simp] theorem execKstCtlWrite_pools (value : Nat) (s : State) : keepsPools s (execKstCtlWrite value s) := by simp [execKstCtlWrite]
@[simp] theorem execMissWindowEnd_pools (fn : Nat) (s : State) : keepsPools s (execMissWindowEnd fn s) := by simp [execMissWindowEnd]
@[simp] theorem execBudgetSlotExpiry_pools (slot : Nat) (s : State) : keepsPools s (execBudgetSlotExpiry slot s) := by
  unfold execBudgetSlotExpiry
  split <;> simp

/-! ### Lifecycle: what its operations leave of the pools -/

theorem execChalIssue_pools (slot : Nat) (s : State) : keepsPools s (execChalIssue slot s) := by
  simp only [execChalIssue, keepsPools_next, regWrote_pools]
  split
  · rfl
  · split
    next h => simp [drbgDraw_some h]
    next => rfl
@[simp] theorem execChallengeExpiry_pools (slot : Nat) (s : State) :
    keepsPools s (execChallengeExpiry slot s) := by simp [execChallengeExpiry]
@[simp] theorem rootsIf_pools (s : State) : pools (rootsIf s) = pools s := by simp [rootsIf]
@[simp] theorem reqEnd_pools (r : Nat) (s : State) : pools (reqEnd r s) = pools s := by simp [reqEnd]
@[simp] theorem reqFail_pools (r : Nat) (s : State) : pools (reqFail r s) = pools s := by simp [reqFail]
@[simp] theorem ingressInj_pools (s : State) : pools (ingressInj s) = pools s := by
  unfold ingressInj
  split <;> rename_i h <;> simp [pools_snd h]
/-- The request's effect leaves the pools. -/
def ReqKind.keeps (k : ReqKind) : Prop := ∀ q s r t, k.run q s = some (r, t) → pools t = pools s
theorem reqGo_pools {k : ReqKind} (hk : k.keeps) (data : Bytes) (fail : Bool) (s : State) : pools (reqGo k data fail s) = pools s := by
  simp only [reqGo]
  split
  · rfl
  · split <;> rename_i h1
    · simp [pools_snd h1]
    · split
      · simp [pools_snd h1]
      · split
        · split
          · simp [pools_snd h1]
          · split <;> rename_i h2
            · simp [pools_snd h2, pools_snd h1]
            · split
              · split
                next h3 => simp [hk _ _ _ _ h3, pools_snd h2, pools_snd h1]
                next => simp [pools_snd h2, pools_snd h1]
              · simp [pools_snd h2, pools_snd h1]
        · simp [pools_snd h1]
@[simp] theorem transitGo_pools (op index : Nat) (s : State) : pools (transitGo op index s) = pools s := by simp [transitGo]
theorem transition_keeps (op : Nat) (f : Lcs → Bool) (i : State → Nat) (l : Nat) (g : State → List Signer) : (transition op f i l g).keeps := by
  intro q s r t h
  cases h
  simp
theorem provision_keeps : provision.keeps := by
  intro q s r t h
  simp only [provision] at h
  split at h
  · cases h
  next hd => cases h; simp [drbgDraw_some hd]
theorem deploy_keeps : deploy.keeps := by
  intro q s r t h
  simp only [deploy] at h
  split at h
  · cases h
  next hd => cases h; simp [drbgDraw_some hd]
theorem debugOpen_keeps : debugOpen.keeps := by
  intro q s r t h
  cases h
  simp
theorem debugClose_keeps : debugClose.keeps := by
  intro q s r t h
  cases h
  simp
theorem rejoinBegin_keeps : rejoinBegin.keeps := by
  intro q s r t h
  simp only [rejoinBegin] at h
  split at h
  · cases h
  next hd => split at h <;> rename_i hw <;> cases h <;> simp [pools_snd hw, drbgDraw_some hd]
@[simp] theorem finishTable_pools (s : State) : pools (finishTable s) = pools s := by
  unfold finishTable
  split <;> simp
@[simp] theorem segInstall_pools (s : State) (b : Bytes) : pools (segInstall s b) = pools s := by
  unfold segInstall
  split <;> simp
@[simp] theorem lmkRejoin_pools (s : State) (x : Nat × Nat × Nat × Nat × Bytes) : pools (lmkRejoin s x) = pools s := by simp [lmkRejoin]
@[simp] theorem vaultRewrite_pools (s : State) (f : Nat) : pools (vaultRewrite s f) = pools s := by simp [vaultRewrite]
@[simp] theorem finishEnd_pools (partner : Bytes) (count : Nat) (alone : Bool) (s : State) :
    pools (finishEnd partner count alone s) = pools s := by simp [finishEnd]
theorem rejoinFinish_keeps : rejoinFinish.keeps := by
  intro q s r t h
  simp only [rejoinFinish] at h
  split at h
  · cases h
  next hd =>
    split at h
    · cases h; simp [drbgDraw_some hd]
    · split at h <;> cases h <;> simp [drbgDraw_some hd]
theorem inject_keeps : inject.keeps := by
  intro q s r t h
  cases h
  simp
theorem returnReq_keeps : return_.keeps := transition_keeps _ _ _ _ _
theorem redeploy_keeps : redeploy.keeps := transition_keeps _ _ _ _ _
theorem retire_keeps : retire.keeps := transition_keeps _ _ _ _ _
theorem execProvision_pools (data : List Byte) (fail : Bool) (s : State) : keepsPools s (execProvision data fail s) := by
  rw [execProvision, keepsPools_next, regWrote_pools, reqGo_pools provision_keeps]
theorem execDeploy_pools (data : List Byte) (fail : Bool) (s : State) : keepsPools s (execDeploy data fail s) := by
  rw [execDeploy, keepsPools_next, regWrote_pools, reqGo_pools deploy_keeps]
theorem execReturn_pools (data : List Byte) (fail : Bool) (s : State) : keepsPools s (execReturn data fail s) := by
  rw [execReturn, keepsPools_next, regWrote_pools, reqGo_pools returnReq_keeps]
theorem execRedeploy_pools (data : List Byte) (fail : Bool) (s : State) : keepsPools s (execRedeploy data fail s) := by
  rw [execRedeploy, keepsPools_next, regWrote_pools, reqGo_pools redeploy_keeps]
theorem execRetire_pools (data : List Byte) (fail : Bool) (s : State) : keepsPools s (execRetire data fail s) := by
  rw [execRetire, keepsPools_next, regWrote_pools, reqGo_pools retire_keeps]
theorem execDebugOpen_pools (data : List Byte) (fail : Bool) (s : State) : keepsPools s (execDebugOpen data fail s) := by
  rw [execDebugOpen, keepsPools_next, regWrote_pools, reqGo_pools debugOpen_keeps]
theorem execDebugClose_pools (data : List Byte) (fail : Bool) (s : State) : keepsPools s (execDebugClose data fail s) := by
  rw [execDebugClose, keepsPools_next, regWrote_pools, reqGo_pools debugClose_keeps]
theorem execRejoinBegin_pools (data : List Byte) (fail : Bool) (s : State) : keepsPools s (execRejoinBegin data fail s) := by
  rw [execRejoinBegin, keepsPools_next, regWrote_pools, reqGo_pools rejoinBegin_keeps]
theorem execRejoinFinish_pools (data : List Byte) (fail : Bool) (s : State) : keepsPools s (execRejoinFinish data fail s) := by
  rw [execRejoinFinish, keepsPools_next, regWrote_pools, reqGo_pools rejoinFinish_keeps]
theorem execInject_pools (data : List Byte) (fail : Bool) (s : State) : keepsPools s (execInject data fail s) := by
  rw [execInject, keepsPools_next, regWrote_pools, reqGo_pools inject_keeps]
@[simp] theorem execDebugLifeExpiry_pools (s : State) : keepsPools s (execDebugLifeExpiry s) := by simp [execDebugLifeExpiry]
@[simp] theorem execTokenHoldExpiry_pools (s : State) : keepsPools s (execTokenHoldExpiry s) := by
  unfold execTokenHoldExpiry
  split <;> simp
@[simp] theorem execRejoinPackageExpiry_pools (s : State) : keepsPools s (execRejoinPackageExpiry s) := by
  unfold execRejoinPackageExpiry
  split <;> simp

/-! ### MgmtBus: what its operations leave of the pools -/

@[simp] theorem cccReply_pools (d : Bytes) (s : State) : pools (cccReply d s) = pools s := by simp [cccReply]
@[simp] theorem execEntdaa_pools (addr : Nat) (s : State) : keepsPools s (execEntdaa addr s) := by simp [execEntdaa]
@[simp] theorem execRstdaa_pools (s : State) : keepsPools s (execRstdaa s) := by simp [execRstdaa]
@[simp] theorem execSetnewda_pools (addr : Nat) (s : State) : keepsPools s (execSetnewda addr s) := by simp [execSetnewda]
@[simp] theorem execGetpid_pools (s : State) : keepsPools s (execGetpid s) := by simp [execGetpid]
@[simp] theorem execGetbcr_pools (s : State) : keepsPools s (execGetbcr s) := by simp [execGetbcr]
@[simp] theorem execGetdcr_pools (s : State) : keepsPools s (execGetdcr s) := by simp [execGetdcr]
@[simp] theorem execGetstatus_pools (s : State) : keepsPools s (execGetstatus s) := by simp [execGetstatus]
@[simp] theorem execEnec_pools (events : Nat) (s : State) : keepsPools s (execEnec events s) := by simp [execEnec]
@[simp] theorem execDisec_pools (events : Nat) (s : State) : keepsPools s (execDisec events s) := by simp [execDisec]
@[simp] theorem execGetmwl_pools (s : State) : keepsPools s (execGetmwl s) := by simp [execGetmwl]
@[simp] theorem execSetmwl_pools (len : Nat) (s : State) : keepsPools s (execSetmwl len s) := by simp [execSetmwl]
@[simp] theorem execGetmrl_pools (s : State) : keepsPools s (execGetmrl s) := by simp [execGetmrl]
@[simp] theorem execSetmrl_pools (len : Nat) (s : State) : keepsPools s (execSetmrl len s) := by simp [execSetmrl]
@[simp] theorem mctpReply_pools (inst cmd code : Nat) (d : Bytes) (s : State) :
    pools (mctpReply inst cmd code d s) = pools s := by simp [mctpReply]
@[simp] theorem execSetEndpointId_pools (inst eid : Nat) (s : State) :
    keepsPools s (execSetEndpointId inst eid s) := by simp [execSetEndpointId]
@[simp] theorem execGetEndpointId_pools (inst : Nat) (s : State) : keepsPools s (execGetEndpointId inst s) := by simp [execGetEndpointId]
@[simp] theorem execGetMctpVersionSupport_pools (inst : Nat) (s : State) :
    keepsPools s (execGetMctpVersionSupport inst s) := by simp [execGetMctpVersionSupport]
@[simp] theorem execGetMessageTypeSupport_pools (inst : Nat) (s : State) :
    keepsPools s (execGetMessageTypeSupport inst s) := by simp [execGetMessageTypeSupport]
@[simp] theorem execGetEndpointUuid_pools (inst : Nat) (s : State) :
    keepsPools s (execGetEndpointUuid inst s) := by simp [execGetEndpointUuid]
@[simp] theorem execI3cPrivateRead_pools (s : State) : keepsPools s (execI3cPrivateRead s) := by
  simp only [execI3cPrivateRead]
  (repeat' split) <;> simp

/-! ### Power: what its operations leave of the pools -/

@[simp] theorem heldKeep_pools (s : State) (h : HeldRec) : pools (heldKeep s h) = pools s := by simp [heldKeep]
@[simp] theorem heldMove_pools (s : State) : pools (heldMove s) = pools s := by
  unfold heldMove
  split <;> simp
@[simp] theorem execGuardDiePowerUp_pools (s : State) : keepsPools s (execGuardDiePowerUp s) := by simp [execGuardDiePowerUp]
@[simp] theorem execPwrfailAssert_pools (s : State) : keepsPools s (execPwrfailAssert s) := by simp [execPwrfailAssert]
@[simp] theorem execPwrfailDeassert_pools (s : State) : keepsPools s (execPwrfailDeassert s) := by simp [execPwrfailDeassert]
@[simp] theorem modBoot_pools (step unit : Nat) (g : Ledger → Ledger) (s : State) :
    pools (modBoot step unit g s) = pools s := by simp [modBoot]
@[simp] theorem outcome_pools (step unit v : Nat) (s : State) : pools (outcome step unit v s) = pools s := by simp [outcome]
@[simp] theorem stepNote_pools (s : State) : pools (stepNote s) = pools s := by
  simp only [stepNote]
  (repeat' split) <;> simp
@[simp] theorem coreStartFence_pools (p : Nat) (s : State) : pools (coreStartFence p s) = pools s := by
  simp only [coreStartFence]
  (repeat' split) <;> simp
@[simp] theorem laneStartFence_pools (step ph : Nat) (s : State) : pools (laneStartFence step ph s) = pools s := by
  simp only [laneStartFence]
  (repeat' split) <;> simp
@[simp] theorem unitFence_pools (step unit : Nat) (s : State) : pools (unitFence step unit s) = pools s := by simp [unitFence]
@[simp] theorem ledgerApply_pools (s : State) (e : Nat × Ledger) : pools (ledgerApply s e) = pools s := by simp [ledgerApply]
@[simp] theorem execMainPowerPresent_pools (s : State) : keepsPools s (execMainPowerPresent s) := by
  unfold execMainPowerPresent
  split <;> simp
@[simp] theorem otpScan_pools (s : State) : pools (otpScan s) = pools s := by simp [otpScan]
@[simp] theorem ledgerFormat_pools (s : State) : pools (ledgerFormat s) = pools s := by simp [ledgerFormat]
@[simp] theorem secretFormat_pools (s : State) : pools (secretFormat s) = pools s := by simp [secretFormat]
@[simp] theorem keepCheck_pools (s : State) : pools (keepCheck s) = pools s := by simp [keepCheck]
@[simp] theorem refStart_pools (s : State) : pools (refStart s) = pools s := by simp [refStart]
@[simp] theorem lfsrSeed_pools (s : State) : pools (lfsrSeed s) = pools s := by simp [lfsrSeed]
@[simp] theorem fwRun_pools (u : Nat) (s : State) : pools (fwRun u s) = pools s := by simp [fwRun]
@[simp] theorem startEnd_pools (s : State) : pools (startEnd s) = pools s := by simp [startEnd]
@[simp] theorem stepFail_pools (step unit : Nat) (s : State) : pools (stepFail step unit s) = pools s := by simp [stepFail]
@[simp] theorem stepPass_pools (step unit : Nat) (s : State) : pools (stepPass step unit s) = pools s := by simp [stepPass]
@[simp] theorem entropyStep_pools (ok : Bool) (s : State) : pools (entropyStep ok s) = pools s := by simp [entropyStep]
@[simp] theorem fwStep_pools (unit : Nat) (ok : Bool) (s : State) : pools (fwStep unit ok s) = pools s := by
  unfold fwStep
  split <;> simp
@[simp] theorem portStep_pools (p : Nat) (s : State) : pools (portStep p s) = pools s := by
  simp only [portStep]
  (repeat' split) <;> simp
@[simp] theorem rootsStep_pools (s : State) : pools (rootsStep s) = pools s := by
  unfold rootsStep
  split
  next => rfl
  next h => simp [drbgDraw_some h]
@[simp] theorem stepDone_pools (step unit : Nat) (ok : Bool) (s : State) : pools (stepDone step unit ok s) = pools s := by
  simp only [stepDone]
  (repeat' split) <;> simp
@[simp] theorem execStartStepDone_pools (step unit : Nat) (ok : Bool) (s : State) :
    keepsPools s (execStartStepDone step unit ok s) := by simp [execStartStepDone]
@[simp] theorem execHeldReportTimer_pools (s : State) : keepsPools s (execHeldReportTimer s) := by simp [execHeldReportTimer]
@[simp] theorem execLedgerRetest_pools (s : State) : keepsPools s (execLedgerRetest s) := by simp [execLedgerRetest]
@[simp] theorem flashEnd_pools (r : Nat) (s : State) : pools (flashEnd r s) = pools s := by simp [flashEnd]
theorem execFlashGo_pools (slot : Nat) (s : State) : keepsPools s (execFlashGo slot s) := by
  simp only [execFlashGo, keepsPools_next, regWrote_pools]
  split
  · rfl
  · split
    · simp
    · split <;> rename_i h <;> simp [pools_snd h]
theorem execFlashWriteComplete_pools (data : List Byte) (fail flashErr : Bool) (s : State) :
    keepsPools s (execFlashWriteComplete data fail flashErr s) := by
  simp only [execFlashWriteComplete, keepsPools_next]
  split
  · rfl
  · split
    · rfl
    · split
      · simp
      · split
        · simp
        · split <;> rename_i h <;> simp [pools_snd h]
@[simp] theorem execGpioCtlWrite_pools (value : Nat) (s : State) : keepsPools s (execGpioCtlWrite value s) := by simp [execGpioCtlWrite]
@[simp] theorem execPpsPulse_pools (s : State) : keepsPools s (execPpsPulse s) := by
  simp only [execPpsPulse]
  (repeat' split) <;> simp

/-! ### RegWords: what its operations leave of the pools -/

@[simp] theorem modSamp_pools (c : Nat) (g : Samp → Samp) (s : State) : pools (modSamp c g s) = pools s := by simp [modSamp]
theorem pageRc_pools {s : State} {f p : Nat} {x : Nat × State} (h : pageRc s f p = some x) : pools x.2 = pools s := by
  unfold pageRc at h
  split at h <;> cases h
  simp
theorem fabricRc_pools {s : State} {off : Nat} {x : Nat × State} (h : fabricRc s off = some x) : pools x.2 = pools s := by
  unfold fabricRc at h
  (repeat' split at h) <;> cases h <;> simp
theorem blockRc_pools {s : State} {off : Nat} {x : Nat × State} (h : blockRc s off = some x) : pools x.2 = pools s := by
  unfold blockRc at h
  iterate 7
    split at h
    · cases h; simp
  split at h
  · split at h
    · cases h
    · cases h; simp
  · cases h; simp
  · exact fabricRc_pools h
theorem nextRead_pools {s : State} {off : Nat} {x : Nat × State} (h : nextRead s off = some x) : pools x.2 = pools s := by
  unfold nextRead at h
  (repeat' split at h) <;> cases h <;> simp
theorem effRead_pools {s : State} {fn off : Nat} {x : Nat × State} (h : effRead s fn off = some x) : pools x.2 = pools s := by
  unfold effRead at h
  split at h
  · exact pageRc_pools h
  · split at h
    · split at h
      next hb => cases h; exact blockRc_pools hb
      next => exact nextRead_pools h
    · cases h
@[simp] theorem wordRead_pools (s : State) (fn off : Nat) : pools (wordRead s fn off).2 = pools s := by
  unfold wordRead
  split
  · rfl
  · split
    · rfl
    · split
      next h => exact effRead_pools h
      next => split <;> rfl

/-! ### Registers: what its operations leave of the pools -/

@[simp] theorem page64Write_pools (f p v : Nat) (s : State) : pools (page64Write f p v s) = pools s := by
  unfold page64Write
  split <;> simp
@[simp] theorem block64Write_pools (off v : Nat) (s : State) : pools (block64Write off v s) = pools s := by
  simp only [block64Write]
  (repeat' split) <;> simp
@[simp] theorem reg64Write_pools (fn off v : Nat) (s : State) : pools (reg64Write fn off v s) = pools s := by
  unfold reg64Write
  split <;> simp
@[simp] theorem splitRead_pools (fn off : Nat) (s : State) : pools (splitRead fn off s) = pools s := by
  simp only [splitRead]
  (repeat' split) <;> simp
@[simp] theorem longRead_pools (fn off : Nat) (s : State) : pools (longRead fn off s) = pools s := by
  unfold longRead
  split <;> simp
@[simp] theorem execSplitLowRead_pools (fn off width : Nat) (s : State) :
    keepsPools s (execSplitLowRead fn off width s) := by simp [execSplitLowRead]
@[simp] theorem execSplitLowWrite_pools (fn off value : Nat) (s : State) :
    keepsPools s (execSplitLowWrite fn off value s) := by simp [execSplitLowWrite]
@[simp] theorem msixUnmask_pools (f v : Nat) (s : State) : pools (msixUnmask f v s) = pools s := by
  unfold msixUnmask
  split <;> simp
@[simp] theorem execMsixVectorUnmask_pools (fn vec : Nat) (s : State) :
    keepsPools s (execMsixVectorUnmask fn vec s) := by simp [execMsixVectorUnmask]
@[simp] theorem msixWrite_pools (f v word value : Nat) (s : State) : pools (msixWrite f v word value s) = pools s := by simp [msixWrite]
@[simp] theorem execVfEnableSet_pools (s : State) : keepsPools s (execVfEnableSet s) := by simp [execVfEnableSet]
@[simp] theorem pageWrite_pools (f p v : Nat) (s : State) : pools (pageWrite f p v s) = pools s := by
  simp only [pageWrite]
  (repeat' split) <;> simp
@[simp] theorem hifWrite_pools (off v : Nat) (s : State) : pools (hifWrite off v s) = pools s := by simp [hifWrite]
@[simp] theorem slmWrite_pools (off v : Nat) (s : State) : pools (slmWrite off v s) = pools s := by
  simp only [slmWrite]
  (repeat' split) <;> simp
@[simp] theorem movWrite_pools (off v : Nat) (s : State) : pools (movWrite off v s) = pools s := by
  simp only [movWrite]
  (repeat' split) <;> simp
@[simp] theorem paneWrite_pools (off v : Nat) (s : State) : pools (paneWrite off v s) = pools s := by
  simp only [paneWrite]
  (repeat' split) <;> simp
@[simp] theorem phlWrite_pools (off v : Nat) (s : State) : pools (phlWrite off v s) = pools s := by
  simp only [phlWrite]
  (repeat' split) <;> simp
@[simp] theorem parWrite_pools (off v : Nat) (s : State) : pools (parWrite off v s) = pools s := by
  simp only [parWrite]
  (repeat' split) <;> simp
@[simp] theorem cntCtlWrite_pools (v : Nat) (s : State) : pools (cntCtlWrite v s) = pools s := by simp [cntCtlWrite]
@[simp] theorem cntEvtWrite_pools (i v : Nat) (s : State) : pools (cntEvtWrite i v s) = pools s := by simp [cntEvtWrite]
@[simp] theorem cntSelWrite_pools (g v : Nat) (s : State) : pools (cntSelWrite g v s) = pools s := by simp [cntSelWrite]
@[simp] theorem sampCtlWrite_pools (c v : Nat) (s : State) : pools (sampCtlWrite c v s) = pools s := by simp [sampCtlWrite]
@[simp] theorem sampHeadWrite_pools (v : Nat) (s : State) : pools (sampHeadWrite v s) = pools s := by simp [sampHeadWrite]
@[simp] theorem cntWrite_pools (off v : Nat) (s : State) : pools (cntWrite off v s) = pools s := by
  simp only [cntWrite]
  (repeat' split) <;> simp
@[simp] theorem blockWrite_pools (off v : Nat) (s : State) : pools (blockWrite off v s) = pools s := by simp [blockWrite]
@[simp] theorem wordWrite_pools (fn off v : Nat) (held : Option (Nat × Nat)) (s : State) : pools (wordWrite fn off v held s) = pools s := by
  simp only [wordWrite]
  (repeat' split) <;> simp
@[simp] theorem execRegisterWrite_pools (fn off width value : Nat) (s : State) : keepsPools s (execRegisterWrite fn off width value s) := by
  simp only [execRegisterWrite]
  (repeat' split) <;> simp
theorem execReadClearAccess_pools (fn off : Nat) (s : State) : keepsPools s (execReadClearAccess fn off s) := by
  simp only [execReadClearAccess, keepsPools_next]
  split
  · rfl
  · split
    next h =>
      split at h
      · simp [pageRc_pools h]
      · split at h
        · simp [blockRc_pools h]
        · cases h
    next => rfl
@[simp] theorem execCntFreeze_pools (value : Nat) (s : State) : keepsPools s (execCntFreeze value s) := by simp [execCntFreeze]
@[simp] theorem execCntClear_pools (value : Nat) (s : State) : keepsPools s (execCntClear value s) := by simp [execCntClear]
@[simp] theorem execSampleCountExpiry_pools (core opcode pre latency cause : Nat) (s : State) :
    keepsPools s (execSampleCountExpiry core opcode pre latency cause s) := by
  unfold execSampleCountExpiry
  split <;> simp
@[simp] theorem execSampleBlockDump_pools (cluster : Nat) (s : State) :
    keepsPools s (execSampleBlockDump cluster s) := by simp [execSampleBlockDump]

/-! ### Step: what its operations leave of the pools -/

@[simp] theorem State.withFetchWord_pools (s : State) (nbits w : Nat) : pools (State.withFetchWord s nbits w) = pools s := by
  unfold State.withFetchWord
  split <;> simp

/-! ### The commands, and the step -/

/-- The four commands that move shares. -/
def movesShares : Instr → Bool
  | .fnCreate | .fnResize | .fnDestroy | .mainPowerLost _ _ _ => true
  | _ => false

/-- Every other command leaves the pools. -/
theorem exec_pools (c : Instr) (s : State) (h : movesShares c = false) : keepsPools s (exec c s) := by
  cases c with
  | sqDoorbell fn ring tail => exact execSqDoorbell_pools fn ring tail s
  | cqDoorbell fn ring head => exact execCqDoorbell_pools fn ring head s
  | ringEnable fn ring ctl => exact execRingEnable_pools fn ring ctl s
  | ringDisable fn ring ctl => exact execRingDisable_pools fn ring ctl s
  | fetchIssue fn ring => exact execFetchIssue_pools fn ring s
  | descriptorAccept fn ring data rec => exact execDescriptorAccept_pools fn ring data rec s
  | fetchFail fn ring => exact execFetchFail_pools fn ring s
  | modTimeExpiry fn ring => exact execModTimeExpiry_pools fn ring s
  | fnCreate => exact absurd h (by decide)
  | fnResize => exact absurd h (by decide)
  | fnDestroy => exact absurd h (by decide)
  | fnReset => exact execFnReset_pools s
  | fnCmdComplete => exact execFnCmdComplete_pools s
  | poolSnap => exact execPoolSnap_pools s
  | fnSelWrite value => exact execFnSelWrite_pools value s
  | vfFlr fn => exact execVfFlr_pools fn s
  | pfFlr => exact execPfFlr_pools s
  | vfEnableClear => exact execVfEnableClear_pools s
  | vfD3hot fn => exact execVfD3hot_pools fn s
  | resetDrainTimeout fn => exact execResetDrainTimeout_pools fn s
  | resetReportWrite fn => exact execResetReportWrite_pools fn s
  | linkDown => exact execLinkDown_pools s
  | perstAssert => exact execPerstAssert_pools s
  | doeIdeKm stream key => exact execDoeIdeKm_pools stream key s
  | pinTranslate core input fault => exact execPinTranslate_pools core input fault s
  | pinVerifyOffset core input fault => exact execPinVerifyOffset_pools core input fault s
  | pinVerifyPvv core input fault => exact execPinVerifyPvv_pools core input fault s
  | cvvGenerate core input fault => exact execCvvGenerate_pools core input fault s
  | cvvVerify core input fault => exact execCvvVerify_pools core input fault s
  | arqcVerify core input fault => exact execArqcVerify_pools core input fault s
  | macGenerate core input fault => exact execMacGenerate_pools core input fault s
  | macVerify core input fault => exact execMacVerify_pools core input fault s
  | dukptPinTranslate core input fault => exact execDukptPinTranslate_pools core input fault s
  | dukptMacVerify core input fault => exact execDukptMacVerify_pools core input fault s
  | dukptDecrypt core input fault => exact execDukptDecrypt_pools core input fault s
  | ff1Tokenize core input fault => exact execFf1Tokenize_pools core input fault s
  | ff1Detokenize core input fault => exact execFf1Detokenize_pools core input fault s
  | keyImport core input fault => exact execKeyImport_pools core input fault s
  | keyExport core fault => exact execKeyExport_pools core fault s
  | keyTranslate core input fault => exact execKeyTranslate_pools core input fault s
  | keyGenerate core input fault => exact execKeyGenerate_pools core input fault s
  | tr34Import core input fault => exact execTr34Import_pools core input fault s
  | bulkReencrypt core input listIn listOut moved fault => exact execBulkReencrypt_pools core input listIn listOut moved fault s
  | rawBlock core input listIn listOut fault => exact execRawBlock_pools core input listIn listOut fault s
  | randomGenerate core fault => exact execRandomGenerate_pools core fault s
  | custom core => exact execCustom_pools core s
  | officerEnrol core input fault => exact execOfficerEnrol_pools core input fault s
  | recordValidWrite => exact execRecordValidWrite_pools s
  | officerRevoke core input fault => exact execOfficerRevoke_pools core input fault s
  | attest core input fault => exact execAttest_pools core input fault s
  | rejoinSend core input fault => exact execRejoinSend_pools core input fault s
  | lmkKemBegin core input vf fault => exact execLmkKemBegin_pools core input vf fault s
  | lmkKemFinish core input num ct wrapped kcv fault => exact execLmkKemFinish_pools core input num ct wrapped kcv fault s
  | lmkCompBegin core input vf fault => exact execLmkCompBegin_pools core input vf fault s
  | lmkCompAdd core input num ct wrapped kcv officer sig fault => exact execLmkCompAdd_pools core input num ct wrapped kcv officer sig fault s
  | lmkCompFinish core input num kcv fault => exact execLmkCompFinish_pools core input num kcv fault s
  | lmkRetire core input vf fault => exact execLmkRetire_pools core input vf fault s
  | lmkUnbind core input vf fault => exact execLmkUnbind_pools core input vf fault s
  | ceremonyAbort core input num fault => exact execCeremonyAbort_pools core input num fault s
  | ceremonyTimeout num => exact execCeremonyTimeout_pools num s
  | keyMarkSensitive core input vf block fault => exact execKeyMarkSensitive_pools core input vf block fault s
  | keyPairGenerate core input vf alg usage mode expo kvn p q e fault => exact execKeyPairGenerate_pools core input vf alg usage mode expo kvn p q e fault s
  | budgetRelease core input slots fault => exact execBudgetRelease_pools core input slots fault s
  | tamperSetClass core input fault => exact execTamperSetClass_pools core input fault s
  | tamperEncBurn core input fault => exact execTamperEncBurn_pools core input fault s
  | progKeySet core input fault => exact execProgKeySet_pools core input fault s
  | progApprove core input fault => exact execProgApprove_pools core input fault s
  | progRevoke core input fn slot fault => exact execProgRevoke_pools core input fn slot fault s
  | auditExport core input limit fault => exact execAuditExport_pools core input limit fault s
  | shutterReopen => exact execShutterReopen_pools s
  | auditClear core input fault => exact execAuditClear_pools core input fault s
  | epochSet core input fault => exact execEpochSet_pools core input fault s
  | pairBind core input fault => exact execPairBind_pools core input fault s
  | pairUnbind core input fault => exact execPairUnbind_pools core input fault s
  | keyMissStart id => exact execKeyMissStart_pools id s
  | keyDirArrival id data => exact execKeyDirArrival_pools id data s
  | keyBlockArrival id data => exact execKeyBlockArrival_pools id data s
  | keyInstall id => exact execKeyInstall_pools id s
  | keyFetchTimeout id => exact execKeyFetchTimeout_pools id s
  | keyFetchFail id => exact execKeyFetchFail_pools id s
  | vaultBlobArrival fn slot data => exact execVaultBlobArrival_pools fn slot data s
  | keyDirWrite fn reg value => exact execKeyDirWrite_pools fn reg value s
  | keySlotDrop lane index => exact execKeySlotDrop_pools lane index s
  | kstCtlWrite value => exact execKstCtlWrite_pools value s
  | missWindowEnd fn => exact execMissWindowEnd_pools fn s
  | budgetSlotExpiry slot => exact execBudgetSlotExpiry_pools slot s
  | encipher lane core fault data => exact execEncipher_pools lane core fault data s
  | decipher lane core fault data => exact execDecipher_pools lane core fault data s
  | desE1 lane core fault data => exact execDesE1_pools lane core fault data s
  | keystream lane core fault data => exact execKeystream_pools lane core fault data s
  | subkey lane core fault => exact execSubkey_pools lane core fault s
  | ghash lane core fault data => exact execGhash_pools lane core fault data s
  | tagCompare lane core fault => exact execTagCompare_pools lane core fault s
  | tag lane core fault => exact execTag_pools lane core fault s
  | sha256 lane core fault data => exact execSha256_pools lane core fault data s
  | sha384 lane core fault data => exact execSha384_pools lane core fault data s
  | sha512 lane core fault data => exact execSha512_pools lane core fault data s
  | sha3256 lane core fault data => exact execSha3256_pools lane core fault data s
  | sha3384 lane core fault data => exact execSha3384_pools lane core fault data s
  | sha3512 lane core fault data => exact execSha3512_pools lane core fault data s
  | shake128 lane core fault data => exact execShake128_pools lane core fault data s
  | shake256 lane core fault data => exact execShake256_pools lane core fault data s
  | slhDsa256fSign lane core fault data => exact execSlhDsa256fSign_pools lane core fault data s
  | slhDsa256sSign lane core fault data => exact execSlhDsa256sSign_pools lane core fault data s
  | slhDsa256fVerify lane core fault data => exact execSlhDsa256fVerify_pools lane core fault data s
  | slhDsa256sVerify lane core fault data => exact execSlhDsa256sVerify_pools lane core fault data s
  | rsaPrivate lane core fault data => exact execRsaPrivate_pools lane core fault data s
  | rsaPublic lane core fault data => exact execRsaPublic_pools lane core fault data s
  | ecdsaSign lane core fault data => exact execEcdsaSign_pools lane core fault data s
  | ecdsaVerify lane core fault data => exact execEcdsaVerify_pools lane core fault data s
  | ecdh lane core fault data => exact execEcdh_pools lane core fault data s
  | rsaKeyPair lane core fault p q e => exact execRsaKeyPair_pools lane core fault p q e s
  | ecKeyPair lane core fault => exact execEcKeyPair_pools lane core fault s
  | mlKemKeygen lane core fault => exact execMlKemKeygen_pools lane core fault s
  | mlKemEncaps lane core fault data => exact execMlKemEncaps_pools lane core fault data s
  | mlKemDecaps lane core fault data => exact execMlKemDecaps_pools lane core fault data s
  | laneOpComplete lane core => exact execLaneOpComplete_pools lane core s
  | laneSpareSwap lane => exact execLaneSpareSwap_pools lane s
  | hashLaneWake lane => exact execHashLaneWake_pools lane s
  | opNop core => exact execOpNop_pools core s
  | opLit8 core imm next => exact execOpLit8_pools core imm next s
  | opLit16 core imm next => exact execOpLit16_pools core imm next s
  | opLit32 core imm => exact execOpLit32_pools core imm s
  | opDup core => exact execOpDup_pools core s
  | opDrop core => exact execOpDrop_pools core s
  | opSwap core => exact execOpSwap_pools core s
  | opOver core => exact execOpOver_pools core s
  | opRot core => exact execOpRot_pools core s
  | opNip core => exact execOpNip_pools core s
  | opTuck core => exact execOpTuck_pools core s
  | opPick core => exact execOpPick_pools core s
  | opDepth core => exact execOpDepth_pools core s
  | opTor core => exact execOpTor_pools core s
  | opFromr core => exact execOpFromr_pools core s
  | opRfetch core => exact execOpRfetch_pools core s
  | opRdrop core => exact execOpRdrop_pools core s
  | opAdd core => exact execOpAdd_pools core s
  | opSub core => exact execOpSub_pools core s
  | opAddc core => exact execOpAddc_pools core s
  | opSubb core => exact execOpSubb_pools core s
  | opMul core => exact execOpMul_pools core s
  | opUmul core => exact execOpUmul_pools core s
  | opDivu core => exact execOpDivu_pools core s
  | opNeg core => exact execOpNeg_pools core s
  | opAnd core => exact execOpAnd_pools core s
  | opOr core => exact execOpOr_pools core s
  | opXor core => exact execOpXor_pools core s
  | opNot core => exact execOpNot_pools core s
  | opShl core => exact execOpShl_pools core s
  | opShr core => exact execOpShr_pools core s
  | opSar core => exact execOpSar_pools core s
  | opRol core => exact execOpRol_pools core s
  | opInc core => exact execOpInc_pools core s
  | opDec core => exact execOpDec_pools core s
  | opEq core => exact execOpEq_pools core s
  | opLtu core => exact execOpLtu_pools core s
  | opLts core => exact execOpLts_pools core s
  | opZeq core => exact execOpZeq_pools core s
  | opSel core => exact execOpSel_pools core s
  | opBswap core => exact execOpBswap_pools core s
  | opExtb core => exact execOpExtb_pools core s
  | opInsb core => exact execOpInsb_pools core s
  | opClz core => exact execOpClz_pools core s
  | opPopc core => exact execOpPopc_pools core s
  | opBra core => exact execOpBra_pools core s
  | opBz core => exact execOpBz_pools core s
  | opBnz core => exact execOpBnz_pools core s
  | opCall core => exact execOpCall_pools core s
  | opJmp core => exact execOpJmp_pools core s
  | opRet core => exact execOpRet_pools core s
  | opNext core => exact execOpNext_pools core s
  | opLd core => exact execOpLd_pools core s
  | loadLanding core data hostCycles => exact execLoadLanding_pools core data hostCycles s
  | opSt core => exact execOpSt_pools core s
  | opLdb core => exact execOpLdb_pools core s
  | opStb core => exact execOpStb_pools core s
  | opLdl core => exact execOpLdl_pools core s
  | opStl core => exact execOpStl_pools core s
  | opLdlb core => exact execOpLdlb_pools core s
  | opStlb core => exact execOpStlb_pools core s
  | opLds core => exact execOpLds_pools core s
  | opSts core => exact execOpSts_pools core s
  | opLdsb core => exact execOpLdsb_pools core s
  | opStsb core => exact execOpStsb_pools core s
  | opBnkr core => exact execOpBnkr_pools core s
  | opBnkw core => exact execOpBnkw_pools core s
  | opSrr core => exact execOpSrr_pools core s
  | opSrw core => exact execOpSrw_pools core s
  | opBld core data hostCycles => exact execOpBld_pools core data hostCycles s
  | opBst core => exact execOpBst_pools core s
  | opBdup core => exact execOpBdup_pools core s
  | opBdrop core => exact execOpBdrop_pools core s
  | opBxch core => exact execOpBxch_pools core s
  | opBxor core => exact execOpBxor_pools core s
  | opBzero core => exact execOpBzero_pools core s
  | opBpush core => exact execOpBpush_pools core s
  | opBpop core => exact execOpBpop_pools core s
  | opBinc core => exact execOpBinc_pools core s
  | opBeq core => exact execOpBeq_pools core s
  | opBmask core => exact execOpBmask_pools core s
  | opAsk core sgIn sgOut => exact execOpAsk_pools core sgIn sgOut s
  | opIssue core => exact execOpIssue_pools core s
  | opAwait core => exact execOpAwait_pools core s
  | awaitTimeout core => exact execAwaitTimeout_pools core s
  | opRelease core => exact execOpRelease_pools core s
  | opKres core host => exact execOpKres_pools core host s
  | opRand core => exact execOpRand_pools core s
  | opTime core => exact execOpTime_pools core s
  | opTick core => exact execOpTick_pools core s
  | opFence core => exact execOpFence_pools core s
  | opPrun core => exact execOpPrun_pools core s
  | icacheFill core => exact execIcacheFill_pools core s
  | progImageFetch cluster fn slot entry image fail => exact execProgImageFetch_pools cluster fn slot entry image fail s
  | progBaseWrite fn value => exact execProgBaseWrite_pools fn value s
  | dispatchDecision core => exact execDispatchDecision_pools core s
  | ageScan => exact execAgeScan_pools s
  | gateInput core => exact execGateInput_pools core s
  | liftRelease => exact execLiftRelease_pools s
  | deadlineCommit => exact execDeadlineCommit_pools s
  | criticalWakeScan => exact execCriticalWakeScan_pools s
  | clusterSleep cluster => exact execClusterSleep_pools cluster s
  | clusterWakeDone cluster => exact execClusterWakeDone_pools cluster s
  | tokenSelWrite value => exact execTokenSelWrite_pools value s
  | liftQuotaWrite value => exact execLiftQuotaWrite_pools value s
  | movTailWrite chan value => exact execMovTailWrite_pools chan value s
  | moverReadArrival chan data => exact execMoverReadArrival_pools chan data s
  | moverBusError chan => exact execMoverBusError_pools chan s
  | moverBurstDone chan => exact execMoverBurstDone_pools chan s
  | movAbort chan => exact execMovAbort_pools chan s
  | movResume chan => exact execMovResume_pools chan s
  | movBulkMapWrite value => exact execMovBulkMapWrite_pools value s
  | creditReserve chan => exact execCreditReserve_pools chan s
  | paneHrCommit region value => exact execPaneHrCommit_pools region value s
  | paneLoadDone m => exact execPaneLoadDone_pools m s
  | paneVioNext => exact execPaneVioNext_pools s
  | rctCutoff src => exact execRctCutoff_pools src s
  | aptWindowEnd src window => exact execAptWindowEnd_pools src window s
  | estBlockEnd src ones agree1 agree2 agree3 agree4 n00 n01 n10 n11 => exact execEstBlockEnd_pools src ones agree1 agree2 agree3 agree4 n00 n01 n10 n11 s
  | seedArrival src crcOk => exact execSeedArrival_pools src crcOk s
  | drbgGenerate => exact execDrbgGenerate_pools s
  | sourceRetestStart src => exact execSourceRetestStart_pools src s
  | entSwitch => exact execEntSwitch_pools s
  | entRetestA => exact execEntRetestA_pools s
  | entRetestB => exact execEntRetestB_pools s
  | tamperSample mon det1 det2 value sensed => exact execTamperSample_pools mon det1 det2 value sensed s
  | tamperComparatorEdge mon det1 det2 value glitch => exact execTamperComparatorEdge_pools mon det1 det2 value glitch s
  | disagreementWindowClose mon value => exact execDisagreementWindowClose_pools mon value s
  | lockOrder => exact execLockOrder_pools s
  | eraseOrder => exact execEraseOrder_pools s
  | lockedClosingCompletions => exact execLockedClosingCompletions_pools s
  | pwrfailHoldExpiry => exact execPwrfailHoldExpiry_pools s
  | unlockNewChallenge => exact execUnlockNewChallenge_pools s
  | unlockGo => exact execUnlockGo_pools s
  | unlockComplete data fail => exact execUnlockComplete_pools data fail s
  | cresLow below => exact execCresLow_pools below s
  | chalIssue slot => exact execChalIssue_pools slot s
  | challengeExpiry slot => exact execChallengeExpiry_pools slot s
  | provision data fail => exact execProvision_pools data fail s
  | deploy data fail => exact execDeploy_pools data fail s
  | lifecycleReturn data fail => exact execReturn_pools data fail s
  | redeploy data fail => exact execRedeploy_pools data fail s
  | retire data fail => exact execRetire_pools data fail s
  | debugOpen data fail => exact execDebugOpen_pools data fail s
  | debugClose data fail => exact execDebugClose_pools data fail s
  | debugLifeExpiry => exact execDebugLifeExpiry_pools s
  | rejoinBegin data fail => exact execRejoinBegin_pools data fail s
  | rejoinFinish data fail => exact execRejoinFinish_pools data fail s
  | inject data fail => exact execInject_pools data fail s
  | tokenHoldExpiry => exact execTokenHoldExpiry_pools s
  | rejoinPackageExpiry => exact execRejoinPackageExpiry_pools s
  | minuteEdge => exact execMinuteEdge_pools s
  | receiptSigned => exact execReceiptSigned_pools s
  | rcptHeadWrite head => exact execRcptHeadWrite_pools head s
  | meterAdd => exact execMeterAdd_pools s
  | dataFrame port frame => exact execDataFrame_pools port frame s
  | readId port frame => exact execReadId_pools port frame s
  | assign port frame => exact execAssign_pools port frame s
  | probeRelease port frame => exact execProbeRelease_pools port frame s
  | routeWrite port frame => exact execRouteWrite_pools port frame s
  | routeRead port frame => exact execRouteRead_pools port frame s
  | portRead port frame => exact execPortRead_pools port frame s
  | probeReply port frame => exact execProbeReply_pools port frame s
  | auditFrame port frame => exact execAuditFrame_pools port frame s
  | auditPeriodTimer => exact execAuditPeriodTimer_pools s
  | syncReq port frame => exact execSyncReq_pools port frame s
  | syncRsp port frame => exact execSyncRsp_pools port frame s
  | syncPeriodTimer => exact execSyncPeriodTimer_pools s
  | neighbor port frame => exact execNeighbor_pools port frame s
  | linkAck port block => exact execLinkAck_pools port block s
  | linkNak port block => exact execLinkNak_pools port block s
  | linkCredit port block => exact execLinkCredit_pools port block s
  | linkIdle port block => exact execLinkIdle_pools port block s
  | linkAckTimeout port => exact execLinkAckTimeout_pools port s
  | retrainDone port ok peerSeq occ => exact execRetrainDone_pools port ok peerSeq occ s
  | portTrainDone port ok peerSeq occ => exact execPortTrainDone_pools port ok peerSeq occ s
  | trainRetryTimer port => exact execTrainRetryTimer_pools port s
  | portLeaveUp port => exact execPortLeaveUp_pools port s
  | replayDiscardTimer port => exact execReplayDiscardTimer_pools port s
  | portSilence port => exact execPortSilence_pools port s
  | addrSet value => exact execAddrSet_pools value s
  | addrRelease value => exact execAddrRelease_pools value s
  | portRetrain port value => exact execPortRetrain_pools port value s
  | portEnableWrite port value => exact execPortEnableWrite_pools port value s
  | mtxSend => exact execMtxSend_pools s
  | mrxNext => exact execMrxNext_pools s
  | evtNext => exact execEvtNext_pools s
  | entdaa addr => exact execEntdaa_pools addr s
  | rstdaa => exact execRstdaa_pools s
  | setnewda addr => exact execSetnewda_pools addr s
  | getpid => exact execGetpid_pools s
  | getbcr => exact execGetbcr_pools s
  | getdcr => exact execGetdcr_pools s
  | getstatus => exact execGetstatus_pools s
  | enec events => exact execEnec_pools events s
  | disec events => exact execDisec_pools events s
  | getmwl => exact execGetmwl_pools s
  | setmwl len => exact execSetmwl_pools len s
  | getmrl => exact execGetmrl_pools s
  | setmrl len => exact execSetmrl_pools len s
  | setEndpointId inst eid => exact execSetEndpointId_pools inst eid s
  | getEndpointId inst => exact execGetEndpointId_pools inst s
  | getMctpVersionSupport inst => exact execGetMctpVersionSupport_pools inst s
  | getMessageTypeSupport inst => exact execGetMessageTypeSupport_pools inst s
  | getEndpointUuid inst => exact execGetEndpointUuid_pools inst s
  | i3cPrivateRead => exact execI3cPrivateRead_pools s
  | healthReportPeriodic => exact execHealthReportPeriodic_pools s
  | knockTimer => exact execKnockTimer_pools s
  | renewTimer => exact execRenewTimer_pools s
  | knock path port data => exact execKnock_pools path port data s
  | renew path port data => exact execRenew_pools path port data s
  | grant path port data => exact execGrant_pools path port data s
  | knockRelease path port data => exact execKnockRelease_pools path port data s
  | taken path port data => exact execTaken_pools path port data s
  | pathSilence path => exact execPathSilence_pools path s
  | txCheckTimeout path => exact execTxCheckTimeout_pools path s
  | leaseExpiryFence latch => exact execLeaseExpiryFence_pools latch s
  | latchTake latch => exact execLatchTake_pools latch s
  | takeoverSlotArrival mseq data => exact execTakeoverSlotArrival_pools mseq data s
  | replayDescriptorArrival mseq data rec => exact execReplayDescriptorArrival_pools mseq data rec s
  | aloneWaitExpiry latch => exact execAloneWaitExpiry_pools latch s
  | pairKeyExchange data => exact execPairKeyExchange_pools data s
  | mirrorJournal => exact execMirrorJournal_pools s
  | mirrorMeter => exact execMirrorMeter_pools s
  | mirrorState => exact execMirrorState_pools s
  | mirrorRing => exact execMirrorRing_pools s
  | mirrorFnReset => exact execMirrorFnReset_pools s
  | mirrorReceipt => exact execMirrorReceipt_pools s
  | mirrorHead => exact execMirrorHead_pools s
  | mirrorAck => exact execMirrorAck_pools s
  | mirrorHandover => exact execMirrorHandover_pools s
  | mirrorResync => exact execMirrorResync_pools s
  | mirrorRejoin src data => exact execMirrorRejoin_pools src data s
  | mirrorResendTimer => exact execMirrorResendTimer_pools s
  | handoverGo value => exact execHandoverGo_pools value s
  | handoverDrainExpiry => exact execHandoverDrainExpiry_pools s
  | handoverTimeout => exact execHandoverTimeout_pools s
  | selfTestRun kind unit fail => exact execSelfTestRun_pools kind unit fail s
  | mainPowerPresent => exact execMainPowerPresent_pools s
  | mainPowerLost backup secretKept ledgerKept => exact absurd h (by simp [movesShares])
  | pwrfailAssert => exact execPwrfailAssert_pools s
  | pwrfailDeassert => exact execPwrfailDeassert_pools s
  | startStepDone step unit ok => exact execStartStepDone_pools step unit ok s
  | heldReportTimer => exact execHeldReportTimer_pools s
  | keepScrub corrected bad meters => exact execKeepScrub_pools corrected bad meters s
  | keepWordRestore word => exact execKeepWordRestore_pools word s
  | flashGo slot => exact execFlashGo_pools slot s
  | flashWriteComplete data fail flashErr => exact execFlashWriteComplete_pools data fail flashErr s
  | ledgerRetest => exact execLedgerRetest_pools s
  | gpioCtlWrite value => exact execGpioCtlWrite_pools value s
  | ppsPulse => exact execPpsPulse_pools s
  | correctedCountSecond => exact execCorrectedCountSecond_pools s
  | sillLaneRemapDone dir lane => exact execSillLaneRemapDone_pools dir lane s
  | coreSpareSwap cluster => exact execCoreSpareSwap_pools cluster s
  | dbgErrNext => exact execDbgErrNext_pools s
  | cntFreeze value => exact execCntFreeze_pools value s
  | cntClear value => exact execCntClear_pools value s
  | sampleCountExpiry core opcode pre latency cause => exact execSampleCountExpiry_pools core opcode pre latency cause s
  | sampleBlockDump cluster => exact execSampleBlockDump_pools cluster s
  | splitLowRead fn off width => exact execSplitLowRead_pools fn off width s
  | splitLowWrite fn off value => exact execSplitLowWrite_pools fn off value s
  | registerWrite fn off width value => exact execRegisterWrite_pools fn off width value s
  | programBudgetExhausted core => exact execProgramBudgetExhausted_pools core s
  | illegalOpcode core opcode => exact execIllegalOpcode_pools core opcode s
  | instructionFetchRefused core => exact execInstructionFetchRefused_pools core s
  | storeAcknowledge core => exact execStoreAcknowledge_pools core s
  | programFetchTimeout cluster fn slot => exact execProgramFetchTimeout_pools cluster fn slot s
  | guardDiePowerUp => exact execGuardDiePowerUp_pools s
  | vfEnableSet => exact execVfEnableSet_pools s
  | readClearAccess fn off => exact execReadClearAccess_pools fn off s
  | probeUnknownOp port frame => exact execProbeUnknownOp_pools port frame s
  | msixVectorUnmask fn vec => exact execMsixVectorUnmask_pools fn vec s

/-- Commands and time do not look at the queue to find the pools. -/
@[simp] theorem pending_pools (l : List Instr) (s : State) : pools { s with pending := l } = pools s := rfl

/-! ### CREATE, RESIZE, DESTROY (R39, R43) -/

/-- The share `q` can be made of the function's share and the free pool. -/
def shareFits (s : State) (f : Nat) (q : Share) : Prop :=
  q.tokens ≤ (shareOf s f).tokens + s.hif.free.tokens ∧ q.flows ≤ (shareOf s f).flows + s.hif.free.flows ∧
  q.keys ≤ (shareOf s f).keys + s.hif.free.keys ∧ q.dispatch ≤ (shareOf s f).dispatch + s.hif.free.dispatch

theorem poolFits_iff (s : State) (f : Nat) (q : Share) : poolFits s.hif.free (shareOf s f) q = true ↔ shareFits s f q := by
  simp [poolFits, shareFits, and_assoc]

theorem shareFits_zero (s : State) (f : Nat) : shareFits s f Share.zero := by simp [shareFits, Share.zero]

theorem shareFits_of_createResult {s : State} {f : Nat} (h : createResult s f = 0) : shareFits s f s.hif.req := by
  simp only [createResult] at h
  (repeat' split at h) <;> simp_all [poolFits_iff]

theorem shareFits_of_resizeResult {s : State} {f : Nat} (h : resizeResult s f = 0) : shareFits s f s.hif.req := by
  simp only [resizeResult] at h
  (repeat' split at h) <;> simp_all [poolFits_iff]

theorem setShare_pools (f : Nat) (q : Share) (s : State) :
    pools (setShare f q s) = (tset Share.zero s.hif.shares f q, poolMove s.hif.free (shareOf s f) q) := rfl

/-- What a command that moves shares leaves in the pools: all as it was, or a fitting share set. -/
def sharesSet (s t : State) : Prop := pools t = pools s ∨ ∃ q, shareFits s s.hif.fnSel q ∧ pools t = pools (setShare s.hif.fnSel q s)

@[simp] theorem cmdBegin_shareOf (op f r g : Nat) (s : State) : shareOf (cmdBegin op f r s) g = shareOf s g := rfl
@[simp] theorem setShare_cmdBegin_pools (op f r g : Nat) (q : Share) (s : State) :
    pools (setShare g q (cmdBegin op f r s)) = pools (setShare g q s) := rfl

theorem execFnCreate_shares {s t : State} (h : execFnCreate s = .next t) : sharesSet s t := by
  simp only [execFnCreate, Host.Outcome.next.injEq] at h
  subst h
  rw [sharesSet, regWrote_pools]
  split
  · exact .inl rfl
  · split
    · exact .inl (by simp)
    next hr => exact .inr ⟨s.hif.req, shareFits_of_createResult (not_not.1 hr), by rw [modFn_pools]; exact setShare_cmdBegin_pools ..⟩

theorem execFnResize_shares {s t : State} (h : execFnResize s = .next t) : sharesSet s t := by
  simp only [execFnResize, Host.Outcome.next.injEq] at h
  subst h
  rw [sharesSet, regWrote_pools]
  split
  · exact .inl rfl
  · split
    · exact .inl (by simp)
    next hr => exact .inr ⟨s.hif.req, shareFits_of_resizeResult (not_not.1 hr), by rw [keyShareEvict_pools]; exact setShare_cmdBegin_pools ..⟩

theorem execFnDestroy_shares {s t : State} (h : execFnDestroy s = .next t) : sharesSet s t := by
  simp only [execFnDestroy, Host.Outcome.next.injEq] at h
  subst h
  rw [sharesSet, regWrote_pools]
  split
  · exact .inl rfl
  · split
    · exact .inl (by simp)
    next hr =>
      refine .inr ⟨Share.zero, shareFits_zero s _, ?_⟩
      rw [modMtr_pools, keyShareEvict_pools, imagesDrop_pools, modLcy_pools, modFn_pools]
      exact setShare_cmdBegin_pools ..

theorem sharesMoved_of_pools {s t : State} {f : Nat} {q : Share} (hq : shareFits s f q) (h : pools t = pools (setShare f q s)) :
    sharesMoved s t f q := by
  obtain ⟨hs, hf⟩ := Prod.ext_iff.1 h
  obtain ⟨h1, h2, h3, h4⟩ := hq
  have hs : t.hif.shares = tset Share.zero s.hif.shares f q := hs
  have hf : t.hif.free = poolMove s.hif.free (shareOf s f) q := hf
  refine ⟨?_, fun g hg => ?_, ?_, ?_, ?_, ?_⟩
  · rw [shareOf, hs, tget_tset_same]
  · rw [shareOf, hs, tget_tset_ne _ _ _ hg, shareOf]
  all_goals
    simp only [hf, poolMove]
    omega

theorem pools_eq_iff {s t : State} : pools t = pools s ↔ t.hif.shares = s.hif.shares ∧ t.hif.free = s.hif.free := Prod.ext_iff

/-- The loss of main power puts the host interface at its start values. -/
theorem execMainPowerLost_hif {b k l : Bool} {s t : State} (h : execMainPowerLost b k l s = .next t) :
    t = s ∨ s.pwr.main = true ∧ t.pwr.main = false ∧ t.hif = Hif.start := by
  simp only [execMainPowerLost, Host.Outcome.next.injEq] at h
  subst h
  split
  · exact .inl rfl
  next hm => exact .inr ⟨by simpa using hm, by split <;> rfl, by split <;> rfl⟩

theorem exec_shares (c : Instr) (s t : State) (h : exec c s = .next t) :
    (t.hif.shares = s.hif.shares ∧ t.hif.free = s.hif.free) ∨
    ((c = .fnCreate ∨ c = .fnResize ∨ c = .fnDestroy) ∧ sharesSet s t) ∨
    (s.pwr.main = true ∧ t.pwr.main = false ∧ t.hif = Hif.start) := by
  by_cases hc : movesShares c = false
  · exact .inl (pools_eq_iff.1 (exec_pools c s hc t h))
  · unfold movesShares at hc
    split at hc
    next => exact .inr (.inl ⟨by simp, execFnCreate_shares h⟩)
    next => exact .inr (.inl ⟨by simp, execFnResize_shares h⟩)
    next => exact .inr (.inl ⟨by simp, execFnDestroy_shares h⟩)
    next =>
      rcases execMainPowerLost_hif h with rfl | hl
      · exact .inl ⟨rfl, rfl⟩
      · exact .inr (.inr hl)
    next => exact absurd rfl hc

/-! ### The totals (R28, R38) -/

/-- The sum of a table's values under a measure. -/
def tabSum {α : Type} (g : α → Nat) (t : Tab α) : Nat := (t.map fun e => g e.2).sum

@[simp] theorem tabSum_cons {α : Type} (g : α → Nat) (e : Nat × α) (t : Tab α) : tabSum g (e :: t) = g e.2 + tabSum g t := by simp [tabSum]

theorem tget_of_lt {α : Type} (d : α) {t : Tab α} {k : Nat} (h : ∀ e ∈ t, k < e.1) : tget d t k = d := by
  induction t with
  | nil => rfl
  | cons e t ih =>
    have he := h e (by simp)
    rw [tget, if_neg (by omega)]
    exact ih fun x hx => h x (by simp [hx])

theorem tabSum_tput {α : Type} (g : α → Nat) (d : α) (hd : g d = 0) {t : Tab α} (ht : t.Pairwise fun a b => a.1 < b.1) (k : Nat) (v : α) :
    tabSum g (tput t k v) + g (tget d t k) = tabSum g t + g v := by
  induction t with
  | nil => simp [tput, tget, hd, tabSum]
  | cons e t ih =>
    obtain ⟨k', v'⟩ := e
    obtain ⟨hlt, ht⟩ := List.pairwise_cons.1 ht
    have ih := ih ht
    rw [tput]
    split
    next h =>
      have hk : tget d ((k', v') :: t) k = d := tget_of_lt d fun x hx => by
        rcases List.mem_cons.1 hx with rfl | hx
        · exact h
        · exact h.trans (hlt x hx)
      simp only [hk, hd, tabSum_cons]
      omega
    · split
      next h => simp only [tget, h, if_true, tabSum_cons]; omega
      next h => simp only [tget, if_neg (Ne.symm h), tabSum_cons]; omega

theorem tabSum_erase {α : Type} (g : α → Nat) (d : α) (hd : g d = 0) {t : Tab α} (ht : t.Pairwise fun a b => a.1 < b.1) (k : Nat) :
    tabSum g (t.filter fun e => decide (e.1 ≠ k)) + g (tget d t k) = tabSum g t := by
  induction t with
  | nil => simp [tget, hd, tabSum]
  | cons e t ih =>
    obtain ⟨k', v'⟩ := e
    obtain ⟨hlt, ht⟩ := List.pairwise_cons.1 ht
    have ih := ih ht
    by_cases h : k' = k
    · have hk : tget d t k = d := tget_of_lt d (h ▸ hlt)
      rw [hk, hd] at ih
      simp only [List.filter_cons, tget, h, if_true, ne_eq, not_true, decide_false, Bool.false_eq_true, if_false, tabSum_cons] at ih ⊢
      omega
    · simp only [List.filter_cons, tget, h, if_false, ne_eq, not_false_eq_true, decide_true, if_true, tabSum_cons] at ih ⊢
      omega

/-- Setting a key moves the sum by the difference of the two values. -/
theorem tabSum_tset {α : Type} [DecidableEq α] (g : α → Nat) (d : α) (hd : g d = 0) {t : Tab α} (ht : twf d t = true) (k : Nat) (v : α) :
    tabSum g (tset d t k v) + g (tget d t k) = tabSum g t + g v := by
  have hp := ((twf_iff d t).1 ht).1
  unfold tset
  split
  next h => rw [tabSum_erase g d hd hp, h, hd]; rfl
  · exact tabSum_tput g d hd hp k v

theorem poolSum_eq (g : Share → Nat) (s : State) : poolSum g s = tabSum g s.hif.shares + g s.hif.free := rfl

theorem poolsWhole_congr {s t : State} (h : pools t = pools s) (hs : poolsWhole s) : poolsWhole t := by
  obtain ⟨h1, h2⟩ := pools_eq_iff.1 h
  simpa only [poolsWhole, poolSum, h1, h2] using hs

/-- Moving units between a share and the free pool keeps the sum. -/
theorem poolSum_setShare {g : Share → Nat} {s : State} {f : Nat} {q : Share} (hg : g Share.zero = 0) (hw : twf Share.zero s.hif.shares = true)
    (hm : g (poolMove s.hif.free (shareOf s f) q) + g q = g s.hif.free + g (shareOf s f)) : poolSum g (setShare f q s) = poolSum g s := by
  have h := tabSum_tset g Share.zero hg hw f q
  have ht : poolSum g (setShare f q s) = tabSum g (tset Share.zero s.hif.shares f q) + g (poolMove s.hif.free (shareOf s f) q) := rfl
  rw [shareOf] at hm ht
  rw [ht, poolSum_eq]
  omega

theorem setShare_poolsWhole {s : State} {f : Nat} {q : Share} (hq : shareFits s f q) (hs : poolsWhole s) : poolsWhole (setShare f q s) := by
  obtain ⟨hw, h1, h2, h3, h4⟩ := hs
  obtain ⟨q1, q2, q3, q4⟩ := hq
  refine ⟨twf_tset _ f q hw, ?_, ?_, ?_, ?_⟩
  · rw [poolSum_setShare rfl hw (by simp only [poolMove]; omega), h1]
  · rw [poolSum_setShare rfl hw (by simp only [poolMove]; omega), h2]
  · rw [poolSum_setShare rfl hw (by simp only [poolMove]; omega), h3]
  · rw [poolSum_setShare rfl hw (by simp only [poolMove]; omega), h4]

theorem hifStart_poolsWhole {t : State} (h : t.hif = Hif.start) : poolsWhole t := by
  simp only [poolsWhole, poolSum, h]
  decide

theorem exec_poolsWhole {c : Instr} {s t : State} (hs : poolsWhole s) (h : exec c s = .next t) : poolsWhole t := by
  rcases exec_shares c s t h with hk | ⟨-, hk | ⟨q, hq, hk⟩⟩ | ⟨-, -, hk⟩
  · exact poolsWhole_congr (pools_eq_iff.2 hk) hs
  · exact poolsWhole_congr hk hs
  · exact poolsWhole_congr hk (setShare_poolsWhole hq hs)
  · exact hifStart_poolsWhole hk

theorem step_poolsWhole {s t : State} (hs : poolsWhole s) (h : step s = .next t) : poolsWhole t := by
  unfold step at h
  split at h
  · cases h
    exact poolsWhole_congr (timeStep_pools s) hs
  next rest _ => exact exec_poolsWhole (poolsWhole_congr (pending_pools rest s) hs) h

theorem sharesMoved_of_sharesSet {s t : State} (h : sharesSet s t) :
    (t.hif.shares = s.hif.shares ∧ t.hif.free = s.hif.free) ∨ ∃ q, sharesMoved s t s.hif.fnSel q := by
  rcases h with h | ⟨q, hq, h⟩
  · exact .inl (pools_eq_iff.1 h)
  · exact .inr ⟨q, sharesMoved_of_pools hq h⟩

/-! ### What a RESIZE leaves (R42) -/

/-- No token, core, mover, ring position, lane request or waiting completion differs. -/
def workFrame (s t : State) : Prop :=
  t.slm = s.slm ∧ t.cpu = s.cpu ∧ t.mov = s.mov ∧ t.hif.relq = s.hif.relq ∧ (∀ f n, ringOf t f n = ringOf s f n) ∧
  ∀ n, (laneOf t n).queue = (laneOf s n).queue

theorem workFrame.refl (s : State) : workFrame s s := ⟨rfl, rfl, rfl, rfl, fun _ _ => rfl, fun _ => rfl⟩

theorem workFrame.trans {s t u : State} (h : workFrame s t) (k : workFrame t u) : workFrame s u := by
  obtain ⟨h1, h2, h3, h4, h5, h6⟩ := h
  obtain ⟨k1, k2, k3, k4, k5, k6⟩ := k
  exact ⟨k1.trans h1, k2.trans h2, k3.trans h3, k4.trans h4, fun f n => (k5 f n).trans (h5 f n), fun n => (k6 n).trans (h6 n)⟩

/-- Only the key store, the lanes' notes of dropped keys and what is queued for the partner differ: what the going of a key can do (R132, R144). -/
def keyFrame (s t : State) : Prop :=
  t = { s with kst := t.kst, lanes := t.lanes, par := t.par } ∧ ∀ n, (laneOf t n).queue = (laneOf s n).queue

theorem keyFrame.refl (s : State) : keyFrame s s := ⟨rfl, fun _ => rfl⟩

theorem keyFrame.trans {s t u : State} (h : keyFrame s t) (k : keyFrame t u) : keyFrame s u := by
  obtain ⟨h1, h2⟩ := h
  obtain ⟨k1, k2⟩ := k
  exact ⟨by rw [k1, h1], fun n => (k2 n).trans (h2 n)⟩

theorem keyFrame.hif {s t : State} (h : keyFrame s t) : t.hif = s.hif := by rw [h.1]

theorem keyFrame.work {s t : State} (h : keyFrame s t) : workFrame s t := by
  obtain ⟨ht, hq⟩ := h
  refine ⟨by rw [ht], by rw [ht], by rw [ht], by rw [ht], fun f n => ?_, hq⟩
  rw [ht]
  rfl

theorem modKst_keyFrame (g : Kst → Kst) (s : State) : keyFrame s (modKst g s) := ⟨rfl, fun _ => rfl⟩

theorem mirrorSend_keyFrame (ty l : Nat) (b : Bytes) (s : State) : keyFrame s (mirrorSend ty l b s) := by
  unfold mirrorSend
  split <;> exact ⟨rfl, fun _ => rfl⟩

theorem ledgerMirror_keyFrame (n : Nat) (s : State) : keyFrame s (ledgerMirror n s) := by
  unfold ledgerMirror
  split
  · exact mirrorSend_keyFrame _ _ _ _
  · exact .refl s

/-- A change of every entry that leaves a field leaves it at every key. -/
theorem tget_map_field {α β : Type} (d : α) (p : α → β) (g : Nat × α → Nat × α) (hg : ∀ e, (g e).1 = e.1 ∧ p (g e).2 = p e.2)
    (t : Tab α) (n : Nat) : p (tget d (t.map g) n) = p (tget d t n) := by
  induction t with
  | nil => rfl
  | cons e t ih =>
    obtain ⟨h1, h2⟩ := hg e
    simp only [List.map_cons, tget, h1]
    split
    · exact h2
    · exact ih

theorem laneDropAll_keyFrame (i : Nat) (s : State) : keyFrame s (laneDropAll i s) :=
  ⟨rfl, tget_map_field Lane.blank Lane.queue _ (fun e => by split <;> exact ⟨rfl, rfl⟩) _⟩

theorem keyInvalidate_keyFrame (i : Nat) (s : State) : keyFrame s (keyInvalidate i s) := by
  unfold keyInvalidate
  split
  · exact .refl s
  · refine .trans ?_ ((modKst_keyFrame _ _).trans (laneDropAll_keyFrame _ _))
    split
    · split
      · exact .refl s
      · exact (modKst_keyFrame _ s).trans (ledgerMirror_keyFrame _ _)
    · exact .refl s

theorem evictTo_keyFrame (f limit n : Nat) (s : State) : keyFrame s (evictTo f limit n s) := by
  induction n generalizing s with
  | zero => exact .refl s
  | succ n ih =>
    unfold evictTo
    split
    · exact .refl s
    · split
      · exact .refl s
      · exact (keyInvalidate_keyFrame _ s).trans (ih _)

theorem keyShareEvict_keyFrame (f : Nat) (s : State) : keyFrame s (keyShareEvict f s) := evictTo_keyFrame _ _ _ s

theorem setShare_workFrame (f : Nat) (q : Share) (s : State) : workFrame s (setShare f q s) := ⟨rfl, rfl, rfl, rfl, fun _ _ => rfl, fun _ => rfl⟩
theorem cmdBegin_workFrame (op f r : Nat) (s : State) : workFrame s (cmdBegin op f r s) := ⟨rfl, rfl, rfl, rfl, fun _ _ => rfl, fun _ => rfl⟩

theorem regWrote_workFrame (f : Nat) (s : State) : workFrame s (regWrote f s) := by
  unfold regWrote
  split
  · refine ⟨rfl, rfl, rfl, rfl, fun g n => ?_, fun _ => rfl⟩
    rw [ringOf, ringOf, fnOf_modFn]
    split <;> simp_all
  · exact .refl s

theorem execFnResize_workFrame {s t : State} (h : execFnResize s = .next t) : workFrame s t := by
  simp only [execFnResize, Host.Outcome.next.injEq] at h
  subst h
  refine .trans ?_ (regWrote_workFrame 0 _)
  split
  · exact .refl s
  · refine (cmdBegin_workFrame 2 s.hif.fnSel (resizeResult s s.hif.fnSel) s).trans ?_
    split
    · exact .refl _
    · exact (setShare_workFrame _ _ _).trans (keyShareEvict_keyFrame _ _).work

/-- Settles O57: only CREATE, RESIZE and DESTROY set a share, out of the free pool and within it; the loss of main power puts the pools at
their start; every other command and the passing of time leave them. -/
theorem poolsConserved : Obligations.PoolsConserved := by
  refine ⟨fun s t hs h => step_poolsWhole hs h, fun c s t h => ?_, fun s t h => execFnResize_workFrame h⟩
  rcases exec_shares c s t h with hk | ⟨hc, hk⟩ | hk
  · exact .inl hk
  · exact (sharesMoved_of_sharesSet hk).imp_right fun hq => .inl ⟨hc, hq⟩
  · exact .inr (.inr hk)

end Sys2Proof.Machine
end

section
/-!
PROOFS. O4: CREATE, RESIZE, DESTROY, their completion, the snapshot, the selection and the stream keys.
-/

namespace Sys2Proof.Machine

/-! ### The registers take a function command (R40, R504) -/

theorem fnCmdReady.cmdOpen {s : State} (h : fnCmdReady s) : cmdOpen s = true := by
  obtain ⟨h1, h2, h3, h4, h5⟩ := h
  simp [Machine.cmdOpen, regsOpen, h1, h2, h3, h4, h5]

/-- With the registers open a register write of function `f` leaves its effect, less the low word `f` held. -/
theorem fnCmdReady.regWrote {s t : State} (h : fnCmdReady s) (f : Nat) (hh : t.hif.linkUp = s.hif.linkUp) (hp : t.pwr = s.pwr) :
    regWrote f t = modFn f (fun x => { x with heldWr := none }) t := by
  obtain ⟨h1, h2, h3, -, -⟩ := h
  exact regWrote_open ⟨by rw [hp, h1], by rw [hh, h2], by rw [hp]; exact h3⟩

theorem createResult_eq_zero {s : State} {f : Nat} (hf : f ≠ 0) (hc : (fnOf s f).created = false) (h : requestFits s f) :
    createResult s f = 0 := by
  obtain ⟨hm, hq⟩ := h
  have ha : aboveMinimum f s.hif.req = true := by simpa [aboveMinimum, and_assoc] using hm
  simp [createResult, hf, hc, ha, (poolFits_iff _ _ _).2 hq]

theorem resizeResult_eq_zero {s : State} {f : Nat} (hc : (fnOf s f).created = true) (h : requestFits s f) : resizeResult s f = 0 := by
  obtain ⟨hm, hq⟩ := h
  have ha : aboveMinimum f s.hif.req = true := by simpa [aboveMinimum, and_assoc] using hm
  simp [resizeResult, hc, ha, (poolFits_iff _ _ _).2 hq]

/-- A request that does not fit is refused for its minimums first, then for a free pool (R39). -/
theorem createResult_of_not_fits {s : State} {f : Nat} (hf : f ≠ 0) (hc : (fnOf s f).created = false) (h : ¬ requestFits s f) :
    createResult s f = if 16 ≤ s.hif.req.tokens ∧ 1 ≤ s.hif.req.flows ∧ 1 ≤ s.hif.req.dispatch then 1 else 2 := by
  have hm : aboveMinimum f s.hif.req = true ↔ 16 ≤ s.hif.req.tokens ∧ 1 ≤ s.hif.req.flows ∧ 1 ≤ s.hif.req.dispatch := by
    simp [aboveMinimum, hf, and_assoc]
  simp only [createResult, hf, hc, false_or, Bool.false_eq_true, if_false, ← hm, Bool.not_eq_true']
  by_cases ha : aboveMinimum f s.hif.req = true
  · have hp : poolFits s.hif.free (shareOf s f) s.hif.req = false := by
      rw [← Bool.not_eq_true, poolFits_iff]
      exact fun hq => h ⟨.inr (hm.1 ha), hq⟩
    simp [ha, hp]
  · simp [ha]

/-- A change of a function that leaves a field leaves it in every function. -/
theorem fnOf_modFn_field {β : Type} (p : Fn → β) (g : Fn → Fn) (hg : ∀ x, p (g x) = p x) (k f : Nat) (s : State) :
    p (fnOf (modFn k g s) f) = p (fnOf s f) := by
  rw [fnOf_modFn]
  split
  next h => rw [hg, h]
  next => rfl

theorem keyFrame.linkUp {s t : State} (h : keyFrame s t) : t.hif.linkUp = s.hif.linkUp := by rw [h.1]
theorem keyFrame.pwr {s t : State} (h : keyFrame s t) : t.pwr = s.pwr := by rw [h.1]
theorem keyFrame.mtr {s t : State} (h : keyFrame s t) : t.mtr = s.mtr := by rw [h.1]
theorem keyFrame.fnOf {s t : State} (h : keyFrame s t) (f : Nat) : Machine.fnOf t f = Machine.fnOf s f := by
  rw [Machine.fnOf, h.hif, Machine.fnOf]

theorem execFnCreate_next {s : State} (h : fnCmdReady s) : execFnCreate s = .next (modFn 0 (fun x => { x with heldWr := none })
    (if createResult s s.hif.fnSel ≠ 0 then cmdBegin 1 s.hif.fnSel (createResult s s.hif.fnSel) s
     else modFn s.hif.fnSel (fun x => { x with created := true, ops := 0x0BFF, budgetLimit := 4 })
       (setShare s.hif.fnSel s.hif.req (cmdBegin 1 s.hif.fnSel (createResult s s.hif.fnSel) s)))) := by
  simp only [execFnCreate, h.cmdOpen, Bool.not_true, Bool.false_eq_true, if_false]
  rw [h.regWrote 0 (by split <;> rfl) (by split <;> rfl)]
  rfl

theorem execFnResize_next {s : State} (h : fnCmdReady s) (hr : resizeResult s s.hif.fnSel = 0) :
    execFnResize s = .next (modFn 0 (fun x => { x with heldWr := none })
      (keyShareEvict s.hif.fnSel (setShare s.hif.fnSel s.hif.req (cmdBegin 2 s.hif.fnSel 0 s)))) := by
  simp only [execFnResize, h.cmdOpen, Bool.not_true, Bool.false_eq_true, if_false, hr, ne_eq, not_true]
  have hk := keyShareEvict_keyFrame s.hif.fnSel (setShare s.hif.fnSel s.hif.req (cmdBegin 2 s.hif.fnSel 0 s))
  exact congrArg Host.Outcome.next (h.regWrote 0 hk.linkUp hk.pwr)

/-- CREATE of a VF that fits (R39). -/
theorem execFnCreate_fits {s : State} (h : fnCmdReady s) (hf : s.hif.fnSel ≠ 0) (hc : (fnOf s s.hif.fnSel).created = false)
    (hq : requestFits s s.hif.fnSel) :
    ∃ t, exec .fnCreate s = .next t ∧ sharesMoved s t s.hif.fnSel s.hif.req ∧ (fnOf t s.hif.fnSel).created = true ∧
      (fnOf t s.hif.fnSel).ops = 0x0BFF ∧ t.hif.cmdPend = some ⟨1, s.hif.fnSel, 0⟩ ∧
      (∀ g, g ≠ s.hif.fnSel → g ≠ 0 → fnOf t g = fnOf s g) ∧ t = { s with hif := t.hif } := by
  have hr := createResult_eq_zero hf hc hq
  refine ⟨_, (execFnCreate_next h).trans (by rw [hr, if_neg (not_not.2 rfl)]), ?_, ?_, ?_, rfl, fun g hg h0 => ?_, rfl⟩
  · exact sharesMoved_of_pools hq.2 rfl
  · rw [fnOf_modFn_ne _ _ hf, fnOf_modFn_same]
  · rw [fnOf_modFn_ne _ _ hf, fnOf_modFn_same]
  · rw [fnOf_modFn_ne _ _ h0, fnOf_modFn_ne _ _ hg]
    rfl

/-- CREATE of a VF that does not fit moves nothing (R39). -/
theorem execFnCreate_refused {s : State} (h : fnCmdReady s) (hf : s.hif.fnSel ≠ 0) (hc : (fnOf s s.hif.fnSel).created = false)
    (hq : ¬ requestFits s s.hif.fnSel) :
    ∃ t, exec .fnCreate s = .next t ∧ t.hif.shares = s.hif.shares ∧ t.hif.free = s.hif.free ∧
      (fnOf t s.hif.fnSel).created = false ∧ t = { s with hif := t.hif } ∧
      t.hif.cmdPend = some ⟨1, s.hif.fnSel,
        if 16 ≤ s.hif.req.tokens ∧ 1 ≤ s.hif.req.flows ∧ 1 ≤ s.hif.req.dispatch then 1 else 2⟩ := by
  have hr := createResult_of_not_fits hf hc hq
  have h0 : createResult s s.hif.fnSel ≠ 0 := by rw [hr]; split <;> decide
  refine ⟨_, (execFnCreate_next h).trans (congrArg _ (congrArg _ (if_pos h0))), rfl, rfl, ?_, rfl, ?_⟩
  · rw [fnOf_modFn_ne _ _ hf]
    exact hc
  · rw [← hr]
    rfl

theorem execFnResize_fits {s : State} (h : fnCmdReady s) (hc : (fnOf s s.hif.fnSel).created = true) (hq : requestFits s s.hif.fnSel) :
    ∃ t, exec .fnResize s = .next t ∧ sharesMoved s t s.hif.fnSel s.hif.req ∧ t.hif.cmdPend = some ⟨2, s.hif.fnSel, 0⟩ ∧
      (fnOf t s.hif.fnSel).created = true := by
  have hk := keyShareEvict_keyFrame s.hif.fnSel (setShare s.hif.fnSel s.hif.req (cmdBegin 2 s.hif.fnSel 0 s))
  refine ⟨_, execFnResize_next h (resizeResult_eq_zero hc hq), sharesMoved_of_pools hq.2 ?_, ?_, ?_⟩
  · rw [modFn_pools, keyShareEvict_pools]
    rfl
  · exact congrArg Hif.cmdPend hk.hif
  · exact ((fnOf_modFn_field Fn.created _ (by intro; rfl) _ _ _).trans (congrArg Fn.created (hk.fnOf _))).trans hc

/-- A VF whose shares are back in the free pools and whose program key and approvals are gone (R43, R368). -/
def fnRemoved (f : Nat) (s : State) : State :=
  imagesDrop f (modLcy (fun l => { l with
      progKeys := tset [] l.progKeys f [], approvals := l.approvals.filter fun a => decide (a.fn ≠ f) })
    (modFn f (fun x => { x with created := false }) (setShare f Share.zero s)))

theorem fnRemoved_pools (f : Nat) (s : State) : pools (fnRemoved f s) = pools (setShare f Share.zero s) := by
  rw [fnRemoved, imagesDrop_pools, modLcy_pools, modFn_pools]

theorem execFnDestroy_next {s : State} (h : fnCmdReady s) (hr : destroyResult s s.hif.fnSel = 0) :
    execFnDestroy s = .next (modFn 0 (fun x => { x with heldWr := none }) (modMtr (fun m => { m with final := m.final ++ [s.hif.fnSel] })
      (keyShareEvict s.hif.fnSel (fnRemoved s.hif.fnSel (cmdBegin 3 s.hif.fnSel 0 s))))) := by
  have hk := keyShareEvict_keyFrame s.hif.fnSel (fnRemoved s.hif.fnSel (cmdBegin 3 s.hif.fnSel 0 s))
  simp only [execFnDestroy, h.cmdOpen, Bool.not_true, Bool.false_eq_true, if_false, hr, ne_eq, not_true]
  exact congrArg Host.Outcome.next (h.regWrote 0 hk.linkUp hk.pwr)

theorem execFnDestroy_idle {s : State} (h : fnCmdReady s) (hf : s.hif.fnSel ≠ 0) (hc : (fnOf s s.hif.fnSel).created = true)
    (hb : fnBusy s s.hif.fnSel = false) :
    ∃ t, exec .fnDestroy s = .next t ∧ sharesMoved s t s.hif.fnSel Share.zero ∧ (fnOf t s.hif.fnSel).created = false ∧
      t.hif.cmdPend = some ⟨3, s.hif.fnSel, 0⟩ ∧ t.mtr.final = s.mtr.final ++ [s.hif.fnSel] := by
  have hr : destroyResult s s.hif.fnSel = 0 := by simp [destroyResult, hf, hc, hb]
  have hk := keyShareEvict_keyFrame s.hif.fnSel (fnRemoved s.hif.fnSel (cmdBegin 3 s.hif.fnSel 0 s))
  refine ⟨_, execFnDestroy_next h hr, sharesMoved_of_pools (shareFits_zero s _) ?_, ?_, ?_, ?_⟩
  · rw [modFn_pools, modMtr_pools, keyShareEvict_pools, fnRemoved_pools]
    rfl
  · rw [fnOf_modFn_ne _ _ hf]
    exact (congrArg Fn.created (hk.fnOf _)).trans (congrArg Fn.created (fnOf_modFn_same _ _ _))
  · exact congrArg Hif.cmdPend hk.hif
  · exact congrArg (· ++ [s.hif.fnSel]) (congrArg Mtr.final hk.mtr)

/-! ### The completion (R40, R264) -/

/-- RESULT is shown and BUSY is over; a command done sets the function's stride units (R40, R264). -/
def cmdShown (c : FnCmdPend) (s : State) : State :=
  let s := modHif (fun h => { h with cmdPend := none, cmdResult := c.result }) s
  if c.result = 0 ∧ c.op ≤ 3 then modFn c.fn (fun x => { x with units := (shareOf s c.fn).dispatch }) s else s

theorem cmdShown_frame (c : FnCmdPend) (s : State) :
    cmdShown c s = { s with hif := { s.hif with cmdPend := none, cmdResult := c.result, fns := (cmdShown c s).hif.fns } } := by
  unfold cmdShown
  split <;> rfl

theorem cmdShown_undone {c : FnCmdPend} {s : State} (h : c.result ≠ 0 ∨ 3 < c.op) : (cmdShown c s).hif.fns = s.hif.fns := by
  rw [cmdShown, if_neg (by omega)]
  rfl

theorem fnOf_cmdShown_ne {c : FnCmdPend} {s : State} {g : Nat} (h : g ≠ c.fn) : fnOf (cmdShown c s) g = fnOf s g := by
  unfold cmdShown
  split
  · exact fnOf_modFn_ne _ _ h
  · rfl

theorem fnOf_cmdShown_same {c : FnCmdPend} {s : State} (h : c.result = 0) (ho : c.op ≤ 3) :
    fnOf (cmdShown c s) c.fn = { fnOf s c.fn with units := (shareOf s c.fn).dispatch } := by
  rw [cmdShown, if_pos ⟨h, ho⟩, fnOf_modFn_same]
  rfl

theorem execFnCmdComplete_next {s : State} {c : FnCmdPend} (h : s.hif.cmdPend = some c) :
    execFnCmdComplete s = .next (if c.result = 0 ∧ c.op ≤ 2 ∧ c.fn ≠ 0 then fireMsix c.fn 5 (cmdShown c s) else cmdShown c s) := by
  simp only [execFnCmdComplete, h]
  rfl

/-- An unmasked vector of a function in service sends its message (R58). -/
theorem fireMsix_sends {s : State} {f v : Nat} {e : MsixEntry} (he : (fnOf s f).msix[v]? = some e) (hm : e.mask = false)
    (hr : (fnOf s f).rst = none) (hl : s.hif.linkUp = true) (hp : s.pwr.main = true) :
    fireMsix f v s = emit (.msix f v e.addr e.data) s := by
  simp [fireMsix, he, hm, hr, hl, hp]

/-- The completion shows RESULT, sets the stride's units and fires vector 5 (R40, R264). -/
theorem execFnCmdComplete_shows {s : State} {c : FnCmdPend} (h : s.hif.cmdPend = some c) :
    ∃ t, exec .fnCmdComplete s = .next t ∧ t.hif.cmdPend = none ∧ t.hif.cmdResult = c.result ∧ t.hif.shares = s.hif.shares ∧
      t.hif.free = s.hif.free ∧ (c.result ≠ 0 ∨ 3 < c.op → t = { s with hif := t.hif } ∧ t.hif.fns = s.hif.fns) ∧
      (c.result ≠ 0 ∨ 2 < c.op ∨ c.fn = 0 → t = { s with hif := t.hif } ∧ ∀ g, g ≠ c.fn → fnOf t g = fnOf s g) ∧
      (c.result = 0 → c.op ≤ 3 → (fnOf t c.fn).units = (shareOf s c.fn).dispatch) ∧
      ∀ e, c.result = 0 → c.op ≤ 2 → c.fn ≠ 0 → (fnOf s c.fn).msix[5]? = some e → e.mask = false → (fnOf s c.fn).rst = none →
        s.hif.linkUp = true → s.pwr.main = true → t.out = s.out ++ [.msix c.fn 5 e.addr e.data] := by
  have hb := cmdShown_frame c s
  generalize hu : cmdShown c s = u at hb
  by_cases hc : c.result = 0 ∧ c.op ≤ 2 ∧ c.fn ≠ 0
  · obtain ⟨h0, h2, hf⟩ := hc
    have hs := fireMsix_side c.fn 5 u
    have hfn : fnOf u c.fn = _ := hu ▸ fnOf_cmdShown_same h0 (by omega)
    refine ⟨fireMsix c.fn 5 u, by rw [← hu]; exact (execFnCmdComplete_next h).trans (congrArg _ (if_pos ⟨h0, h2, hf⟩)), ?_, ?_, ?_, ?_,
      by omega, by omega, fun _ _ => ?_, fun e _ _ _ he hm hr hl hp => ?_⟩
    iterate 4 rw [hs.1, hb]
    · rw [hs.2, hfn]
    · rw [fireMsix_sends (by rw [hfn]; exact he) hm (by rw [hfn]; exact hr) (by rw [hb]; exact hl) (by rw [hb]; exact hp), hb]
      rfl
  · refine ⟨u, by rw [← hu]; exact (execFnCmdComplete_next h).trans (congrArg _ (if_neg hc)), ?_, ?_, ?_, ?_, fun h0 => ?_, fun _ => ?_,
      fun h0 h3 => ?_, fun e h0 h2 hf => absurd ⟨h0, h2, hf⟩ hc⟩
    iterate 4 rw [hb]
    · exact ⟨by rw [hb], by rw [← hu, cmdShown_undone h0]⟩
    · exact ⟨by rw [hb], fun g hg => by rw [← hu, fnOf_cmdShown_ne hg]⟩
    · rw [← hu, fnOf_cmdShown_same h0 h3]

/-! ### The snapshot, the selection and the stream keys (R33, R41, R286) -/

theorem execPoolSnap_latches {s : State} (hp : s.pwr.main = true) (hl : s.hif.linkUp = true) (hg : s.pwr.mode ≠ .guard)
    (hs : s.pwr.mode ≠ .start) :
    exec .poolSnap s = .next { s with
      hif := { s.hif with snapFree := s.hif.free, snapShare := shareOf s s.hif.fnSel }, out := s.out ++ [.reg 1] } := by
  simp [exec, execPoolSnap, hp, hl, hg, hs, poolTake, emit, modHif, shareOf]

theorem execFnSelWrite_selects {s : State} {v : Nat} (h : fnCmdReady s) (hv : v ≤ 1024) :
    ∃ t, exec (.fnSelWrite v) s = .next t ∧ t.hif.fnSel = v ∧ t.hif.hrStage = (fnOf s v).regions ∧
      t = { s with hif := { s.hif with fnSel := v, hrStage := (fnOf s v).regions, fns := t.hif.fns } } ∧
      ∀ g, fnOf t g = if g = 0 then { fnOf s 0 with heldWr := none } else fnOf s g := by
  refine ⟨modFn 0 (fun x => { x with heldWr := none }) (modHif (fun h => { h with fnSel := v, hrStage := (fnOf s v).regions }) s),
    ?_, rfl, rfl, rfl, fun g => fnOf_modFn _ _ _ _⟩
  simp only [exec, execFnSelWrite, h.cmdOpen, Nat.not_lt.2 hv, Bool.not_true, Bool.false_eq_true, or_self, if_false]
  exact congrArg Host.Outcome.next (h.regWrote 0 rfl rfl)

theorem execDoeIdeKm_programs {s : State} {stream : Nat} {key : List Byte} (hp : s.pwr.main = true) (hl : s.hif.linkUp = true)
    (hn : (s.hif.ide.filter fun e => decide (e.id ≠ stream)).length < 64) :
    exec (.doeIdeKm stream key) s = .next { s with hif := { s.hif with
      ide := (s.hif.ide.filter fun e => decide (e.id ≠ stream)) ++ [⟨stream, padTo 32 key⟩] } } := by
  exact congrArg Host.Outcome.next (if_neg (by simpa [hp, hl] using hn))

/-- Settles O4: CREATE, RESIZE and DESTROY go through their result and `setShare`; the completion, the snapshot, the selection and a stream's
key each touch the host interface alone. -/
theorem functionCommands : Obligations.FunctionCommands :=
  ⟨fun _ h hf hc hq => execFnCreate_fits h hf hc hq, fun _ h hf hc hq => execFnCreate_refused h hf hc hq,
    fun _ h hc hq => execFnResize_fits h hc hq, fun _ h hf hc hb => execFnDestroy_idle h hf hc hb, fun _ _ h => execFnCmdComplete_shows h,
    fun _ hp hl hg hs => execPoolSnap_latches hp hl hg hs, fun _ _ h hv => execFnSelWrite_selects h hv,
    fun _ _ _ hp hl hn => execDoeIdeKm_programs hp hl hn⟩

end Sys2Proof.Machine
end

section
/-!
PROOFS. O3 fails: a record whose function's reset report is due reads FREE in the token table and is none that acceptance may use.
-/

namespace Sys2Proof.Machine

/-! ### A record that waits for a reset's report (R235) -/

/-- RANDOM_GENERATE for 16 bytes, as the host writes it. -/
def randomDesc : Bytes := leBytes 2 0x1901 ++ zeroBytes 46 ++ leBytes 4 16 ++ zeroBytes 12

/-- A device in ACTIVE with one descriptor fetch outstanding on the PF's pair 0. VF 1 has been reset and its report is not written: its token's
record 0 reads FREE in the table and waits among the records of the reset. -/
def buriedRecord : State :=
  { State.reset with
    pwr := { Pwr.new with mode := .active }
    hif := { Hif.start with
      linkUp := true, svcMode := .active, svcLatches := 1
      fns := [(0, { Fn.pf with
        ops := 0x1FFF, rings := [{ Ring.blank with st := .running, enable := true, tail := 4, inFlight := 1, reserved := 1 }] })] }
    slm := { Slm.start with dead := [(0, { Token.free with st := .ready, func := 1 })] } }

theorem buriedRecord_accepts :
    (fnOf buriedRecord 0).rings[0]? = some { Ring.blank with st := .running, enable := true, tail := 4, inFlight := 1, reserved := 1 } ∧
    serves buriedRecord 0 = true ∧ (fnOf buriedRecord 0).rst = none ∧ admission buriedRecord 0 (padTo 64 randomDesc) = 0 ∧
    (tok buriedRecord 0).st = .free ∧ dNotBefore (padTo 64 randomDesc) = 0 := by
  decide +kernel

/-- What DESCRIPTOR_ACCEPT with record 0 as its operand makes of the buried record: nothing, since record 1 is the lowest that is FREE. -/
theorem buriedRecord_stays {t : State} (h : exec (.descriptorAccept 0 0 randomDesc 0) buriedRecord = .next t) :
    (tok t 0).st = .free ∧ (tok t 1).st = .ready := by
  cases h
  decide +kernel

/-- Refutes O3: the last clause takes a record whose table entry reads FREE for one that acceptance may use, but while its function's reset
report is due the record is no FREE one (R235), and acceptance takes the next. -/
theorem not_fetchAndAccept : ¬ Obligations.FetchAndAccept := by
  intro h
  obtain ⟨hr, hs, hx, ha, hf, hn⟩ := buriedRecord_accepts
  obtain ⟨-, -, -, -, hacc⟩ := h buriedRecord 0 0 _ hr
  obtain ⟨t, ht, -, hst, -⟩ := hacc randomDesc 0 (by decide) (by decide) hs hx ha hf (by decide)
  rw [(buriedRecord_stays ht).1, hn] at hst
  exact absurd hst (by decide)

end Sys2Proof.Machine
end

section
/-!
PROOFS. O5: function level reset. A stamp empties what the function has in Slalom and at the host interface; the drain limit resets contexts; the
report's writes and the end of the reset follow. The frames of host traffic, of metering and of what is sent out stand here.
-/

namespace Sys2Proof.Machine

/-! ### Quiet functions: what reports and counters leave of the function table -/

/-- No function differs but in its pending vectors. -/
def fnQuiet (s t : State) : Prop := ∀ g, fnOf t g = { fnOf s g with msix := (fnOf t g).msix }

theorem fnQuiet.refl (s : State) : fnQuiet s s := fun _ => rfl
theorem fnQuiet.trans {s t u : State} (h : fnQuiet s t) (k : fnQuiet t u) : fnQuiet s u := fun g => by rw [k g, h g]
theorem fnQuiet_of_hif {s t : State} (h : t.hif = s.hif) : fnQuiet s t := fun g => by rw [fnOf, h, fnOf]

/-- A field other than the vectors is as it was. -/
theorem fnQuiet.field {β : Type} {s t : State} (h : fnQuiet s t) (p : Fn → β) (hp : ∀ x m, p { x with msix := m } = p x) (g : Nat) :
    p (fnOf t g) = p (fnOf s g) := by
  rw [h g, hp]

theorem fnOf_of_fns {s t : State} (h : t.hif.fns = s.hif.fns) (f : Nat) : fnOf t f = fnOf s f := by rw [fnOf, h, fnOf]

/-! ### Key store operations under a reset (R130, R132) -/

theorem keySettle_keyFrame (f : Nat) (s : State) : keyFrame s (keySettle f s) := by
  refine .trans ?_ (keyShareEvict_keyFrame f _)
  generalize ((s.kst.keys.filter _).map _) = l
  induction l generalizing s with
  | nil => exact .refl s
  | cons i l ih => exact (keyInvalidate_keyFrame i s).trans (ih _)

theorem keyRetire_keyFrame (i : Nat) (s : State) : keyFrame s (keyRetire i s) := by
  unfold keyRetire
  split
  · exact modKst_keyFrame _ s
  · exact keyInvalidate_keyFrame i s

theorem fnKeysDrop_keyFrame (f : Nat) (s : State) : keyFrame s (fnKeysDrop f s) := by
  unfold fnKeysDrop
  generalize ((s.kst.keys.filter _).map _) = l
  induction l generalizing s with
  | nil => exact .refl s
  | cons i l ih => exact (keyRetire_keyFrame i s).trans (ih _)

theorem missAbandon_keyFrame (f : Nat) (s : State) : keyFrame s (missAbandon f s) := ⟨rfl, fun _ => rfl⟩

/-! ### The stamp (R60, R225) -/

/-- Neither the host interface nor a token differs. -/
def tokFrame (s t : State) : Prop := t.hif = s.hif ∧ t.slm.toks = s.slm.toks

theorem tokFrame.refl (s : State) : tokFrame s s := ⟨rfl, rfl⟩
theorem tokFrame.trans {s t u : State} (h : tokFrame s t) (k : tokFrame t u) : tokFrame s u := ⟨k.1.trans h.1, k.2.trans h.2⟩
theorem tokFrame.tok {s t : State} (h : tokFrame s t) (i : Nat) : Machine.tok t i = Machine.tok s i := by rw [Machine.tok, h.2, Machine.tok]
theorem keyFrame.tokFrame {s t : State} (h : keyFrame s t) : tokFrame s t := ⟨h.hif, by rw [h.1]⟩

theorem modCore_tokFrame (p : Nat) (g : Core → Core) (s : State) : tokFrame s (modCore p g s) := ⟨rfl, rfl⟩

theorem waitDrop_tokFrame (i : Nat) (s : State) : tokFrame s (waitDrop i s) := ⟨rfl, rfl⟩
theorem givenLate_tokFrame (p i : Nat) (s : State) : tokFrame s (givenLate p i s) :=
  .trans (t := waitDrop i _) (.trans (t := modCpu _ s) ⟨rfl, rfl⟩ (waitDrop_tokFrame _ _)) (modCore_tokFrame _ _ _)

theorem parkDrop_tokFrame (i : Nat) (s : State) : tokFrame s (parkDrop i s) := by
  refine .trans (t := waitDrop i s) ⟨rfl, rfl⟩ ?_
  simp only [parkDrop]
  split
  · exact .refl _
  · exact .trans (t := modCpu _ (waitDrop i s)) ⟨rfl, rfl⟩ (keySettle_keyFrame _ _).tokFrame

theorem admitRetries_tokFrame (n : Nat) (s : State) : tokFrame s (admitRetries n s) := by
  induction n generalizing s with
  | zero => exact .refl s
  | succ n ih =>
    unfold admitRetries
    split
    · exact .refl s
    · split
      · exact .trans ⟨rfl, rfl⟩ (ih _)
      · exact .refl s

theorem liftFreed_tokFrame (s : State) : tokFrame s (liftFreed s) := admitRetries_tokFrame _ s

theorem mirrorSend_tokFrame (ty l : Nat) (b : Bytes) (s : State) : tokFrame s (mirrorSend ty l b s) := (mirrorSend_keyFrame ty l b s).tokFrame

/-- A token stamped leaves the table; no other does. -/
theorem stampToken_toks (s : State) (it : Nat × Token) :
    (stampToken s it).hif = s.hif ∧ (stampToken s it).slm.toks = tset Token.free s.slm.toks it.1 Token.free := by
  have key : ∀ u, tokFrame s u → (buryToken it.1 u).hif = s.hif ∧
      (buryToken it.1 u).slm.toks = tset Token.free s.slm.toks it.1 Token.free := fun u h => ⟨h.1, by
    rw [← h.2]
    rfl⟩
  simp only [stampToken]
  refine key _ ?_
  have h1 : tokFrame s (if it.2.st = .core then liftDrop (.ent it.1) (liftDrop (.pace it.1) s)
      else parkDrop it.1 (liftDrop (.ent it.1) (liftDrop (.pace it.1) s))) := by
    split
    · exact ⟨rfl, rfl⟩
    · exact .trans ⟨rfl, rfl⟩ (parkDrop_tokFrame _ _)
  revert h1
  generalize ite (it.2.st = .core) _ _ = u
  intro h1
  refine h1.trans ?_
  split
  · exact .refl _
  · split
    · exact (givenLate_tokFrame _ _ u).trans (modCore_tokFrame _ _ _)
    · exact modCore_tokFrame _ _ u

theorem stampToken_foldl (l : List (Nat × Token)) (s : State) :
    (l.foldl stampToken s).hif = s.hif ∧
    ∀ i, tok (l.foldl stampToken s) i = if i ∈ l.map (fun it => it.1) then Token.free else tok s i := by
  induction l generalizing s with
  | nil => exact ⟨rfl, fun i => rfl⟩
  | cons it l ih =>
    obtain ⟨h1, h2⟩ := stampToken_toks s it
    obtain ⟨k1, k2⟩ := ih (stampToken s it)
    refine ⟨k1.trans h1, fun i => (k2 i).trans ?_⟩
    have ht : tok (stampToken s it) i = if i = it.1 then Token.free else tok s i := by rw [tok, h2, tget_tset]; rfl
    rw [ht, List.map_cons]
    by_cases hi : i ∈ l.map (fun it => it.1) <;> by_cases hj : i = it.1 <;> simp [hi, hj]

/-- A token in the table is an entry of the table. -/
theorem tget_mem_or_default {α : Type} (d : α) (t : Tab α) (k : Nat) : (k, tget d t k) ∈ t ∨ tget d t k = d := by
  induction t with
  | nil => exact .inr rfl
  | cons e t ih =>
    obtain ⟨k', v⟩ := e
    rw [tget]
    split
    next h => exact .inl (by simp [h])
    next => exact ih.imp_left (List.mem_cons_of_mem _)

/-- The state of function `f` while its reset's stamp is being taken: every part of `resetStamp` after it leaves the host interface as it is,
but for the completions of `f`. -/
theorem resetStamp_hif {c f : Nat} {s : State} (h : (fnOf s f).rst = none) :
    ∃ r : FnReset, r.stamp = tick s ∧ r.stampRef = s.time.refCount ∧ r.cause = c ∧ r.rptBase = (fnOf s f).rptBase ∧
      r.races = (fnOf s f).races ∧ r.drained = false ∧
      (resetStamp c s f).hif.fns = (modFn f (fun x => { x with rst := some r, rstWord := .resetting }) s).hif.fns ∧
      (resetStamp c s f).hif = { s.hif with
        fns := (resetStamp c s f).hif.fns, relq := s.hif.relq.filter fun r => decide (r.fn ≠ f) } ∧
      ∀ i, (tok (resetStamp c s f) i).st ≠ .free → (tok (resetStamp c s f) i).func ≠ f := by
  simp only [resetStamp, h, Option.isSome_none, Bool.false_eq_true, if_false]
  set r : FnReset := ⟨tick s, s.time.refCount, timeField s, c, (fnOf s f).rptBase, (fnOf s f).races, stampEntries s f,
    ((s.slm.toks.filter fun it => decide (it.2.func = f)).map stampUnits).sum, false⟩
  set l := s.slm.toks.filter fun it => decide (it.2.func = f) with hl
  set u := stampMovers f (stampCores f (modFn f (fun x => { x with rst := some r, rstWord := .resetting }) s)) with hu
  obtain ⟨k1, k2⟩ := stampToken_foldl l u
  have hm : tokFrame (l.foldl stampToken u) (missAbandon f (l.foldl stampToken u)) := (missAbandon_keyFrame f _).tokFrame
  generalize missAbandon f (l.foldl stampToken u) = v at hm
  have hf := liftFreed_tokFrame (modHif (fun h => { h with relq := h.relq.filter fun r => decide (r.fn ≠ f) }) v)
  generalize liftFreed (modHif (fun h => { h with relq := h.relq.filter fun r => decide (r.fn ≠ f) }) v) = w at hf
  refine ⟨r, rfl, rfl, rfl, rfl, rfl, rfl, ?_⟩
  have key : ∀ x, tokFrame w x → x.hif.fns = (modFn f (fun x => { x with rst := some r, rstWord := .resetting }) s).hif.fns ∧
      x.hif = { s.hif with fns := x.hif.fns, relq := s.hif.relq.filter fun r => decide (r.fn ≠ f) } ∧
      ∀ i, (tok x i).st ≠ .free → (tok x i).func ≠ f := by
    intro x hx
    refine ⟨?_, ?_, fun i => ?_⟩
    · rw [hx.1, hf.1, modHif_hif, hm.1, k1]
      rfl
    · rw [hx.1, hf.1, modHif_hif, hm.1, k1]
      rfl
    · have hv : tok x i = tok v i := (hx.tok i).trans (hf.tok i)
      rw [hv, hm.tok, k2]
      split
      · intro h0
        exact absurd rfl h0
      next hi =>
        intro h0 h1
        have ht : tok u i = tget Token.free s.slm.toks i := rfl
        rw [ht] at h0 h1
        rcases tget_mem_or_default Token.free s.slm.toks i with h2 | h2
        · exact hi (List.mem_map.2 ⟨_, List.mem_filter.2 ⟨h2, by simpa using h1⟩, rfl⟩)
        · exact h0 (by rw [h2]; rfl)
  refine key _ ?_
  split
  · exact mirrorSend_tokFrame _ _ _ _
  · exact .refl _

/-- The stamp of `f` begins its reset (R60). -/
theorem resetStamp_begins {c f : Nat} {s : State} (h : (fnOf s f).rst = none) : resetBegun s (resetStamp c s f) f c := by
  obtain ⟨r, h1, h2, h3, h4, h5, h6, hn, hh, ht⟩ := resetStamp_hif (c := c) h
  have hf : fnOf (resetStamp c s f) f = { fnOf s f with rst := some r, rstWord := .resetting } := by
    exact (fnOf_of_fns hn f).trans (fnOf_modFn_same f _ s)
  refine ⟨⟨r, by rw [hf], h1, h2, h3, h4, h5, h6⟩, by rw [hf], ht, fun x hx => ?_⟩
  rw [hh] at hx
  simpa using (List.mem_filter.1 hx).2

/-- A function in reset keeps the reset it has. -/
theorem resetStamp_kept {c f : Nat} {s : State} (h : (fnOf s f).rst ≠ none) : resetStamp c s f = s := by
  simp only [resetStamp, Option.isSome_iff_ne_none.2 h, if_true]

/-- The stamp touches the functions and the completions to be written of the host interface, and of the functions `f` alone. -/
theorem resetStamp_others (c f : Nat) (s : State) :
    (resetStamp c s f).hif = { s.hif with fns := (resetStamp c s f).hif.fns, relq := (resetStamp c s f).hif.relq } ∧
    ∀ g, g ≠ f → fnOf (resetStamp c s f) g = fnOf s g := by
  by_cases h : (fnOf s f).rst = none
  · obtain ⟨r, -, -, -, -, -, -, hn, hh, -⟩ := resetStamp_hif (c := c) h
    refine ⟨by rw [hh], fun g hg => ?_⟩
    exact (fnOf_of_fns hn g).trans (fnOf_modFn_ne _ s hg)
  · rw [resetStamp_kept h]
    exact ⟨rfl, fun _ _ => rfl⟩

theorem resetStamp_rst_ne {c f g : Nat} (s : State) (h : g ≠ f) : (fnOf (resetStamp c s f) g).rst = (fnOf s g).rst := by
  rw [(resetStamp_others c f s).2 g h]

/-- After the stamp of `f` the function is in reset, in its own or in the one it had. -/
theorem resetStamp_rst_same (c f : Nat) (s : State) :
    (fnOf (resetStamp c s f) f).rst ≠ none ∧
    ((fnOf s f).rst = none → ∃ r, (fnOf (resetStamp c s f) f).rst = some r ∧ r.cause = c ∧ r.stamp = tick s) ∧
    ((fnOf s f).rst ≠ none → (fnOf (resetStamp c s f) f).rst = (fnOf s f).rst) := by
  by_cases h : (fnOf s f).rst = none
  · obtain ⟨⟨r, hr, h1, -, h3, -⟩, -⟩ := resetStamp_begins (c := c) h
    exact ⟨by rw [hr]; exact Option.some_ne_none r, fun _ => ⟨r, hr, h3, h1⟩, fun h' => absurd h h'⟩
  · rw [resetStamp_kept h]
    exact ⟨h, fun h' => absurd h' h, fun _ => rfl⟩

/-- A function in reset keeps it through the stamps of others, and its own. -/
theorem resetStamp_rst_kept {c f g : Nat} {s : State} (h : (fnOf s g).rst ≠ none) : (fnOf (resetStamp c s f) g).rst = (fnOf s g).rst := by
  by_cases hg : g = f
  · rw [resetStamp_kept (hg ▸ h)]
  · exact resetStamp_rst_ne s hg

theorem resetStamp_foldl_kept {c g : Nat} {l : List Nat} {s : State} (h : (fnOf s g).rst ≠ none ∨ g ∉ l) :
    (fnOf (l.foldl (resetStamp c) s) g).rst = (fnOf s g).rst := by
  induction l generalizing s with
  | nil => rfl
  | cons f l ih =>
    have h1 : (fnOf (resetStamp c s f) g).rst = (fnOf s g).rst := by
      rcases h with h | h
      · exact resetStamp_rst_kept h
      · exact resetStamp_rst_ne s (fun hg => h (by simp [hg]))
    rw [List.foldl_cons, ih, h1]
    rw [h1]
    exact h.imp_right fun hg hm => hg (List.mem_cons_of_mem _ hm)

/-- Every function of the list that was in no reset is in one of the cause. -/
theorem resetStamp_foldl_begun {c g : Nat} {l : List Nat} {s : State} (h : g ∈ l) (hn : (fnOf s g).rst = none) :
    ∃ r, (fnOf (l.foldl (resetStamp c) s) g).rst = some r ∧ r.cause = c := by
  induction l generalizing s with
  | nil => cases h
  | cons f l ih =>
    rw [List.foldl_cons]
    by_cases hg : g = f
    · subst hg
      obtain ⟨r, hr, hc, -⟩ := (resetStamp_rst_same c g s).2.1 hn
      exact ⟨r, (resetStamp_foldl_kept (.inl (by rw [hr]; exact Option.some_ne_none r))).trans hr, hc⟩
    · exact ih ((List.mem_cons.1 h).resolve_left hg) ((resetStamp_rst_ne s hg).trans hn)

/-- Every function of the list is in reset. -/
theorem resetStamp_foldl_in {c g : Nat} {l : List Nat} {s : State} (h : g ∈ l) : (fnOf (l.foldl (resetStamp c) s) g).rst ≠ none := by
  by_cases hn : (fnOf s g).rst = none
  · obtain ⟨r, hr, -⟩ := resetStamp_foldl_begun (c := c) h hn
    rw [hr]
    exact Option.some_ne_none r
  · rwa [resetStamp_foldl_kept (.inl hn)]

theorem mem_vfList {f : Nat} : f ∈ vfList ↔ 1 ≤ f ∧ f ≤ 1024 := by
  simp only [vfList, List.mem_map, List.mem_range]
  exact ⟨fun ⟨k, hk, h⟩ => by omega, fun h => ⟨f - 1, by omega, by omega⟩⟩

/-! ### The resets' causes (R60) -/

theorem execVfFlr_begins {s : State} {f : Nat} (hp : s.pwr.main = true) (hl : s.hif.linkUp = true) (hv : s.hif.vfEnable = true) (h1 : 1 ≤ f)
    (h2 : f ≤ 1024) (hr : (fnOf s f).rst = none) :
    ∃ t, exec (.vfFlr f) s = .next t ∧ resetBegun s t f 1 ∧ ∀ g, g ≠ f → (fnOf t g).rst = (fnOf s g).rst :=
  ⟨resetStamp 1 s f, congrArg Host.Outcome.next (if_pos ⟨by simp [cfgAnswers, hp, hl], by omega, by simp [fnExists, hv, h2]⟩), resetStamp_begins hr,
    fun _ hg => resetStamp_rst_ne s hg⟩

/-- A change of another field of the function leaves its reset begun. -/
theorem resetBegun_modFn {s t : State} {f c : Nat} (k : Nat) (g : Fn → Fn) (hg : ∀ x, (g x).rst = x.rst ∧ (g x).rstWord = x.rstWord)
    (h : resetBegun s t f c) : resetBegun s (modFn k g t) f c := by
  obtain ⟨hr, hw, ht, hq⟩ := h
  refine ⟨?_, ?_, ht, hq⟩
  · rw [fnOf_modFn_field Fn.rst g (fun x => (hg x).1)]
    exact hr
  · rw [fnOf_modFn_field Fn.rstWord g (fun x => (hg x).2)]
    exact hw

theorem execVfD3hot_begins {s : State} {f : Nat} (hp : s.pwr.main = true) (hl : s.hif.linkUp = true) (hv : s.hif.vfEnable = true) (h1 : 1 ≤ f)
    (h2 : f ≤ 1024) (hr : (fnOf s f).rst = none) :
    ∃ t, exec (.vfD3hot f) s = .next t ∧ resetBegun s t f 5 ∧ (fnOf t f).d3 = true ∧ ∀ g, g ≠ f → (fnOf t g).rst = (fnOf s g).rst :=
  ⟨modFn f (fun x => { x with d3 := true }) (resetStamp 5 s f),
    congrArg Host.Outcome.next (if_pos ⟨by simp [cfgAnswers, hp, hl], by omega, by simp [fnExists, hv, h2]⟩),
    resetBegun_modFn f _ (fun _ => ⟨rfl, rfl⟩) (resetStamp_begins hr), congrArg Fn.d3 (fnOf_modFn_same f _ _),
    fun g hg => by rw [fnOf_modFn_ne _ _ hg]; exact resetStamp_rst_ne s hg⟩

theorem execFnReset_begins {s : State} (h : fnCmdReady s) (hf : s.hif.fnSel ≠ 0) (hc : (fnOf s s.hif.fnSel).created = true)
    (hr : (fnOf s s.hif.fnSel).rst = none) :
    ∃ t, exec .fnReset s = .next t ∧ resetBegun s t s.hif.fnSel 4 ∧ t.hif.cmdPend = some ⟨4, s.hif.fnSel, 0⟩ ∧
      ∀ g, g ≠ s.hif.fnSel → (fnOf t g).rst = (fnOf s g).rst := by
  have he : execFnReset s = .next (regWrote 0 (resetStamp 4 (cmdBegin 4 s.hif.fnSel 0 s) s.hif.fnSel)) := by
    simp only [execFnReset, h.cmdOpen, hf, hc, Bool.not_true, Bool.false_eq_true, if_false, if_true]
  have hb : resetBegun s (resetStamp 4 (cmdBegin 4 s.hif.fnSel 0 s) s.hif.fnSel) s.hif.fnSel 4 :=
    resetStamp_begins (s := cmdBegin 4 s.hif.fnSel 0 s) hr
  obtain ⟨ho, hg⟩ := resetStamp_others 4 s.hif.fnSel (cmdBegin 4 s.hif.fnSel 0 s)
  refine ⟨_, he, ?_⟩
  generalize resetStamp 4 (cmdBegin 4 s.hif.fnSel 0 s) s.hif.fnSel = u at hb ho hg
  have hu : u.hif.cmdPend = some ⟨4, s.hif.fnSel, 0⟩ := by rw [ho]; rfl
  unfold regWrote
  split
  · refine ⟨resetBegun_modFn 0 _ (fun _ => ⟨rfl, rfl⟩) hb, hu, fun g hne => ?_⟩
    rw [fnOf_modFn_field Fn.rst _ (by intro; rfl), hg g hne]
    rfl
  · exact ⟨hb, hu, fun g hne => by rw [hg g hne]; rfl⟩

theorem execPfFlr_begins {s : State} (hp : s.pwr.main = true) (hl : s.hif.linkUp = true) (hr : (fnOf s 0).rst = none) :
    ∃ t, exec .pfFlr s = .next t ∧ (∃ r, (fnOf t 0).rst = some r ∧ r.cause = 2 ∧ r.stamp = tick s) ∧
      (∀ f, 1 ≤ f → f ≤ 1024 → s.hif.vfEnable = true → (fnOf t f).rst ≠ none) ∧
      (∀ f, f ≠ 0 → s.hif.vfEnable = false → (fnOf t f).rst = (fnOf s f).rst) := by
  obtain ⟨r, h0, hc, ht⟩ := (resetStamp_rst_same 2 0 s).2.1 hr
  refine ⟨(if s.hif.vfEnable then vfList else []).foldl (resetStamp 2) (resetStamp 2 s 0),
    congrArg Host.Outcome.next (if_pos (by simp [cfgAnswers, hp, hl])), ⟨r, ?_, hc, ht⟩, fun f h1 h2 hv => ?_, fun f hf hv => ?_⟩
  · rw [resetStamp_foldl_kept (.inl (by rw [h0]; exact Option.some_ne_none r)), h0]
  · rw [hv, if_pos rfl]
    exact resetStamp_foldl_in (mem_vfList.2 ⟨h1, h2⟩)
  · rw [hv, if_neg (by decide)]
    exact resetStamp_rst_ne s hf

theorem vfEnable_off (s : State) : (modHif (fun h => { h with vfEnable := false }) s).hif.vfEnable = false := rfl
theorem modHif_fns_off (s : State) : (modHif (fun h => { h with vfEnable := false }) s).hif.fns = s.hif.fns := rfl

theorem execVfEnableClear_begins {s : State} (hp : s.pwr.main = true) (hl : s.hif.linkUp = true) (hv : s.hif.vfEnable = true) :
    ∃ t, exec .vfEnableClear s = .next t ∧ t.hif.vfEnable = false ∧ (fnOf t 0).rst = (fnOf s 0).rst ∧
      ∀ f, 1 ≤ f → f ≤ 1024 → (fnOf t f).rst ≠ none ∧ ((fnOf s f).rst = none → ∃ r, (fnOf t f).rst = some r ∧ r.cause = 3) := by
  have he : exec .vfEnableClear s = .next (modHif (fun h => { h with vfEnable := false }) (vfList.foldl (resetStamp 3) s)) :=
    congrArg Host.Outcome.next (if_pos ⟨by simp [cfgAnswers, hp, hl], hv⟩)
  have hk : (fnOf (vfList.foldl (resetStamp 3) s) 0).rst = (fnOf s 0).rst := resetStamp_foldl_kept (.inr (by rw [mem_vfList]; omega))
  have hb : ∀ f, 1 ≤ f → f ≤ 1024 → (fnOf (vfList.foldl (resetStamp 3) s) f).rst ≠ none ∧
      ((fnOf s f).rst = none → ∃ r, (fnOf (vfList.foldl (resetStamp 3) s) f).rst = some r ∧ r.cause = 3) := fun _ h1 h2 =>
    ⟨resetStamp_foldl_in (mem_vfList.2 ⟨h1, h2⟩), fun hn => resetStamp_foldl_begun (mem_vfList.2 ⟨h1, h2⟩) hn⟩
  have hm : ∀ f, fnOf (modHif (fun h => { h with vfEnable := false }) (vfList.foldl (resetStamp 3) s)) f = fnOf (vfList.foldl (resetStamp 3) s) f :=
    fun f => fnOf_of_fns (modHif_fns_off _) f
  refine ⟨_, he, vfEnable_off _, ?_, fun f h1 h2 => ?_⟩
  · rw [hm, hk]
  · rw [hm]
    exact hb f h1 h2

/-! ### A core's context reset (R225-R228) -/

/-- Core `p` alone differs of the cores, with its fault entry kept, and no function but in its pending vectors. -/
def coreFrame (p : Nat) (s t : State) : Prop :=
  fnQuiet s t ∧ (∀ q, q ≠ p → core t q = core s q) ∧ (core t p).fwFault = (core s p).fwFault

theorem coreFrame.refl (p : Nat) (s : State) : coreFrame p s s := ⟨.refl s, fun _ _ => rfl, rfl⟩
theorem coreFrame.trans {p : Nat} {s t u : State} (h : coreFrame p s t) (k : coreFrame p t u) : coreFrame p s u := by
  obtain ⟨h1, h2, h3⟩ := h
  obtain ⟨k1, k2, k3⟩ := k
  exact ⟨h1.trans k1, fun q hq => (k2 q hq).trans (h2 q hq), k3.trans h3⟩

/-- An operation that leaves the functions and the cores. -/
theorem coreFrame_of_cores {s t : State} (p : Nat) (h : fnQuiet s t) (hc : t.cpu.cores = s.cpu.cores) : coreFrame p s t :=
  ⟨h, fun q _ => by rw [core, hc, core], by rw [core, hc, core]⟩

theorem keyFrame.coreFrame {s t : State} (p : Nat) (h : keyFrame s t) : coreFrame p s t :=
  coreFrame_of_cores p (fnQuiet_of_hif h.hif) (by rw [h.1])
theorem sideFrame.coreFrame {s t : State} (p : Nat) (h : sideFrame s t) : coreFrame p s t := coreFrame_of_cores p h.2 (by rw [h.1])
theorem reportFrame.coreFrame {s t : State} (p : Nat) (h : reportFrame s t) : coreFrame p s t := coreFrame_of_cores p h.2 (by rw [h.1])
theorem modLanes_coreFrame (p : Nat) (g : Lanes → Lanes) (s : State) : coreFrame p s (modLanes g s) :=
  coreFrame_of_cores p (fnQuiet_of_hif rfl) rfl
theorem modKst_coreFrame (p : Nat) (g : Kst → Kst) (s : State) : coreFrame p s (modKst g s) := coreFrame_of_cores p (fnQuiet_of_hif rfl) rfl
theorem modMov_coreFrame (p : Nat) (g : Mov → Mov) (s : State) : coreFrame p s (modMov g s) := coreFrame_of_cores p (fnQuiet_of_hif rfl) rfl

theorem modCore_coreFrame (p : Nat) (g : Core → Core) (hg : ∀ c, (g c).fwFault = c.fwFault) (s : State) : coreFrame p s (modCore p g s) :=
  ⟨fnQuiet_of_hif rfl, fun _ hq => core_modCore_ne g s hq, by rw [core_modCore_same, hg]⟩

theorem foldl_coreFrame {β : Type} {p : Nat} {f : State → β → State} (h : ∀ s b, coreFrame p s (f s b)) (l : List β) (s : State) :
    coreFrame p s (l.foldl f s) := by
  induction l generalizing s with
  | nil => exact .refl p s
  | cons b l ih => exact (h s b).trans (ih _)

theorem coreWrite_coreFrame (p a : Nat) (d : Bytes) (s : State) : coreFrame p s (coreWrite p a d s) := by
  unfold coreWrite
  split
  · exact modCore_coreFrame p _ (by intro; rfl) s
  · split
    · exact coreFrame_of_cores p (fnQuiet_of_hif rfl) rfl
    · exact modMov_coreFrame p _ s

/-- Writes sent out for an output aperture leave everything else. -/
theorem outWrite_fold (g : Nat × State → Nat × Nat → Nat × State) (hg : ∀ x b, (g x b).2 = { x.2 with out := (g x b).2.out })
    (l : List (Nat × Nat)) (x : Nat × State) : (l.foldl g x).2 = { x.2 with out := (l.foldl g x).2.out } := by
  induction l generalizing x with
  | nil => rfl
  | cons b l ih =>
    rw [List.foldl_cons, ih, hg]

theorem outWrite_out (p off : Nat) (d : Bytes) (s : State) : outWrite p off d s = { s with out := (outWrite p off d s).out } := by
  simp only [outWrite]
  split
  · rfl
  · exact outWrite_fold _ (by intros; rfl) _ _

theorem outWrite_coreFrame (p off : Nat) (d : Bytes) (s : State) : coreFrame p s (outWrite p off d s) :=
  coreFrame_of_cores p (fnQuiet_of_hif (by rw [outWrite_out])) (by rw [outWrite_out])

theorem storeFlush_coreFrame (p : Nat) (s : State) : coreFrame p s (storeFlush p s) := by
  refine .trans (foldl_coreFrame (fun s e => ?_) _ s) (modCore_coreFrame p _ (by intro; rfl) _)
  unfold doStore
  split
  · exact coreWrite_coreFrame _ _ _ _
  · exact outWrite_coreFrame _ _ _ _

theorem laneAbandon_coreFrame (p : Nat) (s : State) : coreFrame p s (laneAbandon p s) := by
  have hu : coreFrame p s (unpinAll p s) := (modCore_coreFrame p _ (by intro; rfl) s).trans ((keySettle_keyFrame _ _).coreFrame p)
  refine .trans (t := mapLanes (laneClear p false) (unpinAll p s)) (hu.trans (modLanes_coreFrame p _ _)) ?_
  exact (modLanes_coreFrame p _ _).trans (foldl_coreFrame (fun s i => (keyInvalidate_keyFrame i s).coreFrame p) _ _)

theorem portAbandon_coreFrame (p : Nat) (s : State) : coreFrame p s (portAbandon p s) := modMov_coreFrame p _ s

theorem missLeave_coreFrame (p : Nat) (s : State) : coreFrame p s (missLeave p s) := modKst_coreFrame p _ s

theorem clearWork_coreFrame (p : Nat) (s : State) : coreFrame p s (clearWork p s) :=
  .trans (t := modCore p (fun c => { c with mem := clearArea c.mem, bs := [] }) s) (modCore_coreFrame p _ (by intro; rfl) s)
    (coreFrame_of_cores p (fnQuiet_of_hif rfl) rfl)

theorem core_clearWork_same (p : Nat) (s : State) : core (clearWork p s) p = { core s p with mem := clearArea (core s p).mem, bs := [] } :=
  core_modCore_same p (fun c => { c with mem := clearArea c.mem, bs := [] }) s

/-- Firmware goes on at address `a`, with no program, an empty data stack and its output closed. -/
def atFault (a : Nat) (c : Core) : Prop := c.st = .run ∧ c.pc = a ∧ c.prog = false ∧ c.ds = [] ∧ c.closed = true

theorem faultReset_at (p k pc : Nat) (s : State) :
    coreFrame p s (faultReset p k pc s) ∧ atFault (core s p).fwFault (core (faultReset p k pc s) p) := by
  have h0 : coreFrame p s (countCore 0x00A p 1 none s) := sideFrame.coreFrame p (countCore_side 0x00A p 1 none s)
  have h1 : coreFrame p s (missLeave p (portAbandon p (laneAbandon p (storeFlush p (countCore 0x00A p 1 none s))))) :=
    (((h0.trans (storeFlush_coreFrame p _)).trans (laneAbandon_coreFrame p _)).trans (portAbandon_coreFrame p _)).trans (missLeave_coreFrame p _)
  simp only [faultReset]
  generalize missLeave p (portAbandon p (laneAbandon p (storeFlush p (countCore 0x00A p 1 none s)))) = u at h1
  have key : ∀ g : Core → Core, (∀ c, (g c).fwFault = c.fwFault ∧ atFault c.fwFault (g c)) →
      coreFrame p s (clearWork p (modCore p g u)) ∧ atFault (core s p).fwFault (core (clearWork p (modCore p g u)) p) := by
    intro g hg
    refine ⟨(h1.trans (modCore_coreFrame p g (fun c => (hg c).1) u)).trans (clearWork_coreFrame p _), ?_⟩
    rw [core_clearWork_same, core_modCore_same, ← h1.2.2]
    exact (hg (core u p)).2
  have hr : ∀ v, coreFrame p s v ∧ atFault (core s p).fwFault (core v p) →
      coreFrame p s (healthReport 7 (leBytes 2 p) v) ∧ atFault (core s p).fwFault (core (healthReport 7 (leBytes 2 p) v) p) := by
    intro v ⟨k1, k2⟩
    refine ⟨k1.trans ((healthReport_report 7 (leBytes 2 p) v).coreFrame p), ?_⟩
    rwa [core, (healthReport_report 7 (leBytes 2 p) v).1]
  split
  · exact hr _ (key _ (by intro c; exact ⟨rfl, rfl, rfl, rfl, rfl, rfl⟩))
  · exact key _ (by intro c; exact ⟨rfl, rfl, rfl, rfl, rfl, rfl⟩)

/-! ### The drain (R62) -/

theorem mirrorSend_par (ty l : Nat) (b : Bytes) (s : State) : mirrorSend ty l b s = { s with par := (mirrorSend ty l b s).par } := by
  unfold mirrorSend
  split <;> rfl

/-- Metering shows nothing but an addition and a mirror record (R24, R82). -/
def meterFrame (s t : State) : Prop := t = { s with mtr := t.mtr, par := t.par }

theorem meterAdd_mirrorSend (f cls n ty l : Nat) (b : Bytes) (s : State) : meterFrame s (meterAdd f cls n (mirrorSend ty l b s)) := by
  unfold meterFrame meterAdd
  split
  · rw [mirrorSend_par]
  · rw [mirrorSend_par]
    rfl

theorem lateMeter_frame (f cls n : Nat) (s : State) : meterFrame s (lateMeter f cls n s) := by
  unfold lateMeter
  split
  · rfl
  · exact meterAdd_mirrorSend _ _ _ _ _ _ s

theorem abandonMeter_frame (f n : Nat) (s : State) : meterFrame s (abandonMeter f n s) := by
  unfold abandonMeter
  split
  · rfl
  · exact meterAdd_mirrorSend _ _ _ _ _ _ s

theorem meterFrame.hif {s t : State} (h : meterFrame s t) : t.hif = s.hif := by rw [h]

/-- What a killed command leaves: the core at its fault entry, the units it abandoned in the function's reset. -/
theorem resetKill_at (f p : Nat) (s : State) :
    (∃ n, (fnOf (resetKill f s p) f).rst = (fnOf s f).rst.map fun r => { r with abandoned := r.abandoned + n }) ∧
    (∀ q, q ≠ p → core (resetKill f s p) q = core s q) ∧ (core (resetKill f s p) p).fwFault = (core s p).fwFault ∧
    atFault (core s p).fwFault (core (resetKill f s p) p) := by
  simp only [resetKill]
  generalize (if (core s p).expired = true then 0 else earlyUnits (dOpcode (mread (core s p).mem 0xFF00 64)) (core s p).cyc) = n
  set u := modFn f (fun x => { x with rst := x.rst.map fun r => { r with abandoned := r.abandoned + n } }) s with hu
  have hf : (fnOf u f).rst = (fnOf s f).rst.map fun r => { r with abandoned := r.abandoned + n } := by rw [hu, fnOf_modFn_same]
  have hv : meterFrame u (if (core s p).expired = true then lateMeter f 12 (earlyUnits (dOpcode (mread (core s p).mem 0xFF00 64)) (core s p).cyc) u
      else u) := by
    split
    · exact lateMeter_frame _ _ _ _
    · rfl
  revert hv
  generalize ite ((core s p).expired = true) _ u = v
  intro hv
  have hc : ∀ q, core (bumpFree v) q = core s q := fun q => by
    have : (bumpFree v).cpu.cores = s.cpu.cores := by
      rw [bumpFree, hv]
      rfl
    rw [core, this, core]
  obtain ⟨⟨k1, k2, k3⟩, k4⟩ := faultReset_at p (freeNat v % 16) (core s p).pc (bumpFree v)
  rw [hc] at k3 k4
  refine ⟨⟨n, ?_⟩, fun q hq => ?_, ?_, ?_⟩
  · have h1 : (fnOf (bumpFree v) f).rst = (fnOf u f).rst := by rw [fnOf_of_fns (s := u) (by rw [bumpFree, hv])]
    rw [← hf, ← h1]
    exact k1.field Fn.rst (fun _ _ => rfl) f
  · rw [core_modCore_ne _ _ hq, k2 q hq, hc]
  · rw [core_modCore_same]
    exact k3
  · rw [core_modCore_same]
    exact k4

theorem resetKill_foldl (f : Nat) (l : List Nat) (s : State) :
    (∃ n, (fnOf (l.foldl (resetKill f) s) f).rst = (fnOf s f).rst.map fun r => { r with abandoned := r.abandoned + n }) ∧
    (∀ p, (core (l.foldl (resetKill f) s) p).fwFault = (core s p).fwFault) ∧
    ∀ p, p ∈ l ∨ atFault (core s p).fwFault (core s p) → atFault (core s p).fwFault (core (l.foldl (resetKill f) s) p) := by
  induction l generalizing s with
  | nil => exact ⟨⟨0, by rw [List.foldl_nil]; cases (fnOf s f).rst <;> rfl⟩, fun _ => rfl, fun _ h => h.resolve_left (by simp)⟩
  | cons q l ih =>
    obtain ⟨⟨n, h1⟩, h2, h3, h4⟩ := resetKill_at f q s
    obtain ⟨⟨m, k1⟩, k2, k3⟩ := ih (resetKill f s q)
    have hw : ∀ p, (core (resetKill f s q) p).fwFault = (core s p).fwFault := fun p => by
      by_cases hp : p = q
      · rw [hp, h3]
      · rw [h2 p hp]
    rw [List.foldl_cons]
    refine ⟨⟨n + m, ?_⟩, fun p => (k2 p).trans (hw p), fun p hp => ?_⟩
    · rw [k1, h1]
      cases (fnOf s f).rst with
      | none => rfl
      | some r => simp [Nat.add_assoc]
    · have hk := k3 p
      rw [hw p] at hk
      refine hk ?_
      by_cases hq : p = q
      · exact .inr (by rw [hq]; exact h4)
      · rcases hp with hp | hp
        · exact .inl ((List.mem_cons.1 hp).resolve_left hq)
        · exact .inr (by rw [h2 p hq]; exact hp)

theorem execResetDrainTimeout_kills {s : State} {f : Nat} {r : FnReset} (hr : (fnOf s f).rst = some r) (hd : r.drained = false)
    (ht : r.stampRef + 150000 ≤ s.time.refCount) (hp : s.pwr.main = true) :
    ∃ t, exec (.resetDrainTimeout f) s = .next t ∧ (∃ q, (fnOf t f).rst = some q ∧ q.drained = true ∧ q.stamp = r.stamp ∧ q.cause = r.cause) ∧
      ∀ p ∈ resetCores s f, (core t p).st = .run ∧ (core t p).pc = (core s p).fwFault ∧ (core t p).prog = false ∧ (core t p).ds = [] ∧
        (core t p).closed = true := by
  obtain ⟨⟨n, h1⟩, -, h3⟩ := resetKill_foldl f (resetCores s f) s
  refine ⟨modFn f (fun x => { x with rst := x.rst.map fun r => { r with drained := true } }) ((resetCores s f).foldl (resetKill f) s), ?_, ?_,
    fun p hpm => h3 p (.inl hpm)⟩
  · simp only [exec, execResetDrainTimeout, hr]
    rw [if_neg]
    rintro (h | h | h)
    · rw [hd] at h
      cases h
    · omega
    · rw [hp] at h
      cases h
  · rw [fnOf_modFn_same, h1, hr]
    exact ⟨_, rfl, rfl, rfl, rfl⟩

/-! ### What is sent out stays sent -/

/-- What was sent out before is sent out still. -/
def outGrows (s t : State) : Prop := s.out <+: t.out

theorem outGrows.refl (s : State) : outGrows s s := List.prefix_rfl
theorem outGrows.trans {s t u : State} (h : outGrows s t) (k : outGrows t u) : outGrows s u := List.IsPrefix.trans h k
theorem outGrows_of_eq {s t : State} (h : t.out = s.out) : outGrows s t := by rw [outGrows, h]
theorem emit_outGrows (o : Out) (s : State) : outGrows s (emit o s) := List.prefix_append _ _

theorem foldl_outGrows {β : Type} {f : State → β → State} (h : ∀ s b, outGrows s (f s b)) (l : List β) (s : State) : outGrows s (l.foldl f s) := by
  induction l generalizing s with
  | nil => exact .refl s
  | cons b l ih => exact (h s b).trans (ih _)

theorem ite_outGrows {s a b : State} {p : Prop} [Decidable p] (h : outGrows s a) (k : outGrows s b) : outGrows s (if p then a else b) := by
  split <;> assumption

theorem fireMsix_outGrows (f v : Nat) (s : State) : outGrows s (fireMsix f v s) := by
  obtain h | h | ⟨e, -, h⟩ := fireMsix_cases f v s <;> rw [h]
  · exact .refl s
  · exact outGrows_of_eq rfl
  · exact emit_outGrows _ s

theorem modCtr_outGrows (i : Nat) (g : Ctr → Ctr) (s : State) : outGrows s (modCtr i g s) := outGrows_of_eq rfl

theorem ctrAdd_outGrows (a i n : Nat) (s : State) : outGrows s (ctrAdd a i n s) := by
  have fired := fun g => (modCtr_outGrows i g s).trans (fireMsix_outGrows 0 11 _)
  induction a generalizing i n s with
  | zero => exact ite_outGrows (modCtr_outGrows _ _ _) (ite_outGrows (fired _) (modCtr_outGrows _ _ _))
  | succ a ih =>
    exact ite_outGrows (modCtr_outGrows _ _ _) (ite_outGrows
      ((modCtr_outGrows _ _ _).trans (ih _ _ _ fun g => (modCtr_outGrows _ g _).trans (fireMsix_outGrows 0 11 _)))
      (ite_outGrows (fired _) (modCtr_outGrows _ _ _)))

theorem countEv_outGrows (e : Ev) (n : Nat) (s : State) : outGrows s (countEv e n s) := by
  unfold countEv
  split
  · exact .refl s
  · refine .trans ?_ (foldl_outGrows (fun s g => ite_outGrows (ctrAdd_outGrows _ _ _ _) (.refl s)) _ _)
    split
    · exact foldl_outGrows (fun s g => ite_outGrows (ctrAdd_outGrows _ _ _ _) (.refl s)) _ _
    · exact .refl s

theorem healthReport_outGrows (k : Nat) (d : Bytes) (s : State) : outGrows s (healthReport k d s) := by
  unfold healthReport mctpQueue ibiRaise
  refine ite_outGrows (ite_outGrows (.trans ?_ (emit_outGrows _ _)) ?_) ?_ <;> exact outGrows_of_eq rfl

theorem recAppend_out (c fl fn : Nat) (b : Bytes) (s : State) : (recAppend c fl fn b s).out = s.out := by
  unfold recAppend
  split
  · unfold bufPush
    split <;> rfl
  · split <;> rfl

theorem auditU_outGrows (c fl fn : Nat) (b : Bytes) (s : State) : outGrows s (auditU c fl fn b s) := by
  have h1 : outGrows s (recAppend c fl fn b s) := outGrows_of_eq (recAppend_out _ _ _ _ _)
  have h2 : ∀ u, outGrows u (logWarn u) := fun u =>
    ite_outGrows ((outGrows_of_eq (by rw [recAppend_out]; rfl)).trans ((fireMsix_outGrows 0 6 _).trans (healthReport_outGrows _ _ _))) (.refl u)
  have h3 : ∀ u, outGrows u (logFullSay u) := fun u =>
    ite_outGrows ((outGrows_of_eq (by rw [recAppend_out]; rfl)).trans (healthReport_outGrows _ _ _)) (.refl u)
  have h4 : ∀ u, outGrows u (headMirror u) := fun u => ite_outGrows (outGrows_of_eq (by rw [mirrorSend_par]; rfl)) (.refl u)
  exact h1.trans ((h2 _).trans ((h3 _).trans (h4 _)))

/-! ### Checked writes of host memory (R274, R293) -/

/-- Only channels, violation reports, counters, pending vectors and what is sent out differ, and what was sent stays sent: what host traffic does. -/
def busFrame (s t : State) : Prop :=
  t = { s with mov := t.mov, cnt := t.cnt, hif := { s.hif with fns := t.hif.fns }, out := t.out } ∧ fnQuiet s t ∧ outGrows s t

theorem busFrame.refl (s : State) : busFrame s s := ⟨rfl, .refl s, .refl s⟩
theorem busFrame.trans {s t u : State} (h : busFrame s t) (k : busFrame t u) : busFrame s u := by
  obtain ⟨h1, h2, h3⟩ := h
  obtain ⟨k1, k2, k3⟩ := k
  exact ⟨by rw [k1, h1], h2.trans k2, h3.trans k3⟩

theorem busFrame_of_side {s t : State} (h : sideFrame s t) (k : outGrows s t) : busFrame s t := ⟨by rw [h.1], h.2, k⟩

theorem chanStat_bus (m c r n : Nat) (s : State) : busFrame s (chanStat m c r n s) := by
  unfold chanStat
  split
  · exact .refl s
  · exact ⟨rfl, .refl s, .refl s⟩

theorem chanDone_bus (m f n : Nat) (s : State) : busFrame s (chanDone m f n s) :=
  (chanStat_bus m 0 0 0 s).trans ((busFrame_of_side (countChan_side _ _ _ _ _ _) (countEv_outGrows _ _ _)).trans
    (busFrame_of_side (countChan_side _ _ _ _ _ _) (countEv_outGrows _ _ _)))

theorem vioQueue_bus (v : VioReport) (s : State) : busFrame s (vioQueue v s) :=
  .trans (t := modMov _ s) ⟨rfl, .refl s, .refl s⟩ (busFrame_of_side (fireMsix_side 0 12 _) (fireMsix_outGrows 0 12 _))

theorem hostWrite_bus (m f a : Nat) (d : Bytes) (rel : Bool) (s : State) : busFrame s (hostWrite m f a d rel s).2 := by
  unfold hostWrite
  split
  · exact (vioQueue_bus _ s).trans (chanStat_bus _ _ _ _ _)
  · refine .trans ?_ (chanDone_bus _ _ _ _)
    split
    · exact ⟨rfl, .refl s, emit_outGrows _ s⟩
    · exact ⟨rfl, .refl s, List.prefix_append _ _⟩

theorem busFrame.timeField {s t : State} (h : busFrame s t) : timeField t = timeField s := by
  rw [Machine.timeField, h.1]
  rfl
theorem busFrame.regions {s t : State} (h : busFrame s t) (f : Nat) : (fnOf t f).regions = (fnOf s f).regions :=
  h.2.1.field Fn.regions (fun _ _ => rfl) f

/-- A write that the regions allow is allowed while they are the same. -/
theorem hostRefusal_none_congr {s t : State} {m f a n : Nat} {w : Bool} (h : (fnOf t f).regions = (fnOf s f).regions)
    (hs : hostRefusal s m f a n w = none) : hostRefusal t m f a n w = none := by
  simp only [hostRefusal, h] at hs ⊢
  split at hs
  · cases hs
  · simpa using hs

theorem noSnoopAt_congr {s t : State} {f : Nat} (h : (fnOf t f).regions = (fnOf s f).regions) (a : Nat) : noSnoopAt t f a = noSnoopAt s f a := by
  unfold noSnoopAt
  rw [h]

/-- A short structure that the regions allow is written whole, at once. -/
theorem hostWrite_allowed {m f a : Nat} {d : Bytes} {s : State} (h : hostRefusal s m f a d.length true = none) (hd : d.length ≤ 64) :
    (hostWrite m f a d false s).1 = true ∧ Out.write f a d false (noSnoopAt s f a) ∈ (hostWrite m f a d false s).2.out := by
  simp only [hostWrite, h, hd, if_true, Bool.false_and, true_and]
  refine (chanDone_bus m f d.length _).2.2.subset ?_
  simp [emit]

/-! ### The report (R62, R65) -/

theorem rptWrites_bus (f : Nat) (l : List (Nat × Nat × Bytes)) (s : State) : busFrame s (rptWrites f l s).2 := by
  induction l generalizing s with
  | nil => exact .refl s
  | cons w l ih =>
    have hw := hostWrite_bus w.1 f w.2.1 (rptBytes w.2.2 s) false s
    unfold rptWrites
    split <;> rename_i h <;> rw [h] at hw
    · exact hw.trans (ih _)
    · exact hw

theorem rptBytes_timeField {s t : State} (h : timeField t = timeField s) (b : Bytes) : rptBytes b t = rptBytes b s := by
  unfold rptBytes
  rw [h]

/-- Every write of a list that the regions allow is issued. -/
theorem rptWrites_allowed {f : Nat} {l : List (Nat × Nat × Bytes)} {s : State}
    (hl : ∀ w ∈ l, w.2.2.length ≤ 64 ∧ rptBytes w.2.2 s = w.2.2 ∧ hostRefusal s w.1 f w.2.1 w.2.2.length true = none) :
    ∀ w ∈ l, Out.write f w.2.1 w.2.2 false (noSnoopAt s f w.2.1) ∈ (rptWrites f l s).2.out := by
  induction l generalizing s with
  | nil => simp
  | cons v l ih =>
    obtain ⟨hn, hb, hr⟩ := hl v (by simp)
    obtain ⟨h1, h2⟩ := hostWrite_allowed hr hn
    have hf := hostWrite_bus v.1 f v.2.1 v.2.2 false s
    rcases ho : hostWrite v.1 f v.2.1 v.2.2 false s with ⟨o, u⟩
    rw [ho] at h1 h2 hf
    cases h1
    have hu : (rptWrites f (v :: l) s).2 = (rptWrites f l u).2 := by rw [rptWrites, hb, ho]
    rw [hu]
    intro w hw
    rcases List.mem_cons.1 hw with rfl | hw
    · exact (rptWrites_bus f l u).2.2.subset h2
    · have hk := ih (s := u) (fun x hx => by
        obtain ⟨k1, k2, k3⟩ := hl x (by simp [hx])
        exact ⟨k1, (rptBytes_timeField hf.timeField _).trans k2, hostRefusal_none_congr (hf.regions f) k3⟩) w hw
      rwa [noSnoopAt_congr (hf.regions f)] at hk

theorem length_rptEntry (e : RptEntry) : (rptEntry e).length = 16 := by simp [rptEntry, length_leBytes, zeroBytes]
theorem length_rptHeader (r : FnReset) (q e : Nat) : (rptHeader r q e).length = 64 := by simp [rptHeader, length_leBytes, zeroBytes]

theorem patch_append (a d c : Bytes) : patch (a ++ (d ++ c)) a.length d = a ++ (d ++ c) := by
  have h1 : (a ++ (d ++ c)).take a.length = a := List.take_left
  have h2 : (a ++ (d ++ c)).drop (a.length + d.length) = c := by rw [← List.append_assoc, ← List.length_append, List.drop_left]
  rw [patch, h1, h2, List.append_assoc, List.take_length]

/-- The header as it is written already holds its end time. -/
theorem rptBytes_rptHeader (r : FnReset) (q : Nat) (s : State) :
    rptBytes ((rptHeader r q (timeField s)).drop 4) s = (rptHeader r q (timeField s)).drop 4 := by
  have hd : (rptHeader r q (timeField s)).drop 4 = (leBytes 4 r.entries.length ++ leBytes 8 r.startTime) ++ (leBytes 8 (timeField s) ++
      (leBytes 2 r.cause ++ zeroBytes 2 ++ leBytes 4 r.races ++ leBytes 8 r.abandoned ++ zeroBytes 24)) := by
    simp [rptHeader, length_leBytes]
  have hl : (leBytes 4 r.entries.length ++ leBytes 8 r.startTime).length = 12 := by simp [length_leBytes]
  rw [rptBytes, hd]
  split
  · rw [← hl]
    exact patch_append _ _ _
  · rfl

/-- The writes of a report are short, and its end time is that of the moment. -/
theorem rptList_mem {f : Nat} {r : FnReset} {q : Nat} {s : State} {w : Nat × Nat × Bytes} (h : w ∈ rptList f r q (timeField s)) :
    w.2.2.length ≤ 64 ∧ rptBytes w.2.2 s = w.2.2 := by
  simp only [rptList] at h
  split at h
  · cases h
  · rcases List.mem_append.1 h with h | h
    · obtain ⟨ei, -, rfl⟩ := List.mem_map.1 h
      exact ⟨by rw [length_rptEntry]; decide, if_neg (by rw [length_rptEntry]; decide)⟩
    · have hl := length_rptHeader r q (timeField s)
      rcases List.mem_cons.1 h with rfl | h
      · exact ⟨by simp [hl], rptBytes_rptHeader r q s⟩
      · rw [List.mem_singleton] at h
        subst h
        exact ⟨by simp [hl], if_neg (by simp [hl])⟩

/-! ### What comes before the report's writes -/

/-- Records freed: the number of descriptors held may differ, and no other part of a function. -/
def heldFrame (s t : State) : Prop :=
  t.out = s.out ∧ t.time = s.time ∧ t.hif = { s.hif with fns := t.hif.fns } ∧ ∀ g, fnOf t g = { fnOf s g with held := (fnOf t g).held }

theorem heldFrame.trans {s t u : State} (h : heldFrame s t) (k : heldFrame t u) : heldFrame s u := by
  obtain ⟨h1, h2, h3, h4⟩ := h
  obtain ⟨k1, k2, k3, k4⟩ := k
  exact ⟨k1.trans h1, k2.trans h2, by rw [k3, h3], fun g => by rw [k4 g, h4 g]⟩

theorem heldFrame.field {β : Type} {s t : State} (h : heldFrame s t) (p : Fn → β) (hp : ∀ x m, p { x with held := m } = p x) (g : Nat) :
    p (fnOf t g) = p (fnOf s g) := by
  rw [h.2.2.2 g, hp]

theorem heldFrame_of_hif {s t : State} (h : t.hif = s.hif) (ho : t.out = s.out) (ht : t.time = s.time) : heldFrame s t :=
  ⟨ho, ht, by rw [h], fun g => by rw [fnOf, h, fnOf]⟩

theorem modFn_held_frame (f : Nat) (g : Nat → Nat) (s : State) : heldFrame s (modFn f (fun x => { x with held := g x.held }) s) := by
  refine ⟨rfl, rfl, rfl, fun k => ?_⟩
  rw [fnOf_modFn]
  split
  next h => rw [h]
  next => rfl

theorem freeDead_held (sel : Nat → Bool) (s : State) : heldFrame s (freeDead sel s) := by
  unfold freeDead
  generalize (s.slm.dead.filter fun e => sel e.2.func) = l
  have h0 : heldFrame s (modSlm (fun m => { m with dead := m.dead.filter fun e => !sel e.2.func }) s) := heldFrame_of_hif rfl rfl rfl
  generalize modSlm (fun m => { m with dead := m.dead.filter fun e => !sel e.2.func }) s = u at h0
  induction l generalizing u with
  | nil => exact h0
  | cons e l ih => exact ih _ (h0.trans (modFn_held_frame e.2.func (· - 1) u))

theorem keyFrame.held {s t : State} (h : keyFrame s t) : heldFrame s t := heldFrame_of_hif h.hif (by rw [h.1]) (by rw [h.1])
theorem meterFrame.held {s t : State} (h : meterFrame s t) : heldFrame s t := heldFrame_of_hif h.hif (by rw [h]) (by rw [h])

/-- The function's records are freed, its misses and keys go and what it abandoned is metered (R62, R130, R235). -/
def resetSettled (f n : Nat) (s : State) : State :=
  abandonMeter f n (fnKeysDrop f (missAbandon f (freeDead (fun g => decide (g = f)) s)))

theorem resetSettled_held (f n : Nat) (s : State) : heldFrame s (resetSettled f n s) :=
  (freeDead_held _ s).trans ((missAbandon_keyFrame f _).held.trans ((fnKeysDrop_keyFrame f _).held.trans (abandonMeter_frame f n _).held))

/-- The report's writes join those that wait, and what the regions allow is written. -/
def resetReported (f : Nat) (r : FnReset) (s : State) : State :=
  rptFlush f (modFn f (fun x => { x with
    rstSeq := ((fnOf s f).rstSeq + 1) % 2 ^ 32, rptHeld := x.rptHeld ++ rptList f r (((fnOf s f).rstSeq + 1) % 2 ^ 32) (timeField s) }) s)

theorem rptFlush_rstSeq (f : Nat) (s : State) : (fnOf (rptFlush f s) f).rstSeq = (fnOf s f).rstSeq := by
  rw [rptFlush, fnOf_modFn_same]
  exact (rptWrites_bus f _ s).2.1.field Fn.rstSeq (fun _ _ => rfl) f

theorem resetReported_rstSeq (f : Nat) (r : FnReset) (s : State) :
    (fnOf (resetReported f r s) f).rstSeq = ((fnOf s f).rstSeq + 1) % 2 ^ 32 := by
  rw [resetReported, rptFlush_rstSeq, fnOf_modFn_same]

/-- A report that the regions allow is written. -/
theorem resetReported_writes {f : Nat} {r : FnReset} {s : State} (hw : (fnOf s f).rptHeld = [])
    (hr : ∀ w ∈ rptList f r (((fnOf s f).rstSeq + 1) % 2 ^ 32) (timeField s), hostRefusal s w.1 f w.2.1 w.2.2.length true = none) :
    ∀ w ∈ rptList f r (((fnOf s f).rstSeq + 1) % 2 ^ 32) (timeField s),
      Out.write f w.2.1 w.2.2 false (noSnoopAt s f w.2.1) ∈ (resetReported f r s).out := by
  set q := ((fnOf s f).rstSeq + 1) % 2 ^ 32 with hq
  set u := modFn f (fun x => { x with rstSeq := q, rptHeld := x.rptHeld ++ rptList f r q (timeField s) }) s with hu
  have hg : (fnOf u f).regions = (fnOf s f).regions := by rw [hu, fnOf_modFn_same]
  have hl : (fnOf u f).rptHeld = rptList f r q (timeField s) := by rw [hu, fnOf_modFn_same]; simp [hw]
  have hk := rptWrites_allowed (f := f) (l := rptList f r q (timeField s)) (s := u) fun w hm => by
    obtain ⟨h1, h2⟩ := rptList_mem hm
    exact ⟨h1, h2, hostRefusal_none_congr hg (hr w hm)⟩
  intro w hm
  have ho : (resetReported f r s).out = (rptWrites f (rptList f r q (timeField s)) u).2.out := by
    rw [← hl]
    rfl
  rw [ho, ← noSnoopAt_congr hg]
  exact hk w hm

/-! ### The end of a reset (R62, R501) -/

/-- No function but for its pending vectors, and nothing of Slalom, differs, and what was sent stays sent. -/
def endFrame (s t : State) : Prop := fnQuiet s t ∧ t.slm = s.slm ∧ outGrows s t

theorem endFrame.refl (s : State) : endFrame s s := ⟨.refl s, rfl, .refl s⟩
theorem endFrame.trans {s t u : State} (h : endFrame s t) (k : endFrame t u) : endFrame s u := by
  obtain ⟨h1, h2, h3⟩ := h
  obtain ⟨k1, k2, k3⟩ := k
  exact ⟨h1.trans k1, k2.trans h2, h3.trans k3⟩

theorem endFrame_of_eq {s t : State} (hh : t.hif = s.hif) (hs : t.slm = s.slm) (ho : t.out = s.out) : endFrame s t :=
  ⟨fnQuiet_of_hif hh, hs, outGrows_of_eq ho⟩

theorem fireMsix_end (f v : Nat) (s : State) : endFrame s (fireMsix f v s) :=
  ⟨(fireMsix_side f v s).2, by rw [(fireMsix_side f v s).1], fireMsix_outGrows f v s⟩

theorem foldl_end {β : Type} {f : State → β → State} (h : ∀ s b, endFrame s (f s b)) (l : List β) (s : State) : endFrame s (l.foldl f s) := by
  induction l generalizing s with
  | nil => exact .refl s
  | cons b l ih => exact (h s b).trans (ih _)

theorem mirrorSend_end (ty l : Nat) (b : Bytes) (s : State) : endFrame s (mirrorSend ty l b s) :=
  endFrame_of_eq (by rw [mirrorSend_par]) (by rw [mirrorSend_par]) (by rw [mirrorSend_par])

theorem cerClose_end (n r : Nat) (s : State) : endFrame s (cerClose n r s) := by
  unfold cerClose
  split
  · exact .refl s
  next c _ =>
    refine .trans (t := modKst (fun k => { k with cers := k.cers.filter fun x => decide (x.num ≠ n) }) s) (endFrame_of_eq rfl rfl rfl) ?_
    have h := auditU_report 0x0202 0 c.fn (leBytes 2 n ++ leBytes 2 c.fn ++ leBytes 1 r)
      (modKst (fun k => { k with cers := k.cers.filter fun x => decide (x.num ≠ n) }) s)
    exact ⟨h.2, by rw [h.1], auditU_outGrows _ _ _ _ _⟩

/-- A function's ring page at its reset values and its flows gone (R62, R501). -/
def fnCleared (f : Nat) (s : State) : Prop :=
  (fnOf s f).rings = List.replicate 4 Ring.blank ∧ (fnOf s f).rptBase = 0 ∧ (fnOf s f).dirBase = 0 ∧ (fnOf s f).progBase = 0 ∧
  (fnOf s f).races = 0 ∧ ∀ w, w < 2 ^ 18 → flowOf s f w = Flow.start

/-- What holds of the default and of every entry holds at every key. -/
theorem tget_all {α : Type} {P : α → Prop} {d : α} {t : Tab α} (hd : P d) (h : ∀ e ∈ t, P e.2) (k : Nat) : P (tget d t k) := by
  rcases tget_mem_or_default d t k with hm | hm
  · exact h _ hm
  · rwa [hm]

theorem tget_filter_out {α : Type} (d : α) (t : Tab α) (sel : Nat → Bool) {k : Nat} (h : sel k = false) :
    tget d (t.filter fun e => sel e.1) k = d := by
  rcases tget_mem_or_default d (t.filter fun e => sel e.1) k with hm | hm
  · simp [h] at hm
  · exact hm

/-- A function's page at its reset values; but for cause 4, MSI-X and configuration space too (R62, R501). -/
def pageReset (c : Nat) (x : Fn) : Fn :=
  let x := { x with
    rings := List.replicate 4 Ring.blank, rptBase := 0, races := 0, dirBase := 0, dirSize := 0, missThresh := 0, missCount := 0,
    missStart := 0, missFired := false, progBase := 0, rcptCopy := 0, latchRd := none, heldWr := none }
  if c = 4 then x
  else { x with msix := List.replicate x.msix.length MsixEntry.blank, relaxed := true, d3 := decide (c = 5) }

/-- The page is reset, the flows go, and the rest of Slalom and what was sent stay. -/
theorem resetClear_parts (f c : Nat) (s : State) :
    (resetClear f c s).hif.fns = (modFn f (pageReset c) s).hif.fns ∧ (resetClear f c s).hif.relq = s.hif.relq ∧
    (resetClear f c s).slm.flows = (s.slm.flows.filter fun e => decide (e.1 / 2 ^ 18 ≠ f)) ∧ (resetClear f c s).out = s.out := by
  unfold resetClear
  dsimp only
  split <;> exact ⟨rfl, rfl, rfl, rfl⟩

theorem resetClear_cleared (f c : Nat) (s : State) :
    fnCleared f (resetClear f c s) ∧ (fnOf (resetClear f c s) f).rstSeq = (fnOf s f).rstSeq ∧ (resetClear f c s).out = s.out := by
  obtain ⟨hf, -, hs, ho⟩ := resetClear_parts f c s
  have hx : fnOf (resetClear f c s) f = pageReset c (fnOf s f) := (fnOf_of_fns hf f).trans (fnOf_modFn_same f _ s)
  have hw : ∀ w, w < 2 ^ 18 → flowOf (resetClear f c s) f w = Flow.start := fun w hw => by
    rw [flowOf, hs]
    refine tget_filter_out Flow.start s.slm.flows (fun k => decide (k / 2 ^ 18 ≠ f)) ?_
    have : (f * 2 ^ 18 + w) / 2 ^ 18 = f := by omega
    exact decide_eq_false (not_not.2 this)
  rw [fnCleared, hx]
  dsimp only [pageReset]
  split <;> exact ⟨⟨rfl, rfl, rfl, rfl, rfl, hw⟩, rfl, ho⟩

/-- The reset ends: DONE, and the function's page as it was left. -/
theorem resetDone_ends (f c : Nat) (s : State) :
    (fnOf (resetDone f c s) f).rst = none ∧ (fnOf (resetDone f c s) f).rstWord = .done ∧ (resetDone f c s).hif.resetLast = f ∧
    (fnCleared f s → fnCleared f (resetDone f c s)) ∧ (fnOf (resetDone f c s) f).rstSeq = (fnOf s f).rstSeq ∧ outGrows s (resetDone f c s) := by
  simp only [resetDone]
  set u := rcptFlag 1 (modHif (fun h => { h with resetLast := f }) (modFn f (fun x => { x with rst := none, rstWord := .done }) s)) f with hu
  have hf : fnOf u f = { fnOf s f with rst := none, rstWord := .done } :=
    (fnOf_of_fns (s := modFn f (fun x => { x with rst := none, rstWord := .done }) s) rfl f).trans (fnOf_modFn_same f _ s)
  have key : ∀ t, endFrame u t ∧ t.hif.resetLast = u.hif.resetLast → (fnOf t f).rst = none ∧ (fnOf t f).rstWord = .done ∧ t.hif.resetLast = f ∧
      (fnCleared f s → fnCleared f t) ∧ (fnOf t f).rstSeq = (fnOf s f).rstSeq ∧ outGrows s t := by
    intro t ⟨⟨hq, hs, ho⟩, hl⟩
    have hx := hq f
    rw [hf] at hx
    refine ⟨by rw [hx], by rw [hx], hl, fun ⟨h1, h2, h3, h4, h5, h6⟩ => ?_, by rw [hx], .trans (outGrows_of_eq rfl) ho⟩
    refine ⟨by rw [hx]; exact h1, by rw [hx]; exact h2, by rw [hx]; exact h3, by rw [hx]; exact h4, by rw [hx]; exact h5, fun w hw => ?_⟩
    rw [flowOf, hs]
    exact h6 w hw
  have h4 : endFrame u (fireMsix 0 4 u) ∧ (fireMsix 0 4 u).hif.resetLast = u.hif.resetLast :=
    ⟨fireMsix_end 0 4 u, by rw [(fireMsix_side 0 4 u).1]⟩
  split
  · exact key _ ⟨h4.1.trans (fireMsix_end f 4 _), by rw [(fireMsix_side f 4 _).1]; exact h4.2⟩
  · exact key _ h4

/-- What follows the report: the page is cleared, an enabled pair's configuration is shown to the partner, and the reset ends. -/
def resetEnded (f c : Nat) (holds : Bool) (s : State) : State :=
  let on := (List.range 4).filter fun n => holds && (ringOf s f n).enable
  let s := on.foldl (fun s n => ringMirror f n s) (resetClear f c s)
  let s := if f = 0 then cerCloseAll 4 (modCnt (fun _ => Cnt.start) s) else s
  resetDone f c s

theorem resetEnded_ends (f c : Nat) (holds : Bool) (s : State) :
    (fnOf (resetEnded f c holds s) f).rst = none ∧ (fnOf (resetEnded f c holds s) f).rstWord = .done ∧
    (resetEnded f c holds s).hif.resetLast = f ∧ fnCleared f (resetEnded f c holds s) ∧
    (fnOf (resetEnded f c holds s) f).rstSeq = (fnOf s f).rstSeq ∧ outGrows s (resetEnded f c holds s) := by
  simp only [resetEnded]
  generalize ((List.range 4).filter fun n => holds && (ringOf s f n).enable) = on
  have h1 : endFrame (resetClear f c s) (on.foldl (fun s n => ringMirror f n s) (resetClear f c s)) :=
    foldl_end (fun s n => mirrorSend_end 4 _ _ s) on _
  generalize on.foldl (fun s n => ringMirror f n s) (resetClear f c s) = u at h1
  have h2 : endFrame u (if f = 0 then cerCloseAll 4 (modCnt (fun _ => Cnt.start) u) else u) := by
    split
    · exact .trans (t := modCnt (fun _ => Cnt.start) u) (endFrame_of_eq rfl rfl rfl) (foldl_end (fun s n => cerClose_end n 4 s) _ _)
    · exact .refl u
  revert h2
  generalize ite (f = 0) _ u = v
  intro h2
  obtain ⟨hq, hs, ho⟩ := h1.trans h2
  obtain ⟨k1, k2, k3, k4, k5, k6⟩ := resetDone_ends f c v
  obtain ⟨⟨c1, c2, c3, c4, c5, c6⟩, e1, e2⟩ := resetClear_cleared f c s
  have hx := hq f
  refine ⟨k1, k2, k3, k4 ⟨?_, ?_, ?_, ?_, ?_, fun w hw => ?_⟩, ?_, (outGrows_of_eq e2).trans (ho.trans k6)⟩
  · rw [hx]; exact c1
  · rw [hx]; exact c2
  · rw [hx]; exact c3
  · rw [hx]; exact c4
  · rw [hx]; exact c5
  · rw [flowOf, hs]
    exact c6 w hw
  · rw [k5, hx]
    exact e1

theorem execResetReportWrite_next {s : State} {f : Nat} {r : FnReset} (hr : (fnOf s f).rst = some r) (hp : s.pwr.main = true)
    (hd : r.drained = true ∨ resetCores s f = []) (ht : (latch s (loadOf s f)).take = .none) :
    execResetReportWrite f s = .next (resetEnded f r.cause (reportsReset s f)
      (if reportsReset s f then resetReported f r (resetSettled f r.abandoned s) else resetSettled f r.abandoned s)) := by
  have hc : ¬ ((!s.pwr.main) = true ∨ ((!r.drained) = true ∧ (!(resetCores s f).isEmpty) = true) ∨ (latch s (loadOf s f)).take ≠ .none) := by
    rintro (h | ⟨h1, h2⟩ | h)
    · simp [hp] at h
    · rcases hd with hd | hd
      · simp [hd] at h1
      · simp [hd] at h2
    · exact h ht
  simp only [execResetReportWrite, hr]
  rw [if_neg hc]
  rfl

theorem execResetReportWrite_ends {s : State} {f : Nat} {r : FnReset} (hr : (fnOf s f).rst = some r) (hp : s.pwr.main = true)
    (hd : r.drained = true ∨ resetCores s f = []) (ht : (latch s (loadOf s f)).take = .none) :
    ∃ t, exec (.resetReportWrite f) s = .next t ∧ (fnOf t f).rst = none ∧ (fnOf t f).rstWord = .done ∧ t.hif.resetLast = f ∧
      (fnOf t f).rings = List.replicate 4 Ring.blank ∧ (fnOf t f).rptBase = 0 ∧ (fnOf t f).dirBase = 0 ∧ (fnOf t f).progBase = 0 ∧
      (fnOf t f).races = 0 ∧ (∀ w, w < 2 ^ 18 → flowOf t f w = Flow.start) ∧
      (reportsReset s f = true → (fnOf t f).rstSeq = ((fnOf s f).rstSeq + 1) % 2 ^ 32) ∧
      (reportsReset s f = true → (fnOf s f).rptHeld = [] →
        (∀ w ∈ rptList f r (((fnOf s f).rstSeq + 1) % 2 ^ 32) (timeField s), hostRefusal s w.1 f w.2.1 w.2.2.length true = none) →
        ∀ w ∈ rptList f r (((fnOf s f).rstSeq + 1) % 2 ^ 32) (timeField s), Out.write f w.2.1 w.2.2 false (noSnoopAt s f w.2.1) ∈ t.out) := by
  have hh := resetSettled_held f r.abandoned s
  have hq : (fnOf (resetSettled f r.abandoned s) f).rstSeq = (fnOf s f).rstSeq := hh.field Fn.rstSeq (fun _ _ => rfl) f
  have hg : (fnOf (resetSettled f r.abandoned s) f).regions = (fnOf s f).regions := hh.field Fn.regions (fun _ _ => rfl) f
  have hw : (fnOf (resetSettled f r.abandoned s) f).rptHeld = (fnOf s f).rptHeld := hh.field Fn.rptHeld (fun _ _ => rfl) f
  have hm : timeField (resetSettled f r.abandoned s) = timeField s := by rw [timeField, tick, hh.2.1]; rfl
  obtain ⟨k1, k2, k3, ⟨c1, c2, c3, c4, c5, c6⟩, k5, k6⟩ := resetEnded_ends f r.cause (reportsReset s f)
    (if reportsReset s f then resetReported f r (resetSettled f r.abandoned s) else resetSettled f r.abandoned s)
  refine ⟨_, execResetReportWrite_next hr hp hd ht, k1, k2, k3, c1, c2, c3, c4, c5, c6, fun ho => ?_, fun ho he hall w hwm => ?_⟩
  · rw [k5, if_pos ho, resetReported_rstSeq, hq]
  · refine k6.subset ?_
    rw [if_pos ho, ← noSnoopAt_congr hg]
    rw [← hq, ← hm] at hall hwm
    exact resetReported_writes (hw.trans he) (fun w hm => hostRefusal_none_congr hg (hall w hm)) w hwm

/-! ### The end of the link (R31, R35, R517) -/

theorem dropLoad_relq (s : State) : (dropLoad (fun _ => true) s).hif.relq = [] := by
  simp only [dropLoad]
  rw [(liftFreed_tokFrame _).1]
  simp

/-- After the end of the link no function has a reset or a report to write, and nothing waits to be completed. -/
theorem linkEnd_clears (s : State) :
    (linkEnd s).hif.vfEnable = false ∧ (linkEnd s).hif.ide = [] ∧ (linkEnd s).hif.relq = [] ∧ (linkEnd s).slm.flows = [] ∧
    ∀ f, (fnOf (linkEnd s) f).rst = none ∧ (fnOf (linkEnd s) f).rptHeld = [] := by
  simp only [linkEnd]
  generalize ([0, 1].foldl (fun s l => if (latch s l).pCur then fenceLatch l s else s) s) = s1
  have hq := dropLoad_relq s1
  generalize dropLoad (fun _ => true) s1 = s2 at hq
  generalize (s2.hif.fns.map fun e => e.1) = l
  have hl : (l.foldl (fun s f => resetClear f 2 (fnKeysDrop f (missAbandon f s))) s2).hif.relq = [] := by
    induction l generalizing s2 with
    | nil => exact hq
    | cons f l ih =>
      refine ih _ ?_
      rw [(resetClear_parts f 2 _).2.1, (fnKeysDrop_keyFrame f _).hif, (missAbandon_keyFrame f _).hif, hq]
  generalize l.foldl (fun s f => resetClear f 2 (fnKeysDrop f (missAbandon f s))) s2 = s3 at hl
  refine ⟨rfl, rfl, hl, rfl, fun f => ?_⟩
  refine tget_all (P := fun x : Fn => x.rst = none ∧ x.rptHeld = []) ⟨rfl, rfl⟩ (fun e he => ?_) f
  obtain ⟨e, -, rfl⟩ := List.mem_map.1 he
  exact ⟨rfl, rfl⟩

theorem execLink_ends {s : State} (hp : s.pwr.main = true) (hl : s.hif.linkUp = true) : ∀ i ∈ [Instr.linkDown, .perstAssert],
    ∃ t, exec i s = .next t ∧ t.hif.vfEnable = false ∧ t.hif.ide = [] ∧ t.hif.relq = [] ∧ t.slm.flows = [] ∧
      ∀ f, (fnOf t f).rst = none ∧ (fnOf t f).rptHeld = [] := by
  have hc : cfgAnswers s = true := by simp [cfgAnswers, hp, hl]
  intro i hi
  refine ⟨linkEnd s, ?_, linkEnd_clears s⟩
  simp only [List.mem_cons, List.not_mem_nil, or_false] at hi
  rcases hi with rfl | rfl
  · exact congrArg Host.Outcome.next (if_pos hc)
  · exact congrArg Host.Outcome.next (if_pos hc)

/-- Settles O5: every cause goes through the stamp, which empties the token table of the function and its completions; the drain limit resets
the contexts; the report's writes are those of `rptList`, and the reset ends with the page cleared. -/
theorem functionResets : Obligations.FunctionResets :=
  ⟨fun _ _ hp hl hv h1 h2 hr => ⟨execVfFlr_begins hp hl hv h1 h2 hr, execVfD3hot_begins hp hl hv h1 h2 hr⟩,
    fun _ h hf hc hr => execFnReset_begins h hf hc hr, fun _ hp hl hr => execPfFlr_begins hp hl hr,
    fun _ hp hl hv => execVfEnableClear_begins hp hl hv, fun _ _ _ hr hd ht hp => execResetDrainTimeout_kills hr hd ht hp,
    fun _ _ _ hr hp hd ht => execResetReportWrite_ends hr hp hd ht, fun _ hp hl => execLink_ends hp hl⟩

end Sys2Proof.Machine
end
section
/-!
PROOFS. O48 fails: nothing in it keeps the pair key at its length, and the TAKEN message under a shorter one is no 66 bytes.
-/

namespace Sys2Proof.Machine

/-- Bytes of the messages to the partner among what was sent. -/
def knockLengths (l : List Out) : List Nat := l.filterMap fun o => match o with | Out.knock m => some m.length | _ => none

theorem mem_knockLengths {l : List Out} {m : Bytes} (h : Out.knock m ∈ l) : m.length ∈ knockLengths l :=
  List.mem_filterMap.2 ⟨_, h, rfl⟩

/-- A bound device in ACTIVE whose home latch is free, under a pair key of one byte. -/
def shortKey : State :=
  { State.reset with
    pwr := { State.reset.pwr with main := true, mode := .active }
    par := { State.reset.par with bound := true, homeChecked := true, home := 0, key := some [0] } }

/-- What the take of the home latch says: one message of 63 bytes. -/
theorem shortKey_says {t : State} (h : exec (.aloneWaitExpiry 0) shortKey = .next t) : knockLengths t.out = [63] := by
  cases h
  decide +kernel

/-- Refutes O48: a take says TAKEN in a message of 66 bytes only when the tag is whole, and the statement admits a pair key of any length: under one
of a single byte the model's tag has 13 bytes, and the message 63 (R429). -/
theorem not_fencesAndTakes : ¬ Obligations.FencesAndTakes := by
  intro h
  obtain ⟨-, -, htake⟩ := h
  obtain ⟨-, -, hwait, -⟩ := htake shortKey 0 (by decide) rfl
  obtain ⟨t, ht, hl⟩ := hwait rfl rfl rfl rfl (.inr rfl) (.inl ⟨rfl, rfl, rfl⟩)
  obtain ⟨-, -, -, -, -, -, -, -, hs, -⟩ := hl
  obtain ⟨m, ⟨l, hout, hm⟩, hlen, -⟩ := hs
  have hk := mem_knockLengths (l := t.out) (m := m) (by rw [hout]; exact List.mem_append_right _ hm)
  rw [shortKey_says ht, hlen] at hk
  exact absurd hk (by decide)

end Sys2Proof.Machine
end
section
/-!
PROOFS. O37 fails: the draw of the unlock challenge may be the one that halts and reseeds its generator, and the waiter this frees raises its
function's pass.
-/

namespace Sys2Proof.Machine

/-- A generator one request short of its limit of 65,536 (R307). -/
def spentDrbg : Drbg := ⟨zeroBytes 32, zeroBytes 16, 65535, true, false, false⟩

/-- A device in ACTIVE whose generator 0 has one request left and a seed queued. Token 0, of the PF, waits in the Lift for that generator; token 1,
of VF 1, stands READY with pass 5. -/
def waiterFreed : State :=
  { State.reset with
    pwr := { State.reset.pwr with main := true, mode := .active }
    ent := { State.reset.ent with drbgs := [spentDrbg], queue := [zeroBytes 32] }
    slm := { State.reset.slm with
      lift := [⟨.ent 0, 0, 0⟩]
      toks := [(0, { Token.free with st := .liftWait }), (1, { Token.free with st := .ready, func := 1 })] }
    hif := { State.reset.hif with
      linkUp := true, fns := [(0, { Fn.pf with pass := [0, 0, 0, 0] }), (1, { Fn.vf with pass := [5, 0, 0, 0] })] } }

theorem waiterFreed_ready : regsTake waiterFreed ∧ waiterFreed.tmp.busy = false ∧ drbgLive waiterFreed 0 = true := by decide +kernel

/-- What UNLOCK_NEW_CHALLENGE makes of the PF's pass in class 0. -/
theorem waiterFreed_raises {t : State} (h : exec .unlockNewChallenge waiterFreed = .next t) :
    (fnOf t 0).pass.head? = some 5 ∧ (fnOf waiterFreed 0).pass.head? = some 0 := by
  cases h
  decide +kernel

/-- Refutes O37: its clause on UNLOCK_NEW_CHALLENGE leaves every function as it was but for the low word that the PF held, and the draw that takes
the generator to its limit is followed by a reseed, which returns a token from the Lift and raises its function's pass (R239, R240, R314). -/
theorem not_tamperBlock : ¬ Obligations.TamperBlock := by
  intro h
  obtain ⟨-, -, hunlock⟩ := h
  obtain ⟨hopen, hbusy, hlive⟩ := waiterFreed_ready
  obtain ⟨hdraw, -⟩ := hunlock waiterFreed hopen hbusy
  obtain ⟨t, ht, hfns, -⟩ := hdraw hlive
  obtain ⟨hafter, hbefore⟩ := waiterFreed_raises ht
  have hpass : (fnOf t 0).pass = (fnOf waiterFreed 0).pass := by rw [hfns 0, if_pos rfl]
  rw [hpass, hbefore] at hafter
  exact absurd hafter (by decide)

end Sys2Proof.Machine
end
section
/-!
PROOFS. O52: main power and PWRFAIL_N with the records on their way, the boot flash, GPIO3 and the pulse per second.
-/

namespace Sys2Proof.Machine

/-! ### Reads of the image (R470, R277) -/

theorem flashFrame.refl (s : State) : flashFrame s s := ⟨rfl, fnQuiet.refl s⟩
theorem flashFrame.trans {s t u : State} (h : flashFrame s t) (k : flashFrame t u) : flashFrame s u := by
  obtain ⟨h1, h2⟩ := h
  obtain ⟨k1, k2⟩ := k
  exact ⟨by rw [k1, h1], fnQuiet.trans h2 k2⟩

theorem sideFrame.flash {s t : State} (h : sideFrame s t) : flashFrame s t := ⟨by rw [h.1], h.2⟩
theorem modPwr_flash (g : Pwr → Pwr) (s : State) : flashFrame s (modPwr g s) := ⟨rfl, fnQuiet.refl s⟩
theorem emitAll_flash (l : List Out) (s : State) : flashFrame s (emitAll l s) := ⟨rfl, fnQuiet.refl s⟩
theorem flashEnd_flash (r : Nat) (s : State) : flashFrame s (flashEnd r s) := modPwr_flash _ s

theorem chanStat_flash (m c r n : Nat) (s : State) : flashFrame s (chanStat m c r n s) := by
  unfold chanStat
  split
  · exact .refl s
  · exact ⟨rfl, fnQuiet.refl s⟩

theorem chanFail_flash (m n : Nat) (s : State) : flashFrame s (chanFail m n s) := chanStat_flash _ _ _ _ _

theorem chanDone_flash (m f n : Nat) (s : State) : flashFrame s (chanDone m f n s) :=
  (chanStat_flash m 0 0 0 s).trans ((countChan_side _ _ _ _ _ _).flash.trans (countChan_side _ _ _ _ _ _).flash)

theorem busFrame.pwr {s t : State} (h : busFrame s t) : t.pwr = s.pwr := by rw [h.1]

@[simp] theorem chanStat_pwr (m c r n : Nat) (s : State) : (chanStat m c r n s).pwr = s.pwr := (chanStat_bus m c r n s).pwr
@[simp] theorem chanFail_pwr (m n : Nat) (s : State) : (chanFail m n s).pwr = s.pwr := chanStat_pwr _ _ _ _ _
@[simp] theorem chanDone_pwr (m f n : Nat) (s : State) : (chanDone m f n s).pwr = s.pwr := (chanDone_bus m f n s).pwr
@[simp] theorem vioQueue_pwr (v : VioReport) (s : State) : (vioQueue v s).pwr = s.pwr := (vioQueue_bus v s).pwr

/-- What is asked for by a read that the regions allow: one beat, or the beats of the whole. -/
def readBeats (s : State) (f a n : Nat) : List Out := if n ≤ 64 then [.read f a n (noSnoopAt s f a)] else readsOf s f a n

theorem hostRead_allowed {m f a n : Nat} {s : State} (h : hostRefusal s m f a n false = none) :
    hostRead m f a n s = (true, chanStat m 15 0 0 (emitAll (readBeats s f a n) s)) := by
  simp only [hostRead, h, readBeats]
  split <;> rfl

theorem hostRead_refused {m f a n : Nat} {s : State} (h : hostRefusal s m f a n false ≠ none) :
    ∃ t, hostRead m f a n s = (false, t) ∧ t.pwr = s.pwr := by
  obtain ⟨v, hv⟩ := Option.ne_none_iff_exists'.1 h
  exact ⟨chanStat m 2 0 n (vioQueue v s), by simp only [hostRead, hv], by simp⟩

theorem hostRefusal_ne_congr {s t : State} {m f a n : Nat} {w : Bool} (h : (fnOf t f).regions = (fnOf s f).regions)
    (hs : hostRefusal s m f a n w ≠ none) : hostRefusal t m f a n w ≠ none :=
  fun k => hs (hostRefusal_none_congr h.symm k)

theorem readsOf_congr {s t : State} {f : Nat} (h : (fnOf t f).regions = (fnOf s f).regions) (hl : readLim t = readLim s) (a n : Nat) :
    readsOf t f a n = readsOf s f a n := by
  simp only [readsOf, hl, noSnoopAt_congr h]

/-! ### FLASH_WRITE_COMPLETE (R469, R470) -/

theorem imageFormOk_iff (h : Bytes) : imageFormOk h = true ↔ leAt h 0 4 = 0x57464845 ∧ leAt h 12 4 ≤ 8338560 ∧ slice h 16 48 = zeroBytes 48 := by
  simp [imageFormOk, and_assoc]

theorem execFlashWriteComplete_idle {s : State} (data : Bytes) (fail err : Bool) (h : s.pwr.flashBusy = none ∨ s.pwr.main = false) :
    exec (.flashWriteComplete data fail err) s = .next s := by
  show execFlashWriteComplete data fail err s = .next s
  unfold execFlashWriteComplete
  rcases h with h | h
  · rw [h]
  · cases s.pwr.flashBusy <;> simp [h]

section
variable {s : State} {u : Nat} {data : Bytes} (hb : s.pwr.flashBusy = some u) (hm : s.pwr.main = true)
include hb hm

theorem execFlashWriteComplete_fails (err : Bool) :
    exec (.flashWriteComplete data true err) s = .next (flashEnd 6 (chanFail (hifMaster 0 0) 64 s)) := by
  show execFlashWriteComplete data true err s = _
  simp [execFlashWriteComplete, hb, hm]

theorem execFlashWriteComplete_malformed (err : Bool) (hf : imageFormOk (padTo 64 data) = false) :
    exec (.flashWriteComplete data false err) s = .next (flashEnd 5 (chanDone (hifMaster 0 0) 0 64 s)) := by
  show execFlashWriteComplete data false err s = _
  simp [execFlashWriteComplete, hb, hm, hf]

/-- The image of a well-formed header is refused by the PF's regions. -/
theorem execFlashWriteComplete_refused (err : Bool) (hf : imageFormOk (padTo 64 data) = true)
    (hr : hostRefusal s (hifMaster 0 0) 0 (s.pwr.flashPtr + 64) (64 + leAt (padTo 64 data) 12 4 - 64 + 49856) false ≠ none) :
    ∃ t, exec (.flashWriteComplete data false err) s = .next t ∧ t.pwr = { s.pwr with flashResult := 6, flashBusy := none } := by
  obtain ⟨t, ht, hp⟩ := hostRead_refused (hostRefusal_ne_congr ((chanDone_bus (hifMaster 0 0) 0 64 s).regions 0) hr)
  refine ⟨flashEnd 6 t, ?_, ?_⟩
  · show execFlashWriteComplete data false err s = _
    simp only [execFlashWriteComplete, hb, hm, hf, ht, Bool.not_true, Bool.false_eq_true, if_false]
  · rw [chanDone_pwr] at hp
    rw [flashEnd, modPwr_pwr, hp]

end

/-- What the whole image is judged by: its signature, its version, and whether the flash takes the write. -/
def imageJudged (s : State) (u : Nat) (data : Bytes) (err : Bool) : State :=
  let h := padTo 64 data
  let n := 64 + leAt h 12 4
  let b := padTo (n + 49856) data
  if !slhVerify slh256f (romKey s 3) (b.take n) (b.drop n) then flashEnd 3 s
  else if leAt h 4 4 < s.pwr.fwFloor then flashEnd 4 s
  else if err then flashEnd 7 s
  else
    let x : FwSlot := ⟨true, leAt h 4 4, leAt h 8 4, shake256 32 (b.take n)⟩
    flashEnd 0 (modBoot 9 u (fun _ => Ledger.blank) (modPwr (fun p => if u = 0 then { p with slotA := x } else { p with slotB := x }) s))

/-- The whole image has been asked for and read. -/
def flashRead (n : Nat) (s : State) : State :=
  chanDone (hifMaster 0 0) 0 n (chanStat (hifMaster 0 0) 15 0 0 (emitAll (readsOf s 0 (s.pwr.flashPtr + 64) n) (chanDone (hifMaster 0 0) 0 64 s)))

theorem flashRead_flash (n : Nat) (s : State) : flashFrame s (flashRead n s) :=
  (chanDone_flash (hifMaster 0 0) 0 64 s).trans ((emitAll_flash _ _).trans ((chanStat_flash _ _ _ _ _).trans (chanDone_flash _ _ _ _)))

@[simp] theorem flashRead_pwr (n : Nat) (s : State) : (flashRead n s).pwr = s.pwr := by simp [flashRead, emitAll]

theorem flashRead_asks {n : Nat} {s : State} {o : Out} (h : o ∈ readsOf s 0 (s.pwr.flashPtr + 64) n) : o ∈ (flashRead n s).out :=
  (chanDone_bus _ _ _ _).2.2.subset ((chanStat_bus _ _ _ _ _).2.2.subset (List.mem_append_right _ h))

theorem execFlashWriteComplete_judges {s : State} {u : Nat} {data : Bytes} (err : Bool) (hb : s.pwr.flashBusy = some u) (hm : s.pwr.main = true)
    (hf : imageFormOk (padTo 64 data) = true)
    (hr : hostRefusal s (hifMaster 0 0) 0 (s.pwr.flashPtr + 64) (64 + leAt (padTo 64 data) 12 4 - 64 + 49856) false = none) :
    exec (.flashWriteComplete data false err) s =
      .next (imageJudged (flashRead (64 + leAt (padTo 64 data) 12 4 - 64 + 49856) s) u data err) := by
  have hd := chanDone_bus (hifMaster 0 0) 0 64 s
  have hread := hostRead_allowed (hostRefusal_none_congr (hd.regions 0) hr)
  rw [readBeats, if_neg (by omega), readsOf_congr (hd.regions 0) (by rw [readLim, hd.1]; rfl)] at hread
  show execFlashWriteComplete data false err s = _
  simp only [execFlashWriteComplete, hb, hm, hf, hread, Bool.not_true, Bool.false_eq_true, if_false]
  rfl

/-! ### The boot ledger's entry of a slot (R470, R471) -/

theorem modBoot_wrote (step unit : Nat) (e : Ledger) (s : State) : bootWrote s (modBoot step unit (fun _ => e) s) step unit e := by
  simp only [bootWrote, bootOf, modBoot, modPwr_pwr]
  exact ⟨tget_tmod_same _ _ _ _, fun _ _ h => tget_tmod_ne _ _ _ h⟩

theorem bootWrote_of_ledger {s t s' t' : State} {step unit : Nat} {e : Ledger} (h : bootWrote s t step unit e)
    (hs : s'.pwr.ledger = s.pwr.ledger) (ht : t'.pwr.ledger = t.pwr.ledger) : bootWrote s' t' step unit e := by
  simpa only [bootWrote, bootOf, hs, ht] using h

/-- The judgement of an image, as the statement gives it. -/
theorem imageJudged_ends {s x : State} {u : Nat} {data : Bytes} {err : Bool} (hx : flashFrame s x) (hp : x.pwr = s.pwr) :
    let h := padTo 64 data
    let n := 64 + leAt h 12 4
    let b := padTo (n + 49856) data
    let ended := fun r => ({ s.pwr with flashResult := r, flashBusy := none } : Pwr)
    let k : FwSlot := ⟨true, leAt h 4 4, leAt h 8 4, shake256 32 (b.take n)⟩
    let t := imageJudged x u data err
    flashFrame s t ∧ t.out = x.out ∧
      (if slhVerify slh256f (romKey s 3) (b.take n) (b.drop n) = false then t.pwr = ended 3
       else if leAt h 4 4 < s.pwr.fwFloor then t.pwr = ended 4
       else if err = true then t.pwr = ended 7
       else t.pwr.flashResult = 0 ∧ t.pwr.flashBusy = none ∧ t.pwr.slotA = (if u = 0 then k else s.pwr.slotA) ∧
         t.pwr.slotB = (if u = 0 then s.pwr.slotB else k) ∧ t.pwr.slot = s.pwr.slot ∧ bootWrote s t 9 u ⟨0, 0, 0⟩) := by
  intro h n b ended k t
  have hk : romKey x 3 = romKey s 3 := by rw [romKey, hx.1]; rfl
  simp only [t, imageJudged, hk, hp, Bool.not_eq_true']
  split
  · exact ⟨hx.trans (flashEnd_flash _ _), rfl, by rw [flashEnd, modPwr_pwr, hp]⟩
  split
  · exact ⟨hx.trans (flashEnd_flash _ _), rfl, by rw [flashEnd, modPwr_pwr, hp]⟩
  split
  · exact ⟨hx.trans (flashEnd_flash _ _), rfl, by rw [flashEnd, modPwr_pwr, hp]⟩
  refine ⟨hx.trans ((modPwr_flash _ _).trans ((modPwr_flash _ _).trans (modPwr_flash _ _))), rfl, rfl, rfl, ?_⟩
  simp only [flashEnd, modBoot, modPwr_pwr, hp]
  refine ⟨by split <;> rfl, by split <;> rfl, by split <;> rfl, ?_⟩
  refine bootWrote_of_ledger (modBoot_wrote 9 u ⟨0, 0, 0⟩ s) rfl ?_
  simp only [modBoot, modPwr_pwr, hp]
  split <;> rfl

theorem execFlashWriteComplete_ends {s : State} {u : Nat} {data : Bytes} {err : Bool} (hb : s.pwr.flashBusy = some u) (hm : s.pwr.main = true) :
    let h := padTo 64 data
    let n := 64 + leAt h 12 4
    let b := padTo (n + 49856) data
    let ended := fun r => ({ s.pwr with flashResult := r, flashBusy := none } : Pwr)
    (∃ t, exec (.flashWriteComplete data true err) s = .next t ∧ flashFrame s t ∧ t.pwr = ended 6) ∧
    (leAt h 0 4 ≠ 0x57464845 ∨ 8338560 < leAt h 12 4 ∨ slice h 16 48 ≠ zeroBytes 48 →
      ∃ t, exec (.flashWriteComplete data false err) s = .next t ∧ flashFrame s t ∧ t.pwr = ended 5) ∧
    (leAt h 0 4 = 0x57464845 → leAt h 12 4 ≤ 8338560 → slice h 16 48 = zeroBytes 48 →
      (hostRefusal s (hifMaster 0 0) 0 (s.pwr.flashPtr + 64) (n - 64 + 49856) false ≠ none →
        ∃ t, exec (.flashWriteComplete data false err) s = .next t ∧ t.pwr = ended 6) ∧
      (hostRefusal s (hifMaster 0 0) 0 (s.pwr.flashPtr + 64) (n - 64 + 49856) false = none →
        let good := slhVerify slh256f (romKey s 3) (b.take n) (b.drop n)
        let x : FwSlot := ⟨true, leAt h 4 4, leAt h 8 4, shake256 32 (b.take n)⟩
        ∃ t, exec (.flashWriteComplete data false err) s = .next t ∧
          flashFrame s t ∧ (∀ o ∈ readsOf s 0 (s.pwr.flashPtr + 64) (n - 64 + 49856), o ∈ t.out) ∧
          (if good = false then t.pwr = ended 3
           else if leAt h 4 4 < s.pwr.fwFloor then t.pwr = ended 4
           else if err = true then t.pwr = ended 7
           else t.pwr.flashResult = 0 ∧ t.pwr.flashBusy = none ∧ t.pwr.slotA = (if u = 0 then x else s.pwr.slotA) ∧
             t.pwr.slotB = (if u = 0 then s.pwr.slotB else x) ∧ t.pwr.slot = s.pwr.slot ∧ bootWrote s t 9 u ⟨0, 0, 0⟩))) := by
  intro h n b ended
  refine ⟨⟨_, execFlashWriteComplete_fails hb hm err, (chanFail_flash _ _ _).trans (flashEnd_flash _ _), ?_⟩, fun hbad => ?_, fun h0 h12 h16 => ?_⟩
  · rw [flashEnd, modPwr_pwr, chanFail_pwr]
  · have hf : imageFormOk h = false := by
      rw [Bool.eq_false_iff, ne_eq, imageFormOk_iff]
      rintro ⟨h0, h12, h16⟩
      rcases hbad with hn | hn | hn
      · exact hn h0
      · omega
      · exact hn h16
    refine ⟨_, execFlashWriteComplete_malformed hb hm err hf, (chanDone_flash _ _ _ _).trans (flashEnd_flash _ _), ?_⟩
    rw [flashEnd, modPwr_pwr, chanDone_pwr]
  · have hf : imageFormOk h = true := (imageFormOk_iff h).2 ⟨h0, h12, h16⟩
    refine ⟨execFlashWriteComplete_refused hb hm err hf, fun hr => ?_⟩
    obtain ⟨hframe, hout, hend⟩ := imageJudged_ends (u := u) (data := data) (err := err) (flashRead_flash (n - 64 + 49856) s) (flashRead_pwr _ s)
    exact ⟨_, execFlashWriteComplete_judges err hb hm hf hr, hframe, fun o ho => hout ▸ flashRead_asks ho, hend⟩

/-! ### Registers of the power block: FLASH_GO, GPIO_CTL, and GPIO3 (R470, R525-R527) -/

theorem regsAnswer_iff (s : State) : regsAnswer s = true ↔ s.pwr.main = true ∧ s.hif.linkUp = true ∧ s.pwr.mode ≠ .guard := by
  simp [regsAnswer, and_assoc]

theorem regWrote_closed {f : Nat} {s : State} (h : regsAnswer s = false) : regWrote f s = s := by
  have hn : ¬ (s.pwr.main = true ∧ s.hif.linkUp = true ∧ s.pwr.mode ≠ .guard) := fun k => by rw [(regsAnswer_iff s).2 k] at h; cases h
  exact if_neg hn

theorem regWrote_answers {f : Nat} {s : State} (h : regsAnswer s = true) : regWrote f s = modFn f (fun x => { x with heldWr := none }) s :=
  regWrote_open ((regsAnswer_iff s).1 h)

theorem modFn_regIs (f : Nat) (s : State) : regIs f s (modFn f (fun x => { x with heldWr := none }) s) := by
  refine ⟨modFn_frame _ _ _, fun g => ?_⟩
  rw [fnOf_modFn]
  split
  · next h => rw [h]
  · rfl

theorem regWrote_regIs {f : Nat} {s : State} (h : regsAnswer s = true) : regIs f s (regWrote f s) := by
  rw [regWrote_answers h]
  exact modFn_regIs f s

theorem regsAnswer_congr {s t : State} (h : regsAnswer s = true) (hm : t.pwr.main = s.pwr.main) (hl : t.hif.linkUp = s.hif.linkUp)
    (hd : t.pwr.mode = s.pwr.mode) : regsAnswer t = true := by
  rwa [regsAnswer, hm, hl, hd]

section
variable {s : State} {slot : Nat} (ha : regsAnswer s = true)
include ha

theorem execFlashGo_busy (hb : s.pwr.flashBusy ≠ none) : exec (.flashGo slot) s = .next (regWrote 0 s) := by
  show execFlashGo slot s = _
  obtain ⟨u, hu⟩ := Option.ne_none_iff_exists'.1 hb
  simp only [execFlashGo, ha, hu, Option.isSome_some, or_true, if_true]

theorem execFlashGo_running (hb : s.pwr.flashBusy = none) (hu : slot % 2 = s.pwr.slot) :
    exec (.flashGo slot) s = .next (regWrote 0 (flashEnd 2 s)) := by
  show execFlashGo slot s = _
  simp only [execFlashGo, ha, hb, hu, Bool.not_true, Option.isSome_none, Bool.false_eq_true, or_self, if_false, if_true]

theorem execFlashGo_asks (hb : s.pwr.flashBusy = none) (hu : slot % 2 ≠ s.pwr.slot)
    (hr : hostRefusal s (hifMaster 0 0) 0 s.pwr.flashPtr 64 false = none) :
    exec (.flashGo slot) s = .next (regWrote 0 (modPwr (fun p => { p with flashResult := 1, flashBusy := some (slot % 2) })
      (chanStat (hifMaster 0 0) 15 0 0 (emit (.read 0 s.pwr.flashPtr 64 (noSnoopAt s 0 s.pwr.flashPtr)) s)))) := by
  show execFlashGo slot s = _
  have hread := hostRead_allowed hr
  rw [readBeats, if_pos (by decide)] at hread
  simp only [execFlashGo, ha, hb, hu, hread, Bool.not_true, Option.isSome_none, Bool.false_eq_true, or_self, if_false]
  rfl

theorem execFlashGo_refused (hb : s.pwr.flashBusy = none) (hu : slot % 2 ≠ s.pwr.slot)
    (hr : hostRefusal s (hifMaster 0 0) 0 s.pwr.flashPtr 64 false ≠ none) :
    ∃ t, exec (.flashGo slot) s = .next t ∧ t.pwr = { s.pwr with flashResult := 6, flashBusy := none } := by
  obtain ⟨t, ht, hp⟩ := hostRead_refused hr
  refine ⟨regWrote 0 (flashEnd 6 t), ?_, ?_⟩
  · show execFlashGo slot s = _
    simp only [execFlashGo, ha, hb, hu, ht, Bool.not_true, Option.isSome_none, Bool.false_eq_true, or_self, if_false]
  · have hw : (regWrote 0 (flashEnd 6 t)).pwr = (flashEnd 6 t).pwr := by
      unfold regWrote
      split <;> rfl
    rw [hw, flashEnd, modPwr_pwr, hp]

end

/-- The read of the header: its channel, and what is asked for. -/
theorem flashAsked_regIs {s : State} (ha : regsAnswer s = true) (u : Nat) (o : Out) :
    let x := modPwr (fun p => { p with flashResult := 1, flashBusy := some u }) (chanStat (hifMaster 0 0) 15 0 0 (emit o s))
    regIs 0 { s with
      pwr := { s.pwr with flashResult := 1, flashBusy := some u }
      mov := { s.mov with chans := (regWrote 0 x).mov.chans }
      out := s.out ++ [o] } (regWrote 0 x) ∧ ∀ k, k ≠ 0 → chan (regWrote 0 x) k = chan s k := by
  intro x
  have hx : regsAnswer x = true := regsAnswer_congr ha rfl rfl rfl
  rw [regWrote_answers hx]
  refine ⟨modFn_regIs 0 x, fun k hk => ?_⟩
  have hc : (modFn 0 (fun x => { x with heldWr := none }) x).mov.chans = (chanStat (hifMaster 0 0) 15 0 0 (emit o s)).mov.chans := rfl
  rw [chan, hc, chanStat, if_neg (by decide), modChan, modMov_mov, show hifMaster 0 0 - 0xC0 = 0 from rfl, tget_tmod_ne _ _ _ hk]
  rfl

theorem execFlashGo_ends {s : State} (slot : Nat) (ha : regsAnswer s = true) :
    let u := slot % 2
    (s.pwr.flashBusy ≠ none → ∃ t, exec (.flashGo slot) s = .next t ∧ regIs 0 s t) ∧
    (s.pwr.flashBusy = none →
      (u = s.pwr.slot → ∃ t, exec (.flashGo slot) s = .next t ∧ regIs 0 { s with pwr := { s.pwr with flashResult := 2, flashBusy := none } } t) ∧
      (u ≠ s.pwr.slot → hostRefusal s (hifMaster 0 0) 0 s.pwr.flashPtr 64 false = none → ∃ t, exec (.flashGo slot) s = .next t ∧
        regIs 0 { s with
          pwr := { s.pwr with flashResult := 1, flashBusy := some u }
          mov := { s.mov with chans := t.mov.chans }
          out := s.out ++ [.read 0 s.pwr.flashPtr 64 (noSnoopAt s 0 s.pwr.flashPtr)] } t ∧ ∀ k, k ≠ 0 → chan t k = chan s k) ∧
      (u ≠ s.pwr.slot → hostRefusal s (hifMaster 0 0) 0 s.pwr.flashPtr 64 false ≠ none → ∃ t, exec (.flashGo slot) s = .next t ∧
        t.pwr = { s.pwr with flashResult := 6, flashBusy := none })) := by
  intro u
  refine ⟨fun hb => ⟨_, execFlashGo_busy ha hb, regWrote_regIs ha⟩, fun hb => ⟨fun hu => ?_, fun hu hr => ?_, execFlashGo_refused ha hb⟩⟩
  · exact ⟨_, execFlashGo_running ha hb hu, regWrote_regIs (regsAnswer_congr ha rfl rfl rfl)⟩
  · exact ⟨_, execFlashGo_asks ha hb hu hr, flashAsked_regIs ha u _⟩

theorem execFlashGo_closed {s : State} (slot : Nat) (h : regsAnswer s = false) : exec (.flashGo slot) s = .next s := by
  show execFlashGo slot s = _
  simp only [execFlashGo, h, Bool.not_false, true_or, if_true, regWrote_closed h]

theorem execGpioCtlWrite_closed {s : State} (v : Nat) (h : regsAnswer s = false) : exec (.gpioCtlWrite v) s = .next s := by
  show execGpioCtlWrite v s = _
  simp only [execGpioCtlWrite, h, Bool.not_false, if_true, regWrote_closed h]

/-- Both enables asked for, or the one of a function while the other's is set (R525; log entry 57). -/
def gpioClash (s : State) (v : Nat) : Prop :=
  (v.testBit 1 = true ∧ v.testBit 0 = true) ∨ (v.testBit 1 = true ∧ s.pwr.svcEn = true) ∨ (v.testBit 0 = true ∧ s.pwr.ppsEn = true)

theorem execGpioCtlWrite_refused {s : State} {v : Nat} (ha : regsAnswer s = true) (hb : gpioClash s v) :
    exec (.gpioCtlWrite v) s = .next (regWrote 0 (modPwr (fun p => { p with gpioConflict := true }) s)) := by
  show execGpioCtlWrite v s = _
  unfold gpioClash at hb
  simp only [execGpioCtlWrite, ha, hb, Bool.not_true, Bool.false_eq_true, modPwr_pwr, if_true, if_false]
  rfl

theorem execGpioCtlWrite_taken {s : State} {v : Nat} (ha : regsAnswer s = true) (hb : ¬ gpioClash s v) :
    exec (.gpioCtlWrite v) s = .next (regWrote 0 (modPwr (fun p => { p with
      gpioConflict := p.gpioConflict && !v.testBit 31, ppsEn := v.testBit 1, svcEn := v.testBit 0 }) s)) := by
  show execGpioCtlWrite v s = _
  unfold gpioClash at hb
  simp only [execGpioCtlWrite, ha, hb, Bool.not_true, Bool.false_eq_true, modPwr_pwr, if_false]
  rfl

theorem gpio3_of_answers {s : State} (h : regsAnswer s = true) : gpio3 s = (if s.pwr.svcEn = true then
      some (decide (s.hif.svcMode = .active ∨ s.hif.svcMode = .standby))
    else if s.pwr.ppsEn = true then some (match s.pwr.ppsUntil with | some e => decide (s.time.refCount < e) | none => false) else none) := by
  obtain ⟨hm, -, hg⟩ := (regsAnswer_iff s).1 h
  simp only [gpio3, hm, hg, Bool.not_true, Bool.false_eq_true, or_self, if_false, Bool.decide_or] <;> cases s.pwr.ppsUntil <;> rfl

theorem gpio3_off {s : State} (h : s.pwr.main = false ∨ s.pwr.mode = .guard) : gpio3 s = none := by
  unfold gpio3
  rw [if_pos]
  rcases h with h | h
  · exact .inl (by rw [h]; rfl)
  · exact .inr h

theorem execGpioCtlWrite_ends {s : State} (v : Nat) (ha : regsAnswer s = true) :
    let c := s.pwr.gpioConflict && !v.testBit 31
    (gpioClash s v → ∃ t, exec (.gpioCtlWrite v) s = .next t ∧ regIs 0 { s with pwr := { s.pwr with gpioConflict := true } } t) ∧
    (¬ gpioClash s v → ∃ t, exec (.gpioCtlWrite v) s = .next t ∧
      regIs 0 { s with pwr := { s.pwr with gpioConflict := c, ppsEn := v.testBit 1, svcEn := v.testBit 0 } } t ∧
      gpio3 t = if v.testBit 0 = true then some (decide (s.hif.svcMode = .active ∨ s.hif.svcMode = .standby))
        else if v.testBit 1 = true then some (match s.pwr.ppsUntil with | some e => decide (s.time.refCount < e) | none => false) else none) := by
  intro c
  refine ⟨fun hb => ⟨_, execGpioCtlWrite_refused ha hb, regWrote_regIs (regsAnswer_congr ha rfl rfl rfl)⟩, fun hb => ?_⟩
  have hx : regsAnswer (modPwr (fun p => { p with
    gpioConflict := p.gpioConflict && !v.testBit 31, ppsEn := v.testBit 1, svcEn := v.testBit 0 }) s) = true := regsAnswer_congr ha rfl rfl rfl
  refine ⟨_, execGpioCtlWrite_taken ha hb, regWrote_regIs hx, ?_⟩
  rw [regWrote_answers hx]
  exact gpio3_of_answers (s := modFn 0 _ _) hx

/-! ### PPS_PULSE (R527) -/

theorem execPpsPulse_off {s : State} (h : s.time.dev = none ∨ s.pwr.main = false) : exec .ppsPulse s = .next s := by
  show execPpsPulse s = _
  unfold execPpsPulse
  rcases h with h | h
  · rw [h]
  · cases s.time.dev <;> simp [h]

/-- A whole second of device time has come since the last pulse. -/
def ppsDue (s : State) (d : Nat) : Prop := match s.pwr.ppsSecond with | some k => k < d / 1000000 | none => d % 1000000 = 0

theorem execPpsPulse_waits {s : State} {d : Nat} (hd : s.time.dev = some d) (h : ¬ ppsDue s d) : exec .ppsPulse s = .next s := by
  show execPpsPulse s = _
  unfold ppsDue at h
  cases hk : s.pwr.ppsSecond <;> rw [hk] at h <;> simp only [execPpsPulse, hd, hk, h, decide_false, Bool.not_false, or_true, if_true]

/-- What a due pulse leaves. -/
def ppsPulsed (d : Nat) (s : State) : State :=
  if s.pwr.ppsEn then
    emit .pps (modPwr (fun p => { p with ppsUntil := some (s.time.refCount + 1000) }) (modPwr (fun p => { p with ppsSecond := some (d / 1000000) }) s))
  else modPwr (fun p => { p with ppsSecond := some (d / 1000000) }) s

theorem execPpsPulse_due {s : State} {d : Nat} (hd : s.time.dev = some d) (hm : s.pwr.main = true) (h : ppsDue s d) :
    exec .ppsPulse s = .next (ppsPulsed d s) := by
  show execPpsPulse s = _
  unfold ppsDue at h
  cases hk : s.pwr.ppsSecond <;> rw [hk] at h <;>
    simp only [execPpsPulse, ppsPulsed, hd, hm, hk, h, decide_true, Bool.not_true, Bool.false_eq_true, or_self, if_false, modPwr_pwr, modPwr_time]

theorem execPpsPulse_at {s : State} {d : Nat} (hd : s.time.dev = some d) (hm : s.pwr.main = true) :
    (¬ ppsDue s d → exec .ppsPulse s = .next s) ∧
    (ppsDue s d → s.pwr.ppsEn = false → exec .ppsPulse s = .next { s with pwr := { s.pwr with ppsSecond := some (d / 1000000) } }) ∧
    (ppsDue s d → s.pwr.ppsEn = true → exec .ppsPulse s = .next { s with
      pwr := { s.pwr with ppsSecond := some (d / 1000000), ppsUntil := some (s.time.refCount + 1000) }
      out := s.out ++ [.pps] }) :=
  ⟨execPpsPulse_waits hd, fun h he => by rw [execPpsPulse_due hd hm h, ppsPulsed, if_neg (by simp [he])]; rfl,
    fun h he => by rw [execPpsPulse_due hd hm h, ppsPulsed, if_pos he]; rfl⟩

/-! ### GUARD_DIE_POWER_UP and PWRFAIL_DEASSERT (R336, R516) -/

theorem execGuardDiePowerUp_on {s : State} (h : s.pwr.main = true ∨ s.pwr.backup = true) : exec .guardDiePowerUp s = .next s := by
  show execGuardDiePowerUp s = _
  rw [execGuardDiePowerUp, if_pos h]

theorem execGuardDiePowerUp_arms {s : State} (hm : s.pwr.main = false) (hb : s.pwr.backup = false) :
    exec .guardDiePowerUp s = .next { s with
      pwr := { s.pwr with backup := true, mode := .guard }
      tmp := { s.tmp with mons := s.tmp.mons.map fun m => { Monitor.fresh m.cls with disCls := m.disCls } }
      time := { s.time with slowCount := 0 } } := by
  show execGuardDiePowerUp s = _
  rw [execGuardDiePowerUp, if_neg (by simp [hm, hb])]
  rfl

theorem execPwrfailDeassert_main {s : State} (h : s.pwr.main = true) :
    exec .pwrfailDeassert s = .next { s with pwr := { s.pwr with pwrfail := none } } := by
  show execPwrfailDeassert s = _
  rw [execPwrfailDeassert, if_pos h]
  rfl

theorem execPwrfailDeassert_off {s : State} (h : s.pwr.main = false) :
    exec .pwrfailDeassert s = .next { s with pwr := { s.pwr with pwrfail := none, supplies := true, okSince := some s.time.slowCount } } := by
  show execPwrfailDeassert s = _
  rw [execPwrfailDeassert, if_neg (by simp [h])]
  rfl

theorem execPwrfailAssert_off {s : State} (h : s.pwr.main = false) :
    exec .pwrfailAssert s = .next { s with pwr := { s.pwr with pwrfail := some s.time.slowCount, okSince := none } } := by
  show execPwrfailAssert s = _
  rw [execPwrfailAssert, if_neg (by simp [h])]
  rfl

/-! ### What a report leaves of the record buffer, the lock words and the partner (R333, R391, R438) -/

/-- At most `n` records more in the record buffer; with room for these the tamper block is unchanged, and of the partner block only the mirror
stream's queues move. -/
def saidFrame (n : Nat) (s t : State) : Prop :=
  s.aud.buf <+: t.aud.buf ∧ t.tmp.mons = s.tmp.mons ∧
  t.par = { s.par with txNext := t.par.txNext, txq := t.par.txq, retained := t.par.retained, sentAt := t.par.sentAt } ∧
  (s.aud.buf.length + n ≤ 64 → t.tmp = s.tmp ∧ t.aud.buf.length ≤ s.aud.buf.length + n)

theorem saidFrame.trans {n m : Nat} {s t u : State} (h : saidFrame n s t) (k : saidFrame m t u) : saidFrame (n + m) s u := by
  obtain ⟨h1, h2, h3, h4⟩ := h
  obtain ⟨k1, k2, k3, k4⟩ := k
  refine ⟨h1.trans k1, k2.trans h2, by rw [k3, h3], fun hn => ?_⟩
  obtain ⟨ht, hl⟩ := h4 (by omega)
  obtain ⟨kt, kl⟩ := k4 (by omega)
  exact ⟨kt.trans ht, by omega⟩

theorem saidFrame_of_eq {s t : State} (n : Nat) (hb : t.aud.buf = s.aud.buf) (ht : t.tmp = s.tmp) (hp : t.par = s.par) : saidFrame n s t :=
  ⟨by rw [hb], by rw [ht], by rw [hp], fun _ => ⟨ht, by rw [hb]; omega⟩⟩

theorem saidFrame.mono {n m : Nat} {s t : State} (h : saidFrame n s t) (hm : n ≤ m) : saidFrame m s t := by
  obtain ⟨h1, h2, h3, h4⟩ := h
  refine ⟨h1, h2, h3, fun hn => ?_⟩
  obtain ⟨ht, hl⟩ := h4 (by omega)
  exact ⟨ht, by omega⟩

theorem saidFrame.before {n : Nat} {s t u : State} (h : saidFrame 0 s t) (k : saidFrame n t u) : saidFrame n s u :=
  (h.trans k).mono (by omega)

theorem saidFrame.after {n : Nat} {s t u : State} (h : saidFrame n s t) (k : saidFrame 0 t u) : saidFrame n s u := h.trans k

theorem bufPush_said (r : BufRec) (s : State) : saidFrame 1 s (bufPush r s) := by
  unfold bufPush
  split
  · exact ⟨List.prefix_append _ _, rfl, rfl, fun _ => ⟨rfl, by simp⟩⟩
  · refine ⟨List.prefix_rfl, ?_, rfl, fun hn => absurd hn (by omega)⟩
    cases hl : s.tmp.lock <;> simp [lockLatch, hl]

theorem recAssign_said (c fl fn : Nat) (b : Bytes) (s : State) : saidFrame 0 s (recAssign c fl fn b s) := by
  refine saidFrame_of_eq 0 ?_ rfl rfl
  simp only [recAssign, modAud_aud]
  split <;> rfl

theorem recAppend_said (c fl fn : Nat) (b : Bytes) (s : State) : saidFrame 1 s (recAppend c fl fn b s) := by
  unfold recAppend
  split
  · exact bufPush_said _ s
  · refine (saidFrame.after (n := 0) ?_ (recAssign_said _ _ _ _ _)).mono (by decide)
    split
    · exact recAssign_said _ _ _ _ s
    · exact saidFrame_of_eq 0 rfl rfl rfl

theorem healthReport_said (k : Nat) (d : Bytes) (s : State) : saidFrame 0 s (healthReport k d s) := by
  unfold healthReport mctpQueue ibiRaise
  split
  · split <;> exact saidFrame_of_eq 0 rfl rfl rfl
  · exact saidFrame_of_eq 0 rfl rfl rfl

theorem sideFrame.said {s t : State} (h : sideFrame s t) : saidFrame 0 s t :=
  saidFrame_of_eq 0 (by rw [h.1]) (by rw [h.1]) (by rw [h.1])

theorem logWarn_said (s : State) : saidFrame 1 s (logWarn s) := by
  unfold logWarn
  split
  · refine .before (t := modAud (fun a => { a with warned := true }) s) (saidFrame_of_eq 0 rfl rfl rfl) ?_
    exact (recAppend_said _ _ _ _ _).after ((fireMsix_side 0 6 _).said.after (healthReport_said _ _ _))
  · exact saidFrame_of_eq 1 rfl rfl rfl

theorem logFullSay_said (s : State) : saidFrame 1 s (logFullSay s) := by
  unfold logFullSay
  split
  · refine .before (t := modAud (fun a => { a with fullSaid := true }) s) (saidFrame_of_eq 0 rfl rfl rfl) ?_
    exact (recAppend_said _ _ _ _ _).after (healthReport_said _ _ _)
  · exact saidFrame_of_eq 1 rfl rfl rfl

theorem mirrorSend_said (ty l : Nat) (b : Bytes) (s : State) : saidFrame 0 s (mirrorSend ty l b s) := by
  unfold mirrorSend
  split
  · exact ⟨List.prefix_rfl, rfl, rfl, fun _ => ⟨rfl, Nat.le_refl _⟩⟩
  · exact saidFrame_of_eq 0 rfl rfl rfl

theorem headMirror_said (s : State) : saidFrame 0 s (headMirror s) := by
  unfold headMirror
  split
  · exact .before (t := modAud (fun a => { a with headSent := s.time.refCount }) s) (saidFrame_of_eq 0 rfl rfl rfl)
      (mirrorSend_said _ _ _ _)
  · exact saidFrame_of_eq 0 rfl rfl rfl

/-- A record and the two of its thresholds. -/
theorem auditU_said (c fl fn : Nat) (b : Bytes) (s : State) : saidFrame 3 s (auditU c fl fn b s) :=
  (recAppend_said c fl fn b s).trans ((logWarn_said _).trans ((logFullSay_said _).trans (headMirror_said _)))

/-- What the recorder cannot take goes to the record buffer, where it has room. -/
theorem auditU_buffered {c fl fn : Nat} {b : Bytes} {s : State} (hb : recBlocked s = true) (hn : s.aud.buf.length < 64) :
    ⟨c, fn, fl, b, timeField s⟩ ∈ (auditU c fl fn b s).aud.buf := by
  have hlater := (logWarn_said (recAppend c fl fn b s)).trans ((logFullSay_said _).trans (headMirror_said _))
  refine hlater.1.subset ?_
  rw [recAppend, if_pos hb, bufPush, if_pos hn]
  exact List.mem_append_right _ (List.mem_singleton_self _)

/-! ### A change of mode (R37, R466) -/

/-- Only the mode, the service word and what a report touches may differ. -/
def modeFrame (m : Mode) (s t : State) : Prop :=
  t = { s with
    pwr := { s.pwr with mode := m }
    hif := { s.hif with svcMode := t.hif.svcMode, svcLatches := t.hif.svcLatches, fns := t.hif.fns }
    tmp := t.tmp, aud := t.aud, par := t.par, i3c := t.i3c, out := t.out }

/-- The service word is not held back. -/
def svcFree (s : State) : Prop := s.par.l0.take = .none ∧ s.par.l1.take = .none ∧ s.hif.svcHeld = false

theorem showSvc_mode (s : State) : modeFrame s.pwr.mode s (showSvc s) ∧ (svcFree s → (showSvc s).hif.svcMode = s.pwr.mode) := by
  unfold showSvc
  split
  · exact ⟨rfl, fun _ => rfl⟩
  · next h => exact ⟨rfl, fun k => absurd k h⟩

theorem showSvc_said (s : State) : saidFrame 0 s (showSvc s) := by
  unfold showSvc
  split <;> exact saidFrame_of_eq 0 rfl rfl rfl

theorem fireMsix_cnt (f v : Nat) (s : State) : (fireMsix f v s).cnt = s.cnt := by
  obtain h | h | ⟨e, -, h⟩ := fireMsix_cases f v s <;> rw [h] <;> rfl

theorem modeFrame.trans {m : Mode} {s t u : State} (h : modeFrame m s t) (k : modeFrame m t u) : modeFrame m s u := by
  unfold modeFrame
  rw [k, h]

theorem modeFrame.mode {m : Mode} {s t : State} (h : modeFrame m s t) : t.pwr.mode = m := by rw [h]
theorem modeFrame.svcHeld {m : Mode} {s t : State} (h : modeFrame m s t) : t.hif.svcHeld = s.hif.svcHeld := by rw [h]

theorem fireMsix_mode {f v : Nat} {s : State} : modeFrame s.pwr.mode s (fireMsix f v s) := by
  have h := (fireMsix_side f v s).1
  rw [fireMsix_cnt] at h
  unfold modeFrame
  rw [h]

theorem fireMsix_svcMode (f v : Nat) (s : State) : (fireMsix f v s).hif.svcMode = s.hif.svcMode := by rw [(fireMsix_side f v s).1]

theorem svcUpdate_changes (s : State) : modeFrame s.pwr.mode s (svcUpdate s) ∧ (svcFree s → (svcUpdate s).hif.svcMode = s.pwr.mode) ∧
    saidFrame 0 s (svcUpdate s) := by
  obtain ⟨hf, hs⟩ := showSvc_mode s
  have hp : (showSvc s).pwr.mode = s.pwr.mode := hf.mode
  simp only [svcUpdate]
  split
  · exact ⟨hf, hs, showSvc_said s⟩
  · exact ⟨hf.trans (hp ▸ fireMsix_mode), fun h => (fireMsix_svcMode _ _ _).trans (hs h), (showSvc_said s).after (fireMsix_side _ _ _).said⟩

/-- The MODE record of a change of mode. -/
def modeBody (old m : Mode) (s : State) : Bytes :=
  leBytes 1 (modeCode old) ++ leBytes 1 (modeCode m) ++ leBytes 1 (latchCount s) ++ leBytes 1 (Config.modeCause (modeCode old) (modeCode m))

/-- A device in another mode, with its MODE record written. -/
def modeAudited (m : Mode) (s : State) : State :=
  let x := modPwr (fun p => { p with mode := m }) s
  auditU 0x0011 0 0 (modeBody s.pwr.mode m x) x

theorem setMode_ne {m : Mode} {s : State} (h : s.pwr.mode ≠ m) : setMode m s = fireMsix 0 5 (showSvc (modeAudited m s)) := by
  unfold setMode
  rw [if_neg h]
  rfl

theorem modeAudited_changes (m : Mode) (s : State) : modeFrame m s (modeAudited m s) ∧ saidFrame 3 s (modeAudited m s) := by
  refine ⟨?_, (saidFrame_of_eq 0 rfl rfl rfl).before (auditU_said _ _ _ _ (modPwr (fun p => { p with mode := m }) s))⟩
  unfold modeFrame modeAudited
  rw [(auditU_report _ _ _ _ (modPwr (fun p => { p with mode := m }) s)).1]
  rfl

theorem svcFree_of_said {n : Nat} {s t : State} (h : saidFrame n s t) (hs : t.hif.svcHeld = s.hif.svcHeld) (k : svcFree s) : svcFree t := by
  obtain ⟨k0, k1, k2⟩ := k
  refine ⟨?_, ?_, hs.trans k2⟩ <;> rw [h.2.2.1] <;> assumption

theorem setMode_changes (m : Mode) (s : State) : modeFrame m s (setMode m s) ∧ (svcFree s → (setMode m s).hif.svcMode = m) ∧
    saidFrame 3 s (setMode m s) := by
  by_cases h : s.pwr.mode = m
  · rw [setMode, if_pos h, ← h]
    obtain ⟨hf, hs, hr⟩ := svcUpdate_changes s
    exact ⟨hf, hs, hr.mono (by decide)⟩
  · rw [setMode_ne h]
    obtain ⟨ha, hr⟩ := modeAudited_changes m s
    generalize modeAudited m s = x at ha hr ⊢
    obtain ⟨hf, hs⟩ := showSvc_mode x
    rw [ha.mode] at hf hs
    have hfire := fireMsix_mode (f := 0) (v := 5) (s := showSvc x)
    rw [hf.mode] at hfire
    refine ⟨(ha.trans hf).trans hfire, fun k => ?_, (hr.after (showSvc_said x)).after (fireMsix_side _ _ _).said⟩
    rw [fireMsix_svcMode, hs (svcFree_of_said hr ha.svcHeld k)]

/-- A MODE record that the recorder cannot take goes to the record buffer. -/
theorem setMode_buffered {m : Mode} {s : State} (h : s.pwr.mode ≠ m) (hb : recBlocked (modPwr (fun p => { p with mode := m }) s) = true)
    (hn : s.aud.buf.length < 64) :
    ∃ r ∈ (setMode m s).aud.buf, r.code = 0x0011 ∧ leAt r.body 0 1 = modeCode s.pwr.mode ∧ leAt r.body 1 1 = modeCode m := by
  have hcode : ∀ x : Mode, modeCode x % 256 ^ 1 = modeCode x := by intro x; cases x <;> rfl
  have hlater := (showSvc_said (modeAudited m s)).after (fireMsix_side 0 5 _).said
  rw [setMode_ne h]
  refine ⟨_, hlater.1.subset (auditU_buffered hb hn), rfl, ?_, ?_⟩
  · rw [modeBody, List.append_assoc, List.append_assoc, leAt_head, hcode]
  · rw [modeBody, List.append_assoc, List.append_assoc, leAt_at _ _ 1 1 _ (length_leBytes 1 _), hcode]

/-! ### Tables built afresh (R471, R453) -/

section
variable {α : Type} [DecidableEq α] (d : α) (g : α → α)

/-- A table with every entry changed, in its order. -/
def tabMap (t : Tab α) : Tab α := t.foldl (fun u e => tset d u e.1 (g e.2)) []

theorem tget_foldl_tset_out {k : Nat} {t : Tab α} (h : ∀ e ∈ t, e.1 ≠ k) (u : Tab α) :
    tget d (t.foldl (fun u e => tset d u e.1 (g e.2)) u) k = tget d u k := by
  induction t generalizing u with
  | nil => rfl
  | cons e t ih =>
    rw [List.foldl_cons, ih (fun x hx => h x (List.mem_cons_of_mem _ hx)), tget_tset_ne _ _ _ (h e List.mem_cons_self).symm]

/-- In a table in canonical form every entry is found changed. -/
theorem tget_tabMap (hg : g d = d) {t : Tab α} (ht : twf d t = true) (k : Nat) : tget d (tabMap d g t) k = g (tget d t k) := by
  have hp := ((twf_iff d t).1 ht).1
  clear ht
  unfold tabMap
  generalize hu : ([] : Tab α) = u
  have hk : tget d u k = d := by rw [← hu]; rfl
  clear hu
  induction t generalizing u with
  | nil => rw [List.foldl_nil, hk]; exact hg.symm
  | cons e t ih =>
    obtain ⟨hlt, hp⟩ := List.pairwise_cons.1 hp
    rw [List.foldl_cons]
    by_cases he : e.1 = k
    · subst he
      rw [tget_foldl_tset_out d g (fun x hx => Nat.ne_of_gt (hlt x hx)), tget_tset_same]
      simp [tget]
    · rw [ih hp _ (by rw [tget_tset_ne _ _ _ (Ne.symm he), hk])]
      simp [tget, he]

/-- What every changed entry has, and the default, is had by what is found in any table changed so. -/
theorem tabMap_all {P : α → Prop} (hd : P d) (hg : ∀ x, P (g x)) (t : Tab α) (k : Nat) : P (tget d (tabMap d g t) k) := by
  unfold tabMap
  generalize hu : ([] : Tab α) = u
  have hk : P (tget d u k) := by rw [← hu]; exact hd
  clear hu
  induction t generalizing u with
  | nil => exact hk
  | cons e t ih =>
    refine ih _ ?_
    rw [tget_tset]
    split
    · exact hg _
    · exact hk

end

/-! ### MAIN_POWER_PRESENT (R451, R466, R471) -/

/-- The device at the start's beginning, but for its mode: the ledger's entries shifted, the monitors on the new clock. -/
def startReady (s : State) : State :=
  { s with
    pwr := { s.pwr with
      main := true, okSince := none, step := 1, held := false, formatted := false, retried := []
      startCount := (s.pwr.startCount + 1) % 2 ^ 32
      ledger := tabMap Ledger.blank (ledgerShift s.pwr.retest) s.pwr.ledger, retest := false, scrubAt := 0 }
    tmp := { s.tmp with mons := s.tmp.mons.map fun m => { monClock m with count := 0 } }
    mtr := { s.mtr with lastMinute := s.time.dev.map fun v => v / 60000000 }
    time := { s.time with refCount := 0, slowCount := 0 } }

theorem execMainPowerPresent_starts {s : State} {n : Nat} (hn : s.pwr.okSince = some n) (hm : s.pwr.main = false) (hs : s.pwr.supplies = true)
    (hp : s.pwr.pwrfail = none) (ht : n + 33 ≤ s.time.slowCount) : exec .mainPowerPresent s = .next (setMode .start (startReady s)) := by
  show execMainPowerPresent s = _
  simp only [execMainPowerPresent, hn]
  rw [if_neg (by simp [hm, hs, hp]; omega)]
  rfl

theorem execMainPowerPresent_stays {s : State} (h : s.pwr.okSince = none ∨ s.pwr.main = true ∨ s.pwr.supplies = false ∨ s.pwr.pwrfail ≠ none ∨
    ∃ n, s.pwr.okSince = some n ∧ s.time.slowCount < n + 33) : exec .mainPowerPresent s = .next s := by
  show execMainPowerPresent s = _
  unfold execMainPowerPresent
  split
  · rfl
  · next n hn =>
    rw [if_pos]
    rcases h with h | h | h | h | ⟨k, hk, h⟩
    · rw [hn] at h; cases h
    · exact .inl h
    · exact .inr (.inl (by rw [h]; rfl))
    · exact .inr (.inr (.inl (Option.isSome_iff_ne_none.2 h)))
    · rw [hn] at hk; cases hk; exact .inr (.inr (.inr h))

/-- No step has an outcome in the ledger of the new start, so no record finds its way to MRAM yet (R391). -/
theorem startReady_blocked (s : State) : recBlocked (modPwr (fun p => { p with mode := .start }) (startReady s)) = true := by
  have hl : (tget ⟨0, 0, 0⟩ (tabMap Ledger.blank (ledgerShift s.pwr.retest) s.pwr.ledger) (256 * 6)).last = 0 :=
    tabMap_all Ledger.blank (ledgerShift s.pwr.retest) (P := fun e => e.last = 0) rfl (fun _ => rfl) _ _
  have hr : logReady (modPwr (fun p => { p with mode := .start }) (startReady s)) = false := by
    simp [logReady, startReady, hl]
  simp [recBlocked, hr]

theorem ledgerShift_eq (r : Bool) (e : Ledger) :
    let prev := if e.last = 4 ∧ (e.prev = 2 ∨ e.prev = 3) then e.prev else e.last
    ledgerShift r e = ⟨0, if r = true ∧ (prev = 2 ∨ prev = 3) then 0 else prev, e.fails⟩ := by
  simp only [ledgerShift, failOrAlt, Bool.or_eq_true, decide_eq_true_eq]

theorem startReady_boot {s : State} (h : bootWhole s) (step unit : Nat) :
    bootOf (startReady s) step unit = ledgerShift s.pwr.retest (bootOf s step unit) :=
  tget_tabMap Ledger.blank _ (by cases s.pwr.retest <;> rfl) h _

theorem mainPowerPresent_frame {s t : State} (h : modeFrame .start (startReady s) t) : t = { s with
    pwr := { s.pwr with
      mode := .start, main := true, okSince := none, step := 1, held := false, formatted := false, retried := [], retest := false, scrubAt := 0
      startCount := (s.pwr.startCount + 1) % 2 ^ 32, ledger := t.pwr.ledger }
    time := { s.time with refCount := 0, slowCount := 0 }
    mtr := { s.mtr with lastMinute := s.time.dev.map fun v => v / 60000000 }
    hif := { s.hif with svcMode := t.hif.svcMode, svcLatches := t.hif.svcLatches, fns := t.hif.fns }
    tmp := t.tmp, aud := t.aud, par := t.par, i3c := t.i3c, out := t.out } := by
  rw [h]
  rfl

theorem modeFrame.boot {m : Mode} {s t : State} (h : modeFrame m s t) (step unit : Nat) : bootOf t step unit = bootOf s step unit := by
  rw [bootOf, h]
  rfl

theorem execMainPowerPresent_ends {s : State} {n : Nat} (hn : s.pwr.okSince = some n) (hm : s.pwr.main = false) (hs : s.pwr.supplies = true)
    (hp : s.pwr.pwrfail = none) (ht : n + 33 ≤ s.time.slowCount) :
    ∃ t, exec .mainPowerPresent s = .next t ∧ t = { s with
         pwr := { s.pwr with
           mode := .start, main := true, okSince := none, step := 1, held := false, formatted := false, retried := [], retest := false, scrubAt := 0
           startCount := (s.pwr.startCount + 1) % 2 ^ 32, ledger := t.pwr.ledger }
         time := { s.time with refCount := 0, slowCount := 0 }
         mtr := { s.mtr with lastMinute := s.time.dev.map fun v => v / 60000000 }
         hif := { s.hif with svcMode := t.hif.svcMode, svcLatches := t.hif.svcLatches, fns := t.hif.fns }
         tmp := t.tmp, aud := t.aud, par := t.par, i3c := t.i3c, out := t.out } ∧
       t.tmp.mons = s.tmp.mons.map (fun m => { monClock m with count := 0 }) ∧
       (s.par.l0.take = .none → s.par.l1.take = .none → s.hif.svcHeld = false → t.hif.svcMode = .start) ∧
       (s.aud.buf.length < 60 → t.tmp = { s.tmp with mons := t.tmp.mons } ∧
         (s.pwr.mode ≠ .start → ∃ r ∈ t.aud.buf, r.code = 0x0011 ∧ leAt r.body 0 1 = modeCode s.pwr.mode ∧ leAt r.body 1 1 = 1)) ∧
       (bootWhole s → ∀ step unit, let e := bootOf s step unit
         let prev := if e.last = 4 ∧ (e.prev = 2 ∨ e.prev = 3) then e.prev else e.last
         bootOf t step unit = ⟨0, if s.pwr.retest = true ∧ (prev = 2 ∨ prev = 3) then 0 else prev, e.fails⟩) := by
  obtain ⟨hf, hsvc, -, hmons, -, htmp⟩ := setMode_changes .start (startReady s)
  refine ⟨_, execMainPowerPresent_starts hn hm hs hp ht, mainPowerPresent_frame hf, hmons, fun h0 h1 h2 => hsvc ⟨h0, h1, h2⟩, fun hb => ⟨?_, fun hne => ?_⟩,
    fun hw step unit => ?_⟩
  · rw [(htmp (show s.aud.buf.length + 3 ≤ 64 by omega)).1]
    rfl
  · exact setMode_buffered (s := startReady s) hne (startReady_blocked s) (show s.aud.buf.length < 64 by omega)
  · rw [hf.boot, startReady_boot hw, ledgerShift_eq]

/-! ### Records on their way at a loss of power (R387, R391, R454) -/

/-- Only the record buffer with its overflow count, the wish for an anchor and the tamper block may differ. -/
def keepFrame (s t : State) : Prop :=
  t = { s with aud := { s.aud with buf := t.aud.buf, ovf := t.aud.ovf, anchorDue := t.aud.anchorDue }, tmp := t.tmp }

theorem keepFrame.trans {s t u : State} (h : keepFrame s t) (k : keepFrame t u) : keepFrame s u := by
  unfold keepFrame
  rw [k, h]

theorem heldKeep_frame (s : State) (h : HeldRec) : keepFrame s (heldKeep s h) := by
  simp only [heldKeep, bufPush]
  split
  · rfl
  · split <;> rfl

theorem heldKeep_anchor {s : State} {h : HeldRec} (ha : leAt h.bytes 4 2 = 2) :
    (heldKeep s h).tmp = s.tmp ∧ (heldKeep s h).aud.buf = s.aud.buf := by
  simp only [heldKeep, if_pos ha]
  exact ⟨rfl, rfl⟩

theorem heldKeep_room {s : State} {h : HeldRec} (ha : leAt h.bytes 4 2 ≠ 2) (hn : s.aud.buf.length < 64) :
    (heldKeep s h).tmp = s.tmp ∧ (heldKeep s h).aud.buf = s.aud.buf ++ bufKept s [h] ∧ (heldKeep s h).aud.ovf = s.aud.ovf := by
  simp only [heldKeep, bufPush, if_neg ha, if_pos hn]
  exact ⟨rfl, rfl, rfl⟩

theorem keepFrame.bufKept {s t : State} (h : keepFrame s t) (l : List HeldRec) : bufKept t l = bufKept s l := by
  unfold Machine.bufKept
  rw [h]

theorem heldKeep_foldl_frame (l : List HeldRec) (s : State) : keepFrame s (l.foldl heldKeep s) := by
  induction l generalizing s with
  | nil => rfl
  | cons h l ih => exact (heldKeep_frame s h).trans (ih _)

theorem heldKeep_foldl_tmp {l : List HeldRec} {s : State} (hn : s.aud.buf.length + l.length ≤ 64) : (l.foldl heldKeep s).tmp = s.tmp := by
  induction l generalizing s with
  | nil => rfl
  | cons h l ih =>
    rw [List.length_cons] at hn
    rw [List.foldl_cons]
    by_cases ha : leAt h.bytes 4 2 = 2
    · obtain ⟨ht, hb⟩ := heldKeep_anchor (s := s) ha
      rw [ih (by rw [hb]; omega), ht]
    · obtain ⟨ht, hb, -⟩ := heldKeep_room ha (s := s) (by omega)
      rw [ih (by rw [hb, List.length_append]; simp only [bufKept, List.map_cons, List.map_nil, List.length_singleton]; omega), ht]

theorem heldKeep_foldl_buf {l : List HeldRec} {s : State} (hn : s.aud.buf.length + l.length ≤ 64) (ha : ∀ h ∈ l, leAt h.bytes 4 2 ≠ 2) :
    (l.foldl heldKeep s).aud.buf = s.aud.buf ++ bufKept s l ∧ (l.foldl heldKeep s).aud.ovf = s.aud.ovf := by
  induction l generalizing s with
  | nil => exact ⟨(List.append_nil _).symm, rfl⟩
  | cons h l ih =>
    rw [List.length_cons] at hn
    obtain ⟨-, hb, ho⟩ := heldKeep_room (s := s) (ha h List.mem_cons_self) (by omega)
    have hlen : (heldKeep s h).aud.buf.length + l.length ≤ 64 := by
      rw [hb, List.length_append]
      simp only [bufKept, List.map_cons, List.map_nil, List.length_singleton]
      omega
    obtain ⟨hb', ho'⟩ := ih hlen (fun x hx => ha x (List.mem_cons_of_mem _ hx))
    rw [List.foldl_cons, hb', ho', hb, ho, (heldKeep_frame s h).bufKept, List.append_assoc]
    exact ⟨rfl, rfl⟩

/-- The move of the records touches the recorder, but for its MRAM and what is proved of it, and with a full buffer the lock words. -/
theorem heldMove_frame (s : State) : heldMove s = { s with
    aud := { s.aud with
      buf := (heldMove s).aud.buf, ovf := (heldMove s).aud.ovf, anchorDue := (heldMove s).aud.anchorDue, held := [], staging := []
      next := (heldMove s).aud.next, chain := (heldMove s).aud.chain }
    tmp := (heldMove s).tmp } := by
  unfold heldMove
  split
  · next h =>
    obtain ⟨hh, hs⟩ := List.append_eq_nil_iff.1 h
    cases s with | mk _ _ aud => cases aud; simp_all
  · next h l _ =>
    have hk := heldKeep_foldl_frame (h :: l) s
    generalize (h :: l).foldl heldKeep s = t at hk ⊢
    rw [hk]
    rfl

theorem heldMove_moved (s : State) : recordsMoved s (heldMove s) := by
  refine ⟨by rw [heldMove_frame], by rw [heldMove_frame], fun hn ha => ?_⟩
  unfold heldMove
  split
  · next h => rw [h]; exact ⟨(List.append_nil _).symm, rfl, rfl⟩
  · next h l e =>
    rw [e] at hn ha ⊢
    obtain ⟨hb, ho⟩ := heldKeep_foldl_buf hn ha
    exact ⟨hb, rfl, ho⟩

theorem heldMove_tmp {s : State} (hn : s.aud.buf.length + (s.aud.held ++ s.aud.staging).length ≤ 64) : (heldMove s).tmp = s.tmp := by
  unfold heldMove
  split
  · rfl
  · next h l e =>
    rw [e] at hn
    exact heldKeep_foldl_tmp hn

/-- What the move of the records says is kept when the recorder's parts it speaks of are. -/
theorem recordsMoved_congr {s t s' t' : State} (h : recordsMoved s t) (hs : s'.aud = s.aud) (hm : s'.time = s.time)
    (hh : t'.aud.held = []) (hg : t'.aud.staging = []) (hb : t'.aud.buf = t.aud.buf) (hn : t'.aud.next = t.aud.next)
    (ho : t'.aud.ovf = t.aud.ovf) : recordsMoved s' t' := by
  obtain ⟨-, -, h3⟩ := h
  have hk : ∀ l, bufKept s' l = bufKept s l := fun l => by rw [bufKept, hm, bufKept]
  refine ⟨hh, hg, ?_⟩
  simp only [hs, hb, hn, ho, hk]
  exact h3

/-! ### Releases leave the power block as it is (R57, R247, R441) -/

theorem sideFrame.pwr {s t : State} (h : sideFrame s t) : t.pwr = s.pwr := by rw [h.1]

theorem pwr_snd {α : Type} {r : α × State} {a : α} {t : State} (h : r = (a, t)) : t.pwr = r.2.pwr := by rw [h]

@[simp] theorem modFn_pwr (f : Nat) (g : Fn → Fn) (s : State) : (modFn f g s).pwr = s.pwr := rfl
@[simp] theorem modRing_pwr (f n : Nat) (g : Ring → Ring) (s : State) : (modRing f n g s).pwr = s.pwr := rfl
@[simp] theorem modTok_pwr (i : Nat) (g : Token → Token) (s : State) : (modTok i g s).pwr = s.pwr := rfl
@[simp] theorem modFlow_pwr (f flow : Nat) (g : Flow → Flow) (s : State) : (modFlow f flow g s).pwr = s.pwr := rfl
@[simp] theorem freeToken_pwr (i : Nat) (s : State) : (freeToken i s).pwr = s.pwr := rfl
@[simp] theorem fireMsix_pwr (f v : Nat) (s : State) : (fireMsix f v s).pwr = s.pwr := (fireMsix_side f v s).pwr
@[simp] theorem countFn_pwr (num f : Nat) (s : State) : (countFn num f s).pwr = s.pwr := (countFn_side num f s).pwr
@[simp] theorem mirrorSend_pwr (ty l : Nat) (b : Bytes) (s : State) : (mirrorSend ty l b s).pwr = s.pwr := by rw [mirrorSend_par]
@[simp] theorem hostWrite_pwr (m f a : Nat) (d : Bytes) (r : Bool) (s : State) : (hostWrite m f a d r s).2.pwr = s.pwr :=
  (hostWrite_bus m f a d r s).pwr

@[simp] theorem meterAdd_pwr (f c n : Nat) (s : State) : (meterAdd f c n s).pwr = s.pwr := by
  unfold meterAdd
  split <;> rfl

@[simp] theorem ringIrq_pwr (f n : Nat) (s : State) : (ringIrq f n s).pwr = s.pwr := by
  simp only [ringIrq, ringFire]
  split <;> simp

@[simp] theorem ringSettle_pwr (f n : Nat) (s : State) : (ringSettle f n s).pwr = s.pwr := rfl

@[simp] theorem relIssue_pwr (r : Rel) (s : State) : (relIssue r s).2.pwr = s.pwr := by
  simp only [relIssue]
  split <;> rename_i h
  · rw [pwr_snd h, hostWrite_pwr]
  · have hp := (pwr_snd h).trans (hostWrite_pwr _ _ _ _ _ _)
    cases r.wait <;> cases r.token <;> simp only [ringSettle_pwr, apply_ite State.pwr, ringIrq_pwr, modFn_pwr, freeToken_pwr, countFn_pwr,
      meterAdd_pwr, modPar_pwr, modRing_pwr, hp, ite_self]

@[simp] theorem relWalk_pwr (rs kept : List Rel) (s : State) : (relWalk rs kept s).2.pwr = s.pwr := by
  induction rs generalizing kept s with
  | nil => rfl
  | cons r rs ih =>
    unfold relWalk
    split
    · split <;> rename_i h <;> rw [ih, pwr_snd h, relIssue_pwr]
    · exact ih _ _

@[simp] theorem drainRel_pwr (s : State) : (drainRel s).pwr = s.pwr := relWalk_pwr _ _ _

@[simp] theorem releaseToken_pwr (i : Nat) (s : State) : (releaseToken i s).pwr = s.pwr := by
  simp only [releaseToken, release, drainRel_pwr, modHif_pwr]
  split <;> simp

@[simp] theorem turnToken_pwr (i : Nat) (s : State) : (turnToken i s).2.pwr = s.pwr := by
  simp only [turnToken]
  split <;> simp

@[simp] theorem flowRun_pwr (f flow : Nat) (s : State) : (flowRun f flow s).pwr = s.pwr := by
  unfold flowRun
  generalize flowHeld s f flow = n
  induction n generalizing s with
  | zero => rfl
  | succ n ih =>
    unfold flowAdvance
    split
    · rfl
    · split <;> rename_i h
      · rw [pwr_snd h, turnToken_pwr]
      · rw [ih, modFlow_pwr, pwr_snd h, turnToken_pwr]

@[simp] theorem mirrorRelease_pwr (l : List Nat) (s : State) : (mirrorRelease l s).pwr = s.pwr := by
  induction l generalizing s with
  | nil => rfl
  | cons i l ih =>
    simp only [mirrorRelease]
    split
    · rw [ih]
      split <;> simp
    · exact ih s

@[simp] theorem mirrorSettle_pwr (s : State) : (mirrorSettle s).pwr = s.pwr := by simp [mirrorSettle]

/-- With no token in MIRROR and no completion to be written nothing is released. -/
theorem mirrorSettle_still {s : State} (ht : ∀ it ∈ s.slm.toks, it.2.st ≠ .mirror) (hr : s.hif.relq = []) : mirrorSettle s = s := by
  have hf : s.slm.toks.filter (fun it => decide (it.2.st = .mirror)) = [] := List.filter_eq_nil_iff.2 fun it h => by simpa using ht it h
  have hd : drainRel s = modHif (fun h => { h with relq := [] }) s := by rw [drainRel, hr]; rfl
  rw [mirrorSettle, hf, List.map_nil, mirrorRelease, hd]
  cases s with | mk hif => cases hif; cases hr; rfl

/-! ### PWRFAIL_ASSERT (R391, R454, R516) -/

/-- PWRFAIL_N asserted, the records moved. -/
def failMoved (s : State) : State := heldMove (modPwr (fun p => { p with pwrfail := some s.time.refCount }) s)

theorem execPwrfailAssert_main {s : State} (h : s.pwr.main = true) :
    exec .pwrfailAssert s = .next (modTmp (fun t => { t with lowRearmed := false }) (mirrorSettle (failMoved s))) := by
  show execPwrfailAssert s = _
  rw [execPwrfailAssert, if_pos h]
  rfl

theorem failMoved_pwr (s : State) : (failMoved s).pwr = { s.pwr with pwrfail := some s.time.refCount } := by
  rw [failMoved, heldMove_frame]
  rfl

theorem execPwrfailAssert_ends {s : State} (h : s.pwr.main = true) : ∃ t, exec .pwrfailAssert s = .next t ∧ t.pwr.pwrfail = some s.time.refCount ∧
    t.pwr.mode = s.pwr.mode ∧ t.pwr.main = true ∧ t.tmp.lowRearmed = false ∧
    ((∀ it ∈ s.slm.toks, it.2.st ≠ .mirror) → s.hif.relq = [] → recordsMoved s t ∧ t = { s with
      pwr := { s.pwr with pwrfail := some s.time.refCount }
      tmp := t.tmp
      aud := t.aud }) := by
  have hp : (mirrorSettle (failMoved s)).pwr = { s.pwr with pwrfail := some s.time.refCount } := by rw [mirrorSettle_pwr, failMoved_pwr]
  refine ⟨_, execPwrfailAssert_main h, by rw [modTmp_pwr, hp], by rw [modTmp_pwr, hp], by rw [modTmp_pwr, hp]; exact h, rfl, fun ht hr => ?_⟩
  have hm := heldMove_frame (modPwr (fun p => { p with pwrfail := some s.time.refCount }) s)
  have hk : mirrorSettle (failMoved s) = failMoved s :=
    mirrorSettle_still (by rw [failMoved, hm]; exact ht) (by rw [failMoved, hm]; exact hr)
  have hv := heldMove_moved (modPwr (fun p => { p with pwrfail := some s.time.refCount }) s)
  rw [hk]
  refine ⟨recordsMoved_congr hv rfl rfl hv.1 hv.2.1 rfl rfl rfl, ?_⟩
  rw [failMoved]
  generalize heldMove (modPwr (fun p => { p with pwrfail := some s.time.refCount }) s) = t at hm ⊢
  rw [hm]
  rfl

/-! ### MAIN_POWER_LOST (R11, R453-R455) -/

/-- The device as the service die stops: additions of the meters applied, debug grants closed, records moved. -/
def lastWords (s : State) : State := heldMove (grantClose 3 3 (metersFlush s))

/-- The power that stays: the backup node, or nothing. -/
def backedUp (b k l : Bool) (s : State) : State :=
  if b then modPwr (fun p => { p with backup := true }) s
  else modTime (fun t => { t with dev := none, frac := 0 })
    (modPwr (fun p => { p with backup := false, secretOk := p.secretOk && k, ledgerOk := p.ledgerOk && l }) s)

theorem execMainPowerLost_main {s : State} (b k l : Bool) (h : s.pwr.main = true) :
    exec (.mainPowerLost b k l) s = .next (backedUp b k l (serviceLost (lastWords s))) := by
  show execMainPowerLost b k l s = _
  rw [execMainPowerLost, if_neg (by simp [h])]
  rfl

theorem execMainPowerLost_off {s : State} (b k l : Bool) (h : s.pwr.main = false) : exec (.mainPowerLost b k l) s = .next s := by
  show execMainPowerLost b k l s = _
  rw [execMainPowerLost, if_pos (by simp [h])]

theorem metersFlush_none {s : State} (h : s.mtr.adds = []) : metersFlush s = s := by
  unfold metersFlush
  cases s with | mk _ _ _ mtr => cases mtr; cases h; rfl

/-- The closing of every debug grant takes the grants, and reports it. -/
theorem grantClose_all (c : Nat) (s : State) :
    reportFrame (modLcy (fun l => { l with intGrant := none, scanGrant := none }) s) (grantClose 3 c s) ∧
    saidFrame 6 s (grantClose 3 c s) := by
  have h3 : (3 : Nat).testBit 0 = true ∧ (3 : Nat).testBit 1 = true := by decide
  simp only [grantClose, h3, if_true]
  have hstart : saidFrame 0 s (modLcy (fun l => { l with intGrant := none, scanGrant := none }) s) := saidFrame_of_eq 0 rfl rfl rfl
  cases s.lcy.intGrant <;> cases s.lcy.scanGrant
  · exact ⟨.refl _, hstart.mono (by decide)⟩
  · exact ⟨auditU_report _ _ _ _ _, (hstart.before (auditU_said _ _ _ _ _)).mono (by decide)⟩
  · exact ⟨auditU_report _ _ _ _ _, (hstart.before (auditU_said _ _ _ _ _)).mono (by decide)⟩
  · exact ⟨(auditU_report _ _ _ _ _).trans (auditU_report _ _ _ _ _), hstart.before ((auditU_said _ _ _ _ _).trans (auditU_said _ _ _ _ _))⟩

theorem grantClose_none {c : Nat} {s : State} (hi : s.lcy.intGrant = none) (hs : s.lcy.scanGrant = none) :
    grantClose 3 c s = modLcy (fun l => { l with intGrant := none, scanGrant := none }) s := by
  have h3 : (3 : Nat).testBit 0 = true ∧ (3 : Nat).testBit 1 = true := by decide
  simp only [grantClose, h3, hi, hs, if_true]

/-- What the last words leave of the blocks that the loss of power keeps something of. -/
theorem lastWords_keeps (s : State) :
    let x := lastWords s
    x.pwr = s.pwr ∧ x.time = s.time ∧ x.kst = s.kst ∧ x.dbg = s.dbg ∧ x.mtr = (metersFlush s).mtr ∧
    x.lcy = { s.lcy with intGrant := none, scanGrant := none } ∧
    (x.par.bound = s.par.bound ∧ x.par.partnerId = s.par.partnerId ∧ x.par.partnerPk = s.par.partnerPk ∧ x.par.addr = s.par.addr ∧
      x.par.bindHome = s.par.bindHome ∧ x.par.home = s.par.home) := by
  obtain ⟨⟨hr, -⟩, -, -, hp, -⟩ := grantClose_all 3 (metersFlush s)
  have hm := heldMove_frame (grantClose 3 3 (metersFlush s))
  intro x
  have hx : x = heldMove (grantClose 3 3 (metersFlush s)) := rfl
  clear_value x
  generalize grantClose 3 3 (metersFlush s) = y at *
  rw [← hx] at hm
  have hpar : x.par = y.par := by rw [hm]
  rw [hpar, hp]
  refine ⟨?_, ?_, ?_, ?_, ?_, ?_, rfl, rfl, rfl, rfl, rfl, rfl⟩ <;> rw [hm, hr] <;> rfl

/-- The records of a device without a debug grant, moved; MRAM and what is proved of it stay. -/
theorem lastWords_moves {s : State} (hi : s.lcy.intGrant = none) (hs : s.lcy.scanGrant = none) :
    let x := lastWords s
    recordsMoved s x ∧ x.aud.mram = s.aud.mram ∧ x.aud.head = s.aud.head ∧ x.aud.present = s.aud.present ∧
      (s.aud.buf.length + (s.aud.held ++ s.aud.staging).length ≤ 64 → x.tmp = s.tmp) := by
  intro x
  have hx : x = heldMove (modLcy (fun l => { l with intGrant := none, scanGrant := none }) (metersFlush s)) :=
    congrArg heldMove (grantClose_none (s := metersFlush s) hi hs)
  have hv := heldMove_moved (modLcy (fun l => { l with intGrant := none, scanGrant := none }) (metersFlush s))
  have hm := heldMove_frame (modLcy (fun l => { l with intGrant := none, scanGrant := none }) (metersFlush s))
  have ht := heldMove_tmp (s := modLcy (fun l => { l with intGrant := none, scanGrant := none }) (metersFlush s))
  rw [← hx] at hv hm ht
  refine ⟨recordsMoved_congr hv rfl rfl hv.1 hv.2.1 rfl rfl rfl, ?_, ?_, ?_, fun hn => ht hn⟩ <;> rw [hm] <;> rfl

theorem lmkKept_blank : lmkKept Lmk.blank = Lmk.blank := rfl

/-- What the loss keeps of the LMK slots: that they are occupied, and their versions. -/
theorem lmkKept_slots {t : Tab Lmk} (ht : twf Lmk.blank t = true) (f : Nat) :
    let m := tabMap Lmk.blank lmkKept t
    (tget Lmk.blank m f).s0.key = none ∧ (tget Lmk.blank m f).s1.key = none ∧
    (tget Lmk.blank m f).s0.occ = (tget Lmk.blank t f).s0.occ ∧ (tget Lmk.blank m f).s1.occ = (tget Lmk.blank t f).s1.occ ∧
    (tget Lmk.blank m f).s0.version = (tget Lmk.blank t f).s0.version ∧ (tget Lmk.blank m f).s1.version = (tget Lmk.blank t f).s1.version := by
  simp only [tget_tabMap Lmk.blank lmkKept lmkKept_blank ht]
  exact ⟨rfl, rfl, rfl, rfl, rfl, rfl⟩

/-- What the loss of main power leaves of the recorder and the lock words, whatever the backup. -/
theorem backedUp_lost (b k l : Bool) (x : State) :
    let t := backedUp b k l (serviceLost x)
    t.aud = (serviceLost x).aud ∧ t.tmp = (serviceLost x).tmp ∧ t.mtr = (serviceLost x).mtr ∧ t.kst = (serviceLost x).kst ∧
      t.lcy = (serviceLost x).lcy ∧ t.par = (serviceLost x).par ∧ t.dbg = (serviceLost x).dbg ∧
      (t.hif = Hif.start ∧ t.slm = Slm.start ∧ t.mov = Mov.start ∧ t.ent = Ent.start ∧ t.i3c = I3c.start ∧ t.cpu = Cpu.start ∧
        t.lanes = Lanes.start ∧ t.phl = Phl.start ∧ t.cnt = Cnt.start) := by
  cases b <;> exact ⟨rfl, rfl, rfl, rfl, rfl, rfl, rfl, rfl, rfl, rfl, rfl, rfl, rfl, rfl, rfl, rfl⟩

theorem backedUp_pwr {s x : State} (b k l : Bool) (h : x.pwr = s.pwr) :
    (backedUp b k l (serviceLost x)).pwr = { Pwr.new with
      mode := .guard, main := false, supplies := false, pwrfail := s.pwr.pwrfail.map (fun _ => 0), backup := b
      secretOk := s.pwr.secretOk && (b || k), ledgerOk := s.pwr.ledgerOk && (b || l), keepBad := s.pwr.keepBad
      startCount := s.pwr.startCount, ledger := s.pwr.ledger, retest := s.pwr.retest, slotA := s.pwr.slotA, slotB := s.pwr.slotB } := by
  cases b <;> simp [backedUp, serviceLost, h]

theorem backedUp_time {s x : State} (b k l : Bool) (h : x.time = s.time) : (backedUp b k l (serviceLost x)).time =
    if b then { TimeSt.start with dev := s.time.dev, frac := s.time.frac } else { TimeSt.start with dev := none, frac := 0 } := by
  cases b <;> simp [backedUp, serviceLost, h]

theorem execMainPowerLost_ends {s : State} (b k l : Bool) (h : s.pwr.main = true) : ∃ t, exec (.mainPowerLost b k l) s = .next t ∧
       t.hif = Hif.start ∧ t.slm = Slm.start ∧ t.mov = Mov.start ∧ t.ent = Ent.start ∧ t.i3c = I3c.start ∧ t.cpu = Cpu.start ∧
       t.lanes = Lanes.start ∧ t.phl = Phl.start ∧ t.cnt = Cnt.start ∧ t.dbg = { Dbg.start with failedWords := s.dbg.failedWords } ∧
       t.pwr = { Pwr.new with
         mode := .guard, main := false, supplies := false, pwrfail := s.pwr.pwrfail.map (fun _ => 0), backup := b
         secretOk := s.pwr.secretOk && (b || k), ledgerOk := s.pwr.ledgerOk && (b || l), keepBad := s.pwr.keepBad
         startCount := s.pwr.startCount, ledger := s.pwr.ledger, retest := s.pwr.retest, slotA := s.pwr.slotA, slotB := s.pwr.slotB } ∧
       t.time = (if b then { TimeSt.start with dev := s.time.dev, frac := s.time.frac } else { TimeSt.start with dev := none, frac := 0 }) ∧
       t.lcy = { s.lcy with
         chals := Lcy.new.chals, chalSlot := 0, reqPtr := 0, reqResult := 0, holdEnd := none, intGrant := none, scanGrant := none, rejoin := none
         package := none } ∧
       (∃ m, t.kst = { Kst.new with lmks := m, sens := s.kst.sens, ledger := s.kst.ledger } ∧ (twf Lmk.blank s.kst.lmks = true → ∀ f,
         (tget Lmk.blank m f).s0.key = none ∧ (tget Lmk.blank m f).s1.key = none ∧
         (tget Lmk.blank m f).s0.occ = (tget Lmk.blank s.kst.lmks f).s0.occ ∧ (tget Lmk.blank m f).s1.occ = (tget Lmk.blank s.kst.lmks f).s1.occ ∧
         (tget Lmk.blank m f).s0.version = (tget Lmk.blank s.kst.lmks f).s0.version ∧
         (tget Lmk.blank m f).s1.version = (tget Lmk.blank s.kst.lmks f).s1.version)) ∧
       t.par = { Par.start with
         bound := s.par.bound, partnerId := s.par.partnerId, partnerPk := s.par.partnerPk, addr := s.par.addr, bindHome := s.par.bindHome
         home := s.par.home } ∧
       (s.mtr.adds = [] → t.mtr.total = s.mtr.total ∧ t.mtr.rcpt = s.mtr.rcpt ∧ t.mtr.final = s.mtr.final ∧ t.mtr.adds = []) ∧
       (s.lcy.intGrant = none → s.lcy.scanGrant = none → recordsMoved s t ∧ t.aud.mram = s.aud.mram ∧ t.aud.head = s.aud.head ∧
         t.aud.present = s.aud.present ∧
         (s.aud.buf.length + (s.aud.held ++ s.aud.staging).length ≤ 64 → t.tmp.lock = s.tmp.lock ∧ t.tmp.lockSeq = s.tmp.lockSeq ∧
           t.tmp.erased = s.tmp.erased ∧ t.tmp.cause = s.tmp.cause)) := by
  obtain ⟨hpwr, htime, hkst, hdbg, hmtr, hlcy, hb, hid, hpk, ha, hbh, hh⟩ := lastWords_keeps s
  refine ⟨_, execMainPowerLost_main b k l h, ?_⟩
  obtain ⟨raud, rtmp, rmtr, rkst, rlcy, rpar, rdbg, h1, h2, h3, h4, h5, h6, h7, h8, h9⟩ := backedUp_lost b k l (lastWords s)
  refine ⟨h1, h2, h3, h4, h5, h6, h7, h8, h9, ?_, backedUp_pwr b k l hpwr, backedUp_time b k l htime, ?_,
    ⟨tabMap Lmk.blank lmkKept s.kst.lmks, ?_, lmkKept_slots⟩, ?_, fun hadds => ?_, fun hi hs => ?_⟩
  · rw [rdbg, serviceLost, hdbg]
  · rw [rlcy, serviceLost, hlcy]
  · rw [rkst, serviceLost, hkst]
    rfl
  · rw [rpar, serviceLost, hb, hid, hpk, ha, hbh, hh]
  · rw [metersFlush_none hadds] at hmtr
    rw [rmtr, serviceLost, hmtr]
    exact ⟨rfl, rfl, rfl, hadds⟩
  · obtain ⟨hv, hmram, hhead, hpres, htmp⟩ := lastWords_moves hi hs
    rw [raud, rtmp]
    exact ⟨recordsMoved_congr hv rfl rfl (by rw [raud]; rfl) (by rw [raud]; rfl) (by rw [raud]; rfl) (by rw [raud]; rfl) (by rw [raud]; rfl),
      hmram, hhead, hpres, fun hn => by rw [serviceLost, htmp hn]; exact ⟨rfl, rfl, rfl, rfl⟩⟩

/-- Settles O52: each command of the power block, the boot flash and GPIO3 in its cases; records that MAIN_POWER_PRESENT cannot write wait in the
record buffer, since no step of the new start has an outcome. -/
theorem powerFlashGpio : Obligations.PowerFlashGpio := by
  refine ⟨⟨fun s => ⟨fun _ => execMainPowerPresent_ends, execMainPowerPresent_stays⟩,
    fun s b k l => ⟨execMainPowerLost_off b k l, execMainPowerLost_ends b k l⟩,
    fun s => ⟨execGuardDiePowerUp_on, execGuardDiePowerUp_arms⟩,
    fun s => ⟨execPwrfailDeassert_main, execPwrfailDeassert_off, execPwrfailAssert_off, execPwrfailAssert_ends⟩⟩,
    fun s slot => execFlashGo_ends slot,
    fun s slot v h => ⟨execFlashGo_closed slot h, execGpioCtlWrite_closed v h⟩,
    fun s data fail err => execFlashWriteComplete_idle data fail err,
    fun s u data err => execFlashWriteComplete_ends,
    fun s v => execGpioCtlWrite_ends v,
    fun s => gpio3_off,
    fun s => ⟨execPpsPulse_off, fun d => execPpsPulse_at⟩⟩

end Sys2Proof.Machine
end

section
/-!
PROOFS. O59: the pools and the byte memories of a device at reset.
-/

namespace Sys2Proof.Machine

/-- At reset the PF holds its minimum share and the rest of each pool is free (R38). -/
theorem poolsWhole_reset : poolsWhole State.reset := ⟨rfl, rfl, rfl, rfl, rfl⟩

/-- At reset no memory lists a byte. -/
theorem memoriesWhole_reset : memoriesWhole State.reset := by
  refine ⟨rfl, rfl, fun e he => ?_⟩
  exact absurd he (List.not_mem_nil)

/-- Settles O59: each pool's sum is a closed number, and the tables of bytes and cores are empty. -/
theorem resetMeetsInvariants : Obligations.ResetMeetsInvariants := ⟨poolsWhole_reset, memoriesWhole_reset⟩

end Sys2Proof.Machine
end
section
/-!
PROOFS. O51 fails: as for O48, nothing in it keeps the pair key at its length, and the RELEASE message under a shorter one is no 66 bytes.
-/

namespace Sys2Proof.Machine

/-- A device that hands its home latch over, its DRAIN time passed, under a pair key of one byte. -/
def shortRelease : State :=
  { shortKey with par := { shortKey.par with
    l0 := { shortKey.par.l0 with holder := true }, handover := some ⟨1, 0, none⟩, drain := 0, txNext := 1 } }

/-- What the expiry of DRAIN says: one message of 63 bytes. -/
theorem shortRelease_says {t : State} (h : exec .handoverDrainExpiry shortRelease = .next t) : knockLengths t.out = [63] := by
  cases h
  decide +kernel

/-- Refutes O51: its clause on HANDOVER_DRAIN_EXPIRY has RELEASE go out in a message of 66 bytes for a pair key of any length: under one of a single
byte the model's tag has 13 bytes, and the message 63 (R429, R446). -/
theorem not_handoverAndPairKey : ¬ Obligations.HandoverAndPairKey := by
  intro h
  obtain ⟨-, hend, -⟩ := h
  obtain ⟨-, hdrain, -⟩ := hend shortRelease ⟨1, 0, none⟩ rfl
  obtain ⟨t, ht, -, hs, -⟩ := hdrain 0 (by decide) rfl rfl rfl (by decide) (by decide)
  obtain ⟨m, ⟨l, hout, hm⟩, hlen, -⟩ := hs
  have hk := mem_knockLengths (l := t.out) (m := m) (by rw [hout]; exact List.mem_append_right _ hm)
  rw [shortRelease_says ht, hlen] at hk
  exact absurd hk (by decide)

end Sys2Proof.Machine
end

section
/-!
PROOFS. O2: the doorbells of a ring pair, and its enable and disable.
-/

namespace Sys2Proof.Machine

/-! ### One ring pair -/

/-- `ringFrame` before the register write discards the low word that `f` holds. -/
def ringStays (f n : Nat) (s t : State) : Prop :=
  t = { s with hif := { s.hif with fns := t.hif.fns }, par := t.par } ∧ (streamOn s = false → t.par = s.par) ∧
  (∀ g, g ≠ f → fnOf t g = fnOf s g) ∧
  fnOf t f = { fnOf s f with rings := (fnOf t f).rings } ∧ ∀ m, m ≠ n → ringOf t f m = ringOf s f m

theorem ringStays.trans {f n : Nat} {s t u : State} (h : ringStays f n s t) (k : ringStays f n t u) : ringStays f n s u := by
  obtain ⟨hs, hp, hg, hf, hm⟩ := h
  obtain ⟨ks, kp, kg, kf, km⟩ := k
  refine ⟨by rw [ks, hs], fun ho => ?_, fun g hne => (kg g hne).trans (hg g hne), by rw [kf, hf], fun m hne => (km m hne).trans (hm m hne)⟩
  have ht : streamOn t = false := by rw [streamOn, hp ho, show t.pwr = s.pwr by rw [hs]]; exact ho
  exact (kp ht).trans (hp ho)

theorem modRing_stays (f n : Nat) (g : Ring → Ring) (s : State) : ringStays f n s (modRing f n g s) :=
  ⟨rfl, fun _ => rfl, fun _ h => fnOf_modFn_ne _ _ h, by simp [modRing], fun _ h => ringOf_modRing_ne g s h⟩

theorem ringMirror_stays (f n : Nat) (s : State) : ringStays f n s (ringMirror f n s) := by
  have hfn : ∀ g, fnOf (ringMirror f n s) g = fnOf s g := fun g => by rw [ringMirror, mirrorSend_par]; rfl
  refine ⟨by rw [ringMirror, mirrorSend_par], fun ho => by rw [ringMirror, mirrorSend_off ho], fun g _ => hfn g, by rw [hfn f], fun m _ => ?_⟩
  rw [ringOf, hfn, ringOf]

theorem ringOf_ringMirror (f n : Nat) (s : State) : ringOf (ringMirror f n s) f n = ringOf s f n := by
  rw [ringOf, ringMirror, mirrorSend_par]; rfl

theorem getElem?_modRing_same {f n : Nat} {r : Ring} (g : Ring → Ring) {s : State} (h : (fnOf s f).rings[n]? = some r) :
    (fnOf (modRing f n g s) f).rings[n]? = some (g r) := by
  simp [modRing, h]

theorem ringOf_regWrote (f n : Nat) (s : State) : ringOf (regWrote f s) f n = ringOf s f n := by
  unfold regWrote
  split
  · simp [ringOf]
  · rfl

theorem regWrote_par (f : Nat) (s : State) : (regWrote f s).par = s.par := by
  unfold regWrote
  split <;> rfl

theorem pageOpen_answers {s : State} {f : Nat} (h : pageOpen s f = true) : regsAnswer s = true := by
  simp only [pageOpen, regsOpen, Bool.and_eq_true] at h
  simp [regsAnswer, h]

theorem ringStays.frame {f n : Nat} {s t : State} (hp : pageOpen s f = true) (h : ringStays f n s t) : ringFrame f n s (regWrote f t) := by
  obtain ⟨hs, hpar, hg, hf, hm⟩ := h
  have ha : regsAnswer t = true := regsAnswer_congr (pageOpen_answers hp) (by rw [hs]) (by rw [hs]) (by rw [hs])
  obtain ⟨ks, kf⟩ := regWrote_regIs (f := f) ha
  refine ⟨by rw [ks, hs], fun ho => (regWrote_par f t).trans (hpar ho), fun g hne => ?_, ?_, fun m hne => ?_⟩
  · rw [kf, if_neg hne, hg g hne]
  · rw [kf, if_pos rfl, hf]
  · rw [ringOf_regWrote, hm m hne]

/-! ### The doorbells (R52-R54, R57) -/

/-- What a submission doorbell makes of its ring pair (R54). -/
def ringTailed (now tail : Nat) (r : Ring) : Ring :=
  if ringSize r.sqLog2 ≤ tail % 65536 then { r with dbErrors := satAdd 0xFFFF r.dbErrors 1 }
  else { r with dbBase := if r.dbTick = now then r.dbBase else r.tail, dbTick := now, tail := tail % 65536, fetchHold := false }

/-- A DRAINING pair that owes nothing is IDLE (R53). -/
def ringSettled (r : Ring) : Ring := if r.st = .draining ∧ r.reserved = 0 ∧ r.unconsumed = 0 then { r with st := .idle } else r

/-- A pair with ENABLE = 0 written (R53). -/
def ringDisabled (ctl : Nat) (r : Ring) : Ring :=
  let r := { ringCtlFields ctl r with enable := false }
  match r.st with
  | .running => { r with st := .draining }
  | .refused => { r with st := .idle }
  | _ => r

section
variable {s : State} {fn n : Nat} {r : Ring} (hp : pageOpen s fn = true) (hr : (fnOf s fn).rst = none) (hn : n < 4)
  (hx : (fnOf s fn).rings[n]? = some r)
include hp hr hn

theorem ringCommand_runs : ¬ ((!pageOpen s fn) = true ∨ 4 ≤ n ∨ (fnOf s fn).rst.isSome = true) := by
  simp [hp, hr, hn]

theorem execSqDoorbell_open (tail : Nat) :
    exec (.sqDoorbell fn n tail) s = .next (regWrote fn (modRing fn n (ringTailed (tick s) tail) s)) :=
  congrArg (fun t => Host.Outcome.next (regWrote fn t)) (if_neg (ringCommand_runs hp hr hn))

include hx

theorem sqDoorbell_records (tail : Nat) : ∃ t, exec (.sqDoorbell fn n tail) s = .next t ∧ t.par = s.par ∧ ringFrame fn n s t ∧
    (tail % 65536 < ringSize r.sqLog2 → (ringOf t fn n).tail = tail % 65536 ∧ (ringOf t fn n).fetchHold = false ∧
      (ringOf t fn n).dbErrors = r.dbErrors) ∧
    (ringSize r.sqLog2 ≤ tail % 65536 → ringOf t fn n = { r with dbErrors := min 0xFFFF (r.dbErrors + 1) }) := by
  refine ⟨_, execSqDoorbell_open hp hr hn tail, regWrote_par _ _, (modRing_stays _ _ _ _).frame hp, ?_⟩
  rw [ringOf_regWrote, ringOf_modRing_same _ hx, ringTailed]
  refine ⟨fun h => ?_, fun h => ?_⟩
  · rw [if_neg (by omega)]
    exact ⟨rfl, rfl, rfl⟩
  · rw [if_pos h]
    rfl

theorem execCqDoorbell_none {head : Nat} (hc : cqConsumes r (head % 65536) = none) : exec (.cqDoorbell fn n head) s =
    .next (regWrote fn (modRing fn n (fun r => { r with dbErrors := satAdd 0xFFFF r.dbErrors 1 }) s)) := by
  refine (congrArg (fun t => Host.Outcome.next (regWrote fn t)) (if_neg (ringCommand_runs hp hr hn))).trans ?_
  rw [ringOf_of_getElem? hx, hc]

theorem execCqDoorbell_some {head k : Nat} (hc : cqConsumes r (head % 65536) = some k) : exec (.cqDoorbell fn n head) s =
    .next (regWrote fn (ringSettle fn n (modRing fn n (fun r => { r with cqHead := head % 65536, unconsumed := r.unconsumed - k }) s))) := by
  refine (congrArg (fun t => Host.Outcome.next (regWrote fn t)) (if_neg (ringCommand_runs hp hr hn))).trans ?_
  rw [ringOf_of_getElem? hx, hc]

theorem cqDoorbell_consumes (head k : Nat) : ∃ t, exec (.cqDoorbell fn n head) s = .next t ∧ t.par = s.par ∧ ringFrame fn n s t ∧
    (cqConsumes r (head % 65536) = some k → (ringOf t fn n).cqHead = head % 65536 ∧ (ringOf t fn n).unconsumed = r.unconsumed - k ∧
      (ringOf t fn n).dbErrors = r.dbErrors ∧
      (ringOf t fn n).st = if r.st = .draining ∧ r.reserved = 0 ∧ r.unconsumed ≤ k then .idle else r.st) ∧
    (cqConsumes r (head % 65536) = none → ringOf t fn n = { r with dbErrors := min 0xFFFF (r.dbErrors + 1) }) := by
  cases hc : cqConsumes r (head % 65536) with
  | none =>
    refine ⟨_, execCqDoorbell_none hp hr hn hx hc, regWrote_par _ _, (modRing_stays _ _ _ _).frame hp, fun h => ?_, fun _ => ?_⟩
    · cases h
    · rw [ringOf_regWrote, ringOf_modRing_same _ hx]
      rfl
  | some j =>
    refine ⟨_, execCqDoorbell_some hp hr hn hx hc, regWrote_par _ _, ((modRing_stays _ _ _ _).trans (modRing_stays _ _ _ _)).frame hp, fun h => ?_,
      fun h => ?_⟩
    · cases h
      rw [ringOf_regWrote, ringSettle, ringOf_modRing_same _ (getElem?_modRing_same _ hx)]
      simp only [Nat.sub_eq_zero_iff_le]
      split <;> exact ⟨rfl, rfl, rfl, rfl⟩
    · cases h

/-! ### Enable and disable (R52, R53) -/

theorem execRingEnable_idle (ctl : Nat) (hi : r.st = .idle) (hc : (fnOf s fn).created = true) (hq : bitsOf ctl 8 5 ∉ [1, 2, 3, 4, 5])
    (hs : bitsOf ctl 4 1 ∉ [1, 2, 3, 4, 5]) (hv : bitsOf ctl 13 11 < 4) : exec (.ringEnable fn n ctl) s = .next (regWrote fn (
      if (fnOf s fn).rptBase = 0 then modRing fn n (fun _ => { ringCtlFields ctl r with enable := true, st := .refused }) s
      else ringMirror fn n (modRing fn n (fun _ => { ringCtlFields ctl r with
        enable := true, st := .running, head := 0, inFlight := 0, fetchHold := false, cqTail := 0, cqHead := 0,
        unconsumed := 0, reserved := 0, phase := true, irqCount := 0, irqFirst := none }) s))) := by
  have hf : ringCtlFields ctl r = { r with
      modTime := bitsOf ctl 31 22, modCount := bitsOf ctl 21 14, vector := bitsOf ctl 13 11, cqLog2 := bitsOf ctl 8 5, sqLog2 := bitsOf ctl 4 1 } :=
    if_pos hi
  have hg : ringRefused (fnOf s fn) (ringCtlFields ctl r) = decide ((fnOf s fn).rptBase = 0) := by
    have size : ∀ c, c ∉ [1, 2, 3, 4, 5] → badSize c = false := fun c h => by
      simp only [List.mem_cons, List.not_mem_nil] at h
      simp only [badSize, Bool.and_eq_false_iff, decide_eq_false_iff_not]
      omega
    have vec : decide (4 ≤ bitsOf ctl 13 11) = false := decide_eq_false (by omega)
    simp only [ringRefused, hf, hc, size _ hq, size _ hs, vec, Bool.not_true, Bool.false_or]
  refine (congrArg (fun t => Host.Outcome.next (regWrote fn t)) (if_neg (ringCommand_runs hp hr hn))).trans ?_
  have hst : ¬ (ringCtlFields ctl r).st ≠ .idle := by rw [hf]; exact fun h => h hi
  simp only [ringOf_of_getElem? hx, if_neg hst, hg, decide_eq_true_eq]

theorem ringEnable_starts (ctl : Nat) (hi : r.st = .idle) (hc : (fnOf s fn).created = true) (hq : bitsOf ctl 8 5 ∉ [1, 2, 3, 4, 5])
    (hs : bitsOf ctl 4 1 ∉ [1, 2, 3, 4, 5]) (hv : bitsOf ctl 13 11 < 4) :
    ∃ t, exec (.ringEnable fn n ctl) s = .next t ∧ ringFrame fn n s t ∧ (ringOf t fn n).enable = true ∧
      (ringOf t fn n).vector = bitsOf ctl 13 11 ∧ (ringOf t fn n).cqLog2 = bitsOf ctl 8 5 ∧ (ringOf t fn n).sqLog2 = bitsOf ctl 4 1 ∧
      (if (fnOf s fn).rptBase = 0 then (ringOf t fn n).st = .refused
       else (ringOf t fn n).st = .running ∧ (ringOf t fn n).head = 0 ∧ (ringOf t fn n).cqTail = 0 ∧ (ringOf t fn n).cqHead = 0 ∧
         (ringOf t fn n).phase = true) := by
  have hf : (ringCtlFields ctl r).vector = bitsOf ctl 13 11 ∧ (ringCtlFields ctl r).cqLog2 = bitsOf ctl 8 5 ∧
      (ringCtlFields ctl r).sqLog2 = bitsOf ctl 4 1 := by
    simp only [ringCtlFields, if_pos hi, and_self]
  refine ⟨_, execRingEnable_idle hp hr hn hx ctl hi hc hq hs hv, ?_⟩
  rw [ringOf_regWrote]
  split
  · refine ⟨(modRing_stays _ _ _ _).frame hp, ?_⟩
    rw [ringOf_modRing_same _ hx]
    exact ⟨rfl, hf.1, hf.2.1, hf.2.2, rfl⟩
  · refine ⟨((modRing_stays _ _ _ _).trans (ringMirror_stays _ _ _)).frame hp, ?_⟩
    rw [ringOf_ringMirror, ringOf_modRing_same _ hx]
    exact ⟨rfl, hf.1, hf.2.1, hf.2.2, rfl, rfl, rfl, rfl, rfl⟩

theorem execRingDisable_open (ctl : Nat) : exec (.ringDisable fn n ctl) s = .next (regWrote fn (
    if r.st = .running then ringMirror fn n (ringSettle fn n (modRing fn n (ringDisabled ctl) s))
    else ringSettle fn n (modRing fn n (ringDisabled ctl) s))) := by
  refine (congrArg (fun t => Host.Outcome.next (regWrote fn t)) (if_neg (ringCommand_runs hp hr hn))).trans ?_
  rw [ringOf_of_getElem? hx]
  rfl

omit hp hr hn hx in
theorem ringDisabled_ends (ctl : Nat) (r : Ring) : (ringSettled (ringDisabled ctl r)).enable = false ∧
    (r.st = .refused → (ringSettled (ringDisabled ctl r)).st = .idle) ∧
    (r.st = .running → (ringSettled (ringDisabled ctl r)).st = if r.reserved = 0 ∧ r.unconsumed = 0 then .idle else .draining) := by
  have hf : (ringCtlFields ctl r).st = r.st ∧ (ringCtlFields ctl r).reserved = r.reserved ∧ (ringCtlFields ctl r).unconsumed = r.unconsumed := by
    simp only [ringCtlFields]
    split
    · exact ⟨rfl, rfl, rfl⟩
    · split <;> exact ⟨rfl, rfl, rfl⟩
  obtain ⟨hst, hres, hunc⟩ := hf
  cases h : r.st <;> simp [ringDisabled, ringSettled, hst, h, hres, hunc, apply_ite Ring.st, apply_ite Ring.enable]

theorem ringDisable_drains (ctl : Nat) : ∃ t, exec (.ringDisable fn n ctl) s = .next t ∧ ringFrame fn n s t ∧ (ringOf t fn n).enable = false ∧
    (r.st = .refused → (ringOf t fn n).st = .idle) ∧
    (r.st = .running → (ringOf t fn n).st = if r.reserved = 0 ∧ r.unconsumed = 0 then .idle else .draining) := by
  have hstay := (modRing_stays fn n (ringDisabled ctl) s).trans (modRing_stays fn n ringSettled _)
  have hring : ringOf (ringSettle fn n (modRing fn n (ringDisabled ctl) s)) fn n = ringSettled (ringDisabled ctl r) :=
    ringOf_modRing_same _ (getElem?_modRing_same _ hx)
  refine ⟨_, execRingDisable_open hp hr hn hx ctl, ?_⟩
  rw [ringOf_regWrote]
  split
  · rw [ringOf_ringMirror, hring]
    exact ⟨(hstay.trans (ringMirror_stays _ _ _)).frame hp, ringDisabled_ends ctl r⟩
  · rw [hring]
    exact ⟨hstay.frame hp, ringDisabled_ends ctl r⟩

end

/-- Settles O2: each command is one change of its ring pair, with the mirror record where one is due, and the register write around it. -/
theorem ringDoorbells : Obligations.RingDoorbells := fun _ _ _ _ hp hr hn hx =>
  ⟨sqDoorbell_records hp hr hn hx, cqDoorbell_consumes hp hr hn hx, ringEnable_starts hp hr hn hx, ringDisable_drains hp hr hn hx⟩

end Sys2Proof.Machine
end

section
/-!
PROOFS. O56: where the registers of PF BAR0 stand, and what a 32-bit write of one stores.
-/

namespace Sys2Proof.Machine

/-! ### Where a register stands -/

theorem bitsOf_eq (v hi lo : Nat) : bitsOf v hi lo = v / 2 ^ lo % 2 ^ (hi + 1 - lo) := by
  rw [bitsOf, Nat.shiftRight_eq_div_pow]

theorem elem_none {base stride n off : Nat} (h : off < base ∨ base + stride * n ≤ off) : elem base stride n off = none := if_neg (by omega)

theorem elem_some {base stride n i b : Nat} (hi : i < n) (hb : b < stride) : elem base stride n (base + stride * i + b) = some (i, b) := by
  have hm : stride * i + b < stride * n := by nlinarith [Nat.mul_le_mul_left stride hi]
  rw [elem, if_pos ⟨by omega, by omega⟩]
  have hd : base + stride * i + b - base = b + stride * i := by omega
  rw [hd, Nat.add_mul_div_left _ _ (by omega), Nat.add_mul_mod_self_left, Nat.div_eq_of_lt hb, Nat.mod_eq_of_lt hb, Nat.zero_add]

/-- The offsets of the 64-bit registers of PF BAR0 outside the function pages (R500, R503). -/
def wideAt (off : Nat) : Prop :=
  (off = 0x30008 ∨ off = 0x700C0 ∨ off = 0x80008 ∨ off = 0xA0000 ∨ off = 0xA0010 ∨ off = 0xB0708 ∨ off = 0xD0020 ∨ off = 0x130200) ∨
  (0x50000 ≤ off ∧ off < 0x50080 ∧ off % 16 = 0) ∨ (0x110000 ≤ off ∧ off < 0x114940 ∧ off % 16 = 8) ∨
  (0x120000 ≤ off ∧ off < 0x120400 ∧ (off % 32 = 8 ∨ off % 32 = 16)) ∨
  (0x2800000 ≤ off ∧ off < 0x2840100 ∧ off % 8 = 0 ∧ off % 256 < 144)

theorem elem_eq_some {base stride n off i b : Nat} (h : elem base stride n off = some (i, b)) :
    base ≤ off ∧ off < base + stride * n ∧ (off - base) % stride = b := by
  unfold elem at h
  split at h
  · next hr => cases h; exact ⟨hr.1, hr.2, rfl⟩
  · cases h

/-- Every 64-bit register stands where `wideAt` says. -/
theorem wideAt_of_block64 {s : State} {off x : Nat} (h : block64 s off = some x) : wideAt off := by
  by_cases hm : off = 0x30008 ∨ off = 0x700C0 ∨ off = 0x80008 ∨ off = 0xA0000 ∨ off = 0xA0010 ∨ off = 0xB0708 ∨ off = 0xD0020 ∨ off = 0x130200
  · exact .inl hm
  · right
    simp only [not_or] at hm
    simp only [block64, hm, if_false] at h
    split at h
    · obtain ⟨h1, h2, h3⟩ := elem_eq_some ‹elem 0x50000 _ _ off = _›; omega
    · obtain ⟨h1, h2, h3⟩ := elem_eq_some ‹elem 0x110000 _ _ off = _›; omega
    · obtain ⟨h1, h2, h3⟩ := elem_eq_some ‹elem 0x120000 _ _ off = _›; omega
    · obtain ⟨h1, h2, h3⟩ := elem_eq_some ‹elem 0x120000 _ _ off = _›; omega
    · obtain ⟨h1, h2, h3⟩ := elem_eq_some ‹elem 0x2800000 _ _ off = _›
      split at h
      · simp only [meterReg] at h
        split_ifs at h <;> omega
      · cases h
    · cases h

theorem pageAt_block {off : Nat} (h : off < 0x3000000) : pageAt 0 off = none := by
  rw [pageAt, if_neg (fun k => k rfl), if_neg (by omega)]

theorem reg64_block (s : State) {off : Nat} (h : off < 0x3000000) : reg64 s 0 off = block64 s off := by
  simp only [reg64, pageAt_block h, if_true]

theorem reg64_block_none (s : State) {off : Nat} (h : off < 0x3000000) (hw : ¬ wideAt off) : reg64 s 0 off = none := by
  rw [reg64_block s h]
  cases hx : block64 s off with
  | none => rfl
  | some x => exact absurd (wideAt_of_block64 hx) hw

/-- An offset of PF BAR0 outside the function pages that holds no half of a 64-bit register. -/
def plainAt (off : Nat) : Prop := off < 0x3000000 ∧ off % 4 = 0 ∧ ¬ wideAt (off / 8 * 8)

theorem plainAt_none {off : Nat} (h : plainAt off) (s : State) :
    reg64 s 0 off = none ∧ (if off < 4 then none else reg64 s 0 (off - 4)) = none := by
  obtain ⟨hlt, h4, hw⟩ := h
  unfold wideAt at hw
  constructor
  · exact reg64_block_none s hlt (by unfold wideAt; omega)
  · split
    · rfl
    · exact reg64_block_none s (by omega) (by unfold wideAt; omega)

theorem wordWrite_plain {off : Nat} (h : plainAt off) (v : Nat) (held : Option (Nat × Nat)) (s : State) :
    wordWrite 0 off v held s = blockWrite off v s := by
  obtain ⟨h1, h2⟩ := plainAt_none h s
  simp only [wordWrite, h1, h2, pageAt_block h.1, Option.isSome_none, Bool.false_eq_true, if_false, if_true]

/-- The state without the low word that function `f` holds (R503). -/
def lowGone (f : Nat) (s : State) : State := modFn f (fun x => { x with heldWr := none }) s

theorem regsTake.answers {s : State} (h : regsTake s) : regsAnswer s = true := (regsAnswer_iff s).2 ⟨h.1, h.2.1, h.2.2.1⟩

theorem regsTake.writeOpen {s : State} (h : regsTake s) (off : Nat) : writeOpen s 0 off = true := by
  obtain ⟨h1, h2, h3, h4⟩ := h
  simp [Machine.writeOpen, regsAnswer, regsOpen, h1, h2, h3, h4]

theorem execRegisterWrite_word {s : State} {fn off : Nat} (v : Nat) (ho : writeOpen s fn off = true) (h4 : off % 4 = 0) :
    exec (.registerWrite fn off 4 v) s = .next (wordWrite fn off v (fnOf s fn).heldWr (regWrote fn s)) :=
  congrArg Host.Outcome.next ((if_neg (by simp [ho, h4])).trans (if_pos rfl))

theorem pfWrite_plain {s u : State} {off v : Nat} (h : regsTake s) (hp : plainAt off) (hu : blockWrite off v (lowGone 0 s) = lowGone 0 u) :
    exec (.registerWrite 0 off 4 v) s = .next (lowGone 0 u) := by
  rw [execRegisterWrite_word v (h.writeOpen off) hp.2.1, regWrote_answers h.answers, wordWrite_plain hp]
  exact congrArg _ hu

theorem pfWrites_plain {s u : State} {off v : Nat} (h : regsTake s) (hp : plainAt off) (hu : blockWrite off v (lowGone 0 s) = lowGone 0 u) :
    pfWrites s off v u :=
  ⟨_, pfWrite_plain h hp hu, modFn_regIs 0 u⟩

/-! ### 32-bit writes of plain registers -/

theorem elem_at {base stride n off i b : Nat} (hi : i < n) (hb : b < stride) (ho : off = base + stride * i + b) :
    elem base stride n off = some (i, b) := by rw [ho, elem_some hi hb]

theorem blockWrite_slm {off : Nat} (v : Nat) (s : State) (h : 0x10000 ≤ off) (h' : off < 0x20000) :
    blockWrite off v s = slmWrite (off - 0x10000) v s :=
  (if_neg (by omega)).trans (if_pos h')

theorem blockWrite_pane {off : Nat} (v : Nat) (s : State) (h : 0x50000 ≤ off) (h' : off < 0x60000) :
    blockWrite off v s = paneWrite (off - 0x50000) v s := by
  unfold blockWrite
  iterate 5 rw [if_neg (by omega)]
  rw [if_pos ⟨h, h'⟩]

theorem blockWrite_par {off : Nat} (v : Nat) (s : State) (h : 0xC0000 ≤ off) (h' : off < 0xD0000) :
    blockWrite off v s = parWrite (off - 0xC0000) v s := by
  unfold blockWrite
  iterate 9 rw [if_neg (by omega)]
  rw [if_pos ⟨h, h'⟩]

theorem blockWrite_cnt {off : Nat} (v : Nat) (s : State) (h : 0x100000 ≤ off) (h' : off < 0x140000) :
    blockWrite off v s = cntWrite (off - 0x100000) v s := by
  unfold blockWrite
  iterate 11 rw [if_neg (by omega)]
  rw [if_pos ⟨h, h'⟩]

theorem ctrOf_modCtr_same (i : Nat) (g : Ctr → Ctr) (s : State) : ctrOf (modCtr i g s) i = g (ctrOf s i) := tget_tmod_same _ _ _ _

theorem ctrOf_modCtr_ne {i j : Nat} (g : Ctr → Ctr) (s : State) (h : j ≠ i) : ctrOf (modCtr i g s) j = ctrOf s j := tget_tmod_ne _ _ _ h

/-- Change the filter of global counter `g`. -/
def modFilter (g : Nat) (f : GFilter → GFilter) (s : State) : State :=
  modCnt (fun c => { c with filters := tmod GFilter.blank c.filters g f }) s

theorem filterOf_modFilter_same (g : Nat) (f : GFilter → GFilter) (s : State) : filterOf (modFilter g f s) g = f (filterOf s g) :=
  tget_tmod_same _ _ _ _

theorem filterOf_modFilter_ne {g j : Nat} (f : GFilter → GFilter) (s : State) (h : j ≠ g) : filterOf (modFilter g f s) j = filterOf s j :=
  tget_tmod_ne _ _ _ h

section
variable {s : State} (h : regsTake s) (v : Nat)
include h

theorem pfWrites_request (hc : s.hif.cmdPend = none) :
    pfWrites s 0x10 v { s with hif := { s.hif with req := { s.hif.req with tokens := v % 2 ^ 17 } } } ∧
    pfWrites s 0x14 v { s with hif := { s.hif with req := { s.hif.req with flows := v % 2 ^ 19 } } } ∧
    pfWrites s 0x18 v { s with hif := { s.hif with req := { s.hif.req with keys := v % 2 ^ 20 } } } ∧
    pfWrites s 0x1C v { s with hif := { s.hif with req := { s.hif.req with dispatch := v % 2 ^ 17 } } } := by
  have hn : ¬ (lowGone 0 s).hif.cmdPend.isSome = true := by simp [lowGone, modFn, hc]
  refine ⟨?_, ?_, ?_, ?_⟩ <;> exact pfWrites_plain h (by unfold plainAt wideAt; omega) ((if_neg hn).trans rfl)

theorem pfWrites_request_busy (hc : s.hif.cmdPend ≠ none) (o : Nat) (ho : o = 0x10 ∨ o = 0x14 ∨ o = 0x18 ∨ o = 0x1C ∨ o = 0x20) :
    pfWrites s o v s := by
  have hb : (lowGone 0 s).hif.cmdPend.isSome = true := by simpa [lowGone, modFn, Option.isSome_iff_ne_none] using hc
  exact pfWrites_plain h (by unfold plainAt wideAt; omega) ((if_pos (by omega)).trans (if_pos hb))

theorem pfWrites_age {n : Nat} (hn : n < 7) :
    pfWrites s (0x10000 + 4 * n) v { s with slm := { s.slm with ageThresh := s.slm.ageThresh.set n (v % 65536) } } := by
  refine pfWrites_plain h (by unfold plainAt wideAt; omega) ?_
  have ho : 0x10000 + 4 * n - 0x10000 = n * 4 := by omega
  rw [blockWrite_slm v _ (by omega) (by omega), ho, slmWrite, if_pos (by omega), Nat.mul_div_cancel n (by omega)]
  rfl

theorem pfWrites_pages {n : Nat} (hn : n < 8) : pfWrites s (0x50008 + 16 * n) v { s with
    hif := { s.hif with hrStage := s.hif.hrStage.modify n fun r => { r with pages := v % 2 ^ 24 } } } := by
  refine pfWrites_plain h (by unfold plainAt wideAt; omega) ?_
  rw [blockWrite_pane v _ (by omega) (by omega), paneWrite, if_neg (by omega), elem_at (i := n) (b := 8) hn (by omega) (by omega)]
  rfl

/-- The registers that a write stores as it is, each with the width of its field. -/
theorem pfWrites_fields :
    pfWrites s 0x1001C v { s with slm := { s.slm with urgThresh := v % 65536 } } ∧
    pfWrites s 0x20004 v { s with lanes := { s.lanes with allBlock := v.testBit 0 } } ∧
    pfWrites s 0x40000 v { s with mov := { s.mov with retryCount := v % 8 } } ∧
    pfWrites s 0x80040 v { s with lcy := { s.lcy with chalSlot := v % 16 } } ∧
    pfWrites s 0xB0200 v { s with phl := { s.phl with routeSel := v % 4096 } } ∧
    pfWrites s 0xB0210 v { s with phl := { s.phl with auditPeriod := max 100 (v % 65536) } } ∧
    pfWrites s 0xD0010 v { s with pwr := { s.pwr with ledgerSel := v % 256 } } ∧
    pfWrites s 0x100008 v { s with cnt := { s.cnt with latThresh := v % 2 ^ 24 } } ∧
    pfWrites s 0x10000C v { s with cnt := { s.cnt with waitThresh := v % 2 ^ 24 } } := by
  refine ⟨?_, ?_, ?_, ?_, ?_, ?_, ?_, ?_, ?_⟩ <;> exact pfWrites_plain h (by unfold plainAt wideAt; omega) rfl

theorem pfWrites_receipts : pfWrites s 0xA0018 v { s with
    mtr := { s.mtr with log2 := if s.mtr.enable then s.mtr.log2 else v / 2 % 16, enable := v.testBit 0 } } := by
  rw [show v / 2 % 16 = bitsOf v 4 1 from (bitsOf_eq v 4 1).symm]
  exact pfWrites_plain h (by unfold plainAt wideAt; omega) rfl

theorem pfWrites_fabric : pfWrites s 0xB0000 v { s with
    phl := { s.phl with cfgLock := v.testBit 31, fmAddr := v / 2 ^ 16 % 4096, hopLimit := max 1 (v / 256 % 256) } } := by
  rw [show v / 2 ^ 16 % 4096 = bitsOf v 27 16 from (bitsOf_eq v 27 16).symm, show v / 256 % 256 = bitsOf v 15 8 from (bitsOf_eq v 15 8).symm]
  exact pfWrites_plain h (by unfold plainAt wideAt; omega) rfl

theorem pfWrites_pair : pfWrites s 0xC0000 v { s with
    par := { s.par with aloneWait := max 1 (v / 4096 % 256), mirrorTmo := max 1 (v / 16 % 256) } } := by
  rw [show v / 4096 % 256 = bitsOf v 19 12 from (bitsOf_eq v 19 12).symm, show v / 16 % 256 = bitsOf v 11 4 from (bitsOf_eq v 11 4).symm]
  exact pfWrites_plain h (by unfold plainAt wideAt; omega) rfl

theorem registerWrite_event {i : Nat} (hi : i < 1172) : ∃ t, exec (.registerWrite 0 (0x110000 + 16 * i) 4 v) s = .next t ∧
    regIs 0 { s with cnt := { s.cnt with ctrs := t.cnt.ctrs } } t ∧
    ctrOf t i = { ctrOf s i with
      enable := v.testBit 31, chain := v.testBit 30, ovf := (ctrOf s i).ovf && !v.testBit 29, irq := v.testBit 28, event := v % 4096 } ∧
    ∀ j, j ≠ i → ctrOf t j = ctrOf s j := by
  have hw : blockWrite (0x110000 + 16 * i) v (lowGone 0 s) = lowGone 0 (modCtr i (fun c => { c with
      enable := v.testBit 31, chain := v.testBit 30, ovf := c.ovf && !v.testBit 29, irq := v.testBit 28, event := v % 4096 }) s) := by
    rw [blockWrite_cnt v _ (by omega) (by omega), cntWrite]
    iterate 4 rw [if_neg (by omega)]
    rw [elem_at (base := 0x10000) (i := i) (b := 0) hi (by omega) (by omega)]
    rfl
  exact ⟨_, pfWrite_plain h (by unfold plainAt wideAt; omega) hw, modFn_regIs 0 _, ctrOf_modCtr_same i _ s,
    fun j hj => ctrOf_modCtr_ne _ s hj⟩

theorem registerWrite_filter {g : Nat} (hg : g < 32) : ∃ t, exec (.registerWrite 0 (0x120000 + 32 * g) 4 v) s = .next t ∧
    regIs 0 { s with cnt := { s.cnt with filters := t.cnt.filters } } t ∧ filterOf t g = { filterOf s g with
      share := v.testBit 31, priv := v / 2 ^ 29 % 4, space := v / 2 ^ 28 % 2, addrEn := v.testBit 27, masterEn := v.testBit 26
      funcEn := v.testBit 25, func := v / 256 % 2048, master := v % 256 } ∧
    ∀ j, j ≠ g → filterOf t j = filterOf s j := by
  have hw : blockWrite (0x120000 + 32 * g) v (lowGone 0 s) = lowGone 0 (modFilter g (fun x => { x with
      share := v.testBit 31, priv := v / 2 ^ 29 % 4, space := v / 2 ^ 28 % 2, addrEn := v.testBit 27, masterEn := v.testBit 26
      funcEn := v.testBit 25, func := v / 256 % 2048, master := v % 256 }) s) := by
    rw [blockWrite_cnt v _ (by omega) (by omega), cntWrite]
    iterate 4 rw [if_neg (by omega)]
    rw [elem_none (base := 0x10000) (by omega), elem_at (base := 0x20000) (i := g) (b := 0) hg (by omega) (by omega)]
    simp only [cntSelWrite, bitsOf_eq]
    rfl
  exact ⟨_, pfWrite_plain h (by unfold plainAt wideAt; omega) hw, modFn_regIs 0 _, filterOf_modFilter_same g _ s,
    fun j hj => filterOf_modFilter_ne _ s hj⟩

theorem pfWrites_period {c : Nat} (hc : c < 16) : pfWrites s (0x130004 + 32 * c) v { s with
    cnt := { s.cnt with samps := s.cnt.samps.modify c fun m => { m with period := max 64 (v / 2 ^ 16 % 65536), jitter := v / 256 % 16 } } } := by
  rw [show v / 2 ^ 16 % 65536 = bitsOf v 31 16 from (bitsOf_eq v 31 16).symm, show v / 256 % 16 = bitsOf v 11 8 from (bitsOf_eq v 11 8).symm]
  refine pfWrites_plain h (by unfold plainAt wideAt; omega) ?_
  rw [blockWrite_cnt v _ (by omega) (by omega), cntWrite]
  iterate 4 rw [if_neg (by omega)]
  rw [elem_none (base := 0x10000) (by omega), elem_none (base := 0x20000) (by omega),
    elem_at (base := 0x30000) (i := c) (b := 4) hc (by omega) (by omega)]
  rfl

theorem pfWrites_sampling {c : Nat} (hc : c < 16) (hv : v.testBit 31 = true) : pfWrites s (0x130000 + 32 * c) v { s with
    cnt := { s.cnt with samps := s.cnt.samps.modify c fun m => { m with
      enable := true, sIdle := v.testBit 30, sProg := v.testBit 29, sFw := v.testBit 28, funcEn := v.testBit 27, func := v / 2 ^ 16 % 2048
      cores := v / 256 % 256 } } } := by
  rw [show v / 2 ^ 16 % 2048 = bitsOf v 26 16 from (bitsOf_eq v 26 16).symm, show v / 256 % 256 = bitsOf v 15 8 from (bitsOf_eq v 15 8).symm]
  refine pfWrites_plain h (by unfold plainAt wideAt; omega) ?_
  rw [blockWrite_cnt v _ (by omega) (by omega), cntWrite]
  iterate 4 rw [if_neg (by omega)]
  rw [elem_none (base := 0x10000) (by omega), elem_none (base := 0x20000) (by omega),
    elem_at (base := 0x30000) (i := c) (b := 0) hc (by omega) (by omega)]
  simp only [sampCtlWrite, hv, if_true]
  rfl

theorem registerWrite_loads {w : Nat} (hw : w < 32) : ∃ t, exec (.registerWrite 0 (0xC0100 + 4 * w) 4 v) s = .next t ∧
    regIs 0 { s with par := { s.par with load1 := t.par.load1 } } t ∧ ∀ f, 1 ≤ f → f ≤ 1024 → (f ∈ t.par.load1 ↔
      if (f - 1) / 32 = w ∧ (fnOf s f).created = false then v.testBit ((f - 1) % 32) = true else f ∈ s.par.load1) := by
  have hb : blockWrite (0xC0100 + 4 * w) v (lowGone 0 s) = lowGone 0 (modPar (fun p => { p with load1 := loadMap (lowGone 0 s) w v }) s) := by
    rw [blockWrite_par v _ (by omega) (by omega), parWrite, if_neg (by omega), if_neg (by omega),
      elem_at (base := 0x100) (i := w) (b := 0) hw (by omega) (by omega)]
    rfl
  generalize hl : loadMap (lowGone 0 s) w v = l at hb
  refine ⟨_, pfWrite_plain h (by unfold plainAt wideAt; omega) hb, modFn_regIs 0 _, fun f h1 h2 => ?_⟩
  have hc : (fnOf (lowGone 0 s) f).created = (fnOf s f).created := fnOf_modFn_field Fn.created (fun x => { x with heldWr := none }) (fun _ => rfl) 0 f s
  have hm : f ∈ (List.range 1024).map (· + 1) := mem_vfList.2 ⟨h1, h2⟩
  show f ∈ l ↔ _
  simp only [← hl, loadMap, List.mem_filter, hm, true_and, hc, Bool.not_eq_true']
  split
  · rfl
  · exact List.contains_iff_mem
end

end Sys2Proof.Machine
end

section
/-!
PROOFS. O56: the halves of a 64-bit register.
-/

namespace Sys2Proof.Machine

/-! ### 64-bit registers (R503) -/

theorem writeOpen_answers {s : State} {fn off : Nat} (h : writeOpen s fn off = true) : regsAnswer s = true := by
  unfold writeOpen at h
  split at h
  · exact pageOpen_answers h
  · split at h
    · exact h
    · simp only [regsOpen, Bool.and_eq_true] at h
      simp [regsAnswer, h]

theorem fnOf_lowGone (f g : Nat) (s : State) : ∃ w, fnOf (lowGone f s) g = { fnOf s g with heldWr := w } := by
  by_cases h : g = f
  · subst h
    exact ⟨none, fnOf_modFn_same _ _ _⟩
  · exact ⟨_, fnOf_modFn_ne _ _ h⟩

theorem page64_lowGone (f g p : Nat) (s : State) : page64 (lowGone f s) g p = page64 s g p := by
  obtain ⟨w, hw⟩ := fnOf_lowGone f g s
  unfold page64
  rw [hw]
  rfl

theorem reg64_lowGone (f fn off : Nat) (s : State) : reg64 (lowGone f s) fn off = reg64 s fn off := by
  unfold reg64
  split
  · exact page64_lowGone _ _ _ s
  · rfl

theorem modFn_fnIs (f : Nat) (g : Fn → Fn) (s : State) : fnIs f (g (fnOf s f)) s (modFn f g s) :=
  ⟨rfl, fun _ => fnOf_modFn _ _ _ _⟩

theorem fnIs.modFn {f : Nat} {x : Fn} {s t : State} (h : fnIs f x s t) (g : Fn → Fn) : fnIs f (g x) s (modFn f g t) := by
  obtain ⟨h1, h2⟩ := h
  refine ⟨by rw [modFn_frame, h1], fun k => ?_⟩
  rw [fnOf_modFn, h2, h2, if_pos rfl]
  split <;> rfl

theorem lowGone_fnIs (f : Nat) (s : State) : fnIs f { fnOf s f with heldWr := none } s (lowGone f s) := modFn_fnIs f _ s

theorem registerWrite_low {s : State} {fn off x : Nat} (v : Nat) (ho : writeOpen s fn off = true) (h4 : off % 4 = 0) (hx : reg64 s fn off = some x) :
    ∃ t, exec (.registerWrite fn off 4 v) s = .next t ∧ fnIs fn { fnOf s fn with heldWr := some (off, v % 2 ^ 32) } s t := by
  have hs : (reg64 (lowGone fn s) fn off).isSome = true := by rw [reg64_lowGone, hx]; rfl
  refine ⟨_, ?_, (lowGone_fnIs fn s).modFn fun x => { x with heldWr := some (off, v % 2 ^ 32) }⟩
  rw [execRegisterWrite_word v ho h4, regWrote_answers (writeOpen_answers ho)]
  exact congrArg _ (if_pos hs)

theorem execSplitLowWrite_open {s : State} {fn off : Nat} (v : Nat) (ho : writeOpen s fn off = true) : exec (.splitLowWrite fn off v) s =
    .next (modFn fn (fun x => { x with heldWr := if (reg64 s fn off).isSome then some (off, v % 2 ^ 32) else none }) s) :=
  congrArg Host.Outcome.next (if_neg (by simp [ho]))

/-- A low word is held; a word of no 64-bit register holds none. -/
theorem lowWord_held {s : State} {fn off : Nat} (v : Nat) (ho : writeOpen s fn off = true) (h4 : off % 4 = 0) :
    (∀ x, reg64 s fn off = some x →
      (∃ t, exec (.registerWrite fn off 4 v) s = .next t ∧ fnIs fn { fnOf s fn with heldWr := some (off, v % 2 ^ 32) } s t) ∧
      ∃ t, exec (.splitLowWrite fn off v) s = .next t ∧ fnIs fn { fnOf s fn with heldWr := some (off, v % 2 ^ 32) } s t) ∧
    (reg64 s fn off = none → ∃ t, exec (.splitLowWrite fn off v) s = .next t ∧ fnIs fn { fnOf s fn with heldWr := none } s t) := by
  refine ⟨fun x hx => ⟨registerWrite_low v ho h4 hx, _, execSplitLowWrite_open v ho, ?_⟩, fun hx => ⟨_, execSplitLowWrite_open v ho, ?_⟩⟩
  · rw [hx]
    exact modFn_fnIs fn _ s
  · rw [hx]
    exact modFn_fnIs fn _ s

theorem reg64Write_block {off : Nat} (v : Nat) (s : State) (h : off < 0x3000000) : reg64Write 0 off v s = block64Write off v s := by
  simp only [reg64Write, pageAt_block h, if_true]

theorem wordWrite_high {s : State} {off x : Nat} (v l : Nat) (hlt : off + 4 < 0x3000000) (h8 : off % 8 = 0) (hx : block64 s off = some x) :
    wordWrite 0 (off + 4) v (some (off, l)) s = block64Write off (v % 2 ^ 32 * 2 ^ 32 + l) s := by
  have hn : reg64 s 0 (off + 4) = none := reg64_block_none s hlt (by unfold wideAt; omega)
  have hs : reg64 s 0 off = some x := (reg64_block s (by omega)).trans hx
  have h4 : ¬ off + 4 < 4 := by omega
  simp only [wordWrite, hn, h4, hs, Option.isSome_none, Bool.false_eq_true, if_false, Nat.add_sub_cancel, if_true]
  exact reg64Write_block _ s (by omega)

theorem execRegisterWrite_long {s : State} {fn off x : Nat} (v : Nat) (ho : writeOpen s fn off = true) (h8 : off % 8 = 0)
    (hx : reg64 s fn off = some x) : exec (.registerWrite fn off 8 v) s = .next (reg64Write fn off v (lowGone fn s)) := by
  have h4 : ¬ ((!writeOpen s fn off) = true ∨ 8 < 4 ∨ off % 4 ≠ 0) := by simp [ho]; omega
  have hs : (reg64 (regWrote fn s) fn off).isSome = true := by
    rw [regWrote_answers (writeOpen_answers ho)]
    exact (congrArg Option.isSome ((reg64_lowGone fn fn off s).trans hx)).trans rfl
  refine (congrArg Host.Outcome.next ((if_neg h4).trans ((if_neg (by omega)).trans (if_pos ⟨rfl, h8⟩)))).trans ?_
  rw [regWrote_answers (writeOpen_answers ho)] at hs ⊢
  split <;> simp only [hs, if_true, lowGone]

section
variable {s : State} {v l : Nat} (h : regsTake s) (hl : l < 2 ^ 32)
include h

theorem pfWrite_high {u : State} {off x : Nat} (hlt : off + 4 < 0x3000000) (h8 : off % 8 = 0) (hx : block64 s off = some x)
    (hh : (fnOf s 0).heldWr = some (off, l)) (hu : block64Write off (v % 2 ^ 32 * 2 ^ 32 + l) (lowGone 0 s) = lowGone 0 u) :
    exec (.registerWrite 0 (off + 4) 4 v) s = .next (lowGone 0 u) := by
  have hx' : block64 (lowGone 0 s) off = some x := hx
  rw [execRegisterWrite_word v (h.writeOpen _) (by omega), hh, regWrote_answers h.answers]
  exact congrArg _ ((wordWrite_high v l hlt h8 hx').trans hu)

theorem pfWrite_whole {off x : Nat} (hlt : off < 0x3000000) (h8 : off % 8 = 0) (hx : block64 s off = some x) :
    exec (.registerWrite 0 off 8 v) s = .next (block64Write off v (lowGone 0 s)) := by
  rw [execRegisterWrite_long v (h.writeOpen off) h8 ((reg64_block s hlt).trans hx), reg64Write_block _ _ hlt]

theorem registerWrite_flashPtr : ∃ t, exec (.registerWrite 0 0xD0020 8 v) s = .next t ∧
    regIs 0 { s with pwr := { s.pwr with flashPtr := v % 2 ^ 64 / 64 * 64 } } t :=
  ⟨_, pfWrite_whole h (by omega) (by omega) rfl, modFn_regIs 0 { s with pwr := { s.pwr with flashPtr := v % 2 ^ 64 / 64 * 64 } }⟩

include hl

theorem highWord_completes :
    ((fnOf s 0).heldWr = some (0xD0020, l) → pfWrites s 0xD0024 v { s with
      pwr := { s.pwr with flashPtr := (v % 2 ^ 32 * 2 ^ 32 + l) / 64 * 64 } }) ∧
    (∀ g, g < 32 → (fnOf s 0).heldWr = some (0x120008 + 32 * g, l) →
      ∃ t, exec (.registerWrite 0 (0x12000C + 32 * g) 4 v) s = .next t ∧ regIs 0 { s with cnt := { s.cnt with filters := t.cnt.filters } } t ∧
        filterOf t g = { filterOf s g with alo := v % 2 ^ 32 * 2 ^ 32 + l }) ∧
    (∀ n, n < 8 → (fnOf s 0).heldWr = some (0x50000 + 16 * n, l) → pfWrites s (0x50004 + 16 * n) v { s with
      hif := { s.hif with hrStage := s.hif.hrStage.modify n fun r => { r with base := (v % 2 ^ 32 * 2 ^ 32 + l) / 4096 * 4096 } } }) ∧
    ((∀ m ∈ s.cnt.samps, m.enable = false) → (fnOf s 0).heldWr = some (0x130200, l) → pfWrites s 0x130204 v { s with
      cnt := { s.cnt with base := (v % 2 ^ 32 * 2 ^ 32 + l) / 32768 * 32768, log2 := l % 16 } }) := by
  have hm : (v % 2 ^ 32 * 2 ^ 32 + l) % 2 ^ 64 = v % 2 ^ 32 * 2 ^ 32 + l := Nat.mod_eq_of_lt (by omega)
  refine ⟨fun hh => ?_, fun g hg hh => ?_, fun n hn hh => ?_, fun hs hh => ?_⟩
  · refine ⟨_, pfWrite_high (off := 0xD0020) h (by omega) (by omega) rfl hh ?_, modFn_regIs 0 _⟩
    simp only [block64Write, hm]
    rfl
  · have he : elem 0x120000 0x20 32 (0x120008 + 32 * g) = some (g, 8) := elem_at hg (by omega) (by omega)
    have hx : block64 s (0x120008 + 32 * g) = some (filterOf s g).alo := by
      unfold block64
      iterate 8 rw [if_neg (by omega)]
      rw [elem_none (base := 0x50000) (by omega), elem_none (base := 0x110000) (by omega), he]
      rfl
    have hw : block64Write (0x120008 + 32 * g) (v % 2 ^ 32 * 2 ^ 32 + l) (lowGone 0 s) =
        lowGone 0 (modFilter g (fun x => { x with alo := v % 2 ^ 32 * 2 ^ 32 + l }) s) := by
      simp only [block64Write, hm]
      iterate 6 rw [if_neg (by omega)]
      rw [elem_none (base := 0x50000) (by omega), elem_none (base := 0x110000) (by omega), he]
      rfl
    rw [show 0x12000C + 32 * g = 0x120008 + 32 * g + 4 by omega]
    exact ⟨_, pfWrite_high h (by omega) (by omega) hx hh hw, modFn_regIs 0 _, filterOf_modFilter_same g _ s⟩
  · have he : elem 0x50000 0x10 8 (0x50000 + 16 * n) = some (n, 0) := elem_at hn (by omega) (by omega)
    have hx : block64 s (0x50000 + 16 * n) = some (s.hif.hrStage.getD n HostRegion.none).base := by
      unfold block64
      iterate 8 rw [if_neg (by omega)]
      rw [he]
      rfl
    have hw : block64Write (0x50000 + 16 * n) (v % 2 ^ 32 * 2 ^ 32 + l) (lowGone 0 s) = lowGone 0 { s with
        hif := { s.hif with hrStage := s.hif.hrStage.modify n fun r => { r with base := (v % 2 ^ 32 * 2 ^ 32 + l) / 4096 * 4096 } } } := by
      simp only [block64Write, hm]
      iterate 6 rw [if_neg (by omega)]
      rw [he]
      rfl
    rw [show 0x50004 + 16 * n = 0x50000 + 16 * n + 4 by omega]
    exact ⟨_, pfWrite_high h (by omega) (by omega) hx hh hw, modFn_regIs 0 _⟩
  · have ha : ((lowGone 0 s).cnt.samps.any fun m => m.enable) = false := by
      rw [List.any_eq_false]
      exact fun m hm => by simp [hs m hm]
    have hlow : (v % 2 ^ 32 * 2 ^ 32 + l) % 16 = l % 16 := by omega
    refine ⟨_, pfWrite_high (off := 0x130200) h (by omega) (by omega) rfl hh ?_, modFn_regIs 0 _⟩
    simp only [block64Write, hm, ha, hlow]
    rfl

end

end Sys2Proof.Machine
end

section
/-!
PROOFS. O56: the registers of a function's pages, VF Enable and MSIX_VECTOR_UNMASK.
-/

namespace Sys2Proof.Machine

/-! ### A function's own pages (R58, R500, R534) -/

theorem modify_of_getElem? {α : Type} {l : List α} {n : Nat} {a : α} (h : l[n]? = some a) (f : α → α) : l.modify n f = l.set n (f a) := by
  rw [List.modify_eq_set_getElem?, h]
  rfl

theorem fnIs.refl (f : Nat) (s : State) : fnIs f (fnOf s f) s s := ⟨rfl, fun g => by split <;> simp_all⟩

/-- Function `f` after a change of one ring pair that it has. -/
theorem fnIs.modRing {f n : Nat} {x : Fn} {r : Ring} {s t : State} (h : fnIs f x s t) (hx : x.rings[n]? = some r) (g : Ring → Ring) :
    fnIs f { x with rings := x.rings.set n (g r) } s (modRing f n g t) := by
  have := h.modFn fun x => { x with rings := x.rings.modify n g }
  simp only [modify_of_getElem? hx] at this
  exact this

/-- Function `f` after a change of one MSI-X entry that it has. -/
theorem fnIs.modMsix {f n : Nat} {x : Fn} {e : MsixEntry} {s t : State} (h : fnIs f x s t) (he : x.msix[n]? = some e)
    (g : MsixEntry → MsixEntry) :
    fnIs f { x with msix := x.msix.set n (g e) } s (Machine.modFn f (fun x => { x with msix := x.msix.modify n g }) t) := by
  have := h.modFn fun x => { x with msix := x.msix.modify n g }
  simp only [modify_of_getElem? he] at this
  exact this

theorem pageAt_fn {f : Nat} (off : Nat) (h1 : 1 ≤ f) (h2 : f ≤ 1024) : pageAt f off = some (f, off) :=
  (if_pos (by omega)).trans (if_pos h2)

theorem reg64_page {f : Nat} (s : State) (off : Nat) (h1 : 1 ≤ f) (h2 : f ≤ 1024) : reg64 s f off = page64 s f off := by
  rw [reg64, pageAt_fn off h1 h2]

theorem pageShut_open {s : State} {f : Nat} (h : (fnOf s f).rst = none) (p : Nat) : pageShut s f p = false := by
  rw [pageShut, h]
  rfl

theorem writeOpen_page {s : State} {f : Nat} (off : Nat) (h1 : 1 ≤ f) (hp : pageOpen s f = true) : writeOpen s f off = true :=
  (if_pos (by omega)).trans hp

/-- No 64-bit register stands in the MSI-X table, nor below it up to the pairs' own (R534). -/
theorem page64_msix {f p : Nat} (s : State) (h1 : 0x2220 ≤ p) (h2 : p < 0x4000) : page64 s f p = none := by
  unfold page64
  rw [elem_none (by omega), elem_none (by omega), elem_none (by omega)]
  simp only
  iterate 4 rw [if_neg (by omega)]

theorem execRegisterWrite_page {s : State} {f off : Nat} (v : Nat) (hp : pageOpen s f = true) (h1 : 1 ≤ f) (h2 : f ≤ 1024)
    (h4 : off % 4 = 0) (h5 : 4 ≤ off) (hn : page64 s f off = none) (hn' : page64 s f (off - 4) = none) :
    exec (.registerWrite f off 4 v) s = .next (pageWrite f off v (lowGone f s)) := by
  rw [execRegisterWrite_word v (writeOpen_page off h1 hp) h4, regWrote_answers (pageOpen_answers hp)]
  refine congrArg Host.Outcome.next (?_ : wordWrite f off v _ (lowGone f s) = _)
  have hw : reg64 (lowGone f s) f off = none := by rw [reg64_lowGone, reg64_page s off h1 h2, hn]
  have hw' : reg64 (lowGone f s) f (off - 4) = none := by rw [reg64_lowGone, reg64_page s _ h1 h2, hn']
  have h5' : ¬ off < 4 := by omega
  simp only [wordWrite, hw, hw', h5', Option.isSome_none, Bool.false_eq_true, if_false, pageAt_fn off h1 h2]

theorem fnOf_lowGone_same (f : Nat) (s : State) : fnOf (lowGone f s) f = { fnOf s f with heldWr := none } := fnOf_modFn_same _ _ _

section
variable {s : State} {f n : Nat} (v : Nat) (hp : pageOpen s f = true) (h1 : 1 ≤ f) (h2 : f ≤ 1024) (hr : (fnOf s f).rst = none)
include hp h1 h2 hr

theorem registerWrite_missThresh : ∃ t, exec (.registerWrite f 0x220C 4 v) s = .next t ∧
    fnIs f { fnOf s f with missThresh := v % 65536, heldWr := none } s t ∧ t.out = s.out := by
  have hs : pageShut (lowGone f s) f 0x220C = false := pageShut_open (by rw [fnOf_lowGone_same]; exact hr) _
  refine ⟨_, execRegisterWrite_page v hp h1 h2 (by omega) (by omega) rfl rfl, ?_⟩
  rw [pageWrite, hs, if_neg Bool.false_ne_true, if_pos rfl, if_neg (by omega)]
  exact ⟨(lowGone_fnIs f s).modFn fun x => { x with missThresh := v % 65536 }, rfl⟩

theorem registerWrite_sqBase {r : Ring} (hn : n < 4) (hx : (fnOf s f).rings[n]? = some r) (hi : r.st = .idle) :
    ∃ t, exec (.registerWrite f (0x2000 + 64 * n) 8 v) s = .next t ∧
      fnIs f { fnOf s f with heldWr := none, rings := (fnOf s f).rings.set n { r with sqBase := v % 2 ^ 64 / 4096 * 4096 } } s t := by
  have he : elem 0x2000 0x40 4 (0x2000 + 64 * n) = some (n, 0) := elem_at hn (by omega) (by omega)
  have hq : reg64 s f (0x2000 + 64 * n) = some ((fnOf s f).rings.getD n Ring.blank).sqBase := by
    rw [reg64_page s _ h1 h2, page64, he]
    rfl
  have hs : pageShut (lowGone f s) f (0x2000 + 64 * n) = false := pageShut_open (by rw [fnOf_lowGone_same]; exact hr) _
  refine ⟨_, execRegisterWrite_long v (writeOpen_page _ h1 hp) (by omega) hq, ?_⟩
  rw [reg64Write, pageAt_fn _ h1 h2]
  simp only [hs, page64Write, he, Bool.false_eq_true, if_false]
  have := (lowGone_fnIs f s).modRing hx fun r => if r.st = .idle then { r with sqBase := v % 2 ^ 64 / 4096 * 4096 } else r
  rw [if_pos hi] at this
  exact this

theorem registerWrite_msix {e : MsixEntry} {b : Nat} (hn : n < 32) (he : (fnOf s f).msix[n]? = some e) (hb : b < 16) (h4 : b % 4 = 0) :
    exec (.registerWrite f (0x3000 + 16 * n + b) 4 v) s = .next (msixWrite f n (b / 4) v (lowGone f s)) := by
  have hl : n < (fnOf (lowGone f s) f).msix.length := by
    rw [fnOf_lowGone_same]
    exact (List.getElem?_eq_some_iff.1 he).1
  have hs : pageShut (lowGone f s) f (0x3000 + 16 * n + b) = false := pageShut_open (by rw [fnOf_lowGone_same]; exact hr) _
  rw [execRegisterWrite_page v hp h1 h2 (by omega) (by omega) (page64_msix s (by omega) (by omega)) (page64_msix s (by omega) (by omega)),
    pageWrite, hs, if_neg Bool.false_ne_true, if_neg (by omega), elem_some hl hb]
  exact congrArg _ (if_pos h4)

theorem registerWrite_msixData {e : MsixEntry} (hn : n < 32) (he : (fnOf s f).msix[n]? = some e) :
    ∃ t, exec (.registerWrite f (0x3008 + 16 * n) 4 v) s = .next t ∧
      fnIs f { fnOf s f with heldWr := none, msix := (fnOf s f).msix.set n { e with data := v % 2 ^ 32 } } s t := by
  rw [show 0x3008 + 16 * n = 0x3000 + 16 * n + 8 by omega]
  exact ⟨_, registerWrite_msix v hp h1 h2 hr hn he (by omega) (by omega),
    (lowGone_fnIs f s).modMsix he fun e => { e with data := v % 2 ^ 32 }⟩

theorem registerWrite_msixMask {e : MsixEntry} (hn : n < 32) (he : (fnOf s f).msix[n]? = some e) (hv : v.testBit 0 = true) :
    ∃ t, exec (.registerWrite f (0x300C + 16 * n) 4 v) s = .next t ∧
      fnIs f { fnOf s f with heldWr := none, msix := (fnOf s f).msix.set n { e with mask := true } } s t := by
  have hv' : (v % 2 ^ 32).testBit 0 = true := by simpa using hv
  rw [show 0x300C + 16 * n = 0x3000 + 16 * n + 12 by omega]
  refine ⟨_, registerWrite_msix v hp h1 h2 hr hn he (by omega) (by omega), ?_⟩
  simp only [msixWrite, hv', if_true]
  exact (lowGone_fnIs f s).modMsix he fun e => { e with mask := true }

end

theorem vfEnableSet_sets (s : State) :
    (s.pwr.main = true → s.hif.linkUp = true → exec .vfEnableSet s = .next { s with hif := { s.hif with vfEnable := true } }) ∧
    (s.pwr.main = false ∨ s.hif.linkUp = false → exec .vfEnableSet s = .next s) := by
  refine ⟨fun h1 h2 => congrArg Host.Outcome.next (if_pos ?_), fun h => congrArg Host.Outcome.next (if_neg ?_)⟩
  · rw [cfgAnswers, h1, h2]; rfl
  · rcases h with h | h <;> simp [cfgAnswers, h]

/-! ### MSIX_VECTOR_UNMASK (R58) -/

theorem execMsixVectorUnmask_closed {s : State} {f : Nat} (n : Nat) (h : pageOpen s f = false ∨ (fnOf s f).rst ≠ none) :
    exec (.msixVectorUnmask f n) s = .next s := by
  refine congrArg Host.Outcome.next (if_pos ?_)
  rcases h with h | h
  · simp [h]
  · exact .inr (Option.isSome_iff_ne_none.2 h)

/-- Entry `n` of function `f` unmasked, nothing pending. -/
def unmasked (f n : Nat) (s : State) : State :=
  modFn f (fun x => { x with msix := x.msix.modify n fun e => { e with mask := false, pend := false } }) s

theorem msixUnmask_entry {s : State} {f n : Nat} {e : MsixEntry} (hp : s.pwr.main = true) (hl : s.hif.linkUp = true)
    (hr : (fnOf s f).rst = none) (he : (fnOf s f).msix[n]? = some e) :
    msixUnmask f n s = if e.pend then emit (.msix f n e.addr e.data) (unmasked f n s) else unmasked f n s := by
  have hn : (fnOf (unmasked f n s) f).msix[n]? = some { e with mask := false, pend := false } := by
    simp [unmasked, he]
  have hr' : (fnOf (unmasked f n s) f).rst = none := by simp [unmasked, hr]
  have hf := fireMsix_sends hn rfl hr' hl hp
  simp only [msixUnmask, he]
  split
  · exact hf
  · rfl

theorem execMsixVectorUnmask_open {s : State} {f n : Nat} {e : MsixEntry} (hp : pageOpen s f = true) (hr : (fnOf s f).rst = none)
    (he : (fnOf s f).msix[n]? = some e) : ∃ t, exec (.msixVectorUnmask f n) s = .next t ∧
      fnIs f { fnOf s f with heldWr := none, msix := (fnOf s f).msix.set n { e with mask := false, pend := false } } s t ∧
      t.out = s.out ++ if e.pend then [.msix f n e.addr e.data] else [] := by
  obtain ⟨hm, hl, hg⟩ := (regsAnswer_iff s).1 (pageOpen_answers hp)
  have hu := msixUnmask_entry hm hl hr he
  have hfn : fnIs f { fnOf s f with msix := (fnOf s f).msix.set n { e with mask := false, pend := false } } s (unmasked f n s) :=
    (fnIs.refl f s).modMsix he fun e => { e with mask := false, pend := false }
  have hx : exec (.msixVectorUnmask f n) s = .next (regWrote f (msixUnmask f n s)) :=
    congrArg Host.Outcome.next (if_neg (by simp [hp, hr]))
  rw [hu] at hx
  split at hx
  · next hpend =>
    refine ⟨lowGone f (emit (.msix f n e.addr e.data) (unmasked f n s)), hx.trans (congrArg _ (regWrote_open ⟨hm, hl, hg⟩)), ?_, ?_⟩
    · exact fnIs.modFn (t := emit (.msix f n e.addr e.data) (unmasked f n s)) ⟨by rw [emit, hfn.1], hfn.2⟩ fun x => { x with heldWr := none }
    · rw [if_pos hpend]
      rfl
  · next hpend =>
    refine ⟨lowGone f (unmasked f n s), hx.trans (congrArg _ (regWrote_open ⟨hm, hl, hg⟩)), hfn.modFn fun x => { x with heldWr := none }, ?_⟩
    rw [if_neg hpend, List.append_nil]
    rfl

end Sys2Proof.Machine
end

section
/-!
PROOFS. O56: what a read returns and clears, and the obligation from the four parts.
-/

namespace Sys2Proof.Machine

/-! ### Reads (R394, R502, R503, R507) -/

theorem execSplitLowRead_closed {s : State} {fn : Nat} (off w : Nat) (h : readOpen s fn = false) : exec (.splitLowRead fn off w) s = .next s :=
  congrArg Host.Outcome.next (if_pos (by simp [h]))

theorem execSplitLowRead_misaligned (s : State) (fn : Nat) {off w : Nat} (h : off % w ≠ 0) : exec (.splitLowRead fn off w) s = .next s :=
  congrArg Host.Outcome.next (if_pos (.inr h))

theorem execReadClear_closed {s : State} {fn : Nat} (off : Nat) (h : readOpen s fn = false) : exec (.readClearAccess fn off) s = .next s :=
  congrArg Host.Outcome.next (if_pos (by simp [h]))

section
variable {s : State} {fn off : Nat} (ho : readOpen s fn = true)
include ho

theorem execSplitLowRead_word (h4 : off % 4 = 0) : exec (.splitLowRead fn off 4) s = .next (splitRead fn off s) :=
  congrArg Host.Outcome.next ((if_neg (by simp [ho, h4])).trans (if_pos rfl))

theorem execSplitLowRead_long (h8 : off % 8 = 0) : exec (.splitLowRead fn off 8) s = .next (longRead fn off s) :=
  congrArg Host.Outcome.next ((if_neg (by simp [ho, h8])).trans ((if_neg (by omega)).trans (if_pos rfl)))

theorem execSplitLowRead_narrow {w : Nat} (hw : w = 1 ∨ w = 2) (ha : off % w = 0) : exec (.splitLowRead fn off w) s =
    .next (emit (.reg (wordBytes (wordRead s fn (off / 4 * 4)).1 off w)) (wordRead s fn (off / 4 * 4)).2) :=
  congrArg Host.Outcome.next ((if_neg (by simp [ho, ha])).trans ((if_neg (by omega)).trans (if_neg (by omega))))

theorem splitLowRead_long (h8 : off % 8 = 0) :
    (∀ x, reg64 s fn off = some x → exec (.splitLowRead fn off 8) s = .next { s with out := s.out ++ [.reg x] }) ∧
    (reg64 s fn off = none → exec (.splitLowRead fn off 8) s = .next { (wordRead (wordRead s fn off).2 fn (off + 4)).2 with
      out := (wordRead (wordRead s fn off).2 fn (off + 4)).2.out ++
        [.reg ((wordRead s fn off).1 + 2 ^ 32 * (wordRead (wordRead s fn off).2 fn (off + 4)).1)] }) := by
  refine ⟨fun x hx => ?_, fun hx => ?_⟩ <;> rw [execSplitLowRead_long ho h8, longRead, hx] <;> rfl

variable (h4 : off % 4 = 0) (ht : ¬ (fn = 0 ∧ (off = 0xA0000 ∨ off = 0xA0004)))
include h4 ht

theorem splitLowRead_plain (hx : reg64 s fn off = none) (hh : off < 4 ∨ reg64 s fn (off - 4) = none) :
    exec (.splitLowRead fn off 4) s = .next { (wordRead s fn off).2 with out := (wordRead s fn off).2.out ++ [.reg (wordRead s fn off).1] } := by
  have hp : (if off < 4 then none else reg64 s fn (off - 4)) = none := by
    split
    · rfl
    · exact hh.resolve_left ‹_›
  rw [execSplitLowRead_word ho h4, splitRead, if_neg fun k => ht ⟨k.1, .inl k.2⟩, if_neg fun k => ht ⟨k.1, .inr k.2⟩, hx]
  simp only [hp]
  rfl

theorem splitLowRead_low {x : Nat} (hx : reg64 s fn off = some x) : ∃ t, exec (.splitLowRead fn off 4) s = .next t ∧
    t.out = s.out ++ [.reg (x % 2 ^ 32)] ∧ fnIs fn { fnOf s fn with latchRd := some (off, x / 2 ^ 32) } s t := by
  rw [execSplitLowRead_word ho h4, splitRead, if_neg fun k => ht ⟨k.1, .inl k.2⟩, if_neg fun k => ht ⟨k.1, .inr k.2⟩, hx]
  exact ⟨_, rfl, rfl, rfl, fun g => fnOf_modFn _ _ _ _⟩

theorem splitLowRead_high {x : Nat} (h5 : 4 ≤ off) (hx : reg64 s fn off = none) (hl : reg64 s fn (off - 4) = some x) :
    (∀ h, (fnOf s fn).latchRd = some (off - 4, h) → ∃ t, exec (.splitLowRead fn off 4) s = .next t ∧ t.out = s.out ++ [.reg h] ∧
      fnIs fn { fnOf s fn with latchRd := none } s t) ∧
    ((∀ o h, (fnOf s fn).latchRd = some (o, h) → o ≠ off - 4) →
      exec (.splitLowRead fn off 4) s = .next { s with out := s.out ++ [.reg (x / 2 ^ 32)] }) := by
  have hp : (if off < 4 then none else reg64 s fn (off - 4)) = some x := (if_neg (by omega)).trans hl
  have hr := execSplitLowRead_word ho h4
  rw [splitRead, if_neg fun k => ht ⟨k.1, .inl k.2⟩, if_neg fun k => ht ⟨k.1, .inr k.2⟩, hx] at hr
  simp only [hp] at hr
  refine ⟨fun h hh => ?_, fun hn => ?_⟩
  · simp only [hh, if_true] at hr
    exact ⟨_, hr, rfl, rfl, fun g => fnOf_modFn _ _ _ _⟩
  · rw [hr]
    cases hh : (fnOf s fn).latchRd with
    | none => rfl
    | some y => simp only [if_neg (hn y.1 y.2 hh)]; rfl

end

/-! ### Device time, and reads narrower than a word -/

theorem splitLowRead_narrow {s : State} {fn off w : Nat} (ho : readOpen s fn = true) (hw : w = 1 ∨ w = 2) (ha : off % w = 0) :
    exec (.splitLowRead fn off w) s = .next { (wordRead s fn (off / 4 * 4)).2 with
      out := (wordRead s fn (off / 4 * 4)).2.out ++ [.reg ((wordRead s fn (off / 4 * 4)).1 / 256 ^ (off % 4) % 256 ^ w)] } :=
  execSplitLowRead_narrow ho hw ha

theorem readOpen_pf {s : State} (ha : regsAnswer s = true) (hf : fnExists s 0 = true) : readOpen s 0 = true := by
  rw [readOpen, ha, hf]
  rfl

/-- A read of the low word of device time latches its high word; a read of the high word returns what was latched (R394). -/
theorem splitLowRead_time {s : State} (ho : readOpen s 0 = true) :
    exec (.splitLowRead 0 0xA0000 4) s = .next { s with
      time := { s.time with latchHi := (match s.time.dev with | some d => d % 2 ^ 64 | none => 2 ^ 64 - 1) / 2 ^ 32 }
      out := s.out ++ [.reg ((match s.time.dev with | some d => d % 2 ^ 64 | none => 2 ^ 64 - 1) % 2 ^ 32)] } ∧
    exec (.splitLowRead 0 0xA0004 4) s = .next { s with
      out := s.out ++ [.reg (match s.time.dev with | some _ => s.time.latchHi | none => 2 ^ 32 - 1)] } := by
  constructor
  · rw [execSplitLowRead_word ho (by omega), splitRead, if_pos ⟨rfl, rfl⟩]
    rfl
  · rw [execSplitLowRead_word ho (by omega), splitRead, if_neg (by omega), if_pos ⟨rfl, rfl⟩]
    cases hd : s.time.dev <;> simp [emit]

/-! ### What a register reads as -/

/-- An offset of PF BAR0 whose read leaves the state as it is: no read-clear field (R507) and no queue's next entry. -/
def steadyAt (off : Nat) : Prop :=
  off ≠ 0x30 ∧ off ≠ 0x50088 ∧ off ≠ 0x10028 ∧ off ≠ 0x10034 ∧ off ≠ 0x20004 ∧ off ≠ 0x50084 ∧ off ≠ 0x90004 ∧ (off < 0xA0000 ∨ 0x2000000 ≤ off)

theorem blockRc_none {off : Nat} (s : State) (h : steadyAt off) : blockRc s off = none := by
  obtain ⟨-, -, h1, h2, h3, h4, h5, h6⟩ := h
  have hf : fabricRc s off = none := by
    unfold fabricRc
    iterate 5 rw [if_neg (by omega)]
    rw [elem_none (by omega)]
  unfold blockRc
  iterate 7 rw [if_neg (by omega)]
  rw [elem_none (by omega), elem_none (by omega)]
  exact hf

theorem nextRead_none {off : Nat} (s : State) (h : steadyAt off) : nextRead s off = none := by
  obtain ⟨h1, h2, -, -, -, -, -, h6⟩ := h
  unfold nextRead
  iterate 5 rw [if_neg (by omega)]

theorem wordRead_plain {off : Nat} (s : State) (hp : plainAt off) (hs : steadyAt off) : wordRead s 0 off = (blockWord s off, s) := by
  obtain ⟨h1, h2⟩ := plainAt_none hp s
  simp only [wordRead, h1, h2, effRead, pageAt_block hp.1, blockRc_none s hs, nextRead_none s hs, if_true]

theorem blockWord_slm {off : Nat} (s : State) (h : 0x10000 ≤ off) (h' : off < 0x20000) : blockWord s off = slmWord s (off % 0x10000) :=
  (if_neg (by omega)).trans (if_pos h')

theorem blockWord_pane {off : Nat} (s : State) (h : 0x50000 ≤ off) (h' : off < 0x60000) : blockWord s off = paneWord s (off % 0x10000) := by
  unfold blockWord
  iterate 5 rw [if_neg (by omega)]
  rw [if_pos h']

theorem blockWord_fn {f b : Nat} (s : State) (hf : f ≤ 1024) (hb : b < 0x1000) : blockWord s (0x2000000 + 4096 * f + b) = idPage s f b := by
  unfold blockWord
  iterate 15 rw [if_neg (by omega)]
  rw [if_neg (by omega), elem_some (by omega) hb]

theorem wordRead_fn {f b : Nat} (s : State) (hf : f ≤ 1024) (hb : b < 0x1000) (h4 : b % 4 = 0) :
    wordRead s 0 (0x2000000 + 4096 * f + b) = (idPage s f b, s) := by
  rw [wordRead_plain s (by unfold plainAt wideAt; omega) (by unfold steadyAt; omega), blockWord_fn s hf hb]

theorem wordRead_svc {f : Nat} (s : State) (hf : f ≤ 1024) : wordRead s 0 (0x2000008 + 4096 * f) = (svcWord s f, s) := by
  rw [show 0x2000008 + 4096 * f = 0x2000000 + 4096 * f + 8 by omega]
  exact wordRead_fn s hf (by omega) (by omega)

theorem wordRead_pages {n : Nat} (s : State) (hn : n < 8) :
    wordRead s 0 (0x50008 + 16 * n) = ((s.hif.hrStage.getD n HostRegion.none).pages, s) := by
  rw [wordRead_plain s (by unfold plainAt wideAt; omega) (by unfold steadyAt; omega), blockWord_pane s (by omega) (by omega), paneWord,
    elem_at (i := n) (b := 8) hn (by omega) (by omega)]
  rfl

theorem wordRead_load {p : Nat} (s : State) (hp : p < 144) : wordRead s 0 (0x10100 + 4 * p) = (coreLoadWord s p, s) := by
  rw [wordRead_plain s (by unfold plainAt wideAt; omega) (by unfold steadyAt; omega), blockWord_slm s (by omega) (by omega), slmWord,
    elem_none (base := 0) (by omega), elem_none (base := 0x60) (by omega), elem_at (i := p) (b := 0) hp (by omega) (by omega)]

theorem wordRead_ringCtl {f n : Nat} (s : State) (h1 : 1 ≤ f) (h2 : f ≤ 1024) (hn : n < 4) :
    wordRead s f (0x2010 + 64 * n) = (ringCtlWord (ringOf s f n), s) := by
  have he : elem 0x2000 0x40 4 (0x2010 + 64 * n) = some (n, 0x10) := elem_at hn (by omega) (by omega)
  have he' : elem 0x2000 0x40 4 (0x2010 + 64 * n - 4) = some (n, 0xC) := elem_at hn (by omega) (by omega)
  have hx : reg64 s f (0x2010 + 64 * n) = none := by
    rw [reg64_page s _ h1 h2, page64, he]
    rfl
  have hy : (if 0x2010 + 64 * n < 4 then none else reg64 s f (0x2010 + 64 * n - 4)) = none := by
    rw [if_neg (by omega), reg64_page s _ h1 h2, page64, he']
    rfl
  have hc : pageRc s f (0x2010 + 64 * n) = none := by
    rw [pageRc, he]
    rfl
  have hw : pageWord s f (0x2010 + 64 * n) = ringCtlWord (ringOf s f n) := by
    rw [pageWord, he]
    rfl
  simp only [wordRead, hx, hy, effRead, pageAt_fn _ h1 h2, hc, hw]

theorem wordRead_values (s : State) :
    wordRead s 0 0x2000000 = (0x7260B101, s) ∧
    wordRead s 0 0x1001C = (s.slm.urgThresh, s) ∧
    wordRead s 0 0x10030 = (bitsWord (s.slm.clusters.map fun c => decide (c = .waking)) * 65536 +
      bitsWord (s.slm.clusters.map fun c => decide (c = .awake)), s) ∧
    wordRead s 0 0x30014 = (4096 - s.kst.ledger.length, s) := by
  refine ⟨wordRead_fn (f := 0) (b := 0) s (by omega) (by omega) (by omega), ?_, ?_, ?_⟩ <;>
    exact (wordRead_plain s (by unfold plainAt wideAt; omega) (by unfold steadyAt; omega)).trans rfl

/-! ### Read-clear registers (R507) -/

theorem execReadClear_pf {s u : State} {off w : Nat} (ho : readOpen s 0 = true) (hlt : off < 0x3000000) (hb : blockRc s off = some (w, u)) :
    exec (.readClearAccess 0 off) s = .next (emit (.reg w) u) := by
  refine congrArg Host.Outcome.next ((if_neg (by simp [ho])).trans ?_)
  simp only [pageAt_block hlt, if_true, hb]

theorem pfReads_of {s u : State} {off w : Nat} (ho : readOpen s 0 = true) (hlt : off < 0x3000000) (hb : blockRc s off = some (w, u))
    (hu : u.out = s.out) : pfReads s off w u := by
  rw [pfReads, execReadClear_pf ho hlt hb, emit, hu]

section
variable {s : State} (ho : readOpen s 0 = true)
include ho

/-- The read-clear registers that stand alone, each with the field that its read clears. -/
theorem pfReads_fields :
    pfReads s 0x10028 (b2n s.slm.conflict * 2 ^ 31 + s.slm.late * 2 ^ 15 + s.slm.lift.length) { s with slm := { s.slm with late := 0 } } ∧
    pfReads s 0x20004 (s.lanes.mismatches * 2 ^ 16 + b2n s.lanes.allBlock) { s with lanes := { s.lanes with mismatches := 0 } } ∧
    pfReads s 0x50084 (s.mov.vioLost * 2 ^ 16 + s.mov.vios.length) { s with mov := { s.mov with vioLost := 0 } } ∧
    pfReads s 0x90004 (s.aud.crcErrors * 2 ^ 20 + s.aud.buf.length * 2 ^ 13 + s.aud.staging.length) { s with aud := { s.aud with crcErrors := 0 } } ∧
    pfReads s 0xA0020 (s.mtr.tail * 2 ^ 20 + s.mtr.deferred) { s with mtr := { s.mtr with deferred := 0 } } ∧
    pfReads s 0xB0214 (s.phl.auditFails * 2 ^ 16 + s.phl.audits) { s with phl := { s.phl with auditFails := 0 } } ∧
    pfReads s 0xB0224 s.phl.evtLost { s with phl := { s.phl with evtLost := 0 } } ∧
    pfReads s 0xE0010 (s.dbg.lost * 2 ^ 16 + s.dbg.errs.length) { s with dbg := { s.dbg with lost := 0 } } ∧
    pfReads s 0xC0054 (s.par.lvds.faults * 2 ^ 16 + s.par.fab.faults) { s with
      par := { s.par with lvds := { s.par.lvds with faults := 0 }, fab := { s.par.fab with faults := 0 } } } := by
  refine ⟨?_, ?_, ?_, ?_, ?_, ?_, ?_, ?_, ?_⟩ <;> exact pfReads_of ho (by omega) rfl rfl

theorem readClear_errorCounts {d : Nat} (h1 : 1 ≤ d) (h2 : d < 0x18) : ∃ t, exec (.readClearAccess 0 (0xE0100 + 4 * d)) s = .next t ∧
    t.out = s.out ++ [.reg (tget 0 s.dbg.corr d * 2 ^ 16 + tget 0 s.dbg.uncorr d)] ∧ tget 0 t.dbg.corr d = 0 ∧ tget 0 t.dbg.uncorr d = 0 ∧
    t = { s with dbg := { s.dbg with corr := t.dbg.corr, uncorr := t.dbg.uncorr }, out := t.out } ∧
    ∀ e, e ≠ d → tget 0 t.dbg.corr e = tget 0 s.dbg.corr e ∧ tget 0 t.dbg.uncorr e = tget 0 s.dbg.uncorr e := by
  have hb : blockRc s (0xE0100 + 4 * d) = some (tget 0 s.dbg.corr d * 65536 + tget 0 s.dbg.uncorr d,
      modDbg (fun x => { x with corr := tset 0 x.corr d 0, uncorr := tset 0 x.uncorr d 0 }) s) := by
    unfold blockRc
    iterate 7 rw [if_neg (by omega)]
    rw [elem_at (i := d) (b := 0) h2 (by omega) (by omega)]
    exact if_neg (by omega)
  exact ⟨_, execReadClear_pf ho (by omega) hb, rfl, tget_tset_same 0 s.dbg.corr d 0, tget_tset_same 0 s.dbg.uncorr d 0, rfl,
    fun e he => ⟨tget_tset_ne 0 s.dbg.corr 0 he, tget_tset_ne 0 s.dbg.uncorr 0 he⟩⟩

theorem readClear_portErrors {p : Nat} (hp : p < 8) : ∃ t, exec (.readClearAccess 0 (0xB0018 + 32 * p)) s = .next t ∧
    t.out = s.out ++ [.reg ((portOf s p).crc * 2 ^ 16 + (portOf s p).replays)] ∧ (∀ q, q ≠ p → portOf t q = portOf s q) ∧
    (p < s.phl.ports.length → portOf t p = { portOf s p with crc := 0, replays := 0 }) ∧
    t = { s with phl := { s.phl with ports := t.phl.ports }, out := t.out } := by
  have hb : blockRc s (0xB0018 + 32 * p) = some (portErrWord (portOf s p), modPort8 p (fun x => { x with crc := 0, replays := 0 }) s) := by
    unfold blockRc
    iterate 7 rw [if_neg (by omega)]
    rw [elem_none (base := 0xE0100) (by omega), elem_none (base := 0x130000) (by omega)]
    show fabricRc s _ = _
    unfold fabricRc
    iterate 5 rw [if_neg (by omega)]
    rw [elem_at (i := p) (b := 8) hp (by omega) (by omega)]
    rfl
  refine ⟨_, execReadClear_pf ho (by omega) hb, rfl, fun q hq => ?_, fun hl => ?_, rfl⟩
  · simp [emit, modPort8, modPhl, portOf, List.getD_eq_getElem?_getD, Ne.symm hq]
  · simp [emit, modPort8, modPhl, portOf, List.getD_eq_getElem?_getD, hl]

end

theorem readClear_ringState {s : State} {f n : Nat} {r : Ring} (ho : readOpen s f = true) (h1 : 1 ≤ f) (h2 : f ≤ 1024) (hn : n < 4)
    (hx : (fnOf s f).rings[n]? = some r) : ∃ t, exec (.readClearAccess f (0x2014 + 64 * n)) s = .next t ∧
      t.out = s.out ++ [.reg (ringCode r.st * 2 ^ 30 + r.dbErrors)] ∧
      fnIs f { fnOf s f with rings := (fnOf s f).rings.set n { r with dbErrors := 0 } } s t := by
  have hc : pageRc s f (0x2014 + 64 * n) = some (ringCode r.st * 2 ^ 30 + r.dbErrors, modRing f n (fun r => { r with dbErrors := 0 }) s) := by
    rw [pageRc, elem_at (i := n) (b := 0x14) hn (by omega) (by omega)]
    simp only [ringOf_of_getElem? hx]
  have hr : exec (.readClearAccess f (0x2014 + 64 * n)) s =
      .next (emit (.reg (ringCode r.st * 2 ^ 30 + r.dbErrors)) (modRing f n (fun r => { r with dbErrors := 0 }) s)) := by
    refine congrArg Host.Outcome.next ((if_neg (by simp [ho])).trans ?_)
    simp only [pageAt_fn _ h1 h2, hc]
  obtain ⟨hs, hg⟩ := (fnIs.refl f s).modRing hx fun r => { r with dbErrors := 0 }
  exact ⟨_, hr, rfl, by rw [emit, hs], hg⟩

/-! ### The obligation -/

theorem registerWrite_shut {s : State} {fn off w : Nat} (v : Nat) (h : w < 4 ∨ off % 4 ≠ 0 ∨ writeOpen s fn off = false) :
    exec (.registerWrite fn off w v) s = .next s := by
  refine congrArg Host.Outcome.next (if_pos ?_)
  rcases h with h | h | h <;> simp [h]

/-- Settles O56: each clause is a lemma above, by the block that its registers stand in. -/
theorem registerAccess : Obligations.RegisterAccess := by
  refine ⟨fun s fn off w v h => registerWrite_shut v h, fun s fn off => ⟨rfl, fun hf => if_pos hf⟩, fun s v h => ?_,
    fun s fn off v ho h4 => lowWord_held v ho h4, fun s v l h hl => ?_, fun s f n v hp h1 h2 hr => ?_, fun s fn off w => ?_, fun s => ?_,
    fun s ho => ?_, fun s f n r ho h1 h2 hn hx => readClear_ringState ho h1 h2 hn hx, vfEnableSet_sets,
    fun s f n => ⟨execMsixVectorUnmask_closed n, fun e hp hr he => execMsixVectorUnmask_open hp hr he⟩⟩
  · obtain ⟨hUrg, hBlock, hRetry, hChal, hRoute, hPeriod, hLedger, hLat, hWait⟩ := pfWrites_fields h v
    exact ⟨pfWrites_request h v, pfWrites_request_busy h v, fun _ => pfWrites_age h v, hUrg, hBlock, hRetry, fun _ => pfWrites_pages h v, hChal,
      pfWrites_receipts h v, pfWrites_fabric h v, hRoute, hPeriod, pfWrites_pair h v, hLedger, hLat, hWait, fun _ => registerWrite_event h v,
      fun _ => registerWrite_filter h v, fun _ => pfWrites_period h v, fun _ => pfWrites_sampling h v, fun _ => registerWrite_loads h v⟩
  · obtain ⟨hFlash, hFilter, hRegion, hSample⟩ := highWord_completes (v := v) h hl
    exact ⟨hFlash, hFilter, hRegion, hSample, registerWrite_flashPtr h⟩
  · exact ⟨registerWrite_missThresh v hp h1 h2 hr, fun r hn hx hi => registerWrite_sqBase v hp h1 h2 hr hn hx hi, fun e he hn _ =>
      ⟨registerWrite_msixData v hp h1 h2 hr hn he, fun hv => registerWrite_msixMask v hp h1 h2 hr hn he hv⟩⟩
  · exact ⟨fun h => ⟨execSplitLowRead_closed off w h, execReadClear_closed off h⟩, execSplitLowRead_misaligned s fn, splitLowRead_long,
      splitLowRead_narrow, fun ho h4 ht => ⟨splitLowRead_plain ho h4 ht, fun x => splitLowRead_low ho h4 ht, fun x => splitLowRead_high ho h4 ht⟩,
      fun ha hf => splitLowRead_time (readOpen_pf ha hf)⟩
  · obtain ⟨hId, hUrg, hAwake, hFree⟩ := wordRead_values s
    exact ⟨hId, hUrg, hAwake, hFree,
      fun f hf => ⟨wordRead_fn (b := 0) s hf (by omega) (by omega), wordRead_svc s hf⟩,
      fun n => wordRead_pages s, fun p => wordRead_load s, fun f n => wordRead_ringCtl s⟩
  · obtain ⟨hLate, hMis, hVio, hCrc, hDef, hAud, hEvt, hErr, hPair⟩ := pfReads_fields ho
    exact ⟨hLate, hMis, hVio, hCrc, hDef, hAud, hEvt, hErr, hPair, fun d => readClear_errorCounts ho, fun p => readClear_portErrors ho⟩

end Sys2Proof.Machine
end

section
/-!
PROOFS. O27 to O30 fail: nothing in them keeps the store indices apart, as O26 does where it needs it. With two entries at one index a handle
resolves to the second by its fields, and the command that has the handle pinned reads the first.
-/

namespace Sys2Proof.Machine

/-! ### A pinned key of another kind ends the command (R77 step 4, R126) -/

theorem payPinned_kind {p h i : Nat} {k : PayKey} {e : KEnt} {s : State} (he : keyAt s i = some e) (hk : k.req.kinds.testBit e.kind = false) :
    payPinned p h i k s = .fail 0x0203 s := by
  simp [payPinned, he, hk]

theorem entryHit_uninjected {s : State} (h : s.dbg.inj = none) (i : Nat) : entryHit i s = (0, s) := by
  simp [entryHit, injTake, h]

theorem keyPass_uninjected {s : State} (h : s.dbg.inj = none) (i : Nat) : keyPass i s = s := by
  simp only [keyPass, entryHit_uninjected h]

theorem handlePass_uninjected {s : State} (h : s.dbg.inj = none) (f n : Nat) : handlePass f n s = s := by
  unfold handlePass
  split
  · exact keyPass_uninjected h _
  · rfl

/-- The key slots resolve no further than a first handle whose pinned entry is of another kind. -/
theorem payKeys_pinned_kind {p f x : Nat} {d : Bytes} {k : PayKey} {ks : List PayKey} {e : KEnt} {s : State} (hi : s.dbg.inj = none)
    (h0 : dKey d k.slot ≠ 0) (hp : pinOf s p (dKey d k.slot) = some x) (he : keyAt s x = some e) (hk : k.req.kinds.testBit e.kind = false) :
    payKeys p f d (k :: ks) s = ([], some (.fail 0x0203 s), s) := by
  have h : payKey p f d k s = .fail 0x0203 s := by
    simp only [payKey, handlePass_uninjected hi, if_neg h0, hp, payPinned_kind he hk]
  simp only [payKeys, h]

theorem hostReads_out (f : Nat) (ps : List (Nat × Nat)) (s : State) : ∃ o, hostReads f ps s = { s with out := o } := by
  induction ps generalizing s with
  | nil => exact ⟨s.out, rfl⟩
  | cons x ps ih => exact ih _

/-- An input that the pane lets the core read is read, and nothing else happens. -/
theorem payRead_clear {p : Nat} {s : State} (h : payRefusal s p false (core s p).inList = none) : ∃ o, payRead p 0 s = (0, { s with out := o }) := by
  unfold payRead
  simp only [h]
  split
  · exact ⟨s.out, rfl⟩
  · obtain ⟨o, ho⟩ := hostReads_out (core s p).func (core s p).inList s
    exact ⟨o, by simp [ho]⟩

theorem payRefusal_payFresh (s : State) (p q : Nat) (w : Bool) (l : List (Nat × Nat)) : payRefusal (payFresh q s) p w l = payRefusal s p w l := rfl

theorem pinOf_payFresh (s : State) (p h : Nat) : pinOf (payFresh p s) p h = pinOf s p h := by
  simp only [pinOf, payFresh, core_modCore_same, List.find?_map, Option.map_map]
  rfl

/-- A command that starts with its first key pinned, where the entry at the pinned index is of a kind that the command does not take, gives the
Gate 0x0203. -/
theorem payGo_pinned_kind {c : PayCmd} {s : State} {p x : Nat} {d i input : Bytes} {k : PayKey} {ks : List PayKey} {e : KEnt}
    (hs : payStarts c s p d i input) (hr : recordRoom s) (hks : c.keys d i = k :: ks) (h0 : dKey d k.slot ≠ 0)
    (hp : pinOf s p (dKey d k.slot) = some x) (he : keyAt s x = some e) (hk : k.req.kinds.testBit e.kind = false) :
    (core (payGo c p input 0 s) p).st = .release 0x0203 0 := by
  obtain ⟨hready, hstat, rfl, hsg, hstatic, rfl, hpane, hlayout, hhalt, hinj, -⟩ := hs
  obtain ⟨hstall, hrefused⟩ := hr
  have hfresh : payRefusal (payFresh p s) p false (core (payFresh p s) p).inList = none := by
    rw [payRefusal_payFresh, payFresh, core_modCore_same]
    exact hpane
  obtain ⟨o, hread⟩ := payRead_clear hfresh
  have hkeys := payKeys_pinned_kind (f := (core s p).func) (ks := ks) (s := { payFresh p s with out := o }) hinj h0
    ((pinOf_payFresh s p _).trans hp) he hk
  have hroom : recordRefused (payFresh p s) = false := hrefused
  simp only [payGo, hready, hstall, hhalt, hstat, hroom, hsg, hstatic, hread, hlayout, hks, hkeys]
  simp [payEnd]

/-! ### A store that holds two keys at one index -/

/-- An asymmetric key of function 4 that may not leave the device. -/
def strayKey : KEnt := newKey 4 2 0 1 1 0 0 'N'.toNat 0 0xFFFFFFFF 0 false 0 [] []

/-- The TDES key of function 3 at directory index 2, of this usage and of mode N, sealed at store index 5. -/
def servingKey (usage : Nat) : KEnt :=
  keySeal State.reset.kst.intKey 5 (newKey 3 2 0 0 1 usage 'N'.toNat 'E'.toNat 0x3030 0xFFFFFFFF 0 false 0 (zeroBytes 16) [])

/-- A descriptor of this opcode and PARAM with handle 2 in KEY0, this handle in KEY1, no input, and 4,096 bytes of output. -/
def handleDesc (op param key1 : Nat) : Bytes :=
  (leBytes 2 op ++ zeroBytes 14) ++ (leBytes 4 2 ++ (leBytes 4 key1 ++ zeroBytes 24 ++ leBytes 4 4096 ++ leBytes 4 param ++ zeroBytes 8))

theorem dKey_handleDesc (op param key1 : Nat) : dKey (handleDesc op param key1) 0 = 2 :=
  leAt_at _ _ 16 4 2 (by simp [length_leBytes, zeroBytes])

/-- A deployed device whose store holds two entries at index 5, the stray key before the serving one. Core 0 runs a command of function 3 with
handle 2 pinned at index 5, and the generators give output. -/
def heldTwice (op param key1 usage : Nat) : State :=
  { State.reset with
    pwr := { State.reset.pwr with main := true, mode := .active }
    lcy := { State.reset.lcy with state := .deployed }
    ent := { State.reset.ent with drbgs := List.replicate 16 ⟨zeroBytes 32, zeroBytes 16, 0, true, false, false⟩ }
    hif := { State.reset.hif with fns := [(3, { Fn.vf with dirSize := 8 })] }
    kst := { State.reset.kst with
      keys := [(5, strayKey), (5, servingKey usage)]
      lmks := [(3, { Lmk.blank with s0 := { LmkSlot.blank with key := some [], occ := true }, loaded := true })] }
    cpu := { State.reset.cpu with
      cores := [(0, { Core.blank with
        st := .run, tok := some 0, func := 3, mem := mwrite [] 0xFF00 (handleDesc op param key1), pins := [⟨2, 5, 0⟩] })] } }

/-- A command that starts there, and whose first slot takes symmetric keys alone, ends with 0x0203 and no other status. -/
theorem heldTwice_status {c : PayCmd} {op param key1 usage st len units : Nat} {k : PayKey} {ks : List PayKey} {t : State}
    (hs : payStarts c (heldTwice op param key1 usage) 0 (handleDesc op param key1) [] [])
    (hks : c.keys (handleDesc op param key1) [] = k :: ks) (hslot : k.slot = 0) (hkinds : k.req.kinds = 1)
    (ht : (.next (payGo c 0 [] 0 (heldTwice op param key1 usage)) : Res) = .next t)
    (hd : payDone (heldTwice op param key1 usage) 0 st len units t) : st = 0x0203 := by
  have hkey : dKey (handleDesc op param key1) k.slot = 2 := by rw [hslot, dKey_handleDesc]
  have hends := payGo_pinned_kind (x := 5) (e := strayKey) hs ⟨rfl, rfl⟩ hks (by rw [hkey]; decide) (by rw [hkey]; rfl) rfl (by rw [hkinds]; rfl)
  obtain ⟨hst, -⟩ := hd
  cases ht
  rw [hends] at hst
  cases hst
  rfl

/-! ### The four families -/

theorem pinTranslate_starts :
    payStarts pinTranslate (heldTwice 0x1001 0x22 2 0x3050) 0 (handleDesc 0x1001 0x22 2) [] [] ∧
    slotsHold (heldTwice 0x1001 0x22 2 0x3050) 0 (handleDesc 0x1001 0x22 2) (pinTranslate.keys (handleDesc 0x1001 0x22 2) [])
      [(5, strayKey), (5, strayKey)] = true ∧
    fillDraw (outFmt (handleDesc 0x1001 0x22 2)) 4 = 0 ∧
    pinDecode (inFmt (handleDesc 0x1001 0x22 2)) strayKey.mat (slice [] 0 16) (slice [] 16 32) = none := by decide +kernel

/-- Refutes O27: under the stray key the block of zeros holds no PIN, which the statement ends with 0x0106; the model, whose pinned entry is of
another kind than the slot takes, with 0x0203. -/
theorem not_pinCommands : ¬ Obligations.PinCommands := by
  intro h
  obtain ⟨hstart, hslots, hfill, hblock⟩ := pinTranslate_starts
  obtain ⟨htranslate, -⟩ := h _ 0 5 5 _ _ _ strayKey strayKey
  obtain ⟨-, hnone⟩ := htranslate hstart hslots (.inl hfill)
  obtain ⟨t, ht, hdone, -⟩ := hnone hblock
  exact absurd (heldTwice_status hstart rfl rfl rfl ht hdone) (by decide)

theorem macVerify_starts :
    payStarts macVerify (heldTwice 0x1302 0x0411 0 0x314D) 0 (handleDesc 0x1302 0x0411 0) [] [] ∧
    slotsHold (heldTwice 0x1302 0x0411 0 0x314D) 0 (handleDesc 0x1302 0x0411 0) (macVerify.keys (handleDesc 0x1302 0x0411 0) [])
      [(5, strayKey)] = true := by decide +kernel

/-- Refutes O28: MAC_VERIFY under the stray key ends with 0 or 0x0702 by the statement, with 0x0203 by the model. -/
theorem not_cardAndMacCommands : ¬ Obligations.CardAndMacCommands := by
  intro h
  obtain ⟨hstart, hslots⟩ := macVerify_starts
  obtain ⟨-, -, -, -, -, hmac⟩ := h
  obtain ⟨hright, hwrong⟩ := hmac _ 0 5 _ _ _ strayKey hstart hslots
  by_cases hm : ([] : Bytes).take (dParam (handleDesc 0x1302 0x0411 0) / 256 % 32) = macBytes (handleDesc 0x1302 0x0411 0) [] strayKey
  · obtain ⟨t, ht, hdone, -⟩ := hright hm
    exact absurd (heldTwice_status hstart rfl rfl rfl ht hdone) (by decide)
  · obtain ⟨t, ht, hdone, -⟩ := hwrong hm
    exact absurd (heldTwice_status hstart rfl rfl rfl ht hdone) (by decide)

theorem dukptMacVerify_starts :
    payStarts dukptMacVerify (heldTwice 0x1402 0x0401 0 0x3042) 0 (handleDesc 0x1402 0x0401 0) [] [] ∧
    slotsHold (heldTwice 0x1402 0x0401 0 0x3042) 0 (handleDesc 0x1402 0x0401 0) (dukptMacVerify.keys (handleDesc 0x1402 0x0401 0) [])
      [(5, strayKey)] = true ∧
    ksnOk (algAes strayKey.alg) (([] : Bytes).take 16) = false := by decide +kernel

/-- Refutes O29: a key serial number of zeros ends DUKPT_MAC_VERIFY with 0x0106 by the statement, with 0x0203 by the model. -/
theorem not_dataCommands : ¬ Obligations.DataCommands := by
  intro h
  obtain ⟨hstart, hslots, hksn⟩ := dukptMacVerify_starts
  obtain ⟨-, hmac, -⟩ := h
  obtain ⟨-, hbad⟩ := hmac _ 0 5 _ _ _ strayKey hstart hslots
  obtain ⟨t, ht, hdone, -⟩ := hbad hksn
  exact absurd (heldTwice_status hstart rfl rfl rfl ht hdone) (by decide)

theorem keyExport_starts :
    payStarts keyExport (heldTwice 0x1602 1 2 0x314B) 0 (handleDesc 0x1602 1 2) [] [] ∧ recordRoom (heldTwice 0x1602 1 2 0x314B) ∧
    drawReady (heldTwice 0x1602 1 2 0x314B) 0 ∧
    slotsHold (heldTwice 0x1602 1 2 0x314B) 0 (handleDesc 0x1602 1 2) (keyExport.keys (handleDesc 0x1602 1 2) [])
      [(5, strayKey), (5, strayKey)] = true ∧
    exportBad strayKey strayKey = true := by decide +kernel

/-- Refutes O30: KEY_EXPORT of the stray key, which may not leave the device, ends with 0x0204 by the statement, with 0x0203 by the model. -/
theorem not_keyCommands : ¬ Obligations.KeyCommands := by
  intro h
  obtain ⟨hstart, hroom, hdraw, hslots, hbad⟩ := keyExport_starts
  obtain ⟨-, hexport, -⟩ := h
  obtain ⟨-, hrefused⟩ := hexport _ 0 5 5 _ strayKey strayKey hstart hroom hdraw hslots
  obtain ⟨t, ht, hdone, -⟩ := hrefused hbad
  exact absurd (heldTwice_status hstart rfl rfl rfl ht hdone) (by decide)

end Sys2Proof.Machine
end

section
/-!
PROOFS. O39 fails: the draw of a challenge may be the one that halts and reseeds its generator, and the waiter this frees raises its function's pass.
-/

namespace Sys2Proof.Machine

/-- What CHAL_ISSUE of slot 0 makes of the PF's pass in class 0. -/
theorem chalIssue_raises_pass {t : State} (h : exec (.chalIssue 0) waiterFreed = .next t) :
    (fnOf t 0).pass.head? = some 5 ∧ (fnOf waiterFreed 0).pass.head? = some 0 := by
  cases h
  decide +kernel

/-- Refutes O39: its clause on CHAL_ISSUE leaves every function as it was but for the low word that the PF held, and the draw that takes the
generator to its limit is followed by a reseed, which returns a token from the Lift and raises its function's pass (R239, R240, R314). -/
theorem not_grantsRejoinInjection : ¬ Obligations.GrantsRejoinInjection := by
  intro h
  obtain ⟨-, hstate⟩ := h
  obtain ⟨hissue, -⟩ := hstate waiterFreed
  obtain ⟨⟨hmain, hlink, hmode, -⟩, -, hlive⟩ := waiterFreed_ready
  obtain ⟨hdraw, -⟩ := hissue 0 (by decide) hmain hlink hmode
  obtain ⟨t, ht, hfns, -⟩ := hdraw hlive
  obtain ⟨hafter, hbefore⟩ := chalIssue_raises_pass ht
  have hpass : (fnOf t 0).pass = (fnOf waiterFreed 0).pass := by rw [hfns 0, if_pos rfl]
  rw [hpass, hbefore] at hafter
  exact absurd hafter (by decide)

end Sys2Proof.Machine
end

section
/-!
PROOFS. O15 fails: DRBG_GENERATE's draw may be the one that halts and reseeds its generator, which sends every core that waits on it without a
request back to its RAND instruction.
-/

namespace Sys2Proof.Machine

/-- A device in ACTIVE whose generator 0 has one request left and a seed queued: core 0 has asked it for 16 bytes, core 1 waits in RAND and has no
request at it. -/
def secondWaiter : State :=
  { State.reset with
    pwr := { State.reset.pwr with main := true, mode := .active }
    ent := { State.reset.ent with drbgs := [spentDrbg], queue := [zeroBytes 32], reqs := [⟨0, 0, 16⟩] }
    cpu := { State.reset.cpu with
      cores := [(0, { Core.blank with st := .rand, ds := [0, 0] }), (1, { Core.blank with st := .rand })] } }

/-- What DRBG_GENERATE for core 0 makes of core 1. -/
theorem drbgGenerate_frees_second {t : State} (h : exec .drbgGenerate secondWaiter = .next t) :
    (core t 1).st = .run ∧ (core secondWaiter 1).st = .rand := by
  cases h
  decide +kernel

/-- Refutes O15: its clause on DRBG_GENERATE leaves every core but the asker as it was, and the draw that takes the generator to its limit of
65,536 requests is followed by a reseed, after which the cores that wait in place ask again (R307, R314). -/
theorem not_keysRandomPrograms : ¬ Obligations.KeysRandomPrograms := by
  intro h
  obtain ⟨-, -, hgenerate, -⟩ := h
  obtain ⟨t, d, ht, -, -, -, -, -, -, hcores⟩ := hgenerate secondWaiter ⟨0, 0, 16⟩ [] 0 0 [] rfl rfl rfl rfl rfl rfl rfl rfl (by decide) rfl
    (by decide +kernel) (by decide)
  obtain ⟨hafter, hbefore⟩ := drbgGenerate_frees_second ht
  rw [hcores 1 (by decide), hbefore] at hafter
  exact absurd hafter (by decide)

end Sys2Proof.Machine
end

section
/-!
PROOFS. O38 fails: a transition burns the first unused record, and nothing in the statement says that the records after it are unused.
-/

namespace Sys2Proof.Machine

/-- A BLANK device in STANDBY whose first record is unused and whose second holds the INTENT of PROVISION. The token of RETIRE is 32 zero bytes, and
the PF's region lets a request record be read at address 0. -/
def gapState : State :=
  { State.reset with
    pwr := { State.reset.pwr with main := true, mode := .standby }
    hif := { State.reset.hif with linkUp := true, fns := [(0, { Fn.pf with regions := [⟨0, 1, 0x4037⟩] })] }
    par := { State.reset.par with bound := true }
    lcy := { State.reset.lcy with
      recs := [⟨0, 0, 0⟩, ⟨otpIntent 0x11 0, 0, 0⟩] ++ List.replicate 14 ⟨0, 0, 0⟩
      tDig := List.replicate 9 (shake256 32 (zeroBytes 32)) } }

/-- A request record of RETIRE with that token, without challenge and approvals. -/
def retireRec : Bytes := leBytes 4 0x15 ++ leBytes 4 32 ++ zeroBytes 32

theorem retireRec_read : reqRead gapState 0x15 retireRec := by decide +kernel

theorem retireRec_passes : reqPasses gapState retire retireRec := by
  show _ ∧ _ ∧ _ ∧ _ ∧ _
  decide +kernel

/-- The state that RETIRE leaves: the records are read on to the next unused one. -/
theorem gapState_retired : (regWrote 0 (reqGo retire retireRec false gapState)).lcy.state = .provisioned := by decide +kernel

/-- Refutes O38: RETIRE writes record 0, and the state follows the last of the used records, which is then record 1 with PROVISION (R361). -/
theorem not_lifeCycleTransitions : ¬ Obligations.LifeCycleTransitions := by
  intro h
  obtain ⟨-, hdone⟩ := h
  obtain ⟨-, -, -, -, hretire⟩ := hdone gapState retireRec (by decide)
  obtain ⟨t, ht, ⟨-, hstate, -⟩, -⟩ := hretire retireRec_read retireRec_passes
  have hgone : regWrote 0 (reqGo retire retireRec false gapState) = t := Host.Outcome.next.inj ht
  rw [← hgone, gapState_retired] at hstate
  exact absurd hstate (by decide)

end Sys2Proof.Machine
end

section
/-!
PROOFS. O25 fails: a statement of every channel table speaks of tables whose numbers do not rise too. There the write of an idle channel's fetch
queue adds an entry, and the read that had the last tag finds none.
-/

namespace Sys2Proof.Machine

/-- A miss that waits to start, of key 2 of function 3. -/
def lastTagMiss : Miss := ⟨0, 3, 2, 1, 0, .wait, none, 0, 0, none, none, [], []⟩

/-- That miss on its channel 56, which is idle but for a beat asked for, and stands after channel 60 in the table. One tag is left: a ring of the
function has 766 fetches out. -/
def lastTag : State :=
  { State.reset with
    pwr := { State.reset.pwr with main := true, mode := .active }
    hif := { State.reset.hif with
      fns := [(3, { Fn.vf with dirSize := 8, regions := [⟨0, 1, 0x4037⟩], rings := [{ Ring.blank with inFlight := 766 }] })] }
    kst := { State.reset.kst with fetchRsv := true, misses := [lastTagMiss], lmks := [(3, { Lmk.blank with loaded := true })] }
    mov := { State.reset.mov with chans := [(60, { Chan.blank with tail := 1 }), (56, { Chan.blank with asked := true })] } }

theorem lastTag_starts :
    missTable lastTag < 1024 ∧ (lmkOf lastTag 3).loaded = true ∧ chanIdle lastTag (fetchOn lastTag 0) ∧ tagFree lastTag (fetchOn lastTag 0) = true ∧
    hostRefusal lastTag (keyChannel lastTag 0) 3 ((fnOf lastTag 3).dirBase + 16 * 2) 16 false = none ∧ fetchOn lastTag 0 = 56 := by decide +kernel

/-- KEY_MISS_START of a miss that waits, with room in the table, begins it. -/
theorem keyMissStart_waiting {s : State} {id : Nat} {m : Miss} (hm : missAt s id = some m) (hp : s.pwr.main = true) (hw : m.stage = .wait)
    (ht : missTable s < 1024) : exec (.keyMissStart id) s = .next (missBegin m s) := by
  simp [exec, execKeyMissStart, hm, hp, hw, ht]

/-- The start leaves the channel without a fetch. -/
theorem lastTag_waits : (chan (missBegin lastTagMiss lastTag) 56).hwMiss = none := by decide +kernel

/-- Refutes O25: its clause on KEY_MISS_START has the read of the directory entry sent, and the model has no tag for it. -/
theorem not_keyMisses : ¬ Obligations.KeyMisses := by
  intro h
  obtain ⟨hstart, -⟩ := h lastTag 0 lastTagMiss rfl rfl rfl
  obtain ⟨htable, hloaded, hidle, htag, hread, hon⟩ := lastTag_starts
  obtain ⟨t, ht, -, -, -, hchan, -⟩ := hstart rfl htable hloaded (by decide) hidle htag hread
  have hbegun : missBegin lastTagMiss lastTag = t := Host.Outcome.next.inj ((keyMissStart_waiting rfl rfl rfl htable).symm.trans ht)
  have hruns : (chan t 56).hwMiss = some 0 := by rw [← hon, hchan]
  rw [← hbegun, lastTag_waits] at hruns
  exact absurd hruns (by decide)

end Sys2Proof.Machine
end

section
/-!
PROOFS. O23, O32, O33: what a draw of random bits leaves of the device (R239, R240, R307, R309, R314).
-/

namespace Sys2Proof.Machine

/-! ### The release of a generator's waiters touches Slalom, passes, and cores that wait in place -/

/-- Only Slalom and the functions' passes may differ. -/
def passFrame (s t : State) : Prop :=
  t = { s with slm := t.slm, hif := { s.hif with fns := t.hif.fns } } ∧ ∀ g, fnOf t g = { fnOf s g with pass := (fnOf t g).pass }

theorem passFrame.refl (s : State) : passFrame s s := ⟨rfl, fun _ => rfl⟩
theorem passFrame.trans {s t u : State} (h : passFrame s t) (k : passFrame t u) : passFrame s u := by
  obtain ⟨h1, h2⟩ := h
  obtain ⟨k1, k2⟩ := k
  exact ⟨by rw [k1, h1], fun g => by rw [k2 g, h2 g]⟩

theorem modSlm_pass (g : Slm → Slm) (s : State) : passFrame s (modSlm g s) := ⟨rfl, fun _ => rfl⟩
theorem modTok_pass (i : Nat) (g : Token → Token) (s : State) : passFrame s (modTok i g s) := modSlm_pass _ s
theorem stampEntry_pass (i : Nat) (s : State) : passFrame s (stampEntry i s) := (modTok_pass _ _ s).trans (modSlm_pass _ _)
theorem liftDrop_pass (k : LiftKind) (s : State) : passFrame s (liftDrop k s) := modSlm_pass _ s

theorem raisePass_pass (i f c : Nat) (s : State) : passFrame s (raisePass i f c s) := by
  unfold raisePass
  split
  · split
    · refine ⟨rfl, fun g => ?_⟩
      rw [fnOf_modFn]
      split
      next h => rw [h]
      · rfl
    · exact .refl s
  · exact .refl s

theorem returnToken_pass (i : Nat) (s : State) : passFrame s (returnToken i s) := by
  have ht : passFrame s (takeClass i s) := by
    unfold takeClass
    split
    · exact modSlm_pass _ s
    · exact .refl s
  refine ht.trans ?_
  simp only [returnToken]
  split
  · exact (modTok_pass _ _ _).trans (stampEntry_pass _ _)
  · exact (raisePass_pass _ _ _ _).trans ((modTok_pass _ _ _).trans (stampEntry_pass _ _))

theorem admitRetries_pass (n : Nat) (s : State) : passFrame s (admitRetries n s) := by
  induction n generalizing s with
  | zero => exact .refl s
  | succ n ih =>
    unfold admitRetries
    split
    · exact .refl s
    · split
      · exact passFrame.trans ⟨rfl, fun _ => rfl⟩ (ih _)
      · exact .refl s

/-! ### A draw -/

/-- Only the generators, Slalom, the functions' passes and the states of cores that wait in place for random output may differ. -/
structure drawFrame (s t : State) : Prop where
  rest : t = { s with ent := t.ent, slm := t.slm, hif := { s.hif with fns := t.hif.fns }, cpu := { s.cpu with cores := t.cpu.cores } }
  fns : ∀ g, fnOf t g = { fnOf s g with pass := (fnOf t g).pass }
  cores : ∀ q, core t q = { core s q with st := (core t q).st }
  still : ∀ q, (core s q).st ≠ .rand → core t q = core s q

theorem drawFrame.refl (s : State) : drawFrame s s := ⟨rfl, fun _ => rfl, fun _ => rfl, fun _ _ => rfl⟩
theorem drawFrame.trans {s t u : State} (h : drawFrame s t) (k : drawFrame t u) : drawFrame s u where
  rest := by rw [k.rest, h.rest]
  fns g := by rw [k.fns g, h.fns g]
  cores q := by rw [k.cores q, h.cores q]
  still q hq := by rw [k.still q (by rwa [h.still q hq]), h.still q hq]

theorem passFrame.draw {s t : State} (h : passFrame s t) : drawFrame s t := by
  have hc : t.cpu = s.cpu := by rw [h.1]
  exact ⟨by rw [h.1], h.2, fun q => by simp [core, hc], fun q _ => by simp [core, hc]⟩

theorem modEnt_draw (g : Ent → Ent) (s : State) : drawFrame s (modEnt g s) := ⟨rfl, fun _ => rfl, fun _ => rfl, fun _ _ => rfl⟩

/-- A table read after a change of entries that keeps their keys. -/
theorem tget_map_keyed {α : Type} (d : α) (g : Nat × α → α) (t : Tab α) (k : Nat) :
    tget d (t.map fun e => (e.1, g e)) k = tget d t k ∨ tget d (t.map fun e => (e.1, g e)) k = g (k, tget d t k) := by
  induction t with
  | nil => exact .inl rfl
  | cons e t ih =>
    obtain ⟨k', v⟩ := e
    by_cases h : k' = k
    · exact .inr (by simp [tget, h])
    · simpa [tget, h] using ih

/-- A core of the table that waits in place for random output, and is picked, goes back to its instruction. -/
def wakeIf (pick : Nat × Core → Bool) (e : Nat × Core) : Core := if e.2.st = .rand ∧ pick e = true then { e.2 with st := .run } else e.2

theorem wakeIf_draw (pick : Nat × Core → Bool) (s : State) :
    drawFrame s (modCpu (fun c => { c with cores := c.cores.map fun e => (e.1, wakeIf pick e) }) s) := by
  have hmap : ∀ q, core (modCpu (fun c => { c with cores := c.cores.map fun e => (e.1, wakeIf pick e) }) s) q = core s q ∨
      core (modCpu (fun c => { c with cores := c.cores.map fun e => (e.1, wakeIf pick e) }) s) q = wakeIf pick (q, core s q) :=
    fun q => tget_map_keyed Core.blank (wakeIf pick) s.cpu.cores q
  refine ⟨rfl, fun _ => rfl, fun q => ?_, fun q hq => ?_⟩
  · rcases hmap q with h | h <;> rw [h]
    rw [wakeIf]
    split <;> rfl
  · rcases hmap q with h | h <;> rw [h]
    exact if_neg fun k => hq k.1

theorem entSignal_draw (i : Nat) (s : State) : drawFrame s (entSignal i s) := by
  have hfold : ∀ (l : List Nat) (s : State), passFrame s (l.foldl (fun s t => returnToken t (liftDrop (.ent t) s)) s) := by
    intro l
    induction l with
    | nil => exact fun s => .refl s
    | cons t l ih => exact fun s => ((liftDrop_pass _ s).trans (returnToken_pass t _)).trans (ih _)
  have hwake : ∀ (u : State) (r : List RandReq), drawFrame u (modCpu (fun c => { c with
      cores := c.cores.map fun e =>
        if e.2.st = .rand ∧ instOf e.2.func = i ∧ !(r.any fun r => decide (r.core = e.1)) then (e.1, { e.2 with st := .run }) else e }) u) := by
    intro u r
    convert wakeIf_draw (fun e => decide (instOf e.2.func = i) && !(r.any fun r => decide (r.core = e.1))) u using 5
    funext e
    simp only [wakeIf, Bool.and_eq_true, decide_eq_true_eq]
    split <;> rfl
  simp only [entSignal]
  exact ((hfold _ s).trans (admitRetries_pass _ _)).draw.trans (hwake _ _)

theorem modDrbg_draw (i : Nat) (g : Drbg → Drbg) (s : State) : drawFrame s (modDrbg i g s) := modEnt_draw _ s
theorem drbgSeed_draw (i : Nat) (b : Bytes) (s : State) : drawFrame s (drbgSeed i b s) := modDrbg_draw i _ s

theorem seedServe_draw (n : Nat) (s : State) : drawFrame s (seedServe n s) := by
  induction n generalizing s with
  | zero => exact .refl s
  | succ n ih =>
    unfold seedServe
    split
    next i q rest _ _ =>
      refine ((modEnt_draw (fun e => { e with queue := rest }) s).trans (drbgSeed_draw i q _)).trans (.trans ?_ (ih _))
      split
      · exact entSignal_draw _ _
      · exact .refl _
    · exact .refl s

/-- A draw from a generator that gives output: what one generate request gives, and no more than a draw may change. -/
theorem drbgDraw_live {i : Nat} {s : State} (n : Nat) (h : drbgLive s i = true) :
    ∃ t, drbgDraw i n s = some ((drbgGenerate ⟨(drbgOf s i).key, (drbgOf s i).v⟩ n []).1, t) ∧ drawFrame s t :=
  ⟨_, by simp only [drbgDraw, h]; rfl, (modDrbg_draw i _ s).trans (seedServe_draw 32 _)⟩

end Sys2Proof.Machine
end

section
/-!
PROOFS. O32, O33: the common program of a management command (R77, R346, R347, R351), and what its parts leave of the device.
-/

namespace Sys2Proof.Machine

/-! ### The input of a command -/

theorem padTo_of_length {b : Bytes} {n : Nat} (h : b.length = n) : padTo n b = b := slice_full b n h

/-- The approvals that follow a body are the ones put there (R347). -/
theorem apprList_append (body : Bytes) {as : List Bytes} (h : ∀ a ∈ as, a.length = 29856) :
    apprList (body ++ joinBytes as) body.length as.length = as := by
  rw [apprList]
  refine List.ext_getElem (by simp) fun i h1 h2 => ?_
  rw [List.getElem_map, List.getElem_range, ← slice_joinBytes 29856 as h i h2, slice, slice, ← List.drop_drop, List.drop_left]

theorem chalUse_fields (as : List Bytes) (s : State) : chalUse as s = { s with lcy := (chalUse as s).lcy } := by
  cases as <;> rfl

theorem chalUse_lcy {s t : State} (as : List Bytes) (h : t.lcy = s.lcy) : (chalUse as t).lcy = slotUsed s as := by
  cases as with
  | nil => exact h
  | cons a l => simp only [slotUsed, chalUse, modLcy_lcy, h]

/-- The core as a command that has been resolved leaves it, with what has been sent out. -/
def mgmtBegun (p : Nat) (s : State) (o : List Out) : State := { modCore p kresDone s with out := o }

/-- A command whose approvals are good comes to its own work. `hc` says that what the command asks for does not depend on the core. -/
theorem mgmtGo_approved {c : MgmtCmd} {s : State} {p : Nat} {d body input : Bytes} {as : List Bytes} (hs : mgmtStarts c s p d body as input)
    (ha : approval c s p d body as = 0) (hc : ∀ b, c.signers (modCore p kresDone s) b = c.signers s b)
    (hp : c.param (modCore p kresDone s) d = c.param s d) :
    ∃ o, mgmtGo c p input 0 s = mgmtRun c ⟨p, d, body, as.map apOfficer⟩ 0 (mgmtBegun p s o) (chalUse as (mgmtBegun p s o)) := by
  obtain ⟨⟨hready, -, hserial, hstall, -, hkstat, hd, hstatic, hpane, hbuf, hlen, hok, hout, hhalt, -, -⟩, rfl, hcount, hforms⟩ := hs
  rw [← hcount] at hbuf
  have hjoin : (joinBytes as).length = 29856 * as.length := length_joinBytes 29856 as hforms
  have hinput : padTo (bufLen (core s p).inList) (body ++ joinBytes as) = body ++ joinBytes as :=
    padTo_of_length (by rw [List.length_append, hjoin, hbuf])
  have htake : (body ++ joinBytes as).take ((body ++ joinBytes as).length - 29856 * as.length) = body := by
    rw [List.length_append, hjoin, Nat.add_sub_cancel, List.take_left]
  have hbody : mgmtBody c d (body ++ joinBytes as) (modCore p kresDone s) = 0 := by
    have hmin : ¬ body.length < c.bodyLen.getD 0 := by
      cases hk : c.bodyLen with
      | none => simp
      | some k => simp only [hk, Option.all_some, decide_eq_true_eq] at hlen; simp [hlen]
    have hany : c.bodyLen.any (fun k => decide (body.length ≠ k)) = false := by
      cases hk : c.bodyLen with
      | none => rfl
      | some k => simp only [hk, Option.all_some, decide_eq_true_eq] at hlen; simp [hlen]
    simp only [mgmtBody, hc, ← hcount, List.length_append, hjoin, Nat.add_sub_cancel, List.take_left, hany]
    rw [if_neg (by omega), if_neg (by simp [hok]), if_neg (by omega)]
  obtain ⟨o, hread⟩ := payRead_clear (s := modCore p kresDone s) (p := p) (by
    rw [core_modCore_same]
    exact hpane)
  have hstatic' : mgmtStatic c d (modCore p kresDone s) = 0 := by
    rw [← hstatic]
    simp only [mgmtStatic, hp]
    rfl
  have happr : apprCheck (modCore p kresDone s) (cmdDigest d body) (c.signers s body) as
      (slotCheck (modCore p kresDone s) (acceptTick (modCore p kresDone s) p)) = 0 := by
    rw [← ha]
    have ht : acceptTick (modCore p kresDone s) p = acceptTick s p := by
      simp only [acceptTick, core_modCore_same]
      rfl
    rw [ht]
    rfl
  refine ⟨o, ?_⟩
  simp only [mgmtGo, hready, hserial, hstall, hhalt, hkstat, ← hd, hstatic', hread, hc, hinput, ← hcount, htake, hbody,
    apprList_append body hforms, happr]
  rfl

/-! ### What a command works on -/

/-- The state in which the work of a management command stands before its effects: its approvals' slot is used, its core has resolved, and random
bits may have been drawn. -/
structure mgmtWork (p : Nat) (as : List Bytes) (s u : State) : Prop where
  rest : u = { s with
    ent := u.ent, slm := u.slm, hif := { s.hif with fns := u.hif.fns }, cpu := { s.cpu with cores := u.cpu.cores }, lcy := slotUsed s as, out := u.out }
  fns : ∀ g, fnOf u g = { fnOf s g with pass := (fnOf u g).pass }
  self : core u p = kresDone (core s p)
  mem : ∀ q, (core u q).mem = (core s q).mem

section
variable {p : Nat} {as : List Bytes} {s u v : State}

theorem mgmtWork.kst (h : mgmtWork p as s u) : u.kst = s.kst := by rw [h.rest]
theorem mgmtWork.aud (h : mgmtWork p as s u) : u.aud = s.aud := by rw [h.rest]
theorem mgmtWork.time (h : mgmtWork p as s u) : u.time = s.time := by rw [h.rest]
theorem mgmtWork.pwr (h : mgmtWork p as s u) : u.pwr = s.pwr := by rw [h.rest]
theorem mgmtWork.lanes (h : mgmtWork p as s u) : u.lanes = s.lanes := by rw [h.rest]
theorem mgmtWork.mov (h : mgmtWork p as s u) : u.mov = s.mov := by rw [h.rest]
theorem mgmtWork.phl (h : mgmtWork p as s u) : u.phl = s.phl := by rw [h.rest]
theorem mgmtWork.tmp (h : mgmtWork p as s u) : u.tmp = s.tmp := by rw [h.rest]
theorem mgmtWork.dbg (h : mgmtWork p as s u) : u.dbg = s.dbg := by rw [h.rest]
theorem mgmtWork.lcy (h : mgmtWork p as s u) : u.lcy = slotUsed s as := by rw [h.rest]
theorem mgmtWork.scratch (h : mgmtWork p as s u) : u.cpu.scratch = s.cpu.scratch := by rw [h.rest]

/-- The work begins there. -/
theorem mgmtBegun_work (p : Nat) (as : List Bytes) (s : State) (o : List Out) : mgmtWork p as s (chalUse as (mgmtBegun p s o)) := by
  have hcpu : (chalUse as (mgmtBegun p s o)).cpu = (modCore p kresDone s).cpu := by rw [chalUse_fields]; rfl
  have hlcy : (chalUse as (mgmtBegun p s o)).lcy = slotUsed s as := chalUse_lcy as rfl
  have hcore : ∀ q, core (chalUse as (mgmtBegun p s o)) q = core (modCore p kresDone s) q := fun q => by simp only [core, hcpu]
  refine ⟨?_, fun g => by rw [chalUse_fields]; rfl, (hcore p).trans (core_modCore_same p kresDone s), fun q => ?_⟩
  · rw [chalUse_fields, hlcy]
    rfl
  · rw [hcore]
    by_cases hq : q = p
    · rw [hq, core_modCore_same]
      rfl
    · rw [core_modCore_ne _ _ hq]

/-- A draw keeps the work's state, as its core runs. -/
theorem mgmtWork.draw (h : mgmtWork p as s u) (hr : (core s p).st = .run) (k : drawFrame u v) : mgmtWork p as s v where
  rest := by rw [k.rest, h.rest]
  fns g := by rw [k.fns g, h.fns g]
  self := by
    rw [k.still p ?_, h.self]
    rw [h.self]
    intro hc
    exact absurd (hr.symm.trans hc) (by decide)
  mem q := by rw [k.cores q, h.mem q]

/-! ### Ends -/

theorem core_payEnd_same (p st len units : Nat) (s : State) :
    core (payEnd p st len units s) p = { core s p with st := .release st len, units := units, pc := (core s p).askPc } :=
  core_modCore_same _ _ _

theorem payEnd_mem (p st len units q : Nat) (s : State) : (core (payEnd p st len units s) q).mem = (core s q).mem := by
  by_cases h : q = p
  · rw [h, core_payEnd_same]
  · rw [payEnd, core_modCore_ne _ _ h]

theorem outputWritten_nil (s : State) (p : Nat) (t : State) : outputWritten s p [] t := by
  intro a n _ _ o ho
  simp [writesOf, beatsOf, hostBeats] at ho

/-- What the effects of a command leave of the device, whatever they are: the memories and the link, where its core goes, and what was sent. -/
structure effectFrame (p : Nat) (u v : State) : Prop where
  phl : v.phl = u.phl
  lcy : v.lcy = u.lcy
  scratch : v.cpu.scratch = u.cpu.scratch
  shared : v.mov.shared = u.mov.shared
  mem : ∀ q, (core v q).mem = (core u q).mem
  askPc : (core v p).askPc = (core u p).askPc
  out : outGrows u v

theorem effectFrame.refl (p : Nat) (u : State) : effectFrame p u u := ⟨rfl, rfl, rfl, rfl, fun _ => rfl, rfl, .refl u⟩
theorem effectFrame.trans {w : State} (h : effectFrame p u v) (k : effectFrame p v w) : effectFrame p u w :=
  ⟨k.phl.trans h.phl, k.lcy.trans h.lcy, k.scratch.trans h.scratch, k.shared.trans h.shared, fun q => (k.mem q).trans (h.mem q),
    k.askPc.trans h.askPc, h.out.trans k.out⟩

/-- The end of a command after its effects. -/
theorem payEnd_mgmtEnded (h : mgmtWork p as s u) {out : Bytes} (hw : outputWritten s p out u) (k : effectFrame p u v) (st : Nat) :
    mgmtEnded s p st out (payEnd p st out.length 1 v) := by
  have hpc : (core v p).askPc = (core s p).askPc := by
    rw [k.askPc, h.self]
    rfl
  refine ⟨by rw [core_payEnd_same], by rw [core_payEnd_same], by rw [core_payEnd_same, ← hpc], fun a n hl hc o ho => ?_, ⟨?_, ?_, ?_⟩, fun q => ?_,
    k.phl.trans h.phl⟩
  · exact k.out.subset (hw a n hl hc o ho)
  · rw [payEnd_mem, k.mem, h.mem]
  · exact k.scratch.trans h.scratch
  · exact k.shared.trans (by rw [h.mov])
  · rw [payEnd_mem, k.mem, h.mem]

/-- A command that ends with a status before its effects. -/
theorem payEnd_mgmtFails (h : mgmtWork p as s u) (st : Nat) : mgmtFails s p st (slotUsed s as) (payEnd p st 0 1 u) :=
  ⟨⟨payEnd_mgmtEnded h (outputWritten_nil s p u) (.refl p u) st, h.lanes, h.mov⟩, h.lcy, h.kst, h.tmp⟩

/-! ### The work's outcome -/

/-- No two runs of an ML-KEM operation differ where no fault is injected and a lane serves it. -/
theorem mgmtKem_clear {c : MgmtCmd} {d body input : Bytes} (hs : mgmtStarts c s p d body as input) (h : mgmtWork p as s u) :
    mgmtKem c.op p 0 u = none := by
  obtain ⟨⟨-, -, -, -, -, -, -, -, -, -, -, -, -, -, hinj, hlane⟩, -⟩ := hs
  unfold mgmtKem
  cases hk : kemOps.contains c.op with
  | false => rfl
  | true =>
    obtain ⟨n, hn⟩ := Option.isSome_iff_exists.1 (hlane hk)
    have hu : laneTaker u 28 = some n := by
      rw [← hn, h.rest]
      rfl
    have hi : injTake 0x0B n u = (none, u) := by simp [injTake, h.dbg, hinj]
    simp only [hu, hi]
    rfl

theorem mgmtRun_fail {c : MgmtCmd} {e : MgmtEnv} {st : Nat} (hr : c.run e u = .fail st v) (hk : mgmtKem c.op e.core 0 u = none) (w : State) :
    mgmtRun c e 0 w u = payEnd e.core st 0 1 v := by
  simp only [mgmtRun, hr, hk]

theorem bufPieces_single (a n k : Nat) (hk : k ≠ 0) (h : k ≤ n) : bufPieces [(a, n)] 0 k = [(a, k)] := by
  have hn : ¬ n ≤ 0 := by omega
  simp [bufPieces, hk, hn, Nat.min_eq_left h]

/-- The work's host writes are those of the state before it. -/
theorem mgmtWork.writesOf (h : mgmtWork p as s u) (f a : Nat) (d : Bytes) (r : Bool) : Machine.writesOf u f a d r = Machine.writesOf s f a d r := by
  have hrel : (fnOf u f).relaxed = (fnOf s f).relaxed := by rw [h.fns f]
  have hreg : (fnOf u f).regions = (fnOf s f).regions := by rw [h.fns f]
  have hmps : u.hif.mps = s.hif.mps := by rw [h.rest]
  simp only [Machine.writesOf, writeLim, relaxedAt, noSnoopAt, hrel, hreg, hmps]

/-- An output that its buffer holds and the pane lets through is written. -/
theorem payWrite_output (h : mgmtWork p as s u) {b : Bytes} (hb : b = [] ∨ outputFits s p b) :
    ∃ w, payWrite p 0 b u = (0, w) ∧ mgmtWork p as s w ∧ outputWritten s p b w := by
  by_cases he : b = []
  · subst he
    exact ⟨u, rfl, h, outputWritten_nil s p u⟩
  obtain ⟨hlen, hpane⟩ := hb.resolve_left he
  have hpane' : payRefusal u p true (bufPieces (core u p).outList 0 b.length) = none := by
    have hc : checker u p = checker s p := by simp only [checker, h.mov]
    have ht : timeField u = timeField s := by simp only [timeField, tick, h.time]
    rw [← hpane, h.self]
    simp only [payRefusal, hc, ht]
    rfl
  refine ⟨outWrite p 0 b u, by simp [payWrite, he, hpane'], ?_, fun a n hl hc o ho => ?_⟩
  · have ho := outWrite_out p 0 b u
    exact ⟨by rw [ho, h.rest], fun g => by rw [ho]; exact h.fns g, by rw [ho]; exact h.self, fun q => by rw [ho]; exact h.mem q⟩
  · have hl' : (core u p).outList = [(a, n)] := by rw [h.self]; exact hl
    have hc' : (core u p).closed = false := by rw [h.self]; exact hc
    have hf' : (core u p).func = (core s p).func := by rw [h.self]; rfl
    have hn : b.length ≤ n := by simpa [hl, bufLen] using hlen
    have h0 : b.length ≠ 0 := by simpa using he
    simp only [outWrite, hl', hc', bufPieces_single a n b.length h0 hn, List.foldl_cons, List.foldl_nil, slice_full b b.length rfl, hf', h.writesOf]
    exact List.mem_append_right _ ho

/-- A command without output makes its effects. -/
theorem mgmtRun_silent {c : MgmtCmd} {e : MgmtEnv} {commit : State → State} (hr : c.run e u = .done [] commit v)
    (hk : mgmtKem c.op e.core 0 u = none) (w : State) : mgmtRun c e 0 w u = payEnd e.core 0 0 1 (commit v) := by
  simp [mgmtRun, hr, hk, payWrite]

/-- A command whose work is done writes its output, and then its effects are made. -/
theorem mgmtRun_done {c : MgmtCmd} {e : MgmtEnv} {b : Bytes} {commit : State → State} (hr : c.run e u = .done b commit v)
    (hk : mgmtKem c.op e.core 0 u = none) (h : mgmtWork e.core as s v) (hb : b = [] ∨ outputFits s e.core b) (w : State) :
    ∃ x, mgmtRun c e 0 w u = payEnd e.core 0 b.length 1 (commit x) ∧ mgmtWork e.core as s x ∧ outputWritten s e.core b x := by
  obtain ⟨x, hx, hwork, hout⟩ := payWrite_output h hb
  refine ⟨x, ?_, hwork, hout⟩
  have hlen : ¬ bufLen (core v e.core).outList < b.length := by
    rcases hb with rfl | hb
    · simp
    · rw [h.self]
      exact Nat.not_lt.2 hb.1
  simp only [mgmtRun, hr, hk, if_neg hlen, hx]

end

end Sys2Proof.Machine
end

section
/-!
PROOFS. O32, O33: the records that commands write, where the recorder takes them at once (R377-R383), and what writing one leaves of the device.
-/

namespace Sys2Proof.Machine

/-! ### A record's fields -/

theorem recBytes_fields (seq code flags delta fn : Nat) (body : Bytes) :
    leAt (recBytes seq code flags delta fn body) 4 2 = code % 65536 ∧ leAt (recBytes seq code flags delta fn body) 12 2 = fn % 65536 ∧
    slice (recBytes seq code flags delta fn body) 16 40 = padTo 40 body := by
  simp only [recBytes, List.append_assoc]
  generalize (crc32c _).toNat = crc
  have hfn := leAt_at (leBytes 4 seq ++ (leBytes 2 code ++ (leBytes 1 flags ++ ([0] ++ leBytes 4 delta))))
    ([0, 0] ++ (padTo 40 body ++ leBytes 4 crc)) 12 2 fn (by simp [length_leBytes])
  have hbody := slice_at (leBytes 4 seq ++ (leBytes 2 code ++ (leBytes 1 flags ++ ([0] ++ (leBytes 4 delta ++ (leBytes 2 fn ++ [0, 0]))))))
    (padTo 40 body) (leBytes 4 crc) 16 40 (by simp [length_leBytes]) (length_slice _ _ _)
  simp only [List.append_assoc] at hfn hbody
  exact ⟨leAt_at _ _ 4 2 code (length_leBytes 4 seq), hfn, hbody⟩

/-! ### A record that the recorder takes -/

/-- One record of this code, function and body was appended, and the recorder stands ready again. -/
structure recTaken (code fn : Nat) (body : Bytes) (s t : State) : Prop where
  next : t.aud.next = s.aud.next + 1
  held : ∃ h, t.aud.held = s.aud.held ++ [h] ∧ h.seq = s.aud.next ∧ leAt h.bytes 4 2 = code ∧ leAt h.bytes 12 2 = fn % 65536 ∧
    slice h.bytes 16 40 = padTo 40 body
  shutter : t.aud.shutter = none
  staging : t.aud.staging = []
  buf : t.aud.buf = s.aud.buf
  anchorDue : t.aud.anchorDue = false
  lastTime : appendTime s ≤ t.aud.lastTime

section
variable {s t u : State} {code fn : Nat} {body : Bytes}

theorem recTaken.appended (h : recTaken code fn body s t) : Machine.appended s t code fn body := by
  obtain ⟨x, hx, hseq, hcode, hfn, hbody⟩ := h.held
  exact ⟨h.next, x, hx ▸ List.mem_append_right _ (List.mem_singleton_self x), hseq, hcode, hfn, hbody⟩

/-- The first of two records, and the second. -/
theorem recTaken.recorded_both {code' fn' : Nat} {body' : Bytes} (h : recTaken code fn body s t) (k : recTaken code' fn' body' t u) :
    recorded s u 0 code fn body ∧ recorded s u 1 code' fn' body' := by
  obtain ⟨x, hx, hseq, hrec⟩ := h.held
  obtain ⟨y, hy, kseq, krec⟩ := k.held
  refine ⟨⟨x, ?_, hseq, hrec⟩, y, ?_, kseq.trans h.next, krec⟩
  · rw [hy, hx]
    simp
  · rw [hy]
    simp

/-- What the recorder's fields say of a state holds of any other with the same. -/
theorem recTaken.of_aud (h : recTaken code fn body s t) (k : ∃ x, u.aud = { t.aud with headSent := x }) : recTaken code fn body s u := by
  obtain ⟨x, hx⟩ := k
  constructor <;> rw [hx]
  exacts [h.next, h.held, h.shutter, h.staging, h.buf, h.anchorDue, h.lastTime]

theorem appendTime_congr (h : t.time = s.time) : appendTime t = appendTime s := by
  unfold appendTime tick
  rw [h]

theorem logTakes_congr (ha : t.aud = s.aud) (ht : t.time = s.time) (hp : t.pwr = s.pwr) (h : logTakes s) : logTakes t := by
  have hblocked : recBlocked t = recBlocked s := by simp only [recBlocked, logReady, ha, hp]
  have hanchor : anchorNeeded t = anchorNeeded s := by simp only [anchorNeeded, appendTime_congr ht, ha]
  have hused : logUsed t = logUsed s := by simp only [logUsed, ha]
  rw [logTakes, hblocked, hanchor, hused, ha]
  exact h

/-- The record that is given its SEQ. -/
def recMade (code flags fn : Nat) (body : Bytes) (s : State) : HeldRec :=
  let t := if s.aud.anchorDue && s.time.dev.isNone then appendTime s else max s.aud.lastTime (appendTime s)
  let b := recBytes s.aud.next code flags
    (if s.aud.anchorDue && s.time.dev.isNone then 0 else min 0xFFFFFFFF (t - s.aud.lastTime)) fn body
  ⟨s.aud.next, b, chainNext s.aud.chain b, t⟩

theorem recAssign_aud (hs : s.aud.shutter = none) (hg : s.aud.staging = []) (fl : Nat) :
    ∃ m, (recAssign code fl fn body s).aud = { s.aud with
      next := s.aud.next + 1
      chain := (recMade code fl fn body s).chain
      lastTime := (recMade code fl fn body s).time
      anchorDue := false
      held := s.aud.held ++ [recMade code fl fn body s]
      mram := m } := by
  refine ⟨mramBody s.aud.mram (recMade code fl fn body s).seq (recMade code fl fn body s).bytes, ?_⟩
  simp only [recAssign, modAud_aud, hs, hg]
  rfl

theorem recAppend_taken (hc : code < 65536) (h : logTakes s) (fl : Nat) : recTaken code fn body s (recAppend code fl fn body s) := by
  obtain ⟨hblocked, hanchor, hshutter, hstaging, -⟩ := h
  obtain ⟨m, haud⟩ := recAssign_aud (code := code) (fn := fn) (body := body) hshutter hstaging fl
  have happ : recAppend code fl fn body s = recAssign code fl fn body s := by simp [recAppend, hblocked, hanchor]
  obtain ⟨hcode, hfn, hbody⟩ := recBytes_fields s.aud.next code fl _ fn body
  have htime : appendTime s ≤ (recMade code fl fn body s).time := by
    simp only [recMade]
    split
    · exact Nat.le_refl _
    · exact Nat.le_max_right _ _
  rw [happ]
  constructor <;> rw [haud]
  exacts [⟨_, rfl, rfl, hcode.trans (Nat.mod_eq_of_lt hc), hfn, hbody⟩, hshutter, hstaging, htime]

/-- Below the thresholds no record of theirs is due (R383, R384). -/
theorem logWarn_below (h : logUsed s < 458752) : logWarn s = s := by
  rw [logWarn, if_neg]
  simp
  omega

theorem logFullSay_below (h : logUsed s < 458752) : logFullSay s = s := by
  rw [logFullSay, if_neg]
  simp [logFull]
  omega

theorem recTaken.logUsed (h : recTaken code fn body s t) : Machine.logUsed t = Machine.logUsed s + 1 := by
  simp only [Machine.logUsed, h.next, h.buf]
  omega

/-- After a record there may be a second, where the recorder takes two. -/
theorem recTaken.logTakes (h : recTaken code fn body s t) (ht : t.time = s.time) (hp : t.pwr = s.pwr) (k : logTakesTwo s) : Machine.logTakes t := by
  obtain ⟨⟨hblocked, -, -, -, -⟩, hused, hmod⟩ := k
  refine ⟨?_, ?_, h.shutter, h.staging, by rw [h.logUsed]; omega⟩
  · have hnext : s.aud.next ≤ Machine.logUsed s := Nat.le_add_right _ _
    simp only [recBlocked, logReady, hp, h.shutter, h.next, Option.isSome_none, Bool.false_and, Bool.or_false, Bool.or_eq_false_iff,
      decide_eq_false_iff_not] at hblocked ⊢
    exact ⟨hblocked.1.1, by omega⟩
  · have htime := appendTime_congr ht
    have hlast := h.lastTime
    simp only [anchorNeeded, h.anchorDue, h.next, htime, Bool.false_or, Bool.or_eq_false_iff, decide_eq_false_iff_not]
    exact ⟨hmod, by omega⟩

end

/-! ### What writing a record leaves of the device -/

/-- Only the recorder, the lock words, the partner's stream, the MCTP queue, Slalom's tokens, pending vectors and what is sent out differ. -/
def noteFrame (s t : State) : Prop :=
  t = { s with aud := t.aud, tmp := t.tmp, par := t.par, i3c := t.i3c, slm := t.slm, hif := { s.hif with fns := t.hif.fns }, out := t.out } ∧
  outGrows s t

section
variable {s t : State}

theorem noteFrame.refl (s : State) : noteFrame s s := ⟨rfl, .refl s⟩
theorem noteFrame.trans {u : State} (h : noteFrame s t) (k : noteFrame t u) : noteFrame s u := by
  obtain ⟨h1, h2⟩ := h
  obtain ⟨k1, k2⟩ := k
  exact ⟨by rw [k1, h1], h2.trans k2⟩

theorem noteFrame_of_report (h : reportFrame s t) (k : outGrows s t) : noteFrame s t := ⟨by rw [h.1], k⟩

theorem noteFrame.kst (h : noteFrame s t) : t.kst = s.kst := by rw [h.1]
theorem noteFrame.mov (h : noteFrame s t) : t.mov = s.mov := by rw [h.1]
theorem noteFrame.lanes (h : noteFrame s t) : t.lanes = s.lanes := by rw [h.1]
theorem noteFrame.cpu (h : noteFrame s t) : t.cpu = s.cpu := by rw [h.1]
theorem noteFrame.time (h : noteFrame s t) : t.time = s.time := by rw [h.1]
theorem noteFrame.pwr (h : noteFrame s t) : t.pwr = s.pwr := by rw [h.1]

theorem noteFrame.effect (h : noteFrame s t) (p : Nat) : effectFrame p s t := by
  have hcore : ∀ q, core t q = core s q := fun q => by simp only [core, h.cpu]
  exact ⟨by rw [h.1], by rw [h.1], by rw [h.cpu], by rw [h.mov], fun q => by rw [hcore], by rw [hcore], h.2⟩

theorem modTok_note (i : Nat) (g : Token → Token) (s : State) : noteFrame s (modTok i g s) := ⟨rfl, .refl s⟩
theorem mirrorSend_note (ty l : Nat) (b : Bytes) (s : State) : noteFrame s (mirrorSend ty l b s) :=
  ⟨by rw [mirrorSend_par], outGrows_of_eq (by rw [mirrorSend_par])⟩
theorem recAppend_note (c fl fn : Nat) (b : Bytes) (s : State) : noteFrame s (recAppend c fl fn b s) :=
  noteFrame_of_report (recAppend_report _ _ _ _ _) (outGrows_of_eq (recAppend_out _ _ _ _ _))

theorem thresholds_note (s : State) : noteFrame s (logFullSay (logWarn s)) := by
  have hout : outGrows s (logFullSay (logWarn s)) := by
    have hwarn : outGrows s (logWarn s) := by
      unfold logWarn
      split
      · exact (outGrows_of_eq (t := recAppend _ _ _ _ (modAud _ s)) (recAppend_out _ _ _ _ _)).trans
          ((fireMsix_outGrows _ _ _).trans (healthReport_outGrows _ _ _))
      · exact .refl s
    refine hwarn.trans ?_
    unfold logFullSay
    split
    · exact (outGrows_of_eq (t := recAppend _ _ _ _ (modAud _ (logWarn s))) (recAppend_out _ _ _ _ _)).trans (healthReport_outGrows _ _ _)
    · exact .refl _
  exact noteFrame_of_report ((logWarn_report s).trans (logFullSay_report _)) hout

theorem stateMirror_note (f : Nat) (ref eff rec_ : Bytes) (s : State) : noteFrame s (stateMirror f ref eff rec_ s) := mirrorSend_note _ _ _ s

theorem commandState_note (tk : Nat) (eff rec_ : Bytes) (s : State) : noteFrame s (commandState tk eff rec_ s) :=
  (stateMirror_note _ _ _ _ s).trans (modTok_note _ _ _)

theorem commandRecord_note (tk code f : Nat) (body eff : Bytes) (s : State) : noteFrame s (commandRecord tk code f body eff s) :=
  (recAppend_note code 0 f body s).trans ((modTok_note tk _ _).trans ((thresholds_note _).trans (commandState_note _ _ _ _)))

theorem payRecord_note (p code f : Nat) (body eff : Bytes) (s : State) : noteFrame s (payRecord p code f body eff s) := by
  unfold payRecord
  split
  · exact commandRecord_note _ _ _ _ _ s
  · exact (recAppend_note code 0 f body s).trans ((thresholds_note _).trans (stateMirror_note _ _ _ _ _))

theorem payState_note (p : Nat) (eff : Bytes) (s : State) : noteFrame s (payState p eff s) := by
  unfold payState
  split
  · exact commandState_note _ _ _ s
  · exact stateMirror_note _ _ _ _ s

theorem auditU_note (c fl fn : Nat) (b : Bytes) (s : State) : noteFrame s (auditU c fl fn b s) :=
  noteFrame_of_report (auditU_report _ _ _ _ _) (auditU_outGrows _ _ _ _ _)

/-! ### The record that a command writes -/

theorem mirrorSend_aud (ty l : Nat) (b : Bytes) (s : State) : (mirrorSend ty l b s).aud = s.aud := by rw [mirrorSend_par]
theorem stateMirror_aud (f : Nat) (ref eff rec_ : Bytes) (s : State) : (stateMirror f ref eff rec_ s).aud = s.aud := mirrorSend_aud _ _ _ s

theorem thresholds_below {n : Nat} (h : logUsed s = n) (hn : n < 458752) : logFullSay (logWarn s) = s := by
  rw [logWarn_below (h ▸ hn), logFullSay_below (h ▸ hn)]

theorem payRecord_taken {p code f : Nat} {body eff : Bytes} (hc : code < 65536) (h : logTakes s) :
    recTaken code f body s (payRecord p code f body eff s) := by
  have htake := recAppend_taken (fn := f) (body := body) hc h 0
  obtain ⟨-, -, -, -, hused⟩ := h
  refine htake.of_aud ⟨(recAppend code 0 f body s).aud.headSent, ?_⟩
  unfold payRecord
  split
  next i _ =>
    have hlog : ∀ g, logUsed (modTok i g (recAppend code 0 f body s)) = logUsed s + 1 := fun _ => htake.logUsed
    simp only [commandRecord, commandState]
    rw [thresholds_below (hlog _) hused]
    exact stateMirror_aud _ _ _ _ _
  · simp only [thresholds_below htake.logUsed hused]
    exact stateMirror_aud _ _ _ _ _

theorem auditU_taken {code fl f : Nat} {body : Bytes} (hc : code < 65536) (h : logTakes s) : recTaken code f body s (auditU code fl f body s) := by
  have htake := recAppend_taken (fn := f) (body := body) hc h fl
  obtain ⟨-, -, -, -, hused⟩ := h
  refine htake.of_aud ?_
  rw [auditU, thresholds_below htake.logUsed hused, headMirror]
  split
  · exact ⟨_, mirrorSend_aud _ _ _ _⟩
  · exact ⟨_, rfl⟩

end

end Sys2Proof.Machine
end

section
/-!
PROOFS. O33 fails: nothing in it keeps the store indices apart. BUDGET_RELEASE lets go of the entry that drew on the released slot by its index, and
the first entry at that index, which drew on another slot, gives its uses back there.
-/

namespace Sys2Proof.Machine

/-- Seeds of two officers' signing keys. -/
def officerSeed (n : Nat) : Bytes := List.replicate 96 (BitVec.ofNat 8 n)

/-- A custody officer whose approvals verify under this seed's key. -/
def custodian (n : Nat) : Officer := ⟨1, 1, 0, zeroBytes 16, slhPk slh256s (officerSeed n)⟩

/-- The descriptor of a BUDGET_RELEASE. -/
def releaseDesc : Bytes := leBytes 2 0x3112 ++ zeroBytes 62

/-- A key of function 3 that draws on a ledger slot, with this chunk. -/
def drawingKey (slot chunk : Nat) : KEnt := { newKey 3 2 0 0 1 0x3050 'N'.toNat 'E'.toNat 0x3030 0xFFFFFFFF 0 false 0 (zeroBytes 16) [] with
  ledger := some slot, chunk := chunk }

/-- A deployed device with custody officers 0 and 1 and challenge slot 0 live. Its store holds two entries at index 5, of which the first draws on
ledger slot 5 with 3 uses of its chunk left, and the second on slot 7. Core 0 runs a BUDGET_RELEASE. -/
def drawnTwice : State :=
  { State.reset with
    pwr := { State.reset.pwr with main := true, mode := .active }
    lcy := { State.reset.lcy with
      state := .deployed
      officers := [custodian 0, custodian 1]
      chals := [⟨1, zeroBytes 32, 0⟩] }
    mov := { State.reset.mov with
      checkers := [(0, { Checker.blank with paneA := { Checker.blank.paneA with regions := [⟨0, 64, 0x4037⟩] } })] }
    kst := { State.reset.kst with
      keys := [(5, drawingKey 5 3), (5, drawingKey 7 0)]
      ledger := [(5, ⟨3, [], 10, 0⟩), (7, ⟨3, [1], 10, 0⟩)] }
    cpu := { State.reset.cpu with
      cores := [(0, { Core.blank with st := .run, tok := some 0, mem := mwrite [] 0xFF00 releaseDesc, inList := [(0, 59712)] })] } }

/-- The approvals of officers 0 and 1. -/
def releaseAppr : List Bytes :=
  [(Signer.custody none, 0, officerSeed 0), (Signer.custody none, 1, officerSeed 1)].map fun x =>
    goodAppr drawnTwice.lcy.ident 0 (zeroBytes 32) (cmdDigest releaseDesc []) x.2.1 x.2.2

theorem drawnTwice_starts : mgmtStarts (budgetRelease [7]) drawnTwice 0 releaseDesc [] releaseAppr ([] ++ joinBytes releaseAppr) := by
  refine ⟨by decide +kernel, rfl, rfl, fun a ha => ?_⟩
  obtain ⟨x, -, rfl⟩ := List.mem_map.1 ha
  exact goodAppr_length _ _ _ _ _ _ (length_shake256 _)

theorem drawnTwice_approved : approval (budgetRelease [7]) drawnTwice 0 releaseDesc [] releaseAppr = 0 := by
  refine apprCheck_good drawnTwice _ [(.custody none, 0, officerSeed 0), (.custody none, 1, officerSeed 1)] 0 (zeroBytes 32) _ (length_shake256 _)
    (by decide) ?_ (by decide) (by decide +kernel)
  simp only [List.forall_mem_cons, List.not_mem_nil, false_implies, implies_true, and_true]
  exact ⟨⟨by decide, rfl⟩, by decide, rfl⟩

/-- Letting go of slot 7 gives the 3 uses back to slot 5, whatever the state of the life cycle and what was sent out. -/
theorem drawnTwice_returns (l : Lcy) (o : List Out) :
    (ledgerDrop 7 { modCore 0 kresDone drawnTwice with lcy := l, out := o }).kst.ledger = [(5, ⟨3, [], 13, 0⟩)] := rfl

/-- What BUDGET_RELEASE makes of the key store (R146). -/
theorem budgetRelease_kst {s : State} {p : Nat} {slots : List Nat} {d body input : Bytes} {as : List Bytes}
    (hs : mgmtStarts (budgetRelease slots) s p d body as input) (ha : approval (budgetRelease slots) s p d body as = 0) (hn : ∀ n ∈ slots, n < 4096) :
    ∃ l o t, exec (.budgetRelease p input slots 0) s = .next t ∧
      t.kst = (slots.foldl (fun s n => ledgerDrop n s) { modCore p kresDone s with lcy := l, out := o }).kst := by
  obtain ⟨o, hgo⟩ := mgmtGo_approved hs ha (fun _ => rfl) rfl
  have hany : (slots.any fun n => decide (4096 ≤ n)) = false := by simpa using hn
  have hrun := mgmtRun_silent (c := budgetRelease slots) (e := ⟨p, d, body, as.map apOfficer⟩) (by simp only [budgetRelease, hany]; rfl)
    (mgmtKem_clear hs (mgmtBegun_work p as s o)) (mgmtBegun p s o)
  refine ⟨(chalUse as (mgmtBegun p s o)).lcy, o, _, congrArg Host.Outcome.next (hgo.trans hrun), ?_⟩
  refine Eq.trans (b := (payRecord p 0x0200 0 _ _ _).kst) rfl ((payRecord_note p _ _ _ _ _).kst.trans ?_)
  rw [chalUse_fields as]
  rfl

/-- Refutes O33: BUDGET_RELEASE of slot 7 changes slot 5 as well, which the statement leaves as it was. -/
theorem not_keyAndProgramCommands : ¬ Obligations.KeyAndProgramCommands := by
  intro h
  obtain ⟨-, -, hrelease, -⟩ := h
  obtain ⟨hgood, -⟩ := hrelease drawnTwice 0 [7] releaseDesc [] releaseAppr _ drawnTwice_starts drawnTwice_approved
  obtain ⟨t, ht, -, -, hledger, -⟩ := hgood (by decide)
  obtain ⟨l, o, u, hu, hkst⟩ := budgetRelease_kst drawnTwice_starts drawnTwice_approved (by decide)
  have hut : u = t := Host.Outcome.next.inj (hu.symm.trans ht)
  have hback : t.kst.ledger = [(5, ⟨3, [], 13, 0⟩)] := by
    rw [← hut, hkst]
    exact drawnTwice_returns l o
  rw [hback] at hledger
  exact absurd hledger (by decide)

end Sys2Proof.Machine
end

section
/-!
PROOFS. O26: the LMK sets stand apart from what a channel, a miss and its waiters do (R115, R127).
-/

namespace Sys2Proof.Machine

/-- The LMK sets of the device. -/
def lmksOf (s : State) : Tab Lmk := s.kst.lmks

theorem lmkOf_of_lmks {s t : State} (h : lmksOf t = lmksOf s) (f : Nat) : lmkOf t f = lmkOf s f := congrArg (fun x => tget Lmk.blank x f) h

theorem lmks_foldl {β : Type} {g : State → β → State} (h : ∀ s b, lmksOf (g s b) = lmksOf s) (l : List β) (s : State) :
    lmksOf (l.foldl g s) = lmksOf s := by
  induction l generalizing s with
  | nil => rfl
  | cons b l ih => exact (ih _).trans (h s b)

theorem lmks_snd {β : Type} {x : β × State} {b : β} {t s : State} (h : x = (b, t)) (k : lmksOf x.2 = lmksOf s) : lmksOf t = lmksOf s := by
  rw [h] at k
  exact k

theorem lmks_ite {s a b : State} {p : Prop} [Decidable p] (h : lmksOf a = lmksOf s) (k : lmksOf b = lmksOf s) :
    lmksOf (if p then a else b) = lmksOf s := by
  split <;> assumption

theorem lmks_snd_ite {β : Type} {x : Tab Lmk} {a b : β × State} {p : Prop} [Decidable p] (h : lmksOf a.2 = x) (k : lmksOf b.2 = x) :
    lmksOf (if p then a else b).2 = x := by
  split <;> assumption

section
variable (s : State)

theorem modChan_lmks (n : Nat) (g : Chan → Chan) : lmksOf (modChan n g s) = lmksOf s := rfl
theorem fireMsix_lmks (f v : Nat) : lmksOf (fireMsix f v s) = lmksOf s := by rw [(fireMsix_side f v s).1]; rfl
theorem vioQueue_lmks (v : VioReport) : lmksOf (vioQueue v s) = lmksOf s := fireMsix_lmks _ _ _
theorem chanStat_lmks (m c r n : Nat) : lmksOf (chanStat m c r n s) = lmksOf s := lmks_ite rfl rfl

theorem hostRead_lmks (m f a n : Nat) : lmksOf (hostRead m f a n s).2 = lmksOf s := by
  unfold hostRead
  split
  · exact (chanStat_lmks _ _ _ _ _).trans (vioQueue_lmks _ _)
  · exact (chanStat_lmks _ _ _ _ _).trans (lmks_ite rfl rfl)

/-! ### A miss's end, and its waiters -/

theorem passFrame.lmks {s t : State} (h : passFrame s t) : lmksOf t = lmksOf s := by rw [h.1]; rfl

theorem wakeTok_lmks (t : Nat) (st : Option Nat) : lmksOf (wakeTok t st s) = lmksOf s := lmks_ite (returnToken_pass _ _).lmks rfl
theorem wakeCore_lmks (p : Nat) (st : Option Nat) : lmksOf (wakeCore p st s) = lmksOf s := lmks_ite rfl rfl

theorem missEnd_lmks (id : Nat) (st : Option Nat) : lmksOf (missEnd id st s) = lmksOf s := by
  unfold missEnd
  split
  · rfl
  · exact (lmks_foldl (fun _ _ => wakeCore_lmks _ _ _) _ _).trans (lmks_foldl (fun _ _ => wakeTok_lmks _ _ _) _ _)

theorem missCountUp_lmks (f : Nat) : lmksOf (missCountUp f s) = lmksOf s := lmks_ite (fireMsix_lmks _ _ _) rfl
theorem missSeen_lmks (p : Nat) : lmksOf (missSeen p s) = lmksOf s := lmks_ite rfl (missCountUp_lmks _ _)
theorem missSeenTok_lmks (f t : Nat) : lmksOf (missSeenTok f t s) = lmksOf s := lmks_ite (missCountUp_lmks _ _) rfl

/-! ### A channel goes on -/

theorem reqDone_lmks (p tag st : Nat) (out : Bytes) : lmksOf (reqDone p tag st out s) = lmksOf s := rfl
theorem abortDone_lmks (x : Nat × Nat) : lmksOf (abortDone x s) = lmksOf s := rfl

theorem oldDrain_lmks (d : MovDesc) : lmksOf (oldDrain d s) = lmksOf s := by
  unfold oldDrain
  split
  · exact lmks_ite rfl rfl
  · rfl

theorem skipPorts_lmks (n : Nat) : lmksOf (skipPorts n s) = lmksOf s := by
  refine (lmks_foldl (fun s d => ?_) _ _).trans rfl
  split <;> rfl

theorem keyStart_lmks (n : Nat) : lmksOf (keyStart n s) = lmksOf s := by
  simp only [keyStart]
  split
  · rfl
  · split
    · rfl
    · split
      next h => exact (modChan_lmks _ _ _).trans ((lmks_snd h (hostRead_lmks _ _ _ _ _)).trans (modChan_lmks _ _ _))
      next h => exact (missEnd_lmks _ _ _).trans ((lmks_snd h (hostRead_lmks _ _ _ _ _)).trans (modChan_lmks _ _ _))

theorem chanTake_lmks (n fuel : Nat) : lmksOf (chanTake n fuel s) = lmksOf s := by
  induction fuel generalizing s with
  | zero => rfl
  | succ fuel ih =>
    simp only [chanTake]
    refine lmks_ite rfl (lmks_ite (lmks_ite ((ih _).trans (keyStart_lmks _ _)) rfl) ?_)
    split
    · rfl
    · exact lmks_ite rfl (lmks_ite rfl (ih _))

theorem paneLoad_lmks (m f : Nat) : lmksOf (paneLoad m f s) = lmksOf s := rfl
theorem emit_lmks (o : Out) : lmksOf (emit o s) = lmksOf s := rfl

theorem chanAsk_lmks (n : Nat) : lmksOf (chanAsk n s).2 = lmksOf s := by
  cases hd : (chan s n).cur with
  | none => simp only [chanAsk, hd]
  | some d =>
    simp only [chanAsk, hd]
    refine lmks_snd_ite rfl (lmks_snd_ite (lmks_ite rfl (paneLoad_lmks _ _ _)) (lmks_snd_ite rfl (lmks_snd_ite rfl ?_)))
    split
    · rfl
    · exact lmks_ite ((emit_lmks _ _).trans (modChan_lmks _ _ _)) (modChan_lmks _ _ _)

/-- The word of a descriptor's end, where it has one. -/
theorem statWrite_lmks (o : Option Nat) (g : Nat → Mov → Mov) : lmksOf (match o with | some a => modMov (g a) s | none => s) = lmksOf s := by
  cases o <;> rfl

/-- The answer to the core that owns a descriptor, where one does. -/
theorem portEnd_lmks (d : MovDesc) (o : Option (Nat × Nat)) (code : Nat) : lmksOf (match o with
    | some x => if code = 3 then abortDone x (oldDrain d s) else reqDone x.1 x.2 (portStatus code) [] (oldDrain d s)
    | none => s) = lmksOf s := by
  cases o with
  | none => rfl
  | some x => exact lmks_ite ((abortDone_lmks _ _).trans (oldDrain_lmks s d)) ((reqDone_lmks _ _ _ _ _).trans (oldDrain_lmks s d))

theorem descEnd_lmks (n code residue : Nat) : lmksOf (descEnd n code residue s) = lmksOf s := by
  cases hd : (chan s n).cur with
  | none => simp only [descEnd, hd]
  | some d =>
    simp only [descEnd, hd]
    refine lmks_ite ((fireMsix_lmks _ _ _).trans ?_) ?_ <;>
    · refine (modChan_lmks _ _ _).trans ((portEnd_lmks _ d d.port code).trans ?_)
      exact lmks_ite ((skipPorts_lmks _ _).trans (statWrite_lmks s d.statAt _)) (statWrite_lmks s d.statAt _)

theorem chanRun_lmks (n fuel : Nat) : lmksOf (chanRun n fuel s) = lmksOf s := by
  induction fuel generalizing s with
  | zero => rfl
  | succ fuel ih =>
    have htake : lmksOf (if (chan s n).cur.isNone then chanTake n (2 ^ (chan s n).qlog2 + (chan s n).keyq.length + 1) s else s) = lmksOf s :=
      lmks_ite (chanTake_lmks _ _ _) rfl
    simp only [chanRun]
    split
    next h => exact (lmks_snd h (chanAsk_lmks _ _)).trans htake
    next h => exact (ih _).trans ((descEnd_lmks _ _ _ _).trans ((vioQueue_lmks _ _).trans ((lmks_snd h (chanAsk_lmks _ _)).trans htake)))

theorem keyAsk_lmks (id : Nat) : lmksOf (keyAsk id s) = lmksOf s := chanRun_lmks _ _ _

theorem missDirRead_lmks (m : Miss) : lmksOf (missDirRead m s) = lmksOf s :=
  (keyAsk_lmks _ _).trans ((lmks_foldl (fun _ _ => missSeen_lmks _ _) _ _).trans (lmks_foldl (fun _ _ => missSeenTok_lmks _ _ _) _ _))

end

end Sys2Proof.Machine
end

section
/-!
PROOFS. O26, O32: what the going of keys leaves of the key store (R125, R126, R132, R140, R144, R146).
-/

namespace Sys2Proof.Machine

/-! ### What the going of a key keeps -/

/-- Of the key store only keys and the uses left in ledger slots differ, of the lanes only what they are told; nothing that pins an entry does. -/
structure retireFrame (s t : State) : Prop where
  rest : t = { s with kst := { s.kst with keys := t.kst.keys, ledger := t.kst.ledger }, lanes := { s.lanes with lanes := t.lanes.lanes }, par := t.par }
  slots : t.kst.ledger.map (fun e => (e.1, e.2.fn)) = s.kst.ledger.map fun e => (e.1, e.2.fn)

section
variable {s t u : State}

theorem retireFrame.refl (s : State) : retireFrame s s := ⟨rfl, rfl⟩
theorem retireFrame.trans (h : retireFrame s t) (k : retireFrame t u) : retireFrame s u := ⟨by rw [k.rest, h.rest], k.slots.trans h.slots⟩

theorem retireFrame.pinned (h : retireFrame s t) (i : Nat) : keyPinned t i = keyPinned s i := by rw [h.rest]; rfl

theorem mirror_retire (ty l : Nat) (b : Bytes) (s : State) : retireFrame s (mirrorSend ty l b s) := by
  rw [mirrorSend_par]
  exact ⟨rfl, rfl⟩

theorem modLedger_retire (n : Nat) (g : Budget → Budget) (hg : ∀ b, (g b).fn = b.fn) (s : State) : retireFrame s (modLedger n g s) := by
  refine ⟨rfl, ?_⟩
  show (s.kst.ledger.map _).map _ = _
  rw [List.map_map]
  refine List.map_congr_left fun e _ => ?_
  simp only [Function.comp]
  split
  · rw [hg]
  · rfl

theorem ledgerMirror_retire (n : Nat) (s : State) : retireFrame s (ledgerMirror n s) := by
  unfold ledgerMirror
  split
  · exact mirror_retire _ _ _ s
  · exact .refl s

theorem ledgerMirror_kst (n : Nat) (s : State) : (ledgerMirror n s).kst = s.kst := by
  unfold ledgerMirror stateMirror
  split
  · rw [mirrorSend_par]
  · rfl

/-- The key at an index goes, and with it every other entry at that index; no other does. -/
theorem keyInvalidate_keys (i : Nat) (s : State) : (keyInvalidate i s).kst.keys = s.kst.keys.filter fun x => decide (x.1 ≠ i) := by
  unfold keyInvalidate
  split
  next h =>
    have hnone : ∀ x ∈ s.kst.keys, x.1 ≠ i := by simpa [keyAt] using h
    exact (List.filter_eq_self.2 fun x hx => by simpa using hnone x hx).symm
  next e _ =>
    have hled : ∀ n g, (ledgerMirror n (modLedger n g s)).kst.keys = s.kst.keys := fun n g => by rw [ledgerMirror_kst]; rfl
    cases hl : e.ledger with
    | none => rfl
    | some n =>
      simp only
      split
      · rfl
      · exact congrArg _ (hled n _)

theorem keyInvalidate_retire (i : Nat) (s : State) : retireFrame s (keyInvalidate i s) := by
  unfold keyInvalidate
  split
  · exact .refl s
  next e _ =>
    refine retireFrame.trans (t := match e.ledger with
      | some n => if e.chunk = 0 then s else ledgerMirror n (modLedger n (fun b => { b with left := b.left + e.chunk }) s)
      | none => s) ?_ ⟨rfl, rfl⟩
    split
    · split
      · exact .refl s
      · exact .trans (modLedger_retire _ (fun b => { b with left := b.left + e.chunk }) (fun _ => rfl) s) (ledgerMirror_retire _ _)
    · exact .refl s

theorem keyRetire_retire (i : Nat) (s : State) : retireFrame s (keyRetire i s) := by
  unfold keyRetire
  split
  · exact ⟨rfl, rfl⟩
  · exact keyInvalidate_retire i s

/-- What is left of the keys when the key at `i` goes: no key is new, and what is left at `i` is pinned and marked to go. -/
theorem keyRetire_left {i : Nat} {x : Nat × KEnt} (h : x ∈ (keyRetire i s).kst.keys) :
    ∃ y ∈ s.kst.keys, x.1 = y.1 ∧ x.2.func = y.2.func ∧ (y.2.doomed = true → x.2.doomed = true) ∧
      (x.1 = i → keyPinned s i = true ∧ x.2.doomed = true) := by
  unfold keyRetire at h
  split at h
  next hp =>
    obtain ⟨y, hy, rfl⟩ := List.mem_map.1 h
    by_cases hi : y.1 = i
    · rw [if_pos hi]
      exact ⟨y, hy, rfl, rfl, fun _ => rfl, fun _ => ⟨hp, rfl⟩⟩
    · rw [if_neg hi]
      exact ⟨y, hy, rfl, rfl, id, fun hc => absurd hc hi⟩
  · rw [keyInvalidate_keys] at h
    obtain ⟨hx, hi⟩ := List.mem_filter.1 h
    exact ⟨x, hx, rfl, rfl, id, fun hc => absurd hc (by simpa using hi)⟩

/-- A key at another index stays as it was. -/
theorem keyRetire_kept {i : Nat} {x : Nat × KEnt} (h : x ∈ s.kst.keys) (hi : x.1 ≠ i) : x ∈ (keyRetire i s).kst.keys := by
  unfold keyRetire
  split
  · exact List.mem_map.2 ⟨x, h, if_neg hi⟩
  · rw [keyInvalidate_keys]
    exact List.mem_filter.2 ⟨h, by simpa using hi⟩

/-! ### The going of several keys -/

theorem keyRetire_foldl_retire (l : List Nat) (s : State) : retireFrame s (l.foldl (fun s i => keyRetire i s) s) := by
  induction l generalizing s with
  | nil => exact .refl s
  | cons i l ih => exact (keyRetire_retire i s).trans (ih _)

theorem keyRetire_foldl_left {l : List Nat} {x : Nat × KEnt} (h : x ∈ (l.foldl (fun s i => keyRetire i s) s).kst.keys) :
    ∃ y ∈ s.kst.keys, x.1 = y.1 ∧ x.2.func = y.2.func ∧ (y.2.doomed = true → x.2.doomed = true) ∧
      (x.1 ∈ l → keyPinned s x.1 = true ∧ x.2.doomed = true) := by
  induction l generalizing s with
  | nil => exact ⟨x, h, rfl, rfl, id, fun hx => absurd hx (by simp)⟩
  | cons i l ih =>
    obtain ⟨y, hy, hidx, hfunc, hdoom, hl⟩ := ih h
    obtain ⟨z, hz, kidx, kfunc, kdoom, ki⟩ := keyRetire_left hy
    refine ⟨z, hz, hidx.trans kidx, hfunc.trans kfunc, fun hd => hdoom (kdoom hd), fun hx => ?_⟩
    by_cases hi : y.1 = i
    · obtain ⟨hp, hd⟩ := ki hi
      exact ⟨by rw [hidx, hi, hp], hdoom hd⟩
    · obtain ⟨hp, hd⟩ := hl ((List.mem_cons.1 hx).resolve_left fun hc => hi (hidx.symm.trans hc))
      exact ⟨by rw [← hp, (keyRetire_retire i s).pinned], hd⟩

theorem keyRetire_foldl_kept {l : List Nat} {x : Nat × KEnt} (h : x ∈ s.kst.keys) (hi : x.1 ∉ l) :
    x ∈ (l.foldl (fun s i => keyRetire i s) s).kst.keys := by
  induction l generalizing s with
  | nil => exact h
  | cons i l ih =>
    rw [List.mem_cons, not_or] at hi
    exact ih (keyRetire_kept h hi.1) hi.2

/-- Once the working keys of a function have gone, what is left of them is pinned and marked to go (R126). -/
theorem fnKeysDrop_left {f : Nat} {x : Nat × KEnt} (h : x ∈ (fnKeysDrop f s).kst.keys) (hf : x.2.func = f) :
    x.2.doomed = true ∧ keyPinned s x.1 = true := by
  obtain ⟨y, hy, hidx, hfunc, -, hl⟩ := keyRetire_foldl_left h
  obtain ⟨hp, hd⟩ := hl (List.mem_map.2 ⟨y, List.mem_filter.2 ⟨hy, by simpa using hfunc.symm.trans hf⟩, hidx.symm⟩)
  exact ⟨hd, hp⟩

/-- Keys of other functions stay, where no index is held twice. -/
theorem fnKeysDrop_kept {f : Nat} {x : Nat × KEnt} (hn : (s.kst.keys.map fun e => e.1).Nodup) (h : x ∈ s.kst.keys) (hf : x.2.func ≠ f) :
    x ∈ (fnKeysDrop f s).kst.keys := by
  refine keyRetire_foldl_kept h fun hc => ?_
  obtain ⟨y, hy, hidx⟩ := List.mem_map.1 hc
  obtain ⟨hy, hyf⟩ := List.mem_filter.1 hy
  have hxy : y = x := List.inj_on_of_nodup_map hn hy h hidx
  rw [hxy] at hyf
  exact hf (by simpa using hyf)

theorem fnKeysDrop_retire (f : Nat) (s : State) : retireFrame s (fnKeysDrop f s) := keyRetire_foldl_retire _ s

end

end Sys2Proof.Machine
end

section
/-!
PROOFS. O26: vault blobs, the key directory, expanded-key slots, KST_CTL, miss windows and the expiry of budget slots.
-/

namespace Sys2Proof.Machine

/-! ### LMK slots -/

section
variable (f n : Nat) (g : LmkSlot → LmkSlot) (s : State)

theorem lmkOf_modLmk_same (h : Lmk → Lmk) : lmkOf (modLmk f h s) f = h (lmkOf s f) := tget_tmod_same _ _ _ _
theorem lmkOf_modLmk_ne (h : Lmk → Lmk) {v : Nat} (hv : v ≠ f) : lmkOf (modLmk f h s) v = lmkOf s v := tget_tmod_ne _ _ _ hv

theorem lmkOf_modLmkSlot_ne {v : Nat} (hv : v ≠ f) : lmkOf (modLmkSlot f n g s) v = lmkOf s v := lmkOf_modLmk_ne _ _ _ hv

theorem lmkSlot_modLmkSlot_same : lmkSlot (lmkOf (modLmkSlot f n g s) f) n = g (lmkSlot (lmkOf s f) n) := by
  rw [modLmkSlot, lmkOf_modLmk_same]
  by_cases h : n = 0 <;> simp [lmkSlot, h]

theorem lmkSlot_modLmkSlot_other (hn : n ≤ 1) : lmkSlot (lmkOf (modLmkSlot f n g s) f) (1 - n) = lmkSlot (lmkOf s f) (1 - n) := by
  rw [modLmkSlot, lmkOf_modLmk_same]
  rcases Nat.le_one_iff_eq_zero_or_eq_one.1 hn with rfl | rfl <;> simp [lmkSlot]

theorem modLmkSlot_loaded : (lmkOf (modLmkSlot f n g s) f).loaded = (lmkOf s f).loaded := by
  rw [modLmkSlot, lmkOf_modLmk_same]
  split <;> rfl

end

theorem lmkSlot_waits (l : Lmk) {n : Nat} (hn : n ≤ 1) :
    (l.s0.wait = true ∨ l.s1.wait = true) ↔ ((lmkSlot l n).wait = true ∨ (lmkSlot l (1 - n)).wait = true) := by
  rcases Nat.le_one_iff_eq_zero_or_eq_one.1 hn with rfl | rfl
  · simp [lmkSlot]
  · simp [lmkSlot, or_comm]

/-! ### The end of misses -/

theorem passFrame.kst {s t : State} (h : passFrame s t) : t.kst = s.kst := by rw [h.1]

theorem kst_foldl {β : Type} {g : State → β → State} (h : ∀ s b, (g s b).kst = s.kst) (l : List β) (s : State) : (l.foldl g s).kst = s.kst := by
  induction l generalizing s with
  | nil => rfl
  | cons b l ih => exact (ih _).trans (h s b)

theorem wakeTok_kst (t : Nat) (st : Option Nat) (s : State) : (wakeTok t st s).kst = s.kst := by
  unfold wakeTok
  split
  · exact (returnToken_pass t _).kst
  · rfl

theorem wakeCore_kst (p : Nat) (st : Option Nat) (s : State) : (wakeCore p st s).kst = s.kst := by
  unfold wakeCore
  split <;> rfl

/-- A miss that ends leaves the table (R127, R129). -/
theorem missEnd_kst (id : Nat) (st : Option Nat) (s : State) :
    (missEnd id st s).kst = { s.kst with misses := s.kst.misses.filter fun x => decide (x.id ≠ id) } := by
  unfold missEnd
  split
  next h =>
    have hnone : ∀ x ∈ s.kst.misses, x.id ≠ id := by simpa [missAt] using h
    rw [List.filter_eq_self.2 fun x hx => by simpa using hnone x hx]
  next m _ =>
    exact (kst_foldl (fun s w => wakeCore_kst w.1 _ s) m.cores _).trans (kst_foldl (fun s w => wakeTok_kst w.1 _ s) m.toks _)

theorem missEnd_foldl_none (st : Option Nat) (l : List Miss) (s : State) (id : Nat) (h : (∃ m ∈ l, m.id = id) ∨ missAt s id = none) :
    missAt (l.foldl (fun s m => missEnd m.id st s) s) id = none := by
  induction l generalizing s with
  | nil => exact h.resolve_left (by simp)
  | cons m l ih =>
    refine ih _ ?_
    by_cases hm : m.id = id
    · right
      simp [missAt, missEnd_kst, hm]
    · rcases h with ⟨x, hx, hid⟩ | h
      · rcases List.mem_cons.1 hx with rfl | hx
        · exact absurd hid hm
        · exact .inl ⟨x, hx, hid⟩
      · right
        have hnone : ∀ x ∈ s.kst.misses, x.id ≠ id := by simpa [missAt] using h
        simp only [missAt, missEnd_kst, List.find?_eq_none]
        intro x hx
        simpa using hnone x (List.mem_of_mem_filter hx)

/-! ### Vault blobs (R114, R115) -/

theorem vaultLoaded_lmks (f : Nat) (s : State) : lmksOf (vaultLoaded f s) = lmksOf (modLmk f (fun l => { l with loaded := true }) s) := by
  refine lmks_foldl (fun s m => ?_) _ _
  exact lmks_ite (missEnd_lmks _ _ _) (lmks_ite (missEnd_lmks _ _ _) (missDirRead_lmks _ _))

/-- Sets without a key end every miss that waits for them. -/
theorem vaultLoaded_empty {f : Nat} {s : State} (h0 : (lmkOf s f).s0.key = none) (h1 : (lmkOf s f).s1.key = none) {m : Miss}
    (hm : m ∈ vaultMisses s f) : missAt (vaultLoaded f s) m.id = none := by
  have hempty : ((lmkOf (modLmk f (fun l => { l with loaded := true }) s) f).s0.key.isNone &&
      (lmkOf (modLmk f (fun l => { l with loaded := true }) s) f).s1.key.isNone) = true := by
    rw [lmkOf_modLmk_same]
    simp [h0, h1]
  simp only [vaultLoaded, hempty]
  exact missEnd_foldl_none _ _ _ _ (.inl ⟨m, hm, rfl⟩)

/-- The state once the blob is taken, before the record of a refusal and the end of the load. -/
def blobBegun (f n : Nat) (b : Bytes) (s : State) : State :=
  modLmkSlot f n (blobTaken (blobFault s f n b)
    (if blobFault s f n b = 0 then gcmDec s.kst.vaultKey (slice b 16 12) (slice b 0 32) (slice b 32 48) else none) b) (chanDone (vaultMaster f) 0 128 s)

theorem chanDone_kst (m f n : Nat) (s : State) : (chanDone m f n s).kst = s.kst := by rw [(chanDone_bus m f n s).1]

theorem blobBegun_slot (f n : Nat) (b : Bytes) (s : State) : lmkSlot (lmkOf (blobBegun f n b s) f) n =
    blobTaken (blobFault s f n b) (if blobFault s f n b = 0 then gcmDec s.kst.vaultKey (slice b 16 12) (slice b 0 32) (slice b 32 48) else none) b
      (lmkSlot (lmkOf s f) n) := by
  rw [blobBegun, lmkSlot_modLmkSlot_same, lmkOf_of_lmks (congrArg Kst.lmks (chanDone_kst _ _ _ _))]

theorem blobBegun_other {f n : Nat} (b : Bytes) (s : State) (hn : n ≤ 1) :
    lmkSlot (lmkOf (blobBegun f n b s) f) (1 - n) = lmkSlot (lmkOf s f) (1 - n) := by
  rw [blobBegun, lmkSlot_modLmkSlot_other _ _ _ _ hn, lmkOf_of_lmks (congrArg Kst.lmks (chanDone_kst _ _ _ _))]

theorem blobBegun_ne {f g : Nat} (n : Nat) (b : Bytes) (s : State) (h : g ≠ f) : lmkOf (blobBegun f n b s) g = lmkOf s g := by
  rw [blobBegun, lmkOf_modLmkSlot_ne _ _ _ _ h, lmkOf_of_lmks (congrArg Kst.lmks (chanDone_kst _ _ _ _))]

theorem blobBegun_loaded (f n : Nat) (b : Bytes) (s : State) : (lmkOf (blobBegun f n b s) f).loaded = (lmkOf s f).loaded := by
  rw [blobBegun, modLmkSlot_loaded, lmkOf_of_lmks (congrArg Kst.lmks (chanDone_kst _ _ _ _))]

theorem blobBegun_rest (f n : Nat) (b : Bytes) (s : State) :
    blobBegun f n b s = { chanDone (vaultMaster f) 0 128 s with kst := { s.kst with lmks := (blobBegun f n b s).kst.lmks } } := by
  have hk : (chanDone (vaultMaster f) 0 128 s).kst = s.kst := chanDone_kst _ _ _ _
  rw [← hk]
  rfl

/-- The misses that wait for the sets of a function hang on the table, its time limit and the time. -/
theorem vaultMisses_congr {s t : State} (hm : t.kst.misses = s.kst.misses) (ht : t.kst.fetchTimeout = s.kst.fetchTimeout) (hc : t.time = s.time)
    (f : Nat) : vaultMisses t f = vaultMisses s f := by
  simp only [vaultMisses, missLate, missEdge, hm, ht, hc]
  rfl

theorem blobBegun_misses (f n : Nat) (b : Bytes) (s : State) : vaultMisses (blobBegun f n b s) f = vaultMisses s f := by
  have hk : (chanDone (vaultMaster f) 0 128 s).kst = s.kst := chanDone_kst _ _ _ _
  have ht : (chanDone (vaultMaster f) 0 128 s).time = s.time := by rw [(chanDone_bus _ _ _ _).1]
  exact vaultMisses_congr (congrArg Kst.misses hk) (congrArg Kst.fetchTimeout hk) ht f

/-- What the arrival of an awaited blob does. -/
theorem vaultBlobArrival_exec {s : State} {f n : Nat} {b : Bytes} (hp : s.pwr.main = true) (hn : n ≤ 1) (hw : (lmkSlot (lmkOf s f) n).wait = true)
    (hm : vaultMisses s f ≠ []) {u : State}
    (hu : u = if blobFault s f n b = 0 then blobBegun f n b s
      else auditU 0x0210 0 0 (leBytes 2 f ++ leBytes 1 n ++ leBytes 1 (blobFault s f n b)) (blobBegun f n b s)) :
    exec (.vaultBlobArrival f n b) s = .next (if (lmkOf u f).s0.wait = true ∨ (lmkOf u f).s1.wait = true then u else vaultLoaded f u) := by
  have hgo : ¬ (!s.pwr.main ∨ 1 < n ∨ !(lmkSlot (lmkOf s f) n).wait ∨ (vaultMisses s f).isEmpty) := by
    simp [hp, hw, hm, hn]
  rw [hu]
  exact congrArg Host.Outcome.next (if_neg hgo)

/-- The state after an awaited blob, where its own slot waits no more: the other slot says whether the sets are loaded. -/
theorem blobEnd_iff {f n : Nat} {u : State} {x : LmkSlot} (hn : n ≤ 1) (hw : (lmkSlot (lmkOf u f) n).wait = false)
    (ho : lmkSlot (lmkOf u f) (1 - n) = x) : ((lmkOf u f).s0.wait = true ∨ (lmkOf u f).s1.wait = true) ↔ x.wait = true := by
  rw [lmkSlot_waits _ hn, ho, hw]
  simp

theorem lmkSlot_loaded (l : Lmk) (n : Nat) (v : Bool) : lmkSlot { l with loaded := v } n = lmkSlot l n := rfl

/-- The sets of a function once loading has ended, or goes on. -/
theorem blobEnd_lmks {f : Nat} {u : State} {c : Prop} [Decidable c] :
    lmkOf (if c then u else vaultLoaded f u) f = { lmkOf u f with loaded := (lmkOf u f).loaded || !decide c } ∧
      ∀ g, g ≠ f → lmkOf (if c then u else vaultLoaded f u) g = lmkOf u g := by
  by_cases hc : c
  · simp [hc]
  · simp only [hc, if_false, decide_false, Bool.not_false, Bool.or_true]
    exact ⟨by rw [lmkOf_of_lmks (vaultLoaded_lmks f u), lmkOf_modLmk_same],
      fun g hg => by rw [lmkOf_of_lmks (vaultLoaded_lmks f u), lmkOf_modLmk_ne _ _ _ hg]⟩

theorem blobFault_good {s : State} {f n : Nat} {b k : Bytes}
    (hk : gcmDec s.kst.vaultKey (slice b 16 12) (slice b 0 32) (slice b 32 48) = some k) (hf : leAt b 0 2 = f) (hs : leAt b 2 1 = n)
    (hv : leAt b 4 4 = (lmkSlot (lmkOf s f) n).version) : blobFault s f n b = 0 := by
  simp [blobFault, hk, hf, hs, hv]

theorem blobFault_bad {s : State} {f n : Nat} {b : Bytes}
    (h : gcmDec s.kst.vaultKey (slice b 16 12) (slice b 0 32) (slice b 32 48) = none ∨ leAt b 0 2 ≠ f ∨ leAt b 2 1 ≠ n ∨
      leAt b 4 4 ≠ (lmkSlot (lmkOf s f) n).version) : blobFault s f n b ≠ 0 := by
  unfold blobFault
  split
  · decide
  · split
    · decide
    · split
      · decide
      · simp_all

/-- A blob that is refused leaves its slot empty. -/
theorem blobTaken_bad {why : Nat} (h : why ≠ 0) (key : Option Bytes) (b : Bytes) (x : LmkSlot) :
    blobTaken why key b x = { x with wait := false, key := none, role := 0, kbek := [], kbak := [], bad := false } := by
  simp [blobTaken, h, dropLmk]

/-- A good blob with a role gives its slot the LMK, and the keys derived from it (R113, R114). -/
theorem blobTaken_good {k b : Bytes} (h : leAt b 3 1 ≠ 0) (x : LmkSlot) : blobTaken 0 (some k) b x =
    { x with wait := false, key := some k, role := leAt b 3 1, gen := leAt b 8 2, kbek := kbDerive 5 k 0, kbak := kbDerive 5 k 1, bad := false } := by
  simp [blobTaken, h, setLmk]

section
variable {s : State} {f n : Nat} {b : Bytes} (hp : s.pwr.main = true) (hn : n ≤ 1) (hw : (lmkSlot (lmkOf s f) n).wait = true)
  (hm : vaultMisses s f ≠ [])
include hp hn hw hm

theorem vaultBlobArrival_good {k : Bytes} (hk : gcmDec s.kst.vaultKey (slice b 16 12) (slice b 0 32) (slice b 32 48) = some k)
    (hf : leAt b 0 2 = f) (hs : leAt b 2 1 = n) (hv : leAt b 4 4 = (lmkSlot (lmkOf s f) n).version) (hr : leAt b 3 1 ≠ 0) :
    ∃ t, exec (.vaultBlobArrival f n b) s = .next t ∧
      lmkSlot (lmkOf t f) n = { lmkSlot (lmkOf s f) n with
        wait := false, key := some k, role := leAt b 3 1, gen := leAt b 8 2, kbek := kbDerive 5 k 0, kbak := kbDerive 5 k 1, bad := false } ∧
      lmkSlot (lmkOf t f) (1 - n) = lmkSlot (lmkOf s f) (1 - n) ∧
      ((lmkOf t f).loaded = ((lmkOf s f).loaded || !(lmkSlot (lmkOf s f) (1 - n)).wait)) ∧ (∀ g, g ≠ f → lmkOf t g = lmkOf s g) ∧
      ((lmkSlot (lmkOf s f) (1 - n)).wait = true →
        t = { chanDone (vaultMaster f) 0 128 s with kst := { s.kst with lmks := t.kst.lmks } }) := by
  have hfault := blobFault_good hk hf hs hv
  have hslot := blobBegun_slot f n b s
  rw [hfault, if_pos rfl, hk, blobTaken_good hr] at hslot
  have hother := blobBegun_other (f := f) b s hn
  have hends := blobEnd_iff hn (by rw [hslot]) hother
  obtain ⟨hsame, hne⟩ := blobEnd_lmks (f := f) (u := blobBegun f n b s)
    (c := (lmkOf (blobBegun f n b s) f).s0.wait = true ∨ (lmkOf (blobBegun f n b s) f).s1.wait = true)
  refine ⟨_, vaultBlobArrival_exec hp hn hw hm (if_pos hfault).symm, ?_, ?_, ?_, fun g hg => (hne g hg).trans (blobBegun_ne n b s hg), fun hwait => ?_⟩
  · rw [hsame, lmkSlot_loaded, hslot]
  · rw [hsame, lmkSlot_loaded, hother]
  · rw [hsame]
    simp only [blobBegun_loaded, hends, Bool.decide_eq_true]
  · rw [if_pos (hends.2 hwait)]
    exact blobBegun_rest f n b s

theorem vaultBlobArrival_bad (h : gcmDec s.kst.vaultKey (slice b 16 12) (slice b 0 32) (slice b 32 48) = none ∨ leAt b 0 2 ≠ f ∨ leAt b 2 1 ≠ n ∨
      leAt b 4 4 ≠ (lmkSlot (lmkOf s f) n).version) :
    ∃ t, exec (.vaultBlobArrival f n b) s = .next t ∧
      lmkSlot (lmkOf t f) n = { lmkSlot (lmkOf s f) n with wait := false, key := none, role := 0, kbek := [], kbak := [], bad := false } ∧
      lmkSlot (lmkOf t f) (1 - n) = lmkSlot (lmkOf s f) (1 - n) ∧ (∀ g, g ≠ f → lmkOf t g = lmkOf s g) ∧
      ((lmkSlot (lmkOf s f) (1 - n)).wait = true →
        reportFrame { chanDone (vaultMaster f) 0 128 s with kst := { s.kst with lmks := t.kst.lmks } } t) ∧
      ((lmkSlot (lmkOf s f) (1 - n)).wait = false → (lmkSlot (lmkOf s f) (1 - n)).key = none → ∀ m ∈ vaultMisses s f, missAt t m.id = none) := by
  have hfault := blobFault_bad h
  obtain ⟨u, hu⟩ : ∃ u, u = auditU 0x0210 0 0 (leBytes 2 f ++ leBytes 1 n ++ leBytes 1 (blobFault s f n b)) (blobBegun f n b s) := ⟨_, rfl⟩
  have hrep : reportFrame (blobBegun f n b s) u := hu ▸ auditU_report _ _ _ _ _
  have hkst : u.kst = (blobBegun f n b s).kst := by rw [hrep.1]
  have htime : u.time = (blobBegun f n b s).time := by rw [hrep.1]
  have hlmk : ∀ g, lmkOf u g = lmkOf (blobBegun f n b s) g := lmkOf_of_lmks (congrArg Kst.lmks hkst)
  have hslot : lmkSlot (lmkOf u f) n = { lmkSlot (lmkOf s f) n with wait := false, key := none, role := 0, kbek := [], kbak := [], bad := false } := by
    rw [hlmk, blobBegun_slot, blobTaken_bad hfault]
  have hother : lmkSlot (lmkOf u f) (1 - n) = lmkSlot (lmkOf s f) (1 - n) := by rw [hlmk, blobBegun_other b s hn]
  have hends := blobEnd_iff hn (by rw [hslot]) hother
  obtain ⟨hsame, hne⟩ := blobEnd_lmks (f := f) (u := u) (c := (lmkOf u f).s0.wait = true ∨ (lmkOf u f).s1.wait = true)
  refine ⟨_, vaultBlobArrival_exec hp hn hw hm (hu.trans (if_neg hfault).symm), ?_, ?_,
    fun g hg => (hne g hg).trans ((hlmk g).trans (blobBegun_ne n b s hg)), fun hwait => ?_, fun hwait hkey m hmem => ?_⟩
  · rw [hsame, lmkSlot_loaded, hslot]
  · rw [hsame, lmkSlot_loaded, hother]
  · rw [if_pos (hends.2 hwait), hkst, ← blobBegun_rest]
    exact hrep
  · rw [if_neg (hends.not.2 (by simp [hwait]))]
    have hkeys : (lmkOf u f).s0.key = none ∧ (lmkOf u f).s1.key = none := by
      rcases Nat.le_one_iff_eq_zero_or_eq_one.1 hn with rfl | rfl
      · exact ⟨congrArg LmkSlot.key hslot, (congrArg LmkSlot.key hother).trans hkey⟩
      · exact ⟨(congrArg LmkSlot.key hother).trans hkey, congrArg LmkSlot.key hslot⟩
    refine vaultLoaded_empty hkeys.1 hkeys.2 ?_
    rwa [vaultMisses_congr (congrArg Kst.misses hkst) (congrArg Kst.fetchTimeout hkst) htime, blobBegun_misses]

end

/-! ### The directory's registers (R119) -/

/-- The misses of a function whose directory changes: those in flight start again. -/
def missesAgain (f k : Nat) (l : List Miss) : List Miss :=
  l.zipIdx.map fun x =>
    if x.1.fn = f ∧ x.1.stage ≠ .vault ∧ x.1.stage ≠ .wait then { x.1 with id := k + x.2, stage := .wait, key := none, uses := none } else x.1

theorem missesAgain_waits {f k : Nat} {l : List Miss} {m : Miss} (h : m ∈ missesAgain f k l) (hf : m.fn = f) : m.stage = .vault ∨ m.stage = .wait := by
  obtain ⟨x, -, rfl⟩ := List.mem_map.1 h
  by_cases hx : x.1.fn = f ∧ x.1.stage ≠ .vault ∧ x.1.stage ≠ .wait
  · rw [if_pos hx]
    exact .inr rfl
  · rw [if_neg hx] at hf ⊢
    by_contra hc
    exact hx ⟨hf, fun h => hc (.inl h), fun h => hc (.inr h)⟩

theorem missesAgain_kept {f k : Nat} {l : List Miss} {m : Miss} (h : m ∈ l) (hf : m.fn ≠ f) : m ∈ missesAgain f k l := by
  obtain ⟨i, hi, rfl⟩ := List.mem_iff_getElem.1 h
  exact List.mem_map.2 ⟨(l[i], i), List.mem_zipIdx_iff_getElem?.2 (List.getElem?_eq_getElem hi), if_neg fun hc => hf hc.1⟩

/-- The state of a directory's change before the function's keys go. -/
def dirBegun (f reg value : Nat) (s : State) : State :=
  modKst (fun k => { k with misses := missesAgain f k.missNo k.misses, missNo := k.missNo + k.misses.length })
    (modFn f (fun x => if reg = 0 then { x with dirBase := value % 2 ^ 64 / 4096 * 4096 } else { x with dirSize := value % 2 ^ 21 }) s)

theorem keyDirSet_eq (f reg value : Nat) (s : State) : keyDirSet f reg value s = fnKeysDrop f (dirBegun f reg value s) := rfl

theorem keyDirWrite_sets {s : State} {f : Nat} (reg value : Nat) (hp : pageOpen s f = true) (hf : f ≠ 0) (hr : (fnOf s f).rst = none)
    (hv : reg = 0 ∨ value % 2 ^ 21 ≤ 1048576) (hn : (s.kst.keys.map fun e => e.1).Nodup) :
    ∃ t, exec (.keyDirWrite f reg value) s = .next t ∧
      (fnOf t f).dirBase = (dirTook (fnOf s f) reg value).dirBase ∧ (fnOf t f).dirSize = (dirTook (fnOf s f) reg value).dirSize ∧
      (∀ g, g ≠ f → fnOf t g = fnOf s g) ∧ (∀ x ∈ t.kst.keys, x.2.func = f → x.2.doomed = true ∧ keyPinned s x.1 = true) ∧
      (∀ x ∈ s.kst.keys, x.2.func ≠ f → x ∈ t.kst.keys) ∧ (∀ m ∈ t.kst.misses, m.fn = f → m.stage = .vault ∨ m.stage = .wait) ∧
      (∀ m ∈ s.kst.misses, m.fn ≠ f → m ∈ t.kst.misses) ∧ t.cpu = s.cpu ∧ t.mov = s.mov ∧ t.slm = s.slm := by
  have hgo : ¬ (!pageOpen s f ∨ f = 0 ∨ (fnOf s f).rst.isSome ∨ (reg ≠ 0 ∧ 1048576 < value % 2 ^ 21)) := by
    simp only [hp, hf, hr]
    simpa using fun h => hv.resolve_left h
  obtain ⟨u, hu⟩ : ∃ u, u = dirBegun f reg value s := ⟨_, rfl⟩
  have hdrop := fnKeysDrop_retire f u
  have hans : regsAnswer (fnKeysDrop f u) = true := by
    refine regsAnswer_congr (pageOpen_answers hp) ?_ ?_ ?_ <;> rw [hdrop.rest, hu] <;> rfl
  have hexec : exec (.keyDirWrite f reg value) s = .next (modFn f (fun x => { x with heldWr := none }) (fnKeysDrop f u)) := by
    rw [← regWrote_answers hans, hu, ← keyDirSet_eq]
    exact congrArg Host.Outcome.next (if_neg hgo)
  have hfns : ∀ g, fnOf (fnKeysDrop f u) g = fnOf u g := fnOf_of_fns (by rw [hdrop.rest])
  have hmiss : (fnKeysDrop f u).kst.misses = missesAgain f s.kst.missNo s.kst.misses := by rw [hdrop.rest, hu]; rfl
  have hfn : fnOf u f = if reg = 0 then { fnOf s f with dirBase := value % 2 ^ 64 / 4096 * 4096 } else { fnOf s f with dirSize := value % 2 ^ 21 } :=
    hu ▸ fnOf_modFn_same _ _ _
  refine ⟨_, hexec, ?_, ?_, fun g hg => ?_, fun x hx hxf => ?_, fun x hx hxf => ?_, fun m hm => ?_, fun m hm hmf => ?_, ?_, ?_, ?_⟩
  · rw [fnOf_modFn_same, hfns, hfn, dirTook]
    split <;> rfl
  · rw [fnOf_modFn_same, hfns, hfn, dirTook]
    split <;> rfl
  · rw [fnOf_modFn_ne _ _ hg, hfns, hu]
    exact fnOf_modFn_ne _ _ hg
  · have hleft := fnKeysDrop_left hx hxf
    rw [hu] at hleft
    exact hleft
  · exact fnKeysDrop_kept (by rw [hu]; exact hn) (by rw [hu]; exact hx) hxf
  · exact missesAgain_waits (hmiss ▸ hm)
  · exact show m ∈ (fnKeysDrop f u).kst.misses from hmiss ▸ missesAgain_kept hm hmf
  · exact show (fnKeysDrop f u).cpu = s.cpu by rw [hdrop.rest, hu]; rfl
  · exact show (fnKeysDrop f u).mov = s.mov by rw [hdrop.rest, hu]; rfl
  · exact show (fnKeysDrop f u).slm = s.slm by rw [hdrop.rest, hu]; rfl

/-! ### Expanded keys, KST_CTL, miss windows, budget slots (R120, R132, R146) -/

theorem laneOf_modLane_same (n : Nat) (g : Lane → Lane) (s : State) : laneOf (modLane n g s) n = g (laneOf s n) := tget_tmod_same _ _ _ _
theorem laneOf_modLane_ne {n m : Nat} (g : Lane → Lane) (s : State) (h : m ≠ n) : laneOf (modLane n g s) m = laneOf s m := tget_tmod_ne _ _ _ h

theorem keySlotDrop_drops {s : State} {n i : Nat} (hp : s.pwr.main = true) (hi : i ∈ (laneOf s n).drops) :
    ∃ t, exec (.keySlotDrop n i) s = .next t ∧
      laneOf t n = { laneOf s n with drops := (laneOf s n).drops.filter (fun j => decide (j ≠ i)), slots := (laneOf t n).slots } ∧
      (∀ x, x ∈ (laneOf t n).slots ↔ x ∈ (laneOf s n).slots ∧ x.index ≠ i) ∧ (∀ m, m ≠ n → laneOf t m = laneOf s m) ∧
      t = { s with lanes := { s.lanes with lanes := t.lanes.lanes } } := by
  refine ⟨_, congrArg Host.Outcome.next (if_pos ⟨hp, List.contains_iff_mem.2 hi⟩), ?_, fun x => ?_, fun m hm => laneOf_modLane_ne _ _ hm, rfl⟩
  · rw [laneOf_modLane_same]
  · rw [laneOf_modLane_same]
    simp

/-- KST_CTL is refused while channels 56 to 62 are set up for another use (R120). -/
def rsvRefused (s : State) (value : Nat) : Bool := value.testBit 0 && !s.kst.fetchRsv && decide (bitsOf s.mov.ded 14 8 ≠ 0)

/-- The state once KST_CTL has taken a value. -/
def kstCtlTook (s : State) (value : Nat) : State :=
  { s with
    kst := { s.kst with fetchTimeout := max 10 (bitsOf value 23 8), fetchRsv := value.testBit 0 && !rsvRefused s value }
    mov := if rsvRefused s value then { s.mov with conflict := true } else s.mov }

theorem kstCtlWrite_exec {s : State} (value : Nat) (h : regsTake s) :
    exec (.kstCtlWrite value) s = .next (modFn 0 (fun x => { x with heldWr := none }) (kstCtlTook s value)) := by
  obtain ⟨hp, hl, hg, hs⟩ := h
  have hopen : regsOpen s = true := by simp [regsOpen, hp, hl, hg, hs]
  have hans : regsAnswer (kstCtlTook s value) = true := by simp [regsAnswer, kstCtlTook, hp, hl, hg]
  have htook : (if !regsOpen s then s
      else
        let refused := rsvRefused s value
        let s := modKst (fun k => { k with fetchTimeout := max 10 (bitsOf value 23 8), fetchRsv := value.testBit 0 && !refused }) s
        if refused then modMov (fun m => { m with conflict := true }) s else s) = kstCtlTook s value := by
    simp only [hopen, kstCtlTook]
    cases rsvRefused s value <;> rfl
  rw [← regWrote_answers hans, ← htook]
  rfl

theorem kstCtlWrite_took {s : State} (value : Nat) (h : regsTake s) :
    ∃ t, exec (.kstCtlWrite value) s = .next t ∧ pfWrote s t ∧
      t.kst = { s.kst with fetchTimeout := max 10 (value / 256 % 65536), fetchRsv := t.kst.fetchRsv } ∧
      (value % 2 = 0 → t.kst.fetchRsv = false ∧ t.mov = s.mov) ∧
      (value % 2 = 1 → s.kst.fetchRsv = true ∨ s.mov.ded / 256 % 128 = 0 → t.kst.fetchRsv = true ∧ t.mov = s.mov) ∧
      (value % 2 = 1 → s.kst.fetchRsv = false → s.mov.ded / 256 % 128 ≠ 0 → t.kst.fetchRsv = false ∧ t.mov = { s.mov with conflict := true }) ∧
      t = { s with
        kst := t.kst
        mov := t.mov
        hif := { s.hif with fns := t.hif.fns } } := by
  have hfield : bitsOf value 23 8 = value / 256 % 65536 := bitsOf_eq value 23 8
  have hded : bitsOf s.mov.ded 14 8 = s.mov.ded / 256 % 128 := bitsOf_eq s.mov.ded 14 8
  refine ⟨_, kstCtlWrite_exec value h, fun g => ?_, ?_, fun hv => ?_, fun hv hr => ?_, fun hv hr hd => ?_, rfl⟩
  · by_cases hg : g = 0
    · subst hg
      exact fnOf_modFn_same _ _ _
    · rw [if_neg hg]
      exact fnOf_modFn_ne _ _ hg
  · rw [← hfield]
    rfl
  · have href : rsvRefused s value = false := by simp [rsvRefused, hv]
    exact ⟨by simp [kstCtlTook, modFn, modHif, hv], by simp [kstCtlTook, modFn, modHif, href]⟩
  · have href : rsvRefused s value = false := by rcases hr with hr | hr <;> simp [rsvRefused, hr, hded]
    exact ⟨by simp [kstCtlTook, modFn, modHif, href, hv], by simp [kstCtlTook, modFn, modHif, href]⟩
  · have href : rsvRefused s value = true := by simp [rsvRefused, hr, hded, hd, hv]
    exact ⟨by simp [kstCtlTook, modFn, modHif, href], by simp [kstCtlTook, modFn, modHif, href]⟩

theorem missWindowEnd_restarts {s : State} {f : Nat} (hp : s.pwr.main = true) (hw : (fnOf s f).missStart < tick s / 1000 * 1000) :
    ∃ t, exec (.missWindowEnd f) s = .next t ∧
      fnOf t f = { fnOf s f with missStart := tick s / 1000 * 1000, missCount := 0, missFired := false } ∧ (∀ g, g ≠ f → fnOf t g = fnOf s g) ∧
      t = { s with hif := { s.hif with fns := t.hif.fns } } :=
  ⟨_, congrArg Host.Outcome.next (if_pos ⟨hp, hw⟩), fnOf_modFn_same _ _ _, fun _ hg => fnOf_modFn_ne _ _ hg, rfl⟩

/-- A ledger slot that no key draws on goes alone. -/
theorem ledgerDrop_unused {s : State} {n : Nat} (h : ∀ x ∈ s.kst.keys, x.2.ledger ≠ some n) :
    ledgerDrop n s = { s with kst := { s.kst with ledger := s.kst.ledger.filter fun e => decide (e.1 ≠ n) } } := by
  have hmine : s.kst.keys.filter (fun e => decide (e.2.ledger = some n)) = [] := List.filter_eq_nil_iff.2 fun x hx => by simpa using h x hx
  have hkeys : s.kst.keys.map (fun e => if e.2.ledger = some n then (e.1, { e.2 with ledger := none, chunk := 0 }) else e) = s.kst.keys :=
    (List.map_congr_left fun x hx => if_neg (h x hx)).trans (List.map_id _)
  simp only [ledgerDrop, hmine, modKst, hkeys]
  rfl

theorem ledgerAt_filter_same (l : List (Nat × Budget)) (n : Nat) : (l.filter fun e => decide (e.1 ≠ n)).find? (fun e => decide (e.1 = n)) = none :=
  List.find?_eq_none.2 fun x hx => by simpa using (List.mem_filter.1 hx).2

theorem ledgerAt_filter_ne (l : List (Nat × Budget)) {n m : Nat} (h : m ≠ n) :
    (l.filter fun e => decide (e.1 ≠ n)).find? (fun e => decide (e.1 = m)) = l.find? fun e => decide (e.1 = m) := by
  rw [List.find?_filter]
  congr 1
  funext e
  by_cases he : e.1 = m <;> simp [he, h]

theorem budgetSlotExpiry_frees {s : State} {n d : Nat} {b : Budget} (hb : ledgerAt s n = some b) (he : b.expiry ≠ 0xFFFFFFFF)
    (hd : s.time.dev = some d) (hx : 60000000 * (b.expiry + 1) ≤ d) (hk : ∀ x ∈ s.kst.keys, x.2.ledger ≠ some n) :
    ∃ t, exec (.budgetSlotExpiry n) s = .next t ∧ ledgerAt t n = none ∧ (∀ m, m ≠ n → ledgerAt t m = ledgerAt s m) ∧
      t = { s with kst := { s.kst with ledger := t.kst.ledger } } := by
  refine ⟨ledgerDrop n s, ?_, ?_, fun m hm => ?_, ?_⟩
  · show execBudgetSlotExpiry n s = _
    simp only [execBudgetSlotExpiry, hb, hd]
    rw [if_pos ⟨he, hx⟩]
  · rw [ledgerDrop_unused hk, ledgerAt, ledgerAt_filter_same]
    rfl
  · rw [ledgerDrop_unused hk, ledgerAt, ledgerAt_filter_ne _ hm, ledgerAt]
  · rw [ledgerDrop_unused hk]

/-- Settles O26, command by command. -/
theorem keyStoreCommands : Obligations.KeyStoreCommands :=
  ⟨fun _ _ _ _ hp hn hw hm =>
    ⟨fun _ hk hf hs hv hr => vaultBlobArrival_good hp hn hw hm hk hf hs hv hr, fun h => vaultBlobArrival_bad hp hn hw hm h⟩,
    fun _ _ reg value hp hf hr hv hn => keyDirWrite_sets reg value hp hf hr hv hn, fun _ _ _ hp hi => keySlotDrop_drops hp hi,
    fun _ value h => kstCtlWrite_took value h, fun _ _ hp hw => missWindowEnd_restarts hp hw,
    fun _ _ _ _ hb he hd hx hk => budgetSlotExpiry_frees hb he hd hx hk⟩

end Sys2Proof.Machine
end

section
/-!
PROOFS. O32: the common end of a management command, and what a change to a VF's LMK slots leaves of the device (R77, R112, R114, R148, R152).
-/

namespace Sys2Proof.Machine

/-! ### Management commands by the outcome of their work -/

section
variable {c : MgmtCmd} {s : State} {p : Nat} {d body input : Bytes} {as : List Bytes}

theorem mgmtStarts_runs (hs : mgmtStarts c s p d body as input) : (core s p).st = .run := by
  obtain ⟨⟨hready, -⟩, -⟩ := hs
  simp only [payReady, coreGoes, Bool.and_eq_true, decide_eq_true_eq] at hready
  tauto

theorem mgmtStarts_func (hs : mgmtStarts c s p d body as input) : (core s p).func = 0 := by
  obtain ⟨⟨-, hfunc, -⟩, -⟩ := hs
  exact hfunc

/-- A command without approvals has none to check (R351). -/
theorem approval_none (hn : c.signers s body = []) : approval c s p d body [] = 0 := by
  rw [approval, hn]
  rfl

/-- A draw from generator 0 in the work's state gives what it gives in the state before. -/
theorem mgmtWork.drawn {u : State} (h : mgmtWork p as s u) (he : u.ent = s.ent) (hs : mgmtStarts c s p d body as input) (hd : drawReady s p) (n : Nat) :
    ∃ v, drbgDraw 0 n u = some (Machine.drawn s p n, v) ∧ mgmtWork p as s v := by
  have hinst : instOf (core s p).func = 0 := by rw [mgmtStarts_func hs]; rfl
  have hgen : drbgOf u 0 = drbgOf s 0 := by rw [drbgOf, he, drbgOf]
  rw [drawReady, hinst] at hd
  obtain ⟨v, hv, hf⟩ := drbgDraw_live (s := u) (i := 0) n (by rw [drbgLive, hgen]; exact hd)
  refine ⟨v, ?_, h.draw (mgmtStarts_runs hs) hf⟩
  rw [hv, hgen, Machine.drawn, hinst]

variable (hs : mgmtStarts c s p d body as input) (ha : approval c s p d body as = 0)
  (hc : ∀ b, c.signers (modCore p kresDone s) b = c.signers s b) (hp : c.param (modCore p kresDone s) d = c.param s d)
include hs ha hc hp

/-- A command whose work ends with a status. -/
theorem mgmtGo_fails {st : Nat} (hr : ∀ u, mgmtWork p as s u → c.run ⟨p, d, body, as.map apOfficer⟩ u = .fail st u) :
    mgmtFails s p st (slotUsed s as) (mgmtGo c p input 0 s) := by
  obtain ⟨o, hgo⟩ := mgmtGo_approved hs ha hc hp
  have hwork := mgmtBegun_work p as s o
  rw [hgo, mgmtRun_fail (hr _ hwork) (mgmtKem_clear hs hwork)]
  exact payEnd_mgmtFails hwork st

/-- A command whose work is done writes its output and makes its effects. -/
theorem mgmtGo_done {b : Bytes} {commit : State → State} (hb : b = [] ∨ outputFits s p b)
    (hr : ∀ u, mgmtWork p as s u → u.ent = s.ent → ∃ v, c.run ⟨p, d, body, as.map apOfficer⟩ u = .done b commit v ∧ mgmtWork p as s v) :
    ∃ x, mgmtGo c p input 0 s = payEnd p 0 b.length 1 (commit x) ∧ mgmtWork p as s x ∧ outputWritten s p b x := by
  obtain ⟨o, hgo⟩ := mgmtGo_approved hs ha hc hp
  have hwork := mgmtBegun_work p as s o
  obtain ⟨v, hv, hvwork⟩ := hr _ hwork (by rw [chalUse_fields]; rfl)
  obtain ⟨x, hx, hxwork, hout⟩ := mgmtRun_done (c := c) (e := ⟨p, d, body, as.map apOfficer⟩) hv (mgmtKem_clear hs hwork) hvwork hb (mgmtBegun p s o)
  exact ⟨x, hgo.trans hx, hxwork, hout⟩

/-- A command without output makes its effects. -/
theorem mgmtGo_silent {commit : State → State}
    (hr : ∀ u, mgmtWork p as s u → u.ent = s.ent → ∃ v, c.run ⟨p, d, body, as.map apOfficer⟩ u = .done [] commit v ∧ mgmtWork p as s v) :
    ∃ x, mgmtGo c p input 0 s = payEnd p 0 0 1 (commit x) ∧ mgmtWork p as s x ∧ outputWritten s p [] x :=
  mgmtGo_done hs ha hc hp (.inl rfl) hr

end

/-! ### Tables: a value that a change puts in -/

theorem mem_tput_same {α : Type} (t : Tab α) (k : Nat) (v : α) : (k, v) ∈ tput t k v := by
  induction t with
  | nil => exact List.mem_singleton_self _
  | cons e t ih =>
    obtain ⟨k', v'⟩ := e
    unfold tput
    split
    · exact List.mem_cons_self
    · split
      · exact List.mem_cons_self
      · exact List.mem_cons_of_mem _ ih

/-- Of the old entries a put value replaces the first at its key alone. -/
theorem mem_tput_kept {α : Type} (d : α) {t : Tab α} {e : Nat × α} (k : Nat) (v : α) (h : e ∈ t) : e ∈ tput t k v ∨ e = (k, tget d t k) := by
  induction t with
  | nil => exact absurd h (by simp)
  | cons x t ih =>
    obtain ⟨k', v'⟩ := x
    unfold tput
    split
    · exact .inl (List.mem_cons_of_mem _ h)
    · split
      next hk =>
        rcases List.mem_cons.1 h with rfl | h
        · exact .inr (by simp [tget, hk])
        · exact .inl (List.mem_cons_of_mem _ h)
      next hk =>
        rcases List.mem_cons.1 h with rfl | h
        · exact .inl List.mem_cons_self
        · rw [tget, if_neg (Ne.symm hk)]
          exact (ih h).imp_left (List.mem_cons_of_mem _)

/-- The hand-over to the Gate leaves pins where they are. -/
theorem keyPinned_payEnd {p st len units : Nat} {s : State} {i : Nat} (h : keyPinned s i = true) : keyPinned (payEnd p st len units s) i = true := by
  obtain ⟨c, hc⟩ : ∃ c : Core, c = { core s p with st := .release st len, units := units, pc := (core s p).askPc } := ⟨_, rfl⟩
  have hcores : (payEnd p st len units s).cpu.cores = tput s.cpu.cores p c := by
    have hne : c ≠ Core.blank := fun h => by
      have hst := congrArg Core.st h
      rw [hc] at hst
      cases hst
    have hset : tset Core.blank s.cpu.cores p c = tput s.cpu.cores p c := if_neg hne
    rw [← hset, hc]
    rfl
  have hpins : (tget Core.blank s.cpu.cores p).pins = c.pins := by rw [hc]; rfl
  simp only [keyPinned, Bool.or_eq_true, List.any_eq_true, hcores] at h ⊢
  refine h.imp_left fun h => h.imp_right ?_
  rintro ⟨e, he, hpin⟩
  rcases mem_tput_kept Core.blank p c he with hk | rfl
  · exact ⟨e, hk, hpin⟩
  · exact ⟨(p, c), mem_tput_same _ _ _, hpins ▸ hpin⟩

/-! ### Writing vault blobs (R114, R115) -/

/-- Only the LMK sets of one VF and what host traffic moves differ. -/
structure vaultFrame (f : Nat) (s t : State) : Prop where
  rest : t = { s with
    kst := { s.kst with lmks := t.kst.lmks }
    mov := t.mov, cnt := t.cnt, hif := { s.hif with fns := t.hif.fns }, out := t.out }
  shared : t.mov.shared = s.mov.shared
  out : outGrows s t
  others : ∀ v, v ≠ f → lmkOf t v = lmkOf s v

section
variable {f : Nat} {s t u : State}

theorem vaultFrame.refl (f : Nat) (s : State) : vaultFrame f s s := ⟨rfl, rfl, .refl s, fun _ _ => rfl⟩
theorem vaultFrame.trans (h : vaultFrame f s t) (k : vaultFrame f t u) : vaultFrame f s u :=
  ⟨by rw [k.rest, h.rest], k.shared.trans h.shared, h.out.trans k.out, fun v hv => (k.others v hv).trans (h.others v hv)⟩

theorem vaultFrame.aud (h : vaultFrame f s t) : t.aud = s.aud := by rw [h.rest]
theorem vaultFrame.time (h : vaultFrame f s t) : t.time = s.time := by rw [h.rest]
theorem vaultFrame.pwr (h : vaultFrame f s t) : t.pwr = s.pwr := by rw [h.rest]
theorem vaultFrame.lanes (h : vaultFrame f s t) : t.lanes = s.lanes := by rw [h.rest]
theorem vaultFrame.cpu (h : vaultFrame f s t) : t.cpu = s.cpu := by rw [h.rest]
theorem vaultFrame.kst (h : vaultFrame f s t) : t.kst = { s.kst with lmks := t.kst.lmks } := by
  have := congrArg State.kst h.rest
  exact this

theorem vaultFrame.effect (h : vaultFrame f s t) (p : Nat) : effectFrame p s t := by
  have hcore : ∀ q, core t q = core s q := fun q => by simp only [core, h.cpu]
  exact ⟨by rw [h.rest], by rw [h.rest], by rw [h.cpu], h.shared, fun q => by rw [hcore], by rw [hcore], h.out⟩

theorem modLmk_vault (g : Lmk → Lmk) (s : State) : vaultFrame f s (modLmk f g s) := ⟨rfl, rfl, .refl s, fun _ hv => lmkOf_modLmk_ne f s g hv⟩
theorem modLmkSlot_vault (n : Nat) (g : LmkSlot → LmkSlot) (s : State) : vaultFrame f s (modLmkSlot f n g s) := modLmk_vault _ s

theorem countChan_mov (num n k : Nat) (o : Option Nat) (a : Option (Nat × Nat)) (s : State) : (countChan num n k o a s).mov = s.mov := by
  rw [(countChan_side num n k o a s).1]

theorem chanStat_shared (m c r n : Nat) (s : State) : (chanStat m c r n s).mov.shared = s.mov.shared := by
  unfold chanStat
  split <;> rfl

theorem vioQueue_shared (v : VioReport) (s : State) : (vioQueue v s).mov.shared = s.mov.shared := by
  have hfire : ∀ u, (fireMsix 0 12 u).mov = u.mov := fun u => by rw [(fireMsix_side 0 12 u).1]
  rw [vioQueue, hfire]
  unfold modMov
  dsimp only
  split <;> rfl

theorem hostWrite_shared (m f a : Nat) (d : Bytes) (r : Bool) (s : State) : (hostWrite m f a d r s).2.mov.shared = s.mov.shared := by
  unfold hostWrite
  split
  · exact (chanStat_shared _ _ _ _ _).trans (vioQueue_shared _ _)
  · simp only [chanDone, countChan_mov, chanStat_shared]
    split <;> rfl

theorem hostWrite_vault (m g a : Nat) (d : Bytes) (r : Bool) (s : State) : vaultFrame f s (hostWrite m g a d r s).2 := by
  obtain ⟨hrest, -, hout⟩ := hostWrite_bus m g a d r s
  have hkst : (hostWrite m g a d r s).2.kst = s.kst := by rw [hrest]
  exact ⟨by rw [hkst]; exact hrest, hostWrite_shared _ _ _ _ _ _, hout, fun v _ => by rw [lmkOf, hkst, lmkOf]⟩

/-- Emptying or filling a slot, then writing its blob. -/
theorem vaultWrite_vault (n : Nat) (b : Bytes) (s : State) : vaultFrame f s (vaultWrite f n b s) :=
  (modLmkSlot_vault n _ s).trans (hostWrite_vault _ _ _ _ _ _)

theorem hostWrite_lmks (m g a : Nat) (d : Bytes) (r : Bool) (s : State) : lmksOf (hostWrite m g a d r s).2 = lmksOf s := by
  rw [(hostWrite_bus m g a d r s).1]
  rfl

theorem vaultWrite_lmk (n : Nat) (b : Bytes) (s : State) : lmkOf (vaultWrite f n b s) f = lmkOf (modLmkSlot f n slotWritten s) f :=
  lmkOf_of_lmks (hostWrite_lmks _ _ _ _ _ _) f

theorem vaultWrite_slot (n : Nat) (b : Bytes) (s : State) : lmkSlot (lmkOf (vaultWrite f n b s) f) n = slotWritten (lmkSlot (lmkOf s f) n) := by
  rw [vaultWrite_lmk, lmkSlot_modLmkSlot_same]

theorem vaultWrite_other {n : Nat} (b : Bytes) (s : State) (hn : n ≤ 1) :
    lmkSlot (lmkOf (vaultWrite f n b s) f) (1 - n) = lmkSlot (lmkOf s f) (1 - n) := by
  rw [vaultWrite_lmk, lmkSlot_modLmkSlot_other f n _ s hn]

theorem modLmkSlot_lastGen (n : Nat) (g : LmkSlot → LmkSlot) (s : State) : (lmkOf (modLmkSlot f n g s) f).lastGen = (lmkOf s f).lastGen := by
  rw [modLmkSlot, lmkOf_modLmk_same]
  split <;> rfl

/-- Writing a blob is no loading, and gives no generation. -/
theorem vaultWrite_marks (n : Nat) (b : Bytes) (s : State) :
    (lmkOf (vaultWrite f n b s) f).loaded = (lmkOf s f).loaded ∧ (lmkOf (vaultWrite f n b s) f).lastGen = (lmkOf s f).lastGen := by
  rw [vaultWrite_lmk]
  exact ⟨modLmkSlot_loaded _ _ _ _, modLmkSlot_lastGen _ _ _⟩

theorem slotEmpty_vault (n : Nat) (b : Bytes) (s : State) : vaultFrame f s (slotEmpty f n b s) := by
  unfold slotEmpty
  split
  · exact (modLmkSlot_vault n _ s).trans (vaultWrite_vault n b _)
  · exact .refl f s

theorem slotEmpty_slot (n : Nat) (b : Bytes) (s : State) : lmkSlot (lmkOf (slotEmpty f n b s) f) n = slotEmptied (lmkSlot (lmkOf s f) n) := by
  unfold slotEmpty slotEmptied
  split
  · rw [vaultWrite_slot, lmkSlot_modLmkSlot_same]
  · rfl

theorem slotEmpty_other {n : Nat} (b : Bytes) (s : State) (hn : n ≤ 1) :
    lmkSlot (lmkOf (slotEmpty f n b s) f) (1 - n) = lmkSlot (lmkOf s f) (1 - n) := by
  unfold slotEmpty
  split
  · rw [vaultWrite_other b _ hn, lmkSlot_modLmkSlot_other f n _ s hn]
  · rfl

end

end Sys2Proof.Machine
end

section
/-!
PROOFS. O32: the ceremonies, and the LMK slots of a VF (R148-R153).
-/

namespace Sys2Proof.Machine

/-! ### Ends of commands with effects -/

section
variable {p : Nat} {as : List Bytes} {s u v : State}

theorem payEnd_mgmtDone (h : mgmtWork p as s u) {out : Bytes} (hw : outputWritten s p out u) (k : effectFrame p u v) (hl : v.lanes = u.lanes)
    (hm : v.mov = u.mov) (st : Nat) : mgmtDone s p st out (payEnd p st out.length 1 v) :=
  ⟨payEnd_mgmtEnded h hw k st, hl.trans h.lanes, hm.trans h.mov⟩

theorem modKst_effect (g : Kst → Kst) (p : Nat) (s : State) : effectFrame p s (modKst g s) := ⟨rfl, rfl, rfl, rfl, fun _ => rfl, rfl, .refl s⟩

theorem cerAt_of_kst {s t : State} (h : t.kst = s.kst) (n : Nat) : cerAt t n = cerAt s n := by rw [cerAt, h, cerAt]
theorem lmkOf_of_kst {s t : State} (h : t.kst = s.kst) (f : Nat) : lmkOf t f = lmkOf s f := by rw [lmkOf, h, lmkOf]
theorem lmkLoadFirst_of_kst {s t : State} (h : t.kst = s.kst) (f : Nat) : lmkLoadFirst t f = lmkLoadFirst s f := by
  simp only [lmkLoadFirst, fnBound, lmkOf_of_kst h]
theorem lmksOf_of_kst {s t : State} (h : t.kst = s.kst) : lmksOf t = lmksOf s := congrArg Kst.lmks h

/-- The use of a challenge slot leaves the rest of the custody block. -/
theorem slotUsed_chals (s : State) (as : List Bytes) : ∃ x, slotUsed s as = { s.lcy with chals := x } := by
  cases as with
  | nil => exact ⟨_, rfl⟩
  | cons a as => exact ⟨_, rfl⟩

theorem mgmtWork.identSign (h : mgmtWork p as s u) (m : Bytes) : Machine.identSign m u = Machine.identSign m s := by
  obtain ⟨x, hx⟩ := slotUsed_chals s as
  rw [Machine.identSign, h.lcy, hx, Machine.identSign]

theorem mgmtWork.signerKey (h : mgmtWork p as s u) (g : Signer) (i : Nat) : Machine.signerKey u g i = Machine.signerKey s g i := by
  obtain ⟨x, hx⟩ := slotUsed_chals s as
  have hofficers : u.lcy.officers = s.lcy.officers := by rw [h.lcy, hx]
  have hrom : u.lcy.rom = s.lcy.rom := by rw [h.lcy, hx]
  cases g <;> simp only [Machine.signerKey, officerAt, romKey, hofficers, hrom] <;> rfl

end

/-! ### The opening of a ceremony (R149, R151) -/

/-- A ceremony has been opened from 96 drawn bytes. -/
def cerOpened (comp : Bool) (vf : Nat) (r : Bytes) (s : State) : State :=
  modKst (fun x => { x with
    cers := x.cers ++ [⟨x.cerNo, comp, vf, r.take 32, (kemKeygen 3 (slice r 32 32) (slice r 64 32)).2, tick s, zeroBytes 32, [], (cerFree s).getD 0⟩]
    cerNo := (x.cerNo + 1) % 65536 }) s

theorem cerBeginCmd_opens {op : Nat} {comp : Bool} {cmd : Nat → List Byte → Nat → Nat → Instr}
    (hexec : ∀ p input vf s, exec (cmd p input vf 0) s = .next (mgmtGo (cerBeginCmd op comp vf) p input 0 s)) : cerOpens op comp cmd := by
  intro s p vf d body as input hs ha h1 h2
  have hvf : ¬ (vf = 0 ∨ 1024 < vf) := by omega
  refine ⟨fun hroom hd hfits => ?_, fun hfull => ⟨_, hexec _ _ _ _, mgmtGo_fails hs ha (fun _ => rfl) rfl fun u hu => ?_⟩⟩
  · obtain ⟨x, hx, hwork, hout⟩ := mgmtGo_done hs ha (fun _ => rfl) rfl (b := beginOut s p vf)
      (commit := fun v => payState p [] (cerOpened comp vf (drawn s p 96) v)) (.inr hfits) fun u hu he => by
        obtain ⟨v, hv, hvwork⟩ := hu.drawn he hs hd 96
        have hopen : ¬ 8 ≤ u.kst.cers.length := by rw [hu.kst]; omega
        refine ⟨v, ?_, hvwork⟩
        simp only [cerBeginCmd, cerBegin, if_neg hvf, if_neg hopen, hv, hvwork.identSign, hvwork.kst]
        rfl
    have hnote := payState_note p [] (cerOpened comp vf (drawn s p 96) x)
    have heff : effectFrame p x (payState p [] (cerOpened comp vf (drawn s p 96) x)) := (modKst_effect _ p x).trans (hnote.effect p)
    refine ⟨_, (hexec _ _ _ _).trans (congrArg Host.Outcome.next hx), payEnd_mgmtDone hwork hout heff hnote.lanes hnote.mov 0,
      heff.lcy.trans hwork.lcy, ?_⟩
    have htick : tick x = tick s := by rw [tick, hwork.time, tick]
    have hfree : cerFree x = cerFree s := by simp only [cerFree, usedEntries, hwork.kst]
    exact hnote.kst.trans (by simp only [cerOpened, modKst, hwork.kst, htick, hfree])
  · have hopen : 8 ≤ u.kst.cers.length := by rw [hu.kst]; exact hfull
    simp only [cerBeginCmd, cerBegin, if_neg hvf, if_pos hopen]

/-! ### The close of a ceremony (R153) -/

section
variable {s : State} {num : Nat} {c : Cer} (h : cerAt s num = some c) (r : Nat)
include h

theorem cerClose_eq : cerClose num r s = auditU 0x0202 0 c.fn (leBytes 2 num ++ leBytes 2 c.fn ++ leBytes 1 r)
    (modKst (fun k => { k with cers := k.cers.filter fun x => decide (x.num ≠ num) }) s) := by
  simp only [cerClose, h]

theorem cerClose_kst : (cerClose num r s).kst = { s.kst with cers := s.kst.cers.filter fun x => decide (x.num ≠ num) } := by
  rw [cerClose_eq h r]
  exact (auditU_note _ _ _ _ _).kst

theorem cerClose_note : noteFrame (modKst (fun k => { k with cers := k.cers.filter fun x => decide (x.num ≠ num) }) s) (cerClose num r s) := by
  rw [cerClose_eq h r]
  exact auditU_note _ _ _ _ _

theorem cerClose_taken (k : logTakes s) : recTaken 0x0202 c.fn (leBytes 2 num ++ leBytes 2 c.fn ++ leBytes 1 r) s (cerClose num r s) := by
  rw [cerClose_eq h r]
  have htake := auditU_taken (code := 0x0202) (fl := 0) (f := c.fn) (body := leBytes 2 num ++ leBytes 2 c.fn ++ leBytes 1 r) (by decide)
    (s := modKst (fun k => { k with cers := k.cers.filter fun x => decide (x.num ≠ num) }) s) (logTakes_congr rfl rfl rfl k)
  exact ⟨htake.next, htake.held, htake.shutter, htake.staging, htake.buf, htake.anchorDue, htake.lastTime⟩

theorem cerClose_effect (p : Nat) : effectFrame p s (cerClose num r s) := (modKst_effect _ p s).trans ((cerClose_note h r).effect p)

end

theorem payState_aud (p : Nat) (eff : Bytes) (s : State) : (payState p eff s).aud = s.aud := by
  unfold payState commandState
  split
  · exact stateMirror_aud _ _ _ _ s
  · exact stateMirror_aud _ _ _ _ s

theorem ceremonyTimeout_closes {s : State} {num : Nat} {c : Cer} (h : cerAt s num = some c) (hp : s.pwr.main = true) :
    (c.start + 3600000000 ≤ tick s → ∃ t, exec (.ceremonyTimeout num) s = .next t ∧ cerClosed s num c.fn 3 t ∧ t.cpu = s.cpu ∧ t.slm = s.slm ∧
      t.lcy = s.lcy ∧ t.lanes = s.lanes ∧ t.mov = s.mov) ∧
    (tick s < c.start + 3600000000 → exec (.ceremonyTimeout num) s = .next s) := by
  have hexec : exec (.ceremonyTimeout num) s = .next (if s.pwr.main ∧ c.start + 3600000000 ≤ tick s then cerClose num 3 s else s) := by
    show execCeremonyTimeout num s = _
    simp only [execCeremonyTimeout, h]
  refine ⟨fun ht => ⟨_, hexec.trans (congrArg Host.Outcome.next (if_pos ⟨hp, ht⟩)), ⟨cerClose_kst h 3, fun hl => (cerClose_taken h 3 hl).appended⟩, ?_⟩,
    fun ht => hexec.trans (congrArg Host.Outcome.next (if_neg fun hc => by omega))⟩
  rw [cerClose_eq h 3]
  have hrep := (auditU_report 0x0202 0 c.fn (leBytes 2 num ++ leBytes 2 c.fn ++ leBytes 1 3)
    (modKst (fun k => { k with cers := k.cers.filter fun x => decide (x.num ≠ num) }) s)).1
  exact ⟨by rw [hrep]; rfl, by rw [hrep]; rfl, by rw [hrep]; rfl, by rw [hrep]; rfl, by rw [hrep]; rfl⟩

theorem ceremonyAbort_ends {s : State} {p num : Nat} {d body input : Bytes} (hs : mgmtStarts (ceremonyAbort num) s p d body [] input) :
    (∀ c, cerAt s num = some c → ∃ t, exec (.ceremonyAbort p input num 0) s = .next t ∧ mgmtDone s p 0 [] t ∧ t.lcy = s.lcy ∧
      cerClosed s num c.fn 2 t) ∧
    (cerAt s num = none → ∃ t, exec (.ceremonyAbort p input num 0) s = .next t ∧ mgmtFails s p 0x0109 s.lcy t) := by
  have ha : approval (ceremonyAbort num) s p d body [] = 0 := approval_none rfl
  refine ⟨fun c h => ?_, fun h => ⟨_, rfl, mgmtGo_fails hs ha (fun _ => rfl) rfl fun u hu => ?_⟩⟩
  · obtain ⟨x, hx, hwork, hout⟩ := mgmtGo_silent hs ha (fun _ => rfl) rfl (commit := fun v => payState p [] (cerClose num 2 v))
      fun u hu _ => ⟨u, by simp only [ceremonyAbort, cerAt_of_kst hu.kst, h], hu⟩
    have hcer : cerAt x num = some c := (cerAt_of_kst hwork.kst num).trans h
    have hnote := payState_note p [] (cerClose num 2 x)
    have heff : effectFrame p x (payState p [] (cerClose num 2 x)) := (cerClose_effect hcer 2 p).trans (hnote.effect p)
    refine ⟨_, congrArg Host.Outcome.next hx, payEnd_mgmtDone hwork hout heff ?_ ?_ 0, heff.lcy.trans hwork.lcy, ?_, fun hl => ?_⟩
    · exact hnote.lanes.trans (cerClose_note hcer 2).lanes
    · exact hnote.mov.trans (cerClose_note hcer 2).mov
    · exact hnote.kst.trans ((cerClose_kst hcer 2).trans (by rw [hwork.kst]))
    · have htake := cerClose_taken hcer 2 (logTakes_congr hwork.aud hwork.time hwork.pwr hl)
      have happ := (htake.of_aud (u := payEnd p 0 0 1 (payState p [] (cerClose num 2 x))) ⟨_, payState_aud p [] _⟩).appended
      rwa [appended, hwork.aud] at happ
  · simp only [ceremonyAbort, cerAt_of_kst hu.kst, h]

/-! ### Components (R151) -/

/-- A component of an officer has been added to a ceremony. -/
def compAdded (num officer : Nat) (k : Bytes) (s : State) : State :=
  modKst (fun x => { x with cers := x.cers.map fun c =>
    if c.num = num then { c with acc := xorBytes (padTo 32 c.acc) (padTo 32 k), officers := c.officers ++ [officer] } else c }) s

section
variable {s : State} {p num officer : Nat} {d body ct w v sig input : Bytes} {c : Cer}
  (hs : mgmtStarts (lmkCompAdd num ct w v officer sig) s p d body [] input)
include hs

theorem lmkCompAdd_fails {st : Nat} (h : ∀ u, mgmtWork p [] s u → (lmkCompAdd num ct w v officer sig).run ⟨p, d, body, []⟩ u = .fail st u) :
    ∃ t, exec (.lmkCompAdd p input num ct w v officer sig 0) s = .next t ∧ mgmtFails s p st s.lcy t :=
  ⟨_, rfl, mgmtGo_fails hs (approval_none rfl) (fun _ => rfl) rfl h⟩

variable (hcer : cerAt s num = some c) (hcomp : c.comp = true) (hroom : c.officers.length < 8)
include hcer hcomp hroom

omit hs in
/-- The work of LMK_COMP_ADD for an open ceremony of components. -/
theorem lmkCompAdd_run {u : State} (hu : mgmtWork p [] s u) (e : MgmtEnv) : (lmkCompAdd num ct w v officer sig).run e u =
    if c.officers.contains officer then .fail 0x0303 u
    else match signerKey s (.custody none) officer with
      | none => .fail 0x0304 u
      | some pk =>
        if !slhVerify slh256s pk (leBytes 2 num ++ ct ++ w) sig then .fail 0x0304 u
        else match cerOpen c ct w v with
          | none => .fail 0x0205 u
          | some k => .done [] (fun s => payState e.core [] (compAdded num officer k s)) u := by
  have hgo : ¬ (!c.comp ∨ 8 ≤ c.officers.length) := by
    simp only [hcomp]
    simpa using hroom
  simp only [lmkCompAdd, cerAt_of_kst hu.kst, hcer, if_neg hgo, hu.signerKey]
  rfl

theorem lmkCompAdd_adds {pk k : Bytes} (hnew : c.officers.contains officer = false) (hkey : signerKey s (.custody none) officer = some pk)
    (hsig : slhVerify slh256s pk (leBytes 2 num ++ ct ++ w) sig = true) (hopen : cerOpen c ct w v = some k) :
    ∃ t, exec (.lmkCompAdd p input num ct w v officer sig 0) s = .next t ∧ mgmtDone s p 0 [] t ∧ t.lcy = s.lcy ∧
      t.kst = { s.kst with cers := s.kst.cers.map fun x =>
        if x.num = num then { x with acc := xorBytes (padTo 32 x.acc) (padTo 32 k), officers := x.officers ++ [officer] } else x } := by
  obtain ⟨x, hx, hwork, hout⟩ := mgmtGo_silent hs (approval_none rfl) (fun _ => rfl) rfl
    (commit := fun v => payState p [] (compAdded num officer k v)) fun u hu _ => ⟨u, by
      rw [lmkCompAdd_run hcer hcomp hroom hu]
      simp only [hnew, hkey, hsig, hopen, Bool.not_true]
      rfl, hu⟩
  have hnote := payState_note p [] (compAdded num officer k x)
  have heff : effectFrame p x (payState p [] (compAdded num officer k x)) := (modKst_effect _ p x).trans (hnote.effect p)
  refine ⟨_, congrArg Host.Outcome.next hx, payEnd_mgmtDone hwork hout heff hnote.lanes hnote.mov 0, heff.lcy.trans hwork.lcy, ?_⟩
  exact hnote.kst.trans (by simp only [compAdded, modKst, hwork.kst])

end

/-! ### The installation of an LMK (R152) -/

theorem installSlot_le (l : Lmk) : installSlot l ≤ 1 := by
  unfold installSlot
  split <;> decide

/-- An LMK stands in its slot, the former CURRENT in the other, and both blobs are written. -/
def lmkPlaced (f : Nat) (lmk nonces : Bytes) (s : State) : State :=
  let n := installSlot (lmkOf s f)
  let g := ((lmkOf s f).lastGen + 1) % 65536
  let u := vaultWrite f n (nonces.take 12) (modLmkSlot f n (setLmk lmk 1 g) (modLmk f (fun l => { l with lastGen := g, loaded := true }) s))
  if (lmkSlot (lmkOf u f) (1 - n)).key.isSome then vaultWrite f (1 - n) (nonces.drop 12) (modLmkSlot f (1 - n) (fun x => { x with role := 2 }) u) else u

/-- The installation, its record and the close of the ceremony. -/
theorem lmkInstall_eq (op num f : Nat) (lmk nonces : Bytes) (p : Nat) (s : State) : ∃ eff, lmkInstall op num f lmk nonces p s =
    cerClose num 1 (payRecord p 0x0201 f (leBytes 2 op ++ leBytes 2 f ++ leBytes 1 (installSlot (lmkOf s f)) ++
      leBytes 2 (((lmkOf s f).lastGen + 1) % 65536) ++ leBytes 2 num) eff (lmkPlaced f lmk nonces s)) := ⟨_, rfl⟩

theorem lmkPlaced_vault (f : Nat) (lmk nonces : Bytes) (s : State) : vaultFrame f s (lmkPlaced f lmk nonces s) := by
  have hfirst := ((modLmk_vault (f := f) (fun l => { l with lastGen := ((lmkOf s f).lastGen + 1) % 65536, loaded := true }) s).trans
    (modLmkSlot_vault (installSlot (lmkOf s f)) (setLmk lmk 1 (((lmkOf s f).lastGen + 1) % 65536)) _)).trans
    (vaultWrite_vault (installSlot (lmkOf s f)) (nonces.take 12) _)
  unfold lmkPlaced
  dsimp only
  split
  · exact hfirst.trans ((modLmkSlot_vault _ _ _).trans (vaultWrite_vault _ _ _))
  · exact hfirst

section
variable (f n : Nat) (lmk b : Bytes) (s : State)

/-- The first half of the installation: the new LMK's slot and blob. -/
def lmkFilled (g : Nat) : State := vaultWrite f n b (modLmkSlot f n (setLmk lmk 1 g) (modLmk f (fun l => { l with lastGen := g, loaded := true }) s))

theorem lmkFilled_slot (g : Nat) : lmkSlot (lmkOf (lmkFilled f n lmk b s g) f) n = slotWritten (setLmk lmk 1 g (lmkSlot (lmkOf s f) n)) := by
  rw [lmkFilled, vaultWrite_slot, lmkSlot_modLmkSlot_same, lmkOf_modLmk_same]
  rfl

theorem lmkFilled_other (g : Nat) (hn : n ≤ 1) : lmkSlot (lmkOf (lmkFilled f n lmk b s g) f) (1 - n) = lmkSlot (lmkOf s f) (1 - n) := by
  rw [lmkFilled, vaultWrite_other b _ hn, lmkSlot_modLmkSlot_other f n _ _ hn, lmkOf_modLmk_same]
  rfl

theorem lmkFilled_marks (g : Nat) : (lmkOf (lmkFilled f n lmk b s g) f).loaded = true ∧ (lmkOf (lmkFilled f n lmk b s g) f).lastGen = g := by
  obtain ⟨hloaded, hgen⟩ := vaultWrite_marks (f := f) n b (modLmkSlot f n (setLmk lmk 1 g) (modLmk f (fun l => { l with lastGen := g, loaded := true }) s))
  rw [lmkFilled, hloaded, hgen, modLmkSlot_loaded, modLmkSlot_lastGen, lmkOf_modLmk_same]
  exact ⟨rfl, rfl⟩

end

theorem lmkPlaced_eq (f : Nat) (lmk nonces : Bytes) (s : State) {u : State}
    (hu : u = lmkFilled f (installSlot (lmkOf s f)) lmk (nonces.take 12) s (((lmkOf s f).lastGen + 1) % 65536)) :
    lmkPlaced f lmk nonces s = if (lmkSlot (lmkOf u f) (1 - installSlot (lmkOf s f))).key.isSome then
      vaultWrite f (1 - installSlot (lmkOf s f)) (nonces.drop 12) (modLmkSlot f (1 - installSlot (lmkOf s f)) (fun x => { x with role := 2 }) u) else u := by
  rw [hu]
  rfl

/-- Where both slots and the marks of the VF stand once an LMK has been installed. -/
theorem lmkPlaced_lmk (f : Nat) (lmk nonces : Bytes) (s : State) {l : Lmk} {n g : Nat} (hl : l = lmkOf s f) (hi : n = installSlot l)
    (hg : g = (l.lastGen + 1) % 65536) :
    lmkSlot (lmkOf (lmkPlaced f lmk nonces s) f) n = slotWritten (setLmk lmk 1 g (lmkSlot l n)) ∧
    lmkSlot (lmkOf (lmkPlaced f lmk nonces s) f) (1 - n) =
      (if (lmkSlot l (1 - n)).key.isSome then slotWritten { lmkSlot l (1 - n) with role := 2 } else lmkSlot l (1 - n)) ∧
    (lmkOf (lmkPlaced f lmk nonces s) f).lastGen = g ∧ (lmkOf (lmkPlaced f lmk nonces s) f).loaded = true := by
  have hn : n ≤ 1 := hi ▸ installSlot_le l
  have hback : 1 - (1 - n) = n := by omega
  subst hl
  have hslot := lmkFilled_slot f n lmk (nonces.take 12) s g
  have hother := lmkFilled_other f n lmk (nonces.take 12) s g hn
  obtain ⟨hloaded, hgen⟩ := lmkFilled_marks f n lmk (nonces.take 12) s g
  have heq := lmkPlaced_eq f lmk nonces s (u := lmkFilled f n lmk (nonces.take 12) s g) (by rw [hi, hg])
  rw [← hi, hother] at heq
  rw [heq]
  by_cases hold : (lmkSlot (lmkOf s f) (1 - n)).key.isSome = true
  · have hlast : 1 - n ≤ 1 := by omega
    have hkeep := vaultWrite_other (f := f) (n := 1 - n) (nonces.drop 12)
      (modLmkSlot f (1 - n) (fun x => { x with role := 2 }) (lmkFilled f n lmk (nonces.take 12) s g)) hlast
    have hkeep' := lmkSlot_modLmkSlot_other f (1 - n) (fun x => { x with role := 2 }) (lmkFilled f n lmk (nonces.take 12) s g) hlast
    obtain ⟨hm1, hm2⟩ := vaultWrite_marks (f := f) (1 - n) (nonces.drop 12)
      (modLmkSlot f (1 - n) (fun x => { x with role := 2 }) (lmkFilled f n lmk (nonces.take 12) s g))
    rw [hback] at hkeep hkeep'
    rw [if_pos hold, if_pos hold, hm1, hm2, modLmkSlot_loaded, modLmkSlot_lastGen, vaultWrite_slot, lmkSlot_modLmkSlot_same, hother, hkeep, hkeep']
    exact ⟨hslot, rfl, hgen, hloaded⟩
  · rw [if_neg hold, if_neg hold]
    exact ⟨hslot, hother, hgen, hloaded⟩

/-- What an installation leaves: the LMKs' slots and the ceremony apart, nothing of the key store differs; its record comes before the close's. -/
theorem lmkInstall_leaves {op num f p : Nat} {k b : Bytes} {s : State} {y : Cer} (hcer : cerAt s num = some y) (hf : y.fn = f) {t : State}
    (ht : t = lmkInstall op num f k b p s) :
    effectFrame p s t ∧ t.lanes = s.lanes ∧
    t.kst = { s.kst with lmks := (lmkPlaced f k b s).kst.lmks, cers := s.kst.cers.filter fun x => decide (x.num ≠ num) } ∧
    (logTakesTwo s →
      recorded s t 0 0x0201 f (leBytes 2 op ++ leBytes 2 f ++ leBytes 1 (installSlot (lmkOf s f)) ++
        leBytes 2 (((lmkOf s f).lastGen + 1) % 65536) ++ leBytes 2 num) ∧
      recorded s t 1 0x0202 f (leBytes 2 num ++ leBytes 2 f ++ [1])) := by
  obtain ⟨eff, heq⟩ := lmkInstall_eq op num f k b p s
  have hplace := lmkPlaced_vault f k b s
  obtain ⟨u, hu⟩ : ∃ u, u = lmkPlaced f k b s := ⟨_, rfl⟩
  obtain ⟨v, hv⟩ : ∃ v, v = payRecord p 0x0201 f (leBytes 2 op ++ leBytes 2 f ++ leBytes 1 (installSlot (lmkOf s f)) ++
    leBytes 2 (((lmkOf s f).lastGen + 1) % 65536) ++ leBytes 2 num) eff u := ⟨_, rfl⟩
  rw [← hu] at hplace heq
  rw [heq, ← hv] at ht
  have hnote : noteFrame u v := hv ▸ payRecord_note _ _ _ _ _ _
  have hvcer : cerAt v num = some y := by rw [← hcer, cerAt, hnote.kst, hplace.kst, cerAt]
  rw [ht]
  refine ⟨((hplace.effect p).trans (hnote.effect p)).trans (cerClose_effect hvcer 1 p),
    (cerClose_note hvcer 1).lanes.trans (hnote.lanes.trans hplace.lanes), ?_, fun hl => ?_⟩
  · rw [cerClose_kst hvcer, hnote.kst, hplace.kst, hu]
  · obtain ⟨hone, hused, hmod⟩ := hl
    have hulog := logTakes_congr hplace.aud hplace.time hplace.pwr hone
    have hutwo : logTakesTwo u := ⟨hulog, by rw [logUsed, hplace.aud]; exact hused, by rw [hplace.aud]; exact hmod⟩
    have hfirst : recTaken 0x0201 f _ u v := hv ▸ payRecord_taken (by decide) hulog
    have hboth := hfirst.recorded_both (cerClose_taken hvcer 1 (hfirst.logTakes hnote.time hnote.pwr hutwo))
    rw [recorded, recorded, hplace.aud, hf] at hboth
    exact hboth

/-- The FINISH of a ceremony whose LMK has been checked. -/
theorem cerFinish_installs {c : MgmtCmd} {op num f p : Nat} {k d body input : Bytes} {as : List Bytes} {s : State} {i : Instr} {y : Cer}
    (hs : mgmtStarts c s p d body as input) (ha : approval c s p d body as = 0) (hc : ∀ b, c.signers (modCore p kresDone s) b = c.signers s b)
    (hp : c.param (modCore p kresDone s) d = c.param s d) (hexec : exec i s = .next (mgmtGo c p input 0 s)) (hcer : cerAt s num = some y)
    (hf : y.fn = f)
    (hrun : ∀ u, mgmtWork p as s u → c.run ⟨p, d, body, as.map apOfficer⟩ u = cerFinish op num f k ⟨p, d, body, as.map apOfficer⟩ u) :
    cerInstalls op num f k s p as i := by
  refine ⟨fun hfree hd => ?_, fun h0 h1 => ⟨_, hexec, mgmtGo_fails hs ha hc hp fun u hu => ?_⟩⟩
  · obtain ⟨x, hx, hwork, hout⟩ := mgmtGo_silent hs ha hc hp (commit := lmkInstall op num f k (drawn s p 24) p) fun u hu he => by
      obtain ⟨v, hv, hvwork⟩ := hu.drawn he hs hd 24
      exact ⟨v, by rw [hrun u hu]; simp only [cerFinish, lmkOf_of_kst hu.kst, if_neg hfree, hv], hvwork⟩
    have hlmk : lmkOf x f = lmkOf s f := lmkOf_of_kst hwork.kst f
    obtain ⟨t, ht⟩ : ∃ t, t = lmkInstall op num f k (drawn s p 24) p x := ⟨_, rfl⟩
    obtain ⟨heff, hlanes, hkst, hrec⟩ := lmkInstall_leaves ((cerAt_of_kst hwork.kst num).trans hcer) hf ht
    obtain ⟨hslot, hother, hgen, hloaded⟩ := lmkPlaced_lmk f k (drawn s p 24) x hlmk.symm rfl rfl
    rw [← ht] at hx
    rw [hwork.kst] at hkst
    have hall : t.kst.lmks = (lmkPlaced f k (drawn s p 24) x).kst.lmks := by rw [hkst]
    have hlmks : ∀ g, lmkOf (payEnd p 0 0 1 t) g = lmkOf (lmkPlaced f k (drawn s p 24) x) g := lmkOf_of_lmks (t := payEnd p 0 0 1 t) hall
    refine ⟨_, hexec.trans (congrArg Host.Outcome.next hx), payEnd_mgmtEnded hwork hout heff 0, hlanes.trans hwork.lanes, heff.lcy.trans hwork.lcy,
      ⟨by rw [hlmks, hslot], by rw [hlmks, hother], by rw [hlmks, hgen], by rw [hlmks, hloaded], fun g hg => ?_, ?_⟩, fun hl => ?_⟩
    · rw [hlmks, (lmkPlaced_vault f k (drawn s p 24) x).others g hg, lmkOf_of_kst hwork.kst]
    · exact hkst.trans (by rw [← hall]; rfl)
    · obtain ⟨hone, hused, hmod⟩ := hl
      have hboth := hrec ⟨logTakes_congr hwork.aud hwork.time hwork.pwr hone, by rw [logUsed, hwork.aud]; exact hused, by rw [hwork.aud]; exact hmod⟩
      rw [recorded, recorded, hwork.aud, hlmk] at hboth
      exact hboth
  · rw [hrun u hu]
    simp only [cerFinish, lmkOf_of_kst hu.kst]
    rw [if_pos ⟨h0, h1⟩]

theorem lmkKemFinish_ends {s : State} {p num : Nat} {d body ct w v input : Bytes} {as : List Bytes} {c : Cer}
    (hs : mgmtStarts (lmkKemFinish num ct w v) s p d body as input) (ha : approval (lmkKemFinish num ct w v) s p d body as = 0)
    (hcer : cerAt s num = some c) (hcomp : c.comp = false) (hload : lmkLoadFirst s c.fn = false) :
    (∀ k, cerOpen c ct w v = some k → cerInstalls 0x3102 num c.fn k s p as (.lmkKemFinish p input num ct w v 0)) ∧
    (cerOpen c ct w v = none → ∃ t, exec (.lmkKemFinish p input num ct w v 0) s = .next t ∧ mgmtFails s p 0x0205 (slotUsed s as) t) := by
  have hrun : ∀ (e : MgmtEnv) u, mgmtWork p as s u → (lmkKemFinish num ct w v).run e u =
      match cerOpen c ct w v with
      | none => .fail 0x0205 u
      | some k => cerFinish 0x3102 num c.fn k e u := fun e u hu => by
    simp only [lmkKemFinish, cerAt_of_kst hu.kst, lmkLoadFirst_of_kst hu.kst, hcer, hcomp, hload]
    rfl
  exact ⟨fun k hk => cerFinish_installs hs ha (fun _ => rfl) rfl rfl hcer rfl fun u hu => by simp only [hrun _ u hu, hk],
    fun hk => ⟨_, rfl, mgmtGo_fails hs ha (fun _ => rfl) rfl fun u hu => by simp only [hrun _ u hu, hk]⟩⟩

theorem lmkCompFinish_ends {s : State} {p num : Nat} {d body v input : Bytes} {as : List Bytes} {c : Cer}
    (hs : mgmtStarts (lmkCompFinish num v) s p d body as input) (ha : approval (lmkCompFinish num v) s p d body as = 0)
    (hcer : cerAt s num = some c) (hcomp : c.comp = true) (hload : lmkLoadFirst s c.fn = false) :
    (2 ≤ c.officers.length → kcv 5 c.acc = v → cerInstalls 0x3105 num c.fn c.acc s p as (.lmkCompFinish p input num v 0)) ∧
    (c.officers.length < 2 → ∃ t, exec (.lmkCompFinish p input num v 0) s = .next t ∧ mgmtFails s p 0x0303 (slotUsed s as) t) ∧
    (2 ≤ c.officers.length → kcv 5 c.acc ≠ v →
      ∃ t, exec (.lmkCompFinish p input num v 0) s = .next t ∧ mgmtFails s p 0x0205 (slotUsed s as) t) := by
  have hrun : ∀ (e : MgmtEnv) u, mgmtWork p as s u → (lmkCompFinish num v).run e u =
      if c.officers.length < 2 then .fail 0x0303 u
      else if kcv 5 c.acc ≠ v then .fail 0x0205 u
      else cerFinish 0x3105 num c.fn c.acc e u := fun e u hu => by
    simp only [lmkCompFinish, cerAt_of_kst hu.kst, lmkLoadFirst_of_kst hu.kst, hcer, hcomp, hload]
    rfl
  refine ⟨fun hl hk => cerFinish_installs hs ha (fun _ => rfl) rfl rfl hcer rfl fun u hu => ?_,
    fun hl => ⟨_, rfl, mgmtGo_fails hs ha (fun _ => rfl) rfl fun u hu => ?_⟩,
    fun hl hk => ⟨_, rfl, mgmtGo_fails hs ha (fun _ => rfl) rfl fun u hu => ?_⟩⟩
  · rw [hrun _ u hu, if_neg (Nat.not_lt.2 hl), if_neg (not_not.2 hk)]
  · rw [hrun _ u hu, if_pos hl]
  · rw [hrun _ u hu, if_neg (Nat.not_lt.2 hl), if_pos hk]

/-! ### The emptying of slots (R140, R148) -/

/-- The end of a command that has changed the LMK slots of VF `f`, and records it: the record is written, and the slots stay. -/
theorem lmkRecord_note (op f n g : Nat) (eff : Bytes) (p : Nat) (s : State) : noteFrame s (lmkRecord op f n g eff p s) := payRecord_note _ _ _ _ _ _

/-- The slot that is PREVIOUS, where one alone is. -/
theorem previousSlot {l : Lmk} {n : Nat} (hn : n < 2) (h : (lmkSlot l n).role = 2) (ho : (lmkSlot l (1 - n)).role ≠ 2) :
    [0, 1].find? (fun n => decide ((lmkSlot l n).role = 2)) = some n := by
  rcases Nat.le_one_iff_eq_zero_or_eq_one.1 (Nat.le_of_lt_succ hn) with rfl | rfl
  · simp [h]
  · simp [h, ho]

theorem lmkRetire_empties {s : State} {p vf n : Nat} {d body input : Bytes} {as : List Bytes} (hs : mgmtStarts (lmkRetire vf) s p d body as input)
    (ha : approval (lmkRetire vf) s p d body as = 0) (h1 : 1 ≤ vf) (h2 : vf ≤ 1024) (hload : lmkLoadFirst s vf = false) (hn : n < 2)
    (hrole : (lmkSlot (lmkOf s vf) n).role = 2) (hother : (lmkSlot (lmkOf s vf) (1 - n)).role ≠ 2) (hd : drawReady s p) :
    ∃ t, exec (.lmkRetire p input vf 0) s = .next t ∧ mgmtEnded s p 0 [] t ∧ t.lanes = s.lanes ∧ t.lcy = slotUsed s as ∧
      lmkSlot (lmkOf t vf) n = slotEmptied (lmkSlot (lmkOf s vf) n) ∧ lmkSlot (lmkOf t vf) (1 - n) = lmkSlot (lmkOf s vf) (1 - n) ∧
      (∀ v, v ≠ vf → lmkOf t v = lmkOf s v) ∧ t.kst = { s.kst with lmks := t.kst.lmks } ∧
      (logTakes s → appended s t 0x0201 vf (leBytes 2 0x3106 ++ leBytes 2 vf ++ leBytes 1 n ++ leBytes 2 (lmkSlot (lmkOf s vf) n).gen ++ leBytes 2 0)) := by
  have hvf : ¬ (vf = 0 ∨ 1024 < vf) := by omega
  obtain ⟨x, hx, hwork, hout⟩ := mgmtGo_silent hs ha (fun _ => rfl) rfl (commit := fun s' =>
      let g := (lmkSlot (lmkOf s' vf) n).gen
      let s' := slotEmpty vf n (drawn s p 12) s'
      lmkRecord 0x3106 vf n g (lmkEff s' vf n (lmkSlot (lmkOf s' vf) n)) p s') fun u hu he => by
    obtain ⟨v, hv, hvwork⟩ := hu.drawn he hs hd 12
    refine ⟨v, ?_, hvwork⟩
    simp only [lmkRetire, if_neg hvf, lmkLoadFirst_of_kst hu.kst, hload, lmkOf_of_kst hu.kst, previousSlot hn hrole hother, hv]
    rfl
  obtain ⟨u, hu⟩ : ∃ u, u = slotEmpty vf n (drawn s p 12) x := ⟨_, rfl⟩
  have hempty : vaultFrame vf x u := hu ▸ slotEmpty_vault _ _ _
  obtain ⟨eff, heff⟩ : ∃ eff, eff = lmkEff u vf n (lmkSlot (lmkOf u vf) n) := ⟨_, rfl⟩
  have hlmk : lmkOf x vf = lmkOf s vf := lmkOf_of_kst hwork.kst vf
  simp only [← hu, ← heff, hlmk] at hx
  have hnote := lmkRecord_note 0x3106 vf n (lmkSlot (lmkOf s vf) n).gen eff p u
  have hlmks : ∀ g, lmkOf (payEnd p 0 0 1 (lmkRecord 0x3106 vf n (lmkSlot (lmkOf s vf) n).gen eff p u)) g = lmkOf u g := fun g =>
    lmkOf_of_lmks (lmksOf_of_kst hnote.kst) g
  have hall := (hempty.effect p).trans (hnote.effect p)
  refine ⟨_, congrArg Host.Outcome.next hx, payEnd_mgmtEnded hwork hout hall 0, hnote.lanes.trans (hempty.lanes.trans hwork.lanes),
    hall.lcy.trans hwork.lcy, ?_, ?_, fun g hg => ?_, ?_, fun hl => ?_⟩
  · rw [hlmks, hu, slotEmpty_slot, hlmk]
  · rw [hlmks, hu, slotEmpty_other _ _ (Nat.le_of_lt_succ hn), hlmk]
  · rw [hlmks, hempty.others g hg, lmkOf_of_kst hwork.kst]
  · have hkst : (lmkRecord 0x3106 vf n (lmkSlot (lmkOf s vf) n).gen eff p u).kst = { s.kst with lmks := u.kst.lmks } := by
      rw [hnote.kst, hempty.kst, hwork.kst]
    exact hkst.trans (by rw [← hnote.kst]; rfl)
  · have haud : u.aud = s.aud := hempty.aud.trans hwork.aud
    have htake := payRecord_taken (p := p) (code := 0x0201) (f := vf) (eff := eff) (body := leBytes 2 0x3106 ++ leBytes 2 vf ++ leBytes 1 n ++
      leBytes 2 (lmkSlot (lmkOf s vf) n).gen ++ leBytes 2 0) (by decide)
      (logTakes_congr haud (hempty.time.trans hwork.time) (hempty.pwr.trans hwork.pwr) hl)
    have happ := htake.appended
    rw [appended, haud] at happ
    exact happ

/-! ### The unbinding of a VF (R140, R148) -/

/-- Of the key store only keys, ledger slots and the sensitive-key list differ, and of the rest what the going of keys moves. -/
structure unbindFrame (s t : State) : Prop where
  rest : t = { s with
    kst := { s.kst with keys := t.kst.keys, ledger := t.kst.ledger, sens := t.kst.sens }
    lanes := { s.lanes with lanes := t.lanes.lanes }
    par := t.par }

section
variable {s t u : State}

theorem unbindFrame.refl (s : State) : unbindFrame s s := ⟨rfl⟩
theorem unbindFrame.trans (h : unbindFrame s t) (k : unbindFrame t u) : unbindFrame s u := ⟨by rw [k.rest, h.rest]⟩
theorem retireFrame.unbind (h : retireFrame s t) : unbindFrame s t :=
  ⟨by
    have hsens : t.kst.sens = s.kst.sens := by rw [h.rest]
    rw [hsens]
    exact h.rest⟩

theorem unbindFrame.effect (h : unbindFrame s t) (p : Nat) : effectFrame p s t := by
  have hcore : ∀ q, core t q = core s q := fun q => by rw [h.rest]; rfl
  exact ⟨by rw [h.rest], by rw [h.rest], by rw [h.rest], by rw [h.rest], fun q => by rw [hcore], by rw [hcore], outGrows_of_eq (by rw [h.rest])⟩

theorem unbindFrame.lmks (h : unbindFrame s t) : lmksOf t = lmksOf s := by rw [h.rest]; rfl

/-- A ledger slot that goes takes its keys with it, and leaves no entry at its number. -/
theorem ledgerDrop_unbind (n : Nat) (s : State) : unbindFrame s (ledgerDrop n s) ∧ (ledgerDrop n s).kst.sens = s.kst.sens ∧
    (ledgerDrop n s).kst.ledger.map (fun e => (e.1, e.2.fn)) = (s.kst.ledger.filter fun e => decide (e.1 ≠ n)).map fun e => (e.1, e.2.fn) := by
  have hfold := keyRetire_foldl_retire ((s.kst.keys.filter fun e => decide (e.2.ledger = some n)).map fun e => e.1) (modKst (fun k => { k with
    ledger := k.ledger.filter (fun e => decide (e.1 ≠ n))
    keys := k.keys.map fun e => if e.2.ledger = some n then (e.1, { e.2 with ledger := none, chunk := 0 }) else e }) s)
  exact ⟨unbindFrame.trans ⟨rfl⟩ hfold.unbind, (congrArg (fun t => t.kst.sens) hfold.rest).trans rfl, hfold.slots⟩

/-- A list of ledger slots has gone: what stays stood before, at another number. -/
theorem ledgerDrop_foldl (l : List Nat) (s : State) : unbindFrame s (l.foldl (fun s n => ledgerDrop n s) s) ∧
    (l.foldl (fun s n => ledgerDrop n s) s).kst.sens = s.kst.sens ∧
    ∀ e ∈ (l.foldl (fun s n => ledgerDrop n s) s).kst.ledger, e.1 ∉ l ∧ ∃ e' ∈ s.kst.ledger, e'.1 = e.1 ∧ e'.2.fn = e.2.fn := by
  induction l generalizing s with
  | nil => exact ⟨.refl s, rfl, fun e he => ⟨by simp, e, he, rfl, rfl⟩⟩
  | cons n l ih =>
    obtain ⟨hframe, hsens, hslots⟩ := ledgerDrop_unbind n s
    obtain ⟨kframe, ksens, kleft⟩ := ih (ledgerDrop n s)
    refine ⟨hframe.trans kframe, ksens.trans hsens, fun e he => ?_⟩
    obtain ⟨hnot, x, hx, hidx, hfn⟩ := kleft e he
    have hmem : (x.1, x.2.fn) ∈ (ledgerDrop n s).kst.ledger.map fun e => (e.1, e.2.fn) := List.mem_map.2 ⟨x, hx, rfl⟩
    rw [hslots] at hmem
    obtain ⟨y, hy, hyx⟩ := List.mem_map.1 hmem
    obtain ⟨hy, hyn⟩ := List.mem_filter.1 hy
    obtain ⟨hy1, hy2⟩ := Prod.mk.inj hyx
    refine ⟨fun hc => (List.mem_cons.1 hc).elim (fun hc => ?_) hnot, y, hy, hy1.trans hidx, hy2.trans hfn⟩
    exact (of_decide_eq_true hyn) (hy1.trans (hidx.trans hc))

end

/-- The slots of a VF emptied, and then its keys, ledger slots and sensitive-key entries gone. -/
def unbound (f : Nat) (s : State) : State :=
  let s := ((s.kst.ledger.filter fun e => decide (e.2.fn = f)).map fun e => e.1).foldl (fun s n => ledgerDrop n s) s
  fnKeysDrop f (modKst (fun k => { k with sens := k.sens.filter fun x => decide (x.1 ≠ f) }) s)

theorem lmkUnbind_eq (f : Nat) (b : Bytes) (s : State) :
    lmkUnbind f b s = unbound f (slotEmpty f 1 (b.drop 12) (slotEmpty f 0 (b.take 12) s)) := rfl

theorem unbound_left (f : Nat) (s : State) : unbindFrame s (unbound f s) ∧
    (unbound f s).kst.sens = s.kst.sens.filter (fun x => decide (x.1 ≠ f)) ∧ (∀ e ∈ (unbound f s).kst.ledger, e.2.fn ≠ f) ∧
    ∀ e ∈ (unbound f s).kst.keys, e.2.func = f → keyPinned (unbound f s) e.1 = true ∧ e.2.doomed = true := by
  obtain ⟨u, hu⟩ : ∃ u, u = ((s.kst.ledger.filter fun e => decide (e.2.fn = f)).map fun e => e.1).foldl (fun s n => ledgerDrop n s) s := ⟨_, rfl⟩
  obtain ⟨v, hv⟩ : ∃ v, v = modKst (fun k => { k with sens := k.sens.filter fun x => decide (x.1 ≠ f) }) u := ⟨_, rfl⟩
  have hdef : unbound f s = fnKeysDrop f v := by rw [hv, hu]; rfl
  obtain ⟨hframe, hsens, hleft⟩ := ledgerDrop_foldl ((s.kst.ledger.filter fun e => decide (e.2.fn = f)).map fun e => e.1) s
  rw [← hu] at hframe hsens hleft
  have hdrop := fnKeysDrop_retire f v
  have hnone : ∀ e ∈ u.kst.ledger, e.2.fn ≠ f := fun e he hc => by
    obtain ⟨hnot, x, hx, hidx, hfn⟩ := hleft e he
    exact hnot (List.mem_map.2 ⟨x, List.mem_filter.2 ⟨hx, by simpa using hfn.trans hc⟩, hidx⟩)
  rw [hdef]
  refine ⟨hframe.trans (unbindFrame.trans (t := v) (hv ▸ ⟨rfl⟩) hdrop.unbind), ?_, fun e he => ?_, fun e he hf => ?_⟩
  · rw [hdrop.rest, hv, ← hsens]
    rfl
  · have hmem : (e.1, e.2.fn) ∈ (fnKeysDrop f v).kst.ledger.map fun e => (e.1, e.2.fn) := List.mem_map.2 ⟨e, he, rfl⟩
    rw [hdrop.slots] at hmem
    obtain ⟨y, hy, hye⟩ := List.mem_map.1 hmem
    have hyu : y ∈ u.kst.ledger := by
      rw [hv] at hy
      exact hy
    exact (Prod.mk.inj hye).2 ▸ hnone y hyu
  · obtain ⟨hdoom, hpin⟩ := fnKeysDrop_left he hf
    exact ⟨(hdrop.pinned e.1).trans hpin, hdoom⟩

theorem lmkUnbind_unbinds {s : State} {p vf : Nat} {d body input : Bytes} {as : List Bytes}
    (hs : mgmtStarts (lmkUnbindCmd vf) s p d body as input) (ha : approval (lmkUnbindCmd vf) s p d body as = 0) (h1 : 1 ≤ vf) (h2 : vf ≤ 1024)
    (hd : drawReady s p) :
    ∃ t, exec (.lmkUnbind p input vf 0) s = .next t ∧ mgmtEnded s p 0 [] t ∧ t.lcy = slotUsed s as ∧
      (lmkOf t vf).s0 = slotEmptied (lmkOf s vf).s0 ∧ (lmkOf t vf).s1 = slotEmptied (lmkOf s vf).s1 ∧ (∀ v, v ≠ vf → lmkOf t v = lmkOf s v) ∧
      t.kst.sens = s.kst.sens.filter (fun x => decide (x.1 ≠ vf)) ∧ (∀ e ∈ t.kst.ledger, e.2.fn ≠ vf) ∧
      (∀ e ∈ t.kst.keys, e.2.func = vf → keyPinned t e.1 = true ∧ e.2.doomed = true) := by
  have hvf : ¬ (vf = 0 ∨ 1024 < vf) := by omega
  obtain ⟨x, hx, hwork, hout⟩ := mgmtGo_silent hs ha (fun _ => rfl) rfl
      (commit := fun s' => lmkRecord 0x3107 vf 0xFF 0 ([9] ++ leBytes 2 vf) p (lmkUnbind vf (drawn s p 24) s')) fun u hu he => by
    obtain ⟨v, hv, hvwork⟩ := hu.drawn he hs hd 24
    exact ⟨v, by simp only [lmkUnbindCmd, if_neg hvf, hv], hvwork⟩
  obtain ⟨y, hy⟩ : ∃ y, y = slotEmpty vf 0 ((drawn s p 24).take 12) x := ⟨_, rfl⟩
  obtain ⟨u, hu⟩ : ∃ u, u = slotEmpty vf 1 ((drawn s p 24).drop 12) y := ⟨_, rfl⟩
  rw [lmkUnbind_eq, ← hy, ← hu] at hx
  have hempty : vaultFrame vf x u := (show vaultFrame vf x y from hy ▸ slotEmpty_vault _ _ _).trans (hu ▸ slotEmpty_vault _ _ _)
  obtain ⟨hframe, hsens, hledger, hkeys⟩ := unbound_left vf u
  have hnote := lmkRecord_note 0x3107 vf 0xFF 0 ([9] ++ leBytes 2 vf) p (unbound vf u)
  have hkst : (payEnd p 0 0 1 (lmkRecord 0x3107 vf 0xFF 0 ([9] ++ leBytes 2 vf) p (unbound vf u))).kst = (unbound vf u).kst := hnote.kst
  have hlmks : ∀ g, lmkOf (payEnd p 0 0 1 (lmkRecord 0x3107 vf 0xFF 0 ([9] ++ leBytes 2 vf) p (unbound vf u))) g = lmkOf u g := fun g =>
    (lmkOf_of_kst hkst g).trans (lmkOf_of_lmks hframe.lmks g)
  have hlmk : lmkOf x vf = lmkOf s vf := lmkOf_of_kst hwork.kst vf
  have hall := ((hempty.effect p).trans (hframe.effect p)).trans (hnote.effect p)
  have hslot0 : lmkSlot (lmkOf u vf) 0 = slotEmptied (lmkSlot (lmkOf s vf) 0) := by
    rw [hu, slotEmpty_other (n := 1) _ y (by decide), hy, slotEmpty_slot, hlmk]
  have hslot1 : lmkSlot (lmkOf u vf) 1 = slotEmptied (lmkSlot (lmkOf s vf) 1) := by
    rw [hu, slotEmpty_slot, hy, slotEmpty_other (n := 0) _ x (by decide), hlmk]
  refine ⟨_, congrArg Host.Outcome.next hx, payEnd_mgmtEnded hwork hout hall 0, hall.lcy.trans hwork.lcy, ?_, ?_, fun g hg => ?_, ?_, ?_, ?_⟩
  · rw [hlmks]
    exact hslot0
  · rw [hlmks]
    exact hslot1
  · rw [hlmks, hempty.others g hg, lmkOf_of_kst hwork.kst]
  · rw [hkst, hsens, hempty.kst, hwork.kst]
  · rw [hkst]
    exact hledger
  · rw [hkst]
    intro e he hf
    obtain ⟨hpin, hdoom⟩ := hkeys e he hf
    refine ⟨keyPinned_payEnd ?_, hdoom⟩
    rw [hnote.1]
    exact hpin

/-- Settles O32, command by command. -/
theorem ceremonies : Obligations.Ceremonies := by
  refine ⟨cerBeginCmd_opens fun _ _ _ _ => rfl, cerBeginCmd_opens fun _ _ _ _ => rfl, fun s p num officer d body ct w v sig k pk input c hs hcer hcomp hroom => ?_,
    fun _ _ _ _ _ _ _ _ _ _ _ hs ha hcer hcomp hload => lmkKemFinish_ends hs ha hcer hcomp hload,
    fun _ _ _ _ _ _ _ _ _ hs ha hcer hcomp hload => lmkCompFinish_ends hs ha hcer hcomp hload,
    fun _ _ _ _ _ _ _ _ hs ha h1 h2 hload hn hrole hother hd => lmkRetire_empties hs ha h1 h2 hload hn hrole hother hd,
    fun _ _ _ _ _ _ _ hs ha h1 h2 hd => lmkUnbind_unbinds hs ha h1 h2 hd,
    fun _ _ _ _ _ _ c hs => ⟨(ceremonyAbort_ends hs).1 c, (ceremonyAbort_ends hs).2⟩, fun _ _ _ hcer hp _ => ceremonyTimeout_closes hcer hp⟩
  have hrun := fun u (hu : mgmtWork p [] s u) => lmkCompAdd_run (ct := ct) (w := w) (v := v) (sig := sig) (officer := officer) hcer hcomp hroom hu
    ⟨p, d, body, []⟩
  refine ⟨fun hnew hkey hsig => ⟨fun hopen => lmkCompAdd_adds hs hcer hcomp hroom hnew hkey hsig hopen,
    fun hopen => lmkCompAdd_fails hs fun u hu => ?_⟩, fun hold => lmkCompAdd_fails hs fun u hu => ?_,
    fun hnew hkey hsig => lmkCompAdd_fails hs fun u hu => ?_⟩
  · simp only [hrun u hu, hnew, hkey, hsig, hopen, Bool.not_true]
    rfl
  · rw [hrun u hu, if_pos hold]
  · simp only [hrun u hu, hnew, hkey, hsig, Bool.not_false]
    rfl

end Sys2Proof.Machine
end

section
/-!
PROOFS. O23: what the parts of a modular or lattice request leave of the device (R158, R160, R188-R191).
-/

namespace Sys2Proof.Machine

/-! ### What a part of a request may change -/

/-- What a lane's request leaves unchanged, but for the generators. -/
def asymFrame (n p : Nat) (s t : State) : Prop := laneFrame n p { s with ent := t.ent } t

/-- The lane's queue, the entries that hold results, the core's function, memories, pins and the key store are as before. -/
structure asymKeeps (n p : Nat) (s t : State) : Prop where
  queue : (laneOf t n).queue = (laneOf s n).queue
  outs : t.lanes.keyOut = s.lanes.keyOut
  func : (core t p).func = (core s p).func
  mem : memKept p s t
  keys : keysKept p s t

section
variable {n p : Nat} {s t u : State}

theorem asymFrame.refl (n p : Nat) (s : State) : asymFrame n p s s := ⟨rfl, fun _ => rfl, fun _ _ => rfl, fun _ _ => ⟨rfl, rfl⟩, rfl⟩

theorem asymFrame.trans (h : asymFrame n p s t) (k : asymFrame n p t u) : asymFrame n p s u := by
  obtain ⟨hrest, hfns, hlanes, hcores, hself⟩ := h
  obtain ⟨krest, kfns, klanes, kcores, kself⟩ := k
  refine ⟨by rw [krest, hrest], fun g => ?_, fun m hm => ?_, fun q hq => ?_, ?_⟩
  · exact (kfns g).trans (by rw [show fnOf { t with ent := u.ent } g = fnOf t g from rfl, hfns g]; rfl)
  · exact (klanes m hm).trans (by rw [show laneOf { t with ent := u.ent } m = laneOf t m from rfl, hlanes m hm]; rfl)
  · exact ⟨(kcores q hq).1.trans (hcores q hq).1, (kcores q hq).2.trans (hcores q hq).2⟩
  · exact kself.trans (by rw [show core { t with ent := u.ent } p = core t p from rfl, hself]; rfl)

theorem memKept.refl (p : Nat) (s : State) : memKept p s s := ⟨rfl, rfl, rfl⟩
theorem memKept.trans (h : memKept p s t) (k : memKept p t u) : memKept p s u :=
  ⟨k.1.trans h.1, k.2.1.trans h.2.1, k.2.2.trans h.2.2⟩

theorem keysKept.trans (h : keysKept p s t) (k : keysKept p t u) : keysKept p s u :=
  ⟨k.1.trans h.1, k.2.1.trans h.2.1, k.2.2.trans h.2.2⟩

theorem asymKeeps.refl (n p : Nat) (s : State) : asymKeeps n p s s := ⟨rfl, rfl, rfl, .refl p s, rfl, rfl, rfl⟩
theorem asymKeeps.trans (h : asymKeeps n p s t) (k : asymKeeps n p t u) : asymKeeps n p s u :=
  ⟨k.queue.trans h.queue, k.outs.trans h.outs, k.func.trans h.func, h.mem.trans k.mem, h.keys.trans k.keys⟩

/-! ### Counting, reading from the host, drawing -/

theorem sideFrame.asymFrame (h : sideFrame s t) : Machine.asymFrame n p s t := by
  obtain ⟨hrest, hfns⟩ := h
  refine ⟨by rw [hrest], hfns, fun m _ => by rw [hrest]; rfl, fun q _ => ⟨by rw [hrest]; rfl, by rw [hrest]; rfl⟩, by rw [hrest]; rfl⟩

theorem sideFrame.asymKeeps (h : sideFrame s t) : Machine.asymKeeps n p s t := by
  rw [h.1]
  exact ⟨rfl, rfl, rfl, ⟨rfl, rfl, rfl⟩, rfl, rfl, rfl⟩

theorem drawFrame.asymKeeps (h : drawFrame s t) : Machine.asymKeeps n p s t := by
  have hcore := h.cores p
  refine ⟨by rw [h.rest]; rfl, by rw [h.rest], by rw [hcore], ⟨by rw [hcore], by rw [h.rest], by rw [h.rest]⟩, by rw [hcore], by rw [h.rest],
    by rw [h.rest]⟩

theorem countLane_side (num n p k : Nat) (s : State) : sideFrame s (countLane num n p k s) := countEv_side _ _ _

theorem hostReads_side (f : Nat) (l : List (Nat × Nat)) (s : State) : sideFrame s (hostReads f l s) := by
  obtain ⟨o, ho⟩ := hostReads_out f l s
  rw [ho]
  exact ⟨rfl, fun _ => rfl⟩

/-- No generator asks for a seed while none has drawn 4,096 times (R309). -/
theorem seedWinner_none (h : ∀ j, (drbgOf s j).count < 4096) : seedWinner s = none := by
  have hfold : ∀ l : List Nat, l.foldl (fun (best : Option (Nat × Nat)) i =>
      let d := drbgOf s i
      if d.ready ∧ 4096 ≤ d.count then
        match best with
        | none => some (i, d.count)
        | some b => if b.2 < d.count then some (i, d.count) else some b
      else best) none = none := by
    intro l
    induction l with
    | nil => rfl
    | cons i l ih =>
      rw [List.foldl_cons]
      dsimp only
      rw [if_neg fun hc => absurd hc.2 (by have := h i; omega)]
      exact ih
  exact congrArg (Option.map fun b => b.1) (hfold _)

theorem drbgOf_modDrbg_count {s : State} (i j : Nat) (g : Drbg → Drbg) (hg : ∀ d, d.count < 4095 → (g d).count < 4096)
    (h : ∀ j, (drbgOf s j).count < 4095) : (drbgOf (modDrbg i g s) j).count < 4096 := by
  have hj := h j
  simp only [drbgOf, modDrbg, modEnt, List.getD_eq_getElem?_getD, List.getElem?_modify] at hj ⊢
  cases hd : s.ent.drbgs[j]? with
  | none => simp [Drbg.blank]
  | some d =>
    rw [hd] at hj
    by_cases hij : i = j
    · simpa [hij] using hg d hj
    · simp [hij]
      exact Nat.lt_of_lt_of_le hj (by decide)

/-- A draw while no generator nears its reseed changes the generators alone (R307, R309). -/
theorem drbgDraw_alone {i k : Nat} {b : Bytes} (h : ∀ j, (drbgOf s j).count < 4095) (hd : drbgDraw i k s = some (b, t)) :
    t = { s with ent := t.ent } := by
  unfold drbgDraw at hd
  split at hd
  · cases hd
  · have hi := h i
    obtain ⟨-, ht⟩ := Prod.mk.inj (Option.some.inj hd)
    rw [← ht]
    unfold seedServe
    rw [seedWinner_none fun j => drbgOf_modDrbg_count i j _ (fun d _ => by dsimp only; omega) h]
    rfl

/-! ### The lane's working memory -/

theorem modLane_asym (g : Lane → Lane) (hq : ∀ l, (g l).queue = l.queue) (hp : ∀ l, (g l).ports = l.ports) (s : State) :
    asymFrame n p s (modLane n g s) ∧ asymKeeps n p s (modLane n g s) := by
  refine ⟨⟨rfl, fun _ => rfl, fun m hm => ?_, fun q _ => ⟨rfl, ?_⟩, rfl⟩, ?_, rfl, rfl, ⟨rfl, rfl, rfl⟩, rfl, rfl, rfl⟩
  · rw [laneOf_modLane_ne g s hm]
    rfl
  · rw [lanePort, laneOf_modLane_same, hp]
    rfl
  · rw [laneOf_modLane_same, hq]

theorem laneWork_asym (d : Bytes) (s : State) : asymFrame n p s (laneWork n d s) ∧ asymKeeps n p s (laneWork n d s) :=
  modLane_asym (fun l => { l with work := (chunks 8 d).zipIdx.map fun x => (x.2, leNat x.1) }) (fun _ => rfl) (fun _ => rfl) s

theorem latWork_asym (d : Bytes) (s : State) : asymFrame n p s (latWork n d s) ∧ asymKeeps n p s (latWork n d s) := by
  have h := laneWork_asym (n := n) (p := p) d s
  have k := modLane_asym (n := n) (p := p) (fun l => { l with gen0 := nttGen 1, gen1 := nttGen 3 }) (fun _ => rfl) (fun _ => rfl) (laneWork n d s)
  exact ⟨h.1.trans k.1, h.2.trans k.2⟩

/-! ### The output of a request (R160, R198) -/

theorem coreWrite_wrote (a : Nat) (d : Bytes) (s : State) (ha : a < 0x80000000) : coreWrote s (coreWrite p a d s) p a d := by
  unfold coreWrite
  split
  next h =>
    refine ⟨fun _ => ⟨by rw [core_modCore_same], rfl, rfl⟩, fun h1 => ?_, fun h1 => ?_, fun h1 => ?_⟩ <;> omega
  next h =>
    split
    next h2 => exact ⟨fun h1 => absurd h1 h, fun _ _ => ⟨rfl, rfl, rfl⟩, fun h1 => by omega, fun h1 => by omega⟩
    next h2 => exact ⟨fun h1 => absurd h1 h, fun _ h1 => absurd h1 h2, fun _ _ => ⟨rfl, rfl, rfl⟩, fun h1 => by omega⟩

theorem coreWrite_frame (a : Nat) (d : Bytes) (s : State) : asymFrame n p s (coreWrite p a d s) ∧
    (coreWrite p a d s).lanes = s.lanes ∧ (core (coreWrite p a d s) p).func = (core s p).func ∧ keysKept p s (coreWrite p a d s) := by
  unfold coreWrite
  split
  · refine ⟨⟨rfl, fun _ => rfl, fun _ _ => rfl, fun q hq => ⟨core_modCore_ne _ _ hq, rfl⟩, ?_⟩, rfl, by rw [core_modCore_same], ?_, rfl, rfl⟩
    · rw [core_modCore_same]
      rfl
    · rw [core_modCore_same]
  · split <;> exact ⟨⟨rfl, fun _ => rfl, fun _ _ => rfl, fun _ _ => ⟨rfl, rfl⟩, rfl⟩, rfl, rfl, rfl, rfl, rfl⟩

theorem outWrite_side (p off : Nat) (d : Bytes) (s : State) : sideFrame s (outWrite p off d s) := by
  rw [outWrite_out]
  exact ⟨rfl, fun _ => rfl⟩

section
variable {r : LaneReq} (hr : r.core = p) (a : Nat) (d : Bytes) (s : State)
include hr

theorem laneDst_frame : asymFrame n p s (laneDst r a d s) ∧ (laneOf (laneDst r a d s) n).queue = (laneOf s n).queue ∧
    (laneDst r a d s).lanes.keyOut = s.lanes.keyOut ∧ keysKept p s (laneDst r a d s) := by
  subst hr
  unfold laneDst
  split
  · obtain ⟨hframe, hlanes, -, hkeys⟩ := coreWrite_frame (n := n) (p := r.core) a d s
    exact ⟨hframe, by rw [laneOf, hlanes]; rfl, by rw [hlanes], hkeys⟩
  · have hside := outWrite_side r.core (r.winOut + (a - 0xC0000000)) d s
    exact ⟨hside.asymFrame, (hside.asymKeeps (n := n) (p := r.core)).queue, (hside.asymKeeps (n := n) (p := r.core)).outs,
      (hside.asymKeeps (n := n) (p := r.core)).keys⟩

theorem laneDst_wrote : coreWrote s (laneDst r a d s) p a d := by
  subst hr
  unfold laneDst
  split
  next ha => exact coreWrite_wrote a d s ha
  next ha =>
    have hmem := ((outWrite_side r.core (r.winOut + (a - 0xC0000000)) d s).asymKeeps (n := 0) (p := r.core)).mem
    exact ⟨fun h => by omega, fun _ h => by omega, fun _ h => by omega, fun _ => hmem⟩

end

/-- What was written stands there whatever came before and after, where that leaves the memories. -/
theorem coreWrote.of_kept {a : Nat} {d : Bytes} {v w : State} (h : memKept p s v) (k : coreWrote v w p a d) (l : memKept p w t) :
    coreWrote s t p a d := by
  obtain ⟨hmem, hscratch, hshared⟩ := h
  obtain ⟨lmem, lscratch, lshared⟩ := l
  obtain ⟨k1, k2, k3, k4⟩ := k
  refine ⟨fun ha => ?_, fun ha hb => ?_, fun ha hb => ?_, fun ha => ?_⟩
  · obtain ⟨h1, h2, h3⟩ := k1 ha
    exact ⟨by rw [lmem, h1, hmem], lscratch.trans (h2.trans hscratch), lshared.trans (h3.trans hshared)⟩
  · obtain ⟨h1, h2, h3⟩ := k2 ha hb
    exact ⟨lmem.trans (h1.trans hmem), by rw [lscratch, h2, hscratch], lshared.trans (h3.trans hshared)⟩
  · obtain ⟨h1, h2, h3⟩ := k3 ha hb
    exact ⟨lmem.trans (h1.trans hmem), lscratch.trans (h2.trans hscratch), by rw [lshared, h3, hshared]⟩
  · exact memKept.trans ⟨hmem, hscratch, hshared⟩ ((k4 ha).trans ⟨lmem, lscratch, lshared⟩)

/-! ### The end of a request (R158) -/

theorem laneOf_mapLanes (g : Lane → Lane) (hg : ∀ l, g l = { l with held := (g l).held }) (s : State) (m : Nat) :
    laneOf (mapLanes g s) m = { laneOf s m with held := (laneOf (mapLanes g s) m).held } := by
  have h : laneOf (mapLanes g s) m = laneOf s m ∨ laneOf (mapLanes g s) m = g (laneOf s m) :=
    tget_map_keyed Lane.blank (fun e => g e.2) s.lanes.lanes m
  rcases h with h | h
  · rw [h]
  · rw [h]
    exact hg _

/-- The mark of a request's end on its lane. -/
def markQueue (tag st : Nat) (out : Bytes) (l : Lane) : Lane :=
  { l with queue := l.queue.map fun r => if r.tag = tag then { r with done := some (st, out) } else r }

theorem laneMark_lane (tag st : Nat) (out : Bytes) (s : State) : laneOf (laneMark n tag st out s) n =
    { markQueue tag st out (laneOf s n) with held := (laneOf (laneMark n tag st out s) n).held } := by
  have h := laneOf_mapLanes (fun l => { l with held := l.held.filter fun x => decide (x.2 ≠ tag) }) (fun _ => rfl) (modLane n (markQueue tag st out) s) n
  rw [laneOf_modLane_same] at h
  exact h

theorem laneMark_frame (tag st : Nat) (out : Bytes) (s : State) : asymFrame n p s (laneMark n tag st out s) := by
  refine ⟨rfl, fun _ => rfl, fun m hm => ?_, fun q _ => ⟨rfl, ?_⟩, rfl⟩
  · have h := laneOf_mapLanes (fun l => { l with held := l.held.filter fun x => decide (x.2 ≠ tag) }) (fun _ => rfl) (modLane n (markQueue tag st out) s) m
    rw [laneOf_modLane_ne _ _ hm] at h
    exact h
  · rw [lanePort, laneMark_lane]
    rfl

theorem laneMark_ended {r : LaneReq} {st : Nat} {out : Bytes} (h : r ∈ (laneOf s n).queue) :
    laneEnded n r st out (laneMark n r.tag st out s) := by
  rw [laneEnded, laneMark_lane]
  exact List.mem_map.2 ⟨r, h, if_pos rfl⟩

end

end Sys2Proof.Machine
end

section
/-!
PROOFS. O23: the uses that a request spends, and the key material that it leaves in the key store (R122, R143, R144, R188, R190).
-/

namespace Sys2Proof.Machine

/-! ### Keys by index -/

section
variable (i : Nat) (g : KEnt → KEnt) (s : State)

theorem find?_modKey (j : Nat) : (modKey i g s).kst.keys.find? (fun e => decide (e.1 = j)) =
    (s.kst.keys.find? fun e => decide (e.1 = j)).map fun e => if e.1 = i then (e.1, keySeal s.kst.intKey i (g e.2)) else e := by
  show (s.kst.keys.map _).find? _ = _
  rw [List.find?_map]
  congr 2
  funext e
  simp only [Function.comp]
  split <;> rfl

theorem keyAt_modKey_same : keyAt (modKey i g s) i = (keyAt s i).map fun e => keySeal s.kst.intKey i (g e) := by
  rw [keyAt, find?_modKey, keyAt]
  cases h : s.kst.keys.find? fun e => decide (e.1 = i) with
  | none => rfl
  | some e =>
    have hi : e.1 = i := by simpa using List.find?_some h
    simp [hi]

theorem keyAt_modKey_ne {j : Nat} (h : j ≠ i) : keyAt (modKey i g s) j = keyAt s j := by
  rw [keyAt, find?_modKey, keyAt]
  cases hf : s.kst.keys.find? fun e => decide (e.1 = j) with
  | none => rfl
  | some e =>
    have hj : e.1 = j := by simpa using List.find?_some hf
    have hi : ¬ e.1 = i := hj ▸ h
    simp [hi]

theorem usedEntries_modKey (hg : ∀ e, (g e).ext = e.ext) : usedEntries (modKey i g s) = usedEntries s := by
  unfold usedEntries
  congr 1
  show (s.kst.keys.map _).flatMap _ = _
  rw [List.flatMap_map]
  congr 1
  funext e
  split
  · rw [show (keySeal s.kst.intKey i (g e.2)).ext = (g e.2).ext from rfl, hg]
  · rfl

end

/-! ### Spending a use -/

/-- Only keys that stand where they stood, what is left in ledger slots, and what the partner is shown differ. -/
structure spendFrame (s t : State) : Prop where
  rest : t = { s with kst := { s.kst with keys := t.kst.keys, ledger := t.kst.ledger }, par := t.par }
  used : usedEntries t = usedEntries s

section
variable {s t u : State}

theorem spendFrame.refl (s : State) : spendFrame s s := ⟨rfl, rfl⟩
theorem spendFrame.trans (h : spendFrame s t) (k : spendFrame t u) : spendFrame s u := ⟨by rw [k.rest, h.rest], k.used.trans h.used⟩

theorem modChunk_spend (i : Nat) (g : KEnt → Nat) (s : State) : spendFrame s (modKey i (fun e => { e with chunk := g e }) s) :=
  ⟨rfl, usedEntries_modKey i _ s fun _ => rfl⟩
theorem modLedger_spend (n : Nat) (g : Budget → Budget) (s : State) : spendFrame s (modLedger n g s) := ⟨rfl, rfl⟩
theorem ledgerMirror_spend (n : Nat) (s : State) : spendFrame s (ledgerMirror n s) := by
  have hkst := ledgerMirror_kst n s
  refine ⟨?_, by simp only [usedEntries, hkst]⟩
  rw [hkst]
  unfold ledgerMirror stateMirror
  split
  · rw [mirrorSend_par]
  · rfl

theorem chunkTake_spend (i : Nat) (s : State) : spendFrame s (chunkTake i s) := by
  unfold chunkTake
  split
  · exact .refl s
  · split
    · exact .refl s
    · dsimp only
      split
      · exact .refl s
      · exact (modChunk_spend i (fun e => e.chunk + min 65536 _) s).trans ((modLedger_spend _ _ _).trans (ledgerMirror_spend _ _))

theorem usesSpend_spend (i fuel k : Nat) (s : State) : spendFrame s (usesSpend i fuel k s) := by
  induction fuel generalizing k s with
  | zero => exact .refl s
  | succ fuel ih =>
    unfold usesSpend
    split
    · exact .refl s
    · split
      · exact .refl s
      · split
        · dsimp only
          split
          · exact (modChunk_spend i (fun e => e.chunk - k) s).trans (chunkTake_spend i _)
          · exact modChunk_spend i (fun e => e.chunk - k) s
        · exact ((modChunk_spend i (fun _ => 0) s).trans (chunkTake_spend i _)).trans (ih _ _)

/-- A use of a key without budget takes nothing, and one of a chunk that is not near its end the chunk alone (R143, R144). -/
theorem usesSpend_taken {i k fuel : Nat} {e : KEnt} (he : keyAt s i = some e) : usesTaken s (usesSpend i (fuel + 1) k s) i k e := by
  unfold usesSpend
  simp only [he]
  cases hl : e.ledger with
  | none => exact ⟨fun _ => ⟨rfl, rfl⟩, fun _ => ⟨rfl, rfl, fun _ _ => rfl, e, he, by simp [hl]⟩⟩
  | some b =>
    refine ⟨fun h => absurd (hl.symm.trans h) (by simp), fun hc => ?_⟩
    have hle : k ≤ e.chunk := by omega
    have hlow : ¬ e.chunk - k < 16384 := by omega
    simp only [Option.isNone_some, hle, hlow, if_true, if_false, Bool.false_eq_true]
    exact ⟨rfl, rfl, fun j hj => keyAt_modKey_ne i _ s hj, keySeal s.kst.intKey i { e with chunk := e.chunk - k }, by
      rw [keyAt_modKey_same, he, Option.map_some], by simp [keySeal, hl]⟩

/-! ### A request's spending -/

/-- What may come before a request's result: the lane's queue, the entries that hold results, the core's function and the used entries stay. -/
structure asymPrior (n p : Nat) (s t : State) : Prop where
  frame : asymFrame n p s t
  queue : (laneOf t n).queue = (laneOf s n).queue
  outs : t.lanes.keyOut = s.lanes.keyOut
  func : (core t p).func = (core s p).func
  used : usedEntries t = usedEntries s
  mem : memKept p s t

variable {n p : Nat}

theorem asymPrior.trans (h : asymPrior n p s t) (k : asymPrior n p t u) : asymPrior n p s u :=
  ⟨h.frame.trans k.frame, k.queue.trans h.queue, k.outs.trans h.outs, k.func.trans h.func, k.used.trans h.used, h.mem.trans k.mem⟩

theorem asymKeeps.used (h : asymKeeps n p s t) : usedEntries t = usedEntries s := by
  have hkst : t.kst = s.kst := h.keys.2.1
  simp only [usedEntries, hkst]

theorem asymKeeps.prior (h : asymKeeps n p s t) (k : asymFrame n p s t) : asymPrior n p s t :=
  ⟨k, h.queue, h.outs, h.func, h.used, h.mem⟩

theorem spendFrame.prior (h : spendFrame s t) : asymPrior n p s t :=
  ⟨⟨by rw [h.rest], fun g => by rw [h.rest]; rfl, fun m _ => by rw [h.rest]; rfl, fun q _ => ⟨by rw [h.rest]; rfl, by rw [h.rest]; rfl⟩,
    by rw [h.rest]; rfl⟩, by rw [h.rest]; rfl, by rw [h.rest], by rw [h.rest]; rfl, h.used,
    ⟨by rw [h.rest]; rfl, by rw [h.rest], by rw [h.rest]⟩⟩

theorem modCore_pins_prior (g : List Pin → List Pin) (s : State) : asymPrior n p s (modCore p (fun c => { c with pins := g c.pins }) s) := by
  refine ⟨⟨rfl, fun _ => rfl, fun _ _ => rfl, fun q hq => ⟨core_modCore_ne _ _ hq, rfl⟩, ?_⟩, rfl, rfl, ?_, rfl, ?_, rfl, rfl⟩ <;> rw [core_modCore_same]
  rfl

/-- The pins once `k` uses of a handle's reservation have been spent. -/
def pinsSpent (h k : Nat) (l : List Pin) : List Pin := l.map fun q => if q.handle = h then { q with resv := q.resv - k } else q

theorem find?_pinsSpent (h k : Nat) (l : List Pin) : (pinsSpent h k l).find? (fun q => decide (q.handle = h)) =
    (l.find? fun q => decide (q.handle = h)).map fun q => { q with resv := q.resv - k } := by
  rw [pinsSpent, List.find?_map]
  have hcomp : (fun q : Pin => decide (q.handle = h)) ∘ (fun q => if q.handle = h then { q with resv := q.resv - k } else q) =
      fun q => decide (q.handle = h) := by
    funext q
    simp only [Function.comp]
    split <;> rfl
  rw [hcomp]
  cases hf : l.find? fun q => decide (q.handle = h) with
  | none => rfl
  | some q =>
    have hq : q.handle = h := by simpa using List.find?_some hf
    simp [hq]

section
variable {r : LaneReq} (k : Nat)

theorem laneUses_laneSpend (s : State) : laneUses (laneSpend r k s) r = laneUses s r - k := by
  unfold laneSpend
  split
  next h => simp [laneUses, h]
  next q h =>
    have hpins : (core (usesSpend q.index 3 k (modCore r.core (fun c => { c with pins := pinsSpent r.key k c.pins }) s)) r.core).pins =
        pinsSpent r.key k (core s r.core).pins := by
      rw [(usesSpend_spend _ _ _ _).rest]
      show (core (modCore r.core (fun c => { c with pins := pinsSpent r.key k c.pins }) s) r.core).pins = _
      rw [core_modCore_same]
    have hfind := find?_pinsSpent r.key k (core s r.core).pins
    rw [← hpins, h] at hfind
    have huses : laneUses (usesSpend q.index 3 k (modCore r.core (fun c => { c with pins := pinsSpent r.key k c.pins }) s)) r = q.resv - k := by
      rw [laneUses, hfind]
      rfl
    rw [show laneUses s r = q.resv by rw [laneUses, h]]
    exact huses

theorem laneSpend_taken {i : Nat} {e : KEnt} (hk : laneKey s r = some (i, e)) : usesTaken s (laneSpend r k s) i k e := by
  unfold laneKey at hk
  unfold laneSpend
  cases hf : (core s r.core).pins.find? fun q => decide (q.handle = r.key) with
  | none =>
    rw [hf] at hk
    cases hk
  | some q =>
    rw [hf, Option.bind_some] at hk
    cases ha : keyAt s q.index with
    | none =>
      rw [ha] at hk
      cases hk
    | some x =>
      rw [ha, Option.map_some] at hk
      obtain ⟨rfl, rfl⟩ := Prod.mk.inj (Option.some.inj hk)
      have hu : keyAt (modCore r.core (fun c => { c with pins := pinsSpent r.key k c.pins }) s) q.index = some x := ha
      exact usesSpend_taken hu

theorem laneSpend_prior (hr : r.core = p) (s : State) : asymPrior n p s (laneSpend r k s) := by
  subst hr
  unfold laneSpend
  split
  · exact (asymKeeps.refl n r.core s).prior (.refl n r.core s)
  · exact (modCore_pins_prior (pinsSpent r.key k) s).trans (usesSpend_spend _ _ _ _).prior

end

/-! ### Key material that a request leaves (R188, R190) -/

/-- A free entry is found: those past the base that are used run out. -/
theorem freeEntries_finds {used : List Nat} {fuel base n : Nat} (h : (used.filter fun j => decide (base ≤ j)).length < fuel) :
    ∃ i l, freeEntries used fuel base (n + 1) = i :: l ∧ i ∉ used := by
  induction fuel generalizing base with
  | zero => omega
  | succ fuel ih =>
    unfold freeEntries
    by_cases hu : base ∈ used
    · rw [if_pos (List.contains_iff_mem.2 hu)]
      refine ih (Nat.lt_of_lt_of_le ?_ (Nat.le_of_lt_succ h))
      have hsplit : (used.filter fun j => decide (base + 1 ≤ j)) = (used.filter fun j => decide (base ≤ j)).filter fun j => decide (j ≠ base) := by
        rw [List.filter_filter]
        refine List.filter_congr fun j _ => ?_
        rw [← Bool.decide_and, decide_eq_decide]
        omega
      rw [hsplit]
      exact List.length_filter_lt_length_iff_exists.2 ⟨base, List.mem_filter.2 ⟨hu, by simp⟩, by simp⟩
    · rw [if_neg fun hc => hu (List.contains_iff_mem.1 hc)]
      exact ⟨base, _, rfl, hu⟩

/-- A result that is key material stands in a free entry, as a key of the core's function. -/
theorem keyResult_adds (p base kind alg : Nat) (mat : Bytes) (s : State) : ∃ i e, i ∉ usedEntries s ∧
    (keyResult p base kind alg mat s).lanes.keyOut = tset [] s.lanes.keyOut p (heldOut s p ++ [i]) ∧
    keyAt (keyResult p base kind alg mat s) i = some e ∧ e.func = (core s p).func ∧ e.kind = kind ∧ e.alg = alg ∧ e.mat = mat := by
  obtain ⟨i, ext, hfree, hnew⟩ := freeEntries_finds (used := usedEntries s) (fuel := (usedEntries s).length + (1 + extCount alg mat.length))
    (base := base) (n := extCount alg mat.length) (Nat.lt_of_le_of_lt (List.length_filter_le _ _) (by omega))
  rw [Nat.add_comm (extCount _ _) 1] at hfree
  obtain ⟨x, hx⟩ : ∃ x : KEnt, x = { newKey (core s p).func 0 0 kind alg 0 0 0 0 0xFFFFFFFF 0 false 1 mat [] with ext := ext } := ⟨_, rfl⟩
  obtain ⟨u, hu⟩ : ∃ u, u = modLanes (fun l => { l with keyOut := tset [] l.keyOut p (tget [] l.keyOut p ++ [i]) })
    (modKst (fun k => { k with keys := k.keys ++ [(i, x)] }) s) := ⟨_, rfl⟩
  have hres : keyResult p base kind alg mat s = keyTouch i u := by
    simp only [keyResult, hfree, hu, hx]
  have hat : keyAt u i = some x := by
    have hnone : s.kst.keys.find? (fun e => decide (e.1 = i)) = none := by
      refine List.find?_eq_none.2 fun e he hc => hnew ?_
      rw [of_decide_eq_true hc |>.symm]
      exact List.mem_append_left _ (List.mem_flatMap.2 ⟨e, he, List.mem_cons_self⟩)
    rw [hu, keyAt]
    show ((s.kst.keys ++ [(i, x)]).find? _).map _ = _
    rw [List.find?_append, hnone]
    simp
  refine ⟨i, keySeal u.kst.intKey i { x with used := u.kst.useNo }, hnew, ?_, ?_, ?_⟩
  · rw [hres, hu]
    rfl
  · rw [hres]
    refine (keyAt_modKey_same i (fun e => { e with used := u.kst.useNo }) u).trans ?_
    rw [hat, Option.map_some]
  · rw [hx]
    exact ⟨rfl, rfl, rfl, rfl⟩

theorem keyResult_rest (p base kind alg : Nat) (mat : Bytes) (s : State) : keyResult p base kind alg mat s =
    { s with kst := (keyResult p base kind alg mat s).kst, lanes := { s.lanes with keyOut := (keyResult p base kind alg mat s).lanes.keyOut } } := by
  simp only [keyResult]
  split <;> rfl

theorem keyResult_frame (base kind alg : Nat) (mat : Bytes) (s : State) : asymFrame n p s (keyResult p base kind alg mat s) ∧
    (laneOf (keyResult p base kind alg mat s) n).queue = (laneOf s n).queue ∧ memKept p s (keyResult p base kind alg mat s) ∧
    (core (keyResult p base kind alg mat s) p).pins = (core s p).pins := by
  rw [keyResult_rest]
  exact ⟨⟨rfl, fun _ => rfl, fun _ _ => rfl, fun _ _ => ⟨rfl, rfl⟩, rfl⟩, rfl, ⟨rfl, rfl, rfl⟩, rfl⟩

end

end Sys2Proof.Machine
end

section
/-!
PROOFS. O23: the operations of the modular and lattice lanes (R188-R190).
-/

namespace Sys2Proof.Machine

/-! ### Before a request's own work -/

/-- The state in which a request's work stands once its input is read, and random bits may have been drawn. -/
structure asymReady (n p : Nat) (s v : State) : Prop where
  keeps : asymKeeps n p s v
  frame : (∀ j, (drbgOf s j).count < 4095) → asymFrame n p s v

section
variable {n p : Nat} {s t u v w : State} {r : LaneReq}

theorem sideFrame.ready (h : sideFrame s v) : asymReady n p s v := ⟨h.asymKeeps, fun _ => h.asymFrame⟩

theorem asymReady.prior (h : asymReady n p s v) (k : asymKeeps n p v w ∧ asymFrame n p v w) : asymReady n p s w :=
  ⟨h.keeps.trans k.1, fun hc => (h.frame hc).trans k.2⟩

/-- A draw for core `p`'s request, after its input: the bits are those that its function's generator gives next. -/
theorem drawn_ready (h : sideFrame s u) (hd : drawReady s p) (k : Nat) :
    ∃ v, drbgDraw (instOf (core u p).func) k u = some (drawn s p k, v) ∧ asymReady n p s v := by
  have hcore : core u p = core s p := h.core p
  have hent : u.ent = s.ent := by rw [h.1]
  have hgen : ∀ j, drbgOf u j = drbgOf s j := fun j => by rw [drbgOf, hent, drbgOf]
  obtain ⟨v, hv, hf⟩ := drbgDraw_live (s := u) (i := instOf (core u p).func) k (by rw [drbgLive, hgen, hcore]; exact hd)
  refine ⟨v, by rw [hv, hgen, hcore]; rfl, h.asymKeeps.trans hf.asymKeeps, fun hc => h.asymFrame.trans ?_⟩
  have halone : v = { u with ent := v.ent } := drbgDraw_alone (fun j => by rw [hgen]; exact hc j) hv
  rw [halone]
  exact ⟨rfl, fun _ => rfl, fun _ _ => rfl, fun _ _ => ⟨rfl, rfl⟩, rfl⟩

theorem laneKey_of_keeps (hr : r.core = p) (h : asymKeeps n p s v) : laneKey v r = laneKey s r := by
  obtain ⟨hpins, hkst, -⟩ := h.keys
  rw [← hr] at hpins
  simp only [laneKey, keyAt, hpins, hkst]

theorem laneUses_of_pins (hr : r.core = p) (h : (core v p).pins = (core s p).pins) : laneUses v r = laneUses s r := by
  rw [← hr] at h
  simp only [laneUses, h]

theorem laneRefusal_of_side (h : sideFrame s u) (a b : Option (Nat × Nat)) : laneRefusal u r a b = laneRefusal s r a b := by
  rw [h.1]
  rfl

/-- An empty output range refuses nothing. -/
theorem laneRefusal_dst (a : Option (Nat × Nat)) (b k : Nat) :
    laneRefusal s r a (if k = 0 then none else some (b, k)) = laneRefusal s r a (some (b, k)) := by
  by_cases hk : k = 0 <;> simp [laneRefusal, hk]

/-- The input of a request of core `p`, and what reading it leaves. -/
theorem laneSrc_reads (hr : r.core = p) (h : sideFrame s u) (a k : Nat) (data : Bytes) :
    ∃ v, laneSrc r a k data u = (laneInput s p a k data, v) ∧ sideFrame s v := by
  subst hr
  unfold laneSrc laneInput
  split
  · refine ⟨u, ?_, h⟩
    rw [h.1]
    rfl
  · exact ⟨_, rfl, h.trans (hostReads_side _ _ _)⟩

theorem withInput_reads (hr : r.core = p) (h : sideFrame s u) (data : Bytes) {k : Nat}
    (href : laneRefusal s r (some (r.ain, r.len)) (if k = 0 then none else some (r.aout, k)) = none) :
    ∃ v, sideFrame s v ∧ ∀ f, withInput r data k u f = f (laneInput s p r.ain r.len data) v := by
  obtain ⟨v, hv, hside⟩ := laneSrc_reads hr h r.ain r.len data
  exact ⟨v, hside, fun f => by simp only [withInput, laneRefusal_of_side h, href, hv]⟩

/-! ### The end of a request, by what its work made -/

/-- What the writing of an output, and working memory, leave: the lane's queue, the entries that hold results, pins and keys. -/
structure asymEffect (n p : Nat) (s t : State) : Prop where
  frame : asymFrame n p s t
  queue : (laneOf t n).queue = (laneOf s n).queue
  outs : t.lanes.keyOut = s.lanes.keyOut
  keys : keysKept p s t

theorem asymEffect.trans (h : asymEffect n p s t) (k : asymEffect n p t u) : asymEffect n p s u :=
  ⟨h.frame.trans k.frame, k.queue.trans h.queue, k.outs.trans h.outs, h.keys.trans k.keys⟩

theorem asymKeeps.effect (h : asymKeeps n p s t) (k : asymFrame n p s t) : asymEffect n p s t := ⟨k, h.queue, h.outs, h.keys⟩
theorem sideFrame.effect (h : sideFrame s t) : asymEffect n p s t := h.asymKeeps.effect h.asymFrame
theorem laneWork_effect (d : Bytes) (s : State) : asymEffect n p s (laneWork n d s) := (laneWork_asym d s).2.effect (laneWork_asym d s).1
theorem laneDst_effect (hr : r.core = p) (a : Nat) (d : Bytes) (s : State) : asymEffect n p s (laneDst r a d s) := by
  obtain ⟨hframe, hqueue, houts, hkeys⟩ := laneDst_frame (n := n) hr a d s
  exact ⟨hframe, hqueue, houts, hkeys⟩

/-- The end of a request whose work left the queue, and the entries of other cores' results, as they were. -/
theorem asymDone_marked (h : asymReady n p s v) (hmem : r ∈ (laneOf s n).queue) (k : asymFrame n p v w) (hq : (laneOf w n).queue = (laneOf v n).queue)
    (ho : ∀ q, q ≠ p → heldOut w q = heldOut v q) (st : Nat) : asymDone s n p r st (laneMark n r.tag st [] w) := by
  refine ⟨laneMark_ended ?_, fun q hq => ?_, fun hc => ((h.frame hc).trans k).trans (laneMark_frame _ _ _ _)⟩
  · rw [hq, h.keeps.queue]
    exact hmem
  · show heldOut w q = heldOut s q
    rw [ho q hq, heldOut, h.keeps.outs]

/-- The end of a request that spent a use of its key, and whose result, if any, went to its output. -/
theorem asymPlain_spent (hr : r.core = p) (h : asymReady n p s v) (hmem : r ∈ (laneOf s n).queue) {i : Nat} {e : KEnt} (hk : laneKey s r = some (i, e))
    (k : asymEffect n p (laneSpend r 1 v) w) (st : Nat) : asymPlain s n p r st i 1 e (laneMark n r.tag st [] w) := by
  have hspend := laneSpend_prior 1 hr v (n := n)
  obtain ⟨hnone, hchunk⟩ := laneSpend_taken 1 (by rw [laneKey_of_keeps hr h.keeps]; exact hk)
  obtain ⟨hpins, hkst, hpar⟩ := k.keys
  obtain ⟨-, hskst, hspar⟩ := h.keeps.keys
  have hlast : ∀ j, keyAt (laneMark n r.tag st [] w) j = keyAt (laneSpend r 1 v) j := fun j =>
    show keyAt w j = _ by rw [keyAt, hkst, keyAt]
  have hfirst : ∀ j, keyAt v j = keyAt s j := fun j => by rw [keyAt, hskst, keyAt]
  refine ⟨asymDone_marked h hmem (hspend.frame.trans k.frame) (k.queue.trans hspend.queue) (fun q _ => ?_) st, ?_, ?_, fun hl => ?_, fun hc => ?_⟩
  · rw [heldOut, k.outs, hspend.outs]
  · show heldOut w p = heldOut s p
    rw [heldOut, k.outs, hspend.outs, h.keeps.outs]
  · show laneUses w r = _
    rw [laneUses_of_pins hr hpins, laneUses_laneSpend, laneUses_of_pins hr h.keeps.keys.1]
  · obtain ⟨lkst, lpar⟩ := hnone hl
    exact ⟨hkst.trans (lkst.trans hskst), hpar.trans (lpar.trans hspar)⟩
  · obtain ⟨cpar, ckst, cother, cself⟩ := hchunk hc
    refine ⟨hpar.trans (cpar.trans hspar), ?_, fun j hj => (hlast j).trans ((cother j hj).trans (hfirst j)), by rw [hlast]; exact cself⟩
    show w.kst = { s.kst with keys := w.kst.keys }
    rw [hkst, ckst, hskst]

/-- A result that went to its output stands there, and nowhere else. -/
theorem asymPlain_written (hr : r.core = p) (h : asymReady n p s v) (hmem : r ∈ (laneOf s n).queue) {i : Nat} {e : KEnt}
    (hk : laneKey s r = some (i, e)) (a : Nat) (b d : Bytes) (st : Nat) :
    asymPlain s n p r st i 1 e (laneMark n r.tag st [] (laneDst r a d (laneWork n b (laneSpend r 1 v)))) ∧
    coreWrote s (laneMark n r.tag st [] (laneDst r a d (laneWork n b (laneSpend r 1 v)))) p a d :=
  ⟨asymPlain_spent hr h hmem hk ((laneWork_effect _ _).trans (laneDst_effect hr _ _ _)) st,
    coreWrote.of_kept (h.keeps.mem.trans ((laneSpend_prior (n := n) 1 hr v).mem.trans (laneWork_asym _ _).2.mem)) (laneDst_wrote hr _ _ _)
      ⟨rfl, rfl, rfl⟩⟩

/-- A request that only tells a status spends its use. -/
theorem asymPlain_told (hr : r.core = p) (h : asymReady n p s v) (hmem : r ∈ (laneOf s n).queue) {i : Nat} {e : KEnt}
    (hk : laneKey s r = some (i, e)) (b : Bytes) (st : Nat) :
    memKept p s (laneMark n r.tag st [] (laneWork n b (laneSpend r 1 v))) ∧
    asymPlain s n p r st i 1 e (laneMark n r.tag st [] (laneWork n b (laneSpend r 1 v))) :=
  ⟨h.keeps.mem.trans ((laneSpend_prior (n := n) 1 hr v).mem.trans ((laneWork_asym (n := n) b _).2.mem.trans ⟨rfl, rfl, rfl⟩)),
    asymPlain_spent hr h hmem hk (laneWork_effect _ _) st⟩

/-- The end of a request that its key's check alone let through: nothing is spent. -/
theorem asymPlain_unspent (hr : r.core = p) (h : sideFrame s v) (hmem : r ∈ (laneOf s n).queue) {i : Nat} {e : KEnt} (hk : laneKey s r = some (i, e))
    (st : Nat) : asymPlain s n p r st i 0 e (laneMark n r.tag st [] v) := by
  obtain ⟨hpins, hkst, hpar⟩ := (h.asymKeeps (n := n) (p := p)).keys
  have hlast : ∀ j, keyAt (laneMark n r.tag st [] v) j = keyAt s j := fun j => show keyAt v j = _ by rw [keyAt, hkst, keyAt]
  have hkey : keyAt s i = some e := by
    obtain ⟨q, -, hq⟩ := Option.bind_eq_some_iff.1 hk
    obtain ⟨x, hx, hxe⟩ := Option.map_eq_some_iff.1 hq
    obtain ⟨rfl, rfl⟩ := Prod.mk.inj hxe
    exact hx
  refine ⟨asymDone_marked h.ready hmem (.refl n p v) rfl (fun _ _ => rfl) st, ?_, laneUses_of_pins hr hpins, fun _ => ⟨hkst, hpar⟩,
    fun _ => ⟨hpar, ?_, fun j _ => hlast j, e, (hlast i).trans hkey, by split <;> rfl⟩⟩
  · show heldOut v p = heldOut s p
    rw [heldOut, (h.asymKeeps (n := n) (p := p)).outs]
  · show v.kst = { s.kst with keys := v.kst.keys }
    rw [hkst]

/-- The end of a request whose result is key material. -/
theorem asymKey_made (h : asymReady n p s v) (hmem : r ∈ (laneOf s n).queue) (hx : asymPrior n p v u) {base kind alg : Nat} {mat : Bytes}
    (k : asymEffect n p (keyResult p base kind alg mat u) w) : asymKey s n p r kind alg mat (laneMark n r.tag 0 [] w) := by
  obtain ⟨hframe, hqueue, -, -⟩ := keyResult_frame (n := n) (p := p) base kind alg mat u
  obtain ⟨i, e, hnew, houts, hat, hfunc, hkind, halg, hmat⟩ := keyResult_adds p base kind alg mat u
  have hheld : u.lanes.keyOut = s.lanes.keyOut := hx.outs.trans h.keeps.outs
  have hkst : w.kst = (keyResult p base kind alg mat u).kst := k.keys.2.1
  refine ⟨asymDone_marked h hmem ((hx.frame.trans hframe).trans k.frame) (k.queue.trans (hqueue.trans hx.queue)) (fun q hq => ?_) 0,
    i, e, ?_, ?_, ?_, hfunc.trans (hx.func.trans h.keeps.func), hkind, halg, hmat⟩
  · rw [heldOut, k.outs, houts, tget_tset_ne _ _ _ hq, heldOut, hx.outs]
  · show heldOut w p = _
    rw [heldOut, k.outs, houts, tget_tset_same, heldOut, heldOut, hheld]
  · rw [← h.keeps.used, ← hx.used]
    exact hnew
  · show keyAt w i = some e
    rw [keyAt, hkst]
    exact hat

/-- Key material that a use of a key made: the memories stay. -/
theorem asymKey_spent (hr : r.core = p) (h : asymReady n p s v) (hmem : r ∈ (laneOf s n).queue) (b : Bytes) (base kind alg : Nat) (mat : Bytes) {t : State}
    (ht : t = laneMark n r.tag 0 [] (keyResult p base kind alg mat (laneWork n b (laneSpend r 1 v)))) :
    memKept p s t ∧ laneUses t r = laneUses s r - 1 ∧ asymKey s n p r kind alg mat t := by
  have hwork := laneWork_asym (n := n) (p := p) b (laneSpend r 1 v)
  have hprior := (laneSpend_prior (n := n) 1 hr v).trans (hwork.2.prior hwork.1)
  obtain ⟨-, -, hkmem, hkpins⟩ := keyResult_frame (n := n) (p := p) base kind alg mat (laneWork n b (laneSpend r 1 v))
  subst ht
  refine ⟨h.keeps.mem.trans (hprior.mem.trans (hkmem.trans ⟨rfl, rfl, rfl⟩)), ?_, asymKey_made h hmem hprior ((asymKeeps.refl n p _).effect (.refl n p _))⟩
  show laneUses (keyResult p base kind alg mat (laneWork n b (laneSpend r 1 v))) r = _
  rw [laneUses_of_pins hr hkpins, laneUses_of_pins hr hwork.2.keys.1, laneUses_laneSpend, laneUses_of_pins hr h.keeps.keys.1]

/-- Key material made without a key, with a public part for the output; what has been made may be counted. -/
theorem asymKey_written (hr : r.core = p) (h : asymReady n p s v) (hmem : r ∈ (laneOf s n).queue) (base kind alg a : Nat) (mat d : Bytes)
    (hw : sideFrame (laneDst r a d (keyResult p base kind alg mat v)) w) :
    coreWrote s (laneMark n r.tag 0 [] w) p a d ∧ asymKey s n p r kind alg mat (laneMark n r.tag 0 [] w) := by
  obtain ⟨-, -, hkmem, -⟩ := keyResult_frame (n := n) (p := p) base kind alg mat v
  exact ⟨coreWrote.of_kept (h.keeps.mem.trans hkmem) (laneDst_wrote hr _ _ _) (memKept.trans (hw.asymKeeps (n := n)).mem ⟨rfl, rfl, rfl⟩),
    asymKey_made h hmem ((asymKeeps.refl n p v).prior (.refl n p v)) ((laneDst_effect hr _ _ _).trans hw.effect)⟩

/-- Key material made without a key, and nothing for the output. -/
theorem asymKey_told (h : asymReady n p s v) (hmem : r ∈ (laneOf s n).queue) (base kind alg : Nat) (mat : Bytes)
    (hw : sideFrame (keyResult p base kind alg mat v) w) :
    memKept p s (laneMark n r.tag 0 [] w) ∧ asymKey s n p r kind alg mat (laneMark n r.tag 0 [] w) := by
  obtain ⟨-, -, hkmem, -⟩ := keyResult_frame (n := n) (p := p) base kind alg mat v
  exact ⟨h.keeps.mem.trans (hkmem.trans (memKept.trans (hw.asymKeeps (n := n)).mem ⟨rfl, rfl, rfl⟩)),
    asymKey_made h hmem ((asymKeeps.refl n p v).prior (.refl n p v)) hw.effect⟩

/-! ### The command's request runs -/

theorem laneNext_core (h : laneNext s n p = some r) : r.core = p ∧ r ∈ (laneOf s n).queue := by
  have hp := List.find?_some h
  simp only [Bool.and_eq_true, decide_eq_true_eq] at hp
  exact ⟨hp.1, List.mem_of_find?_eq_some h⟩

/-- A request of a modular or lattice lane that runs ends with what its work gives. -/
theorem laneGo_runs (hn : 24 ≤ n) (h : laneRuns s n p r) {isOp : LaneReq → Bool} (hop : isOp r = true) {run : LaneReq → State → LaneEnd} {st : Nat}
    (hrun : run r (countLane 0x103 n p 1 s) = (st, [], w)) (hst : st ≠ 255) : laneGo n p 0 isOp run s = laneMark n r.tag st [] w := by
  obtain ⟨hnext, hon, -, hasleep, hbusy, -, hinj⟩ := h
  have hblock : isBlock n = false := by simp [isBlock]; omega
  have htake : injTake 0x0B n (countLane 0x103 n p 1 s) = (none, countLane 0x103 n p 1 s) := by
    have hdbg : (countLane 0x103 n p 1 s).dbg = s.dbg := by rw [(countLane_side 0x103 n p 1 s).1]
    simp [injTake, hdbg, hinj]
  have hgo : ¬ (!lanesOn s ∨ !isOp r ∨ laneAsleep s n ∨ (isHash n ∧ s.time.refCount < s.lanes.hashBusy) ∨ (isBlock n ∧ lanePick s n ≠ some p)) := by
    simp only [hon, hop, hasleep, hblock]
    simpa using hbusy
  simp only [laneGo, hnext]
  rw [if_neg hgo]
  have hnone : (if r.twin = true then injTake 0x0B n (countLane 0x103 n p 1 s) else (none, countLane 0x103 n p 1 s)) =
      (none, countLane 0x103 n p 1 s) := by
    split
    · exact htake
    · rfl
  simp only [hblock, Bool.false_eq_true, if_false]
  rw [hnone]
  simp [hrun, hst]

theorem goMod_runs (h1 : 24 ≤ n) (h2 : n < 28) (h : laneRuns s n p r) {op : Nat} (hop : wOp r = op) {run : LaneReq → State → LaneEnd} {st : Nat}
    (hrun : run r (countLane 0x103 n p 1 s) = (st, [], w)) (hst : st ≠ 255) : goMod op n p 0 run s = laneMark n r.tag st [] w := by
  have hmod : isMod n = true := by simp [isMod, h1, h2]
  rw [goMod, if_pos hmod]
  exact laneGo_runs h1 h (decide_eq_true hop) hrun hst

/-- A request under a key that serves, with a use reserved, runs. -/
theorem withKey_runs (hr : r.core = p) (h : sideFrame s u) (hinj : s.dbg.inj = none) (hres : wReserved r = false) {i : Nat} {e : KEnt}
    (hk : laneKey s r = some (i, e)) (hbad : keyBad s i e = false) (huses : 1 ≤ laneUses s r) {ok : KEnt → Bool} (hok : ok e = true)
    (f : KEnt → (State → State) → LaneEnd) : withKey r ok u f = f e (laneSpend r 1) := by
  have hkey : laneKey u r = some (i, e) := (laneKey_of_keeps hr (h.asymKeeps (n := 0))).trans hk
  have hpass : lanePass r u = u := by
    rw [lanePass, hkey]
    exact keyPass_uninjected (by rw [h.1]; exact hinj) i
  have hbad' : keyBad u i e = false := by
    rw [← hbad, h.1]
    rfl
  have huses' : ¬ laneUses u r < 1 := by
    rw [laneUses_of_pins hr (h.asymKeeps (n := 0)).keys.1]
    omega
  simp only [withKey, hres, hpass, hkey, hbad', hok, huses']
  rfl

end

/-! ### RSA (R188, R189) -/

section
variable {n p i : Nat} {s : State} {r : LaneReq} {e : KEnt} {data : Bytes}

/-- What a request of operation `op` under a key begins with. -/
theorem keyedRuns_begins {op : Nat} (h : keyedRuns s n p op r i e) {ok : KEnt → Bool} (hok : ok e = true) :
    r.core = p ∧ r ∈ (laneOf s n).queue ∧ laneKey s r = some (i, e) ∧
    (∀ f, withKey r ok (countLane 0x103 n p 1 s) f = f e (laneSpend r 1)) ∧
    ∀ (run : LaneReq → State → LaneEnd) st w, run r (countLane 0x103 n p 1 s) = (st, [], w) → st ≠ 255 →
      goMod op n p 0 run s = laneMark n r.tag st [] w := by
  obtain ⟨h1, h2, hruns, hop, hres, hk, hbad, huses⟩ := h
  have hruns' := hruns
  obtain ⟨hnext, -, -, -, -, -, hinj⟩ := hruns'
  obtain ⟨hr, hmem⟩ := laneNext_core hnext
  exact ⟨hr, hmem, hk, fun f => withKey_runs hr (countLane_side 0x103 n p 1 s) hinj hres hk hbad huses hok f,
    fun run st w hrun hst => goMod_runs h1 h2 hruns hop hrun hst⟩

theorem rsaPrivate_runs (hkind : e.kind = 1) (hrsa : algRsa e.alg = true) (hlen : r.len = rsaLen e.alg)
    (hlt : beNat (laneInput s p r.ain r.len data) < beAt e.mat 0 (rsaLen e.alg)) (h : keyedRuns s n p 1 r i e) :
    (e.usage = chars2 'S' '0' → r.olen = r.len → laneRefusal s r (some (r.ain, r.len)) (some (r.aout, r.len)) = none →
      ∃ t, exec (.rsaPrivate n p 0 data) s = .next t ∧ asymPlain s n p r 0 i 1 e t ∧
        coreWrote s t p r.aout (beBytes r.len (rsaPrivMat e.alg e.mat (beNat (laneInput s p r.ain r.len data))))) ∧
    (e.usage ≠ chars2 'S' '0' → laneRefusal s r (some (r.ain, r.len)) none = none →
      ∃ t, exec (.rsaPrivate n p 0 data) s = .next t ∧ memKept p s t ∧
        laneUses t r = laneUses s r - 1 ∧
        asymKey s n p r 0 15 (beBytes r.len (rsaPrivMat e.alg e.mat (beNat (laneInput s p r.ain r.len data)))) t) := by
  obtain ⟨hr, hmem, hk, hkeyed, hgo⟩ := keyedRuns_begins h (ok := fun e => decide (e.kind = 1) && algRsa e.alg) (by simp [hkind, hrsa])
  rw [← hlen] at hlt
  have hle : ¬ beAt e.mat 0 r.len ≤ beNat (laneInput s p r.ain r.len data) := Nat.not_le.2 hlt
  refine ⟨fun hs0 holen href => ?_, fun hs0 href => ?_⟩
  · obtain ⟨v, hside, hv⟩ := withInput_reads hr (countLane_side 0x103 n p 1 s) data (k := r.len) (by rw [laneRefusal_dst]; exact href)
    have hrun := hgo (fun r s => rsaPrivReq n r data s) 0 (laneDst r r.aout (beBytes r.len (rsaPrivMat e.alg e.mat (beNat (laneInput s p r.ain r.len data))))
        (laneWork n (laneInput s p r.ain r.len data) (laneSpend r 1 v)))
      (by simp only [rsaPrivReq, hkeyed, ← hlen, hs0, decide_true, if_true, hv, hle, holen]; simp) (by decide)
    exact ⟨_, congrArg Host.Outcome.next hrun, asymPlain_written hr hside.ready hmem hk _ _ _ 0⟩
  · obtain ⟨v, hside, hv⟩ := withInput_reads hr (countLane_side 0x103 n p 1 s) data (k := 0) href
    have hrun := hgo (fun r s => rsaPrivReq n r data s) 0 (keyResult p workEntry 0 15
        (beBytes r.len (rsaPrivMat e.alg e.mat (beNat (laneInput s p r.ain r.len data))))
        (laneWork n (laneInput s p r.ain r.len data) (laneSpend r 1 v)))
      (by simp only [rsaPrivReq, hkeyed, ← hlen, hs0, decide_false, hr]; simp [hv, hle]) (by decide)
    exact ⟨_, congrArg Host.Outcome.next hrun, asymKey_spent hr hside.ready hmem _ _ _ _ _ rfl⟩

theorem rsaPublic_runs (hkind : e.kind ≠ 0) (hrsa : algRsa e.alg = true) (hlen : r.len = rsaLen e.alg) (holen : r.olen = r.len)
    (hlt : beNat (laneInput s p r.ain r.len data) < beAt e.mat 0 (rsaLen e.alg)) (h : keyedRuns s n p 2 r i e)
    (href : laneRefusal s r (some (r.ain, r.len)) (some (r.aout, r.len)) = none) :
    ∃ t, exec (.rsaPublic n p 0 data) s = .next t ∧ asymPlain s n p r 0 i 1 e t ∧
      coreWrote s t p r.aout (beBytes r.len (rsaPub (beAt e.mat 0 r.len) (beAt e.mat r.len 4) (beNat (laneInput s p r.ain r.len data)))) := by
  obtain ⟨hr, hmem, hk, hkeyed, hgo⟩ := keyedRuns_begins h (ok := fun e => decide (e.kind ≠ 0) && algRsa e.alg) (by simp [hkind, hrsa])
  rw [← hlen] at hlt
  have hle : ¬ beAt e.mat 0 r.len ≤ beNat (laneInput s p r.ain r.len data) := Nat.not_le.2 hlt
  obtain ⟨v, hside, hv⟩ := withInput_reads hr (countLane_side 0x103 n p 1 s) data (k := r.len) (by rw [laneRefusal_dst]; exact href)
  have hrun := hgo (fun r s => rsaPubReq n r data s) 0 (laneDst r r.aout
      (beBytes r.len (rsaPub (beAt e.mat 0 r.len) (beAt e.mat r.len 4) (beNat (laneInput s p r.ain r.len data))))
      (laneWork n (laneInput s p r.ain r.len data) (laneSpend r 1 v)))
    (by simp only [rsaPubReq, hkeyed, ← hlen, hv, hle, holen]; simp) (by decide)
  exact ⟨_, congrArg Host.Outcome.next hrun, asymPlain_written hr hside.ready hmem hk _ _ _ 0⟩

/-! ### Elliptic curves (R188) -/

theorem ecdsaSign_runs (hecc : algEcc e.alg = true) (hkind : e.kind = 1) (husage : e.usage = chars2 'S' '0') (hmode : e.mode = 0x53 ∨ e.mode = 0x4E)
    (hlen : r.len = 32 ∨ r.len = 48) (holen : r.olen = 2 * (curveOf e.alg).len) (hd : drawReady s p)
    (href : laneRefusal s r (some (r.ain, r.len)) (some (r.aout, r.olen)) = none) (h : keyedRuns s n p 3 r i e) :
    ∃ t, exec (.ecdsaSign n p 0 data) s = .next t ∧ asymPlain s n p r 0 i 1 e t ∧
      coreWrote s t p r.aout ((ecdsaSign (curveOf e.alg) (beAt e.mat 0 (curveOf e.alg).len)
        (ecScalar (curveOf e.alg) (drawn s p ((curveOf e.alg).len + 8))) (laneInput s p r.ain r.len data)).getD
          (zeroBytes (2 * (curveOf e.alg).len))) := by
  obtain ⟨hr, hmem, hk, hkeyed, hgo⟩ := keyedRuns_begins h (ok := fun e => decide (e.kind = 1) && algEcc e.alg && decide (e.usage = chars2 'S' '0') &&
    (decide (e.mode = 'S'.toNat) || decide (e.mode = 'N'.toNat))) (by simpa [hkind, hecc, husage] using hmode)
  obtain ⟨u, hside, hu⟩ := withInput_reads hr (countLane_side 0x103 n p 1 s) data (k := 2 * (curveOf e.alg).len)
    (by rw [laneRefusal_dst, ← holen]; exact href)
  obtain ⟨v, hv, hready⟩ := drawn_ready (n := n) hside hd ((curveOf e.alg).len + 8)
  have hrun := hgo (fun r s => ecdsaSignReq n r data s) 0 (laneDst r r.aout ((ecdsaSign (curveOf e.alg) (beAt e.mat 0 (curveOf e.alg).len)
        (ecScalar (curveOf e.alg) (drawn s p ((curveOf e.alg).len + 8))) (laneInput s p r.ain r.len data)).getD
          (zeroBytes (2 * (curveOf e.alg).len))) (laneWork n (laneInput s p r.ain r.len data) (laneSpend r 1 v)))
    (by simp only [ecdsaSignReq, hkeyed, hu, hr, hv, hlen, holen]; simp) (by decide)
  exact ⟨_, congrArg Host.Outcome.next hrun, asymPlain_written hr hready hmem hk _ _ _ 0⟩

theorem ecdsaVerify_runs {dl : Nat} (hecc : algEcc e.alg = true) (hkind : e.kind = 2) (hdl : dl = 32 ∨ dl = 48)
    (hlen : r.len = dl + 2 * (curveOf e.alg).len) (holen : r.olen = 0) (h : keyedRuns s n p 4 r i e)
    (href : laneRefusal s r (some (r.ain, r.len)) none = none) :
    ∃ t, exec (.ecdsaVerify n p 0 data) s = .next t ∧ memKept p s t ∧
      asymPlain s n p r (if ecdsaVerify (curveOf e.alg) e.mat ((laneInput s p r.ain r.len data).take dl) ((laneInput s p r.ain r.len data).drop dl)
        then 0 else 1) i 1 e t := by
  obtain ⟨hr, hmem, hk, hkeyed, hgo⟩ := keyedRuns_begins h (ok := fun e => decide (e.kind = 2) && algEcc e.alg) (by simp [hkind, hecc])
  obtain ⟨v, hside, hv⟩ := withInput_reads hr (countLane_side 0x103 n p 1 s) data (k := 0) href
  have hcut : r.len - 2 * (curveOf e.alg).len = dl := by omega
  have hform : ¬ (r.olen ≠ 0 ∨ !(r.len = 32 + 2 * (curveOf e.alg).len ∨ r.len = 48 + 2 * (curveOf e.alg).len)) := by
    simp only [holen]
    rcases hdl with rfl | rfl <;> simp [hlen]
  have hrun := hgo (fun r s => ecdsaVerifyReq n r data s) (if ecdsaVerify (curveOf e.alg) e.mat ((laneInput s p r.ain r.len data).take dl)
      ((laneInput s p r.ain r.len data).drop dl) then 0 else 1) (laneWork n (laneInput s p r.ain r.len data) (laneSpend r 1 v))
    (by simp only [ecdsaVerifyReq, hkeyed, hv, hcut, hform, if_false]) (by split <;> decide)
  exact ⟨_, congrArg Host.Outcome.next hrun, asymPlain_told hr hside.ready hmem hk _ _⟩

theorem ecdh_runs (hecc : algEcc e.alg = true) (hkind : e.kind = 1) (hprog : (core s p).prog = false) (hlen : r.len = 2 * (curveOf e.alg).len)
    (holen : r.olen = 0) (href : laneRefusal s r (some (r.ain, r.len)) none = none) (h : keyedRuns s n p 5 r i e) :
    (∀ x y, ecOn (curveOf e.alg) (beAt (laneInput s p r.ain r.len data) 0 (curveOf e.alg).len)
        (beAt (laneInput s p r.ain r.len data) (curveOf e.alg).len (curveOf e.alg).len) = true →
      ecMul (curveOf e.alg) (beAt e.mat 0 (curveOf e.alg).len) (some (beAt (laneInput s p r.ain r.len data) 0 (curveOf e.alg).len,
        beAt (laneInput s p r.ain r.len data) (curveOf e.alg).len (curveOf e.alg).len)) = some (x, y) →
      ∃ t, exec (.ecdh n p 0 data) s = .next t ∧ memKept p s t ∧ laneUses t r = laneUses s r - 1 ∧
        asymKey s n p r 0 15 (beBytes (curveOf e.alg).len x) t) ∧
    (ecOn (curveOf e.alg) (beAt (laneInput s p r.ain r.len data) 0 (curveOf e.alg).len)
        (beAt (laneInput s p r.ain r.len data) (curveOf e.alg).len (curveOf e.alg).len) = false →
      ∃ t, exec (.ecdh n p 0 data) s = .next t ∧ memKept p s t ∧ asymPlain s n p r 2 i 0 e t) := by
  have hbegin := countLane_side 0x103 n p 1 s
  obtain ⟨-, -, ⟨hnext, -⟩, -⟩ := id h
  have hfw : fwOnly (countLane 0x103 n p 1 s) r = false := by
    rw [fwOnly, hbegin.core, (laneNext_core hnext).1]
    exact hprog
  obtain ⟨hr, hmem, hk, hkeyed, hgo⟩ := keyedRuns_begins h
    (ok := fun e => !fwOnly (countLane 0x103 n p 1 s) r && decide (e.kind = 1) && algEcc e.alg) (by simp [hkind, hecc, hfw])
  obtain ⟨v, hside, hv⟩ := withInput_reads hr hbegin data (k := 0) href
  have hform : ¬ (r.len ≠ 2 * (curveOf e.alg).len ∨ r.olen ≠ 0) := by simp [hlen, holen]
  refine ⟨fun x y hon hmul => ?_, fun hoff => ?_⟩
  · have hrun := hgo (fun r s => ecdhReq n r data s) 0 (keyResult p workEntry 0 15 (beBytes (curveOf e.alg).len x)
        (laneWork n (laneInput s p r.ain r.len data) (laneSpend r 1 v)))
      (by simp only [ecdhReq, hkeyed, hv, hform, if_false, hon, hmul, hr]; rfl) (by decide)
    exact ⟨_, congrArg Host.Outcome.next hrun, asymKey_spent hr hside.ready hmem _ _ _ _ _ rfl⟩
  · have hrun := hgo (fun r s => ecdhReq n r data s) 2 v (by simp only [ecdhReq, hkeyed, hv, hform, if_false, hoff]; rfl) (by decide)
    exact ⟨_, congrArg Host.Outcome.next hrun, (hside.asymKeeps (n := n)).mem.trans ⟨rfl, rfl, rfl⟩, asymPlain_unspent hr hside hmem hk 2⟩

end

/-! ### Key pairs (R188) -/

section
variable {n p : Nat} {s : State} {r : LaneReq} (h1 : 24 ≤ n) (h2 : n < 28) (hruns : laneRuns s n p r) (hres : wReserved r = false)
  (hprog : (core s p).prog = false) (href : laneRefusal s r none (some (r.aout, r.olen)) = none)
include h1 h2 hruns hres hprog href

theorem rsaKeyPair_runs {x y e : Nat} {m : Bytes} (hop : wOp r = 6) (hlen : r.len = 256 ∨ r.len = 384 ∨ r.len = 512) (holen : r.olen = r.len + 4)
    (hodd : e % 2 = 1) (he : 3 ≤ e) (hlt : e < 2 ^ 32) (hm : rsaMaterial r.len x y e = some m) :
    ∃ t, exec (.rsaKeyPair n p 0 x y e) s = .next t ∧ coreWrote s t p r.aout (m.take (r.len + 4)) ∧ asymKey s n p r 1 (r.len / 128 + 4) m t := by
  obtain ⟨hr, hmem⟩ := laneNext_core hruns.1
  have hbegin := countLane_side 0x103 n p 1 s
  have hfw : fwOnly (countLane 0x103 n p 1 s) r = false := by rw [fwOnly, hbegin.core, hr]; exact hprog
  have hform : ¬ (!(r.len = 256 ∨ r.len = 384 ∨ r.len = 512) ∨ r.olen ≠ r.len + 4 ∨ e % 2 = 0 ∨ e < 3 ∨ 2 ^ 32 ≤ e) := by
    simp only [hlen, decide_true]
    simp
    omega
  have hrun := goMod_runs h1 h2 hruns hop (run := fun r s => rsaPairReq r x y e s) (st := 0)
    (w := laneDst r r.aout (m.take (r.len + 4)) (keyResult p workEntry 1 (r.len / 128 + 4) m (countLane 0x103 n p 1 s)))
    (by simp only [rsaPairReq, hres, hfw, if_neg hform, laneRefusal_of_side hbegin, href, hm, hr]; rfl) (by decide)
  exact ⟨_, congrArg Host.Outcome.next hrun, asymKey_written hr hbegin.ready hmem _ _ _ _ _ _ (.refl _)⟩

theorem ecKeyPair_runs {c : Curve} (hop : wOp r = 7) (hc : r.len = 32 ∧ c = p256 ∨ r.len = 48 ∧ c = p384) (holen : r.olen = 2 * r.len)
    (hd : drawReady s p) :
    ∃ t, exec (.ecKeyPair n p 0) s = .next t ∧
      coreWrote s t p r.aout (ecBytes c (ecMul c (ecScalar c (drawn s p (c.len + 8))) (ecG c))) ∧
      asymKey s n p r 1 (if r.len = 32 then 9 else 10) (beBytes c.len (ecScalar c (drawn s p (c.len + 8))) ++
        ecBytes c (ecMul c (ecScalar c (drawn s p (c.len + 8))) (ecG c))) t := by
  obtain ⟨hr, hmem⟩ := laneNext_core hruns.1
  have hbegin := countLane_side 0x103 n p 1 s
  have hfw : fwOnly (countLane 0x103 n p 1 s) r = false := by rw [fwOnly, hbegin.core, hr]; exact hprog
  have hcurve : (if r.len = 32 then p256 else p384) = c := by
    rcases hc with ⟨hl, rfl⟩ | ⟨hl, rfl⟩ <;> simp [hl]
  have hform : ¬ (!(r.len = 32 ∨ r.len = 48) ∨ r.olen ≠ 2 * r.len) := by
    rcases hc with ⟨hl, -⟩ | ⟨hl, -⟩ <;> simp [hl, holen]
  obtain ⟨v, hv, hready⟩ := drawn_ready (n := n) hbegin hd (c.len + 8)
  have hrun := goMod_runs h1 h2 hruns hop (run := fun r s => ecPairReq r s) (st := 0)
    (w := laneDst r r.aout (ecBytes c (ecMul c (ecScalar c (drawn s p (c.len + 8))) (ecG c))) (keyResult p workEntry 1 (if r.len = 32 then 9 else 10)
      (beBytes c.len (ecScalar c (drawn s p (c.len + 8))) ++ ecBytes c (ecMul c (ecScalar c (drawn s p (c.len + 8))) (ecG c))) v))
    (by simp only [ecPairReq, hres, hfw, if_neg hform, laneRefusal_of_side hbegin, href, hcurve, hr, hv]; rfl) (by decide)
  exact ⟨_, congrArg Host.Outcome.next hrun, asymKey_written hr hready hmem _ _ _ _ _ _ (.refl _)⟩

end

/-! ### ML-KEM (R190) -/

section
variable {n p set op : Nat} {s : State} {r : LaneReq} {data : Bytes}

/-- A lattice request that runs ends with what its work gives, and its permutations are counted. -/
theorem goLat_runs (h : latRuns s n p op set r) (hop : op < 16) {w : State}
    (hrun : kemReq n op r data (countLane 0x103 n p 1 s) = (0, [], w)) :
    ∃ w', goLat op n p 0 data s = laneMark n r.tag 0 [] w' ∧ sideFrame w w' := by
  obtain ⟨h1, h2, hruns, hwop, -⟩ := h
  have hlat : isLat n = true := by simp [isLat]; omega
  have hfield : bitsOf (wOp r) 3 0 = op := by rw [bitsOf_eq, hwop]; norm_num; omega
  refine ⟨countLane 0x105 n r.core (Config.lanePerms r.ctl r.len) w, ?_, countLane_side _ _ _ _ _⟩
  rw [goLat, if_pos hlat]
  exact laneGo_runs (by omega) hruns (decide_eq_true hfield) (by simp only [permsRun, hrun]; rfl) (by decide)

/-- The fields of a lattice request's word. -/
theorem latRuns_fields (h : latRuns s n p op set r) (hop : op < 16) : bitsOf (wOp r) 5 4 = set ∧
    ¬ (wReserved r ∨ set = 0 ∨ bitsOf (wOp r) 7 6 ≠ 0) ∧ r.core = p ∧ r ∈ (laneOf s n).queue ∧
    (core (countLane 0x103 n p 1 s) p).prog = false := by
  obtain ⟨-, -, hruns, hwop, hset1, hset3, hres, hprog⟩ := h
  obtain ⟨hr, hmem⟩ := laneNext_core hruns.1
  have hset : bitsOf (wOp r) 5 4 = set := by rw [bitsOf_eq, hwop]; norm_num; omega
  have hhigh : bitsOf (wOp r) 7 6 = 0 := by rw [bitsOf_eq, hwop]; norm_num; omega
  refine ⟨hset, ?_, hr, hmem, ?_⟩
  · rw [hhigh]
    simp [hres]
    omega
  · rw [(countLane_side 0x103 n p 1 s).core]
    exact hprog

theorem mlKemKeygen_runs (h : latRuns s n p 1 set r) (holen : r.olen = kemEkLen set) (href : laneRefusal s r none (some (r.aout, r.olen)) = none)
    (hd : drawReady s p) (hfree : cerFree s ≠ none) :
    ∃ t, exec (.mlKemKeygen n p 0) s = .next t ∧ coreWrote s t p r.aout (kemKeygen set ((drawn s p 64).take 32) ((drawn s p 64).drop 32)).1 ∧
      asymKey s n p r 1 (if set = 3 then 11 else 15) (kemKeygen set ((drawn s p 64).take 32) ((drawn s p 64).drop 32)).2 t := by
  obtain ⟨hset, hform, hr, hmem, hprog⟩ := latRuns_fields h (by decide)
  have hbegin := countLane_side 0x103 n p 1 s
  obtain ⟨b, hb⟩ := Option.ne_none_iff_exists'.1 hfree
  have hcer : cerFree (countLane 0x103 n p 1 s) = some b := by
    rw [← hb, hbegin.1]
    rfl
  obtain ⟨v, hv, hready⟩ := drawn_ready (n := n) hbegin hd 64
  obtain ⟨w, hw, hside⟩ := goLat_runs h (by decide) (data := []) (w := laneDst r r.aout (kemKeygen set ((drawn s p 64).take 32) ((drawn s p 64).drop 32)).1
    (keyResult p (cerEntry b) 1 (if set = 3 then 11 else 15) (kemKeygen set ((drawn s p 64).take 32) ((drawn s p 64).drop 32)).2
      (latWork n (kemKeygen set ((drawn s p 64).take 32) ((drawn s p 64).drop 32)).1 v)))
    (by simp only [kemReq, hset, if_neg hform, hprog, laneRefusal_of_side hbegin, href, hcer, hr, hv, ← holen]; simp)
  have hwork := latWork_asym (n := n) (p := p) (kemKeygen set ((drawn s p 64).take 32) ((drawn s p 64).drop 32)).1 v
  exact ⟨_, congrArg Host.Outcome.next hw, asymKey_written hr (hready.prior ⟨hwork.2, hwork.1⟩) hmem _ _ _ _ _ _ hside⟩

theorem mlKemEncaps_runs (h : latRuns s n p 2 set r) (hlen : r.len = kemEkLen set) (holen : r.olen = kemCtLen set) (hd : drawReady s p)
    (hok : kemEkOk set (laneInput s p r.ain r.len data) = true)
    (href : laneRefusal s r (some (r.ain, r.len)) (some (r.aout, r.olen)) = none) :
    ∃ t, exec (.mlKemEncaps n p 0 data) s = .next t ∧
      coreWrote s t p r.aout (kemEncaps set (laneInput s p r.ain r.len data) (drawn s p 32)).1 ∧
      asymKey s n p r 0 15 (kemEncaps set (laneInput s p r.ain r.len data) (drawn s p 32)).2 t := by
  obtain ⟨hset, hform, hr, hmem, hprog⟩ := latRuns_fields h (by decide)
  obtain ⟨u, hside, hu⟩ := withInput_reads hr (countLane_side 0x103 n p 1 s) data (k := r.olen) (by rw [laneRefusal_dst]; exact href)
  obtain ⟨v, hv, hready⟩ := drawn_ready (n := n) hside hd 32
  have hwork := latWork_asym (n := n) (p := p) (laneInput s p r.ain r.len data) v
  have hlens : ¬ (r.len ≠ kemEkLen set ∨ r.olen ≠ kemCtLen set) := by simp [hlen, holen]
  obtain ⟨w, hw, hcount⟩ := goLat_runs h (by decide) (data := data) (w := laneDst r r.aout
      (kemEncaps set (laneInput s p r.ain r.len data) (drawn s p 32)).1
      (keyResult p workEntry 0 15 (kemEncaps set (laneInput s p r.ain r.len data) (drawn s p 32)).2 (latWork n (laneInput s p r.ain r.len data) v)))
    (by simp only [kemReq, hset, if_neg hform, hprog, if_neg hlens, hu, hok, hr, hv]; rfl)
  exact ⟨_, congrArg Host.Outcome.next hw, asymKey_written hr (hready.prior ⟨hwork.2, hwork.1⟩) hmem _ _ _ _ _ _ hcount⟩

theorem mlKemDecaps_runs {dk : Bytes} (h : latRuns s n p 3 set r) (hlen : r.len = kemCtLen set) (hkey : kemKey s r = some dk)
    (hdk : dk.length = 2 * kemEkLen set + 32) (href : laneRefusal s r (some (r.ain, r.len)) none = none) :
    ∃ t, exec (.mlKemDecaps n p 0 data) s = .next t ∧ memKept p s t ∧
      asymKey s n p r 0 15 (kemDecaps set dk (laneInput s p r.ain r.len data)) t := by
  obtain ⟨hset, hform, hr, hmem, hprog⟩ := latRuns_fields h (by decide)
  have hbegin := countLane_side 0x103 n p 1 s
  have hkey' : kemKey (countLane 0x103 n p 1 s) r = some dk := by
    rw [← hkey, hbegin.1]
    rfl
  obtain ⟨v, hside, hv⟩ := withInput_reads hr hbegin data (k := 0) href
  have hwork := latWork_asym (n := n) (p := p) (laneInput s p r.ain r.len data) v
  obtain ⟨w, hw, hcount⟩ := goLat_runs h (by decide) (data := data) (w := keyResult p workEntry 0 15
      (kemDecaps set dk (laneInput s p r.ain r.len data)) (latWork n (laneInput s p r.ain r.len data) v))
    (by simp only [kemReq, hset, if_neg hform, hprog, hkey', hv, hr, ← hlen, hdk]; simp)
  exact ⟨_, congrArg Host.Outcome.next hw, asymKey_told (hside.ready.prior ⟨hwork.2, hwork.1⟩) hmem _ _ _ _ hcount⟩

end

/-- Settles O23, operation by operation. -/
theorem asymmetricLanes : Obligations.AsymmetricLanes :=
  ⟨fun _ _ _ _ _ _ _ hkind hrsa hlen hlt h => rsaPrivate_runs hkind hrsa hlen hlt h,
    fun _ _ _ _ _ _ _ hkind hrsa hlen holen hlt h href => rsaPublic_runs hkind hrsa hlen holen hlt h href,
    fun _ _ _ _ _ _ _ hecc => ⟨fun hkind husage hmode hlen holen hd href h => ecdsaSign_runs hecc hkind husage hmode hlen holen hd href h,
      fun _ hkind hdl hlen holen h href => ecdsaVerify_runs hecc hkind hdl hlen holen h href,
      fun hkind hprog hlen holen href h => ecdh_runs hecc hkind hprog hlen holen href h⟩,
    fun _ _ _ _ h1 h2 hruns hres hprog href => ⟨fun _ _ _ _ hop hlen holen hodd he hlt hm =>
        rsaKeyPair_runs h1 h2 hruns hres hprog href hop hlen holen hodd he hlt hm,
      fun _ hop hc holen hd => ecKeyPair_runs h1 h2 hruns hres hprog href hop hc holen hd⟩,
    fun _ _ _ _ _ _ => ⟨fun h holen href hd hfree => mlKemKeygen_runs h holen href hd hfree,
      fun h hlen holen hd hok href => mlKemEncaps_runs h hlen holen hd hok href,
      fun _ h hlen hkey hdk href => mlKemDecaps_runs h hlen hkey hdk href⟩⟩

end Sys2Proof.Machine
end

section
/-!
PROOFS. O21, O22, O24: what the parts of a request on a block or hash lane leave of the device (R157-R160, R168, R183).
-/

namespace Sys2Proof.Machine

/-! ### What a part of a request may change -/

/-- The lane's queue is as before, and outside the lane's state for the core nothing that a request leaves alone differs. -/
structure laneStays (n p : Nat) (s t : State) : Prop where
  frame : laneFrame n p s t
  queue : (laneOf t n).queue = (laneOf s n).queue

/-- Nor do the core's reservations and the key store; of the lanes only the lane itself differs. -/
structure laneWorks (n p : Nat) (s t : State) : Prop where
  stays : laneStays n p s t
  keys : keysKept p s t
  tables : t.lanes = { s.lanes with lanes := t.lanes.lanes }

/-- Nor do the memories, what the lane holds for the core, and its contexts. -/
structure laneQuiet (n p : Nat) (s t : State) : Prop where
  works : laneWorks n p s t
  mem : memKept p s t
  port : lanePort t n p = lanePort s n p
  ctxs : (laneOf t n).ctxs = (laneOf s n).ctxs

/-- `k` uses of the request's key `e` at entry `i` have been spent, and nothing else has happened that a memory, a port or a context shows. -/
structure laneSpends (n p : Nat) (r : LaneReq) (i k : Nat) (e : KEnt) (s t : State) : Prop where
  stays : laneStays n p s t
  uses : laneUses t r = laneUses s r - k
  taken : usesTaken s t i k e
  tables : t.lanes = { s.lanes with lanes := t.lanes.lanes }
  mem : memKept p s t
  port : lanePort t n p = lanePort s n p
  ctxs : (laneOf t n).ctxs = (laneOf s n).ctxs

section
variable {n p i k : Nat} {s t u v w : State} {r : LaneReq} {e : KEnt}

theorem laneFrame.ent (h : laneFrame n p s t) : t.ent = s.ent := by rw [h.1]

theorem laneFrame.asym (h : laneFrame n p s t) : asymFrame n p s t := by
  unfold asymFrame
  rw [h.ent]
  exact h

/-- Where the generators stay, a frame of an asymmetric request is one of any request. -/
theorem asymFrame.lane (h : asymFrame n p s t) (he : t.ent = s.ent) : laneFrame n p s t := by
  unfold asymFrame at h
  rwa [he] at h

theorem laneFrame.trans (h : laneFrame n p s t) (k : laneFrame n p t u) : laneFrame n p s u :=
  (h.asym.trans k.asym).lane (k.ent.trans h.ent)

theorem laneStays.trans (h : laneStays n p s t) (k : laneStays n p t u) : laneStays n p s u :=
  ⟨h.frame.trans k.frame, k.queue.trans h.queue⟩

theorem laneWorks.trans (h : laneWorks n p s t) (k : laneWorks n p t u) : laneWorks n p s u :=
  ⟨h.stays.trans k.stays, h.keys.trans k.keys, by rw [k.tables, h.tables]⟩

theorem laneQuiet.trans (h : laneQuiet n p s t) (k : laneQuiet n p t u) : laneQuiet n p s u :=
  ⟨h.works.trans k.works, h.mem.trans k.mem, k.port.trans h.port, k.ctxs.trans h.ctxs⟩

/-! ### Counting, reading, turns and slots -/

theorem sideFrame.quiet (h : sideFrame s t) : laneQuiet n p s t := by
  have hk := h.asymKeeps (n := n) (p := p)
  exact ⟨⟨⟨h.asymFrame.lane (by rw [h.1]), hk.queue⟩, hk.keys, by rw [h.1]⟩, hk.mem, by rw [h.1]; rfl, by rw [h.1]; rfl⟩

theorem laneQuiet.refl (n p : Nat) (s : State) : laneQuiet n p s s := (sideFrame.refl s).quiet

/-- A change of a lane that leaves its queue and what it holds for cores. -/
theorem modLane_works (g : Lane → Lane) (hq : ∀ l, (g l).queue = l.queue) (hp : ∀ l, (g l).ports = l.ports) (s : State) :
    laneWorks n p s (modLane n g s) ∧ memKept p s (modLane n g s) ∧ lanePort (modLane n g s) n p = lanePort s n p := by
  obtain ⟨hframe, hkeeps⟩ := modLane_asym (n := n) (p := p) g hq hp s
  refine ⟨⟨⟨hframe.lane rfl, hkeeps.queue⟩, hkeeps.keys, rfl⟩, hkeeps.mem, ?_⟩
  rw [lanePort, laneOf_modLane_same, hp]
  rfl

theorem modLane_quiet (g : Lane → Lane) (hq : ∀ l, (g l).queue = l.queue) (hp : ∀ l, (g l).ports = l.ports) (hc : ∀ l, (g l).ctxs = l.ctxs)
    (s : State) : laneQuiet n p s (modLane n g s) := by
  obtain ⟨hworks, hmem, hport⟩ := modLane_works (n := n) (p := p) g hq hp s
  exact ⟨hworks, hmem, hport, by rw [laneOf_modLane_same, hc]⟩

theorem laneTurn_quiet (c : Nat) (single : Bool) (s : State) : laneQuiet n p s (laneTurn n c single s) := by
  refine modLane_quiet _ ?_ ?_ ?_ s <;> cases single <;> exact fun _ => rfl

theorem slotUse_quiet (x : KSlot) (s : State) : laneQuiet n p s (slotUse n x s) := by
  refine modLane_quiet _ ?_ ?_ ?_ s <;> exact fun _ => rfl

theorem countOps_side (n : Nat) (r : LaneReq) (k : Nat) (s : State) : sideFrame s (countOps n r k s) := by
  unfold countOps
  dsimp only
  split
  · exact (countLane_side _ _ _ _ _).trans (countLane_side _ _ _ _ _)
  · exact countLane_side _ _ _ _ _

/-- What a lane holds for a core changes, and nothing else. -/
theorem modPort_works (g : LanePort → LanePort) (s : State) : laneWorks n p s (modPort n p g s) ∧ memKept p s (modPort n p g s) ∧
    lanePort (modPort n p g s) n p = g (lanePort s n p) := by
  refine ⟨⟨⟨⟨rfl, fun _ => rfl, fun m hm => ?_, fun q hq => ⟨rfl, ?_⟩, rfl⟩, ?_⟩, ⟨rfl, rfl, rfl⟩, rfl⟩, ⟨rfl, rfl, rfl⟩, ?_⟩
  · rw [modPort, laneOf_modLane_ne _ s hm]
  · rw [lanePort, modPort, laneOf_modLane_same]
    exact tget_tmod_ne _ _ _ hq
  · rw [modPort, laneOf_modLane_same]
  · rw [lanePort, modPort, laneOf_modLane_same]
    exact tget_tmod_same _ _ _ _

/-! ### The output of a request -/

theorem coreWrite_lanes_ent (p a : Nat) (d : Bytes) (s : State) : (coreWrite p a d s).lanes = s.lanes ∧ (coreWrite p a d s).ent = s.ent := by
  unfold coreWrite
  split
  · exact ⟨rfl, rfl⟩
  · split <;> exact ⟨rfl, rfl⟩

theorem laneDst_lanes_ent (r : LaneReq) (a : Nat) (d : Bytes) (s : State) : (laneDst r a d s).lanes = s.lanes ∧ (laneDst r a d s).ent = s.ent := by
  unfold laneDst
  split
  · exact coreWrite_lanes_ent _ _ _ _
  · rw [outWrite_out]
    exact ⟨rfl, rfl⟩

theorem laneDst_works (hr : r.core = p) (a : Nat) (d : Bytes) (s : State) : laneWorks n p s (laneDst r a d s) := by
  obtain ⟨hframe, hqueue, -, hkeys⟩ := laneDst_frame (n := n) hr a d s
  obtain ⟨hlanes, hent⟩ := laneDst_lanes_ent r a d s
  exact ⟨⟨hframe.lane hent, hqueue⟩, hkeys, by rw [hlanes]⟩

theorem laneOf_laneDst (r : LaneReq) (a : Nat) (d : Bytes) (s : State) (m : Nat) : laneOf (laneDst r a d s) m = laneOf s m := by
  rw [laneOf, (laneDst_lanes_ent r a d s).1, laneOf]

/-! ### Spending uses (R143, R159) -/

/-- A request's spending touches reservations, the key store, and what the partner is shown. -/
theorem laneSpend_rest (r : LaneReq) (k : Nat) (s : State) : laneSpend r k s =
    { s with
      kst := (laneSpend r k s).kst
      par := (laneSpend r k s).par
      cpu := { s.cpu with cores := (laneSpend r k s).cpu.cores } } := by
  unfold laneSpend
  split
  · rfl
  · rw [(usesSpend_spend _ _ _ _).rest]
    rfl

theorem laneKey_keyAt (h : laneKey s r = some (i, e)) : keyAt s i = some e := by
  obtain ⟨q, -, hq⟩ := Option.bind_eq_some_iff.1 h
  obtain ⟨x, hx, hxe⟩ := Option.map_eq_some_iff.1 hq
  obtain ⟨rfl, rfl⟩ := Prod.mk.inj hxe
  exact hx

theorem laneSpend_spends (hr : r.core = p) (hk : laneKey s r = some (i, e)) (k : Nat) : laneSpends n p r i k e s (laneSpend r k s) := by
  have hprior := laneSpend_prior (n := n) k hr s
  have hrest := laneSpend_rest r k s
  have hlanes : (laneSpend r k s).lanes = s.lanes := by rw [hrest]
  exact ⟨⟨hprior.frame.lane (by rw [hrest]), hprior.queue⟩, laneUses_laneSpend k s, laneSpend_taken k hk, by rw [hlanes], hprior.mem,
    by rw [lanePort, laneOf, hlanes]; rfl, by rw [laneOf, hlanes]; rfl⟩

theorem kstKept.keyAt (h : kstKept s t) (j : Nat) : Machine.keyAt t j = Machine.keyAt s j := by rw [Machine.keyAt, h.1, Machine.keyAt]

theorem kstKept.trans (h : kstKept s t) (k : kstKept t u) : kstKept s u := ⟨k.1.trans h.1, k.2.trans h.2⟩

/-- Uses taken stay taken while the key store is left before and after. -/
theorem usesTaken.of_kept (h : kstKept s t) (k' : usesTaken t u i k e) (l : kstKept u v) : usesTaken s v i k e := by
  obtain ⟨hnone, hchunk⟩ := k'
  refine ⟨fun hl => h.trans ((hnone hl).trans l), fun hc => ?_⟩
  obtain ⟨cpar, ckst, cother, cself⟩ := hchunk hc
  refine ⟨l.2.trans (cpar.trans h.2), ?_, fun j hj => (l.keyAt j).trans ((cother j hj).trans (h.keyAt j)), by rw [l.keyAt]; exact cself⟩
  rw [l.1, ckst, h.1]

/-- A key whose budget fields are the same has the same uses taken. -/
theorem usesTaken.of_budget {x : KEnt} (h : usesTaken s t i k x) (hl : e.ledger = x.ledger) (hc : e.chunk = x.chunk) : usesTaken s t i k e := by
  unfold usesTaken at h ⊢
  rwa [hl, hc]

/-- No use of a key that is there is taken by what leaves the key store. -/
theorem usesTaken.zero (hk : keyAt s i = some e) (h : kstKept s t) : usesTaken s t i 0 e :=
  ⟨fun _ => h, fun _ => ⟨h.2, by rw [h.1], fun j _ => h.keyAt j, e, (h.keyAt i).trans hk, by split <;> rfl⟩⟩

theorem laneQuiet.uses (hr : r.core = p) (h : laneQuiet n p s t) : laneUses t r = laneUses s r := laneUses_of_pins hr h.works.keys.1

/-- What comes before the spending, and after it, leaves what was spent. -/
theorem laneSpends.of_quiet (hr : r.core = p) (h : laneQuiet n p s t) (k' : laneSpends n p r i k e t u) (l : laneQuiet n p u v) :
    laneSpends n p r i k e s v :=
  ⟨h.works.stays.trans (k'.stays.trans l.works.stays), by rw [l.uses hr, k'.uses, h.uses hr],
    .of_kept h.works.keys.2 k'.taken l.works.keys.2, by rw [l.works.tables, k'.tables, h.works.tables], h.mem.trans (k'.mem.trans l.mem),
    l.port.trans (k'.port.trans h.port), l.ctxs.trans (k'.ctxs.trans h.ctxs)⟩

/-- A request without a use. -/
theorem laneQuiet.spends (hr : r.core = p) (hk : keyAt s i = some e) (h : laneQuiet n p s t) : laneSpends n p r i 0 e s t :=
  ⟨h.works.stays, h.uses hr, .zero hk h.works.keys.2, h.works.tables, h.mem, h.port, h.ctxs⟩

/-! ### The end of a request (R158) -/

theorem laneMark_stays (tag st : Nat) (out : Bytes) (s : State) : laneFrame n p s (laneMark n tag st out s) := (laneMark_frame tag st out s).lane rfl

theorem laneStays.ended (h : laneStays n p s t) (hmem : r ∈ (laneOf s n).queue) (st : Nat) (out : Bytes) :
    laneEnded n r st out (laneMark n r.tag st out t) ∧ laneFrame n p s (laneMark n r.tag st out t) :=
  ⟨laneMark_ended (by rw [h.queue]; exact hmem), h.frame.trans (laneMark_stays _ _ _ _)⟩

/-! ### The command's request runs -/

/-- The state in which a request's own work begins: its turn is taken, and the request counted (R167, R488). -/
def laneBegun (n p : Nat) (r : LaneReq) (s : State) : State :=
  countLane 0x103 n p 1 (if isBlock n then laneTurn n p (reqSingle s r) s else s)

theorem laneBegun_quiet (s : State) : laneQuiet n p s (laneBegun n p r s) := by
  refine laneQuiet.trans (t := if isBlock n then laneTurn n p (reqSingle s r) s else s) ?_ (countLane_side _ _ _ _ _).quiet
  split
  · exact laneTurn_quiet _ _ _
  · exact .refl n p s

/-- What keeps a request from running does not hold (R158, R167, R180, R185, R461). -/
theorem laneGo_lets {isOp : LaneReq → Bool} (hon : lanesOn s = true) (hop : isOp r = true) (hasleep : laneAsleep s n = false)
    (hbusy : isHash n = true → s.lanes.hashBusy ≤ s.time.refCount) (hpick : isBlock n = true → lanePick s n = some p) :
    ¬ (!lanesOn s ∨ !isOp r ∨ laneAsleep s n ∨ (isHash n ∧ s.time.refCount < s.lanes.hashBusy) ∨ (isBlock n ∧ lanePick s n ≠ some p)) := by
  simp only [hon, hop, hasleep]
  simpa using ⟨hbusy, hpick⟩

/-- Without an armed injection none meets a request. -/
theorem laneBegun_uninjected (hinj : s.dbg.inj = none) : injTake 0x0B n (laneBegun n p r s) = (none, laneBegun n p r s) := by
  have hdbg : (laneBegun n p r s).dbg = s.dbg := by rw [(laneBegun_quiet (n := n) (p := p) (r := r) s).works.stays.frame.1]
  simp [injTake, hdbg, hinj]

/-- A request that runs ends with what its work gives. -/
theorem laneGo_ends (h : laneRuns s n p r) {isOp : LaneReq → Bool} (hop : isOp r = true) {run : LaneReq → State → LaneEnd} {st : Nat} {out : Bytes}
    (hrun : run r (laneBegun n p r s) = (st, out, w)) (hst : st ≠ 255) : laneGo n p 0 isOp run s = laneMark n r.tag st out w := by
  obtain ⟨hnext, hon, -, hasleep, hbusy, hpick, hinj⟩ := h
  have htake : (if r.twin = true then injTake 0x0B n (laneBegun n p r s) else (none, laneBegun n p r s)) = (none, laneBegun n p r s) := by
    rw [laneBegun_uninjected hinj, ite_self]
  have hnofault : ¬ (r.twin = true ∧ 1 ≤ 0 ∧ 0 ≤ 3) := fun hc => absurd hc.2.1 (by decide)
  simp only [laneGo, hnext]
  rw [if_neg (laneGo_lets hon hop hasleep hbusy hpick), if_neg (by decide), ← laneBegun, htake]
  simp only [if_neg hnofault, hrun, hst, if_false]

/-- An uncorrected memory error fences the lane (R475). -/
theorem laneGo_memoryError (hn : n < 16) (hpick : lanePick s n = some p) (hnext : laneNext s n p = some r) (hon : lanesOn s = true)
    {isOp : LaneReq → Bool} (hop : isOp r = true) (run : LaneReq → State → LaneEnd) : laneGo n p 4 isOp run s = laneFence n 0x0C false s := by
  have hhash : isHash n = false := by simp [isHash]; omega
  have hasleep : laneAsleep s n = false := by rw [laneAsleep, hhash, Bool.false_and]
  simp only [laneGo, hnext]
  rw [if_neg (laneGo_lets hon hop hasleep (fun hc => by simp [hhash] at hc) (fun _ => hpick)), if_pos trivial]

/-- A twin difference is judged (R175). -/
theorem laneGo_twinFault (hn : n < 16) (hpick : lanePick s n = some p) (hnext : laneNext s n p = some r) (hon : lanesOn s = true)
    {isOp : LaneReq → Bool} (hop : isOp r = true) (htwin : r.twin = true) (hinj : s.dbg.inj = none) {fault : Nat} (h1 : 1 ≤ fault) (h3 : fault ≤ 3)
    (run : LaneReq → State → LaneEnd) : laneGo n p fault isOp run s = twinFault n fault r false true (run r) (laneBegun n p r s) := by
  have hhash : isHash n = false := by simp [isHash]; omega
  have hasleep : laneAsleep s n = false := by rw [laneAsleep, hhash, Bool.false_and]
  simp only [laneGo, hnext]
  rw [if_neg (laneGo_lets hon hop hasleep (fun hc => by simp [hhash] at hc) (fun _ => hpick)), if_neg (by omega), ← laneBegun, if_pos htwin,
    laneBegun_uninjected hinj]
  simp only [if_pos (And.intro htwin (And.intro h1 h3))]

end

end Sys2Proof.Machine
end

section
/-!
PROOFS. O22: the digests and the SLH-DSA operations of the hash lanes (R182-R185).
-/

namespace Sys2Proof.Machine

/-! ### Contexts (R183) -/

/-- A hash lane's contexts after a digest request of phase `ph` on slot `k`, which goes on as `x`. -/
def ctxsAfter (ph k : Nat) (x : HashCtx) (l : Lane) : Lane :=
  if ph = 0 then l
  else if ph = 3 then { l with ctxs := l.ctxs.filter fun c => decide (c.1 ≠ k) }
  else { l with ctxs := l.ctxs.filter (fun c => decide (c.1 ≠ k)) ++ [(k, x)] }

/-- What a digest request of phase `ph` goes on from: nothing, or the context of its core and function, which has absorbed `m`; a start takes a
free slot. -/
def ctxFits (s : State) (n p k fn ph : Nat) (m : Bytes) : Prop :=
  ph = 0 ∧ m = [] ∨ (ph = 1 ∧ m = [] ∧ ctxAt s n k = none) ∨ ((ph = 2 ∨ ph = 3) ∧ ctxAt s n k = some ⟨p, fn, m⟩)

section
variable {n p k : Nat} {s t u v w : State} {r : LaneReq}

theorem ctxAt_of_ctxs (h : (laneOf t n).ctxs = (laneOf s n).ctxs) (j : Nat) : ctxAt t n j = ctxAt s n j := by rw [ctxAt, h, ctxAt]

theorem ctxsAfter_whole (k : Nat) (x : HashCtx) : ctxsAfter 0 k x = fun l => l := rfl
theorem ctxsAfter_last (k : Nat) (x : HashCtx) : ctxsAfter 3 k x = fun l => { l with ctxs := l.ctxs.filter fun c => decide (c.1 ≠ k) } := rfl
theorem ctxsAfter_open {ph : Nat} (h : ph = 1 ∨ ph = 2) (k : Nat) (x : HashCtx) :
    ctxsAfter ph k x = fun l => { l with ctxs := l.ctxs.filter (fun c => decide (c.1 ≠ k)) ++ [(k, x)] } := by
  obtain rfl | rfl := h <;> rfl

theorem ctxsAfter_queue_ports (ph k : Nat) (x : HashCtx) (l : Lane) :
    (ctxsAfter ph k x l).queue = l.queue ∧ (ctxsAfter ph k x l).ports = l.ports := by
  unfold ctxsAfter
  split
  · exact ⟨rfl, rfl⟩
  · split <;> exact ⟨rfl, rfl⟩

theorem find?_erased_ne {α : Type} (l : List (Nat × α)) {j : Nat} (h : j ≠ k) :
    (l.filter fun c => decide (c.1 ≠ k)).find? (fun c => decide (c.1 = j)) = l.find? fun c => decide (c.1 = j) := by
  rw [List.find?_filter]
  congr 1
  funext c
  by_cases hc : c.1 = j <;> simp [hc, h]

theorem find?_erased_same {α : Type} (l : List (Nat × α)) :
    (l.filter fun c => decide (c.1 ≠ k)).find? (fun c => decide (c.1 = k)) = none := by
  rw [List.find?_filter]
  exact List.find?_eq_none.2 fun c _ => by simp

theorem ctxAt_ctxsAfter_ne (ph : Nat) (x : HashCtx) (s : State) {j : Nat} (h : j ≠ k) :
    ctxAt (modLane n (ctxsAfter ph k x) s) n j = ctxAt s n j := by
  rw [ctxAt, laneOf_modLane_same, ctxsAfter]
  split
  · rfl
  · split
    · rw [find?_erased_ne _ h]
      rfl
    · rw [List.find?_append, find?_erased_ne _ h]
      simp [ctxAt, h.symm]

theorem ctxAt_ctxsAfter_same (ph : Nat) (x : HashCtx) (s : State) :
    ctxAt (modLane n (ctxsAfter ph k x) s) n k = if ph = 0 then ctxAt s n k else if ph = 3 then none else some x := by
  rw [ctxAt, laneOf_modLane_same, ctxsAfter]
  split
  · rfl
  · split
    · rw [find?_erased_same]
      rfl
    · rw [List.find?_append, find?_erased_same]
      simp

/-! ### The end of a hash request -/

theorem hashDone_marked (h : laneStays n p s w) (hmem : r ∈ (laneOf s n).queue) {st : Nat} {x : Option HashCtx} (hx : ctxAt w n k = x)
    (hother : ∀ j, j ≠ k → ctxAt w n j = ctxAt s n j) : hashDone s n p r st k x (laneMark n r.tag st [] w) := by
  obtain ⟨hended, hframe⟩ := h.ended hmem st []
  have hctx : ∀ j, ctxAt (laneMark n r.tag st [] w) n j = ctxAt w n j := ctxAt_of_ctxs (by rw [laneMark_lane]; rfl)
  exact ⟨hended, hframe, (hctx k).trans hx, fun j hj => (hctx j).trans (hother j hj)⟩

/-- The end of a request that leaves the contexts. -/
theorem hashDone_told (h : laneStays n p s w) (hmem : r ∈ (laneOf s n).queue) (hc : (laneOf w n).ctxs = (laneOf s n).ctxs) (st : Nat) :
    hashDone s n p r st (wCtx r) (ctxAt s n (wCtx r)) (laneMark n r.tag st [] w) :=
  hashDone_marked h hmem (ctxAt_of_ctxs hc _) fun j _ => ctxAt_of_ctxs hc j

/-- What a request writes, where it writes anything. -/
theorem laneDst_if_works (hr : r.core = p) (c : Prop) [Decidable c] (a : Nat) (d : Bytes) (s : State) :
    laneWorks n p s (if c then laneDst r a d s else s) ∧ (laneOf (if c then laneDst r a d s else s) n).ctxs = (laneOf s n).ctxs := by
  split
  · exact ⟨laneDst_works hr a d s, by rw [laneOf_laneDst]⟩
  · exact ⟨(laneQuiet.refl n p s).works, rfl⟩

/-! ### A hash lane's request runs -/

/-- What a hash lane's request that runs begins with. -/
theorem hash_begins (h1 : 16 ≤ n) (h2 : n < 24) (h : laneRuns s n p r) : r.core = p ∧ r ∈ (laneOf s n).queue ∧ sideFrame s (laneBegun n p r s) ∧
    ∀ {fn : Nat} {run : LaneReq → State → LaneEnd} {st : Nat} {w : State}, bitsOf (wOp r) 5 0 = fn →
      run r (laneBegun n p r s) = (st, [], w) → st ≠ 255 → goHash fn n p 0 run s = laneMark n r.tag st [] w := by
  obtain ⟨hr, hmem⟩ := laneNext_core h.1
  have hblock : isBlock n = false := by simp [isBlock]; omega
  have hhash : isHash n = true := by simp [isHash, h1, h2]
  refine ⟨hr, hmem, ?_, fun hfn hrun hst => ?_⟩
  · rw [laneBegun, hblock]
    exact countLane_side _ _ _ _ _
  · rw [goHash, if_pos hhash]
    exact laneGo_ends h (decide_eq_true hfn) hrun hst

/-! ### Digests (R183) -/

section
variable {fn ph : Nat} {m : Bytes} (data : Bytes) (hu : sideFrame s u) (hfn : bitsOf (wOp r) 5 0 = fn) (hph : bitsOf (wOp r) 7 6 = ph)
  (hres : wReserved r = false) (hlen : r.len ≤ 65536)
include hu hfn hph hres hlen

/-- A digest request that fits its context absorbs its input, and writes the digest where its phase is the last. -/
theorem hashReq_runs (hr : r.core = p) (holen : ph = 0 ∨ ph = 3 → hashOlenOk fn r.olen = true) (hctx : ctxFits s n p (wCtx r) fn ph m)
    (href : laneRefusal s r (some (r.ain, r.len)) (if ph = 0 ∨ ph = 3 then some (r.aout, r.olen) else none) = none) :
    ∃ v w, sideFrame s v ∧ sideFrame (modLane n (ctxsAfter ph (wCtx r) ⟨p, fn, m ++ laneInput s p r.ain r.len data⟩) v) w ∧
      hashReq n r data u = (0, [], if ph = 0 ∨ ph = 3 then laneDst r r.aout (hashFn fn (m ++ laneInput s p r.ain r.len data) r.olen) w else w) := by
  obtain ⟨v, hv, hside⟩ := laneSrc_reads hr hu r.ain r.len data
  have hlane : laneOf u n = laneOf s n := by rw [hu.1]; rfl
  have href' := laneRefusal_of_side (r := r) hu
  refine ⟨v, _, hside, countLane_side 0x105 n r.core (hashPerms fn ((m ++ laneInput s p r.ain r.len data).length - (laneInput s p r.ain r.len data).length)
    (m ++ laneInput s p r.ain r.len data).length (if decide (ph = 0) || decide (ph = 3) then some r.olen else none)) _, ?_⟩
  have hlen' : ¬ 65536 < r.len := by omega
  obtain ⟨rfl, rfl⟩ | ⟨rfl, rfl, hnone⟩ | ⟨rfl | rfl, hsome⟩ := hctx
  · rw [if_pos (.inl rfl)] at href
    simp [hashReq, hfn, hph, hres, hlen', holen (.inl rfl), href', href, hv, hr, ctxsAfter_whole]
  · rw [if_neg (by decide)] at href
    have hfree : (laneOf s n).ctxs.find? (fun c => decide (c.1 = wCtx r)) = none := Option.map_eq_none_iff.1 hnone
    simp [hashReq, hfn, hph, hres, hlen', href', href, hv, hr, hlane, hfree, ctxsAfter_open (.inl rfl)]
  · rw [if_neg (by decide)] at href
    obtain ⟨⟨k, x⟩, hfind, rfl⟩ := Option.map_eq_some_iff.1 hsome
    simp [hashReq, hfn, hph, hres, hlen', href', href, hv, hr, hlane, hfind, ctxsAfter_open (.inr rfl)]
  · rw [if_pos (.inr rfl)] at href
    obtain ⟨⟨k, x⟩, hfind, rfl⟩ := Option.map_eq_some_iff.1 hsome
    simp [hashReq, hfn, hph, hres, hlen', holen (.inr rfl), href', href, hv, hr, hlane, hfind, ctxsAfter_last]

/-- A start on a slot in use, and a continuation of a free slot, end with CONTEXT. -/
theorem hashReq_refused (h : ph = 1 ∧ ctxAt s n (wCtx r) ≠ none ∨ ph = 2 ∧ ctxAt s n (wCtx r) = none) : hashReq n r data u = (8, [], u) := by
  have hlane : laneOf u n = laneOf s n := by rw [hu.1]; rfl
  have hlen' : ¬ 65536 < r.len := by omega
  obtain ⟨rfl, hsome⟩ | ⟨rfl, hnone⟩ := h
  · obtain ⟨x, hx⟩ := Option.ne_none_iff_exists'.1 hsome
    obtain ⟨y, hfind, -⟩ := Option.map_eq_some_iff.1 hx
    simp [hashReq, hfn, hph, hres, hlen', hlane, hfind]
  · have hfree : (laneOf s n).ctxs.find? (fun c => decide (c.1 = wCtx r)) = none := Option.map_eq_none_iff.1 hnone
    simp [hashReq, hfn, hph, hres, hlen', hlane, hfree]

end

section
variable {c : (Nat → Nat → Nat → List Byte → Instr) × Nat} {ph : Nat} {m : Bytes} (data : Bytes) (hc : c ∈ hashRows) (h1 : 16 ≤ n) (h2 : n < 24)
  (h : laneRuns s n p r) (hfn : bitsOf (wOp r) 5 0 = c.2) (hres : wReserved r = false) (hlen : r.len ≤ 65536) (hph : bitsOf (wOp r) 7 6 = ph)
include hc

theorem hashRows_exec (n p : Nat) (data : Bytes) (s : State) :
    exec (c.1 n p 0 data) s = .next (goHash c.2 n p 0 (fun r s => hashReq n r data s) s) := by
  simp only [hashRows, List.mem_cons, List.not_mem_nil, or_false] at hc
  obtain rfl | rfl | rfl | rfl | rfl | rfl | rfl | rfl := hc <;> rfl

include h1 h2 h hfn hres hlen hph

/-- A digest command whose request fits its context: what is written, the context after it, and what stays. -/
theorem digest_runs (holen : ph = 0 ∨ ph = 3 → hashOlenOk c.2 r.olen = true) (hctx : ctxFits s n p (wCtx r) c.2 ph m)
    (href : laneRefusal s r (some (r.ain, r.len)) (if ph = 0 ∨ ph = 3 then some (r.aout, r.olen) else none) = none) :
    ∃ t, exec (c.1 n p 0 data) s = .next t ∧
      (if ph = 0 ∨ ph = 3 then coreWrote s t p r.aout (hashFn c.2 (m ++ laneInput s p r.ain r.len data) r.olen) else memKept p s t) ∧
      hashDone s n p r 0 (wCtx r) (if ph = 0 then ctxAt s n (wCtx r) else if ph = 3 then none
        else some ⟨p, c.2, m ++ laneInput s p r.ain r.len data⟩) t ∧ keysKept p s t := by
  obtain ⟨hr, hmem, hbegun, hgo⟩ := hash_begins h1 h2 h
  obtain ⟨v, w, hv, hw, hrun⟩ := hashReq_runs data hbegun hfn hph hres hlen hr holen hctx href
  obtain ⟨hworks, hmid, -⟩ := modLane_works (n := n) (p := p) (ctxsAfter ph (wCtx r) ⟨p, c.2, m ++ laneInput s p r.ain r.len data⟩)
    (fun l => (ctxsAfter_queue_ports _ _ _ l).1) (fun l => (ctxsAfter_queue_ports _ _ _ l).2) v
  have hqv := hv.quiet (n := n) (p := p)
  have hqw := hw.quiet (n := n) (p := p)
  have hmsw : memKept p s w := hqv.mem.trans (hmid.trans hqw.mem)
  obtain ⟨hdst, hctxs⟩ := laneDst_if_works (n := n) hr (ph = 0 ∨ ph = 3) r.aout (hashFn c.2 (m ++ laneInput s p r.ain r.len data) r.olen) w
  have hall := (hqv.works.trans (hworks.trans hqw.works)).trans hdst
  refine ⟨_, (hashRows_exec hc n p data s).trans (congrArg Host.Outcome.next (hgo hfn hrun (by decide))), ?_,
    hashDone_marked hall.stays hmem ?_ (fun j hj => ?_), hall.keys⟩
  · split
    · exact coreWrote.of_kept hmsw (laneDst_wrote hr _ _ _) ⟨rfl, rfl, rfl⟩
    · exact hmsw.trans ⟨rfl, rfl, rfl⟩
  · rw [ctxAt_of_ctxs hctxs, ctxAt_of_ctxs hqw.ctxs, ctxAt_ctxsAfter_same, ctxAt_of_ctxs hqv.ctxs]
  · rw [ctxAt_of_ctxs hctxs, ctxAt_of_ctxs hqw.ctxs, ctxAt_ctxsAfter_ne _ _ _ hj, ctxAt_of_ctxs hqv.ctxs]

theorem digest_refused (hctx : ph = 1 ∧ ctxAt s n (wCtx r) ≠ none ∨ ph = 2 ∧ ctxAt s n (wCtx r) = none) :
    ∃ t, exec (c.1 n p 0 data) s = .next t ∧ memKept p s t ∧ hashDone s n p r 8 (wCtx r) (ctxAt s n (wCtx r)) t ∧ keysKept p s t := by
  obtain ⟨hr, hmem, hbegun, hgo⟩ := hash_begins h1 h2 h
  have hquiet := hbegun.quiet (n := n) (p := p)
  exact ⟨_, (hashRows_exec hc n p data s).trans
      (congrArg Host.Outcome.next (hgo hfn (hashReq_refused data hbegun hfn hph hres hlen hctx) (by decide))),
    hquiet.mem.trans ⟨rfl, rfl, rfl⟩, hashDone_told hquiet.works.stays hmem hquiet.ctxs 8, hquiet.works.keys⟩

end

/-! ### SLH-DSA (R184, R185) -/

/-- Permutations are counted where an operation has run. -/
theorem permsRun_ends {x : LaneEnd} {st : Nat} {out : Bytes} (hx : x = (st, out, w)) : ∃ z, permsRun n r x = (st, out, z) ∧ sideFrame w z := by
  subst hx
  unfold permsRun
  split
  · exact ⟨_, rfl, countLane_side _ _ _ _ _⟩
  · exact ⟨_, rfl, .refl _⟩

theorem slhOps_exec {c : (Nat → Nat → Nat → List Byte → Instr) × Nat × SlhP × List Nat} (hc : c ∈ slhOps) (n p : Nat) (data : Bytes) (s : State) :
    ∃ small, c.2.2.1 = (if small then slh256s else slh256f) ∧ c.2.2.2 = (if small then [1, 2] else [3, 4]) ∧
      exec (c.1 n p 0 data) s = .next (goHash c.2.1 n p 0 (fun r s => permsRun n r (slhSignReq small r data s)) s) := by
  simp only [slhOps, List.mem_cons, List.not_mem_nil, or_false] at hc
  obtain rfl | rfl := hc
  · exact ⟨false, rfl, rfl, rfl⟩
  · exact ⟨true, rfl, rfl, rfl⟩

theorem slhVerifyOps_exec {c : (Nat → Nat → Nat → List Byte → Instr) × Nat × SlhP} (hc : c ∈ slhVerifyOps) (n p : Nat) (data : Bytes) (s : State) :
    exec (c.1 n p 0 data) s = .next (goHash c.2.1 n p 0 (fun r s => permsRun n r (slhVerifyReq c.2.2 r data s)) s) := by
  simp only [slhVerifyOps, List.mem_cons, List.not_mem_nil, or_false] at hc
  obtain rfl | rfl := hc <;> rfl

/-- The state in which a signature is written: a 256s one takes every hash lane, until reference count `x` (R185). -/
def signBusy (small : Bool) (x : Nat) (s : State) : State := if small then modLanes (fun l => { l with hashBusy := x }) s else s

theorem signBusy_stays (small : Bool) (x : Nat) (s : State) : laneStays n p s (signBusy small x s) ∧ memKept p s (signBusy small x s) ∧
    keysKept p s (signBusy small x s) ∧ laneOf (signBusy small x s) n = laneOf s n := by
  cases small
  · exact ⟨(laneQuiet.refl n p s).works.stays, .refl p s, ⟨rfl, rfl, rfl⟩, rfl⟩
  · exact ⟨⟨⟨rfl, fun _ => rfl, fun _ _ => rfl, fun _ _ => ⟨rfl, rfl⟩, rfl⟩, rfl⟩, ⟨rfl, rfl, rfl⟩, ⟨rfl, rfl, rfl⟩, rfl⟩

theorem slhSign_runs {c : (Nat → Nat → Nat → List Byte → Instr) × Nat × SlhP × List Nat} {data seed : Bytes} (hc : c ∈ slhOps) (h1 : 16 ≤ n)
    (h2 : n < 24) (h : laneRuns s n p r) (hfn : bitsOf (wOp r) 5 0 = c.2.1) (hres : wReserved r = false) (hpos : 1 ≤ r.len) (hlen : r.len ≤ 65536)
    (holen : r.olen = slhLen c.2.2.1) (hprog : (core s p).prog = false) (hkey : r.key ∈ c.2.2.2) (hseed : devSeed s r.key = some seed)
    (href : laneRefusal s r (some (r.ain, r.len)) (some (r.aout, r.olen)) = none) :
    ∃ t, exec (c.1 n p 0 data) s = .next t ∧ coreWrote s t p r.aout (slhSign c.2.2.1 seed (laneInput s p r.ain r.len data)) ∧
      hashDone s n p r 0 (wCtx r) (ctxAt s n (wCtx r)) t ∧ keysKept p s t := by
  obtain ⟨small, hP, hkeys, hexec⟩ := slhOps_exec hc n p data s
  obtain ⟨hr, hmem, hbegun, hgo⟩ := hash_begins h1 h2 h
  obtain ⟨v, hv, hside⟩ := laneSrc_reads hr hbegun r.ain r.len data
  obtain ⟨bstays, bmem, bkeys, blane⟩ := signBusy_stays (n := n) (p := p) small (s.time.refCount + 620000) v
  have hq := hside.quiet (n := n) (p := p)
  have hreq : slhSignReq small r data (laneBegun n p r s) =
      (0, [], laneDst r r.aout (slhSign c.2.2.1 seed (laneInput s p r.ain r.len data)) (signBusy small (s.time.refCount + 620000) v)) := by
    have hprog' : (core (laneBegun n p r s) r.core).prog = false := by rw [hbegun.core, hr]; exact hprog
    have hseed' : devSeed (laneBegun n p r s) r.key = some seed := by rw [← hseed, hbegun.1]; rfl
    have hform : ¬ (wReserved r ∨ r.len = 0 ∨ 65536 < r.len ∨ r.olen ≠ slhLen c.2.2.1) := by simp [hres, holen]; omega
    have hname : (if small then r.key = 1 ∨ r.key = 2 else r.key = 3 ∨ r.key = 4) := by
      rw [hkeys] at hkey
      cases small <;> simpa using hkey
    unfold slhSignReq
    simp only [← hP]
    rw [if_neg hform, if_neg (by simp only [hprog']; cases small <;> simpa [or_iff_not_imp_left] using hname), hseed']
    simp only [laneRefusal_of_side hbegun, href, hv, show (laneBegun n p r s).time = s.time by rw [hbegun.1]]
    rfl
  obtain ⟨w, hw, hcount⟩ := permsRun_ends (n := n) (r := r) hreq
  have hcq := hcount.quiet (n := n) (p := p)
  refine ⟨_, hexec.trans (congrArg Host.Outcome.next (hgo hfn hw (by decide))), ?_, hashDone_told ?_ hmem ?_ 0, ?_⟩
  · exact coreWrote.of_kept (hq.mem.trans bmem) (laneDst_wrote hr _ _ _) (hcq.mem.trans ⟨rfl, rfl, rfl⟩)
  · exact hq.works.stays.trans (bstays.trans ((laneDst_works hr _ _ _).stays.trans hcq.works.stays))
  · rw [hcq.ctxs, laneOf_laneDst, blane, hq.ctxs]
  · exact hq.works.keys.trans (bkeys.trans ((laneDst_works (n := n) hr _ _ _).keys.trans hcq.works.keys))

theorem slhVerify_runs {c : (Nat → Nat → Nat → List Byte → Instr) × Nat × SlhP} {i : Nat} {data : Bytes} {e : KEnt} (hc : c ∈ slhVerifyOps)
    (h1 : 16 ≤ n) (h2 : n < 24) (h : laneRuns s n p r) (hfn : bitsOf (wOp r) 5 0 = c.2.1) (hres : wReserved r = false) (holen : r.olen = 0)
    (hlen : slhLen c.2.2 < r.len) (hk : laneKey s r = some (i, e)) (hbad : keyBad s i e = false) (hkind : e.kind = 2) (hmat : e.mat.length = 64)
    (huses : 1 ≤ laneUses s r) (href : laneRefusal s r (some (r.ain, r.len)) none = none) :
    ∃ t, exec (c.1 n p 0 data) s = .next t ∧ memKept p s t ∧
      hashDone s n p r (if slhVerify c.2.2 e.mat ((laneInput s p r.ain r.len data).drop (slhLen c.2.2))
        ((laneInput s p r.ain r.len data).take (slhLen c.2.2)) then 0 else 1) (wCtx r) (ctxAt s n (wCtx r)) t ∧
      laneUses t r = laneUses s r - 1 ∧ usesTaken s t i 1 e := by
  obtain ⟨hr, hmem, hbegun, hgo⟩ := hash_begins h1 h2 h
  obtain ⟨-, -, -, -, -, -, hinj⟩ := h
  obtain ⟨v, hv, hside⟩ := laneSrc_reads hr hbegun r.ain r.len data
  have hreq : slhVerifyReq c.2.2 r data (laneBegun n p r s) = (if slhVerify c.2.2 e.mat ((laneInput s p r.ain r.len data).drop (slhLen c.2.2))
      ((laneInput s p r.ain r.len data).take (slhLen c.2.2)) then 0 else 1, [], laneSpend r 1 v) := by
    have hkey : laneKey (laneBegun n p r s) r = some (i, e) := (laneKey_of_keeps hr (hbegun.asymKeeps (n := n))).trans hk
    have hpass : lanePass r (laneBegun n p r s) = laneBegun n p r s := by
      rw [lanePass, hkey]
      exact keyPass_uninjected (by rw [hbegun.1]; exact hinj) i
    have hbad' : keyBad (laneBegun n p r s) i e = false := by rw [← hbad, hbegun.1]; rfl
    have huses' : ¬ laneUses (laneBegun n p r s) r < 1 := by
      rw [(hbegun.quiet (n := n)).uses hr]
      omega
    have hform : ¬ (wReserved r ∨ r.olen ≠ 0 ∨ r.len ≤ slhLen c.2.2) := by simp [hres, holen]; omega
    unfold slhVerifyReq
    rw [if_neg hform]
    simp only [hpass, hkey, hbad', hkind, hmat, huses', laneRefusal_of_side hbegun, href, hv]
    simp
  obtain ⟨w, hw, hcount⟩ := permsRun_ends (n := n) (r := r) hreq
  have hspent := (laneSpend_spends (n := n) hr ((laneKey_of_keeps hr (hside.asymKeeps (n := n))).trans hk) 1).of_quiet hr hside.quiet hcount.quiet
  refine ⟨_, (slhVerifyOps_exec hc n p data s).trans (congrArg Host.Outcome.next (hgo hfn hw (by split <;> decide))),
    hspent.mem.trans ⟨rfl, rfl, rfl⟩, hashDone_told hspent.stays hmem hspent.ctxs _, hspent.uses, hspent.taken⟩

end

/-- Settles O22: the digests phase by phase, and the signatures. -/
theorem hashLane : Obligations.HashLane := by
  refine ⟨fun c hc s n p r data h1 h2 h hfn hres hlen => ⟨fun hph holen href => ?_, fun hph hfree href => ?_, fun m hctx =>
    ⟨fun hph href => ?_, fun hph holen href => ?_⟩, fun hctx => ?_⟩, ?_, ?_⟩
  · simpa using digest_runs (m := []) data hc h1 h2 h hfn hres hlen hph (fun _ => holen) (.inl ⟨rfl, rfl⟩) (by simpa using href)
  · simpa using digest_runs (m := []) data hc h1 h2 h hfn hres hlen hph (fun hl => by simp at hl) (.inr (.inl ⟨rfl, rfl, hfree⟩)) (by simpa using href)
  · simpa using digest_runs (m := m) data hc h1 h2 h hfn hres hlen hph (fun hl => by simp at hl) (.inr (.inr ⟨.inl rfl, hctx⟩)) (by simpa using href)
  · simpa using digest_runs (m := m) data hc h1 h2 h hfn hres hlen hph (fun _ => holen) (.inr (.inr ⟨.inr rfl, hctx⟩)) (by simpa using href)
  · exact digest_refused data hc h1 h2 h hfn hres hlen rfl hctx
  · exact fun _ hc _ _ _ _ _ _ h1 h2 h hfn hres hpos hlen holen hprog hkey hseed href =>
      slhSign_runs hc h1 h2 h hfn hres hpos hlen holen hprog hkey hseed href
  · exact fun _ hc _ _ _ _ _ _ _ h1 h2 h hfn hres holen hlen hk hbad hkind hmat huses href =>
      slhVerify_runs hc h1 h2 h hfn hres holen hlen hk hbad hkind hmat huses href

end Sys2Proof.Machine
end

section
/-!
PROOFS. O21: the operations of the block lanes (R157-R171).
-/

namespace Sys2Proof.Machine

/-! ### Bytes and blocks -/

theorem length_blkBytes (x : W128) : (blkBytes x).length = 16 := by simp [blkBytes, beBytes, length_leBytes]

theorem beBytes_beNat (b : Bytes) : beBytes b.length (beNat b) = b := by
  rw [beBytes, beNat, ← List.length_reverse, leBytes_leNat, List.reverse_reverse]

theorem chunksAux_nil (n f : Nat) : chunksAux n f [] = [] := by cases f <;> rfl

/-- Up to one piece's length there is one piece. -/
theorem chunks_single {n : Nat} {d : Bytes} (h0 : 0 < d.length) (h : d.length ≤ n) : chunks n d = [d] := by
  obtain ⟨b, bs, rfl⟩ := List.exists_cons_of_length_pos h0
  rw [chunks, List.length_cons, chunksAux, List.take_of_length_le h, List.drop_of_length_le h, chunksAux_nil]
  simp

theorem cdiv_single {a b : Nat} (h0 : 0 < a) (h : a ≤ b) : cdiv a b = 1 := by
  rw [cdiv, Nat.div_eq_of_lt_le] <;> omega

theorem cdiv_of_mod {a b : Nat} (hb : 0 < b) (h : a % b = 0) : cdiv a b = a / b := by
  obtain ⟨m, rfl⟩ := Nat.dvd_of_mod_eq_zero h
  rw [cdiv, Nat.mul_div_cancel_left _ hb, Nat.div_eq_of_lt_le]
  · rw [Nat.mul_comm]; omega
  · rw [Nat.succ_mul, Nat.mul_comm]; omega

theorem length_laneInput (s : State) (p a k : Nat) (data : Bytes) : (laneInput s p a k data).length = k := by
  unfold laneInput
  split
  · simp
  · simp [padTo, slice, zeroBytes]

theorem blkSize_cases (aes : Bool) : blkSize aes = 8 ∨ blkSize aes = 16 := by cases aes <;> simp [blkSize]

/-- Enciphering takes each block for itself: the feedback of FB is a decipher's. -/
theorem blockRun_encipher (e : KEnt) (fb : Nat) (x : Bytes) (l : List Bytes) : blockRun 0 e fb x l = l.flatMap (blkEnc (algAes e.alg) e.mat) := by
  induction l generalizing x with
  | nil => rfl
  | cons b l ih => simp [blockRun, blockFn, ih]

/-! ### What a block request begins and ends with -/

/-- The key as a lane's slot holds it has the budget of its entry. -/
theorem slotKey_budget (s : State) (n i : Nat) (e : KEnt) : (slotKey s n i e).ledger = e.ledger ∧ (slotKey s n i e).chunk = e.chunk := by
  unfold slotKey
  split <;> exact ⟨rfl, rfl⟩

/-- What a block request that has run leaves behind it: its key's slot is the last used, and a fill is counted (R168, R488). -/
def blockClose (n : Nat) (r : LaneReq) (i : Nat) (e : KEnt) (hit : Bool) (s : State) : State :=
  slotUse n ⟨i, e.func, e.alg, e.mat⟩ (if hit then s else countLane 0x104 n r.core 1 s)

/-- The work of a block request whose key serves. -/
def blockWork (n : Nat) (r : LaneReq) (i : Nat) (e : KEnt) (len : Nat) (data : Bytes) (s : State) : LaneEnd :=
  if takesNoData (rOp r) then tagOp n r e len s else dataOp n r i e len data s

section
variable {n p i k len : Nat} {s t u v w : State} {r : LaneReq} {e : KEnt} {data : Bytes}

theorem blockClose_quiet (hit : Bool) (s : State) : laneQuiet n p s (blockClose n r i e hit s) := by
  refine laneQuiet.trans (t := if hit then s else countLane 0x104 n r.core 1 s) ?_ (slotUse_quiet _ _)
  split
  · exact .refl n p s
  · exact (countLane_side _ _ _ _ _).quiet

theorem blockClose_out (h : s.cnt.ctrs = []) (hit : Bool) : (blockClose n r i e hit s).out = s.out := by
  cases hit
  · exact (congrArg State.out (countEv_none h _ _) : (countLane 0x104 n r.core 1 s).out = s.out)
  · rfl

theorem laneQuiet.laneKey (hr : r.core = p) (h : laneQuiet n p s t) : Machine.laneKey t r = Machine.laneKey s r := by
  obtain ⟨hpins, hkst, -⟩ := h.works.keys
  rw [← hr] at hpins
  simp only [Machine.laneKey, keyAt, hpins, hkst]

/-- A block lane's request begins with its turn, and is counted. -/
theorem laneBegun_turn (hn : n < 16) (p : Nat) (r : LaneReq) (s : State) : ∃ single, sideFrame (laneTurn n p single s) (laneBegun n p r s) := by
  refine ⟨reqSingle s r, ?_⟩
  rw [laneBegun, if_pos (show isBlock n = true by simp [isBlock, hn])]
  exact countLane_side _ _ _ _ _

theorem laneBegun_lane (hn : n < 16) (p : Nat) (r : LaneReq) (s : State) :
    ∃ a b, laneOf (laneBegun n p r s) n = { laneOf s n with turn1 := a, turnN := b } := by
  obtain ⟨single, hside⟩ := laneBegun_turn hn p r s
  have hlane : laneOf (laneBegun n p r s) n = laneOf (laneTurn n p single s) n := by rw [laneOf, hside.1, laneOf]
  rw [hlane, laneTurn, laneOf_modLane_same]
  cases single
  · exact ⟨(laneOf s n).turn1, p, rfl⟩
  · exact ⟨p, (laneOf s n).turnN, rfl⟩

theorem laneRefusal_laneBegun (hn : n < 16) (p : Nat) (s : State) (a b : Option (Nat × Nat)) :
    laneRefusal (laneBegun n p r s) r a b = laneRefusal s r a b := by
  obtain ⟨single, hside⟩ := laneBegun_turn hn p r s
  exact (laneRefusal_of_side hside a b).trans rfl

/-- The input of a block request, and what reading it leaves. -/
theorem laneSrc_laneBegun (hn : n < 16) (hr : r.core = p) (s : State) (a k : Nat) (data : Bytes) :
    ∃ v, laneSrc r a k data (laneBegun n p r s) = (laneInput s p a k data, v) ∧ laneQuiet n p s v := by
  obtain ⟨single, hside⟩ := laneBegun_turn hn p r s
  obtain ⟨v, hv, hsv⟩ := laneSrc_reads hr hside a k data
  exact ⟨v, hv, (laneTurn_quiet p single s).trans hsv.quiet⟩

/-- A block request whose key serves runs its work. -/
theorem blockReq_runs (hr : r.core = p) (h : laneQuiet n p s u) (hslots : (laneOf u n).slots = (laneOf s n).slots) (hinj : u.dbg.inj = none)
    (hformed : reqFormed r = true) (hlen : reqLen r = some len) {x : KEnt} (hk : laneKey s r = some (i, x)) (hbad : slotBad s n i x = false)
    (he : slotKey s n i x = e) (hserves : keyServes (rOp r) e = true) {st : Nat} {out : Bytes} (hwork : blockWork n r i e len data u = (st, out, w)) :
    blockReq n r data u = (st, out, blockClose n r i e (slotOf u n i e.func).isSome w) := by
  have hkey : laneKey u r = some (i, x) := (h.laneKey hr).trans hk
  have hfill : fillPass n r u = u := by
    rw [fillPass, hkey]
    dsimp only
    split
    · rfl
    · exact keyPass_uninjected hinj i
  have hslot : ∀ f, slotOf u n i f = slotOf s n i f := fun f => by rw [slotOf, hslots, slotOf]
  have hbad' : slotBad u n i x = false := by
    rw [← hbad, slotBad, hslot, slotBad, keyBad, keyBad, h.works.keys.2.1]
  have he' : slotKey u n i x = e := by rw [← he, slotKey, hslot, slotKey]
  simp only [blockWork] at hwork
  simp only [blockReq, hformed, hlen, hfill, hkey, hbad', he', hserves, hwork]
  rfl

/-- What a block lane's request that runs begins with. -/
theorem block_begins (h : blockRuns s n p r len i e) : r.core = p ∧ r ∈ (laneOf s n).queue ∧ laneQuiet n p s (laneBegun n p r s) ∧
    (∃ x, laneKey s r = some (i, x) ∧ e.ledger = x.ledger ∧ e.chunk = x.chunk) ∧
    ∃ hit, ∀ {op : Nat} {data : Bytes} {st : Nat} {out : Bytes} {w : State}, rOp r = op →
      blockWork n r i e len data (laneBegun n p r s) = (st, out, w) → st ≠ 255 →
      goBlock op n p 0 data s = laneMark n r.tag st out (blockClose n r i e hit w) := by
  obtain ⟨hn, hruns, hformed, hlen, hkey, hserves⟩ := h
  obtain ⟨hr, hmem⟩ := laneNext_core hruns.1
  have hq := laneBegun_quiet (n := n) (p := p) (r := r) s
  obtain ⟨⟨j, x⟩, hk, hx⟩ := Option.map_eq_some_iff.1 hkey
  obtain ⟨rfl, hx'⟩ := Prod.mk.inj hx
  obtain ⟨hbad, he⟩ := Prod.mk.inj hx'
  have hslots : (laneOf (laneBegun n p r s) n).slots = (laneOf s n).slots := by
    obtain ⟨a, b, hlane⟩ := laneBegun_lane hn p r s
    rw [hlane]
  have hinj : (laneBegun n p r s).dbg.inj = none := by
    rw [hq.works.stays.frame.1]
    exact hruns.2.2.2.2.2.2
  refine ⟨hr, hmem, hq, ⟨x, hk, he ▸ slotKey_budget s n j x⟩, (slotOf (laneBegun n p r s) n j e.func).isSome, fun hop hwork hst => ?_⟩
  rw [goBlock, if_pos (show isBlock n = true by simp [isBlock, hn])]
  exact laneGo_ends hruns (decide_eq_true hop)
    (blockReq_runs hr hq hslots hinj hformed hlen hk hbad he hserves hwork) hst

/-- The end of a block request whose uses are spent, by what its work then made of the lane's state for the core. -/
theorem blockDone_marked (hr : r.core = p) (hmem : r ∈ (laneOf s n).queue) (hs : laneSpends n p r i k e s v) (hw : laneWorks n p v w)
    (hit : Bool) (st : Nat) (out : Bytes) :
    blockDone s n p r i e st out k (lanePort w n p) (laneMark n r.tag st out (blockClose n r i e hit w)) := by
  have hq := blockClose_quiet (n := n) (p := p) (r := r) (i := i) (e := e) hit w
  have hall := hw.trans hq.works
  obtain ⟨hended, hframe⟩ := (hs.stays.trans hall.stays).ended hmem st out
  refine ⟨hended, (laneUses_of_pins hr hall.keys.1).trans hs.uses, ?_, hframe,
    usesTaken.of_kept ⟨rfl, rfl⟩ hs.taken hall.keys.2, ?_⟩
  · rw [lanePort, laneMark_lane]
    exact hq.port
  · show (laneMark n r.tag st out (blockClose n r i e hit w)).lanes = { s.lanes with
      lanes := (laneMark n r.tag st out (blockClose n r i e hit w)).lanes.lanes }
    have htab := hall.tables
    rw [hs.tables] at htab
    unfold laneMark mapLanes modLane
    rw [modLanes_lanes, modLanes_lanes, htab]

/-- A block request that has spent its uses ends with what its work gives; what its work left of the memories, it leaves. -/
theorem block_ends (h : blockRuns s n p r len i e) {op : Nat} (hop : rOp r = op) {st : Nat} {out : Bytes}
    (hwork : blockWork n r i e len data (laneBegun n p r s) = (st, out, w)) (hst : st ≠ 255) (hs : laneSpends n p r i k e s v) (hw : laneWorks n p v w) :
    ∃ t, goBlock op n p 0 data s = t ∧ blockDone s n p r i e st out k (lanePort w n p) t ∧ (memKept p v w → memKept p s t) ∧
      (∀ a d, coreWrote v w p a d → coreWrote s t p a d) ∧ (w.cnt.ctrs = [] → t.out = w.out) := by
  obtain ⟨hr, hmem, -, -, hit, hgo⟩ := block_begins h
  have hclose : memKept p w (laneMark n r.tag st out (blockClose n r i e hit w)) :=
    (blockClose_quiet (n := n) (r := r) (i := i) (e := e) hit w).mem.trans ⟨rfl, rfl, rfl⟩
  exact ⟨_, hgo hop hwork hst, blockDone_marked hr hmem hs hw hit st out, fun hk => hs.mem.trans (hk.trans hclose),
    fun a d hd => coreWrote.of_kept hs.mem hd hclose, fun hc => blockClose_out (i := i) (e := e) hc hit⟩

/-- What a request spends, once its input is read. -/
theorem block_spends (h : blockRuns s n p r len i e) (hq : laneQuiet n p s v) (k : Nat) : laneSpends n p r i k e s (countOps n r k (laneSpend r k v)) := by
  obtain ⟨hr, -, -, ⟨x, hk, hledger, hchunk⟩, -⟩ := block_begins h
  have hspent := (laneSpend_spends (n := n) hr ((hq.laneKey hr).trans hk) k).of_quiet hr hq (countOps_side n r k _).quiet
  exact { hspent with taken := hspent.taken.of_budget hledger hchunk }

/-! ### Cipher requests (R161-R164) -/

/-- The block length of a cipher request. -/
abbrev cipherSize (r : LaneReq) (e : KEnt) : Nat := if rOp r = 2 then 8 else blkSize (algAes e.alg)

/-- What a cipher request makes of its one block (R164). -/
def cipherOut (r : LaneReq) (e : KEnt) (bs : Nat) : Bytes :=
  if rFb r = 1 ∧ rOp r = 1 then xorBytes (blockFn (rOp r) e (blockIn r bs)) (padTo bs (reqChain r)) else blockFn (rOp r) e (blockIn r bs)

/-- What holds of the one block of a short cipher request: its length, and that it is one piece. -/
theorem oneBlock_block (h : oneBlock r len (cipherSize r e)) : ((reqData r).take len).length = len ∧ 0 < len ∧
    chunks len ((reqData r).take len) = [(reqData r).take len] := by
  obtain ⟨-, -, -, hlen⟩ := h
  have hle : 0 < len ∧ len ≤ 16 := by
    have := blkSize_cases (algAes e.alg)
    rw [hlen, cipherSize]
    split <;> omega
  have hd : ((reqData r).take len).length = len := by simp [reqData, length_blkBytes, hle.2]
  exact ⟨hd, hle.1, chunks_single (by omega) (by omega)⟩

/-- One block of the block stack goes through the cipher, and where DST says. -/
theorem cipherRun_oneBlock (hop : rOp r ≤ 2) (h : oneBlock r len (cipherSize r e)) (s : State) :
    cipherRun n r i e len ((reqData r).take len) s = deliver n r i (cipherOut r e len) s := by
  obtain ⟨-, -, hchunk⟩ := oneBlock_block h
  obtain ⟨hsrc, -, hsub, hlen⟩ := h
  have hop4 : rOp r ≠ 4 := by omega
  have hsize : (if rOp r = 2 then 8 else blkSize (algAes e.alg)) = len := hlen.symm
  simp only [cipherRun, hsize, hchunk, hop4, hsrc, hsub, if_true, if_false]
  have hblocks : blockRun (rOp r) e (rFb r) (padTo len (reqChain r))
      (if rXin r then xorFirst (padTo len (reqChain r)) [(reqData r).take len] else [(reqData r).take len]) = cipherOut r e len := by
    unfold cipherOut blockIn
    cases rXin r <;> simp [blockRun, xorFirst]
  cases (lanePort s n r.core).subkey <;> exact congrArg (deliver n r i · s) hblocks

/-- Enciphering in plain goes block by block. -/
theorem cipherRun_encipher (hop : rOp r = 0) (hsrc : rSrc r ≠ 2) (hsub : rSub r = 0) (hxin : rXin r = false) (d : Bytes) (s : State) :
    cipherRun n r i e len d s = deliver n r i ((chunks (blkSize (algAes e.alg)) d).flatMap (blkEnc (algAes e.alg) e.mat)) s := by
  have hblocks := blockRun_encipher e (rFb r) (padTo (blkSize (algAes e.alg)) (reqChain r)) (chunks (blkSize (algAes e.alg)) d)
  simp only [cipherRun, hop, hsrc, hsub, hxin]
  cases (lanePort s n r.core).subkey <;> exact congrArg (deliver n r i · s) hblocks

/-- A short cipher request passes its checks and spends one use. -/
theorem dataOp_oneBlock (hr : r.core = p) (hop : rOp r ≤ 2) (h : oneBlock r len (cipherSize r e)) (huses : 1 ≤ laneUses u r)
    (href : rDst r ≠ 0 → rDst r ≠ 3 → laneRefusal u r none (some (r.aout, len)) = none)
    (hroom : rDst r = 2 → (quarBytes (lanePort u n p).quar).length + len ≤ 16384 ∧
      ((laneOf u n).ports.map fun x => (quarBytes x.2.quar).length).sum + len ≤ 65536) :
    dataOp n r i e len data u = deliver n r i (cipherOut r e len) (countOps n r 1 (laneSpend r 1 u)) := by
  obtain ⟨hd, hpos, -⟩ := oneBlock_block h
  have hrun := cipherRun_oneBlock (n := n) (i := i) hop h (countOps n r 1 (laneSpend r 1 u))
  obtain ⟨hsrc, hpad, hsub, hlen⟩ := h
  have hop4 : rOp r ≠ 4 := by omega
  have hop6 : rOp r ≠ 6 := by omega
  have hsize : (if rOp r = 2 then 8 else blkSize (algAes e.alg)) = len := hlen.symm
  have hlp : lanePad 0 len ((reqData r).take len) = some ((reqData r).take len) := by simp [lanePad, hd]
  have hblocks : reqBlocks len ((reqData r).take len) = 1 := by rw [reqBlocks, hd, cdiv_single hpos (le_refl _)]
  have href' : laneRefusal u r none (if rDst r = 0 ∨ rDst r = 3 then none else some (r.aout, len)) = none := by
    split
    · rfl
    next hdst => exact href (fun hc => hdst (.inl hc)) (fun hc => hdst (.inr hc))
  have hfull : ¬ (rDst r = 2 ∧ (16384 < (quarBytes (lanePort u n p).quar).length + len ∨
      65536 < ((laneOf u n).ports.map fun x => (quarBytes x.2.quar).length).sum + len)) := by
    intro hc
    have := hroom hc.1
    omega
  have huses' : laneUses u r ≠ 0 := by omega
  simp [dataOp, hop4, hop6, hsize, hsrc, hpad, hsub, hlp, hd, hblocks, hr, href', hfull, huses', hrun]

/-- What the lane shows the core where its own work has not changed it. -/
theorem block_told (h : blockRuns s n p r len i e) {op : Nat} (hop : rOp r = op) {st : Nat} {out : Bytes} (hq : laneQuiet n p s v)
    (hwork : blockWork n r i e len data (laneBegun n p r s) = (st, out, countOps n r k (laneSpend r k v))) (hst : st ≠ 255) :
    ∃ t, goBlock op n p 0 data s = t ∧ memKept p s t ∧ blockDone s n p r i e st out k (lanePort s n p) t := by
  have hs := block_spends h hq k
  have hid := laneQuiet.refl n p (countOps n r k (laneSpend r k v))
  obtain ⟨t, ht, hdone, hmem, -, -⟩ := block_ends h hop hwork hst hs hid.works
  exact ⟨t, ht, hmem hid.mem, hs.port ▸ hdone⟩

/-- What the lane shows the core where its work has changed what it holds for the core. -/
theorem block_held (h : blockRuns s n p r len i e) {op : Nat} (hop : rOp r = op) {st : Nat} {out : Bytes} (g : LanePort → LanePort)
    (hs : laneSpends n p r i k e s v) (hwork : blockWork n r i e len data (laneBegun n p r s) = (st, out, modPort n p g v)) (hst : st ≠ 255) :
    ∃ t, goBlock op n p 0 data s = t ∧ memKept p s t ∧ blockDone s n p r i e st out k (g (lanePort s n p)) t ∧ (v.cnt.ctrs = [] → t.out = v.out) := by
  obtain ⟨hworks, hmem, hport⟩ := modPort_works (n := n) (p := p) g v
  obtain ⟨t, ht, hdone, hmemt, -, hout⟩ := block_ends h hop hwork hst hs hworks
  rw [hport, hs.port] at hdone
  exact ⟨t, ht, hmemt hmem, hdone, hout⟩

theorem cipher_to_stack (h : blockRuns s n p r len i e) (hop : rOp r ≤ 2) (hone : oneBlock r len (cipherSize r e)) (huses : 1 ≤ laneUses s r)
    (hdst : rDst r = 0) : ∃ t, goBlock (rOp r) n p 0 data s = t ∧ memKept p s t ∧
      blockDone s n p r i e 0 (cipherOut r e len) 1 (lanePort s n p) t := by
  obtain ⟨hr, -, hq, -⟩ := block_begins h
  have hdata : takesNoData (rOp r) = false := by simp [takesNoData]; omega
  refine block_told (data := data) h rfl hq ?_ (by decide)
  rw [blockWork, hdata]
  exact (dataOp_oneBlock hr hop hone (by rw [hq.uses hr]; exact huses) (fun hc => absurd hdst hc) (fun hc => by omega)).trans
    (by simp [deliver, hdst])

theorem decipher_to_quarantine (h : blockRuns s n p r len i e) (hop : rOp r = 1) (hone : oneBlock r len (blkSize (algAes e.alg)))
    (huses : 1 ≤ laneUses s r) (hdst : rDst r = 2) (hfb : rFb r = 0) (href : laneRefusal s r none (some (r.aout, len)) = none)
    (hroom : (quarBytes (lanePort s n p).quar).length + len ≤ 16384)
    (hall : ((laneOf s n).ports.map fun x => (quarBytes x.2.quar).length).sum + len ≤ 65536) :
    ∃ t, goBlock 1 n p 0 data s = t ∧ memKept p s t ∧ blockDone s n p r i e 0 [] 1 { lanePort s n p with
      quar := (lanePort s n p).quar ++ [⟨r.aout, blkDec (algAes e.alg) e.mat (blockIn r len), i⟩] } t := by
  obtain ⟨hr, -, hq, -⟩ := block_begins h
  have hdata : takesNoData (rOp r) = false := by simp [takesNoData]; omega
  obtain ⟨a, b, hlane⟩ := laneBegun_lane h.1 p r s
  have hout : cipherOut r e len = blkDec (algAes e.alg) e.mat (blockIn r len) := by simp [cipherOut, hfb, hop, blockFn]
  obtain ⟨t, ht, hmem, hdone, -⟩ := block_held (data := data) h hop
    (fun q => { q with quar := q.quar ++ [⟨r.aout, blkDec (algAes e.alg) e.mat (blockIn r len), i⟩] }) (block_spends h hq 1) (st := 0) (out := []) (by
      rw [blockWork, hdata]
      refine (dataOp_oneBlock hr (by omega) (by rw [cipherSize, hop]; exact hone) (by rw [hq.uses hr]; exact huses)
        (fun _ _ => (laneRefusal_laneBegun h.1 p s _ _).trans href) (fun _ => ⟨by rw [hq.port]; exact hroom, by rw [hlane]; exact hall⟩)).trans ?_
      simp only [deliver, hdst, hr, hout]) (by decide)
  exact ⟨t, ht, hmem, hdone⟩

/-- One block of keystream, cut to LEN (R161). -/
theorem keystream_to_stack (h : blockRuns s n p r len i e) (hop : rOp r = 4) (hsrc : rSrc r = 0) (hpad : rPad r = 0) (hsub : rSub r = 0)
    (hdst : rDst r = 0) (huses : 1 ≤ laneUses s r) : ∃ t, goBlock 4 n p 0 data s = t ∧ memKept p s t ∧
      blockDone s n p r i e 0 ((xorBytes ((reqData r).take len) (aesEnc e.mat (reqCtr r))).take len) 1 (lanePort s n p) t := by
  obtain ⟨hr, -, hq, -⟩ := block_begins h
  obtain ⟨-, -, -, hlen, -, hserves⟩ := id h
  have haes : algAes e.alg = true := by
    simp only [hop, keyServes, Bool.and_eq_true] at hserves
    exact hserves.2
  have hle : 0 < len ∧ len ≤ 16 := by
    simp [reqLen, hop, hsrc, hpad] at hlen
    omega
  have hd : ((reqData r).take len).length = len := by simp [reqData, length_blkBytes, hle.2]
  have hchunk : chunks 16 ((reqData r).take len) = [(reqData r).take len] := chunks_single (by omega) (by omega)
  have hblocks : reqBlocks 16 ((reqData r).take len) = 1 := by rw [reqBlocks, hd, cdiv_single hle.1 hle.2]
  have hctr : beBytes 16 (beNat (reqCtr r)) = reqCtr r := by
    have := beBytes_beNat (reqCtr r)
    rwa [reqCtr, length_blkBytes] at this
  have huses' : laneUses (laneBegun n p r s) r ≠ 0 := by rw [hq.uses hr]; omega
  refine block_told (data := data) h hop hq ?_ (by decide)
  have href : laneRefusal (laneBegun n p r s) r none none = none := rfl
  simp [blockWork, takesNoData, dataOp, cipherRun, deliver, keystream, hop, hsrc, hpad, hsub, hdst, haes, blkSize, hchunk, hblocks, hctr, href,
    huses']

/-- Blocks in memory go through the cipher each for itself, and are written in their order (R160). -/
theorem encipher_to_memory (h : blockRuns s n p r len i e) (hop : rOp r = 0) (hsrc : rSrc r = 1) (hdst : rDst r = 1) (hpad : rPad r = 0)
    (hsub : rSub r = 0) (hxin : rXin r = false) (hmod : len % blkSize (algAes e.alg) = 0)
    (href : laneRefusal s r (some (r.ain, len)) (some (r.aout, len)) = none) (huses : len / blkSize (algAes e.alg) ≤ laneUses s r) :
    ∃ t, goBlock 0 n p 0 data s = t ∧
      coreWrote s t p r.aout ((chunks (blkSize (algAes e.alg)) (laneInput s p r.ain len data)).flatMap (blkEnc (algAes e.alg) e.mat)) ∧
      blockDone s n p r i e 0 [] (len / blkSize (algAes e.alg)) (lanePort s n p) t := by
  obtain ⟨hr, -, hq, -⟩ := block_begins h
  obtain ⟨v, hv, hqv⟩ := laneSrc_laneBegun h.1 hr s r.ain len data
  have hd := length_laneInput s p r.ain len data
  have hsize : 0 < blkSize (algAes e.alg) := by have := blkSize_cases (algAes e.alg); omega
  have hblocks : reqBlocks (blkSize (algAes e.alg)) (laneInput s p r.ain len data) = len / blkSize (algAes e.alg) := by
    rw [reqBlocks, hd, cdiv_of_mod hsize hmod]
  have hlp : lanePad 0 (blkSize (algAes e.alg)) (laneInput s p r.ain len data) = some (laneInput s p r.ain len data) := by simp [lanePad, hd, hmod]
  have href' := (laneRefusal_laneBegun h.1 p s _ _).trans href
  have huses' : ¬ laneUses (laneBegun n p r s) r < len / blkSize (algAes e.alg) := by rw [hq.uses hr]; omega
  have hs := block_spends h hqv (len / blkSize (algAes e.alg))
  have hrun := cipherRun_encipher (n := n) (i := i) (len := len) (e := e) hop (by omega) hsub hxin (laneInput s p r.ain len data)
    (countOps n r (len / blkSize (algAes e.alg)) (laneSpend r (len / blkSize (algAes e.alg)) v))
  have hworks := laneDst_works (n := n) hr r.aout
    ((chunks (blkSize (algAes e.alg)) (laneInput s p r.ain len data)).flatMap (blkEnc (algAes e.alg) e.mat))
    (countOps n r (len / blkSize (algAes e.alg)) (laneSpend r (len / blkSize (algAes e.alg)) v))
  obtain ⟨t, ht, hdone, -, hwrote, -⟩ := block_ends (data := data) h hop (st := 0) (out := [])
    (by simp [blockWork, takesNoData, dataOp, hop, hsrc, hdst, hpad, hsub, hv, hlp, hd, hblocks, href', huses', hrun, deliver])
    (by decide) hs hworks
  exact ⟨t, ht, hwrote _ _ (laneDst_wrote hr _ _ _), by rwa [lanePort, laneOf_laneDst, ← lanePort, hs.port] at hdone⟩

/-! ### Subkeys, GHASH and tags (R165, R171) -/

theorem subkey_sets (h : blockRuns s n p r len i e) (hop : rOp r = 5) (huses : 1 ≤ laneUses s r) :
    ∃ t, goBlock 5 n p 0 [] s = t ∧ memKept p s t ∧ blockDone s n p r i e 0 [] 1 { lanePort s n p with
      subkey := some (blkEnc (algAes e.alg) e.mat (zeroBytes (blkSize (algAes e.alg)))) } t := by
  obtain ⟨hr, -, hq, -⟩ := block_begins h
  have huses' : laneUses (laneBegun n p r s) r ≠ 0 := by rw [hq.uses hr]; omega
  obtain ⟨t, ht, hmem, hdone, -⟩ := block_held (data := []) h hop
    (fun q => { q with subkey := some (blkEnc (algAes e.alg) e.mat (zeroBytes (blkSize (algAes e.alg)))) }) (block_spends h hq 1) (st := 0) (out := [])
    (by simp [blockWork, takesNoData, tagOp, hop, huses', hr]) (by decide)
  exact ⟨t, ht, hmem, hdone⟩

/-- GHASH absorbs its padded block and spends nothing. -/
theorem ghash_absorbs (h : blockRuns s n p r len i e) {x : Bytes} (hop : rOp r = 6) (hsrc : rSrc r = 0) (hpad : rPad r = 4)
    (hsubkey : (lanePort s n p).subkey = some x) :
    ∃ t, goBlock 6 n p 0 data s = t ∧ memKept p s t ∧ blockDone s n p r i e 0 [] 0 { lanePort s n p with
      acc := ghashAbsorb (BitVec.ofNat 128 (beNat (padTo 16 x))) (lanePort s n p).acc (padTo 16 ((reqData r).take len)) } t := by
  obtain ⟨hr, -, hq, ⟨y, hk, hledger, hchunk⟩, -⟩ := block_begins h
  obtain ⟨-, -, -, hlen, -, -⟩ := id h
  have hle : 0 < len ∧ len ≤ 16 := by
    simp [reqLen, hop, hsrc, hpad] at hlen
    omega
  have hd : ((reqData r).take len).length = len := by simp [reqData, length_blkBytes, hle.2]
  have hlp : lanePad 4 16 ((reqData r).take len) = some (padTo 16 ((reqData r).take len)) := by
    simp [lanePad, hd, cdiv_single hle.1 hle.2]
  have hsub' : (lanePort (laneBegun n p r s) n p).subkey = some x := by rw [hq.port]; exact hsubkey
  have hs : laneSpends n p r i 0 e s (laneBegun n p r s) := by
    have hspent := hq.spends hr (laneKey_keyAt hk)
    exact { hspent with taken := hspent.taken.of_budget hledger hchunk }
  have hblocks : ¬ 1 < reqBlocks 16 (padTo 16 ((reqData r).take len)) := by simp [reqBlocks, padTo, slice, zeroBytes, cdiv]
  obtain ⟨t, ht, hmem, hdone, -⟩ := block_held (data := data) h hop (fun q => { q with
      acc := ghashAbsorb (BitVec.ofNat 128 (beNat (padTo 16 (q.subkey.getD [])))) q.acc (padTo 16 ((reqData r).take len)) }) hs (st := 0) (out := [])
    (by
      have href : laneRefusal (laneBegun n p r s) r none none = none := rfl
      simp [blockWork, takesNoData, dataOp, hop, hsrc, hpad, hlp, hblocks, hr, hsub', href])
    (by decide)
  exact ⟨t, ht, hmem, by simpa [hsubkey] using hdone⟩

/-- The accumulator under the cipher of J0, cut to LEN (R161). -/
def tagOf (s : State) (n p : Nat) (r : LaneReq) (e : KEnt) (len : Nat) : Bytes :=
  (xorBytes (aesEnc e.mat (reqCtr r)) (blkBytes (lanePort s n p).acc)).take len

theorem tag_to_stack (h : blockRuns s n p r len i e) (hop : rOp r = 8) (huses : 1 ≤ laneUses s r) :
    ∃ t, goBlock 8 n p 0 [] s = t ∧ memKept p s t ∧ blockDone s n p r i e 0 (tagOf s n p r e len) 1 { lanePort s n p with acc := 0 } t := by
  obtain ⟨hr, -, hq, -⟩ := block_begins h
  have huses' : laneUses (laneBegun n p r s) r ≠ 0 := by rw [hq.uses hr]; omega
  have hs := block_spends h hq 1
  obtain ⟨t, ht, hmem, hdone, -⟩ := block_held (data := []) h hop (fun q => { q with acc := 0 }) hs (st := 0) (out := tagOf s n p r e len)
    (by simp [blockWork, takesNoData, tagOp, hop, huses', hr, hs.port, tagOf]) (by decide)
  exact ⟨t, ht, hmem, hdone⟩

/-- The core's quarantine and accumulator on the lane are gone (R171). -/
def portEmptied (n p : Nat) (s : State) : State := modPort n p (fun q => { q with quar := [] }) (modPort n p (fun q => { q with acc := 0 }) s)

theorem portEmptied_works (s : State) : laneWorks n p s (portEmptied n p s) ∧ memKept p s (portEmptied n p s) ∧
    lanePort (portEmptied n p s) n p = { lanePort s n p with acc := 0, quar := [] } := by
  obtain ⟨aworks, amem, aport⟩ := modPort_works (n := n) (p := p) (fun q => { q with acc := 0 }) s
  obtain ⟨qworks, qmem, qport⟩ := modPort_works (n := n) (p := p) (fun q => { q with quar := [] }) (modPort n p (fun q => { q with acc := 0 }) s)
  exact ⟨aworks.trans qworks, amem.trans qmem, by rw [portEmptied, qport, aport]⟩

/-- Quarantined bytes are written one after the other, and the lanes stay. -/
theorem releases_works (hr : r.core = p) (l : List Quar) (s : State) : laneWorks n p s (l.foldl (fun s x => laneDst r x.addr x.data s) s) ∧
    laneOf (l.foldl (fun s x => laneDst r x.addr x.data s) s) n = laneOf s n := by
  induction l generalizing s with
  | nil => exact ⟨(laneQuiet.refl n p s).works, rfl⟩
  | cons x l ih =>
    obtain ⟨hworks, hlane⟩ := ih (laneDst r x.addr x.data s)
    exact ⟨(laneDst_works hr _ _ s).trans hworks, hlane.trans (laneOf_laneDst _ _ _ _ _)⟩

/-- TAG_COMPARE empties the lane's state for the core, and releases the quarantine where the tag is the expected one. -/
theorem tagOp_compare (h : blockRuns s n p r len i e) (hop : rOp r = 7) (huses : 1 ≤ laneUses s r) :
    blockWork n r i e len [] (laneBegun n p r s) =
      if tagOf s n p r e len = (reqChain r).take len then
        (0, [], (lanePort s n p).quar.foldl (fun s x => laneDst r x.addr x.data s)
          (portEmptied n p (countOps n r 1 (laneSpend r 1 (laneBegun n p r s)))))
      else (1, [], portEmptied n p (countOps n r 1 (laneSpend r 1 (laneBegun n p r s)))) := by
  obtain ⟨hr, -, hq, -⟩ := block_begins h
  have huses' : laneUses (laneBegun n p r s) r ≠ 0 := by rw [hq.uses hr]; omega
  by_cases htag : tagOf s n p r e len = (reqChain r).take len
  · rw [if_pos htag]
    rw [tagOf] at htag
    simp [blockWork, takesNoData, tagOp, hop, huses', hr, (block_spends h hq 1).port, htag, portEmptied]
  · rw [if_neg htag]
    rw [tagOf] at htag
    simp [blockWork, takesNoData, tagOp, hop, huses', hr, (block_spends h hq 1).port, htag, portEmptied]

/-- With every counter at rest nothing goes out before a block request's own output. -/
theorem spent_out (hn : n < 16) (h : s.cnt.ctrs = []) (p k : Nat) : (countOps n r k (laneSpend r k (laneBegun n p r s))).out = s.out ∧
    (countOps n r k (laneSpend r k (laneBegun n p r s))).cnt.ctrs = [] := by
  have hbegun : laneBegun n p r s = laneTurn n p (reqSingle s r) s := by
    have hturn : (laneTurn n p (reqSingle s r) s).cnt.ctrs = [] := h
    rw [laneBegun, if_pos (show isBlock n = true by simp [isBlock, hn]), countLane, countEv_none hturn]
  have hspent := laneSpend_rest r k (laneBegun n p r s)
  have hcnt : (laneSpend r k (laneBegun n p r s)).cnt.ctrs = [] := by rw [hspent, hbegun]; exact h
  have hops : countOps n r k (laneSpend r k (laneBegun n p r s)) = laneSpend r k (laneBegun n p r s) := by
    simp [countOps, countLane, countEv_none hcnt]
  exact ⟨by rw [hops, hspent, hbegun]; rfl, by rw [hops]; exact hcnt⟩

/-- A failed TAG_COMPARE releases nothing. -/
theorem tagCompare_fails (h : blockRuns s n p r len i e) (hop : rOp r = 7) (huses : 1 ≤ laneUses s r)
    (htag : tagOf s n p r e len ≠ (reqChain r).take len) :
    ∃ t, goBlock 7 n p 0 [] s = t ∧ memKept p s t ∧ (s.cnt.ctrs = [] → t.out = s.out) ∧
      blockDone s n p r i e 1 [] 1 { lanePort s n p with acc := 0, quar := [] } t := by
  obtain ⟨-, -, hq, -⟩ := block_begins h
  have hs := block_spends h hq 1
  obtain ⟨hworks, hmem, hport⟩ := portEmptied_works (n := n) (p := p) (countOps n r 1 (laneSpend r 1 (laneBegun n p r s)))
  obtain ⟨t, ht, hdone, hmemt, -, hout⟩ := block_ends h hop ((tagOp_compare h hop huses).trans (if_neg htag)) (by decide) hs hworks
  rw [hport, hs.port] at hdone
  refine ⟨t, ht, hmemt hmem, fun hc => ?_, hdone⟩
  obtain ⟨hsame, hrest⟩ := spent_out (r := r) h.1 hc p 1
  exact (hout hrest).trans hsame

/-- TAG_COMPARE with the expected tag releases the core's quarantine, oldest first. -/
theorem tagCompare_releases (h : blockRuns s n p r len i e) (hop : rOp r = 7) (huses : 1 ≤ laneUses s r)
    (htag : tagOf s n p r e len = (reqChain r).take len) :
    ∃ t, goBlock 7 n p 0 [] s = t ∧ blockDone s n p r i e 0 [] 1 { lanePort s n p with acc := 0, quar := [] } t ∧
      ((lanePort s n p).quar = [] → memKept p s t) ∧ ∀ a d k, (lanePort s n p).quar = [⟨a, d, k⟩] → coreWrote s t p a d := by
  obtain ⟨hr, -, hq, -⟩ := block_begins h
  have hs := block_spends h hq 1
  obtain ⟨eworks, hmem, hport⟩ := portEmptied_works (n := n) (p := p) (countOps n r 1 (laneSpend r 1 (laneBegun n p r s)))
  obtain ⟨rworks, hlane⟩ := releases_works (n := n) hr (lanePort s n p).quar (portEmptied n p (countOps n r 1 (laneSpend r 1 (laneBegun n p r s))))
  obtain ⟨t, ht, hdone, hmemt, hwrote, -⟩ := block_ends h hop ((tagOp_compare h hop huses).trans (if_pos htag)) (by decide) hs (eworks.trans rworks)
  rw [lanePort, hlane, ← lanePort, hport, hs.port] at hdone
  refine ⟨t, ht, hdone, fun hnone => hmemt ?_, fun a d k hone => hwrote a d ?_⟩
  · rw [hnone]
    exact hmem
  · rw [hone]
    exact coreWrote.of_kept hmem (laneDst_wrote hr a d _) (.refl p _)

end

/-- Settles O21, operation by operation. -/
theorem blockLane : Obligations.BlockLane := by
  refine fun s n p r len i e h => ⟨fun data hop hone huses hdst => ?_, fun data hop hone huses hdst => ?_, fun data hop hone huses hdst => ?_,
    fun data hop hsrc hpad hsub hdst huses => ?_, fun data hop hsrc hdst hpad hsub hxin hmod href huses => ?_,
    fun data hop hone huses hdst hfb href hroom hall => ?_, fun hop huses => ?_, fun data x hop hsrc hpad hsub => ?_, fun hop huses => ?_,
    fun hop huses => ⟨fun htag => ?_, fun htag => ?_⟩⟩
  · obtain ⟨t, ht, hmem, hdone⟩ := cipher_to_stack (data := data) h (by omega) (by rw [cipherSize, hop]; exact hone) huses hdst
    exact ⟨t, by rw [← ht, hop]; rfl, hmem, by simpa [cipherOut, hop, blockFn] using hdone⟩
  · obtain ⟨t, ht, hmem, hdone⟩ := cipher_to_stack (data := data) h (by omega) (by rw [cipherSize, hop]; exact hone) huses hdst
    exact ⟨t, by rw [← ht, hop]; rfl, hmem, by simpa [cipherOut, hop, blockFn] using hdone⟩
  · obtain ⟨t, ht, hmem, hdone⟩ := cipher_to_stack (data := data) h (by omega) (by rw [cipherSize, hop]; exact hone) huses hdst
    have hlen : len = 8 := hone.2.2.2
    exact ⟨t, by rw [← ht, hop]; rfl, hmem, by simpa [cipherOut, hop, blockFn, hlen] using hdone⟩
  · obtain ⟨t, ht, hend⟩ := keystream_to_stack (data := data) h hop hsrc hpad hsub hdst huses
    exact ⟨t, congrArg Host.Outcome.next ht, hend⟩
  · obtain ⟨t, ht, hend⟩ := encipher_to_memory (data := data) h hop hsrc hdst hpad hsub hxin hmod href huses
    exact ⟨t, congrArg Host.Outcome.next ht, hend⟩
  · obtain ⟨t, ht, hend⟩ := decipher_to_quarantine (data := data) h hop hone huses hdst hfb href hroom hall
    exact ⟨t, congrArg Host.Outcome.next ht, hend⟩
  · obtain ⟨t, ht, hend⟩ := subkey_sets h hop huses
    exact ⟨t, congrArg Host.Outcome.next ht, hend⟩
  · obtain ⟨t, ht, hend⟩ := ghash_absorbs (data := data) h hop hsrc hpad hsub
    exact ⟨t, congrArg Host.Outcome.next ht, hend⟩
  · obtain ⟨t, ht, hend⟩ := tag_to_stack h hop huses
    exact ⟨t, congrArg Host.Outcome.next ht, hend⟩
  · obtain ⟨t, ht, hend⟩ := tagCompare_releases h hop huses htag
    exact ⟨t, congrArg Host.Outcome.next ht, hend⟩
  · obtain ⟨t, ht, hend⟩ := tagCompare_fails h hop huses htag
    exact ⟨t, congrArg Host.Outcome.next ht, hend⟩

end Sys2Proof.Machine
end

section
/-!
PROOFS. O24: results on their way back, fencing, spares and the wake of a hash lane (R158, R175, R177, R461).
-/

namespace Sys2Proof.Machine

/-! ### The lanes' tables -/

/-- No lane's queue, no fence and no count of twin differences changes. -/
structure lanesHeld (s t : State) : Prop where
  queue : ∀ m, (laneOf t m).queue = (laneOf s m).queue
  fenced : ∀ m, (laneOf t m).fenced = (laneOf s m).fenced
  mismatches : t.lanes.mismatches = s.lanes.mismatches

section
variable {s t u : State}

theorem lanesHeld.of_lanes (h : t.lanes = s.lanes) : lanesHeld s t :=
  ⟨fun m => by rw [laneOf, h, laneOf], fun m => by rw [laneOf, h, laneOf], by rw [h]⟩

theorem lanesHeld.refl (s : State) : lanesHeld s s := .of_lanes rfl

theorem lanesHeld.trans (h : lanesHeld s t) (k : lanesHeld t u) : lanesHeld s u :=
  ⟨fun m => (k.queue m).trans (h.queue m), fun m => (k.fenced m).trans (h.fenced m), k.mismatches.trans h.mismatches⟩

theorem sideFrame.held (h : sideFrame s t) : lanesHeld s t := .of_lanes (by rw [h.1])

theorem modLane_held (n : Nat) (g : Lane → Lane) (hq : ∀ l, (g l).queue = l.queue) (hf : ∀ l, (g l).fenced = l.fenced) (s : State) :
    lanesHeld s (modLane n g s) := by
  have hfield : ∀ {α : Type} (x : Lane → α), (∀ l, x (g l) = x l) → ∀ m, x (laneOf (modLane n g s) m) = x (laneOf s m) := fun x hx m => by
    by_cases hm : m = n
    · subst hm
      rw [laneOf_modLane_same, hx]
    · rw [laneOf_modLane_ne _ _ hm]
  exact ⟨hfield Lane.queue hq, hfield Lane.fenced hf, rfl⟩

end

/-! ### Reports and failed keys -/

theorem emit_report (o : Out) (s : State) : reportFrame s (emit o s) := ⟨rfl, fun _ => rfl⟩

/-- An error report leaves all but the error registers and what a report can change (R477). -/
theorem errReport_report (det sev action unit func addr syndrome : Nat) (test : Bool) (s : State) :
    ∃ g, reportFrame (modDbg g s) (errReport det sev action unit func addr syndrome test s) := by
  have hsaid := fun b s => (auditU_report 0x0500 (4 * b2n test) func b s).trans (emit_report (.aer true) _)
  by_cases hsev : 2 ≤ sev
  · simp only [errReport, if_pos hsev]
    exact ⟨_, (hsaid _ _).trans ((fireMsix_report 0 4 _).trans (healthReport_report _ _ _))⟩
  · simp only [errReport, if_neg hsev]
    exact ⟨_, hsaid _ _⟩

theorem errReport_blocks (det sev action unit func addr syndrome : Nat) (test : Bool) (s : State) :
    (errReport det sev action unit func addr syndrome test s).lanes = s.lanes ∧ (errReport det sev action unit func addr syndrome test s).cpu = s.cpu ∧
    (errReport det sev action unit func addr syndrome test s).mov = s.mov ∧ (errReport det sev action unit func addr syndrome test s).kst = s.kst := by
  obtain ⟨g, h, -⟩ := errReport_report det sev action unit func addr syndrome test s
  rw [h]
  exact ⟨rfl, rfl, rfl, rfl⟩

section
variable {s t u : State}

theorem laneDropAll_held (i : Nat) (s : State) : lanesHeld s (laneDropAll i s) :=
  ⟨tget_map_field Lane.blank Lane.queue _ (fun e => by split <;> exact ⟨rfl, rfl⟩) _,
    tget_map_field Lane.blank Lane.fenced _ (fun e => by split <;> exact ⟨rfl, rfl⟩) _, rfl⟩

theorem ledgerMirror_lanes (n : Nat) (s : State) : (ledgerMirror n s).lanes = s.lanes := by rw [(ledgerMirror_spend n s).rest]

theorem keyInvalidate_held (i : Nat) (s : State) : lanesHeld s (keyInvalidate i s) := by
  unfold keyInvalidate
  split
  · exact .refl s
  · refine lanesHeld.trans (.of_lanes ?_) (laneDropAll_held i _)
    rw [modKst_lanes]
    split
    · split
      · rfl
      · exact (ledgerMirror_lanes _ _).trans rfl
    · rfl

theorem keyRetire_held (i : Nat) (s : State) : lanesHeld s (keyRetire i s) := by
  unfold keyRetire
  split
  · exact .of_lanes rfl
  · exact keyInvalidate_held i s

theorem keyFailed_held (i : Nat) (s : State) : lanesHeld s (keyFailed i s) := by
  refine lanesHeld.trans ?_ (keyRetire_held i _)
  exact .of_lanes (errReport_blocks _ _ _ _ _ _ _ _ s).1

theorem vioQueue_held (v : VioReport) (s : State) : lanesHeld s (vioQueue v s) := by
  refine lanesHeld.trans ?_ (fireMsix_side 0 12 _).held
  exact .of_lanes rfl

end

/-! ### What running a block request holds -/

/-- A run that ends, and not by waiting for random bits, with the lanes' tables held. -/
def endHeld (s : State) (x : LaneEnd) : Prop := x.1 ≠ 255 ∧ lanesHeld s x.2.2

section
variable {n i len k : Nat} {s t : State} {r : LaneReq} {e : KEnt} {data : Bytes} {x : LaneEnd}

theorem endHeld.of {st : Nat} {out : Bytes} (hst : st ≠ 255) (h : lanesHeld s t) : endHeld s (st, out, t) := ⟨hst, h⟩

theorem endHeld.ite {c : Prop} [Decidable c] {y : LaneEnd} (h : endHeld s x) (k : endHeld s y) : endHeld s (if c then x else y) := by
  split <;> assumption

theorem endHeld.of_held (h : lanesHeld s t) (k : endHeld t x) : endHeld s x := ⟨k.1, h.trans k.2⟩

theorem modPort_held (n p : Nat) (g : LanePort → LanePort) (s : State) : lanesHeld s (modPort n p g s) := by
  refine modLane_held n _ ?_ ?_ s <;> exact fun _ => rfl

theorem laneDst_held (r : LaneReq) (a : Nat) (d : Bytes) (s : State) : lanesHeld s (laneDst r a d s) := .of_lanes (laneDst_lanes_ent r a d s).1

theorem spent_held (n : Nat) (r : LaneReq) (k : Nat) (s : State) : lanesHeld s (countOps n r k (laneSpend r k s)) :=
  lanesHeld.trans (.of_lanes (by rw [laneSpend_rest])) (countOps_side _ _ _ _).held

theorem laneSrc_held (r : LaneReq) (a k : Nat) (data : Bytes) (s : State) : lanesHeld s (laneSrc r a k data s).2 := by
  unfold laneSrc
  split
  · exact .refl s
  · exact (hostReads_side _ _ _).held

theorem deliver_held (n : Nat) (r : LaneReq) (i : Nat) (out : Bytes) (s : State) : endHeld s (deliver n r i out s) := by
  unfold deliver
  split
  · exact .of (by decide) (.refl s)
  · exact .of (by decide) (laneDst_held _ _ _ _)
  · exact .of (by decide) (modPort_held _ _ _ _)
  · exact .of (by decide) (.refl s)

theorem cipherRun_held (n : Nat) (r : LaneReq) (i : Nat) (e : KEnt) (len : Nat) (d : Bytes) (s : State) : endHeld s (cipherRun n r i e len d s) := by
  unfold cipherRun
  dsimp only
  refine .of_held ?_ (deliver_held _ _ _ _ _)
  split
  · exact modPort_held _ _ _ _
  · exact .refl s

theorem lanesHeld.ite {c : Prop} [Decidable c] {a b : State} (h : lanesHeld s a) (k : lanesHeld s b) : lanesHeld s (if c then a else b) := by
  split <;> assumption

theorem dataOp_held (n : Nat) (r : LaneReq) (i : Nat) (e : KEnt) (len : Nat) (data : Bytes) (s : State) : endHeld s (dataOp n r i e len data s) := by
  have told : ∀ st, st ≠ 255 → endHeld s (st, [], s) := fun _ h => .of h (.refl s)
  have hsrc : lanesHeld s (if rSrc r = 1 then (laneSrc r r.ain len data s).2 else s) := .ite (laneSrc_held _ _ _ _ _) (.refl s)
  unfold dataOp
  dsimp only
  generalize (if rOp r = 4 ∧ rPad r = 0 then _ else lanePad _ _ _) = pd
  cases pd with
  | none => exact told 4 (by decide)
  | some d =>
    refine .ite (told 4 (by decide)) (.ite (told 2 (by decide)) (.ite (told 4 (by decide)) (.ite (told 2 (by decide)) ?_)))
    generalize laneRefusal s r _ _ = v
    cases v with
    | some v => exact .of (by decide) (vioQueue_held v s)
    | none =>
      refine .ite (told 6 (by decide)) (.ite (told 3 (by decide)) (.ite ?_ ?_))
      · exact .of (by decide) (hsrc.trans (modPort_held _ _ _ _))
      · exact .of_held (hsrc.trans (spent_held _ _ _ _)) (cipherRun_held _ _ _ _ _ _ _)

theorem tagOp_held (n : Nat) (r : LaneReq) (e : KEnt) (len : Nat) (s : State) : endHeld s (tagOp n r e len s) := by
  have hspent := spent_held n r 1 s
  have hrelease : ∀ (l : List Quar) (s : State), lanesHeld s (l.foldl (fun s x => laneDst r x.addr x.data s) s) := by
    intro l
    induction l with
    | nil => exact .refl
    | cons x l ih => exact fun s => (laneDst_held _ _ _ s).trans (ih _)
  have hempty := hspent.trans ((modPort_held n r.core (fun q => { q with acc := 0 }) _).trans (modPort_held n r.core (fun q => { q with quar := [] }) _))
  unfold tagOp
  dsimp only
  refine .ite (.of (by decide) (.refl s)) (.ite (.of (by decide) (hspent.trans (modPort_held _ _ _ _)))
    (.ite (.of (by decide) (hspent.trans (modPort_held _ _ _ _))) (.ite (.of (by decide) (hempty.trans (hrelease _ _))) (.of (by decide) hempty))))

theorem blockWork_held (n : Nat) (r : LaneReq) (i : Nat) (e : KEnt) (len : Nat) (data : Bytes) (s : State) :
    endHeld s (blockWork n r i e len data s) := .ite (tagOp_held _ _ _ _ _) (dataOp_held _ _ _ _ _ _ _)

theorem blockClose_held (n : Nat) (r : LaneReq) (i : Nat) (e : KEnt) (hit : Bool) (s : State) : lanesHeld s (blockClose n r i e hit s) := by
  refine lanesHeld.trans (.ite (.refl s) (countLane_side 0x104 n r.core 1 s).held) (modLane_held n _ ?_ ?_ _) <;> exact fun _ => rfl

theorem blockReq_held (hinj : s.dbg.inj = none) (n : Nat) (r : LaneReq) (data : Bytes) : endHeld s (blockReq n r data s) := by
  have hfill : fillPass n r s = s := by
    unfold fillPass
    split
    · split
      · rfl
      · exact keyPass_uninjected hinj _
    · rfl
  have told : ∀ st, st ≠ 255 → endHeld s (st, [], s) := fun _ h => .of h (.refl s)
  unfold blockReq
  rw [hfill]
  refine .ite (told 4 (by decide)) ?_
  cases reqLen r with
  | none => exact told 4 (by decide)
  | some len =>
    cases laneKey s r with
    | none => exact told 2 (by decide)
    | some x =>
      have hwork := blockWork_held n r x.1 (slotKey s n x.1 x.2) len data s
      exact .ite (.of (by decide) (keyFailed_held x.1 s)) (.ite (told 2 (by decide))
        (.of hwork.1 (hwork.2.trans (blockClose_held n r x.1 (slotKey s n x.1 x.2) _ _))))

end

/-! ### Bit maps -/

theorem testBit_setBit_true (v i : Nat) : (setBit v i true).testBit i = true := by simp [setBit, Nat.shiftLeft_eq]

/-- A number whose bit `i` is set, by what stands above and below that bit. -/
theorem exists_of_testBit {v i : Nat} (h : v.testBit i = true) : ∃ q l, l < 2 ^ i ∧ v = 2 ^ i * (2 * q + 1) + l := by
  have hodd : v / 2 ^ i % 2 = 1 := by simpa [Nat.testBit_eq_decide_div_mod_eq] using h
  refine ⟨v / 2 ^ i / 2, v % 2 ^ i, Nat.mod_lt _ (by positivity), ?_⟩
  rw [show 2 * (v / 2 ^ i / 2) + 1 = v / 2 ^ i by omega]
  exact (Nat.div_add_mod v (2 ^ i)).symm

/-- Clearing a bit that is set clears it and no other. -/
theorem testBit_setBit_false {v i : Nat} (h : v.testBit i = true) (j : Nat) : (setBit v i false).testBit j = (decide (j ≠ i) && v.testBit j) := by
  have hset : setBit v i false = v - 2 ^ i := by simp [setBit, h, Nat.one_shiftLeft]
  obtain ⟨q, l, hl, rfl⟩ := exists_of_testBit h
  rw [hset, show 2 ^ i * (2 * q + 1) + l - 2 ^ i = 2 ^ i * (2 * q) + l by rw [Nat.mul_add, Nat.mul_one]; omega,
    Nat.testBit_two_pow_mul_add _ hl, Nat.testBit_two_pow_mul_add _ hl]
  obtain hj | rfl | hj := Nat.lt_trichotomy j i
  · simp [hj, hj.ne]
  · simp
  · obtain ⟨k, rfl⟩ := Nat.exists_eq_add_of_lt hj
    have hk : i + k + 1 - i = k + 1 := by omega
    rw [if_neg (by omega), if_neg (by omega), hk, Nat.testBit_succ, Nat.testBit_succ, show (2 * q + 1) / 2 = 2 * q / 2 by omega]
    simp
    omega

/-! ### Fencing (R175, R177) -/

section
variable {n p b : Nat} {s t u : State} {r : LaneReq} {data : Bytes}

/-- A block lane that is fenced stops, its physical lane is marked, and no other lane changes. -/
theorem laneFence_block (hb : b < 16) (det : Nat) (test : Bool) (s : State) :
    laneOf (laneFence b det test s) b = laneStop (laneOf s b) ∧ (∀ m, m ≠ b → laneOf (laneFence b det test s) m = laneOf s m) ∧
    (laneFence b det test s).lanes.blkFenced = setBit s.lanes.blkFenced (lanePhys s b) true ∧
    (laneFence b det test s).lanes.mismatches = s.lanes.mismatches ∧ (laneFence b det test s).cpu = s.cpu ∧
    (laneFence b det test s).mov = s.mov ∧ (laneFence b det test s).kst = s.kst := by
  have hblock : isBlock b = true := by simp [isBlock, hb]
  have hother : ¬ (isMod b = true ∨ isLat b = true) := by simp [isMod, isLat]; omega
  obtain ⟨u, hu⟩ : ∃ u, u = errReport det 2 4 (if det = 0x0B then b else lanePhys s b) 0 0 0 test s := ⟨_, rfl⟩
  obtain ⟨hlanes, hcpu, hmov, hkst⟩ := errReport_blocks det 2 4 (if det = 0x0B then b else lanePhys s b) 0 0 0 test s
  rw [← hu] at hlanes hcpu hmov hkst
  have hlane : ∀ m, laneOf u m = laneOf s m := fun m => by rw [laneOf, hlanes, laneOf]
  have hfence : laneFence b det test s = ledgerFail (laneStep b) (lanePhys s b)
      (modLanes (fun l => { l with blkFenced := setBit l.blkFenced (lanePhys s b) true }) (modLane b laneStop u)) := by
    simp only [laneFence, if_neg hother, hblock, if_true, hu]
  rw [hfence]
  refine ⟨?_, fun m hm => ?_, by rw [← hlanes]; rfl, by rw [← hlanes]; rfl, hcpu, hmov, hkst⟩
  · exact (laneOf_modLane_same b laneStop u).trans (congrArg laneStop (hlane b))
  · exact (laneOf_modLane_ne laneStop u hm).trans (hlane m)

theorem laneHeir_block (hb : b < 16) (s : State) : laneHeir s b = none := by
  have hmod : isMod b = false := by simp [isMod]; omega
  have hlat : isLat b = false := by simp [isLat]; omega
  simp [laneHeir, hmod, hlat]

/-- A block lane that stopped with the queue it had is fenced. -/
theorem laneFencedNow_of_stop (hb : b < 16) {l : Lane} (h : laneOf t b = laneStop l) (hq : l.queue = (laneOf s b).queue) : laneFencedNow s t b := by
  rw [laneFencedNow, h]
  exact ⟨rfl, rfl, rfl, rfl, rfl, fun _ => by rw [← hq]; rfl, fun m hm => by rw [laneHeir_block hb] at hm; cases hm⟩

/-- A block lane's partner is another block lane. -/
theorem lanePartner_block (hn : n < 16) (s : State) : lanePartner s n ≠ n ∧ lanePartner s n < 16 := by
  have hmod : isMod n = false := by simp [isMod]; omega
  have hlat : isLat n = false := by simp [isLat]; omega
  have hxor : ∀ n < 16, Nat.xor n 1 ≠ n ∧ Nat.xor n 1 < 16 ∧ Nat.xor n 2 ≠ n ∧ Nat.xor n 2 < 16 := by decide
  obtain ⟨h1, h1', h2, h2'⟩ := hxor n hn
  have hpartner : lanePartner s n = if (laneOf s (Nat.xor n 1)).fenced then Nat.xor n 2 else Nat.xor n 1 := by simp [lanePartner, hmod, hlat]
  rw [hpartner]
  split
  · exact ⟨h2, h2'⟩
  · exact ⟨h1, h1'⟩

theorem laneBegun_held (p : Nat) (r : LaneReq) (s : State) : lanesHeld s (laneBegun n p r s) := by
  refine lanesHeld.trans (.ite ?_ (.refl s)) (countLane_side 0x103 n p 1 _).held
  refine modLane_held n _ ?_ ?_ s <;> cases reqSingle s r <;> exact fun _ => rfl

/-- The mark of a request's end changes no fence, and no other lane's queue. -/
theorem laneMark_others (tag st : Nat) (out : Bytes) (s : State) : (laneOf (laneMark n tag st out s) n).fenced = (laneOf s n).fenced ∧
    (∀ m, m ≠ n → (laneOf (laneMark n tag st out s) m).queue = (laneOf s m).queue) ∧
    (laneMark n tag st out s).lanes.mismatches = s.lanes.mismatches := by
  obtain ⟨-, -, hlanes, -⟩ := laneMark_stays (n := n) (p := 0) tag st out s
  exact ⟨by rw [laneMark_lane]; rfl, fun m hm => by rw [hlanes m hm], rfl⟩

/-- The uncorrected memory error of a block lane. -/
theorem memoryError_fences (hn : n < 16) (hpick : lanePick s n = some p) (hnext : laneNext s n p = some r) (hon : lanesOn s = true) (hop : rOp r = 0) :
    ∃ t, exec (.encipher n p 4 data) s = .next t ∧ laneFencedNow s t n ∧ (∀ m, m ≠ n → laneOf t m = laneOf s m) ∧
      t.lanes.blkFenced.testBit (lanePhys s n) = true ∧ t.cpu = s.cpu ∧ t.mov = s.mov ∧ t.kst = s.kst := by
  have hgo := laneGo_memoryError hn hpick hnext hon (isOp := fun r => decide (rOp r = 0)) (decide_eq_true hop) (fun r s => blockReq n r data s)
  obtain ⟨hlane, hlanes, hfenced, -, hcpu, hmov, hkst⟩ := laneFence_block hn 0x0C false s
  have hrun : goBlock 0 n p 4 data s = laneFence n 0x0C false s := by rw [goBlock, if_pos (show isBlock n = true by simp [isBlock, hn]), hgo]
  exact ⟨_, congrArg Host.Outcome.next hrun, laneFencedNow_of_stop hn hlane rfl, hlanes, by rw [hfenced, testBit_setBit_true], hcpu, hmov, hkst⟩

theorem lanesHeld.partner (h : lanesHeld s t) (n : Nat) : lanePartner t n = lanePartner s n := by simp only [lanePartner, h.fenced]

/-- A twin difference is counted, and no lane changes by it. -/
theorem twinCount_lanes (n p : Nat) (s : State) : (∀ m, laneOf (twinCount n p s) m = laneOf s m) ∧
    (twinCount n p s).lanes.mismatches = min 65535 (s.lanes.mismatches + 1) ∧ (twinCount n p s).dbg = s.dbg := by
  have hside := countLane_side 0x106 n p 1 (modLanes (fun l => { l with mismatches := satAdd 0xFFFF l.mismatches 1 }) s)
  refine ⟨fun m => ?_, ?_, ?_⟩ <;> rw [twinCount, hside.1] <;> rfl

/-- A difference laid to the partner fences it, once the request has run. -/
theorem twinFault_partner (hn : n < 16) (hinj : s.dbg.inj = none) : ∃ x, endHeld (twinCount n r.core s) x ∧
    twinFault n 2 r false true (fun s => blockReq n r data s) s = laneFence (lanePartner s n) 0x0B false (laneMark n r.tag x.1 x.2.1 x.2.2) := by
  have hlat : isLat n = false := by simp [isLat]; omega
  have hheld := blockReq_held (s := twinCount n r.core s) (by rw [(twinCount_lanes n r.core s).2.2]; exact hinj) n r data
  exact ⟨_, hheld, by simp [twinFault, twinJudge, hlat, hheld.1, twinFence]⟩

/-- A twin difference laid to the partner of a block lane. -/
theorem twinDifference_fences (hn : n < 16) (hpick : lanePick s n = some p) (hnext : laneNext s n p = some r) (hon : lanesOn s = true)
    (hop : rOp r = 0) (hin : (laneOf s n).fenced = false) (htwin : r.twin = true) (hinj : s.dbg.inj = none) :
    ∃ t, exec (.encipher n p 2 data) s = .next t ∧ laneFencedNow s t (lanePartner s n) ∧ (laneOf t n).fenced = false ∧
      t.lanes.mismatches = min 65535 (s.lanes.mismatches + 1) := by
  obtain ⟨hne, hb⟩ := lanePartner_block hn s
  have hbegun := laneBegun_held (n := n) p r s
  obtain ⟨hsame, hcount, -⟩ := twinCount_lanes n r.core (laneBegun n p r s)
  have hdbg : (laneBegun n p r s).dbg.inj = none := by
    rw [(laneBegun_quiet (n := n) (p := p) (r := r) s).works.stays.frame.1]
    exact hinj
  obtain ⟨x, ⟨-, hheld⟩, hfault⟩ := twinFault_partner (r := r) (data := data) hn hdbg
  rw [hbegun.partner] at hfault
  obtain ⟨hmark, hothers, hkept⟩ := laneMark_others (n := n) r.tag x.1 x.2.1 x.2.2
  obtain ⟨hlane, hlanes, -, hmis, -⟩ := laneFence_block hb 0x0B false (laneMark n r.tag x.1 x.2.1 x.2.2)
  have hrun : goBlock 0 n p 2 data s = laneFence (lanePartner s n) 0x0B false (laneMark n r.tag x.1 x.2.1 x.2.2) := by
    rw [goBlock, if_pos (show isBlock n = true by simp [isBlock, hn]), laneGo_twinFault hn hpick hnext hon (decide_eq_true hop) htwin hinj (by decide)
      (by decide), hfault]
  refine ⟨_, congrArg Host.Outcome.next hrun, laneFencedNow_of_stop hb hlane ?_, ?_, ?_⟩
  · rw [hothers _ hne, hheld.queue, hsame, hbegun.queue]
  · rw [hlanes n hne.symm, hmark, hheld.fenced, hsame, hbegun.fenced]
    exact hin
  · rw [hmis, hkept, hheld.mismatches, hcount, hbegun.mismatches]

/-! ### Results on their way back (R158) -/

/-- The oldest request of a core on a lane leaves the queue. -/
def queueLess (n tag : Nat) (s : State) : State := modLane n (fun l => { l with queue := l.queue.filter fun q => decide (q.tag ≠ tag) }) s

theorem complete_delivers {st : Nat} {out : Bytes} (hfind : (laneOf s n).queue.find? (fun q => decide (q.core = p)) = some r)
    (hdone : r.done = some (st, out)) (hlost : r.lost = false) : exec (.laneOpComplete n p) s = .next (modCore p (fun c => { c with
      reqs := c.reqs.map fun q => if q.tag = r.tag then { q with done := some (st, out), arrived := s.time.refCount } else q }) (queueLess n r.tag s)) := by
  show execLaneOpComplete n p s = _
  simp only [execLaneOpComplete, hfind, hdone, hlost]
  rfl

theorem complete_lost (hfind : (laneOf s n).queue.find? (fun q => decide (q.core = p)) = some r) (hlost : r.lost = true) :
    exec (.laneOpComplete n p) s = .next (queueLess n r.tag s) := by
  show execLaneOpComplete n p s = _
  simp only [execLaneOpComplete, hfind, hlost]
  rfl

theorem laneOf_queueLess_same (n tag : Nat) (s : State) : laneOf (queueLess n tag s) n =
    { laneOf s n with queue := (laneOf s n).queue.filter fun q => decide (q.tag ≠ tag) } := laneOf_modLane_same _ _ _

theorem laneOf_queueLess_ne {m : Nat} (tag : Nat) (s : State) (h : m ≠ n) : laneOf (queueLess n tag s) m = laneOf s m := laneOf_modLane_ne _ _ h

/-- The result of the oldest request of a core on a lane goes to the core's port (R158). -/
theorem completion_delivers {st : Nat} {out : Bytes} (hfind : (laneOf s n).queue.find? (fun q => decide (q.core = p)) = some r)
    (hdone : r.done = some (st, out)) (hlost : r.lost = false) : ∃ t, exec (.laneOpComplete n p) s = .next t ∧
      (laneOf t n).queue = (laneOf s n).queue.filter (fun q => decide (q.tag ≠ r.tag)) ∧
      (∀ x ∈ (core s p).reqs, x.tag = r.tag → { x with done := some (st, out), arrived := s.time.refCount } ∈ (core t p).reqs) ∧
      (∀ x ∈ (core s p).reqs, x.tag ≠ r.tag → x ∈ (core t p).reqs) ∧ core t p = { core s p with reqs := (core t p).reqs } ∧
      (∀ m, m ≠ n → laneOf t m = laneOf s m) ∧ (∀ q, q ≠ p → core t q = core s q) ∧
      laneOf t n = { laneOf s n with queue := (laneOf t n).queue } ∧
      t = { s with lanes := { s.lanes with lanes := t.lanes.lanes }, cpu := { s.cpu with cores := t.cpu.cores } } := by
  refine ⟨_, complete_delivers hfind hdone hlost, congrArg Lane.queue (laneOf_queueLess_same n r.tag s), fun x hx htag => ?_, fun x hx htag => ?_, ?_,
    fun m hm => laneOf_queueLess_ne r.tag s hm, fun q hq => core_modCore_ne _ _ hq, ?_, rfl⟩
  · rw [core_modCore_same]
    exact List.mem_map.2 ⟨x, hx, if_pos htag⟩
  · rw [core_modCore_same]
    exact List.mem_map.2 ⟨x, hx, if_neg htag⟩
  · rw [core_modCore_same]
    rfl
  · exact (laneOf_queueLess_same n r.tag s).trans (congrArg (fun q => { laneOf s n with queue := q })
      (congrArg Lane.queue (laneOf_queueLess_same n r.tag s)).symm)

/-! ### A request to a fenced lane (R177, R214) -/

/-- A slot's end leaves the lanes. -/
theorem slotDone_lanes (p pc k x : Nat) (s : State) : (slotDone p pc k x s).lanes = s.lanes := by
  unfold slotDone
  dsimp only
  have hcount : ∀ s, (sampleSlot p pc false s).lanes = s.lanes := fun s => by
    obtain h | ⟨g, -, h⟩ := sampleSlot_only p pc false s <;> rw [h]
    rfl
  rw [hcount, (countCore_side _ _ _ _ _).1, (countCore_side _ _ _ _ _).1]
  split
  · rw [(countCore_side _ _ _ _ _).1]
  · rfl

/-- A slot that its operation ends well has the lanes as the operation left them. -/
theorem slot_lanes {len cost pops op : Nat} {f : Core → State → SlotR} (h : canRun s p = true) (hf : misfit (core s p) op = false)
    (ho : f (slotCore (core s p) len) s = .ok t) (hd : (core t p).ds.length ≤ 976) : (slot p len cost pops op f s).lanes = t.lanes := by
  obtain ⟨hg, hi⟩ := canRun_eq h
  have hd' : ¬ 976 < (core t p).ds.length := by omega
  simp only [slot, hg, hf, hi, ho, hd']
  exact (slotDone_lanes _ _ _ _ _).trans rfl

/-- What enters the queue of a fenced lane: the request with its tag and FENCED for its status (R177). -/
def fencedReq (c : Core) (r : LaneReq) (s : State) : LaneReq :=
  { r with tag := s.cpu.tagNo, done := some (7, []), winIn := c.winIn, winOut := c.winOut }

theorem issueTo_block_hash (hn : n < 24) (s : State) : issueTo s n = n := by
  have hmod : isMod n = false := by simp [isMod]; omega
  have hlat : isLat n = false := by simp [isLat]; omega
  simp [issueTo, laneTaker, hmod, hlat]

/-- A request to a fenced block or hash lane enters its queue with FENCED; no other queue and no held slot changes. -/
theorem issueLane_fenced {c : Core} (hn : n < 24) (hfenced : (laneOf s n).fenced = true) : issueLane p n c r s =
    modLane n (fun l => { l with queue := l.queue ++ [fencedReq c r s] })
      (setCore p { c with reqs := c.reqs ++ [⟨n, s.cpu.tagNo, isBlock n && decide (rDst r = 0), none, 0⟩] } (takeTag s).2) := by
  have hf : (laneOf (takeTag s).2 n).fenced = true := hfenced
  simp only [issueLane, issueTo_block_hash hn, hf, if_true, Option.isNone_some, Bool.false_eq_true, and_false, if_false]
  rfl

theorem issueNote_lanes (p : Nat) (s : State) : (issueNote p s).lanes = s.lanes := by
  unfold issueNote
  split <;> rfl

/-- A slot that starts with nothing fused keeps its core's stacks, requests and privileges. -/
theorem slotCore_unfused {c : Core} (h : c.fuse = none) (len : Nat) :
    slotCore c len = { c with lone := false, stall := false, issueWait := false, pc := (c.pc + len) % 2 ^ 32 } := by
  simp only [slotCore, h]

theorem misfit_unfused {c : Core} (h : c.fuse = none) : misfit c 0 = false := by simp [misfit, h]

/-- ISSUE is a slot that gives a lane with room a request of its core (R214-R216). -/
theorem opIssue_slot (p : Nat) (s : State) : ∃ f, exec (.opIssue p) s = .next (issueNote p (slot p 1 (issueCost s p) 7 0 f s)) ∧
    ∀ (c : Core) (port key ctl len olen ain aout : W32) (l : List W32), c.ds = port :: key :: ctl :: len :: olen :: ain :: aout :: l →
      port.toNat < 0x1E → portDenied c port.toNat = false → issueEntries port.toNat ctl.toNat ≤ c.bs.length → c.reqs.length < 32 →
      laneFull s (issueTo s port.toNat) = false → (∀ b, issueHold s port.toNat b = false) →
      ∃ q : LaneReq, q.core = p ∧ f c s = .ok (issueLane p port.toNat { c with ds := l, bs := c.bs.drop (issueEntries port.toNat ctl.toNat) } q s) := by
  refine ⟨_, rfl, fun c port key ctl len olen ain aout l hds hport hopen hbs hreqs hfull hhold => ?_⟩
  have hmover : port.toNat ≠ 0x1E := hport.ne
  have hport' : ¬ 0x1E < port.toNat := hport.not_gt
  have hbs' : ¬ c.bs.length < issueEntries port.toNat ctl.toNat := hbs.not_gt
  have hreqs' : ¬ 32 ≤ c.reqs.length := hreqs.not_ge
  refine ⟨⟨p, 0, key.toNat, ctl.toNat, ain.toNat, aout.toNat, len.toNat, olen.toNat, c.bs.take (issueEntries port.toNat ctl.toNat),
    issueTwin s c port.toNat ctl.toNat, none, false, 0, 0⟩, rfl, ?_⟩
  simp only [hds, hport', hopen, hbs', hreqs', hmover, hfull, hhold, Bool.false_eq_true, or_self, false_and, and_false, if_false]

/-- A firmware core's request to a fenced block or hash lane ends FENCED (R177). -/
theorem opIssue_fenced {port key ctl len olen ain aout : W32} {l : List W32}
    (hready : slotReady s p (port :: key :: ctl :: len :: olen :: ain :: aout :: l)) (hport : port.toNat < 24) (hprog : (core s p).prog = false)
    (hbs : issueEntries port.toNat ctl.toNat ≤ (core s p).bs.length) (hreqs : (core s p).reqs.length < 32)
    (hfenced : (laneOf s port.toNat).fenced = true) (hfull : laneFull s port.toNat = false) :
    ∃ t q, exec (.opIssue p) s = .next t ∧ (laneOf t port.toNat).queue = (laneOf s port.toNat).queue ++ [q] ∧ q.core = p ∧
      q.tag = s.cpu.tagNo ∧ q.done = some (7, []) ∧ ∀ n, n ≠ port.toNat → laneOf t n = laneOf s n := by
  obtain ⟨hrun, hfuse, hds, hlen⟩ := hready
  obtain ⟨f, hexec, hf⟩ := opIssue_slot p s
  obtain ⟨c, hc⟩ : ∃ c, c = slotCore (core s p) 1 := ⟨_, rfl⟩
  have hcore := slotCore_unfused hfuse 1
  rw [← hc] at hcore
  have hopen : portDenied c port.toNat = false := by simp [portDenied, hcore, hprog]
  obtain ⟨q, hqcore, hok⟩ := hf c port key ctl len olen ain aout l (by rw [hcore, ← hds]) (hport.trans (by decide)) hopen (by rw [hcore]; exact hbs)
    (by rw [hcore]; exact hreqs) (by rw [issueTo_block_hash hport]; exact hfull) (fun b => by simp [issueHold, hfenced])
  obtain ⟨d, hd, hdds⟩ : ∃ d : Core, d = { c with ds := l, bs := c.bs.drop (issueEntries port.toNat ctl.toNat) } ∧ d.ds = l := ⟨_, rfl, rfl⟩
  rw [← hd, issueLane_fenced hport hfenced, hc] at hok
  have hends := slot_lanes (cost := issueCost s p) (pops := 7) hrun (misfit_unfused hfuse) hok (by
    show (core (setCore p _ _) p).ds.length ≤ 976
    simp only [setCore, core_modCore_same, hdds]
    simp only [List.length_cons] at hlen
    omega)
  refine ⟨_, fencedReq d q s, hexec, ?_, hqcore, rfl, rfl, fun n hn => ?_⟩
  · rw [laneOf, issueNote_lanes, hends]
    exact congrArg Lane.queue (laneOf_modLane_same _ _ _)
  · rw [laneOf, issueNote_lanes, hends]
    exact laneOf_modLane_ne _ _ hn

/-! ### Spares (R177, R461) -/

theorem spareFor_block (hn : n < 16) {x : Nat} (h : spareFor s n = some x) : (x = 16 ∨ x = 17) ∧ s.lanes.blkFenced.testBit x = false := by
  have hblock : isBlock n = true := by simp [isBlock, hn]
  simp only [spareFor, hblock, if_true] at h
  have hmem := List.mem_of_find?_eq_some h
  have hfree := List.find?_some h
  simp only [Bool.and_eq_true, Bool.not_eq_true'] at hfree
  exact ⟨by simpa using hmem, hfree.1⟩

/-- Only a hash lane has a spare beside the block lanes. -/
theorem spareFor_hash (hn : 16 ≤ n) {x : Nat} (h : spareFor s n = some x) : x = 8 ∧ s.lanes.hashFenced.testBit x = false := by
  have hblock : isBlock n = false := by simp [isBlock, hn]
  simp only [spareFor, hblock, Bool.false_eq_true, if_false] at h
  have hmem := List.mem_of_find?_eq_some h
  have hfree := List.find?_some h
  simp only [Bool.and_eq_true, Bool.not_eq_true'] at hfree
  refine ⟨?_, hfree.1⟩
  split at hmem
  · simpa using hmem
  · simp at hmem

theorem laneSpareSwap_swaps {x : Nat} (hfenced : (laneOf s n).fenced = true) (hspare : spareFor s n = some x) :
    exec (.laneSpareSwap n) s = .next (laneSwap n x s) := by
  show execLaneSpareSwap n s = _
  simp only [execLaneSpareSwap, hspare, hfenced, if_true]

theorem laneOf_modLanes_of {g : Lanes → Lanes} (h : ∀ l, (g l).lanes = l.lanes) (m : Nat) : laneOf (modLanes g s) m = laneOf s m := by
  show tget Lane.blank (g s.lanes).lanes m = _
  rw [h]
  rfl

/-- A spare takes a lane's place with empty key slots; no other lane changes. -/
theorem laneSwap_lanes (n x : Nat) (s : State) :
    laneOf (laneSwap n x s) n = { laneOf s n with phys := some x, fenced := false, slots := [], drops := [] } ∧
    ∀ m, m ≠ n → laneOf (laneSwap n x s) m = laneOf s m := by
  have hkept : ∀ s m, laneOf (modLanes (fun l => if isBlock n then { l with blkSpares := l.blkSpares - 1 } else { l with hashSpare := false }) s) m =
      laneOf s m :=
    fun s m => laneOf_modLanes_of (fun l => by split <;> rfl) m
  exact ⟨(hkept _ n).trans (laneOf_modLane_same _ _ _), fun m hm => (hkept _ m).trans (laneOf_modLane_ne _ _ hm)⟩

theorem laneSwap_block (hn : n < 16) (x : Nat) (s : State) :
    (laneSwap n x s).lanes.blkSpares = s.lanes.blkSpares - 1 ∧ (laneSwap n x s).lanes.hashSpare = s.lanes.hashSpare := by
  have hblock : isBlock n = true := by simp [isBlock, hn]
  simp only [laneSwap, hblock, if_true]
  exact ⟨rfl, rfl⟩

theorem laneSwap_hash (hn : 16 ≤ n) (x : Nat) (s : State) :
    (laneSwap n x s).lanes.hashSpare = false ∧ (laneSwap n x s).lanes.blkSpares = s.lanes.blkSpares := by
  have hblock : isBlock n = false := by simp [isBlock, hn]
  simp only [laneSwap, hblock, Bool.false_eq_true, if_false]
  exact ⟨rfl, rfl⟩

/-! ### The wake of a hash lane (R461) -/

theorem hashLaneWake_wakes (hn : 16 ≤ n) (hn' : n < 24) (hasleep : s.pwr.hashAsleep.testBit (n - 16) = true) (hqueue : (laneOf s n).queue ≠ []) :
    exec (.hashLaneWake n) s = .next (modPwr (fun p => { p with hashAsleep := setBit p.hashAsleep (n - 16) false }) s) := by
  have hhash : isHash n = true := by simp [isHash, hn, hn']
  show execHashLaneWake n s = _
  simp [execHashLaneWake, laneAsleep, hhash, hasleep, hqueue]

end

/-- Settles O24: a result's delivery and the wake by what their steps leave, the fenced lane's answer by the slot of ISSUE, the fencing by the lane
that stops once the request has run, and the spare by the search for the lowest one free. -/
theorem laneEnds : Obligations.LaneEnds := by
  unfold Obligations.LaneEnds
  refine ⟨fun s n p st r out hfind hdone hlost => completion_delivers hfind hdone hlost, fun s n p r hfind hlost => ?_,
    fun s p port key ctl len olen ain aout l hready hport hprog hbs hreqs hfenced hfull =>
      opIssue_fenced hready hport hprog hbs hreqs hfenced hfull,
    fun s n p r data hn hpick hnext hon hop => ⟨fun _ => memoryError_fences hn hpick hnext hon hop,
      fun hin htwin hinj => twinDifference_fences hn hpick hnext hon hop hin htwin hinj⟩,
    fun s n x hfenced hspare => ?_, fun s n hn hn' hasleep hqueue => ?_⟩
  · exact ⟨_, complete_lost hfind hlost, congrArg Lane.queue (laneOf_queueLess_same n r.tag s), rfl, fun m hm => laneOf_queueLess_ne r.tag s hm⟩
  · obtain ⟨hlane, hlanes⟩ := laneSwap_lanes n x s
    refine ⟨_, laneSpareSwap_swaps hfenced hspare, hlane, fun hn => ?_, fun hn => ?_, hlanes, rfl⟩
    · exact ⟨(spareFor_block hn hspare).1, (spareFor_block hn hspare).2, laneSwap_block hn x s⟩
    · exact ⟨(spareFor_hash hn hspare).1, (spareFor_hash hn hspare).2, laneSwap_hash hn x s⟩
  · refine ⟨_, hashLaneWake_wakes hn hn' hasleep hqueue, ?_, fun k hk => ?_, rfl⟩
    · exact (testBit_setBit_false hasleep (n - 16)).trans (by simp)
    · exact (testBit_setBit_false hasleep k).trans (by simp [hk])

end Sys2Proof.Machine
end
